-- ==== Sys2Proof/Word.lean ====
section
/-! DEFINITION. The word types of the terminal: bytes and the 32-bit words of the register space (00_scope.md R9). -/

namespace Sys2Proof

/-- One byte of a memory or of a frame. -/
abbrev Byte := BitVec 8

/-- One word of the register space (R9, R462). -/
abbrev Word := BitVec 32

end Sys2Proof
end

