-- ==== Sys2Proof/Syntax.lean ====
section
/-! DEFINITION. The commands of the terminal as syntax: one constructor of Instr for each row of the spec's table of
operations and events, and the plain data their operands are made of. -/

namespace Sys2Proof

/-- A fault that a cell or a block reports in the same instant as a handshake timeout (R31 to R35): CODE (0x01 SRAM_CORR, 0x02
SRAM_UNCORR, 0x03 HS_TIMEOUT, 0x06 ARB_PARITY), the cell where a cell reports it, DETAIL, and how many of its replays fail. -/
structure HwErr where
  code : Nat
  cell : Fin 11
  detail : Nat
  fails : Fin 4
deriving DecidableEq, Repr

/-- The commands the terminal takes: one for each row of the table of operations and events. The first operand of each is
its instant `t`, in picoseconds from reset (log entry 1). -/
inductive Instr where
  /-- PACE_WINDOW_END (R20). -/
  | paceWindowEnd (t : Nat) (n : Fin 4) (meas : List Nat)
  /-- HS_TIMEOUT (R38). -/
  | hsTimeout (t : Nat) (b : Fin 32) (k : Fin 11) (stage : Nat) (fails : Fin 4) (since : Nat) (more : List HwErr)
  /-- SPARE_TAKEOVER (R37). -/
  | spareTakeover (t : Nat) (b : Fin 32) (k : Fin 11)
  /-- ERR_RESOLVE (R36). -/
  | errResolve (t : Nat) (n : Nat)
  /-- ALM_LOAD_START (R66). -/
  | almLoadStart (t : Nat) (sess : Fin 5) (v : Nat)
  /-- ALM_READ_DONE (R66). -/
  | almReadDone (t : Nat) (hdrOk : Bool) (restOk : Bool)
  /-- ALM_VERIFY_DONE (R66). -/
  | almVerifyDone (t : Nat)
  /-- ALM_PREPARE_DONE (R66). -/
  | almPrepareDone (t : Nat)
  /-- ALM_SLOT_FREED (R66). -/
  | almSlotFreed (t : Nat)
  /-- ALM_SLOT_TIMEOUT (R66). -/
  | almSlotTimeout (t : Nat)
  /-- ALM_LOAD_CANCEL (R66). -/
  | almLoadCancel (t : Nat)
  /-- ALM_ARB_ADVANCE (R63). -/
  | almArbAdvance (t : Nat) (v : Nat)
  /-- BEGIN (R70). -/
  | zcpBegin (t : Nat) (frame : List Byte)
  /-- STAGE (R472). -/
  | zcpStage (t : Nat) (frame : List Byte)
  /-- COMMIT (R72). -/
  | zcpCommit (t : Nat) (frame : List Byte)
  /-- ABORT (R342). -/
  | zcpAbort (t : Nat) (frame : List Byte)
  /-- COMMIT_POINT (R74). -/
  | commitPoint (t : Nat)
  /-- TXN_STATUS_EXPIRE (R77). -/
  | txnStatusExpire (t : Nat)
  /-- OCTAVE_BOUNDARY (R73). -/
  | octaveBoundary (t : Nat) (mismatch : Bool)
  /-- HANDOVER_WINDOW_OPEN (R78). -/
  | handoverWindowOpen (t : Nat)
  /-- HANDOVER_WINDOW_CLOSE (R78). -/
  | handoverWindowClose (t : Nat)
  /-- SHADOW_WRITE (R80). -/
  | shadowWrite (t : Nat) (who : Fin 20) (a : Nat) (v : Nat)
  /-- SHADOW_WRITE_LAND (R81). -/
  | shadowWriteLand (t : Nat)
  /-- JUB_ENTER (R83). -/
  | jubEnter (t : Nat)
  /-- JUB_CANCEL (R86). -/
  | jubCancel (t : Nat)
  /-- JUB_OLD_RELEASED (R83). -/
  | jubOldReleased (t : Nat)
  /-- DS_ENABLE (R93). -/
  | dsEnable (t : Nat) (k : Fin 16) (v : Nat)
  /-- DS_COLD (R91). -/
  | dsCold (t : Nat) (k : Fin 16)
  /-- DS_OSC_SETTLED (R93). -/
  | dsOscSettled (t : Nat) (k : Fin 16)
  /-- DS_DSP_LOCKED (R93). -/
  | dsDspLocked (t : Nat) (k : Fin 16) (cd : Int)
  /-- DS_ACQ_TIMEOUT (R93). -/
  | dsAcqTimeout (t : Nat) (k : Fin 16)
  /-- PSYNC_CANDIDATE (R98). -/
  | psyncCandidate (t : Nat) (k : Fin 16) (pos : Nat) (w : List Byte)
  /-- CANDIDATE_TEST (R98). -/
  | candidateTest (t : Nat) (k : Fin 16) (pos : Nat) (w : List Byte)
  /-- DS_FRAME (R99). -/
  | dsFrame (t : Nat) (k : Fin 16) (sync : List Byte) (hdr : List Byte) (area : List Byte)
  /-- LOS_DECLARE (R108). -/
  | losDeclare (t : Nat) (k : Fin 16) (lock : Bool)
  /-- LOS_CLEAR (R108). -/
  | losClear (t : Nat) (k : Fin 16)
  /-- RDI_TIMEOUT (R108). -/
  | rdiTimeout (t : Nat) (k : Fin 16)
  /-- CARRIAGE_UNIT (R104). -/
  | carriageUnit (t : Nat) (k : Fin 16) (hdr : List Byte) (data : List Byte)
  /-- FRAG_TIMEOUT (R106). -/
  | fragTimeout (t : Nat) (k : Fin 16) (tag : Nat)
  /-- CHMON_AIS_TIMEOUT (R109). -/
  | chmonAisTimeout (t : Nat) (m : Fin 1024)
  /-- CHMON_CH_LOSS (R109). -/
  | chmonChLoss (t : Nat) (m : Fin 1024)
  /-- SECOND_LATCH (R111). -/
  | secondLatch (t : Nat)
  /-- COUNTER_LO_READ (R112). -/
  | counterLoRead (t : Nat) (a : Nat)
  /-- WATCH_DWELL_END (R89). -/
  | watchDwellEnd (t : Nat) (sync : Bool) (diffs : List Int) (trace : List Byte) (cd : Int)
  /-- APS_MANUAL (R113). -/
  | apsManual (t : Nat)
  /-- APS_FORCE (R113). -/
  | apsForce (t : Nat)
  /-- APS_LOCKOUT (R113). -/
  | apsLockout (t : Nat)
  /-- APS_CLEAR (R113). -/
  | apsClear (t : Nat)
  /-- APS_AUTO_HOLD (R113). -/
  | apsAutoHold (t : Nat)
  /-- APS_WTR_EXPIRE (R113). -/
  | apsWtrExpire (t : Nat)
  /-- APS_HOLD_END (R113). -/
  | apsHoldEnd (t : Nat)
  /-- APS_QUIESCED (R114). -/
  | apsQuiesced (t : Nat)
  /-- APS_PATH_MOVED (R114). -/
  | apsPathMoved (t : Nat)
  /-- APS_SYNC (R114). -/
  | apsSync (t : Nat)
  /-- APS_RESUME (R114). -/
  | apsResume (t : Nat)
  /-- APS_SWITCH_TIMEOUT (R114). -/
  | apsSwitchTimeout (t : Nat)
  /-- DISCOVERY (R129). -/
  | discovery (t : Nat) (k : Fin 16)
  /-- ASSIGN_ID (R130). -/
  | assignId (t : Nat) (k : Fin 16)
  /-- RANGING_REQ (R132). -/
  | rangingReq (t : Nat) (k : Fin 16)
  /-- RANGING_TIME (R133). -/
  | rangingTime (t : Nat) (k : Fin 16)
  /-- ASSIGN_ALLOC (R126). -/
  | assignAlloc (t : Nat) (k : Fin 16)
  /-- EMIT_RELEASE (R117). -/
  | emitRelease (t : Nat) (k : Fin 16)
  /-- EMIT_SILENCE (R117). -/
  | emitSilence (t : Nat) (k : Fin 16)
  /-- EMIT_CH_OFF (R126). -/
  | emitChOff (t : Nat) (k : Fin 16)
  /-- DEACTIVATE (R117). -/
  | deactivate (t : Nat) (k : Fin 16)
  /-- QUAR_RELEASE (R150). -/
  | quarRelease (t : Nat) (k : Fin 16)
  /-- RDI (R108). -/
  | rdi (t : Nat) (k : Fin 16)
  /-- TOD_MAP (R272). -/
  | todMap (t : Nat) (k : Fin 16)
  /-- TOD_MAP_HELD_MEASURE (R272). -/
  | todMapHeldMeasure (t : Nat)
  /-- EPACT (R274). -/
  | epact (t : Nat) (k : Fin 16)
  /-- ANNOUNCE_TIMEOUT (R117). -/
  | announceTimeout (t : Nat)
  /-- RANGING_TIMEOUT (R117). -/
  | rangingTimeout (t : Nat)
  /-- LAPSE_TIMEOUT (R117). -/
  | lapseTimeout (t : Nat)
  /-- LOOPBACK_ENTER (R117). -/
  | loopbackEnter (t : Nat)
  /-- LOOPBACK_LEAVE (R117). -/
  | loopbackLeave (t : Nat)
  /-- EVENTIDE_ENTER (R427). -/
  | eventideEnter (t : Nat)
  /-- EVENTIDE_EMIT_END (R116). -/
  | eventideEmitEnd (t : Nat)
  /-- GRANT_ENTRY (R136). -/
  | grantEntry (t : Nat) (k : Fin 16) (idx : Nat) (w : Nat) (watch : Nat)
  /-- ANNOUNCE_UNANSWERED (R129). -/
  | announceUnanswered (t : Nat)
  /-- RANGING_REQ_EXPIRE (R132). -/
  | rangingReqExpire (t : Nat)
  /-- BURST_FORM (R146). -/
  | burstForm (t : Nat) (k : Fin 16)
  /-- BURST_START (R140). -/
  | burstStart (t : Nat) (k : Fin 16) (und : Option Nat)
  /-- BURST_END (R140). -/
  | burstEnd (t : Nat) (k : Fin 16)
  /-- UP_FRAG_TIMEOUT (R144). -/
  | upFragTimeout (t : Nat) (k : Fin 16) (alloc : Nat)
  /-- GUARD_TRIP (R148). -/
  | guardTrip (t : Nat) (k : Fin 16) (cause : Fin 8)
  /-- PIPELINE_PASS (R153). -/
  | pipelinePass (t : Nat) (b : Fin 32)
  /-- FRAME_LAST_BYTE (R474). -/
  | frameLastByte (t : Nat) (id : Nat) (rest : List Byte) (fcsOk : Bool)
  /-- FLOW_FETCH_DONE (R168). -/
  | flowFetchDone (t : Nat) (table : Fin 8) (bank : Fin 2) (key : Nat)
  /-- GEN_EXPIRE (R178). -/
  | genExpire (t : Nat) (n : Fin 4)
  /-- FLOW_INSERT (R170). -/
  | flowInsert (t : Nat) (table : Fin 8) (bank : Fin 2)
  /-- FLOW_DELETE (R170). -/
  | flowDelete (t : Nat) (table : Fin 8) (bank : Fin 2)
  /-- FLOW_LOOKUP (R170). -/
  | flowLookup (t : Nat) (table : Fin 8) (bank : Fin 2)
  /-- FLOW_CMD_DONE (R170). -/
  | flowCmdDone (t : Nat)
  /-- TABLE_WINDOW_WRITE (R172). -/
  | tableWindowWrite (t : Nat) (who : Fin 20) (a : Nat) (v : Nat)
  /-- SCHED_DECISION (R192). -/
  | schedDecision (t : Nat) (p : Fin 128) (und : Option Nat)
  /-- PFC_REFRESH (R210). -/
  | pfcRefresh (t : Nat) (p : Fin 128)
  /-- SPILL_REFILL (R189). -/
  | spillRefill (t : Nat) (q : Fin 32768) (bad : Option (Fin 2 × Nat))
  /-- GATE_ENTRY_ADVANCE (R205). -/
  | gateEntryAdvance (t : Nat) (p : Fin 128)
  /-- GATE_BASE_REACHED (R206). -/
  | gateBaseReached (t : Nat) (p : Fin 128)
  /-- SMP_ENABLE (R232). -/
  | smpEnable (t : Nat) (x : Fin 96) (v : Nat)
  /-- SMP_STEP (R227). -/
  | smpStep (t : Nat) (x : Fin 96) (host : Bool)
  /-- SMP_ROW_ARRIVAL (R229). -/
  | smpRowArrival (t : Nat) (x : Fin 96)
  /-- SMP_SYM_TIMEOUT (R231). -/
  | smpSymTimeout (t : Nat) (x : Fin 96)
  /-- SMP_MEM_WRITE (R235). -/
  | smpMemWrite (t : Nat) (who : Fin 20) (a : Nat) (v : Nat)
  /-- IQ_FRAME_ASSEMBLE (R249). -/
  | iqFrameAssemble (t : Nat) (x : Fin 96)
  /-- IQ_ASM_TIMEOUT (R249). -/
  | iqAsmTimeout (t : Nat) (x : Fin 96)
  /-- IQ_OUTPUT_BLOCK (R253). -/
  | iqOutputBlock (t : Nat) (x : Fin 96)
  /-- COEF_FRAME (R258). -/
  | coefFrame (t : Nat) (x : Fin 96)
  /-- COEF_SET_TIMEOUT (R258). -/
  | coefSetTimeout (t : Nat) (x : Fin 96)
  /-- DOMAIN_LOSS_TIMEOUT (R275). -/
  | domainLossTimeout (t : Nat) (d : Fin 2)
  /-- PPS_IN_EDGE (R278). -/
  | ppsInEdge (t : Nat) (width : Nat)
  /-- PPS_MISSING (R278). -/
  | ppsMissing (t : Nat)
  /-- PPS_STUCK (R278). -/
  | ppsStuck (t : Nat)
  /-- TOD_RX_MSG (R279). -/
  | todRxMsg (t : Nat) (wire : List (Nat × Byte))
  /-- FREQ_IN_MEASURE (R280). -/
  | freqInMeasure (t : Nat) (ppb : Int)
  /-- FREQIN_INTEGRAL_UPDATE (R280). -/
  | freqinIntegralUpdate (t : Nat) (phase : Int)
  /-- B_MEAS_WRITE (R281). -/
  | bMeasWrite (t : Nat) (core : Bool) (invalid : Bool) (ofs : Int)
  /-- SEL_CFG_WRITE (R282). -/
  | selCfgWrite (t : Nat) (v : Nat)
  /-- SEL_WTR_EXPIRE (R282). -/
  | selWtrExpire (t : Nat)
  /-- STEER_UPDATE (R283). -/
  | steerUpdate (t : Nat)
  /-- TIME_STEP (R288). -/
  | timeStep (t : Nat) (core : Bool) (lo : Nat) (hi : Nat)
  /-- SLEW_WRITE (R284). -/
  | slewWrite (t : Nat) (core : Bool) (v : Nat)
  /-- TMG_NS_READ (R265). -/
  | tmgNsRead (t : Nat)
  /-- OSC_CHECK (R293). -/
  | oscCheck (t : Nat) (rp : Nat) (rs : Nat) (dp : Nat) (ds : Nat)
  /-- LEAP_APPLY (R294). -/
  | leapApply (t : Nat)
  /-- PPS_OUT_EDGE (R295). -/
  | ppsOutEdge (t : Nat) (j : Fin 2)
  /-- TOD_TX_SEND (R296). -/
  | todTxSend (t : Nat)
  /-- PTP_SYNC_SEND (R297). -/
  | ptpSyncSend (t : Nat) (p : Fin 128)
  /-- ESMC_INFO_SEND (R301). -/
  | esmcInfoSend (t : Nat) (p : Fin 128)
  /-- ESMC_EVENT_SEND (R301). -/
  | esmcEventSend (t : Nat) (p : Fin 128)
  /-- PORT_LIGHT_ON (R306). -/
  | portLightOn (t : Nat) (p : Fin 128)
  /-- PORT_TRAIN_LOCKED (R306). -/
  | portTrainLocked (t : Nat) (p : Fin 128)
  /-- PORT_TRAIN_TIMEOUT (R306). -/
  | portTrainTimeout (t : Nat) (p : Fin 128)
  /-- PORT_RETRAIN_DELAY (R306). -/
  | portRetrainDelay (t : Nat) (p : Fin 128)
  /-- PORT_LINK_FAULT (R306). -/
  | portLinkFault (t : Nat) (p : Fin 128) (light : Bool) (lf : Bool)
  /-- PORT_ADMIN_DOWN (R306). -/
  | portAdminDown (t : Nat) (p : Fin 128) (v : Nat)
  /-- PORT_FLUSH_TIMEOUT (R307). -/
  | portFlushTimeout (t : Nat) (p : Fin 128)
  /-- LOCAL_FRAME_RX (R305). -/
  | localFrameRx (t : Nat) (p : Fin 128) (bytes : List Byte) (whole : Bool) (sfd : Bool) (fcsOk : Bool)
  /-- PAUSE_FRAME_RX (R308). -/
  | pauseFrameRx (t : Nat) (p : Fin 129) (bytes : List Byte) (fcsOk : Bool)
  /-- PAUSE_EXPIRE (R309). -/
  | pauseExpire (t : Nat) (p : Fin 129) (k : Fin 8)
  /-- PAUSE_WD_EXPIRE (R310). -/
  | pauseWdExpire (t : Nat) (p : Fin 129) (k : Fin 8)
  /-- PAUSE_RELEASE_END (R310). -/
  | pauseReleaseEnd (t : Nat) (p : Fin 129) (k : Fin 8)
  /-- IDLE_ENTER (R315). -/
  | idleEnter (t : Nat) (p : Fin 128)
  /-- WAKE_BURST_SEND (R316). -/
  | wakeBurstSend (t : Nat) (p : Fin 128) (rx : Bool)
  /-- WAKE_LOCKED (R316). -/
  | wakeLocked (t : Nat) (p : Fin 128)
  /-- WAKE_FAIL (R316). -/
  | wakeFail (t : Nat) (p : Fin 128)
  /-- LOOP_SET (R317). -/
  | loopSet (t : Nat) (p : Fin 128) (v : Nat)
  /-- HOST_LANE_CFG (R318). -/
  | hostLaneCfg (t : Nat) (v : Nat)
  /-- HOST_LANE_APPLY (R318). -/
  | hostLaneApply (t : Nat)
  /-- HOST_MODE_ALTERNATE (R318). -/
  | hostModeAlternate (t : Nat)
  /-- SBUS_FRAME_TX (R322). -/
  | sbusFrameTx (t : Nat) (coll : Option Nat) (runs : Bool)
  /-- SBUS_BACKOFF_END (R322). -/
  | sbusBackoffEnd (t : Nat) (coll : Option Nat) (runs : Bool)
  /-- SBUS_JABBER (R322). -/
  | sbusJabber (t : Nat)
  /-- SBUS_GUARD_RELEASE (R326). -/
  | sbusGuardRelease (t : Nat) (coll : Option Nat) (runs : Bool)
  /-- SBUS_POLL_SEND (R324). -/
  | sbusPollSend (t : Nat) (e : Fin 64)
  /-- SBUS_POLL_TIMEOUT (R324). -/
  | sbusPollTimeout (t : Nat) (e : Fin 64)
  /-- SBUS_REPLY (R324). -/
  | sbusReply (t : Nat) (bytes : List Byte) (fcsOk : Bool)
  /-- SBUS_ALARM (R325). -/
  | sbusAlarm (t : Nat) (bytes : List Byte) (fcsOk : Bool)
  /-- SBUS_FRAME_RX (R324). -/
  | sbusFrameRx (t : Nat) (bytes : List Byte) (fcsOk : Bool)
  /-- SBUS_ALARM_STUCK (R325). -/
  | sbusAlarmStuck (t : Nat) (e : Fin 64)
  /-- OPEN (R334). -/
  | zcpOpen (t : Nat) (frame : List Byte)
  /-- CONFIRM (R334). -/
  | zcpConfirm (t : Nat) (frame : List Byte)
  /-- CONFIRM_TIMEOUT (R334). -/
  | confirmTimeout (t : Nat) (sess : Fin 4)
  /-- KEEPALIVE (R336). -/
  | zcpKeepalive (t : Nat) (frame : List Byte)
  /-- CLOSE (R336). -/
  | zcpClose (t : Nat) (frame : List Byte)
  /-- IDLE_TIMEOUT (R336). -/
  | idleTimeout (t : Nat) (sess : Fin 4)
  /-- READ (R340). -/
  | zcpRead (t : Nat) (frame : List Byte) (bad : Option Nat)
  /-- WRITE (R340). -/
  | zcpWrite (t : Nat) (frame : List Byte)
  /-- REGISTER_WRITE (R467). -/
  | registerWrite (t : Nat) (who : Fin 20) (a : Nat) (v : Nat)
  /-- MODIFY (R340). -/
  | zcpModify (t : Nat) (frame : List Byte) (bad : Option Nat)
  /-- BULK_WRITE (R341). -/
  | zcpBulkWrite (t : Nat) (frame : List Byte)
  /-- BULK_READ (R341). -/
  | zcpBulkRead (t : Nat) (frame : List Byte) (bad : Option Nat)
  /-- BULK_DIGEST (R341). -/
  | zcpBulkDigest (t : Nat) (frame : List Byte) (bad : Option Nat)
  /-- ATTEST (R386). -/
  | zcpAttest (t : Nat) (frame : List Byte)
  /-- PACKET (R346). -/
  | zcpPacket (t : Nat) (frame : List Byte)
  /-- ZCP_RESET (R344). -/
  | zcpReset (t : Nat) (frame : List Byte)
  /-- EVENT_ACK (R347). -/
  | eventAck (t : Nat) (frame : List Byte)
  /-- EVENT_SEND (R347). -/
  | eventSend (t : Nat) (sess : Fin 4)
  /-- EVENT_RESEND (R347). -/
  | eventResend (t : Nat) (sess : Fin 4)
  /-- SP_PACKET_SEND (R345). -/
  | spPacketSend (t : Nat)
  /-- DMA_TAIL_WRITE (R350). -/
  | dmaTailWrite (t : Nat) (ch : Fin 64) (v : Nat)
  /-- DMA_CH_CFG_WRITE (R353). -/
  | dmaChCfgWrite (t : Nat) (ch : Fin 64) (owner : Fin 5) (v : Nat)
  /-- DMA_TIMER_TICK (R351). -/
  | dmaTimerTick (t : Nat) (ch : Fin 64)
  /-- DMA_REQUEST (R351). -/
  | dmaRequest (t : Nat) (line : Fin 3)
  /-- DMA_SWREQ (R351). -/
  | dmaSwreq (t : Nat) (v : Nat)
  /-- DMA_BURST (R352). -/
  | dmaBurst (t : Nat) (bad : Option Nat)
  /-- DMA_STOP (R352). -/
  | dmaStop (t : Nat) (ch : Fin 64)
  /-- DMA_START (R355). -/
  | dmaStart (t : Nat) (ch : Fin 64)
  /-- DMA_RESET_RING (R355). -/
  | dmaResetRing (t : Nat) (ch : Fin 64)
  /-- ACTIVATE (R362). -/
  | taskActivate (t : Nat) (j : Fin 16) (task : Fin 512)
  /-- END (R362). -/
  | taskEnd (t : Nat) (j : Fin 16)
  /-- YIELD (R362). -/
  | taskYield (t : Nat) (j : Fin 16)
  /-- DELAY (R362). -/
  | taskDelay (t : Nat) (j : Fin 16) (arg : Nat)
  /-- DELAY_UNTIL (R362). -/
  | taskDelayUntil (t : Nat) (j : Fin 16) (arg : Nat)
  /-- WAIT (R362). -/
  | taskWait (t : Nat) (j : Fin 16) (arg : Nat)
  /-- SIGNAL (R362). -/
  | taskSignal (t : Nat) (j : Fin 16) (task : Fin 512) (arg : Nat)
  /-- SUSPEND (R362). -/
  | taskSuspend (t : Nat) (j : Fin 16) (task : Fin 512)
  /-- RESUME (R362). -/
  | taskResume (t : Nat) (j : Fin 16) (task : Fin 512)
  /-- SET_PRIO (R362). -/
  | taskSetPrio (t : Nat) (j : Fin 16) (task : Fin 512) (arg : Nat)
  /-- SCHED_NEXT_READ (R362). -/
  | schedNextRead (t : Nat) (j : Fin 16)
  /-- TASK_DISPATCH (R363). -/
  | taskDispatch (t : Nat) (task : Fin 512)
  /-- SOURCE_PENDING (R364). -/
  | sourcePending (t : Nat) (n : Fin 64)
  /-- SWSRC_SET (R364). -/
  | swsrcSet (t : Nat) (v : Nat)
  /-- SCHED_TICK (R367). -/
  | schedTick (t : Nat)
  /-- PREEMPT_TIMEOUT (R363). -/
  | preemptTimeout (t : Nat) (j : Fin 16)
  /-- TASK_WATCHDOG (R368). -/
  | taskWatchdog (t : Nat) (j : Fin 16)
  /-- CORE_WATCHDOG_RESET (R368). -/
  | coreWatchdogReset (t : Nat) (j : Fin 16)
  /-- MTIMER_INTERRUPT (R359). -/
  | mtimerInterrupt (t : Nat) (j : Fin 16)
  /-- HOST_CMD_BUSY (R361). -/
  | hostCmdBusy (t : Nat)
  /-- MCU_HOST_CMD (R361). -/
  | mcuHostCmd (t : Nat) (v : Nat)
  /-- TASK_CFG_WRITE (R360). -/
  | taskCfgWrite (t : Nat) (k : Fin 512) (v : Nat)
  /-- MCU_HALT (R375). -/
  | mcuHalt (t : Nat) (v : Nat)
  /-- WQ_POINTER_WRITE (R365). -/
  | wqPointerWrite (t : Nat) (w : Fin 49) (tail : Bool) (v : Nat)
  /-- TX_DESC_PROCESS (R366). -/
  | txDescProcess (t : Nat) (j : Fin 16)
  /-- MCU_SPARE_GO (R370). -/
  | mcuSpareGo (t : Nat) (v : Nat)
  /-- MCU_SPARE_DRAINED (R370). -/
  | mcuSpareDrained (t : Nat)
  /-- MCU_SPARE_COPIED (R370). -/
  | mcuSpareCopied (t : Nat)
  /-- FUSE_PROGRAM (R377). -/
  | fuseProgram (t : Nat) (group : Fin 16) (supplyOk : Bool)
  /-- FUSE_PROGRAM_DONE (R377). -/
  | fuseProgramDone (t : Nat) (verified : Bool)
  /-- FUSE_CHECK (R378). -/
  | fuseCheck (t : Nat) (grown : Nat)
  /-- BOOT_START (R382). -/
  | bootStart (t : Nat) (bootSel : Fin 4) (fusesGood : Bool)
  /-- BOOT_DDR_TRAINED (R382). -/
  | bootDdrTrained (t : Nat) (dimms : Nat) (ranks : Nat) (cap : Nat) (ok : Bool)
  /-- BOOT_STAGE1_RUN (R382). -/
  | bootStage1Run (t : Nat)
  /-- BOOT_OMLIA_VERIFIED (R382). -/
  | bootOmliaVerified (t : Nat)
  /-- BOOT_RETRY (R382). -/
  | bootRetry (t : Nat)
  /-- FW_CAND_VERIFY (R384). -/
  | fwCandVerify (t : Nat)
  /-- FW_CAND_VERIFY_DONE (R384). -/
  | fwCandVerifyDone (t : Nat)
  /-- FLASH_ERASE (R406). -/
  | flashErase (t : Nat)
  /-- FLASH_PROGRAM (R406). -/
  | flashProgram (t : Nat)
  /-- FLASH_READ (R406). -/
  | flashRead (t : Nat)
  /-- FLASH_OP_DONE (R406). -/
  | flashOpDone (t : Nat) (ok : Bool)
  /-- DEBUG_ENABLE (R405). -/
  | debugEnable (t : Nat)
  /-- MK_OFFER (R392). -/
  | mkOffer (t : Nat)
  /-- MK_ANSWER (R392). -/
  | mkAnswer (t : Nat)
  /-- MK_OP_DONE (R392). -/
  | mkOpDone (t : Nat)
  /-- KEY_LOAD_TRUNK_DOWN (R393). -/
  | keyLoadTrunkDown (t : Nat)
  /-- KEY_LOAD_TRUNK_UP (R393). -/
  | keyLoadTrunkUp (t : Nat)
  /-- KEY_LOAD_MACSEC_TX (R396). -/
  | keyLoadMacsecTx (t : Nat)
  /-- KEY_LOAD_MACSEC_RX (R396). -/
  | keyLoadMacsecRx (t : Nat)
  /-- KEY_LOAD_VAULT (R397). -/
  | keyLoadVault (t : Nat)
  /-- KEY_ERASE (R406). -/
  | keyErase (t : Nat)
  /-- VAULT_ENCRYPT (R397). -/
  | vaultEncrypt (t : Nat) (core : Fin 16) (slot : Fin 8)
  /-- VAULT_DECRYPT (R397). -/
  | vaultDecrypt (t : Nat) (core : Fin 16) (slot : Fin 8)
  /-- ALARM_START (R400). -/
  | alarmStart (t : Nat) (mask : Nat)
  /-- ALARM_AUTO_RELEASE (R402). -/
  | alarmAutoRelease (t : Nat) (n : Fin 8)
  /-- ALARM_RELEASE (R402). -/
  | alarmRelease (t : Nat) (mask : Nat)
  /-- ID_DERIVE (R402). -/
  | idDerive (t : Nat)
  /-- TAMPER_STUCK (R403). -/
  | tamperStuck (t : Nat) (j : Fin 2)
  /-- ENTROPY_FAIL (R398). -/
  | entropyFail (t : Nat)
  /-- ENTROPY_RECOVER (R398). -/
  | entropyRecover (t : Nat)
  /-- SCAN_INTERLOCK (R404). -/
  | scanInterlock (t : Nat) (jtag : Bool) (clear : Bool)
  /-- DOM_REQUEST (R412). -/
  | domRequest (t : Nat) (d : Fin 17) (v : Nat)
  /-- DOM_SUPPLY_READY (R410). -/
  | domSupplyReady (t : Nat) (d : Fin 17)
  /-- DOM_PLL_LOCKED (R410). -/
  | domPllLocked (t : Nat) (d : Fin 17)
  /-- DOM_ISLANDS_ON (R410). -/
  | domIslandsOn (t : Nat) (d : Fin 17) (bad : List Nat)
  /-- DOM_ATTEMPT_FAIL (R414). -/
  | domAttemptFail (t : Nat) (d : Fin 17)
  /-- DOM_RETRY (R414). -/
  | domRetry (t : Nat) (d : Fin 17)
  /-- DOM_QUIET (R411). -/
  | domQuiet (t : Nat) (d : Fin 17)
  /-- DOM_ENTRY_DONE (R411). -/
  | domEntryDone (t : Nat) (d : Fin 17)
  /-- DOM_ENTRY_TIMEOUT (R411). -/
  | domEntryTimeout (t : Nat) (d : Fin 17)
  /-- DOM_CLEAR (R414). -/
  | domClear (t : Nat) (d : Fin 17) (v : Nat)
  /-- WAKE_SET (R416). -/
  | wakeSet (t : Nat) (v : Nat)
  /-- WAKE_PIN (R417). -/
  | wakePin (t : Nat) (n : Fin 4) (width : Nat)
  /-- WAKE_PIN_STUCK (R417). -/
  | wakePinStuck (t : Nat) (n : Fin 4)
  /-- ISLAND_HOLD (R415). -/
  | islandHold (t : Nat) (b : Fin 32) (v : Nat)
  /-- OP_CAP_SET (R421). -/
  | opCapSet (t : Nat) (n : Fin 4)
  /-- OP_VOLT_READY (R421). -/
  | opVoltReady (t : Nat) (n : Fin 4)
  /-- OP_VOLT_TIMEOUT (R421). -/
  | opVoltTimeout (t : Nat) (n : Fin 4)
  /-- RGN_MAN_REQUEST (R420). -/
  | rgnManRequest (t : Nat) (n : Fin 4) (v : Nat)
  /-- THERMAL_CHECK (R423). -/
  | thermalCheck (t : Nat) (temps : List (Option Int))
  /-- THERMAL_EVENTIDE (R424). -/
  | thermalEventide (t : Nat)
  /-- THERM_TRIP (R424). -/
  | thermTrip (t : Nat) (sn : Fin 6)
  /-- EVENTIDE_QUIESCED (R427). -/
  | eventideQuiesced (t : Nat) (block : Option (List Byte))
  /-- EVENTIDE_ARCHIVED (R427). -/
  | eventideArchived (t : Nat) (clear : Bool)
  /-- EVENTIDE_SCAN_ENABLED (R428). -/
  | eventideScanEnabled (t : Nat)
  /-- EVENTIDE_SELFTEST_DONE (R429). -/
  | eventideSelftestDone (t : Nat) (fail : Nat)
  /-- EVENTIDE_RECORD_WRITTEN (R427). -/
  | eventideRecordWritten (t : Nat)
  /-- SELFCHECK_DONE (R431). -/
  | selfcheckDone (t : Nat) (clear : Bool)
  /-- WEAR_UPDATE (R432). -/
  | wearUpdate (t : Nat) (w : Fin 515) (val : Nat) (aux : Nat)
  /-- SWAP_GO (R434). -/
  | swapGo (t : Nat) (v : Nat)
  /-- SWAP_SHADOW_DONE (R434). -/
  | swapShadowDone (t : Nat)
  /-- SWAP_SLOT_TIMEOUT (R434). -/
  | swapSlotTimeout (t : Nat)
  /-- MEM_SCRUB_PASS (R470). -/
  | memScrubPass (t : Nat) (corr : Nat) (ppr : Nat) (bad : Option Nat)
  /-- VAUX3_UP (R444). -/
  | vaux3Up (t : Nat)
  /-- REGULATORS_START (R444). -/
  | regulatorsStart (t : Nat)
  /-- PWR_GOOD_RELEASE (R444). -/
  | pwrGoodRelease (t : Nat)
  /-- REGULATOR_TIMEOUT (R444). -/
  | regulatorTimeout (t : Nat)
  /-- REGULATOR_RETRY (R444). -/
  | regulatorRetry (t : Nat)
  /-- COLD_RESET_DONE (R444). -/
  | coldResetDone (t : Nat)
  /-- WARM_RESET (R445). -/
  | warmReset (t : Nat) (low : Nat)
  /-- VIN12_LOSS (R446). -/
  | vin12Loss (t : Nat)
  /-- PWR_EN_LOW (R446). -/
  | pwrEnLow (t : Nat)
  /-- VIN12_REMOVED (R446). -/
  | vin12Removed (t : Nat)
  /-- VAUX3_LOSS (R447). -/
  | vaux3Loss (t : Nat)
  /-- PPS_STUCK_RELEASE (R278). -/
  | ppsStuckRelease (t : Nat)
  /-- FREQ_IN_EDGE_LOSS (R280). -/
  | freqInEdgeLoss (t : Nat)
  /-- ALARM_END (R402). -/
  | alarmEnd (t : Nat) (n : Fin 8)
  /-- WAKE_PIN_INACTIVE (R417). -/
  | wakePinInactive (t : Nat) (n : Fin 4)
  /-- REMOTE_FAULT (R306). -/
  | remoteFault (t : Nat) (p : Fin 128) (on : Bool)
  /-- HOST_BLOCK_LOCK (R318). -/
  | hostBlockLock (t : Nat)
  /-- HOST_LINK_DOWN (R318). -/
  | hostLinkDown (t : Nat)
  /-- SSC_DETECT (R320). -/
  | sscDetect (t : Nat) (det : Bool) (ofs : Int)
  /-- ENGINE_LOST (R32). -/
  | engineLost (t : Nat) (e : Fin 17)
  /-- CHIP_UNIT (R473). -/
  | chipUnit (t : Nat) (kind : Fin 5) (n : Nat)
  /-- ISLAND_RETRY (R415). -/
  | islandRetry (t : Nat) (n : Fin 81) (ok : Bool)
  /-- SPARE_COPY_DONE (R435). -/
  | spareCopyDone (t : Nat)
  /-- TIME_VIO_OUT_OF_RANGE (R442). -/
  | timeVioOutOfRange (t : Nat) (inRange : Bool)
deriving DecidableEq, Repr

end Sys2Proof
end

