-- ==== Sys2Proof/Decode.lean ====
section
/-! DEFINITION. The words of the table of operations and events: no row of it has bits, so no word spells a command. -/

namespace Sys2Proof

/-- The command that a word spells by the table's bits. The table gives no row any bits, so there is none. -/
def decodeTableWord (_nbits _w : Nat) : Option Instr := none

end Sys2Proof
end

