-- ==== Sys2Proof/Machine/Tab.lean ====
section
/-! DEFINITION. Sparse tables (sorted lists of key and value), the named fields and counters of the register map, and
bit-field and signed-number helpers. -/

namespace Sys2Proof.Machine

/-- A sparse table: keys rise strictly; a key that is not listed reads as the default its reader gives. -/
abbrev Tab (α : Type) := List (Nat × α)

/-- The value of a key, if the table lists it. -/
def Tab.find {α : Type} (t : Tab α) (k : Nat) : Option α :=
  match t with
  | [] => none
  | (j, v) :: r => if k = j then some v else if k < j then none else Tab.find r k

/-- The value of a key, or the default. -/
def Tab.get {α : Type} (d : α) (t : Tab α) (k : Nat) : α := (t.find k).getD d

/-- Write a value under a key. -/
def Tab.set {α : Type} (t : Tab α) (k : Nat) (v : α) : Tab α :=
  match t with
  | [] => [(k, v)]
  | (j, w) :: r =>
    if k < j then (k, v) :: (j, w) :: r
    else if k = j then (k, v) :: r
    else (j, w) :: Tab.set r k v

/-- Take a key out of the table. -/
def Tab.erase {α : Type} (t : Tab α) (k : Nat) : Tab α := t.filter (fun e => decide (e.1 ≠ k))

/-- The table's form: keys strictly rising. -/
def Tab.wf {α : Type} (t : Tab α) : Bool :=
  match t with
  | [] => true
  | (k, _) :: r =>
    match r with
    | [] => true
    | (j, w) :: r' => decide (k < j) && Tab.wf ((j, w) :: r')

/-- The access types of R9 (RSV is no field: it reads 0 and ignores writes). -/
inductive Acc where
  | rw | ro | wo | w1c | rc | rws
deriving DecidableEq, Repr

/-- The reset value of a field: one value, a value for each instance in turn, or the instance's number. -/
inductive Rst where
  | lit (n : Nat)
  | cyc (l : List Nat)
  | inst
deriving DecidableEq, Repr

/-- The reset value of instance `i`. -/
def Rst.at (r : Rst) (i : Nat) : Nat :=
  match r with
  | .lit n => n
  | .cyc l => l.getD (i % l.length) 0
  | .inst => i

/-- A field of a register family: ZCP byte address of instance 0, bytes from one instance to the next, lowest bit, width,
access type, reset value, and whether a warm reset leaves it (R466: fields marked kept, CHIP_RESET, the quarantine state). -/
structure Fld where
  reg : Nat
  stride : Nat
  lsb : Nat
  width : Nat
  acc : Acc
  rst : Rst
  kept : Bool
deriving DecidableEq, Repr

/-- The byte address of instance `i` of the field's register. -/
def Fld.addr (f : Fld) (i : Nat) : Nat := f.reg + f.stride * i

/-- The key of instance `i` of a field in the register table: its address and lowest bit. -/
def Fld.key (f : Fld) (i : Nat) : Nat := (f.reg + f.stride * i) * 32 + f.lsb

/-- A counter (R111): address of the live LO word of instance 0 and the stride between instances. -/
structure Ctr where
  base : Nat
  stride : Nat
deriving DecidableEq, Repr

/-- The key of instance `i` of a counter: the address of its live LO word. -/
def Ctr.key (c : Ctr) (i : Nat) : Nat := c.base + c.stride * i

/-- A family of registers of one layout: first address, (stride, count) of each index from the outermost, fields. -/
structure Family where
  base : Nat
  dims : List (Nat × Nat)
  flds : List Fld
deriving DecidableEq, Repr

/-- A family of counters: live base, latched base, (stride, count) of each index, counters in one group. -/
structure CtrFamily where
  live : Nat
  lat : Nat
  dims : List (Nat × Nat)
  n : Nat
deriving DecidableEq, Repr

/-- Is `off` a sum of index times stride with every index in range? -/
def inDims (dims : List (Nat × Nat)) (off : Nat) : Bool :=
  match dims with
  | [] => decide (off = 0)
  | (s, c) :: r => decide (off / s < c) && inDims r (off % s)

/-- Bits `lsb + w - 1` to `lsb` of a number. -/
def bits (v lsb w : Nat) : Nat := (v / 2 ^ lsb) % 2 ^ w

/-- Bit `i` of a number. -/
def bit (v i : Nat) : Bool := v.testBit i

/-- Bit `i` of a number, as 0 or 1. -/
def bitN (v i : Nat) : Nat := (v / 2 ^ i) % 2

/-- Set bit `i`. -/
def setBit (v i : Nat) : Nat := if v.testBit i then v else v + 2 ^ i

/-- Clear bit `i`. -/
def clrBit (v i : Nat) : Nat := if v.testBit i then v - 2 ^ i else v

/-- Set or clear bit `i`. -/
def putBit (v i : Nat) (b : Bool) : Nat := if b then setBit v i else clrBit v i

/-- The number of 1 bits among the lowest `w` bits. -/
def popCount : Nat → Nat → Nat
  | 0, _ => 0
  | w + 1, v => popCount w v + (if v.testBit w then 1 else 0)

/-- A `w`-bit pattern read as a two's-complement number. -/
def sgn (w v : Nat) : Int :=
  if v % 2 ^ w < 2 ^ (w - 1) then (v % 2 ^ w : Nat) else ((v % 2 ^ w : Nat) : Int) - (2 ^ w : Nat)

/-- The `w`-bit two's-complement pattern of a number. -/
def unsgn (w : Nat) (x : Int) : Nat := (x % (2 ^ w : Nat)).toNat

/-- A number limited to the range of `w`-bit two's complement. -/
def satInt (w : Nat) (x : Int) : Int :=
  if x > (2 ^ (w - 1) : Nat) - 1 then (2 ^ (w - 1) : Nat) - 1
  else if x < -((2 ^ (w - 1) : Nat) : Int) then -((2 ^ (w - 1) : Nat) : Int) else x

/-- A count limited to `w` bits. -/
def satNat (w : Nat) (x : Nat) : Nat := min x (2 ^ w - 1)

/-- 0 or 1. -/
def b2n (b : Bool) : Nat := if b then 1 else 0

/-- Division rounding up. -/
def cdiv (a b : Nat) : Nat := if b = 0 then 0 else (a + b - 1) / b

/-- A number from its bytes, most significant first (00_scope.md R7). -/
def beNat (l : List Byte) : Nat := l.foldl (fun a b => a * 256 + b.toNat) 0

/-- The `n` bytes of a number, most significant first (R7). -/
def beBytes : Nat → Nat → List Byte
  | 0, _ => []
  | n + 1, v => BitVec.ofNat 8 (v / 256 ^ n) :: beBytes n v

/-- Bytes `off` to `off + n - 1` of a list. -/
def slice (l : List Byte) (off n : Nat) : List Byte := (l.drop off).take n

/-- The big-endian field of `n` bytes at `off`. -/
def beAt (l : List Byte) (off n : Nat) : Nat := beNat (slice l off n)

end Sys2Proof.Machine
end

