-- ==== Sys2Proof/Machine/Crc.lean ====
section
/-! DEFINITION. The cyclic redundancy checks of the spec: CRC-32C, CRC-16 and CRC-8 (03_trunk_downstream.md R97) and the FCS of
IEEE 802.3. -/

namespace Sys2Proof.Machine

/-- `n` shifts of a reflected CRC register with the reversed polynomial `p`. -/
def crcRefl (p : Nat) : Nat → Nat → Nat
  | 0, c => c
  | n + 1, c => crcRefl p n (if c % 2 = 1 then (c / 2) ^^^ p else c / 2)

/-- `n` shifts of a register of `w` bits, most significant bit first. -/
def crcMsb (p w : Nat) : Nat → Nat → Nat
  | 0, c => c
  | n + 1, c => crcMsb p w n (if c.testBit (w - 1) then ((c * 2) % 2 ^ w) ^^^ p else (c * 2) % 2 ^ w)

/-- CRC-32C from an initial register value, over bytes in order, with its final XOR. -/
def crc32cFrom (init : Nat) (l : List Byte) : Nat :=
  (l.foldl (fun c b => crcRefl 0x82F63B78 8 (c ^^^ b.toNat)) init) ^^^ 0xFFFFFFFF

/-- CRC-32C with the parameters of the message slot. -/
def crc32c (l : List Byte) : Nat := crc32cFrom 0xFFFFFFFF l

/-- The HEC of a carriage unit and of other 16-bit checks. -/
def crc16 (l : List Byte) : Nat := l.foldl (fun c b => crcMsb 0x1021 16 8 (c ^^^ (b.toNat * 256))) 0xFFFF

/-- The HEC of a grant entry. -/
def crc8 (l : List Byte) : Nat := l.foldl (fun c b => crcMsb 0x07 8 8 (c ^^^ b.toNat)) 0

/-- The FCS of IEEE 802.3 as a number: PRESUMED from that standard, which R305 names (log entry 8). -/
def fcsOf (l : List Byte) : Nat :=
  (l.foldl (fun c b => crcRefl 0xEDB88320 8 (c ^^^ b.toNat)) 0xFFFFFFFF) ^^^ 0xFFFFFFFF

/-- The four FCS bytes in the order IEEE 802.3 sends them (log entry 8). -/
def fcsBytes (l : List Byte) : List Byte :=
  let c := fcsOf l
  [BitVec.ofNat 8 c, BitVec.ofNat 8 (c / 256), BitVec.ofNat 8 (c / 65536), BitVec.ofNat 8 (c / 16777216)]

/-- Zero bytes. -/
def zeros (n : Nat) : List Byte := List.replicate n 0

/-- A frame padded to 60 bytes, with its FCS. -/
def framed (l : List Byte) : List Byte :=
  let p := l ++ zeros (60 - l.length)
  p ++ fcsBytes p

end Sys2Proof.Machine
end

