-- ==== Sys2Proof/Config.lean ====
section
/-! DEFINITION. What the spec leaves to another standard or leaves open, as constants with no body: nothing in Lean can
evaluate them, so every statement about the model holds for every value of them. -/

namespace Sys2Proof.Config

/-- FREE VALUES (log entry 3). The n-th value the machine draws where the spec fixes no value: applied to the counter
`fresh` of State, which each draw advances. -/
opaque freeVal : Nat → Nat

/-- FREE VALUE (log entry 83). Time in ps that the scheduler takes for the decision of one command: R361 says that it makes one at a
time, and not how long it takes. -/
opaque decisionPs : Nat

/-- FREE VALUE (log entry 83). Time in ps that an ATTEST is in progress, of which R344 gives the bound of 50 ms only. -/
opaque attestPs : Nat

/-- FREE VALUE (log entry 14). DETAIL of SPARE_EXH, of which the spec gives the content (kind, block) and no layout. -/
opaque detailKindBlock : Nat → Nat → Nat

/-- ML-DSA-87 signature by the terminal's identity key (R333, R386): context and message (log entry 4). -/
opaque mldsaSign : List Byte → List Byte → BitVec 37016

/-- Does an ML-DSA-87 signature verify under FIPS 204 (R60): public key, context string, message, signature (log entry 4)? -/
opaque mldsaVerify : List Byte → List Byte → List Byte → List Byte → Bool

/-- The identity public key that FIPS 204 generates from the seed ξ of R385 (log entry 4). -/
opaque idPublic : List Byte → BitVec 20736

/-- FREE VALUE (log entry 12). The 16 KiB identity certificate (R385), made at manufacture: the spec gives its form and not its bytes. -/
opaque idCert : Nat → Byte

/-- ML-KEM-1024 encapsulation of FIPS 203 with an encapsulation key and randomness: ciphertext and shared secret (log entry 4). -/
opaque mlkemCt : List Byte → Nat → BitVec 12544
opaque mlkemSs : List Byte → Nat → BitVec 256

/-- ML-KEM-1024 key generation from randomness, and decapsulation with that key (log entry 4). -/
opaque mlkemKey : Nat → BitVec 12544
opaque mlkemDec : Nat → List Byte → BitVec 256

/-- Byte `i` of the key stream of AES-256-GCM under a key and an IV: data is encrypted and decrypted by XOR with it (log entry 4). -/
opaque keystream : List Byte → List Byte → Nat → Byte

/-- The tag of AES-256-GCM: key, IV, additional authenticated data, ciphertext (log entry 4). -/
opaque gcmTag : List Byte → List Byte → List Byte → List Byte → BitVec 128

/-- One block of AES-256 in the given direction (true encrypts), for the vault (R397): key and block (log entry 4). -/
opaque aesBlock : Bool → List Byte → List Byte → BitVec 128

/-- The digest of the boot ROM (R381 type 1) and the hash of Ryutrambe's firmware key that the ROM holds (R379): fixed in each
ROM revision, and not given by the spec (log entry 12). -/
opaque romDigest : BitVec 512
opaque fwKeyHash : BitVec 512

/-- The boot ROM revision that SEC_BOOT_STAT.ROM_REV reads (log entry 12). -/
opaque romRev : BitVec 16

/-- FREE VALUE (log entry 15). The Vigil model's base frequency for a primary resonator, from its aging rate, its curve and the seconds
of VIGIL, in 2⁻¹⁶ ns/s (R290, R291): the spec gives the model's use and not its formula. -/
opaque vigilRate : Int → Nat → Nat → Int

/-- FREE VALUE (log entry 15). The aging rate and the curve of a resonator that Omlia's block of the ARCHIVE area holds (R290, R429), if
it holds any: the spec gives its place and not its layout. -/
opaque vigilSeed : List Byte → Nat → Option (Int × Nat)

/-- FREE VALUE (log entry 15). The Vigil model's bound on the error of L in ns, from LEARN_H and seconds of VIGIL (R291). -/
opaque vigilBound : Nat → Nat → Nat

/-- FREE VALUE (log entry 16). The set of the flow cache that a table, bank and key fall into (R168): the spec gives the number of
sets and not the choice. -/
opaque cacheSet : Nat → Nat → Nat → Nat

end Sys2Proof.Config
end

