-- ==== Sys2Proof/Machine/RegMap.lean ====
section
/-! DEFINITION. The register map of the spec (16_register_map.md R462 to R471 and the register tables of every chapter):
every field of every register as a named constant (address of instance 0, stride between instances, lowest bit, width,
access type of R9, reset value), every counter (R111) as a named constant, and the list of register families for address
decode. RSV bits are no fields: they read 0 and a write to them is ignored (R9, R467). A field whose reset the spec calls
fused, derived or base is never stored before it is written: Machine/Reads.lean gives what it reads as. -/

namespace Sys2Proof.Machine

namespace R

/-! HLT_PACE_MEAS: 01_architecture.md R18 to R22. -/
def HLT_PACE_MEAS_MEAS : Fld := ⟨0x140000, 0x20, 0, 16, .ro, .lit 0, false⟩
def HLT_PACE_MEAS_MIN_HOLD : Fld := ⟨0x140000, 0x20, 16, 16, .rc, .lit 65535, false⟩
/-! HLT_PACE_REQ: 01_architecture.md R18 to R22. -/
def HLT_PACE_REQ_REQ : Fld := ⟨0x140004, 0x20, 0, 16, .ro, .lit 0, false⟩
def HLT_PACE_REQ_CAP : Fld := ⟨0x140004, 0x20, 16, 16, .ro, .lit 2400, false⟩
/-! HLT_PACE_STAT: 01_architecture.md R18 to R22. -/
def HLT_PACE_STAT_BELOW : Fld := ⟨0x140008, 0x20, 0, 1, .ro, .lit 0, false⟩
def HLT_PACE_STAT_BELOW_SEEN : Fld := ⟨0x140008, 0x20, 1, 1, .w1c, .lit 0, false⟩
def HLT_PACE_STAT_BELOW_WIN : Fld := ⟨0x140008, 0x20, 16, 16, .rc, .lit 0, false⟩
/-! HLT_PACE_BLK: 01_architecture.md R18 to R22. -/
def HLT_PACE_BLK_MEAS : Fld := ⟨0x140100, 0x4, 0, 16, .ro, .lit 0, false⟩
/-! HLT_ERR_FIRST_HDR: 01_architecture.md R31 to R40. -/
def HLT_ERR_FIRST_HDR_CODE : Fld := ⟨0x141000, 0x40, 0, 8, .ro, .lit 0, false⟩
def HLT_ERR_FIRST_HDR_SOURCE : Fld := ⟨0x141000, 0x40, 8, 14, .ro, .lit 0, false⟩
def HLT_ERR_FIRST_HDR_ORIGIN : Fld := ⟨0x141000, 0x40, 25, 2, .ro, .lit 0, false⟩
def HLT_ERR_FIRST_HDR_STATE : Fld := ⟨0x141000, 0x40, 27, 2, .ro, .lit 0, false⟩
def HLT_ERR_FIRST_HDR_SEV : Fld := ⟨0x141000, 0x40, 29, 2, .ro, .lit 0, false⟩
def HLT_ERR_FIRST_HDR_VALID : Fld := ⟨0x141000, 0x40, 31, 1, .ro, .lit 0, false⟩
/-! HLT_ERR_FIRST_TIME: 01_architecture.md R31 to R40. -/
def HLT_ERR_FIRST_TIME_NS : Fld := ⟨0x141004, 0x40, 0, 32, .ro, .lit 0, false⟩
/-! HLT_ERR_FIRST_AUX: 01_architecture.md R31 to R40. -/
def HLT_ERR_FIRST_AUX_ATTEMPTS : Fld := ⟨0x141008, 0x40, 0, 8, .ro, .lit 0, false⟩
def HLT_ERR_FIRST_AUX_ACTION : Fld := ⟨0x141008, 0x40, 8, 8, .ro, .lit 0, false⟩
def HLT_ERR_FIRST_AUX_FRAC : Fld := ⟨0x141008, 0x40, 16, 16, .ro, .lit 0, false⟩
/-! HLT_ERR_FIRST_DETAIL: 01_architecture.md R31 to R40. -/
def HLT_ERR_FIRST_DETAIL_DETAIL : Fld := ⟨0x14100C, 0x40, 0, 32, .ro, .lit 0, false⟩
/-! HLT_ERR_LATEST_HDR: 01_architecture.md R31 to R40. -/
def HLT_ERR_LATEST_HDR_CODE : Fld := ⟨0x141010, 0x40, 0, 8, .ro, .lit 0, false⟩
def HLT_ERR_LATEST_HDR_SOURCE : Fld := ⟨0x141010, 0x40, 8, 14, .ro, .lit 0, false⟩
def HLT_ERR_LATEST_HDR_ORIGIN : Fld := ⟨0x141010, 0x40, 25, 2, .ro, .lit 0, false⟩
def HLT_ERR_LATEST_HDR_STATE : Fld := ⟨0x141010, 0x40, 27, 2, .ro, .lit 0, false⟩
def HLT_ERR_LATEST_HDR_SEV : Fld := ⟨0x141010, 0x40, 29, 2, .ro, .lit 0, false⟩
def HLT_ERR_LATEST_HDR_VALID : Fld := ⟨0x141010, 0x40, 31, 1, .ro, .lit 0, false⟩
/-! HLT_ERR_LATEST_TIME: 01_architecture.md R31 to R40. -/
def HLT_ERR_LATEST_TIME_NS : Fld := ⟨0x141014, 0x40, 0, 32, .ro, .lit 0, false⟩
/-! HLT_ERR_LATEST_AUX: 01_architecture.md R31 to R40. -/
def HLT_ERR_LATEST_AUX_ATTEMPTS : Fld := ⟨0x141018, 0x40, 0, 8, .ro, .lit 0, false⟩
def HLT_ERR_LATEST_AUX_ACTION : Fld := ⟨0x141018, 0x40, 8, 8, .ro, .lit 0, false⟩
def HLT_ERR_LATEST_AUX_FRAC : Fld := ⟨0x141018, 0x40, 16, 16, .ro, .lit 0, false⟩
/-! HLT_ERR_LATEST_DETAIL: 01_architecture.md R31 to R40. -/
def HLT_ERR_LATEST_DETAIL_DETAIL : Fld := ⟨0x14101C, 0x40, 0, 32, .ro, .lit 0, false⟩
/-! HLT_ERR_OVF: 01_architecture.md R31 to R40. -/
def HLT_ERR_OVF_COUNT : Fld := ⟨0x141020, 0x40, 0, 32, .rc, .lit 0, false⟩
/-! HLT_ERR_ESC: 01_architecture.md R31 to R40. -/
def HLT_ERR_ESC_COUNT : Fld := ⟨0x141024, 0x40, 0, 32, .rc, .lit 0, false⟩
/-! HLT_ERR_CTRL: 01_architecture.md R31 to R40. -/
def HLT_ERR_CTRL_RESOLVE : Fld := ⟨0x141028, 0x40, 0, 1, .wo, .lit 0, false⟩
def HLT_ERR_CTRL_NEW : Fld := ⟨0x141028, 0x40, 1, 1, .w1c, .lit 0, false⟩
def HLT_ERR_CTRL_EVT_EN : Fld := ⟨0x141028, 0x40, 8, 1, .rw, .lit 1, false⟩
/-! HLT_HSWD: 01_architecture.md R31 to R40. -/
def HLT_HSWD_TIME : Fld := ⟨0x14C040, 0x0, 0, 10, .rw, .lit 10, false⟩
/-! HLT_SPARE_CELLS: 01_architecture.md R31 to R40. -/
def HLT_SPARE_CELLS_PORT : Fld := ⟨0x14C000, 0x0, 0, 6, .ro, .lit 32, false⟩
def HLT_SPARE_CELLS_PIPE : Fld := ⟨0x14C000, 0x0, 8, 6, .ro, .lit 32, false⟩
def HLT_SPARE_CELLS_SAMPLE : Fld := ⟨0x14C000, 0x0, 16, 6, .ro, .lit 32, false⟩
/-! HLT_SPARE_CHIP: 01_architecture.md R31 to R40. -/
def HLT_SPARE_CHIP_TRK_ENG : Fld := ⟨0x14C004, 0x0, 0, 1, .ro, .lit 1, false⟩
def HLT_SPARE_CHIP_TRK_LASER : Fld := ⟨0x14C004, 0x0, 4, 2, .ro, .lit 2, false⟩
def HLT_SPARE_CHIP_LOC_LASER : Fld := ⟨0x14C004, 0x0, 8, 3, .ro, .lit 4, false⟩
def HLT_SPARE_CHIP_MCU : Fld := ⟨0x14C004, 0x0, 12, 1, .ro, .lit 1, false⟩
def HLT_SPARE_CHIP_OVEN : Fld := ⟨0x14C004, 0x0, 16, 1, .ro, .lit 1, false⟩
def HLT_SPARE_CHIP_HBM_PC : Fld := ⟨0x14C004, 0x0, 20, 3, .ro, .lit 4, false⟩
def HLT_SPARE_CHIP_DDR_RANK : Fld := ⟨0x14C004, 0x0, 24, 1, .ro, .lit 0, false⟩
/-! HLT_BLOCK_MAP: 01_architecture.md R31 to R40. -/
def HLT_BLOCK_MAP_CELL : Fld := ⟨0x14C100, 0x4, 0, 22, .ro, .lit 0, false⟩
/-! ALM_GEN_ACTIVE: 02_almanac.md R87. -/
def ALM_GEN_ACTIVE_GEN : Fld := ⟨0x10000, 0x0, 0, 32, .ro, .lit 0, false⟩
/-! ALM_GEN_CAND: 02_almanac.md R87. -/
def ALM_GEN_CAND_GEN : Fld := ⟨0x10004, 0x0, 0, 32, .ro, .lit 0, false⟩
/-! ALM_RULE_GEN: 02_almanac.md R87. -/
def ALM_RULE_GEN_CUR : Fld := ⟨0x10008, 0x0, 0, 8, .ro, .lit 0, false⟩
def ALM_RULE_GEN_LIVE : Fld := ⟨0x10008, 0x0, 8, 3, .ro, .lit 0, false⟩
/-! ALM_ARB: 02_almanac.md R87. -/
def ALM_ARB_COUNT : Fld := ⟨0x1000C, 0x0, 0, 6, .ro, .lit 0, false⟩
def ALM_ARB_TARGET : Fld := ⟨0x1000C, 0x0, 8, 6, .rw, .lit 0, false⟩
def ALM_ARB_ADVANCE : Fld := ⟨0x1000C, 0x0, 16, 1, .wo, .lit 0, false⟩
/-! ALM_LOAD_CTRL: 02_almanac.md R87. -/
def ALM_LOAD_CTRL_START : Fld := ⟨0x10010, 0x0, 0, 1, .wo, .lit 0, false⟩
def ALM_LOAD_CTRL_CANCEL : Fld := ⟨0x10010, 0x0, 1, 1, .wo, .lit 0, false⟩
def ALM_LOAD_CTRL_SRC : Fld := ⟨0x10010, 0x0, 4, 2, .rw, .lit 0, false⟩
/-! ALM_LOAD_ADDR: 02_almanac.md R87. -/
def ALM_LOAD_ADDR_ADDR4K : Fld := ⟨0x10014, 0x0, 0, 32, .rw, .lit 0, false⟩
/-! ALM_LOAD_STAT: 02_almanac.md R87. -/
def ALM_LOAD_STAT_STATE : Fld := ⟨0x10018, 0x0, 0, 3, .ro, .lit 0, false⟩
def ALM_LOAD_STAT_KIND : Fld := ⟨0x10018, 0x0, 3, 1, .ro, .lit 0, false⟩
def ALM_LOAD_STAT_SECTION : Fld := ⟨0x10018, 0x0, 4, 4, .ro, .lit 0, false⟩
def ALM_LOAD_STAT_CAUSE : Fld := ⟨0x10018, 0x0, 8, 8, .ro, .lit 0, false⟩
/-! ALM_LOAD_PROG: 02_almanac.md R87. -/
def ALM_LOAD_PROG_KIB : Fld := ⟨0x1001C, 0x0, 0, 32, .ro, .lit 0, false⟩
/-! ALM_LOAD_TXN: 02_almanac.md R87. -/
def ALM_LOAD_TXN_ID : Fld := ⟨0x10020, 0x0, 0, 16, .ro, .lit 0, false⟩
/-! ALM_OCTAVE_LO: 02_almanac.md R87. -/
def ALM_OCTAVE_LO_NUM : Fld := ⟨0x10024, 0x0, 0, 32, .ro, .lit 0, false⟩
/-! ALM_OCTAVE_HI: 02_almanac.md R87. -/
def ALM_OCTAVE_HI_NUM : Fld := ⟨0x10028, 0x0, 0, 16, .ro, .lit 0, false⟩
def ALM_OCTAVE_HI_VALID : Fld := ⟨0x10028, 0x0, 31, 1, .ro, .lit 0, false⟩
/-! ALM_TXN_OPEN: 02_almanac.md R87. -/
def ALM_TXN_OPEN_OPEN : Fld := ⟨0x1002C, 0x0, 0, 7, .ro, .lit 0, false⟩
def ALM_TXN_OPEN_PENDING : Fld := ⟨0x1002C, 0x0, 8, 7, .ro, .lit 0, false⟩
/-! ALM_TXN_QUERY: 02_almanac.md R87. -/
def ALM_TXN_QUERY_ID : Fld := ⟨0x10030, 0x0, 0, 16, .rw, .lit 0, false⟩
/-! ALM_TXN_RESULT: 02_almanac.md R87. -/
def ALM_TXN_RESULT_STATE : Fld := ⟨0x10034, 0x0, 0, 3, .ro, .lit 0, false⟩
def ALM_TXN_RESULT_CAUSE : Fld := ⟨0x10034, 0x0, 4, 8, .ro, .lit 0, false⟩
def ALM_TXN_RESULT_POINT_KIND : Fld := ⟨0x10034, 0x0, 12, 2, .ro, .lit 0, false⟩
def ALM_TXN_RESULT_WRITES : Fld := ⟨0x10034, 0x0, 16, 13, .ro, .lit 0, false⟩
/-! ALM_TXN_EPOCH: 02_almanac.md R87. -/
def ALM_TXN_EPOCH_OCTAVE : Fld := ⟨0x10038, 0x0, 0, 32, .ro, .lit 0, false⟩
/-! ALM_TXN_DETAIL: 02_almanac.md R87. -/
def ALM_TXN_DETAIL_ADDR : Fld := ⟨0x1003C, 0x0, 0, 32, .ro, .lit 0, false⟩
/-! ALM_SHADOW_HELD: 02_almanac.md R87. -/
def ALM_SHADOW_HELD_COUNT : Fld := ⟨0x10040, 0x0, 0, 32, .rc, .lit 0, false⟩
/-! ALM_SHADOW_DISARM: 02_almanac.md R87. -/
def ALM_SHADOW_DISARM_COUNT : Fld := ⟨0x10044, 0x0, 0, 32, .rc, .lit 0, false⟩
/-! ALM_JUB_CTRL: 02_almanac.md R87. -/
def ALM_JUB_CTRL_ENTER : Fld := ⟨0x10048, 0x0, 0, 1, .wo, .lit 0, false⟩
def ALM_JUB_CTRL_CANCEL : Fld := ⟨0x10048, 0x0, 1, 1, .wo, .lit 0, false⟩
/-! ALM_JUB_STAT: 02_almanac.md R87. -/
def ALM_JUB_STAT_CAND_ALM : Fld := ⟨0x1004C, 0x0, 0, 1, .ro, .lit 0, false⟩
def ALM_JUB_STAT_CAND_FW : Fld := ⟨0x1004C, 0x0, 1, 1, .ro, .lit 0, false⟩
def ALM_JUB_STAT_STATE : Fld := ⟨0x1004C, 0x0, 4, 2, .ro, .lit 0, false⟩
def ALM_JUB_STAT_TXN : Fld := ⟨0x1004C, 0x0, 16, 16, .ro, .lit 0, false⟩
/-! ALM_EVT: 02_almanac.md R87. -/
def ALM_EVT_LOAD_CHG : Fld := ⟨0x10050, 0x0, 0, 1, .w1c, .lit 0, false⟩
def ALM_EVT_JUB_CHG : Fld := ⟨0x10050, 0x0, 1, 1, .w1c, .lit 0, false⟩
def ALM_EVT_EVT_EN : Fld := ⟨0x10050, 0x0, 31, 1, .rw, .lit 1, false⟩
/-! TRK_DS_CFG: 03_trunk_downstream.md R115. -/
def TRK_DS_CFG_ENABLE : Fld := ⟨0x20000, 0x1000, 0, 1, .rw, .lit 0, false⟩
def TRK_DS_CFG_TIM_EN : Fld := ⟨0x20000, 0x1000, 1, 1, .rw, .lit 0, false⟩
def TRK_DS_CFG_COLD : Fld := ⟨0x20000, 0x1000, 2, 1, .wo, .lit 0, false⟩
def TRK_DS_CFG_EVT_EN : Fld := ⟨0x20000, 0x1000, 3, 1, .rw, .lit 1, false⟩
def TRK_DS_CFG_LOF_MISS : Fld := ⟨0x20000, 0x1000, 8, 4, .rw, .lit 4, false⟩
def TRK_DS_CFG_FREQ_N : Fld := ⟨0x20000, 0x1000, 16, 16, .rw, .lit 64560, false⟩
/-! TRK_DS_LOS_THR: 03_trunk_downstream.md R115. -/
def TRK_DS_LOS_THR_THR : Fld := ⟨0x20004, 0x1000, 0, 16, .rw, .lit 65256, false⟩
/-! TRK_DS_STAT: 03_trunk_downstream.md R115. -/
def TRK_DS_STAT_FSTATE : Fld := ⟨0x20008, 0x1000, 0, 2, .ro, .lit 0, false⟩
def TRK_DS_STAT_ACQ : Fld := ⟨0x20008, 0x1000, 2, 2, .ro, .lit 0, false⟩
def TRK_DS_STAT_LOS : Fld := ⟨0x20008, 0x1000, 8, 1, .ro, .lit 0, false⟩
def TRK_DS_STAT_LOF : Fld := ⟨0x20008, 0x1000, 9, 1, .ro, .lit 0, false⟩
def TRK_DS_STAT_AIS : Fld := ⟨0x20008, 0x1000, 10, 1, .ro, .lit 0, false⟩
def TRK_DS_STAT_RDI : Fld := ⟨0x20008, 0x1000, 11, 1, .ro, .lit 0, false⟩
def TRK_DS_STAT_TIM : Fld := ⟨0x20008, 0x1000, 12, 1, .ro, .lit 0, false⟩
/-! TRK_DS_EVT: 03_trunk_downstream.md R115. -/
def TRK_DS_EVT_SFC_JUMP : Fld := ⟨0x2000C, 0x1000, 0, 1, .w1c, .lit 0, false⟩
def TRK_DS_EVT_CHG : Fld := ⟨0x2000C, 0x1000, 8, 5, .w1c, .lit 0, false⟩
/-! TRK_DS_MON_PWR: 03_trunk_downstream.md R115. -/
def TRK_DS_MON_PWR_PWR : Fld := ⟨0x20010, 0x1000, 0, 16, .ro, .lit 32768, false⟩
def TRK_DS_MON_PWR_OSNR : Fld := ⟨0x20010, 0x1000, 16, 16, .ro, .lit 0, false⟩
/-! TRK_DS_MON_CD: 03_trunk_downstream.md R115. -/
def TRK_DS_MON_CD_CD : Fld := ⟨0x20014, 0x1000, 0, 16, .ro, .lit 0, false⟩
def TRK_DS_MON_CD_DGD : Fld := ⟨0x20014, 0x1000, 16, 16, .ro, .lit 0, false⟩
/-! TRK_DS_MON_BER: 03_trunk_downstream.md R115. -/
def TRK_DS_MON_BER_PPB : Fld := ⟨0x20018, 0x1000, 0, 32, .ro, .lit 0, false⟩
/-! TRK_DS_MON_FOFS: 03_trunk_downstream.md R115. -/
def TRK_DS_MON_FOFS_FOFS : Fld := ⟨0x2001C, 0x1000, 0, 16, .ro, .lit 0, false⟩
def TRK_DS_MON_FOFS_SNR : Fld := ⟨0x2001C, 0x1000, 16, 16, .ro, .lit 0, false⟩
/-! TRK_DS_TRACE_EXP: 03_trunk_downstream.md R115. -/
def TRK_DS_TRACE_EXP_BYTES : Fld := ⟨0x20020, 0x4, 0, 32, .rw, .lit 0, false⟩
/-! TRK_DS_TRACE_ACC: 03_trunk_downstream.md R115. -/
def TRK_DS_TRACE_ACC_BYTES : Fld := ⟨0x20060, 0x4, 0, 32, .ro, .lit 0, false⟩
/-! TRK_DS_SFC_LO: 03_trunk_downstream.md R115. -/
def TRK_DS_SFC_LO_SFC : Fld := ⟨0x200A0, 0x1000, 0, 32, .ro, .lit 0, false⟩
/-! TRK_DS_SFC_HI: 03_trunk_downstream.md R115. -/
def TRK_DS_SFC_HI_SFC : Fld := ⟨0x200A4, 0x1000, 0, 19, .ro, .lit 0, false⟩
/-! TRK_SIDE_CTRL: 03_trunk_downstream.md R115. -/
def TRK_SIDE_CTRL_CMD : Fld := ⟨0x30000, 0x0, 0, 3, .rw, .lit 0, false⟩
def TRK_SIDE_CTRL_REVERT : Fld := ⟨0x30000, 0x0, 4, 1, .rw, .lit 0, false⟩
def TRK_SIDE_CTRL_WTR : Fld := ⟨0x30000, 0x0, 8, 6, .rw, .lit 5, false⟩
def TRK_SIDE_CTRL_THR : Fld := ⟨0x30000, 0x0, 16, 4, .rw, .lit 0, false⟩
def TRK_SIDE_CTRL_HOLD : Fld := ⟨0x30000, 0x0, 24, 4, .rw, .lit 2, false⟩
/-! TRK_SIDE_MASK: 03_trunk_downstream.md R115. -/
def TRK_SIDE_MASK_MASK : Fld := ⟨0x30004, 0x0, 0, 16, .rw, .lit 65535, false⟩
/-! TRK_SIDE_STAT: 03_trunk_downstream.md R115. -/
def TRK_SIDE_STAT_ACTIVE : Fld := ⟨0x30008, 0x0, 0, 1, .ro, .lit 0, false⟩
def TRK_SIDE_STAT_STATE : Fld := ⟨0x30008, 0x0, 1, 2, .ro, .lit 0, false⟩
def TRK_SIDE_STAT_OTHER_OK : Fld := ⟨0x30008, 0x0, 3, 1, .ro, .lit 0, false⟩
def TRK_SIDE_STAT_EQD_VALID : Fld := ⟨0x30008, 0x0, 4, 1, .ro, .lit 0, false⟩
def TRK_SIDE_STAT_APS_BLOCKED : Fld := ⟨0x30008, 0x0, 5, 1, .w1c, .lit 0, false⟩
def TRK_SIDE_STAT_SWITCHED : Fld := ⟨0x30008, 0x0, 6, 1, .w1c, .lit 0, false⟩
def TRK_SIDE_STAT_REQ : Fld := ⟨0x30008, 0x0, 8, 3, .ro, .lit 0, false⟩
def TRK_SIDE_STAT_LAST_US : Fld := ⟨0x30008, 0x0, 16, 16, .ro, .lit 0, false⟩
/-! TRK_WATCH_CTRL: 03_trunk_downstream.md R115. -/
def TRK_WATCH_CTRL_ENABLE : Fld := ⟨0x30010, 0x0, 0, 1, .rw, .lit 1, false⟩
def TRK_WATCH_CTRL_DWELL : Fld := ⟨0x30010, 0x0, 8, 8, .rw, .lit 12, false⟩
def TRK_WATCH_CTRL_CUR_WL : Fld := ⟨0x30010, 0x0, 16, 4, .ro, .lit 0, false⟩
/-! TRK_WATCH_OK: 03_trunk_downstream.md R115. -/
def TRK_WATCH_OK_OK : Fld := ⟨0x30014, 0x0, 0, 16, .ro, .lit 0, false⟩
/-! TRK_LATCH_STAT: 03_trunk_downstream.md R115. -/
def TRK_LATCH_STAT_SEQ : Fld := ⟨0x30020, 0x0, 0, 31, .ro, .lit 0, false⟩
def TRK_LATCH_STAT_STEP : Fld := ⟨0x30020, 0x0, 31, 1, .ro, .lit 0, false⟩
/-! TRK_CHMON_SUM: 03_trunk_downstream.md R115. -/
def TRK_CHMON_SUM_ACTIVE : Fld := ⟨0x30030, 0x0, 0, 11, .ro, .lit 0, false⟩
def TRK_CHMON_SUM_CHANGED : Fld := ⟨0x30030, 0x0, 16, 11, .ro, .lit 0, false⟩
/-! TRK_SIDE_CD: 03_trunk_downstream.md R115. -/
def TRK_SIDE_CD_CD : Fld := ⟨0x30100, 0x4, 0, 16, .ro, .lit 0, false⟩
def TRK_SIDE_CD_VALID : Fld := ⟨0x30100, 0x4, 31, 1, .ro, .lit 0, false⟩
/-! TRK_CHMON_CFG: 03_trunk_downstream.md R115. -/
def TRK_CHMON_CFG_ID : Fld := ⟨0x34000, 0x10, 0, 16, .rw, .lit 0, false⟩
def TRK_CHMON_CFG_KIND : Fld := ⟨0x34000, 0x10, 16, 1, .rw, .lit 0, false⟩
def TRK_CHMON_CFG_ENABLE : Fld := ⟨0x34000, 0x10, 17, 1, .rw, .lit 0, false⟩
def TRK_CHMON_CFG_CONT : Fld := ⟨0x34000, 0x10, 18, 1, .rw, .lit 0, false⟩
def TRK_CHMON_CFG_EVT_EN : Fld := ⟨0x34000, 0x10, 19, 1, .rw, .lit 1, false⟩
def TRK_CHMON_CFG_LOSS_OCT : Fld := ⟨0x34000, 0x10, 22, 10, .rw, .lit 10, false⟩
/-! TRK_CHMON_LIM: 03_trunk_downstream.md R115. -/
def TRK_CHMON_LIM_MASK : Fld := ⟨0x34004, 0x10, 0, 16, .rw, .lit 0, false⟩
def TRK_CHMON_LIM_SD_THR : Fld := ⟨0x34004, 0x10, 16, 8, .rw, .lit 10, false⟩
def TRK_CHMON_LIM_SD_CLR : Fld := ⟨0x34004, 0x10, 24, 8, .rw, .lit 1, false⟩
/-! TRK_CHMON_STATE: 03_trunk_downstream.md R115. -/
def TRK_CHMON_STATE_DEF : Fld := ⟨0x34008, 0x10, 0, 3, .ro, .lit 0, false⟩
def TRK_CHMON_STATE_RAW : Fld := ⟨0x34008, 0x10, 8, 6, .ro, .lit 0, false⟩
def TRK_CHMON_STATE_CHG : Fld := ⟨0x34008, 0x10, 16, 1, .w1c, .lit 0, false⟩
/-! TRK_CHMON_ERRS: 03_trunk_downstream.md R115. -/
def TRK_CHMON_ERRS_ERR : Fld := ⟨0x3400C, 0x10, 0, 16, .ro, .lit 0, false⟩
def TRK_CHMON_ERRS_UNITS : Fld := ⟨0x3400C, 0x10, 16, 16, .ro, .lit 0, false⟩
/-! TRK_MODE: 04_trunk_access.md R151. -/
def TRK_MODE_CODE : Fld := ⟨0x30800, 0x0, 0, 4, .ro, .lit 0, false⟩
def TRK_MODE_PREV : Fld := ⟨0x30800, 0x0, 8, 4, .ro, .lit 0, false⟩
def TRK_MODE_CAUSE : Fld := ⟨0x30800, 0x0, 16, 8, .ro, .lit 0, false⟩
/-! TRK_MODE_CTRL: 04_trunk_access.md R151. -/
def TRK_MODE_CTRL_CMD : Fld := ⟨0x30804, 0x0, 0, 3, .wo, .lit 0, false⟩
def TRK_MODE_CTRL_EVT_EN : Fld := ⟨0x30804, 0x0, 8, 1, .rw, .lit 1, false⟩
/-! TRK_ACT_TMR: 04_trunk_access.md R151. -/
def TRK_ACT_TMR_TO_LAPSE : Fld := ⟨0x30808, 0x0, 0, 14, .rw, .lit 100, false⟩
def TRK_ACT_TMR_TO_DISC : Fld := ⟨0x30808, 0x0, 16, 6, .rw, .lit 10, false⟩
def TRK_ACT_TMR_TO_RANGE : Fld := ⟨0x30808, 0x0, 24, 6, .rw, .lit 10, false⟩
/-! TRK_TERM_ID: 04_trunk_access.md R151. -/
def TRK_TERM_ID_ID : Fld := ⟨0x3080C, 0x0, 0, 16, .ro, .lit 0, false⟩
def TRK_TERM_ID_HOME : Fld := ⟨0x3080C, 0x0, 16, 4, .ro, .lit 0, false⟩
def TRK_TERM_ID_ANN_CH : Fld := ⟨0x3080C, 0x0, 20, 4, .ro, .lit 0, false⟩
def TRK_TERM_ID_MMK : Fld := ⟨0x3080C, 0x0, 30, 1, .ro, .lit 0, false⟩
def TRK_TERM_ID_VALID : Fld := ⟨0x3080C, 0x0, 31, 1, .ro, .lit 0, false⟩
/-! TRK_TERM_ALLOC: 04_trunk_access.md R151. -/
def TRK_TERM_ALLOC_DEFAULT : Fld := ⟨0x30810, 0x0, 0, 12, .ro, .lit 0, false⟩
def TRK_TERM_ALLOC_MGMT_TAG : Fld := ⟨0x30810, 0x0, 16, 16, .ro, .lit 0, false⟩
/-! TRK_REV_STAT: 04_trunk_access.md R151. -/
def TRK_REV_STAT_CUR : Fld := ⟨0x30814, 0x0, 0, 8, .ro, .lit 0, false⟩
def TRK_REV_STAT_PREV : Fld := ⟨0x30814, 0x0, 8, 8, .ro, .lit 0, false⟩
def TRK_REV_STAT_ON_PREV : Fld := ⟨0x30814, 0x0, 16, 16, .ro, .lit 0, false⟩
/-! TRK_MODE_EVT: 04_trunk_access.md R151. -/
def TRK_MODE_EVT_MODE_CHG : Fld := ⟨0x30818, 0x0, 0, 1, .w1c, .lit 0, false⟩
/-! TRK_GUARD_STAT: 04_trunk_access.md R151. -/
def TRK_GUARD_STAT_RECENT : Fld := ⟨0x30820, 0x0, 0, 2, .ro, .lit 0, false⟩
def TRK_GUARD_STAT_QUAR : Fld := ⟨0x30820, 0x0, 8, 1, .ro, .lit 0, true⟩
def TRK_GUARD_STAT_LAST_CAUSE : Fld := ⟨0x30820, 0x0, 12, 3, .ro, .lit 0, false⟩
def TRK_GUARD_STAT_LAST_CH : Fld := ⟨0x30820, 0x0, 16, 4, .ro, .lit 0, false⟩
def TRK_GUARD_STAT_TRIPPED : Fld := ⟨0x30820, 0x0, 24, 1, .w1c, .lit 0, false⟩
/-! TRK_GUARD_PWR: 04_trunk_access.md R151. -/
def TRK_GUARD_PWR_CEIL : Fld := ⟨0x30824, 0x0, 0, 16, .rw, .lit 60, false⟩
def TRK_GUARD_PWR_FUSE : Fld := ⟨0x30824, 0x0, 16, 16, .ro, .lit 0, false⟩
/-! TRK_EQD: 04_trunk_access.md R151. -/
def TRK_EQD_EQD : Fld := ⟨0x31000, 0x4, 0, 29, .ro, .lit 0, false⟩
def TRK_EQD_VALID : Fld := ⟨0x31000, 0x4, 31, 1, .ro, .lit 0, false⟩
/-! TRK_ALLOC: 04_trunk_access.md R151. -/
def TRK_ALLOC_ALLOC_ID : Fld := ⟨0x32000, 0x4, 0, 12, .ro, .lit 0, false⟩
def TRK_ALLOC_CH : Fld := ⟨0x32000, 0x4, 12, 4, .ro, .lit 0, false⟩
def TRK_ALLOC_GROUP : Fld := ⟨0x32000, 0x4, 16, 6, .ro, .lit 0, false⟩
def TRK_ALLOC_FRAG_OK : Fld := ⟨0x32000, 0x4, 24, 1, .ro, .lit 0, false⟩
def TRK_ALLOC_AUTH : Fld := ⟨0x32000, 0x4, 30, 1, .ro, .lit 0, false⟩
def TRK_ALLOC_VALID : Fld := ⟨0x32000, 0x4, 31, 1, .ro, .lit 0, false⟩
/-! TRK_US_CFG: 04_trunk_access.md R151. -/
def TRK_US_CFG_ENABLE : Fld := ⟨0x20400, 0x1000, 0, 1, .rw, .lit 1, false⟩
def TRK_US_CFG_FREQ_N : Fld := ⟨0x20400, 0x1000, 16, 16, .rw, .lit 0, false⟩
/-! TRK_US_STAT: 04_trunk_access.md R151. -/
def TRK_US_STAT_BURSTING : Fld := ⟨0x20404, 0x1000, 0, 1, .ro, .lit 0, false⟩
def TRK_US_STAT_CH_OFF : Fld := ⟨0x20404, 0x1000, 1, 1, .ro, .lit 0, false⟩
def TRK_US_STAT_LAST_EVE : Fld := ⟨0x20404, 0x1000, 2, 1, .ro, .lit 0, false⟩
def TRK_US_STAT_SHORT_OK : Fld := ⟨0x20404, 0x1000, 3, 1, .ro, .lit 0, false⟩
def TRK_US_STAT_PENDING : Fld := ⟨0x20404, 0x1000, 16, 13, .ro, .lit 0, false⟩
/-! TRK_US_GH_SHD: 04_trunk_access.md R151. -/
def TRK_US_GH_SHD_PWR : Fld := ⟨0x20408, 0x1000, 0, 16, .rw, .lit 0, false⟩
def TRK_US_GH_SHD_RPT_EXTRA : Fld := ⟨0x20408, 0x1000, 16, 2, .rw, .lit 3, false⟩
/-! TRK_US_GH_ACT: 04_trunk_access.md R151. -/
def TRK_US_GH_ACT_PWR : Fld := ⟨0x2040C, 0x1000, 0, 16, .ro, .lit 0, false⟩
def TRK_US_GH_ACT_RPT_EXTRA : Fld := ⟨0x2040C, 0x1000, 16, 2, .ro, .lit 3, false⟩
/-! TRK_US_GH_CTRL: 04_trunk_access.md R151. -/
def TRK_US_GH_CTRL_ARM : Fld := ⟨0x20410, 0x1000, 0, 1, .rw, .lit 0, false⟩
/-! TRK_US_GH_EPOCH: 02_almanac.md R87. -/
def TRK_US_GH_EPOCH_LAST_EPOCH : Fld := ⟨0x20414, 0x1000, 0, 16, .ro, .lit 0, false⟩
def TRK_US_GH_EPOCH_WRITE_EPOCH : Fld := ⟨0x20414, 0x1000, 16, 16, .ro, .lit 0, false⟩
/-! TRK_US_MON: 04_trunk_access.md R151. -/
def TRK_US_MON_PWR : Fld := ⟨0x20418, 0x1000, 0, 16, .ro, .lit 32768, false⟩
def TRK_US_MON_BIAS : Fld := ⟨0x20418, 0x1000, 16, 16, .ro, .lit 0, false⟩
/-! PKT_HASH_CFG: 05_packet_pipeline.md R184. -/
def PKT_HASH_CFG_SEED : Fld := ⟨0x40000, 0x0, 0, 32, .rw, .lit 0, false⟩
/-! PKT_GEN_SLOT: 05_packet_pipeline.md R184. -/
def PKT_GEN_SLOT_GEN : Fld := ⟨0x40010, 0x8, 0, 8, .ro, .lit 0, false⟩
def PKT_GEN_SLOT_LIVE : Fld := ⟨0x40010, 0x8, 8, 1, .ro, .lit 0, false⟩
def PKT_GEN_SLOT_CUR : Fld := ⟨0x40010, 0x8, 9, 1, .ro, .lit 0, false⟩
def PKT_GEN_SLOT_PG : Fld := ⟨0x40010, 0x8, 10, 1, .ro, .lit 0, false⟩
def PKT_GEN_SLOT_BANKS : Fld := ⟨0x40010, 0x8, 16, 12, .ro, .lit 0, false⟩
/-! PKT_GEN_REFS: 05_packet_pipeline.md R184. -/
def PKT_GEN_REFS_COUNT : Fld := ⟨0x40014, 0x8, 0, 32, .ro, .lit 0, false⟩
/-! PKT_STAGE_BANK: 05_packet_pipeline.md R184. -/
def PKT_STAGE_BANK_ACT : Fld := ⟨0x40040, 0x4, 0, 1, .rw, .lit 0, false⟩
/-! PKT_STAGE_STAT: 05_packet_pipeline.md R184. -/
def PKT_STAGE_STAT_KIND : Fld := ⟨0x40080, 0x4, 0, 3, .ro, .lit 0, false⟩
def PKT_STAGE_STAT_USE : Fld := ⟨0x40080, 0x4, 4, 2, .ro, .lit 0, false⟩
def PKT_STAGE_STAT_LOCK : Fld := ⟨0x40080, 0x4, 6, 1, .ro, .lit 0, false⟩
/-! PKT_SP_CFG: 05_packet_pipeline.md R184. -/
def PKT_SP_CFG_EN : Fld := ⟨0x40100, 0x8, 0, 1, .rw, .lit 1, false⟩
def PKT_SP_CFG_DEST : Fld := ⟨0x40100, 0x8, 1, 1, .rw, .lit 0, false⟩
def PKT_SP_CFG_TRUNC : Fld := ⟨0x40100, 0x8, 2, 14, .rw, .lit 16128, false⟩
def PKT_SP_CFG_CORES : Fld := ⟨0x40100, 0x8, 16, 16, .rw, .lit 65535, false⟩
/-! PKT_SP_RATE: 05_packet_pipeline.md R184. -/
def PKT_SP_RATE_RATE : Fld := ⟨0x40104, 0x8, 0, 22, .rw, .lit 10000, false⟩
def PKT_SP_RATE_BURST : Fld := ⟨0x40104, 0x8, 22, 10, .rw, .lit 100, false⟩
/-! PKT_FLOW_CMD: 05_packet_pipeline.md R184. -/
def PKT_FLOW_CMD_OP : Fld := ⟨0x40200, 0x0, 0, 3, .rw, .lit 0, false⟩
def PKT_FLOW_CMD_TABLE : Fld := ⟨0x40200, 0x0, 4, 3, .rw, .lit 0, false⟩
def PKT_FLOW_CMD_BANK : Fld := ⟨0x40200, 0x0, 7, 1, .rw, .lit 0, false⟩
def PKT_FLOW_CMD_GO : Fld := ⟨0x40200, 0x0, 8, 1, .wo, .lit 0, false⟩
def PKT_FLOW_CMD_BUSY : Fld := ⟨0x40200, 0x0, 9, 1, .ro, .lit 0, false⟩
def PKT_FLOW_CMD_RESULT : Fld := ⟨0x40200, 0x0, 12, 3, .ro, .lit 0, false⟩
def PKT_FLOW_CMD_WAY : Fld := ⟨0x40200, 0x0, 16, 2, .ro, .lit 0, false⟩
/-! PKT_FLOW_DATA: 05_packet_pipeline.md R184. -/
def PKT_FLOW_DATA_DATA : Fld := ⟨0x40210, 0x4, 0, 32, .rw, .lit 0, false⟩
/-! SCH_Q_CFG: 06_queues_and_shaping.md R213. -/
def SCH_Q_CFG_VALID : Fld := ⟨0x58000000, 0x10, 0, 1, .rw, .lit 0, false⟩
def SCH_Q_CFG_DIR : Fld := ⟨0x58000000, 0x10, 1, 1, .rw, .lit 0, false⟩
def SCH_Q_CFG_IQ : Fld := ⟨0x58000000, 0x10, 2, 1, .rw, .lit 0, false⟩
def SCH_Q_CFG_SPILL_EN : Fld := ⟨0x58000000, 0x10, 3, 1, .rw, .lit 0, false⟩
def SCH_Q_CFG_TC : Fld := ⟨0x58000000, 0x10, 4, 3, .rw, .lit 0, false⟩
def SCH_Q_CFG_PORT : Fld := ⟨0x58000000, 0x10, 8, 7, .rw, .lit 0, false⟩
def SCH_Q_CFG_PARENT : Fld := ⟨0x58000000, 0x10, 16, 12, .rw, .lit 4095, false⟩
def SCH_Q_CFG_PRIO : Fld := ⟨0x58000000, 0x10, 28, 3, .rw, .lit 0, false⟩
/-! SCH_Q_SCHED: 06_queues_and_shaping.md R213. -/
def SCH_Q_SCHED_WEIGHT : Fld := ⟨0x58000004, 0x10, 0, 8, .rw, .lit 1, false⟩
def SCH_Q_SCHED_SHAPER : Fld := ⟨0x58000004, 0x10, 8, 13, .rw, .lit 0, false⟩
def SCH_Q_SCHED_SH_EN : Fld := ⟨0x58000004, 0x10, 21, 1, .rw, .lit 0, false⟩
/-! SCH_Q_LIMIT: 06_queues_and_shaping.md R213. -/
def SCH_Q_LIMIT_MIN : Fld := ⟨0x58000008, 0x10, 0, 16, .rw, .lit 0, false⟩
def SCH_Q_LIMIT_MAX : Fld := ⟨0x58000008, 0x10, 16, 16, .rw, .lit 0, false⟩
/-! SCH_Q_SPILL: 06_queues_and_shaping.md R213. -/
def SCH_Q_SPILL_SPILL_ON : Fld := ⟨0x5800000C, 0x10, 0, 16, .rw, .lit 0, false⟩
def SCH_Q_SPILL_SPILL_MAX : Fld := ⟨0x5800000C, 0x10, 16, 16, .rw, .lit 0, false⟩
/-! SCH_Q_OCC: 06_queues_and_shaping.md R213. -/
def SCH_Q_OCC_CELLS : Fld := ⟨0x58080000, 0x10, 0, 17, .ro, .lit 0, false⟩
def SCH_Q_OCC_UNBOUND : Fld := ⟨0x58080000, 0x10, 30, 1, .ro, .lit 0, false⟩
def SCH_Q_OCC_SPILLING : Fld := ⟨0x58080000, 0x10, 31, 1, .ro, .lit 0, false⟩
/-! SCH_Q_SPILLED: 06_queues_and_shaping.md R213. -/
def SCH_Q_SPILLED_KIB : Fld := ⟨0x58080004, 0x10, 0, 32, .ro, .lit 0, false⟩
/-! SCH_Q_FRAMES: 06_queues_and_shaping.md R213. -/
def SCH_Q_FRAMES_FRAMES : Fld := ⟨0x58080008, 0x10, 0, 24, .ro, .lit 0, false⟩
/-! SCH_SHAPER_CFG: 06_queues_and_shaping.md R213. -/
def SCH_SHAPER_CFG_MODE : Fld := ⟨0x58300000, 0x40, 0, 1, .rw, .lit 0, false⟩
def SCH_SHAPER_CFG_OVERHEAD : Fld := ⟨0x58300000, 0x40, 16, 9, .rw, .lit 0, false⟩
/-! SCH_SHAPER_RATE: 06_queues_and_shaping.md R213. -/
def SCH_SHAPER_RATE_RATE : Fld := ⟨0x58300004, 0x40, 0, 32, .rw, .lit 1000, false⟩
/-! SCH_SHAPER_BURST: 06_queues_and_shaping.md R213. -/
def SCH_SHAPER_BURST_BURST : Fld := ⟨0x58300008, 0x40, 0, 24, .rw, .lit 16384, false⟩
/-! SCH_SHAPER_CTRL: 06_queues_and_shaping.md R213. -/
def SCH_SHAPER_CTRL_ARM : Fld := ⟨0x5830000C, 0x40, 0, 1, .rw, .lit 0, false⟩
def SCH_SHAPER_CTRL_RESET_CREDIT : Fld := ⟨0x5830000C, 0x40, 1, 1, .rw, .lit 0, false⟩
/-! SCH_SHAPER_EPOCH: 02_almanac.md R87. -/
def SCH_SHAPER_EPOCH_LAST_EPOCH : Fld := ⟨0x58300010, 0x40, 0, 16, .ro, .lit 0, false⟩
def SCH_SHAPER_EPOCH_WRITE_EPOCH : Fld := ⟨0x58300010, 0x40, 16, 16, .ro, .lit 0, false⟩
/-! SCH_SHAPER_ACT_CFG: 06_queues_and_shaping.md R213. -/
def SCH_SHAPER_ACT_CFG_MODE : Fld := ⟨0x58300014, 0x40, 0, 1, .ro, .lit 0, false⟩
def SCH_SHAPER_ACT_CFG_OVERHEAD : Fld := ⟨0x58300014, 0x40, 16, 9, .ro, .lit 0, false⟩
/-! SCH_SHAPER_ACT_RATE: 06_queues_and_shaping.md R213. -/
def SCH_SHAPER_ACT_RATE_RATE : Fld := ⟨0x58300018, 0x40, 0, 32, .ro, .lit 1000, false⟩
/-! SCH_SHAPER_ACT_BURST: 06_queues_and_shaping.md R213. -/
def SCH_SHAPER_ACT_BURST_BURST : Fld := ⟨0x5830001C, 0x40, 0, 24, .ro, .lit 16384, false⟩
/-! SCH_SHAPER_CREDIT: 06_queues_and_shaping.md R213. -/
def SCH_SHAPER_CREDIT_BAL : Fld := ⟨0x58300020, 0x40, 0, 32, .ro, .lit 0, false⟩
/-! SCH_POL_CFG: 06_queues_and_shaping.md R213. -/
def SCH_POL_CFG_EN : Fld := ⟨0x58380000, 0x40, 0, 1, .rw, .lit 0, false⟩
def SCH_POL_CFG_OVERHEAD : Fld := ⟨0x58380000, 0x40, 16, 9, .rw, .lit 0, false⟩
/-! SCH_POL_RATE: 06_queues_and_shaping.md R213. -/
def SCH_POL_RATE_RATE : Fld := ⟨0x58380004, 0x40, 0, 32, .rw, .lit 1000, false⟩
/-! SCH_POL_BURST: 06_queues_and_shaping.md R213. -/
def SCH_POL_BURST_BURST : Fld := ⟨0x58380008, 0x40, 0, 24, .rw, .lit 16384, false⟩
/-! SCH_POL_TOKENS: 06_queues_and_shaping.md R213. -/
def SCH_POL_TOKENS_BAL : Fld := ⟨0x5838000C, 0x40, 0, 32, .ro, .lit 0, false⟩
/-! SCH_NODE_CFG: 06_queues_and_shaping.md R213. -/
def SCH_NODE_CFG_VALID : Fld := ⟨0x58480000, 0x8, 0, 1, .rw, .lit 0, false⟩
def SCH_NODE_CFG_DIR : Fld := ⟨0x58480000, 0x8, 1, 1, .rw, .lit 0, false⟩
def SCH_NODE_CFG_PORT : Fld := ⟨0x58480000, 0x8, 8, 7, .rw, .lit 0, false⟩
def SCH_NODE_CFG_PARENT : Fld := ⟨0x58480000, 0x8, 16, 12, .rw, .lit 4095, false⟩
def SCH_NODE_CFG_PRIO : Fld := ⟨0x58480000, 0x8, 28, 3, .rw, .lit 0, false⟩
/-! SCH_NODE_SCHED: 06_queues_and_shaping.md R213. -/
def SCH_NODE_SCHED_WEIGHT : Fld := ⟨0x58480004, 0x8, 0, 8, .rw, .lit 1, false⟩
def SCH_NODE_SCHED_SHAPER : Fld := ⟨0x58480004, 0x8, 8, 13, .rw, .lit 0, false⟩
def SCH_NODE_SCHED_SH_EN : Fld := ⟨0x58480004, 0x8, 21, 1, .rw, .lit 0, false⟩
/-! SCH_GATE_CTRL: 06_queues_and_shaping.md R213. -/
def SCH_GATE_CTRL_ARM : Fld := ⟨0x58500000, 0x1000, 0, 1, .rw, .lit 0, false⟩
/-! SCH_GATE_EPOCH: 02_almanac.md R87. -/
def SCH_GATE_EPOCH_LAST_EPOCH : Fld := ⟨0x58500004, 0x1000, 0, 16, .ro, .lit 0, false⟩
def SCH_GATE_EPOCH_WRITE_EPOCH : Fld := ⟨0x58500004, 0x1000, 16, 16, .ro, .lit 0, false⟩
/-! SCH_GATE_BASE_NS: 06_queues_and_shaping.md R213. -/
def SCH_GATE_BASE_NS_NS : Fld := ⟨0x58500008, 0x1000, 0, 30, .rw, .lit 0, false⟩
/-! SCH_GATE_BASE_SLO: 06_queues_and_shaping.md R213. -/
def SCH_GATE_BASE_SLO_SEC : Fld := ⟨0x5850000C, 0x1000, 0, 32, .rw, .lit 0, false⟩
/-! SCH_GATE_BASE_SHI: 06_queues_and_shaping.md R213. -/
def SCH_GATE_BASE_SHI_SEC : Fld := ⟨0x58500010, 0x1000, 0, 16, .rw, .lit 0, false⟩
/-! SCH_GATE_LEN: 06_queues_and_shaping.md R213. -/
def SCH_GATE_LEN_N : Fld := ⟨0x58500014, 0x1000, 0, 9, .rw, .lit 1, false⟩
def SCH_GATE_LEN_EN : Fld := ⟨0x58500014, 0x1000, 15, 1, .rw, .lit 0, false⟩
def SCH_GATE_LEN_IDLE : Fld := ⟨0x58500014, 0x1000, 16, 8, .rw, .lit 255, false⟩
/-! SCH_GATE_STAT: 06_queues_and_shaping.md R213. -/
def SCH_GATE_STAT_CUR : Fld := ⟨0x58500018, 0x1000, 0, 8, .ro, .lit 0, false⟩
def SCH_GATE_STAT_ACT_N : Fld := ⟨0x58500018, 0x1000, 8, 9, .ro, .lit 1, false⟩
def SCH_GATE_STAT_ACT_EN : Fld := ⟨0x58500018, 0x1000, 17, 1, .ro, .lit 0, false⟩
def SCH_GATE_STAT_BEFORE_BASE : Fld := ⟨0x58500018, 0x1000, 18, 1, .ro, .lit 0, false⟩
/-! SCH_GATE_CYCLE: 06_queues_and_shaping.md R213. -/
def SCH_GATE_CYCLE_NS : Fld := ⟨0x5850001C, 0x1000, 0, 30, .ro, .lit 16, false⟩
/-! SCH_GATE_MAXWIN: 06_queues_and_shaping.md R213. -/
def SCH_GATE_MAXWIN_NS : Fld := ⟨0x58500020, 0x4, 0, 32, .ro, .lit 4294967295, false⟩
/-! SCH_GATE_ENTRY: 06_queues_and_shaping.md R213. -/
def SCH_GATE_ENTRY_INTERVAL : Fld := ⟨0x58500400, 0x4, 0, 24, .rw, .lit 16, false⟩
def SCH_GATE_ENTRY_STATES : Fld := ⟨0x58500400, 0x4, 24, 8, .rw, .lit 255, false⟩
/-! SCH_GATE_ACT_ENTRY: 06_queues_and_shaping.md R213. -/
def SCH_GATE_ACT_ENTRY_INTERVAL : Fld := ⟨0x58500800, 0x4, 0, 24, .ro, .lit 16, false⟩
def SCH_GATE_ACT_ENTRY_STATES : Fld := ⟨0x58500800, 0x4, 24, 8, .ro, .lit 255, false⟩
/-! SCH_SLICE_STAT: 06_queues_and_shaping.md R213. -/
def SCH_SLICE_STAT_FREE : Fld := ⟨0x60000, 0x4, 0, 17, .ro, .lit 98304, false⟩
/-! SCH_SPILL_STAT: 06_queues_and_shaping.md R213. -/
def SCH_SPILL_STAT_USED : Fld := ⟨0x60080, 0x4, 0, 14, .ro, .lit 0, false⟩
def SCH_SPILL_STAT_STAGE_FULL : Fld := ⟨0x60080, 0x4, 31, 1, .ro, .lit 0, false⟩
/-! SCH_PFC_CFG: 06_queues_and_shaping.md R213. -/
def SCH_PFC_CFG_MODE : Fld := ⟨0x61000, 0x80, 0, 2, .rw, .lit 0, false⟩
def SCH_PFC_CFG_REFRESH : Fld := ⟨0x61000, 0x80, 4, 12, .rw, .lit 40, false⟩
def SCH_PFC_CFG_QUANTA : Fld := ⟨0x61000, 0x80, 16, 16, .rw, .lit 65535, false⟩
/-! SCH_PFC_STAT: 06_queues_and_shaping.md R213. -/
def SCH_PFC_STAT_XOFF : Fld := ⟨0x61004, 0x80, 0, 8, .ro, .lit 0, false⟩
/-! SCH_PFC_XOFF: 06_queues_and_shaping.md R213. -/
def SCH_PFC_XOFF_CELLS : Fld := ⟨0x61010, 0x4, 0, 24, .rw, .lit 8192, false⟩
/-! SCH_PFC_XON: 06_queues_and_shaping.md R213. -/
def SCH_PFC_XON_CELLS : Fld := ⟨0x61014, 0x4, 0, 24, .rw, .lit 4096, false⟩
/-! SCH_PFC_HDRM: 06_queues_and_shaping.md R213. -/
def SCH_PFC_HDRM_CELLS : Fld := ⟨0x61018, 0x4, 0, 24, .rw, .lit 2048, false⟩
/-! SMP_CELL_CFG: 07_sample_engines.md R241. -/
def SMP_CELL_CFG_ENABLE : Fld := ⟨0x80000, 0x400, 0, 1, .rw, .lit 0, false⟩
def SMP_CELL_CFG_EVT_EN : Fld := ⟨0x80000, 0x400, 1, 1, .rw, .lit 1, false⟩
def SMP_CELL_CFG_SYM_TO : Fld := ⟨0x80000, 0x400, 16, 10, .rw, .lit 100, false⟩
/-! SMP_CELL_STAT: 07_sample_engines.md R241. -/
def SMP_CELL_STAT_STATE : Fld := ⟨0x80004, 0x400, 0, 3, .ro, .lit 0, false⟩
def SMP_CELL_STAT_BAD : Fld := ⟨0x80004, 0x400, 3, 1, .ro, .lit 0, false⟩
def SMP_CELL_STAT_ENTRY : Fld := ⟨0x80004, 0x400, 16, 11, .ro, .lit 0, false⟩
/-! SMP_PROG_BANK: 07_sample_engines.md R241. -/
def SMP_PROG_BANK_ACT : Fld := ⟨0x80008, 0x400, 0, 1, .rw, .lit 0, false⟩
def SMP_PROG_BANK_RUN : Fld := ⟨0x80008, 0x400, 1, 1, .ro, .lit 0, false⟩
def SMP_PROG_BANK_PEND : Fld := ⟨0x80008, 0x400, 2, 1, .ro, .lit 0, false⟩
def SMP_PROG_BANK_LOCK : Fld := ⟨0x80008, 0x400, 3, 1, .ro, .lit 0, false⟩
/-! SMP_PROG_INFO: 07_sample_engines.md R241. -/
def SMP_PROG_INFO_COUNT : Fld := ⟨0x8000C, 0x400, 0, 12, .ro, .lit 0, false⟩
def SMP_PROG_INFO_START : Fld := ⟨0x8000C, 0x400, 16, 11, .ro, .lit 0, false⟩
/-! SMP_CELL_NSYM: 07_sample_engines.md R241. -/
def SMP_CELL_NSYM_NSYM : Fld := ⟨0x80010, 0x400, 0, 24, .ro, .lit 0, false⟩
/-! SMP_CSET_CTRL: 07_sample_engines.md R241. -/
def SMP_CSET_CTRL_ARM : Fld := ⟨0x80014, 0x400, 0, 1, .rw, .lit 0, false⟩
/-! SMP_CSET_STAT: 07_sample_engines.md R241. -/
def SMP_CSET_STAT_ACT : Fld := ⟨0x80018, 0x400, 0, 1, .ro, .lit 0, false⟩
def SMP_CSET_STAT_RESEED : Fld := ⟨0x80018, 0x400, 1, 1, .ro, .lit 0, false⟩
/-! SMP_CSET_EPOCH: 02_almanac.md R87. -/
def SMP_CSET_EPOCH_LAST_EPOCH : Fld := ⟨0x8001C, 0x400, 0, 16, .ro, .lit 0, false⟩
def SMP_CSET_EPOCH_WRITE_EPOCH : Fld := ⟨0x8001C, 0x400, 16, 16, .ro, .lit 0, false⟩
/-! SMP_SYM_CNT: 07_sample_engines.md R241. -/
def SMP_SYM_CNT_CNT : Fld := ⟨0x80020, 0x400, 0, 32, .ro, .lit 0, false⟩
/-! SMP_CELL_EVT: 07_sample_engines.md R241. -/
def SMP_CELL_EVT_SLIP : Fld := ⟨0x80024, 0x400, 0, 1, .w1c, .lit 0, false⟩
def SMP_CELL_EVT_MISSING : Fld := ⟨0x80024, 0x400, 1, 1, .w1c, .lit 0, false⟩
def SMP_CELL_EVT_ARR_OVR : Fld := ⟨0x80024, 0x400, 2, 1, .w1c, .lit 0, false⟩
def SMP_CELL_EVT_SAT : Fld := ⟨0x80024, 0x400, 3, 1, .w1c, .lit 0, false⟩
def SMP_CELL_EVT_ACC_SAT : Fld := ⟨0x80024, 0x400, 4, 1, .w1c, .lit 0, false⟩
def SMP_CELL_EVT_FLIP : Fld := ⟨0x80024, 0x400, 5, 1, .w1c, .lit 0, false⟩
def SMP_CELL_EVT_HANDOVER : Fld := ⟨0x80024, 0x400, 6, 1, .w1c, .lit 0, false⟩
def SMP_CELL_EVT_MISMATCH : Fld := ⟨0x80024, 0x400, 7, 1, .w1c, .lit 0, false⟩
/-! SMP_CSET_BEXP: 07_sample_engines.md R241. -/
def SMP_CSET_BEXP_BEXP0 : Fld := ⟨0x80030, 0x4, 0, 6, .rw, .lit 0, false⟩
def SMP_CSET_BEXP_BEXP1 : Fld := ⟨0x80030, 0x4, 8, 6, .rw, .lit 0, false⟩
def SMP_CSET_BEXP_BEXP2 : Fld := ⟨0x80030, 0x4, 16, 6, .rw, .lit 0, false⟩
def SMP_CSET_BEXP_BEXP3 : Fld := ⟨0x80030, 0x4, 24, 6, .rw, .lit 0, false⟩
/-! SMP_CSET_ACT_BEXP: 07_sample_engines.md R241. -/
def SMP_CSET_ACT_BEXP_BEXP0 : Fld := ⟨0x80040, 0x4, 0, 6, .ro, .lit 0, false⟩
def SMP_CSET_ACT_BEXP_BEXP1 : Fld := ⟨0x80040, 0x4, 8, 6, .ro, .lit 0, false⟩
def SMP_CSET_ACT_BEXP_BEXP2 : Fld := ⟨0x80040, 0x4, 16, 6, .ro, .lit 0, false⟩
def SMP_CSET_ACT_BEXP_BEXP3 : Fld := ⟨0x80040, 0x4, 24, 6, .ro, .lit 0, false⟩
/-! SMP_LMASK: 07_sample_engines.md R241. -/
def SMP_LMASK_LANES : Fld := ⟨0x80200, 0x4, 0, 32, .rw, .lit 0, false⟩
/-! SMP_ASM_STAT: 08_fronthaul_combining.md R262. -/
def SMP_ASM_STAT_LAST_EMIT : Fld := ⟨0x98000, 0x100, 0, 16, .ro, .lit 0, false⟩
def SMP_ASM_STAT_OPEN : Fld := ⟨0x98000, 0x100, 16, 2, .ro, .lit 0, false⟩
def SMP_ASM_STAT_EMITTING : Fld := ⟨0x98000, 0x100, 18, 1, .ro, .lit 0, false⟩
def SMP_ASM_STAT_VALID : Fld := ⟨0x98000, 0x100, 19, 1, .ro, .lit 0, false⟩
/-! SMP_COEF_STAT: 08_fronthaul_combining.md R262. -/
def SMP_COEF_STAT_STATE : Fld := ⟨0x98004, 0x100, 0, 3, .ro, .lit 0, false⟩
def SMP_COEF_STAT_ROWS : Fld := ⟨0x98004, 0x100, 4, 9, .ro, .lit 0, false⟩
def SMP_COEF_STAT_APPLY : Fld := ⟨0x98004, 0x100, 16, 16, .ro, .lit 0, false⟩
/-! SMP_COEF_SEQ: 08_fronthaul_combining.md R262. -/
def SMP_COEF_SEQ_LAST_SEQ : Fld := ⟨0x98008, 0x100, 0, 32, .ro, .lit 0, false⟩
/-! SMP_PATH_EVT: 08_fronthaul_combining.md R262. -/
def SMP_PATH_EVT_LATE : Fld := ⟨0x9800C, 0x100, 0, 1, .w1c, .lit 0, false⟩
def SMP_PATH_EVT_SUPERSEDED : Fld := ⟨0x9800C, 0x100, 1, 1, .w1c, .lit 0, false⟩
def SMP_PATH_EVT_SET_LOST : Fld := ⟨0x9800C, 0x100, 2, 1, .w1c, .lit 0, false⟩
def SMP_PATH_EVT_SYM_LOSS : Fld := ⟨0x9800C, 0x100, 3, 1, .w1c, .lit 0, false⟩
def SMP_PATH_EVT_FMT : Fld := ⟨0x9800C, 0x100, 4, 1, .w1c, .lit 0, false⟩
/-! TMG_STAT: 09_time_and_sync.md R303. -/
def TMG_STAT_STATE : Fld := ⟨0xA0000, 0x0, 0, 2, .ro, .lit 0, true⟩
def TMG_STAT_OUT_VALID : Fld := ⟨0xA0000, 0x0, 2, 1, .ro, .lit 0, true⟩
def TMG_STAT_SEL : Fld := ⟨0xA0000, 0x0, 3, 1, .ro, .lit 0, true⟩
def TMG_STAT_EQX_ACTIVE : Fld := ⟨0xA0000, 0x0, 4, 1, .ro, .lit 0, true⟩
def TMG_STAT_CLASS : Fld := ⟨0xA0000, 0x0, 8, 8, .ro, .lit 248, true⟩
def TMG_STAT_QL : Fld := ⟨0xA0000, 0x0, 16, 4, .ro, .lit 15, true⟩
/-! TMG_EVT: 09_time_and_sync.md R303. -/
def TMG_EVT_STATE_CHG : Fld := ⟨0xA0004, 0x0, 0, 1, .w1c, .lit 0, false⟩
def TMG_EVT_SEL_CHG : Fld := ⟨0xA0004, 0x0, 1, 1, .w1c, .lit 0, false⟩
def TMG_EVT_EQX_DONE : Fld := ⟨0xA0004, 0x0, 2, 1, .w1c, .lit 0, false⟩
def TMG_EVT_EQX_LARGE : Fld := ⟨0xA0004, 0x0, 3, 1, .w1c, .lit 0, false⟩
def TMG_EVT_STEPPED : Fld := ⟨0xA0004, 0x0, 4, 1, .w1c, .lit 0, false⟩
def TMG_EVT_STEP_REFUSED : Fld := ⟨0xA0004, 0x0, 5, 1, .w1c, .lit 0, false⟩
def TMG_EVT_SLEW_REFUSED : Fld := ⟨0xA0004, 0x0, 6, 1, .w1c, .lit 0, false⟩
def TMG_EVT_LEAP_DONE : Fld := ⟨0xA0004, 0x0, 7, 1, .w1c, .lit 0, false⟩
def TMG_EVT_A_LOST : Fld := ⟨0xA0004, 0x0, 8, 1, .w1c, .lit 0, false⟩
def TMG_EVT_B_LOST : Fld := ⟨0xA0004, 0x0, 9, 1, .w1c, .lit 0, false⟩
def TMG_EVT_OSC_FAULT : Fld := ⟨0xA0004, 0x0, 10, 1, .w1c, .lit 0, false⟩
def TMG_EVT_VIG_LIMIT : Fld := ⟨0xA0004, 0x0, 11, 1, .w1c, .lit 0, false⟩
def TMG_EVT_PPS_STUCK : Fld := ⟨0xA0004, 0x0, 12, 1, .w1c, .lit 0, false⟩
/-! TMG_SEL_CFG: 09_time_and_sync.md R303. -/
def TMG_SEL_CFG_MODE : Fld := ⟨0xA0008, 0x0, 0, 2, .rws, .lit 0, false⟩
def TMG_SEL_CFG_PREF : Fld := ⟨0xA0008, 0x0, 2, 1, .rws, .lit 0, false⟩
def TMG_SEL_CFG_WTR : Fld := ⟨0xA0008, 0x0, 4, 12, .rws, .lit 300, false⟩
def TMG_SEL_CFG_EVT_EN : Fld := ⟨0xA0008, 0x0, 16, 1, .rws, .lit 1, false⟩
/-! TMG_SLEW: 09_time_and_sync.md R303. -/
def TMG_SLEW_SLEW : Fld := ⟨0xA000C, 0x0, 0, 16, .rws, .lit 100, false⟩
def TMG_SLEW_SLEW_MAX : Fld := ⟨0xA000C, 0x0, 16, 16, .ro, .lit 0, false⟩
/-! TMG_NS: 09_time_and_sync.md R303. -/
def TMG_NS_NS : Fld := ⟨0xA0010, 0x0, 0, 30, .ro, .lit 0, true⟩
/-! TMG_FRAC: 09_time_and_sync.md R303. -/
def TMG_FRAC_FRAC : Fld := ⟨0xA0014, 0x0, 0, 16, .ro, .lit 0, true⟩
/-! TMG_SEC_LO: 09_time_and_sync.md R303. -/
def TMG_SEC_LO_SEC : Fld := ⟨0xA0018, 0x0, 0, 32, .ro, .lit 0, true⟩
/-! TMG_SEC_HI: 09_time_and_sync.md R303. -/
def TMG_SEC_HI_SEC : Fld := ⟨0xA001C, 0x0, 0, 16, .ro, .lit 0, true⟩
/-! TMG_TS_NOW: 09_time_and_sync.md R303. -/
def TMG_TS_NOW_TS_NS : Fld := ⟨0xA0020, 0x0, 0, 32, .ro, .lit 0, true⟩
/-! TMG_EQX: 09_time_and_sync.md R303. -/
def TMG_EQX_REM : Fld := ⟨0xA0024, 0x0, 0, 32, .ro, .lit 0, true⟩
/-! TMG_STEP_LO: 09_time_and_sync.md R303. -/
def TMG_STEP_LO_DELTA : Fld := ⟨0xA0028, 0x0, 0, 32, .rw, .lit 0, false⟩
/-! TMG_STEP_HI: 09_time_and_sync.md R303. -/
def TMG_STEP_HI_DELTA : Fld := ⟨0xA002C, 0x0, 0, 16, .rw, .lit 0, false⟩
def TMG_STEP_HI_TO_SEL : Fld := ⟨0xA002C, 0x0, 30, 1, .rw, .lit 0, false⟩
def TMG_STEP_HI_GO : Fld := ⟨0xA002C, 0x0, 31, 1, .wo, .lit 0, false⟩
/-! TMG_UTC: 09_time_and_sync.md R303. -/
def TMG_UTC_OFFSET : Fld := ⟨0xA0030, 0x0, 0, 16, .rws, .lit 37, false⟩
def TMG_UTC_PENDING : Fld := ⟨0xA0030, 0x0, 16, 1, .rws, .lit 0, false⟩
def TMG_UTC_DIR : Fld := ⟨0xA0030, 0x0, 17, 1, .rws, .lit 0, false⟩
def TMG_UTC_SRC : Fld := ⟨0xA0030, 0x0, 18, 1, .rws, .lit 0, false⟩
/-! TMG_LEAP_AT_LO: 09_time_and_sync.md R303. -/
def TMG_LEAP_AT_LO_SEC : Fld := ⟨0xA0034, 0x0, 0, 32, .rws, .lit 0, false⟩
/-! TMG_LEAP_AT_HI: 09_time_and_sync.md R303. -/
def TMG_LEAP_AT_HI_SEC : Fld := ⟨0xA0038, 0x0, 0, 16, .rws, .lit 0, false⟩
/-! TMG_A_CFG: 09_time_and_sync.md R303. -/
def TMG_A_CFG_SEL_EN : Fld := ⟨0xA0080, 0x0, 0, 1, .rws, .lit 0, false⟩
def TMG_A_CFG_CH : Fld := ⟨0xA0080, 0x0, 1, 4, .rws, .lit 0, false⟩
def TMG_A_CFG_HOME : Fld := ⟨0xA0080, 0x0, 5, 1, .rws, .lit 1, false⟩
def TMG_A_CFG_LOSS_TO : Fld := ⟨0xA0080, 0x0, 8, 8, .rws, .lit 4, false⟩
def TMG_A_CFG_CLASS_LOCKED : Fld := ⟨0xA0080, 0x0, 16, 8, .rws, .lit 6, false⟩
/-! TMG_A_TEQ: 09_time_and_sync.md R303. -/
def TMG_A_TEQ_TEQ : Fld := ⟨0xA0084, 0x0, 0, 32, .rws, .lit 0, false⟩
/-! TMG_A_DELAY: 09_time_and_sync.md R303. -/
def TMG_A_DELAY_DDOWN : Fld := ⟨0xA0088, 0x0, 0, 32, .ro, .lit 0, true⟩
/-! TMG_B_CFG: 09_time_and_sync.md R303. -/
def TMG_B_CFG_SRC : Fld := ⟨0xA0090, 0x0, 0, 2, .rws, .lit 0, false⟩
def TMG_B_CFG_FREQ_IN_EN : Fld := ⟨0xA0090, 0x0, 2, 1, .rws, .lit 0, false⟩
def TMG_B_CFG_PPS_POL : Fld := ⟨0xA0090, 0x0, 3, 1, .rws, .lit 0, false⟩
def TMG_B_CFG_PORT : Fld := ⟨0xA0090, 0x0, 4, 7, .rws, .lit 0, false⟩
def TMG_B_CFG_QUAL : Fld := ⟨0xA0090, 0x0, 12, 4, .rws, .lit 3, false⟩
def TMG_B_CFG_LOSS_TO : Fld := ⟨0xA0090, 0x0, 16, 8, .rws, .lit 4, false⟩
def TMG_B_CFG_CLASS_LOCKED : Fld := ⟨0xA0090, 0x0, 24, 8, .rws, .lit 6, false⟩
/-! TMG_B_PPS: 09_time_and_sync.md R303. -/
def TMG_B_PPS_DELAY : Fld := ⟨0xA0094, 0x0, 0, 20, .rws, .lit 0, false⟩
def TMG_B_PPS_MINW : Fld := ⟨0xA0094, 0x0, 20, 8, .rws, .lit 10, false⟩
def TMG_B_PPS_STUCK : Fld := ⟨0xA0094, 0x0, 28, 4, .rws, .lit 2, false⟩
/-! TMG_B_MEAS_LO: 09_time_and_sync.md R303. -/
def TMG_B_MEAS_LO_OFS : Fld := ⟨0xA0098, 0x0, 0, 32, .wo, .lit 0, false⟩
/-! TMG_B_MEAS_HI: 09_time_and_sync.md R303. -/
def TMG_B_MEAS_HI_OFS : Fld := ⟨0xA009C, 0x0, 0, 16, .wo, .lit 0, false⟩
def TMG_B_MEAS_HI_INVALID : Fld := ⟨0xA009C, 0x0, 30, 1, .wo, .lit 0, false⟩
def TMG_B_MEAS_HI_GO : Fld := ⟨0xA009C, 0x0, 31, 1, .wo, .lit 0, false⟩
/-! TMG_PPSIN_STAT: 09_time_and_sync.md R303. -/
def TMG_PPSIN_STAT_PRESENT : Fld := ⟨0xA00A0, 0x0, 0, 1, .ro, .lit 0, false⟩
def TMG_PPSIN_STAT_STUCK : Fld := ⟨0xA00A0, 0x0, 1, 1, .ro, .lit 0, false⟩
def TMG_PPSIN_STAT_TOD_OK : Fld := ⟨0xA00A0, 0x0, 2, 1, .ro, .lit 0, false⟩
def TMG_PPSIN_STAT_FREQ_OK : Fld := ⟨0xA00A0, 0x0, 3, 1, .ro, .lit 0, false⟩
def TMG_PPSIN_STAT_QUAL_CNT : Fld := ⟨0xA00A0, 0x0, 8, 4, .ro, .lit 0, false⟩
/-! TMG_OUT_CFG: 09_time_and_sync.md R303. -/
def TMG_OUT_CFG_FREQ_EN : Fld := ⟨0xA00B0, 0x0, 0, 1, .rws, .lit 0, false⟩
def TMG_OUT_CFG_FREQ_SQ : Fld := ⟨0xA00B0, 0x0, 1, 2, .rws, .lit 1, false⟩
def TMG_OUT_CFG_TOD_EN : Fld := ⟨0xA00B0, 0x0, 3, 1, .rws, .lit 0, false⟩
def TMG_OUT_CFG_SYNCE_EN : Fld := ⟨0xA00B0, 0x0, 4, 1, .rws, .lit 0, false⟩
/-! TMG_CLASS: 09_time_and_sync.md R303. -/
def TMG_CLASS_HOLD_IN : Fld := ⟨0xA00BC, 0x0, 0, 8, .rws, .lit 7, false⟩
def TMG_CLASS_HOLD_OUT : Fld := ⟨0xA00BC, 0x0, 8, 8, .rws, .lit 140, false⟩
def TMG_CLASS_FREE : Fld := ⟨0xA00BC, 0x0, 16, 8, .rws, .lit 248, false⟩
def TMG_CLASS_VIG_LIMIT : Fld := ⟨0xA00BC, 0x0, 24, 8, .rws, .lit 110, false⟩
/-! TMG_QL: 09_time_and_sync.md R303. -/
def TMG_QL_LOCKED_A : Fld := ⟨0xA00C0, 0x0, 0, 4, .rws, .lit 2, false⟩
def TMG_QL_LOCKED_B : Fld := ⟨0xA00C0, 0x0, 4, 4, .rws, .lit 2, false⟩
def TMG_QL_HOLD_IN : Fld := ⟨0xA00C0, 0x0, 8, 4, .rws, .lit 4, false⟩
def TMG_QL_HOLD_OUT : Fld := ⟨0xA00C0, 0x0, 12, 4, .rws, .lit 11, false⟩
def TMG_QL_FREE : Fld := ⟨0xA00C0, 0x0, 16, 4, .rws, .lit 15, false⟩
/-! TMG_VIG_STAT: 09_time_and_sync.md R303. -/
def TMG_VIG_STAT_LEARN_H : Fld := ⟨0xA00D0, 0x0, 0, 16, .ro, .lit 0, true⟩
def TMG_VIG_STAT_LEARNED : Fld := ⟨0xA00D0, 0x0, 16, 1, .ro, .lit 0, true⟩
/-! TMG_VIG_TIME: 09_time_and_sync.md R303. -/
def TMG_VIG_TIME_SEC : Fld := ⟨0xA00D4, 0x0, 0, 32, .ro, .lit 0, true⟩
/-! TMG_VIG_EST: 09_time_and_sync.md R303. -/
def TMG_VIG_EST_EST : Fld := ⟨0xA00D8, 0x0, 0, 32, .ro, .lit 0, true⟩
/-! TMG_OSC_STAT: 09_time_and_sync.md R303. -/
def TMG_OSC_STAT_PRIMARY : Fld := ⟨0xA00DC, 0x0, 0, 2, .ro, .lit 0, true⟩
def TMG_OSC_STAT_SECONDARY : Fld := ⟨0xA00DC, 0x0, 2, 2, .ro, .lit 1, true⟩
def TMG_OSC_STAT_SPARE : Fld := ⟨0xA00DC, 0x0, 4, 2, .ro, .lit 2, true⟩
def TMG_OSC_STAT_DISAGREE : Fld := ⟨0xA00DC, 0x0, 6, 1, .ro, .lit 0, true⟩
def TMG_OSC_STAT_FAULT : Fld := ⟨0xA00DC, 0x0, 8, 3, .ro, .lit 0, true⟩
/-! TMG_DOM_STAT: 09_time_and_sync.md R303. -/
def TMG_DOM_STAT_DSTATE : Fld := ⟨0xA0040, 0x20, 0, 2, .ro, .lit 0, true⟩
def TMG_DOM_STAT_REF_OK : Fld := ⟨0xA0040, 0x20, 2, 1, .ro, .lit 0, true⟩
def TMG_DOM_STAT_CAUSE : Fld := ⟨0xA0040, 0x20, 8, 8, .ro, .lit 0, true⟩
def TMG_DOM_STAT_LOCK_CNT : Fld := ⟨0xA0040, 0x20, 16, 8, .ro, .lit 0, true⟩
/-! TMG_DOM_OFS: 09_time_and_sync.md R303. -/
def TMG_DOM_OFS_THETA : Fld := ⟨0xA0044, 0x20, 0, 32, .ro, .lit 0, true⟩
/-! TMG_DOM_FREQ: 09_time_and_sync.md R303. -/
def TMG_DOM_FREQ_S : Fld := ⟨0xA0048, 0x20, 0, 32, .ro, .lit 0, true⟩
/-! TMG_SERVO_CFG: 09_time_and_sync.md R303. -/
def TMG_SERVO_CFG_BW : Fld := ⟨0xA004C, 0x20, 0, 14, .rws, .lit 100, false⟩
def TMG_SERVO_CFG_DAMP : Fld := ⟨0xA004C, 0x20, 16, 7, .rws, .lit 12, false⟩
/-! TMG_SERVO_LIM: 09_time_and_sync.md R303. -/
def TMG_SERVO_LIM_LOCK_THR : Fld := ⟨0xA0050, 0x20, 0, 16, .rws, .lit 50, false⟩
def TMG_SERVO_LIM_LOCK_N : Fld := ⟨0xA0050, 0x20, 16, 8, .rws, .lit 8, false⟩
def TMG_SERVO_LIM_STEP_THR : Fld := ⟨0xA0050, 0x20, 24, 8, .rws, .lit 1, false⟩
/-! TMG_PPSOUT_CFG: 09_time_and_sync.md R303. -/
def TMG_PPSOUT_CFG_EN : Fld := ⟨0xA00B4, 0x4, 0, 1, .rws, .lit 0, false⟩
def TMG_PPSOUT_CFG_SQ : Fld := ⟨0xA00B4, 0x4, 1, 2, .rws, .lit 1, false⟩
def TMG_PPSOUT_CFG_POL : Fld := ⟨0xA00B4, 0x4, 3, 1, .rws, .lit 0, false⟩
def TMG_PPSOUT_CFG_WIDTH : Fld := ⟨0xA00B4, 0x4, 8, 12, .rws, .lit 1000, false⟩
def TMG_PPSOUT_CFG_ADV : Fld := ⟨0xA00B4, 0x4, 20, 12, .rws, .lit 0, false⟩
/-! TMG_A_EPACT: 09_time_and_sync.md R303. -/
def TMG_A_EPACT_EPACT : Fld := ⟨0xA0100, 0x4, 0, 32, .rws, .lit 0, false⟩
/-! TMG_PTP_CFG: 09_time_and_sync.md R303. -/
def TMG_PTP_CFG_ROLE : Fld := ⟨0xA1000, 0x10, 0, 2, .rws, .lit 0, false⟩
def TMG_PTP_CFG_DA : Fld := ⟨0xA1000, 0x10, 2, 1, .rws, .lit 0, false⟩
def TMG_PTP_CFG_ESMC_EN : Fld := ⟨0xA1000, 0x10, 3, 1, .rws, .lit 0, false⟩
def TMG_PTP_CFG_DOMAIN : Fld := ⟨0xA1000, 0x10, 8, 8, .rws, .lit 24, false⟩
/-! TMG_PTP_RATE: 09_time_and_sync.md R303. -/
def TMG_PTP_RATE_LOG_SYNC : Fld := ⟨0xA1004, 0x10, 0, 8, .rws, .lit 252, false⟩
def TMG_PTP_RATE_LOG_ANN : Fld := ⟨0xA1004, 0x10, 8, 8, .rws, .lit 253, false⟩
def TMG_PTP_RATE_LOG_DREQ : Fld := ⟨0xA1004, 0x10, 16, 8, .rws, .lit 252, false⟩
/-! TMG_PTP_STAT: 09_time_and_sync.md R303. -/
def TMG_PTP_STAT_SEQ : Fld := ⟨0xA1008, 0x10, 0, 16, .ro, .lit 0, true⟩
def TMG_PTP_STAT_SLAVE : Fld := ⟨0xA1008, 0x10, 16, 1, .ro, .lit 0, true⟩
/-! PRT_CFG: 10_ports_and_lanes.md R327. -/
def PRT_CFG_RATE : Fld := ⟨0xC0000, 0x400, 0, 3, .ro, .lit 0, false⟩
def PRT_CFG_PMD : Fld := ⟨0xC0000, 0x400, 3, 1, .ro, .lit 0, false⟩
def PRT_CFG_ADMIN_DOWN : Fld := ⟨0xC0000, 0x400, 4, 1, .rw, .lit 0, false⟩
def PRT_CFG_RX_PAUSE : Fld := ⟨0xC0000, 0x400, 8, 2, .rw, .lit 0, false⟩
def PRT_CFG_IDLE_EN : Fld := ⟨0xC0000, 0x400, 10, 1, .rw, .lit 0, false⟩
def PRT_CFG_EVT_EN : Fld := ⟨0xC0000, 0x400, 11, 1, .rw, .lit 1, false⟩
def PRT_CFG_FLUSH_TO : Fld := ⟨0xC0000, 0x400, 16, 10, .rw, .lit 10, false⟩
/-! PRT_STAT: 10_ports_and_lanes.md R327. -/
def PRT_STAT_LINK : Fld := ⟨0xC0004, 0x400, 0, 3, .ro, .lit 0, false⟩
def PRT_STAT_LF : Fld := ⟨0xC0004, 0x400, 3, 1, .ro, .lit 0, false⟩
def PRT_STAT_RF : Fld := ⟨0xC0004, 0x400, 4, 1, .ro, .lit 0, false⟩
def PRT_STAT_RX_IDLE : Fld := ⟨0xC0004, 0x400, 5, 1, .ro, .lit 0, false⟩
def PRT_STAT_TX_IDLE : Fld := ⟨0xC0004, 0x400, 6, 1, .ro, .lit 0, false⟩
def PRT_STAT_SEC_ON : Fld := ⟨0xC0004, 0x400, 7, 1, .ro, .lit 0, false⟩
def PRT_STAT_PAUSED : Fld := ⟨0xC0004, 0x400, 8, 8, .ro, .lit 0, false⟩
def PRT_STAT_WD_REL : Fld := ⟨0xC0004, 0x400, 16, 8, .ro, .lit 0, false⟩
/-! PRT_EVT: 10_ports_and_lanes.md R327. -/
def PRT_EVT_LINK_CHG : Fld := ⟨0xC0008, 0x400, 0, 1, .w1c, .lit 0, false⟩
def PRT_EVT_FAULT : Fld := ⟨0xC0008, 0x400, 1, 1, .w1c, .lit 0, false⟩
def PRT_EVT_PAUSE_WD : Fld := ⟨0xC0008, 0x400, 2, 1, .w1c, .lit 0, false⟩
def PRT_EVT_WAKE_FAIL : Fld := ⟨0xC0008, 0x400, 3, 1, .w1c, .lit 0, false⟩
def PRT_EVT_SEC_FAIL : Fld := ⟨0xC0008, 0x400, 4, 1, .w1c, .lit 0, false⟩
/-! PRT_MAC_LO: 10_ports_and_lanes.md R327. -/
def PRT_MAC_LO_MAC : Fld := ⟨0xC000C, 0x400, 0, 32, .rw, .lit 0, false⟩
/-! PRT_MAC_HI: 10_ports_and_lanes.md R327. -/
def PRT_MAC_HI_MAC : Fld := ⟨0xC0010, 0x400, 0, 16, .rw, .lit 0, false⟩
/-! PRT_PAUSE_CFG: 10_ports_and_lanes.md R327. -/
def PRT_PAUSE_CFG_WD : Fld := ⟨0xC0014, 0x400, 0, 14, .rw, .lit 100, false⟩
def PRT_PAUSE_CFG_RELEASE : Fld := ⟨0xC0014, 0x400, 16, 10, .rw, .lit 10, false⟩
/-! PRT_IDLE_CFG: 10_ports_and_lanes.md R327. -/
def PRT_IDLE_CFG_HOLD : Fld := ⟨0xC0018, 0x400, 0, 16, .rw, .lit 100, false⟩
/-! PRT_LOOP: 10_ports_and_lanes.md R327. -/
def PRT_LOOP_LOOP : Fld := ⟨0xC001C, 0x400, 0, 2, .rw, .lit 0, false⟩
def PRT_LOOP_PRBS_GEN : Fld := ⟨0xC001C, 0x400, 4, 1, .rw, .lit 0, false⟩
def PRT_LOOP_PRBS_CHK : Fld := ⟨0xC001C, 0x400, 5, 1, .rw, .lit 0, false⟩
def PRT_LOOP_PRBS_LOCK : Fld := ⟨0xC001C, 0x400, 6, 1, .ro, .lit 0, false⟩
/-! PRT_SEC_CFG: 10_ports_and_lanes.md R327. -/
def PRT_SEC_CFG_SEC_EN : Fld := ⟨0xC0020, 0x400, 0, 1, .rw, .lit 0, false⟩
def PRT_SEC_CFG_VALIDATE : Fld := ⟨0xC0020, 0x400, 1, 2, .rw, .lit 2, false⟩
def PRT_SEC_CFG_SCI_INCL : Fld := ⟨0xC0020, 0x400, 3, 1, .rw, .lit 1, false⟩
def PRT_SEC_CFG_OFFSET : Fld := ⟨0xC0020, 0x400, 4, 2, .rw, .lit 0, false⟩
/-! PRT_OPT_MON: 10_ports_and_lanes.md R327. -/
def PRT_OPT_MON_RX_PWR : Fld := ⟨0xC0034, 0x400, 0, 16, .ro, .lit 32768, false⟩
def PRT_OPT_MON_TX_PWR : Fld := ⟨0xC0034, 0x400, 16, 16, .ro, .lit 32768, false⟩
/-! PRT_SEC_BYPASS: 10_ports_and_lanes.md R327. -/
def PRT_SEC_BYPASS_ETYPE : Fld := ⟨0xC0024, 0x4, 0, 16, .rw, .cyc [0x8808, 0x8809, 0x888E, 0], false⟩
def PRT_SEC_BYPASS_VALID : Fld := ⟨0xC0024, 0x4, 16, 1, .rw, .cyc [1, 1, 1, 0], false⟩
/-! HST_LANE_CFG: 10_ports_and_lanes.md R327. -/
def HST_LANE_CFG_MODE : Fld := ⟨0xE0000, 0x0, 0, 2, .rw, .lit 0, false⟩
def HST_LANE_CFG_FEC_EN : Fld := ⟨0xE0000, 0x0, 2, 1, .rw, .lit 1, false⟩
def HST_LANE_CFG_SSC : Fld := ⟨0xE0000, 0x0, 3, 1, .rw, .lit 0, false⟩
def HST_LANE_CFG_TX_INV : Fld := ⟨0xE0000, 0x0, 4, 4, .rw, .lit 0, false⟩
def HST_LANE_CFG_RX_INV : Fld := ⟨0xE0000, 0x0, 8, 4, .rw, .lit 0, false⟩
def HST_LANE_CFG_RX_MAP : Fld := ⟨0xE0000, 0x0, 12, 8, .rw, .lit 228, false⟩
/-! HST_STAT: 10_ports_and_lanes.md R327. -/
def HST_STAT_LINK : Fld := ⟨0xE0004, 0x0, 0, 2, .ro, .lit 0, false⟩
def HST_STAT_MODE_ACT : Fld := ⟨0xE0004, 0x0, 2, 2, .ro, .lit 0, false⟩
def HST_STAT_SSC_DET : Fld := ⟨0xE0004, 0x0, 4, 1, .ro, .lit 0, false⟩
def HST_STAT_SSC_MISMATCH : Fld := ⟨0xE0004, 0x0, 5, 1, .ro, .lit 0, false⟩
def HST_STAT_PAUSED : Fld := ⟨0xE0004, 0x0, 6, 1, .ro, .lit 0, false⟩
def HST_STAT_REFCLK_OFS : Fld := ⟨0xE0004, 0x0, 16, 8, .ro, .lit 0, false⟩
/-! HST_MAC_LO: 10_ports_and_lanes.md R327. -/
def HST_MAC_LO_MAC : Fld := ⟨0xE0008, 0x0, 0, 32, .rw, .lit 0, false⟩
/-! HST_MAC_HI: 10_ports_and_lanes.md R327. -/
def HST_MAC_HI_MAC : Fld := ⟨0xE000C, 0x0, 0, 16, .rw, .lit 0, false⟩
/-! SBS_CFG: 10_ports_and_lanes.md R327. -/
def SBS_CFG_EN : Fld := ⟨0xF0000, 0x0, 0, 1, .rw, .lit 0, false⟩
def SBS_CFG_EVT_EN : Fld := ⟨0xF0000, 0x0, 1, 1, .rw, .lit 1, false⟩
def SBS_CFG_STUCK : Fld := ⟨0xF0000, 0x0, 16, 12, .rw, .lit 60, false⟩
/-! SBS_STAT: 10_ports_and_lanes.md R327. -/
def SBS_STAT_CARRIER : Fld := ⟨0xF0004, 0x0, 0, 1, .ro, .lit 0, false⟩
def SBS_STAT_QUEUE : Fld := ⟨0xF0004, 0x0, 8, 8, .ro, .lit 0, false⟩
/-! SBS_EVT: 10_ports_and_lanes.md R327. -/
def SBS_EVT_ALARM : Fld := ⟨0xF0008, 0x0, 0, 1, .w1c, .lit 0, false⟩
def SBS_EVT_ALARM_STUCK : Fld := ⟨0xF0008, 0x0, 1, 1, .w1c, .lit 0, false⟩
def SBS_EVT_POLL_LOST : Fld := ⟨0xF0008, 0x0, 2, 1, .w1c, .lit 0, false⟩
def SBS_EVT_GUARD_HELD : Fld := ⟨0xF0008, 0x0, 3, 1, .w1c, .lit 0, false⟩
/-! SBS_MAC_LO: 10_ports_and_lanes.md R327. -/
def SBS_MAC_LO_MAC : Fld := ⟨0xF000C, 0x0, 0, 32, .rw, .lit 0, false⟩
/-! SBS_MAC_HI: 10_ports_and_lanes.md R327. -/
def SBS_MAC_HI_MAC : Fld := ⟨0xF0010, 0x0, 0, 16, .rw, .lit 0, false⟩
/-! SBS_GUARD: 10_ports_and_lanes.md R327. -/
def SBS_GUARD_DUTY_MAX : Fld := ⟨0xF0014, 0x0, 0, 8, .ro, .lit 0, false⟩
def SBS_GUARD_DUTY : Fld := ⟨0xF0014, 0x0, 8, 8, .ro, .lit 0, false⟩
/-! SBS_ALARM_LO: 10_ports_and_lanes.md R327. -/
def SBS_ALARM_LO_BITS : Fld := ⟨0xF0018, 0x0, 0, 32, .ro, .lit 0, false⟩
/-! SBS_ALARM_HI: 10_ports_and_lanes.md R327. -/
def SBS_ALARM_HI_BITS : Fld := ⟨0xF001C, 0x0, 0, 32, .ro, .lit 0, false⟩
/-! SBS_MASK_LO: 10_ports_and_lanes.md R327. -/
def SBS_MASK_LO_BITS : Fld := ⟨0xF0020, 0x0, 0, 32, .ro, .lit 0, false⟩
/-! SBS_MASK_HI: 10_ports_and_lanes.md R327. -/
def SBS_MASK_HI_BITS : Fld := ⟨0xF0024, 0x0, 0, 32, .ro, .lit 0, false⟩
/-! SBS_POLL_CFG: 10_ports_and_lanes.md R327. -/
def SBS_POLL_CFG_EN : Fld := ⟨0xF0400, 0x20, 0, 1, .rw, .lit 0, false⟩
def SBS_POLL_CFG_RETRY : Fld := ⟨0xF0400, 0x20, 1, 2, .rw, .lit 2, false⟩
def SBS_POLL_CFG_TIMEOUT : Fld := ⟨0xF0400, 0x20, 3, 10, .rw, .lit 50, false⟩
def SBS_POLL_CFG_INTERVAL : Fld := ⟨0xF0400, 0x20, 16, 16, .rw, .lit 100, false⟩
/-! SBS_POLL_DA_LO: 10_ports_and_lanes.md R327. -/
def SBS_POLL_DA_LO_DA : Fld := ⟨0xF0404, 0x20, 0, 32, .rw, .lit 0, false⟩
/-! SBS_POLL_DA_HI: 10_ports_and_lanes.md R327. -/
def SBS_POLL_DA_HI_DA : Fld := ⟨0xF0408, 0x20, 0, 16, .rw, .lit 0, false⟩
def SBS_POLL_DA_HI_MINW : Fld := ⟨0xF0408, 0x20, 16, 16, .rw, .lit 1, false⟩
/-! SBS_POLL_STAT: 10_ports_and_lanes.md R327. -/
def SBS_POLL_STAT_LOST : Fld := ⟨0xF040C, 0x20, 0, 1, .ro, .lit 0, false⟩
def SBS_POLL_STAT_SEQ : Fld := ⟨0xF040C, 0x20, 16, 16, .ro, .lit 0, false⟩
/-! SBS_POLL_BODY: 10_ports_and_lanes.md R327. -/
def SBS_POLL_BODY_BYTES : Fld := ⟨0xF0410, 0x4, 0, 32, .rw, .lit 0, false⟩
/-! HST_ZCP_CFG: 11_host_control_and_dma.md R355. -/
def HST_ZCP_CFG_IDLE_TO : Fld := ⟨0xE0400, 0x0, 0, 10, .rw, .lit 10, false⟩
def HST_ZCP_CFG_EVT_HOLDOFF : Fld := ⟨0xE0400, 0x0, 10, 10, .rw, .lit 1, false⟩
def HST_ZCP_CFG_EVT_RETRY : Fld := ⟨0xE0400, 0x0, 20, 12, .rw, .lit 200, false⟩
/-! HST_EVT_PEND: 11_host_control_and_dma.md R355. -/
def HST_EVT_PEND_PEND : Fld := ⟨0xE0404, 0x0, 0, 16, .ro, .lit 0, false⟩
/-! HST_ALERT_EN: 11_host_control_and_dma.md R355. -/
def HST_ALERT_EN_EN : Fld := ⟨0xE0408, 0x0, 0, 16, .rw, .lit 65535, false⟩
/-! HST_ZCP_STAT: 11_host_control_and_dma.md R355. -/
def HST_ZCP_STAT_OPEN : Fld := ⟨0xE040C, 0x0, 0, 3, .ro, .lit 0, false⟩
def HST_ZCP_STAT_ALERT : Fld := ⟨0xE040C, 0x0, 3, 1, .ro, .lit 0, false⟩
/-! HST_SESS_STAT: 11_host_control_and_dma.md R355. -/
def HST_SESS_STAT_STATE : Fld := ⟨0xE0440, 0x20, 0, 2, .ro, .lit 0, false⟩
def HST_SESS_STAT_ROLE : Fld := ⟨0xE0440, 0x20, 8, 8, .ro, .lit 0, false⟩
def HST_SESS_STAT_OUTSTANDING : Fld := ⟨0xE0440, 0x20, 16, 7, .ro, .lit 0, false⟩
def HST_SESS_STAT_CLOSE_CAUSE : Fld := ⟨0xE0440, 0x20, 24, 8, .ro, .lit 0, false⟩
/-! HST_SESS_CFG: 11_host_control_and_dma.md R355. -/
def HST_SESS_CFG_EVT_SUB : Fld := ⟨0xE0444, 0x20, 0, 1, .rw, .lit 1, false⟩
def HST_SESS_CFG_SP_SUB : Fld := ⟨0xE0444, 0x20, 1, 1, .rw, .lit 0, false⟩
def HST_SESS_CFG_EVT_MASK : Fld := ⟨0xE0444, 0x20, 16, 16, .rw, .lit 65535, false⟩
/-! HST_SESS_KEY: 11_host_control_and_dma.md R355. -/
def HST_SESS_KEY_KEYID : Fld := ⟨0xE0448, 0x20, 0, 32, .ro, .lit 0, false⟩
/-! DMA_CH_CFG: 11_host_control_and_dma.md R355. -/
def DMA_CH_CFG_EN : Fld := ⟨0x100000, 0x80, 0, 1, .rw, .lit 0, false⟩
def DMA_CH_CFG_TRIG : Fld := ⟨0x100000, 0x80, 1, 2, .rw, .lit 0, false⟩
def DMA_CH_CFG_PRIO : Fld := ⟨0x100000, 0x80, 3, 1, .rw, .lit 0, false⟩
def DMA_CH_CFG_EVT_EN : Fld := ⟨0x100000, 0x80, 4, 1, .rw, .lit 1, false⟩
def DMA_CH_CFG_OWNER : Fld := ⟨0x100000, 0x80, 5, 3, .ro, .lit 0, false⟩
def DMA_CH_CFG_REQ : Fld := ⟨0x100000, 0x80, 8, 3, .rw, .lit 0, false⟩
def DMA_CH_CFG_SIZE_LOG2 : Fld := ⟨0x100000, 0x80, 16, 5, .rw, .lit 2, false⟩
/-! DMA_CH_RING: 11_host_control_and_dma.md R355. -/
def DMA_CH_RING_RING4K : Fld := ⟨0x100004, 0x80, 0, 32, .rw, .lit 0, false⟩
/-! DMA_CH_TAIL: 11_host_control_and_dma.md R355. -/
def DMA_CH_TAIL_TAIL : Fld := ⟨0x100008, 0x80, 0, 16, .rw, .lit 0, false⟩
/-! DMA_CH_HEAD: 11_host_control_and_dma.md R355. -/
def DMA_CH_HEAD_HEAD : Fld := ⟨0x10000C, 0x80, 0, 16, .ro, .lit 0, false⟩
/-! DMA_CH_CTRL: 11_host_control_and_dma.md R355. -/
def DMA_CH_CTRL_STOP : Fld := ⟨0x100010, 0x80, 0, 1, .wo, .lit 0, false⟩
def DMA_CH_CTRL_START : Fld := ⟨0x100010, 0x80, 1, 1, .wo, .lit 0, false⟩
def DMA_CH_CTRL_RESET_RING : Fld := ⟨0x100010, 0x80, 2, 1, .wo, .lit 0, false⟩
/-! DMA_CH_STAT: 11_host_control_and_dma.md R355. -/
def DMA_CH_STAT_STATE : Fld := ⟨0x100014, 0x80, 0, 3, .ro, .lit 0, false⟩
def DMA_CH_STAT_PENDING : Fld := ⟨0x100014, 0x80, 3, 1, .ro, .lit 0, false⟩
def DMA_CH_STAT_DONE : Fld := ⟨0x100014, 0x80, 8, 1, .w1c, .lit 0, false⟩
def DMA_CH_STAT_ERROR : Fld := ⟨0x100014, 0x80, 9, 1, .w1c, .lit 0, false⟩
def DMA_CH_STAT_LAST_STATUS : Fld := ⟨0x100014, 0x80, 16, 8, .ro, .lit 0, false⟩
/-! DMA_CH_TIMER: 11_host_control_and_dma.md R355. -/
def DMA_CH_TIMER_PERIOD : Fld := ⟨0x100018, 0x80, 0, 24, .rw, .lit 1000, false⟩
/-! DMA_SWREQ: 11_host_control_and_dma.md R355. -/
def DMA_SWREQ_REQ : Fld := ⟨0x102000, 0x0, 0, 4, .rw, .lit 0, false⟩
/-! MCU_CTRL: 12_management_cores.md R375. -/
def MCU_CTRL_HALT : Fld := ⟨0x110000, 0x0, 0, 1, .rw, .lit 0, false⟩
def MCU_CTRL_EVT_EN : Fld := ⟨0x110000, 0x0, 1, 1, .rw, .lit 1, false⟩
def MCU_CTRL_PRE_TO : Fld := ⟨0x110000, 0x0, 16, 10, .rw, .lit 50, false⟩
/-! MCU_STAT: 12_management_cores.md R375. -/
def MCU_STAT_ACTIVE : Fld := ⟨0x110004, 0x0, 0, 5, .ro, .lit 16, false⟩
def MCU_STAT_SWAPPING : Fld := ⟨0x110004, 0x0, 5, 1, .ro, .lit 0, false⟩
def MCU_STAT_READY : Fld := ⟨0x110004, 0x0, 16, 10, .ro, .lit 0, false⟩
/-! MCU_TICK: 12_management_cores.md R375. -/
def MCU_TICK_TICK : Fld := ⟨0x110008, 0x0, 0, 10, .rw, .lit 100, false⟩
/-! MCU_TICK_NOW: 12_management_cores.md R375. -/
def MCU_TICK_NOW_NOW : Fld := ⟨0x11000C, 0x0, 0, 32, .ro, .lit 0, false⟩
/-! MCU_HOST_CMD: 12_management_cores.md R375. -/
def MCU_HOST_CMD_CMD : Fld := ⟨0x110010, 0x0, 0, 32, .wo, .lit 0, false⟩
/-! MCU_SWSRC: 12_management_cores.md R375. -/
def MCU_SWSRC_SET : Fld := ⟨0x110014, 0x0, 0, 8, .wo, .lit 0, false⟩
/-! MCU_SPARE_CMD: 12_management_cores.md R375. -/
def MCU_SPARE_CMD_CORE : Fld := ⟨0x110018, 0x0, 0, 4, .rw, .lit 0, false⟩
def MCU_SPARE_CMD_GO : Fld := ⟨0x110018, 0x0, 4, 1, .wo, .lit 0, false⟩
/-! MCU_SPARE_STAT: 12_management_cores.md R375. -/
def MCU_SPARE_STAT_STATE : Fld := ⟨0x11001C, 0x0, 0, 2, .ro, .lit 0, false⟩
def MCU_SPARE_STAT_PHYS : Fld := ⟨0x11001C, 0x0, 8, 5, .ro, .lit 16, false⟩
/-! MCU_TRACE_CFG: 12_management_cores.md R375. -/
def MCU_TRACE_CFG_EN : Fld := ⟨0x110020, 0x0, 0, 1, .rw, .lit 0, false⟩
def MCU_TRACE_CFG_SIZE_LOG2 : Fld := ⟨0x110020, 0x0, 2, 5, .rw, .lit 8, false⟩
def MCU_TRACE_CFG_KINDS : Fld := ⟨0x110020, 0x0, 16, 11, .rw, .lit 2047, false⟩
/-! MCU_TRACE_BASE: 12_management_cores.md R375. -/
def MCU_TRACE_BASE_BASE4K : Fld := ⟨0x110024, 0x0, 0, 32, .rw, .lit 0, false⟩
/-! MCU_TRACE_WR: 12_management_cores.md R375. -/
def MCU_TRACE_WR_INDEX : Fld := ⟨0x110028, 0x0, 0, 24, .ro, .lit 0, false⟩
/-! MCU_SRC_BIND: 12_management_cores.md R375. -/
def MCU_SRC_BIND_TASK : Fld := ⟨0x110100, 0x4, 0, 9, .rw, .lit 0, false⟩
def MCU_SRC_BIND_EN : Fld := ⟨0x110100, 0x4, 15, 1, .rw, .lit 0, false⟩
def MCU_SRC_BIND_PEND : Fld := ⟨0x110100, 0x4, 16, 1, .ro, .lit 0, false⟩
/-! MCU_WQ_BASE: 12_management_cores.md R375. -/
def MCU_WQ_BASE_BASE4K : Fld := ⟨0x110400, 0x10, 0, 32, .rw, .lit 0, false⟩
/-! MCU_WQ_HEAD: 12_management_cores.md R375. -/
def MCU_WQ_HEAD_INDEX : Fld := ⟨0x110404, 0x10, 0, 16, .rw, .lit 0, false⟩
/-! MCU_WQ_TAIL: 12_management_cores.md R375. -/
def MCU_WQ_TAIL_INDEX : Fld := ⟨0x110408, 0x10, 0, 16, .rw, .lit 0, false⟩
/-! MCU_WQ_CFG: 12_management_cores.md R375. -/
def MCU_WQ_CFG_EN : Fld := ⟨0x11040C, 0x10, 0, 1, .rw, .lit 0, false⟩
def MCU_WQ_CFG_SIZE_LOG2 : Fld := ⟨0x11040C, 0x10, 4, 4, .rw, .lit 4, false⟩
/-! MCU_CORE_CFG: 12_management_cores.md R375. -/
def MCU_CORE_CFG_RUN_MAX : Fld := ⟨0x110800, 0x20, 0, 16, .rw, .lit 10000, false⟩
def MCU_CORE_CFG_AFF_DEPTH : Fld := ⟨0x110800, 0x20, 16, 3, .rw, .lit 4, false⟩
/-! MCU_CORE_STAT: 12_management_cores.md R375. -/
def MCU_CORE_STAT_STATE : Fld := ⟨0x110804, 0x20, 0, 3, .ro, .lit 0, false⟩
def MCU_CORE_STAT_PHYS : Fld := ⟨0x110804, 0x20, 4, 5, .ro, .inst, false⟩
def MCU_CORE_STAT_TASK : Fld := ⟨0x110804, 0x20, 16, 9, .ro, .lit 0, false⟩
/-! MCU_CORE_FAULT: 12_management_cores.md R375. -/
def MCU_CORE_FAULT_STATUS : Fld := ⟨0x110808, 0x20, 0, 8, .ro, .lit 0, false⟩
def MCU_CORE_FAULT_STORE : Fld := ⟨0x110808, 0x20, 8, 1, .ro, .lit 0, false⟩
def MCU_CORE_FAULT_VALID : Fld := ⟨0x110808, 0x20, 9, 1, .w1c, .lit 0, false⟩
/-! MCU_CORE_FAULT_ADDR: 12_management_cores.md R375. -/
def MCU_CORE_FAULT_ADDR_ADDR : Fld := ⟨0x11080C, 0x20, 0, 32, .ro, .lit 0, false⟩
/-! MCU_CORE_DDRWIN0: 12_management_cores.md R375. -/
def MCU_CORE_DDRWIN0_GIB : Fld := ⟨0x110810, 0x20, 0, 9, .rw, .lit 0, false⟩
/-! MCU_CORE_DDRWIN1: 12_management_cores.md R375. -/
def MCU_CORE_DDRWIN1_GIB : Fld := ⟨0x110814, 0x20, 0, 9, .rw, .lit 0, false⟩
/-! MCU_TASK_CFG: 12_management_cores.md R375. -/
def MCU_TASK_CFG_PRIO : Fld := ⟨0x111000, 0x10, 0, 5, .rw, .lit 0, false⟩
def MCU_TASK_CFG_IMG : Fld := ⟨0x111000, 0x10, 5, 1, .rw, .lit 0, false⟩
def MCU_TASK_CFG_SERVICE : Fld := ⟨0x111000, 0x10, 6, 1, .rw, .lit 0, false⟩
def MCU_TASK_CFG_VALID : Fld := ⟨0x111000, 0x10, 7, 1, .rw, .lit 0, false⟩
def MCU_TASK_CFG_AFFINITY : Fld := ⟨0x111000, 0x10, 16, 16, .rw, .lit 65535, false⟩
/-! MCU_TASK_STAT: 12_management_cores.md R375. -/
def MCU_TASK_STAT_STATE : Fld := ⟨0x111004, 0x10, 0, 3, .ro, .lit 0, false⟩
def MCU_TASK_STAT_FAULT : Fld := ⟨0x111004, 0x10, 3, 1, .w1c, .lit 0, false⟩
def MCU_TASK_STAT_LAST : Fld := ⟨0x111004, 0x10, 4, 4, .ro, .lit 0, false⟩
def MCU_TASK_STAT_ACT_PEND : Fld := ⟨0x111004, 0x10, 8, 8, .ro, .lit 0, false⟩
/-! MCU_TASK_ENTRY: 12_management_cores.md R375. -/
def MCU_TASK_ENTRY_VALUE : Fld := ⟨0x111008, 0x10, 0, 32, .rw, .lit 0, false⟩
/-! MCU_TASK_ARG: 12_management_cores.md R375. -/
def MCU_TASK_ARG_VALUE : Fld := ⟨0x11100C, 0x10, 0, 32, .rw, .lit 0, false⟩
/-! MCU_SCHED_CMD: 12_management_cores.md R375. -/
def MCU_SCHED_CMD_OP : Fld := ⟨0x200000000, 0x40, 0, 4, .wo, .lit 0, false⟩
def MCU_SCHED_CMD_TASK : Fld := ⟨0x200000000, 0x40, 16, 9, .wo, .lit 0, false⟩
/-! MCU_SCHED_ARG: 12_management_cores.md R375. -/
def MCU_SCHED_ARG_ARG : Fld := ⟨0x200000004, 0x40, 0, 32, .rw, .lit 0, false⟩
/-! MCU_SCHED_NEXT: 12_management_cores.md R375. -/
def MCU_SCHED_NEXT_TASK : Fld := ⟨0x200000008, 0x40, 0, 9, .ro, .lit 0, false⟩
def MCU_SCHED_NEXT_WHY : Fld := ⟨0x200000008, 0x40, 12, 4, .ro, .lit 0, false⟩
/-! MCU_SCHED_SELF: 12_management_cores.md R375. -/
def MCU_SCHED_SELF_CORE : Fld := ⟨0x20000000C, 0x40, 0, 4, .ro, .inst, false⟩
def MCU_SCHED_SELF_TASK : Fld := ⟨0x20000000C, 0x40, 16, 9, .ro, .lit 0, false⟩
/-! MCU_SCHED_SRC_LO: 12_management_cores.md R375. -/
def MCU_SCHED_SRC_LO_SRC : Fld := ⟨0x200000010, 0x40, 0, 32, .rc, .lit 0, false⟩
/-! MCU_SCHED_SRC_HI: 12_management_cores.md R375. -/
def MCU_SCHED_SRC_HI_SRC : Fld := ⟨0x200000014, 0x40, 0, 32, .rc, .lit 0, false⟩
/-! MCU_MTIME_LO: 12_management_cores.md R375. -/
def MCU_MTIME_LO_US : Fld := ⟨0x200000018, 0x40, 0, 32, .ro, .lit 0, false⟩
/-! MCU_MTIME_HI: 12_management_cores.md R375. -/
def MCU_MTIME_HI_US : Fld := ⟨0x20000001C, 0x40, 0, 32, .ro, .lit 0, false⟩
/-! MCU_MTIMECMP_LO: 12_management_cores.md R375. -/
def MCU_MTIMECMP_LO_US : Fld := ⟨0x200000020, 0x40, 0, 32, .rw, .lit 4294967295, false⟩
/-! MCU_MTIMECMP_HI: 12_management_cores.md R375. -/
def MCU_MTIMECMP_HI_US : Fld := ⟨0x200000024, 0x40, 0, 32, .rw, .lit 4294967295, false⟩
/-! SEC_STAT: 13_security.md R406. -/
def SEC_STAT_DEBUG_LOCKED : Fld := ⟨0x120000, 0x0, 0, 1, .ro, .lit 0, false⟩
def SEC_STAT_ID_READY : Fld := ⟨0x120000, 0x0, 1, 1, .ro, .lit 0, false⟩
def SEC_STAT_ENT_OK : Fld := ⟨0x120000, 0x0, 2, 1, .ro, .lit 0, false⟩
def SEC_STAT_SCAN_EN : Fld := ⟨0x120000, 0x0, 3, 1, .ro, .lit 0, false⟩
def SEC_STAT_ROOT_VALID : Fld := ⟨0x120000, 0x0, 4, 4, .ro, .lit 0, false⟩
/-! SEC_EVT: 13_security.md R406. -/
def SEC_EVT_ALARM : Fld := ⟨0x120004, 0x0, 0, 1, .w1c, .lit 0, false⟩
def SEC_EVT_ENT_FAIL : Fld := ⟨0x120004, 0x0, 1, 1, .w1c, .lit 0, false⟩
def SEC_EVT_TAG_ALARM : Fld := ⟨0x120004, 0x0, 2, 1, .w1c, .lit 0, false⟩
def SEC_EVT_PN_NEAR : Fld := ⟨0x120004, 0x0, 3, 1, .w1c, .lit 0, false⟩
def SEC_EVT_DONE : Fld := ⟨0x120004, 0x0, 4, 1, .w1c, .lit 0, false⟩
def SEC_EVT_BOOT_HALT : Fld := ⟨0x120004, 0x0, 5, 1, .w1c, .lit 0, false⟩
/-! SEC_CFG: 13_security.md R406. -/
def SEC_CFG_EVT_EN : Fld := ⟨0x120008, 0x0, 0, 1, .rw, .lit 1, false⟩
def SEC_CFG_REPLAY_WIN : Fld := ⟨0x120008, 0x0, 16, 16, .rw, .lit 0, false⟩
/-! SEC_ALARM_STAT: 13_security.md R406. -/
def SEC_ALARM_STAT_ACTIVE : Fld := ⟨0x120010, 0x0, 0, 8, .ro, .lit 0, false⟩
def SEC_ALARM_STAT_RELEASE : Fld := ⟨0x120010, 0x0, 8, 8, .w1c, .lit 0, false⟩
def SEC_ALARM_STAT_MASKED : Fld := ⟨0x120010, 0x0, 16, 2, .ro, .lit 0, false⟩
def SEC_ALARM_STAT_FIRST : Fld := ⟨0x120010, 0x0, 18, 3, .ro, .lit 0, false⟩
def SEC_ALARM_STAT_ERASED : Fld := ⟨0x120010, 0x0, 31, 1, .ro, .lit 0, false⟩
/-! SEC_BOOT_STAT: 13_security.md R406. -/
def SEC_BOOT_STAT_STAGE : Fld := ⟨0x120020, 0x0, 0, 3, .ro, .lit 0, false⟩
def SEC_BOOT_STAT_BANK : Fld := ⟨0x120020, 0x0, 3, 1, .ro, .lit 0, false⟩
def SEC_BOOT_STAT_CAUSE : Fld := ⟨0x120020, 0x0, 4, 4, .ro, .lit 0, false⟩
def SEC_BOOT_STAT_ROM_REV : Fld := ⟨0x120020, 0x0, 16, 16, .ro, .lit 0, false⟩
/-! SEC_BOOT_CTRL: 13_security.md R406. -/
def SEC_BOOT_CTRL_RETRY : Fld := ⟨0x120024, 0x0, 0, 1, .wo, .lit 0, false⟩
/-! SEC_FW_CAND_LEN: 13_security.md R406. -/
def SEC_FW_CAND_LEN_LEN : Fld := ⟨0x120034, 0x0, 0, 32, .rw, .lit 0, false⟩
/-! SEC_FW_CAND_CTRL: 13_security.md R406. -/
def SEC_FW_CAND_CTRL_VERIFY : Fld := ⟨0x120038, 0x0, 0, 1, .wo, .lit 0, false⟩
def SEC_FW_CAND_CTRL_STATE : Fld := ⟨0x120038, 0x0, 4, 2, .ro, .lit 0, false⟩
def SEC_FW_CAND_CTRL_CAUSE : Fld := ⟨0x120038, 0x0, 8, 4, .ro, .lit 0, false⟩
/-! SEC_FUSE_CTRL: 13_security.md R406. -/
def SEC_FUSE_CTRL_GROUP : Fld := ⟨0x120040, 0x0, 0, 4, .rw, .lit 0, false⟩
def SEC_FUSE_CTRL_GO : Fld := ⟨0x120040, 0x0, 8, 1, .wo, .lit 0, false⟩
def SEC_FUSE_CTRL_BUSY : Fld := ⟨0x120040, 0x0, 9, 1, .ro, .lit 0, false⟩
def SEC_FUSE_CTRL_RESULT : Fld := ⟨0x120040, 0x0, 12, 3, .ro, .lit 0, false⟩
/-! SEC_FLASH_CTRL: 13_security.md R406. -/
def SEC_FLASH_CTRL_OP : Fld := ⟨0x120050, 0x0, 0, 2, .rw, .lit 0, false⟩
def SEC_FLASH_CTRL_GO : Fld := ⟨0x120050, 0x0, 8, 1, .wo, .lit 0, false⟩
def SEC_FLASH_CTRL_BUSY : Fld := ⟨0x120050, 0x0, 9, 1, .ro, .lit 0, false⟩
def SEC_FLASH_CTRL_RESULT : Fld := ⟨0x120050, 0x0, 12, 2, .ro, .lit 0, false⟩
/-! SEC_FLASH_ADDR: 13_security.md R406. -/
def SEC_FLASH_ADDR_ADDR : Fld := ⟨0x120054, 0x0, 0, 32, .rw, .lit 0, false⟩
/-! SEC_FLASH_DDR: 13_security.md R406. -/
def SEC_FLASH_DDR_ADDR4K : Fld := ⟨0x120058, 0x0, 0, 32, .rw, .lit 0, false⟩
/-! SEC_DEBUG: 13_security.md R406. -/
def SEC_DEBUG_EN : Fld := ⟨0x120060, 0x0, 0, 1, .rw, .lit 0, false⟩
/-! SEC_MK_CTRL: 13_security.md R406. -/
def SEC_MK_CTRL_OP : Fld := ⟨0x120070, 0x0, 0, 2, .rw, .lit 0, false⟩
def SEC_MK_CTRL_GO : Fld := ⟨0x120070, 0x0, 8, 1, .wo, .lit 0, false⟩
def SEC_MK_CTRL_BUSY : Fld := ⟨0x120070, 0x0, 9, 1, .ro, .lit 0, false⟩
def SEC_MK_CTRL_RESULT : Fld := ⟨0x120070, 0x0, 12, 3, .ro, .lit 0, false⟩
/-! SEC_MK_ADDR: 13_security.md R406. -/
def SEC_MK_ADDR_ADDR4K : Fld := ⟨0x120074, 0x0, 0, 32, .rw, .lit 0, false⟩
/-! SEC_MEAS_CNT: 13_security.md R406. -/
def SEC_MEAS_CNT_COUNT : Fld := ⟨0x120100, 0x0, 0, 16, .ro, .lit 0, false⟩
/-! SEC_KEY_CTRL: 13_security.md R406. -/
def SEC_KEY_CTRL_TARGET : Fld := ⟨0x120200, 0x0, 0, 3, .rw, .lit 0, false⟩
def SEC_KEY_CTRL_GO : Fld := ⟨0x120200, 0x0, 8, 1, .wo, .lit 0, false⟩
def SEC_KEY_CTRL_RESULT : Fld := ⟨0x120200, 0x0, 12, 3, .ro, .lit 0, false⟩
/-! SEC_KEY_SEL: 13_security.md R406. -/
def SEC_KEY_SEL_INDEX : Fld := ⟨0x120204, 0x0, 0, 8, .rw, .lit 0, false⟩
def SEC_KEY_SEL_PORT : Fld := ⟨0x120204, 0x0, 8, 7, .rw, .lit 0, false⟩
def SEC_KEY_SEL_AN : Fld := ⟨0x120204, 0x0, 16, 2, .rw, .lit 0, false⟩
def SEC_KEY_SEL_SC : Fld := ⟨0x120204, 0x0, 18, 2, .rw, .lit 0, false⟩
def SEC_KEY_SEL_ETARGET : Fld := ⟨0x120204, 0x0, 20, 3, .rw, .lit 0, false⟩
/-! SEC_VLT_CTRL: 13_security.md R406. -/
def SEC_VLT_CTRL_OP : Fld := ⟨0x120280, 0x0, 0, 2, .rw, .lit 0, false⟩
def SEC_VLT_CTRL_SLOT : Fld := ⟨0x120280, 0x0, 4, 3, .rw, .lit 0, false⟩
def SEC_VLT_CTRL_GO : Fld := ⟨0x120280, 0x0, 8, 1, .wo, .lit 0, false⟩
def SEC_VLT_CTRL_BUSY : Fld := ⟨0x120280, 0x0, 9, 1, .ro, .lit 0, false⟩
def SEC_VLT_CTRL_RESULT : Fld := ⟨0x120280, 0x0, 12, 2, .ro, .lit 0, false⟩
/-! SEC_BOOT_ADDR: 13_security.md R406. -/
def SEC_BOOT_ADDR_ADDR4K : Fld := ⟨0x120028, 0x0, 0, 32, .rw, .lit 0, false⟩
/-! SEC_FW_CAND_ADDR: 13_security.md R406. -/
def SEC_FW_CAND_ADDR_ADDR4K : Fld := ⟨0x120030, 0x0, 0, 32, .rw, .lit 0, false⟩
/-! SEC_FUSE_DATA: 13_security.md R406. -/
def SEC_FUSE_DATA_DATA : Fld := ⟨0x120080, 0x4, 0, 32, .wo, .lit 0, false⟩
/-! SEC_MEAS: 13_security.md R406. -/
def SEC_MEAS_M : Fld := ⟨0x1200C0, 0x4, 0, 32, .ro, .lit 0, false⟩
/-! SEC_KEY_DATA: 13_security.md R406. -/
def SEC_KEY_DATA_KEY : Fld := ⟨0x120210, 0x4, 0, 32, .wo, .lit 0, false⟩
/-! SEC_KEY_AUX: 13_security.md R406. -/
def SEC_KEY_AUX_AUX : Fld := ⟨0x120230, 0x4, 0, 32, .wo, .lit 0, false⟩
/-! SEC_VLT_IN: 13_security.md R406. -/
def SEC_VLT_IN_BLOCK : Fld := ⟨0x120290, 0x4, 0, 32, .rw, .lit 0, false⟩
/-! SEC_VLT_OUT: 13_security.md R406. -/
def SEC_VLT_OUT_BLOCK : Fld := ⟨0x1202A0, 0x4, 0, 32, .ro, .lit 0, false⟩
/-! SEC_FUSE_READ: 13_security.md R406. -/
def SEC_FUSE_READ_BITS : Fld := ⟨0x120400, 0x4, 0, 32, .ro, .lit 0, false⟩
/-! SEC_KIDX_STAT: 13_security.md R406. -/
def SEC_KIDX_STAT_DOWN : Fld := ⟨0x120800, 0x4, 0, 1, .ro, .lit 0, false⟩
def SEC_KIDX_STAT_UP : Fld := ⟨0x120800, 0x4, 1, 1, .ro, .lit 0, false⟩
def SEC_KIDX_STAT_DISABLED : Fld := ⟨0x120800, 0x4, 2, 1, .ro, .lit 0, false⟩
def SEC_KIDX_STAT_TAG_ALARM : Fld := ⟨0x120800, 0x4, 3, 1, .w1c, .lit 0, false⟩
/-! SEC_ID_PUB: 13_security.md R406. -/
def SEC_ID_PUB_KEY : Fld := ⟨0x121000, 0x4, 0, 32, .ro, .lit 0, false⟩
/-! SEC_MS_STAT: 13_security.md R406. -/
def SEC_MS_STAT_TX_AN : Fld := ⟨0x121C00, 0x4, 0, 2, .ro, .lit 0, false⟩
def SEC_MS_STAT_TX_SA : Fld := ⟨0x121C00, 0x4, 2, 1, .ro, .lit 0, false⟩
def SEC_MS_STAT_PN_NEAR : Fld := ⟨0x121C00, 0x4, 3, 1, .w1c, .lit 0, false⟩
def SEC_MS_STAT_PN_EXH : Fld := ⟨0x121C00, 0x4, 4, 1, .ro, .lit 0, false⟩
def SEC_MS_STAT_RX_SA : Fld := ⟨0x121C00, 0x4, 8, 16, .ro, .lit 0, false⟩
/-! PWR_STAT: 14_power_and_health.md R436. -/
def PWR_STAT_FAILED : Fld := ⟨0x130000, 0x0, 0, 17, .ro, .lit 0, false⟩
def PWR_STAT_COMPLETE : Fld := ⟨0x130000, 0x0, 17, 1, .ro, .lit 0, false⟩
/-! PWR_EVT: 14_power_and_health.md R436. -/
def PWR_EVT_DOM_CHG : Fld := ⟨0x130004, 0x0, 0, 1, .w1c, .lit 0, false⟩
def PWR_EVT_REFUSED : Fld := ⟨0x130004, 0x0, 1, 1, .w1c, .lit 0, false⟩
def PWR_EVT_FAIL : Fld := ⟨0x130004, 0x0, 2, 1, .w1c, .lit 0, false⟩
def PWR_EVT_THROTTLE : Fld := ⟨0x130004, 0x0, 3, 1, .w1c, .lit 0, false⟩
def PWR_EVT_CP_RANGE : Fld := ⟨0x130004, 0x0, 4, 1, .w1c, .lit 0, false⟩
def PWR_EVT_WAKE_STUCK : Fld := ⟨0x130004, 0x0, 5, 1, .w1c, .lit 0, false⟩
/-! PWR_CFG: 14_power_and_health.md R436. -/
def PWR_CFG_EVT_EN : Fld := ⟨0x130008, 0x0, 0, 1, .rw, .lit 1, false⟩
/-! PWR_WAKE_SET: 14_power_and_health.md R436. -/
def PWR_WAKE_SET_MASK : Fld := ⟨0x13000C, 0x0, 0, 17, .wo, .lit 0, false⟩
/-! PWR_WAKE_CFG: 14_power_and_health.md R436. -/
def PWR_WAKE_CFG_EN : Fld := ⟨0x130010, 0x4, 0, 1, .rws, .lit 0, false⟩
def PWR_WAKE_CFG_POL : Fld := ⟨0x130010, 0x4, 1, 1, .rws, .lit 0, false⟩
def PWR_WAKE_CFG_RESTART : Fld := ⟨0x130010, 0x4, 2, 1, .rws, .lit 0, false⟩
def PWR_WAKE_CFG_STUCK : Fld := ⟨0x130010, 0x4, 3, 5, .rws, .lit 10, false⟩
def PWR_WAKE_CFG_MINW : Fld := ⟨0x130010, 0x4, 8, 7, .rws, .lit 1, false⟩
def PWR_WAKE_CFG_DOMAINS : Fld := ⟨0x130010, 0x4, 15, 17, .rws, .lit 0, false⟩
/-! PWR_WAKE_STAT: 14_power_and_health.md R436. -/
def PWR_WAKE_STAT_LEVEL : Fld := ⟨0x130020, 0x0, 0, 4, .ro, .lit 0, false⟩
def PWR_WAKE_STAT_MASKED : Fld := ⟨0x130020, 0x0, 4, 4, .ro, .lit 0, false⟩
/-! PWR_RGN_OP: 14_power_and_health.md R436. -/
def PWR_RGN_OP_TARGET : Fld := ⟨0x130040, 0x10, 0, 3, .rw, .lit 5, false⟩
def PWR_RGN_OP_CUR : Fld := ⟨0x130040, 0x10, 4, 3, .ro, .lit 5, false⟩
def PWR_RGN_OP_BUSY : Fld := ⟨0x130040, 0x10, 7, 1, .ro, .lit 0, false⟩
def PWR_RGN_OP_PEND : Fld := ⟨0x130040, 0x10, 8, 3, .ro, .lit 0, false⟩
def PWR_RGN_OP_PEND_V : Fld := ⟨0x130040, 0x10, 11, 1, .ro, .lit 0, false⟩
/-! PWR_RGN_STAT: 14_power_and_health.md R436. -/
def PWR_RGN_STAT_VOLT_MV : Fld := ⟨0x130044, 0x10, 0, 16, .ro, .lit 850, false⟩
def PWR_RGN_STAT_CAP : Fld := ⟨0x130044, 0x10, 16, 16, .ro, .lit 2400, false⟩
/-! PWR_RGN_MAN: 14_power_and_health.md R436. -/
def PWR_RGN_MAN_VOLT_MV : Fld := ⟨0x130048, 0x10, 0, 16, .rw, .lit 0, false⟩
def PWR_RGN_MAN_CAP : Fld := ⟨0x130048, 0x10, 16, 16, .rw, .lit 0, false⟩
/-! PWR_TEMP: 14_power_and_health.md R436. -/
def PWR_TEMP_T : Fld := ⟨0x130080, 0x4, 0, 16, .ro, .lit 32768, false⟩
/-! PWR_DOM_REQ: 14_power_and_health.md R436. -/
def PWR_DOM_REQ_TARGET : Fld := ⟨0x130100, 0x20, 0, 2, .wo, .lit 0, false⟩
/-! PWR_DOM_STAT: 14_power_and_health.md R436. -/
def PWR_DOM_STAT_PSTATE : Fld := ⟨0x130104, 0x20, 0, 3, .ro, .cyc [2, 2, 2, 2, 2, 2, 0, 0, 0, 0, 0, 0, 0, 0, 0, 0, 0], false⟩
def PWR_DOM_STAT_BUSY : Fld := ⟨0x130104, 0x20, 3, 1, .ro, .lit 0, false⟩
def PWR_DOM_STAT_IN_FLIGHT : Fld := ⟨0x130104, 0x20, 4, 2, .ro, .lit 0, false⟩
def PWR_DOM_STAT_PEND_V : Fld := ⟨0x130104, 0x20, 6, 1, .ro, .lit 0, false⟩
def PWR_DOM_STAT_PEND : Fld := ⟨0x130104, 0x20, 7, 2, .ro, .lit 0, false⟩
def PWR_DOM_STAT_ATTEMPT : Fld := ⟨0x130104, 0x20, 9, 2, .ro, .lit 0, false⟩
def PWR_DOM_STAT_RESTORED : Fld := ⟨0x130104, 0x20, 11, 1, .w1c, .lit 0, false⟩
/-! PWR_DOM_REFUSE: 14_power_and_health.md R436. -/
def PWR_DOM_REFUSE_REFUSER : Fld := ⟨0x130108, 0x20, 0, 4, .ro, .lit 0, false⟩
def PWR_DOM_REFUSE_REF_UNIT : Fld := ⟨0x130108, 0x20, 16, 16, .ro, .lit 0, false⟩
/-! PWR_DOM_CTRL: 14_power_and_health.md R436. -/
def PWR_DOM_CTRL_CLEAR : Fld := ⟨0x13010C, 0x20, 0, 1, .wo, .lit 0, false⟩
/-! PWR_ISL_HOLD: 14_power_and_health.md R436. -/
def PWR_ISL_HOLD_HOLD_P : Fld := ⟨0x130400, 0x4, 0, 1, .rw, .lit 0, false⟩
def PWR_ISL_HOLD_HOLD_S : Fld := ⟨0x130400, 0x4, 1, 1, .rw, .lit 0, false⟩
def PWR_ISL_HOLD_P_STATE : Fld := ⟨0x130400, 0x4, 2, 2, .ro, .lit 0, false⟩
def PWR_ISL_HOLD_S_STATE : Fld := ⟨0x130400, 0x4, 4, 2, .ro, .lit 0, false⟩
/-! HLT_ST_CFG: 14_power_and_health.md R437. -/
def HLT_ST_CFG_PATTERNS_LOG2 : Fld := ⟨0x14C200, 0x0, 0, 5, .rws, .lit 16, false⟩
def HLT_ST_CFG_FULL_ON_MISS : Fld := ⟨0x14C200, 0x0, 5, 1, .rws, .lit 0, false⟩
def HLT_ST_CFG_EVT_EN : Fld := ⟨0x14C200, 0x0, 6, 1, .rws, .lit 1, false⟩
/-! HLT_ST_STAT: 14_power_and_health.md R437. -/
def HLT_ST_STAT_OUTCOME : Fld := ⟨0x14C204, 0x0, 0, 3, .ro, .lit 0, false⟩
def HLT_ST_STAT_UNTESTED : Fld := ⟨0x14C204, 0x0, 3, 1, .ro, .lit 0, false⟩
def HLT_ST_STAT_ARCHIVED : Fld := ⟨0x14C204, 0x0, 4, 1, .ro, .lit 0, false⟩
def HLT_ST_STAT_FAILS : Fld := ⟨0x14C204, 0x0, 16, 9, .ro, .lit 0, false⟩
/-! HLT_EVT: 14_power_and_health.md R437. -/
def HLT_EVT_WEAR_WARN : Fld := ⟨0x14C208, 0x0, 0, 1, .w1c, .lit 0, false⟩
def HLT_EVT_WEAR_DUE : Fld := ⟨0x14C208, 0x0, 1, 1, .w1c, .lit 0, false⟩
def HLT_EVT_SWAP_DONE : Fld := ⟨0x14C208, 0x0, 2, 1, .w1c, .lit 0, false⟩
def HLT_EVT_SWAP_FAIL : Fld := ⟨0x14C208, 0x0, 3, 1, .w1c, .lit 0, false⟩
def HLT_EVT_ST_DONE : Fld := ⟨0x14C208, 0x0, 4, 1, .w1c, .lit 0, false⟩
/-! HLT_ST_FAIL: 14_power_and_health.md R437. -/
def HLT_ST_FAIL_MAP : Fld := ⟨0x14C210, 0x4, 0, 32, .ro, .lit 0, false⟩
/-! HLT_SWAP_CMD: 14_power_and_health.md R437. -/
def HLT_SWAP_CMD_UNIT : Fld := ⟨0x14C300, 0x0, 0, 10, .rw, .lit 0, false⟩
def HLT_SWAP_CMD_GO : Fld := ⟨0x14C300, 0x0, 16, 1, .wo, .lit 0, false⟩
/-! HLT_SWAP_STAT: 14_power_and_health.md R437. -/
def HLT_SWAP_STAT_STATE : Fld := ⟨0x14C304, 0x0, 0, 2, .ro, .lit 0, false⟩
def HLT_SWAP_STAT_RESTARTS : Fld := ⟨0x14C304, 0x0, 2, 2, .ro, .lit 0, false⟩
def HLT_SWAP_STAT_CAUSE : Fld := ⟨0x14C304, 0x0, 4, 3, .ro, .lit 0, false⟩
def HLT_SWAP_STAT_OCTAVES : Fld := ⟨0x14C304, 0x0, 7, 9, .ro, .lit 0, false⟩
def HLT_SWAP_STAT_SPARE : Fld := ⟨0x14C304, 0x0, 16, 10, .ro, .lit 0, false⟩
/-! HLT_WEAR_VAL: 14_power_and_health.md R437. -/
def HLT_WEAR_VAL_VALUE : Fld := ⟨0x14D000, 0x10, 0, 32, .ro, .lit 0, false⟩
/-! HLT_WEAR_AUX: 14_power_and_health.md R437. -/
def HLT_WEAR_AUX_VALUE : Fld := ⟨0x14D004, 0x10, 0, 32, .ro, .lit 0, false⟩
/-! HLT_WEAR_STAT: 14_power_and_health.md R437. -/
def HLT_WEAR_STAT_LEVEL : Fld := ⟨0x14D008, 0x10, 0, 2, .ro, .lit 0, false⟩
/-! CHIP_ID: 16_register_map.md R469. -/
def CHIP_ID_PART : Fld := ⟨0x0, 0x0, 0, 16, .ro, .lit 20776, false⟩
def CHIP_ID_GRADE : Fld := ⟨0x0, 0x0, 16, 1, .ro, .lit 0, false⟩
def CHIP_ID_REV : Fld := ⟨0x0, 0x0, 24, 8, .ro, .lit 16, false⟩
/-! CHIP_SERIAL: 16_register_map.md R469. -/
def CHIP_SERIAL_BYTES : Fld := ⟨0x4, 0x4, 0, 32, .ro, .lit 0, false⟩
/-! CHIP_MAC_LO: 16_register_map.md R469. -/
def CHIP_MAC_LO_MAC : Fld := ⟨0x10, 0x0, 0, 32, .ro, .lit 0, false⟩
/-! CHIP_MAC_HI: 16_register_map.md R469. -/
def CHIP_MAC_HI_MAC : Fld := ⟨0x14, 0x0, 0, 16, .ro, .lit 0, false⟩
/-! CHIP_CLKID_LO: 16_register_map.md R469. -/
def CHIP_CLKID_LO_ID : Fld := ⟨0x18, 0x0, 0, 32, .ro, .lit 0, false⟩
/-! CHIP_CLKID_HI: 16_register_map.md R469. -/
def CHIP_CLKID_HI_ID : Fld := ⟨0x1C, 0x0, 0, 32, .ro, .lit 0, false⟩
/-! CHIP_STAT: 16_register_map.md R469. -/
def CHIP_STAT_MODE : Fld := ⟨0x20, 0x0, 0, 4, .ro, .lit 0, false⟩
def CHIP_STAT_ALM : Fld := ⟨0x20, 0x0, 4, 1, .ro, .lit 0, false⟩
def CHIP_STAT_FATAL : Fld := ⟨0x20, 0x0, 5, 1, .ro, .lit 0, false⟩
def CHIP_STAT_HOST_WAIT : Fld := ⟨0x20, 0x0, 6, 1, .ro, .lit 0, false⟩
def CHIP_STAT_QUAR : Fld := ⟨0x20, 0x0, 7, 1, .ro, .lit 0, false⟩
def CHIP_STAT_REGION_OK : Fld := ⟨0x20, 0x0, 8, 4, .ro, .lit 0, false⟩
def CHIP_STAT_BLOCKS_LOST : Fld := ⟨0x20, 0x0, 16, 6, .ro, .lit 0, false⟩
def CHIP_STAT_ENG_LOST : Fld := ⟨0x20, 0x0, 22, 5, .ro, .lit 0, false⟩
/-! CHIP_EVT: 16_register_map.md R469. -/
def CHIP_EVT_REGION_CHG : Fld := ⟨0x24, 0x0, 0, 1, .w1c, .lit 0, false⟩
def CHIP_EVT_BLOCK_CHG : Fld := ⟨0x24, 0x0, 1, 1, .w1c, .lit 0, false⟩
/-! CHIP_CFG: 16_register_map.md R469. -/
def CHIP_CFG_EVT_EN : Fld := ⟨0x28, 0x0, 0, 1, .rw, .lit 1, false⟩
/-! CHIP_RESET: 16_register_map.md R469. -/
def CHIP_RESET_CAUSE : Fld := ⟨0x2C, 0x0, 0, 3, .ro, .lit 1, true⟩
def CHIP_RESET_WARM_CNT : Fld := ⟨0x2C, 0x0, 8, 8, .ro, .lit 0, true⟩
/-! CHIP_BLOCK_OK: 16_register_map.md R469. -/
def CHIP_BLOCK_OK_OK : Fld := ⟨0x30, 0x0, 0, 32, .ro, .lit 0, false⟩
/-! CHIP_REGION_STAT: 16_register_map.md R469. -/
def CHIP_REGION_STAT_STATE : Fld := ⟨0x40, 0x4, 0, 2, .ro, .lit 0, false⟩
def CHIP_REGION_STAT_BLOCKS : Fld := ⟨0x40, 0x4, 8, 8, .ro, .lit 0, false⟩
def CHIP_REGION_STAT_ENGINES : Fld := ⟨0x40, 0x4, 16, 4, .ro, .lit 0, false⟩
def CHIP_REGION_STAT_SPARE_ENG : Fld := ⟨0x40, 0x4, 20, 1, .ro, .lit 0, false⟩
/-! CHIP_SCRATCH: 16_register_map.md R469. -/
def CHIP_SCRATCH_VALUE : Fld := ⟨0x50, 0x0, 0, 32, .rws, .lit 0, false⟩
/-! MEM_DDR_STAT: 16_register_map.md R470. -/
def MEM_DDR_STAT_TRAINED : Fld := ⟨0x150000, 0x0, 0, 1, .ro, .lit 0, false⟩
def MEM_DDR_STAT_DIMMS : Fld := ⟨0x150000, 0x0, 1, 2, .ro, .lit 0, false⟩
def MEM_DDR_STAT_RANKS : Fld := ⟨0x150000, 0x0, 3, 3, .ro, .lit 0, false⟩
def MEM_DDR_STAT_RATE : Fld := ⟨0x150000, 0x0, 8, 8, .ro, .lit 0, false⟩
def MEM_DDR_STAT_CAP : Fld := ⟨0x150000, 0x0, 16, 16, .ro, .lit 0, false⟩
/-! MEM_DDR_CFG: 16_register_map.md R470. -/
def MEM_DDR_CFG_SCRUB_H : Fld := ⟨0x150004, 0x0, 0, 8, .rws, .lit 24, false⟩
def MEM_DDR_CFG_SPARE_RANK : Fld := ⟨0x150004, 0x0, 8, 1, .rws, .lit 0, false⟩
def MEM_DDR_CFG_EVT_EN : Fld := ⟨0x150004, 0x0, 9, 1, .rws, .lit 1, false⟩
/-! MEM_HBM_STAT: 16_register_map.md R470. -/
def MEM_HBM_STAT_TRAINED : Fld := ⟨0x150008, 0x0, 0, 2, .ro, .lit 0, false⟩
def MEM_HBM_STAT_REMAPPED : Fld := ⟨0x150008, 0x0, 8, 4, .ro, .lit 0, false⟩
/-! MEM_EVT: 16_register_map.md R470. -/
def MEM_EVT_DDR_UNCORR : Fld := ⟨0x15000C, 0x0, 0, 1, .w1c, .lit 0, false⟩
def MEM_EVT_HBM_UNCORR : Fld := ⟨0x15000C, 0x0, 1, 1, .w1c, .lit 0, false⟩
/-! MEM_ERR_LO: 16_register_map.md R470. -/
def MEM_ERR_LO_ADDR : Fld := ⟨0x150010, 0x0, 0, 32, .ro, .lit 0, false⟩
/-! MEM_ERR_HI: 16_register_map.md R470. -/
def MEM_ERR_HI_ADDR : Fld := ⟨0x150014, 0x0, 0, 16, .ro, .lit 0, false⟩

end R

namespace C

def TRK_DS_FEC_CORR_BITS : Ctr := ⟨0x20100, 0x1000⟩
def TRK_DS_FEC_UNCORR : Ctr := ⟨0x20108, 0x1000⟩
def TRK_DS_HDR_GOOD : Ctr := ⟨0x20110, 0x1000⟩
def TRK_DS_HDR_ERR : Ctr := ⟨0x20118, 0x1000⟩
def TRK_DS_REV_ERR : Ctr := ⟨0x20120, 0x1000⟩
def TRK_DS_WL_ERR : Ctr := ⟨0x20128, 0x1000⟩
def TRK_DS_SFC_JUMP : Ctr := ⟨0x20130, 0x1000⟩
def TRK_DS_GRANT_HEC : Ctr := ⟨0x20138, 0x1000⟩
def TRK_DS_MSG_CRC : Ctr := ⟨0x20140, 0x1000⟩
def TRK_DS_MSG_ACCEPT : Ctr := ⟨0x20148, 0x1000⟩
def TRK_DS_MSG_OVR : Ctr := ⟨0x20150, 0x1000⟩
def TRK_DS_CU_CORR : Ctr := ⟨0x20158, 0x1000⟩
def TRK_DS_DELIN_LOST : Ctr := ⟨0x20160, 0x1000⟩
def TRK_DS_CU_FOREIGN : Ctr := ⟨0x20168, 0x1000⟩
def TRK_DS_CU_INTERCALARY : Ctr := ⟨0x20170, 0x1000⟩
def TRK_DS_FRAMES_OUT : Ctr := ⟨0x20178, 0x1000⟩
def TRK_DS_FRAG_ERR : Ctr := ⟨0x20180, 0x1000⟩
def TRK_DS_TAG_FAIL : Ctr := ⟨0x20188, 0x1000⟩
def TRK_DS_KEY_ERR : Ctr := ⟨0x20190, 0x1000⟩
def TRK_DS_STOMPED : Ctr := ⟨0x20198, 0x1000⟩
def TRK_DS_OVERSIZE : Ctr := ⟨0x201A0, 0x1000⟩
def TRK_DS_CAND_DROP : Ctr := ⟨0x201A8, 0x1000⟩
def TRK_DS_BYTES_OUT : Ctr := ⟨0x201B0, 0x1000⟩
def TRK_US_GRANT_OWN : Ctr := ⟨0x20500, 0x1000⟩
def TRK_US_GRANT_BAD : Ctr := ⟨0x20508, 0x1000⟩
def TRK_US_GRANT_OVR : Ctr := ⟨0x20510, 0x1000⟩
def TRK_US_BURSTS : Ctr := ⟨0x20518, 0x1000⟩
def TRK_US_EVE_FULL : Ctr := ⟨0x20520, 0x1000⟩
def TRK_US_EVE_SHORT : Ctr := ⟨0x20528, 0x1000⟩
def TRK_US_EVE_REFUSED : Ctr := ⟨0x20530, 0x1000⟩
def TRK_US_REPORTS : Ctr := ⟨0x20538, 0x1000⟩
def TRK_US_UNIT_BYTES : Ctr := ⟨0x20540, 0x1000⟩
def TRK_US_FILL_BYTES : Ctr := ⟨0x20548, 0x1000⟩
def TRK_US_FRAGMENTS : Ctr := ⟨0x20550, 0x1000⟩
def TRK_US_STOMPED : Ctr := ⟨0x20558, 0x1000⟩
def TRK_US_GUARD_TRIP : Ctr := ⟨0x20560, 0x1000⟩
def TRK_US_SPACING_DROP : Ctr := ⟨0x20568, 0x1000⟩
def TRK_US_MSG_AUTH_FAIL : Ctr := ⟨0x20570, 0x1000⟩
def TRK_US_MSG_UNSUPP : Ctr := ⟨0x20578, 0x1000⟩
def TRK_US_ACK_OVR : Ctr := ⟨0x20580, 0x1000⟩
def PKT_STAGE_HIT_0 : Ctr := ⟨0x40400, 0x0⟩
def PKT_STAGE_HIT_1 : Ctr := ⟨0x40408, 0x0⟩
def PKT_STAGE_HIT_2 : Ctr := ⟨0x40410, 0x0⟩
def PKT_STAGE_HIT_3 : Ctr := ⟨0x40418, 0x0⟩
def PKT_STAGE_HIT_4 : Ctr := ⟨0x40420, 0x0⟩
def PKT_STAGE_HIT_5 : Ctr := ⟨0x40428, 0x0⟩
def PKT_STAGE_HIT_6 : Ctr := ⟨0x40430, 0x0⟩
def PKT_STAGE_HIT_7 : Ctr := ⟨0x40438, 0x0⟩
def PKT_STAGE_HIT_8 : Ctr := ⟨0x40440, 0x0⟩
def PKT_STAGE_HIT_9 : Ctr := ⟨0x40448, 0x0⟩
def PKT_STAGE_HIT_10 : Ctr := ⟨0x40450, 0x0⟩
def PKT_STAGE_HIT_11 : Ctr := ⟨0x40458, 0x0⟩
def PKT_STAGE_MISS_0 : Ctr := ⟨0x40460, 0x0⟩
def PKT_STAGE_MISS_1 : Ctr := ⟨0x40468, 0x0⟩
def PKT_STAGE_MISS_2 : Ctr := ⟨0x40470, 0x0⟩
def PKT_STAGE_MISS_3 : Ctr := ⟨0x40478, 0x0⟩
def PKT_STAGE_MISS_4 : Ctr := ⟨0x40480, 0x0⟩
def PKT_STAGE_MISS_5 : Ctr := ⟨0x40488, 0x0⟩
def PKT_STAGE_MISS_6 : Ctr := ⟨0x40490, 0x0⟩
def PKT_STAGE_MISS_7 : Ctr := ⟨0x40498, 0x0⟩
def PKT_STAGE_MISS_8 : Ctr := ⟨0x404A0, 0x0⟩
def PKT_STAGE_MISS_9 : Ctr := ⟨0x404A8, 0x0⟩
def PKT_STAGE_MISS_10 : Ctr := ⟨0x404B0, 0x0⟩
def PKT_STAGE_MISS_11 : Ctr := ⟨0x404B8, 0x0⟩
def PKT_SP_SENT_0 : Ctr := ⟨0x404C0, 0x0⟩
def PKT_SP_SENT_1 : Ctr := ⟨0x404C8, 0x0⟩
def PKT_SP_SENT_2 : Ctr := ⟨0x404D0, 0x0⟩
def PKT_SP_SENT_3 : Ctr := ⟨0x404D8, 0x0⟩
def PKT_SP_SENT_4 : Ctr := ⟨0x404E0, 0x0⟩
def PKT_SP_SENT_5 : Ctr := ⟨0x404E8, 0x0⟩
def PKT_SP_SENT_6 : Ctr := ⟨0x404F0, 0x0⟩
def PKT_SP_SENT_7 : Ctr := ⟨0x404F8, 0x0⟩
def PKT_SP_DROP_0 : Ctr := ⟨0x40500, 0x0⟩
def PKT_SP_DROP_1 : Ctr := ⟨0x40508, 0x0⟩
def PKT_SP_DROP_2 : Ctr := ⟨0x40510, 0x0⟩
def PKT_SP_DROP_3 : Ctr := ⟨0x40518, 0x0⟩
def PKT_SP_DROP_4 : Ctr := ⟨0x40520, 0x0⟩
def PKT_SP_DROP_5 : Ctr := ⟨0x40528, 0x0⟩
def PKT_SP_DROP_6 : Ctr := ⟨0x40530, 0x0⟩
def PKT_SP_DROP_7 : Ctr := ⟨0x40538, 0x0⟩
def PKT_FLOW_FETCH : Ctr := ⟨0x40540, 0x0⟩
def PKT_FLOW_CACHE_EVICT : Ctr := ⟨0x40548, 0x0⟩
def PKT_SP_QFULL : Ctr := ⟨0x40550, 0x0⟩
def PKT_EXCL_DROP : Ctr := ⟨0x40558, 0x0⟩
def PKT_BLK_PASS_FIRST : Ctr := ⟨0x41000, 0x100⟩
def PKT_BLK_PASS_RECIRC : Ctr := ⟨0x41008, 0x100⟩
def PKT_BLK_PASS_RETURN : Ctr := ⟨0x41010, 0x100⟩
def PKT_BLK_EXC_0 : Ctr := ⟨0x41018, 0x100⟩
def PKT_BLK_EXC_1 : Ctr := ⟨0x41020, 0x100⟩
def PKT_BLK_EXC_2 : Ctr := ⟨0x41028, 0x100⟩
def PKT_BLK_EXC_3 : Ctr := ⟨0x41030, 0x100⟩
def PKT_BLK_EXC_4 : Ctr := ⟨0x41038, 0x100⟩
def PKT_BLK_EXC_5 : Ctr := ⟨0x41040, 0x100⟩
def PKT_BLK_DROP_ACTION : Ctr := ⟨0x41048, 0x100⟩
def PKT_BLK_NO_DEST : Ctr := ⟨0x41050, 0x100⟩
def PKT_BLK_RUNT_LOCAL : Ctr := ⟨0x41058, 0x100⟩
def PKT_BLK_RUNT_TRUNK : Ctr := ⟨0x41060, 0x100⟩
def PKT_BLK_OVER_DROP : Ctr := ⟨0x41068, 0x100⟩
def PKT_BLK_EDIT_SKIP : Ctr := ⟨0x41070, 0x100⟩
def PKT_BLK_GEN_EXPIRED : Ctr := ⟨0x41078, 0x100⟩
def SCH_Q_ENQ_FRAMES : Ctr := ⟨0x58100000, 0x40⟩
def SCH_Q_ENQ_BYTES : Ctr := ⟨0x58100008, 0x40⟩
def SCH_Q_DEQ_FRAMES : Ctr := ⟨0x58100010, 0x40⟩
def SCH_Q_DROP_FRAMES : Ctr := ⟨0x58100018, 0x40⟩
def SCH_POL_PASS_FRAMES : Ctr := ⟨0x58380010, 0x40⟩
def SCH_POL_DROP_FRAMES : Ctr := ⟨0x58380018, 0x40⟩
def SCH_BLK_POLICE_DROP : Ctr := ⟨0x68000, 0x100⟩
def SCH_BLK_Q_INVALID : Ctr := ⟨0x68008, 0x100⟩
def SCH_BLK_GATE_NEVER : Ctr := ⟨0x68010, 0x100⟩
def SCH_BLK_GATE_EXPIRE : Ctr := ⟨0x68018, 0x100⟩
def SCH_BLK_PFC_HDRM_DROP : Ctr := ⟨0x68020, 0x100⟩
def SCH_BLK_Q_FULL : Ctr := ⟨0x68028, 0x100⟩
def SCH_BLK_SPILL_DROP : Ctr := ⟨0x68030, 0x100⟩
def SCH_BLK_SPILL_FRAMES : Ctr := ⟨0x68038, 0x100⟩
def SCH_BLK_PFC_XOFF_SENT : Ctr := ⟨0x68040, 0x100⟩
def SCH_BLK_PFC_XON_SENT : Ctr := ⟨0x68048, 0x100⟩
def SCH_BLK_SLICE_FULL : Ctr := ⟨0x68050, 0x100⟩
def SMP_STEPS_EXEC : Ctr := ⟨0x80080, 0x400⟩
def SMP_STEPS_INTERLOCK : Ctr := ⟨0x80088, 0x400⟩
def SMP_STEPS_HOST : Ctr := ⟨0x80090, 0x400⟩
def SMP_ROWS_IN : Ctr := ⟨0x80098, 0x400⟩
def SMP_ROWS_OUT : Ctr := ⟨0x800A0, 0x400⟩
def SMP_SYMBOLS : Ctr := ⟨0x800A8, 0x400⟩
def SMP_SLIP : Ctr := ⟨0x800B0, 0x400⟩
def SMP_MISSING_ROWS : Ctr := ⟨0x800B8, 0x400⟩
def SMP_ARR_OVR : Ctr := ⟨0x800C0, 0x400⟩
def SMP_ROWS_DISCARD : Ctr := ⟨0x800C8, 0x400⟩
def SMP_SAT_LANES : Ctr := ⟨0x800D0, 0x400⟩
def SMP_ACC_SAT : Ctr := ⟨0x800D8, 0x400⟩
def SMP_OUT_STALL : Ctr := ⟨0x800E0, 0x400⟩
def SMP_SHADOW_MISMATCH : Ctr := ⟨0x800E8, 0x400⟩
def SMP_PATH_SYM_EMITTED : Ctr := ⟨0x98010, 0x100⟩
def SMP_PATH_SYM_INCOMPLETE : Ctr := ⟨0x98018, 0x100⟩
def SMP_PATH_SYM_DROPPED : Ctr := ⟨0x98020, 0x100⟩
def SMP_PATH_SETS_APPLIED : Ctr := ⟨0x98028, 0x100⟩
def SMP_PATH_SETS_LATE : Ctr := ⟨0x98030, 0x100⟩
def SMP_PATH_SETS_SUPERSEDED : Ctr := ⟨0x98038, 0x100⟩
def SMP_PATH_SETS_STALE : Ctr := ⟨0x98040, 0x100⟩
def SMP_PATH_SETS_INCOMPLETE : Ctr := ⟨0x98048, 0x100⟩
def SMP_PATH_COEF_FMT_ERR : Ctr := ⟨0x98050, 0x100⟩
def SMP_PATH_ROWS_UNMAPPED : Ctr := ⟨0x98058, 0x100⟩
def SMP_FLOW_FRAMES : Ctr := ⟨0x65000000, 0x80⟩
def SMP_FLOW_FMT_ERR_BYTES : Ctr := ⟨0x65000008, 0x80⟩
def SMP_FLOW_LATE_DATA_OUT_SAT : Ctr := ⟨0x65000010, 0x80⟩
def SMP_FLOW_DUP_PRB_PARTIAL : Ctr := ⟨0x65000018, 0x80⟩
def SMP_FLOW_IN_SAT_BLOCK_OVR : Ctr := ⟨0x65000020, 0x80⟩
def SMP_FLOW_PRBS_OUTSIDE : Ctr := ⟨0x65000028, 0x80⟩
def SMP_STEER_STEER_ERR : Ctr := ⟨0x9F000, 0x0⟩
def TMG_TOD_MAP_ACCEPT : Ctr := ⟨0xA0200, 0x0⟩
def TMG_TOD_STALE : Ctr := ⟨0xA0208, 0x0⟩
def TMG_A_MEAS : Ctr := ⟨0xA0210, 0x0⟩
def TMG_PPS_EDGES : Ctr := ⟨0xA0218, 0x0⟩
def TMG_PPS_SPURIOUS : Ctr := ⟨0xA0220, 0x0⟩
def TMG_PPS_MISSING : Ctr := ⟨0xA0228, 0x0⟩
def TMG_PPS_OVERRUN : Ctr := ⟨0xA0230, 0x0⟩
def TMG_TOD_RX_OK : Ctr := ⟨0xA0238, 0x0⟩
def TMG_TOD_RX_ERR : Ctr := ⟨0xA0240, 0x0⟩
def TMG_B_MEAS : Ctr := ⟨0xA0248, 0x0⟩
def TMG_DOM_STEP_A : Ctr := ⟨0xA0250, 0x0⟩
def TMG_DOM_STEP_B : Ctr := ⟨0xA0258, 0x0⟩
def TMG_EQUINOX : Ctr := ⟨0xA0260, 0x0⟩
def TMG_OUT_STEP : Ctr := ⟨0xA0268, 0x0⟩
def TMG_STEP_REFUSED : Ctr := ⟨0xA0270, 0x0⟩
def TMG_SLEW_REFUSED : Ctr := ⟨0xA0278, 0x0⟩
def TMG_STAMP_DROP : Ctr := ⟨0xA0280, 0x0⟩
def TMG_SYNC_SENT : Ctr := ⟨0xA0288, 0x0⟩
def TMG_ESMC_SENT : Ctr := ⟨0xA0290, 0x0⟩
def TMG_OSC_FAULT : Ctr := ⟨0xA0298, 0x0⟩
def TMG_FREQIN_LOST : Ctr := ⟨0xA02A0, 0x0⟩
def TMG_BW_CLAMP : Ctr := ⟨0xA02A8, 0x0⟩
def PRT_RX_FRAMES : Ctr := ⟨0xC0100, 0x400⟩
def PRT_RX_BYTES : Ctr := ⟨0xC0108, 0x400⟩
def PRT_TX_FRAMES : Ctr := ⟨0xC0110, 0x400⟩
def PRT_TX_BYTES : Ctr := ⟨0xC0118, 0x400⟩
def PRT_RX_FCS_ERR : Ctr := ⟨0xC0120, 0x400⟩
def PRT_RX_BAD_SFD : Ctr := ⟨0xC0128, 0x400⟩
def PRT_FEC_CORR : Ctr := ⟨0xC0130, 0x400⟩
def PRT_FEC_UNCORR : Ctr := ⟨0xC0138, 0x400⟩
def PRT_RX_PAUSE : Ctr := ⟨0xC0140, 0x400⟩
def PRT_RX_CTRL_IGNORED : Ctr := ⟨0xC0148, 0x400⟩
def PRT_PAUSE_WD : Ctr := ⟨0xC0150, 0x400⟩
def PRT_RX_PAUSE_IGNORED : Ctr := ⟨0xC0158, 0x400⟩
def PRT_TX_CTRL : Ctr := ⟨0xC0160, 0x400⟩
def PRT_EDGE_OVR : Ctr := ⟨0xC0168, 0x400⟩
def PRT_EDGE_UND : Ctr := ⟨0xC0170, 0x400⟩
def PRT_TX_FLUSH : Ctr := ⟨0xC0178, 0x400⟩
def PRT_LINK_DOWN : Ctr := ⟨0xC0180, 0x400⟩
def PRT_IDLE_ENTRY : Ctr := ⟨0xC0188, 0x400⟩
def PRT_WAKE_FAIL : Ctr := ⟨0xC0190, 0x400⟩
def PRT_SEC_RX_ICV_FAIL : Ctr := ⟨0xC0198, 0x400⟩
def PRT_SEC_RX_NO_SA : Ctr := ⟨0xC01A0, 0x400⟩
def PRT_SEC_RX_REPLAY : Ctr := ⟨0xC01A8, 0x400⟩
def PRT_SEC_RX_UNPROT : Ctr := ⟨0xC01B0, 0x400⟩
def PRT_PRBS_ERR : Ctr := ⟨0xC01B8, 0x400⟩
def HST_RX_FRAMES : Ctr := ⟨0xE0100, 0x0⟩
def HST_RX_BYTES : Ctr := ⟨0xE0108, 0x0⟩
def HST_TX_FRAMES : Ctr := ⟨0xE0110, 0x0⟩
def HST_TX_BYTES : Ctr := ⟨0xE0118, 0x0⟩
def HST_RX_FCS_ERR : Ctr := ⟨0xE0120, 0x0⟩
def HST_FEC_CORR : Ctr := ⟨0xE0128, 0x0⟩
def HST_FEC_UNCORR : Ctr := ⟨0xE0130, 0x0⟩
def HST_RX_PAUSE : Ctr := ⟨0xE0138, 0x0⟩
def HST_PAUSE_WD : Ctr := ⟨0xE0140, 0x0⟩
def HST_LINK_DOWN : Ctr := ⟨0xE0148, 0x0⟩
def HST_RX_DROP : Ctr := ⟨0xE0150, 0x0⟩
def SBS_TX_FRAMES : Ctr := ⟨0xF0100, 0x0⟩
def SBS_RX_FRAMES : Ctr := ⟨0xF0108, 0x0⟩
def SBS_COLLISIONS : Ctr := ⟨0xF0110, 0x0⟩
def SBS_TX_ABORT : Ctr := ⟨0xF0118, 0x0⟩
def SBS_JABBER : Ctr := ⟨0xF0120, 0x0⟩
def SBS_RX_FCS_ERR : Ctr := ⟨0xF0128, 0x0⟩
def SBS_POLL_SENT : Ctr := ⟨0xF0130, 0x0⟩
def SBS_POLL_MISS : Ctr := ⟨0xF0138, 0x0⟩
def SBS_ALARM_EVENTS : Ctr := ⟨0xF0140, 0x0⟩
def SBS_ALARM_OVERRUN : Ctr := ⟨0xF0148, 0x0⟩
def SBS_SBS_UNKNOWN : Ctr := ⟨0xF0150, 0x0⟩
def SBS_SBS_QFULL : Ctr := ⟨0xF0158, 0x0⟩
def SBS_GUARD_HELD : Ctr := ⟨0xF0160, 0x0⟩
def ZCP_RX_MSG : Ctr := ⟨0xE0500, 0x0⟩
def ZCP_TX_MSG : Ctr := ⟨0xE0508, 0x0⟩
def ZCP_TAG_FAIL : Ctr := ⟨0xE0510, 0x0⟩
def ZCP_REPLAY : Ctr := ⟨0xE0518, 0x0⟩
def ZCP_OPEN_DROP : Ctr := ⟨0xE0520, 0x0⟩
def ZCP_FORMAT_DROP : Ctr := ⟨0xE0528, 0x0⟩
def ZCP_RETRY_HIT : Ctr := ⟨0xE0530, 0x0⟩
def ZCP_BUSY_SENT : Ctr := ⟨0xE0538, 0x0⟩
def ZCP_EVT_SENT : Ctr := ⟨0xE0540, 0x0⟩
def ZCP_EVT_RESENT : Ctr := ⟨0xE0548, 0x0⟩
def ZCP_SP_SENT : Ctr := ⟨0xE0550, 0x0⟩
def ZCP_SP_NOHOST : Ctr := ⟨0xE0558, 0x0⟩
def DMA_DESC_DONE : Ctr := ⟨0x100040, 0x80⟩
def DMA_BYTES : Ctr := ⟨0x100048, 0x80⟩
def DMA_TRIG_LOST : Ctr := ⟨0x100050, 0x80⟩
def DMA_OWN_MISS : Ctr := ⟨0x100058, 0x80⟩
def MCU_DISPATCH : Ctr := ⟨0x113000, 0x0⟩
def MCU_PREEMPT : Ctr := ⟨0x113008, 0x0⟩
def MCU_PRE_LATE : Ctr := ⟨0x113010, 0x0⟩
def MCU_ACT_OVR : Ctr := ⟨0x113018, 0x0⟩
def MCU_FIFO_FULL : Ctr := ⟨0x113020, 0x0⟩
def MCU_WDOG : Ctr := ⟨0x113028, 0x0⟩
def MCU_TRACE_LOST : Ctr := ⟨0x113030, 0x0⟩
def MCU_ACCESS_FAULT : Ctr := ⟨0x113038, 0x0⟩
def MCU_SWAP : Ctr := ⟨0x113040, 0x0⟩
def SEC_TAG_TAG_FAIL : Ctr := ⟨0x122000, 0x8⟩
def SEC_ALARM_EVENTS : Ctr := ⟨0x123000, 0x0⟩
def SEC_TAMPER_OVERRUN : Ctr := ⟨0x123008, 0x0⟩
def SEC_ERASURES : Ctr := ⟨0x123010, 0x0⟩
def SEC_SCAN_CLEAR : Ctr := ⟨0x123018, 0x0⟩
def SEC_ENT_FAIL : Ctr := ⟨0x123020, 0x0⟩
def SEC_KEY_LOADS : Ctr := ⟨0x123028, 0x0⟩
def SEC_KEY_REFUSED : Ctr := ⟨0x123030, 0x0⟩
def SEC_MK_FAIL : Ctr := ⟨0x123038, 0x0⟩
def SEC_KEY_MISS_UP : Ctr := ⟨0x123040, 0x0⟩
def SEC_MS_NO_SA_TX : Ctr := ⟨0x123048, 0x0⟩
def SEC_MS_PN_EXH : Ctr := ⟨0x123050, 0x0⟩
def PWR_DOM_REFUSED : Ctr := ⟨0x131000, 0x100⟩
def PWR_DOM_ABORTED : Ctr := ⟨0x131008, 0x100⟩
def PWR_DOM_SUPERSEDED : Ctr := ⟨0x131010, 0x100⟩
def PWR_DOM_REPLAYED : Ctr := ⟨0x131018, 0x100⟩
def PWR_DOM_PWR_ATTEMPT : Ctr := ⟨0x131020, 0x100⟩
def PWR_DOM_ON_US : Ctr := ⟨0x131028, 0x100⟩
def PWR_DOM_RET_US : Ctr := ⟨0x131030, 0x100⟩
def PWR_DOM_OFF_US : Ctr := ⟨0x131038, 0x100⟩
def PWR_DOM_ORDER_REFUSED : Ctr := ⟨0x131040, 0x100⟩
def PWR_BLK_P_ON_US : Ctr := ⟨0x133000, 0x80⟩
def PWR_BLK_P_RET_US : Ctr := ⟨0x133008, 0x80⟩
def PWR_BLK_P_OFF_US : Ctr := ⟨0x133010, 0x80⟩
def PWR_BLK_S_ON_US : Ctr := ⟨0x133018, 0x80⟩
def PWR_BLK_S_RET_US : Ctr := ⟨0x133020, 0x80⟩
def PWR_BLK_S_OFF_US : Ctr := ⟨0x133028, 0x80⟩
def PWR_WAKE_OVERRUN : Ctr := ⟨0x136000, 0x0⟩
def PWR_THROTTLE_STEPS : Ctr := ⟨0x136008, 0x0⟩
def PWR_CP_RANGE : Ctr := ⟨0x136010, 0x0⟩
def MEM_DDR_CORR : Ctr := ⟨0x150100, 0x0⟩
def MEM_DDR_UNCORR : Ctr := ⟨0x150108, 0x0⟩
def MEM_HBM_CORR : Ctr := ⟨0x150110, 0x0⟩
def MEM_HBM_UNCORR : Ctr := ⟨0x150118, 0x0⟩
def MEM_DDR_PPR : Ctr := ⟨0x150120, 0x0⟩
def MEM_SCRUB_PASSES : Ctr := ⟨0x150128, 0x0⟩

end C

/-- Families of one unit of the map, in the order of its chapter: first address, (stride, count) of each index, fields. -/
def famList_hlt_a : List Family := [
  ⟨0x140000, [(0x20, 4)], [R.HLT_PACE_MEAS_MEAS, R.HLT_PACE_MEAS_MIN_HOLD]⟩,
  ⟨0x140004, [(0x20, 4)], [R.HLT_PACE_REQ_REQ, R.HLT_PACE_REQ_CAP]⟩,
  ⟨0x140008, [(0x20, 4)], [R.HLT_PACE_STAT_BELOW, R.HLT_PACE_STAT_BELOW_SEEN, R.HLT_PACE_STAT_BELOW_WIN]⟩,
  ⟨0x140100, [(0x4, 32)], [R.HLT_PACE_BLK_MEAS]⟩,
  ⟨0x141000, [(0x40, 1)], [R.HLT_ERR_FIRST_HDR_CODE, R.HLT_ERR_FIRST_HDR_SOURCE, R.HLT_ERR_FIRST_HDR_ORIGIN, R.HLT_ERR_FIRST_HDR_STATE, R.HLT_ERR_FIRST_HDR_SEV, R.HLT_ERR_FIRST_HDR_VALID]⟩,
  ⟨0x141100, [(0x40, 4)], [R.HLT_ERR_FIRST_HDR_CODE, R.HLT_ERR_FIRST_HDR_SOURCE, R.HLT_ERR_FIRST_HDR_ORIGIN, R.HLT_ERR_FIRST_HDR_STATE, R.HLT_ERR_FIRST_HDR_SEV, R.HLT_ERR_FIRST_HDR_VALID]⟩,
  ⟨0x142000, [(0x40, 32)], [R.HLT_ERR_FIRST_HDR_CODE, R.HLT_ERR_FIRST_HDR_SOURCE, R.HLT_ERR_FIRST_HDR_ORIGIN, R.HLT_ERR_FIRST_HDR_STATE, R.HLT_ERR_FIRST_HDR_SEV, R.HLT_ERR_FIRST_HDR_VALID]⟩,
  ⟨0x144000, [(0x400, 32), (0x40, 11)], [R.HLT_ERR_FIRST_HDR_CODE, R.HLT_ERR_FIRST_HDR_SOURCE, R.HLT_ERR_FIRST_HDR_ORIGIN, R.HLT_ERR_FIRST_HDR_STATE, R.HLT_ERR_FIRST_HDR_SEV, R.HLT_ERR_FIRST_HDR_VALID]⟩,
  ⟨0x141004, [(0x40, 1)], [R.HLT_ERR_FIRST_TIME_NS]⟩,
  ⟨0x141104, [(0x40, 4)], [R.HLT_ERR_FIRST_TIME_NS]⟩,
  ⟨0x142004, [(0x40, 32)], [R.HLT_ERR_FIRST_TIME_NS]⟩,
  ⟨0x144004, [(0x400, 32), (0x40, 11)], [R.HLT_ERR_FIRST_TIME_NS]⟩,
  ⟨0x141008, [(0x40, 1)], [R.HLT_ERR_FIRST_AUX_ATTEMPTS, R.HLT_ERR_FIRST_AUX_ACTION, R.HLT_ERR_FIRST_AUX_FRAC]⟩,
  ⟨0x141108, [(0x40, 4)], [R.HLT_ERR_FIRST_AUX_ATTEMPTS, R.HLT_ERR_FIRST_AUX_ACTION, R.HLT_ERR_FIRST_AUX_FRAC]⟩,
  ⟨0x142008, [(0x40, 32)], [R.HLT_ERR_FIRST_AUX_ATTEMPTS, R.HLT_ERR_FIRST_AUX_ACTION, R.HLT_ERR_FIRST_AUX_FRAC]⟩,
  ⟨0x144008, [(0x400, 32), (0x40, 11)], [R.HLT_ERR_FIRST_AUX_ATTEMPTS, R.HLT_ERR_FIRST_AUX_ACTION, R.HLT_ERR_FIRST_AUX_FRAC]⟩,
  ⟨0x14100C, [(0x40, 1)], [R.HLT_ERR_FIRST_DETAIL_DETAIL]⟩,
  ⟨0x14110C, [(0x40, 4)], [R.HLT_ERR_FIRST_DETAIL_DETAIL]⟩,
  ⟨0x14200C, [(0x40, 32)], [R.HLT_ERR_FIRST_DETAIL_DETAIL]⟩,
  ⟨0x14400C, [(0x400, 32), (0x40, 11)], [R.HLT_ERR_FIRST_DETAIL_DETAIL]⟩,
  ⟨0x141010, [(0x40, 1)], [R.HLT_ERR_LATEST_HDR_CODE, R.HLT_ERR_LATEST_HDR_SOURCE, R.HLT_ERR_LATEST_HDR_ORIGIN, R.HLT_ERR_LATEST_HDR_STATE, R.HLT_ERR_LATEST_HDR_SEV, R.HLT_ERR_LATEST_HDR_VALID]⟩,
  ⟨0x141110, [(0x40, 4)], [R.HLT_ERR_LATEST_HDR_CODE, R.HLT_ERR_LATEST_HDR_SOURCE, R.HLT_ERR_LATEST_HDR_ORIGIN, R.HLT_ERR_LATEST_HDR_STATE, R.HLT_ERR_LATEST_HDR_SEV, R.HLT_ERR_LATEST_HDR_VALID]⟩,
  ⟨0x142010, [(0x40, 32)], [R.HLT_ERR_LATEST_HDR_CODE, R.HLT_ERR_LATEST_HDR_SOURCE, R.HLT_ERR_LATEST_HDR_ORIGIN, R.HLT_ERR_LATEST_HDR_STATE, R.HLT_ERR_LATEST_HDR_SEV, R.HLT_ERR_LATEST_HDR_VALID]⟩,
  ⟨0x144010, [(0x400, 32), (0x40, 11)], [R.HLT_ERR_LATEST_HDR_CODE, R.HLT_ERR_LATEST_HDR_SOURCE, R.HLT_ERR_LATEST_HDR_ORIGIN, R.HLT_ERR_LATEST_HDR_STATE, R.HLT_ERR_LATEST_HDR_SEV, R.HLT_ERR_LATEST_HDR_VALID]⟩]
def famList_hlt_b : List Family := [
  ⟨0x141014, [(0x40, 1)], [R.HLT_ERR_LATEST_TIME_NS]⟩,
  ⟨0x141114, [(0x40, 4)], [R.HLT_ERR_LATEST_TIME_NS]⟩,
  ⟨0x142014, [(0x40, 32)], [R.HLT_ERR_LATEST_TIME_NS]⟩,
  ⟨0x144014, [(0x400, 32), (0x40, 11)], [R.HLT_ERR_LATEST_TIME_NS]⟩,
  ⟨0x141018, [(0x40, 1)], [R.HLT_ERR_LATEST_AUX_ATTEMPTS, R.HLT_ERR_LATEST_AUX_ACTION, R.HLT_ERR_LATEST_AUX_FRAC]⟩,
  ⟨0x141118, [(0x40, 4)], [R.HLT_ERR_LATEST_AUX_ATTEMPTS, R.HLT_ERR_LATEST_AUX_ACTION, R.HLT_ERR_LATEST_AUX_FRAC]⟩,
  ⟨0x142018, [(0x40, 32)], [R.HLT_ERR_LATEST_AUX_ATTEMPTS, R.HLT_ERR_LATEST_AUX_ACTION, R.HLT_ERR_LATEST_AUX_FRAC]⟩,
  ⟨0x144018, [(0x400, 32), (0x40, 11)], [R.HLT_ERR_LATEST_AUX_ATTEMPTS, R.HLT_ERR_LATEST_AUX_ACTION, R.HLT_ERR_LATEST_AUX_FRAC]⟩,
  ⟨0x14101C, [(0x40, 1)], [R.HLT_ERR_LATEST_DETAIL_DETAIL]⟩,
  ⟨0x14111C, [(0x40, 4)], [R.HLT_ERR_LATEST_DETAIL_DETAIL]⟩,
  ⟨0x14201C, [(0x40, 32)], [R.HLT_ERR_LATEST_DETAIL_DETAIL]⟩,
  ⟨0x14401C, [(0x400, 32), (0x40, 11)], [R.HLT_ERR_LATEST_DETAIL_DETAIL]⟩,
  ⟨0x141020, [(0x40, 1)], [R.HLT_ERR_OVF_COUNT]⟩,
  ⟨0x141120, [(0x40, 4)], [R.HLT_ERR_OVF_COUNT]⟩,
  ⟨0x142020, [(0x40, 32)], [R.HLT_ERR_OVF_COUNT]⟩,
  ⟨0x144020, [(0x400, 32), (0x40, 11)], [R.HLT_ERR_OVF_COUNT]⟩,
  ⟨0x141024, [(0x40, 1)], [R.HLT_ERR_ESC_COUNT]⟩,
  ⟨0x141124, [(0x40, 4)], [R.HLT_ERR_ESC_COUNT]⟩,
  ⟨0x142024, [(0x40, 32)], [R.HLT_ERR_ESC_COUNT]⟩,
  ⟨0x144024, [(0x400, 32), (0x40, 11)], [R.HLT_ERR_ESC_COUNT]⟩,
  ⟨0x141028, [(0x40, 1)], [R.HLT_ERR_CTRL_RESOLVE, R.HLT_ERR_CTRL_NEW, R.HLT_ERR_CTRL_EVT_EN]⟩,
  ⟨0x141128, [(0x40, 4)], [R.HLT_ERR_CTRL_RESOLVE, R.HLT_ERR_CTRL_NEW, R.HLT_ERR_CTRL_EVT_EN]⟩,
  ⟨0x142028, [(0x40, 32)], [R.HLT_ERR_CTRL_RESOLVE, R.HLT_ERR_CTRL_NEW, R.HLT_ERR_CTRL_EVT_EN]⟩,
  ⟨0x144028, [(0x400, 32), (0x40, 11)], [R.HLT_ERR_CTRL_RESOLVE, R.HLT_ERR_CTRL_NEW, R.HLT_ERR_CTRL_EVT_EN]⟩]
def famList_hlt_c : List Family := [
  ⟨0x14C040, [], [R.HLT_HSWD_TIME]⟩,
  ⟨0x14C000, [], [R.HLT_SPARE_CELLS_PORT, R.HLT_SPARE_CELLS_PIPE, R.HLT_SPARE_CELLS_SAMPLE]⟩,
  ⟨0x14C004, [], [R.HLT_SPARE_CHIP_TRK_ENG, R.HLT_SPARE_CHIP_TRK_LASER, R.HLT_SPARE_CHIP_LOC_LASER, R.HLT_SPARE_CHIP_MCU, R.HLT_SPARE_CHIP_OVEN, R.HLT_SPARE_CHIP_HBM_PC, R.HLT_SPARE_CHIP_DDR_RANK]⟩,
  ⟨0x14C100, [(0x4, 32)], [R.HLT_BLOCK_MAP_CELL]⟩,
  ⟨0x14C200, [], [R.HLT_ST_CFG_PATTERNS_LOG2, R.HLT_ST_CFG_FULL_ON_MISS, R.HLT_ST_CFG_EVT_EN]⟩,
  ⟨0x14C204, [], [R.HLT_ST_STAT_OUTCOME, R.HLT_ST_STAT_UNTESTED, R.HLT_ST_STAT_ARCHIVED, R.HLT_ST_STAT_FAILS]⟩,
  ⟨0x14C208, [], [R.HLT_EVT_WEAR_WARN, R.HLT_EVT_WEAR_DUE, R.HLT_EVT_SWAP_DONE, R.HLT_EVT_SWAP_FAIL, R.HLT_EVT_ST_DONE]⟩,
  ⟨0x14C210, [(0x4, 16)], [R.HLT_ST_FAIL_MAP]⟩,
  ⟨0x14C300, [], [R.HLT_SWAP_CMD_UNIT, R.HLT_SWAP_CMD_GO]⟩,
  ⟨0x14C304, [], [R.HLT_SWAP_STAT_STATE, R.HLT_SWAP_STAT_RESTARTS, R.HLT_SWAP_STAT_CAUSE, R.HLT_SWAP_STAT_OCTAVES, R.HLT_SWAP_STAT_SPARE]⟩,
  ⟨0x14D000, [(0x10, 515)], [R.HLT_WEAR_VAL_VALUE]⟩,
  ⟨0x14D004, [(0x10, 515)], [R.HLT_WEAR_AUX_VALUE]⟩,
  ⟨0x14D008, [(0x10, 515)], [R.HLT_WEAR_STAT_LEVEL]⟩]
def famList_hlt : List Family := famList_hlt_a ++ famList_hlt_b ++ famList_hlt_c

def famList_alm_a : List Family := [
  ⟨0x10000, [], [R.ALM_GEN_ACTIVE_GEN]⟩,
  ⟨0x10004, [], [R.ALM_GEN_CAND_GEN]⟩,
  ⟨0x10008, [], [R.ALM_RULE_GEN_CUR, R.ALM_RULE_GEN_LIVE]⟩,
  ⟨0x1000C, [], [R.ALM_ARB_COUNT, R.ALM_ARB_TARGET, R.ALM_ARB_ADVANCE]⟩,
  ⟨0x10010, [], [R.ALM_LOAD_CTRL_START, R.ALM_LOAD_CTRL_CANCEL, R.ALM_LOAD_CTRL_SRC]⟩,
  ⟨0x10014, [], [R.ALM_LOAD_ADDR_ADDR4K]⟩,
  ⟨0x10018, [], [R.ALM_LOAD_STAT_STATE, R.ALM_LOAD_STAT_KIND, R.ALM_LOAD_STAT_SECTION, R.ALM_LOAD_STAT_CAUSE]⟩,
  ⟨0x1001C, [], [R.ALM_LOAD_PROG_KIB]⟩,
  ⟨0x10020, [], [R.ALM_LOAD_TXN_ID]⟩,
  ⟨0x10024, [], [R.ALM_OCTAVE_LO_NUM]⟩,
  ⟨0x10028, [], [R.ALM_OCTAVE_HI_NUM, R.ALM_OCTAVE_HI_VALID]⟩,
  ⟨0x1002C, [], [R.ALM_TXN_OPEN_OPEN, R.ALM_TXN_OPEN_PENDING]⟩,
  ⟨0x10030, [], [R.ALM_TXN_QUERY_ID]⟩,
  ⟨0x10034, [], [R.ALM_TXN_RESULT_STATE, R.ALM_TXN_RESULT_CAUSE, R.ALM_TXN_RESULT_POINT_KIND, R.ALM_TXN_RESULT_WRITES]⟩,
  ⟨0x10038, [], [R.ALM_TXN_EPOCH_OCTAVE]⟩,
  ⟨0x1003C, [], [R.ALM_TXN_DETAIL_ADDR]⟩,
  ⟨0x10040, [], [R.ALM_SHADOW_HELD_COUNT]⟩,
  ⟨0x10044, [], [R.ALM_SHADOW_DISARM_COUNT]⟩,
  ⟨0x10048, [], [R.ALM_JUB_CTRL_ENTER, R.ALM_JUB_CTRL_CANCEL]⟩,
  ⟨0x1004C, [], [R.ALM_JUB_STAT_CAND_ALM, R.ALM_JUB_STAT_CAND_FW, R.ALM_JUB_STAT_STATE, R.ALM_JUB_STAT_TXN]⟩,
  ⟨0x10050, [], [R.ALM_EVT_LOAD_CHG, R.ALM_EVT_JUB_CHG, R.ALM_EVT_EVT_EN]⟩]
def famList_alm : List Family := famList_alm_a

def famList_trk_a : List Family := [
  ⟨0x20000, [(0x1000, 16)], [R.TRK_DS_CFG_ENABLE, R.TRK_DS_CFG_TIM_EN, R.TRK_DS_CFG_COLD, R.TRK_DS_CFG_EVT_EN, R.TRK_DS_CFG_LOF_MISS, R.TRK_DS_CFG_FREQ_N]⟩,
  ⟨0x20004, [(0x1000, 16)], [R.TRK_DS_LOS_THR_THR]⟩,
  ⟨0x20008, [(0x1000, 16)], [R.TRK_DS_STAT_FSTATE, R.TRK_DS_STAT_ACQ, R.TRK_DS_STAT_LOS, R.TRK_DS_STAT_LOF, R.TRK_DS_STAT_AIS, R.TRK_DS_STAT_RDI, R.TRK_DS_STAT_TIM]⟩,
  ⟨0x2000C, [(0x1000, 16)], [R.TRK_DS_EVT_SFC_JUMP, R.TRK_DS_EVT_CHG]⟩,
  ⟨0x20010, [(0x1000, 16)], [R.TRK_DS_MON_PWR_PWR, R.TRK_DS_MON_PWR_OSNR]⟩,
  ⟨0x20014, [(0x1000, 16)], [R.TRK_DS_MON_CD_CD, R.TRK_DS_MON_CD_DGD]⟩,
  ⟨0x20018, [(0x1000, 16)], [R.TRK_DS_MON_BER_PPB]⟩,
  ⟨0x2001C, [(0x1000, 16)], [R.TRK_DS_MON_FOFS_FOFS, R.TRK_DS_MON_FOFS_SNR]⟩,
  ⟨0x20020, [(0x1000, 16), (0x4, 16)], [R.TRK_DS_TRACE_EXP_BYTES]⟩,
  ⟨0x20060, [(0x1000, 16), (0x4, 16)], [R.TRK_DS_TRACE_ACC_BYTES]⟩,
  ⟨0x200A0, [(0x1000, 16)], [R.TRK_DS_SFC_LO_SFC]⟩,
  ⟨0x200A4, [(0x1000, 16)], [R.TRK_DS_SFC_HI_SFC]⟩,
  ⟨0x20400, [(0x1000, 16)], [R.TRK_US_CFG_ENABLE, R.TRK_US_CFG_FREQ_N]⟩,
  ⟨0x20404, [(0x1000, 16)], [R.TRK_US_STAT_BURSTING, R.TRK_US_STAT_CH_OFF, R.TRK_US_STAT_LAST_EVE, R.TRK_US_STAT_SHORT_OK, R.TRK_US_STAT_PENDING]⟩,
  ⟨0x20408, [(0x1000, 16)], [R.TRK_US_GH_SHD_PWR, R.TRK_US_GH_SHD_RPT_EXTRA]⟩,
  ⟨0x2040C, [(0x1000, 16)], [R.TRK_US_GH_ACT_PWR, R.TRK_US_GH_ACT_RPT_EXTRA]⟩,
  ⟨0x20410, [(0x1000, 16)], [R.TRK_US_GH_CTRL_ARM]⟩,
  ⟨0x20414, [(0x1000, 16)], [R.TRK_US_GH_EPOCH_LAST_EPOCH, R.TRK_US_GH_EPOCH_WRITE_EPOCH]⟩,
  ⟨0x20418, [(0x1000, 16)], [R.TRK_US_MON_PWR, R.TRK_US_MON_BIAS]⟩,
  ⟨0x30000, [], [R.TRK_SIDE_CTRL_CMD, R.TRK_SIDE_CTRL_REVERT, R.TRK_SIDE_CTRL_WTR, R.TRK_SIDE_CTRL_THR, R.TRK_SIDE_CTRL_HOLD]⟩,
  ⟨0x30004, [], [R.TRK_SIDE_MASK_MASK]⟩,
  ⟨0x30008, [], [R.TRK_SIDE_STAT_ACTIVE, R.TRK_SIDE_STAT_STATE, R.TRK_SIDE_STAT_OTHER_OK, R.TRK_SIDE_STAT_EQD_VALID, R.TRK_SIDE_STAT_APS_BLOCKED, R.TRK_SIDE_STAT_SWITCHED, R.TRK_SIDE_STAT_REQ, R.TRK_SIDE_STAT_LAST_US]⟩,
  ⟨0x30010, [], [R.TRK_WATCH_CTRL_ENABLE, R.TRK_WATCH_CTRL_DWELL, R.TRK_WATCH_CTRL_CUR_WL]⟩,
  ⟨0x30014, [], [R.TRK_WATCH_OK_OK]⟩]
def famList_trk_b : List Family := [
  ⟨0x30020, [], [R.TRK_LATCH_STAT_SEQ, R.TRK_LATCH_STAT_STEP]⟩,
  ⟨0x30030, [], [R.TRK_CHMON_SUM_ACTIVE, R.TRK_CHMON_SUM_CHANGED]⟩,
  ⟨0x30100, [(0x40, 2), (0x4, 16)], [R.TRK_SIDE_CD_CD, R.TRK_SIDE_CD_VALID]⟩,
  ⟨0x34000, [(0x10, 1024)], [R.TRK_CHMON_CFG_ID, R.TRK_CHMON_CFG_KIND, R.TRK_CHMON_CFG_ENABLE, R.TRK_CHMON_CFG_CONT, R.TRK_CHMON_CFG_EVT_EN, R.TRK_CHMON_CFG_LOSS_OCT]⟩,
  ⟨0x34004, [(0x10, 1024)], [R.TRK_CHMON_LIM_MASK, R.TRK_CHMON_LIM_SD_THR, R.TRK_CHMON_LIM_SD_CLR]⟩,
  ⟨0x34008, [(0x10, 1024)], [R.TRK_CHMON_STATE_DEF, R.TRK_CHMON_STATE_RAW, R.TRK_CHMON_STATE_CHG]⟩,
  ⟨0x3400C, [(0x10, 1024)], [R.TRK_CHMON_ERRS_ERR, R.TRK_CHMON_ERRS_UNITS]⟩,
  ⟨0x30800, [], [R.TRK_MODE_CODE, R.TRK_MODE_PREV, R.TRK_MODE_CAUSE]⟩,
  ⟨0x30804, [], [R.TRK_MODE_CTRL_CMD, R.TRK_MODE_CTRL_EVT_EN]⟩,
  ⟨0x30808, [], [R.TRK_ACT_TMR_TO_LAPSE, R.TRK_ACT_TMR_TO_DISC, R.TRK_ACT_TMR_TO_RANGE]⟩,
  ⟨0x3080C, [], [R.TRK_TERM_ID_ID, R.TRK_TERM_ID_HOME, R.TRK_TERM_ID_ANN_CH, R.TRK_TERM_ID_MMK, R.TRK_TERM_ID_VALID]⟩,
  ⟨0x30810, [], [R.TRK_TERM_ALLOC_DEFAULT, R.TRK_TERM_ALLOC_MGMT_TAG]⟩,
  ⟨0x30814, [], [R.TRK_REV_STAT_CUR, R.TRK_REV_STAT_PREV, R.TRK_REV_STAT_ON_PREV]⟩,
  ⟨0x30818, [], [R.TRK_MODE_EVT_MODE_CHG]⟩,
  ⟨0x30820, [], [R.TRK_GUARD_STAT_RECENT, R.TRK_GUARD_STAT_QUAR, R.TRK_GUARD_STAT_LAST_CAUSE, R.TRK_GUARD_STAT_LAST_CH, R.TRK_GUARD_STAT_TRIPPED]⟩,
  ⟨0x30824, [], [R.TRK_GUARD_PWR_CEIL, R.TRK_GUARD_PWR_FUSE]⟩,
  ⟨0x31000, [(0x40, 2), (0x4, 16)], [R.TRK_EQD_EQD, R.TRK_EQD_VALID]⟩,
  ⟨0x32000, [(0x4, 1024)], [R.TRK_ALLOC_ALLOC_ID, R.TRK_ALLOC_CH, R.TRK_ALLOC_GROUP, R.TRK_ALLOC_FRAG_OK, R.TRK_ALLOC_AUTH, R.TRK_ALLOC_VALID]⟩]
def famList_trk : List Family := famList_trk_a ++ famList_trk_b

def famList_pkt_a : List Family := [
  ⟨0x40000, [], [R.PKT_HASH_CFG_SEED]⟩,
  ⟨0x40010, [(0x8, 4)], [R.PKT_GEN_SLOT_GEN, R.PKT_GEN_SLOT_LIVE, R.PKT_GEN_SLOT_CUR, R.PKT_GEN_SLOT_PG, R.PKT_GEN_SLOT_BANKS]⟩,
  ⟨0x40014, [(0x8, 4)], [R.PKT_GEN_REFS_COUNT]⟩,
  ⟨0x40040, [(0x4, 12)], [R.PKT_STAGE_BANK_ACT]⟩,
  ⟨0x40080, [(0x4, 12)], [R.PKT_STAGE_STAT_KIND, R.PKT_STAGE_STAT_USE, R.PKT_STAGE_STAT_LOCK]⟩,
  ⟨0x40100, [(0x8, 8)], [R.PKT_SP_CFG_EN, R.PKT_SP_CFG_DEST, R.PKT_SP_CFG_TRUNC, R.PKT_SP_CFG_CORES]⟩,
  ⟨0x40104, [(0x8, 8)], [R.PKT_SP_RATE_RATE, R.PKT_SP_RATE_BURST]⟩,
  ⟨0x40200, [], [R.PKT_FLOW_CMD_OP, R.PKT_FLOW_CMD_TABLE, R.PKT_FLOW_CMD_BANK, R.PKT_FLOW_CMD_GO, R.PKT_FLOW_CMD_BUSY, R.PKT_FLOW_CMD_RESULT, R.PKT_FLOW_CMD_WAY]⟩,
  ⟨0x40210, [(0x4, 12)], [R.PKT_FLOW_DATA_DATA]⟩]
def famList_pkt : List Family := famList_pkt_a

def famList_win_a : List Family := [
  ⟨0x58000000, [(0x10, 32768)], [R.SCH_Q_CFG_VALID, R.SCH_Q_CFG_DIR, R.SCH_Q_CFG_IQ, R.SCH_Q_CFG_SPILL_EN, R.SCH_Q_CFG_TC, R.SCH_Q_CFG_PORT, R.SCH_Q_CFG_PARENT, R.SCH_Q_CFG_PRIO]⟩,
  ⟨0x58000004, [(0x10, 32768)], [R.SCH_Q_SCHED_WEIGHT, R.SCH_Q_SCHED_SHAPER, R.SCH_Q_SCHED_SH_EN]⟩,
  ⟨0x58000008, [(0x10, 32768)], [R.SCH_Q_LIMIT_MIN, R.SCH_Q_LIMIT_MAX]⟩,
  ⟨0x5800000C, [(0x10, 32768)], [R.SCH_Q_SPILL_SPILL_ON, R.SCH_Q_SPILL_SPILL_MAX]⟩,
  ⟨0x58080000, [(0x10, 32768)], [R.SCH_Q_OCC_CELLS, R.SCH_Q_OCC_UNBOUND, R.SCH_Q_OCC_SPILLING]⟩,
  ⟨0x58080004, [(0x10, 32768)], [R.SCH_Q_SPILLED_KIB]⟩,
  ⟨0x58080008, [(0x10, 32768)], [R.SCH_Q_FRAMES_FRAMES]⟩,
  ⟨0x58300000, [(0x40, 8192)], [R.SCH_SHAPER_CFG_MODE, R.SCH_SHAPER_CFG_OVERHEAD]⟩,
  ⟨0x58300004, [(0x40, 8192)], [R.SCH_SHAPER_RATE_RATE]⟩,
  ⟨0x58300008, [(0x40, 8192)], [R.SCH_SHAPER_BURST_BURST]⟩,
  ⟨0x5830000C, [(0x40, 8192)], [R.SCH_SHAPER_CTRL_ARM, R.SCH_SHAPER_CTRL_RESET_CREDIT]⟩,
  ⟨0x58300010, [(0x40, 8192)], [R.SCH_SHAPER_EPOCH_LAST_EPOCH, R.SCH_SHAPER_EPOCH_WRITE_EPOCH]⟩,
  ⟨0x58300014, [(0x40, 8192)], [R.SCH_SHAPER_ACT_CFG_MODE, R.SCH_SHAPER_ACT_CFG_OVERHEAD]⟩,
  ⟨0x58300018, [(0x40, 8192)], [R.SCH_SHAPER_ACT_RATE_RATE]⟩,
  ⟨0x5830001C, [(0x40, 8192)], [R.SCH_SHAPER_ACT_BURST_BURST]⟩,
  ⟨0x58300020, [(0x40, 8192)], [R.SCH_SHAPER_CREDIT_BAL]⟩,
  ⟨0x58380000, [(0x40, 16384)], [R.SCH_POL_CFG_EN, R.SCH_POL_CFG_OVERHEAD]⟩,
  ⟨0x58380004, [(0x40, 16384)], [R.SCH_POL_RATE_RATE]⟩,
  ⟨0x58380008, [(0x40, 16384)], [R.SCH_POL_BURST_BURST]⟩,
  ⟨0x5838000C, [(0x40, 16384)], [R.SCH_POL_TOKENS_BAL]⟩,
  ⟨0x58480000, [(0x8, 4095)], [R.SCH_NODE_CFG_VALID, R.SCH_NODE_CFG_DIR, R.SCH_NODE_CFG_PORT, R.SCH_NODE_CFG_PARENT, R.SCH_NODE_CFG_PRIO]⟩,
  ⟨0x58480004, [(0x8, 4095)], [R.SCH_NODE_SCHED_WEIGHT, R.SCH_NODE_SCHED_SHAPER, R.SCH_NODE_SCHED_SH_EN]⟩,
  ⟨0x58500000, [(0x1000, 128)], [R.SCH_GATE_CTRL_ARM]⟩,
  ⟨0x58500004, [(0x1000, 128)], [R.SCH_GATE_EPOCH_LAST_EPOCH, R.SCH_GATE_EPOCH_WRITE_EPOCH]⟩]
def famList_win_b : List Family := [
  ⟨0x58500008, [(0x1000, 128)], [R.SCH_GATE_BASE_NS_NS]⟩,
  ⟨0x5850000C, [(0x1000, 128)], [R.SCH_GATE_BASE_SLO_SEC]⟩,
  ⟨0x58500010, [(0x1000, 128)], [R.SCH_GATE_BASE_SHI_SEC]⟩,
  ⟨0x58500014, [(0x1000, 128)], [R.SCH_GATE_LEN_N, R.SCH_GATE_LEN_EN, R.SCH_GATE_LEN_IDLE]⟩,
  ⟨0x58500018, [(0x1000, 128)], [R.SCH_GATE_STAT_CUR, R.SCH_GATE_STAT_ACT_N, R.SCH_GATE_STAT_ACT_EN, R.SCH_GATE_STAT_BEFORE_BASE]⟩,
  ⟨0x5850001C, [(0x1000, 128)], [R.SCH_GATE_CYCLE_NS]⟩,
  ⟨0x58500020, [(0x1000, 128), (0x4, 8)], [R.SCH_GATE_MAXWIN_NS]⟩,
  ⟨0x58500400, [(0x1000, 128), (0x4, 256)], [R.SCH_GATE_ENTRY_INTERVAL, R.SCH_GATE_ENTRY_STATES]⟩,
  ⟨0x58500800, [(0x1000, 128), (0x4, 256)], [R.SCH_GATE_ACT_ENTRY_INTERVAL, R.SCH_GATE_ACT_ENTRY_STATES]⟩]
def famList_win : List Family := famList_win_a ++ famList_win_b

def famList_sch_a : List Family := [
  ⟨0x60000, [(0x4, 32)], [R.SCH_SLICE_STAT_FREE]⟩,
  ⟨0x60080, [(0x4, 4)], [R.SCH_SPILL_STAT_USED, R.SCH_SPILL_STAT_STAGE_FULL]⟩,
  ⟨0x61000, [(0x80, 128)], [R.SCH_PFC_CFG_MODE, R.SCH_PFC_CFG_REFRESH, R.SCH_PFC_CFG_QUANTA]⟩,
  ⟨0x61004, [(0x80, 128)], [R.SCH_PFC_STAT_XOFF]⟩,
  ⟨0x61010, [(0x80, 128), (0xC, 8)], [R.SCH_PFC_XOFF_CELLS]⟩,
  ⟨0x61014, [(0x80, 128), (0xC, 8)], [R.SCH_PFC_XON_CELLS]⟩,
  ⟨0x61018, [(0x80, 128), (0xC, 8)], [R.SCH_PFC_HDRM_CELLS]⟩]
def famList_sch : List Family := famList_sch_a

def famList_smp_a : List Family := [
  ⟨0x80000, [(0x400, 96)], [R.SMP_CELL_CFG_ENABLE, R.SMP_CELL_CFG_EVT_EN, R.SMP_CELL_CFG_SYM_TO]⟩,
  ⟨0x80004, [(0x400, 96)], [R.SMP_CELL_STAT_STATE, R.SMP_CELL_STAT_BAD, R.SMP_CELL_STAT_ENTRY]⟩,
  ⟨0x80008, [(0x400, 96)], [R.SMP_PROG_BANK_ACT, R.SMP_PROG_BANK_RUN, R.SMP_PROG_BANK_PEND, R.SMP_PROG_BANK_LOCK]⟩,
  ⟨0x8000C, [(0x400, 96)], [R.SMP_PROG_INFO_COUNT, R.SMP_PROG_INFO_START]⟩,
  ⟨0x80010, [(0x400, 96)], [R.SMP_CELL_NSYM_NSYM]⟩,
  ⟨0x80014, [(0x400, 96)], [R.SMP_CSET_CTRL_ARM]⟩,
  ⟨0x80018, [(0x400, 96)], [R.SMP_CSET_STAT_ACT, R.SMP_CSET_STAT_RESEED]⟩,
  ⟨0x8001C, [(0x400, 96)], [R.SMP_CSET_EPOCH_LAST_EPOCH, R.SMP_CSET_EPOCH_WRITE_EPOCH]⟩,
  ⟨0x80020, [(0x400, 96)], [R.SMP_SYM_CNT_CNT]⟩,
  ⟨0x80024, [(0x400, 96)], [R.SMP_CELL_EVT_SLIP, R.SMP_CELL_EVT_MISSING, R.SMP_CELL_EVT_ARR_OVR, R.SMP_CELL_EVT_SAT, R.SMP_CELL_EVT_ACC_SAT, R.SMP_CELL_EVT_FLIP, R.SMP_CELL_EVT_HANDOVER, R.SMP_CELL_EVT_MISMATCH]⟩,
  ⟨0x80030, [(0x400, 96), (0x4, 4)], [R.SMP_CSET_BEXP_BEXP0, R.SMP_CSET_BEXP_BEXP1, R.SMP_CSET_BEXP_BEXP2, R.SMP_CSET_BEXP_BEXP3]⟩,
  ⟨0x80040, [(0x400, 96), (0x4, 4)], [R.SMP_CSET_ACT_BEXP_BEXP0, R.SMP_CSET_ACT_BEXP_BEXP1, R.SMP_CSET_ACT_BEXP_BEXP2, R.SMP_CSET_ACT_BEXP_BEXP3]⟩,
  ⟨0x80210, [(0x400, 96), (0x100, 2), (0x10, 15), (0x4, 4)], [R.SMP_LMASK_LANES]⟩,
  ⟨0x98000, [(0x100, 96)], [R.SMP_ASM_STAT_LAST_EMIT, R.SMP_ASM_STAT_OPEN, R.SMP_ASM_STAT_EMITTING, R.SMP_ASM_STAT_VALID]⟩,
  ⟨0x98004, [(0x100, 96)], [R.SMP_COEF_STAT_STATE, R.SMP_COEF_STAT_ROWS, R.SMP_COEF_STAT_APPLY]⟩,
  ⟨0x98008, [(0x100, 96)], [R.SMP_COEF_SEQ_LAST_SEQ]⟩,
  ⟨0x9800C, [(0x100, 96)], [R.SMP_PATH_EVT_LATE, R.SMP_PATH_EVT_SUPERSEDED, R.SMP_PATH_EVT_SET_LOST, R.SMP_PATH_EVT_SYM_LOSS, R.SMP_PATH_EVT_FMT]⟩]
def famList_smp : List Family := famList_smp_a

def famList_tmg_a : List Family := [
  ⟨0xA0000, [], [R.TMG_STAT_STATE, R.TMG_STAT_OUT_VALID, R.TMG_STAT_SEL, R.TMG_STAT_EQX_ACTIVE, R.TMG_STAT_CLASS, R.TMG_STAT_QL]⟩,
  ⟨0xA0004, [], [R.TMG_EVT_STATE_CHG, R.TMG_EVT_SEL_CHG, R.TMG_EVT_EQX_DONE, R.TMG_EVT_EQX_LARGE, R.TMG_EVT_STEPPED, R.TMG_EVT_STEP_REFUSED, R.TMG_EVT_SLEW_REFUSED, R.TMG_EVT_LEAP_DONE, R.TMG_EVT_A_LOST, R.TMG_EVT_B_LOST, R.TMG_EVT_OSC_FAULT, R.TMG_EVT_VIG_LIMIT, R.TMG_EVT_PPS_STUCK]⟩,
  ⟨0xA0008, [], [R.TMG_SEL_CFG_MODE, R.TMG_SEL_CFG_PREF, R.TMG_SEL_CFG_WTR, R.TMG_SEL_CFG_EVT_EN]⟩,
  ⟨0xA000C, [], [R.TMG_SLEW_SLEW, R.TMG_SLEW_SLEW_MAX]⟩,
  ⟨0xA0010, [], [R.TMG_NS_NS]⟩,
  ⟨0xA0014, [], [R.TMG_FRAC_FRAC]⟩,
  ⟨0xA0018, [], [R.TMG_SEC_LO_SEC]⟩,
  ⟨0xA001C, [], [R.TMG_SEC_HI_SEC]⟩,
  ⟨0xA0020, [], [R.TMG_TS_NOW_TS_NS]⟩,
  ⟨0xA0024, [], [R.TMG_EQX_REM]⟩,
  ⟨0xA0028, [], [R.TMG_STEP_LO_DELTA]⟩,
  ⟨0xA002C, [], [R.TMG_STEP_HI_DELTA, R.TMG_STEP_HI_TO_SEL, R.TMG_STEP_HI_GO]⟩,
  ⟨0xA0030, [], [R.TMG_UTC_OFFSET, R.TMG_UTC_PENDING, R.TMG_UTC_DIR, R.TMG_UTC_SRC]⟩,
  ⟨0xA0034, [], [R.TMG_LEAP_AT_LO_SEC]⟩,
  ⟨0xA0038, [], [R.TMG_LEAP_AT_HI_SEC]⟩,
  ⟨0xA0080, [], [R.TMG_A_CFG_SEL_EN, R.TMG_A_CFG_CH, R.TMG_A_CFG_HOME, R.TMG_A_CFG_LOSS_TO, R.TMG_A_CFG_CLASS_LOCKED]⟩,
  ⟨0xA0084, [], [R.TMG_A_TEQ_TEQ]⟩,
  ⟨0xA0088, [], [R.TMG_A_DELAY_DDOWN]⟩,
  ⟨0xA0090, [], [R.TMG_B_CFG_SRC, R.TMG_B_CFG_FREQ_IN_EN, R.TMG_B_CFG_PPS_POL, R.TMG_B_CFG_PORT, R.TMG_B_CFG_QUAL, R.TMG_B_CFG_LOSS_TO, R.TMG_B_CFG_CLASS_LOCKED]⟩,
  ⟨0xA0094, [], [R.TMG_B_PPS_DELAY, R.TMG_B_PPS_MINW, R.TMG_B_PPS_STUCK]⟩,
  ⟨0xA0098, [], [R.TMG_B_MEAS_LO_OFS]⟩,
  ⟨0xA009C, [], [R.TMG_B_MEAS_HI_OFS, R.TMG_B_MEAS_HI_INVALID, R.TMG_B_MEAS_HI_GO]⟩,
  ⟨0xA00A0, [], [R.TMG_PPSIN_STAT_PRESENT, R.TMG_PPSIN_STAT_STUCK, R.TMG_PPSIN_STAT_TOD_OK, R.TMG_PPSIN_STAT_FREQ_OK, R.TMG_PPSIN_STAT_QUAL_CNT]⟩,
  ⟨0xA00B0, [], [R.TMG_OUT_CFG_FREQ_EN, R.TMG_OUT_CFG_FREQ_SQ, R.TMG_OUT_CFG_TOD_EN, R.TMG_OUT_CFG_SYNCE_EN]⟩]
def famList_tmg_b : List Family := [
  ⟨0xA00BC, [], [R.TMG_CLASS_HOLD_IN, R.TMG_CLASS_HOLD_OUT, R.TMG_CLASS_FREE, R.TMG_CLASS_VIG_LIMIT]⟩,
  ⟨0xA00C0, [], [R.TMG_QL_LOCKED_A, R.TMG_QL_LOCKED_B, R.TMG_QL_HOLD_IN, R.TMG_QL_HOLD_OUT, R.TMG_QL_FREE]⟩,
  ⟨0xA00D0, [], [R.TMG_VIG_STAT_LEARN_H, R.TMG_VIG_STAT_LEARNED]⟩,
  ⟨0xA00D4, [], [R.TMG_VIG_TIME_SEC]⟩,
  ⟨0xA00D8, [], [R.TMG_VIG_EST_EST]⟩,
  ⟨0xA00DC, [], [R.TMG_OSC_STAT_PRIMARY, R.TMG_OSC_STAT_SECONDARY, R.TMG_OSC_STAT_SPARE, R.TMG_OSC_STAT_DISAGREE, R.TMG_OSC_STAT_FAULT]⟩,
  ⟨0xA0040, [(0x20, 2)], [R.TMG_DOM_STAT_DSTATE, R.TMG_DOM_STAT_REF_OK, R.TMG_DOM_STAT_CAUSE, R.TMG_DOM_STAT_LOCK_CNT]⟩,
  ⟨0xA0044, [(0x20, 2)], [R.TMG_DOM_OFS_THETA]⟩,
  ⟨0xA0048, [(0x20, 2)], [R.TMG_DOM_FREQ_S]⟩,
  ⟨0xA004C, [(0x20, 2)], [R.TMG_SERVO_CFG_BW, R.TMG_SERVO_CFG_DAMP]⟩,
  ⟨0xA0050, [(0x20, 2)], [R.TMG_SERVO_LIM_LOCK_THR, R.TMG_SERVO_LIM_LOCK_N, R.TMG_SERVO_LIM_STEP_THR]⟩,
  ⟨0xA00B4, [(0x4, 2)], [R.TMG_PPSOUT_CFG_EN, R.TMG_PPSOUT_CFG_SQ, R.TMG_PPSOUT_CFG_POL, R.TMG_PPSOUT_CFG_WIDTH, R.TMG_PPSOUT_CFG_ADV]⟩,
  ⟨0xA0100, [(0x40, 2), (0x4, 16)], [R.TMG_A_EPACT_EPACT]⟩,
  ⟨0xA1000, [(0x10, 128)], [R.TMG_PTP_CFG_ROLE, R.TMG_PTP_CFG_DA, R.TMG_PTP_CFG_ESMC_EN, R.TMG_PTP_CFG_DOMAIN]⟩,
  ⟨0xA1004, [(0x10, 128)], [R.TMG_PTP_RATE_LOG_SYNC, R.TMG_PTP_RATE_LOG_ANN, R.TMG_PTP_RATE_LOG_DREQ]⟩,
  ⟨0xA1008, [(0x10, 128)], [R.TMG_PTP_STAT_SEQ, R.TMG_PTP_STAT_SLAVE]⟩]
def famList_tmg : List Family := famList_tmg_a ++ famList_tmg_b

def famList_prt_a : List Family := [
  ⟨0xC0000, [(0x400, 128)], [R.PRT_CFG_RATE, R.PRT_CFG_PMD, R.PRT_CFG_ADMIN_DOWN, R.PRT_CFG_RX_PAUSE, R.PRT_CFG_IDLE_EN, R.PRT_CFG_EVT_EN, R.PRT_CFG_FLUSH_TO]⟩,
  ⟨0xC0004, [(0x400, 128)], [R.PRT_STAT_LINK, R.PRT_STAT_LF, R.PRT_STAT_RF, R.PRT_STAT_RX_IDLE, R.PRT_STAT_TX_IDLE, R.PRT_STAT_SEC_ON, R.PRT_STAT_PAUSED, R.PRT_STAT_WD_REL]⟩,
  ⟨0xC0008, [(0x400, 128)], [R.PRT_EVT_LINK_CHG, R.PRT_EVT_FAULT, R.PRT_EVT_PAUSE_WD, R.PRT_EVT_WAKE_FAIL, R.PRT_EVT_SEC_FAIL]⟩,
  ⟨0xC000C, [(0x400, 128)], [R.PRT_MAC_LO_MAC]⟩,
  ⟨0xC0010, [(0x400, 128)], [R.PRT_MAC_HI_MAC]⟩,
  ⟨0xC0014, [(0x400, 128)], [R.PRT_PAUSE_CFG_WD, R.PRT_PAUSE_CFG_RELEASE]⟩,
  ⟨0xC0018, [(0x400, 128)], [R.PRT_IDLE_CFG_HOLD]⟩,
  ⟨0xC001C, [(0x400, 128)], [R.PRT_LOOP_LOOP, R.PRT_LOOP_PRBS_GEN, R.PRT_LOOP_PRBS_CHK, R.PRT_LOOP_PRBS_LOCK]⟩,
  ⟨0xC0020, [(0x400, 128)], [R.PRT_SEC_CFG_SEC_EN, R.PRT_SEC_CFG_VALIDATE, R.PRT_SEC_CFG_SCI_INCL, R.PRT_SEC_CFG_OFFSET]⟩,
  ⟨0xC0034, [(0x400, 128)], [R.PRT_OPT_MON_RX_PWR, R.PRT_OPT_MON_TX_PWR]⟩,
  ⟨0xC0024, [(0x400, 128), (0x4, 4)], [R.PRT_SEC_BYPASS_ETYPE, R.PRT_SEC_BYPASS_VALID]⟩]
def famList_prt : List Family := famList_prt_a

def famList_hst_a : List Family := [
  ⟨0xE0000, [], [R.HST_LANE_CFG_MODE, R.HST_LANE_CFG_FEC_EN, R.HST_LANE_CFG_SSC, R.HST_LANE_CFG_TX_INV, R.HST_LANE_CFG_RX_INV, R.HST_LANE_CFG_RX_MAP]⟩,
  ⟨0xE0004, [], [R.HST_STAT_LINK, R.HST_STAT_MODE_ACT, R.HST_STAT_SSC_DET, R.HST_STAT_SSC_MISMATCH, R.HST_STAT_PAUSED, R.HST_STAT_REFCLK_OFS]⟩,
  ⟨0xE0008, [], [R.HST_MAC_LO_MAC]⟩,
  ⟨0xE000C, [], [R.HST_MAC_HI_MAC]⟩,
  ⟨0xE0400, [], [R.HST_ZCP_CFG_IDLE_TO, R.HST_ZCP_CFG_EVT_HOLDOFF, R.HST_ZCP_CFG_EVT_RETRY]⟩,
  ⟨0xE0404, [], [R.HST_EVT_PEND_PEND]⟩,
  ⟨0xE0408, [], [R.HST_ALERT_EN_EN]⟩,
  ⟨0xE040C, [], [R.HST_ZCP_STAT_OPEN, R.HST_ZCP_STAT_ALERT]⟩,
  ⟨0xE0440, [(0x20, 4)], [R.HST_SESS_STAT_STATE, R.HST_SESS_STAT_ROLE, R.HST_SESS_STAT_OUTSTANDING, R.HST_SESS_STAT_CLOSE_CAUSE]⟩,
  ⟨0xE0444, [(0x20, 4)], [R.HST_SESS_CFG_EVT_SUB, R.HST_SESS_CFG_SP_SUB, R.HST_SESS_CFG_EVT_MASK]⟩,
  ⟨0xE0448, [(0x20, 4)], [R.HST_SESS_KEY_KEYID]⟩]
def famList_hst : List Family := famList_hst_a

def famList_sbs_a : List Family := [
  ⟨0xF0000, [], [R.SBS_CFG_EN, R.SBS_CFG_EVT_EN, R.SBS_CFG_STUCK]⟩,
  ⟨0xF0004, [], [R.SBS_STAT_CARRIER, R.SBS_STAT_QUEUE]⟩,
  ⟨0xF0008, [], [R.SBS_EVT_ALARM, R.SBS_EVT_ALARM_STUCK, R.SBS_EVT_POLL_LOST, R.SBS_EVT_GUARD_HELD]⟩,
  ⟨0xF000C, [], [R.SBS_MAC_LO_MAC]⟩,
  ⟨0xF0010, [], [R.SBS_MAC_HI_MAC]⟩,
  ⟨0xF0014, [], [R.SBS_GUARD_DUTY_MAX, R.SBS_GUARD_DUTY]⟩,
  ⟨0xF0018, [], [R.SBS_ALARM_LO_BITS]⟩,
  ⟨0xF001C, [], [R.SBS_ALARM_HI_BITS]⟩,
  ⟨0xF0020, [], [R.SBS_MASK_LO_BITS]⟩,
  ⟨0xF0024, [], [R.SBS_MASK_HI_BITS]⟩,
  ⟨0xF0400, [(0x20, 64)], [R.SBS_POLL_CFG_EN, R.SBS_POLL_CFG_RETRY, R.SBS_POLL_CFG_TIMEOUT, R.SBS_POLL_CFG_INTERVAL]⟩,
  ⟨0xF0404, [(0x20, 64)], [R.SBS_POLL_DA_LO_DA]⟩,
  ⟨0xF0408, [(0x20, 64)], [R.SBS_POLL_DA_HI_DA, R.SBS_POLL_DA_HI_MINW]⟩,
  ⟨0xF040C, [(0x20, 64)], [R.SBS_POLL_STAT_LOST, R.SBS_POLL_STAT_SEQ]⟩,
  ⟨0xF0410, [(0x20, 64), (0x4, 4)], [R.SBS_POLL_BODY_BYTES]⟩]
def famList_sbs : List Family := famList_sbs_a

def famList_dma_a : List Family := [
  ⟨0x100000, [(0x80, 64)], [R.DMA_CH_CFG_EN, R.DMA_CH_CFG_TRIG, R.DMA_CH_CFG_PRIO, R.DMA_CH_CFG_EVT_EN, R.DMA_CH_CFG_OWNER, R.DMA_CH_CFG_REQ, R.DMA_CH_CFG_SIZE_LOG2]⟩,
  ⟨0x100004, [(0x80, 64)], [R.DMA_CH_RING_RING4K]⟩,
  ⟨0x100008, [(0x80, 64)], [R.DMA_CH_TAIL_TAIL]⟩,
  ⟨0x10000C, [(0x80, 64)], [R.DMA_CH_HEAD_HEAD]⟩,
  ⟨0x100010, [(0x80, 64)], [R.DMA_CH_CTRL_STOP, R.DMA_CH_CTRL_START, R.DMA_CH_CTRL_RESET_RING]⟩,
  ⟨0x100014, [(0x80, 64)], [R.DMA_CH_STAT_STATE, R.DMA_CH_STAT_PENDING, R.DMA_CH_STAT_DONE, R.DMA_CH_STAT_ERROR, R.DMA_CH_STAT_LAST_STATUS]⟩,
  ⟨0x100018, [(0x80, 64)], [R.DMA_CH_TIMER_PERIOD]⟩,
  ⟨0x102000, [], [R.DMA_SWREQ_REQ]⟩]
def famList_dma : List Family := famList_dma_a

def famList_mcu_a : List Family := [
  ⟨0x110000, [], [R.MCU_CTRL_HALT, R.MCU_CTRL_EVT_EN, R.MCU_CTRL_PRE_TO]⟩,
  ⟨0x110004, [], [R.MCU_STAT_ACTIVE, R.MCU_STAT_SWAPPING, R.MCU_STAT_READY]⟩,
  ⟨0x110008, [], [R.MCU_TICK_TICK]⟩,
  ⟨0x11000C, [], [R.MCU_TICK_NOW_NOW]⟩,
  ⟨0x110010, [], [R.MCU_HOST_CMD_CMD]⟩,
  ⟨0x110014, [], [R.MCU_SWSRC_SET]⟩,
  ⟨0x110018, [], [R.MCU_SPARE_CMD_CORE, R.MCU_SPARE_CMD_GO]⟩,
  ⟨0x11001C, [], [R.MCU_SPARE_STAT_STATE, R.MCU_SPARE_STAT_PHYS]⟩,
  ⟨0x110020, [], [R.MCU_TRACE_CFG_EN, R.MCU_TRACE_CFG_SIZE_LOG2, R.MCU_TRACE_CFG_KINDS]⟩,
  ⟨0x110024, [], [R.MCU_TRACE_BASE_BASE4K]⟩,
  ⟨0x110028, [], [R.MCU_TRACE_WR_INDEX]⟩,
  ⟨0x110100, [(0x4, 64)], [R.MCU_SRC_BIND_TASK, R.MCU_SRC_BIND_EN, R.MCU_SRC_BIND_PEND]⟩,
  ⟨0x110400, [(0x10, 49)], [R.MCU_WQ_BASE_BASE4K]⟩,
  ⟨0x110404, [(0x10, 49)], [R.MCU_WQ_HEAD_INDEX]⟩,
  ⟨0x110408, [(0x10, 49)], [R.MCU_WQ_TAIL_INDEX]⟩,
  ⟨0x11040C, [(0x10, 49)], [R.MCU_WQ_CFG_EN, R.MCU_WQ_CFG_SIZE_LOG2]⟩,
  ⟨0x110800, [(0x20, 16)], [R.MCU_CORE_CFG_RUN_MAX, R.MCU_CORE_CFG_AFF_DEPTH]⟩,
  ⟨0x110804, [(0x20, 16)], [R.MCU_CORE_STAT_STATE, R.MCU_CORE_STAT_PHYS, R.MCU_CORE_STAT_TASK]⟩,
  ⟨0x110808, [(0x20, 16)], [R.MCU_CORE_FAULT_STATUS, R.MCU_CORE_FAULT_STORE, R.MCU_CORE_FAULT_VALID]⟩,
  ⟨0x11080C, [(0x20, 16)], [R.MCU_CORE_FAULT_ADDR_ADDR]⟩,
  ⟨0x110810, [(0x20, 16)], [R.MCU_CORE_DDRWIN0_GIB]⟩,
  ⟨0x110814, [(0x20, 16)], [R.MCU_CORE_DDRWIN1_GIB]⟩,
  ⟨0x111000, [(0x10, 512)], [R.MCU_TASK_CFG_PRIO, R.MCU_TASK_CFG_IMG, R.MCU_TASK_CFG_SERVICE, R.MCU_TASK_CFG_VALID, R.MCU_TASK_CFG_AFFINITY]⟩,
  ⟨0x111004, [(0x10, 512)], [R.MCU_TASK_STAT_STATE, R.MCU_TASK_STAT_FAULT, R.MCU_TASK_STAT_LAST, R.MCU_TASK_STAT_ACT_PEND]⟩]
def famList_mcu_b : List Family := [
  ⟨0x111008, [(0x10, 512)], [R.MCU_TASK_ENTRY_VALUE]⟩,
  ⟨0x11100C, [(0x10, 512)], [R.MCU_TASK_ARG_VALUE]⟩]
def famList_mcu : List Family := famList_mcu_a ++ famList_mcu_b

def famList_sec_a : List Family := [
  ⟨0x120000, [], [R.SEC_STAT_DEBUG_LOCKED, R.SEC_STAT_ID_READY, R.SEC_STAT_ENT_OK, R.SEC_STAT_SCAN_EN, R.SEC_STAT_ROOT_VALID]⟩,
  ⟨0x120004, [], [R.SEC_EVT_ALARM, R.SEC_EVT_ENT_FAIL, R.SEC_EVT_TAG_ALARM, R.SEC_EVT_PN_NEAR, R.SEC_EVT_DONE, R.SEC_EVT_BOOT_HALT]⟩,
  ⟨0x120008, [], [R.SEC_CFG_EVT_EN, R.SEC_CFG_REPLAY_WIN]⟩,
  ⟨0x120010, [], [R.SEC_ALARM_STAT_ACTIVE, R.SEC_ALARM_STAT_RELEASE, R.SEC_ALARM_STAT_MASKED, R.SEC_ALARM_STAT_FIRST, R.SEC_ALARM_STAT_ERASED]⟩,
  ⟨0x120020, [], [R.SEC_BOOT_STAT_STAGE, R.SEC_BOOT_STAT_BANK, R.SEC_BOOT_STAT_CAUSE, R.SEC_BOOT_STAT_ROM_REV]⟩,
  ⟨0x120024, [], [R.SEC_BOOT_CTRL_RETRY]⟩,
  ⟨0x120034, [], [R.SEC_FW_CAND_LEN_LEN]⟩,
  ⟨0x120038, [], [R.SEC_FW_CAND_CTRL_VERIFY, R.SEC_FW_CAND_CTRL_STATE, R.SEC_FW_CAND_CTRL_CAUSE]⟩,
  ⟨0x120040, [], [R.SEC_FUSE_CTRL_GROUP, R.SEC_FUSE_CTRL_GO, R.SEC_FUSE_CTRL_BUSY, R.SEC_FUSE_CTRL_RESULT]⟩,
  ⟨0x120050, [], [R.SEC_FLASH_CTRL_OP, R.SEC_FLASH_CTRL_GO, R.SEC_FLASH_CTRL_BUSY, R.SEC_FLASH_CTRL_RESULT]⟩,
  ⟨0x120054, [], [R.SEC_FLASH_ADDR_ADDR]⟩,
  ⟨0x120058, [], [R.SEC_FLASH_DDR_ADDR4K]⟩,
  ⟨0x120060, [], [R.SEC_DEBUG_EN]⟩,
  ⟨0x120070, [], [R.SEC_MK_CTRL_OP, R.SEC_MK_CTRL_GO, R.SEC_MK_CTRL_BUSY, R.SEC_MK_CTRL_RESULT]⟩,
  ⟨0x120074, [], [R.SEC_MK_ADDR_ADDR4K]⟩,
  ⟨0x120100, [], [R.SEC_MEAS_CNT_COUNT]⟩,
  ⟨0x120200, [], [R.SEC_KEY_CTRL_TARGET, R.SEC_KEY_CTRL_GO, R.SEC_KEY_CTRL_RESULT]⟩,
  ⟨0x120204, [], [R.SEC_KEY_SEL_INDEX, R.SEC_KEY_SEL_PORT, R.SEC_KEY_SEL_AN, R.SEC_KEY_SEL_SC, R.SEC_KEY_SEL_ETARGET]⟩,
  ⟨0x120280, [], [R.SEC_VLT_CTRL_OP, R.SEC_VLT_CTRL_SLOT, R.SEC_VLT_CTRL_GO, R.SEC_VLT_CTRL_BUSY, R.SEC_VLT_CTRL_RESULT]⟩,
  ⟨0x120028, [], [R.SEC_BOOT_ADDR_ADDR4K]⟩,
  ⟨0x120030, [], [R.SEC_FW_CAND_ADDR_ADDR4K]⟩,
  ⟨0x120080, [(0x4, 16)], [R.SEC_FUSE_DATA_DATA]⟩,
  ⟨0x1200C0, [(0x4, 16)], [R.SEC_MEAS_M]⟩,
  ⟨0x120210, [(0x4, 8)], [R.SEC_KEY_DATA_KEY]⟩]
def famList_sec_b : List Family := [
  ⟨0x120230, [(0x4, 6)], [R.SEC_KEY_AUX_AUX]⟩,
  ⟨0x120290, [(0x4, 4)], [R.SEC_VLT_IN_BLOCK]⟩,
  ⟨0x1202A0, [(0x4, 4)], [R.SEC_VLT_OUT_BLOCK]⟩,
  ⟨0x120400, [(0x4, 256)], [R.SEC_FUSE_READ_BITS]⟩,
  ⟨0x120800, [(0x4, 255)], [R.SEC_KIDX_STAT_DOWN, R.SEC_KIDX_STAT_UP, R.SEC_KIDX_STAT_DISABLED, R.SEC_KIDX_STAT_TAG_ALARM]⟩,
  ⟨0x121000, [(0x4, 648)], [R.SEC_ID_PUB_KEY]⟩,
  ⟨0x121C00, [(0x4, 128)], [R.SEC_MS_STAT_TX_AN, R.SEC_MS_STAT_TX_SA, R.SEC_MS_STAT_PN_NEAR, R.SEC_MS_STAT_PN_EXH, R.SEC_MS_STAT_RX_SA]⟩]
def famList_sec : List Family := famList_sec_a ++ famList_sec_b

def famList_pwr_a : List Family := [
  ⟨0x130000, [], [R.PWR_STAT_FAILED, R.PWR_STAT_COMPLETE]⟩,
  ⟨0x130004, [], [R.PWR_EVT_DOM_CHG, R.PWR_EVT_REFUSED, R.PWR_EVT_FAIL, R.PWR_EVT_THROTTLE, R.PWR_EVT_CP_RANGE, R.PWR_EVT_WAKE_STUCK]⟩,
  ⟨0x130008, [], [R.PWR_CFG_EVT_EN]⟩,
  ⟨0x13000C, [], [R.PWR_WAKE_SET_MASK]⟩,
  ⟨0x130010, [(0x4, 4)], [R.PWR_WAKE_CFG_EN, R.PWR_WAKE_CFG_POL, R.PWR_WAKE_CFG_RESTART, R.PWR_WAKE_CFG_STUCK, R.PWR_WAKE_CFG_MINW, R.PWR_WAKE_CFG_DOMAINS]⟩,
  ⟨0x130020, [], [R.PWR_WAKE_STAT_LEVEL, R.PWR_WAKE_STAT_MASKED]⟩,
  ⟨0x130040, [(0x10, 4)], [R.PWR_RGN_OP_TARGET, R.PWR_RGN_OP_CUR, R.PWR_RGN_OP_BUSY, R.PWR_RGN_OP_PEND, R.PWR_RGN_OP_PEND_V]⟩,
  ⟨0x130044, [(0x10, 4)], [R.PWR_RGN_STAT_VOLT_MV, R.PWR_RGN_STAT_CAP]⟩,
  ⟨0x130048, [(0x10, 4)], [R.PWR_RGN_MAN_VOLT_MV, R.PWR_RGN_MAN_CAP]⟩,
  ⟨0x130080, [(0x4, 7)], [R.PWR_TEMP_T]⟩,
  ⟨0x130100, [(0x20, 17)], [R.PWR_DOM_REQ_TARGET]⟩,
  ⟨0x130104, [(0x20, 17)], [R.PWR_DOM_STAT_PSTATE, R.PWR_DOM_STAT_BUSY, R.PWR_DOM_STAT_IN_FLIGHT, R.PWR_DOM_STAT_PEND_V, R.PWR_DOM_STAT_PEND, R.PWR_DOM_STAT_ATTEMPT, R.PWR_DOM_STAT_RESTORED]⟩,
  ⟨0x130108, [(0x20, 17)], [R.PWR_DOM_REFUSE_REFUSER, R.PWR_DOM_REFUSE_REF_UNIT]⟩,
  ⟨0x13010C, [(0x20, 17)], [R.PWR_DOM_CTRL_CLEAR]⟩,
  ⟨0x130400, [(0x4, 32)], [R.PWR_ISL_HOLD_HOLD_P, R.PWR_ISL_HOLD_HOLD_S, R.PWR_ISL_HOLD_P_STATE, R.PWR_ISL_HOLD_S_STATE]⟩]
def famList_pwr : List Family := famList_pwr_a

def famList_chip_a : List Family := [
  ⟨0x0, [], [R.CHIP_ID_PART, R.CHIP_ID_GRADE, R.CHIP_ID_REV]⟩,
  ⟨0x4, [(0x4, 3)], [R.CHIP_SERIAL_BYTES]⟩,
  ⟨0x10, [], [R.CHIP_MAC_LO_MAC]⟩,
  ⟨0x14, [], [R.CHIP_MAC_HI_MAC]⟩,
  ⟨0x18, [], [R.CHIP_CLKID_LO_ID]⟩,
  ⟨0x1C, [], [R.CHIP_CLKID_HI_ID]⟩,
  ⟨0x20, [], [R.CHIP_STAT_MODE, R.CHIP_STAT_ALM, R.CHIP_STAT_FATAL, R.CHIP_STAT_HOST_WAIT, R.CHIP_STAT_QUAR, R.CHIP_STAT_REGION_OK, R.CHIP_STAT_BLOCKS_LOST, R.CHIP_STAT_ENG_LOST]⟩,
  ⟨0x24, [], [R.CHIP_EVT_REGION_CHG, R.CHIP_EVT_BLOCK_CHG]⟩,
  ⟨0x28, [], [R.CHIP_CFG_EVT_EN]⟩,
  ⟨0x2C, [], [R.CHIP_RESET_CAUSE, R.CHIP_RESET_WARM_CNT]⟩,
  ⟨0x30, [], [R.CHIP_BLOCK_OK_OK]⟩,
  ⟨0x40, [(0x4, 4)], [R.CHIP_REGION_STAT_STATE, R.CHIP_REGION_STAT_BLOCKS, R.CHIP_REGION_STAT_ENGINES, R.CHIP_REGION_STAT_SPARE_ENG]⟩,
  ⟨0x50, [], [R.CHIP_SCRATCH_VALUE]⟩]
def famList_chip : List Family := famList_chip_a

def famList_mem_a : List Family := [
  ⟨0x150000, [], [R.MEM_DDR_STAT_TRAINED, R.MEM_DDR_STAT_DIMMS, R.MEM_DDR_STAT_RANKS, R.MEM_DDR_STAT_RATE, R.MEM_DDR_STAT_CAP]⟩,
  ⟨0x150004, [], [R.MEM_DDR_CFG_SCRUB_H, R.MEM_DDR_CFG_SPARE_RANK, R.MEM_DDR_CFG_EVT_EN]⟩,
  ⟨0x150008, [], [R.MEM_HBM_STAT_TRAINED, R.MEM_HBM_STAT_REMAPPED]⟩,
  ⟨0x15000C, [], [R.MEM_EVT_DDR_UNCORR, R.MEM_EVT_HBM_UNCORR]⟩,
  ⟨0x150010, [], [R.MEM_ERR_LO_ADDR]⟩,
  ⟨0x150014, [], [R.MEM_ERR_HI_ADDR]⟩]
def famList_mem : List Family := famList_mem_a

/-- Counter families (R111, R112): live base, latched base, (stride, count) of each index, number of counters. -/
def ctrFamsA : List CtrFamily := [
  ⟨0x20100, 0x20200, [(0x1000, 16)], 23⟩,
  ⟨0x20500, 0x20600, [(0x1000, 16)], 17⟩,
  ⟨0x40400, 0x40600, [], 44⟩,
  ⟨0x41000, 0x41080, [(0x100, 32)], 16⟩,
  ⟨0x58100000, 0x58100020, [(0x40, 32768)], 4⟩,
  ⟨0x58380010, 0x58380020, [(0x40, 16384)], 2⟩,
  ⟨0x68000, 0x68080, [(0x100, 32)], 11⟩,
  ⟨0x80080, 0x80100, [(0x400, 96)], 14⟩,
  ⟨0x98010, 0x98080, [(0x100, 96)], 10⟩,
  ⟨0x65000000, 0x65000040, [(0x80, 4096)], 6⟩,
  ⟨0x9F000, 0x9F008, [], 1⟩,
  ⟨0xA0200, 0xA0300, [], 22⟩]
def ctrFamsB : List CtrFamily := [
  ⟨0xC0100, 0xC0200, [(0x400, 128)], 24⟩,
  ⟨0xE0100, 0xE0200, [], 11⟩,
  ⟨0xF0100, 0xF0200, [], 13⟩,
  ⟨0xE0500, 0xE0600, [], 12⟩,
  ⟨0x100040, 0x100060, [(0x80, 64)], 4⟩,
  ⟨0x113000, 0x113100, [], 9⟩,
  ⟨0x122000, 0x122800, [(0x8, 255)], 1⟩,
  ⟨0x123000, 0x123100, [], 11⟩,
  ⟨0x131000, 0x131080, [(0x100, 17)], 9⟩,
  ⟨0x133000, 0x133040, [(0x80, 32)], 6⟩,
  ⟨0x136000, 0x136040, [], 3⟩,
  ⟨0x150100, 0x150200, [], 6⟩]
def ctrFams : List CtrFamily := ctrFamsA ++ ctrFamsB

end Sys2Proof.Machine
end

