-- ==== Sys2Proof/Machine/State.lean ====
section
/-! DEFINITION. The state of the terminal as plain data: the chip (every register, counter, queue, buffer, machine state and
pin that the spec gives it), its two addressed memories, and the queue of commands that wait. -/

namespace Sys2Proof.Machine

/-- What an output of the terminal is. -/
inductive OutKind where
  /-- a ZCP frame to the host under the keys of a session (R330), a clear ZCP frame (R334), a slow-path PACKET (R345) -/
  | zcp | zcpClear | packet
  /-- a frame sent on a local port (stomped or whole), a PFC or PAUSE frame, a wake burst, a Sync, an ESMC PDU -/
  | portFrame | pauseFrame | wakeBurst | syncFrame | esmcPdu
  /-- a trunk burst, and the trunk laser gate of a channel opening and shutting -/
  | burst | gateOpen | gateShut
  /-- a frame stomped after part of it was handed on (glossary, R37) -/
  | stomp
  /-- an edge of PPS_OUT, a TOD_TX message, the transmit stamp of a frame of a port with ROLE 2 (R300) -/
  | ppsEdge | todMsg | txStamp
  /-- a sensor-bus frame -/
  | sbusFrame
  /-- a frame handed to the management cores, a timer or scheduler interrupt, a completion of the scheduler -/
  | coreFrame | coreIrq | schedResult
  /-- an output IQ frame leaving for its port or pipeline, a word read by the host -/
  | iqFrame | readWord
  /-- the answer to a register write that a row of the table states on its own: its ZCP status -/
  | answer
  /-- a copy made by a hardware engine between units (core swap, memory sparing) -/
  | copied
deriving DecidableEq, Repr

/-- One thing that left the terminal or a unit of it, in the model's own record: kind, unit, numbers, bytes. -/
structure Output where
  kind : OutKind
  unit : Nat
  data : List Nat
  bytes : List Byte
deriving DecidableEq, Repr

/-! ## Structure, errors and spares (01_architecture.md) -/

/-- An error on its way to a level's record (R31 to R34): code, SOURCE, ORIGIN, severity, time, attempts, DETAIL, and how many of its
replays at the block that handles it fail (R32). -/
structure Err where
  code : Nat
  src : Nat
  origin : Nat
  sev : Nat
  ns : Nat
  frac : Nat
  attempts : Nat
  detail : Nat
  fails : Nat
deriving DecidableEq, Repr

/-- A quarantined cell whose spare takes over at the second Octave boundary (R37). -/
structure Takeover where
  blk : Nat
  cell : Nat
  spare : Nat
  boundaries : Nat
deriving DecidableEq, Repr

/-- What the structure chapter gives the machine beside its registers. -/
structure StructSt where
  /-- consecutive windows below the required pace, of each region (R22) -/
  belowRun : Tab Nat
  /-- consecutive windows not below, of each region (R22) -/
  aboveRun : Tab Nat
  /-- the 10 µs window of L completed last, of each region (R20) -/
  paceAt : Tab Nat
  /-- failing replays of the error that waits in LATEST, of each record (R32, R34) -/
  waitFails : Tab Nat
  /-- bit b: block b is excluded by the fabric (R39, R415) -/
  exclBlocks : Nat
  /-- bit n: region n is lost (R473) -/
  lostRegions : Nat
  /-- port cell that serves slot j of block b, under key 4b + j; 15 for none (R14) -/
  slotCell : Tab Nat
  /-- pipeline cell of each of the two roles of block b, under 2b + r; 15 for none (R39, R152) -/
  pipeCell : Tab Nat
  /-- sample cell that serves the flows of cell x; 255 for none (R39) -/
  smpServe : Tab Nat
  /-- role that takes the next frame of a source (R152) -/
  alt : Tab Nat
  /-- cells waiting for the take-over of their spare (R37) -/
  takeovers : List Takeover
  /-- engine that serves wavelength k: k by default, 16 the spare, 31 none (R13, R32) -/
  engineOf : Tab Nat
  /-- bit e: trunk engine e is lost (0 to 16) -/
  engLost : Nat
  /-- chip units taken out of service (R473): unit kind and index -/
  unitsLost : List (Nat × Nat)
  /-- bit x: sample cell x does not serve (R39, R415) -/
  smpLost : Nat
  /-- frames stomped or dropped by a quarantine, of each cell under 16b + c (R37) -/
  cellDrops : Tab Nat
deriving DecidableEq, Repr

/-- The structure part after reset. -/
def StructSt.reset : StructSt :=
  { belowRun := [], aboveRun := [], paceAt := [], waitFails := [], exclBlocks := 0, lostRegions := 0, slotCell := [], pipeCell := [], smpServe := [], alt := [], takeovers := [], engineOf := [],
    engLost := 0, unitsLost := [], smpLost := 0, cellDrops := [] }

/-! ## The Almanac and transactions (02_almanac.md) -/

/-- Who opened a transaction: a host session, the loader for a delta or a JUBILEE candidate, or a swap (R66, R70, R434). -/
inductive TxnOrigin where
  | host | delta | jubilee | swap
deriving DecidableEq, Repr

/-- An open or pending transaction of a slot (R70, R72). -/
structure Txn where
  slot : Nat
  seq : Nat
  /-- session that owns it; 4 for the terminal itself -/
  owner : Nat
  origin : TxnOrigin
  /-- COMMIT has named its point -/
  pending : Bool
  /-- staged writes, oldest first: address and data -/
  writes : List (Nat × Nat)
  /-- POINT_KIND of R72 -/
  kind : Nat
  /-- Octave number of the point, or its local time in µs for POINT_KIND 2 -/
  value : Nat
  /-- arrival order of COMMIT, for CONFLICT (R75) -/
  order : Nat
  notify : Bool
deriving DecidableEq, Repr

/-- A completed transaction whose status is still readable (R77). -/
structure TxnDone where
  id : Nat
  owner : Nat
  /-- 3 COMMITTED, 4 ABORTED -/
  state : Nat
  cause : Nat
  kind : Nat
  writes : Nat
  octave : Nat
  addr : Nat
  time : Nat
deriving DecidableEq, Repr

/-- A write held by an open hand-over window (R81): address, data, session. -/
structure HeldWrite where
  addr : Nat
  data : Nat
  sess : Nat
deriving DecidableEq, Repr

/-- The content a load has prepared (R66, R68): objects under RTYPE × 65,536 + INSTANCE, the words of its table runs under
stage × 2^32 + byte offset, for each section its type, REPLACE flag and generation, the objects it names, its CHAIN digest
and the key slot of its signer. -/
structure Prepared where
  full : Bool
  gen : Nat
  base : Nat
  objs : Tab (List Byte)
  words : Tab Nat
  sects : List (Nat × Bool × Nat)
  named : List Nat
  chain : List Byte
  slot : Nat
deriving DecidableEq, Repr

/-- The loader (R64 to R66). -/
structure Loader where
  /-- session that wrote START -/
  sess : Nat
  /-- DDR5 byte address of the image -/
  addr : Nat
  len : Nat
  /-- SRC of the START: 0 DDR5, 1 and 2 the flash banks -/
  src : Nat
  full : Bool
  prep : Option Prepared
  /-- step 4 waits for a transaction slot -/
  waiting : Bool
  /-- a CANCEL was written -/
  cancelled : Bool
  /-- domains the loader has brought up in PREPARING (R422) -/
  domains : List Nat
  /-- instant the present step of R66 began, ps -/
  at_ : Nat
  /-- window ranges (first address, bytes) and shadow registers (key, width) that hold prepared content, undefined after an
  abort (R68) -/
  region : List (Nat × Nat)
  shadow : List (Nat × Nat)
  /-- the bank that holds what is prepared: of lookup stage s under s, of the programs of sample cell x under 16 + x -/
  banks : Tab Nat
  deriving DecidableEq, Repr

/-- The commit engine, the loader and the objects in force. -/
structure AlmSt where
  /-- SEQ of the latest use of each slot (R70) -/
  slotSeq : Tab Nat
  txns : List Txn
  /-- completed transactions, newest first, at most 256 (R77) -/
  done : List TxnDone
  /-- COMMIT messages taken so far -/
  orders : Nat
  /-- hand-over window of the next Octave boundary is open (R78) -/
  window : Bool
  held : List HeldWrite
  load : Loader
  /-- objects of the active Almanac, as changed by deltas -/
  active : Tab (List Byte)
  /-- generation at which each section of the active Almanac was last set -/
  sectGen : Tab Nat
  /-- the JUBILEE candidate kept through a change of mode (R66, R86) -/
  cand : Option Prepared
  /-- the old generation still held until its rule generation drains (R83 step 6) -/
  oldHeld : Bool
  /-- number of the Octave boundary last produced, and whether it is known (R73) -/
  octave : Nat
  /-- instant of the last Octave boundary, ps -/
  octAt : Nat
  /-- ranges of the table window whose content is undefined (R68): first address, bytes, number of the first free value -/
  undef : List (Nat × Nat × Nat)
  /-- key slot of the signer of the last full or JUBILEE Almanac (R386); 255 for none -/
  keySlot : Nat
deriving DecidableEq, Repr

/-- The commit engine and the loader after reset. -/
def AlmSt.reset : AlmSt :=
  { slotSeq := [], txns := [], done := [], orders := 0, window := false, held := [],
    load := { sess := 4, addr := 0, len := 0, src := 0, full := false, prep := none, waiting := false, cancelled := false, domains := [], at_ := 0, region := [], shadow := [], banks := [] },
    active := [], sectGen := [], cand := none, oldHeld := false, octave := 0, octAt := 0, undef := [],
    keySlot := 255 }

/-! ## Trunk downstream (03_trunk_downstream.md) -/

/-- A PSYNC candidate (R98): bit position of its last match, consecutive tests passed. -/
structure Cand where
  pos : Nat
  passes : Nat
deriving DecidableEq, Repr

/-- An open frame of a wavelength (R106): its port tag and key index, the instant of its first fragment, the SFC and offset of its
first header (R105), the bytes of unit data so far as they were carried, without the tag, plaintext not yet handed to the core, the
number of its frame once it is there; `skip`: it was closed as failed and its other fragments are discarded (log entry 28). -/
structure OpenFrame where
  tag : Nat
  key : Nat
  start : Nat
  sfc : Nat
  off : Nat
  wire : List Byte
  data : List Byte
  id : Option Nat
  skip : Bool
  /-- L at its first fragment in 2⁻¹⁶ ns, and whether the stamp was taken (R26) -/
  ts : Int
  tsOk : Bool
deriving DecidableEq, Repr

/-- A message slot queued for the management cores (R97): wavelength, index, slot bytes, SFC and REV of its frame. -/
structure MsgSlot where
  wl : Nat
  index : Nat
  bytes : List Byte
  sfc : Nat
  rev : Nat
deriving DecidableEq, Repr

/-- What an engine holds for its wavelength beside its registers. -/
structure Eng where
  /-- start-up step of R93: 0 off, 1 oscillator, 2 DSP, 3 hunt, 4 candidate, 5 sync, 6 done; the instant it began, ps -/
  step : Nat
  at_ : Nat
  /-- COLD was written: the next acquisition is cold (R91) -/
  forceCold : Bool
  cands : List Cand
  /-- consecutive PSYNC misses in SYNC (R98) -/
  misses : Nat
  /-- predicted SFC of the next frame (R99, R100) -/
  sfc : Option Nat
  /-- an SFC that differed, waiting for the next good header (R100) -/
  jump : Option Nat
  /-- consecutive good headers with AIS 1, with AIS 0 (R108) -/
  aisRun : Nat
  clearRun : Nat
  /-- consecutive good headers since SYNC (R93 step 5, R117) -/
  good : Nat
  /-- Octave boundaries since the last RDI message with state 1, the first of which ends an Octave that held it (R108) -/
  rdiOct : Nat
  /-- bytes of the trace window in progress (R107) and the runs of differing and matching windows -/
  trace : List Byte
  traceBad : Nat
  traceGood : Nat
  /-- delineation (R102): position in PAYLOAD of the next header, none when lost -/
  delin : Option Nat
  frames : List OpenFrame
  msgs : List MsgSlot
  /-- the frame in process: its SFC and arrival instant t_arr, whether its grant map may be used -/
  frSfc : Nat
  frAt : Nat
  frGrants : Bool
  frCount : Nat
  frRev : Nat
deriving DecidableEq, Repr

/-- A channel monitor's running counts (R109): Octave boundaries since the last marker and since the last unit or grant, the first of
which ends an Octave that held it; errored frames and units of this second. -/
structure Mon where
  ais : Nat
  idle : Nat
  errs : Nat
  units : Nat
deriving DecidableEq, Repr

/-- The downstream side of the trunk. -/
structure DsSt where
  /-- engine of each wavelength -/
  eng : Tab Eng
  mon : Tab Mon
  /-- watch receiver (R89): wavelengths found OK in the running cycle, whether a complete cycle exists, and its end -/
  watchOk : Nat
  cycleDone : Bool
  cycleAt : Nat
  /-- start of the present visit, ps -/
  visitAt : Nat
  parked : Option Nat
  /-- protection (R113, R114): step of the switch (0 none), its start, the side failure's start, end of the 1 s hold,
  request waiting, instant from which the TRUNK_SIDE side has been healthy -/
  apsStep : Nat
  apsAt : Nat
  apsFailAt : Option Nat
  apsHoldEnd : Nat
  apsHealthyAt : Option Nat
  lockout : Bool
  /-- seconds field of local time at the last latch (R111) -/
  latchSec : Nat
  /-- the 10 ms in which the monitors of each wavelength were last refreshed, counted from instant 0 (R115) -/
  monAt : Tab Nat
deriving DecidableEq, Repr

/-- An engine that is switched off. -/
def Eng.reset : Eng :=
  { step := 0, at_ := 0, forceCold := false, cands := [], misses := 0, sfc := none, jump := none, aisRun := 0, clearRun := 0,
    good := 0, rdiOct := 0, trace := [], traceBad := 0, traceGood := 0, delin := none, frames := [], msgs := [],
    frSfc := 0, frAt := 0, frGrants := false, frCount := 0, frRev := 0 }

/-- The downstream side after reset. -/
def DsSt.reset : DsSt :=
  { eng := [], mon := [], watchOk := 0, cycleDone := false, cycleAt := 0, visitAt := 0, parked := none, apsStep := 0, apsAt := 0,
    apsFailAt := none, apsHoldEnd := 0, apsHealthyAt := none, lockout := false, latchSec := 0, monAt := [] }

/-! ## Packet pipelines (05_packet_pipeline.md) -/

/-- A frame inside the core: its bytes from the destination address up to its FCS, which is not kept, as far as they have
arrived. -/
structure Frame where
  /-- the model's own number of the frame, in order of arrival -/
  id : Nat
  bytes : List Byte
  /-- length including FCS, MAX_FRAME while it is not known (R474) -/
  len : Nat
  known : Bool
  /-- 0 local port, 1 trunk, 2 sample cell; SRC_WL and SRC of R155 -/
  origin : Nat
  wl : Nat
  src : Nat
  /-- block of the pass and of the buffer slice (R185) -/
  blk : Nat
  pass : Nat
  /-- rule generation (R177) -/
  gen : Nat
  /-- the metadata bus (R155) -/
  bus : Nat
  /-- arrival stamp, and whether it is valid (R26) -/
  tsNs : Nat
  tsFrac : Nat
  tsOk : Bool
  /-- entering the pipeline: no pass of it has begun yet, or the frame was produced by a sample cell (R176) -/
  entry : Bool
  /-- role of the pipeline cell of its last pass (R152), and bytes that edits have added to it -/
  role : Nat
  grown : Int
  /-- largest end of a datagram that its headers claim and that waits for the last byte (R474); 0 for none -/
  claim : Nat
  /-- bytes its policer was charged with while its length was not known (R474) -/
  polCh : Nat
  /-- a check that could not be made before the last byte failed its frame: it ends stomped (R474) -/
  stomp : Bool
deriving DecidableEq, Repr

/-- A header parsed in a pass: ROLE, byte offset, length (R157). -/
structure Hdr where
  role : Nat
  off : Nat
  len : Nat
deriving DecidableEq, Repr

/-- A pass in progress: the frame with its bus, and the headers parsed, oldest first. -/
structure Pass where
  f : Frame
  hdrs : List Hdr
deriving DecidableEq, Repr

/-- A pass that waits on a flow-table fetch (R168): its stage, table, bank and key, the ways read so far. -/
structure Miss where
  p : Pass
  stage : Nat
  table : Nat
  bank : Nat
  key : Nat
  ways : Nat
deriving DecidableEq, Repr

/-- Where a frame goes whose outcome waits for its last byte: a slow-path class and reason, or a STEER flow (log entry 20). -/
inductive Hold where
  | slow (cls reason : Nat)
  | sample (steer : Nat)
deriving DecidableEq, Repr

/-- A line of the flow cache (R168); no action for a key held as absent. -/
structure CacheLine where
  table : Nat
  bank : Nat
  key : Nat
  action : Option Nat
deriving DecidableEq, Repr

/-- A flow command in flight (R170). -/
structure FlowCmd where
  op : Nat
  table : Nat
  bank : Nat
  key : Nat
  action : Nat
deriving DecidableEq, Repr

/-- The packet pipelines beside their registers and tables. -/
structure PipeSt where
  nextId : Nat
  /-- new arrivals, oldest first, and recirculated passes and sample-cell returns, which go ahead of them (R19, R27) -/
  waiting : List Frame
  back : List Frame
  /-- passes that wait on a fetch, oldest first, at most 16,384 in a region (R168) -/
  miss : List Miss
  /-- the flow cache, most recently used first -/
  cache : List CacheLine
  /-- NODE, EXTRACT and EXCEPTION record bodies of both parse-graph copies: key 256 × copy + instance (R156 to R160) -/
  nodes : Tab (List Byte)
  extracts : Tab (List Byte)
  excs : Tab (List Byte)
  /-- LAYOUT bodies of each stage and bank: key 2 × stage + bank (R164) -/
  layouts : Tab (List Byte)
  /-- instant at which the generation of a slot stopped being current, ps (R178) -/
  genAt : Tab Nat
  /-- tokens of the slow-path classes in 10⁻¹² frames and the instant they hold for (R182) -/
  spTok : Tab Nat
  spAt : Tab Nat
  /-- slow-path records waiting for the host port (R182): the region that queued each, 4 for a management core, and its bytes; the
  region served last (R30) -/
  hostQ : List (Nat × List Byte)
  hostLast : Nat
  flow : Option FlowCmd
  /-- frames whose pass has ended in a slow-path delivery or a hand-over to a sample cell and whose last byte has not come -/
  held : List (Frame × Hold)
deriving DecidableEq, Repr

/-- The pipelines after reset. -/
def PipeSt.reset : PipeSt :=
  { nextId := 0, waiting := [], back := [], miss := [], cache := [], nodes := [], extracts := [], excs := [], layouts := [],
    genAt := [], spTok := [], spAt := [], hostQ := [], hostLast := 4, flow := none, held := [] }

/-! ## Buffers, queues, shapers and gates (06_queues_and_shaping.md) -/

/-- A frame admitted to a queue (R186). -/
structure QFrame where
  f : Frame
  q : Nat
  /-- buffer cells it holds (R185, R187) and whether they come from the queue's reserve (R188) -/
  cells : Nat
  reserve : Bool
  /-- spill queue of a frame held in HBM (R189) -/
  spill : Option Nat
  /-- index of the TRK_ALLOC entry it is bound to (R194) -/
  member : Option Nat
  /-- instant it was queued, ps -/
  at_ : Nat
deriving DecidableEq, Repr

/-- A transmit secure association (R396): SAK, salt, SSCI, the next packet number. -/
structure MsTx where
  sak : List Byte
  salt : List Byte
  ssci : Nat
  pn : Nat
deriving DecidableEq, Repr

/-- A frame in transmission on a local port: its queue, the instant its last bit leaves, the bytes its shapers and deficits were
charged with (R474). -/
structure TxFrame where
  port : Nat
  q : Nat
  f : Frame
  /-- instant it began -/
  start : Nat
  endAt : Nat
  charged : Nat
  /-- the queue and the nodes on its path whose deficits it was charged to (R192) -/
  kids : List Nat
  /-- the MACsec association and AN it leaves under, with the packet number taken for it (R396); none in clear -/
  sa : Option (MsTx × Nat)
deriving DecidableEq, Repr

/-- Queues, shapers, policers, gates and flow control beside their registers. -/
structure QueueSt where
  /-- admitted frames, in the order of each queue -/
  frames : List QFrame
  /-- frames in transmission on local ports -/
  tx : List TxFrame
  /-- frames that a decision chose and that have not been sent yet: their cells stay in the slice and charged (R187, R209) -/
  out : List QFrame
  /-- deficits in bytes and the child served last, of each child and each parent and priority (R192) -/
  deficit : Tab Int
  served : Tab Nat
  /-- the spill queue refilled last, of each queue (R189) -/
  refilled : Tab Nat
  /-- balance of each shaper and content of each policer in 1/(8 × 10⁹) byte and the instant it holds for, ps -/
  bal : Tab Int
  balAt : Tab Nat
  pol : Tab Nat
  polAt : Tab Nat
  /-- start of the gate entry in force of each port, in local time, 2⁻¹⁶ ns (R205, R206) -/
  gateAt : Tab Int
  /-- BASE in local time, 2⁻¹⁶ ns, and IDLE states of the active gate list of each port (R206) -/
  gateBase : Tab Int
  gateIdle : Tab Nat
  /-- instant of the last PFC or PAUSE frame that holds a priority of a port paused, ps, under 32 p + 3 t (R210) -/
  pfcAt : Tab Nat
  /-- content of each region's spill staging buffer in 1/7,680 of a cell, and the instant it holds for, ps (R190, R30) -/
  stage : Tab Nat
  stageAt : Nat
deriving DecidableEq, Repr

/-- The queues after reset. -/
def QueueSt.reset : QueueSt :=
  { frames := [], tx := [], out := [], deficit := [], served := [], refilled := [], bal := [], balAt := [], pol := [], polAt := [],
    gateAt := [], gateBase := [], gateIdle := [], pfcAt := [], stage := [], stageAt := 0 }

/-! ## Activation, ranging, grants and bursts (04_trunk_access.md) -/

/-- An open ranging request (R132): side, channel, PRESET_EQD, Octaves left. -/
structure RangeReq where
  side : Nat
  ch : Nat
  preset : Nat
  octs : Nat
deriving DecidableEq, Repr

/-- An equalization delay waiting for its Octave (R133): side, channel, the value that holds until then (none where there was
none), the instant its message was accepted. -/
structure EqdPend where
  side : Nat
  ch : Nat
  old : Option Nat
  at_ : Nat
deriving DecidableEq, Repr

/-- A pending ACK or DYING record (R125, R128): record type and its body bytes. -/
structure Rec where
  typ : Nat
  body : List Byte
deriving DecidableEq, Repr

/-- What kind of grant a window came from (R136). -/
inductive GrantKind where
  | assigned | default | ranging | discovery
deriving DecidableEq, Repr

/-- A window of the grant store (R131, R136): channel, allocation, flags, block START (with the drawn delay of R129), LENGTH,
instant of t(0) in ps, SFC and REV of its frame, fibre. -/
structure Window where
  ch : Nat
  alloc : Nat
  kind : GrantKind
  shortEve : Bool
  report : Bool
  mgmt : Bool
  start : Nat
  len : Nat
  t0 : Nat
  sfc : Nat
  rev : Nat
  side : Nat
deriving DecidableEq, Repr

/-- A frame waiting upstream that a burst has begun and not ended (R144): its units so far are sent; the rest of its data. -/
structure SplitFrame where
  alloc : Nat
  ch : Nat
  rest : List Byte
  tag : Nat
  key : Nat
  queue : Nat
  endAt : Nat
  /-- number of the frame, and the instant it was queued, ps -/
  id : Nat
  at_ : Nat
deriving DecidableEq, Repr

/-- A burst formed and not yet ended (R142, R146): its window, the bytes of its body, the records, frames and units for MGMT_TAG that it
took, and the split frame and owed aborts of its allocation as they were, for a burst that is discarded before it starts. -/
structure Burst where
  win : Window
  body : List Byte
  records : List Rec
  dying : Bool
  took : List QFrame
  splitWas : Option SplitFrame
  owedWere : List (Nat × Nat)
  mgmt : List (Nat × List Byte)
  /-- bytes of units and of fill, fragments and reports of the burst -/
  unitBytes : Nat
  fillBytes : Nat
  frags : Nat
  rpts : Nat
deriving DecidableEq, Repr

/-- The upstream side of the trunk. -/
structure UpSt where
  /-- instant the present mode was entered -/
  modeAt : Nat
  /-- instant of the last DISCOVERY accepted, its CH_MASK and HE_ID (R129) -/
  discAt : Nat
  chMask : Nat
  heId : Nat
  /-- consecutive unanswered announcement bursts c, windows to skip, Octaves since the burst that awaits its answer; none also while a
  window is stored, formed or emitted for it (R129) -/
  unanswered : Nat
  skips : Nat
  annOct : Option Nat
  ranging : List RangeReq
  eqdPend : List EqdPend
  acks : List Rec
  /-- units queued for MGMT_TAG (R138, R366), oldest first, each with the instant it was queued -/
  mgmtQ : List (Nat × List Byte)
  store : List Window
  formed : List Burst
  active : List Burst
  /-- end of the last window and of the last burst of each channel and fibre, ps, under 2k + side (R134, R137); 0 for none. They differ
  where the guard cut the burst -/
  lastEnd : Tab Nat
  lastLit : Tab Nat
  splits : List SplitFrame
  /-- abort units owed, of each channel and allocation under 4,096 k + alloc (R144) -/
  owedAborts : List (Nat × Nat)
  /-- instants of the guard trips of the last second (R149) -/
  trips : List Nat
  /-- round-robin position of the further reports of each channel (R143) -/
  rptPos : Tab Nat
  /-- DYING was sent in this EVENTIDE, its REASON, and whether emission has ended (R116) -/
  dyingSent : Bool
  dyingReason : Nat
deriving DecidableEq, Repr

/-- The upstream side after reset. -/
def UpSt.reset : UpSt :=
  { modeAt := 0, discAt := 0, chMask := 0, heId := 0, unanswered := 0, skips := 0, annOct := none, ranging := [],
    eqdPend := [], acks := [], mgmtQ := [], store := [], formed := [], active := [], lastEnd := [], lastLit := [], splits := [], owedAborts := [],
    trips := [], rptPos := [], dyingSent := false, dyingReason := 0 }

/-! ## Sample cells (07_sample_engines.md) -/

/-- A row for the arrival FIFO of a cell (R231, R250): 128 lane words, SOS, and its symbol's descriptor. -/
structure ARow where
  lanes : List (Int × Int)
  sos : Bool
  sym : Nat
  part : Bool
  /-- the cell and the spare that shadows it both took the row (R240) -/
  both : Bool
deriving DecidableEq, Repr

/-- A departure row (R224) with its symbol's descriptor (R250). -/
structure DRow where
  lanes : List (Int × Int)
  mask : Nat
  stream : Nat
  exp : Nat
  blk : Bool
  bad : Bool
  sym : Nat
  part : Bool
deriving DecidableEq, Repr

/-- A sample cell beside its registers and memories. -/
structure SmpCell where
  /-- accumulators: ACC n of lane ℓ under 128 n + ℓ (R214, R215) -/
  acc : Tab (Int × Int)
  /-- the input latch LAT -/
  latch : List (Int × Int)
  /-- arrival FIFO, at most 128 rows, and departure FIFO, at most 64, oldest first -/
  arr : List ARow
  dep : List DRow
  /-- the sequencer runs a program; entry and repetition to run next -/
  on : Bool
  entry : Nat
  rep : Nat
  /-- the sequencer stands after a wrap or at entry 0 with no repetition run (R232) -/
  boundary : Bool
  /-- no pop of this symbol has found its row yet (R231) -/
  firstPop : Bool
  /-- remaining pops of the symbol return ZERO, and the symbol is flagged BAD (R231) -/
  zeroing : Bool
  bad : Bool
  /-- rows are discarded up to the next SOS row (R231) -/
  skipping : Bool
  /-- instant of the symbol's first pop, ps -/
  popAt : Option Nat
  /-- descriptor of the symbol in progress: SYMBOL and PARTIAL -/
  sym : Option (Nat × Bool)
  /-- steps done, and the step that last wrote each accumulator and each row (R230) -/
  steps : Nat
  accW : Tab Nat
  rowW : Tab Nat
  /-- next row to copy while re-seeding, and steps since a row was copied (R234) -/
  reseed : Nat
  reseedWait : Nat
  /-- a hand-over is due at the completion of the HOP entry that is running (R259) -/
  due : Bool
  /-- the last HOP point whose window opened, as the least APPLY_SYM that it does not reach (R259) -/
  reach : Option Nat
  /-- masks, START, CS_BASE0, CS_BASE1, CSIZE, SYM_TO, COUNT and NSYM of each program bank (R238): key 8 × bank + field -/
  prog : Tab Nat
  /-- departure rows not yet compared, of an active cell that is shadowed and of its shadow (R240) -/
  cmp : List DRow
  /-- departure rows of the symbol in progress are compared: its first row reached the cell and its shadow (R240) -/
  cmpOn : Bool
  /-- a shadow that has not met a row with SOS yet (R240) -/
  wait : Bool
  /-- the symbol after the last that completed: what a HOP point before the first pop has reached (R259) -/
  past : Option Nat
deriving DecidableEq, Repr

/-- A cell after reset: no program runs. -/
def SmpCell.reset : SmpCell :=
  { acc := [], latch := [], arr := [], dep := [], on := false, entry := 0, rep := 0, boundary := true, firstPop := true, zeroing := false,
    bad := false, skipping := false, popAt := none, sym := none, steps := 0, accW := [], rowW := [], reseed := 0, reseedWait := 0,
    due := false, reach := none, prog := [], cmp := [], cmpOn := false, wait := false, past := none }

/-- The sample cells: cell x = 3b + j. -/
structure SmpSt where
  cells : Tab SmpCell
deriving DecidableEq, Repr

/-- The sample cells after reset. -/
def SmpSt.reset : SmpSt := { cells := [] }

/-! ## Fronthaul paths (08_fronthaul_combining.md) -/

/-- A symbol in assembly (R248): number, instant of its first frame, the PRBs received (key 512 × rank + PRB of the frame, twelve
samples each), highest PASS among its frames, and the generation whose reference it holds (R251). -/
structure OpenSym where
  num : Nat
  at_ : Nat
  prbs : Tab (List (Int × Int))
  pass : Nat
  gen : Option Nat
deriving DecidableEq, Repr

/-- A coefficient set being assembled, armed or late (R258): state as SMP_COEF_STAT codes it. -/
structure CoefSet where
  seq : Nat
  flags : Nat
  apply : Nat
  total : Nat
  bexp : List Nat
  /-- rows received -/
  rows : List Nat
  /-- instant of its first frame, ps -/
  at_ : Nat
  late : Bool
deriving DecidableEq, Repr

/-- The paths of a sample cell beside their registers. -/
structure FhCell where
  opened : List OpenSym
  /-- rows still to be emitted to the arrival FIFO (R250) -/
  emit : List ARow
  /-- emitted symbols: number, generation whose reference their output frames take over, highest PASS (R251, R176) -/
  refs : List (Nat × Nat × Nat)
  /-- departure rows collected for each STREAM (R252) -/
  blocks : Tab (List DRow)
  pend : Option CoefSet
  /-- rows of the set that wait for re-seeding or an open HOP window to end (R81, R258, R259): row and its bytes -/
  await : List (Nat × List Byte)
  /-- LAST_SEQ holds a set: some set has been handed over -/
  any : Bool
  /-- the set that is armed in the spare cell and has not handed over there (R235, R259) -/
  spSet : Option CoefSet
  /-- some symbol has been emitted (R249) -/
  emitted : Bool
deriving DecidableEq, Repr

/-- Paths with nothing in them. -/
def FhCell.reset : FhCell := { opened := [], emit := [], refs := [], blocks := [], pend := none, await := [], any := false, spSet := none, emitted := false }

/-- The fronthaul paths. -/
structure FhSt where
  cells : Tab FhCell
  /-- steered frames that wait for their decompressor or coefficient path: frame and STEER flow (R244) -/
  inQ : List (Frame × Nat)
  coefQ : List (Frame × Nat)
  /-- frames in `inQ` that an earlier flow of their chain has taken and that wait for a buffer of the next (R250): their numbers -/
  partly : List Nat
  /-- SEQ_ID of each output flow (R254) -/
  seqId : Tab Nat
deriving DecidableEq, Repr

/-- The fronthaul paths after reset. -/
def FhSt.reset : FhSt := { cells := [], inQ := [], coefQ := [], partly := [], seqId := [] }

/-! ## Time (09_time_and_sync.md) -/

/-- A time domain beside its registers (R268 to R271). Times are in 2⁻¹⁶ ns, rates in 2⁻¹⁶ ns/s. -/
structure Dom where
  /-- phase against the base clock -/
  phi : Int
  /-- servo rate s_d -/
  rate : Int
  /-- integral term -/
  integ : Int
  /-- instant of the last measurement since cold reset, ps -/
  lastAt : Option Nat
  /-- consecutive measurements above twice LOCK_THR -/
  overs : Nat
  /-- instant LOCKED was last entered, ps -/
  lockedAt : Nat
deriving DecidableEq, Repr

/-- A stamped frame of the time channel (R272): SFC, arrival in domain time T-A and in local time, 2⁻¹⁶ ns. -/
structure Stamp where
  sfc : Nat
  ch : Nat
  side : Nat
  dA : Int
  l : Int
deriving DecidableEq, Repr

/-- What the Vigil model holds for a resonator (R290): an aging rate, and a curve of frequency against cold-plate temperature, whose
form the spec leaves open (log entry 15). -/
structure OscModel where
  aging : Int
  curve : Nat
deriving DecidableEq, Repr
def OscModel.reset : OscModel := { aging := 0, curve := 0 }

/-- The timing unit beside its registers. -/
structure TmSt where
  /-- instant of the last update of the clocks, ps -/
  clkAt : Nat
  /-- base clock B at that instant, 2⁻¹⁶ ns -/
  base : Int
  /-- L − B at that instant, 2⁻¹⁶ ns -/
  off : Int
  /-- what steps and the initial set have moved L by, 2⁻¹⁶ ns: elapsed local time does not see it (R367) -/
  stepped : Int
  /-- rate of L against B, 2⁻¹⁶ ns/s (R283) -/
  r : Int
  /-- base frequency y0, 2⁻¹⁶ ns/s (R268) -/
  y0 : Int
  domA : Dom
  domB : Dom
  /-- stamped frames of the time channel, newest first, at most 1,024 (R272) -/
  stamps : List Stamp
  /-- held TOD_MAPs, oldest first, at most 4: SFC and T in 2⁻¹⁶ ns (R272) -/
  held : List (Nat × Int)
  /-- the association in force: SFC and τ of that frame (R273) -/
  assoc : Option (Nat × Int)
  /-- the association the Octave grid stands on (R276) -/
  grid : Option (Nat × Int)
  /-- an SFC was adopted since the last measured TOD_MAP (R275) -/
  jumped : Bool
  /-- instant of the last measured TOD_MAP, ps (R275) -/
  mapAt : Option Nat
  /-- instant of the last accepted PPS_IN edge, and from which the next PPS_MISSING is counted, ps -/
  ppsAt : Option Nat
  ppsMissAt : Option Nat
  /-- PPS_MISSING in a row, edges without a valid message in a row (R278) -/
  ppsMiss : Nat
  /-- the next edge is accepted whenever it arrives (R278) -/
  ppsFresh : Bool
  ppsNoTod : Nat
  /-- D_B of the last accepted edge, still without a message (R277, R279) -/
  ppsEdge : Option Int
  /-- instant from which FREQ_IN has measured good, ps (R280) -/
  freqGood : Option Nat
  /-- second of the last valid TMG_B_MEAS write, and writes in consecutive seconds (R281) -/
  bSec : Nat
  bRun : Nat
  /-- EQX_LARGE was given in this Equinox (R285) -/
  eqxLarge : Bool
  /-- the selection moved away from PREF (R282) -/
  away : Bool
  /-- what learning moved in the running 1,000 s, and the start of that span (R271) -/
  learned : Int
  learnAt : Nat
  /-- steer updates in LOCKED since the last whole hour of LEARN_H (R290) -/
  lockedMs : Nat
  /-- the Vigil model of each resonator (R290), and whether archived coefficients have seeded it since the cold start -/
  osc : Tab OscModel
  seeded : Bool
  /-- consecutive seconds with a residual above 10 ppb, of each resonator (R293) -/
  oscRun : Tab Nat
  /-- steer updates of this VIGIL (R291) and whether VIG_LIMIT was set in it -/
  vigMs : Nat
  vigLimit : Bool
  /-- what disagreement of the resonators adds to EST in ns (R293) -/
  estExtra : Nat
  /-- TIME_VIO is in one of its ranges (R442) -/
  timeVio : Bool
  /-- a change of QL that each port with ESMC_EN has yet to send as an event (R301), as a port mask -/
  esmcDue : Nat
  /-- second of L named by the last PPS_OUT[0] edge driven, and its instant, ps, until its message is sent (R296) -/
  ppsOutSec : Option (Nat × Nat)
deriving DecidableEq, Repr

/-- A domain after cold reset. -/
def Dom.reset : Dom := ⟨0, 0, 0, none, 0, 0⟩

/-- The timing unit after cold reset. -/
def TmSt.reset : TmSt :=
  { clkAt := 0, base := 0, off := 0, stepped := 0, r := 0, y0 := 0, domA := Dom.reset, domB := Dom.reset, stamps := [], held := [],
    assoc := none, grid := none, jumped := false, mapAt := none, ppsAt := none, ppsMissAt := none, ppsMiss := 0, ppsFresh := true, ppsNoTod := 0, ppsEdge := none,
    freqGood := none, bSec := 0, bRun := 0, eqxLarge := false, away := false, learned := 0, learnAt := 0,
    lockedMs := 0, osc := [], seeded := false, oscRun := [], vigMs := 0, vigLimit := false, estExtra := 0, timeVio := true, esmcDue := 0, ppsOutSec := none }

/-! ## Local ports, host port and sensor bus (10_ports_and_lanes.md) -/

/-- A frame that the sensor-bus MAC sends or holds: bytes, attempts so far, whether the backoff, the duty bound or the wire has
it (R322, R326). -/
structure SbusTx where
  bytes : List Byte
  attempt : Nat
  /-- instant its transmission started, ps; none while it waits -/
  start : Option Nat
  /-- instant its backoff ends, ps -/
  backoff : Nat
  held : Bool
deriving DecidableEq, Repr

/-- A POLL that waits for its REPLY (R324): its entry, SEQ, the instant it was sent, retries left. -/
structure Poll where
  entry : Nat
  seq : Nat
  sent : Nat
  left : Nat
  /-- TIMEOUT as it stood when the poll was first sent, ps -/
  tmo : Nat
deriving DecidableEq, Repr

/-- A frame that the hardware of a port itself sends and that waits for its lane (R297), for its link to wake or for a remote fault to
clear (R306, R316): a PAUSE or PFC frame by its bytes, a Sync or an ESMC PDU made when it leaves (`flag`: the event flag). -/
structure CtlTx where
  port : Nat
  kind : OutKind
  flag : Bool
  bytes : List Byte
deriving DecidableEq, Repr

/-- A frame on its way back in a near-end loop of a port (R317). -/
structure LoopTx where
  port : Nat
  bytes : List Byte
deriving DecidableEq, Repr

/-- A frame of a local port whose last byte has not come: its number, the port, the bytes received (R154). -/
structure RxOpen where
  id : Nat
  port : Nat
  n : Nat
deriving DecidableEq, Repr

/-- Ports beside their registers. -/
structure PortSt where
  /-- frames in reception on local ports -/
  rxOpen : List RxOpen
  /-- instants, ps, each under the port: start of TRAINING, failure of a training, each exit from UP whose FLUSH_TO runs, start of
  a wake, start of the last frame sent -/
  trainAt : Tab Nat
  failAt : Tab Nat
  flushAt : Tab Nat
  wakeAt : Tab Nat
  busyAt : Tab Nat
  /-- pauses of class t of port p under 8p + t, host port 128: end of the pause, start without interruption, end of the
  release period, ps (R309, R310) -/
  pauseEnd : Tab Nat
  pauseAt : Tab Nat
  releaseEnd : Tab Nat
  /-- bit p: light reaches the receiver of port p (R306) -/
  lit : Nat
  /-- instant at which the transmit lane of a port is free again, ps (R305) -/
  freeAt : Tab Nat
  /-- frames of the port's own hardware that wait, oldest first -/
  ctlQ : List CtlTx
  /-- frames with FCS that a near-end loop of a port returns to its receiver, oldest first (R317) -/
  loopQ : List LoopTx
  /-- a host lane configuration waiting for its instant (R318): word and instant, ps -/
  lane : Option (Nat × Nat)
  /-- start of the mode the host port tries (R318), ps -/
  hostAt : Nat
  /-- sensor bus: frames to send, oldest first; transmissions of the last 100 ms (start, end); polls; alarm entries: instant of
  the last accepted change and start of activity, ps (R322 to R326) -/
  sbTx : List SbusTx
  sbHist : List (Nat × Nat)
  polls : List Poll
  /-- instant at which the next poll of an entry is due, ps -/
  pollDue : Tab Nat
  almAt : Tab Nat
  almOn : Tab Nat
deriving DecidableEq, Repr

/-- Ports after reset. -/
def PortSt.reset : PortSt :=
  { rxOpen := [], trainAt := [], failAt := [], flushAt := [], wakeAt := [], busyAt := [], pauseEnd := [], pauseAt := [], releaseEnd := [],
    lit := 0, freeAt := [], ctlQ := [], loopQ := [], lane := none, hostAt := 0, sbTx := [], sbHist := [], polls := [], pollDue := [], almAt := [], almOn := [] }

/-! ## ZCP sessions and the DMA engine (11_host_control_and_dma.md) -/

/-- A request that a session has accepted (R331, R337): TYPE, MFLAGS, TAG, BODY. -/
structure Req where
  typ : Nat
  flags : Nat
  tag : Nat
  body : List Byte
deriving DecidableEq, Repr

/-- A request in execution that waits for a write held by a hand-over window (R81, R340): the request, the item and the word in
that item to go on with, the item bodies answered so far, the first failing item. -/
structure Exec where
  req : Req
  item : Nat
  word : Nat
  done : List Byte
  fail : Option (Nat × Nat × Nat)
  /-- status of the item in progress and its address at fault -/
  ist : Nat
  iad : Nat
deriving DecidableEq, Repr

/-- A kept response (R337): TYPE and TAG of its request, STATUS, INDEX, DETAIL, body. -/
structure Kept where
  typ : Nat
  tag : Nat
  status : Nat
  index : Nat
  detail : Nat
  body : List Byte
deriving DecidableEq, Repr

/-- An EVENT frame that waits for its acknowledgement (R347): EVT_SEQ, instant it was last sent, its NOTIFY results. -/
structure EvtFrame where
  seq : Nat
  at_ : Nat
  results : List (Nat × Nat × Nat)
deriving DecidableEq, Repr

/-- A session slot beside HST_SESS_STAT, HST_SESS_CFG and HST_SESS_KEY. -/
structure Sess where
  /-- MAC address of the host, from its OPEN; HOST_KEY of its OPEN, KK of R333 (empty: erased) and TH -/
  peer : Nat
  hostKey : List Byte
  keys : List Byte
  th : List Byte
  rights : Nat
  /-- instant of its ACCEPT, instant of the last valid frame, instants of the tag failures of the last second, ps -/
  at_ : Nat
  lastRx : Nat
  fails : List Nat
  /-- highest SEQ accepted and those of the 63 below it that were accepted (R330) -/
  top : Nat
  seen : List Nat
  txSeq : Nat
  /-- the last responses by TAG (R337), newest first, at most 64 -/
  kept : List Kept
  /-- requests that wait behind a held write, and the one in execution -/
  queue : List Req
  cur : Option Exec
  /-- EVENT frames (R347): EVT_SEQ of the last one, instant it was sent, those that wait for their acknowledgement, a rise not yet
  reported, NOTIFY results (ID, STATE, CAUSE) not yet sent -/
  evtSeq : Nat
  evtAt : Option Nat
  unacked : List EvtFrame
  rose : Bool
  results : List (Nat × Nat × Nat)
deriving DecidableEq, Repr

/-- An idle slot. -/
def Sess.reset : Sess :=
  { peer := 0, hostKey := [], keys := [], th := [], rights := 0, at_ := 0, lastRx := 0, fails := [], top := 0, seen := [], txSeq := 0, kept := [],
    queue := [], cur := none, evtSeq := 0, evtAt := none, unacked := [], rose := false, results := [] }

/-- A descriptor that a DMA channel works on (R349): its bytes as read, bytes moved, and a burst that waits for a hand-over window
to close (R352). -/
structure DmaRun where
  desc : List Byte
  moved : Nat
  waits : Bool
  /-- a STOP, or the close of the owner's session, came while the burst waited -/
  stop : Bool
deriving DecidableEq, Repr

/-- The host interface and the DMA engine beside their registers. -/
structure HostSt where
  sess : Tab Sess
  /-- instants of the OPEN messages of the last second, ps (R334) -/
  opens : List Nat
  /-- instant from which a warm reset asked for by ZCP RESET may start, ps (R344) -/
  resetAt : Option Nat
  /-- HST_EVT_PEND as it was after the last command (R347) -/
  pend : Nat
  /-- descriptor in progress of each channel, chain and timer triggers not yet used, a held LO word of a pair without GO (R467) -/
  dma : Tab DmaRun
  dmaTrig : Tab Nat
  /-- elapsed local time at the last timer period of each channel, 2⁻¹⁶ ns (R351); channel served last (R351) -/
  dmaAt : Tab Int
  dmaRr : Nat
  /-- LO words of register pairs written and not yet followed by their HI word (R467), under their address -/
  loHeld : Tab Nat
  /-- HI words captured by a read of their LO word, under the address of the HI word (R467) -/
  hiCap : Tab Nat
  /-- frames to the host that wait for its port, oldest first (R319) -/
  txWait : List Output
  /-- instant at which the last ATTEST was taken, ps (R344) -/
  attestAt : Option Nat
  /-- pulses of each request line of the DMA engine that no channel has seen yet (R351) -/
  lineDue : Tab Nat
deriving DecidableEq, Repr

/-- The host interface after reset. -/
def HostSt.reset : HostSt :=
  { sess := [], opens := [], resetAt := none, pend := 0, dma := [], dmaTrig := [], dmaAt := [], dmaRr := 0, loHeld := [], hiCap := [], txWait := [], attestAt := none, lineDue := [] }

/-! ## Management cores and the task scheduler (12_management_cores.md) -/

/-- A host scheduler command that the full command FIFO holds (R361): its word, the instant of its write, and that at which an entry
frees for it. -/
structure HostCmd where
  word : Nat
  at_ : Nat
  free : Nat
deriving DecidableEq, Repr

/-- The cores and the scheduler beside their registers. -/
structure McuSt where
  /-- ready list of each priority, head first (R360) -/
  ready : Tab (List Nat)
  /-- wake tick of each task in the delay list (R367) -/
  wake : Tab Nat
  /-- RUNNING tasks that become SUSPENDED at their next boundary (R362) -/
  susp : List Nat
  /-- WHY that the next dispatch of a task reports (R374) -/
  why : Tab Nat
  /-- task and instant of its dispatch, of each core that runs one -/
  run : Tab Nat
  runAt : Tab Nat
  /-- task reserved on each preempted core, the instant of the reservation, and the cores whose PRE_TO has passed (R363) -/
  resv : Tab Nat
  resvAt : Tab Nat
  late : List Nat
  /-- cores with a watchdog request (R368), and cores whose read of MCU_SCHED_NEXT is held (R362) -/
  wdog : List Nat
  waits : List Nat
  /-- the command FIFO: the instant at which the decision of each entry is over, oldest first, ps; a host command that it holds (R361) -/
  fifo : List Nat
  hostHeld : Option HostCmd
  /-- task that SIGNAL bound a software source to, for this signal (R362) -/
  sig : Tab Nat
  /-- tasks of the old image that are RUNNING and RETIRING (R373) -/
  retiring : List Nat
  /-- elapsed local time at the last tick, and at cold reset, from which MTIME counts, 2⁻¹⁶ ns (R367) -/
  tickAt : Int
  mtimeAt : Int
  /-- trace records that wait for DDR5, records lost since the last one, records so far (R369) -/
  traceBuf : List (List Byte)
  traceLost : Nat
  traceSeq : Nat
  /-- an ACT_OVR or PRE_LATE event not yet seen by the host interface (MCU_CTRL.EVT_EN) -/
  pulse : Bool
  /-- message rings of the trunk (R365): slot i of wavelength k under 1,024 k + i -/
  rings : Tab (List Byte)
  /-- local memory of each physical core, shared scratch (R357): bytes that are not 0; address at which each physical core last
  started; whether Omlia is released to the cores (R382) -/
  lmem : Tab (Tab Byte)
  scratch : Tab Byte
  entry : Tab Nat
  released : Bool
  /-- logical core whose planned swap is in progress (R370) -/
  spareCore : Nat
  /-- sources whose event of R364 has come and that are not pending yet -/
  srcDue : List Nat
deriving DecidableEq, Repr

/-- The cores after reset: every task FREE, every core held. -/
def McuSt.reset : McuSt :=
  { ready := [], wake := [], susp := [], why := [], run := [], runAt := [], resv := [], resvAt := [], late := [], wdog := [], waits := [],
    fifo := [], hostHeld := none, sig := [], retiring := [], tickAt := 0, mtimeAt := 0, traceBuf := [], traceLost := 0, traceSeq := 0, pulse := false,
    rings := [], lmem := [], scratch := [], entry := [], released := false, spareCore := 0, srcDue := [] }

/-! ## Security (13_security.md) -/

/-- A receive secure association (R396): SAK, salt, SSCI, SCI of its channel, one above the highest packet number accepted. -/
structure MsRx where
  sak : List Byte
  salt : List Byte
  ssci : Nat
  sci : Nat
  next : Nat
deriving DecidableEq, Repr

/-- A pending MK_OFFER (R392): the randomness that stands for its decapsulation key, and offer bytes 0 to 4,191. -/
structure MkOffer where
  rand : Nat
  body : List Byte
deriving DecidableEq, Repr

/-- The security unit beside its registers. -/
structure SecSt where
  /-- the fuse array, its image taken at boot and at each programming (R376, R378), and the groups whose check code is written: bit
  g of SEC_FUSE_CTRL -/
  fuses : Nat
  fuseImg : Nat
  fuseDone : Nat
  /-- instant of the last comparison of the array with its image, ps (R378) -/
  fuseChkAt : Nat
  /-- fuse group and words of the programming operation in progress (R377) -/
  fuseOp : Option (Nat × List Nat)
  /-- OP, flash address and DDR5 address of the flash operation in progress -/
  flashOp : Option (Nat × Nat × Nat)
  /-- management-key operation in progress: OP, and the body taken at its start (R392) -/
  mkOp : Option (Nat × List Byte)
  /-- candidate Omlia being checked: DDR5 address and length; digest and VERSION of a valid one (R384) -/
  candOp : Option (Nat × Nat)
  cand : Option (List Byte × Nat)
  /-- measurement chain M (R381), digests of the stage 1 and Omlia images in use and of the last full Almanac (R386), VERSION of
  the running Omlia -/
  meas : List Byte
  dStage1 : List Byte
  dOmlia : List Byte
  dAlmanac : List Byte
  omliaVer : Nat
  /-- images still to be tried at boot (R382): bank 0, bank 1, or 2 for DDR5; boot steps done: 0 none, 2 step 2, 4 step 4, 5 step 5 -/
  bootTry : List Nat
  /-- BOOT_SEL as sampled at step 1 (R451) -/
  bootSel : Nat
  bootStep : Nat
  /-- vault slots, and the core that wrote the last GO of SEC_VLT_CTRL (R397) -/
  vault : Tab (List Byte)
  vltCore : Nat
  /-- trunk keys under 2 × index + direction, 0 downstream, 1 upstream (R393) -/
  trunkKeys : Tab (List Byte)
  /-- MACsec associations: transmit under 4p + AN, receive under 16p + 4 SC + AN (R396) -/
  msTx : Tab MsTx
  msRx : Tab MsRx
  offer : Option MkOffer
  /-- a health test of the noise source fails (R398) -/
  entBad : Bool
  /-- the identity key pair waits to be derived again (R402) -/
  idDue : Bool
  /-- instant of the last change of a tamper input that was taken, and of its present low level, ps (R403) -/
  tamperAt : Tab Nat
  /-- instant at which the condition of each source ended, ps (R402) -/
  almEnd : Tab Nat
  /-- a first alarm since cold reset is recorded in FIRST -/
  firstSet : Bool
deriving DecidableEq, Repr

/-- The security unit after reset, as shipped: no fuse blown that the spec gives no value for (log entry 12). -/
def SecSt.reset : SecSt :=
  { fuses := 0, fuseImg := 0, fuseDone := 0, fuseChkAt := 0, fuseOp := none, flashOp := none, mkOp := none, candOp := none, cand := none,
    meas := List.replicate 64 0, dStage1 := List.replicate 64 0, dOmlia := List.replicate 64 0, dAlmanac := List.replicate 64 0, omliaVer := 0,
    bootTry := [], bootSel := 0, bootStep := 0, vault := [], vltCore := 0, trunkKeys := [], msTx := [], msRx := [], offer := none, entBad := false,
    idDue := false, tamperAt := [], almEnd := [], firstSet := false }

/-! ## Power domains, operating points, self-test and swaps (14_power_and_health.md) -/

/-- The request of a domain in flight (R410 to R414). -/
structure DomReq where
  /-- 1 supply, 2 PLL, 3 islands and restore, 4 quiet, 5 supply down, 6 waiting for its next attempt -/
  step : Nat
  /-- 0 OFF, 1 RETENTION, 2 ON -/
  target : Nat
  /-- state the sequence left: 0 OFF, 1 RETENTION, 2 ON -/
  src : Nat
  /-- instant the step began, ps -/
  at_ : Nat
  /-- a wake event was latched during the entry (R418) -/
  latched : Bool
deriving DecidableEq, Repr

/-- A wake set in progress (R416): the domains of the mask, those already issued, those refused or failed. -/
structure WakeSet where
  mask : Nat
  issued : Nat
  lost : Nat
deriving DecidableEq, Repr

/-- A request of a region for an operating point, or a manual one (R420, R421). -/
structure OpReq where
  /-- none for a manual request -/
  op : Option Nat
  volt : Nat
  cap : Nat
  /-- 1 lower the cap, 2 ramp the voltage, 3 raise the cap -/
  step : Nat
  prevVolt : Nat
  at_ : Nat
deriving DecidableEq, Repr

/-- Power, self-test and swaps beside their registers. -/
structure PowSt where
  /-- request in flight of each domain -/
  dom : Tab DomReq
  wakes : List WakeSet
  /-- instant of the last accepted event and of the present active level of each WAKE pin, ps (R417) -/
  pinAt : Tab Nat
  pinOn : Tab Nat
  /-- islands: attempts failed and the instant of the last, under 2 × block (port island), 2 × block + 1 (sample island) or
  64 + engine; bit set of the islands that are FAILED (R415) -/
  islTry : Tab Nat
  islAt : Tab Nat
  islFailed : Nat
  /-- operating-point request in flight and pending, of each region -/
  op : Tab OpReq
  opPend : Tab OpReq
  /-- bit n: the cap of region n is lowered under R423; instant of its last step towards TARGET, ps -/
  throttled : Nat
  relAt : Tab Nat
  /-- a trip has happened: nothing but reset acts (R424) -/
  tripped : Bool
  /-- EVENTIDE step in progress (R427), 0 for none; whether a step missed its bound; whether the steps run in SELFCHECK -/
  evStep : Nat
  evLate : Bool
  evCheck : Bool
  /-- instant the step began, ps -/
  evAt : Nat
  /-- instant from which some die sensor has been at or above T_EVENTIDE (R424), ps -/
  hotAt : Option Nat
  /-- partitions tested and failed in this self-test (R428) -/
  stDone : Nat
  stFail : Nat
  /-- the swap in progress (R434): kind, unit and spare as wear indices, instant it began, waiting for a slot since, its
  transaction -/
  swapKind : Nat
  swapUnit : Nat
  swapSpare : Nat
  swapAt : Nat
  swapWait : Option Nat
  swapTxn : Option Nat
  /-- a copy of an HBM pseudo-channel or a DDR5 rank, complete and waiting for its boundary (R435) -/
  remap : Option (Nat × Nat)
  /-- units whose failing SRAM row or column is repaired at the next commit (R432) -/
  sramDue : List Nat
  /-- residency: instant up to which the counters of R426 are kept, ps -/
  resAt : Nat
  /-- instants of the last check of the thermal controller (R423), of the last update of each unit's wear monitor (R432), and from which
  the patrol scrub of DDR5 in progress runs (R470), ps -/
  thermAt : Option Nat
  wearAt : Tab Nat
  scrubAt : Nat
deriving DecidableEq, Repr

/-- Power after reset. -/
def PowSt.reset : PowSt :=
  { dom := [], wakes := [], pinAt := [], pinOn := [], islTry := [], islAt := [], islFailed := 0, op := [], opPend := [],
    throttled := 0, relAt := [], tripped := false, evStep := 0, evLate := false, evCheck := false, evAt := 0, hotAt := none, stDone := 0,
    stFail := 0, swapKind := 0, swapUnit := 0, swapSpare := 0, swapAt := 0, swapWait := none, swapTxn := none,
    remap := none, sramDue := [], resAt := 0, thermAt := none, wearAt := [], scrubAt := 0 }

/-! ## Supplies and resets (15_electrical_mechanical.md R442 to R448) -/

/-- The board side of the terminal. -/
structure ElecSt where
  /-- power-up (R444): 0 VAUX3 absent, 1 AON runs, 2 regulators start, 3 they have failed and wait, 4 PWR_GOOD is high and a cold
  reset is to complete, 5 out of reset -/
  phase : Nat
  /-- instant the phase began, ps -/
  at_ : Nat
  /-- CHIP_RESET.CAUSE of the cold reset to come (R469) -/
  cause : Nat
  /-- THERM_TRIP_N is held low (R424) -/
  trip : Bool
  /-- a warm reset that waits was asked for by RESET_N, by a RESTART wake (R416, R445) -/
  byPin : Bool
  byWake : Bool
deriving DecidableEq, Repr

/-- A terminal whose cold reset has completed. -/
def ElecSt.reset : ElecSt := { phase := 5, at_ := 0, cause := 1, trip := false, byPin := false, byWake := false }

/-- The two addressed memories (log entry 2): DDR5 (R329, R453) and flash (R380). -/
structure Mem where
  ddr : List Host.Cell
  flash : List Host.Cell
deriving DecidableEq, Repr

/-- A change of a memory: bytes written to DDR5 or to flash at an address, a flash range erased, DDR5 losing its content. -/
inductive MemOp where
  | ddr (addr : Nat) (bytes : List Byte)
  | flash (addr : Nat) (bytes : List Byte)
  | erase (addr len : Nat)
  | ddrLost
deriving DecidableEq, Repr

/-- The chip: everything the spec gives it but its two addressed memories. -/
structure Chip where
  /-- the instant of the last command, ps (log entry 1) -/
  now : Nat
  /-- free values drawn so far: the model's own field (log entry 3) -/
  fresh : Nat
  /-- every field of every register that a write or the chip has set, under `Fld.key` -/
  regs : Tab Nat
  /-- live counters and latched counters (R111) under the address of their live LO word; captured HI words (R112) -/
  cnt : Tab Nat
  lat : Tab Nat
  cap : Tab Nat
  /-- words of the table window (R463) under their address; a word never written reads 0 -/
  win : Tab Nat
  /-- what left the terminal, newest first: the model's own record (log entry 5) -/
  out : List Output
  /-- writes to the memories that the command in progress has made, oldest first; empty between commands (log entry 2) -/
  mout : List MemOp
  /-- structure, errors and spares -/
  st : StructSt
  /-- the commit engine and the loader -/
  alm : AlmSt
  /-- trunk downstream -/
  ds : DsSt
  /-- packet pipelines -/
  pp : PipeSt
  /-- buffers, queues, shapers, gates -/
  qs : QueueSt
  /-- trunk upstream -/
  up : UpSt
  /-- sample cells -/
  smp : SmpSt
  /-- fronthaul paths -/
  fh : FhSt
  /-- the timing unit -/
  tm : TmSt
  /-- local ports, host port, sensor bus -/
  pt : PortSt
  /-- ZCP sessions and DMA -/
  hp : HostSt
  /-- management cores and the scheduler -/
  mc : McuSt
  /-- the security unit -/
  sec : SecSt
  /-- power domains, self-test, swaps -/
  pw : PowSt
  /-- supplies, contacts and latches -/
  el : ElecSt
deriving DecidableEq, Repr

/-- The whole machine: the chip, DDR5 and flash as sparse bytes in one canonical form (log entry 2), and the commands that
wait, first in, first out. -/
structure State where
  chip : Chip
  mem : Mem
  pending : List Instr
deriving DecidableEq, Repr

/-- The model stops with a fault in no case: every command of the table has an effect (log entry 6). -/
inductive Fault where
  /-- raised by no command; safe: a run never ends in it -/
  | never
deriving DecidableEq, Repr

/-- Why a command is refused by the model. -/
inductive Refusal where
  /-- raised by an arm of `exec` whose command has no meaning yet; safe: the run stops -/
  | notModelled (mnemonic : String)
deriving DecidableEq, Repr

/-- The chip right after a cold reset: every register at its reset value (nothing stored), no memory of earlier work. -/
def Chip.reset : Chip :=
  { now := 0, fresh := 0, regs := [], cnt := [], lat := [], cap := [], win := [], out := [], mout := [],
    st := StructSt.reset, alm := AlmSt.reset, ds := DsSt.reset, pp := PipeSt.reset, qs := QueueSt.reset, up := UpSt.reset, smp := SmpSt.reset, fh := FhSt.reset, tm := TmSt.reset, pt := PortSt.reset, hp := HostSt.reset, mc := McuSt.reset, sec := SecSt.reset, pw := PowSt.reset, el := ElecSt.reset }

/-- The machine right after reset: no command waits, no memory byte differs from its unlisted value. -/
def State.reset : State := { chip := Chip.reset, mem := { ddr := [], flash := [] }, pending := [] }

end Sys2Proof.Machine
end

