-- ==== Sys2Proof/Machine/Mem.lean ====
section
/-! DEFINITION. The two addressed memories (log entry 2): a byte read, and writes that keep the canonical form: addresses rise
strictly and no listed byte equals what an unlisted address reads as. -/

namespace Sys2Proof.Machine

/-- Cells in canonical form for the unlisted value `d`. -/
def cellsWf (d : Byte) : List Host.Cell → Bool
  | [] => true
  | [(_, v)] => decide (v ≠ d)
  | (a, v) :: (b, w) :: r => decide (v ≠ d) && decide (a < b) && cellsWf d ((b, w) :: r)

/-- The byte at an address. -/
def cellGet (d : Byte) (l : List Host.Cell) (a : Nat) : Byte :=
  match l with
  | [] => d
  | (b, v) :: r => if a = b then v else if a < b then d else cellGet d r a

/-- Write one byte. -/
def cellSet (d : Byte) (l : List Host.Cell) (a : Nat) (x : Byte) : List Host.Cell :=
  match l with
  | [] => if x = d then [] else [(a, x)]
  | (b, v) :: r =>
    if a < b then (if x = d then (b, v) :: r else (a, x) :: (b, v) :: r)
    else if a = b then (if x = d then r else (a, x) :: r)
    else (b, v) :: cellSet d r a x

/-- Write bytes from an address upwards. -/
def cellsPut (d : Byte) (l : List Host.Cell) (a : Nat) (bs : List Byte) : List Host.Cell :=
  match bs with
  | [] => l
  | x :: r => cellsPut d (cellSet d l a x) (a + 1) r

/-- Read `n` bytes from an address upwards. -/
def cellsRead (d : Byte) (l : List Host.Cell) (a n : Nat) : List Byte := (List.range n).map (fun i => cellGet d l (a + i))

/-- Unlisted DDR5 bytes read 0; unlisted flash bytes read 0xFF, the erased value (log entry 2). -/
def ddrDefault : Byte := 0
def flashDefault : Byte := 0xFF

/-- The canonical form of both memories. -/
def Mem.wf (m : Mem) : Bool := cellsWf ddrDefault m.ddr && cellsWf flashDefault m.flash

/-- Bytes of DDR5 and of flash. -/
def Mem.ddrRead (m : Mem) (a n : Nat) : List Byte := cellsRead ddrDefault m.ddr a n
def Mem.flashRead (m : Mem) (a n : Nat) : List Byte := cellsRead flashDefault m.flash a n

/-- One change of a memory. Flash programming clears bits only; erased bytes read 0xFF (R406). -/
def Mem.apply (m : Mem) (o : MemOp) : Mem :=
  match o with
  | .ddr a bs => { m with ddr := cellsPut ddrDefault m.ddr a bs }
  | .flash a bs => { m with flash := cellsPut flashDefault m.flash a bs }
  | .erase a n => { m with flash := m.flash.filter (fun x => decide (x.1 < a ∨ a + n ≤ x.1)) }
  | .ddrLost => { m with ddr := [] }

/-- The changes of one command, in order. -/
def Mem.applyAll (m : Mem) (os : List MemOp) : Mem := os.foldl Mem.apply m

/-- Ask for a change of a memory. -/
def Chip.mem (c : Chip) (o : MemOp) : Chip := { c with mout := c.mout ++ [o] }

end Sys2Proof.Machine
end

