-- ==== Sys2Proof/Machine/Ops.lean ====
section
/-! DEFINITION. The named operations every command is built from: fields of registers, counters, free values, the output
record, the model's instants and the local clock. -/

namespace Sys2Proof.Machine

open Sys2Proof

/-! ## Registers and counters -/

/-- Read instance `i` of a field: its stored value, or its reset value (R9, R11). -/
def Chip.rg (c : Chip) (f : Fld) (i : Nat) : Nat := Tab.get (f.rst.at i) c.regs (f.key i)

/-- Set instance `i` of a field to a value of its width. -/
def Chip.wg (c : Chip) (f : Fld) (i : Nat) (v : Nat) : Chip :=
  { c with regs := c.regs.set (f.key i) (v % 2 ^ f.width) }

/-- A one-bit field as a truth value. -/
def Chip.rb (c : Chip) (f : Fld) (i : Nat) : Bool := decide (c.rg f i = 1)

/-- Set a one-bit field from a truth value. -/
def Chip.wb (c : Chip) (f : Fld) (i : Nat) (b : Bool) : Chip := c.wg f i (b2n b)

/-- A field read as a two's-complement number of its width. -/
def Chip.rs (c : Chip) (f : Fld) (i : Nat) : Int := sgn f.width (c.rg f i)

/-- Set a field to the two's-complement pattern of a number limited to its range. -/
def Chip.ws (c : Chip) (f : Fld) (i : Nat) (x : Int) : Chip := c.wg f i (unsgn f.width (satInt f.width x))

/-- Set a field to a count that saturates at its width. -/
def Chip.wsat (c : Chip) (f : Fld) (i : Nat) (v : Nat) : Chip := c.wg f i (satNat f.width v)

/-- Is bit `k` of a field set? -/
def Chip.rbit (c : Chip) (f : Fld) (i k : Nat) : Bool := bit (c.rg f i) k

/-- Set or clear bit `k` of a field. -/
def Chip.wbit (c : Chip) (f : Fld) (i k : Nat) (b : Bool) : Chip := c.wg f i (putBit (c.rg f i) k b)

/-- The live value of a counter (R111). -/
def Chip.counter (c : Chip) (k : Ctr) (i : Nat) : Nat := Tab.get 0 c.cnt (k.key i)

/-- Add to a counter, which wraps at 2⁴⁸ (R111). -/
def Chip.incBy (c : Chip) (k : Ctr) (i n : Nat) : Chip :=
  { c with cnt := c.cnt.set (k.key i) ((c.counter k i + n) % 2 ^ 48) }

/-- Count one event. -/
def Chip.inc (c : Chip) (k : Ctr) (i : Nat) : Chip := c.incBy k i 1

/-- A word of the table window: a free value where its content is undefined (R68, log entry 41). -/
def Chip.winGet (c : Chip) (a : Nat) : Nat :=
  match c.win.find a with
  | some v => v
  | none =>
    match c.alm.undef.find? (fun r => decide (r.1 ≤ a ∧ a < r.1 + r.2.1)) with
    | some r => Config.freeVal (r.2.2 + (a - r.1) / 4) % 2 ^ 32
    | none => 0

/-- Set a word of the table window. -/
def Chip.winSet (c : Chip) (a v : Nat) : Chip := { c with win := c.win.set a (v % 2 ^ 32) }

/-- Ranges of undefined content without the `n` bytes from `a` on. -/
def cutUndef (l : List (Nat × Nat × Nat)) (a n : Nat) : List (Nat × Nat × Nat) :=
  l.flatMap (fun r =>
    if r.1 + r.2.1 ≤ a ∨ a + n ≤ r.1 then [r]
    else (if r.1 < a then [(r.1, a - r.1, r.2.2)] else []) ++
      (if a + n < r.1 + r.2.1 then [(a + n, r.1 + r.2.1 - (a + n), r.2.2 + (a + n - r.1) / 4)] else []))

/-- The words of a range of the table window become 0; become undefined; become those of another range. -/
def Chip.winClear (c : Chip) (a n : Nat) : Chip :=
  { c with win := c.win.filter (fun (e : Nat × Nat) => decide (e.1 < a ∨ a + n ≤ e.1)), alm.undef := cutUndef c.alm.undef a n }
def Chip.winUndef (c : Chip) (a n : Nat) : Chip :=
  have d := c.winClear a n
  { d with alm.undef := (a, n, c.fresh) :: d.alm.undef, fresh := c.fresh + n / 4 }
def Chip.winCopy (c : Chip) (src dst n : Nat) : Chip :=
  have d := c.winClear dst n
  have part := fun (r : Nat × Nat × Nat) => (max src r.1, min (src + n) (r.1 + r.2.1))
  have hit := (c.alm.undef.filter (fun r => decide ((part r).1 < (part r).2))).map (fun r => ((part r).1 - src + dst, (part r).2 - (part r).1, r.2.2 + ((part r).1 - r.1) / 4))
  have d := { d with alm.undef := d.alm.undef ++ hit }
  (c.win.filter (fun (e : Nat × Nat) => decide (src ≤ e.1 ∧ e.1 < src + n))).foldl (fun e w => e.winSet (w.1 - src + dst) w.2) d

/-- Apply an operation for each number below `n`, from 0 upwards. -/
def forN {α : Type} (n : Nat) (f : Nat → α → α) (x : α) : α := (List.range n).foldl (fun a i => f i a) x

/-- Apply an operation where a condition holds. -/
def Chip.when (c : Chip) (b : Bool) (f : Chip → Chip) : Chip := if b then f c else c

/-- Record something that left the terminal (log entry 5). -/
def Chip.emit (c : Chip) (k : OutKind) (unit : Nat) (data : List Nat) (bytes : List Byte) : Chip :=
  { c with out := { kind := k, unit := unit, data := data, bytes := bytes } :: c.out }

/-- Draw a free value: nothing constrains it (log entry 3). -/
def Chip.draw (c : Chip) : Nat × Chip := (Config.freeVal c.fresh, { c with fresh := c.fresh + 1 })

/-! ## Fuses (13_security.md R376) -/

/-- Bits of the fuse image taken at boot. -/
def Chip.fuse (c : Chip) (lsb w : Nat) : Nat := bits c.sec.fuseImg lsb w

/-- A group whose check code is written; others take their default (R376). Groups are numbered as SEC_FUSE_CTRL numbers them. -/
def Chip.groupDone (c : Chip) (g : Nat) : Bool := bit c.sec.fuseDone g

/-- The GUARD group: LASER_CEIL in 0.1 dBm, SLEW_MAX in 0.1 ns/s, DUTY_MAX in percent. -/
def Chip.laserCeil (c : Chip) : Int := if c.groupDone 9 then sgn 16 (c.fuse 2312 16) else 60
def Chip.slewMax (c : Chip) : Nat := if c.groupDone 9 then c.fuse 2328 16 else 1000
def Chip.dutyMax (c : Chip) : Nat := if c.groupDone 9 then c.fuse 2344 8 else 10

/-! ## ZCP status codes (11_host_control_and_dma.md R338) -/

def stOk : Nat := 0
def stAddress : Nat := 1
def stAccess : Nat := 2
def stLocked : Nat := 3
def stRefused : Nat := 4
def stAlign : Nat := 5
def stBusy : Nat := 6
def stUnknownTxn : Nat := 7
def stTxn : Nat := 8
def stFormat : Nat := 9
def stUnsupported : Nat := 10
def stSize : Nat := 11
def stMemory : Nat := 12
def stSkipped : Nat := 13

/-- A row that is a host write by itself: its effect and its answer. -/
def Chip.answered (c : Chip) (f : Chip → Chip × Nat) : Chip :=
  have r := f c
  r.1.emit .answer 0 [r.2] []

/-- Picoseconds of a microsecond, a millisecond and a second. -/
def usPs : Nat := 1000000
def msPs : Nat := 1000000000
def secPs : Nat := 1000000000000

/-! ## Instants -/

/-- The instant of a command: instants do not run back (log entry 1). -/
def Chip.tick (c : Chip) (t : Nat) : Chip := { c with now := max c.now t }

/-- The chip once the changes of the memories that its command asked for are made. -/
def Chip.done (c : Chip) : Chip := { c with mout := [] }

/-- The state that a command leaves: the chip, with the changes of the memories that it asked for made. -/
def State.after (s : State) (c : Chip) : State := { s with chip := c.done, mem := s.mem.applyAll c.mout }

/-- Run a command of the board at instant `t`, whatever the supplies: the chip changes by `f`, which may read the memories; then the
changes of the memories that it asked for are made. -/
def State.onAny (s : State) (t : Nat) (f : Mem → Chip → Chip) : Host.Outcome State Fault Refusal :=
  .next (s.after (f s.mem (s.chip.tick t)))

/-- Is the terminal out of reset, with its supplies, and not tripped (R424, R444, R446)? -/
def Chip.running (c : Chip) : Bool := decide (c.el.phase = 5) && !c.pw.tripped

/-- Run a command at instant `t`: a terminal that is not running acts on nothing. -/
def State.on (s : State) (t : Nat) (f : Mem → Chip → Chip) : Host.Outcome State Fault Refusal :=
  s.onAny t (fun m c => if c.running then f m c else c)

/-! ## The local clock (R263, R268, R283) -/

/-- Picoseconds since the clocks were last brought up to date. -/
def Chip.clkAge (c : Chip) : Nat := c.now - c.tm.clkAt

/-- What a rate in 2⁻¹⁶ ns/s gains over the present age. -/
def Chip.gain (c : Chip) (r : Int) : Int := r * (c.clkAge : Int) / (secPs : Nat)

/-- Base clock B at the present instant, in 2⁻¹⁶ ns (R268): the instants of the model run with the primary resonator, and y0
corrects them (log entry 7). -/
def Chip.bNow (c : Chip) : Int := c.tm.base + ((c.clkAge * 65536 / 1000 : Nat) : Int) + c.gain c.tm.y0

/-- Local time L at the present instant, in 2⁻¹⁶ ns: B, the offset and the steer rate since the last update (R283). -/
def Chip.lNow (c : Chip) : Int := c.bNow + c.tm.off + c.gain c.tm.r

/-- Elapsed local time: L without its steps (R367), in 2⁻¹⁶ ns. -/
def Chip.eNow (c : Chip) : Int := c.lNow - c.tm.stepped

/-- A microsecond in 2⁻¹⁶ ns. -/
def usU : Int := 65536000

/-- The domain T-A (0) or T-B (1). -/
def Chip.dom (c : Chip) (d : Nat) : Dom := if d = 0 then c.tm.domA else c.tm.domB

/-- Change a domain. -/
def Chip.setDom (c : Chip) (d : Nat) (x : Dom) : Chip :=
  if d = 0 then { c with tm.domA := x } else { c with tm.domB := x }

/-- Domain time D_d at the present instant (R268). -/
def Chip.dNow (c : Chip) (d : Nat) : Int := c.bNow + (c.dom d).phi + c.gain (c.dom d).rate

/-- Bring the clocks up to the present instant: nothing that is read of them changes. -/
def Chip.clk (c : Chip) : Chip :=
  { c with tm := { c.tm with
      base := c.bNow, off := c.lNow - c.bNow, clkAt := c.now,
      domA := { c.tm.domA with phi := c.tm.domA.phi + c.gain c.tm.domA.rate },
      domB := { c.tm.domB with phi := c.tm.domB.phi + c.gain c.tm.domB.rate } } }

/-- L as a count of whole nanoseconds. -/
def Chip.lNs (c : Chip) : Nat := (c.lNow / 65536).toNat

/-- SEC, NS and FRAC of a time in 2⁻¹⁶ ns (R263). -/
def secOf (x : Int) : Nat := (x / 65536 / 1000000000).toNat % 2 ^ 48
def nsOf (x : Int) : Nat := (x / 65536 % 1000000000).toNat
def fracOf (x : Int) : Nat := (x % 65536).toNat

/-- The 32-bit nanosecond field of a stamp (R266). -/
def tsNsOf (x : Int) : Nat := (x / 65536 % 4294967296).toNat

end Sys2Proof.Machine
end

