-- ==== Sys2Proof/Machine/Sha3.lean ====
section
/-! DEFINITION. SHA3-512 (02_almanac.md R59 names FIPS 202): PRESUMED from that standard (log entry 4). -/

namespace Sys2Proof.Machine

/-- A 64-bit lane rotated to the left. -/
def rol64 (x n : Nat) : Nat := ((x <<< n) ||| (x >>> (64 - n))) % 18446744073709551616

/-- Rotation of lane x + 5y in step ρ. -/
def rhoOff : List Nat := [0, 1, 62, 28, 27, 36, 44, 6, 55, 20, 3, 10, 43, 25, 39, 41, 45, 15, 21, 8, 18, 2, 61, 56, 14]

/-- Constants of step ι. -/
def iotaConst : List Nat :=
  [0x0000000000000001, 0x0000000000008082, 0x800000000000808A, 0x8000000080008000, 0x000000000000808B, 0x0000000080000001] ++
  [0x8000000080008081, 0x8000000000008009, 0x000000000000008A, 0x0000000000000088, 0x0000000080008009, 0x000000008000000A] ++
  [0x000000008000808B, 0x800000000000008B, 0x8000000000008089, 0x8000000000008003, 0x8000000000008002, 0x8000000000000080] ++
  [0x000000000000800A, 0x800000008000000A, 0x8000000080008081, 0x8000000000008080, 0x0000000080000001, 0x8000000080008008]

/-- One lane of a state. -/
def lane (a : List Nat) (x y : Nat) : Nat := a.getD (x % 5 + 5 * (y % 5)) 0

/-- Step θ. -/
def keccakTheta (a : List Nat) : List Nat :=
  have col := (List.range 5).map (fun x => lane a x 0 ^^^ lane a x 1 ^^^ lane a x 2 ^^^ lane a x 3 ^^^ lane a x 4)
  (List.range 25).map (fun i => a.getD i 0 ^^^ col.getD ((i + 4) % 5) 0 ^^^ rol64 (col.getD ((i + 1) % 5) 0) 1)

/-- Steps ρ and π: lane (x, y) comes from lane (x + 3y, x). -/
def keccakRhoPi (a : List Nat) : List Nat :=
  (List.range 25).map (fun i =>
    have x := i % 5
    have y := i / 5
    have j := (x + 3 * y) % 5 + 5 * x
    rol64 (a.getD j 0) (rhoOff.getD j 0))

/-- Step χ. -/
def keccakChi (a : List Nat) : List Nat :=
  (List.range 25).map (fun i =>
    have x := i % 5
    have y := i / 5
    lane a x y ^^^ ((18446744073709551615 - lane a (x + 1) y) &&& lane a (x + 2) y))

/-- One round. -/
def keccakRound (a : List Nat) (rc : Nat) : List Nat :=
  match keccakChi (keccakRhoPi (keccakTheta a)) with
  | [] => []
  | h :: t => (h ^^^ rc) :: t

/-- The permutation. -/
def keccakF (a : List Nat) : List Nat := iotaConst.foldl keccakRound a

/-- A number from bytes, least significant first, and back. -/
def leNat : List Byte → Nat
  | [] => 0
  | b :: r => b.toNat + 256 * leNat r
def leBytes : Nat → Nat → List Byte
  | 0, _ => []
  | n + 1, v => BitVec.ofNat 8 v :: leBytes n (v / 256)

/-- Absorb blocks of 72 bytes. -/
def keccakAbsorb : Nat → List Nat → List Byte → List Nat
  | 0, a, _ => a
  | n + 1, a, l =>
    have x := (List.range 25).map (fun i => if i < 9 then a.getD i 0 ^^^ leNat (slice l (8 * i) 8) else a.getD i 0)
    keccakAbsorb n (keccakF x) (l.drop 72)

/-- SHA3-512 of a list of bytes. -/
def sha3_512 (l : List Byte) : List Byte :=
  have n := l.length / 72 + 1
  have k := 72 * n - l.length
  have pad : List Byte := if k = 1 then [0x86] else [0x06] ++ List.replicate (k - 2) 0 ++ [0x80]
  have a := keccakAbsorb n (List.replicate 25 0) (l ++ pad)
  (a.take 8).flatMap (fun w => leBytes 8 w)

/-- The bytes of an ASCII text. -/
def ascii (s : String) : List Byte := s.toList.map (fun ch => BitVec.ofNat 8 ch.toNat)

end Sys2Proof.Machine
end

