-- ==== Sys2Proof/Machine/Frames.lean ====
section
/-! DEFINITION. Frames in the buffers: bus fields (05_packet_pipeline.md R155), generation references (R177), charges and flow
control towards the radios (06_queues_and_shaping.md R209 to R211), dropping a queued frame, MAC addresses (R468), and the
link of a local port going down (10_ports_and_lanes.md R306, R307). -/

namespace Sys2Proof.Machine

open Sys2Proof

/-- A field of the metadata bus. -/
def busGet (bus lsb w : Nat) : Nat := bits bus lsb w

/-- Set a field of the metadata bus. -/
def busSet (bus lsb w v : Nat) : Nat := bus - bits bus lsb w * 2 ^ lsb + (v % 2 ^ w) * 2 ^ lsb

/-- TC, HASH, OUT_TAG and KEY of a frame's bus. -/
def Frame.tc (f : Frame) : Nat := busGet f.bus 361 3
def Frame.hash (f : Frame) : Nat := busGet f.bus 364 32
def Frame.outTag (f : Frame) : Nat := busGet f.bus 307 16
def Frame.key (f : Frame) : Nat := busGet f.bus 299 8
def Frame.hdrMap (f : Frame) : Nat := busGet f.bus 402 64

/-- Cells of a frame of `n` bytes (R185). -/
def cellsOf (n : Nat) : Nat := cdiv n 64

/-! ## Objects of the active Almanac (02_almanac.md R51) -/

/-- The body of an object of the active Almanac. -/
def Chip.obj (c : Chip) (rtype inst : Nat) : Option (List Byte) := c.alm.active.find (rtype * 65536 + inst)

/-- The side that TRUNK_SIDE of the CHIP record names (R56). -/
def Chip.homeSide (c : Chip) : Nat := match c.obj 0x0103 0 with
  | some b => (b.getD 2 0).toNat % 2
  | none => 0

/-- A byte and a big-endian 16-bit or 32-bit field of a body. -/
def byteAt (l : List Byte) (o : Nat) : Nat := beAt l o 1
def half (l : List Byte) (o : Nat) : Nat := beAt l o 2
def word (l : List Byte) (o : Nat) : Nat := beAt l o 4

/-- Block and slot of a local port (R53); before an Almanac, the natural order (log entry 10). -/
def Chip.portBlk (c : Chip) (p : Nat) : Nat := match c.obj 0x0101 p with
  | some b => byteAt b 2
  | none => p / 4
def Chip.portSlot (c : Chip) (p : Nat) : Nat := match c.obj 0x0101 p with
  | some b => byteAt b 3
  | none => p % 4

/-- The port in a slot of a block. -/
def Chip.slotPort (c : Chip) (b slot : Nat) : Option Nat :=
  (List.range 128).find? (fun p => decide (c.portBlk p = b ∧ c.portSlot p = slot))

/-- The four ports of a block. -/
def Chip.blkPorts (c : Chip) (b : Nat) : List Nat := (List.range 128).filter (fun p => decide (c.portBlk p = b))

/-- MAX_FRAME in force (R56). -/
def Chip.maxFrame (c : Chip) : Nat := match c.obj 0x0103 0 with
  | some b => if half b 0 = 0 then 9216 else half b 0
  | none => 9216

/-! ## Generation references (R177) -/

/-- Slot of PKT_GEN_SLOT that holds a live generation. -/
def Chip.genSlot (c : Chip) (g : Nat) : Option Nat :=
  [0, 1, 2, 3].find? (fun n => c.rb R.PKT_GEN_SLOT_LIVE n && decide (c.rg R.PKT_GEN_SLOT_GEN n = g))

/-- ALM_RULE_GEN.LIVE counts the live generations. -/
def Chip.liveCount (c : Chip) : Chip :=
  c.wg R.ALM_RULE_GEN_LIVE 0 (([0, 1, 2, 3].filter (fun n => c.rb R.PKT_GEN_SLOT_LIVE n)).length)

/-- PKT_STAGE_STAT.USE of every stage from the live generations (R184). -/
def Chip.stageUse (c : Chip) : Chip :=
  forN 12 (fun s d =>
    d.wg R.PKT_STAGE_STAT_USE s (([0, 1, 2, 3].filter (fun n => d.rb R.PKT_GEN_SLOT_LIVE n)).foldl
      (fun m n => setBit m (bitN (d.rg R.PKT_GEN_SLOT_BANKS n) s)) 0)) c

/-- A frame takes a reference to its generation. -/
def Chip.refTake (c : Chip) (g : Nat) : Chip :=
  match c.genSlot g with
  | some n => c.wg R.PKT_GEN_REFS_COUNT n (c.rg R.PKT_GEN_REFS_COUNT n + 1)
  | none => c

/-- A frame releases its reference; a generation that is not current and has none left stops being live (R177). -/
def Chip.refDrop (c : Chip) (g : Nat) : Chip :=
  match c.genSlot g with
  | some n =>
    have d := c.wg R.PKT_GEN_REFS_COUNT n (c.rg R.PKT_GEN_REFS_COUNT n - 1)
    if d.rg R.PKT_GEN_REFS_COUNT n = 0 ∧ d.rb R.PKT_GEN_SLOT_CUR n = false then
      ((d.wb R.PKT_GEN_SLOT_LIVE n false).liveCount).stageUse
    else d
  | none => c

/-! ## MAC addresses (R468) -/

/-- The fused SERIAL as 12 bytes, and the MAC base. -/
def Chip.serial (c : Chip) : List Byte := (List.range 12).map (fun i => BitVec.ofNat 8 (c.fuse (2352 + 8 * i) 8))
def Chip.macBase (c : Chip) : Nat := 0x0A * 2 ^ 40 + beNat ((sha3_512 c.serial).take 4) * 256

/-- A MAC register pair that was never written reads base plus its offset (R327, R468). -/
def Chip.macOf (c : Chip) (lo hi : Fld) (i ofs : Nat) : Nat :=
  Tab.get ((c.macBase + ofs) % 2 ^ 32) c.regs (lo.key i) + Tab.get ((c.macBase / 2 ^ 32) % 2 ^ 16) c.regs (hi.key i) * 2 ^ 32

/-- MAC address of local port `p`, of the host port, of the sensor bus. -/
def Chip.portMac (c : Chip) (p : Nat) : Nat := c.macOf R.PRT_MAC_LO_MAC R.PRT_MAC_HI_MAC p p
def Chip.hostMac (c : Chip) : Nat := c.macOf R.HST_MAC_LO_MAC R.HST_MAC_HI_MAC 0 128
def Chip.sbusMac (c : Chip) : Nat := c.macOf R.SBS_MAC_LO_MAC R.SBS_MAC_HI_MAC 0 129

/-- The chip clockIdentity (R468). -/
def Chip.clockId (c : Chip) : List Byte :=
  have m := beBytes 6 c.macBase
  m.take 3 ++ [0xFF, 0xFE] ++ m.drop 3

/-! ## Rates of a port -/

/-- Rate of a port in Mbit/s from its RATE code (R304). -/
def rateMbps (code : Nat) : Nat :=
  match code with
  | 1 => 25000
  | 2 => 50000
  | 3 => 100000
  | 4 => 200000
  | _ => 0

/-- Rate of a local port in Mbit/s. -/
def Chip.portRate (c : Chip) (p : Nat) : Nat := rateMbps (c.rg R.PRT_CFG_RATE p)

/-- Picoseconds that `n` bits take at a rate in Mbit/s. -/
def bitsPs (n rate : Nat) : Nat := if rate = 0 then 0 else n * 1000000 / rate

/-- What the lane reference of the local ports runs fast of the primary resonator, in 2⁻¹⁶ ns/s (R301, R314): the base clock B, with
SYNCE_EN the rate of L, or of B in FREE. -/
def Chip.laneOfs (c : Chip) : Int :=
  if c.rb R.TMG_OUT_CFG_SYNCE_EN 0 ∧ c.rg R.TMG_STAT_STATE 0 ≠ 0 then c.tm.y0 + c.tm.r else c.tm.y0

/-- Picoseconds that `n` bits take on the transmit lane of port `p`. -/
def Chip.lanePs (c : Chip) (p n : Nat) : Nat :=
  ((bitsPs n (c.portRate p) : Nat) * 65536000000000 / (65536000000000 + c.laneOfs)).toNat

/-- The port counts as able to take frames (R307). -/
def Chip.portEnabled (c : Chip) (p : Nat) : Bool :=
  decide (c.rg R.PRT_STAT_LINK p = 2 ∨ c.rg R.PRT_STAT_LINK p = 3)

/-! ## The transmit lane of a local port (R305) -/

/-- Is the lane of port `p` taken: a frame of unknown length is on it, or its last frame, preamble and gap are not over? -/
def Chip.lineBusy (c : Chip) (p : Nat) : Bool :=
  c.qs.tx.any (fun x => decide (x.port = p ∧ (x.f.known = false ∨ c.now < x.endAt))) || decide (c.now < Tab.get 0 c.pt.freeAt p)

/-- Is a frame on the lane of port `p`, or has only the gap behind it not passed? -/
def Chip.onLane (c : Chip) (p : Nat) : Bool :=
  c.qs.tx.any (fun x => decide (x.port = p ∧ x.f.known = false)) || decide (c.now + c.lanePs p 96 < Tab.get 0 c.pt.freeAt p)

/-- Is port `p` in a loop that returns what its lane would send to its own receiver (R317)? -/
def Chip.nearLoop (c : Chip) (p : Nat) : Bool :=
  decide (c.rg R.PRT_STAT_LINK p = 4) && decide (c.rg R.PRT_LOOP_LOOP p = 1 ∨ c.rg R.PRT_LOOP_LOOP p = 2)

/-- Bytes with FCS pass the transmit edge of port `p` (R317): a near-end loop returns them to the receiver, PRBS31 takes the place of the
lane's stream, and otherwise they leave on the fibre. -/
def Chip.laneOut (c : Chip) (p : Nat) (kind : OutKind) (data : List Nat) (l : List Byte) : Chip :=
  if c.nearLoop p ∧ (c.rg R.PRT_LOOP_LOOP p = 1 ∨ c.rb R.PRT_LOOP_PRBS_GEN p = false) then
    { c with pt.loopQ := c.pt.loopQ ++ [{ port := p, bytes := l }] }
  else if c.nearLoop p ∨ c.rb R.PRT_LOOP_PRBS_GEN p = true then c
  else c.emit kind p data l

/-- May frames leave on port `p` now: UP with no remote fault (R306), or a loop inside the terminal (R317)? -/
def Chip.lineUp (c : Chip) (p : Nat) : Bool :=
  (decide (c.rg R.PRT_STAT_LINK p = 2) && !c.rb R.PRT_STAT_RF p) || decide (c.rg R.PRT_STAT_LINK p = 4)

/-- `n` bytes with FCS take the lane of port `p` from an instant on: counted as sent (log entry 35). -/
def Chip.lineTake (c : Chip) (p start n : Nat) : Chip :=
  have c := (c.inc C.PRT_TX_FRAMES p).incBy C.PRT_TX_BYTES p n
  { c with pt.freeAt := c.pt.freeAt.set p (start + c.lanePs p ((n + 20) * 8)), pt.busyAt := c.pt.busyAt.set p start }

/-- A PAUSE or PFC frame is sent (R210): it waits for the end of the frame in transmission, for a sleeping link or a remote fault, and
a port that is down sends nothing. -/
def Chip.pauseSend (c : Chip) (p : Nat) (l : List Byte) : Chip :=
  if c.rg R.PRT_STAT_LINK p = 4 ∧ c.rg R.PRT_LOOP_LOOP p = 3 then c.inc C.PRT_TX_FLUSH p
  else if c.lineUp p = true ∧ c.lineBusy p = false then ((c.lineTake p c.now l.length).inc C.PRT_TX_CTRL p).laneOut p .pauseFrame [c.now] l
  else if c.lineUp p ∨ c.portEnabled p then { c with pt.ctlQ := c.pt.ctlQ ++ [{ port := p, kind := .pauseFrame, flag := false, bytes := l }] }
  else c

/-! ## Cells in use (R185, R187, R209) -/

/-- Is a chosen frame still being sent: on its lane, in a burst that is formed or under way, or with a rest that waits for one? -/
def Chip.sending (c : Chip) (x : QFrame) : Bool :=
  c.qs.tx.any (fun t => decide (t.f.id = x.f.id ∧ (t.f.known = false ∨ c.now < t.endAt))) ||
    (c.up.formed ++ c.up.active).any (fun b => b.took.any (fun y => decide (y.f.id = x.f.id))) || c.up.splits.any (fun s => decide (s.id = x.f.id))

/-- The frames that hold buffer cells: those queued, and those chosen that are not sent yet. -/
def Chip.holding (c : Chip) : List QFrame := c.qs.frames ++ c.qs.out.filter (fun x => c.sending x)

/-! ## Charges and PFC (R209 to R211) -/

/-- Cells of admitted frames that arrived on port `p` with bus TC `t` (R209). -/
def Chip.charged (c : Chip) (p t : Nat) : Nat :=
  ((c.holding.filter (fun x => decide (x.f.origin = 0 ∧ x.f.src = p ∧ x.f.tc = t))).map (·.cells)).sum

/-- The same over all priorities, for MODE 1 (R210). -/
def Chip.chargedAll (c : Chip) (p : Nat) : Nat :=
  ((c.holding.filter (fun x => decide (x.f.origin = 0 ∧ x.f.src = p))).map (·.cells)).sum

/-- Index of the threshold registers of port `p` and priority `t` (stride 4 of the map). -/
def pfcIdx (p t : Nat) : Nat := 32 * p + 3 * t

/-- Priority `t` of port `p` as the flow control sees it: the charge and whether MODE puts it under threshold control. -/
def Chip.pfcCharge (c : Chip) (p t : Nat) : Nat :=
  if c.rg R.SCH_PFC_CFG_MODE p = 1 then c.chargedAll p else c.charged p t

/-- A PAUSE or PFC frame of port `p` (R210): the classes it names and those among them that it pauses. -/
def Chip.pauseFrame (c : Chip) (p named paused : Nat) : List Byte :=
  have q := c.rg R.SCH_PFC_CFG_QUANTA p
  have head := beBytes 6 0x0180C2000001 ++ beBytes 6 (c.portMac p) ++ beBytes 2 0x8808
  if c.rg R.SCH_PFC_CFG_MODE p = 1 then
    framed (head ++ beBytes 2 1 ++ beBytes 2 (if bit paused 0 then q else 0))
  else
    framed (head ++ beBytes 2 0x0101 ++ beBytes 2 named ++
      (List.range 8).flatMap (fun t => beBytes 2 (if bit paused t then q else 0)))

/-- Priorities of a port that flow control looks at: none, priority 0 for PAUSE, all eight for PFC. -/
def Chip.pfcClasses (c : Chip) (p : Nat) : List Nat :=
  match c.rg R.SCH_PFC_CFG_MODE p with
  | 1 => [0]
  | 2 => List.range 8
  | _ => []

/-- After a change of the charges of port `p`: priorities that reach XOFF become paused, those that fall to XON are released,
and one frame tells the radio (R210). -/
def Chip.pfcUpdate (c : Chip) (p : Nat) : Chip :=
  have old := c.rg R.SCH_PFC_STAT_XOFF p
  have cls := c.pfcClasses p
  have on := cls.filter (fun t => !bit old t && decide (c.rg R.SCH_PFC_XOFF_CELLS (pfcIdx p t) ≤ c.pfcCharge p t))
  have off := cls.filter (fun t => bit old t && decide (c.pfcCharge p t ≤ c.rg R.SCH_PFC_XON_CELLS (pfcIdx p t)))
  if on.isEmpty && off.isEmpty then c
  else
    have new := off.foldl clrBit (on.foldl setBit old)
    have d := c.wg R.SCH_PFC_STAT_XOFF p new
    have d := { d with qs.pfcAt := on.foldl (fun (t : Tab Nat) i => t.set (pfcIdx p i) d.now) d.qs.pfcAt }
    have named := (on ++ off).foldl setBit 0
    have d := d.pauseSend p (d.pauseFrame p named (on.foldl setBit 0))
    if d.portEnabled p then (d.incBy C.SCH_BLK_PFC_XOFF_SENT (c.portBlk p) (if on.isEmpty then 0 else 1)).incBy C.SCH_BLK_PFC_XON_SENT (c.portBlk p) (if off.isEmpty then 0 else 1) else d

/-! ## Queued frames (R185 to R190) -/

/-- On-die cells a queue holds, in all slices (R186). -/
def Chip.occ (c : Chip) (q : Nat) : Nat :=
  ((c.holding.filter (fun x => decide (x.q = q) && x.spill.isNone)).map (·.cells)).sum

/-- Bytes a queue holds in HBM (R189). -/
def Chip.spilledBytes (c : Chip) (q : Nat) : Nat :=
  ((c.qs.frames.filter (fun x => decide (x.q = q) && x.spill.isSome)).map (·.f.len)).sum

/-- Bytes of a region's share of HBM in use (R190); the share follows the block that received the frame. -/
def Chip.hbmBytes (c : Chip) (n : Nat) : Nat :=
  ((c.qs.frames.filter (fun x => decide (x.f.blk / 8 = n) && x.spill.isSome)).map (·.f.len)).sum

/-- Cells of a slice in use, and those of them taken from the shared pool (R185, R188). -/
def Chip.sliceUsed (c : Chip) (b : Nat) : Nat :=
  ((c.holding.filter (fun x => decide (x.f.blk = b) && x.spill.isNone)).map (·.cells)).sum
def Chip.sharedUsed (c : Chip) (b : Nat) : Nat :=
  ((c.holding.filter (fun x => decide (x.f.blk = b) && x.spill.isNone && !x.reserve)).map (·.cells)).sum

/-- The observation registers of a queue and its region follow the frames queued (R213); CELLS and FREE are read from `occ` and
`sliceUsed`. -/
def Chip.queueStat (c : Chip) (q b : Nat) : Chip :=
  have mine := c.qs.frames.filter (fun x => decide (x.q = q))
  have c := c.wb R.SCH_Q_OCC_UNBOUND q (c.rb R.SCH_Q_CFG_DIR q && mine.any (fun x => x.member.isNone))
  have c := c.wg R.SCH_Q_SPILLED_KIB q (cdiv (c.spilledBytes q) 1024)
  have c := c.wg R.SCH_Q_FRAMES_FRAMES q mine.length
  have c := c.wg R.SCH_SPILL_STAT_USED (b / 8) (cdiv (c.hbmBytes (b / 8)) 1048576)
  if c.rb R.SCH_Q_OCC_SPILLING q && decide (c.spilledBytes q = 0) then c.wb R.SCH_Q_OCC_SPILLING q false else c

/-- Take a frame out of its queue: its cells return and its charge ends (R209). -/
def Chip.unqueue (c : Chip) (x : QFrame) : Chip :=
  have d := { c with qs.frames := c.qs.frames.filter (fun y => decide (y.f.id ≠ x.f.id)) }
  have d := d.queueStat x.q x.f.blk
  if x.f.origin = 0 then d.pfcUpdate x.f.src else d

/-- Chosen frames that have been sent give up their cells, and their charges end (R209). -/
def Chip.outSweep (c : Chip) : Chip :=
  have gone := c.qs.out.filter (fun x => !c.sending x)
  (gone.filter (fun x => decide (x.f.origin = 0))).foldl (fun d x => d.pfcUpdate x.f.src) { c with qs.out := c.qs.out.filter (fun (x : QFrame) => c.sending x) }

/-- Drop a queued frame; a drop counts in DROP_FRAMES of its queue (R186). -/
def Chip.dropQueued (c : Chip) (x : QFrame) : Chip := (c.unqueue x).inc C.SCH_Q_DROP_FRAMES x.q

/-! ## A local port leaves UP (R306, R307) -/

/-- LINK of a port takes a state; a change sets LINK_CHG (R306). -/
def Chip.setLink (c : Chip) (p st : Nat) : Chip :=
  if c.rg R.PRT_STAT_LINK p = st then c
  else (c.wg R.PRT_STAT_LINK p st).wg R.PRT_EVT_LINK_CHG p 1

/-- A frame in transmission on a failing link, be it one of the port's own hardware, is lost and counted, not stomped (R307). -/
def Chip.loseTx (c : Chip) (p : Nat) : Chip :=
  have d := { c with qs.tx := c.qs.tx.filter (fun x => decide (x.port ≠ p)), pt.freeAt := c.pt.freeAt.erase p }
  if c.onLane p then d.inc C.PRT_TX_FLUSH p else d

/-- FLUSH_TO begins for the frames queued for a port that leaves UP (R307). -/
def Chip.flushStart (c : Chip) (p : Nat) : Chip := { c with pt.flushAt := c.pt.flushAt ++ [(p, c.now)] }

/-- The link goes down: counted, frames in transmission lost, queued frames begin their wait of FLUSH_TO when the port leaves
UP (R306, R307). -/
def Chip.portDown (c : Chip) (p : Nat) : Chip :=
  if c.rg R.PRT_STAT_LINK p = 0 then c
  else
    have was := c.rg R.PRT_STAT_LINK p
    have d := (c.loseTx p).setLink p 0
    have d := d.inc C.PRT_LINK_DOWN p
    have d := { ((d.wg R.PRT_STAT_RX_IDLE p 0).wg R.PRT_STAT_RF p 0) with pt.ctlQ := d.pt.ctlQ.filter (fun (x : CtlTx) => decide (x.port ≠ p)), pt.wakeAt := d.pt.wakeAt.erase p }
    if was = 2 ∨ was = 3 then d.flushStart p else d

/-! ## Work queues that hardware produces (12_management_cores.md R365) -/

/-- Slots of a work queue, bytes of a slot, and its occupancy. -/
def Chip.wqSlots (c : Chip) (w : Nat) : Nat :=
  if w ≤ 15 then 1024 else if w ≤ 31 then 4096 else if w = 32 then 256 else 2 ^ c.rg R.MCU_WQ_CFG_SIZE_LOG2 w
def wqSlotBytes (w : Nat) : Nat := if w ≤ 15 then 64 else if w ≤ 31 then 16384 else if w = 32 then 1536 else 16
def Chip.wqOcc (c : Chip) (w : Nat) : Nat := (c.rg R.MCU_WQ_HEAD_INDEX w + 65536 - c.rg R.MCU_WQ_TAIL_INDEX w) % 65536

/-- A queue that is in use takes one more slot. -/
def Chip.wqFree (c : Chip) (w : Nat) : Bool := c.rb R.MCU_WQ_CFG_EN w && decide (c.wqOcc w < c.wqSlots w)

/-- Address in DDR5 of a slot of a queue w ≥ 16. -/
def Chip.wqAddr (c : Chip) (w index : Nat) : Nat := c.rg R.MCU_WQ_BASE_BASE4K w * 4096 + wqSlotBytes w * (index % c.wqSlots w)

/-- The event of source n has come: SOURCE_PENDING n makes it pending (R364). -/
def Chip.srcEvent (c : Chip) (n : Nat) : Chip := if c.mc.srcDue.contains n then c else { c with mc.srcDue := c.mc.srcDue ++ [n] }

/-- A pulse of a request line of the DMA engine: DMA_REQUEST brings it to the channels (R351). -/
def Chip.linePulse (c : Chip) (line : Nat) : Chip := { c with hp.lineDue := c.hp.lineDue.set line (Tab.get 0 c.hp.lineDue line + 1) }

/-- Hardware writes a slot and advances HEAD. -/
def Chip.wqPush (c : Chip) (w : Nat) (b : List Byte) : Chip :=
  have h := c.rg R.MCU_WQ_HEAD_INDEX w
  have d := if w ≤ 15 then { c with mc.rings := c.mc.rings.set (1024 * w + h % 1024) b } else c.mem (.ddr (c.wqAddr w h) b)
  (d.wg R.MCU_WQ_HEAD_INDEX w (h + 1)).srcEvent w

/-! ## Receive edges (01_architecture.md R23, R24, R26) -/

/-- Width in bytes and depth in entries of the receive edge FIFO of a local port (origin 0) or a trunk engine (1), and the depth of
each time stamp capture FIFO (R23). -/
def rxFifo (origin : Nat) : Nat × Nat := if origin = 0 then (32, 64) else (128, 256)
def stampFifo : Nat := 16

/-- The new arrivals of a local port or of a wavelength that wait in its receive edge FIFO, oldest first (R19). -/
def Chip.arrivals (c : Chip) (origin src : Nat) : List Frame :=
  c.pp.waiting.filter (fun f => decide (f.origin = origin ∧ (if origin = 0 then f.src else f.wl) = src))

/-- Entries that frames take in the FIFO. -/
def fifoUse (origin : Nat) (l : List Frame) : Nat := (l.map (fun f => cdiv f.bytes.length (rxFifo origin).1)).sum

/-- Would `n` more bytes overflow the receive edge FIFO (R24)? Those of a new frame (`id` none), or of one that waits there. The frame
at the head drains into the core as it arrives, so the frames behind it fill the FIFO (log entry 67). -/
def Chip.fifoOver (c : Chip) (origin src : Nat) (id : Option Nat) (n : Nat) : Bool :=
  match c.arrivals origin src with
  | [] => false
  | _ :: r => (id.isNone || r.any (fun f => decide (id = some f.id))) && decide ((rxFifo origin).2 < fifoUse origin r + cdiv n (rxFifo origin).1)

/-- Has the stamp capture FIFO room for the stamp of a new frame (R26)? A stamp leaves it when its frame begins its pass. -/
def Chip.stampRoom (c : Chip) (origin src : Nat) : Bool := decide (((c.arrivals origin src).filter (fun f => f.tsOk)).length < stampFifo)

end Sys2Proof.Machine
end

