-- ==== Sys2Proof/Machine/OpPoints.lean ====
section
/-! DEFINITION. Operating points of the regions and requests for them (14_power_and_health.md R419 to R421, R423), which a region's
error handler uses too (01_architecture.md R32). -/

namespace Sys2Proof.Machine

open Sys2Proof

/-- Does the domain count as ON? PSTATE is ON and no entry sequence has begun (R464). -/
def Chip.domOn (c : Chip) (d : Nat) : Bool :=
  decide (c.rg R.PWR_DOM_STAT_PSTATE d = 2) && (match c.pw.dom.find d with
    | some r => decide (r.step ≠ 4 ∧ r.step ≠ 5)
    | none => true)

/-- A row that is a host write to a register of domain `d`: while the domain is not ON the write is not made and is answered REFUSED (R464). -/
def Chip.answeredIn (c : Chip) (d : Nat) (f : Chip → Chip × Nat) : Chip :=
  if c.domOn d then c.answered f else c.emit .answer 0 [stRefused] []

/-- An object of a table of records: its type and its instance. -/
def objOf (t : Tab (List Byte)) (rtype i : Nat) : Option (List Byte) := t.find (rtype * 65536 + i)

/-- The operating point k of region n in a table of records: voltage and cap (R419). -/
def opOf (t : Tab (List Byte)) (n k : Nat) : Nat × Nat := match objOf t 0x0701 (6 * n + k) with
  | some b => (half b 0, half b 2)
  | none => (600 + 50 * k, 1600 + 160 * k)
/-- Voltage and cap of an operating point of the active Almanac. -/
def Chip.opPoint (c : Chip) (n k : Nat) : Nat × Nat := opOf c.alm.active n k

/-- The highest cap that a voltage allows (R420). -/
def Chip.capMax (c : Chip) (n volt : Nat) : Nat :=
  ((List.range 6).filter (fun k => decide ((c.opPoint n k).1 ≤ volt))).foldl (fun m k => max m (c.opPoint n k).2) 0

/-- A request of region `n` starts: lower the cap first, or raise the voltage first. A region whose Qn is not ON takes it at once. -/
def Chip.opStart (c : Chip) (n : Nat) (op : Option Nat) (volt cap : Nat) : Chip :=
  if c.domOn (9 + n) = false then
    have c := (c.wg R.PWR_RGN_STAT_VOLT_MV n volt).wg R.PWR_RGN_STAT_CAP n cap
    match op with
    | some k => c.wg R.PWR_RGN_OP_CUR n k
    | none => c
  else
    have r : OpReq := { op := op, volt := volt, cap := cap, step := if cap < c.rg R.PWR_RGN_STAT_CAP n then 1 else 2, prevVolt := c.rg R.PWR_RGN_STAT_VOLT_MV n, at_ := c.now }
    { (c.wg R.PWR_RGN_OP_BUSY n 1) with pw.op := c.pw.op.set n r }

/-- A request of region `n`: starts, waits, or replaces the one that waits (R412, R421). -/
def Chip.opReq (c : Chip) (n : Nat) (op : Option Nat) (volt cap : Nat) : Chip :=
  match c.pw.op.find n with
  | none => c.opStart n op volt cap
  | some r =>
    have pend := (c.pw.opPend.find n).isSome
    if pend = false ∧ r.op = op ∧ r.volt = volt ∧ r.cap = cap then c
    else
      have c := if pend then c.inc C.PWR_DOM_SUPERSEDED (9 + n) else c
      have q : OpReq := { op := op, volt := volt, cap := cap, step := 0, prevVolt := 0, at_ := c.now }
      have c := { (c.wg R.PWR_RGN_OP_PEND_V n 1) with pw.opPend := c.pw.opPend.set n q }
      match op with
      | some k => c.wg R.PWR_RGN_OP_PEND n k
      | none => c

/-- A request for OPk. -/
def Chip.opAsk (c : Chip) (n k : Nat) : Chip := c.opReq n (some k) (c.opPoint n k).1 (c.opPoint n k).2

/-- T_THROTTLE, T_RELEASE and T_EVENTIDE in °C, and BELOW_FLOOR. -/
def Chip.thermal (c : Chip) : Nat × Nat × Nat × Bool := match c.obj 0x0703 0 with
  | some b => (byteAt b 0, byteAt b 1, byteAt b 2, bit (byteAt b 3) 0)
  | none => (105, 95, 115, false)

/-- FLOOR of region n: the lowest point whose cap is at least the required pace (R423). -/
def Chip.floorPoint (c : Chip) (n : Nat) : Nat :=
  ((List.range 6).find? (fun k => decide (c.rg R.HLT_PACE_REQ_REQ n ≤ (c.opPoint n k).2))).getD 5

/-- One point below CUR of region n, where FLOOR and BELOW_FLOOR allow it (R423). -/
def Chip.lowerPoint (c : Chip) (n : Nat) : Option Nat :=
  have cur := c.rg R.PWR_RGN_OP_CUR n
  if cur = 0 ∨ (c.thermal.2.2.2 = false ∧ cur ≤ c.floorPoint n) then none else some (cur - 1)

/-- Has region n no OP request in flight or waiting (R423)? -/
def Chip.opIdle (c : Chip) (n : Nat) : Bool := (c.pw.op.find n).isNone && (c.pw.opPend.find n).isNone

end Sys2Proof.Machine
end

