-- ==== Sys2Proof/Machine/Defects.lean ====
section
/-! DEFINITION. Wavelength and channel defects (03_trunk_downstream.md R108 to R110) and the state of the trunk engines that they follow. -/

namespace Sys2Proof.Machine

open Sys2Proof

/-- Instances of a field of reset value 0 that hold another value. -/
def Chip.instances (c : Chip) (f : Fld) (n : Nat) : List Nat :=
  (c.regs.filter (fun e => decide (e.2 ≠ 0 ∧ e.1 % 32 = f.lsb ∧ f.reg ≤ e.1 / 32 ∧ e.1 / 32 < f.reg + f.stride * n ∧
    (e.1 / 32 - f.reg) % f.stride = 0))).map (fun e => (e.1 / 32 - f.reg) / f.stride)

/-! ## Defects and channel monitors -/

/-- Defect `d` of wavelength `k`: 0 LOS, 1 LOF, 2 AIS, 3 RDI, 4 TIM. -/
def defectFld (d : Nat) : Fld := match d with
  | 0 => R.TRK_DS_STAT_LOS
  | 1 => R.TRK_DS_STAT_LOF
  | 2 => R.TRK_DS_STAT_AIS
  | 3 => R.TRK_DS_STAT_RDI
  | _ => R.TRK_DS_STAT_TIM

/-- Wavelengths that carry what a monitor watches (R109). -/
def Chip.monWl (c : Chip) (m : Nat) : List Nat :=
  if c.rb R.TRK_CHMON_CFG_KIND m then [c.rg R.TRK_CHMON_CFG_ID m / 4096]
  else (List.range 16).filter (fun k => c.rbit R.TRK_CHMON_LIM_MASK m k)

/-- A monitor's RAW and DEF are brought up to date (R110): `high` gives its defects of ranks 4 to 6. -/
def Chip.monSet (c : Chip) (m high : Nat) : Chip :=
  have ws := c.monWl m
  have lvl := b2n (ws.any (fun k => c.rb R.TRK_DS_STAT_LOS k)) + 2 * b2n (ws.any (fun k => c.rb R.TRK_DS_STAT_LOF k)) +
    4 * b2n (ws.any (fun k => c.rb R.TRK_DS_STAT_TIM k))
  have raw := if c.rb R.TRK_CHMON_CFG_ENABLE m then lvl + 8 * high else 0
  have df := match (List.range 6).find? (fun i => bit raw i) with
    | some i => i + 1
    | none => 0
  have d := c.wg R.TRK_CHMON_STATE_RAW m raw
  if d.rg R.TRK_CHMON_STATE_DEF m = df then d else (d.wg R.TRK_CHMON_STATE_DEF m df).wg R.TRK_CHMON_STATE_CHG m 1

/-- A monitor after a change of a wavelength's defects. -/
def Chip.monEval (c : Chip) (m : Nat) : Chip := c.monSet m (c.rg R.TRK_CHMON_STATE_RAW m / 8)

/-- A defect of rank 4, 5 or 6 of a monitor is set or cleared. -/
def Chip.monDefect (c : Chip) (m rank : Nat) (on : Bool) : Chip := c.monSet m (putBit (c.rg R.TRK_CHMON_STATE_RAW m / 8) (rank - 4) on)

/-- The enabled monitors. -/
def Chip.mons (c : Chip) : List Nat := c.instances R.TRK_CHMON_CFG_ENABLE 1024

/-- More than THR wavelengths of TRK_SIDE_MASK are in LOS, LOF or TIM on the active side (R113). -/
def Chip.sideFails (c : Chip) : Bool :=
  decide (c.rg R.TRK_SIDE_CTRL_THR 0 < ((List.range 16).filter (fun k => c.rbit R.TRK_SIDE_MASK_MASK 0 k &&
    (c.rb R.TRK_DS_STAT_LOS k || c.rb R.TRK_DS_STAT_LOF k || c.rb R.TRK_DS_STAT_TIM k))).length)

/-- The instant from which the condition of AUTO has held without interruption; a request of rank 3 in force ends with it (R113). -/
def Chip.apsTrack (c : Chip) : Chip :=
  if c.sideFails then (if c.ds.apsFailAt.isSome then c else { c with ds.apsFailAt := some c.now })
  else
    have c := if c.rg R.TRK_SIDE_STAT_REQ 0 = 3 ∧ c.ds.apsStep = 0 then c.wg R.TRK_SIDE_STAT_REQ 0 (if c.rg R.TRK_SIDE_CTRL_CMD 0 = 1 then 4 else 0) else c
    { c with ds.apsFailAt := none }

/-- A defect of a wavelength is declared or cleared (R108): the change sets its bit in TRK_DS_EVT, and monitors follow. -/
def Chip.setDefect (c : Chip) (k d : Nat) (on : Bool) : Chip :=
  if c.rb (defectFld d) k = on then c
  else
    have c := (c.wb (defectFld d) k on).wbit R.TRK_DS_EVT_CHG k d true
    (c.mons.foldl (fun x m => x.monEval m) c).apsTrack

/-- FSTATE of a wavelength changes; LOF is declared while it is not SYNC and the engine is enabled (R108). -/
def Chip.setFstate (c : Chip) (k st : Nat) : Chip :=
  (c.wg R.TRK_DS_STAT_FSTATE k st).setDefect k 1 (c.rb R.TRK_DS_CFG_ENABLE k && decide (st ≠ 3))

/-- An engine beside its registers. -/
def Chip.eng (c : Chip) (k : Nat) : Eng := Tab.get Eng.reset c.ds.eng k
def Chip.setEng (c : Chip) (k : Nat) (e : Eng) : Chip := { c with ds.eng := c.ds.eng.set k e }

end Sys2Proof.Machine
end

