-- ==== Sys2Proof/Machine/Errors.lean ====
section
/-! DEFINITION. Error records and their handling at each level (01_architecture.md R31 to R39, R473), the derived state of
regions and blocks (16_register_map.md R469), quarantine and spares, the swap record (14_power_and_health.md R430). -/

namespace Sys2Proof.Machine

open Sys2Proof

/-! ## What the chip registers show (R469) -/

/-- PSTATE of a domain. -/
def Chip.pstate (c : Chip) (d : Nat) : Nat := c.rg R.PWR_DOM_STAT_PSTATE d

/-- The engine that serves wavelength `k`: its own, 16 the spare, 31 none (R13, R32). -/
def Chip.engineOf (c : Chip) (k : Nat) : Nat := Tab.get k c.st.engineOf k

/-- Block `b` serves its ports: not excluded, its port island ON (CHIP_BLOCK_OK). -/
def Chip.blockOk (c : Chip) (b : Nat) : Bool :=
  !bit c.st.exclBlocks b && decide (c.rg R.PWR_ISL_HOLD_P_STATE b = 2) && c.domOn (9 + b / 8)

/-- The OK word of CHIP_BLOCK_OK. -/
def Chip.blockOkWord (c : Chip) : Nat := (List.range 32).foldl (fun w b => w + b2n (c.blockOk b) * 2 ^ b) 0

/-- STATE of CHIP_REGION_STAT: 0 DOWN, 1 SERVING, 2 DEGRADED, 3 LOST. -/
def Chip.regionState (c : Chip) (n : Nat) : Nat :=
  if bit c.st.lostRegions n then 3
  else if c.domOn (9 + n) = false then 0
  else if (List.range 8).any (fun m => bit c.st.exclBlocks (8 * n + m)) || (List.range 4).any (fun i => bit c.st.engLost (4 * n + i))
      || c.rb R.HLT_PACE_STAT_BELOW n || bit c.pw.throttled n then 2
  else 1

/-- Run an operation and set CHIP_EVT where it changed a region's STATE or a CHIP_BLOCK_OK bit (R469). -/
def Chip.watch (c : Chip) (f : Chip → Chip) : Chip :=
  have d := f c
  have d' := if (List.range 4).any (fun n => decide (c.regionState n ≠ d.regionState n)) then d.wg R.CHIP_EVT_REGION_CHG 0 1 else d
  if c.blockOkWord ≠ d.blockOkWord then d'.wg R.CHIP_EVT_BLOCK_CHG 0 1 else d'

/-! ## Records (R34) -/

/-- The record block of a level: chip, region n, block b, cell c of block b. -/
def recChip : Nat := 0
def recRegion (n : Nat) : Nat := 4 + n
def recBlock (b : Nat) : Nat := 64 + b
def recCell (b c : Nat) : Nat := 192 + 16 * b + c

/-- An error raised now at a level (0 cell, 1 block, 2 region, 3 chip). -/
def Chip.mkErr (c : Chip) (code kind index origin sev detail : Nat) : Err :=
  { code := code, src := kind * 512 + index, origin := origin, sev := sev, ns := tsNsOf c.lNow, frac := fracOf c.lNow,
    attempts := 0, detail := detail, fails := 0 }

/-- Is FIRST or LATEST of a record empty: not valid, or RESOLVED? -/
def Chip.firstEmpty (c : Chip) (i : Nat) : Bool :=
  decide (c.rg R.HLT_ERR_FIRST_HDR_VALID i = 0 ∨ c.rg R.HLT_ERR_FIRST_HDR_STATE i = 3)
def Chip.latestEmpty (c : Chip) (i : Nat) : Bool :=
  decide (c.rg R.HLT_ERR_LATEST_HDR_VALID i = 0 ∨ c.rg R.HLT_ERR_LATEST_HDR_STATE i = 3)

/-- Store an error in FIRST with a state and an action. -/
def Chip.putFirst (c : Chip) (i : Nat) (e : Err) (st act : Nat) : Chip :=
  have c := c.wg R.HLT_ERR_FIRST_HDR_CODE i e.code
  have c := c.wg R.HLT_ERR_FIRST_HDR_SOURCE i e.src
  have c := c.wg R.HLT_ERR_FIRST_HDR_ORIGIN i e.origin
  have c := c.wg R.HLT_ERR_FIRST_HDR_STATE i st
  have c := c.wg R.HLT_ERR_FIRST_HDR_SEV i e.sev
  have c := c.wg R.HLT_ERR_FIRST_HDR_VALID i 1
  have c := c.wg R.HLT_ERR_FIRST_TIME_NS i e.ns
  have c := c.wg R.HLT_ERR_FIRST_AUX_ATTEMPTS i e.attempts
  have c := c.wg R.HLT_ERR_FIRST_AUX_ACTION i act
  have c := c.wg R.HLT_ERR_FIRST_AUX_FRAC i e.frac
  c.wg R.HLT_ERR_FIRST_DETAIL_DETAIL i e.detail

/-- Store an error in LATEST with a state and an action. -/
def Chip.putLatest (c : Chip) (i : Nat) (e : Err) (st act : Nat) : Chip :=
  have c := c.wg R.HLT_ERR_LATEST_HDR_CODE i e.code
  have c := c.wg R.HLT_ERR_LATEST_HDR_SOURCE i e.src
  have c := c.wg R.HLT_ERR_LATEST_HDR_ORIGIN i e.origin
  have c := c.wg R.HLT_ERR_LATEST_HDR_STATE i st
  have c := c.wg R.HLT_ERR_LATEST_HDR_SEV i e.sev
  have c := c.wg R.HLT_ERR_LATEST_HDR_VALID i 1
  have c := c.wg R.HLT_ERR_LATEST_TIME_NS i e.ns
  have c := c.wg R.HLT_ERR_LATEST_AUX_ATTEMPTS i e.attempts
  have c := c.wg R.HLT_ERR_LATEST_AUX_ACTION i act
  have c := c.wg R.HLT_ERR_LATEST_AUX_FRAC i e.frac
  have c := { c with st.waitFails := c.st.waitFails.set i e.fails }
  c.wg R.HLT_ERR_LATEST_DETAIL_DETAIL i e.detail

/-- The error that LATEST holds. -/
def Chip.getLatest (c : Chip) (i : Nat) : Err :=
  { code := c.rg R.HLT_ERR_LATEST_HDR_CODE i, src := c.rg R.HLT_ERR_LATEST_HDR_SOURCE i, origin := c.rg R.HLT_ERR_LATEST_HDR_ORIGIN i,
    sev := c.rg R.HLT_ERR_LATEST_HDR_SEV i, ns := c.rg R.HLT_ERR_LATEST_TIME_NS i, frac := c.rg R.HLT_ERR_LATEST_AUX_FRAC i,
    attempts := c.rg R.HLT_ERR_LATEST_AUX_ATTEMPTS i, detail := c.rg R.HLT_ERR_LATEST_DETAIL_DETAIL i,
    fails := Tab.get 0 c.st.waitFails i }

/-- NEW of a record: FIRST became valid, an entry entered HOST_WAIT, or OVF rose. -/
def Chip.errNew (c : Chip) (i : Nat) : Chip := c.wg R.HLT_ERR_CTRL_NEW i 1

/-- OVF and ESC saturate (HLT_ERR_OVF, HLT_ERR_ESC). -/
def Chip.errOvf (c : Chip) (i : Nat) : Chip := (c.wsat R.HLT_ERR_OVF_COUNT i (c.rg R.HLT_ERR_OVF_COUNT i + 1)).errNew i
def Chip.errEsc (c : Chip) (i : Nat) : Chip := c.wsat R.HLT_ERR_ESC_COUNT i (c.rg R.HLT_ERR_ESC_COUNT i + 1)

/-- Where R34 puts an arriving error. -/
inductive Place where
  | first | latestNow | latestPending | escalate
deriving DecidableEq, Repr

/-- R34: store an arriving error at a level, or say that it escalates. -/
def Chip.place (c : Chip) (i : Nat) (isChip : Bool) (e : Err) : Chip × Place :=
  if c.firstEmpty i then ((c.putFirst i e 1 0).errNew i, .first)
  else if e.sev > c.rg R.HLT_ERR_FIRST_HDR_SEV i then
    if isChip then
      have d := if c.latestEmpty i then c else c.errOvf i
      (((d.putLatest i e 1 0).errEsc i), .latestNow)
    else (c.errEsc i, .escalate)
  else if c.latestEmpty i then (c.putLatest i e 0 0, .latestPending)
  else if isChip then ((c.errOvf i).putLatest i e 0 0, .latestPending)
  else (c.errOvf i, .escalate)

/-! ## Cells, spares and the swap record -/

/-- Role of a cell in HLT_BLOCK_MAP: 0 ACTIVE, 1 SPARE, 2 SHADOW, 3 QUARANTINED. -/
def Chip.cellRole (c : Chip) (b k : Nat) : Nat := bits (c.rg R.HLT_BLOCK_MAP_CELL b) (2 * k) 2
def Chip.setRole (c : Chip) (b k r : Nat) : Chip :=
  have w := c.rg R.HLT_BLOCK_MAP_CELL b
  c.wg R.HLT_BLOCK_MAP_CELL b (w - bits w (2 * k) 2 * 2 ^ (2 * k) + r * 2 ^ (2 * k))

/-- Kind of cell `k` of a block: 0 port, 1 pipeline, 2 sample; the cells of a kind. -/
def cellKind (k : Nat) : Nat := if k < 5 then 0 else if k < 8 then 1 else 2
def cellsOfKind (j : Nat) : List Nat := match j with
  | 0 => [0, 1, 2, 3, 4]
  | 1 => [5, 6, 7]
  | _ => [8, 9, 10]

/-- A spare of the kind that is not already taking over for another cell (R37); a spare in shadow operation is one. -/
def Chip.spareOf (c : Chip) (b j : Nat) : Option Nat :=
  (cellsOfKind j).find? (fun k => decide (c.cellRole b k = 1 ∨ c.cellRole b k = 2) && !(c.st.takeovers.any (fun x => decide (x.blk = b ∧ x.spare = k))))

/-- HLT_SPARE_CELLS counts the cells in role SPARE or SHADOW. -/
def Chip.spareCount (c : Chip) : Chip :=
  have n := fun (j : Nat) => ((List.range 32).flatMap (fun b => (cellsOfKind j).filter (fun k => decide (c.cellRole b k = 1 ∨ c.cellRole b k = 2)))).length
  ((c.wg R.HLT_SPARE_CELLS_PORT 0 (n 0)).wg R.HLT_SPARE_CELLS_PIPE 0 (n 1)).wg R.HLT_SPARE_CELLS_SAMPLE 0 (n 2)

/-- Port cell that serves a slot, pipeline cell of a role, sample cell that serves the flows of cell x = 3b + j; 15, 15 and 255
for none (R14, R39). -/
def Chip.slotCell (c : Chip) (b slot : Nat) : Nat := Tab.get slot c.st.slotCell (4 * b + slot)
def Chip.pipeCell (c : Chip) (b r : Nat) : Nat := Tab.get (5 + r) c.st.pipeCell (2 * b + r)
def Chip.smpServe (c : Chip) (x : Nat) : Nat := Tab.get x c.st.smpServe x

/-- Cell `new` takes the role that cell `old` of block `b` had in the datapath (R14, R37, R434). -/
def Chip.takeRole (c : Chip) (b old new : Nat) : Chip :=
  match cellKind old with
  | 0 => forN 4 (fun sl d => if d.slotCell b sl = old then { d with st.slotCell := d.st.slotCell.set (4 * b + sl) new } else d) c
  | 1 => forN 2 (fun r d => if d.pipeCell b r = old then { d with st.pipeCell := d.st.pipeCell.set (2 * b + r) new } else d) c
  | _ => forN 3 (fun j d => if d.smpServe (3 * b + j) = 3 * b + (old - 8) then
      { d with st.smpServe := d.st.smpServe.set (3 * b + j) (3 * b + (new - 8)) } else d) c

/-- The role of cell `old` is served by no cell (R39). -/
def Chip.dropRole (c : Chip) (b old : Nat) : Chip :=
  match cellKind old with
  | 0 => forN 4 (fun sl d => if d.slotCell b sl = old then { d with st.slotCell := d.st.slotCell.set (4 * b + sl) 15 } else d) c
  | 1 => forN 2 (fun r d => if d.pipeCell b r = old then { d with st.pipeCell := d.st.pipeCell.set (2 * b + r) 15 } else d) c
  | _ => forN 3 (fun j d => if d.smpServe (3 * b + j) = 3 * b + (old - 8) then
      { d with st.smpServe := d.st.smpServe.set (3 * b + j) 255 } else d) c

/-- Frames stomped or dropped in a quarantined cell (R37). -/
def Chip.cellDrop (c : Chip) (b k n : Nat) : Chip :=
  { c with st.cellDrops := c.st.cellDrops.set (16 * b + k) (Tab.get 0 c.st.cellDrops (16 * b + k) + n) }

/-- Wear index of a cell (R432) and SECONDS of local time for a swap entry (R430). -/
def wearCell (b k : Nat) : Nat := 11 * b + k

/-- The bytes of a swap entry (R430). -/
def swapEntry (kind cause unit spare secs : Nat) : List Byte :=
  have h := beBytes 1 kind ++ beBytes 1 cause ++ beBytes 2 unit ++ beBytes 2 spare ++ zeros 2 ++ beBytes 6 secs
  h ++ beBytes 2 (crc16 h)

/-- Flash address of the archive area of the boot bank, from its directory (R380, R429). -/
def Chip.archBase (c : Chip) (m : Mem) : Nat :=
  have bank := c.rg R.SEC_BOOT_STAT_BANK 0 * 0x20000000
  bank + beNat (m.flashRead (bank + 32) 4)

/-- Length of the archive area of the boot bank (R380, R429). -/
def Chip.archLen (c : Chip) (m : Mem) : Nat := beNat (m.flashRead (c.rg R.SEC_BOOT_STAT_BANK 0 * 0x20000000 + 36) 4)

/-- The entries of the swap record in flash: those before the first that reads all 0xFF, at most 256 (R430). -/
def Chip.swapEntries (c : Chip) (m : Mem) : List (List Byte) :=
  ((List.range 256).map (fun i => m.flashRead (c.archBase m + 4096 + 16 + 16 * i) 16)).takeWhile (fun e => e.any (fun x => decide (x ≠ 0xFF)))

/-- Append an entry to the swap record, with its header where the record is empty (R430). -/
def Chip.swapAppend (c : Chip) (m : Mem) (kind cause unit spare : Nat) : Chip :=
  have n := (c.swapEntries m).length + (c.mout.filter (fun o => match o with
    | .flash a bs => decide (bs.length = 16) && decide (c.archBase m + 4096 < a)
    | _ => false)).length
  if n ≥ 256 then c
  else
    have c := if n = 0 then c.mem (.flash (c.archBase m + 4096) (beBytes 4 0x4B515357 ++ c.serial)) else c
    c.mem (.flash (c.archBase m + 4096 + 16 + 16 * n) (swapEntry kind cause unit spare (secOf c.lNow)))

/-! ## Taking units out of service (R39, R32) -/

/-- Every port of a list goes down: a lost block's four ports (R39), a lost region's (R473). -/
def Chip.portsDown (c : Chip) (ps : List Nat) : Chip := ps.foldl (fun d p => d.portDown p) c

/-- A block is excluded from the fabric and its ports go down (R39). -/
def Chip.excludeBlk (c : Chip) (b : Nat) : Chip :=
  have d := { c with st.exclBlocks := setBit c.st.exclBlocks b }
  d.portsDown (d.blkPorts b)

/-- No block of the region serves, and REGION_LOST was not raised yet. -/
def Chip.regionGone (c : Chip) (n : Nat) : Bool :=
  (List.range 8).all (fun m => bit c.st.exclBlocks (8 * n + m)) && !bit c.st.lostRegions n

/-- The wavelength that an engine serves (R13). -/
def Chip.waveOf (c : Chip) (e : Nat) : Option Nat := (List.range 16).find? (fun k => decide (c.engineOf k = e))

/-- A lost engine is replaced by the spare, or its wavelength is left without one (R32). The engine that takes over starts from
its acquisition; until then the wavelength is out of SYNC, and LOF is declared where it is enabled (R108). -/
def Chip.engineSwap (c : Chip) (k : Nat) : Chip :=
  have spare := c.rb R.HLT_SPARE_CHIP_TRK_ENG 0
  have d := { c with st.engineOf := c.st.engineOf.set k (if spare then 16 else 31) }
  have d := if spare then d.wg R.HLT_SPARE_CHIP_TRK_ENG 0 0 else d
  have on := spare && d.rb R.TRK_DS_CFG_ENABLE k
  ({ d with ds.eng := d.ds.eng.set k { Eng.reset with step := (if on then 1 else 0), at_ := d.now } }).setFstate k 0

/-- A sample cell that has no spare stops: nothing serves its flows (R39). -/
def Chip.stopSample (c : Chip) (b k : Nat) : Chip :=
  have x := 3 * b + (k - 8)
  { (c.dropRole b k) with st.smpLost := setBit c.st.smpLost x }

/-- The region takes a cell with no spare out of service (R39). -/
def Chip.outOfService (c : Chip) (b k : Nat) : Chip :=
  match cellKind k with
  | 0 => ((List.range 4).filter (fun sl => decide (c.slotCell b sl = k))).foldl
      (fun d sl => match d.slotPort b sl with
        | some p => d.portDown p
        | none => d) (c.dropRole b k)
  | 1 => c.dropRole b k
  | _ => c.stopSample b k

/-- A cell with no spare is taken out of service; a block left with no pipeline cell is excluded (R39). -/
def Chip.retireCell (c : Chip) (b k : Nat) : Chip :=
  have d := c.outOfService b k
  if cellKind k = 1 ∧ d.pipeCell b 0 = 15 ∧ d.pipeCell b 1 = 15 then d.excludeBlk b else d

/-! ## The chip (R473) -/

/-- Steps the chip takes for the unit at fault of a UNIT_LOST or FATAL error, by its code (R473). -/
def Chip.chipUnitAct (c : Chip) (e : Err) : Chip :=
  if e.code = 0x10 then
    have n := e.detail % 4
    have d := { c with st.lostRegions := setBit c.st.lostRegions n }
    d.portsDown ((List.range 128).filter (fun p => decide (p / 32 = n)))
  else if e.code = 0x11 then { c with st.unitsLost := (e.src / 512, e.src % 512) :: c.st.unitsLost }
  else if e.code = 0x0A then c.excludeBlk (e.detail % 32)
  else if e.code = 0x09 then c.retireCell (e.src % 512 / 16) (e.src % 16)
  else if e.code = 0x0D then (match c.waveOf e.detail with
    | some k => if bit c.st.engLost e.detail then c.engineSwap k else c
    | none => c)
  else c

/-- Does the recovery of a RECOVERABLE error still run when it reaches the chip: PWR_ATTEMPT while it is retried (R414, R421), PACE_LOW
while it holds (R22)? The recovery of any other (a stomp or a drop, R24, R25; a replay, R32) has ended where it was raised. -/
def recoveryRuns (code : Nat) : Bool := decide (code = 0x12 ∨ code = 0x0B)

/-- The chip handles an entry: `latest` tells which of the two (R473). A CORRECTED error is resolved once recorded, a RECOVERABLE
one when the recovery of its owner has ended, any other takes its unit out of service and alerts the host: FIRST enters HOST_WAIT,
LATEST does so when it moves to FIRST. -/
def Chip.chipHandle (c : Chip) (latest : Bool) (e : Err) : Chip :=
  if e.sev < 2 then
    have st := if e.sev = 1 ∧ recoveryRuns e.code then 1 else 3
    if latest then c.wg R.HLT_ERR_LATEST_HDR_STATE recChip st else c.wg R.HLT_ERR_FIRST_HDR_STATE recChip st
  else
    have d := c.chipUnitAct e
    if latest then d.wg R.HLT_ERR_LATEST_AUX_ACTION recChip 8
    else ((d.wg R.HLT_ERR_FIRST_AUX_ACTION recChip 8).wg R.HLT_ERR_FIRST_HDR_STATE recChip 2).errNew recChip

/-- An error is taken in at the chip (R34, R473). -/
def Chip.errChip1 (c : Chip) (e : Err) : Chip :=
  match c.place recChip true e with
  | (d, .first) => d.chipHandle false e
  | (d, .latestNow) => d.chipHandle true e
  | (d, _) => d

/-- An error arrives at the chip; a region that it leaves with no block raises REGION_LOST (R473). -/
def Chip.errChip (c : Chip) (e : Err) : Chip :=
  forN 4 (fun n d => if d.regionGone n then d.errChip1 (d.mkErr 0x10 5 n 3 3 n) else d) (c.errChip1 e)

/-- FIRST of the chip is resolved: LATEST moves up; a moved error that is being handled keeps HANDLING, or enters HOST_WAIT where
the chip has alerted the host; a pending one is handled (R34, R473). NEW is set by the move too: FIRST becomes valid with the moved
error (DESIGN CHOICE, log entry 62). -/
def Chip.chipResolve (c : Chip) : Chip :=
  if c.latestEmpty recChip then c.wg R.HLT_ERR_FIRST_HDR_STATE recChip 3
  else
    have e := c.getLatest recChip
    have st := c.rg R.HLT_ERR_LATEST_HDR_STATE recChip
    have act := c.rg R.HLT_ERR_LATEST_AUX_ACTION recChip
    have d := ((c.putFirst recChip e 1 act).wg R.HLT_ERR_LATEST_HDR_VALID recChip 0).errNew recChip
    if st = 1 then
      if e.sev ≥ 2 then (d.wg R.HLT_ERR_FIRST_HDR_STATE recChip 2).errNew recChip else d
    else d.chipHandle false e

/-- The recovery of a RECOVERABLE error at the chip has ended (R473): the entry of that code and source is resolved. -/
def Chip.chipRecovered (c : Chip) (code src : Nat) : Chip :=
  if c.firstEmpty recChip = false ∧ c.rg R.HLT_ERR_FIRST_HDR_CODE recChip = code ∧ c.rg R.HLT_ERR_FIRST_HDR_SOURCE recChip = src then
    c.chipResolve
  else if c.latestEmpty recChip = false ∧ c.rg R.HLT_ERR_LATEST_HDR_CODE recChip = code ∧ c.rg R.HLT_ERR_LATEST_HDR_SOURCE recChip = src then
    c.wg R.HLT_ERR_LATEST_HDR_STATE recChip 3
  else c

/-! ## The region (R32, R39) -/

/-- Store an error that a region resolves at once, with its action. -/
def Chip.regionResolved (c : Chip) (n act : Nat) : Chip :=
  (c.wg R.HLT_ERR_FIRST_AUX_ACTION (recRegion n) act).wg R.HLT_ERR_FIRST_HDR_STATE (recRegion n) 3

/-- A region none of whose blocks serves raises REGION_LOST at the chip. -/
def Chip.regionCheck (c : Chip) (n : Nat) : Chip := if c.regionGone n then c.errChip (c.mkErr 0x10 5 n 3 3 n) else c

/-- Region `n` lowers its pace cap for PACE_LOW within POWER_POLICY (R32): it requests the next lower operating point under the limits
of R423 (log entry 63). The entry stays HANDLING while PACE_LOW holds (R22). -/
def Chip.paceLower (c : Chip) (n : Nat) : Chip :=
  if c.opIdle n then
    match c.lowerPoint n with
    | some k => (c.opAsk n k).wg R.HLT_ERR_FIRST_AUX_ACTION (recRegion n) 6
    | none => c
  else c

/-- The region acts on the error in its FIRST entry (R32, R39). CELL_LOST of a sample island arrives as SPARE_EXH with the cell
in SOURCE. -/
def Chip.regionAct (c : Chip) (n : Nat) (e : Err) : Chip :=
  if e.sev = 3 then ((c.wg R.HLT_ERR_FIRST_AUX_ACTION (recRegion n) 10).wg R.HLT_ERR_FIRST_HDR_STATE (recRegion n) 3).errChip e
  else if e.code = 0x0A then ((c.regionResolved n 5).excludeBlk (e.detail % 32)).regionCheck n
  else if e.code = 0x09 then ((c.regionResolved n 3).retireCell (e.src % 512 / 16) (e.src % 16)).regionCheck n
  else if e.code = 0x0C then c.regionResolved n 6
  else if e.code = 0x0D then
    match c.waveOf e.detail with
    | some k =>
      if c.rb R.HLT_SPARE_CHIP_TRK_ENG 0 then (c.engineSwap k).regionResolved n 4
      else ((c.engineSwap k).regionResolved n 10).errChip e
    | none => c.regionResolved n 10
  else if e.code = 0x0B then c.paceLower n
  else if e.code = 0x08 then c.regionResolved n 3
  else c.regionResolved n 2

/-- FIRST of a region is resolved: LATEST moves up and is handled (R34). -/
def Chip.regionNext (c : Chip) (n : Nat) : Chip :=
  have i := recRegion n
  if c.rg R.HLT_ERR_FIRST_HDR_STATE i = 3 ∧ c.latestEmpty i = false then
    have e := c.getLatest i
    ((((c.putFirst i e 1 0).wg R.HLT_ERR_LATEST_HDR_VALID i 0).errNew i).regionAct n e)
  else c

/-- An error arrives at a region (R34). -/
def Chip.errRegion (c : Chip) (n : Nat) (e : Err) : Chip :=
  match c.place (recRegion n) false e with
  | (d, .first) => (d.regionAct n e).regionNext n
  | (d, .escalate) => d.errChip e
  | (d, _) => d

/-! ## The block and the cell (R32, R37, R38) -/

/-- The frames in flight in a port cell are stomped on their lane and counted (R37). -/
def Chip.stompCell (c : Chip) (b k : Nat) : Chip :=
  ((List.range 4).filter (fun sl => decide (c.slotCell b sl = k))).foldl (fun d sl => match d.slotPort b sl with
    | some p =>
      have fl := d.qs.tx.filter (fun x => decide (x.port = p ∧ (x.f.known = false ∨ d.now < x.endAt)))
      have d := fl.foldl (fun d x => d.emit .stomp p [x.f.id] []) d
      ({ d with qs.tx := d.qs.tx.filter (fun x => decide (x.port ≠ p)) }).cellDrop b k fl.length
    | none => d) c

/-- The frames in flight in a pipeline cell, which wait there on a flow-table fetch, are dropped and counted (R37, R168). -/
def Chip.dropPipe (c : Chip) (b k : Nat) : Chip :=
  have hit := fun (x : Miss) => decide (x.p.f.blk = b) && decide (c.pipeCell b x.p.f.role = k)
  have fl := c.pp.miss.filter hit
  have d := fl.foldl (fun d x => d.refDrop x.p.f.gen) { c with pp.miss := c.pp.miss.filter (fun x => !hit x) }
  d.cellDrop b k fl.length

/-- The STEER flow `s` ends in the path of sample cell x. -/
def Chip.flowAt (c : Chip) (s x : Nat) : Bool := match c.obj 0x0502 s with
  | some b => decide (3 * (half b 2 / 16) + (half b 2 % 16 - 8) = x)
  | none => false

/-- What is in flight in the sample cell that serves the flows of cell x is dropped and counted: frames that wait for its decompressor
or coefficient path, open symbols, symbols whose output has not left, rows in its FIFOs; their generation references end (R37, R251). -/
def Chip.dropSample (c : Chip) (x y : Nat) : Chip :=
  have hit := fun (z : Frame × Nat) => c.flowAt z.2 x
  have fr := (c.fh.inQ ++ c.fh.coefQ).filter hit
  have f := Tab.get FhCell.reset c.fh.cells x
  have s := Tab.get SmpCell.reset c.smp.cells y
  have d := { c with fh.inQ := c.fh.inQ.filter (fun z => !hit z), fh.coefQ := c.fh.coefQ.filter (fun z => !hit z), fh.cells := c.fh.cells.set x { f with opened := [], emit := [], refs := [], blocks := [] }, smp.cells := c.smp.cells.set y { s with arr := [], dep := [] } }
  have d := (((fr.map (fun z => z.1.gen)) ++ f.opened.filterMap (fun o => o.gen)) ++ f.refs.map (fun r => r.2.1)).foldl (fun d g => d.refDrop g) d
  d.cellDrop (y / 3) (8 + y % 3) (fr.length + f.opened.length + f.refs.length)

/-- Quarantine a cell at once (R37): its role, the frames in flight in it. -/
def Chip.quarantine (c : Chip) (b k : Nat) : Chip :=
  have d := c.setRole b k 3
  have d := if c.cellRole b k = 1 ∨ c.cellRole b k = 2 then d.spareCount else d
  match cellKind k with
  | 0 => d.stompCell b k
  | 1 => d.dropPipe b k
  | _ => forN 3 (fun j d => if d.smpServe (3 * b + j) = 3 * b + (k - 8) then d.dropSample (3 * b + j) (3 * b + (k - 8)) else d) d

/-- The spare of a lost cell of block `b` begins to take over, at the second Octave boundary from now (R37). -/
def Chip.startTakeover (c : Chip) (b k sp : Nat) : Chip :=
  { c with st.takeovers := c.st.takeovers ++ [{ blk := b, cell := k, spare := sp, boundaries := 2 }] }

/-- Does cell `k` of block `b` serve a port slot, a pipeline role or the flows of a sample cell (R14, R39)? -/
def Chip.cellServes (c : Chip) (b k : Nat) : Bool :=
  match cellKind k with
  | 0 => (List.range 4).any (fun sl => decide (c.slotCell b sl = k))
  | 1 => (List.range 2).any (fun r => decide (c.pipeCell b r = k))
  | _ => (List.range 3).any (fun j => decide (c.smpServe (3 * b + j) = 3 * b + (k - 8)))

/-- Does a spare take over from cell `k` of block `b`? -/
def Chip.takingOver (c : Chip) (b k : Nat) : Bool := c.st.takeovers.any (fun x => decide (x.blk = b ∧ x.cell = k))

/-- What R37 asks at the failure of a cell, whatever its record does: it is quarantined, and the spare of its kind begins to take
over from a cell that serves. -/
def Chip.cellFails (c : Chip) (b k : Nat) : Chip :=
  have role := c.cellRole b k
  have q := c.quarantine b k
  if role = 1 ∨ role = 2 then { q with st.takeovers := q.st.takeovers.filter (fun x => decide (x.blk ≠ b ∨ x.spare ≠ k)) }
  else match q.spareOf b (cellKind k) with
  | some sp => q.startTakeover b k sp
  | none => q

/-- The state and the action of the FIRST entry of block `b`. -/
def Chip.blockMark (c : Chip) (b st act : Nat) : Chip :=
  (c.wg R.HLT_ERR_FIRST_AUX_ACTION (recBlock b) act).wg R.HLT_ERR_FIRST_HDR_STATE (recBlock b) st

/-- SPARE_EXH as it arrives at the region (R33, R39, log entry 14). -/
def spareExh (b k : Nat) (e : Err) : Err := { e with code := 0x09, sev := 2, detail := Config.detailKindBlock (cellKind k) b }

/-- The block handles the error in its FIRST entry (R32, R33, R39): a lost cell is HANDLING while its spare takes over, and SPARE_EXH
goes up where it has none; a lost spare was only taken out. Another error is replayed up to 3 times, and arrives at the region as
BLOCK_LOST when all fail. A FATAL one passes up. -/
def Chip.blockAct (c : Chip) (b : Nat) (e : Err) : Chip :=
  have k := e.src % 16
  if e.sev = 3 then (c.blockMark b 3 10).errRegion (b / 8) e
  else if e.code = 0x08 then
    if c.takingOver b k then c.blockMark b 1 3
    else if c.cellServes b k then (c.blockMark b 3 10).errRegion (b / 8) (spareExh b k e)
    else c.blockMark b 3 3
  else
    have d := c.wg R.HLT_ERR_FIRST_AUX_ATTEMPTS (recBlock b) (max e.attempts (min (e.fails + 1) 3))
    if e.fails < 3 then d.blockMark b 3 2
    else (d.blockMark b 3 10).errRegion (b / 8) { e with code := 0x0A, sev := 2, attempts := 3, detail := b }

/-- FIRST of a block is resolved: LATEST moves up; an error that waits there is handled now (R34). -/
def Chip.blockNext (c : Chip) (b : Nat) : Chip :=
  have i := recBlock b
  if c.rg R.HLT_ERR_FIRST_HDR_STATE i = 3 ∧ c.latestEmpty i = false then
    have e := c.getLatest i
    (((c.putFirst i e 1 0).wg R.HLT_ERR_LATEST_HDR_VALID i 0).errNew i).blockAct b e
  else c

/-- An error arrives at a block (R34). A lost cell is quarantined at once, whatever its record does (R37). An error that FIRST takes
is handled now, one that LATEST takes waits PENDING, one that finds no place goes up: a lost cell as CELL_LOST where its spare takes
over and as SPARE_EXH where it has none. -/
def Chip.errBlock (c : Chip) (b : Nat) (e : Err) : Chip :=
  have k := e.src % 16
  have lost := decide (e.code = 0x08 ∧ e.sev = 2)
  have r := c.place (recBlock b) false e
  have d := if lost then r.1.cellFails b k else r.1
  match r.2 with
  | .first => (d.blockAct b e).blockNext b
  | .escalate => if lost && !d.takingOver b k && d.cellServes b k then d.errRegion (b / 8) (spareExh b k e) else d.errRegion (b / 8) e
  | _ => d

/-- An error of a cell that the cell handles itself: stored and resolved with its action and attempts (R32). -/
def Chip.errCellDone (c : Chip) (b k : Nat) (e : Err) (act : Nat) : Chip :=
  match c.place (recCell b k) false e with
  | (d, .first) => (d.wg R.HLT_ERR_FIRST_AUX_ACTION (recCell b k) act).wg R.HLT_ERR_FIRST_HDR_STATE (recCell b k) 3
  | (d, .escalate) => d.errBlock b e
  | (d, _) => d

/-- A cell fails for good: its record shows the escalation, and CELL_LOST arrives at the block (R32, R33). DETAIL "Cell" is the
number of the cell within its block; SOURCE has 16 b + c (DESIGN CHOICE, log entry 64). -/
def Chip.errCellLost (c : Chip) (b k : Nat) (e : Err) : Chip :=
  have d := match c.place (recCell b k) false e with
    | (d, .first) => (d.wg R.HLT_ERR_FIRST_AUX_ACTION (recCell b k) 10).wg R.HLT_ERR_FIRST_HDR_STATE (recCell b k) 3
    | (d, _) => d
  d.errBlock b { e with code := 0x08, sev := 2, detail := k }

/-- UNIT_KIND and INDEX of a cell in SOURCE. -/
def cellSrcKind (k : Nat) : Nat := cellKind k
def cellSrcIndex (b k : Nat) : Nat := 16 * b + k

/-- EDGE_OVR or EDGE_UND of a local port (R24, R25): the drop or stomp is the whole handling, and the cell's entry is resolved. -/
def Chip.errEdge (c : Chip) (p code : Nat) : Chip :=
  have b := c.portBlk p
  have k := c.slotCell b (c.portSlot p)
  if k = 15 then c else c.errCellDone b k (c.mkErr code 0 (cellSrcIndex b k) 0 1 p) 0

/-- EDGE_OVR or EDGE_UND of a trunk engine: no cell record belongs to an engine, so its region records it (log entry 11). -/
def Chip.errEdgeTrunk (c : Chip) (k code : Nat) : Chip := c.errRegion (k / 4) (c.mkErr code 6 (c.engineOf k) 0 1 (c.engineOf k))

/-! ## Swaps of units (R430, R434) -/

/-- Kind of a wear index (R432, R433). -/
def wearKind (w : Nat) : Nat :=
  if w < 352 then cellKind (w % 11) else if w < 369 then 3 else if w < 387 then 4 else if w < 423 then 5 else if w < 440 then 6
  else if w < 508 then 8 else if w < 512 then 9 else 10

/-- A unit is QUARANTINED and its spare takes its role (R430): the swap of the unit with wear index `u` for the spare `sp`. Of the
units that are no cells, engines change their place and the others' spare counts fall. -/
def Chip.swapRoles (c : Chip) (u sp : Nat) : Chip :=
  have c := c.wg R.HLT_WEAR_STAT_LEVEL u 3
  have fall := fun (f : Fld) (d : Chip) => d.wg f 0 (d.rg f 0 - 1)
  match wearKind u with
  | 3 =>
    have k := u - 352
    have c := fall R.HLT_SPARE_CHIP_TRK_ENG c
    if k < 16 then { c with st.engineOf := c.st.engineOf.set k 16, st.engLost := setBit c.st.engLost k }
    else { c with st.engLost := setBit c.st.engLost 16 }
  | 4 => fall R.HLT_SPARE_CHIP_TRK_LASER c
  | 5 => fall R.HLT_SPARE_CHIP_LOC_LASER c
  | 6 => fall R.HLT_SPARE_CHIP_MCU c
  | 8 => fall R.HLT_SPARE_CHIP_HBM_PC c
  | 9 => fall R.HLT_SPARE_CHIP_DDR_RANK c
  | 10 => fall R.HLT_SPARE_CHIP_OVEN c
  | _ =>
    have b := u / 11
    (((c.takeRole b (u % 11) (sp % 11)).setRole b (sp % 11) 0).setRole b (u % 11) 3).spareCount

/-- A planned swap ends with the exchange of roles (R434): the record gains an entry of cause 0, SWAP_DONE is set. -/
def Chip.swapDone (c : Chip) (m : Mem) : Chip :=
  have u := c.pw.swapUnit
  have sp := c.pw.swapSpare
  have c := (((c.swapRoles u sp).wg R.HLT_SWAP_STAT_STATE 0 0).wg R.HLT_EVT_SWAP_DONE 0 1).swapAppend m c.pw.swapKind 0 u sp
  { c with pw.swapTxn := none, pw.swapWait := none }

/-! ## Residency (R426) -/

/-- Which of three residency counters a PSTATE counts in: ON, RETENTION, OFF; FAILED counts as OFF. -/
def resCtr (on ret off : Ctr) (st : Nat) : Ctr := if st = 2 then on else if st = 1 then ret else off

/-- The residency counters are brought up to the present instant, in whole µs. -/
def Chip.residency (c : Chip) : Chip :=
  have n := (c.now - c.pw.resAt) / usPs
  if n = 0 then c
  else
    have d := forN 17 (fun d e => e.incBy (resCtr C.PWR_DOM_ON_US C.PWR_DOM_RET_US C.PWR_DOM_OFF_US (e.pstate d)) d n) c
    have d := forN 32 (fun b e => (e.incBy (resCtr C.PWR_BLK_P_ON_US C.PWR_BLK_P_RET_US C.PWR_BLK_P_OFF_US (e.rg R.PWR_ISL_HOLD_P_STATE b)) b n).incBy
      (resCtr C.PWR_BLK_S_ON_US C.PWR_BLK_S_RET_US C.PWR_BLK_S_OFF_US (e.rg R.PWR_ISL_HOLD_S_STATE b)) b n) d
    { d with pw.resAt := c.pw.resAt + n * usPs }

end Sys2Proof.Machine
end

