-- ==== Sys2Proof/Machine/Structure.lean ====
section
/-! DEFINITION. The structure family (01_architecture.md): the required pace, pace windows, the handshake watchdog, the take-over
of a spare, the host's RESOLVE. -/

namespace Sys2Proof.Machine

open Sys2Proof

/-! ## The required pace (R16) -/

/-- Required pace of a block in M steps/s, rounded up, from the rates of its ports in Mbit/s and its budget in 1/256. -/
def reqPace (rates : List Nat) (x : Nat) : Nat :=
  have s := rates.sum
  have r := rates.foldl max 0
  max (max (cdiv r 256) (cdiv (s * (256 + x)) (672 * 256))) (cdiv s 510)

/-! ## Pace windows (R20, R22) -/

/-- An entry of region `n` that holds PACE_LOW is resolved, as FIRST or as LATEST. -/
def Chip.paceResolve (c : Chip) (n : Nat) : Chip :=
  have i := recRegion n
  if c.firstEmpty i = false ∧ c.rg R.HLT_ERR_FIRST_HDR_CODE i = 0x0B then
    (c.wg R.HLT_ERR_FIRST_HDR_STATE i 3).regionNext n
  else if c.latestEmpty i = false ∧ c.rg R.HLT_ERR_LATEST_HDR_CODE i = 0x0B then c.wg R.HLT_ERR_LATEST_HDR_STATE i 3
  else c.chipRecovered 0x0B (7 * 512 + n)

/-- Does the monitor of block `b` take part: island ON and not excluded (R20)? -/
def Chip.monitorOn (c : Chip) (b : Nat) : Bool :=
  decide (c.rg R.PWR_ISL_HOLD_P_STATE b = 2) && !bit c.st.exclBlocks b

/-- The number of the 10 µs window of L in progress, modulo 2⁶⁴ (R20, R263). -/
def Chip.paceWindow (c : Chip) : Nat := (c.lNow / (10000 * 65536 : Nat) % (2 ^ 64 : Nat)).toNat

/-- The monitors' results of a completed window are taken: `meas` gives the eight blocks' and then the fabric's. HLT_PACE_BLK of a
monitor that takes no part reads 0 (DESIGN CHOICE, log entry 65). -/
def Chip.takePace (c : Chip) (n : Nat) (meas : List Nat) : Chip :=
  have c := forN 8 (fun m d => d.wg R.HLT_PACE_BLK_MEAS (8 * n + m) (if d.monitorOn (8 * n + m) then meas.getD m 0 else 0)) c
  have vals := ((List.range 8).filter (fun m => c.monitorOn (8 * n + m))).map (fun m => meas.getD m 0)
  have low := vals.foldl min (meas.getD 8 0)
  have c := c.wg R.HLT_PACE_MEAS_MEAS n low
  c.wg R.HLT_PACE_MEAS_MIN_HOLD n (min (c.rg R.HLT_PACE_MEAS_MIN_HOLD n) (low % 65536))

/-- The completed window of region `n` is compared with its required pace (R22). -/
def Chip.comparePace (c : Chip) (n : Nat) : Chip :=
  have meas := c.rg R.HLT_PACE_MEAS_MEAS n
  if meas < c.rg R.HLT_PACE_REQ_REQ n then
    have run := Tab.get 0 c.st.belowRun n + 1
    have d := { c with st.belowRun := c.st.belowRun.set n run, st.aboveRun := c.st.aboveRun.set n 0 }
    have d := d.wsat R.HLT_PACE_STAT_BELOW_WIN n (d.rg R.HLT_PACE_STAT_BELOW_WIN n + 1)
    if run ≥ 3 ∧ d.rb R.HLT_PACE_STAT_BELOW n = false then
      ((d.wg R.HLT_PACE_STAT_BELOW n 1).wg R.HLT_PACE_STAT_BELOW_SEEN n 1).errRegion n (d.mkErr 0x0B 7 n 2 1 meas)
    else d
  else
    have run := Tab.get 0 c.st.aboveRun n + 1
    have d := { c with st.aboveRun := c.st.aboveRun.set n run, st.belowRun := c.st.belowRun.set n 0 }
    if run ≥ 3 ∧ d.rb R.HLT_PACE_STAT_BELOW n then (d.wg R.HLT_PACE_STAT_BELOW n 0).paceResolve n else d

/-- Qn leaves ON: PACE_LOW ends, every MEAS of the region reads 0, counting starts again (R20, R22). -/
def Chip.paceStop (c : Chip) (n : Nat) : Chip :=
  have d := if c.rb R.HLT_PACE_STAT_BELOW n then (c.wg R.HLT_PACE_STAT_BELOW n 0).paceResolve n else c
  have d := { d with st.belowRun := d.st.belowRun.set n 0, st.aboveRun := d.st.aboveRun.set n 0, st.paceAt := d.st.paceAt.set n d.paceWindow }
  forN 8 (fun m d => d.wg R.HLT_PACE_BLK_MEAS (8 * n + m) 0) (d.wg R.HLT_PACE_MEAS_MEAS n 0)

/-! ## HS_TIMEOUT (R32, R38) -/

/-- Does a fault come before another of the same instant: severity first, highest first, then SOURCE (R35)? -/
def errBefore (x y : Err) : Bool := decide (y.sev < x.sev) || (decide (x.sev = y.sev) && decide (x.src < y.src))

/-- Put an error in its place among those of its instant (R35). -/
def errInsert (x : Err) : List Err → List Err
  | [] => [x]
  | y :: r => if errBefore x y then x :: y :: r else y :: errInsert x r

/-- The errors of one instant in the order in which a level takes them (R35); of equal ones, the first given comes first. -/
def errOrder (l : List Err) : List Err := l.foldl (fun s x => errInsert x s) []

/-- The error that a fault of block `b` raises (R31, R32): ARB_PARITY at the block; the others at a cell, CORRECTED or RECOVERABLE,
and UNIT_LOST, as it leaves the cell, when three replays have failed. -/
def Chip.hwErr (c : Chip) (b : Nat) (x : HwErr) : Err :=
  if x.code = 0x06 then { (c.mkErr 0x06 4 b 1 1 x.detail) with fails := x.fails }
  else
    have e := c.mkErr x.code (cellSrcKind x.cell) (cellSrcIndex b x.cell) 0 (if x.code = 0x01 then 0 else if x.fails.val = 3 then 2 else 1) x.detail
    { e with attempts := if x.code = 0x01 then 1 else min (x.fails + 1) 3, fails := x.fails }

/-- An error of block `b` or of one of its cells is taken (R32): a CORRECTED one is recorded, a replayed one too, a cell whose
replays have failed is lost. -/
def Chip.takeHw (c : Chip) (b : Nat) (e : Err) : Chip :=
  have k := e.src % 16
  if e.code = 0x06 then c.errBlock b e
  else if e.sev = 0 then c.errCellDone b k e 1
  else if e.sev = 1 then c.errCellDone b k e 2
  else c.errCellLost b k { e with sev := 1 }

/-- The watchdog expires in a cell (R38): the handshake has waited TIME × 100 ns since `since`, and is replayed up to 3 times; `fails`
replays fail. The one after them succeeds, or, when three have failed, the cell is lost. Faults that the block and its cells report
in the same instant are taken with it in the order of R35. -/
def hsTimeout (b : Nat) (k : Fin 11) (stage : Nat) (fails : Fin 4) (since : Nat) (more : List HwErr) (c : Chip) : Chip :=
  if since + c.rg R.HLT_HSWD_TIME 0 * 100000 ≤ c.now then
    c.watch (fun c => (errOrder ((({ code := 3, cell := k, detail := stage, fails := fails } : HwErr) ::
      more.filter (fun x => decide (x.code = 1 ∨ x.code = 2 ∨ x.code = 3 ∨ x.code = 6))).map (fun x => c.hwErr b x))).foldl (fun d e => d.takeHw b e) c)
  else c

def execHsTimeout (t : Nat) (b : Fin 32) (k : Fin 11) (stage : Nat) (fails : Fin 4) (since : Nat) (more : List HwErr) (s : State) :
    Host.Outcome State Fault Refusal := s.on t (fun _ => hsTimeout b.val k stage fails since more)

/-! ## SPARE_TAKEOVER (R37) -/

/-- The block entry that holds CELL_LOST of cell `k` ends with the spare taken over. -/
def Chip.takeoverResolve (c : Chip) (b k : Nat) : Chip :=
  have i := recBlock b
  if c.firstEmpty i = false ∧ c.rg R.HLT_ERR_FIRST_HDR_CODE i = 0x08 ∧ c.rg R.HLT_ERR_FIRST_HDR_SOURCE i % 16 = k then
    ((c.wg R.HLT_ERR_FIRST_AUX_ACTION i 4).wg R.HLT_ERR_FIRST_HDR_STATE i 3).blockNext b
  else if c.latestEmpty i = false ∧ c.rg R.HLT_ERR_LATEST_HDR_CODE i = 0x08 ∧ c.rg R.HLT_ERR_LATEST_HDR_SOURCE i % 16 = k then
    (c.wg R.HLT_ERR_LATEST_AUX_ACTION i 4).wg R.HLT_ERR_LATEST_HDR_STATE i 3
  else c

end Sys2Proof.Machine
end

