-- ==== Sys2Proof/Machine/Time.lean ====
section
/-! DEFINITION. Time and synchronization (09_time_and_sync.md): the domains and their servo, selection, state and steer, T-A from
the trunk, T-B from the site, holdover, resonators, leap. -/

namespace Sys2Proof.Machine

open Sys2Proof

/-- A number limited to −m .. m. -/
def clampI (x m : Int) : Int := if x > m then m else if x < -m then -m else x

/-- The absolute value as a natural number. -/
def absI (x : Int) : Nat := x.natAbs

/-! ## State, class and selection (R282, R285 to R287) -/

/-- DSTATE codes of TMG_DOM_STAT: 0 NONE, 1 ACQ, 2 LOCKED, 3 LOST. -/
def Chip.dstate (c : Chip) (d : Nat) : Nat := c.rg R.TMG_DOM_STAT_DSTATE d

/-- The selected domain. -/
def Chip.selDom (c : Chip) : Nat := c.rg R.TMG_STAT_SEL 0

/-- Can the domain be selected (R270)? -/
def Chip.selectable (c : Chip) (d : Nat) : Bool :=
  decide (c.dstate d = 2) && (decide (d ≠ 0) || c.rb R.TMG_A_CFG_SEL_EN 0)

/-- D_sel − L, in 2⁻¹⁶ ns. -/
def Chip.remU (c : Chip) : Int := c.dNow c.selDom - c.lNow

/-- The first row of R286 that holds: 0 FREE, 1 ACQUIRE, 2 LOCKED, 3 VIGIL. -/
def Chip.timeState (c : Chip) : Nat :=
  if c.rb R.TMG_STAT_OUT_VALID 0 = false then
    if (c.dstate 0 = 1 ∨ c.dstate 0 = 2) ∨ (c.dstate 1 = 1 ∨ c.dstate 1 = 2) then 1 else 0
  else if c.dstate c.selDom = 2 then (if c.rb R.TMG_STAT_EQX_ACTIVE 0 then 1 else 2)
  else 3

/-- REM as TMG_EQX gives it: signed ns, 0 in FREE and in VIGIL. -/
def Chip.remNs (c : Chip) : Int := if c.timeState = 0 ∨ c.timeState = 3 then 0 else c.remU.tdiv 65536

/-- Is the error in force at or below VIG_LIMIT (R287)? -/
def Chip.holdIn (c : Chip) : Bool :=
  have lim := c.rg R.TMG_CLASS_VIG_LIMIT 0 * 10
  if c.timeState = 3 then decide (c.rg R.TMG_VIG_EST_EST 0 ≤ lim) else decide (absI c.remU ≤ lim * 65536)

/-- CLASS and QL in force (R287). -/
def Chip.classQl (c : Chip) : Nat × Nat :=
  have st := c.timeState
  if st = 0 ∨ c.rb R.TMG_STAT_OUT_VALID 0 = false then (c.rg R.TMG_CLASS_FREE 0, c.rg R.TMG_QL_FREE 0)
  else if st = 2 then
    if c.selDom = 0 then (c.rg R.TMG_A_CFG_CLASS_LOCKED 0, c.rg R.TMG_QL_LOCKED_A 0)
    else (c.rg R.TMG_B_CFG_CLASS_LOCKED 0, c.rg R.TMG_QL_LOCKED_B 0)
  else if c.holdIn then (c.rg R.TMG_CLASS_HOLD_IN 0, c.rg R.TMG_QL_HOLD_IN 0)
  else (c.rg R.TMG_CLASS_HOLD_OUT 0, c.rg R.TMG_QL_HOLD_OUT 0)

/-- The base frequency that the model of the primary resonator gives after so many seconds of VIGIL (R290, R291). -/
def Chip.vigilY0 (c : Chip) (secs : Nat) : Int :=
  have m := Tab.get OscModel.reset c.tm.osc (c.rg R.TMG_OSC_STAT_PRIMARY 0)
  Config.vigilRate m.aging m.curve secs

/-- VIGIL is entered: its time starts at 0, y0 follows the model (R291). -/
def Chip.vigilEnter (c : Chip) : Chip :=
  have c := c.clk
  have c := { c with tm.vigMs := 0, tm.vigLimit := false, tm.r := 0, tm.estExtra := 0, tm.y0 := c.vigilY0 0 }
  have c := c.wg R.TMG_VIG_TIME_SEC 0 0
  have c := c.wg R.TMG_VIG_EST_EST 0 (Config.vigilBound (c.rg R.TMG_VIG_STAT_LEARN_H 0) 0)
  c.wb R.TMG_STAT_EQX_ACTIVE 0 false

/-- TMG_STAT takes the state, class and QL in force; a new state sets STATE_CHG, a new QL is owed to every port with ESMC_EN
(R286, R287, R301). -/
def Chip.timeStat (c : Chip) : Chip :=
  have old := c.rg R.TMG_STAT_STATE 0
  have st := c.timeState
  have c := if st = 3 ∧ old ≠ 3 then c.vigilEnter else c
  have c := if st ≠ old then (c.wg R.TMG_STAT_STATE 0 st).wg R.TMG_EVT_STATE_CHG 0 1 else c
  have cq := c.classQl
  have c := if cq.2 ≠ c.rg R.TMG_STAT_QL 0 then
      { c with tm.esmcDue := (List.range 128).foldl (fun m p => if c.rb R.TMG_PTP_CFG_ESMC_EN p then setBit m p else m) 0 }
    else c
  (c.wg R.TMG_STAT_CLASS 0 cq.1).wg R.TMG_STAT_QL 0 cq.2

/-- The selection moves to a domain: an Equinox starts (R285). Before the initial set L equals B and there is none (R283). -/
def Chip.select (c : Chip) (d : Nat) : Chip :=
  if c.selDom = d then c
  else
    have c := (c.clk.wg R.TMG_STAT_SEL 0 d).wg R.TMG_EVT_SEL_CHG 0 1
    if c.rb R.TMG_STAT_OUT_VALID 0 then
      { (c.wb R.TMG_STAT_EQX_ACTIVE 0 true).inc C.TMG_EQUINOX 0 with tm.eqxLarge := false }
    else c

/-- TMG_DOM_FREQ gives the rate s_d of a domain in 0.001 ns/s. -/
def Chip.domFreq (c : Chip) (d : Nat) : Chip := c.ws R.TMG_DOM_FREQ_S d ((c.dom d).rate * 1000 / 65536)

/-- The initial set: L becomes D_sel, the domain's integral term moves into y0 so that D_sel goes on unmoved (R283). -/
def Chip.initialSet (c : Chip) : Chip :=
  if c.rb R.TMG_STAT_OUT_VALID 0 = false ∧ c.selectable c.selDom then
    have c := c.clk
    have d := c.dom c.selDom
    have c := { c with tm.off := c.dNow c.selDom - c.bNow, tm.stepped := c.tm.stepped + (c.dNow c.selDom - c.bNow - c.tm.off), tm.y0 := c.tm.y0 - d.integ, tm.r := 0 }
    have c := c.setDom c.selDom { d with rate := d.rate + d.integ, integ := 0 }
    (c.domFreq c.selDom).wb R.TMG_STAT_OUT_VALID 0 true
  else c

/-- The selection under MODE and PREF (R282). -/
def Chip.reselect (c : Chip) : Chip :=
  have mode := c.rg R.TMG_SEL_CFG_MODE 0
  have pref := c.rg R.TMG_SEL_CFG_PREF 0
  have other := 1 - pref
  if mode = 1 then c.select 0
  else if mode = 2 then c.select 1
  else if c.selectable pref then
    if c.selDom = pref then { c with tm.away := false }
    else if c.tm.away && c.selectable c.selDom then c
    else { c.select pref with tm.away := false }
  else if c.selectable other then
    if c.selDom = other then c else { c.select other with tm.away := true }
  else c

/-- After any change of a domain or of the configuration: selection, initial set, state and class. -/
def Chip.timeEval (c : Chip) : Chip := c.reselect.initialSet.timeStat

/-! ## The domains (R268 to R270) -/

/-- A domain has entered LOST: A_LOST or B_LOST is set (R303). -/
def Chip.lostEvt (c : Chip) (d : Nat) : Chip := if d = 0 then c.wg R.TMG_EVT_A_LOST 0 1 else c.wg R.TMG_EVT_B_LOST 0 1

/-- The reference of domain `d` is lost with a cause (R270). -/
def Chip.domLose (c : Chip) (d cause : Nat) : Chip :=
  if c.dstate d = 1 ∨ c.dstate d = 2 then
    have c := c.clk
    have c := c.setDom d { c.dom d with rate := 0, overs := 0 }
    have c := c.wg R.TMG_DOM_STAT_DSTATE d 3
    have c := c.wg R.TMG_DOM_STAT_REF_OK d 0
    have c := c.wg R.TMG_DOM_STAT_CAUSE d cause
    have c := c.ws R.TMG_DOM_FREQ_S d 0
    (c.lostEvt d).timeEval
  else c

/-- The reference of domain `d` became valid: LOST becomes ACQ (R270). -/
def Chip.domValid (c : Chip) (d : Nat) : Chip :=
  if c.dstate d = 3 then
    have c := c.wg R.TMG_DOM_STAT_DSTATE d 1
    have c := c.wg R.TMG_DOM_STAT_REF_OK d 1
    have c := c.wg R.TMG_DOM_STAT_LOCK_CNT d 0
    c.setDom d { c.dom d with overs := 0 }
  else c

/-- Whether a source is set decides between NONE and LOST (R270). -/
def Chip.domSource (c : Chip) (d : Nat) (isSet : Bool) : Chip :=
  if isSet then
    if c.dstate d = 0 then ((c.wg R.TMG_DOM_STAT_DSTATE d 3).lostEvt d).timeEval else c
  else if c.dstate d = 0 then c
  else
    have c := c.domLose d (if d = 0 then 1 else 9)
    (c.wg R.TMG_DOM_STAT_DSTATE d 0).timeEval

/-- bw of R269 in 10⁻⁹ Hz for a spacing of `tau` ps, and whether it lies below BW. -/
def Chip.servoBw (c : Chip) (d tau : Nat) : Nat × Bool :=
  have bw := c.rg R.TMG_SERVO_CFG_BW d * 1000000
  have lim := if tau = 0 then bw else 10 ^ 20 / tau
  (min bw lim, decide (lim < bw))

/-- wn of R269 in 10⁻⁹ rad/s (log entry 17: integer arithmetic, π to nine decimals). -/
def servoWn (bw : Nat) : Nat := 6283185307 * bw / 1000000000

/-- 2,000 ns/s in 2⁻¹⁶ ns/s. -/
def servoMax : Int := 2000 * 65536

/-- What `ki × θ × τ` adds to the integral term, and `kp × θ`, for wn in 10⁻⁹ rad/s (R269). -/
def servoI (wn : Nat) (theta : Int) (tau : Nat) : Int := ((wn * wn / 1000000000 : Nat) : Int) * theta * (tau : Int) / 1000000000 / (secPs : Nat)
def servoP (wn damp : Nat) (theta : Int) : Int := ((damp * wn / 8 : Nat) : Int) * theta / 1000000000

/-- The servo acts on a measurement θ (R269): a domain step in ACQ where |θ| exceeds STEP_THR, else the integral and the rate. -/
def Chip.servo (c : Chip) (d : Nat) (theta : Int) : Chip :=
  have c := c.clk
  have x := c.dom d
  have tau := match x.lastAt with
    | some a => min (c.now - a) (10 * secPs)
    | none => 10 * secPs
  have bw := c.servoBw d tau
  have c := if bw.2 then c.inc C.TMG_BW_CLAMP 0 else c
  if c.dstate d = 1 ∧ absI theta > c.rg R.TMG_SERVO_LIM_STEP_THR d * 1000 * 65536 then
    have c := c.setDom d { x with phi := x.phi - theta, lastAt := some c.now }
    c.inc (if d = 0 then C.TMG_DOM_STEP_A else C.TMG_DOM_STEP_B) 0
  else
    have wn := servoWn bw.1
    have integ := clampI (x.integ + servoI wn theta tau) servoMax
    have rate := clampI (-(servoP wn (c.rg R.TMG_SERVO_CFG_DAMP d) theta + integ)) servoMax
    have c := c.setDom d { x with integ := integ, rate := rate, lastAt := some c.now }
    c.domFreq d

/-- LOCK_CNT and the moves between ACQ and LOCKED (R270). -/
def Chip.lockCount (c : Chip) (d : Nat) (theta : Int) : Chip :=
  have thr := c.rg R.TMG_SERVO_LIM_LOCK_THR d * 65536
  have c := c.wsat R.TMG_DOM_STAT_LOCK_CNT d (if absI theta ≤ thr then c.rg R.TMG_DOM_STAT_LOCK_CNT d + 1 else 0)
  have overs := if absI theta > 2 * thr then (c.dom d).overs + 1 else 0
  have c := c.setDom d { c.dom d with overs := overs }
  if c.dstate d = 1 ∧ c.rg R.TMG_DOM_STAT_LOCK_CNT d ≥ c.rg R.TMG_SERVO_LIM_LOCK_N d then
    (c.setDom d { c.dom d with lockedAt := c.now, overs := 0 }).wg R.TMG_DOM_STAT_DSTATE d 2
  else if c.dstate d = 2 ∧ overs ≥ 2 then
    ((c.setDom d { c.dom d with overs := 0 }).wg R.TMG_DOM_STAT_DSTATE d 1).wg R.TMG_DOM_STAT_LOCK_CNT d 0
  else c

/-- A measurement of domain `d` (R269, R270). -/
def Chip.measure (c : Chip) (d : Nat) (theta : Int) : Chip :=
  have c := c.inc (if d = 0 then C.TMG_A_MEAS else C.TMG_B_MEAS) 0
  have c := c.ws R.TMG_DOM_OFS_THETA d (theta / 4096)
  ((c.servo d theta).lockCount d theta).timeEval

/-! ## T-A from the trunk (R272 to R276) -/

/-- The trunk side whose delays and frames are in use: 0 A, 1 B. From step 5 of a switch it is the new side (R114, R275). -/
def Chip.side (c : Chip) : Nat :=
  if c.ds.apsStep ≥ 5 then 1 - c.rg R.TRK_SIDE_STAT_ACTIVE 0 else c.rg R.TRK_SIDE_STAT_ACTIVE 0

/-- The time channel (R272). -/
def Chip.timeCh (c : Chip) : Nat :=
  if c.rb R.TMG_A_CFG_HOME 0 then c.rg R.TRK_TERM_ID_HOME 0 else c.rg R.TMG_A_CFG_CH 0

/-- The first condition of R275 that does not hold, as a LOST CAUSE, leaving LOSS_TO to its own command. -/
def Chip.aCause (c : Chip) : Option Nat :=
  have k := c.timeCh
  if c.rg R.TRK_DS_STAT_FSTATE k ≠ 3 ∨ c.rb R.TRK_DS_STAT_LOS k ∨ c.rb R.TRK_DS_STAT_LOF k then some 2
  else if c.rb R.TRK_EQD_VALID (16 * c.side + k) = false then some 3
  else if c.tm.jumped then some 4
  else none

/-- RTD and d_down of R273, in 2⁻¹⁶ ns: a symbol of 5 ps is 327.68 units. -/
def Chip.dDown (c : Chip) : Int :=
  have i := 16 * c.side + c.timeCh
  have rtd := ((c.rg R.TMG_A_TEQ_TEQ 0 : Int) - c.rg R.TRK_EQD_EQD i) * 32768 / 100 - 250000 * 65536
  rtd / 2 + c.rs R.TMG_A_EPACT_EPACT i

/-- A TOD_MAP of frame `sfc` launched at `tU` is measured against the frame's stamp (R273): a new association, θ_A, T-A valid. -/
def Chip.aMeasure (c : Chip) (sfc : Nat) (tU dA : Int) : Chip :=
  if c.rg R.TMG_A_TEQ_TEQ 0 = 0 then c
  else
    have c := { c with tm.assoc := some (sfc, tU), tm.grid := some (sfc, tU), tm.jumped := false, tm.mapAt := some c.now }
    have c := c.wb R.ALM_OCTAVE_HI_VALID 0 true
    have dd := c.dDown
    have c := c.ws R.TMG_A_DELAY_DDOWN 0 (dd / 256)
    match c.aCause with
    | some _ => c
    | none =>
      have c := c.domValid 0
      if c.dstate 0 = 1 ∨ c.dstate 0 = 2 then c.measure 0 (dA - (tU + dd)) else c

/-- Do measurements of T-A pause: a switch of the trunk side is under way (R275)? -/
def Chip.aPaused (c : Chip) : Bool := decide (c.rg R.TRK_SIDE_STAT_STATE 0 = 1)

/-- The stamped frames of the time channel on the side in use, newest first (R272). -/
def Chip.aStamps (c : Chip) : List Stamp := c.tm.stamps.filter (fun x => decide (x.ch = c.timeCh ∧ x.side = c.side))

/-- An accepted TOD_MAP (R272): measured at once, held for a frame ahead, or stale. One that a switch keeps from being measured at once
is dropped (DESIGN CHOICE, log entry 80). -/
def Chip.todMap (c : Chip) (sfc : Nat) (tU : Int) : Chip :=
  have c := c.inc C.TMG_TOD_MAP_ACCEPT 0
  match c.aStamps.find? (fun x => decide (x.sfc = sfc)) with
  | some x => if c.aPaused then c else c.aMeasure sfc tU x.dA
  | none =>
    match c.aStamps with
    | [] => c.inc C.TMG_TOD_STALE 0
    | n :: _ =>
      if n.sfc < sfc ∧ sfc ≤ n.sfc + 1024 then
        if c.tm.held.length ≥ 4 then
          { c.inc C.TMG_TOD_STALE 0 with tm.held := c.tm.held.drop 1 ++ [(sfc, tU)] }
        else { c with tm.held := c.tm.held ++ [(sfc, tU)] }
      else c.inc C.TMG_TOD_STALE 0

/-- A frame of the time channel is stamped in D_A and in L; the last 1,024 are kept (R272). -/
def Chip.stampFrame (c : Chip) (sfc : Nat) : Chip :=
  { c with tm.stamps := ({ sfc := sfc, ch := c.timeCh, side := c.side, dA := c.dNow 0, l := c.lNow } :: c.aStamps).take 1024 }

/-- A held map whose frame has been stamped is measured (R272). -/
def todMapHeldMeasure (c : Chip) : Chip :=
  if c.aPaused then c
  else match c.tm.held.find? (fun h => c.aStamps.any (fun x => decide (x.sfc = h.1))) with
  | some h =>
    have d := { c with tm.held := c.tm.held.filter (fun x => decide (x.1 ≠ h.1)) }
    match c.aStamps.find? (fun x => decide (x.sfc = h.1)) with
    | some x => d.aMeasure h.1 h.2 x.dA
    | none => d
  | none => c

def execTodMapHeldMeasure (t : Nat) (s : State) : Host.Outcome State Fault Refusal := s.on t (fun _ => todMapHeldMeasure)

/-- Was a TOD_MAP measured within LOSS_TO (R275)? -/
def Chip.aHeard (c : Chip) : Bool := match c.tm.mapAt with
  | some a => decide (c.now < a + c.rg R.TMG_A_CFG_LOSS_TO 0 * secPs)
  | none => false

/-- T-A loses its reference where a condition of R275 stopped holding, and has it again where all of them hold. -/
def Chip.aCheck (c : Chip) : Chip :=
  if c.aPaused then c
  else match c.aCause with
  | some k => c.domLose 0 k
  | none => if c.dstate 0 = 3 ∧ c.aHeard = true then (c.domValid 0).timeEval else c

/-- The TIMING registers have been set (R270, R277): a source is set or not, and another source of T-B than `src` has a reference of
its own to qualify (CAUSE 9). -/
def Chip.timeCfg (c : Chip) (src : Nat) : Chip :=
  have c := c.domSource 0 (decide (c.rg R.TMG_A_TEQ_TEQ 0 ≠ 0))
  have now := c.rg R.TMG_B_CFG_SRC 0
  have c := if now ≠ src then { (c.domLose 1 9).wg R.TMG_PPSIN_STAT_QUAL_CNT 0 0 with tm.bRun := 0 } else c
  (c.domSource 1 (decide (now ≠ 0))).aCheck.timeEval

/-- An SFC was adopted under R100 on an active-side wavelength: T-A drops its association (R275). -/
def Chip.sfcAdopted (c : Chip) : Chip := ({ c with tm.assoc := none, tm.jumped := true, tm.stamps := [], tm.held := [] }).aCheck

/-- DOMAIN_LOSS_TIMEOUT (R275, R281): LOSS_TO passes without a measurement of T-A, or without a valid write for T-B from PTP. -/
def domainLossTimeout (d : Nat) (c : Chip) : Chip :=
  have tmo := (if d = 0 then c.rg R.TMG_A_CFG_LOSS_TO 0 else c.rg R.TMG_B_CFG_LOSS_TO 0) * secPs
  have src := c.rg R.TMG_B_CFG_SRC 0
  match (if d = 0 then c.tm.mapAt else (c.dom d).lastAt) with
  | some a =>
    if a + tmo ≤ c.now ∧ (d = 0 ∨ src = 2 ∨ src = 3) then
      have c := c.domLose d 1
      if d = 1 then { c with tm.bRun := 0 } else c
    else c
  | none => c

def execDomainLossTimeout (t : Nat) (d : Fin 2) (s : State) : Host.Outcome State Fault Refusal :=
  s.on t (fun _ => domainLossTimeout d.val)

/-! ## T-B from PPS_IN (R277 to R280) -/

/-- Is T-B measured from PPS_IN? -/
def Chip.bPps (c : Chip) : Bool := decide (c.rg R.TMG_B_CFG_SRC 0 = 1)

/-- T-B loses its PPS_IN reference; qualification restarts. -/
def Chip.ppsLose (c : Chip) (cause : Nat) : Chip :=
  have c := c.wg R.TMG_PPSIN_STAT_QUAL_CNT 0 0
  if c.bPps then c.domLose 1 cause else c

/-- An edge is accepted (R278): counted, D_B of its stamp kept for the message that names it; the third in a row that no valid
message named loses the reference. -/
def Chip.ppsAccept (c : Chip) : Chip :=
  have un := c.tm.ppsEdge.isSome
  have c := c.inc C.TMG_PPS_EDGES 0
  have c := c.wg R.TMG_PPSIN_STAT_PRESENT 0 1
  have run := if un then c.tm.ppsNoTod + 1 else c.tm.ppsNoTod
  have c := { c with tm.ppsAt := some c.now, tm.ppsMissAt := some c.now, tm.ppsMiss := 0, tm.ppsFresh := false, tm.ppsNoTod := run, tm.ppsEdge := some (c.dNow 1 - c.rs R.TMG_B_PPS_DELAY 0 * 65536) }
  if un then
    have c := (c.wg R.TMG_PPSIN_STAT_TOD_OK 0 0).wg R.TMG_PPSIN_STAT_QUAL_CNT 0 0
    if run ≥ 3 then c.ppsLose 7 else c
  else c

/-- PPS_IN_EDGE (R278): an active edge whose level lasts `width` times 100 ns. With TIME_VIO out of its ranges PPS_IN is lost. -/
def ppsInEdge (width : Nat) (c : Chip) : Chip :=
  if c.tm.timeVio = false ∨ width < c.rg R.TMG_B_PPS_MINW 0 ∨ c.rb R.TMG_PPSIN_STAT_STUCK 0 then c
  else match c.tm.ppsAt with
  | none => c.ppsAccept
  | some a =>
    if c.tm.ppsFresh then c.ppsAccept
    else if c.now < a + msPs then c.inc C.TMG_PPS_OVERRUN 0
    else if c.now < a + 900 * msPs then c.inc C.TMG_PPS_SPURIOUS 0
    else if c.now ≤ a + 1100 * msPs then c.ppsAccept
    else (c.wg R.TMG_PPSIN_STAT_QUAL_CNT 0 0).ppsAccept

def execPpsInEdge (t width : Nat) (s : State) : Host.Outcome State Fault Refusal := s.on t (fun _ => ppsInEdge width)

/-- PPS_MISSING (R278): no edge was accepted for 1,100 ms. The third in a row loses the reference. -/
def ppsMissing (c : Chip) : Chip :=
  match c.tm.ppsMissAt with
  | some a =>
    if a + 1100 * msPs ≤ c.now then
      have c := c.inc C.TMG_PPS_MISSING 0
      have c := (c.wg R.TMG_PPSIN_STAT_PRESENT 0 0).wg R.TMG_PPSIN_STAT_QUAL_CNT 0 0
      have c := { c with tm.ppsMissAt := some c.now, tm.ppsFresh := true, tm.ppsMiss := c.tm.ppsMiss + 1 }
      if c.tm.ppsMiss ≥ 3 then c.ppsLose 5 else c
    else c
  | none => c

def execPpsMissing (t : Nat) (s : State) : Host.Outcome State Fault Refusal := s.on t (fun _ => ppsMissing)

/-- PPS_STUCK (R278): the active level was held for STUCK seconds. -/
def ppsStuck (c : Chip) : Chip :=
  ((c.wg R.TMG_PPSIN_STAT_STUCK 0 1).wg R.TMG_EVT_PPS_STUCK 0 1).ppsLose 6

def execPpsStuck (t : Nat) (s : State) : Host.Outcome State Fault Refusal := s.on t (fun _ => ppsStuck)

/-- PPS_STUCK_RELEASE (R278): after the stuck level PPS_IN was inactive for 1 s; its edges are accepted again. -/
def ppsStuckRelease (c : Chip) : Chip :=
  if c.rb R.TMG_PPSIN_STAT_STUCK 0 then { c.wg R.TMG_PPSIN_STAT_STUCK 0 0 with tm.ppsFresh := true } else c

def execPpsStuckRelease (t : Nat) (s : State) : Host.Outcome State Fault Refusal := s.on t (fun _ => ppsStuckRelease)

/-- The leap fields of a valid message are taken with SRC = 1 where T-B runs from PPS_IN and TOD_RX (R294). -/
def Chip.leapFrom (c : Chip) (flags ofs at_ : Nat) : Chip :=
  if c.rb R.TMG_UTC_SRC 0 ∧ c.bPps = true ∧ bit flags 0 = true then
    have c := c.wg R.TMG_UTC_OFFSET 0 ofs
    have c := c.wb R.TMG_UTC_PENDING 0 (bit flags 1)
    have c := c.wb R.TMG_UTC_DIR 0 (bit flags 2)
    (c.wg R.TMG_LEAP_AT_LO_SEC 0 at_).wg R.TMG_LEAP_AT_HI_SEC 0 (at_ / 2 ^ 32)
  else c

/-- A valid message names the edge of D_B time `e` (R277, R278): the edge qualifies; T-B becomes valid after QUAL of them, with
FREQ_IN OK where it is used, and is measured. -/
def Chip.ppsNamed (c : Chip) (e : Int) (secs : Nat) : Chip :=
  have c := { c with tm.ppsEdge := none, tm.ppsNoTod := 0 }
  have c := c.wg R.TMG_PPSIN_STAT_TOD_OK 0 1
  have fok := c.rb R.TMG_B_CFG_FREQ_IN_EN 0 = false || c.rb R.TMG_PPSIN_STAT_FREQ_OK 0
  have c := if fok then c.wsat R.TMG_PPSIN_STAT_QUAL_CNT 0 (c.rg R.TMG_PPSIN_STAT_QUAL_CNT 0 + 1) else c.wg R.TMG_PPSIN_STAT_QUAL_CNT 0 0
  if c.bPps then
    have c := if c.rg R.TMG_PPSIN_STAT_QUAL_CNT 0 ≥ c.rg R.TMG_B_CFG_QUAL 0 then c.domValid 1 else c
    if c.dstate 1 = 1 ∨ c.dstate 1 = 2 then c.measure 1 (e - (secs : Int) * 1000000000 * 65536) else c
  else c

/-- The bytes that have arrived on TOD_RX, each with the nanoseconds since the byte before: those after the last gap of more than 1 ms,
which restarts the search (R279). -/
def todStretch : List (Nat × Byte) → List Byte
  | [] => []
  | x :: l => if l.any (fun y => decide (1000000 < y.1)) then todStretch l else x.2 :: l.map (·.2)

/-- The message that the search finds: from the first SYNC on. -/
def todFind : List Byte → List Byte
  | [] => []
  | x :: l => if x = 0xA5 ∧ l.head? = some 0x5A then x :: l else todFind l

/-- TOD_RX_MSG (R279): the last byte of a message arrives now, after the bytes before it. -/
def todRxMsg (wire : List (Nat × Byte)) (c : Chip) : Chip :=
  have bytes := todFind (todStretch wire)
  if bytes.length ≠ 24 then c
  else if crc16 (bytes.take 22) ≠ beAt bytes 22 2 ∨ byteAt bytes 2 ≠ 1 then c.inc C.TMG_TOD_RX_ERR 0
  else match c.tm.ppsAt, c.tm.ppsEdge with
  | some a, some e =>
    if a + 10 * msPs ≤ c.now ∧ c.now ≤ a + 900 * msPs then
      have c := c.inc C.TMG_TOD_RX_OK 0
      have c := c.leapFrom (byteAt bytes 3) (beAt bytes 10 2) (beAt bytes 12 6)
      if bit (byteAt bytes 3) 0 then c.ppsNamed e (beAt bytes 4 6)
      else ({ c with tm.ppsEdge := none }.wg R.TMG_PPSIN_STAT_TOD_OK 0 0).ppsLose 9
    else c
  | _, _ => c

def execTodRxMsg (t : Nat) (wire : List (Nat × Byte)) (s : State) : Host.Outcome State Fault Refusal := s.on t (fun _ => todRxMsg wire)

/-- FREQ_IN is lost (R280). -/
def Chip.freqLost (c : Chip) : Chip :=
  have c := { c with tm.freqGood := none }
  if c.rb R.TMG_PPSIN_STAT_FREQ_OK 0 then
    have c := (c.wg R.TMG_PPSIN_STAT_FREQ_OK 0 0).inc C.TMG_FREQIN_LOST 0
    if c.rb R.TMG_B_CFG_FREQ_IN_EN 0 then c.ppsLose 8 else c
  else c

/-- FREQ_IN_MEASURE (R280): the frequency over 10 ms lies `ppb` off the base clock; OK within ±2 ppm for 1 s on end. -/
def freqInMeasure (ppb : Int) (c : Chip) : Chip :=
  if absI ppb ≤ 2000 then
    match c.tm.freqGood with
    | none => { c with tm.freqGood := some c.now }
    | some a => if a + secPs ≤ c.now then c.wg R.TMG_PPSIN_STAT_FREQ_OK 0 1 else c
  else c.freqLost

def execFreqInMeasure (t : Nat) (ppb : Int) (s : State) : Host.Outcome State Fault Refusal := s.on t (fun _ => freqInMeasure ppb)

/-- FREQ_IN_EDGE_LOSS (R280): no edge for 1 µs. -/
def execFreqInEdgeLoss (t : Nat) (s : State) : Host.Outcome State Fault Refusal := s.on t (fun _ c => c.freqLost)

/-- FREQIN_INTEGRAL_UPDATE (R280): every 1 ms the phase error of FREQ_IN, modulo 100 ns, in 2⁻¹⁶ ns, moves servo B's integral. -/
def freqinIntegralUpdate (phase : Int) (c : Chip) : Chip :=
  if c.bPps ∧ c.rb R.TMG_B_CFG_FREQ_IN_EN 0 ∧ c.rb R.TMG_PPSIN_STAT_FREQ_OK 0 ∧ (c.dstate 1 = 1 ∨ c.dstate 1 = 2) then
    have c := c.clk
    have p := (phase + 50 * 65536) % (100 * 65536) - 50 * 65536
    have x := c.tm.domB
    have integ := clampI (x.integ + servoI (servoWn (c.servoBw 1 msPs).1) p msPs) servoMax
    have rate := clampI (x.rate - (integ - x.integ)) servoMax
    { c with tm.domB := { x with integ := integ, rate := rate } }.domFreq 1
  else c

def execFreqinIntegralUpdate (t : Nat) (phase : Int) (s : State) : Host.Outcome State Fault Refusal :=
  s.on t (fun _ => freqinIntegralUpdate phase)

/-! ## T-B from PTP (R281) -/

/-- A write of GO to TMG_B_MEAS: refused from the host; from a core, an offset of L in 2⁻⁸ ns or the loss of the master. -/
def bMeasWrite (core invalid : Bool) (ofs : Int) (c : Chip) : Chip × Nat :=
  if core = false then (c, stRefused)
  else if c.rg R.TMG_B_CFG_SRC 0 ≠ 2 ∧ c.rg R.TMG_B_CFG_SRC 0 ≠ 3 then (c, stOk)
  else if invalid then ({ c with tm.bRun := 0 }.domLose 1 9, stOk)
  else
    have sc := secOf c.lNow
    have run := if c.tm.bRun = 0 then 1 else if sc = c.tm.bSec then c.tm.bRun else if sc = c.tm.bSec + 1 then c.tm.bRun + 1 else 1
    have c := { c with tm.bSec := sc, tm.bRun := run }
    have c := if run ≥ c.rg R.TMG_B_CFG_QUAL 0 then c.domValid 1 else c
    if c.dstate 1 = 1 ∨ c.dstate 1 = 2 then (c.measure 1 (ofs * 256 + (c.dNow 1 - c.lNow)), stOk) else (c, stOk)

def execBMeasWrite (t : Nat) (core invalid : Bool) (ofs : Int) (s : State) : Host.Outcome State Fault Refusal :=
  s.on t (fun _ c => c.answeredIn 1 (bMeasWrite core invalid ofs))

/-! ## Selection, steer, slew (R282 to R285) -/

/-- A write of TMG_SEL_CFG: ignored as a whole where a field is out of range, acted on at once. -/
def selCfgWrite (v : Nat) (c : Chip) : Chip :=
  have mode := bits v 0 2
  have wtr := bits v 4 12
  if mode = 3 ∨ wtr > 3600 then c
  else
    have moved := decide (mode ≠ c.rg R.TMG_SEL_CFG_MODE 0 ∨ bits v 2 1 ≠ c.rg R.TMG_SEL_CFG_PREF 0)
    have c := c.wg R.TMG_SEL_CFG_MODE 0 mode
    have c := c.wg R.TMG_SEL_CFG_PREF 0 (bits v 2 1)
    have c := c.wg R.TMG_SEL_CFG_WTR 0 wtr
    have c := c.wg R.TMG_SEL_CFG_EVT_EN 0 (bits v 16 1)
    (if moved then { c with tm.away := false } else c).timeEval

def execSelCfgWrite (t v : Nat) (s : State) : Host.Outcome State Fault Refusal := s.on t (fun _ c => c.answeredIn 1 (fun c => (selCfgWrite v c, stOk)))

/-- SEL_WTR_EXPIRE (R282): PREF has been LOCKED for WTR seconds after a move away from it. -/
def selWtrExpire (c : Chip) : Chip :=
  have pref := c.rg R.TMG_SEL_CFG_PREF 0
  have wtr := c.rg R.TMG_SEL_CFG_WTR 0
  if c.rg R.TMG_SEL_CFG_MODE 0 = 0 ∧ c.tm.away ∧ c.selectable pref ∧ wtr ≠ 0 ∧ (c.dom pref).lockedAt + wtr * secPs ≤ c.now then
    ({ c.select pref with tm.away := false }).timeEval
  else c

def execSelWtrExpire (t : Nat) (s : State) : Host.Outcome State Fault Refusal := s.on t (fun _ => selWtrExpire)

/-- 0.05 ns/s in 2⁻¹⁶ ns/s: what learning may move in one span of 1,000 s, so that no 1,000 s hold more than 0.1 ns/s (R271). -/
def learnMax : Nat := 3276

/-- Learning (R271): part of the integral term moves into y0, neither D_sel nor L moves. How much is a free value within the
bound (log entry 18). -/
def Chip.learn (c : Chip) : Chip :=
  have d := c.selDom
  if c.dstate d = 2 then
    have c := if c.tm.learnAt + 1000 * secPs ≤ c.now then { c with tm.learnAt := c.now, tm.learned := 0 } else c
    have x := c.dom d
    have room := min (absI x.integ) (learnMax - absI c.tm.learned)
    have fr := c.draw
    have c := fr.2
    let mv : Int := ((fr.1 % (room + 1) : Nat) : Int)
    have mv := if x.integ < 0 then -mv else mv
    have c := { c with tm.y0 := c.tm.y0 - mv, tm.learned := c.tm.learned + ((absI mv : Nat) : Int) }
    (c.setDom d { x with integ := x.integ - mv, rate := x.rate + mv }).domFreq d
  else c

/-- The Equinox as a steer update finds it (R285). -/
def Chip.equinoxCheck (c : Chip) : Chip :=
  if c.rb R.TMG_STAT_EQX_ACTIVE 0 then
    if absI c.remU ≤ 65536 then (c.wb R.TMG_STAT_EQX_ACTIVE 0 false).wg R.TMG_EVT_EQX_DONE 0 1
    else if absI c.remU > 100000 * 65536 ∧ c.tm.eqxLarge = false then
      { c.wg R.TMG_EVT_EQX_LARGE 0 1 with tm.eqxLarge := true }
    else c
  else c

/-- A steer update in VIGIL: time, bound, y0 by the model (R291). -/
def Chip.vigilTick (c : Chip) : Chip :=
  have c := { c with tm.vigMs := c.tm.vigMs + 1 }
  have secs := c.tm.vigMs / 1000
  have c := { c with tm.y0 := c.vigilY0 secs, tm.r := 0 }
  have c := c.wsat R.TMG_VIG_TIME_SEC 0 secs
  have est := Config.vigilBound (c.rg R.TMG_VIG_STAT_LEARN_H 0) secs + c.tm.estExtra
  have c := c.wsat R.TMG_VIG_EST_EST 0 est
  if est > c.rg R.TMG_CLASS_VIG_LIMIT 0 * 10 ∧ c.tm.vigLimit = false then
    { c.wg R.TMG_EVT_VIG_LIMIT 0 1 with tm.vigLimit := true }
  else c

/-- A whole number, positive or negative, from a free value. -/
def freeInt (n : Nat) : Int := if n % 2 = 0 then ((n / 2 : Nat) : Int) else -((n / 2 : Nat) : Int) - 1

/-- The model of a resonator learns: what it takes on is a free value (log entry 15). -/
def Chip.oscLearn (c : Chip) (n : Nat) : Chip :=
  if n = 3 then c
  else
    have x := c.draw
    have y := x.2.draw
    { y.2 with tm.osc := y.2.tm.osc.set n { aging := freeInt x.1, curve := y.1 } }

/-- LEARN_H counts the hours in LOCKED, and the models of the serving resonators have learnt by their end (R290). -/
def Chip.learnHours (c : Chip) : Chip :=
  if c.rg R.TMG_STAT_STATE 0 = 2 then
    if c.tm.lockedMs + 1 = 3600000 then
      have c := ({ c with tm.lockedMs := 0 }.oscLearn (c.rg R.TMG_OSC_STAT_PRIMARY 0)).oscLearn (c.rg R.TMG_OSC_STAT_SECONDARY 0)
      have c := c.wsat R.TMG_VIG_STAT_LEARN_H 0 (c.rg R.TMG_VIG_STAT_LEARN_H 0 + 1)
      if c.rg R.TMG_VIG_STAT_LEARN_H 0 ≥ 72 then c.wg R.TMG_VIG_STAT_LEARNED 0 1 else c
    else { c with tm.lockedMs := c.tm.lockedMs + 1 }
  else c

/-- The rate of the steer (R283), within SLEW. -/
def Chip.steerRate (c : Chip) : Int :=
  if c.timeState = 3 ∨ c.rb R.TMG_STAT_OUT_VALID 0 = false then 0
  else clampI ((c.dom c.selDom).rate + c.remU) ((c.rg R.TMG_SLEW_SLEW 0 * 65536 / 10 : Nat) : Int)

/-- STEER_UPDATE (R283): every 1 ms. -/
def steerUpdate (c : Chip) : Chip :=
  have c := (c.clk.learn).timeEval
  have c := c.equinoxCheck
  have c := { c with tm.r := c.steerRate }
  have c := if c.timeState = 3 then c.vigilTick else c.learnHours
  have c := c.ws R.TMG_EQX_REM 0 c.remNs
  c.timeStat

def execSteerUpdate (t : Nat) (s : State) : Host.Outcome State Fault Refusal := s.on t (fun _ => steerUpdate)

/-- A write of TMG_SLEW (R284): from a core refused and counted; from the host within 1 to SLEW_MAX, or refused. -/
def slewWrite (core : Bool) (v : Nat) (c : Chip) : Chip × Nat :=
  if core then ((c.inc C.TMG_SLEW_REFUSED 0).wg R.TMG_EVT_SLEW_REFUSED 0 1, stRefused)
  else if 1 ≤ v % 65536 ∧ v % 65536 ≤ c.slewMax then (c.wg R.TMG_SLEW_SLEW 0 v, stOk)
  else (c, stRefused)

def execSlewWrite (t : Nat) (core : Bool) (v : Nat) (s : State) : Host.Outcome State Fault Refusal :=
  s.on t (fun _ c => c.answeredIn 1 (slewWrite core v))

/-! ## Reads, resonators, leap (R265, R293, R294) -/

/-- A read of TMG_NS captures L for the reads that follow (R265). -/
def Chip.captureL (c : Chip) : Chip :=
  have l := c.lNow
  have c := c.wg R.TMG_NS_NS 0 (nsOf l)
  have c := c.wg R.TMG_FRAC_FRAC 0 (fracOf l)
  have c := c.wg R.TMG_SEC_LO_SEC 0 (secOf l)
  have c := c.wg R.TMG_SEC_HI_SEC 0 (secOf l / 2 ^ 32)
  c.wg R.TMG_TS_NOW_TS_NS 0 (tsNsOf l)

def tmgNsRead (c : Chip) : Chip :=
  have c := c.captureL
  c.emit .readWord 0 [c.rg R.TMG_NS_NS 0] []

def execTmgNsRead (t : Nat) (s : State) : Host.Outcome State Fault Refusal := s.on t (fun _ => tmgNsRead)

/-- A resonator leaves its place (R293): B moves to the secondary where it was primary, the spare becomes secondary. Learning starts
again at a change of primary (R290). -/
def Chip.oscMove (c : Chip) (n : Nat) : Chip :=
  have sp := c.rg R.TMG_OSC_STAT_SPARE 0
  have c := if c.rg R.TMG_OSC_STAT_PRIMARY 0 = n then
      have c := c.clk.wg R.TMG_OSC_STAT_PRIMARY 0 (c.rg R.TMG_OSC_STAT_SECONDARY 0)
      { (c.wg R.TMG_VIG_STAT_LEARN_H 0 0).wg R.TMG_VIG_STAT_LEARNED 0 0 with tm.lockedMs := 0 }
    else c
  have c := c.wg R.TMG_OSC_STAT_SECONDARY 0 sp
  have c := c.wg R.TMG_OSC_STAT_SPARE 0 3
  c.wg R.HLT_SPARE_CHIP_OVEN 0 0

/-- A resonator is faulted (R293). -/
def Chip.oscFault (c : Chip) (n : Nat) : Chip :=
  (((c.wbit R.TMG_OSC_STAT_FAULT 0 n true).wg R.TMG_EVT_OSC_FAULT 0 1).inc C.TMG_OSC_FAULT 0).oscMove n

/-- OSC_CHECK (R293): every second; `rp` and `rs` are the residuals of primary and secondary against their models, `dp` and `ds`
against the locked domain, in ppb. A disagreement found in VIGIL stands until a domain is LOCKED. -/
def oscCheck (m : Mem) (rp rs dp ds : Nat) (c : Chip) : Chip :=
  have pr := c.rg R.TMG_OSC_STAT_PRIMARY 0
  have se := c.rg R.TMG_OSC_STAT_SECONDARY 0
  have up := fun (n r : Nat) (c : Chip) => { c with tm.oscRun := c.tm.oscRun.set n (if r > 10 then Tab.get 0 c.tm.oscRun n + 1 else 0) }
  have c := up pr rp c
  have c := if se = 3 then c else up se rs c
  if se = 3 then c
  else if Tab.get 0 c.tm.oscRun pr ≥ 3 ∨ Tab.get 0 c.tm.oscRun se ≥ 3 ∨ c.rb R.TMG_OSC_STAT_DISAGREE 0 = true then
    if c.dstate 0 = 2 ∨ c.dstate 1 = 2 then
      have bad := if dp ≥ ds then pr else se
      have c := { c.wg R.TMG_OSC_STAT_DISAGREE 0 0 with tm.oscRun := [] }
      (c.oscFault bad).swapAppend m 10 1 (512 + bad) (512 + c.rg R.TMG_OSC_STAT_SPARE 0)
    else if c.timeState = 3 then
      { c.wg R.TMG_OSC_STAT_DISAGREE 0 1 with tm.estExtra := c.tm.estExtra + (max rp rs - min rp rs) }
    else c
  else c

def execOscCheck (t rp rs dp ds : Nat) (s : State) : Host.Outcome State Fault Refusal := s.on t (fun m => oscCheck m rp rs dp ds)

/-- LEAP_APPLY (R294): SEC reaches LEAP_AT with PENDING. -/
def leapApply (c : Chip) : Chip :=
  if c.rb R.TMG_UTC_PENDING 0 ∧ c.rg R.TMG_LEAP_AT_LO_SEC 0 + c.rg R.TMG_LEAP_AT_HI_SEC 0 * 2 ^ 32 ≤ secOf c.lNow then
    have o := c.rs R.TMG_UTC_OFFSET 0
    have c := c.ws R.TMG_UTC_OFFSET 0 (if c.rb R.TMG_UTC_DIR 0 then o - 1 else o + 1)
    (c.wg R.TMG_UTC_PENDING 0 0).wg R.TMG_EVT_LEAP_DONE 0 1
  else c

def execLeapApply (t : Nat) (s : State) : Host.Outcome State Fault Refusal := s.on t (fun _ => leapApply)

/-- TIME_VIO_OUT_OF_RANGE (R442): TIME_VIO leaves its ranges, so that PPS_IN is lost and its edges are not seen, or returns. -/
def timeVioChange (inRange : Bool) (c : Chip) : Chip :=
  if inRange then { c with tm.timeVio := true, tm.ppsFresh := true }
  else ({ c with tm.timeVio := false }.wg R.TMG_PPSIN_STAT_PRESENT 0 0).ppsLose 5

def execTimeVioOutOfRange (t : Nat) (inRange : Bool) (s : State) : Host.Outcome State Fault Refusal :=
  s.on t (fun _ => timeVioChange inRange)

end Sys2Proof.Machine
end

