-- ==== Sys2Proof/Machine/Queues.lean ====
section
/-! DEFINITION. Queues (06_queues_and_shaping.md): shapers, policers, gate lists, the scheduling trees, binding to upstream
members, admission and spill. -/

namespace Sys2Proof.Machine

open Sys2Proof

/-- Balances are kept in 1/(8 × 10⁹) byte: a rate in kbit/s gains its own number of units in a picosecond. -/
def byteU : Nat := 8000000000

/-! ## Trees (R191) -/

/-- Queue fields. -/
def Chip.qValid (c : Chip) (q : Nat) : Bool := c.rb R.SCH_Q_CFG_VALID q
def Chip.qDir (c : Chip) (q : Nat) : Nat := c.rg R.SCH_Q_CFG_DIR q
def Chip.qPort (c : Chip) (q : Nat) : Nat := c.rg R.SCH_Q_CFG_PORT q
def Chip.qGroup (c : Chip) (q : Nat) : Nat := c.rg R.SCH_Q_CFG_PORT q % 64

/-- The nodes on the path from a queue to its root, nearest first, at most two (R191). -/
def Chip.qNodes (c : Chip) (q : Nat) : List Nat :=
  have p := c.rg R.SCH_Q_CFG_PARENT q
  if p = 0xFFF then []
  else
    have g := c.rg R.SCH_NODE_CFG_PARENT p
    if g = 0xFFF then [p] else [p, g]

/-- Frames of a queue that stand in the slice, in their order. -/
def Chip.qDie (c : Chip) (q : Nat) : List QFrame := c.qs.frames.filter (fun x => decide (x.q = q) && x.spill.isNone)

/-- Does a queue, or any queue below a node, hold frames? -/
def Chip.qHolds (c : Chip) (q : Nat) : Bool := c.qs.frames.any (fun x => decide (x.q = q))
def Chip.nodeHolds (c : Chip) (n : Nat) : Bool := c.qs.frames.any (fun x => (c.qNodes x.q).contains n)

/-- Shapers on the path of a queue, each with whether its queue or node holds frames (R191, R199). -/
def Chip.pathShapers (c : Chip) (q : Nat) : List (Nat × Bool) :=
  (if c.qValid q ∧ c.rb R.SCH_Q_SCHED_SH_EN q then [(c.rg R.SCH_Q_SCHED_SHAPER q, c.qHolds q)] else []) ++
  ((c.qNodes q).filter (fun n => c.rb R.SCH_NODE_CFG_VALID n && c.rb R.SCH_NODE_SCHED_SH_EN n)).map
    (fun n => (c.rg R.SCH_NODE_SCHED_SHAPER n, c.nodeHolds n))

/-! ## Shapers (R198 to R202) -/

/-- Balance of a shaper now, in `byteU`, given whether its child held frames since it was last brought up to date. One that was never
named has balance 0 (R202). -/
def Chip.shaperNow (c : Chip) (s : Nat) (held : Bool) : Int :=
  have b := Tab.get 0 c.qs.bal s
  have up := b + (c.rg R.SCH_SHAPER_ACT_RATE_RATE s : Int) * ((c.now - Tab.get c.now c.qs.balAt s : Nat) : Int)
  have cap := ((c.rg R.SCH_SHAPER_ACT_BURST_BURST s * byteU : Nat) : Int)
  if c.rg R.SCH_SHAPER_ACT_CFG_MODE s = 1 then min up cap
  else if held then min up cap
  else if b > 0 then 0 else min up 0

/-- Bring a shaper's balance up to the present instant. -/
def Chip.accrue (c : Chip) (s : Nat) (held : Bool) : Chip :=
  { c with qs.bal := c.qs.bal.set s (c.shaperNow s held), qs.balAt := c.qs.balAt.set s c.now }

/-- Bring every shaper on the path of a queue up to date, as it stands before a change of what is held. -/
def Chip.accruePath (c : Chip) (q : Nat) : Chip := (c.pathShapers q).foldl (fun d x => d.accrue x.1 x.2) c

/-- The shapers that queues and nodes name (R191). -/
def Chip.namedShapers (c : Chip) : List Nat :=
  ((c.instances R.SCH_Q_SCHED_SH_EN 32768).filter (fun q => c.qValid q)).map (fun q => c.rg R.SCH_Q_SCHED_SHAPER q) ++
    ((c.instances R.SCH_NODE_SCHED_SH_EN 4095).filter (fun n => c.rb R.SCH_NODE_CFG_VALID n)).map (fun n => c.rg R.SCH_NODE_SCHED_SHAPER n)

/-- Shapers that are named for the first time start at balance 0 (R202). -/
def Chip.nameShapers (c : Chip) : Chip := (c.namedShapers.filter (fun s => (c.qs.balAt.find s).isNone)).foldl (fun d s => d.accrue s false) c

/-- Every shaper on the path of a frame that waits is brought up to date. -/
def Chip.accrueAll (c : Chip) : Chip := ((c.qs.frames.map (fun (x : QFrame) => x.q)).eraseDups).foldl (fun d q => d.accruePath q) c

/-- Is the child of a shaper eligible: balance of 0 or more (R201)? -/
def Chip.shaperOk (c : Chip) (s : Nat) (held : Bool) : Bool := decide (c.shaperNow s held ≥ 0)

/-- Shaped length: LEN plus the signed OVERHEAD, at least 1 (R198). -/
def shapedLen (len : Nat) (overhead : Int) : Nat := max 1 ((len : Int) + overhead).toNat

/-- A frame of `len` bytes is charged to every shaper on its path (R199 to R201). -/
def Chip.chargeShapers (c : Chip) (q len : Nat) : Chip :=
  (c.pathShapers q).foldl (fun d x =>
    have e := d.accrue x.1 x.2
    { e with qs.bal := e.qs.bal.set x.1 (Tab.get 0 e.qs.bal x.1 - ((shapedLen len (e.rs R.SCH_SHAPER_ACT_CFG_OVERHEAD x.1) * byteU : Nat) : Int)) }) c

/-- The remainder of a length that was not known at selection is charged (R474). -/
def Chip.chargeRest (c : Chip) (q n : Nat) : Chip :=
  (c.pathShapers q).foldl (fun d x => { d with qs.bal := d.qs.bal.set x.1 (Tab.get 0 d.qs.bal x.1 - ((n * byteU : Nat) : Int)) }) c

/-- After frames left: a credit shaper with nothing held loses a positive balance (R199). -/
def Chip.settle (c : Chip) (q : Nat) : Chip :=
  (c.pathShapers q).foldl (fun d x => if x.2 then d else d.accrue x.1 false) c

/-- A hand-over or staged write takes the shadow set of a shaper (R202): balance kept, a new BURST clips it, RESET_CREDIT sets it
to 0 and is cleared with ARM. -/
def Chip.shaperHandover (c : Chip) (s : Nat) : Chip :=
  have held := c.qs.frames.any (fun x => (c.pathShapers x.q).any (fun y => decide (y.1 = s)))
  have c := c.accrue s held
  have c := c.wg R.SCH_SHAPER_ACT_CFG_MODE s (c.rg R.SCH_SHAPER_CFG_MODE s)
  have c := c.wg R.SCH_SHAPER_ACT_CFG_OVERHEAD s (c.rg R.SCH_SHAPER_CFG_OVERHEAD s)
  have c := c.wg R.SCH_SHAPER_ACT_RATE_RATE s (c.rg R.SCH_SHAPER_RATE_RATE s)
  have c := c.wg R.SCH_SHAPER_ACT_BURST_BURST s (c.rg R.SCH_SHAPER_BURST_BURST s)
  have b := if c.rb R.SCH_SHAPER_CTRL_RESET_CREDIT s then 0
    else min (Tab.get 0 c.qs.bal s) ((c.rg R.SCH_SHAPER_ACT_BURST_BURST s * byteU : Nat) : Int)
  { c.wg R.SCH_SHAPER_CTRL_RESET_CREDIT s 0 with qs.bal := c.qs.bal.set s b }

/-! ## Policers (R203, R204) -/

/-- Content of a policer's bucket now, in `byteU`. -/
def Chip.policerNow (c : Chip) (p : Nat) : Nat :=
  min (c.rg R.SCH_POL_BURST_BURST p * byteU) (Tab.get 0 c.qs.pol p + c.rg R.SCH_POL_RATE_RATE p * (c.now - Tab.get 0 c.qs.polAt p))

/-- A change of a policer's registers: the bucket keeps its content, clipped to a new BURST (R204). -/
def Chip.polChange (c : Chip) (p : Nat) (f : Chip → Chip) : Chip :=
  have d := f { c with qs.pol := c.qs.pol.set p (c.policerNow p), qs.polAt := c.qs.polAt.set p c.now }
  { d with qs.pol := d.qs.pol.set p (d.policerNow p) }

/-- A policer judges a frame of `len` bytes: the decision, and the bucket after it (R203). -/
def Chip.police (c : Chip) (p len : Nat) : Chip × Bool :=
  if c.rb R.SCH_POL_CFG_EN p = false then (c.inc C.SCH_POL_PASS_FRAMES p, true)
  else
    have b := c.policerNow p
    have need := shapedLen len (c.rs R.SCH_POL_CFG_OVERHEAD p) * byteU
    have ok := decide (need ≤ b)
    have d := { c with qs.pol := c.qs.pol.set p (if ok then b - need else b), qs.polAt := c.qs.polAt.set p c.now }
    (d.inc (if ok then C.SCH_POL_PASS_FRAMES else C.SCH_POL_DROP_FRAMES) p, ok)

/-- The remainder of a length is charged; the bucket does not go below 0 (R474). -/
def Chip.policeRest (c : Chip) (p n : Nat) : Chip :=
  if c.rb R.SCH_POL_CFG_EN p then
    { c with qs.pol := c.qs.pol.set p (c.policerNow p - n * byteU), qs.polAt := c.qs.polAt.set p c.now }
  else c

/-! ## Gate lists (R205 to R208) -/

/-- Index of entry `e` of the list of port `p`, and of a MAXWIN register. -/
def gateIdx (p e : Nat) : Nat := 1024 * p + e

/-- Interval of an active entry in 2⁻¹⁶ ns, and whether class `t` is open in it. -/
def Chip.gateIval (c : Chip) (p e : Nat) : Int := (c.rg R.SCH_GATE_ACT_ENTRY_INTERVAL (gateIdx p e) : Int) * 65536
def Chip.gateBit (c : Chip) (p e t : Nat) : Bool := c.rbit R.SCH_GATE_ACT_ENTRY_STATES (gateIdx p e) t

/-- Is the gate of class `t` open now? -/
def Chip.gateOpen (c : Chip) (p t : Nat) : Bool :=
  if c.rb R.SCH_GATE_STAT_ACT_EN p = false then true
  else if c.rb R.SCH_GATE_STAT_BEFORE_BASE p then bit (Tab.get 0xFF c.qs.gateIdle p) t
  else c.gateBit p (c.rg R.SCH_GATE_STAT_CUR p) t

/-- Sum of the intervals of consecutive entries from `e` on in which class `t` is open, at most `fuel` of them. -/
def Chip.openRun (c : Chip) (p t n : Nat) : Nat → Nat → Int
  | 0, _ => 0
  | fuel + 1, e => if c.gateBit p (e % n) t then c.gateIval p (e % n) + c.openRun p t n fuel (e + 1) else 0

/-- The rest of the open window of class `t`, in 2⁻¹⁶ ns; none where it is not bounded (R207). -/
def Chip.windowLeft (c : Chip) (p t : Nat) : Option Int :=
  have n := c.rg R.SCH_GATE_STAT_ACT_N p
  if c.rb R.SCH_GATE_STAT_ACT_EN p = false then none
  else if (List.range n).all (fun e => c.gateBit p e t) ∧ (c.rb R.SCH_GATE_STAT_BEFORE_BASE p = false ∨ bit (Tab.get 0xFF c.qs.gateIdle p) t) then none
  else if c.rb R.SCH_GATE_STAT_BEFORE_BASE p then some (Tab.get 0 c.qs.gateBase p - c.lNow + c.openRun p t n n 0)
  else
    have cur := c.rg R.SCH_GATE_STAT_CUR p
    some (Tab.get 0 c.qs.gateAt p + c.gateIval p cur - c.lNow + c.openRun p t n n (cur + 1))

/-- MAXWIN(t) of a list of `n` active entries in ns, 0xFFFF_FFFF for unbounded (R208). -/
def Chip.maxWin (c : Chip) (p t n : Nat) : Nat :=
  if (List.range n).all (fun e => c.gateBit p e t) then 0xFFFFFFFF
  else ((List.range n).map (fun e => (c.openRun p t n n e / 65536).toNat)).foldl max 0

/-- Bytes MACsec adds to a frame of EtherType `et` on a port (R312). -/
def Chip.secAdds (c : Chip) (p et : Nat) : Nat :=
  if c.rb R.PRT_SEC_CFG_SEC_EN p = false then 0
  else if (List.range 4).any (fun i => c.rb R.PRT_SEC_BYPASS_VALID (256 * p + i) && decide (c.rg R.PRT_SEC_BYPASS_ETYPE (256 * p + i) = et)) then 0
  else (if c.rb R.PRT_SEC_CFG_SCI_INCL p then 16 else 8) + 16

/-- Time a frame of the queue takes on its port, in 2⁻¹⁶ ns (R207). -/
def Chip.txTime (c : Chip) (p : Nat) (f : Frame) : Int :=
  have n := f.len + c.secAdds p (beAt f.bytes 12 2)
  if c.portRate p = 0 then 0 else (((n + 8) * 8 * 1000 * 65536 / c.portRate p : Nat) : Int)

/-- Does class `t` of port `p` ever have a window long enough for the frame (R208)? A length not yet known is not tested. -/
def Chip.gateNever (c : Chip) (p t : Nat) (f : Frame) : Bool :=
  have w := c.rg R.SCH_GATE_MAXWIN_NS (gateIdx p t)
  f.known && decide (w ≠ 0xFFFFFFFF) && decide (c.txTime p f > (w : Int) * 65536)

/-- May a head frame of class `t` begin now (R207)? -/
def Chip.gateTest (c : Chip) (p t : Nat) (f : Frame) : Bool :=
  if c.rb R.SCH_GATE_STAT_ACT_EN p = false then true
  else c.gateOpen p t && (match c.windowLeft p t with
    | none => true
    | some w => f.known && decide (c.txTime p f ≤ w))

/-- Entry and its start for a phase of the cycle, searching from entry `e` whose start is `a`. -/
def Chip.gateFind (c : Chip) (p : Nat) (l : Int) : Nat → Nat → Int → Nat × Int
  | 0, e, a => (e, a)
  | fuel + 1, e, a => if l < a + c.gateIval p e then (e, a) else c.gateFind p l fuel (e + 1) (a + c.gateIval p e)

/-- The list of port `p` takes its phase from BASE at local time `l` (R206). -/
def Chip.gatePhase (c : Chip) (p : Nat) (l : Int) : Chip :=
  have base := Tab.get 0 c.qs.gateBase p
  have cyc := (c.rg R.SCH_GATE_CYCLE_NS p : Int) * 65536
  if l < base then (c.wg R.SCH_GATE_STAT_BEFORE_BASE p 1).wg R.SCH_GATE_STAT_CUR p 0
  else
    have ph := if cyc = 0 then 0 else (l - base) % cyc
    have r := c.gateFind p l (c.rg R.SCH_GATE_STAT_ACT_N p - 1) 0 (l - ph)
    { (c.wg R.SCH_GATE_STAT_BEFORE_BASE p 0).wg R.SCH_GATE_STAT_CUR p r.1 with qs.gateAt := c.qs.gateAt.set p r.2 }

/-- The shadow gate list of a port takes effect at local time `l` (R206). -/
def Chip.gateHandover (c : Chip) (p : Nat) (l : Int) : Chip :=
  have n := c.rg R.SCH_GATE_LEN_N p
  have c := forN 256 (fun e d => (d.wg R.SCH_GATE_ACT_ENTRY_INTERVAL (gateIdx p e) (d.rg R.SCH_GATE_ENTRY_INTERVAL (gateIdx p e))).wg
      R.SCH_GATE_ACT_ENTRY_STATES (gateIdx p e) (d.rg R.SCH_GATE_ENTRY_STATES (gateIdx p e))) c
  have en := c.rb R.SCH_GATE_LEN_EN p
  have c := (c.wg R.SCH_GATE_STAT_ACT_N p n).wb R.SCH_GATE_STAT_ACT_EN p en
  have c := c.wg R.SCH_GATE_CYCLE_NS p ((List.range n).map (fun e => c.rg R.SCH_GATE_ACT_ENTRY_INTERVAL (gateIdx p e))).sum
  have base := ((c.rg R.SCH_GATE_BASE_SLO_SEC p + c.rg R.SCH_GATE_BASE_SHI_SEC p * 2 ^ 32) * 1000000000 + c.rg R.SCH_GATE_BASE_NS_NS p : Nat)
  have c := { c with qs.gateBase := c.qs.gateBase.set p ((base : Int) * 65536), qs.gateIdle := c.qs.gateIdle.set p (c.rg R.SCH_GATE_LEN_IDLE p) }
  have c := forN 8 (fun t d => d.wg R.SCH_GATE_MAXWIN_NS (gateIdx p t) (if en then d.maxWin p t n else 0xFFFFFFFF)) c
  c.gatePhase p l

/-- Is a shadow list legal (R205)? -/
def Chip.gateLegal (c : Chip) (p : Nat) : Bool :=
  have n := c.rg R.SCH_GATE_LEN_N p
  decide (1 ≤ n ∧ n ≤ 256 ∧ ((List.range n).map (fun e => c.rg R.SCH_GATE_ENTRY_INTERVAL (gateIdx p e))).sum ≤ 1000000000)

/-- GATE_ENTRY_ADVANCE (R205): the interval of the entry in force has passed. -/
def gateEntryAdvance (p : Nat) (c : Chip) : Chip :=
  have cur := c.rg R.SCH_GATE_STAT_CUR p
  have e := Tab.get 0 c.qs.gateAt p + c.gateIval p cur
  if c.rb R.SCH_GATE_STAT_ACT_EN p ∧ c.rb R.SCH_GATE_STAT_BEFORE_BASE p = false ∧ e ≤ c.lNow then
    { c.wg R.SCH_GATE_STAT_CUR p ((cur + 1) % c.rg R.SCH_GATE_STAT_ACT_N p) with qs.gateAt := c.qs.gateAt.set p e }
  else c

def execGateEntryAdvance (t : Nat) (p : Fin 128) (s : State) : Host.Outcome State Fault Refusal :=
  s.on t (fun _ => gateEntryAdvance p.val)

/-- GATE_BASE_REACHED (R206): the list starts at entry 0. -/
def gateBaseReached (p : Nat) (c : Chip) : Chip :=
  if c.rb R.SCH_GATE_STAT_BEFORE_BASE p ∧ Tab.get 0 c.qs.gateBase p ≤ c.lNow then
    { (c.wg R.SCH_GATE_STAT_BEFORE_BASE p 0).wg R.SCH_GATE_STAT_CUR p 0 with qs.gateAt := c.qs.gateAt.set p (Tab.get 0 c.qs.gateBase p) }
  else c

def execGateBaseReached (t : Nat) (p : Fin 128) (s : State) : Host.Outcome State Fault Refusal :=
  s.on t (fun _ => gateBaseReached p.val)

/-! ## A step of L (R288, R289) -/

/-- L moves by Δ whole nanoseconds; gate lists take their phase from the new L. -/
def Chip.stepL (c : Chip) (delta : Int) : Chip :=
  have c := c.clk
  have c := { c with tm.off := c.tm.off + delta * 65536, tm.stepped := c.tm.stepped + delta * 65536 }
  have c := (c.wg R.TMG_EVT_STEPPED 0 1).inc C.TMG_OUT_STEP 0
  have c := forN 128 (fun p d => if d.rb R.SCH_GATE_STAT_ACT_EN p then d.gatePhase p d.lNow else d) c
  (c.ws R.TMG_EQX_REM 0 c.remNs).timeStat

/-- The Δ of a write of GO to TMG_STEP_HI: DELTA, or REM with TO_SEL (R288). -/
def Chip.stepDelta (c : Chip) (lo hi : Nat) : Int :=
  if bit hi 30 then c.remNs else sgn 48 (lo % 2 ^ 32 + hi % 65536 * 2 ^ 32)

/-- A step refused (R284, R288). -/
def Chip.stepRefused (c : Chip) : Chip := (c.inc C.TMG_STEP_REFUSED 0).wg R.TMG_EVT_STEP_REFUSED 0 1

/-- TIME_STEP (R288): a direct write of GO from a core is never accepted, from the host where OUT_VALID is 1 and |Δ| is at most
1,000 ns. -/
def timeStep (core : Bool) (lo hi : Nat) (c : Chip) : Chip × Nat :=
  if core then (c.stepRefused, stRefused)
  else if c.rb R.TMG_STAT_OUT_VALID 0 = false then (c, stRefused)
  else if absI (c.stepDelta lo hi) > 1000 then (c.stepRefused, stRefused)
  else (c.stepL (c.stepDelta lo hi), stOk)

def execTimeStep (t : Nat) (core : Bool) (lo hi : Nat) (s : State) : Host.Outcome State Fault Refusal :=
  s.on t (fun _ c => c.answeredIn 1 (timeStep core lo hi))

/-! ## Upstream members (R194, R195) -/

/-- Insert an index by channel and ALLOC_ID. -/
def Chip.memberKey (c : Chip) (a : Nat) : Nat := c.rg R.TRK_ALLOC_CH a * 4096 + c.rg R.TRK_ALLOC_ALLOC_ID a
def Chip.insertMember (c : Chip) (a : Nat) : List Nat → List Nat
  | [] => [a]
  | b :: r => if c.memberKey a ≤ c.memberKey b then a :: b :: r else b :: c.insertMember a r

/-- Members of a group: valid TRK_ALLOC entries, ordered by channel and then by ALLOC_ID (R194). -/
def Chip.members (c : Chip) (g : Nat) : List Nat :=
  ((List.range 1024).filter (fun a => c.rb R.TRK_ALLOC_VALID a && decide (c.rg R.TRK_ALLOC_GROUP a = g))).foldl
    (fun l a => c.insertMember a l) []

/-- The member a frame is bound to (R163, R194). -/
def Chip.bindTo (c : Chip) (g : Nat) (f : Frame) : Option Nat :=
  have ms := c.members g
  if ms.isEmpty then none else ms[(f.hash % 65536) * ms.length / 65536]?

/-- The frames of DIR 1 queues of group `g` that are unbound, or bound to entry `a`, are bound over the present membership. -/
def Chip.rebind (c : Chip) (g : Nat) (a : Option Nat) : Chip :=
  have c := { c with qs.frames := c.qs.frames.map (fun (x : QFrame) =>
    if c.qDir x.q = 1 ∧ c.qGroup x.q = g ∧ (x.member = none ∨ x.member = a) then { x with member := c.bindTo g x.f } else x) }
  ((c.qs.frames.filter (fun x => decide (c.qDir x.q = 1 ∧ c.qGroup x.q = g))).map (fun x => (x.q, x.f.blk))).foldl
    (fun d y => d.queueStat y.1 y.2) c

/-! ## Choosing a frame (R192) -/

/-- Keys of the deficit tables: queue q, node n, root of a port, root of a group. -/
def kidQ (q : Nat) : Nat := q
def kidN (n : Nat) : Nat := 0x10000 + n
def rootP (p : Nat) : Nat := 0x20000 + p
def rootG (g : Nat) : Nat := 0x30000 + g

/-- A child with a sendable frame at one level of a walk. -/
structure Pick where
  kid : Nat
  prio : Nat
  weight : Nat
  x : QFrame
  /-- the choices made below it: parent and priority, chosen child -/
  path : List (Nat × Nat)
  /-- deficits as those choices leave them -/
  defs : List (Nat × Int)
deriving DecidableEq, Repr

/-- Length that a walk counts a frame with: LEN, or the bytes present plus 4 while it is not known (R192, R474). -/
def Frame.charge (f : Frame) : Nat := if f.known then f.len else f.bytes.length + 4

/-- Visits until a child with deficit `d` and quantum `w × 256` can send `n` bytes. -/
def visits (d : Int) (w n : Nat) : Nat := if (n : Int) ≤ d then 0 else cdiv ((n : Int) - d).toNat (max w 1 * 256)

/-- Deficit round robin among children of one priority, in the order of visiting (log entry 19). -/
def Chip.drr (c : Chip) (parent : Nat) (ks : List Pick) : Option Pick :=
  have last := Tab.get 0 c.qs.served parent
  have ord := ks.filter (fun k => decide (k.kid = last)) ++ ks.filter (fun k => decide (k.kid > last)) ++ ks.filter (fun k => decide (k.kid < last))
  have dof := fun (k : Pick) => Tab.get 0 c.qs.deficit k.kid
  -- the child served last goes on while its deficit lasts; otherwise it is visited after the others
  match ord.find? (fun k => decide (k.kid = last) && decide ((k.x.f.charge : Int) ≤ dof k)) with
  | some k => some { k with path := (parent, k.kid) :: k.path, defs := (k.kid, dof k - k.x.f.charge) :: k.defs }
  | none =>
    have vis := ord.filter (fun k => decide (k.kid ≠ last)) ++ ord.filter (fun k => decide (k.kid = last))
    have rounds := fun (k : Pick) => max 1 (visits (dof k) k.weight k.x.f.charge)
    match vis with
    | [] => none
    | k0 :: _ =>
      have best := vis.foldl (fun b k => if rounds k < rounds b then k else b) k0
      have r := rounds best
      have before := (vis.takeWhile (fun k => decide (k.kid ≠ best.kid))).map (fun k => (k.kid, dof k + ((r * max k.weight 1 * 256 : Nat) : Int)))
      have after := ((vis.dropWhile (fun k => decide (k.kid ≠ best.kid))).drop 1).map (fun k => (k.kid, dof k + (((r - 1) * max k.weight 1 * 256 : Nat) : Int)))
      some { best with path := (parent, best.kid) :: best.path, defs := (best.kid, dof best + ((r * max best.weight 1 * 256 : Nat) : Int) - best.x.f.charge) :: before ++ after ++ best.defs }

/-- The highest priority among children, and deficit round robin among those that have it (R192). -/
def Chip.choose (c : Chip) (parent : Nat) (ks : List Pick) : Option Pick :=
  have top := (ks.map (·.prio)).foldl max 0
  c.drr (parent * 8 + top) (ks.filter (fun k => decide (k.prio = top)))

/-- Queue children of a node (or of the root, 0xFFF) whose head frame, among the frames that count, may be sent under the test `ok`
on queue and frame. -/
def Chip.queueKids (c : Chip) (isMine : Nat → Bool) (cnt : QFrame → Bool) (node : Nat) (ok : Nat → QFrame → Bool) : List Pick :=
  have qs := ((c.qs.frames.filter (fun x => x.spill.isNone)).map (·.q)).eraseDups
  (qs.filter (fun q => isMine q && c.qValid q && decide (c.rg R.SCH_Q_CFG_PARENT q = node) &&
      (c.rb R.SCH_Q_SCHED_SH_EN q = false || c.shaperOk (c.rg R.SCH_Q_SCHED_SHAPER q) true))).filterMap (fun q =>
    match (c.qDie q).find? cnt with
    | some x => if ok q x then some { kid := kidQ q, prio := c.rg R.SCH_Q_CFG_PRIO q, weight := c.rg R.SCH_Q_SCHED_WEIGHT q, x := x, path := [], defs := [] } else none
    | none => none)

/-- The nodes of a tree that lie on the path of some queue with frames. -/
def Chip.liveNodes (c : Chip) (isMine : Nat → Bool) : List Nat :=
  (((c.qs.frames.map (·.q)).eraseDups.filter isMine).flatMap (fun q => c.qNodes q)).eraseDups

/-- Node children of a node or of the root, each with what it would send. -/
def Chip.nodeKid (c : Chip) (n : Nat) (best : Option Pick) : Option Pick :=
  if c.rb R.SCH_NODE_CFG_VALID n && (c.rb R.SCH_NODE_SCHED_SH_EN n = false || c.shaperOk (c.rg R.SCH_NODE_SCHED_SHAPER n) true) then
    match best with
    | some k => some { k with kid := kidN n, prio := c.rg R.SCH_NODE_CFG_PRIO n, weight := c.rg R.SCH_NODE_SCHED_WEIGHT n }
    | none => none
  else none

/-- A decision of the tree with root key `root`, over the queues `isMine`, counting the frames `cnt`, under the send test `ok` (R192):
two levels of nodes. -/
def Chip.treePick (c : Chip) (root : Nat) (isMine : Nat → Bool) (cnt : QFrame → Bool) (ok : Nat → QFrame → Bool) : Option Pick :=
  have nodes := c.liveNodes isMine
  have low := fun (n : Nat) => c.nodeKid n (c.choose (kidN n) (c.queueKids isMine cnt n ok))
  have mid := fun (n : Nat) =>
    c.nodeKid n (c.choose (kidN n) (c.queueKids isMine cnt n ok ++
      (nodes.filter (fun m => decide (c.rg R.SCH_NODE_CFG_PARENT m = n ∧ m ≠ n))).filterMap low))
  c.choose root (c.queueKids isMine cnt 0xFFF ok ++ (nodes.filter (fun n => decide (c.rg R.SCH_NODE_CFG_PARENT n = 0xFFF))).filterMap mid)

/-- A chosen frame leaves its queue: deficits and the children served, the shapers of its path (R192, R201). It keeps its cells until it
has been sent (R209). -/
def Chip.takeChosen (c : Chip) (k : Pick) : Chip :=
  have c := { c with qs.deficit := k.defs.foldl (fun (t : Tab Int) (x : Nat × Int) => t.set x.1 x.2) c.qs.deficit, qs.served := k.path.foldl (fun (t : Tab Nat) (x : Nat × Nat) => t.set x.1 x.2) c.qs.served }
  have c := c.chargeShapers k.x.q k.x.f.charge
  have c := { c with qs.frames := c.qs.frames.filter (fun (y : QFrame) => decide (y.f.id ≠ k.x.f.id)), qs.out := c.qs.out ++ [k.x] }.queueStat k.x.q k.x.f.blk
  have c := (c.inc C.SCH_Q_DEQ_FRAMES k.x.q).settle k.x.q
  if c.qHolds k.x.q then c else { c with qs.deficit := c.qs.deficit.set (kidQ k.x.q) 0 }

/-! ## Admission and spill (R186 to R190) -/

/-- Cells of the shared pool of a slice (R188). -/
def Chip.sharedPool (c : Chip) (b : Nat) : Nat :=
  98304 - ((List.range 32768).filter (fun q => c.qValid q && decide (c.qDir q = 0) && decide (c.portBlk (c.qPort q) = b))).foldl
    (fun n q => n + c.rg R.SCH_Q_LIMIT_MIN q * 4) 0

/-- A frame dropped at admission: the counter of its block, DROP_FRAMES of its queue, its generation released (R177, R186). -/
def Chip.admitDrop (c : Chip) (f : Frame) (q : Nat) (k : Ctr) : Chip :=
  ((c.inc k f.blk).inc C.SCH_Q_DROP_FRAMES q).refDrop f.gen

/-- An admitted frame joins its queue (R186, R194): counted, bound to a member, charged to its priority. -/
def Chip.joinQueue (c : Chip) (f : Frame) (q cells : Nat) (reserve : Bool) (spill : Option Nat) : Chip :=
  have m := if c.qDir q = 1 then c.bindTo (c.qGroup q) f else none
  have c := c.accruePath q
  have c := { c with qs.frames := c.qs.frames ++ [({ f := f, q := q, cells := cells, reserve := reserve, spill := spill, member := m, at_ := c.now } : QFrame)] }
  have c := (c.inc C.SCH_Q_ENQ_FRAMES q).incBy C.SCH_Q_ENQ_BYTES q f.charge
  have c := (c.queueStat q f.blk).refDrop f.gen
  if f.origin = 0 then c.pfcUpdate f.src else c

/-- A cell of 64 bytes in units of 1/15 bit, in which the 12.8 Tbit/s of spill writes are 192 a picosecond (R30). -/
def stageCell : Nat := 7680

/-- Content of the staging buffers after `dt` ps: every region that has something to write takes its 3.2 Tbit/s and an equal part of
what the others lend (R30); `n` rounds, a buffer empties in each. -/
def stageDrain (lv : Tab Nat) (dt : Nat) : Nat → Tab Nat
  | 0 => lv
  | n + 1 =>
    match lv with
    | [] => []
    | _ :: _ =>
      have rate := 192 / lv.length
      have first := (lv.map (fun (e : Nat × Nat) => cdiv e.2 rate)).foldl min dt
      stageDrain ((lv.map (fun (e : Nat × Nat) => (e.1, e.2 - rate * first))).filter (fun (e : Nat × Nat) => decide (e.2 ≠ 0))) (dt - first) n

/-- The staging buffers brought up to the present. -/
def Chip.stageNow (c : Chip) : Tab Nat := stageDrain c.qs.stage (c.now - c.qs.stageAt) 5

/-- Is the staging buffer of region n, 4,096 cells, full (R190)? -/
def Chip.stageFull (c : Chip) (n : Nat) : Bool := decide (4095 * stageCell < Tab.get 0 c.stageNow n)

/-- Admission to spill (R189, R190): within SPILL_MAX, the region's share of HBM and its staging buffer; block `b` decides it. -/
def Chip.admitSpill (c : Chip) (f : Frame) (b q cells : Nat) : Chip :=
  have lv := c.stageNow
  have more := Tab.get 0 lv (f.blk / 8) + cells * stageCell
  if c.spilledBytes q + f.len > c.rg R.SCH_Q_SPILL_SPILL_MAX q * 1048576 ∨ c.hbmBytes (f.blk / 8) + f.len > 12884901888 ∨ 4096 * stageCell < more then
    c.admitDrop { f with blk := b } q C.SCH_BLK_SPILL_DROP
  else
    have c := { c with qs.stage := lv.set (f.blk / 8) more, qs.stageAt := c.now }
    have c := (c.wb R.SCH_Q_OCC_SPILLING q true).inc C.SCH_BLK_SPILL_FRAMES b
    c.joinQueue f q cells false (some (bits f.hash 16 8))

/-- Cells counted at admission: those of the frame, or of MAX_FRAME while its length is not known (R187). -/
def Chip.admitCells (c : Chip) (f : Frame) : Nat := if f.known then cellsOf f.len else cellsOf c.maxFrame

/-- Would the frame pass XOFF plus headroom of the priority it arrived with (R186, R211)? -/
def Chip.pfcOver (c : Chip) (f : Frame) (cells : Nat) : Bool :=
  have t := if c.rg R.SCH_PFC_CFG_MODE f.src = 1 then 0 else f.tc
  decide (f.origin = 0) && decide (c.rg R.SCH_PFC_CFG_MODE f.src ≠ 0) &&
    decide (c.pfcCharge f.src t + cells > c.rg R.SCH_PFC_XOFF_CELLS (pfcIdx f.src t) + c.rg R.SCH_PFC_HDRM_CELLS (pfcIdx f.src t))

/-- The slice that a frame of queue `q` is written to: of the block of its destination port for a downstream frame, of its ingress
block for any other (R185). -/
def Chip.sliceOf (c : Chip) (f : Frame) (q : Nat) : Nat := if f.origin = 1 ∧ c.qDir q = 0 then c.portBlk (c.qPort q) else f.blk

/-- Everything of R186 after the policer. A drop is charged to the block that decides it. -/
def Chip.admitQueue (c : Chip) (f : Frame) (q : Nat) : Chip :=
  have n := c.admitCells f
  have g := { f with blk := c.sliceOf f q }
  have occ := c.occ q
  if c.qValid q = false ∨ (c.qDir q = 0 ∧ c.portEnabled (c.qPort q) = false) then c.admitDrop f q C.SCH_BLK_Q_INVALID
  else if c.qDir q = 0 ∧ c.gateNever (c.qPort q) (c.rg R.SCH_Q_CFG_TC q) f then c.admitDrop f q C.SCH_BLK_GATE_NEVER
  else if c.pfcOver f n then c.admitDrop f q C.SCH_BLK_PFC_HDRM_DROP
  else if c.rb R.SCH_Q_OCC_SPILLING q ∨ (c.rb R.SCH_Q_CFG_SPILL_EN q ∧ occ + n > c.rg R.SCH_Q_SPILL_SPILL_ON q * 4) then
    c.admitSpill g f.blk q n
  else if occ + n > c.rg R.SCH_Q_LIMIT_MAX q * 4 then c.admitDrop f q C.SCH_BLK_Q_FULL
  else if occ + n ≤ c.rg R.SCH_Q_LIMIT_MIN q * 4 then c.joinQueue g q n true none
  else if c.sharedUsed g.blk + n ≤ c.sharedPool g.blk then c.joinQueue g q n false none
  else c.admitDrop f q C.SCH_BLK_SLICE_FULL

/-- Has admission stopped (R427 step 1)? -/
def Chip.admitStopped (c : Chip) : Bool := decide (c.pw.evStep ≠ 0)

/-- FRAME_ADMIT (R186): admission of a frame to queue `q`, policed by `pol` where there is one. -/
def Chip.admitFrame (c : Chip) (f : Frame) (q : Nat) (pol : Option Nat) : Chip :=
  if c.admitStopped then (c.inc C.SCH_Q_DROP_FRAMES q).refDrop f.gen
  else match pol with
  | some p =>
    match c.police p f.charge with
    | (d, true) => d.admitQueue f q
    | (d, false) => d.admitDrop f q C.SCH_BLK_POLICE_DROP
  | none => c.admitQueue f q

/-- The frame that the refill engine moves next for queue `q`, and its spill queue (R189): of the spill queues in round robin, where
occupancy allows. -/
def Chip.spillNext (c : Chip) (q : Nat) : Option (QFrame × Nat) :=
  have sp := c.qs.frames.filter (fun x => decide (x.q = q) && x.spill.isSome)
  have last := Tab.get 255 c.qs.refilled q
  match ((List.range 256).map (fun i => (last + 1 + i) % 256)).find? (fun k => sp.any (fun x => decide (x.spill = some k))) with
  | none => none
  | some k =>
    match sp.find? (fun x => decide (x.spill = some k)) with
    | none => none
    | some x =>
      have res := decide (c.occ q + x.cells ≤ c.rg R.SCH_Q_LIMIT_MIN q * 4)
      if c.occ q + x.cells ≤ c.rg R.SCH_Q_SPILL_SPILL_ON q * 4 ∧ (res ∨ c.sharedUsed x.f.blk + x.cells ≤ c.sharedPool x.f.blk) then
        some ({ x with spill := none, reserve := res }, k)
      else none

/-- A frame moves back into its slice from its spill queue. -/
def Chip.refill (c : Chip) (q : Nat) (x : QFrame) (k : Nat) : Chip :=
  have d := { c with qs.frames := c.qs.frames.filter (fun (y : QFrame) => decide (y.f.id ≠ x.f.id)) ++ [x], qs.refilled := c.qs.refilled.set q k }
  d.queueStat q x.f.blk

/-- Spacing of the repeats of a port's PAUSE or PFC frames in ps (R210): REFRESH, or half the pause where REFRESH is not shorter. -/
def Chip.pfcPeriod (c : Chip) (p : Nat) : Nat :=
  have pause := c.lanePs p (c.rg R.SCH_PFC_CFG_QUANTA p * 512)
  have r := c.rg R.SCH_PFC_CFG_REFRESH p * usPs
  if r < pause then r else pause / 2

/-- PFC_REFRESH (R210): frames that have been sent end their charges; then the port repeats the frame for the classes it has held
paused for a period. MODE 0 sends none. -/
def pfcRefresh (p : Nat) (c : Chip) : Chip :=
  have c := c.outSweep
  have due := (c.pfcClasses p).filter (fun t => c.rbit R.SCH_PFC_STAT_XOFF p t && decide (Tab.get 0 c.qs.pfcAt (pfcIdx p t) + c.pfcPeriod p ≤ c.now))
  if due.isEmpty then c
  else
    have x := due.foldl setBit 0
    have d := { c with qs.pfcAt := due.foldl (fun (m : Tab Nat) t => m.set (pfcIdx p t) c.now) c.qs.pfcAt }
    d.pauseSend p (d.pauseFrame p x x)

def execPfcRefresh (t : Nat) (p : Fin 128) (s : State) : Host.Outcome State Fault Refusal := s.on t (fun _ => pfcRefresh p.val)

end Sys2Proof.Machine
end

