-- ==== Sys2Proof/Machine/Macsec.lean ====
section
/-! DEFINITION. The cipher of a port's SecY: IEEE 802.1AE with GCM-AES-XPN-256 (10_ports_and_lanes.md R311 to R313, 13_security.md
R396). The layout of the SecTAG, the IV of XPN and the place of the PN are PRESUMED from IEEE 802.1AE, which R311 names (log
entry 24). -/

namespace Sys2Proof.Machine

open Sys2Proof

/-- Data under the key stream of AES-256-GCM, from byte `off` of the stream: the same operation encrypts and decrypts. -/
def gcmStream (key iv : List Byte) (off : Nat) (data : List Byte) : List Byte :=
  (List.range data.length).map (fun i => data.getD i 0 ^^^ Config.keystream key iv (off + i))

/-- The 16 bytes of a GCM tag. -/
def gcmTagBytes (key iv aad ct : List Byte) : List Byte := beBytes 16 (Config.gcmTag key iv aad ct).toNat

/-- XOR of two lists of bytes of one length. -/
def xorBytes (a b : List Byte) : List Byte := List.zipWith (fun x y => x ^^^ y) a b

/-- The 96-bit IV of XPN: salt XOR (SSCI, PN). -/
def xpnIv (salt : List Byte) (ssci pn : Nat) : List Byte := xorBytes salt (beBytes 4 ssci ++ beBytes 8 pn)

/-- EtherType of a SecTAG. -/
def etSec : Nat := 0x88E5

/-- Is an EtherType sent and accepted unprotected on a port (PRT_SEC_BYPASS)? -/
def Chip.secBypass (c : Chip) (p et : Nat) : Bool :=
  (List.range 4).any (fun i => c.rb R.PRT_SEC_BYPASS_VALID (256 * p + i) && decide (c.rg R.PRT_SEC_BYPASS_ETYPE (256 * p + i) = et))

/-- The confidentiality offset of a port in bytes (R312). -/
def Chip.secOffset (c : Chip) (p : Nat) : Nat := match c.rg R.PRT_SEC_CFG_OFFSET p with
  | 0 => 0
  | 1 => 30
  | _ => 50

/-- The SecTAG after its EtherType: TCI and AN, short length, the low 32 bits of the PN, and the SCI where it is included: the port's
MAC address with port identifier 1. -/
def secTag (an pn len : Nat) (sci : Option Nat) : List Byte :=
  have tci := (if sci.isSome then 0x20 else 0) + 0x0C + an
  beBytes 1 tci ++ beBytes 1 (if len < 48 then len else 0) ++ beBytes 4 pn ++ (match sci with
    | some x => beBytes 8 x
    | none => [])

/-- A frame without FCS as it leaves a port under an association with its packet number (R312). -/
def Chip.secProtect (c : Chip) (p : Nat) (sa : MsTx) (an : Nat) (l : List Byte) : List Byte :=
  have data := l.drop 12
  have sci := if c.rb R.PRT_SEC_CFG_SCI_INCL p then some (c.portMac p * 65536 + 1) else none
  have head := l.take 12 ++ beBytes 2 etSec ++ secTag an sa.pn data.length sci
  have o := c.secOffset p
  have iv := xpnIv sa.salt sa.ssci sa.pn
  have ct := gcmStream sa.sak iv 0 (data.drop o)
  head ++ data.take o ++ ct ++ gcmTagBytes sa.sak iv (head ++ data.take o) ct

/-- How a frame leaves a port: in clear, protected, or not at all. -/
inductive SecTx where
  | clear
  | prot (sa : MsTx) (an : Nat)
  | noSend

/-- A frame of EtherType `et` starts on a port (R312, R396): a packet number is used once; past the thresholds PN_NEAR is set and
frames are dropped. -/
def Chip.secStart (c : Chip) (p et : Nat) : Chip × SecTx :=
  if c.rb R.PRT_SEC_CFG_SEC_EN p = false ∨ c.secBypass p et = true then (c, .clear)
  else
    have an := c.rg R.SEC_MS_STAT_TX_AN p
    match c.sec.msTx.find (4 * p + an) with
    | none => (c.inc C.SEC_MS_NO_SA_TX 0, .noSend)
    | some sa =>
      if sa.pn ≥ 0xFFFFFFFFFFFFFFFF then ((c.inc C.SEC_MS_PN_EXH 0).wg R.SEC_MS_STAT_PN_EXH p 1, .noSend)
      else
        have c := { c with sec.msTx := c.sec.msTx.set (4 * p + an) { sa with pn := sa.pn + 1 } }
        have c := if sa.pn + 1 ≥ 0xC000000000000000 ∧ c.rb R.SEC_MS_STAT_PN_NEAR p = false then (c.wg R.SEC_MS_STAT_PN_NEAR p 1).wg R.SEC_EVT_PN_NEAR 0 1 else c
        (c, .prot sa an)

/-- What the SecY does with a received frame without FCS (R313): a plaintext frame, or a drop. -/
def Chip.secReceive (c : Chip) (p : Nat) (l : List Byte) : Chip × Option (List Byte) :=
  if c.rb R.PRT_SEC_CFG_SEC_EN p = false then (c, some l)
  else if beAt l 12 2 = etSec then
    have tci := beAt l 14 1
    have an := tci % 4
    have sc := bit tci 5
    have lo := beAt l 16 4
    have hdr := if sc then 28 else 20
    have sci := if sc then some (beAt l 20 8) else none
    have found := (List.range 4).find? (fun ch => match c.sec.msRx.find (16 * p + 4 * ch + an) with
      | some sa => (match sci with
        | some x => decide (sa.sci = x)
        | none => true)
      | none => false)
    match found with
    | none => ((c.inc C.PRT_SEC_RX_NO_SA p).wg R.PRT_EVT_SEC_FAIL p 1, none)
    | some ch =>
      match c.sec.msRx.find (16 * p + 4 * ch + an) with
      | none => (c, none)
      | some sa =>
        have hi := sa.next / 4294967296
        have pn := if lo + hi * 4294967296 + 2147483648 < sa.next then lo + (hi + 1) * 4294967296 else lo + hi * 4294967296
        have win := c.rg R.SEC_CFG_REPLAY_WIN 0
        if pn + win < sa.next then ((c.inc C.PRT_SEC_RX_REPLAY p).wg R.PRT_EVT_SEC_FAIL p 1, none)
        else
          have body := (l.drop hdr).take (l.length - hdr - 16)
          have o := c.secOffset p
          have iv := xpnIv sa.salt sa.ssci pn
          if l.length < hdr + 16 ∨ gcmTagBytes sa.sak iv (l.take hdr ++ body.take o) (body.drop o) ≠ l.drop (l.length - 16) then
            ((c.inc C.PRT_SEC_RX_ICV_FAIL p).wg R.PRT_EVT_SEC_FAIL p 1, none)
          else
            have c := { c with sec.msRx := c.sec.msRx.set (16 * p + 4 * ch + an) { sa with next := max sa.next (pn + 1) } }
            (c, some (l.take 12 ++ body.take o ++ gcmStream sa.sak iv 0 (body.drop o)))
  else if c.secBypass p (beAt l 12 2) then (c, some l)
  else match c.rg R.PRT_SEC_CFG_VALIDATE p with
    | 0 => (c, some l)
    | 1 => ((c.inc C.PRT_SEC_RX_UNPROT p).wg R.PRT_EVT_SEC_FAIL p 1, some l)
    | _ => ((c.inc C.PRT_SEC_RX_UNPROT p).wg R.PRT_EVT_SEC_FAIL p 1, none)

/-- The bytes of a frame on its port without FCS: as it is, or protected. -/
def Chip.secBytes (c : Chip) (p : Nat) (s : Option (MsTx × Nat)) (l : List Byte) : List Byte :=
  match s with
  | some (sa, an) => c.secProtect p sa an l
  | none => l

end Sys2Proof.Machine
end

