-- ==== Sys2Proof/Machine/Pipeline.lean ====
section
/-! DEFINITION. Parsing and classification (05_packet_pipeline.md): the pass, its hash, stages, resolution and edits, the flow
tables, rule generations, the slow path. -/

namespace Sys2Proof.Machine

open Sys2Proof

/-! ## Bits of a header (R7, R156) -/

/-- The `w` bits at bit offset `o` of a list of bytes; bytes beyond its end read 0. -/
def wireBits (l : List Byte) (o w : Nat) : Nat :=
  have n := cdiv (o % 8 + w) 8
  have b := slice l (o / 8) n
  (beNat (b ++ zeros (n - b.length)) / 2 ^ (n * 8 - o % 8 - w)) % 2 ^ w

/-! ## Rule generations (R177) -/

/-- PG and BANKS of a generation; those of an empty slot where it is not live. -/
def Chip.genPg (c : Chip) (g : Nat) : Nat := match c.genSlot g with
  | some n => c.rg R.PKT_GEN_SLOT_PG n
  | none => 0
def Chip.genBank (c : Chip) (g s : Nat) : Nat := match c.genSlot g with
  | some n => bitN (c.rg R.PKT_GEN_SLOT_BANKS n) s
  | none => 0

/-! ## Exceptions (R159, R160) -/

/-- ACTION (0 DROP, 1 SLOW_PATH, 2 CONTINUE) and SP_CLASS of an exception kind in a parse-graph copy. -/
def Chip.excAction (c : Chip) (pg e : Nat) : Nat × Nat :=
  match c.pp.excs.find (256 * pg + e) with
  | some b => (byteAt b 0, byteAt b 1)
  | none => if e = 0 ∨ e = 3 then (1, 7) else if e = 5 then (2, 0) else (0, 0)

/-- The block counter of an exception kind. -/
def excCtr (e : Nat) : Ctr := ⟨C.PKT_BLK_EXC_0.base + 8 * e, C.PKT_BLK_EXC_0.stride⟩

/-- An exception is raised in a frame of block `b`: counted. Its EXC bit is set on the bus by `busExc`. -/
def Chip.excCount (c : Chip) (b e : Nat) : Chip := c.inc (excCtr e) b
def busExc (bus e : Nat) : Nat := busSet bus (396 + e) 1 1

/-! ## The parse graph (R156 to R161) -/

/-- The parser as it walks: next node, cursor, nodes entered, bus, headers parsed, exception raised, largest claimed end that
waits for the last byte (R474). -/
structure Walk where
  node : Option Nat
  cur : Nat
  cnt : Nat
  bus : Nat
  hdrs : List Hdr
  exc : Option Nat
  claim : Nat
deriving DecidableEq, Repr

/-- ROLE codes of a NODE record. -/
def roleEth : Nat := 1
def roleIpv4 : Nat := 2
def roleIpv6 : Nat := 3
def roleUdp : Nat := 4
def roleL4 : Nat := 5
def roleEcpri : Nat := 6

/-- The last header parsed that has a role among `rs`. -/
def lastHdr (hs : List Hdr) (rs : List Nat) : Option Hdr := (hs.filter (fun h => rs.contains h.role)).getLast?

/-- End of the datagram that an IP header claims. -/
def ipEnd (l : List Byte) (h : Hdr) : Nat :=
  if h.role = roleIpv4 then h.off + wireBits l (8 * (h.off + 2)) 16 else h.off + 40 + wireBits l (8 * (h.off + 4)) 16

/-- R161: does a header conflict, and what end does it claim that must lie within the frame? `h` is the header's length. -/
def roleCheck (l : List Byte) (hs : List Hdr) (role off h : Nat) : Bool × Nat :=
  if role = roleIpv4 then
    have tl := wireBits l (8 * (off + 2)) 16
    (decide (tl < h), off + tl)
  else if role = roleIpv6 then (false, off + 40 + wireBits l (8 * (off + 4)) 16)
  else if role = roleUdp then
    have ul := wireBits l (8 * (off + 4)) 16
    match lastHdr hs [roleIpv4, roleIpv6] with
    | some ip => (decide (ul < 8) || decide (off + ul ≠ ipEnd l ip), 0)
    | none => (decide (ul < 8), off + ul)
  else (false, 0)

/-- The extractions of an EXTRACT record (R158), for a header at `off`. -/
def runExtract (l : List Byte) (body : List Byte) (off bus : Nat) : Nat :=
  forN (byteAt body 0) (fun i b =>
    have e := word body (4 + 4 * i)
    have w := bits e 14 6 + 1
    busSet b (bits e 6 8) w (wireBits l (8 * off + bits e 20 12) w)) bus

/-- The next node that a select field chooses: a node, the end, or NO_MATCH (R156, R157 step 6). -/
def nextNode (body : List Byte) (field : Nat) : Nat :=
  match (List.range (byteAt body 13)).find? (fun i => decide (field &&& half body (16 + 8 * i + 2) = half body (16 + 8 * i))) with
  | some i => half body (16 + 8 * i + 4)
  | none => half body 14

/-- One node (R157), in a frame of `lf` bytes without FCS whose length is `known` or not. -/
def Chip.walkNode (c : Chip) (pg : Nat) (l : List Byte) (lf : Nat) (known : Bool) (w : Walk) : Walk :=
  match w.node with
  | none => w
  | some k =>
    match c.pp.nodes.find (256 * pg + k) with
    | none => { w with node := none }
    | some b =>
      have stop := fun (e : Nat) => { w with node := none, exc := some e, cnt := w.cnt + 1 }
      have len := half b 2
      if w.cnt + 1 ≥ 25 then stop 0
      else if w.cur + len > 512 then stop 0
      else if w.cur + len > lf then stop 2
      else
        have flags := byteAt b 1
        have hI : Int := if bit flags 0 then
            ((wireBits l (8 * w.cur + half b 4) (byteAt b 6) * 2 ^ byteAt b 7 : Nat) : Int) + sgn 16 (half b 8)
          else (len : Int)
        have h := hI.toNat
        if hI < (len : Int) then stop 1
        else if w.cur + h > 512 then stop 0
        else if w.cur + h > lf then stop 2
        else
          have role := bits flags 1 3
          have r := roleCheck l w.hdrs role w.cur h
          if r.1 then stop 1
          else if known ∧ r.2 > lf then stop 1
          else
            have bus := match c.pp.extracts.find (256 * pg + k) with
              | some x => runExtract l x w.cur w.bus
              | none => w.bus
            have id := byteAt b 0
            have bus := if id = 0 then bus else busSet bus (402 + id) 1 1
            have sw := byteAt b 12
            have nx := if sw = 0 then half b 14 else nextNode b (wireBits l (8 * w.cur + half b 10) sw)
            have w' : Walk := { w with cnt := w.cnt + 1, bus := bus, hdrs := w.hdrs ++ [⟨role, w.cur, h⟩], cur := w.cur + h, claim := if known then 0 else max w.claim r.2 }
            if nx = 0xFFFE then { w' with node := none }
            else if nx = 0xFFFF then { w' with node := none, exc := some 3 }
            else { w' with node := some nx }

/-- The whole parse: at most 25 nodes are entered. -/
def Chip.parse (c : Chip) (pg : Nat) (l : List Byte) (lf : Nat) (known : Bool) (bus : Nat) : Walk :=
  forN 25 (fun _ w => c.walkNode pg l lf known w)
    { node := some 0, cur := 0, cnt := 0, bus := bus, hdrs := [], exc := none, claim := 0 }

/-! ## The symmetric hash (R162) -/

/-- Two byte strings of one length in numerical order. -/
def ordered (a b : List Byte) : List Byte := if beNat a ≤ beNat b then a ++ b else b ++ a

/-- The 40-byte canonical tuple of a frame with these headers. -/
def hashTuple (l : List Byte) (hs : List Hdr) : List Byte :=
  have at_ := fun (o n : Nat) => beBytes n (wireBits l (8 * o) (8 * n))
  match lastHdr hs [roleIpv4, roleIpv6] with
  | some ip =>
    have v4 := fun (o : Nat) => zeros 10 ++ [0xFF, 0xFF] ++ at_ o 4
    have adr := if ip.role = roleIpv4 then ordered (v4 (ip.off + 12)) (v4 (ip.off + 16)) else ordered (at_ (ip.off + 8) 16) (at_ (ip.off + 24) 16)
    have proto := if ip.role = roleIpv4 then at_ (ip.off + 9) 1 else at_ (ip.off + 6) 1
    have ports := match hs.find? (fun h => decide (h.off > ip.off) && [roleUdp, roleL4].contains h.role) with
      | some h => ordered (at_ h.off 2) (at_ (h.off + 2) 2)
      | none => zeros 4
    adr ++ proto ++ [0x01] ++ ports ++ zeros 2
  | none =>
    match lastHdr hs [roleEth] with
    | some e => ordered (at_ e.off 6) (at_ (e.off + 6) 6) ++ zeros 21 ++ [0x02] ++ at_ (e.off + 12) 2 ++
        (match lastHdr hs [roleEcpri] with
        | some p => at_ (p.off + 4) 2
        | none => zeros 2) ++ zeros 2
    | none => zeros 33 ++ [0x00] ++ zeros 2 ++
        (match lastHdr hs [roleEcpri] with
        | some p => at_ (p.off + 4) 2
        | none => zeros 2) ++ zeros 2

/-- HASH of a frame with these headers. -/
def Chip.hashOf (c : Chip) (l : List Byte) (hs : List Hdr) : Nat :=
  crc32cFrom (0xFFFFFFFF ^^^ c.rg R.PKT_HASH_CFG_SEED 0) (hashTuple l hs)

/-! ## Action words (R173) -/

/-- Apply a valid action word to the bus. -/
def applyWord (bus w : Nat) : Nat :=
  have form := bits w 61 2
  if form = 0 then
    have b := if bit w 44 then busSet (busSet bus 339 15 (bits w 45 15)) 338 1 1 else bus
    have b := if bit w 40 then busSet b 361 3 (bits w 41 3) else b
    have b := if bit w 25 then busSet (busSet b 324 14 (bits w 26 14)) 323 1 1 else b
    busSet (busSet b 283 4 (bits w 21 4)) 267 16 (bits w 5 16)
  else if form = 1 then
    have b := busSet (busSet bus 339 15 (bits w 45 15)) 338 1 1
    have b := busSet (busSet (busSet b 307 16 (bits w 29 16)) 299 8 (bits w 21 8)) 361 3 (bits w 18 3)
    if bit w 3 then busSet (busSet b 324 14 (bits w 4 14)) 323 1 1 else b
  else if form = 2 then busSet bus (bits w 51 9) (bits w 46 5 + 1) (bits w 14 32)
  else
    match bits w 56 4 with
    | 0 => busSet bus 360 1 1
    | 1 => busSet (busSet bus 359 1 1) 356 3 (bits w 53 3)
    | 2 => busSet bus 355 1 1
    | 3 => busSet (busSet bus 354 1 1) 287 12 (bits w 41 12)
    | _ => bus

/-- An action word takes effect; LAST skips the remaining stages. -/
def applyAction (bus w : Nat) : Nat × Bool := if bit w 63 then (applyWord bus w, bit w 60) else (bus, false)

/-- May an action word with VALID = 1 stand in a table (R173)? EDIT is 0 to 5 (R175). -/
def wordLegal (w : Nat) : Bool :=
  !bit w 63 ||
    (match bits w 61 2 with
    | 0 => decide (bits w 0 5 = 0) && decide (bits w 21 4 ≤ 5)
    | 1 => decide (bits w 0 3 = 0)
    | 2 => decide (bits w 0 14 = 0) && decide (bits w 51 9 ≤ 255) && decide (bits w 51 9 + bits w 46 5 + 1 ≤ 256)
    | _ => decide (bits w 0 41 = 0) && decide (bits w 56 4 ≤ 3))

/-! ## Tables (R164 to R172) -/

/-- `n` words of the table window from an address, as one number, first word most significant. -/
def Chip.winWords (c : Chip) (a : Nat) : Nat → Nat
  | 0 => 0
  | n + 1 => c.winWords a n * 2 ^ 32 + c.winGet (a + 4 * n)

/-- Window address of entry `e` of bank `b` of the exact, ternary and range tables. -/
def exactAddr (b e : Nat) : Nat := 0x48000000 + 0x08000000 * b + 32 * e
def ternAddr (b e : Nat) : Nat := 0x41000000 + 0x00800000 * b + 128 * e
def rangeAddr (b e : Nat) : Nat := 0x40100000 + 0x00040000 * b + 16 * e

/-- The key of a layout: segment 0 most significant (R164). -/
def layoutKey (body : List Byte) (bus : Nat) : Nat :=
  (List.range (byteAt body 1)).foldl (fun k i =>
    have s := word body (24 + 4 * i)
    k * 2 ^ bits s 16 7 + bits (busSet bus 256 11 0) (bits s 23 9) (bits s 16 7)) 0

/-- log2 of a power of two, searched below 32. -/
def log2 (n : Nat) : Nat := ((List.range 32).find? (fun i => decide (2 ^ i = n))).getD 0

/-- The bucket of a key of an exact table of SIZE entries (R166). -/
def exactBucket (key size : Nat) : Nat := crc32c (beBytes 20 key) % 2 ^ log2 (size / 4)

/-- An exact lookup: the action word of the entry with the key. -/
def Chip.exactFind (c : Chip) (bank base size key : Nat) : Option Nat :=
  have e0 := base + 4 * exactBucket key size
  ((List.range 4).find? (fun w =>
    decide (c.winWords (exactAddr bank (e0 + w)) 5 = key) && bit (c.winWords (exactAddr bank (e0 + w) + 20) 2) 63)).map
      (fun w => c.winWords (exactAddr bank (e0 + w) + 20) 2)

/-- A ternary lookup: the lowest valid entry that matches. -/
def Chip.ternFind (c : Chip) (bank base size key : Nat) : Option Nat :=
  ((List.range size).find? (fun i =>
    have a := ternAddr bank (base + i)
    bit (c.winGet (a + 80)) 31 && decide (key &&& c.winWords (a + 40) 10 = c.winWords a 10 &&& c.winWords (a + 40) 10))).map
      (fun i => c.winWords (ternAddr bank (base + i) + 80) 2)

/-- A range lookup: the lowest valid entry that holds the key. -/
def Chip.rangeFind (c : Chip) (bank base size key : Nat) : Option Nat :=
  ((List.range size).find? (fun i =>
    have a := rangeAddr bank (base + i)
    bit (c.winGet (a + 8)) 31 && decide (c.winGet a ≤ key ∧ key ≤ c.winGet (a + 4)))).map
      (fun i => c.winWords (rangeAddr bank (base + i) + 8) 2)

/-! ## The flow cache (R168) -/

/-- The set of a line among the 131,072 sets of 8 ways. -/
def CacheLine.set (x : CacheLine) : Nat := Config.cacheSet x.table x.bank x.key % 131072

/-- The line that holds a key. -/
def Chip.cacheFind (c : Chip) (t b k : Nat) : Option CacheLine := c.pp.cache.find? (fun x => decide (x.table = t ∧ x.bank = b ∧ x.key = k))

/-- A line becomes the most recently used one. A full set evicts its least recently used line, which is counted. -/
def Chip.cachePut (c : Chip) (x : CacheLine) : Chip :=
  have others := c.pp.cache.filter (fun y => decide (y.table ≠ x.table ∨ y.bank ≠ x.bank ∨ y.key ≠ x.key))
  have same := others.filter (fun y => decide (y.set = x.set))
  match (if same.length ≥ 8 then same.getLast? else none) with
  | some old => ({ c with pp.cache := x :: others.filter (fun y => decide (y ≠ old)) }).inc C.PKT_FLOW_CACHE_EVICT 0
  | none => { c with pp.cache := x :: others }

/-- BUCKETS_LOG2 and the DDR5 address of the bucket of a key in a bank of a flow table (R167). -/
def Chip.flowBucket (c : Chip) (t b k : Nat) : Option Nat :=
  (c.obj 0x0303 t).map (fun r => word r (4 * b) * 4096 + 256 * (crc32c (beBytes 40 k) % 2 ^ byteAt r 8))

/-- Key and action word of a 64-byte flow entry. -/
def flowKey (e : List Byte) : Nat := beAt e 0 40
def flowAction (e : List Byte) : Nat := beAt e 40 8

/-! ## The slow path (R182, R183) -/

/-- The 32-byte record and the captured bytes of a slow-path frame. -/
def slowRecord (f : Frame) (cls reason trunc : Nat) (whole : List Byte) : List Byte :=
  have cap := min trunc whole.length
  beBytes 1 cls ++ beBytes 1 reason ++ beBytes 1 f.origin ++ beBytes 1 f.pass ++ beBytes 1 f.gen ++ beBytes 1 f.wl ++ beBytes 2 f.src ++
    beBytes 2 f.len ++ beBytes 2 cap ++ beBytes 4 f.hash ++ beBytes 4 f.tsNs ++ beBytes 2 f.tsFrac ++
    beBytes 2 (b2n f.tsOk + (if cap < whole.length then 2 else 0)) ++ beBytes 8 f.hdrMap ++ whole.take cap

/-- Tokens of a class now, in 10⁻¹² frames. -/
def Chip.spTokens (c : Chip) (k : Nat) : Nat :=
  min (c.rg R.PKT_SP_RATE_BURST k * secPs) (Tab.get 0 c.pp.spTok k + c.rg R.PKT_SP_RATE_RATE k * (c.now - Tab.get 0 c.pp.spAt k))

/-- A drop in the slow path of class `k`. -/
def Chip.spDrop (c : Chip) (k : Nat) : Chip := c.inc ⟨C.PKT_SP_DROP_0.base, 8⟩ k

/-- The core that takes a frame: among the cores permitted, by HASH[31:24] (R163). -/
def Chip.spCore (c : Chip) (k hash : Nat) : Option Nat :=
  have cs := (List.range 16).filter (fun j => c.rbit R.PKT_SP_CFG_CORES k j)
  cs[bits hash 24 8 * cs.length / 256]?

/-- A frame with all its bytes is delivered to the slow path (R182): token, queue, counters. A class that permits no core drops. -/
def Chip.slowDeliver (c : Chip) (f : Frame) (k reason : Nat) : Chip :=
  if c.rb R.PKT_SP_CFG_EN k = false then c.spDrop k
  else
    have tok := c.spTokens k
    if tok < secPs then { c with pp.spTok := c.pp.spTok.set k tok, pp.spAt := c.pp.spAt.set k c.now }.spDrop k
    else
      have d := { c with pp.spTok := c.pp.spTok.set k (tok - secPs), pp.spAt := c.pp.spAt.set k c.now }
      have r := slowRecord f k reason (c.rg R.PKT_SP_CFG_TRUNC k) (f.bytes ++ fcsBytes f.bytes)
      if c.rb R.PKT_SP_CFG_DEST k then
        if (d.pp.hostQ.map (fun x => x.2.length)).sum + r.length > 1048576 then d.inc C.PKT_SP_QFULL 0
        else { d with pp.hostQ := d.pp.hostQ ++ [(f.blk / 8, r)] }.inc ⟨C.PKT_SP_SENT_0.base, 8⟩ k
      else match c.spCore k f.hash with
        | none => d.spDrop k
        | some j =>
          if d.wqFree (16 + j) then (d.wqPush (16 + j) r).inc ⟨C.PKT_SP_SENT_0.base, 8⟩ k else d.inc C.PKT_SP_QFULL 0

/-- A frame goes to the slow path: at once, or when its last byte has come (log entry 20). Its generation is released. -/
def Chip.slow (c : Chip) (f : Frame) (k reason : Nat) : Chip :=
  if f.known then (c.slowDeliver f k reason).refDrop f.gen
  else { c with pp.held := c.pp.held ++ [(f, Hold.slow k reason)] }

/-! ## Steering to a sample cell (08_fronthaul_combining.md R244) -/

/-- The region of a sample cell 16 × b + c. -/
def steerRegion (b : List Byte) : Nat := half b 2 / 16 / 8

/-- A frame whose bytes are all there is handed to flow STEER, or dropped and counted in STEER_ERR. The cell must serve (R39). -/
def Chip.steerNow (c : Chip) (f : Frame) (s : Nat) : Chip :=
  have bad := (c.inc C.SMP_STEER_STEER_ERR 0).refDrop f.gen
  match c.obj 0x0502 s with
  | none => bad
  | some b =>
    have cell := half b 2
    if byteAt b 0 = 1 ∨ steerRegion b ≠ f.blk / 8 ∨ c.smpServe (3 * (cell / 16) + (cell % 16 - 8)) = 255 then bad
    else if byteAt b 0 = 0 then { c with fh.inQ := c.fh.inQ ++ [(f, s)] }
    else { c with fh.coefQ := c.fh.coefQ ++ [(f, s)] }

/-- The same once the last byte is there (log entry 20). -/
def Chip.steer (c : Chip) (f : Frame) (s : Nat) : Chip :=
  if f.known then c.steerNow f s else { c with pp.held := c.pp.held ++ [(f, Hold.sample s)] }

/-! ## Edits (R175) -/

/-- Does a frame carry a VLAN tag (log entry 21)? -/
def hasTag (l : List Byte) : Bool := decide (wireBits l 96 16 = 0x8100)

/-- Write bytes into a list at an offset. -/
def putBytes (l : List Byte) (o : Nat) (b : List Byte) : List Byte := l.take o ++ b ++ l.drop (o + b.length)

/-- Ones' complement sum folded to 16 bits. -/
def fold16 (n : Nat) : Nat := (n % 65536 + n / 65536) % 65536 + (n % 65536 + n / 65536) / 65536

/-- Set the DSCP of an IP header; an IPv4 checksum follows the changed word (log entry 21). -/
def setDscp (l : List Byte) (h : Hdr) (dscp : Nat) : List Byte :=
  if h.role = roleIpv4 then
    have old := wireBits l (8 * h.off) 16
    have new := old - bits old 2 6 * 4 + dscp % 64 * 4
    have sum := wireBits l (8 * (h.off + 10)) 16
    have cs := 65535 - fold16 ((65535 - sum) + (65535 - old) + new)
    putBytes (putBytes l h.off (beBytes 2 new)) (h.off + 10) (beBytes 2 cs)
  else
    have old := wireBits l (8 * h.off) 16
    putBytes l h.off (beBytes 2 (old - bits old 6 6 * 64 + dscp % 64 * 64))

/-- An edit of a frame; none where the frame lacks the header it needs. -/
def editBytes (l : List Byte) (hs : List Hdr) (op arg : Nat) : Option (List Byte) :=
  match op with
  | 0 => some l
  | 1 => some (l.take 12 ++ beBytes 2 0x8100 ++ beBytes 2 arg ++ l.drop 12)
  | 2 => if hasTag l then some (l.take 12 ++ l.drop 16) else none
  | 3 => if hasTag l then some (putBytes l 14 (beBytes 2 (wireBits l 112 16 % 8192 + arg % 8 * 8192))) else none
  | 4 => (lastHdr hs [roleIpv4, roleIpv6]).map (fun h => setDscp l h arg)
  | 5 => if hasTag l then some (putBytes l 14 (beBytes 2 (wireBits l 112 16 / 4096 * 4096 + arg % 4096))) else none
  | _ => some l

/-- A frame with new bytes: its length follows where it is known. -/
def Frame.withBytes (f0 : Frame) (l : List Byte) : Frame :=
  have f : Frame := { f0 with grown := f0.grown + (l.length : Int) - (f0.bytes.length : Int) }
  if f.known then { f with bytes := l, len := l.length + 4, bus := busSet f.bus 466 14 (l.length + 4) } else { f with bytes := l }

/-- Apply the bus's EDIT: the frame edited, or none where it then exceeds MAX_FRAME and is dropped (R175). -/
def Chip.edit (c : Chip) (p : Pass) : Chip × Option Frame :=
  match editBytes p.f.bytes p.hdrs (busGet p.f.bus 283 4) (busGet p.f.bus 267 16) with
  | none => (c.inc C.PKT_BLK_EDIT_SKIP p.f.blk, some p.f)
  | some l =>
    have f := p.f.withBytes l
    if f.known ∧ f.len > c.maxFrame then (c.inc C.PKT_BLK_OVER_DROP p.f.blk, none) else (c, some f)

/-! ## Resolution (R174) -/

/-- Enqueue: a queue of a port whose block is excluded or whose region is lost drops at the fabric (R39, R473); otherwise
admission (R186). -/
def Chip.enqueue (c : Chip) (f : Frame) : Chip :=
  have q := busGet f.bus 339 15
  have b := c.portBlk (c.qPort q)
  if c.qValid q ∧ c.qDir q = 0 ∧ (bit c.st.exclBlocks b ∨ bit c.st.lostRegions (b / 8)) then
    (c.inc C.PKT_EXCL_DROP 0).refDrop f.gen
  else
    have pol := if busGet f.bus 323 1 = 1 then some (busGet f.bus 324 14) else none
    have f := if pol.isSome ∧ f.known = false then { f with polCh := f.charge } else f
    c.admitFrame f q pol

/-- A frame goes on to its next pass (R176). -/
def Chip.recirculate (c : Chip) (f : Frame) : Chip :=
  { c with pp.back := c.pp.back ++ [{ f with pass := f.pass + 1, entry := false }] }

/-- A frame is dropped by a pass: its generation is released. -/
def Chip.passDrop (c : Chip) (f : Frame) (k : Ctr) : Chip := (c.inc k f.blk).refDrop f.gen

/-- What R174 does without TO_SAMPLE and RECIRC. -/
def Chip.resolveRest (c : Chip) (p : Pass) : Chip :=
  if busGet p.f.bus 359 1 = 1 then c.slow p.f (busGet p.f.bus 356 3) 0
  else if busGet p.f.bus 338 1 = 1 then
    match c.edit p with
    | (d, some f) => d.enqueue f
    | (d, none) => d.refDrop p.f.gen
  else c.passDrop p.f C.PKT_BLK_NO_DEST

/-- R174. `pg` is the parse-graph copy of the frame's generation. -/
def Chip.resolve (c : Chip) (pg : Nat) (p : Pass) : Chip :=
  if busGet p.f.bus 360 1 = 1 then c.passDrop p.f C.PKT_BLK_DROP_ACTION
  else if busGet p.f.bus 354 1 = 1 ∨ busGet p.f.bus 355 1 = 1 then
    if p.f.pass = 2 then
      have d := c.excCount p.f.blk 4
      have f := { p.f with bus := busExc p.f.bus 4 }
      match c.excAction pg 4 with
      | (1, k) => d.slow f k 0x14
      | (2, _) => d.resolveRest { p with f := { f with bus := busSet f.bus 354 2 0 } }
      | _ => d.refDrop f.gen
    else if busGet p.f.bus 354 1 = 1 then c.steer p.f (busGet p.f.bus 287 12)
    else match c.edit p with
      | (d, some f) => d.recirculate f
      | (d, none) => d.refDrop p.f.gen
  else c.resolveRest p

/-! ## The stages (R164 to R169) -/

/-- What stage `s` does to a pass: go on (with LAST or not), end the pass here, or wait on a fetch. -/
inductive StageEnd where
  | on (c : Chip) (bus : Nat) (last : Bool)
  | ended (c : Chip)
  | wait (c : Chip)

/-- A stage looked up and found `r`, or nothing: counted, the action word or MISS_ACTION applied. -/
def Chip.stageTake (c : Chip) (s bus : Nat) (body : List Byte) (r : Option Nat) : StageEnd :=
  match r with
  | some w => have x := applyAction bus w; .on (c.inc ⟨C.PKT_STAGE_HIT_0.base, 8⟩ s) x.1 x.2
  | none => have x := applyAction bus (beAt body 16 8); .on (c.inc ⟨C.PKT_STAGE_MISS_0.base, 8⟩ s) x.1 x.2

/-- FLOW_MISS_OVR at a stage (R169): its action; CONTINUE applies MISS_ACTION. -/
def Chip.flowMissOvr (c : Chip) (pg : Nat) (p : Pass) (body : List Byte) : StageEnd :=
  have d := c.excCount p.f.blk 5
  have f := { p.f with bus := busExc p.f.bus 5 }
  match c.excAction pg 5 with
  | (0, _) => .ended (d.refDrop f.gen)
  | (1, k) => .ended (d.slow f k 0x15)
  | _ => have x := applyAction f.bus (beAt body 16 8); .on d x.1 x.2

/-- A flow lookup (R168): from the cache, or the pass waits in its region's miss queue for a fetch. -/
def Chip.flowStage (c : Chip) (pg s : Nat) (p : Pass) (body : List Byte) (bank key : Nat) : StageEnd :=
  have t := word body 4
  have busy := c.pp.miss.any (fun x => decide (x.table = t ∧ x.bank = bank ∧ x.key = key))
  match (if busy then none else c.cacheFind t bank key) with
  | some x => (c.cachePut x).stageTake s p.f.bus body x.action
  | none =>
    if (c.pp.miss.filter (fun x => decide (x.p.f.blk / 8 = p.f.blk / 8))).length ≥ 16384 then c.flowMissOvr pg p body
    else .wait { c with pp.miss := c.pp.miss ++ [{ p := p, stage := s, table := t, bank := bank, key := key, ways := 0 }] }

/-- Stage `s` of a pass whose generation uses `bank`. -/
def Chip.stage (c : Chip) (pg s bank : Nat) (p : Pass) : StageEnd :=
  match c.pp.layouts.find (2 * s + bank) with
  | none => .on c p.f.bus false
  | some body =>
    have gate := half body 2
    if bit gate 15 ∧ busGet p.f.bus (bits gate 0 9) 1 ≠ bitN gate 14 then .on c p.f.bus false
    else
      have key := layoutKey body p.f.bus
      match byteAt body 0 with
      | 1 => c.stageTake s p.f.bus body (c.exactFind bank (word body 4) (word body 8) key)
      | 2 => c.stageTake s p.f.bus body (c.ternFind bank (word body 4) (word body 8) key)
      | 3 => c.stageTake s p.f.bus body (c.rangeFind bank (word body 4) (word body 8) key)
      | 4 => c.flowStage pg s p body bank key
      | _ => .on c p.f.bus false

/-- Stages from `s` on, then the resolution; `n` stages are left. -/
def Chip.runStages (c : Chip) (pg : Nat) (p : Pass) : Nat → Nat → Chip
  | 0, _ => c.resolve pg p
  | n + 1, s =>
    match c.stage pg s (c.genBank p.f.gen s) p with
    | .on d bus true => d.resolve pg { p with f := { p.f with bus := bus } }
    | .on d bus false => d.runStages pg { p with f := { p.f with bus := bus } } n (s + 1)
    | .ended d => d
    | .wait d => d

/-! ## The pass (R153, R155, R177) -/

/-- The bus as a pass begins: the fixed fields, and what an extra pass carries over. -/
def Frame.startBus (f : Frame) : Nat :=
  f.gen * 2 ^ 504 + f.pass * 2 ^ 502 + f.origin * 2 ^ 500 + f.wl * 2 ^ 496 + f.src * 2 ^ 480 + f.len * 2 ^ 466 +
    (if f.entry then 0 else f.bus % 2 ^ 256)

/-- Counters of a pass: first, return from a sample cell, recirculated. -/
def passCtr (f : Frame) : Ctr :=
  if f.entry ∧ f.origin = 2 then C.PKT_BLK_PASS_RETURN else if f.pass = 0 then C.PKT_BLK_PASS_FIRST else C.PKT_BLK_PASS_RECIRC

/-- The frame whose pass begins: the first pass stamps the current generation and takes a reference (R177). -/
def Chip.stampGen (c : Chip) (f : Frame) : Chip × Frame :=
  if f.pass = 0 then (c.refTake (c.rg R.ALM_RULE_GEN_CUR 0), { f with gen := c.rg R.ALM_RULE_GEN_CUR 0 }) else (c, f)

/-- A whole pass of a frame (R153). -/
def Chip.pass (c : Chip) (f0 : Frame) : Chip :=
  have r := c.stampGen f0
  have c := r.1.inc (passCtr f0) f0.blk
  have pg := c.genPg r.2.gen
  have l := r.2.bytes.take 512
  have w := c.parse pg l (r.2.len - 4) r.2.known r.2.startBus
  have bus := busSet w.bus 364 32 (c.hashOf l w.hdrs)
  have f := { r.2 with bus := bus, claim := if r.2.known then 0 else w.claim, grown := 0, entry := false }
  match w.exc with
  | none => c.runStages pg { f := f, hdrs := w.hdrs } 12 0
  | some e =>
    have c := c.excCount f.blk e
    have f := { f with bus := busExc f.bus e }
    match c.excAction pg e with
    | (1, k) => c.slow f k (0x10 + e)
    | (2, _) => c.runStages pg { f := f, hdrs := w.hdrs } 12 0
    | _ => c.refDrop f.gen

/-- Sources of R152: the key of a frame's source in the alternation. -/
def Frame.sourceKey (f : Frame) : Nat := f.origin * 2 ^ 16 + f.src

/-- The pipeline cell that takes a frame: the roles of the block alternate for each source, a recirculated pass stays (R152, R39). -/
def Chip.passRole (c : Chip) (f : Frame) : Option Nat :=
  have r := if f.entry then Tab.get 0 c.st.alt f.sourceKey else f.role
  if c.pipeCell f.blk r ≠ 15 then some r else if c.pipeCell f.blk (1 - r) ≠ 15 then some (1 - r) else none

/-- Take a frame out of the lists of frames that wait for a pass. -/
def Chip.unwait (c : Chip) (f : Frame) : Chip :=
  { c with pp.back := c.pp.back.filter (fun (x : Frame) => decide (x.id ≠ f.id)), pp.waiting := c.pp.waiting.filter (fun (x : Frame) => decide (x.id ≠ f.id)) }

/-- The frame of block `b` whose pass comes next: a return or recirculation before a new arrival (R19, R27). -/
def Chip.nextFrame (c : Chip) (b : Nat) : Option Frame :=
  match c.pp.back.find? (fun f => decide (f.blk = b)) with
  | some f => some f
  | none => c.pp.waiting.find? (fun f => decide (f.blk = b))

/-- Is a pipeline cell QUARANTINED: it holds its role until its spare takes over, and its traffic is dropped (R37)? -/
def Chip.pipeDead (c : Chip) (b r : Nat) : Bool := decide (c.cellRole b (c.pipeCell b r) = 3)

/-- PIPELINE_PASS (R153): the next frame of block `b` takes a pass. A frame that holds a generation no longer live is dropped
(R178). -/
def pipelinePass (b : Nat) (c : Chip) : Chip :=
  if c.blockOk b = false then c
  else match c.nextFrame b with
  | none => c
  | some f =>
    match c.passRole f with
    | none => c
    | some r =>
      have c := c.unwait f
      have c := { c with st.alt := c.st.alt.set f.sourceKey (if f.entry then 1 - r else Tab.get 0 c.st.alt f.sourceKey) }
      if c.pipeDead b r then
        have d := c.cellDrop b (c.pipeCell b r) 1
        if f.pass = 0 then d else d.refDrop f.gen
      else if f.pass ≠ 0 ∧ (c.genSlot f.gen).isNone then c.inc C.PKT_BLK_GEN_EXPIRED b
      else c.pass { f with role := r }

def execPipelinePass (t : Nat) (b : Fin 32) (s : State) : Host.Outcome State Fault Refusal :=
  s.on t (fun _ => pipelinePass b.val)

/-! ## New arrivals -/

/-- A frame enters the pipelines of its block as a new arrival, under a number of its own. -/
def Chip.arrive (c : Chip) (f : Frame) : Chip :=
  { c with pp.nextId := c.pp.nextId + 1, pp.waiting := c.pp.waiting ++ [{ f with id := c.pp.nextId }] }

/-- A frame that a sample cell produced enters ahead of new arrivals (R176). -/
def Chip.arriveBack (c : Chip) (f : Frame) : Chip :=
  { c with pp.nextId := c.pp.nextId + 1, pp.back := c.pp.back ++ [{ f with id := c.pp.nextId }] }

/-! ## The last byte (R474, R187) -/

/-- A frame with its last bytes: its length is known. -/
def Frame.ended (f : Frame) (rest : List Byte) : Frame :=
  have l := f.bytes ++ rest
  { f with bytes := l, len := l.length + 4, known := true, bus := busSet f.bus 466 14 (l.length + 4) }

/-- A local frame whose claimed datagram does not fit raises LENGTH_CONFLICT at its last byte (R474): counted, and the action. The claim
was read before the edits of the pass, so it is held against the length without them. -/
def Chip.lateConflict (c : Chip) (f : Frame) : Option (Nat × Nat) :=
  if f.origin = 0 ∧ (f.claim : Int) > (f.len : Int) - 4 - f.grown then some (c.excAction (c.genPg f.gen) 1) else none

/-- The remainder of the length is charged to the policer (R474). -/
def Chip.policeLate (c : Chip) (f : Frame) : Chip :=
  if f.polCh ≠ 0 ∧ busGet f.bus 323 1 = 1 then c.policeRest (busGet f.bus 324 14) (f.len - f.polCh) else c

/-- A queued frame is replaced by its ended form, with the cells of its length (R187). -/
def Chip.requeue (c : Chip) (x : QFrame) (f : Frame) : Chip :=
  have d := c.policeLate f
  have d := { d with qs.frames := d.qs.frames.map (fun (y : QFrame) => if y.f.id = f.id then { y with f := f, cells := cellsOf f.len } else y) }
  have d := (d.queueStat x.q f.blk).incBy C.SCH_Q_ENQ_BYTES x.q (f.len - x.f.charge)
  if f.origin = 0 then d.pfcUpdate f.src else d

/-- The last byte of a queued frame arrives (R474): the checks that waited for it. -/
def Chip.lastQueued (c : Chip) (x : QFrame) (rest : List Byte) : Chip :=
  have f := x.f.ended rest
  if f.len > c.maxFrame then
    have d := c.inc C.PKT_BLK_OVER_DROP f.blk
    if f.origin = 0 then d.unqueue x else d.requeue x { f with stomp := true }
  else match c.lateConflict f with
  | some (0, _) => (c.excCount f.blk 1).unqueue x
  | some (1, k) => ((c.excCount f.blk 1).unqueue x).slowDeliver { f with bus := busExc f.bus 1 } k 0x11
  | some _ => (c.excCount f.blk 1).requeue x { f with bus := busExc f.bus 1 }
  | none => c.requeue x f

/-- A frame whose outcome waits for its last byte (`h`), or that waits on a fetch (none), gets it: it leaves where it waited, but that a
frame on a fetch that is not dropped or delivered goes on waiting, with what has come (R474). -/
def Chip.lastHeld (c : Chip) (f : Frame) (h : Option Hold) : Chip :=
  have out := { c with pp.held := c.pp.held.filter (fun (x : Frame × Hold) => decide (x.1.id ≠ f.id)), pp.miss := c.pp.miss.filter (fun (x : Miss) => decide (x.p.f.id ≠ f.id)) }
  if f.len > c.maxFrame then out.passDrop f C.PKT_BLK_OVER_DROP
  else
    have act := c.lateConflict f
    have out := if act.isSome then out.excCount f.blk 1 else out
    have g := if act.isSome then { f with bus := busExc f.bus 1 } else f
    match act, h with
    | some (0, _), _ => out.refDrop f.gen
    | some (1, k), _ => (out.slowDeliver g k 0x11).refDrop f.gen
    | _, some (.slow k r) => (out.slowDeliver g k r).refDrop f.gen
    | _, some (.sample s) => out.steerNow g s
    | _, none => { out with pp.miss := c.pp.miss.map (fun (y : Miss) => if y.p.f.id = f.id then { y with p := { y.p with f := g } } else y) }

/-- The last byte of a frame in transmission on a local port (R181, R474): shapers take the rest of its length; the frame leaves,
stomped where it exceeds MAX_FRAME. -/
def Chip.lastTx (c : Chip) (x : TxFrame) (rest : List Byte) : Chip :=
  have f := x.f.ended rest
  have overs := decide (f.len > c.maxFrame)
  have d := if overs then c.inc C.PKT_BLK_OVER_DROP f.blk else c
  have d := d.policeLate f
  have d := (d.chargeRest x.q (f.len - x.charged)).incBy C.SCH_Q_ENQ_BYTES x.q (f.len - x.charged)
  have d := { d with qs.deficit := x.kids.foldl (fun (t : Tab Int) i => t.set i (Tab.get 0 t i - ((f.len - x.charged : Nat) : Int))) d.qs.deficit }
  have d := { d with qs.out := d.qs.out.map (fun (y : QFrame) => if y.f.id = f.id then { y with cells := cellsOf f.len } else y) }
  have bad := overs || f.stomp
  have l := d.secBytes x.port x.sa f.bytes
  have e := max d.now (x.start + d.lanePs x.port ((l.length + 24) * 8))
  have d := { d with qs.tx := d.qs.tx.map (fun (y : TxFrame) => if y.f.id = f.id then { y with f := { f with stomp := bad }, endAt := e, charged := f.len } else y) }
  have d := { (d.lineTake x.port x.start (l.length + 4)) with pt.freeAt := d.pt.freeAt.set x.port e }
  (d.laneOut x.port .portFrame [f.id, b2n bad] (l ++ (if bad then (fcsBytes l).map (fun b => ~~~ b) else fcsBytes l)))

/-- A frame whose last byte did not come in order is removed before it becomes eligible: bad FCS, or MAX_FRAME + 1 bytes from a
local port (R154). -/
def Chip.removeFrame (c : Chip) (id : Nat) : Chip :=
  match c.qs.frames.find? (fun x => decide (x.f.id = id)) with
  | some x => c.unqueue x
  | none =>
    have hold := (c.pp.held.map (·.1)) ++ c.pp.back ++ (c.pp.miss.map (fun x => x.p.f))
    have d := match hold.find? (fun f => decide (f.id = id)) with
      | some f => c.refDrop f.gen
      | none => c
    { d with pp.held := d.pp.held.filter (fun (x : Frame × Hold) => decide (x.1.id ≠ id)), pp.back := d.pp.back.filter (fun (x : Frame) => decide (x.id ≠ id)), pp.waiting := d.pp.waiting.filter (fun (x : Frame) => decide (x.id ≠ id)), pp.miss := d.pp.miss.filter (fun (x : Miss) => decide (x.p.f.id ≠ id)) }

/-- A frame in transmission is withdrawn: it ends stomped (R181). -/
def Chip.stompTx (c : Chip) (x : TxFrame) (rest : List Byte) : Chip :=
  have f := x.f.ended rest
  have d := { c with qs.tx := c.qs.tx.map (fun (y : TxFrame) => if y.f.id = f.id then { y with f := { f with stomp := true }, endAt := c.now, charged := f.len } else y) }
  have l := d.secBytes x.port x.sa f.bytes
  have d := { (d.lineTake x.port x.start (l.length + 4)) with pt.freeAt := d.pt.freeAt.set x.port d.now }
  d.laneOut x.port .portFrame [f.id, 1] (l ++ (fcsBytes l).map (fun b => ~~~ b))

/-- A frame whose last byte has not come, wherever it stands. -/
def Chip.inFlight (c : Chip) (id : Nat) : Option Frame :=
  (c.pp.waiting ++ c.pp.back ++ c.pp.held.map (·.1) ++ c.pp.miss.map (fun x => x.p.f) ++ c.qs.frames.map (·.f) ++ c.qs.tx.map (·.f)).find? (fun f => decide (f.id = id ∧ f.known = false))

/-- The last bytes of frame `id` arrive, wherever it stands. -/
def Chip.lastByte (c : Chip) (id : Nat) (rest : List Byte) : Chip :=
  match c.qs.frames.find? (fun x => decide (x.f.id = id ∧ x.f.known = false)) with
  | some x => c.lastQueued x rest
  | none =>
  match c.qs.tx.find? (fun x => decide (x.f.id = id ∧ x.f.known = false)) with
  | some x => c.lastTx x rest
  | none =>
  match c.pp.held.find? (fun x => decide (x.1.id = id)) with
  | some x => c.lastHeld (x.1.ended rest) (some x.2)
  | none =>
  match c.pp.miss.find? (fun x => decide (x.p.f.id = id ∧ x.p.f.known = false)) with
  | some x => c.lastHeld (x.p.f.ended rest) none
  | none =>
    have up := fun (f : Frame) => if f.id = id ∧ f.known = false then f.ended rest else f
    { c with pp.waiting := c.pp.waiting.map up, pp.back := c.pp.back.map up }

/-- The last bytes of a frame that a local port receives: counted whatever became of the frame (R154, R327). A frame that fills the receive
edge FIFO is discarded (R24). -/
def Chip.rxLast (c : Chip) (r : RxOpen) (rest : List Byte) (fcsOk : Bool) : Chip :=
  have c := { c with pt.rxOpen := c.pt.rxOpen.filter (fun (x : RxOpen) => decide (x.id ≠ r.id)) }
  have n := r.n + rest.length + 4
  if fcsOk = false then (c.inc C.PRT_RX_FCS_ERR r.port).removeFrame r.id
  else
    have c := (c.inc C.PRT_RX_FRAMES r.port).incBy C.PRT_RX_BYTES r.port n
    if c.fifoOver 0 r.port (some r.id) rest.length then ((c.inc C.PRT_EDGE_OVR r.port).errEdge r.port 4).removeFrame r.id
    else if c.maxFrame < n then match c.inFlight r.id with
      | some f => (c.inc C.PKT_BLK_OVER_DROP f.blk).removeFrame r.id
      | none => c
    else c.lastByte r.id rest

/-- FRAME_LAST_BYTE (R154, R474): the rest of frame `id` up to its FCS, and whether its FCS is good. -/
def frameLastByte (id : Nat) (rest : List Byte) (fcsOk : Bool) (c : Chip) : Chip :=
  match c.pt.rxOpen.find? (fun r => decide (r.id = id)) with
  | some r => c.rxLast r rest fcsOk
  | none => if (c.inFlight id).isSome then c.lastByte id rest else c

def execFrameLastByte (t id : Nat) (rest : List Byte) (fcsOk : Bool) (s : State) : Host.Outcome State Fault Refusal :=
  s.on t (fun _ => frameLastByte id rest fcsOk)

/-! ## Flow fetches (R168) -/

/-- A pass that waited goes on with what the fetch found. -/
def Chip.resume (c : Chip) (x : Miss) (r : Option Nat) : Chip :=
  have pg := c.genPg x.p.f.gen
  match c.pp.layouts.find (2 * x.stage + x.bank) with
  | none => c.runStages pg x.p (11 - x.stage) (x.stage + 1)
  | some body =>
    match c.stageTake x.stage x.p.f.bus body r with
    | .on d bus true => d.resolve pg { x.p with f := { x.p.f with bus := bus } }
    | .on d bus false => d.runStages pg { x.p with f := { x.p.f with bus := bus } } (11 - x.stage) (x.stage + 1)
    | .ended d => d
    | .wait d => d

/-- The fetch of the next way of the oldest miss of a key completes. With the entry found, or after four ways, the result enters
the cache and every pass that waits on that key goes on in order. -/
def flowFetchDone (m : Mem) (table bank key : Nat) (c : Chip) : Chip :=
  have mine := c.pp.miss.filter (fun x => decide (x.table = table ∧ x.bank = bank ∧ x.key = key))
  match mine, c.flowBucket table bank key with
  | x :: _, some a =>
    have c := c.inc C.PKT_FLOW_FETCH 0
    have e := m.ddrRead (a + 64 * x.ways) 64
    have hit := decide (flowKey e = key) && bit (flowAction e) 63
    if hit ∨ x.ways ≥ 3 then
      have r := if hit then some (flowAction e) else none
      have c := { c with pp.miss := c.pp.miss.filter (fun (y : Miss) => decide (y.table ≠ table ∨ y.bank ≠ bank ∨ y.key ≠ key)) }
      have c := c.cachePut { table := table, bank := bank, key := key, action := r }
      mine.foldl (fun d y => d.resume y r) c
    else
      { c with pp.miss := c.pp.miss.map (fun (y : Miss) => if y.p.f.id = x.p.f.id then { y with ways := y.ways + 1 } else y) }
  | _, _ => c

def execFlowFetchDone (t : Nat) (table : Fin 8) (bank : Fin 2) (key : Nat) (s : State) :
    Host.Outcome State Fault Refusal := s.on t (fun m => flowFetchDone m table.val bank.val key)

/-! ## Flow commands (R170) -/

/-- The key and the action in PKT_FLOW_DATA. -/
def Chip.flowData (c : Chip) : Nat × Nat :=
  ((List.range 10).foldl (fun k w => k * 2 ^ 32 + c.rg R.PKT_FLOW_DATA_DATA w) 0,
   c.rg R.PKT_FLOW_DATA_DATA 10 * 2 ^ 32 + c.rg R.PKT_FLOW_DATA_DATA 11)

/-- A write of PKT_FLOW_CMD with OP, TABLE and BANK, with GO: the command begins. While one runs it is refused. -/
def flowGo (op table bank : Nat) (c : Chip) : Chip × Nat :=
  if c.rb R.PKT_FLOW_CMD_BUSY 0 then (c, stRefused)
  else
    have c := ((c.wg R.PKT_FLOW_CMD_OP 0 op).wg R.PKT_FLOW_CMD_TABLE 0 table).wg R.PKT_FLOW_CMD_BANK 0 bank
    have k := c.flowData
    ({ c.wg R.PKT_FLOW_CMD_BUSY 0 1 with pp.flow := some { op := op, table := table, bank := bank, key := k.1, action := k.2 } }, stOk)

def execFlowInsert (t : Nat) (table : Fin 8) (bank : Fin 2) (s : State) : Host.Outcome State Fault Refusal :=
  s.on t (fun _ c => c.answeredIn 6 (flowGo 1 table.val bank.val))
def execFlowDelete (t : Nat) (table : Fin 8) (bank : Fin 2) (s : State) : Host.Outcome State Fault Refusal :=
  s.on t (fun _ c => c.answeredIn 6 (flowGo 2 table.val bank.val))
def execFlowLookup (t : Nat) (table : Fin 8) (bank : Fin 2) (s : State) : Host.Outcome State Fault Refusal :=
  s.on t (fun _ c => c.answeredIn 6 (flowGo 3 table.val bank.val))

/-- The way of a bucket that holds a key with VALID, and the lowest way that holds no valid entry. -/
def wayOf (m : Mem) (a key : Nat) : Option Nat :=
  (List.range 4).find? (fun w => decide (flowKey (m.ddrRead (a + 64 * w) 64) = key) && bit (flowAction (m.ddrRead (a + 64 * w) 64)) 63)
def freeWay (m : Mem) (a : Nat) : Option Nat := (List.range 4).find? (fun w => !bit (flowAction (m.ddrRead (a + 64 * w) 64)) 63)

/-- Is the bank of a flow table locked by a READY delta (R68): a stage that uses the table, whose inactive bank it is? -/
def Chip.flowLocked (c : Chip) (table bank : Nat) : Bool :=
  (List.range 12).any (fun s => match c.pp.layouts.find (2 * s + bank) with
    | some b => decide (byteAt b 0 = 4 ∧ word b 4 = table) && c.rb R.PKT_STAGE_STAT_LOCK s && decide (c.rg R.PKT_STAGE_BANK_ACT s ≠ bank)
    | none => false)

/-- RESULT and WAY of a completed flow command (R170, R184). -/
def Chip.flowResult (c : Chip) (r w : Nat) : Chip :=
  ({ (c.wg R.PKT_FLOW_CMD_RESULT 0 r).wg R.PKT_FLOW_CMD_WAY 0 w with pp.flow := none }).wg R.PKT_FLOW_CMD_BUSY 0 0

/-- A fetch of a key that an INSERT has changed begins again, so that it sees the entry as it is after the command (R170). -/
def Chip.fetchAgain (c : Chip) (x : FlowCmd) : Chip :=
  { c with pp.miss := c.pp.miss.map (fun (y : Miss) => if y.table = x.table ∧ y.bank = x.bank ∧ y.key = x.key then { y with ways := 0 } else y) }

/-- FLOW_CMD_DONE (R170): DDR5 and the cache change together. A table with no record, and a locked bank, answer REFUSED. -/
def flowCmdDone (m : Mem) (c : Chip) : Chip :=
  match c.pp.flow with
  | none => c
  | some x =>
    match c.flowBucket x.table x.bank x.key with
    | none => c.flowResult 4 0
    | some a =>
      if c.flowLocked x.table x.bank then c.flowResult 4 0
      else
        have put := fun (w act : Nat) (c : Chip) =>
          (c.fetchAgain x |>.mem (.ddr (a + 64 * w) (beBytes 40 x.key ++ beBytes 8 act ++ zeros 16)))
        match x.op, wayOf m a x.key with
        | 1, some w => ((put w x.action c).cachePut { table := x.table, bank := x.bank, key := x.key, action := if bit x.action 63 then some x.action else none }).flowResult 1 w
        | 1, none =>
          match freeWay m a with
          | some w => ((put w x.action c).cachePut { table := x.table, bank := x.bank, key := x.key, action := if bit x.action 63 then some x.action else none }).flowResult 0 w
          | none => c.flowResult 2 0
        | 2, some w => (({ c with pp.cache := c.pp.cache.filter (fun (y : CacheLine) => decide (y.table ≠ x.table ∨ y.bank ≠ x.bank ∨ y.key ≠ x.key)) }).mem
            (.ddr (a + 64 * w) (zeros 64))).flowResult 0 w
        | 3, some w =>
          have act := flowAction (m.ddrRead (a + 64 * w) 64)
          ((c.wg R.PKT_FLOW_DATA_DATA 10 (act / 2 ^ 32)).wg R.PKT_FLOW_DATA_DATA 11 act).flowResult 0 w
        | _, _ => c.flowResult 3 0

def execFlowCmdDone (t : Nat) (s : State) : Host.Outcome State Fault Refusal := s.on t (fun m => flowCmdDone m)

end Sys2Proof.Machine
end

