-- ==== Sys2Proof/Machine/Sample.lean ====
section
/-! DEFINITION. Sample cells (07_sample_engines.md): operand memory, microwords, lanes, the sequencer, program and coefficient
banks. A cell is named x = 3b + j here. -/

namespace Sys2Proof.Machine

open Sys2Proof

/-! ## A cell, its memories and registers (R214, R216, R241) -/

/-- The cell x. -/
def Chip.cell (c : Chip) (x : Nat) : SmpCell := Tab.get SmpCell.reset c.smp.cells x
def Chip.setCell (c : Chip) (x : Nat) (k : SmpCell) : Chip := { c with smp.cells := c.smp.cells.set x k }

/-- Block and cell number (8 to 10) of cell x. -/
def smpBlk (x : Nat) : Nat := x / 3
def smpNum (x : Nat) : Nat := 8 + x % 3

/-- Does the cell have supply: its domain ON, its island ON (R415)? -/
def Chip.smpPowered (c : Chip) (x : Nat) : Bool :=
  c.domOn (13 + smpBlk x / 8) && decide (c.rg R.PWR_ISL_HOLD_S_STATE (smpBlk x) = 2)

/-- Fields of a program bank (R238), and its NSYM. -/
def SmpCell.count (k : SmpCell) (b : Nat) : Nat := Tab.get 0 k.prog (8 * b)
def SmpCell.start (k : SmpCell) (b : Nat) : Nat := Tab.get 0 k.prog (8 * b + 1)
def SmpCell.csBase (k : SmpCell) (b a : Nat) : Nat := Tab.get 0 k.prog (8 * b + 2 + a)
def SmpCell.csize (k : SmpCell) (b : Nat) : Nat := Tab.get 0 k.prog (8 * b + 4)
def SmpCell.symTo (k : SmpCell) (b : Nat) : Nat := Tab.get 0 k.prog (8 * b + 5)
def SmpCell.nsym (k : SmpCell) (b : Nat) : Nat := Tab.get 0 k.prog (8 * b + 6)

/-- The bank the sequencer runs and the active coefficient bank. -/
def Chip.runBank (c : Chip) (x : Nat) : Nat := c.rg R.SMP_PROG_BANK_RUN x
def Chip.coefAct (c : Chip) (x : Nat) : Nat := c.rg R.SMP_CSET_STAT_ACT x

/-- Window addresses: a row of the operand memory, a microword. -/
def rowAddr (x r : Nat) : Nat := 0x60000000 + 0x80000 * x + 1024 * r
def mwAddr (x bank e : Nat) : Nat := 0x64000000 + 0x10000 * x + 0x8000 * bank + 16 * e

/-- The microword of an entry (R225). -/
def Chip.microword (c : Chip) (x bank e : Nat) : Nat := c.winWords (mwAddr x bank e) 4

/-- A lane mask: mask 0 is all lanes (R214, R222). -/
def Chip.laneMask (c : Chip) (x bank m : Nat) : Nat :=
  if m = 0 then 2 ^ 128 - 1
  else (List.range 4).foldl (fun v w => v + c.rg R.SMP_LMASK_LANES (256 * x + 64 * bank + 4 * m + w) * 2 ^ (32 * w)) 0

/-- Fields of a block exponent register. -/
def bexpFld (act : Bool) (k : Nat) : Fld :=
  match act, k % 4 with
  | true, 0 => R.SMP_CSET_ACT_BEXP_BEXP0
  | true, 1 => R.SMP_CSET_ACT_BEXP_BEXP1
  | true, 2 => R.SMP_CSET_ACT_BEXP_BEXP2
  | true, _ => R.SMP_CSET_ACT_BEXP_BEXP3
  | false, 0 => R.SMP_CSET_BEXP_BEXP0
  | false, 1 => R.SMP_CSET_BEXP_BEXP1
  | false, 2 => R.SMP_CSET_BEXP_BEXP2
  | false, _ => R.SMP_CSET_BEXP_BEXP3
def Chip.bexp (c : Chip) (x : Nat) (act : Bool) (k : Nat) : Nat := c.rg (bexpFld act k) (256 * x + k / 4)
def Chip.setBexp (c : Chip) (x : Nat) (act : Bool) (k v : Nat) : Chip := c.wg (bexpFld act k) (256 * x + k / 4) v

/-- The 20-bit pattern of a part sign-extended to a word (R216). -/
def partWord (v : Int) : Nat := unsgn 32 (sgn 20 (unsgn 20 v))

/-- A row of the operand memory. -/
def Chip.readRow (c : Chip) (x r : Nat) : List (Int × Int) :=
  (List.range 128).map (fun l => (sgn 20 (c.winGet (rowAddr x r + 8 * l)), sgn 20 (c.winGet (rowAddr x r + 8 * l + 4))))

/-- Write the lanes of a mask into a row. -/
def Chip.writeRow (c : Chip) (x r mask : Nat) (v : List (Int × Int)) : Chip :=
  forN 128 (fun l d =>
    if bit mask l then
      have y := v.getD l (0, 0)
      (d.winSet (rowAddr x r + 8 * l) (partWord y.1)).winSet (rowAddr x r + 8 * l + 4) (partWord y.2)
    else d) c

/-- A row of zero lane words. -/
def zeroRow : List (Int × Int) := List.replicate 128 (0, 0)

/-! ## Fields of a microword (R225) -/

def mwOpc (w : Nat) : Nat := bits w 124 4
def mwAcc (w : Nat) : Nat := bits w 122 2
def mwAccStep (w : Nat) : Bool := bit w 121
def mwClr (w : Nat) : Bool := bit w 120
def mwEos (w : Nat) : Bool := bit w 119
def mwHop (w : Nat) : Bool := bit w 118
def mwBlk (w : Nat) : Bool := bit w 117
def mwRep (w : Nat) : Nat := bits w 43 16
def mwMask (w : Nat) : Nat := bits w 39 4
def mwScale (w : Nat) : Nat := bits w 37 2
def mwShift (w : Nat) : Nat := bits w 31 6
def mwStream (w : Nat) : Nat := bits w 25 6

/-- An operand of a repetition (R218). -/
inductive Opd where
  | row (r : Nat)
  | spec (k : Nat)
  | none
deriving DecidableEq, Repr

/-- The operand that MODE, ADDR and STEP name in repetition `i`. -/
def SmpCell.operand (k : SmpCell) (bank coef mode addr : Nat) (step : Int) (i : Nat) : Opd :=
  have a : Int := (addr : Int) + (i : Int) * step
  match mode with
  | 0 => .row (a % 512).toNat
  | 1 => .row (k.csBase bank coef + (if k.csize bank = 0 then 0 else (a % (k.csize bank : Int)).toNat))
  | 2 => .spec addr
  | _ => .none
def SmpCell.opA (k : SmpCell) (bank coef w i : Nat) : Opd := k.operand bank coef (bits w 114 2) (bits w 105 9) (sgn 8 (bits w 97 8)) i
def SmpCell.opB (k : SmpCell) (bank coef w i : Nat) : Opd := k.operand bank coef (bits w 95 2) (bits w 86 9) (sgn 8 (bits w 78 8)) i
def SmpCell.opD (k : SmpCell) (bank coef w i : Nat) : Opd := k.operand bank coef (bits w 76 2) (bits w 67 9) (sgn 8 (bits w 59 8)) i

/-- Rows that a repetition reads and writes: its access slots (R217). -/
def rowOf (o : Opd) : List Nat := match o with
  | .row r => [r]
  | _ => []

/-- The first accumulator of repetition `i` (R220). -/
def accOf (w i : Nat) : Nat :=
  if mwAccStep w then (if mwOpc w = 4 then (mwAcc w + 2 * i) % 4 else (mwAcc w + i) % 4) else mwAcc w

/-- Is repetition `i` the first that writes its accumulators (R220)? -/
def firstWrite (w i : Nat) : Bool :=
  if mwAccStep w then (if mwOpc w = 4 then decide (i < 2) else decide (i < 4)) else decide (i = 0)

/-- Accumulators that a repetition writes. -/
def accWrites (w i : Nat) : List Nat :=
  match mwOpc w with
  | 0 => []
  | 4 => [accOf w i, (accOf w i + 1) % 4]
  | 6 => if mwClr w then [accOf w i] else []
  | 7 => []
  | _ => [accOf w i]

/-! ## Legal microwords (R221, R226) -/

/-- May a microword stand in a program, apart from EOS and its place? -/
def mwLegal (w : Nat) : Bool :=
  have opc := mwOpc w
  have am := bits w 114 2
  have bm := bits w 95 2
  have dm := bits w 76 2
  have aa := bits w 105 9
  have ba := bits w 86 9
  have da := bits w 67 9
  have out := decide (dm = 2 ∧ da = 4)
  have src := fun (m a st : Nat) (inOk : Bool) => decide (m = 0 ∨ m = 1) || (decide (m = 2 ∧ st = 0) && (decide (a = 2 ∨ a = 3) || (inOk && decide (a = 0 ∨ a = 1))))
  have none := fun (m : Nat) => decide (m = 3)
  have aok := src am aa (bits w 97 8) true
  have bok := src bm ba (bits w 78 8) false
  have dok := decide (dm = 0) || (out && decide (bits w 59 8 = 0))
  decide (bits w 116 1 = 0 ∧ bits w 0 25 = 0 ∧ mwRep w ≠ 0 ∧ mwScale w ≠ 3) &&
  (match opc with
  | 0 => none am && none bm && none dm
  | 1 => aok && bok && none dm
  | 2 => aok && bok && none dm
  | 3 => aok && bok && none dm
  | 4 => aok && bok && none dm && decide (mwAcc w % 2 = 0)
  | 5 => aok && none bm && none dm
  | 6 => none am && none bm && dok
  | 7 => aok && none bm && dok
  | _ => false) &&
  (match mwScale w with
  | 0 => decide (mwShift w ≤ 32)
  | 1 => decide (mwShift w < 16)
  | _ => out) &&
  (!mwBlk w || out)

/-! ## Steps of a symbol (R230, R236) -/

/-- The interlock of a repetition: steps it must still wait at step `s`, from the steps that last wrote accumulators and rows. -/
def waitFor (accW rowW : Tab Nat) (s : Nat) (accs rows : List Nat) : Nat :=
  max ((accs.map (fun n => match accW.find n with
      | some t => t + 4 - s
      | none => 0)).foldl max 0)
    ((rows.map (fun r => match rowW.find r with
      | some t => t + 2 - s
      | none => 0)).foldl max 0)

/-- Accumulators that a repetition reads by MOV, rows it reads. -/
def accReads (w i : Nat) : List Nat := if mwOpc w = 6 then [accOf w i] else []

/-- One repetition in the count of NSYM: step reached, last writes. -/
def SmpCell.count1 (k : SmpCell) (bank w : Nat) (i : Nat) (z : Nat × Tab Nat × Tab Nat) : Nat × Tab Nat × Tab Nat :=
  have s := z.1 + waitFor z.2.1 z.2.2 z.1 (accReads w i) (rowOf (k.opA bank 0 w i) ++ rowOf (k.opB bank 0 w i))
  (s + 1, (accWrites w i).foldl (fun t n => t.set n s) z.2.1, (rowOf (k.opD bank 0 w i)).foldl (fun t r => t.set r s) z.2.2)

/-- NSYM of a program (R236): the steps of a symbol that follows another. -/
def SmpCell.nsymOf (k : SmpCell) (bank : Nat) (ws : List Nat) : Nat :=
  have body := ws.drop (k.start bank)
  have run := fun (z : Nat × Tab Nat × Tab Nat) => body.foldl (fun z w => forN (mwRep w) (fun i z => k.count1 bank w i z) z) z
  have one := run (0, [], [])
  (run one).1 - one.1

/-! ## Program banks (R227, R232) -/

/-- Does the cell run when its bank takes effect: ENABLE, and a program in the bank? -/
def Chip.smpRuns (c : Chip) (x : Nat) : Bool :=
  c.rb R.SMP_CELL_CFG_ENABLE x && decide ((c.cell x).count (c.rg R.SMP_PROG_BANK_ACT x) ≠ 0)

/-- The state that SMP_CELL_STAT shows: a spare that shadows reads SHADOW. -/
def Chip.smpState (c : Chip) (x st : Nat) : Chip :=
  c.wg R.SMP_CELL_STAT_STATE x (if c.cellRole (smpBlk x) (smpNum x) = 2 ∧ st ≠ 0 then 6 else st)

/-- The bank in ACT takes effect, or ENABLE does (R227, R232): the sequencer starts at entry 0, or stands IDLE. `took`: the bank takes
effect though it already was the one in RUN, as with a full Almanac (R239, R241). -/
def Chip.smpStart (c : Chip) (x : Nat) (took : Bool) : Chip :=
  have b := c.rg R.SMP_PROG_BANK_ACT x
  have flip := took || decide (b ≠ c.runBank x)
  have k := c.cell x
  have on := c.smpRuns x
  have c := (c.wg R.SMP_PROG_BANK_RUN x b).wg R.SMP_PROG_BANK_PEND x 0
  have c := (c.wg R.SMP_PROG_INFO_COUNT x (k.count b)).wg R.SMP_PROG_INFO_START x (k.start b)
  have c := c.wg R.SMP_CELL_NSYM_NSYM x (k.nsym b)
  have c := if flip ∧ k.symTo b ≠ 0 then c.wg R.SMP_CELL_CFG_SYM_TO x (k.symTo b) else c
  have c := if flip then c.wg R.SMP_CELL_EVT_FLIP x 1 else c
  have c := (c.wg R.SMP_CELL_STAT_ENTRY x 0).wg R.SMP_CELL_STAT_BAD x 0
  have c := c.setCell x { k with on := on, entry := 0, rep := 0, boundary := true, firstPop := true, zeroing := false, bad := false, popAt := none, sym := none, cmpOn := false }
  c.smpState x (if on then 2 else 0)

/-- ACT or ENABLE may have changed: at a symbol boundary the change takes effect at once, otherwise at the next wrap (R232). -/
def Chip.smpChange (c : Chip) (x : Nat) : Chip :=
  have k := c.cell x
  have same := decide (c.rg R.SMP_PROG_BANK_ACT x = c.runBank x)
  if same ∧ k.on = c.smpRuns x then c.wg R.SMP_PROG_BANK_PEND x 0
  else if k.on = false ∨ k.boundary then c.smpStart x false
  else c.wb R.SMP_PROG_BANK_PEND x (!same)

/-- SMP_ENABLE (R232): a write of SMP_CELL_CFG, ignored where SYM_TO is out of range (log entry 22). -/
def smpEnable (x v : Nat) (c : Chip) : Chip :=
  have tmo := bits v 16 10
  if tmo = 0 ∨ tmo > 1000 then c
  else (((c.wg R.SMP_CELL_CFG_ENABLE x (bits v 0 1)).wg R.SMP_CELL_CFG_EVT_EN x (bits v 1 1)).wg R.SMP_CELL_CFG_SYM_TO x tmo).smpChange x

def execSmpEnable (t : Nat) (x : Fin 96) (v : Nat) (s : State) : Host.Outcome State Fault Refusal := s.on t (fun _ c => c.answeredIn (13 + x.val / 24) (fun c => (smpEnable x.val v c, stOk)))

/-! ## Coefficient sets (R234, R257 to R259) -/

/-- The spare sample cell of a block. -/
def Chip.spareSmp (c : Chip) (b : Nat) : Option Nat := ([8, 9, 10].find? (fun k => decide (c.cellRole b k = 1 ∨ c.cellRole b k = 2))).map (fun k => 3 * b + (k - 8))

/-- The paths of cell x. -/
def Chip.path (c : Chip) (x : Nat) : FhCell := Tab.get FhCell.reset c.fh.cells x
def Chip.setPath (c : Chip) (x : Nat) (f : FhCell) : Chip := { c with fh.cells := c.fh.cells.set x f }

/-- The lanes of a coefficient row as ROW_DATA carries them (R257). -/
def rowData (b : List Byte) : List (Int × Int) :=
  (List.range 128).map (fun l => (sgn 20 (wireBits b (40 * l) 20), sgn 20 (wireBits b (40 * l + 20) 20)))

/-- Is the window of a HOP point of the cell open: its entry has begun and not completed (R259)? -/
def Chip.hopOpen (c : Chip) (x : Nat) : Bool :=
  have k := c.cell x
  k.on && decide (k.rep ≠ 0) && mwHop (c.microword x (c.runBank x) k.entry)

/-- The cells that the coefficient path of cell x writes: the one that serves x, and the spare of its block (R235, R258). -/
def Chip.coefCells (c : Chip) (x : Nat) : List Nat :=
  have y := c.smpServe x
  (if y = 255 then [] else [y]) ++ (match c.spareSmp (smpBlk x) with
    | some s => if s = y then [] else [s]
    | none => [])

/-- Are writes of the path of cell x held: a cell it writes re-seeds, or the window of a HOP point is open there (R81, R234, R259)? -/
def Chip.coefClosed (c : Chip) (x : Nat) : Bool := (c.coefCells x).any (fun y => c.rb R.SMP_CSET_STAT_RESEED y || c.hopOpen y)

/-- Coefficient rows written to the shadow bank of every cell of the path of x (R235, R257). -/
def Chip.coefPut (c : Chip) (x : Nat) (rows : List (Nat × List Byte)) : Chip :=
  (c.coefCells x).foldl (fun d y =>
    (rows.foldl (fun e r => e.writeRow y ((e.cell y).csBase (e.runBank y) (1 - e.coefAct y) + r.1) (2 ^ 128 - 1) (rowData r.2)) d).wg
      R.SMP_CSET_EPOCH_WRITE_EPOCH y (d.rg R.SMP_SYM_CNT_CNT y + 1)) c

/-- Has a HOP point of reach `r` reached APPLY_SYM `t` (R259)? Comparisons are modulo 65,536. -/
def symReached (r t : Nat) : Bool := decide ((r + 65536 - t % 65536) % 65536 ≤ 32767)

/-- Is a set that is armed now late: its target's window has opened, or its symbol lies more than 32,767 ahead of the one in progress
(R259)? -/
def Chip.setLate (c : Chip) (x t : Nat) : Bool :=
  have k := c.cell x
  (match k.reach with
  | some r => symReached r t
  | none => false) ||
  (match (match k.sym with
    | some s => some s.1
    | none => k.past) with
  | some s => decide ((t + 65536 - s % 65536) % 65536 > 32767)
  | none => false)

/-- Has every row of a set been received (R258)? -/
def CoefSet.complete (p : CoefSet) : Bool := (List.range p.total).all (fun j => p.rows.contains j)

/-- A set whose every row has come and stands in the shadow banks is armed, BEXP with it (R258). -/
def Chip.coefArm (c : Chip) (x : Nat) : Chip :=
  have f := c.path x
  match f.pend with
  | some p =>
    if c.rg R.SMP_COEF_STAT_STATE x = 2 ∧ f.await = [] ∧ p.complete then
      have bx := fun (y : Nat) (c : Chip) => if bit p.flags 0 then forN 16 (fun k d => d.setBexp y false k (p.bexp.getD k 0)) c else c
      have late := c.setLate (c.smpServe x) p.apply
      have q : CoefSet := { p with late := late }
      have c := (c.coefCells x).foldl (fun d y => (bx y d).wg R.SMP_CSET_CTRL_ARM y 1) c
      (c.wg R.SMP_COEF_STAT_STATE x (if late then 4 else 3)).setPath x { f with pend := some q, spSet := some q }
    else c
  | none => c

/-- Nothing holds the writes of the path of cell x any more: the rows that waited are written, and the set goes on (R258, R259). -/
def Chip.pathLand (c : Chip) (x : Nat) : Chip :=
  have f := c.path x
  have st := c.rg R.SMP_COEF_STAT_STATE x
  if c.coefClosed x ∨ (st ≠ 1 ∧ st ≠ 2) then c
  else if f.pend.isSome then (((c.coefPut x f.await).setPath x { f with await := [] }).wg R.SMP_COEF_STAT_STATE x 2).coefArm x
  else c.wg R.SMP_COEF_STAT_STATE x 0

/-- The same for every path of a block, whose writes reach the cell and the spare. -/
def Chip.blockLand (c : Chip) (b : Nat) : Chip := forN 3 (fun j d => d.pathLand (3 * b + j)) c

/-- Re-seeding has ended. -/
def Chip.reseedDone (c : Chip) (x : Nat) : Chip :=
  have c := c.wg R.SMP_CSET_STAT_RESEED x 0
  (c.setCell x { c.cell x with reseed := 0, reseedWait := 0 }).blockLand (smpBlk x)

/-! ## Coefficient hand-over and re-seeding (R234, R259) -/

/-- A set hands over: the banks exchange roles, the shadow BEXP registers become active, ARM clears, re-seeding starts. -/
def Chip.coefHandover (c : Chip) (x : Nat) : Chip :=
  have c := c.wg R.SMP_CSET_STAT_ACT x (1 - c.coefAct x)
  have c := forN 16 (fun k d => d.setBexp x true k (d.bexp x false k)) c
  have c := (c.wg R.SMP_CSET_CTRL_ARM x 0).wg R.SMP_CSET_STAT_RESEED x 1
  have c := c.wg R.SMP_CSET_EPOCH_LAST_EPOCH x (c.rg R.SMP_SYM_CNT_CNT x)
  have c := c.wg R.SMP_CELL_EVT_HANDOVER x 1
  c.setCell x { c.cell x with reseed := 0, reseedWait := 0, due := false }

/-- Re-seeding is given `n` access slots: a row takes a read slot and a write slot. When every row is copied RESEED ends. -/
def Chip.reseedSlots (c : Chip) (x n : Nat) : Chip :=
  if c.rb R.SMP_CSET_STAT_RESEED x = false then c
  else
    have k := c.cell x
    have b := c.runBank x
    have a := c.coefAct x
    have done := k.reseed / 2
    have now := min ((k.reseed + n) / 2) (k.csize b)
    have c := forN (now - done) (fun i d => d.writeRow x (k.csBase b (1 - a) + done + i) (2 ^ 128 - 1) (d.readRow x (k.csBase b a + done + i))) c
    if now ≥ k.csize b then c.reseedDone x
    else c.setCell x { k with reseed := k.reseed + n, reseedWait := if n = 0 then k.reseedWait + 1 else 0 }

/-- The cell re-seeds because a set was given up (R258): the shadow copy returns to the active one. -/
def Chip.reseedStart (c : Chip) (x : Nat) : Chip :=
  have c := c.wg R.SMP_CSET_STAT_RESEED x 1
  (forN 16 (fun k d => d.setBexp x false k (d.bexp x true k)) c).setCell x { c.cell x with reseed := 0, reseedWait := 0 }

/-- The path that cell y serves. -/
def Chip.served (c : Chip) (y : Nat) : Option Nat := ((List.range 3).map (fun j => 3 * smpBlk y + j)).find? (fun x => decide (c.smpServe x = y))

/-- The set of the head end that is armed in cell y: that of the path it serves, or what the spare holds of a path of its block. -/
def Chip.armedSet (c : Chip) (y : Nat) : Option CoefSet := match c.served y with
  | some x => (c.path x).pend
  | none => ((List.range 3).map (fun j => 3 * smpBlk y + j)).findSome? (fun x => (c.path x).spSet)

/-- Is the set that is armed due at a HOP point (R259)? Host sets are due at any, a late set too, and another from its target on. -/
def Chip.setDue (c : Chip) (x : Nat) (reach : Option Nat) : Bool :=
  c.rb R.SMP_CSET_CTRL_ARM x && (match c.armedSet x with
    | some p => p.late || (match reach with
      | some r => symReached r p.apply
      | none => false)
    | none => true)

/-- A coefficient set has handed over in cell y: counted where y serves a path, LAST_SEQ (R258, R259, R262). -/
def Chip.setApplied (c : Chip) (y : Nat) : Chip := match c.served y with
  | some x =>
    have f := c.path x
    (match f.pend with
    | some p =>
      have c := if p.late then (c.inc C.SMP_PATH_SETS_LATE x).wg R.SMP_PATH_EVT_LATE x 1 else c.inc C.SMP_PATH_SETS_APPLIED x
      ((c.wg R.SMP_COEF_SEQ_LAST_SEQ x p.seq).wg R.SMP_COEF_STAT_STATE x 1).setPath x { f with pend := none, any := true }
    | none => c)
  | none => forN 3 (fun j d => d.setPath (3 * smpBlk y + j) { d.path (3 * smpBlk y + j) with spSet := none }) c

/-! ## Pops (R219, R229, R231) -/

/-- What a pop answers: a row (with the cell after it), or a hold. -/
inductive PopEnd where
  | got (c : Chip) (row : List (Int × Int))
  | hold (c : Chip) (st : Nat)

/-- The rest of the symbol is zero-filled and flagged (R231). -/
def Chip.zeroFill (c : Chip) (x : Nat) : Chip :=
  ((c.setCell x { c.cell x with zeroing := true, bad := true }).wg R.SMP_CELL_EVT_MISSING x 1).wg R.SMP_CELL_STAT_BAD x 1

/-- A zero-filled pop. -/
def Chip.zeroPop (c : Chip) (x : Nat) : PopEnd :=
  .got ((c.inc C.SMP_MISSING_ROWS x).setCell x { c.cell x with latch := zeroRow }) zeroRow

/-- A pop of cell x. -/
def Chip.pop (c : Chip) (x : Nat) : PopEnd :=
  have k := c.cell x
  if k.zeroing then c.zeroPop x
  else if k.firstPop then
    have bad := k.arr.takeWhile (fun r => !r.sos)
    have c := if bad.isEmpty then c else (c.incBy C.SMP_SLIP x bad.length).wg R.SMP_CELL_EVT_SLIP x 1
    match k.arr.dropWhile (fun r => !r.sos) with
    | r :: rest => .got (c.setCell x { k with arr := rest, latch := r.lanes, firstPop := false, popAt := some c.now, sym := some (r.sym, r.part), cmpOn := r.both }) r.lanes
    | [] => .hold (c.setCell x { k with arr := [] }) 1
  else match k.arr with
    | r :: rest =>
      if r.sos then (c.zeroFill x).zeroPop x
      else .got (c.setCell x { k with arr := rest, latch := r.lanes }) r.lanes
    | [] => if k.skipping then (c.zeroFill x).zeroPop x else .hold c 3

/-! ## Lanes (R220 to R224) -/

/-- An accumulator part, and whether it left its range (R215). -/
def accPart (v : Int) : Int × Bool := (satInt 52 v, decide (satInt 52 v ≠ v))

/-- Add a pair to accumulator n of lane ℓ, or replace it; the flag tells a saturation. -/
def accAdd (t : Tab (Int × Int)) (n l : Nat) (clr : Bool) (d : Int × Int) : Tab (Int × Int) × Bool :=
  have o := if clr then (0, 0) else Tab.get (0, 0) t (128 * n + l)
  have i := accPart (o.1 + d.1)
  have q := accPart (o.2 + d.2)
  (t.set (128 * n + l) (i.1, q.1), i.2 || q.2)

/-- What an opcode class adds in one lane: pairs for accumulator n and, for RMAC4, n + 1 (R221). -/
def laneOp (opc : Nat) (a b : Int × Int) : List (Int × Int) :=
  match opc with
  | 1 => [(a.1 * b.1 - a.2 * b.2, a.1 * b.2 + a.2 * b.1)]
  | 2 => [(a.1 * b.1 + a.2 * b.2, a.2 * b.1 - a.1 * b.2)]
  | 3 => [(a.1 * b.1, a.2 * b.2)]
  | 4 => [(a.1 * b.1, a.1 * b.2), (a.2 * b.1, a.2 * b.2)]
  | 5 => [(a.1 * 524288, a.2 * 524288)]
  | _ => []

/-- A multiply-accumulate repetition over the lanes of a mask: accumulators after it, and whether any saturated. -/
def macStep (w i mask : Nat) (va vb : List (Int × Int)) (t : Tab (Int × Int)) : Tab (Int × Int) × Bool :=
  have n := accOf w i
  have clr := mwClr w && firstWrite w i
  forN 128 (fun l z =>
    if bit mask l then
      have ds := laneOp (mwOpc w) (va.getD l (0, 0)) (vb.getD l (0, 0))
      forN ds.length (fun j z =>
        have r := accAdd z.1 ((n + j) % 4) l clr (ds.getD j (0, 0))
        (r.1, z.2 || r.2)) z
    else z) (t, false)

/-- A part shifted with rounding half toward plus infinity (R223). -/
def rshift (v : Int) (s : Nat) : Int := if s = 0 then v else (v + (2 ^ (s - 1) : Nat)) / (2 ^ s : Nat)

/-- A part out of a move, and whether it saturated (R223). -/
def movePart (v : Int) (s : Nat) : Int × Bool := (satInt 20 (rshift v s), decide (satInt 20 (rshift v s) ≠ rshift v s))

/-- The lanes of accumulator n. -/
def accLanes (t : Tab (Int × Int)) (n : Nat) : List (Int × Int) := (List.range 128).map (fun l => Tab.get (0, 0) t (128 * n + l))

/-- How many lanes of a mask saturate at shift `s`. -/
def satLanes (v : List (Int × Int)) (mask s : Nat) : Nat :=
  ((List.range 128).filter (fun l => bit mask l && ((movePart (v.getD l (0, 0)).1 s).2 || (movePart (v.getD l (0, 0)).2 s).2))).length

/-- The shift of a move (R223). -/
def Chip.moveShift (c : Chip) (x w mask : Nat) (v : List (Int × Int)) : Nat :=
  match mwScale w with
  | 0 => mwShift w
  | 1 => c.bexp x true (mwShift w)
  | _ => ((List.range 33).find? (fun s => decide (satLanes v mask s = 0))).getD 32

/-- A departure row is appended (R224); a row of a shadow, and of the cell it shadows, waits for its comparison (R240). -/
def Chip.depart (c : Chip) (x : Nat) (r : DRow) : Chip :=
  have k := c.cell x
  have cmp := if k.cmpOn then k.cmp ++ [r] else k.cmp
  if c.cellRole (smpBlk x) (smpNum x) = 2 then c.setCell x { k with cmp := cmp }
  else (c.inc C.SMP_ROWS_OUT x).setCell x { k with dep := k.dep ++ [r], cmp := cmp }

/-- Write the result of a MOV or COPY to its destination: the lanes of the mask of a row of memory, the whole row of OUT (R222, R224). -/
def Chip.deliver (c : Chip) (x w mask : Nat) (d : Opd) (v : List (Int × Int)) (exp : Nat) : Chip :=
  match d with
  | .row r => c.writeRow x r mask v
  | .spec _ =>
    have k := c.cell x
    have sy := k.sym.getD (0, false)
    c.depart x { lanes := (List.range 128).map (fun l => v.getD l (0, 0)), mask := mask, stream := mwStream w, exp := exp, blk := mwBlk w, bad := k.bad, sym := sy.1, part := sy.2 }
  | .none => c

/-- The datapath of repetition `i`: operands `va`, `vb` read, effect on accumulators, memory or departure. -/
def Chip.datapath (c : Chip) (x w i : Nat) (va vb : List (Int × Int)) : Chip :=
  have b := c.runBank x
  have k := c.cell x
  have mask := c.laneMask x b (mwMask w)
  have d := k.opD b (c.coefAct x) w i
  match mwOpc w with
  | 0 => c
  | 6 =>
    have n := accOf w i
    have v := accLanes k.acc n
    have s := c.moveShift x w mask v
    have sat := satLanes v mask s
    have c := if sat = 0 then c else (c.incBy C.SMP_SAT_LANES x sat).wg R.SMP_CELL_EVT_SAT x 1
    have c := c.deliver x w mask d (v.map (fun y => ((movePart y.1 s).1, (movePart y.2 s).1))) s
    if mwClr w then
      c.setCell x { c.cell x with acc := forN 128 (fun l (t : Tab (Int × Int)) => if bit mask l then t.set (128 * n + l) (0, 0) else t) (c.cell x).acc }
    else c
  | 7 => c.deliver x w mask d va (mwShift w)
  | _ =>
    have r := macStep w i mask va vb k.acc
    have c := c.setCell x { k with acc := r.1 }
    if r.2 then (c.inc C.SMP_ACC_SAT x).wg R.SMP_CELL_EVT_ACC_SAT x 1 else c

/-! ## The sequencer (R227 to R233) -/

/-- The active cell that a block's spare shadows by its policy (R240, SHADOW_SEL of R433): the lower letter by default, the higher, or
the one with the higher VAL. -/
def Chip.shadowSel (c : Chip) (b : Nat) : Option Nat :=
  have act := [8, 9, 10].filter (fun k => decide (c.cellRole b k = 0))
  have val := fun (k : Nat) => c.rg R.HLT_WEAR_VAL_VALUE (wearCell b k)
  match (c.obj 0x0801 2).map (fun l => byteAt l 2) with
  | some 1 => act.getLast?
  | some 2 => match act with
    | [x, y] => some (if val x < val y then y else x)
    | _ => act.head?
  | _ => act.head?

/-- The spare cell of a block that shadows, and the cell it shadows: the one it takes over from, that of the swap in progress, else
the one of its policy (R240). -/
def Chip.shadowPair (c : Chip) (b : Nat) : Option (Nat × Nat) :=
  match [8, 9, 10].find? (fun k => decide (c.cellRole b k = 2)), c.shadowSel b with
  | some sp, some a =>
    have u := match c.st.takeovers.find? (fun x => decide (x.blk = b ∧ x.spare = sp)) with
      | some x => x.cell
      | none => if c.pw.swapKind = 2 ∧ c.rg R.HLT_SWAP_STAT_STATE 0 ≠ 0 ∧ c.pw.swapUnit / 11 = b ∧ c.pw.swapSpare = 11 * b + sp then c.pw.swapUnit % 11 else a
    some (3 * b + (sp - 8), 3 * b + (u - 8))
  | _, _ => none

/-- Departure rows of an active cell and of its shadow are compared in order; each that differs counts (R240). -/
def Chip.compareRows (c : Chip) (b : Nat) : Chip :=
  match c.shadowPair b with
  | some (sp, a) =>
    match (c.cell sp).cmp, (c.cell a).cmp with
    | r :: rs, q :: qs =>
      have c := (c.setCell sp { c.cell sp with cmp := rs }).setCell a { c.cell a with cmp := qs }
      if r = q then c else (c.inc C.SMP_SHADOW_MISMATCH sp).wg R.SMP_CELL_EVT_MISMATCH sp 1
    | _, _ => c
  | none => c

/-- Hold the sequencer in a state without a step. -/
def Chip.smpHold (c : Chip) (x st : Nat) : Chip := (c.reseedSlots x 2).smpState x st

/-- A step in which the entry does not advance. -/
def Chip.smpLost (c : Chip) (x st : Nat) : Chip :=
  (c.setCell x { c.cell x with steps := (c.cell x).steps + 1 }).smpState x st

/-- The EOS entry has completed (R227, R232, R233): the symbol is counted, the sequencer wraps, a pending bank or ENABLE takes
effect. -/
def Chip.smpWrap (c : Chip) (x : Nat) : Chip :=
  have k := c.cell x
  have c := c.setCell x { k with entry := k.start (c.runBank x), rep := 0, boundary := true, firstPop := true, zeroing := false, bad := false, popAt := none, sym := none, cmpOn := false, past := match k.sym with
    | some y => some ((y.1 + 1) % 65536)
    | none => k.past }
  have c := (c.wg R.SMP_CELL_STAT_ENTRY x (k.start (c.runBank x))).wg R.SMP_CELL_STAT_BAD x 0
  c.smpChange x

/-- An entry has completed: a hand-over that is due is made after a HOP entry, then the next entry or the wrap; what the window held
lands (R81, R259). -/
def Chip.smpNext (c : Chip) (x w : Nat) : Chip :=
  have c := if mwEos w then (c.wg R.SMP_SYM_CNT_CNT x (c.rg R.SMP_SYM_CNT_CNT x + 1)).inc C.SMP_SYMBOLS x else c
  have c := if mwHop w ∧ (c.cell x).due then
      if c.rb R.SMP_CSET_STAT_RESEED x then c.setCell x { c.cell x with due := false } else (c.coefHandover x).setApplied x
    else c
  have c := if mwEos w then c.smpWrap x
    else
      have k := c.cell x
      (c.setCell x { k with entry := k.entry + 1, rep := 0, boundary := false }).wg R.SMP_CELL_STAT_ENTRY x (k.entry + 1)
  if mwHop w then c.blockLand (smpBlk x) else c

/-- The window of a HOP point opens as the first repetition of its entry begins (R259). -/
def Chip.hopWindow (c : Chip) (x w : Nat) : Chip :=
  have k := c.cell x
  have reach := match k.sym with
    | some y => some (if mwEos w then (y.1 + 1) % 65536 else y.1)
    | none => k.past
  c.setCell x { k with due := c.setDue x reach, reach := if reach.isSome then reach else k.reach }

/-- The repetition runs: operands are read (a pop is made), the datapath acts, the step is counted; slots left free go to
re-seeding. -/
def Chip.smpRun (c : Chip) (x w i : Nat) (popped : Option (List (Int × Int))) : Chip :=
  have b := c.runBank x
  have k := c.cell x
  have a := k.opA b (c.coefAct x) w i
  have bo := k.opB b (c.coefAct x) w i
  have d := k.opD b (c.coefAct x) w i
  have val := fun (o : Opd) => match o with
    | .row r => c.readRow x r
    | .spec 3 => zeroRow
    | .spec _ => popped.getD k.latch
    | .none => zeroRow
  have used := (rowOf a ++ rowOf bo ++ rowOf d).length
  have c := if i = 0 ∧ mwHop w then c.hopWindow x w else c
  have c := c.datapath x w i (val a) (val bo)
  have k := c.cell x
  have s := k.steps
  have c := c.setCell x { k with steps := s + 1, boundary := false, rep := i + 1, accW := (accWrites w i).foldl (fun (t : Tab Nat) n => t.set n s) k.accW, rowW := (rowOf d).foldl (fun (t : Tab Nat) r => t.set r s) k.rowW }
  have c := (c.inc C.SMP_STEPS_EXEC x).reseedSlots x (2 - used)
  have c := c.smpState x 2
  if i + 1 ≥ mwRep w then c.smpNext x w else c

/-- SMP_STEP (R227): the sequencer of cell x runs one repetition, or is held. `host`: a host access has waited under R28 and takes
a slot of this step (R217). -/
def smpStep (x : Nat) (host : Bool) (c : Chip) : Chip :=
  have k := c.cell x
  if c.smpPowered x = false ∨ bit c.st.smpLost x ∨ c.cellRole (smpBlk x) (smpNum x) = 3 then c
  else if k.on = false then c.reseedSlots x 2
  else
    have b := c.runBank x
    have w := c.microword x b k.entry
    have i := k.rep
    have a := k.opA b (c.coefAct x) w i
    have reads := rowOf a ++ rowOf (k.opB b (c.coefAct x) w i)
    have d := k.opD b (c.coefAct x) w i
    have used := (reads ++ rowOf d).length
    have isOut : Bool := match d with
      | .spec _ => true
      | _ => false
    if isOut ∧ k.dep.length ≥ 64 then (c.inc C.SMP_OUT_STALL x).smpHold x 4
    else if waitFor k.accW k.rowW k.steps (accReads w i) reads > 0 then ((c.inc C.SMP_STEPS_INTERLOCK x).reseedSlots x 2).smpLost x 5
    else if host ∧ used ≥ 2 then (c.inc C.SMP_STEPS_HOST x).smpLost x 2
    else if c.rb R.SMP_CSET_STAT_RESEED x ∧ used ≥ 2 ∧ k.reseedWait ≥ 3 then (c.reseedSlots x 2).smpLost x 2
    else if (a = .spec 0 ∧ i = 0) ∨ a = .spec 1 then
      match c.pop x with
      | .hold d st => d.smpHold x st
      | .got d row => (d.smpRun x w i (some row)).compareRows (smpBlk x)
    else (c.smpRun x w i none).compareRows (smpBlk x)

/-- A committed swap of a sample cell exchanges at the cell's first wrap after the token (R434), or at once where no program runs. -/
def Chip.swapWrap (c : Chip) (m : Mem) (x : Nat) : Chip :=
  if c.pw.swapKind = 2 ∧ c.rg R.HLT_SWAP_STAT_STATE 0 = 2 ∧ c.pw.swapTxn = none ∧ c.pw.swapWait = none ∧ c.pw.swapUnit = 11 * (x / 3) + 8 + x % 3 ∧ ((c.cell x).on = false ∨ (c.cell x).boundary = true) then
    c.swapDone m
  else c

def execSmpStep (t : Nat) (x : Fin 96) (host : Bool) (s : State) : Host.Outcome State Fault Refusal :=
  s.on t (fun m c => (smpStep x.val host c).swapWrap m x.val)

/-! ## Arrivals (R231, R240) -/

/-- Does a cell take a row into its arrival FIFO? -/
def SmpCell.takes (k : SmpCell) (r : ARow) : Bool := k.on && !(k.skipping && !r.sos) && decide (k.arr.length < 128)

/-- A row arrives at a cell. -/
def Chip.rowArrive (c : Chip) (x : Nat) (r : ARow) : Chip :=
  have k := c.cell x
  if k.on = false then c.inc C.SMP_ROWS_DISCARD x
  else if k.skipping ∧ r.sos = false ∨ k.arr.length ≥ 128 then
    ((c.inc C.SMP_ARR_OVR x).wg R.SMP_CELL_EVT_ARR_OVR x 1).setCell x { k with skipping := true }
  else (c.inc C.SMP_ROWS_IN x).setCell x { k with arr := k.arr ++ [r], skipping := false }

/-- The cell that shadows cell x. -/
def Chip.shadowOf (c : Chip) (x : Nat) : Option Nat := match c.shadowPair (smpBlk x) with
  | some (sp, a) => if a = x then some sp else none
  | none => none

/-- A row reaches cell y and the spare that shadows it, which starts at the first row with SOS that reaches it (R240). -/
def Chip.rowReach (c : Chip) (y : Nat) (r : ARow) : Chip := match c.shadowOf y with
  | some sp =>
    have k := c.cell sp
    if k.wait && !r.sos then c.rowArrive y { r with both := false }
    else
      have c := c.setCell sp { k with wait := false }
      have r : ARow := { r with both := (c.cell y).takes r && k.takes r }
      (c.rowArrive y r).rowArrive sp r
  | none => c.rowArrive y { r with both := false }

/-- SMP_ROW_ARRIVAL (R229, R250): the next row that the decompressor of cell x emits reaches the cell that serves x. -/
def smpRowArrival (x : Nat) (c : Chip) : Chip :=
  have f := c.path x
  match f.emit with
  | [] => c
  | r :: rest =>
    have c := c.setPath x { f with emit := rest }
    have c := if rest.isEmpty then c.wg R.SMP_ASM_STAT_EMITTING x 0 else c
    have y := c.smpServe x
    if y = 255 ∨ c.smpPowered y = false then c else c.rowReach y r

def execSmpRowArrival (t : Nat) (x : Fin 96) (s : State) : Host.Outcome State Fault Refusal := s.on t (fun _ => smpRowArrival x.val)

/-- SMP_SYM_TIMEOUT (R231): SYM_TO has passed since the symbol's first pop. -/
def smpSymTimeout (x : Nat) (c : Chip) : Chip :=
  match (c.cell x).popAt with
  | some a => if a + c.rg R.SMP_CELL_CFG_SYM_TO x * usPs ≤ c.now ∧ (c.cell x).zeroing = false then c.zeroFill x else c
  | none => c

def execSmpSymTimeout (t : Nat) (x : Fin 96) (s : State) : Host.Outcome State Fault Refusal := s.on t (fun _ => smpSymTimeout x.val)

/-! ## Writes of the cell's memories (R235, R260) -/

/-- Has the cell a coefficient flow (R242)? -/
def Chip.hasCoefFlow (c : Chip) (x : Nat) : Bool :=
  c.alm.active.any (fun e => decide (e.1 / 65536 = 0x0502 ∧ byteAt e.2 0 = 2 ∧ half e.2 2 = 16 * smpBlk x + smpNum x))

/-- Is a row in a coefficient bank: of the active one, of the shadow one? -/
def Chip.rowInBank (c : Chip) (x r a : Nat) : Bool :=
  have k := c.cell x
  have b := c.runBank x
  decide (k.csBase b a ≤ r ∧ r < k.csBase b a + k.csize b)

/-- Where a write of a cell's memories goes (R235, R260): refused with a status, held as R81 holds writes, or accepted. -/
inductive MemCheck where
  | bad (st : Nat)
  | held
  | ok
deriving DecidableEq, Repr

/-- The check of a write at a table-window address of the sample memories. What a READY delta has prepared is locked (R68). -/
def Chip.smpMemCheck (c : Chip) (a : Nat) : MemCheck :=
  if c.alm.load.region.any (fun (r : Nat × Nat) => decide (r.1 ≤ a ∧ a < r.1 + r.2)) then .bad stLocked
  else if a < 0x64000000 then
    have x := (a - 0x60000000) / 0x80000
    have r := (a - 0x60000000) % 0x80000 / 1024
    if c.rowInBank x r (c.coefAct x) then .bad stLocked
    else if c.rowInBank x r (1 - c.coefAct x) then
      if c.hasCoefFlow x then .bad stLocked
      else if c.rb R.SMP_CSET_STAT_RESEED x ∨ c.hopOpen x then .held else .ok
    else .ok
  else
    have x := (a - 0x64000000) / 0x10000
    have bank := (a - 0x64000000) % 0x10000 / 0x8000
    if c.runBank x = bank ∨ c.rg R.SMP_PROG_BANK_ACT x = bank ∨ c.rb R.SMP_PROG_BANK_LOCK x then .bad stLocked
    else .ok

/-- A word written to a cell's memory, and to the spare of its block where the cell is active (R235). -/
def Chip.smpMemPut (c : Chip) (a v : Nat) : Chip :=
  have opm := decide (a < 0x64000000)
  have base := if opm then 0x60000000 else 0x64000000
  have size := if opm then 0x80000 else 0x10000
  have x := (a - base) / size
  have w := if opm then partWord (sgn 20 v) else v
  have c := c.winSet a w
  if c.cellRole (smpBlk x) (smpNum x) = 0 then
    match c.spareSmp (smpBlk x) with
    | some y => c.winSet (base + size * y + (a - base) % size) w
    | none => c
  else c

/-- A write to the shadow set of a cell that is armed disarms it (R80). -/
def Chip.csetTouched (c : Chip) (x : Nat) : Chip :=
  have c := c.wg R.SMP_CSET_EPOCH_WRITE_EPOCH x (c.rg R.SMP_SYM_CNT_CNT x + 1)
  if c.rb R.SMP_CSET_CTRL_ARM x then
    (c.wg R.SMP_CSET_CTRL_ARM x 0).wsat R.ALM_SHADOW_DISARM_COUNT 0 (c.rg R.ALM_SHADOW_DISARM_COUNT 0 + 1)
  else c

/-- A row of cell y is written: its coefficient set is touched where the row lies in the shadow bank. -/
def Chip.rowTouched (c : Chip) (y r : Nat) : Chip := if c.rowInBank y r (1 - c.coefAct y) then c.csetTouched y else c

/-- An accepted write of a sample memory, in the cell and in the spare of its block (R235). -/
def Chip.smpMemLand (c : Chip) (a v : Nat) : Chip :=
  have x := (a - 0x60000000) / 0x80000
  have r := (a - 0x60000000) % 0x80000 / 1024
  if a < 0x64000000 then
    have d := c.rowTouched x r
    have d := if c.cellRole (smpBlk x) (smpNum x) = 0 then (match c.spareSmp (smpBlk x) with
      | some y => d.rowTouched y r
      | none => d) else d
    d.smpMemPut a v
  else c.smpMemPut a v

/-- May a microword stand as entry `e` of bank `bank` of cell x: legal, with EOS on the last entry of its program and on no other
(R226)? -/
def Chip.entryOk (c : Chip) (x bank e w : Nat) : Bool := mwLegal w && decide (mwEos w = decide (e + 1 = (c.cell x).count bank))

end Sys2Proof.Machine
end

