-- ==== Sys2Proof/Machine/Fronthaul.lean ====
section
/-! DEFINITION. Fronthaul combining (08_fronthaul_combining.md): decompression and assembly of IQ frames, recompression and output
frames, coefficient sets from the head end. -/

namespace Sys2Proof.Machine

open Sys2Proof

/-! ## Flows (R242) -/

/-- Cell x = 3b + j of a CELL field 16 × b + c. -/
def cellX (n : Nat) : Nat := 3 * (n / 16) + (n % 16 - 8)

/-- Fields of a STEER record. -/
def flKind (b : List Byte) : Nat := byteAt b 0
def flInterleaved (b : List Byte) : Bool := bit (byteAt b 1) 0
def flTag (b : List Byte) : Bool := bit (byteAt b 1) 1
def flFill (b : List Byte) : Bool := bit (byteAt b 1) 2
def flCell (b : List Byte) : Nat := cellX (half b 2)
def flSlot (b : List Byte) : Nat := byteAt b 4
def flMant (b : List Byte) : Nat := byteAt b 5
def flFirst (b : List Byte) : Nat := half b 6
def flCount (b : List Byte) : Nat := half b 8
def flNext (b : List Byte) : Nat := half b 10
def flTimeout (b : List Byte) : Nat := half b 12
def flPerFrame (b : List Byte) : Nat := byteAt b 14

/-- The flows of the active Almanac: number and record. -/
def Chip.flows (c : Chip) : List (Nat × List Byte) :=
  (c.alm.active.filter (fun e => decide (e.1 / 65536 = 0x0502))).map (fun e => (e.1 % 65536, e.2))

/-- The input flows of a cell, and the one with rank 0. -/
def Chip.inFlows (c : Chip) (x : Nat) : List (Nat × List Byte) := c.flows.filter (fun e => decide (flKind e.2 = 0 ∧ flCell e.2 = x))
def Chip.rank0 (c : Chip) (x : Nat) : Option (Nat × List Byte) := (c.inFlows x).find? (fun e => decide (flSlot e.2 = 0))

/-- The chain that starts at a flow, at most 8 flows (R242, R243). -/
def Chip.chain (c : Chip) : Nat → Nat → List (Nat × List Byte)
  | 0, _ => []
  | n + 1, s => match c.obj 0x0502 s with
    | some b => (s, b) :: (if flNext b = 0xFFFF then [] else c.chain n (flNext b))
    | none => []

/-- G of R243: groups of a window. -/
def groupsOf (count : Nat) : Nat := cdiv (12 * count) 128

/-! ## IQ sections (R246, R247) -/

/-- An IQ section as it lies in a frame. -/
structure IqSect where
  sym : Nat
  first : Nat
  num : Nat
  mant : Nat
  data : List Byte
deriving DecidableEq, Repr

/-- The twelve samples of a PRB record of mantissa width `m`, before saturation. -/
def prbParts (b : List Byte) (m : Nat) : List (Int × Int) :=
  have e := byteAt b 0 % 16
  (List.range 12).map (fun i => (sgn m (wireBits b (8 + 2 * i * m) m) * (2 ^ e : Nat), sgn m (wireBits b (8 + (2 * i + 1) * m) m) * (2 ^ e : Nat)))

/-- The IQ section of a frame whose form R246 accepts. -/
def iqParse (l : List Byte) : Option IqSect :=
  have o := if hasTag l then 16 else 12
  have body := l.drop (o + 2)
  have m := byteAt body 14
  have num := half body 12
  have len := 8 + num * (1 + 3 * m)
  if half l o = 0xAEFE ∧ body.length ≥ 16 ∧ byteAt body 0 / 16 = 1 ∧ byteAt body 0 % 2 = 0 ∧ byteAt body 1 = 0 ∧ half body 2 + 4 = body.length ∧
      1 ≤ m ∧ m ≤ 16 ∧ byteAt body 15 = 0 ∧ 1 ≤ num ∧ half body 10 ≤ 274 ∧ half body 10 + num ≤ 275 ∧ body.length = 8 + len ∧
      (List.range num).all (fun i => decide (byteAt body (16 + i * (1 + 3 * m)) < 16)) then
    some { sym := half body 8, first := half body 10, num := num, mant := m, data := body.drop 16 }
  else none

/-! ## Symbols (R248 to R251) -/

/-- Is a symbol complete: every PRB of the window of every rank is there? -/
def Chip.symComplete (c : Chip) (x : Nat) (s : OpenSym) : Bool :=
  (c.inFlows x).all (fun e => (List.range (flCount e.2)).all (fun i => (s.prbs.find (512 * flSlot e.2 + flFirst e.2 + i)).isSome))

/-- Row (g, r) of a symbol (R248). -/
def symRow (s : OpenSym) (b : List Byte) (g groups : Nat) : List (Int × Int) :=
  (List.range 128).map (fun l =>
    have k := if flInterleaved b then l * groups + g else 128 * g + l
    if k < 12 * flCount b then (Tab.get [] s.prbs (512 * flSlot b + flFirst b + k / 12)).getD (k % 12) (0, 0) else (0, 0))

/-- The rows of a symbol in the order of R250. -/
def Chip.symRows (c : Chip) (x : Nat) (s : OpenSym) (part : Bool) : List ARow :=
  have fl := c.inFlows x
  have groups := match fl with
    | e :: _ => groupsOf (flCount e.2)
    | [] => 0
  (List.range groups).flatMap (fun g => (List.range fl.length).map (fun r =>
    { lanes := (match fl.find? (fun e => decide (flSlot e.2 = r)) with
        | some e => symRow s e.2 g groups
        | none => zeroRow), sos := decide (g = 0 ∧ r = 0), sym := s.num, part := part, both := false }))

/-- OPEN of SMP_ASM_STAT. -/
def Chip.asmOpen (c : Chip) (x : Nat) : Chip := c.wg R.SMP_ASM_STAT_OPEN x (c.path x).opened.length

/-- The oldest open symbol closes (R249): emitted where it is complete or FILL is 1, else dropped. -/
def Chip.symClose (c : Chip) (x : Nat) : Chip :=
  have f := c.path x
  match f.opened with
  | [] => c
  | s :: rest =>
    have full := c.symComplete x s
    have fill : Bool := match c.rank0 x with
      | some e => flFill e.2
      | none => false
    have c := (c.wg R.SMP_ASM_STAT_LAST_EMIT x s.num).wg R.SMP_ASM_STAT_VALID x 1
    if full ∨ fill then
      have c := if full then c else (c.inc C.SMP_PATH_SYM_INCOMPLETE x).wg R.SMP_PATH_EVT_SYM_LOSS x 1
      have c := (c.inc C.SMP_PATH_SYM_EMITTED x).wg R.SMP_ASM_STAT_EMITTING x 1
      have ref := match s.gen with
        | some g => [(s.num, g, s.pass)]
        | none => []
      (c.setPath x { f with opened := rest, emit := f.emit ++ c.symRows x s (!full), refs := f.refs ++ ref, emitted := true }).asmOpen x
    else
      have c := (c.inc C.SMP_PATH_SYM_DROPPED x).wg R.SMP_PATH_EVT_SYM_LOSS x 1
      have c := match s.gen with
        | some g => c.refDrop g
        | none => c
      (c.setPath x { f with opened := rest }).asmOpen x

/-- Complete symbols close, oldest first. -/
def Chip.symCloseFull (c : Chip) (x : Nat) : Chip :=
  forN 2 (fun _ d => match (d.path x).opened with
    | s :: _ => if d.symComplete x s then d.symClose x else d
    | [] => d) c

/-- Buffers in use: open symbols and those still being emitted. -/
def FhCell.buffers (f : FhCell) : Nat := f.opened.length + (f.emit.map (·.sym)).eraseDups.length

/-- What placing a frame comes to (R249, R250). -/
inductive Placing where
  | late
  | at_ (c : Chip)
  | held (c : Chip)

/-- R249: find or open the symbol `sym`; `n` bounds the symbols that are forced to close. -/
def Chip.symFor (x sym : Nat) : Nat → Chip → Placing
  | 0, c => .held c
  | n + 1, c =>
    have f := c.path x
    have d := (sym + 65536 - c.rg R.SMP_ASM_STAT_LAST_EMIT x) % 65536
    have open_ := fun (_ : Unit) =>
      if f.buffers ≥ 2 then Placing.held c
      else Placing.at_ ((c.setPath x { f with opened := f.opened ++ [{ num := sym, at_ := c.now, prbs := [], pass := 0, gen := none }] }).asmOpen x)
    if f.emitted = true ∧ (d = 0 ∨ d ≥ 32768) then .late
    else match f.opened with
    | [] => open_ ()
    | s :: rest =>
      if s.num = sym ∨ rest.any (fun y => decide (y.num = sym)) then .at_ c
      else if rest.isEmpty ∧ sym = (s.num + 1) % 65536 then open_ ()
      else Chip.symFor x sym n (c.symClose x)

/-- The PRBs of a section that lie in a flow's window. -/
def sectPrbs (q : IqSect) (b : List Byte) : List Nat :=
  (List.range q.num).filter (fun i => decide (flFirst b ≤ q.first + i ∧ q.first + i < flFirst b + flCount b))

/-- Write a section's PRBs of a flow into its symbol: duplicates and saturations are counted, the reference moves to this frame
(R248, R251). -/
def Chip.symWrite (c : Chip) (x flow : Nat) (b : List Byte) (q : IqSect) (fr : Frame) : Chip :=
  have f := c.path x
  match f.opened.find? (fun s => decide (s.num = q.sym)) with
  | none => c
  | some s =>
    have r := (sectPrbs q b).foldl (fun (z : Tab (List (Int × Int)) × Nat × Nat) i =>
      have key := 512 * flSlot b + q.first + i
      if (z.1.find key).isSome then (z.1, z.2.1 + 1, z.2.2)
      else
        have ps := prbParts (slice q.data (i * (1 + 3 * q.mant)) (1 + 3 * q.mant)) q.mant
        have sat := (ps.map (fun y => b2n (decide (satInt 20 y.1 ≠ y.1)) + b2n (decide (satInt 20 y.2 ≠ y.2)))).sum
        (z.1.set key (ps.map (fun y => (satInt 20 y.1, satInt 20 y.2))), z.2.1, z.2.2 + sat)) (s.prbs, 0, 0)
    have c := (c.incBy C.SMP_FLOW_DUP_PRB_PARTIAL flow r.2.1).incBy C.SMP_FLOW_IN_SAT_BLOCK_OVR flow r.2.2
    have c := match s.gen with
      | some g => c.refDrop g
      | none => c
    have s' : OpenSym := { s with prbs := r.1, pass := max s.pass fr.pass, gen := some fr.gen }
    c.setPath x { f with opened := f.opened.map (fun (y : OpenSym) => if y.num = q.sym then s' else y) }

/-- A frame is offered to one flow of the chain: the chip after it, and whether it must wait for a buffer. -/
def Chip.offer (c : Chip) (e : Nat × List Byte) (q : IqSect) (fr : Frame) : Chip × Bool :=
  have x := flCell e.2
  have mine := sectPrbs q e.2
  match Chip.symFor x q.sym 3 c with
  | .late => (((c.inc C.SMP_FLOW_FRAMES e.1).inc C.SMP_FLOW_LATE_DATA_OUT_SAT e.1).refDrop fr.gen, false)
  | .held d => (d, true)
  | .at_ d =>
    have d := (d.inc C.SMP_FLOW_FRAMES e.1).incBy C.SMP_FLOW_PRBS_OUTSIDE e.1 (q.num - mine.length)
    ((d.symWrite x e.1 e.2 q fr).symCloseFull x, false)

/-- Take a steered frame off its queue. -/
def Chip.unsteer (c : Chip) (f : Frame) : Chip :=
  { c with fh.inQ := c.fh.inQ.filter (fun (y : Frame × Nat) => decide (y.1.id ≠ f.id)), fh.coefQ := c.fh.coefQ.filter (fun (y : Frame × Nat) => decide (y.1.id ≠ f.id)), fh.partly := c.fh.partly.filter (fun n => decide (n ≠ f.id)) }

/-- Put the rest of a chain back at the front: those flows have not taken the frame yet. -/
def Chip.resteer (c : Chip) (f : Frame) (s : Nat) : Chip := { c with fh.inQ := (f, s) :: c.fh.inQ, fh.partly := f.id :: c.fh.partly }

/-- The flows of a chain take a frame in order; the frame's reference is doubled before a flow takes it, so that the next flow's copy
holds one whatever that flow does (R251). The first that needs a buffer still being emitted holds the frame there (R250). -/
def Chip.offerAll (c : Chip) (q : IqSect) (fr : Frame) : List (Nat × List Byte) → Chip
  | [] => c
  | e :: rest =>
    match (if rest.isEmpty then c else c.refTake fr.gen).offer e q fr with
    | (d, true) => (if rest.isEmpty then d else d.refDrop fr.gen).resteer fr e.1
    | (d, false) => Chip.offerAll d q fr rest

/-- A frame whose form or mantissa width is wrong is discarded whole (R247). -/
def Chip.iqBad (c : Chip) (fr : Frame) (s : Nat) (b : List Byte) : Chip :=
  (((c.inc C.SMP_FLOW_FMT_ERR_BYTES s).wg R.SMP_PATH_EVT_FMT (flCell b) 1)).refDrop fr.gen

/-- IQ_FRAME_ASSEMBLE (R247, R249): the next frame steered to a flow of cell x. The width of a frame is judged against the flow it was
steered to, not again where it goes on in the chain. -/
def iqFrameAssemble (x : Nat) (c : Chip) : Chip :=
  match c.fh.inQ.find? (fun y => match c.obj 0x0502 y.2 with
      | some b => decide (flCell b = x)
      | none => true) with
  | none => c
  | some y =>
    match c.obj 0x0502 y.2 with
    | none => (c.unsteer y.1).refDrop y.1.gen
    | some b =>
      have known := c.fh.partly.contains y.1.id
      have c := c.unsteer y.1
      match iqParse y.1.bytes with
      | none => c.iqBad y.1 y.2 b
      | some q => if known ∨ q.mant = flMant b then c.offerAll q y.1 (c.chain 8 y.2) else c.iqBad y.1 y.2 b

def execIqFrameAssemble (t : Nat) (x : Fin 96) (s : State) : Host.Outcome State Fault Refusal := s.on t (fun _ => iqFrameAssemble x.val)

/-- IQ_ASM_TIMEOUT (R249): ASM_TO of the rank-0 flow has passed since the oldest open symbol's first frame. -/
def iqAsmTimeout (x : Nat) (c : Chip) : Chip :=
  match (c.path x).opened, c.rank0 x with
  | s :: _, some e => if s.at_ + flTimeout e.2 * usPs ≤ c.now then (c.symClose x).symCloseFull x else c
  | _, _ => c

def execIqAsmTimeout (t : Nat) (x : Fin 96) (s : State) : Host.Outcome State Fault Refusal := s.on t (fun _ => iqAsmTimeout x.val)

/-! ## Output blocks (R252 to R254) -/

/-- SHIFT of a block, and its rows brought to it. -/
def blockShift (rows : List DRow) : Nat := (rows.map (·.exp)).foldl max 0
def rowAt (r : DRow) (sh l : Nat) : Int × Int :=
  if l < 128 ∧ bit r.mask l then
    have v := r.lanes.getD l (0, 0)
    (rshift v.1 (sh - r.exp), rshift v.2 (sh - r.exp))
  else (0, 0)

/-- Relative subcarrier k of an output flow (R252). -/
def subcarrier (rows : List DRow) (il : Bool) (k : Nat) : Int × Int :=
  have n := rows.length
  have i := if il then k % n else k / 128
  have l := if il then k / n else k % 128
  match rows[i]? with
  | some r => rowAt r (blockShift rows) l
  | none => (0, 0)

/-- Does a part fit in m bits at exponent e? -/
def fits (m e : Nat) (v : Int) : Bool := decide (satInt m (rshift v e) = rshift v e)

/-- The exponent of a PRB (R253). -/
def prbExp (m : Nat) (ps : List (Int × Int)) : Nat :=
  ((List.range 16).find? (fun e => ps.all (fun y => fits m e y.1 && fits m e y.2))).getD 15

/-- A PRB record, and how many parts saturated (R246, R253). -/
def prbRecord (m : Nat) (ps : List (Int × Int)) : List Byte × Nat :=
  have e := prbExp m ps
  have parts := ps.flatMap (fun y => [y.1, y.2])
  have v := parts.foldl (fun (a : Nat) p => a * 2 ^ m + unsgn m (satInt m (rshift p e))) 0
  (beBytes 1 e ++ beBytes (3 * m) v, (parts.filter (fun p => !fits m e p)).length)

/-- PRB i of a block for a flow. -/
def blockPrb (rows : List DRow) (b : List Byte) (i : Nat) : List Byte × Nat :=
  prbRecord (flMant b) ((List.range 12).map (fun s => subcarrier rows (flInterleaved b) (12 * i + s)))

/-- One output frame (R254): PRBs `i0` to `i0 + n − 1` of the window, without FCS. -/
def outFrame (b : List Byte) (seq sym : Nat) (part : Bool) (shift i0 n : Nat) (prbs : List Byte) : List Byte :=
  slice b 16 12 ++ (if flTag b then beBytes 2 0x8100 ++ slice b 28 2 else []) ++ beBytes 2 0xAEFE ++
    beBytes 1 0x10 ++ beBytes 1 0 ++ beBytes 2 (4 + 8 + prbs.length) ++ slice b 30 2 ++ beBytes 2 seq ++
    beBytes 2 sym ++ beBytes 2 (flFirst b + i0) ++ beBytes 2 n ++ beBytes 1 (flMant b) ++
    beBytes 1 (shift % 64 + (if part then 64 else 0)) ++ prbs

/-- References of the symbols of cell x before `sym` are released: their output has ended (log entry 23). -/
def Chip.refsBefore (c : Chip) (x sym : Nat) : Chip :=
  have f := c.path x
  have old := f.refs.takeWhile (fun r => decide (r.1 ≠ sym))
  if old.length = f.refs.length then c
  else (old.foldl (fun d r => d.refDrop r.2.1) c).setPath x { f with refs := f.refs.drop old.length }

/-- No generation: what an emitted symbol holds once its own has expired; its output frames are dropped (R178). -/
def genGone : Nat := 2 ^ 20

/-- A produced frame enters the pipeline of its cell's block, with the generation of its symbol (R176, R244); one whose generation
has expired is dropped (R178). -/
def Chip.produce (c : Chip) (x flow : Nat) (l : List Byte) (sym : Nat) : Chip :=
  have r := (c.path x).refs.find? (fun r => decide (r.1 = sym))
  have gen := match r with
    | some y => y.2.1
    | none => c.rg R.ALM_RULE_GEN_CUR 0
  have pass := match r with
    | some y => y.2.2 + 1
    | none => 1
  if gen = genGone then c
  else
  (c.refTake gen).arriveBack { id := 0, bytes := l, len := l.length + 4, known := true, origin := 2, wl := 0, src := flow, blk := smpBlk x, pass := pass, gen := gen, bus := 0, tsNs := 0, tsFrac := 0, tsOk := false, entry := true, role := 0, grown := 0, claim := 0, polCh := 0, stomp := false }

/-- A complete block of an output flow is packed and sent (R253, R254). -/
def Chip.sendBlock (c : Chip) (x flow : Nat) (b : List Byte) (rows : List DRow) : Chip :=
  have sym := match rows.getLast? with
    | some r => r.sym
    | none => 0
  have part := rows.any (fun r => r.part || r.bad)
  have per := max 1 (flPerFrame b)
  have c := c.refsBefore x sym
  forN (cdiv (flCount b) per) (fun j d =>
    have n := min per (flCount b - j * per)
    have ps := (List.range n).map (fun i => blockPrb rows b (j * per + i))
    have seq := Tab.get 0 d.fh.seqId flow
    have l := outFrame b seq sym part (blockShift rows) (j * per) n (ps.flatMap (·.1))
    have d := { d with fh.seqId := d.fh.seqId.set flow ((seq + 1) % 65536) }
    have d := (d.inc C.SMP_FLOW_FRAMES flow).incBy C.SMP_FLOW_FMT_ERR_BYTES flow (l.length + 4)
    have d := d.incBy C.SMP_FLOW_LATE_DATA_OUT_SAT flow ((ps.map (·.2)).sum)
    have d := if part then d.inc C.SMP_FLOW_DUP_PRB_PARTIAL flow else d
    d.produce x flow l sym) c

/-- The recompressor takes one departure row (R252). -/
def Chip.takeRow (c : Chip) (x : Nat) (r : DRow) : Chip :=
  match c.flows.find? (fun e => decide (flKind e.2 = 1 ∧ flCell e.2 = x ∧ flSlot e.2 = r.stream)) with
  | none => c.inc C.SMP_PATH_ROWS_UNMAPPED x
  | some e =>
    have f := c.path x
    have rows := Tab.get [] f.blocks r.stream ++ [r]
    if r.blk then
      have c := c.setPath x { f with blocks := f.blocks.erase r.stream }
      if rows.length > 256 then c.inc C.SMP_FLOW_IN_SAT_BLOCK_OVR e.1 else c.sendBlock x e.1 e.2 rows
    else c.setPath x { f with blocks := f.blocks.set r.stream rows }

/-- IQ_OUTPUT_BLOCK (R252, R253): the recompressor takes departure rows of the cell that serves x, in their order, to the end of
the next output block or of the FIFO. -/
def iqOutputBlock (x : Nat) (c : Chip) : Chip :=
  have y := c.smpServe x
  have k := c.cell y
  have n := (k.dep.takeWhile (fun r => !r.blk)).length + 1
  if y = 255 ∨ c.smpPowered y = false then c
  else (k.dep.take n).foldl (fun d r => d.takeRow x r) (c.setCell y { k with dep := k.dep.drop n })

def execIqOutputBlock (t : Nat) (x : Fin 96) (s : State) : Host.Outcome State Fault Refusal := s.on t (fun _ => iqOutputBlock x.val)

/-! ## Coefficient frames (R257, R258) -/

/-- Does a frame have the layout of R257 for cell x? -/
def Chip.coefForm (c : Chip) (x : Nat) (l : List Byte) : Bool :=
  have p := l.drop 14
  have rows := byteAt p 14
  have k := c.cell x
  decide (half l 12 = 0x88B6 ∧ byteAt p 0 = 1 ∧ byteAt p 1 < 2 ∧ half p 2 = 16 * smpBlk x + smpNum x ∧ 1 ≤ half p 10 ∧
    half p 10 ≤ k.csize (c.runBank x) ∧ 1 ≤ rows ∧ rows ≤ 25 ∧ half p 12 + rows ≤ half p 10 ∧ byteAt p 15 = 0 ∧
    l.length + 4 = 50 + 640 * rows) && (List.range 16).all (fun i => decide (byteAt p (16 + i) ≤ 32))

/-- Is sequence number `a` at or before `b`, modulo 2³²? -/
def seqLe (a b : Nat) : Bool := decide ((b + 2 ^ 32 - a) % 2 ^ 32 < 2 ^ 31)

/-- A set that is assembling or armed is given up: the cell that serves x and the spare disarm and re-seed (R258). Where the spare has
not yet made the hand-over that the cell has made, it makes it now (log entry 68). -/
def Chip.coefGiveUp (c : Chip) (x : Nat) : Chip :=
  have f := c.path x
  have c := match c.spareSmp (smpBlk x), f.pend, f.spSet with
    | some y, none, some _ => if c.rb R.SMP_CSET_CTRL_ARM y then c.coefHandover y else c
    | _, _, _ => c
  have c := c.setPath x { f with pend := none, await := [], spSet := none }
  ((c.coefCells x).foldl (fun d y => (d.wg R.SMP_CSET_CTRL_ARM y 0).reseedStart y) c).wg R.SMP_COEF_STAT_STATE x 1

/-- The rows of a frame. -/
def coefRows (p : List Byte) : List (Nat × List Byte) := (List.range (byteAt p 14)).map (fun i => (half p 12 + i, slice p (32 + 640 * i) 640))

/-- Rows of the set in progress: written, or kept while re-seeding or an open HOP window holds the writes of the path (R81, R258,
R259). -/
def Chip.coefRowsIn (c : Chip) (x : Nat) (s : CoefSet) (rows : List (Nat × List Byte)) : Chip :=
  have s : CoefSet := { s with rows := (s.rows ++ rows.map (·.1)).eraseDups }
  have f := c.path x
  ((c.wg R.SMP_COEF_STAT_ROWS x s.rows.length).setPath x { f with pend := some s, await := f.await ++ rows }).pathLand x

/-- COEF_FMT_ERR. -/
def Chip.coefFmt (c : Chip) (x : Nat) : Chip := (c.inc C.SMP_PATH_COEF_FMT_ERR x).wg R.SMP_PATH_EVT_SET_LOST x 1

/-- R258 for a frame of good form with payload `p`. -/
def Chip.coefTake (c : Chip) (x : Nat) (p : List Byte) : Chip :=
  have f := c.path x
  have seq := word p 4
  have bexp := (List.range 16).map (fun i => byteAt p (16 + i))
  have st := c.rg R.SMP_COEF_STAT_STATE x
  have stale := (f.any && seqLe seq (c.rg R.SMP_COEF_SEQ_LAST_SEQ x)) || (match f.pend with
    | some s => decide (s.seq ≠ seq) && seqLe seq s.seq
    | none => false)
  if stale then c.inc C.SMP_PATH_SETS_STALE x
  else
    have fresh := fun (c : Chip) =>
      have c := c.coefGiveUp x
      have c := c.wg R.SMP_COEF_STAT_APPLY x (half p 8)
      c.coefRowsIn x { seq := seq, flags := byteAt p 1, apply := half p 8, total := half p 10, bexp := bexp, rows := [], at_ := c.now, late := false } (coefRows p)
    match f.pend with
    | some s =>
      if s.seq = seq then
        if st = 1 ∨ st = 2 then
          if s.flags = byteAt p 1 ∧ s.apply = half p 8 ∧ s.total = half p 10 ∧ s.bexp = bexp then c.coefRowsIn x s (coefRows p)
          else (c.coefFmt x).coefGiveUp x
        else c
      else fresh ((c.inc C.SMP_PATH_SETS_SUPERSEDED x).wg R.SMP_PATH_EVT_SUPERSEDED x 1)
    | none => fresh c

/-- COEF_FRAME (R257, R258): the next frame steered to the coefficient flow of cell x; its generation is released. -/
def coefFrame (x : Nat) (c : Chip) : Chip :=
  match c.fh.coefQ.find? (fun y => match c.obj 0x0502 y.2 with
      | some b => decide (flCell b = x)
      | none => true) with
  | none => c
  | some y =>
    have c := (c.unsteer y.1).refDrop y.1.gen
    if c.coefForm x y.1.bytes then c.coefTake x (y.1.bytes.drop 14) else c.coefFmt x

def execCoefFrame (t : Nat) (x : Fin 96) (s : State) : Host.Outcome State Fault Refusal := s.on t (fun _ => coefFrame x.val)

/-- COEF_SET_TIMEOUT (R258): SET_TO has passed since the first frame of a set that is still incomplete. -/
def coefSetTimeout (x : Nat) (c : Chip) : Chip :=
  match (c.path x).pend, c.flows.find? (fun e => decide (flKind e.2 = 2 ∧ flCell e.2 = x)) with
  | some s, some e =>
    have st := c.rg R.SMP_COEF_STAT_STATE x
    if (st = 1 ∨ st = 2) ∧ s.complete = false ∧ s.at_ + flTimeout e.2 * usPs ≤ c.now then
      ((c.inc C.SMP_PATH_SETS_INCOMPLETE x).wg R.SMP_PATH_EVT_SET_LOST x 1).coefGiveUp x
    else c
  | _, _ => c

def execCoefSetTimeout (t : Nat) (x : Fin 96) (s : State) : Host.Outcome State Fault Refusal := s.on t (fun _ => coefSetTimeout x.val)

/-! ## GEN_EXPIRE (R178) -/

/-- Frames in a list that hold generation `g` after a first pass, each counted in its block. -/
def Chip.expireCount (c : Chip) (fs : List Frame) : Chip := fs.foldl (fun d f => d.inc C.PKT_BLK_GEN_EXPIRED f.blk) c

/-- Symbols of a sample cell that hold generation `g`, open or emitted, are dropped with their frames, each counted (R178, R251). -/
def Chip.expireSymbols (c : Chip) (x g : Nat) : Chip :=
  have f := c.path x
  have op := f.opened.filter (fun o => decide (o.gen = some g))
  have rf := f.refs.filter (fun r => decide (r.2.1 = g))
  if op.isEmpty && rf.isEmpty then c
  else
    ((c.incBy C.PKT_BLK_GEN_EXPIRED (smpBlk x) (op.length + rf.length)).setPath x { f with opened := f.opened.filter (fun o => decide (o.gen ≠ some g)), refs := f.refs.map (fun r => if r.2.1 = g then (r.1, genGone, r.2.2) else r) }).asmOpen x

/-- 1 ms after the generation of slot `n` stopped being current, every frame that holds it is dropped. -/
def genExpire (n : Nat) (c : Chip) : Chip :=
  match c.pp.genAt.find n with
  | some a =>
    if c.rb R.PKT_GEN_SLOT_LIVE n ∧ c.rb R.PKT_GEN_SLOT_CUR n = false ∧ a + msPs ≤ c.now then
      have g := c.rg R.PKT_GEN_SLOT_GEN n
      have holds := fun (f : Frame) => decide (f.pass ≠ 0 ∧ f.gen = g)
      have d := c.expireCount (c.pp.back.filter holds ++ (c.pp.held.map (·.1)).filter (fun f => decide (f.gen = g)) ++ (c.pp.miss.map (fun x => x.p.f)).filter (fun f => decide (f.gen = g)) ++ ((c.fh.inQ ++ c.fh.coefQ).map (·.1)).filter (fun f => decide (f.gen = g)))
      have d := { d with pp.back := d.pp.back.filter (fun f => !holds f), pp.held := d.pp.held.filter (fun (x : Frame × Hold) => decide (x.1.gen ≠ g)), pp.miss := d.pp.miss.filter (fun (x : Miss) => decide (x.p.f.gen ≠ g)) }
      have d := { d with fh.inQ := d.fh.inQ.filter (fun (x : Frame × Nat) => decide (x.1.gen ≠ g)), fh.coefQ := d.fh.coefQ.filter (fun (x : Frame × Nat) => decide (x.1.gen ≠ g)) }
      have d := forN 96 (fun x d => d.expireSymbols x g) d
      (((d.wg R.PKT_GEN_REFS_COUNT n 0).wb R.PKT_GEN_SLOT_LIVE n false).liveCount).stageUse
    else c
  | none => c

def execGenExpire (t : Nat) (n : Fin 4) (s : State) : Host.Outcome State Fault Refusal := s.on t (fun _ => genExpire n.val)

end Sys2Proof.Machine
end

