-- ==== Sys2Proof/Machine/Session.lean ====
section
/-! DEFINITION. How a transaction ends (02_almanac.md R66, R75, R77), how a DMA descriptor ends (11_host_control_and_dma.md R350,
R352), and how a ZCP session closes (R336). -/

namespace Sys2Proof.Machine

open Sys2Proof

/-- The ID of the present use of a slot: SEQ and SLOT (R70). -/
def txnId (slot seq : Nat) : Nat := seq % 1024 * 64 + slot
def Txn.id (x : Txn) : Nat := txnId x.slot x.seq

/-- A session slot. -/
def Chip.sess (c : Chip) (s : Nat) : Sess := Tab.get Sess.reset c.hp.sess s
def Chip.setSess (c : Chip) (s : Nat) (x : Sess) : Chip := { c with hp.sess := c.hp.sess.set s x }

/-- Is the slot OPEN? -/
def Chip.sessOpen (c : Chip) (s : Nat) : Bool := decide (s < 4 ∧ c.rg R.HST_SESS_STAT_STATE s = 2)

/-! ## Transactions -/

/-- A change of ALM_LOAD_STAT.STATE to APPLIED, READY or FAILED (R66). -/
def Chip.loadState (c : Chip) (st cause sect : Nat) : Chip :=
  (((c.wg R.ALM_LOAD_STAT_STATE 0 st).wg R.ALM_LOAD_STAT_CAUSE 0 cause).wg R.ALM_LOAD_STAT_SECTION 0 sect).wg R.ALM_EVT_LOAD_CHG 0 1

/-- A change of ALM_JUB_STAT.STATE (R83). -/
def Chip.jubState (c : Chip) (st : Nat) : Chip :=
  if c.rg R.ALM_JUB_STAT_STATE 0 = st then c else (c.wg R.ALM_JUB_STAT_STATE 0 st).wg R.ALM_EVT_JUB_CHG 0 1

/-- The loader lets go of what it prepared: inactive resources that were not taken are undefined from then on and unlocked (R68). -/
def Chip.loadRelease (c : Chip) : Chip :=
  have c := c.alm.load.region.foldl (fun d r => d.winUndef r.1 r.2) c
  have c := c.alm.load.shadow.foldl (fun d k =>
    have x := d.draw
    { x.2 with regs := x.2.regs.set k.1 (x.1 % 2 ^ k.2) }) c
  have c := forN 12 (fun s d => if d.rb R.PKT_STAGE_STAT_LOCK s then d.wg R.PKT_STAGE_STAT_LOCK s 0 else d) c
  have c := forN 96 (fun x d => if d.rb R.SMP_PROG_BANK_LOCK x then d.wg R.SMP_PROG_BANK_LOCK x 0 else d) c
  { (c.wg R.ALM_GEN_CAND_GEN 0 0) with alm.load.prep := none, alm.load.waiting := false, alm.load.region := [], alm.load.shadow := [], alm.load.banks := [] }

/-- A load fails: nothing that it prepared takes effect (R66 step 5). -/
def Chip.loadFail (c : Chip) (cause sect : Nat) : Chip := (c.loadRelease).loadState 6 cause sect

/-- A planned swap ends without success (R434): the spare returns to SPARE, the unit stays ACTIVE. -/
def Chip.swapFail (c : Chip) (cause : Nat) : Chip :=
  have b := c.pw.swapSpare / 11
  have k := c.pw.swapSpare % 11
  have c := if c.pw.swapKind ≤ 2 ∧ c.cellRole b k = 2 then c.setRole b k 1 else c
  have c := if c.pw.swapKind = 2 then c.setCell (3 * b + (k - 8)) SmpCell.reset else c
  have c := ((c.wg R.HLT_SWAP_STAT_STATE 0 0).wg R.HLT_SWAP_STAT_CAUSE 0 cause).wg R.HLT_EVT_SWAP_FAIL 0 1
  { c with pw.swapTxn := none, pw.swapWait := none }

/-- The result of a transaction is told to the session that asked for it with NOTIFY (R342). -/
def Chip.notify (c : Chip) (x : Txn) (st cause : Nat) : Chip :=
  if x.notify = true ∧ c.sessOpen x.owner = true then
    have s := c.sess x.owner
    c.setSess x.owner { s with results := s.results ++ [(x.id, st, cause)] }
  else c

/-- The lowest free transaction slot (R70). -/
def Chip.txnFree (c : Chip) : Option Nat := (List.range 64).find? (fun n => !(c.alm.txns.any (fun (x : Txn) => decide (x.slot = n))))

/-- A millisecond and a frame period in 2⁻¹⁶ ns. -/
def octU : Int := 65536000000
def frameT : Int := 8192000000

/-- The number of the next Octave boundary, and the time until it in 2⁻¹⁶ ns (R73, R276): on the grid of L before the first
association, on that of the last association afterwards, at least 500 µs after the boundary before. A boundary that falls at the
present nanosecond is the next one until it has been produced. -/
def Chip.octDue (c : Chip) : Nat × Int := match c.tm.grid with
  | none =>
    have x := c.lNow % octU
    (c.alm.octave + 1, if x < 65536 ∧ c.alm.octAt + usPs ≤ c.now then -x else octU - x)
  | some g =>
    have d := c.dNow 0
    have from_ := max (d - ((c.now - c.alm.octAt : Nat) : Int) * 65536 / 1000 + octU / 2) (d - 65535)
    have n := -((-(from_ - g.2 + (g.1 : Int) * frameT)) / octU)
    (n.toNat, g.2 + (8 * n - (g.1 : Int)) * frameT - d)

/-- Has the window of the next boundary opened (R78)? -/
def Chip.octOpen (c : Chip) : Bool := c.alm.window && decide (c.octDue.2 ≤ octU / 50)

/-- The Octave number of POINT_KIND 0: the next boundary whose window has not opened (R72, R81). -/
def Chip.nextPoint (c : Chip) : Nat := c.octDue.1 + b2n c.octOpen

/-- A transaction is opened in a slot: SEQ rises at each reuse of the slot (R70). -/
def Chip.txnOpen (c : Chip) (slot owner : Nat) (o : TxnOrigin) : Chip × Nat :=
  have seq := match c.alm.slotSeq.find slot with
    | some n => (n + 1) % 1024
    | none => 0
  have x : Txn := { slot := slot, seq := seq, owner := owner, origin := o, pending := false, writes := [], kind := 0, value := 0, order := 0, notify := false }
  ({ c with alm.txns := c.alm.txns ++ [x], alm.slotSeq := c.alm.slotSeq.set slot seq }, txnId slot seq)

/-- A transaction with an ID takes a new form. -/
def Chip.txnSet (c : Chip) (x : Txn) : Chip :=
  { c with alm.txns := c.alm.txns.map (fun (y : Txn) => if y.slot = x.slot then x else y) }

/-- A transaction leaves its slot; its status stays readable, the last 256 are kept (R77). -/
def Chip.txnRecord (c : Chip) (x : Txn) (st cause addr octave : Nat) : Chip :=
  have d : TxnDone := { id := x.id, owner := x.owner, state := st, cause := cause, kind := x.kind, writes := x.writes.length, octave := octave, addr := addr, time := c.now }
  have c := { c with alm.txns := c.alm.txns.filter (fun (y : Txn) => decide (y.slot ≠ x.slot)), alm.done := (d :: c.alm.done).take 256 }
  c.notify x st cause

/-- What the abort of a transaction does to the load or the swap that stands on it (R66, R86, R434). `keep` is the exception of R66:
a JUBILEE commit that aborts with cause MODE other than by EVENTIDE leaves its candidate prepared. -/
def Chip.txnOrigin (c : Chip) (x : Txn) (cause : Nat) (keep : Bool) : Chip :=
  match x.origin with
  | .host => c
  | .delta => c.loadFail (if c.alm.load.cancelled then 20 else 21) 0
  | .jubilee =>
    have c := c.wg R.ALM_JUB_STAT_TXN 0 0
    if keep then c
    else
      have c := (c.loadFail (if c.alm.load.cancelled then 20 else 21) 0).wg R.ALM_JUB_STAT_CAND_ALM 0 0
      have c := { c with alm.cand := none }
      if c.rg R.ALM_JUB_STAT_STATE 0 = 0 then c else c.jubState 1
  | .swap => if c.rg R.HLT_SWAP_STAT_STATE 0 = 0 then c else c.swapFail (if cause = 9 then 3 else 2)

/-- A transaction aborts with a cause of R75 and the address at fault. -/
def Chip.txnAbort (c : Chip) (x : Txn) (cause addr : Nat) (keep : Bool) : Chip :=
  (c.txnRecord x 4 cause addr c.alm.octave).txnOrigin x cause keep

/-- Every transaction that satisfies a condition aborts. -/
def Chip.txnAbortAll (c : Chip) (cause : Nat) (keep : Bool) (p : Txn → Bool) : Chip :=
  (c.alm.txns.filter p).foldl (fun d x => d.txnAbort x cause 0 keep) c

/-! ## DMA descriptors -/

/-- DDR5 byte address of the descriptor at HEAD (R349). -/
def Chip.dmaDesc (c : Chip) (ch : Nat) : Nat := c.rg R.DMA_CH_RING_RING4K ch * 4096 + 32 * c.rg R.DMA_CH_HEAD_HEAD ch

/-- The engine writes a descriptor back with OWN = 0, STATUS, DONE_LEN and the stamp, and advances HEAD (R350). -/
def Chip.dmaWriteBack (c : Chip) (ch : Nat) (r : DmaRun) (status : Nat) : Chip :=
  have ctrl := beAt r.desc 0 2 % 32768
  have l := c.lNow
  have b := beBytes 2 ctrl ++ slice r.desc 2 6 ++ beBytes 2 status ++ slice r.desc 10 6 ++ slice r.desc 16 4 ++ beBytes 4 r.moved ++
    beBytes 4 (tsNsOf l) ++ beBytes 2 (fracOf l) ++ zeros 2
  have c := c.mem (.ddr (c.dmaDesc ch) b)
  have c := c.wg R.DMA_CH_HEAD_HEAD ch ((c.rg R.DMA_CH_HEAD_HEAD ch + 1) % 2 ^ c.rg R.DMA_CH_CFG_SIZE_LOG2 ch)
  have c := (c.wg R.DMA_CH_STAT_LAST_STATUS ch status).inc C.DMA_DESC_DONE ch
  { c with hp.dma := c.hp.dma.erase ch }

/-- DONE or ERROR of a channel is set; of a channel of the cores (OWNER 0) that is the event of source 51 (R364). -/
def Chip.dmaFlag (c : Chip) (f : Fld) (ch : Nat) : Chip :=
  have c := c.wg f ch 1
  if c.rg R.DMA_CH_CFG_OWNER ch = 0 then c.srcEvent 51 else c

/-- A channel stops: at once where no burst of it waits, after that burst otherwise; a descriptor in progress ends ABORTED (R352). -/
def Chip.dmaStop (c : Chip) (ch : Nat) : Chip :=
  match c.hp.dma.find ch with
  | some r =>
    if r.waits then { c with hp.dma := c.hp.dma.set ch { r with stop := true } }
    else ((c.dmaWriteBack ch r 7).dmaFlag R.DMA_CH_STAT_ERROR ch).wg R.DMA_CH_STAT_STATE ch 4
  | none => if c.rg R.DMA_CH_STAT_STATE ch = 0 then c else c.wg R.DMA_CH_STAT_STATE ch 4

/-! ## Sessions -/

/-- A slot is freed. -/
def Chip.sessFree (c : Chip) (s : Nat) : Chip :=
  (((c.setSess s Sess.reset).wg R.HST_SESS_STAT_STATE s 0).wg R.HST_SESS_STAT_ROLE s 0).wg R.HST_SESS_STAT_OUTSTANDING s 0

/-- A session closes (R336): its keys are erased, its transactions abort with cause SESSION, its DMA channels stop, its held writes
still land without an answer. -/
def Chip.sessClose (c : Chip) (s cause : Nat) : Chip :=
  if c.rg R.HST_SESS_STAT_STATE s = 2 then
    have c := c.txnAbortAll 8 false (fun x => decide (x.owner = s) && decide (x.origin ≠ .swap))
    have c := forN 64 (fun ch d => if d.rg R.DMA_CH_CFG_OWNER ch = s + 1 then d.dmaStop ch else d) c
    have c := { c with alm.held := c.alm.held.map (fun (h : HeldWrite) => if h.sess = s then { h with sess := 9 } else h) }
    (c.sessFree s).wg R.HST_SESS_STAT_CLOSE_CAUSE s cause
  else if c.rg R.HST_SESS_STAT_STATE s = 1 then c.sessFree s
  else c

/-- Every session closes. -/
def Chip.sessCloseAll (c : Chip) (cause : Nat) : Chip := forN 4 (fun s d => d.sessClose s cause) c

end Sys2Proof.Machine
end

