-- ==== Sys2Proof/Machine/Trust.lean ====
section
/-! DEFINITION. The security unit (13_security.md): fuses, measurement, erasure and alarms, entropy, the management key, key loads,
the vault, flash operations, firmware images. -/

namespace Sys2Proof.Machine

open Sys2Proof

/-! ## Fuses (R376 to R378) -/

/-- Is root slot `s` programmed, and is it revoked? -/
def Chip.rootDone (c : Chip) (s : Nat) : Bool := c.groupDone s
def Chip.rootRevoked (c : Chip) (s : Nat) : Bool := decide (c.fuse (2048 + 2 * s) 2 ≠ 0)
def Chip.rootValid (c : Chip) (s : Nat) : Bool := c.rootDone s && !c.rootRevoked s

/-- The hash of a root slot: its fuse words hold the hash with byte 4w in bits 31:24 (R376, SEC_FUSE_DATA). -/
def Chip.rootHash (c : Chip) (s : Nat) : List Byte := (List.range 16).flatMap (fun w => beBytes 4 (c.fuse (512 * s + 32 * w) 32))

/-- COUNT of ALM_ARB: the blown bits of the thermometer (R376). -/
def Chip.arbCount (c : Chip) : Nat := popCount 63 (c.fuse 2056 63)

/-- The debug lock is blown (R405). -/
def Chip.debugLocked (c : Chip) : Bool := decide (c.fuse 2120 8 ≠ 0)

/-- Rights ceilings and signing scopes (R376). -/
def Chip.roleCeil (c : Chip) (r : Nat) : Nat := if c.groupDone 6 then c.fuse (2128 + 16 * r) 16 else 0x7FFF
def Chip.mcuRights (c : Chip) : Nat := if c.groupDone 7 then c.fuse 2256 16 else 0x02FF
def Chip.signScope (c : Chip) (s : Nat) : Nat := if c.groupDone 8 then c.fuse (2272 + 10 * s) 10 else 0x3FF

/-- Blow the bits of a value at a place of the array; a bit never returns to 0. -/
def blow (fs lsb v : Nat) : Nat := fs ||| (v * 2 ^ lsb)

/-- The bits that a group takes from the words of SEC_FUSE_DATA. REVOKE blows both bits of a slot and DEBUG all eight (log entry 25). -/
def fuseBits (group : Nat) (ws : List Nat) : Nat :=
  have w := fun (i : Nat) => ws.getD i 0
  match group with
  | 4 => ((List.range 4).filter (fun s => bit (w 0) s)).foldl (fun a s => blow a (2048 + 2 * s) 3) 0
  | 5 => blow 0 2120 255
  | 6 => (List.range 4).foldl (fun a i => blow a (2128 + 32 * i) (w i)) 0
  | 7 => blow 0 2256 (w 0 % 65536)
  | 8 => (List.range 4).foldl (fun a s => blow a (2272 + 10 * s) (w s % 1024)) 0
  | 9 => blow (blow 0 2312 (w 0)) 2344 (w 1 % 256)
  | g => (List.range 16).foldl (fun a i => blow a (512 * g + 32 * i) (w i)) 0

/-- The fields of the GUARD group lie in their ranges (R376). -/
def guardOk (ws : List Nat) : Bool :=
  have l := sgn 16 (ws.getD 0 0)
  have sl := ws.getD 0 0 / 65536
  have d := ws.getD 1 0 % 256
  decide (-30 ≤ l ∧ l ≤ 90 ∧ 1 ≤ sl ∧ sl ≤ 10000 ∧ 1 ≤ d ∧ d ≤ 100)

/-- R377: a programming of the group with these words is refused. -/
def Chip.fuseRefused (c : Chip) (group : Nat) (ws : List Nat) : Bool :=
  (decide (group ≤ 3 ∨ 6 ≤ group) && (c.groupDone group || decide (c.rg R.TRK_MODE_CODE 0 ≠ 0))) ||
  (decide (group = 9) && !guardOk ws) ||
  (decide (group = 4) && !((List.range 4).any (fun s => c.rootValid s && !bit (ws.getD 0 0) s)))

/-- GO in SEC_FUSE_CTRL (R377): `supplyOk` tells that VIN12 lies within 10.8 V to 13.2 V. -/
def fuseProgram (group : Nat) (supplyOk : Bool) (c : Chip) : Chip × Nat :=
  if group > 9 ∨ c.sec.fuseOp.isSome then (c, stRefused)
  else
    have ws := (List.range 16).map (fun w => c.rg R.SEC_FUSE_DATA_DATA w)
    have c := forN 16 (fun w d => d.wg R.SEC_FUSE_DATA_DATA w 0) (c.wg R.SEC_FUSE_CTRL_GROUP 0 group)
    if c.fuseRefused group ws then (c.wg R.SEC_FUSE_CTRL_RESULT 0 1, stRefused)
    else if supplyOk = false then (c.wg R.SEC_FUSE_CTRL_RESULT 0 2, stRefused)
    else
      have c := (c.wg R.SEC_FUSE_CTRL_BUSY 0 1).wg R.SEC_FUSE_CTRL_RESULT 0 0
      ({ c with sec.fuseOp := some (group, ws) }, stOk)

def execFuseProgram (t : Nat) (group : Fin 16) (supplyOk : Bool) (s : State) : Host.Outcome State Fault Refusal :=
  s.on t (fun _ c => c.answeredIn 3 (fuseProgram group supplyOk))

/-- The programming ends: verified, the bits are blown with their check code; with RESULT VERIFY, which of the bits are blown is open
(log entry 25). -/
def fuseProgramDone (verified : Bool) (c : Chip) : Chip :=
  match c.sec.fuseOp with
  | none => c
  | some (g, ws) =>
    have r := c.draw
    have c := if verified then c else r.2
    have v := if verified then fuseBits g ws else fuseBits g ws &&& r.1
    have fs := c.sec.fuses ||| v
    have done := if verified then setBit c.sec.fuseDone g else c.sec.fuseDone
    have c := ((c.wg R.SEC_FUSE_CTRL_BUSY 0 0).wg R.SEC_FUSE_CTRL_RESULT 0 (if verified then 0 else 3)).wg R.SEC_EVT_DONE 0 1
    { c with sec.fuses := fs, sec.fuseImg := fs, sec.fuseDone := done, sec.fuseOp := none }

def execFuseProgramDone (t : Nat) (verified : Bool) (s : State) : Host.Outcome State Fault Refusal :=
  s.on t (fun _ c => fuseProgramDone verified c)

/-! ## Measurement (R381) -/

/-- M = sha3_512(M, type byte, d). -/
def Chip.extendM (c : Chip) (typ : Nat) (d : List Byte) : Chip :=
  { (c.wg R.SEC_MEAS_CNT_COUNT 0 (c.rg R.SEC_MEAS_CNT_COUNT 0 + 1)) with sec.meas := sha3_512 (c.sec.meas ++ beBytes 1 typ ++ d) }

/-- M as step 1 of the boot leaves it. -/
def Chip.extendRom (c : Chip) : Chip :=
  ({ (c.wg R.SEC_MEAS_CNT_COUNT 0 0) with sec.meas := List.replicate 64 0 }).extendM 1 (beBytes 64 Config.romDigest.toNat)

/-! ## Erasure (R400, R401) -/

/-- Split upstream frames that lose their allocation: their remaining data is discarded and counted in STOMPED (R195). -/
def Chip.loseSplits (c : Chip) (p : SplitFrame → Bool) : Chip :=
  have c := (c.up.splits.filter p).foldl (fun d x => d.inc C.TRK_US_STOMPED x.ch) c
  { c with up.splits := c.up.splits.filter (fun (x : SplitFrame) => !p x) }

/-- Split upstream frames under the keys that satisfy a condition end as stomped frames (R144, R393). -/
def Chip.stompSplits (c : Chip) (p : Nat → Bool) : Chip :=
  have hit := c.up.splits.filter (fun (x : SplitFrame) => p x.key)
  have c := hit.foldl (fun d x => d.inc C.TRK_US_STOMPED x.ch) c
  { c with up.splits := c.up.splits.filter (fun (x : SplitFrame) => !p x.key), up.owedAborts := c.up.owedAborts ++ hit.map (fun (x : SplitFrame) => (4096 * x.ch + x.alloc, x.tag)) }

/-- Every key store that R400 names becomes empty, and the sessions close. -/
def Chip.eraseKeys (c : Chip) : Chip :=
  have c := c.sessCloseAll 5
  have c := forN 4 (fun w d => d.wg R.SEC_VLT_OUT_BLOCK w 0) c
  have c := forN 255 (fun i d => if d.rg R.SEC_KIDX_STAT_DOWN i = 0 ∧ d.rg R.SEC_KIDX_STAT_UP i = 0 then d
    else (d.wg R.SEC_KIDX_STAT_DOWN i 0).wg R.SEC_KIDX_STAT_UP i 0) c
  have c := forN 128 (fun p d => if d.rg R.SEC_MS_STAT_TX_SA p = 0 ∧ d.rg R.SEC_MS_STAT_RX_SA p = 0 then d
    else (d.wg R.SEC_MS_STAT_TX_SA p 0).wg R.SEC_MS_STAT_RX_SA p 0) c
  have c := (c.wg R.TRK_TERM_ID_MMK 0 0).wg R.SEC_STAT_ID_READY 0 0
  have c := (c.stompSplits (fun k => decide (k ≠ 0))).wg R.SEC_ALARM_STAT_ERASED 0 1
  have scratch := c.mc.lmem.map (fun (x : Nat × Tab Byte) => (x.1, x.2.filter (fun (e : Nat × Byte) => decide (e.1 < 0x3C000 ∨ 0x40000 ≤ e.1))))
  { c with sec.vault := [], sec.trunkKeys := [], sec.msTx := [], sec.msRx := [], sec.offer := none, mc.lmem := scratch }

/-- An erasure aborts an MK_ANSWER in progress with RESULT ALARM (R392, R400). -/
def Chip.abortAnswer (c : Chip) : Chip :=
  match c.sec.mkOp with
  | some (2, _) =>
    have c := (((c.wg R.SEC_MK_CTRL_BUSY 0 0).wg R.SEC_MK_CTRL_RESULT 0 5).inc C.SEC_MK_FAIL 0).wg R.SEC_EVT_DONE 0 1
    { c with sec.mkOp := none }
  | _ => c

/-! ## Alarms (R399 to R403) -/

/-- ACTION, USED, MINW and STUCK of an alarm source (R403). -/
def Chip.alarmAction (c : Chip) (n : Nat) : Nat := match c.obj 0x0903 n with
  | some b => byteAt b 0
  | none => 0
def Chip.alarmUsed (c : Chip) (n : Nat) : Bool := match c.obj 0x0903 n with
  | some b => bit (byteAt b 1) 0 || !decide (n = 3 ∨ n = 4)
  | none => true
def Chip.alarmStuck (c : Chip) (n : Nat) : Nat := match c.obj 0x0903 n with
  | some b => half b 4
  | none => 0

/-- From the first alarm until every source that has alarmed is released (R402). -/
def Chip.alarmHolds (c : Chip) : Bool := decide (c.rg R.SEC_ALARM_STAT_RELEASE 0 ≠ 0)

/-- Alarms of the sources in a mask start together (R400): one erasure, every source bit. A source that is not used, or masked, or
holds already, starts none. -/
def Chip.alarmStart (c : Chip) (mask : Nat) : Chip :=
  have srcs := (List.range 8).filter (fun n => bit mask n && c.alarmUsed n && !c.rbit R.SEC_ALARM_STAT_ACTIVE 0 n &&
    !(decide (n = 3 ∨ n = 4) && c.rbit R.SEC_ALARM_STAT_MASKED 0 (n - 3)))
  match srcs with
  | [] => c
  | f :: _ =>
    have c := srcs.foldl (fun d n => ((d.wbit R.SEC_ALARM_STAT_ACTIVE 0 n true).wbit R.SEC_ALARM_STAT_RELEASE 0 n true).inc C.SEC_ALARM_EVENTS 0) c
    have c := if c.sec.firstSet then c else { (c.wg R.SEC_ALARM_STAT_FIRST 0 f) with sec.firstSet := true }
    have c := ((c.wg R.SEC_EVT_ALARM 0 1).abortAnswer.eraseKeys).inc C.SEC_ERASURES 0
    { c with sec.idDue := true }

/-- A change of a tamper input less than 1 ms after the one before it is coalesced with it (R403). -/
def Chip.tamperFast (c : Chip) (n : Nat) : Bool := match c.sec.tamperAt.find n with
  | some a => decide (c.now < a + msPs)
  | none => false

/-- Conditions of alarm sources start, after the filter of R399. A tamper change that is coalesced is counted and joins the alarm
that goes before it. -/
def alarmStart (mask : Nat) (c : Chip) : Chip :=
  have fast := (List.range 8).filter (fun n => bit mask n && decide (n = 3 ∨ n = 4) && c.tamperFast n && !c.rbit R.SEC_ALARM_STAT_MASKED 0 (n - 3))
  have c1 := fast.foldl (fun d n =>
    have d := d.inc C.SEC_TAMPER_OVERRUN 0
    if d.rbit R.SEC_ALARM_STAT_RELEASE 0 n then d.wbit R.SEC_ALARM_STAT_ACTIVE 0 n true else d) c
  have c2 := c1.alarmStart mask
  forN 2 (fun j d => if bit mask (3 + j) && !d.rbit R.SEC_ALARM_STAT_MASKED 0 j then { d with sec.tamperAt := d.sec.tamperAt.set (3 + j) d.now } else d) c2

def execAlarmStart (t : Nat) (mask : Nat) (s : State) : Host.Outcome State Fault Refusal :=
  s.on t (fun _ c => alarmStart mask c)

/-- The condition of a source ends (R402): a tamper input that goes high also loses its mask (R403). -/
def alarmEnd (n : Nat) (c : Chip) : Chip :=
  have c := if n = 3 ∨ n = 4 then
      have c := if c.tamperFast n then c.inc C.SEC_TAMPER_OVERRUN 0 else c
      { (c.wbit R.SEC_ALARM_STAT_MASKED 0 (n - 3) false) with sec.tamperAt := c.sec.tamperAt.set n c.now }
    else c
  if c.rbit R.SEC_ALARM_STAT_ACTIVE 0 n then
    { (c.wbit R.SEC_ALARM_STAT_ACTIVE 0 n false) with sec.almEnd := c.sec.almEnd.set n c.now }
  else c

def execAlarmEnd (t : Nat) (n : Fin 8) (s : State) : Host.Outcome State Fault Refusal :=
  s.on t (fun _ c => alarmEnd n c)

/-- A source with ACTION 0 is released 1 s after its condition ended (R402). -/
def alarmAutoRelease (n : Nat) (c : Chip) : Chip :=
  if c.rbit R.SEC_ALARM_STAT_RELEASE 0 n ∧ c.rbit R.SEC_ALARM_STAT_ACTIVE 0 n = false ∧ c.alarmAction n = 0 ∧
      Tab.get 0 c.sec.almEnd n + secPs ≤ c.now then c.wbit R.SEC_ALARM_STAT_RELEASE 0 n false
  else c

def execAlarmAutoRelease (t : Nat) (n : Fin 8) (s : State) : Host.Outcome State Fault Refusal :=
  s.on t (fun _ c => alarmAutoRelease n c)

/-- A host write of 1 to bits of RELEASE: sources with ACTION 1 whose condition has ended are released (R402). -/
def alarmRelease (mask : Nat) (c : Chip) : Chip × Nat :=
  (forN 8 (fun n d => if bit mask n && !d.rbit R.SEC_ALARM_STAT_ACTIVE 0 n && decide (d.alarmAction n = 1) then d.wbit R.SEC_ALARM_STAT_RELEASE 0 n false else d) c, stOk)

def execAlarmRelease (t mask : Nat) (s : State) : Host.Outcome State Fault Refusal :=
  s.on t (fun _ c => c.answeredIn 3 (alarmRelease mask))

/-- The identity key pair is derived again after the last release (R402); not while a health test fails (R398). -/
def idDerive (c : Chip) : Chip :=
  if c.sec.idDue = true ∧ c.alarmHolds = false ∧ c.sec.entBad = false ∧ c.pw.evStep < 3 then { (c.wg R.SEC_STAT_ID_READY 0 1) with sec.idDue := false } else c

def execIdDerive (t : Nat) (s : State) : Host.Outcome State Fault Refusal := s.on t (fun _ c => idDerive c)

/-- A TAMPER_N input held low for STUCK is masked, and its alarm ends (R403). -/
def tamperStuck (j : Nat) (c : Chip) : Chip :=
  have n := 3 + j
  have st := c.alarmStuck n
  if st ≠ 0 ∧ c.rbit R.SEC_ALARM_STAT_ACTIVE 0 n = true ∧ Tab.get 0 c.sec.tamperAt n + st * secPs ≤ c.now then
    { ((c.wbit R.SEC_ALARM_STAT_MASKED 0 j true).wbit R.SEC_ALARM_STAT_ACTIVE 0 n false) with sec.almEnd := c.sec.almEnd.set n c.now }
  else c

def execTamperStuck (t : Nat) (j : Fin 2) (s : State) : Host.Outcome State Fault Refusal :=
  s.on t (fun _ c => tamperStuck j c)

/-- Every 1 s the array is compared with its image of boot time (R378); `grown` are the bits that read blown without a programming. -/
def fuseCheck (grown : Nat) (c : Chip) : Chip :=
  if c.now < c.sec.fuseChkAt + secPs then c
  else
    have c := { c with sec.fuses := c.sec.fuses ||| (grown % 2 ^ 8192), sec.fuseChkAt := c.now }
    if c.sec.fuses = c.sec.fuseImg then c else c.alarmStart (2 ^ 6)

def execFuseCheck (t grown : Nat) (s : State) : Host.Outcome State Fault Refusal :=
  s.on t (fun _ c => fuseCheck grown c)

/-! ## Entropy (R398) -/

/-- A health test of the noise source fails. -/
def entropyFail (c : Chip) : Chip :=
  { (((c.wg R.SEC_STAT_ENT_OK 0 0).wg R.SEC_EVT_ENT_FAIL 0 1).inc C.SEC_ENT_FAIL 0) with sec.entBad := true }

def execEntropyFail (t : Nat) (s : State) : Host.Outcome State Fault Refusal := s.on t (fun _ c => entropyFail c)

/-- 1,024 consecutive healthy samples. -/
def entropyRecover (c : Chip) : Chip := { (c.wg R.SEC_STAT_ENT_OK 0 1) with sec.entBad := false }

def execEntropyRecover (t : Nat) (s : State) : Host.Outcome State Fault Refusal := s.on t (fun _ c => entropyRecover c)

/-! ## Scan and debug (R404, R405) -/

/-- The interlock: erasure, the check of every key register for zero (`clear`), then SCAN_EN or a CHIP_UNIT error. -/
def Chip.scanInterlock (c : Chip) (clear : Bool) : Chip :=
  have c := { (c.abortAnswer.eraseKeys.inc C.SEC_SCAN_CLEAR 0) with sec.idDue := true }
  if clear then c.wg R.SEC_STAT_SCAN_EN 0 1 else c.errChip (c.mkErr 0x11 13 0 3 2 13)

/-- A scan request from the self-test of EVENTIDE, or from a JTAG scan instruction, which acts as BYPASS unless debug is open. -/
def scanInterlock (jtag clear : Bool) (c : Chip) : Chip :=
  if jtag = true then (if c.rb R.SEC_DEBUG_EN 0 then c.scanInterlock clear else c)
  else if c.rg R.TRK_MODE_CODE 0 = 11 then c.scanInterlock clear else c

def execScanInterlock (t : Nat) (jtag clear : Bool) (s : State) : Host.Outcome State Fault Refusal :=
  s.on t (fun _ c => scanInterlock jtag clear c)

/-- SEC_DEBUG.EN written to 1 (R405): refused with the lock blown; otherwise it raises the DEBUG alarm. -/
def debugEnable (c : Chip) : Chip × Nat :=
  if c.debugLocked then (c, stRefused) else ((c.wg R.SEC_DEBUG_EN 0 1).alarmStart (2 ^ 7), stOk)

def execDebugEnable (t : Nat) (s : State) : Host.Outcome State Fault Refusal := s.on t (fun _ c => c.answeredIn 3 debugEnable)

/-! ## Flash (R380, R406) -/

/-- DDR5 capacity in bytes (MEM_DDR_STAT.CAP). -/
def Chip.ddrCap (c : Chip) : Nat := c.rg R.MEM_DDR_STAT_CAP 0 * 2 ^ 30

/-- The DDR5 window answers: MEM is ON and DDR5 is trained (R453, R464). -/
def Chip.ddrOk (c : Chip) : Bool := c.domOn 4 && c.rb R.MEM_DDR_STAT_TRAINED 0

/-- GO of SEC_FLASH_CTRL with an OP: refused while BUSY; RESULT REFUSED for an address off the OP's size or outside its area. -/
def flashGo (op : Nat) (c : Chip) : Chip × Nat :=
  if c.sec.flashOp.isSome ∨ op = 0 ∨ op > 3 then (c, stRefused)
  else
    have a := c.rg R.SEC_FLASH_ADDR_ADDR 0
    have d := c.rg R.SEC_FLASH_DDR_ADDR4K 0 * 4096
    have size := if op = 1 then 65536 else 4096
    have c := c.wg R.SEC_FLASH_CTRL_OP 0 op
    have area := decide (a < 0x40000000) || (decide (op = 3) && decide (a < 0x40004000))
    have buf := c.domOn 4 && (decide (op = 1) || (c.ddrOk && decide (d + 4096 ≤ c.ddrCap)))
    if a % size = 0 ∧ area = true ∧ buf = true then
      ({ ((c.wg R.SEC_FLASH_CTRL_BUSY 0 1).wg R.SEC_FLASH_CTRL_RESULT 0 0) with sec.flashOp := some (op, a, d) }, stOk)
    else (c.wg R.SEC_FLASH_CTRL_RESULT 0 1, stRefused)

def execFlashErase (t : Nat) (s : State) : Host.Outcome State Fault Refusal := s.on t (fun _ c => c.answeredIn 3 (flashGo 1))
def execFlashProgram (t : Nat) (s : State) : Host.Outcome State Fault Refusal := s.on t (fun _ c => c.answeredIn 3 (flashGo 2))
def execFlashRead (t : Nat) (s : State) : Host.Outcome State Fault Refusal := s.on t (fun _ c => c.answeredIn 3 (flashGo 3))

/-- The operation ends; with an error RESULT is ERROR, and what an erase or a program left of its area is open (log entry 26). -/
def flashOpDone (m : Mem) (ok : Bool) (c : Chip) : Chip :=
  match c.sec.flashOp with
  | none => c
  | some (op, a, d) =>
    have c := { ((c.wg R.SEC_FLASH_CTRL_BUSY 0 0).wg R.SEC_EVT_DONE 0 1) with sec.flashOp := none }
    if ok then
      have c := c.wg R.SEC_FLASH_CTRL_RESULT 0 0
      match op with
      | 1 => c.mem (.erase a 65536)
      | 2 => c.mem (.flash a (m.ddrRead d 4096))
      | _ => c.mem (.ddr d (if a < 0x40000000 then m.flashRead a 4096 else (List.range 4096).map (fun i => Config.idCert (a - 0x40000000 + i))))
    else
      have c := c.wg R.SEC_FLASH_CTRL_RESULT 0 2
      have r := c.draw
      have junk := fun (n : Nat) => (List.range n).map (fun i => BitVec.ofNat 8 (r.1 / 256 ^ i))
      match op with
      | 1 => r.2.mem (.flash a (junk 65536))
      | 2 => r.2.mem (.flash a (junk 4096))
      | _ => r.2.mem (.ddr d (junk 4096))

def execFlashOpDone (t : Nat) (ok : Bool) (s : State) : Host.Outcome State Fault Refusal :=
  s.on t (fun m c => flashOpDone m ok c)

/-! ## The management key (R391, R392) -/

/-- A management-key operation ends with a RESULT. -/
def Chip.mkEnd (c : Chip) (result : Nat) : Chip :=
  have c := if result = 0 then c else c.inc C.SEC_MK_FAIL 0
  { (((c.wg R.SEC_MK_CTRL_BUSY 0 0).wg R.SEC_MK_CTRL_RESULT 0 result).wg R.SEC_EVT_DONE 0 1) with sec.mkOp := none }

/-- An operation is refused with a RESULT. -/
def Chip.mkRefuse (c : Chip) (result : Nat) : Chip × Nat := ((c.wg R.SEC_MK_CTRL_RESULT 0 result).inc C.SEC_MK_FAIL 0, stRefused)

/-- GO of SEC_MK_CTRL with OP 1: refused outside RANGING, OPERATIONAL and JUBILEE, while a health test fails, or while the identity
key that signs it does not exist. -/
def mkOffer (c : Chip) : Chip × Nat :=
  have mode := c.rg R.TRK_MODE_CODE 0
  if c.sec.mkOp.isSome then (c, stRefused)
  else if ¬(mode = 4 ∨ mode = 5 ∨ mode = 10) then (c, stRefused)
  else if c.sec.entBad = true ∨ c.rb R.SEC_STAT_ID_READY 0 = false then (c.wg R.SEC_MK_CTRL_OP 0 1).mkRefuse 5
  else
    have c := ((c.wg R.SEC_MK_CTRL_OP 0 1).wg R.SEC_MK_CTRL_BUSY 0 1).wg R.SEC_MK_CTRL_RESULT 0 0
    ({ c with sec.offer := none, sec.mkOp := some (1, []) }, stOk)

def execMkOffer (t : Nat) (s : State) : Host.Outcome State Fault Refusal := s.on t (fun _ c => c.answeredIn 3 mkOffer)

/-- Bytes of an MK_ANSWER body (R391). -/
def mkAnswerLen : Nat := 8820

/-- GO with OP 2: refused while an alarm holds (R402). The body is taken from DDR5. -/
def mkAnswer (m : Mem) (c : Chip) : Chip × Nat :=
  if c.sec.mkOp.isSome then (c, stRefused)
  else if c.alarmHolds then (c.wg R.SEC_MK_CTRL_OP 0 2).mkRefuse 5
  else
    have b := if c.ddrOk then m.ddrRead (c.rg R.SEC_MK_ADDR_ADDR4K 0 * 4096) mkAnswerLen else []
    have c := ((c.wg R.SEC_MK_CTRL_OP 0 2).wg R.SEC_MK_CTRL_BUSY 0 1).wg R.SEC_MK_CTRL_RESULT 0 0
    ({ c with sec.mkOp := some (2, b) }, stOk)

def execMkAnswer (t : Nat) (s : State) : Host.Outcome State Fault Refusal := s.on t (fun m c => c.answeredIn 3 (mkAnswer m))

/-- The identity public key and the bytes of a signature (R385). -/
def Chip.idPub (c : Chip) : List Byte :=
  have seed := (sha3_512 (ascii "KQ-ID" ++ beBytes 32 (c.fuse 2560 256) ++ c.serial)).take 32
  beBytes 2592 (Config.idPublic seed).toNat
def signed (ctx : String) (msg : List Byte) : List Byte := beBytes 4627 (Config.mldsaSign (ascii ctx) msg).toNat

/-- The body of an MK_OFFER, drawn from the generator (R391). -/
def Chip.offerBody (c : Chip) (nonce rand : Nat) : List Byte :=
  have head := beBytes 32 nonce ++ beBytes 1568 (Config.mlkemKey rand).toNat ++ c.idPub
  head ++ signed "KQ-MK-T" head ++ [0]

/-- Is a digest listed in KEY_INDEX INSTANCE 0 (R394)? -/
def Chip.headEndKey (c : Chip) (d : List Byte) : Bool := match c.obj 0x0902 0 with
  | some b => (List.range (byteAt b 0)).any (fun i => decide (slice b (8 + 64 * i) 64 = d))
  | none => false

/-- The operation completes (R392). An answer is checked in order: its form, its nonce, its key, its signature; then the
management key enters vault slot 0. -/
def mkOpDone (c : Chip) : Chip :=
  match c.sec.mkOp with
  | none => c
  | some (1, _) =>
    if c.rb R.SEC_STAT_ID_READY 0 = false then c.mkEnd 5
    else
      have r1 := c.draw
      have r2 := r1.2.draw
      have body := r2.2.offerBody r1.1 r2.1
      have d := r2.2.mem (.ddr (c.rg R.SEC_MK_ADDR_ADDR4K 0 * 4096) body)
      { (d.mkEnd 0) with sec.offer := some { rand := r2.1, body := body.take 4192 } }
  | some (_, b) =>
    match c.sec.offer with
    | none => c.mkEnd (if b.length = mkAnswerLen ∧ byteAt b 8819 = 0 then 3 else 4)
    | some o =>
      if ¬(b.length = mkAnswerLen ∧ byteAt b 8819 = 0) then c.mkEnd 4
      else if b.take 32 ≠ o.body.take 32 then c.mkEnd 3
      else if c.headEndKey (sha3_512 (slice b 1600 2592)) = false then c.mkEnd 1
      else
        have th := sha3_512 (o.body ++ b.take 4192)
        if Config.mldsaVerify (slice b 1600 2592) (ascii "KQ-MK-H") th (slice b 4192 4627) = false then c.mkEnd 2 else
        have key := (sha3_512 (beBytes 32 (Config.mlkemDec o.rand (slice b 32 1568)).toNat ++ th)).take 32
        have d := (c.mkEnd 0).wg R.TRK_TERM_ID_MMK 0 1
        { d with sec.vault := d.sec.vault.set 0 key, sec.offer := none }

def execMkOpDone (t : Nat) (s : State) : Host.Outcome State Fault Refusal :=
  s.on t (fun _ c => mkOpDone c)

/-- The management key is erased (R119, R400). -/
def Chip.eraseMgmt (c : Chip) : Chip := { (c.wg R.TRK_TERM_ID_MMK 0 0) with sec.vault := c.sec.vault.erase 0, sec.offer := none }

/-! ## Key loads (R393 to R397, SEC_KEY_CTRL) -/

/-- Words of SEC_KEY_DATA and SEC_KEY_AUX as bytes. -/
def Chip.keyData (c : Chip) : List Byte := (List.range 8).flatMap (fun w => beBytes 4 (c.rg R.SEC_KEY_DATA_KEY w))
def Chip.keyAux (c : Chip) (w : Nat) : Nat := c.rg R.SEC_KEY_AUX_AUX w

/-- KEY_DATA and KEY_AUX are cleared by GO. -/
def Chip.keyClear (c : Chip) : Chip := forN 6 (fun w d => d.wg R.SEC_KEY_AUX_AUX w 0) (forN 8 (fun w d => d.wg R.SEC_KEY_DATA_KEY w 0) c)

/-- A GO of SEC_KEY_CTRL: refused while an alarm holds (RESULT ALARM) or where the policy does not permit it (RESULT POLICY). -/
def Chip.keyGo (c : Chip) (target : Nat) (permitted : Bool) (f : Chip → Chip) : Chip × Nat :=
  have c := c.wg R.SEC_KEY_CTRL_TARGET 0 target
  if c.alarmHolds then (((c.wg R.SEC_KEY_CTRL_RESULT 0 2).inc C.SEC_KEY_REFUSED 0).keyClear, stRefused)
  else if permitted = false then (((c.wg R.SEC_KEY_CTRL_RESULT 0 1).inc C.SEC_KEY_REFUSED 0).keyClear, stRefused)
  else ((((f c).wg R.SEC_KEY_CTRL_RESULT 0 0).inc C.SEC_KEY_LOADS 0).keyClear, stOk)

/-- Does a KEY_INDEX record permit a direction of an index (R394)? -/
def Chip.keyPermits (c : Chip) (i dir : Nat) : Bool :=
  decide (1 ≤ i ∧ i ≤ 254) && (match c.obj 0x0902 i with
    | some b => bit (byteAt b 0) dir
    | none => false)

/-- A trunk key of an index and a direction is put in (R393); DISABLED clears. -/
def Chip.trunkKeySet (c : Chip) (i dir : Nat) : Chip :=
  have c := (if dir = 0 then c.wg R.SEC_KIDX_STAT_DOWN i 1 else c.wg R.SEC_KIDX_STAT_UP i 1).wg R.SEC_KIDX_STAT_DISABLED i 0
  { c with sec.trunkKeys := c.sec.trunkKeys.set (2 * i + dir) c.keyData }

/-- Load of a trunk key, direction 0 downstream, 1 upstream. -/
def keyLoadTrunk (dir : Nat) (c : Chip) : Chip × Nat :=
  have i := c.rg R.SEC_KEY_SEL_INDEX 0
  c.keyGo dir (c.keyPermits i dir) (fun d => d.trunkKeySet i dir)

def execKeyLoadTrunkDown (t : Nat) (s : State) : Host.Outcome State Fault Refusal := s.on t (fun _ c => c.answeredIn 3 (keyLoadTrunk 0))
def execKeyLoadTrunkUp (t : Nat) (s : State) : Host.Outcome State Fault Refusal := s.on t (fun _ c => c.answeredIn 3 (keyLoadTrunk 1))

/-- A transmit SA of a port: it is used from the next frame that starts (R396). -/
def keyLoadMacsecTx (c : Chip) : Chip × Nat :=
  have p := c.rg R.SEC_KEY_SEL_PORT 0
  have an := c.rg R.SEC_KEY_SEL_AN 0
  c.keyGo 2 true (fun d =>
    have sa : MsTx := { sak := d.keyData, salt := (List.range 3).flatMap (fun w => beBytes 4 (d.keyAux w)), ssci := d.keyAux 3, pn := d.keyAux 4 * 4294967296 + d.keyAux 5 }
    have d := { d with sec.msTx := d.sec.msTx.set (4 * p + an) sa }
    ((d.wg R.SEC_MS_STAT_TX_AN p an).wg R.SEC_MS_STAT_TX_SA p 1).wg R.SEC_MS_STAT_PN_EXH p 0)

def execKeyLoadMacsecTx (t : Nat) (s : State) : Host.Outcome State Fault Refusal := s.on t (fun _ c => c.answeredIn 3 keyLoadMacsecTx)

/-- A receive SA of a channel of a port. -/
def keyLoadMacsecRx (c : Chip) : Chip × Nat :=
  have p := c.rg R.SEC_KEY_SEL_PORT 0
  have k := 4 * c.rg R.SEC_KEY_SEL_SC 0 + c.rg R.SEC_KEY_SEL_AN 0
  c.keyGo 3 true (fun d =>
    have sa : MsRx := { sak := d.keyData, salt := (List.range 3).flatMap (fun w => beBytes 4 (d.keyAux w)), ssci := d.keyAux 3, sci := d.keyAux 4 * 4294967296 + d.keyAux 5, next := 0 }
    ({ d with sec.msRx := d.sec.msRx.set (16 * p + k) sa }).wbit R.SEC_MS_STAT_RX_SA p k true)

def execKeyLoadMacsecRx (t : Nat) (s : State) : Host.Outcome State Fault Refusal := s.on t (fun _ c => c.answeredIn 3 keyLoadMacsecRx)

/-- A vault slot, 1 to 7 (R397). -/
def keyLoadVault (c : Chip) : Chip × Nat :=
  have i := c.rg R.SEC_KEY_SEL_INDEX 0
  c.keyGo 4 (decide (1 ≤ i ∧ i ≤ 7)) (fun d => { d with sec.vault := d.sec.vault.set i d.keyData })

def execKeyLoadVault (t : Nat) (s : State) : Host.Outcome State Fault Refusal := s.on t (fun _ c => c.answeredIn 3 keyLoadVault)

/-- Erase the key that TARGET ETARGET would load. An upstream frame that is partly placed under it is stomped (R393). -/
def keyErase (c : Chip) : Chip × Nat :=
  have i := c.rg R.SEC_KEY_SEL_INDEX 0
  have p := c.rg R.SEC_KEY_SEL_PORT 0
  have an := c.rg R.SEC_KEY_SEL_AN 0
  have k := 4 * c.rg R.SEC_KEY_SEL_SC 0 + an
  match c.rg R.SEC_KEY_SEL_ETARGET 0 with
  | 0 => c.keyGo 5 (decide (1 ≤ i ∧ i ≤ 254)) (fun d => { (d.wg R.SEC_KIDX_STAT_DOWN i 0) with sec.trunkKeys := d.sec.trunkKeys.erase (2 * i) })
  | 1 => c.keyGo 5 (decide (1 ≤ i ∧ i ≤ 254)) (fun d =>
      { ((d.wg R.SEC_KIDX_STAT_UP i 0).stompSplits (fun x => decide (x = i))) with sec.trunkKeys := d.sec.trunkKeys.erase (2 * i + 1) })
  | 2 => c.keyGo 5 true (fun d =>
      have d := if d.rg R.SEC_MS_STAT_TX_AN p = an then d.wg R.SEC_MS_STAT_TX_SA p 0 else d
      { d with sec.msTx := d.sec.msTx.erase (4 * p + an) })
  | 3 => c.keyGo 5 true (fun d => { (d.wbit R.SEC_MS_STAT_RX_SA p k false) with sec.msRx := d.sec.msRx.erase (16 * p + k) })
  | 4 => c.keyGo 5 (decide (1 ≤ i ∧ i ≤ 7)) (fun d => { d with sec.vault := d.sec.vault.erase i })
  | _ => (c, stRefused)

def execKeyErase (t : Nat) (s : State) : Host.Outcome State Fault Refusal := s.on t (fun _ c => c.answeredIn 3 keyErase)

/-! ## The vault (R397) -/

/-- GO of SEC_VLT_CTRL by a core: one block of SEC_VLT_IN under a slot into SEC_VLT_OUT, which is cleared first. -/
def vaultGo (op core slot : Nat) (c : Chip) : Chip × Nat :=
  have c := forN 4 (fun w d => d.wg R.SEC_VLT_OUT_BLOCK w 0) ((c.wg R.SEC_VLT_CTRL_OP 0 op).wg R.SEC_VLT_CTRL_SLOT 0 slot)
  have c := { c with sec.vltCore := core }
  match c.sec.vault.find slot with
  | none => (c.wg R.SEC_VLT_CTRL_RESULT 0 1, stOk)
  | some key =>
    have inp := (List.range 4).flatMap (fun w => beBytes 4 (c.rg R.SEC_VLT_IN_BLOCK w))
    have out := (Config.aesBlock (decide (op = 1)) key inp).toNat
    (forN 4 (fun w d => d.wg R.SEC_VLT_OUT_BLOCK w (out / 2 ^ (32 * (3 - w)))) (c.wg R.SEC_VLT_CTRL_RESULT 0 0), stOk)

def execVaultEncrypt (t : Nat) (core : Fin 16) (slot : Fin 8) (s : State) : Host.Outcome State Fault Refusal :=
  s.on t (fun _ c => c.answeredIn 3 (vaultGo 1 core slot))
def execVaultDecrypt (t : Nat) (core : Fin 16) (slot : Fin 8) (s : State) : Host.Outcome State Fault Refusal :=
  s.on t (fun _ c => c.answeredIn 3 (vaultGo 2 core slot))

/-! ## Firmware images (R379, R384) -/

/-- Does the SIGNATURE of an image verify under its FW_KEY (R379)? -/
def imageSigned (b : List Byte) : Bool :=
  have bl := beAt b 16 4
  Config.mldsaVerify (slice b (64 + bl) 2592) (ascii "KQ-FW") (sha3_512 (b.take (64 + bl))) (slice b (2656 + bl) 4627)

/-- Failure causes of an image, as SEC_BOOT_STAT.CAUSE codes them; 0 for a valid image. -/
def Chip.imageCause (c : Chip) (b : List Byte) (len kind : Nat) : Nat :=
  have bl := beAt b 16 4
  have lim := if kind = 1 then 229376 else 67108864
  have zero := (slice b 5 3).all (fun x => decide (x = 0)) && (slice b 20 44).all (fun x => decide (x = 0)) && (slice b (7283 + bl) 13).all (fun x => decide (x = 0))
  if beAt b 0 4 ≠ 0x4B51464D ∨ byteAt b 4 ≠ kind ∨ zero = false ∨ bl < 16 ∨ bl > lim ∨ bl % 16 ≠ 0 ∨ len ≠ 7296 + bl then 2
  else if sha3_512 (slice b (64 + bl) 2592) ≠ beBytes 64 Config.fwKeyHash.toNat ∨ imageSigned b = false then 3
  else if beAt b 8 4 / 67108864 < c.arbCount then 4
  else 0

/-- VERIFY of SEC_FW_CAND_CTRL (R384): refused outside JUBILEE STAGING; a new one replaces the candidate. -/
def fwCandVerify (c : Chip) : Chip × Nat :=
  if c.rg R.TRK_MODE_CODE 0 = 10 ∧ c.rg R.ALM_JUB_STAT_STATE 0 = 1 then
    have c := ((c.wg R.SEC_FW_CAND_CTRL_STATE 0 1).wg R.SEC_FW_CAND_CTRL_CAUSE 0 0).wg R.ALM_JUB_STAT_CAND_FW 0 0
    ({ c with sec.cand := none, sec.candOp := some (c.rg R.SEC_FW_CAND_ADDR_ADDR4K 0 * 4096, c.rg R.SEC_FW_CAND_LEN_LEN 0) }, stOk)
  else (c, stRefused)

def execFwCandVerify (t : Nat) (s : State) : Host.Outcome State Fault Refusal := s.on t (fun _ c => c.answeredIn 3 fwCandVerify)

end Sys2Proof.Machine
end

