-- ==== Sys2Proof/Machine/Mode.lean ====
section
/-! DEFINITION. The operating mode (04_trunk_access.md R116 to R122) and what each change of it does. -/

namespace Sys2Proof.Machine

open Sys2Proof

/-- The current mode (R116). -/
def Chip.mode (c : Chip) : Nat := c.rg R.TRK_MODE_CODE 0

/-- The receiver of a wavelength starts: its oscillator is tuned (R93 step 1). -/
def Chip.dsStart (c : Chip) (k : Nat) : Chip :=
  have c := (c.wg R.TRK_DS_CFG_ENABLE k 1).wg R.TRK_DS_STAT_ACQ k 0
  have e := c.eng k
  (c.setEng k { Eng.reset with step := 1, at_ := c.now, forceCold := e.forceCold, msgs := e.msgs }).setFstate k 0

/-- Is FREQ_N of a receiver in its range (R91)? -/
def freqDsOk (v : Nat) : Bool := decide (-976 ≤ sgn 16 v ∧ sgn 16 v ≤ -368)

/-- Wavelength `k` is enabled and stands in SYNC on the active side. LOS counts as out of SYNC, because R108's declaration is an
event of R117's loss of the downstream (DEDUCED, log entry 29). -/
def Chip.inSync (c : Chip) (k : Nat) : Bool :=
  c.rb R.TRK_DS_CFG_ENABLE k && decide (c.rg R.TRK_DS_STAT_FSTATE k = 3) && !c.rb R.TRK_DS_STAT_LOS k

/-- A wavelength that is enabled on the active side stands in SYNC. -/
def Chip.anySync (c : Chip) : Bool := (List.range 16).any (fun k => c.inSync k)

/-! ## Tasks of the management cores that a mode change frees (R373) -/

/-- A task becomes FREE: it leaves the ready and delay lists. -/
def Chip.taskFree (c : Chip) (t : Nat) : Chip :=
  have c := ((c.wg R.MCU_TASK_STAT_STATE t 0).wg R.MCU_TASK_CFG_VALID t 0).wg R.MCU_TASK_STAT_ACT_PEND t 0
  have rd := c.mc.ready.map (fun (x : Nat × List Nat) => (x.1, x.2.filter (fun (y : Nat) => decide (y ≠ t))))
  { c with mc.ready := rd, mc.wake := c.mc.wake.erase t, mc.susp := c.mc.susp.filter (fun (y : Nat) => decide (y ≠ t)) }

/-- Every task of the candidate image becomes FREE. -/
def Chip.imgFree (c : Chip) : Chip := (c.instances R.MCU_TASK_CFG_IMG 512).foldl (fun d t => (d.taskFree t).wg R.MCU_TASK_CFG_IMG t 0) c

/-! ## Changes of mode -/

/-- Is a split frame or an owed abort of this channel and allocation? -/
def Window.mine (w : Window) (ch alloc : Nat) : Bool := decide (w.ch = ch ∧ w.alloc = alloc)

/-- A burst that was formed and does not start gives back what it took: frames return to the heads of their queues, records and units
for MGMT_TAG to theirs, the split frame and the owed aborts of its allocation as they were (log entry 27). Where the allocation was
removed meanwhile its frames are bound again and its split frame is lost (R195). -/
def Chip.unform (c : Chip) (b : Burst) : Chip :=
  have acks := if b.win.kind = GrantKind.discovery then [] else b.records.filter (fun (r : Rec) => decide (r.typ = 0x82))
  have ids := b.took.map (fun x => x.f.id)
  have live := (c.instances R.TRK_ALLOC_VALID 1024).any (fun a => decide (c.rg R.TRK_ALLOC_CH a = b.win.ch ∧ c.rg R.TRK_ALLOC_ALLOC_ID a = b.win.alloc))
  have back := if live then b.took else b.took.map (fun (x : QFrame) => { x with member := none })
  have others := c.up.splits.filter (fun s => decide (s.ch ≠ b.win.ch ∨ s.alloc ≠ b.win.alloc))
  have owed := c.up.owedAborts.filter (fun (e : Nat × Nat) => decide (e.1 ≠ 4096 * b.win.ch + b.win.alloc))
  have c := if live ∨ b.splitWas.isNone then c else c.inc C.TRK_US_STOMPED b.win.ch
  have c := { c with qs.frames := back ++ c.qs.frames, qs.out := c.qs.out.filter (fun (x : QFrame) => !ids.contains x.f.id), up.acks := acks ++ c.up.acks, up.splits := (if live then b.splitWas.toList else []) ++ others, up.owedAborts := (if live then b.owedWere else []) ++ owed, up.mgmtQ := b.mgmt ++ c.up.mgmtQ }
  have c := if live then c else (back.map (fun x => c.qGroup x.q)).eraseDups.foldl (fun d g => d.rebind g none) c
  b.took.foldl (fun d x => d.queueStat x.q x.f.blk) c

/-- Every decoded grant is discarded, but for a burst in progress (R120). -/
def Chip.dropGrants (c : Chip) : Chip :=
  have c := c.up.formed.reverse.foldl (fun d b => d.unform b) c
  have c := forN 16 (fun k d => d.wg R.TRK_US_STAT_PENDING k 0) c
  { c with up.store := [], up.formed := [] }

/-- Leaving JUBILEE other than by its commit or CANCEL (R86): the commit transaction aborts with cause MODE; the candidate stays
resident unless EVENTIDE discards it. -/
def Chip.leaveJubilee (c : Chip) (keep : Bool) : Chip :=
  have c := c.txnAbortAll 9 keep (fun x => decide (x.origin = .jubilee))
  have c := if c.alm.load.full then { c with alm.load.waiting := false } else c
  (c.wg R.ALM_JUB_STAT_STATE 0 0).wg R.ALM_EVT_JUB_CHG 0 1

/-- The candidate, Almanac and Omlia, is discarded (R86): a prepared one with its load, one still being verified or prepared too, with
cause MODE (log entry 72). -/
def Chip.dropCandidate (c : Chip) : Chip :=
  have st := c.rg R.ALM_LOAD_STAT_STATE 0
  have c :=
    if c.rb R.ALM_JUB_STAT_CAND_ALM 0 = true ∧ st = 4 then c.loadFail 21 0
    else if c.alm.load.full = true ∧ 2 ≤ st ∧ st ≤ 4 ∧ c.mode ≠ 0 then { (c.loadFail 2 0) with alm.load.domains := [] }
    else c
  have c := ((c.wg R.ALM_JUB_STAT_CAND_ALM 0 0).wg R.ALM_JUB_STAT_CAND_FW 0 0).wg R.SEC_FW_CAND_CTRL_STATE 0 0
  { c.imgFree with alm.cand := none, sec.cand := none, sec.candOp := none }

/-- The announcement channel (R129): the lowest channel of CH_MASK whose wavelength is in SYNC. -/
def Chip.annCh (c : Chip) : Option Nat := (List.range 16).find? (fun k => bit c.up.chMask k && c.inSync k)

/-! ## The link of a local port and its loops (R306, R317) -/

/-- May the link of port `p` leave DOWN: a rate, no ADMIN_DOWN, a block and a cell that serve it, lasers not shut? -/
def Chip.portMay (c : Chip) (p : Nat) : Bool :=
  decide (c.rg R.PRT_CFG_RATE p ≠ 0 ∧ c.rg R.PRT_CFG_ADMIN_DOWN p = 0 ∧ c.slotCell (c.portBlk p) (c.portSlot p) ≠ 15 ∧ c.pw.evStep < 2 ∧ c.pw.tripped = false) && c.blockOk (c.portBlk p)

/-- TRAINING begins. -/
def Chip.trainStart (c : Chip) (p : Nat) : Chip :=
  { (c.setLink p 1) with pt.trainAt := c.pt.trainAt.set p c.now, pt.failAt := c.pt.failAt.erase p }

/-- A port in DOWN with nothing against it goes into the loop that is set, or begins TRAINING where there is light (R306). -/
def Chip.portEval (c : Chip) (p : Nat) : Chip :=
  if c.rg R.PRT_STAT_LINK p = 0 ∧ c.rg R.PRT_LOOP_LOOP p ≠ 0 ∧ c.portMay p = true then c.setLink p 4
  else if c.rg R.PRT_STAT_LINK p = 0 ∧ bit c.pt.lit p ∧ c.portMay p = true ∧ (c.pt.failAt.find p).isNone then c.trainStart p else c

/-- A port enters or leaves a loop; one that ADMIN_DOWN or RATE 0 holds in DOWN stays there (R306). -/
def Chip.loopTo (c : Chip) (p loop : Nat) : Chip :=
  have was := c.rg R.PRT_LOOP_LOOP p
  have st := c.rg R.PRT_STAT_LINK p
  have c := { (c.wg R.PRT_LOOP_LOOP p loop) with pt.loopQ := c.pt.loopQ.filter (fun (x : LoopTx) => decide (x.port ≠ p)) }
  if loop ≠ 0 ∧ st ≠ 4 ∧ c.portMay p = true then (if st = 2 ∨ st = 3 then (c.flushStart p).setLink p 4 else c.setLink p 4)
  else if loop = 0 ∧ was ≠ 0 ∧ st = 4 then (if c.portMay p then c.trainStart p else c.portDown p)
  else c

/-- Leaving LOOPBACK clears every loop and pattern (R317). -/
def Chip.loopsClear (c : Chip) : Chip :=
  forN 128 (fun p d => (((d.loopTo p 0).wg R.PRT_LOOP_PRBS_GEN p 0).wg R.PRT_LOOP_PRBS_CHK p 0).wg R.PRT_LOOP_PRBS_LOCK p 0) c

/-- The mode changes (R117): PREV, CAUSE and MODE_CHG; the effects of R120 on emission, of R86 on JUBILEE and of R317
on the loops. -/
def Chip.setMode (c : Chip) (code cause : Nat) : Chip :=
  have old := c.mode
  have c := ((c.wg R.TRK_MODE_PREV 0 old).wg R.TRK_MODE_CODE 0 code).wg R.TRK_MODE_CAUSE 0 cause
  have c := { (c.wg R.TRK_MODE_EVT_MODE_CHG 0 1) with up.modeAt := c.now }
  have c := if old = 10 ∧ code ≠ 5 then c.leaveJubilee (decide (code ≠ 11)) else c
  have c := if old = 9 ∧ code ≠ 9 then c.loopsClear else c
  if code = 2 ∨ code = 6 ∨ code = 7 ∨ code = 8 ∨ code = 9 ∨ code = 11 then c.dropGrants else c

/-- An entry of the allocation table is cleared. -/
def Chip.allocClear (c : Chip) (a : Nat) : Chip :=
  [R.TRK_ALLOC_ALLOC_ID, R.TRK_ALLOC_CH, R.TRK_ALLOC_GROUP, R.TRK_ALLOC_FRAG_OK, R.TRK_ALLOC_AUTH, R.TRK_ALLOC_VALID].foldl (fun (d : Chip) (f : Fld) => d.wg f a 0) c

/-- What entry to LISTEN clears and starts (R119, R122). -/
def Chip.enterListen (c : Chip) (cause : Nat) : Chip :=
  have c := c.setMode 2 cause
  have c := (((c.wg R.TRK_TERM_ID_ID 0 0).wg R.TRK_TERM_ID_HOME 0 0).wg R.TRK_TERM_ID_VALID 0 0).eraseMgmt
  have c := (c.wg R.TRK_TERM_ALLOC_DEFAULT 0 0).wg R.TRK_TERM_ALLOC_MGMT_TAG 0 0
  have c := (c.instances R.TRK_ALLOC_VALID 1024).foldl (fun d a => d.allocClear a) c
  have c := { c.loseSplits (fun _ => true) with qs.frames := c.qs.frames.map (fun (x : QFrame) => { x with member := none }), up.owedAborts := [] }
  have c := (c.qs.frames.map (fun x => (x.q, x.f.blk))).foldl (fun d y => d.queueStat y.1 y.2) c
  have c := forN 16 (fun k d => d.wg R.TRK_US_STAT_CH_OFF k 0) c
  have c := forN 32 (fun i d => (d.wg R.TRK_EQD_VALID i 0).wg R.TRK_EQD_EQD i 0) c
  have c := { (c.wg R.TRK_SIDE_STAT_EQD_VALID 0 0) with up.ranging := [], up.eqdPend := [], ds.parked := none }
  have c := forN 16 (fun k d => if d.rbit R.TRK_SIDE_MASK_MASK 0 k && !d.rb R.TRK_DS_CFG_ENABLE k && freqDsOk (d.rg R.TRK_DS_CFG_FREQ_N k) then d.dsStart k else d) c
  c.aCheck

/-- Picoseconds of `n` symbols and of `n` blocks of 64 symbols. -/
def symPs (n : Nat) : Nat := 5 * n
def blkPs (n : Nat) : Nat := 320 * n

/-- The instant at which a window's gate shuts. -/
def Window.endAt (w : Window) : Nat := w.t0 + blkPs w.len

/-- The emission in progress ends at once (R120, R148): every gate shuts. The window of a burst that is cut ends where it would have
(R134), the burst itself now (R137). -/
def Chip.shutGates (c : Chip) (ks : List Nat) : Chip :=
  have hit := c.up.active.filter (fun (b : Burst) => ks.contains b.win.ch)
  have c := hit.foldl (fun d b => (d.emit .gateShut b.win.ch [b.win.side] []).wg R.TRK_US_STAT_BURSTING b.win.ch 0) c
  have at_ := fun (f : Burst → Nat) (m : Tab Nat) => hit.foldl (fun (t : Tab Nat) b => t.set (2 * b.win.ch + b.win.side) (f b)) m
  { c with up.active := c.up.active.filter (fun (b : Burst) => !ks.contains b.win.ch), up.lastEnd := at_ (fun b => b.win.endAt) c.up.lastEnd, up.lastLit := at_ (fun b => min c.now b.win.endAt) c.up.lastLit }

/-- A swap in shadow or pending ends when the mode forbids it (R434). -/
def Chip.swapMode (c : Chip) : Chip := if c.rg R.HLT_SWAP_STAT_STATE 0 = 1 then c.swapFail 3 else c

/-- Entry to QUARANTINE (R149): transactions abort, emission ends. -/
def Chip.enterQuarantine (c : Chip) (cause : Nat) : Chip :=
  have c := c.setMode 8 cause
  have c := c.txnAbortAll 9 false (fun _ => true)
  (c.shutGates (List.range 16)).swapMode

/-- Entry to EVENTIDE and its step 1 (R427): transactions abort, a JUBILEE candidate is discarded, admission stops. -/
def Chip.enterEventide (c : Chip) (cause : Nat) : Chip :=
  have c := c.setMode 11 cause
  have c := (c.txnAbortAll 9 false (fun _ => true)).dropCandidate
  have c := c.swapMode
  { c with pw.evStep := 1, pw.evAt := c.now, pw.evLate := false, pw.evCheck := false, up.dyingSent := false, up.dyingReason := (if cause = 17 then 1 else 0) }

/-- Loss of the downstream (R117): ANNOUNCE and RANGING fall back to LISTEN, OPERATIONAL and JUBILEE enter LAPSE. -/
def Chip.syncCheck (c : Chip) : Chip :=
  if c.anySync then c.aCheck
  else if c.mode = 3 ∨ c.mode = 4 then c.enterListen 6
  else if (c.mode = 5 ∨ c.mode = 10) ∧ c.rg R.TRK_SIDE_STAT_STATE 0 ≠ 1 then (c.setMode 6 6).aCheck
  else c.aCheck

/-! ## The commands that change the mode by themselves -/

/-- CMD 1 of TRK_MODE_CTRL: LISTEN, ANNOUNCE or OPERATIONAL enters LOOPBACK. -/
def loopbackEnter (c : Chip) : Chip × Nat :=
  if c.mode = 2 ∨ c.mode = 3 ∨ c.mode = 5 then (c.setMode 9 15, stOk) else (c, stRefused)

def execLoopbackEnter (t : Nat) (s : State) : Host.Outcome State Fault Refusal := s.on t (fun _ c => c.answeredIn 2 loopbackEnter)

/-- CMD 3: modes 1 to 10 enter EVENTIDE. -/
def eventideEnter (c : Chip) : Chip × Nat :=
  if 1 ≤ c.mode ∧ c.mode ≤ 10 then (c.enterEventide 15, stOk) else (c, stRefused)

def execEventideEnter (t : Nat) (s : State) : Host.Outcome State Fault Refusal := s.on t (fun _ c => c.answeredIn 2 eventideEnter)

/-- A bound of the mode has passed since its entry. -/
def Chip.modeSince (c : Chip) (ps : Nat) : Bool := decide (c.up.modeAt + ps ≤ c.now)

/-- No DISCOVERY is accepted for TO_DISC. -/
def announceTimeout (c : Chip) : Chip :=
  if c.mode = 3 ∧ c.up.discAt + c.rg R.TRK_ACT_TMR_TO_DISC 0 * secPs ≤ c.now then c.enterListen 9 else c

def execAnnounceTimeout (t : Nat) (s : State) : Host.Outcome State Fault Refusal := s.on t (fun _ c => announceTimeout c)

/-- TO_RANGE has passed since entry to RANGING. -/
def rangingTimeout (c : Chip) : Chip :=
  if c.mode = 4 ∧ c.modeSince (c.rg R.TRK_ACT_TMR_TO_RANGE 0 * secPs) then c.enterListen 10 else c

def execRangingTimeout (t : Nat) (s : State) : Host.Outcome State Fault Refusal := s.on t (fun _ c => rangingTimeout c)

/-- TO_LAPSE has passed in LAPSE. -/
def lapseTimeout (c : Chip) : Chip :=
  if c.mode = 6 ∧ c.modeSince (c.rg R.TRK_ACT_TMR_TO_LAPSE 0 * msPs) then c.enterListen 8 else c

def execLapseTimeout (t : Nat) (s : State) : Host.Outcome State Fault Refusal := s.on t (fun _ c => lapseTimeout c)

/-- 10 ms after entry to EVENTIDE emission ends, if no DYING burst has been sent (R116). -/
def eventideEmitEnd (c : Chip) : Chip :=
  if c.mode = 11 ∧ c.modeSince (10 * msPs) ∧ c.up.dyingSent = false then { c.dropGrants with up.dyingSent := true } else c

def execEventideEmitEnd (t : Nat) (s : State) : Host.Outcome State Fault Refusal := s.on t (fun _ c => eventideEmitEnd c)

end Sys2Proof.Machine
end

