-- ==== Sys2Proof/Machine/Sbus.lean ====
section
/-! DEFINITION. The sensor bus (10_ports_and_lanes.md R322 to R326). -/

namespace Sys2Proof.Machine

open Sys2Proof

/-- Bytes without FCS are queued for the sensor-bus MAC, padded to 64 bytes with their FCS. -/
def Chip.sbQueue (c : Chip) (l : List Byte) : Chip :=
  { c with pt.sbTx := c.pt.sbTx ++ [{ bytes := framed l, attempt := 0, start := none, backoff := 0, held := false }] }

/-- Picoseconds that a frame of `n` bytes takes with its preamble at 10 Mbit/s, and a slot time of 51.2 µs. -/
def sbusPs (n : Nat) : Nat := (n + 8) * 800000
def sbusSlot : Nat := 51200000

/-- The part of a transmission that lies at or after an instant. -/
def sbusSince (from_ : Nat) (x : Nat × Nat) : Nat := x.2 - max x.1 from_

/-- Transmit time of the 100 ms that end at an instant, in ps. -/
def Chip.sbusUsed (c : Chip) (end_ : Nat) : Nat := (c.pt.sbHist.map (sbusSince (end_ - 100 * msPs))).sum

/-- Does a transmission that starts now and lasts `d` keep the duty bound in every window that it touches (R326)? -/
def Chip.sbusFits (c : Chip) (d : Nat) : Bool := decide (c.sbusUsed (c.now + d) + d ≤ c.dutyMax * msPs)

/-- A transmission is remembered for the duty bound, for 200 ms. -/
def Chip.sbusKeep (c : Chip) (e : Nat) : Chip :=
  { c with pt.sbHist := c.pt.sbHist.filter (fun (x : Nat × Nat) => decide (c.now ≤ x.2 + 200 * msPs)) ++ [(c.now, e)] }

/-- How a transmission goes: to its end, into a collision after so many ps, or on without end until JABBER cuts it off. -/
inductive SbusWay where
  | done
  | collides (after : Nat)
  | runs
deriving DecidableEq, Repr

/-- The frame `x` at the head starts; `rest` waits behind it (R322). After a collision and its jam of 32 bits the backoff is drawn
from the entropy source: a free value (log entry 3). -/
def Chip.sbusStart (c : Chip) (x : SbusTx) (rest : List SbusTx) (way : SbusWay) : Chip :=
  have d := sbusPs x.bytes.length
  if c.sbusFits d = false then
    if x.held then c else (({ c with pt.sbTx := { x with held := true } :: rest }.inc C.SBS_GUARD_HELD 0).wg R.SBS_EVT_GUARD_HELD 0 1)
  else match way with
  | .done => (({ c with pt.sbTx := rest }.sbusKeep (c.now + d)).inc C.SBS_TX_FRAMES 0).emit .sbusFrame 0 [] x.bytes
  | .runs => { c with pt.sbTx := { x with start := some c.now, held := false } :: rest }
  | .collides a =>
    have e := c.now + min a d + 3200000
    have n := x.attempt + 1
    have c := (c.sbusKeep e).inc C.SBS_COLLISIONS 0
    if 16 ≤ n then { c with pt.sbTx := rest }.inc C.SBS_TX_ABORT 0
    else
      have r := c.draw
      { r.2 with pt.sbTx := { x with attempt := n, held := false, backoff := e + r.1 % 2 ^ (min n 10) * sbusSlot } :: rest }

/-- The head of the frames to send, where the MAC runs and the wire is not its own. -/
def Chip.sbusHead (c : Chip) : Option (SbusTx × List SbusTx) := match c.pt.sbTx with
  | x :: rest => if c.rb R.SBS_CFG_EN 0 ∧ c.domOn 2 = true ∧ x.start.isNone ∧ c.pt.sbHist.all (fun y => decide (y.2 ≤ c.now)) then some (x, rest) else none
  | [] => none

/-- SBUS_FRAME_TX: the MAC starts the first attempt of a frame. -/
def sbusFrameTx (way : SbusWay) (c : Chip) : Chip := match c.sbusHead with
  | some (x, rest) => if x.attempt = 0 ∧ x.held = false then c.sbusStart x rest way else c
  | none => c

/-- SBUS_BACKOFF_END: a later attempt. -/
def sbusBackoffEnd (way : SbusWay) (c : Chip) : Chip := match c.sbusHead with
  | some (x, rest) => if 0 < x.attempt ∧ x.held = false ∧ x.backoff ≤ c.now then c.sbusStart x rest way else c
  | none => c

/-- SBUS_GUARD_RELEASE: the frame held by the duty bound starts once it fits. -/
def sbusGuardRelease (way : SbusWay) (c : Chip) : Chip := match c.sbusHead with
  | some (x, rest) => if x.held then c.sbusStart x rest way else c
  | none => c

/-- The operand of the three rows: none for a transmission without collision, `some a` for a collision `a` ps after its start;
`runs` for a transmission that does not end. -/
def sbusWay (coll : Option Nat) (runs : Bool) : SbusWay := match coll with
  | some a => .collides a
  | none => if runs then .runs else .done

def execSbusFrameTx (t : Nat) (coll : Option Nat) (runs : Bool) (s : State) : Host.Outcome State Fault Refusal := s.on t (fun _ => sbusFrameTx (sbusWay coll runs))
def execSbusBackoffEnd (t : Nat) (coll : Option Nat) (runs : Bool) (s : State) : Host.Outcome State Fault Refusal := s.on t (fun _ => sbusBackoffEnd (sbusWay coll runs))
def execSbusGuardRelease (t : Nat) (coll : Option Nat) (runs : Bool) (s : State) : Host.Outcome State Fault Refusal := s.on t (fun _ => sbusGuardRelease (sbusWay coll runs))

/-- SBUS_JABBER: a transmission still running 2 ms after its start is cut off. -/
def sbusJabber (c : Chip) : Chip := match c.pt.sbTx with
  | x :: rest => match x.start with
    | some a => if a + 2 * msPs ≤ c.now then { c with pt.sbTx := rest, pt.sbHist := c.pt.sbHist ++ [(a, c.now)] }.inc C.SBS_JABBER 0 else c
    | none => c
  | [] => c

def execSbusJabber (t : Nat) (s : State) : Host.Outcome State Fault Refusal := s.on t (fun _ => sbusJabber)

/-! ## Polls (R324) -/

/-- DA of an entry. -/
def Chip.pollDa (c : Chip) (e : Nat) : Nat := c.rg R.SBS_POLL_DA_LO_DA e + c.rg R.SBS_POLL_DA_HI_DA e * 2 ^ 32

/-- A POLL with the next SEQ of its entry is queued. -/
def Chip.pollSend (c : Chip) (p : Poll) : Chip :=
  have e := p.entry
  have seq := (c.rg R.SBS_POLL_STAT_SEQ e + 1) % 65536
  have body := (List.range 4).flatMap (fun w => beBytes 4 (c.rg R.SBS_POLL_BODY_BYTES (8 * e + w)))
  have l := beBytes 6 (c.pollDa e) ++ beBytes 6 c.sbusMac ++ beBytes 2 0x88B6 ++ beBytes 1 0x41 ++ beBytes 1 0 ++ beBytes 2 seq ++ beBytes 2 16 ++ body
  ({ c with pt.polls := c.pt.polls ++ [{ p with seq := seq, sent := c.now }] }.wg R.SBS_POLL_STAT_SEQ e seq).sbQueue l |>.inc C.SBS_POLL_SENT 0

/-- SBUS_POLL_SEND: every INTERVAL, whether or not the poll before is answered. The entry's configuration is that of this instant. -/
def sbusPollSend (e : Nat) (c : Chip) : Chip :=
  if c.rb R.SBS_CFG_EN 0 ∧ c.domOn 2 = true ∧ c.rb R.SBS_POLL_CFG_EN e = true ∧ Tab.get 0 c.pt.pollDue e ≤ c.now then
    { c with pt.pollDue := c.pt.pollDue.set e (c.now + c.rg R.SBS_POLL_CFG_INTERVAL e * 10 * msPs) }.pollSend
      { entry := e, seq := 0, sent := 0, left := c.rg R.SBS_POLL_CFG_RETRY e, tmo := c.rg R.SBS_POLL_CFG_TIMEOUT e * msPs }
  else c

def execSbusPollSend (t : Nat) (e : Fin 64) (s : State) : Host.Outcome State Fault Refusal := s.on t (fun _ => sbusPollSend e.val)

/-- SBUS_POLL_TIMEOUT: no REPLY within TIMEOUT to the oldest poll of the entry that has waited so long. -/
def sbusPollTimeout (e : Nat) (c : Chip) : Chip := match c.pt.polls.find? (fun p => decide (p.entry = e ∧ p.sent + p.tmo ≤ c.now)) with
  | some p =>
    have c := { c with pt.polls := c.pt.polls.filter (fun (x : Poll) => decide (x.entry ≠ e ∨ x.seq ≠ p.seq)) }.inc C.SBS_POLL_MISS 0
    if 0 < p.left then c.pollSend { p with left := p.left - 1 }
    else (c.wg R.SBS_POLL_STAT_LOST e 1).wg R.SBS_EVT_POLL_LOST 0 1
  | none => c

def execSbusPollTimeout (t : Nat) (e : Fin 64) (s : State) : Host.Outcome State Fault Refusal := s.on t (fun _ => sbusPollTimeout e.val)

/-! ## Received frames (R324, R325) -/

/-- Entries whose DA is the source of a frame. -/
def Chip.sbusFrom (c : Chip) (l : List Byte) : List Nat := (List.range 64).filter (fun e => decide (c.pollDa e = beAt l 6 6 ∧ c.pollDa e ≠ 0))

/-- A frame is queued for the management cores in ring 32 (R365), or dropped and counted. -/
def Chip.sbusStore (c : Chip) (l : List Byte) : Chip :=
  have c := if (c.sbusFrom l).isEmpty then c.inc C.SBS_SBS_UNKNOWN 0 else c
  if c.wqFree 32 then c.wqPush 32 (beBytes 2 l.length ++ zeros 2 ++ l) else c.inc C.SBS_SBS_QFULL 0

/-- Is a received frame for the terminal: its own address, or broadcast, with the MAC running? -/
def Chip.sbusMine (c : Chip) (l : List Byte) : Bool :=
  c.rb R.SBS_CFG_EN 0 && c.domOn 2 && (decide (beAt l 0 6 = c.sbusMac) || decide (beAt l 0 6 = 0xFFFFFFFFFFFF))

/-- TYPE of a frame of the sensor protocol; 0 for another frame. -/
def sbusType (l : List Byte) : Nat := if beAt l 12 2 = 0x88B6 then byteAt l 14 else 0

/-- A frame without FCS of the wanted type is received: its effect, then its queueing. A frame with a bad FCS is counted; one that is not
of 64 to 1,518 bytes with its FCS is no frame (R322). -/
def Chip.sbusRx (c : Chip) (l : List Byte) (fcsOk want : Bool) (f : Chip → Chip) : Chip :=
  if c.sbusMine l = false ∨ want = false ∨ l.length < 60 ∨ 1514 < l.length then c
  else if fcsOk = false then c.inc C.SBS_RX_FCS_ERR 0
  else (f (c.inc C.SBS_RX_FRAMES 0)).sbusStore l

/-- A REPLY ends the wait of the polls that it answers, and clears LOST of their entries. -/
def Chip.sbusAnswer (c : Chip) (l : List Byte) : Chip :=
  (c.sbusFrom l).foldl (fun d e =>
    if d.pt.polls.any (fun p => decide (p.entry = e ∧ p.seq = beAt l 16 2)) then
      { d with pt.polls := d.pt.polls.filter (fun (p : Poll) => decide (p.entry ≠ e ∨ p.seq ≠ beAt l 16 2)) }.wg R.SBS_POLL_STAT_LOST e 0
    else d) c

def execSbusReply (t : Nat) (bytes : List Byte) (fcsOk : Bool) (s : State) : Host.Outcome State Fault Refusal :=
  s.on t (fun _ c => c.sbusRx bytes fcsOk (decide (sbusType bytes = 0x42)) (fun d => d.sbusAnswer bytes))

/-- Alarm bit and mask bit of entry `e`, which stand in a LO and a HI word. -/
def alarmFld (e : Nat) : Fld := if e < 32 then R.SBS_ALARM_LO_BITS else R.SBS_ALARM_HI_BITS
def maskFld (e : Nat) : Fld := if e < 32 then R.SBS_MASK_LO_BITS else R.SBS_MASK_HI_BITS

/-- An alarm bit takes a state; the instant from which it is active is kept. -/
def Chip.alarmBit (c : Chip) (e : Nat) (on : Bool) : Chip :=
  { (c.wbit (alarmFld e) 0 (e % 32) on) with pt.almOn := if on then c.pt.almOn.set e c.now else c.pt.almOn.erase e }

/-- An ALARM of entry `e` with its STATE (R325). -/
def Chip.sbusAlarm (c : Chip) (e : Nat) (on : Bool) : Chip :=
  have masked := c.rbit (maskFld e) 0 (e % 32)
  have c := if on then c else c.wbit (maskFld e) 0 (e % 32) false
  if c.rbit (alarmFld e) 0 (e % 32) = on then c
  else
    have age := match c.pt.almAt.find e with
      | some a => some (c.now - a)
      | none => none
    have young := fun (b : Nat) => match age with
      | some x => decide (x < b)
      | none => false
    if young (c.rg R.SBS_POLL_DA_HI_MINW e * usPs) then c
    else if young msPs then (c.alarmBit e on).inc C.SBS_ALARM_OVERRUN 0
    else
      have c := ({ c with pt.almAt := c.pt.almAt.set e c.now }.alarmBit e on).inc C.SBS_ALARM_EVENTS 0
      if masked then c else c.wg R.SBS_EVT_ALARM 0 1

def execSbusAlarm (t : Nat) (bytes : List Byte) (fcsOk : Bool) (s : State) : Host.Outcome State Fault Refusal :=
  s.on t (fun _ c => c.sbusRx bytes fcsOk (decide (sbusType bytes = 0x43)) (fun d => (d.sbusFrom bytes).foldl (fun x e => x.sbusAlarm e (bit (byteAt bytes 15) 0)) d))

def execSbusFrameRx (t : Nat) (bytes : List Byte) (fcsOk : Bool) (s : State) : Host.Outcome State Fault Refusal :=
  s.on t (fun _ c => c.sbusRx bytes fcsOk (decide (sbusType bytes ≠ 0x42 ∧ sbusType bytes ≠ 0x43)) id)

/-- SBUS_ALARM_STUCK: a bit held active for STUCK seconds is masked. -/
def sbusAlarmStuck (e : Nat) (c : Chip) : Chip := match c.pt.almOn.find e with
  | some a =>
    if a + c.rg R.SBS_CFG_STUCK 0 * secPs ≤ c.now ∧ c.rbit (maskFld e) 0 (e % 32) = false then
      (c.wbit (maskFld e) 0 (e % 32) true).wg R.SBS_EVT_ALARM_STUCK 0 1
    else c
  | none => c

def execSbusAlarmStuck (t : Nat) (e : Fin 64) (s : State) : Host.Outcome State Fault Refusal := s.on t (fun _ => sbusAlarmStuck e.val)

end Sys2Proof.Machine
end

