-- ==== Sys2Proof/Machine/Regs.lean ====
section
/-! DEFINITION. Registers by their address (16_register_map.md R462 to R467): which family an address belongs to, its word, the
plain effect of a write on its fields (00_scope.md R9), and the ranges that the register tables give. -/

namespace Sys2Proof.Machine

open Sys2Proof

/-- The families of the unit that an address lies in (R462, R463). -/
def famsAt (a : Nat) : List Family :=
  if a < 0x10000 then famList_chip else if a < 0x20000 then famList_alm else if a < 0x40000 then famList_trk
  else if a < 0x60000 then famList_pkt else if a < 0x80000 then famList_sch else if a < 0xA0000 then famList_smp
  else if a < 0xC0000 then famList_tmg else if a < 0xE0000 then famList_prt else if a < 0xF0000 then famList_hst
  else if a < 0x100000 then famList_sbs else if a < 0x110000 then famList_dma else if a < 0x120000 then famList_mcu
  else if a < 0x130000 then famList_sec else if a < 0x140000 then famList_pwr else if a < 0x150000 then famList_hlt
  else if a < 0x160000 then famList_mem else if 0x58000000 ≤ a then famList_win else []

/-- The fields of the register at an address; none where it holds no register of a field table. -/
def fieldsAt (a : Nat) : List Fld :=
  match (famsAt a).find? (fun f => decide (f.base ≤ a) && inDims f.dims (a - f.base)) with
  | some f => f.flds
  | none => []

/-- The instance of a field at an address. -/
def Fld.instAt (f : Fld) (a : Nat) : Nat := if f.stride = 0 then 0 else (a - f.reg) / f.stride

/-- Where an address falls in the counters: the live LO address of the counter, whether it is the latched copy, whether HI. -/
def ctrAt (a : Nat) : Option (Nat × Bool × Bool) :=
  ctrFams.findSome? (fun k =>
    if k.live ≤ a ∧ inDims (k.dims ++ [(8, k.n), (4, 2)]) (a - k.live) then some (a - a % 8, false, decide (a % 8 = 4))
    else if k.lat ≤ a ∧ inDims (k.dims ++ [(8, k.n), (4, 2)]) (a - k.lat) then some (a - k.lat + k.live - (a - k.lat) % 8, true, decide ((a - k.lat) % 8 = 4))
    else none)

/-- Is a field of a type that software sets? -/
def Fld.isRw (f : Fld) : Bool := decide (f.acc = .rw) || decide (f.acc = .rws)

/-- A field takes its bits of a word (R9): RW and RWS fields take the value, W1C bits written 1 clear, others stay. -/
def Chip.putField (c : Chip) (a v : Nat) (f : Fld) : Chip :=
  have b := bits v f.lsb f.width
  if f.isRw then c.wg f (f.instAt a) b
  else if f.acc = .w1c then c.wg f (f.instAt a) (c.rg f (f.instAt a) - (c.rg f (f.instAt a) &&& b))
  else c

/-- The plain effect of a write of a word (R9, R467). -/
def Chip.putWord (c : Chip) (a v : Nat) : Chip := (fieldsAt a).foldl (fun d f => d.putField a v f) c

/-- The fields of an address that software sets take their reset values (R52). -/
def Chip.resetWord (c : Chip) (a : Nat) : Chip :=
  (fieldsAt a).foldl (fun d f => if f.isRw then { d with regs := d.regs.erase (f.key (f.instAt a)) } else d) c

/-! ## Ranges of fields -/

/-- The stated range of a field; `sg`: its value is signed. -/
structure Bound where
  fld : Fld
  lo : Int
  hi : Int
  sg : Bool
deriving DecidableEq, Repr

/-- Does a word hold the field within its range? -/
def Bound.ok (b : Bound) (v : Nat) : Bool :=
  have x : Int := if b.sg then sgn b.fld.width (bits v b.fld.lsb b.fld.width) else (bits v b.fld.lsb b.fld.width : Nat)
  decide (b.lo ≤ x ∧ x ≤ b.hi)

/-- Ranges of the structure, trunk, pipeline and fabric registers (chapters 1, 3 to 6). -/
def boundsA : List Bound := [
  ⟨R.HLT_HSWD_TIME, 1, 1000, false⟩, ⟨R.TRK_DS_CFG_LOF_MISS, 2, 15, false⟩, ⟨R.TRK_DS_LOS_THR_THR, -350, -150, true⟩,
  ⟨R.TRK_SIDE_CTRL_CMD, 0, 4, false⟩, ⟨R.TRK_SIDE_CTRL_WTR, 1, 60, false⟩, ⟨R.TRK_SIDE_CTRL_HOLD, 0, 10, false⟩,
  ⟨R.TRK_WATCH_CTRL_DWELL, 12, 50, false⟩, ⟨R.TRK_CHMON_CFG_LOSS_OCT, 1, 1000, false⟩, ⟨R.TRK_CHMON_LIM_SD_THR, 1, 255, false⟩,
  ⟨R.TRK_ACT_TMR_TO_LAPSE, 10, 10000, false⟩, ⟨R.TRK_ACT_TMR_TO_DISC, 1, 60, false⟩, ⟨R.TRK_ACT_TMR_TO_RANGE, 1, 60, false⟩,
  ⟨R.TRK_US_CFG_FREQ_N, -240, 368, true⟩, ⟨R.TRK_US_GH_SHD_PWR, -30, 60, true⟩,
  ⟨R.PKT_SP_CFG_TRUNC, 64, 16128, false⟩, ⟨R.PKT_SP_RATE_RATE, 1, 4000000, false⟩, ⟨R.PKT_SP_RATE_BURST, 1, 1023, false⟩,
  ⟨R.SCH_Q_SCHED_WEIGHT, 1, 255, false⟩, ⟨R.SCH_NODE_SCHED_WEIGHT, 1, 255, false⟩, ⟨R.SCH_Q_LIMIT_MIN, 0, 24576, false⟩,
  ⟨R.SCH_Q_LIMIT_MAX, 0, 24576, false⟩, ⟨R.SCH_Q_SPILL_SPILL_MAX, 0, 12288, false⟩, ⟨R.SCH_SHAPER_CFG_OVERHEAD, -64, 255, true⟩,
  ⟨R.SCH_SHAPER_RATE_RATE, 1000, 1600000000, false⟩, ⟨R.SCH_POL_CFG_OVERHEAD, -64, 255, true⟩,
  ⟨R.SCH_POL_RATE_RATE, 64, 1600000000, false⟩, ⟨R.SCH_GATE_BASE_NS_NS, 0, 999999999, false⟩,
  ⟨R.SCH_GATE_ENTRY_INTERVAL, 16, 16777215, false⟩, ⟨R.SCH_PFC_CFG_MODE, 0, 2, false⟩, ⟨R.SCH_PFC_CFG_REFRESH, 1, 4095, false⟩,
  ⟨R.SCH_PFC_CFG_QUANTA, 1, 65535, false⟩]

/-- Ranges of the sample, timing, port and sensor-bus registers (chapters 7 to 10). -/
def boundsB : List Bound := [
  ⟨R.SMP_CELL_CFG_SYM_TO, 1, 1000, false⟩, ⟨R.SMP_CSET_BEXP_BEXP0, 0, 32, false⟩, ⟨R.SMP_CSET_BEXP_BEXP1, 0, 32, false⟩,
  ⟨R.SMP_CSET_BEXP_BEXP2, 0, 32, false⟩, ⟨R.SMP_CSET_BEXP_BEXP3, 0, 32, false⟩,
  ⟨R.TMG_SEL_CFG_MODE, 0, 2, false⟩, ⟨R.TMG_SEL_CFG_WTR, 0, 3600, false⟩, ⟨R.TMG_SERVO_CFG_BW, 1, 10000, false⟩,
  ⟨R.TMG_SERVO_CFG_DAMP, 8, 64, false⟩, ⟨R.TMG_SERVO_LIM_LOCK_THR, 1, 65535, false⟩, ⟨R.TMG_SERVO_LIM_LOCK_N, 1, 255, false⟩,
  ⟨R.TMG_SERVO_LIM_STEP_THR, 1, 255, false⟩, ⟨R.TMG_A_CFG_LOSS_TO, 1, 60, false⟩, ⟨R.TMG_B_CFG_QUAL, 1, 15, false⟩,
  ⟨R.TMG_B_CFG_LOSS_TO, 1, 60, false⟩, ⟨R.TMG_B_PPS_MINW, 1, 255, false⟩, ⟨R.TMG_B_PPS_STUCK, 2, 10, false⟩,
  ⟨R.TMG_OUT_CFG_FREQ_SQ, 0, 2, false⟩, ⟨R.TMG_PPSOUT_CFG_SQ, 0, 2, false⟩, ⟨R.TMG_PPSOUT_CFG_WIDTH, 1, 4095, false⟩,
  ⟨R.TMG_CLASS_VIG_LIMIT, 1, 255, false⟩, ⟨R.TMG_PTP_CFG_ROLE, 0, 2, false⟩, ⟨R.TMG_PTP_CFG_DOMAIN, 24, 43, false⟩,
  ⟨R.TMG_PTP_RATE_LOG_SYNC, -7, 0, true⟩, ⟨R.TMG_PTP_RATE_LOG_ANN, -3, 3, true⟩, ⟨R.TMG_PTP_RATE_LOG_DREQ, -7, 0, true⟩,
  ⟨R.PRT_CFG_RX_PAUSE, 0, 2, false⟩, ⟨R.PRT_CFG_FLUSH_TO, 1, 1000, false⟩, ⟨R.PRT_PAUSE_CFG_WD, 1, 10000, false⟩,
  ⟨R.PRT_PAUSE_CFG_RELEASE, 1, 600, false⟩, ⟨R.PRT_IDLE_CFG_HOLD, 1, 65535, false⟩, ⟨R.PRT_SEC_CFG_VALIDATE, 0, 2, false⟩,
  ⟨R.PRT_SEC_CFG_OFFSET, 0, 2, false⟩, ⟨R.HST_LANE_CFG_MODE, 0, 2, false⟩, ⟨R.SBS_CFG_STUCK, 1, 3600, false⟩,
  ⟨R.SBS_POLL_CFG_TIMEOUT, 1, 1000, false⟩, ⟨R.SBS_POLL_CFG_INTERVAL, 1, 6000, false⟩, ⟨R.SBS_POLL_DA_HI_MINW, 1, 65535, false⟩]

/-- Ranges of the host, core, security, power and memory registers (chapters 11 to 14, 16). -/
def boundsC : List Bound := [
  ⟨R.HST_ZCP_CFG_IDLE_TO, 1, 600, false⟩, ⟨R.HST_ZCP_CFG_EVT_HOLDOFF, 0, 1000, false⟩, ⟨R.HST_ZCP_CFG_EVT_RETRY, 10, 4000, false⟩,
  ⟨R.DMA_CH_CFG_REQ, 0, 6, false⟩, ⟨R.DMA_CH_CFG_SIZE_LOG2, 2, 16, false⟩, ⟨R.DMA_CH_TIMER_PERIOD, 1, 16777215, false⟩,
  ⟨R.MCU_CTRL_PRE_TO, 1, 1000, false⟩, ⟨R.MCU_TICK_TICK, 1, 1000, false⟩, ⟨R.MCU_TRACE_CFG_SIZE_LOG2, 8, 24, false⟩,
  ⟨R.MCU_WQ_CFG_SIZE_LOG2, 4, 12, false⟩, ⟨R.MCU_CORE_CFG_RUN_MAX, 100, 65535, false⟩,
  ⟨R.SEC_FUSE_CTRL_GROUP, 0, 9, false⟩, ⟨R.SEC_KEY_CTRL_TARGET, 0, 5, false⟩, ⟨R.SEC_KEY_SEL_ETARGET, 0, 4, false⟩,
  ⟨R.SEC_MK_CTRL_OP, 0, 2, false⟩, ⟨R.SEC_VLT_CTRL_OP, 0, 2, false⟩,
  ⟨R.PWR_WAKE_CFG_STUCK, 1, 30, false⟩, ⟨R.PWR_WAKE_CFG_MINW, 1, 100, false⟩, ⟨R.PWR_DOM_REQ_TARGET, 0, 2, false⟩,
  ⟨R.PWR_RGN_OP_TARGET, 0, 5, false⟩, ⟨R.HLT_ST_CFG_PATTERNS_LOG2, 12, 20, false⟩, ⟨R.HLT_SWAP_CMD_UNIT, 0, 514, false⟩,
  ⟨R.MEM_DDR_CFG_SCRUB_H, 0, 168, false⟩]

/-- Every stated range. -/
def bounds : List Bound := boundsA ++ boundsB ++ boundsC

/-- Is every field of the word at an address within its range? -/
def inBounds (a v : Nat) : Bool := ((fieldsAt a).flatMap (fun f => bounds.filter (fun b => decide (b.fld.reg = f.reg ∧ b.fld.lsb = f.lsb)))).all (fun b => b.ok v)

/-- The fields of a word that are within their ranges, the others as they stand: for the registers whose table has a write of a
reserved value ignored field by field. -/
def Chip.clipWord (c : Chip) (a v : Nat) : Nat :=
  (fieldsAt a).foldl (fun w f =>
    if bounds.any (fun b => decide (b.fld.reg = f.reg ∧ b.fld.lsb = f.lsb) && !b.ok v) then
      w - bits w f.lsb f.width * 2 ^ f.lsb + c.rg f (f.instAt a) * 2 ^ f.lsb
    else w) v

/-- Does a register's address lie in a family with a given first address? -/
def inFam (f : Fld) (a : Nat) : Bool := (fieldsAt a).any (fun g => decide (g.reg = f.reg))

/-! ## Rules across fields and registers -/

/-- TEQ is 0 or 50,000,000 to 1,000,000,000 symbols (R274). -/
def teqOk (v : Nat) : Bool := decide (v = 0 ∨ 50000000 ≤ v ∧ v ≤ 1000000000)

/-- The limits of queue `q` (R188, R190): MIN and SPILL_ON up to MAX, no reserve upstream, no spill of IQ; a group is 0 to 63 (R213). -/
def Chip.queueLimits (c : Chip) (q : Nat) : Bool :=
  decide (c.rg R.SCH_Q_LIMIT_MIN q ≤ c.rg R.SCH_Q_LIMIT_MAX q ∧ c.rg R.SCH_Q_SPILL_SPILL_ON q ≤ c.rg R.SCH_Q_LIMIT_MAX q ∧
    (c.rg R.SCH_Q_CFG_DIR q = 1 → c.rg R.SCH_Q_LIMIT_MIN q = 0 ∧ c.rg R.SCH_Q_CFG_PORT q < 64) ∧ (c.rg R.SCH_Q_CFG_IQ q = 1 → c.rg R.SCH_Q_CFG_SPILL_EN q = 0))

/-- Queues and nodes in use. -/
def Chip.queuesValid (c : Chip) : List Nat := (c.instances R.SCH_Q_CFG_VALID 32768).filter (fun q => c.rb R.SCH_Q_CFG_VALID q)
def Chip.nodesValid (c : Chip) : List Nat := (c.instances R.SCH_NODE_CFG_VALID 4095).filter (fun n => c.rb R.SCH_NODE_CFG_VALID n)

/-- The reserves of no block exceed 49,152 cells (R188), the block of each port given. -/
def Chip.reservesOk (c : Chip) (blk : Nat → Nat) : Bool :=
  (List.range 32).all (fun b => decide ((c.queuesValid.filter (fun q => decide (c.rg R.SCH_Q_CFG_DIR q = 0 ∧ c.rg R.SCH_Q_LIMIT_MIN q ≠ 0) &&
    decide (blk (c.rg R.SCH_Q_CFG_PORT q) = b))).foldl (fun n q => n + 4 * c.rg R.SCH_Q_LIMIT_MIN q) 0 ≤ 49152))

/-- DIR and the port or group of a queue or node, as one number. -/
def treeRoot (dir port : Nat) : Nat := if dir = 0 then port else 256 + port % 64

/-- Does the path from a parent reach the root of tree `root` through at most `n` nodes of that tree (R191)? -/
def Chip.pathOk (c : Chip) (root : Nat) : Nat → Nat → Bool
  | n, p =>
    if p = 0xFFF then true
    else
      match n with
      | 0 => false
      | m + 1 => c.rb R.SCH_NODE_CFG_VALID p && decide (treeRoot (c.rg R.SCH_NODE_CFG_DIR p) (c.rg R.SCH_NODE_CFG_PORT p) = root) &&
          c.pathOk root m (c.rg R.SCH_NODE_CFG_PARENT p)

/-- R191 for every queue and node in use: paths of at most two nodes, no cycle, one tree, each shaper named once. A node stands at
most two levels below the root because it may carry queues. -/
def Chip.treesOk (c : Chip) : Bool :=
  have qs := c.queuesValid
  have ns := c.nodesValid
  have sh := (qs.filter (fun q => c.rb R.SCH_Q_SCHED_SH_EN q)).map (fun q => c.rg R.SCH_Q_SCHED_SHAPER q) ++
    (ns.filter (fun n => c.rb R.SCH_NODE_SCHED_SH_EN n)).map (fun n => c.rg R.SCH_NODE_SCHED_SHAPER n)
  qs.all (fun q => c.pathOk (treeRoot (c.rg R.SCH_Q_CFG_DIR q) (c.rg R.SCH_Q_CFG_PORT q)) 2 (c.rg R.SCH_Q_CFG_PARENT q)) &&
  ns.all (fun n => c.pathOk (treeRoot (c.rg R.SCH_NODE_CFG_DIR n) (c.rg R.SCH_NODE_CFG_PORT n)) 4095 (c.rg R.SCH_NODE_CFG_PARENT n)) &&
  decide (sh.eraseDups.length = sh.length)

/-- The group of a node that sends upstream is 0 to 63 (R213). -/
def Chip.nodeGroup (c : Chip) (n : Nat) : Bool := decide (c.rg R.SCH_NODE_CFG_DIR n = 1 → c.rg R.SCH_NODE_CFG_PORT n < 64)

/-- XON below XOFF of a port and priority (R210). -/
def Chip.pfcOk (c : Chip) (i : Nat) : Bool := decide (c.rg R.SCH_PFC_XON_CELLS i < c.rg R.SCH_PFC_XOFF_CELLS i)

/-- R302: at most one port with ROLE 2, and SRC 3 names it. -/
def Chip.ptpOk (c : Chip) : Bool :=
  have r2 := (c.instances R.TMG_PTP_CFG_ROLE 128).filter (fun p => decide (c.rg R.TMG_PTP_CFG_ROLE p = 2))
  decide (r2.length ≤ 1) && (decide (c.rg R.TMG_B_CFG_SRC 0 ≠ 3) || r2.contains (c.rg R.TMG_B_CFG_PORT 0))

/-- The rules that a chip's registers keep among themselves around an address (R188 to R191, R210, R302, the ranges of SD_CLR, TEQ
and CEIL): `c` holds the values that will stand. -/
def Chip.comboOk (c : Chip) (a : Nat) : Bool :=
  if 0x58000000 ≤ a ∧ a < 0x58080000 then c.queueLimits ((a - 0x58000000) / 16) && c.reservesOk c.portBlk && c.treesOk
  else if 0x58480000 ≤ a ∧ a < 0x58487FF8 then c.nodeGroup ((a - 0x58480000) / 8) && c.treesOk
  else if inFam R.TRK_CHMON_LIM_SD_CLR a then decide (c.rg R.TRK_CHMON_LIM_SD_CLR (R.TRK_CHMON_LIM_SD_CLR.instAt a) < c.rg R.TRK_CHMON_LIM_SD_THR (R.TRK_CHMON_LIM_SD_THR.instAt a))
  else if inFam R.SCH_PFC_XOFF_CELLS a then c.pfcOk (R.SCH_PFC_XOFF_CELLS.instAt a)
  else if inFam R.SCH_PFC_XON_CELLS a then c.pfcOk (R.SCH_PFC_XON_CELLS.instAt a)
  else if inFam R.TMG_A_TEQ_TEQ a then teqOk (c.rg R.TMG_A_TEQ_TEQ 0)
  else if inFam R.TMG_B_CFG_SRC a ∨ inFam R.TMG_PTP_CFG_ROLE a then c.ptpOk
  else if inFam R.TMG_SLEW_SLEW a then decide (1 ≤ c.rg R.TMG_SLEW_SLEW 0 ∧ c.rg R.TMG_SLEW_SLEW 0 ≤ c.slewMax)
  else if inFam R.TRK_GUARD_PWR_CEIL a then decide (c.rs R.TRK_GUARD_PWR_CEIL 0 ≤ c.laserCeil)
  else true

end Sys2Proof.Machine
end

