-- ==== Sys2Proof/Machine/Content.lean ====
section
/-! DEFINITION. The Almanac bit-stream (02_almanac.md R45 to R65): its sections and records, the checks that the loader makes in
their order, and what every record type may hold. -/

namespace Sys2Proof.Machine

open Sys2Proof

/-- A record of a section (R49). -/
structure ARec where
  rtype : Nat
  inst : Nat
  body : List Byte
deriving DecidableEq, Repr

/-- A section (R47): its index from 1, its header as carried and its payload. -/
structure ASect where
  index : Nat
  head : List Byte
  body : List Byte
deriving DecidableEq, Repr

def ASect.typ (s : ASect) : Nat := half s.head 0
def ASect.replace (s : ASect) : Bool := decide (half s.head 2 % 2 = 1)
def ASect.gen (s : ASect) : Nat := word s.head 4

/-- Is every byte of a list zero? -/
def allZero (l : List Byte) : Bool := l.all (fun b => decide (b = 0))

/-- The records that fill a payload, with padding of zero bytes after the last (R49); none where a boundary is broken. -/
def recsOf : Nat → List Byte → Option (List ARec)
  | 0, l => if l.isEmpty then some [] else none
  | n + 1, l =>
    if decide (l.length < 16) && allZero l then some []
    else if decide (l.length < 8) || decide (word l 4 % 4 ≠ 0) || decide (l.length < 8 + word l 4) then none
    else
      match recsOf n (l.drop (8 + word l 4)) with
      | some rs => some ({ rtype := half l 0, inst := half l 2, body := slice l 8 (word l 4) } :: rs)
      | none => none

/-- The records of a section; nothing where its boundaries are broken. -/
def ASect.recs (s : ASect) : List ARec := (recsOf (s.body.length / 8 + 1) s.body).getD []

/-- The sections that can be followed from byte 32 of an image, at most `n`, and the first index whose section does not fit. -/
def sectsOf : Nat → Nat → List Byte → List ASect × Option Nat
  | 0, _, _ => ([], none)
  | n + 1, i, l =>
    if decide (l.length < 16) || decide (l.length < 16 + word l 8) then ([], some i)
    else
      have r := sectsOf n (i + 1) (l.drop (16 + word l 8))
      ({ index := i, head := l.take 16, body := slice l 16 (word l 8) } :: r.1, r.2)

/-- Bytes of the trailer (R58) and the greatest TOTAL_LENGTH (R45). -/
def trailerLen : Nat := 7312
def maxImage : Nat := 268435456

/-! ## Records: RLEN, INSTANCE and fields (R50 to R57 and the owning chapters) -/

/-- The words of a record body. -/
def recWords (b : List Byte) : List Nat := (List.range (b.length / 4)).map (fun i => word b (4 * i))

/-- The register addresses whose words a SCHEDULE or TIMING record carries (R212, R302), GATE_LIST with `n` entries. -/
def recAddrs (rtype i n : Nat) : List Nat :=
  if rtype = 0x0401 then (List.range 4).map (fun j => 0x58000000 + 16 * i + 4 * j)
  else if rtype = 0x0402 then (List.range 3).map (fun j => 0x58300000 + 64 * i + 4 * j)
  else if rtype = 0x0403 then (List.range 3).map (fun j => 0x58380000 + 64 * i + 4 * j)
  else if rtype = 0x0404 then ((List.range 4).map (fun j => 0x58500008 + 0x1000 * i + 4 * j)) ++ (List.range n).map (fun e => 0x58500400 + 0x1000 * i + 4 * e)
  else if rtype = 0x0405 then (List.range 2).map (fun j => 0x58480000 + 8 * i + 4 * j)
  else if rtype = 0x0601 then [R.TMG_A_CFG_SEL_EN.reg, R.TMG_A_TEQ_TEQ.reg]
  else if rtype = 0x0602 then [R.TMG_B_CFG_SRC.reg, R.TMG_B_PPS_DELAY.reg]
  else if rtype = 0x0603 then [R.TMG_SERVO_CFG_BW.addr i, R.TMG_SERVO_LIM_LOCK_THR.addr i]
  else if rtype = 0x0604 then [R.TMG_SEL_CFG_MODE.reg, R.TMG_OUT_CFG_FREQ_EN.reg, R.TMG_PPSOUT_CFG_EN.addr 0, R.TMG_PPSOUT_CFG_EN.addr 1, R.TMG_CLASS_HOLD_IN.reg, R.TMG_QL_LOCKED_A.reg]
  else if rtype = 0x0605 then [R.TMG_PTP_CFG_ROLE.addr i, R.TMG_PTP_RATE_LOG_SYNC.addr i]
  else []

/-- The bits of a word that no field of its register names (RSV) are 0 (R9). -/
def rsvZero (a w : Nat) : Bool := (List.range 32).all (fun k => !bit w k || (fieldsAt a).any (fun f => decide (f.lsb ≤ k ∧ k < f.lsb + f.width)))

/-- Every word of a record within the ranges of its register, its reserved bits 0. -/
def wordsIn (rtype i : Nat) (b : List Byte) : Bool :=
  ((recAddrs rtype i (b.length / 4 - 4)).zip (recWords b)).all (fun p => inBounds p.1 p.2 && rsvZero p.1 p.2)

/-- A 16-bit field read as a signed number. -/
def halfS (b : List Byte) (o : Nat) : Int := sgn 16 (half b o)

/-- A next node: a node, end of parse, NO_MATCH (R156). -/
def nextOk (n : Nat) : Bool := decide (n ≤ 255 ∨ n = 0xFFFE ∨ n = 0xFFFF)

/-- NODE (R156). -/
def nodeOk (b : List Byte) : Bool :=
  have len := half b 2
  have lv := decide (byteAt b 1 % 2 = 1)
  decide (byteAt b 0 ≤ 63 ∧ byteAt b 1 < 16 ∧ bits (byteAt b 1) 1 3 ≤ 6 ∧ 1 ≤ len ∧ len ≤ 512) &&
  (!lv || decide (half b 4 ≤ 4095 ∧ 1 ≤ byteAt b 6 ∧ byteAt b 6 ≤ 16 ∧ byteAt b 7 ≤ 3 ∧ -512 ≤ halfS b 8 ∧ halfS b 8 ≤ 512 ∧ half b 4 + byteAt b 6 ≤ 8 * len)) &&
  decide (half b 10 ≤ 4095 ∧ byteAt b 12 ≤ 16 ∧ byteAt b 13 ≤ 8 ∧ (byteAt b 12 = 0 ∨ half b 10 + byteAt b 12 ≤ 8 * len)) && nextOk (half b 14) &&
  (List.range 8).all (fun i => decide (half b (16 + 8 * i + 6) = 0) && (decide (byteAt b 13 ≤ i) || nextOk (half b (16 + 8 * i + 4))))

/-- EXTRACT apart from its node (R158). -/
def extractOk (b : List Byte) : Bool :=
  decide (byteAt b 0 ≤ 8) && allZero (slice b 1 3) &&
  (List.range 8).all (fun i =>
    have e := word b (4 + 4 * i)
    if i < byteAt b 0 then decide (bits e 0 6 = 0 ∧ bits e 6 8 + bits e 14 6 + 1 ≤ 256) else decide (e = 0))

/-- The widest key of a table kind (R165). -/
def keyMax (kind : Nat) : Nat := if kind = 1 then 160 else if kind = 3 then 32 else 320

/-- The allocation of a layout fits its table (R165). -/
def allocOk (kind base size : Nat) : Bool :=
  if kind = 1 then decide (65536 ≤ size ∧ 2 ^ log2 size = size ∧ base % size = 0 ∧ base + size ≤ 4194304)
  else if kind = 2 then decide (0 < size ∧ size % 1024 = 0 ∧ base % 1024 = 0 ∧ base + size ≤ 65536)
  else if kind = 3 then decide (0 < size ∧ size % 256 = 0 ∧ base % 256 = 0 ∧ base + size ≤ 16384)
  else if kind = 4 then decide (base ≤ 7 ∧ size = 0)
  else decide (size = 0)

/-- An action word that a table may hold: VALID = 0, or legal (R173). -/
def actionOk (w : Nat) : Bool := !bit w 63 || wordLegal w

/-- LAYOUT (R164, R165). -/
def layoutOk (b : List Byte) : Bool :=
  have kind := byteAt b 0
  have nseg := byteAt b 1
  have width := (List.range 8).foldl (fun n i => if i < nseg then n + bits (word b (24 + 4 * i)) 16 7 else n) 0
  decide (kind ≤ 4 ∧ nseg ≤ 8 ∧ (nseg = 0 → kind = 0)) && decide (bits (half b 2) 9 5 = 0) && allocOk kind (word b 4) (word b 8) && allZero (slice b 12 4) &&
  actionOk (beAt b 16 8) &&
  (List.range 8).all (fun i => decide (bits (word b (24 + 4 * i)) 0 16 = 0) && (decide (nseg ≤ i) || decide (1 ≤ bits (word b (24 + 4 * i)) 16 7 ∧ bits (word b (24 + 4 * i)) 16 7 ≤ 64))) &&
  (decide (kind = 0) || decide (1 ≤ width ∧ width ≤ keyMax kind))

/-- The cell x of a PROGRAM, STEER or COEF_INIT cell number 16 × b + c, and whether the number names a sample cell. -/
def smpOf (n : Nat) : Nat := 3 * (n / 16) + (n % 16 - 8)
def smpCellOk (n : Nat) : Bool := decide (n < 512 ∧ 8 ≤ n % 16 ∧ n % 16 ≤ 10)

/-- The microwords of a PROGRAM body. -/
def progWords (b : List Byte) : List Nat := (List.range (half b 0)).map (fun e => beAt b (256 + 16 * e) 16)

/-- PROGRAM (R226, R238, R239). -/
def programOk (b : List Byte) : Bool :=
  have n := half b 0
  have b0 := half b 4
  have b1 := half b 6
  have cs := half b 8
  decide (1 ≤ n ∧ n ≤ 2048 ∧ b.length = 256 + 16 * n ∧ half b 2 < n ∧ b0 ≤ 511 ∧ b1 ≤ 511 ∧ 1 ≤ cs ∧ cs ≤ 256 ∧ 1 ≤ half b 10 ∧ half b 10 ≤ 1000) &&
  allZero (slice b 12 4) && decide (b0 + cs ≤ 512 ∧ b1 + cs ≤ 512 ∧ (b0 + cs ≤ b1 ∨ b1 + cs ≤ b0)) &&
  ((List.range n).zip (progWords b)).all (fun p => mwLegal p.2 && decide (mwEos p.2 = decide (p.1 + 1 = n)))

/-- STEER (R242). -/
def steerOk (b : List Byte) : Bool :=
  have k := byteAt b 0
  decide (k ≤ 2 ∧ byteAt b 1 < 8 ∧ half b 6 ≤ 274 ∧ 1 ≤ half b 8 ∧ half b 8 ≤ 275 ∧ half b 6 + half b 8 ≤ 275 ∧ byteAt b 15 = 0) && smpCellOk (half b 2) &&
  (if k = 0 then decide (byteAt b 4 ≤ 127 ∧ 1 ≤ byteAt b 5 ∧ byteAt b 5 ≤ 16 ∧ (half b 10 < 4096 ∨ half b 10 = 0xFFFF) ∧ 10 ≤ half b 12 ∧ half b 12 ≤ 1000 ∧ byteAt b 14 = 0)
   else if k = 1 then decide (byteAt b 4 ≤ 63 ∧ 1 ≤ byteAt b 5 ∧ byteAt b 5 ≤ 16 ∧ half b 10 = 0xFFFF ∧ half b 12 = 0 ∧ 1 ≤ byteAt b 14)
   else decide (byteAt b 4 = 0 ∧ byteAt b 5 = 0 ∧ half b 10 = 0xFFFF ∧ 100 ≤ half b 12 ∧ half b 12 ≤ 10000 ∧ byteAt b 14 = 0))

/-- Power domains: parents, whether a request may name any state (R407). -/
def domParents (d : Nat) : List Nat :=
  if d = 0 then [] else if d ≤ 3 then [0] else if d = 4 then [2] else if d = 5 then [2, 3] else if d = 6 then [2] else if d = 7 then [6]
  else if d = 8 then [6, 1, 3] else if d ≤ 12 then [6, 1] else [d - 4]
def domRequestable (d : Nat) : Bool := decide (7 ≤ d)

/-- A record whose body fits its type and instance (R50). An ENTRIES body is checked with the layout of its stage. -/
def recOk (r : ARec) : Bool :=
  have b := r.body
  have i := r.inst
  have n := b.length
  match r.rtype with
  | 0x0101 => decide (i < 128 ∧ n = 8 ∧ byteAt b 0 ≤ 4 ∧ byteAt b 1 ≤ 1 ∧ byteAt b 2 ≤ 31 ∧ byteAt b 2 / 8 = i / 32 ∧ byteAt b 3 ≤ 3) && allZero (slice b 4 4)
  | 0x0102 => decide (i < 32 ∧ n = 16 ∧ byteAt b 0 ≤ 4 ∧ byteAt b 1 ≤ 2 ∧ byteAt b 2 ≤ 2 ∧ byteAt b 3 = 0 ∧ half b 4 ≤ 512 ∧ 256 ≤ half b 6 ∧ half b 6 ≤ 16384 ∧ beAt b 8 8 < 2 ^ 44) &&
      (List.range 11).all (fun j => decide (bits (beAt b 8 8) (4 * j) 4 ≠ 0))
  | 0x0103 => decide (i = 0 ∧ n = 8 ∧ (half b 0 = 0 ∨ 1518 ≤ half b 0 ∧ half b 0 ≤ 16128) ∧ byteAt b 2 ≤ 1 ∧ 1 ≤ byteAt b 3 ∧ byteAt b 3 ≤ 2) && allZero (slice b 4 4)
  | 0x0201 => decide (i < 256 ∧ n = 80) && nodeOk b
  | 0x0202 => decide (i < 256 ∧ n = 36) && extractOk b
  | 0x0203 => decide (i < 6 ∧ n = 4 ∧ byteAt b 0 ≤ 2 ∧ byteAt b 1 ≤ 7 ∧ half b 2 = 0)
  | 0x0301 => decide (i < 12 ∧ n = 56) && layoutOk b
  | 0x0302 => decide (i ≤ 12 ∧ 8 ≤ n ∧ 1 ≤ word b 4)
  | 0x0303 => decide (i < 8 ∧ n = 16 ∧ 10 ≤ byteAt b 8 ∧ byteAt b 8 ≤ 26 ∧ byteAt b 9 = 0 ∧ 1 ≤ half b 10 ∧ half b 10 ≤ 320) && allZero (slice b 12 4)
  | 0x0401 => decide (i < 32768 ∧ n = 16) && wordsIn 0x0401 i b
  | 0x0402 => decide (i < 8192 ∧ n = 12) && wordsIn 0x0402 i b
  | 0x0403 => decide (i < 16384 ∧ n = 12) && wordsIn 0x0403 i b
  | 0x0404 =>
    have ln := bits (word b 12) 0 9
    decide (i < 128 ∧ 1 ≤ ln ∧ ln ≤ 256 ∧ n = 16 + 4 * ln) && wordsIn 0x0404 i b &&
      decide (((recWords b).drop 4).foldl (fun s w => s + w % 2 ^ 24) 0 ≤ 1000000000)
  | 0x0405 => decide (i < 4095 ∧ n = 8) && wordsIn 0x0405 i b
  | 0x0501 => smpCellOk i && decide (272 ≤ n) && programOk b
  | 0x0502 => decide (i < 4096 ∧ n = 32) && steerOk b
  | 0x0503 => smpCellOk i && decide (16 < n ∧ (n - 16) % 640 = 0) && (b.take 16).all (fun x => decide (x.toNat ≤ 32))
  | 0x0601 => decide (i = 0 ∧ n = 8) && wordsIn 0x0601 0 b && teqOk (word b 4)
  | 0x0602 => decide (i = 0 ∧ n = 8) && wordsIn 0x0602 0 b
  | 0x0603 => decide (i < 2 ∧ n = 8) && wordsIn 0x0603 i b
  | 0x0604 => decide (i = 0 ∧ n = 24) && wordsIn 0x0604 0 b
  | 0x0605 => decide (i < 128 ∧ n = 8) && wordsIn 0x0605 i b
  | 0x0701 => decide (i < 24 ∧ n = 8 ∧ 600 ≤ half b 0 ∧ half b 0 ≤ 850 ∧ half b 0 % 10 = 0 ∧ 100 ≤ half b 2 ∧ half b 2 ≤ 4000) && allZero (slice b 4 4)
  | 0x0702 => decide (i < 17 ∧ n = 8 ∧ byteAt b 0 ≤ 2 ∧ byteAt b 1 ≤ 5 ∧ (9 ≤ i ∧ i ≤ 12 ∨ byteAt b 1 = 0) ∧ 1 ≤ byteAt b 2 ∧ byteAt b 2 ≤ 50) && allZero (slice b 3 5)
  | 0x0703 => decide (i = 0 ∧ n = 8 ∧ 80 ≤ byteAt b 0 ∧ byteAt b 0 ≤ 110 ∧ byteAt b 1 + 5 ≤ byteAt b 0 ∧ byteAt b 0 + 1 ≤ byteAt b 2 ∧ byteAt b 2 ≤ 118 ∧ byteAt b 3 ≤ 1) && allZero (slice b 4 4)
  | 0x0801 => decide (i < 11 ∧ n = 16 ∧ byteAt b 0 ≤ 1 ∧ 2 ≤ byteAt b 1 ∧ byteAt b 2 ≤ (if i = 2 then 2 else 0) ∧ byteAt b 3 = 0 ∧ word b 4 ≤ word b 8) && allZero (slice b 12 4)
  | 0x0901 => decide (i < 8 ∧ 8 ≤ n ∧ half b 0 = 0 ∧ half b 4 ≤ 16 ∧ half b 6 = 0 ∧ n = 8 + 64 * half b 4)
  | 0x0902 =>
    if i = 0 then decide (1 ≤ byteAt b 0 ∧ byteAt b 0 ≤ 4 ∧ n = 8 + 64 * byteAt b 0) && allZero (slice b 1 7)
    else decide (i ≤ 254 ∧ n = 8 ∧ byteAt b 0 ≤ 3 ∧ 1 ≤ byteAt b 1 ∧ byteAt b 1 ≤ 16 ∧ i + byteAt b 1 ≤ 255 ∧ 1 ≤ half b 2 ∧ byteAt b 4 ≤ 1) && allZero (slice b 5 3)
  | 0x0903 =>
    have tmp := decide (i = 3 ∨ i = 4)
    decide (i < 8 ∧ n = 8 ∧ byteAt b 0 ≤ 1 ∧ byteAt b 1 ≤ 1 ∧ half b 6 = 0) && (tmp || decide (byteAt b 1 = 1 ∧ half b 2 = 0 ∧ half b 4 = 0)) &&
      (!tmp || decide (1 ≤ half b 2 ∧ half b 2 ≤ 1000 ∧ half b 4 ≤ 3600))
  | 0x0A01 => decide (i = 0 ∧ n = 72) && allZero (slice b 68 4)
  | 0x0A02 =>
    have rev := fun (x : Nat) => decide (x = 2 ∨ x = 3)
    decide (i = 0 ∧ n = 4 ∧ half b 2 = 0) && rev (byteAt b 0) && rev (byteAt b 1) && decide (byteAt b 1 ≤ byteAt b 0)
  | _ => false

/-! ## The resulting objects (R52) -/

/-- An instance that an object of a delta's record type may have (R50, R52). -/
def instOk (rtype i : Nat) : Bool := match rtype with
  | 0x0201 => decide (i < 256)
  | 0x0202 => decide (i < 256)
  | 0x0203 => decide (i < 6)
  | 0x0301 => decide (i < 12)
  | 0x0303 => decide (i < 8)
  | 0x0401 => decide (i < 32768)
  | 0x0402 => decide (i < 8192)
  | 0x0403 => decide (i < 16384)
  | 0x0404 => decide (i < 128)
  | 0x0405 => decide (i < 4095)
  | 0x0501 => smpCellOk i
  | 0x0502 => decide (i < 4096)
  | 0x0503 => smpCellOk i
  | 0x0603 => decide (i < 2)
  | 0x0605 => decide (i < 128)
  | 0x0601 => decide (i = 0)
  | 0x0602 => decide (i = 0)
  | 0x0604 => decide (i = 0)
  | _ => false

/-- The key of an object. -/
def ARec.key (r : ARec) : Nat := r.rtype * 65536 + r.inst

/-- The ENTRIES runs of a list of records: stage, first index, count, entries. -/
def runsOf (rs : List ARec) : List ARec := rs.filter (fun r => decide (r.rtype = 0x0302))

/-- Two ENTRIES records of one INSTANCE overlap (R171). -/
def runsMeet (r s : ARec) : Bool :=
  decide (r.inst = s.inst ∧ word r.body 0 < word s.body 0 + word s.body 4 ∧ word s.body 0 < word r.body 0 + word r.body 4)

/-- Does a property hold of every pair of a list, earlier and later? -/
def pairs {α : Type} (p : α → α → Bool) : List α → Bool
  | [] => true
  | x :: l => l.all (fun y => p x y) && pairs p l

/-- No object is named twice, no runs overlap (R52). -/
def namedOnce (rs : List ARec) : Bool :=
  pairs (fun r s => if r.rtype = 0x0302 ∧ s.rtype = 0x0302 then !runsMeet r s else decide (r.key ≠ s.key)) rs

/-- The objects after a section: all replaced with REPLACE, or each record replacing its object, RLEN 0 resetting it (R52). -/
def mergeSect (objs : Tab (List Byte)) (s : ASect) : Tab (List Byte) :=
  have base : Tab (List Byte) := if s.replace then objs.filter (fun (e : Nat × List Byte) => decide (e.1 / 65536 / 256 ≠ s.typ)) else objs
  s.recs.foldl (fun (t : Tab (List Byte)) r => if r.rtype = 0x0302 then t else if r.body.isEmpty then t.erase r.key else t.set r.key r.body) base

/-- The object of a type and instance, and the instances of a type, in a table of objects. -/

def instsOf (t : Tab (List Byte)) (rtype : Nat) : List (Nat × List Byte) := (t.filter (fun e => decide (e.1 / 65536 = rtype))).map (fun e => (e.1 % 65536, e.2))

/-- The words of a record written to its registers; its registers at their reset values (the entries of a gate list too). -/
def Chip.putRec (c : Chip) (rtype i : Nat) (b : List Byte) : Chip :=
  ((recAddrs rtype i (b.length / 4 - 4)).zip (recWords b)).foldl (fun d p => d.putWord p.1 p.2) c
def Chip.resetRec (c : Chip) (rtype i : Nat) : Chip := (recAddrs rtype i 256).foldl (fun d a => d.resetWord a) c

/-- Is an address one of the registers that SCHEDULE records set (R212)? -/
def isSchCfg (a : Nat) : Bool :=
  decide (0x58000000 ≤ a ∧ a < 0x58080000) || decide (0x58300000 ≤ a ∧ a < 0x58380000 ∧ a % 64 < 12) || decide (0x58380000 ≤ a ∧ a < 0x58480000 ∧ a % 64 < 12) ||
  decide (0x58480000 ≤ a ∧ a < 0x58488000) || decide (0x58500000 ≤ a ∧ a < 0x58580000 ∧ (8 ≤ a % 4096 ∧ a % 4096 < 0x18 ∨ 0x400 ≤ a % 4096 ∧ a % 4096 < 0x800))

/-- The SCHEDULE object whose registers lie at an address, as a key (R212). -/
def schedKey (a : Nat) : Option Nat :=
  if a < 0x58000000 then none
  else if a < 0x58080000 then some (0x0401 * 65536 + (a - 0x58000000) / 16)
  else if 0x58300000 ≤ a ∧ a < 0x58380000 then some (0x0402 * 65536 + (a - 0x58300000) / 64)
  else if 0x58380000 ≤ a ∧ a < 0x58480000 then some (0x0403 * 65536 + (a - 0x58380000) / 64)
  else if 0x58480000 ≤ a ∧ a < 0x58488000 then some (0x0405 * 65536 + (a - 0x58480000) / 8)
  else if 0x58500000 ≤ a ∧ a < 0x58580000 then some (0x0404 * 65536 + (a - 0x58500000) / 0x1000)
  else none

/-- The registers that records of a type set take their reset values. -/
def Chip.clearCfg (c : Chip) (p : Nat → Bool) : Chip := { c with regs := c.regs.filter (fun (e : Nat × Nat) => !p (e.1 / 32)) }

/-- The chip with the SCHEDULE objects of a table in its registers, for the checks across queues and nodes. -/
def Chip.withSched (c : Chip) (t : Tab (List Byte)) : Chip :=
  [0x0401, 0x0402, 0x0403, 0x0404, 0x0405].foldl (fun d k => (instsOf t k).foldl (fun e r => e.putRec k r.1 r.2) d) (c.clearCfg isSchCfg)

/-- The chip with the TIMING objects of a table in its registers. -/
def timingKinds : List (Nat × Nat) := [(0x0601, 1), (0x0602, 1), (0x0603, 2), (0x0604, 1), (0x0605, 128)]
def Chip.withTiming (c : Chip) (t : Tab (List Byte)) : Chip :=
  timingKinds.foldl (fun d k => (List.range k.2).foldl (fun e i => match objOf t k.1 i with
    | some b => (e.resetRec k.1 i).putRec k.1 i b
    | none => e.resetRec k.1 i) d) c

/-! ## Checks across records -/

/-- STRUCTURE (R54, R56, R453). -/
def Chip.structOk (c : Chip) (t : Tab (List Byte)) : Bool :=
  decide ((instsOf t 0x0101).length = 128 ∧ (instsOf t 0x0102).length = 32) &&
  pairs (fun (p q : Nat × List Byte) => decide (half p.2 2 ≠ half q.2 2)) (instsOf t 0x0101) &&
  (match objOf t 0x0103 0 with
   | some b => decide (byteAt b 3 = c.rg R.MEM_DDR_STAT_DIMMS 0)
   | none => false)

/-- PARSE_GRAPH: node 0, every named node, every EXTRACT within its node (R156, R158). -/
def parseOk (t : Tab (List Byte)) : Bool :=
  have has := fun (n : Nat) => (objOf t 0x0201 n).isSome
  has 0 &&
  (instsOf t 0x0201).all (fun r => ((half r.2 14) :: (List.range (byteAt r.2 13)).map (fun i => half r.2 (20 + 8 * i))).all (fun n => decide (255 < n) || has n)) &&
  (instsOf t 0x0202).all (fun r => match objOf t 0x0201 r.1 with
    | some nb => (List.range (byteAt r.2 0)).all (fun i => decide (bits (word r.2 (4 + 4 * i)) 20 12 + bits (word r.2 (4 + 4 * i)) 14 6 + 1 ≤ 8 * half nb 2))
    | none => false)

/-- Window format of a table kind (R172): stride, offset of ACTION, address of entry `e` of bank `b`. -/
def kindStride (k : Nat) : Nat := if k = 1 then 32 else if k = 2 then 128 else 16
def kindAction (k : Nat) : Nat := if k = 1 then 20 else if k = 2 then 80 else 8
def kindAddr (k b e : Nat) : Nat := if k = 1 then exactAddr b e else if k = 2 then ternAddr b e else rangeAddr b e

/-- The ENTRIES runs fit the allocations (R104, R166, R171, R173). -/
def runOk (t : Tab (List Byte)) (r : ARec) : Bool :=
  have first := word r.body 0
  have n := word r.body 4
  if r.inst = 12 then
    decide (r.body.length = 8 + 4 * n ∧ first + n ≤ 65535) && (List.range n).all (fun i => decide (word r.body (8 + 4 * i) < 128))
  else
    match objOf t 0x0301 r.inst with
    | none => false
    | some l =>
      have k := byteAt l 0
      decide (1 ≤ k ∧ k ≤ 3 ∧ r.body.length = 8 + kindStride k * n ∧ first + n ≤ word l 8) &&
      (List.range n).all (fun i =>
        have e := slice r.body (8 + kindStride k * i) (kindStride k)
        have w := beAt e (kindAction k) 8
        actionOk w && (decide (k ≠ 1) || !bit w 63 || decide ((first + i) / 4 = exactBucket (beAt e 0 20) (word l 8))))

/-- Two spans overlap. -/
def meets (a n b m : Nat) : Bool := decide (a < b + m ∧ b < a + n)

/-- TABLES: allocations, flow tables, runs (R165, R167, R171). -/
def Chip.tablesOk (c : Chip) (t : Tab (List Byte)) (runs : List ARec) : Bool :=
  pairs (fun (p q : Nat × List Byte) => decide (byteAt p.2 0 ≠ byteAt q.2 0) || decide (byteAt p.2 0 = 0 ∨ byteAt p.2 0 = 4) ||
    !meets (word p.2 4) (word p.2 8) (word q.2 4) (word q.2 8)) (instsOf t 0x0301) &&
  (have spans := (instsOf t 0x0303).flatMap (fun r => [(word r.2 0 * 4096, 256 * 2 ^ byteAt r.2 8), (word r.2 4 * 4096, 256 * 2 ^ byteAt r.2 8)])
   spans.all (fun s => decide (s.1 + s.2 ≤ c.ddrCap)) && pairs (fun (p q : Nat × Nat) => !meets p.1 p.2 q.1 q.2) spans &&
   decide (((instsOf t 0x0303).map (fun r => 4 * 2 ^ byteAt r.2 8)).sum ≤ 268435456)) &&
  runs.all (fun r => runOk t r)

/-- Did a delta's layout move: KIND, BASE or SIZE of a stage differ from the active ones (R68)? -/
def Chip.stageMoved (c : Chip) (t : Tab (List Byte)) (s : Nat) : Bool :=
  match objOf t 0x0301 s, c.obj 0x0301 s with
  | some n, some o => decide (byteAt n 0 ≠ byteAt o 0 ∨ slice n 4 8 ≠ slice o 4 8)
  | some _, none => true
  | none, some _ => true
  | none, none => false

/-- A new allocation of a delta overlaps entries of its inactive bank that a live rule generation uses (R68). -/
def Chip.newMeets (c : Chip) (t : Tab (List Byte)) : Bool :=
  (List.range 12).any (fun s => c.stageMoved t s && (match objOf t 0x0301 s with
    | none => false
    | some n =>
      have bank := 1 - c.rg R.PKT_STAGE_BANK_ACT s
      decide (1 ≤ byteAt n 0 ∧ byteAt n 0 ≤ 3) &&
      (List.range 4).any (fun g => c.rb R.PKT_GEN_SLOT_LIVE g && (List.range 12).any (fun u =>
        decide (bitN (c.rg R.PKT_GEN_SLOT_BANKS g) u = bank) && (match c.pp.layouts.find (2 * u + bank) with
          | some o => decide (byteAt o 0 = byteAt n 0) && meets (word n 4) (word n 8) (word o 4) (word o 8)
          | none => false)))))

/-- SCHEDULE (R188, R190, R191, R210). -/
def Chip.schedOk (c : Chip) (t : Tab (List Byte)) : Bool :=
  have d := { c with alm.active := t }.withSched t
  (instsOf t 0x0401).all (fun r => d.queueLimits r.1) && (instsOf t 0x0405).all (fun r => d.nodeGroup r.1) && d.reservesOk d.portBlk && d.treesOk

/-- The spare sample cell of a block in its BLOCK record. -/
def spareNamed (t : Tab (List Byte)) (cell : Nat) : Bool := match objOf t 0x0102 (cell / 16) with
  | some b => decide (byteAt b 2 = cell % 16 - 8)
  | none => false

/-- A chain of input flows from flow `f` reaches its end within `n` more flows, through input flows only (R243). -/
def chainOk (t : Tab (List Byte)) : Nat → Nat → Bool
  | n, f =>
    match objOf t 0x0502 f with
    | none => false
    | some b =>
      if byteAt b 0 ≠ 0 then false
      else if half b 10 = 0xFFFF then true
      else
        match n with
        | 0 => false
        | m + 1 => chainOk t m (half b 10)

/-- MAX_FRAME of a table of objects (R56). -/
def maxFrameOf (t : Tab (List Byte)) : Nat := match objOf t 0x0103 0 with
  | some b => if half b 0 = 0 then 9216 else half b 0
  | none => 9216

/-- SAMPLE_PROGRAMS (R239, R243, R261). `named`: the objects that this Almanac names, `delta`: whether it is one. -/
def sampleOk (t : Tab (List Byte)) (named : List Nat) (delta : Bool) : Bool :=
  have st := instsOf t 0x0502
  have ins := st.filter (fun r => decide (byteAt r.2 0 = 0))
  have outs := st.filter (fun r => decide (byteAt r.2 0 = 1))
  have cos := st.filter (fun r => decide (byteAt r.2 0 = 2))
  have cells := (ins.map (fun r => half r.2 2)).eraseDups
  (instsOf t 0x0501).all (fun r => !spareNamed t r.1) && st.all (fun r => !spareNamed t (half r.2 2)) &&
  cells.all (fun x =>
    have mine := ins.filter (fun r => decide (half r.2 2 = x))
    have g := cdiv (12 * half ((mine.head?.map (fun r => r.2)).getD []) 8) 128
    (List.range mine.length).all (fun k => decide ((mine.filter (fun r => decide (byteAt r.2 4 = k))).length = 1)) &&
    pairs (fun (p q : Nat × List Byte) => decide (half p.2 8 = half q.2 8 ∧ byteAt p.2 1 % 2 = byteAt q.2 1 % 2)) mine &&
    decide (2 * g * mine.length ≤ 1024)) &&
  pairs (fun (p q : Nat × List Byte) => decide (half p.2 2 ≠ half q.2 2 ∨ byteAt p.2 4 ≠ byteAt q.2 4)) outs &&
  pairs (fun (p q : Nat × List Byte) => decide (half p.2 2 ≠ half q.2 2)) cos &&
  ins.all (fun r => chainOk t 7 r.1) &&
  outs.all (fun r => decide (30 + 4 * bits (byteAt r.2 1) 1 1 + byteAt r.2 14 * (1 + 3 * byteAt r.2 5) + 4 ≤ maxFrameOf t)) &&
  (instsOf t 0x0503).all (fun r => (match objOf t 0x0501 r.1 with
    | some p => decide (r.2.length = 16 + 640 * half p 8)
    | none => false)) &&
  !(delta && cos.any (fun k => named.contains (0x0503 * 65536 + half k.2 2)))

/-- TIMING (R302). -/
def Chip.timingOk (c : Chip) (t : Tab (List Byte)) : Bool := (c.withTiming t).ptpOk

/-- A domain's INIT, INIT_OP and RETRY_DLY (R422). -/
def initOf (t : Tab (List Byte)) (d : Nat) : Nat := match objOf t 0x0702 d with
  | some b => byteAt b 0
  | none => 2
def initOpOf (t : Tab (List Byte)) (d : Nat) : Nat := match objOf t 0x0702 d with
  | some b => byteAt b 1
  | none => 5

/-- POWER_POLICY (R419, R422); a domain with no record takes INIT ON, so a parent's record may not leave it without its parent (DEDUCED). -/
def powerOk (t : Tab (List Byte)) : Bool :=
  (List.range 4).all (fun n => (List.range 5).all (fun k => decide ((opOf t n k).1 ≤ (opOf t n (k + 1)).1 ∧ (opOf t n k).2 ≤ (opOf t n (k + 1)).2))) &&
  (instsOf t 0x0702).all (fun r => decide (byteAt r.2 0 = 2) || domRequestable r.1) &&
  (List.range 17).all (fun d => decide (initOf t d ≠ 2) || (domParents d).all (fun p => decide (initOf t p = 2)))

/-- SECURITY_POLICY: no key digest twice (R390). -/
def roleKeys (b : List Byte) : List (List Byte) := (List.range (half b 4)).map (fun i => slice b (8 + 64 * i) 64)
def securityOk (t : Tab (List Byte)) : Bool :=
  have ks := (instsOf t 0x0901).flatMap (fun r => roleKeys r.2)
  pairs (fun (a b : List Byte) => decide (a ≠ b)) ks

/-- The required pace of region n under a table of objects (R16). -/
def paceOf (t : Tab (List Byte)) (n : Nat) : Nat :=
  ((List.range 8).map (fun m =>
    have rates := ((instsOf t 0x0101).filter (fun r => decide (byteAt r.2 2 = 8 * n + m))).map (fun r => rateMbps (byteAt r.2 0))
    reqPace rates (match objOf t 0x0102 (8 * n + m) with
      | some b => half b 4
      | none => 0))).foldl max 0

/-- The records of one section are in order, and what results holds (check 16): `t` is the resulting table of objects. -/
def Chip.sectOk (c : Chip) (t : Tab (List Byte)) (delta : Bool) (s : ASect) : Bool :=
  have rs := s.recs
  rs.all (fun r => decide (r.rtype / 256 = s.typ)) && namedOnce rs &&
  rs.all (fun r => if r.body.isEmpty then delta && !s.replace && decide (r.rtype ≠ 0x0302) && instOk r.rtype r.inst else recOk r) &&
  (match s.typ with
   | 1 => c.structOk t
   | 2 => parseOk t
   | 3 => c.tablesOk t (runsOf rs) && !(delta && c.newMeets t)
   | 4 => c.schedOk t
   | 5 => sampleOk t (rs.map ARec.key) delta
   | 6 => c.timingOk t
   | 7 => powerOk t
   | 9 => securityOk t
   | 10 => (objOf t 0x0A02 0).isSome
   | _ => true)

/-! ## The checks of R65 -/

/-- A failure: cause of ALM_LOAD_STAT and section index. -/
def chk (bad : Bool) (cause sect : Nat) : List (Nat × Nat) := if bad then [(cause, min sect 15)] else []

/-- The OMLIA_DIGEST that the Almanac binds (R57): of the first OMLIA record, whose RLEN check 16 judges. -/
def omliaOf (ss : List ASect) : Option (List Byte) :=
  (ss.find? (fun s => decide (s.typ = 10))).bind (fun s => (s.recs.find? (fun r => decide (r.rtype = 0x0A01))).map (fun r => r.body.take 64))

/-- The objects that result from an image: those of a full Almanac, or the active ones changed by a delta. -/
def Chip.resultOf (c : Chip) (full : Bool) (ss : List ASect) : Tab (List Byte) := ss.foldl mergeSect (if full then [] else c.alm.active)

/-- Checks 4 to 17 in order (R65): the first failure, none where the image passes. The signature is over trailer bytes 0 to 79 with an
empty context (R60). `jub`: the load runs in JUBILEE. An image too short for header and trailer fails with MAGIC, and a full image with
a BASE_GENERATION other than 0 with FORMAT (log entry 70). -/
def Chip.verify (c : Chip) (img : List Byte) (jub : Bool) : Option (Nat × Nat) :=
  have n := img.length
  have cnt := half img 20
  have gen := word img 8
  have kind := byteAt img 6
  have full := decide (kind ≠ 1)
  have sp := sectsOf cnt 1 ((img.drop 32).take (n - 32 - trailerLen))
  have ss := sp.1
  have tr := img.drop (n - trailerLen)
  have types := ss.map ASect.typ
  have h := ss.foldl (fun (d : List Byte) (s : ASect) => sha3_512 (d ++ s.head ++ s.body)) (sha3_512 (img.take 32))
  have pub := slice tr 80 2592
  have slot := byteAt tr 6
  have t := c.resultOf full ss
  have active := c.rg R.ALM_GEN_ACTIVE_GEN 0
  (chk (decide (n < 32 + trailerLen) || decide (word img 0 ≠ 0x4B51414D) || decide (word tr 0 ≠ 0x4B515445)) 4 0 ++
   chk (decide (half img 4 ≠ 1) || decide (1 < kind) || decide (byteAt img 7 ≠ 0) || !allZero (slice img 22 10) || decide (kind = 0 ∧ word img 12 ≠ 0) ||
     decide (byteAt tr 7 ≠ 0) || !allZero (slice tr 12 4) || !allZero (slice tr 7299 13) || decide (half tr 4 ≠ cnt) || decide (word tr 8 ≠ gen)) 5 0 ++
   ss.flatMap (fun s => chk (decide (1 < half s.head 2) || decide (half s.head 14 ≠ 0)) 5 s.index) ++
   (match sp.2 with
    | some i => [(6, min i 15)]
    | none => []) ++
   chk (decide (word img 16 ≠ n) || decide (maxImage < word img 16) || decide (n ≠ 32 + trailerLen + (ss.map (fun s => 16 + s.body.length)).sum)) 6 0 ++
   ss.flatMap (fun s => chk (decide (s.body.length % 16 ≠ 0) || (recsOf (s.body.length / 8 + 1) s.body).isNone) 6 s.index) ++
   chk (decide (cnt = 0 ∨ 10 < cnt)) 7 0 ++
   ((List.range ss.length).zip ss).flatMap (fun p =>
     chk (decide (p.2.typ = 0 ∨ 10 < p.2.typ) || decide (0 < p.1 ∧ p.2.typ ≤ types.getD (p.1 - 1) 0)) 7 p.2.index ++
     chk (!full && decide (p.2.typ = 1 ∨ 6 < p.2.typ)) 8 p.2.index ++ chk (full && !p.2.replace) 7 p.2.index) ++
   chk (full && decide (ss.length ≠ 10)) 7 0 ++
   ss.flatMap (fun s => chk (decide (half s.head 12 ≠ 1)) 9 s.index) ++
   chk (decide (h ≠ slice tr 16 64)) 10 0 ++
   chk (decide (3 < slot) || !c.rootValid slot || decide (sha3_512 pub ≠ c.rootHash slot)) 11 0 ++
   chk (!Config.mldsaVerify pub [] (tr.take 80) (slice tr 2672 4627)) 12 0 ++
   ss.flatMap (fun s => chk (!bit (c.signScope slot) (s.typ - 1)) 13 s.index) ++
   chk (decide (gen = 0) || ((!full || jub) && decide (gen ≤ active))) 14 0 ++ chk (!full && decide (word img 12 ≠ active)) 15 0 ++
   ss.flatMap (fun s => chk (decide (gen < s.gen) || (!full && decide (s.gen ≠ gen))) 14 s.index) ++
   ss.flatMap (fun s => chk (decide (s.typ = 9 ∨ s.typ = 10) && decide (s.gen < c.arbCount * 0x04000000)) 16 s.index) ++
   ss.flatMap (fun s => chk (full && decide (s.typ = 10) && (match omliaOf ss with
     | none => true
     | some d => decide (d ≠ (if jub then (c.sec.cand.map (fun x => x.1)).getD [] else c.sec.dOmlia)))) 17 s.index) ++
   ss.flatMap (fun s => chk (!c.sectOk t (!full) s) 18 s.index) ++
   (List.range 4).flatMap (fun r => chk (full && decide ((opOf t r (initOpOf t (9 + r))).2 < paceOf t r)) 19
     (((ss.find? (fun s => decide (s.typ = 7))).map (fun s => s.index)).getD 0))).head?

/-- What a verified image prepares: the resulting objects, the ENTRIES runs as words keyed by stage, the sections (R66). -/
def Chip.preparedOf (c : Chip) (img : List Byte) : Prepared :=
  have full := decide (byteAt img 6 ≠ 1)
  have ss := (sectsOf (half img 20) 1 ((img.drop 32).take (img.length - 32 - trailerLen))).1
  have runs := runsOf (ss.flatMap ASect.recs)
  { full := full, gen := word img 8, base := word img 12, objs := c.resultOf full ss,
    words := runs.foldl (fun (w : Tab Nat) r => (List.range ((r.body.length - 8) / 4)).foldl (fun (w : Tab Nat) j =>
      w.set (r.inst * 2 ^ 32 + word r.body 0 * (if r.inst = 12 then 4 else kindStride (byteAt ((objOf (c.resultOf full ss) 0x0301 r.inst).getD []) 0)) + 4 * j) (word r.body (8 + 4 * j))) w) [],
    sects := ss.map (fun s => (s.typ, s.replace, s.gen)),
    named := ss.flatMap (fun s => s.recs.map ARec.key), chain := slice (img.drop (img.length - trailerLen)) 16 64,
    slot := byteAt (img.drop (img.length - trailerLen)) 6 }

end Sys2Proof.Machine
end

