-- ==== Sys2Proof/Machine/Ports.lean ====
section
/-! DEFINITION. Local ports, the host port's lanes and the sensor bus (10_ports_and_lanes.md), the frames that the hardware of a
port sends (09_time_and_sync.md R295 to R301), and the scheduling decision of a local port (06_queues_and_shaping.md R192). -/

namespace Sys2Proof.Machine

open Sys2Proof

/-! ## The link of a local port (R306, R307) -/

/-- Every port is looked at, after a change of rates or of the domains. -/
def Chip.portsEval (c : Chip) : Chip := forN 128 (fun p d => d.portEval p) c

/-- PORT_LIGHT_ON. -/
def portLightOn (p : Nat) (c : Chip) : Chip := { c with pt.lit := setBit c.pt.lit p }.portEval p

def execPortLightOn (t : Nat) (p : Fin 128) (s : State) : Host.Outcome State Fault Refusal := s.on t (fun _ => portLightOn p.val)

/-! ### Frames of the port's own hardware (R210, R297, R301) -/

/-- Local time `ps` picoseconds from now, in 2⁻¹⁶ ns. -/
def Chip.lAfter (c : Chip) (ps : Nat) : Int := ({ c with now := c.now + ps } : Chip).lNow

/-- A Sync frame of port `p` without FCS whose first bit after the SFD passes the reference plane at local time `l` (R298); the
order of the header's fields and flags is PRESUMED from IEEE 1588 (log entry 36). -/
def Chip.syncFrame (c : Chip) (p : Nat) (l : Int) : List Byte :=
  have pend := c.rb R.TMG_UTC_PENDING 0
  have del := c.rb R.TMG_UTC_DIR 0
  have locked := b2n (decide (c.rg R.TMG_STAT_STATE 0 = 2))
  have flags := b2n (pend && !del) + 2 * b2n (pend && del) + 4 + 8 + 16 * locked + 32 * locked
  beBytes 6 (if c.rg R.TMG_PTP_CFG_DA p = 0 then 0x011B19000000 else 0x0180C200000E) ++ beBytes 6 (c.portMac p) ++ beBytes 2 0x88F7 ++
    beBytes 1 0 ++ beBytes 1 0x12 ++ beBytes 2 44 ++ beBytes 1 (c.rg R.TMG_PTP_CFG_DOMAIN p) ++ beBytes 1 0 ++ beBytes 2 flags ++
    beBytes 8 (fracOf l) ++ beBytes 4 0 ++ c.clockId ++ beBytes 2 (p + 1) ++ beBytes 2 (c.rg R.TMG_PTP_STAT_SEQ p) ++ beBytes 1 0 ++
    beBytes 1 (c.rg R.TMG_PTP_RATE_LOG_SYNC p) ++ beBytes 6 (secOf l) ++ beBytes 4 (nsOf l) ++ zeros 6

/-- An ESMC PDU of port `p` without FCS (R301). -/
def Chip.esmcPdu (c : Chip) (p : Nat) (event : Bool) : List Byte :=
  beBytes 6 0x0180C2000002 ++ beBytes 6 (c.portMac p) ++ beBytes 2 0x8809 ++ beBytes 1 0x0A ++ beBytes 3 0x0019A7 ++ beBytes 2 1 ++
    beBytes 1 (0x10 + 8 * b2n event) ++ zeros 3 ++ beBytes 3 0x010004 ++ beBytes 1 (c.rg R.TMG_STAT_QL 0 % 16) ++ zeros 32

/-- A Sync or an ESMC PDU leaves (R297): it passes the SecY, and is counted; SEQ is the sequenceId that the Sync carries (R298, R303). -/
def Chip.hwFrame (c : Chip) (p : Nat) (kind : OutKind) (flag : Bool) : Chip :=
  have sync := decide (kind = .syncFrame)
  have r := c.secStart p (if sync then 0x88F7 else 0x8809)
  have send := fun (d : Chip) (sa : Option (MsTx × Nat)) =>
    have d := if sync then (d.inc C.TMG_SYNC_SENT 0).wg R.TMG_PTP_STAT_SEQ p (d.rg R.TMG_PTP_STAT_SEQ p + 1) else d.inc C.TMG_ESMC_SENT 0
    have l := if sync then d.syncFrame p (d.lAfter (d.lanePs p 64)) else d.esmcPdu p flag
    have w := d.secBytes p sa l
    (d.lineTake p d.now (w.length + 4)).laneOut p kind [d.now] (w ++ fcsBytes w)
  match r.2 with
  | .clear => send r.1 none
  | .prot sa an => send r.1 (some (sa, an))
  | .noSend => r.1

/-- A Sync or an ESMC PDU is due: sent, or held for the frame in transmission, a sleeping link or a remote fault. -/
def Chip.hwSend (c : Chip) (p : Nat) (kind : OutKind) (flag : Bool) : Chip :=
  if c.rg R.PRT_STAT_LINK p = 4 ∧ c.rg R.PRT_LOOP_LOOP p = 3 then c.inc C.PRT_TX_FLUSH p
  else if c.lineUp p = true ∧ c.lineBusy p = false then c.hwFrame p kind flag
  else if c.lineUp p ∨ c.portEnabled p then { c with pt.ctlQ := c.pt.ctlQ ++ [{ port := p, kind := kind, flag := flag, bytes := [] }] }
  else c

/-- The frame of its own hardware that port `p` sends next: PAUSE and PFC frames first (R297), then in order. -/
def Chip.ctlNext (c : Chip) (p : Nat) : Option CtlTx :=
  have mine := c.pt.ctlQ.filter (fun x => decide (x.port = p))
  match mine.find? (fun x => decide (x.kind = .pauseFrame)) with
  | some x => some x
  | none => mine.head?

/-- The first of the frames that waited for the lane of port `p` leaves; those behind it wait for its end (R297). -/
def Chip.ctlFlush (c : Chip) (p : Nat) : Chip := match c.ctlNext p with
  | some x =>
    have c := { c with pt.ctlQ := c.pt.ctlQ.erase x }
    if x.kind = .pauseFrame then c.pauseSend p x.bytes else c.hwSend p x.kind x.flag
  | none => c

/-- PORT_TRAIN_LOCKED: lock and alignment held for 1 ms with no local fault. -/
def portTrainLocked (p : Nat) (c : Chip) : Chip :=
  if c.rg R.PRT_STAT_LINK p = 1 ∧ Tab.get 0 c.pt.trainAt p + msPs ≤ c.now ∧ c.portMay p = true then ((c.setLink p 2).wg R.PRT_STAT_LF p 0).ctlFlush p else c

def execPortTrainLocked (t : Nat) (p : Fin 128) (s : State) : Host.Outcome State Fault Refusal := s.on t (fun _ => portTrainLocked p.val)

/-- PORT_TRAIN_TIMEOUT: 100 ms without lock and alignment. -/
def portTrainTimeout (p : Nat) (c : Chip) : Chip :=
  if c.rg R.PRT_STAT_LINK p = 1 ∧ Tab.get 0 c.pt.trainAt p + 100 * msPs ≤ c.now then
    { (c.portDown p) with pt.failAt := c.pt.failAt.set p c.now }
  else c

def execPortTrainTimeout (t : Nat) (p : Fin 128) (s : State) : Host.Outcome State Fault Refusal := s.on t (fun _ => portTrainTimeout p.val)

/-- PORT_RETRAIN_DELAY: 10 ms after a failure TRAINING restarts. -/
def portRetrainDelay (p : Nat) (c : Chip) : Chip :=
  match c.pt.failAt.find p with
  | some a => if a + 10 * msPs ≤ c.now then { c with pt.failAt := c.pt.failAt.erase p }.portEval p else c
  | none => c

def execPortRetrainDelay (t : Nat) (p : Fin 128) (s : State) : Host.Outcome State Fault Refusal := s.on t (fun _ => portRetrainDelay p.val)

/-- PORT_LINK_FAULT: a loss held for 10 µs. `light` tells whether light is still there, `lf` whether a local fault is what holds. In
IDLE only the loss of light counts (R315); a loop inside the terminal ignores received light (R317). -/
def portLinkFault (p : Nat) (light lf : Bool) (c : Chip) : Chip :=
  have c := { c with pt.lit := putBit c.pt.lit p light }
  have st := c.rg R.PRT_STAT_LINK p
  if st = 2 ∨ (st = 3 ∧ light = false) then
    have c := c.portDown p
    have c := if lf then (c.wg R.PRT_STAT_LF p 1).wg R.PRT_EVT_FAULT p 1 else c
    c.portEval p
  else c

def execPortLinkFault (t : Nat) (p : Fin 128) (light lf : Bool) (s : State) : Host.Outcome State Fault Refusal := s.on t (fun _ => portLinkFault p.val light lf)

/-- REMOTE_FAULT: a remote fault is received, or clears. Frames wait while it stands. -/
def remoteFault (p : Nat) (on : Bool) (c : Chip) : Chip :=
  if c.rg R.PRT_STAT_LINK p ≠ 2 then c
  else if on then (if c.rb R.PRT_STAT_RF p then c else (c.wg R.PRT_STAT_RF p 1).wg R.PRT_EVT_FAULT p 1)
  else (c.wg R.PRT_STAT_RF p 0).ctlFlush p

def execRemoteFault (t : Nat) (p : Fin 128) (on : Bool) (s : State) : Host.Outcome State Fault Refusal := s.on t (fun _ => remoteFault p.val on)

/-- A write of PRT_CFG. RX_PAUSE 3, and FLUSH_TO out of its range, leave their field as it was. -/
def prtCfgWrite (p v : Nat) (c : Chip) : Chip × Nat :=
  have c := ((c.wg R.PRT_CFG_ADMIN_DOWN p (bits v 4 1)).wg R.PRT_CFG_IDLE_EN p (bits v 10 1)).wg R.PRT_CFG_EVT_EN p (bits v 11 1)
  have c := if bits v 8 2 = 3 then c else c.wg R.PRT_CFG_RX_PAUSE p (bits v 8 2)
  have c := if 1 ≤ bits v 16 10 ∧ bits v 16 10 ≤ 1000 then c.wg R.PRT_CFG_FLUSH_TO p (bits v 16 10) else c
  (if bit v 4 then { (c.portDown p) with pt.failAt := c.pt.failAt.erase p } else c.portEval p, stOk)

def execPortAdminDown (t : Nat) (p : Fin 128) (v : Nat) (s : State) : Host.Outcome State Fault Refusal := s.on t (fun _ c => c.answeredIn (9 + p.val / 32) (prtCfgWrite p.val v))

/-- The frames of port `p` queued by an instant are dropped and counted in TX_FLUSH. -/
def Chip.flushPort (c : Chip) (p by_ : Nat) : Chip :=
  (c.qs.frames.filter (fun x => !c.rb R.SCH_Q_CFG_DIR x.q && decide (c.rg R.SCH_Q_CFG_PORT x.q = p ∧ x.at_ ≤ by_))).foldl (fun d x => (d.unqueue x).inc C.PRT_TX_FLUSH p) c

/-- PORT_FLUSH_TIMEOUT: FLUSH_TO after the link left UP. -/
def portFlushTimeout (p : Nat) (c : Chip) : Chip :=
  have due := c.pt.flushAt.filter (fun x => decide (x.1 = p ∧ x.2 + c.rg R.PRT_CFG_FLUSH_TO p * msPs ≤ c.now))
  have d := due.foldl (fun d x => d.flushPort p x.2) c
  { d with pt.flushAt := d.pt.flushAt.filter (fun (x : Nat × Nat) => !due.contains x) }

def execPortFlushTimeout (t : Nat) (p : Fin 128) (s : State) : Host.Outcome State Fault Refusal := s.on t (fun _ => portFlushTimeout p.val)

/-! ## Pause reception (R308 to R310) -/

/-- Key of class `t` of port `p`, and of the host port 128. -/
def pauseKey (p t : Nat) : Nat := 8 * p + t

/-- Is class `t` of a port paused now? -/
def Chip.classPaused (c : Chip) (p t : Nat) : Bool := match c.pt.pauseEnd.find (pauseKey p t) with
  | some e => decide (c.now < e)
  | none => false

/-- PAUSED and WD_REL of a port follow its pauses. -/
def Chip.pauseBits (c : Chip) (p : Nat) : Chip :=
  have w := fun (x : Tab Nat) => (List.range 8).foldl (fun m t => if (x.find (pauseKey p t)).isSome then setBit m t else m) 0
  if p = 128 then c.wb R.HST_STAT_PAUSED 0 (decide (w c.pt.pauseEnd ≠ 0))
  else (c.wg R.PRT_STAT_PAUSED p (w c.pt.pauseEnd)).wg R.PRT_STAT_WD_REL p (w c.pt.releaseEnd)

/-- May frames leave on the host port now: its domain ON, its link UP, no pause (R319)? RX_PAUSE fixed at 1, a PAUSE holds every class. -/
def Chip.hostClear (c : Chip) : Bool :=
  c.domOn 5 && decide (c.rg R.HST_STAT_LINK 0 = 2) && !(List.range 8).any (fun t => c.classPaused 128 t)

/-- A frame leaves on the host port: counted. -/
def Chip.hostOut (c : Chip) (o : Output) : Chip :=
  (((c.inc C.HST_TX_FRAMES 0).incBy C.HST_TX_BYTES 0 (o.bytes.length + 4)).inc C.ZCP_TX_MSG 0).emit o.kind o.unit o.data o.bytes

/-- Does the response to a RESET wait for the host port? -/
def HostSt.resetWaits (h : HostSt) : Bool := h.txWait.any (fun o => decide (o.kind = .zcp ∧ o.data.getD 1 0 = 12))

/-- The frames that waited leave in order once nothing holds them (R319); the reset that a RESET asks for counts from then (R344). -/
def Chip.hostFlush (c : Chip) : Chip :=
  if c.hostClear then
    have asks := c.hp.resetAt.isSome && c.hp.resetWaits
    c.hp.txWait.foldl (fun d o => d.hostOut o) { c with hp.txWait := [], hp.resetAt := if asks then some (c.now + msPs) else c.hp.resetAt }
  else c

/-- A pause ends and its watchdog is reset; what it held on the host port leaves. -/
def Chip.pauseClear (c : Chip) (p t : Nat) : Chip :=
  have c := { c with pt.pauseEnd := c.pt.pauseEnd.erase (pauseKey p t), pt.pauseAt := c.pt.pauseAt.erase (pauseKey p t) }.pauseBits p
  if p = 128 then c.hostFlush else c

/-- WD in ms and RELEASE in 100 ms; the host port has no register of them and takes their reset values (log entry 37). -/
def Chip.pauseWd (c : Chip) (p : Nat) : Nat := if p = 128 then 100 else c.rg R.PRT_PAUSE_CFG_WD p
def Chip.pauseRel (c : Chip) (p : Nat) : Nat := if p = 128 then 10 else c.rg R.PRT_PAUSE_CFG_RELEASE p

/-- An acting frame gives class `t` a time in quanta of 512 bits. -/
def Chip.pauseTake (c : Chip) (p t quanta : Nat) : Chip :=
  if quanta = 0 then c.pauseClear p t
  else
    have k := pauseKey p t
    have on := match c.pt.pauseEnd.find k with
      | some e => decide (c.now ≤ e)
      | none => false
    { c with pt.pauseEnd := c.pt.pauseEnd.set k (c.now + (if p = 128 then bitsPs (512 * quanta) 100000 else c.lanePs p (512 * quanta))), pt.pauseAt := if on then c.pt.pauseAt else c.pt.pauseAt.set k c.now }.pauseBits p

/-- Is class `t` in its release period? -/
def Chip.inRelease (c : Chip) (p t : Nat) : Bool := match c.pt.releaseEnd.find (pauseKey p t) with
  | some e => decide (c.now ≤ e)
  | none => false

/-- A received MAC control frame with a good FCS (R308, R310): the classes it names and their times; none where it is ignored. -/
def Chip.pauseNames (c : Chip) (p : Nat) (l : List Byte) : Option (List (Nat × Nat)) :=
  have mode := if p = 128 then 1 else c.rg R.PRT_CFG_RX_PAUSE p
  have mac := if p = 128 then c.hostMac else c.portMac p
  if beAt l 0 6 ≠ 0x0180C2000001 ∧ beAt l 0 6 ≠ mac then none
  else if beAt l 14 2 = 1 ∧ mode = 1 then some ((List.range 8).map (fun t => (t, beAt l 16 2)))
  else if beAt l 14 2 = 0x0101 ∧ mode = 2 then some (((List.range 8).filter (fun t => bit (beAt l 16 2) t)).map (fun t => (t, beAt l (18 + 2 * t) 2)))
  else none

/-- A MAC control frame without FCS reaches the receiver of a port, and whether its FCS is good. Port 128 is the host port, which takes
frames of 64 to 16,384 bytes and discards one that is neither MAC control nor ZCP (R319; log entry 81 for a length outside). -/
def Chip.pauseRx (c : Chip) (p : Nat) (l : List Byte) (fcsOk : Bool) : Chip :=
  have host := decide (p = 128)
  if fcsOk = false then (if host then c.inc C.HST_RX_FCS_ERR 0 else c.inc C.PRT_RX_FCS_ERR p)
  else if host ∧ (l.length < 60 ∨ 16380 < l.length) then c.inc C.HST_RX_DROP 0
  else
    have c := if host then (c.inc C.HST_RX_FRAMES 0).incBy C.HST_RX_BYTES 0 (l.length + 4) else (c.inc C.PRT_RX_FRAMES p).incBy C.PRT_RX_BYTES p (l.length + 4)
    if beAt l 12 2 ≠ 0x8808 then (if host ∧ beAt l 12 2 ≠ 0x88B5 then c.inc C.HST_RX_DROP 0 else c)
    else match c.pauseNames p l with
    | none => if host then c else c.inc C.PRT_RX_CTRL_IGNORED p
    | some named =>
      have act := named.filter (fun x => !c.inRelease p x.1)
      have c := if act.length < named.length ∧ host = false then c.inc C.PRT_RX_PAUSE_IGNORED p else c
      have c := if act.isEmpty && !named.isEmpty then c else if host then c.inc C.HST_RX_PAUSE 0 else c.inc C.PRT_RX_PAUSE p
      act.foldl (fun d x => d.pauseTake p x.1 x.2) c

/-- The next frame that a near-end loop of port `p` returns: its bytes without FCS, whether its FCS is good, and the port after (R317). -/
def Chip.loopHead (c : Chip) (p : Nat) : Option (List Byte × Bool × Chip) :=
  if c.nearLoop p then
    (c.pt.loopQ.find? (fun x => decide (x.port = p))).map (fun x =>
      (x.bytes.dropLast.dropLast.dropLast.dropLast, decide (fcsBytes (x.bytes.dropLast.dropLast.dropLast.dropLast) = x.bytes.drop (x.bytes.length - 4)),
        { c with pt.loopQ := c.pt.loopQ.erase x }))
  else none

/-- PAUSE_FRAME_RX: the last bit of a MAC control frame passes now. A near-end loop gives the receiver its own frames in place of the
fibre's. -/
def pauseFrameRx (p : Nat) (l : List Byte) (fcsOk : Bool) (c : Chip) : Chip :=
  match c.loopHead p with
  | some x => if beAt x.1 12 2 = 0x8808 then x.2.2.pauseRx p x.1 x.2.1 else c
  | none =>
    if p = 128 then (if c.rg R.HST_STAT_LINK 0 = 2 then c.pauseRx p l fcsOk else c)
    else if c.rg R.PRT_STAT_LINK p = 2 then (c.wg R.PRT_STAT_RX_IDLE p 0).pauseRx p l fcsOk
    else c

def execPauseFrameRx (t : Nat) (p : Fin 129) (bytes : List Byte) (fcsOk : Bool) (s : State) : Host.Outcome State Fault Refusal :=
  s.on t (fun _ => pauseFrameRx p.val bytes fcsOk)

/-- PAUSE_EXPIRE: the timer of class `k` runs out. -/
def pauseExpire (p k : Nat) (c : Chip) : Chip := match c.pt.pauseEnd.find (pauseKey p k) with
  | some e => if e ≤ c.now then c.pauseClear p k else c
  | none => c

def execPauseExpire (t : Nat) (p : Fin 129) (k : Fin 8) (s : State) : Host.Outcome State Fault Refusal := s.on t (fun _ => pauseExpire p.val k.val)

/-- PAUSE_WD_EXPIRE: class `k` has been paused without interruption for WD (R310). -/
def pauseWdExpire (p k : Nat) (c : Chip) : Chip :=
  match c.pt.pauseEnd.find (pauseKey p k), c.pt.pauseAt.find (pauseKey p k) with
  | some e, some a =>
    if a + c.pauseWd p * msPs ≤ c.now ∧ c.now ≤ e then
      have c := c.pauseClear p k
      have c := if p = 128 then c.inc C.HST_PAUSE_WD 0 else (c.inc C.PRT_PAUSE_WD p).wg R.PRT_EVT_PAUSE_WD p 1
      { c with pt.releaseEnd := c.pt.releaseEnd.set (pauseKey p k) (c.now + c.pauseRel p * 100 * msPs) }.pauseBits p
    else c
  | _, _ => c

def execPauseWdExpire (t : Nat) (p : Fin 129) (k : Fin 8) (s : State) : Host.Outcome State Fault Refusal := s.on t (fun _ => pauseWdExpire p.val k.val)

/-- PAUSE_RELEASE_END: the release period of class `k` ends. -/
def pauseReleaseEnd (p k : Nat) (c : Chip) : Chip := match c.pt.releaseEnd.find (pauseKey p k) with
  | some e => if e ≤ c.now then { c with pt.releaseEnd := c.pt.releaseEnd.erase (pauseKey p k) }.pauseBits p else c
  | none => c

def execPauseReleaseEnd (t : Nat) (p : Fin 129) (k : Fin 8) (s : State) : Host.Outcome State Fault Refusal := s.on t (fun _ => pauseReleaseEnd p.val k.val)

/-! ## Frames received on a local port (R305, R154, R180, R313) -/

/-- A frame of port `p` enters the pipeline: its bytes without FCS as far as they have arrived, and whether that is all of it. A
quarantined port cell drops it (R37). -/
def Chip.localFrame (c : Chip) (p : Nat) (l : List Byte) (whole : Bool) (wire : Nat) : Chip :=
  have b := c.portBlk p
  have k := c.slotCell b (c.portSlot p)
  have at_ := c.lNow - ((bitsPs (wire * 8) (c.portRate p) * 65536 / 1000 : Nat) : Int)
  if c.cellRole b k = 3 then c.cellDrop b k 1
  else if whole ∧ l.length < 60 then c.inc C.PKT_BLK_RUNT_LOCAL b
  else if whole ∧ c.maxFrame < l.length + 4 then c.inc C.PKT_BLK_OVER_DROP b
  else
    have stamp := c.stampRoom 0 p
    have c := if stamp then c else c.inc C.TMG_STAMP_DROP 0
    have c := if whole then c else { c with pt.rxOpen := c.pt.rxOpen ++ [{ id := c.pp.nextId, port := p, n := l.length }] }
    c.arrive { id := 0, bytes := l, len := if whole then l.length + 4 else c.maxFrame, known := whole, origin := 0, wl := 0, src := p, blk := b, pass := 0, gen := 0, bus := 0, tsNs := tsNsOf at_, tsFrac := fracOf at_, tsOk := stamp, entry := true, role := 0, grown := 0, claim := 0, polCh := 0, stomp := false }

/-- A frame of port `p` reaches its receiver, as it stands on the fibre, from its destination address on, without FCS. `whole` tells
that its last byte has come; otherwise at least its header window has, and the rest follows with FRAME_LAST_BYTE. `sfd` and
`fcsOk` tell whether its SFD and FCS are good. One that finds the receive edge FIFO full, or fills it while it arrives, is dropped
(R24). With MACsec the whole frame is verified before its pass (R313). -/
def Chip.localRx (c : Chip) (p : Nat) (l : List Byte) (whole sfd fcsOk : Bool) : Chip :=
  if sfd = false then c.inc C.PRT_RX_BAD_SFD p
  else if beAt l 12 2 = 0x8808 then c.pauseRx p l fcsOk
  else if whole = false ∧ (c.rb R.PRT_SEC_CFG_SEC_EN p = true ∨ l.length < 512) then c
  else if whole ∧ fcsOk = false then c.inc C.PRT_RX_FCS_ERR p
  else if c.fifoOver 0 p none l.length then (c.inc C.PRT_EDGE_OVR p).errEdge p 4
  else if whole then
    have c := (c.inc C.PRT_RX_FRAMES p).incBy C.PRT_RX_BYTES p (l.length + 4)
    have r := c.secReceive p l
    match r.2 with
    | some x => r.1.localFrame p x true (l.length + 4)
    | none => r.1
  else c.localFrame p l false l.length

/-- LOCAL_FRAME_RX: a frame arrives on a port that is UP; in a near-end loop, the next frame that the loop returns (R317). -/
def localFrameRx (p : Nat) (l : List Byte) (whole sfd fcsOk : Bool) (c : Chip) : Chip :=
  match c.loopHead p with
  | some x => x.2.2.localRx p x.1 true true x.2.1
  | none => if c.rg R.PRT_STAT_LINK p = 2 then (c.wg R.PRT_STAT_RX_IDLE p 0).localRx p l whole sfd fcsOk else c

def execLocalFrameRx (t : Nat) (p : Fin 128) (bytes : List Byte) (whole sfd fcsOk : Bool) (s : State) : Host.Outcome State Fault Refusal :=
  s.on t (fun _ => localFrameRx p.val bytes whole sfd fcsOk)

/-! ## The scheduling decision of a local port (R192, R201, R207, R208, R309) -/

/-- Does queue `q` lead to local port `p`? -/
def Chip.leadsTo (c : Chip) (p q : Nat) : Bool := !c.rb R.SCH_Q_CFG_DIR q && decide (c.rg R.SCH_Q_CFG_PORT q = p)

/-- A frame from a local port becomes eligible with its last byte; any other frame may begin before it (R154). -/
def Frame.eligible (f : Frame) : Bool := f.known || decide (f.origin ≠ 0)

/-- The frame that port `p` would send: classes whose chosen head frame does not fit its window wait behind it (R207), and a head
frame that no window of the list fits is dropped (R208). -/
def Chip.portPick (c : Chip) (p : Nat) : Nat → List Nat → Chip × Option Pick
  | 0, _ => (c, none)
  | n + 1, held =>
    match c.treePick (rootP p) (c.leadsTo p) (fun _ => true) (fun q x => x.f.eligible && !held.contains (c.rg R.SCH_Q_CFG_TC q) && !c.classPaused p (c.rg R.SCH_Q_CFG_TC q)) with
    | none => (c, none)
    | some k =>
      have t := c.rg R.SCH_Q_CFG_TC k.x.q
      if c.rb R.SCH_GATE_STAT_ACT_EN p ∧ c.gateNever p t k.x.f = true then ((c.unqueue k.x).inc C.SCH_BLK_GATE_EXPIRE k.x.f.blk).portPick p n held
      else if c.gateTest p t k.x.f then (c, some k)
      else c.portPick p n (t :: held)

/-- Fuel of a decision: each turn holds one class or drops one frame. -/
def Chip.portFuel (c : Chip) : Nat := 9 + c.qs.frames.length

/-- Has port `p` a frame it may send now? -/
def Chip.portSendable (c : Chip) (p : Nat) : Bool := (c.portPick p c.portFuel []).2.isSome

/-- The transmit stamp of a frame that begins on a port with ROLE 2 returns to Omlia (R300): L at its first bit after the SFD. How it
returns is a DESIGN CHOICE (log entry 82). -/
def Chip.txStamp (c : Chip) (p id : Nat) : Chip :=
  if c.rg R.TMG_PTP_CFG_ROLE p = 2 then c.emit .txStamp p [id, tsNsOf (c.lAfter (c.lanePs p 64)), fracOf (c.lAfter (c.lanePs p 64))] [] else c

/-- A frame chosen for port `p` begins (R181): its header is on the lane from here. A frame of unknown length ends with its last byte;
`und` tells after how many bytes the transmit edge FIFO ran empty, if it did (R25). -/
def Chip.txBegin (c : Chip) (p : Nat) (k : Pick) (und : Option Nat) : Chip :=
  have f := k.x.f
  have c := c.takeChosen k
  have r := c.secStart p (wireBits f.bytes 96 16)
  have send := fun (d : Chip) (sa : Option (MsTx × Nat)) =>
    have d := d.txStamp p f.id
    have x : TxFrame := { port := p, q := k.x.q, f := f, start := d.now, endAt := d.now, charged := f.charge, kids := k.path.map (·.2), sa := sa }
    match und with
    | some n =>
      have l := d.secBytes p sa (f.bytes.take n)
      have e := d.now + d.lanePs p ((l.length + 24) * 8)
      have d := (d.inc C.PRT_EDGE_UND p).errEdge p 5
      have d := { (d.lineTake p d.now (l.length + 4)) with qs.tx := d.qs.tx ++ [{ x with f := { f with known := true, stomp := true }, endAt := e }] }
      d.laneOut p .portFrame [f.id, 1] (l ++ (fcsBytes l).map (fun b => ~~~ b))
    | none =>
      if f.known then
        have l := d.secBytes p sa f.bytes
        have e := d.now + d.lanePs p ((l.length + 24) * 8)
        have d := { (d.lineTake p d.now (l.length + 4)) with qs.tx := d.qs.tx ++ [{ x with endAt := e }] }
        d.laneOut p .portFrame [f.id, b2n f.stomp] (l ++ (if f.stomp then (fcsBytes l).map (fun b => ~~~ b) else fcsBytes l))
      else { d with qs.tx := d.qs.tx ++ [x], pt.busyAt := d.pt.busyAt.set p d.now }
  match r.2 with
  | .clear => send r.1 none
  | .prot sa an => send r.1 (some (sa, an))
  | .noSend => r.1

/-- SCHED_DECISION: the lane of port `p` is free: a waiting frame of its own hardware leaves (R297), or its tree decides. The decisions of a grant are part of BURST_FORM (R196). -/
def schedDecision (p : Nat) (und : Option Nat) (c : Chip) : Chip :=
  if c.lineUp p = false ∨ c.lineBusy p = true then c
  else if (c.ctlNext p).isSome then c.ctlFlush p
  else
    have c := { c with qs.tx := c.qs.tx.filter (fun (x : TxFrame) => decide (x.port ≠ p)) }.outSweep
    have r := c.portPick p c.portFuel []
    match r.2 with
    | none => r.1
    | some k =>
      have b := c.portBlk p
      have cell := c.slotCell b (c.portSlot p)
      if c.cellRole b cell = 3 then (r.1.takeChosen k).cellDrop b cell 1
      else if c.rg R.PRT_STAT_LINK p = 4 ∧ c.rg R.PRT_LOOP_LOOP p = 3 then (r.1.takeChosen k).inc C.PRT_TX_FLUSH p
      else r.1.txBegin p k und

def execSchedDecision (t : Nat) (p : Fin 128) (und : Option Nat) (s : State) : Host.Outcome State Fault Refusal := s.on t (fun _ => schedDecision p.val und)

/-! ## Radio sleep (R315, R316) -/

/-- IDLE_ENTER: the receive lane has light without transitions, so that RX_IDLE holds; the port enters IDLE where IDLE_EN allows it and
nothing has been sendable for HOLD. Idle never starts while a frame waits; TX_IDLE follows when the frame on the lane is over. -/
def idleEnter (p : Nat) (c : Chip) : Chip :=
  have c := if c.rg R.PRT_STAT_LINK p = 2 ∧ bit c.pt.lit p = true then c.wg R.PRT_STAT_RX_IDLE p 1 else c
  if c.rg R.PRT_STAT_LINK p = 2 ∧ c.rb R.PRT_STAT_RX_IDLE p = true ∧ c.rb R.PRT_CFG_IDLE_EN p = true ∧ c.qs.frames.any (fun x => c.leadsTo p x.q) = false ∧
      c.pt.ctlQ.any (fun x => decide (x.port = p)) = false ∧ Tab.get 0 c.pt.busyAt p + c.rg R.PRT_IDLE_CFG_HOLD p * usPs ≤ c.now then
    (c.setLink p 3).inc C.PRT_IDLE_ENTRY p
  else c

def execIdleEnter (t : Nat) (p : Fin 128) (s : State) : Host.Outcome State Fault Refusal := s.on t (fun _ => idleEnter p.val)

/-- The interval of Sync in 2⁻¹⁶ ns, and how far L lies past the last Sync instant of port `p` (R297). -/
def Chip.syncIvl (c : Chip) (p : Nat) : Int := 65536000000000 / ((2 ^ (-(sgn 8 (c.rg R.TMG_PTP_RATE_LOG_SYNC p))).toNat : Nat) : Int)
def Chip.syncPast (c : Chip) (p : Nat) : Int := (c.lNow - (p : Int) * 256 * 65536) % c.syncIvl p

/-- Is the transmitter of port `p` in electrical idle: in IDLE, the frame of the entry over, no wake begun (R315, R316)? -/
def Chip.txIdle (c : Chip) (p : Nat) : Bool := decide (c.rg R.PRT_STAT_LINK p = 3) && (c.pt.wakeAt.find p).isNone && !c.onLane p

/-- WAKE_BURST_SEND: a frame of the port is sendable, a Sync instant is at most 200 ns away, or (`rx`) a wake burst was received. An
entry still under way completes first. -/
def wakeBurstSend (p : Nat) (rx : Bool) (c : Chip) : Chip :=
  have sync := decide (c.rg R.TMG_PTP_CFG_ROLE p = 1) && decide (c.syncIvl p - c.syncPast p ≤ 200 * 65536)
  have c := if rx ∧ c.rg R.PRT_STAT_LINK p = 3 then c.wg R.PRT_STAT_RX_IDLE p 0 else c
  if c.txIdle p = true ∧ (rx || sync || c.portSendable p || c.pt.ctlQ.any (fun x => decide (x.port = p))) then
    { c with pt.wakeAt := c.pt.wakeAt.set p c.now }.emit .wakeBurst p [1024] []
  else c

def execWakeBurstSend (t : Nat) (p : Fin 128) (rx : Bool) (s : State) : Host.Outcome State Fault Refusal := s.on t (fun _ => wakeBurstSend p.val rx)

/-- WAKE_LOCKED: within 1 µs of step 1 the stream is locked. -/
def wakeLocked (p : Nat) (c : Chip) : Chip := match c.pt.wakeAt.find p with
  | some a =>
    if c.rg R.PRT_STAT_LINK p = 3 ∧ c.now ≤ a + usPs then
      { ((c.setLink p 2).wg R.PRT_STAT_RX_IDLE p 0) with pt.wakeAt := c.pt.wakeAt.erase p }.ctlFlush p
    else c
  | none => c

def execWakeLocked (t : Nat) (p : Fin 128) (s : State) : Host.Outcome State Fault Refusal := s.on t (fun _ => wakeLocked p.val)

/-- WAKE_FAIL: no lock 1 µs after step 1. Leaving IDLE, the port starts FLUSH_TO as it does leaving UP (log entry 38). -/
def wakeFail (p : Nat) (c : Chip) : Chip := match c.pt.wakeAt.find p with
  | some a =>
    if c.rg R.PRT_STAT_LINK p = 3 ∧ a + usPs ≤ c.now then
      have c := ((c.inc C.PRT_WAKE_FAIL p).wg R.PRT_EVT_WAKE_FAIL p 1).wg R.PRT_STAT_RX_IDLE p 0
      ({ c with pt.wakeAt := c.pt.wakeAt.erase p, pt.ctlQ := c.pt.ctlQ.filter (fun (x : CtlTx) => decide (x.port ≠ p)) }.flushStart p).trainStart p
    else c
  | none => c

def execWakeFail (t : Nat) (p : Fin 128) (s : State) : Host.Outcome State Fault Refusal := s.on t (fun _ => wakeFail p.val)

/-! ## Loops and test patterns (R317) -/

/-- LOOP_SET: a write of PRT_LOOP, refused outside LOOPBACK. In the near-end serial loop the checker sees the generator's own pattern
and locks (DEDUCED: log entry 39); on light from the fibre the lock is measured (log entry 42). -/
def loopSet (p v : Nat) (c : Chip) : Chip × Nat :=
  if c.mode ≠ 9 then (c, stRefused)
  else
    have c := ((c.loopTo p (bits v 0 2)).wg R.PRT_LOOP_PRBS_GEN p (bits v 4 1)).wg R.PRT_LOOP_PRBS_CHK p (bits v 5 1)
    (c.wb R.PRT_LOOP_PRBS_LOCK p (bit v 4 && bit v 5 && decide (bits v 0 2 = 2)), stOk)

def execLoopSet (t : Nat) (p : Fin 128) (v : Nat) (s : State) : Host.Outcome State Fault Refusal := s.on t (fun _ c => c.answeredIn (9 + p.val / 32) (loopSet p.val v))

/-! ## The host port (R318 to R320) -/

/-- The mode that the host port tries first: the fixed one, or 100GAUI-2. -/
def Chip.hostMode (c : Chip) : Nat := if c.rg R.HST_LANE_CFG_MODE 0 = 1 then 1 else 2

/-- The host link trains from the beginning. -/
def Chip.hostTrain (c : Chip) : Chip :=
  { ((c.wg R.HST_STAT_LINK 0 1).wg R.HST_STAT_MODE_ACT 0 c.hostMode) with pt.hostAt := c.now }

/-- SSC_MISMATCH follows SSC and SSC_DET (R320). -/
def Chip.sscCheck (c : Chip) : Chip := c.wb R.HST_STAT_SSC_MISMATCH 0 (c.rb R.HST_STAT_SSC_DET 0 != c.rb R.HST_LANE_CFG_SSC 0)

/-- HOST_LANE_CFG: the write takes effect 1 ms after its response. -/
def hostLaneCfg (v : Nat) (c : Chip) : Chip × Nat := ({ c with pt.lane := some (v, c.now + msPs) }, stOk)

def execHostLaneCfg (t v : Nat) (s : State) : Host.Outcome State Fault Refusal := s.on t (fun _ c => c.answeredIn 5 (hostLaneCfg v))

/-- HOST_LANE_APPLY: MODE 3 leaves MODE as it was; the link retrains. -/
def hostLaneApply (c : Chip) : Chip := match c.pt.lane with
  | some (v, a) =>
    if a ≤ c.now then
      have c := { c with pt.lane := none }
      have c := if bits v 0 2 = 3 then c else c.wg R.HST_LANE_CFG_MODE 0 (bits v 0 2)
      have c := (((c.wg R.HST_LANE_CFG_FEC_EN 0 (bits v 2 1)).wg R.HST_LANE_CFG_SSC 0 (bits v 3 1)).wg R.HST_LANE_CFG_TX_INV 0 (bits v 4 4)).wg R.HST_LANE_CFG_RX_INV 0 (bits v 8 4)
      have c := (c.wg R.HST_LANE_CFG_RX_MAP 0 (bits v 12 8)).sscCheck
      (c.incBy C.HST_LINK_DOWN 0 (b2n (decide (c.rg R.HST_STAT_LINK 0 = 2)))).hostTrain
    else c
  | none => c

def execHostLaneApply (t : Nat) (s : State) : Host.Outcome State Fault Refusal := s.on t (fun _ => hostLaneApply)

/-- HOST_MODE_ALTERNATE: 50 ms in a mode without block lock, in AUTO. A link that reads DOWN since reset begins with 100GAUI-2. -/
def hostModeAlternate (c : Chip) : Chip :=
  if c.rg R.HST_STAT_LINK 0 = 0 ∧ c.domOn 5 = true then c.hostTrain
  else if c.rg R.HST_LANE_CFG_MODE 0 = 0 ∧ c.rg R.HST_STAT_LINK 0 = 1 ∧ c.pt.hostAt + 50 * msPs ≤ c.now then
    { (c.wg R.HST_STAT_MODE_ACT 0 (3 - c.rg R.HST_STAT_MODE_ACT 0)) with pt.hostAt := c.now }
  else c

def execHostModeAlternate (t : Nat) (s : State) : Host.Outcome State Fault Refusal := s.on t (fun _ => hostModeAlternate)

/-- HOST_BLOCK_LOCK: block lock held for 1 ms. -/
def hostBlockLock (c : Chip) : Chip :=
  if c.rg R.HST_STAT_LINK 0 = 1 ∧ c.pt.hostAt + msPs ≤ c.now ∧ c.domOn 5 = true then (c.wg R.HST_STAT_LINK 0 2).hostFlush else c

def execHostBlockLock (t : Nat) (s : State) : Host.Outcome State Fault Refusal := s.on t (fun _ => hostBlockLock)

/-- HOST_LINK_DOWN: lock is lost; the link retrains, from the mode it was in (log entry 40). -/
def hostLinkDown (c : Chip) : Chip :=
  if c.rg R.HST_STAT_LINK 0 = 2 then { ((c.wg R.HST_STAT_LINK 0 1).inc C.HST_LINK_DOWN 0) with pt.hostAt := c.now } else c

def execHostLinkDown (t : Nat) (s : State) : Host.Outcome State Fault Refusal := s.on t (fun _ => hostLinkDown)

/-- SSC_DETECT: spread is found on HOST_REFCLK, or lost; its mean offset in 100 ppm. -/
def sscDetect (det : Bool) (ofs : Int) (c : Chip) : Chip := ((c.wb R.HST_STAT_SSC_DET 0 det).ws R.HST_STAT_REFCLK_OFS 0 ofs).sscCheck

def execSscDetect (t : Nat) (det : Bool) (ofs : Int) (s : State) : Host.Outcome State Fault Refusal := s.on t (fun _ => sscDetect det ofs)

end Sys2Proof.Machine
end

