-- ==== Sys2Proof/Machine/Apply.lean ====
section
/-! DEFINITION. How the objects of an Almanac take effect in the units (02_almanac.md R67 to R69, R84; 05_packet_pipeline.md R177,
R179; 07_sample_engines.md R239; 08_fronthaul_combining.md R261), and what a power domain holds and gets back (R409, R462, R463). -/

namespace Sys2Proof.Machine

open Sys2Proof

/-- The power domain of an address below the DDR5 window (R462, R463). -/
def domAt (a : Nat) : Nat :=
  if a < 0x10000 then 0 else if a < 0x20000 then 2
  else if a < 0x40000 then (if 0x30800 ≤ a ∧ a < 0x33000 then 2 else 8)
  else if a < 0x80000 then 6
  else if a < 0x98000 then 13 + min 3 ((a - 0x80000) / 0x400 / 24)
  else if a < 0xA0000 then 13 + min 3 ((a - 0x98000) / 0x100 / 24)
  else if a < 0xC0000 then 1 else if a < 0xE0000 then 9 + (a - 0xC0000) / 0x400 / 32
  else if a < 0xF0000 then 5 else if a < 0x100000 then 2 else if a < 0x110000 then 6 else if a < 0x120000 then 2
  else if a < 0x130000 then 3 else if a < 0x140000 then 0 else if a < 0x150000 then 2 else if a < 0x160000 then 4
  else if a < 0x60000000 then 6
  else if a < 0x64000000 then 13 + min 3 ((a - 0x60000000) / 0x80000 / 24)
  else if a < 0x65000000 then 13 + min 3 ((a - 0x64000000) / 0x10000 / 24)
  else 2

/-! ## Structure (R14, R53 to R56, R430) -/

/-- RATE and PMD of a port from its PORT record. -/
def Chip.portApply (c : Chip) (p : Nat) : Chip := match c.obj 0x0101 p with
  | some b => (c.wg R.PRT_CFG_RATE p (byteAt b 0)).wg R.PRT_CFG_PMD p (byteAt b 1)
  | none => c

/-- The roles of a block's cells as its BLOCK record names its spares (R14): a sample spare shadows from then on (R240). -/
def Chip.blockApply (c : Chip) (b : Nat) : Chip := match c.obj 0x0102 b with
  | some r =>
    have sp := byteAt r 0
    have se := 5 + byteAt r 1
    have ss := 8 + byteAt r 2
    have map := (List.range 11).foldl (fun w k => w + (if k = ss then 2 else if k = sp ∨ k = se then 1 else 0) * 4 ^ k) 0
    have c := c.wg R.HLT_BLOCK_MAP_CELL b map
    have act := (List.range 5).filter (fun k => decide (k ≠ sp))
    have c := forN 4 (fun sl d => { d with st.slotCell := d.st.slotCell.set (4 * b + sl) (act.getD sl 15) }) c
    have pipe := [5, 6, 7].filter (fun k => decide (k ≠ se))
    have c := forN 2 (fun x d => { d with st.pipeCell := d.st.pipeCell.set (2 * b + x) (pipe.getD x 15) }) c
    forN 3 (fun j d => { d with st.smpServe := d.st.smpServe.set (3 * b + j) (3 * b + j) }) c
  | none => c

/-- An entry of the swap record as a full Almanac is applied: the roles of R430, the place of a core and of a resonator, the count of
moved pseudo-channels. -/
def Chip.swapStored (c : Chip) (u sp : Nat) : Chip :=
  have c := c.swapRoles u sp
  match wearKind u with
  | 6 => forN 16 (fun j d =>
      if d.rg R.MCU_CORE_STAT_PHYS j = u - 423 then
        have d := { d with mc.lmem := d.mc.lmem.set (sp - 423) (Tab.get [] d.mc.lmem (u - 423)), mc.entry := d.mc.entry.set (sp - 423) (Tab.get 0 d.mc.entry (u - 423)) }
        (d.wg R.MCU_CORE_STAT_PHYS j (sp - 423)).wg R.MCU_SPARE_STAT_PHYS 0 31
      else d) c
  | 8 => c.wg R.MEM_HBM_STAT_REMAPPED 0 (min 4 (c.rg R.MEM_HBM_STAT_REMAPPED 0 + 1))
  | 10 =>
    have n := u - 512
    if c.rg R.TMG_OSC_STAT_SPARE 0 ≠ 3 ∧ (c.rg R.TMG_OSC_STAT_PRIMARY 0 = n ∨ c.rg R.TMG_OSC_STAT_SECONDARY 0 = n) then c.oscMove n else c
  | _ => c

/-- STRUCTURE of a full Almanac, and the swap record over it. -/
def Chip.structApply (c : Chip) (m : Mem) : Chip :=
  have c := (forN 32 (fun b d => d.blockApply b) (forN 128 (fun p d => d.portApply p) c)).spareCount
  have c := (((c.wg R.HLT_SPARE_CHIP_TRK_LASER 0 2).wg R.HLT_SPARE_CHIP_LOC_LASER 0 4).wg R.HLT_SPARE_CHIP_HBM_PC 0 4).wg R.MEM_HBM_STAT_REMAPPED 0 0
  (c.swapEntries m).foldl (fun d e => d.swapStored (half e 2) (half e 4)) c

/-! ## Lookup stages, parse graph, rule generations (R68, R69, R177, R179) -/

/-- The words of the runs of stage `s` written from window address `a` on. -/
def Chip.putRuns (c : Chip) (w : Tab Nat) (s a : Nat) : Chip :=
  (w.filter (fun e => decide (e.1 / 2 ^ 32 = s))).foldl (fun d e => d.winSet (a + e.1 % 2 ^ 32) e.2) c

/-- The window range of the allocation of a layout in a bank; empty for a kind with no table in the window. -/
def allocRange (l : List Byte) (bank : Nat) : Nat × Nat :=
  have k := byteAt l 0
  if 1 ≤ k ∧ k ≤ 3 then (kindAddr k bank (word l 4), kindStride k * word l 8) else (0, 0)

/-- The parse graph of a table of objects in a copy. -/
def Chip.putGraph (c : Chip) (t : Tab (List Byte)) (pg : Nat) : Chip :=
  have put := fun (old : Tab (List Byte)) (rt : Nat) =>
    (instsOf t rt).foldl (fun (a : Tab (List Byte)) r => a.set (256 * pg + r.1) r.2) (old.filter (fun (e : Nat × List Byte) => decide (e.1 / 256 ≠ pg)))
  { c with pp.nodes := put c.pp.nodes 0x0201, pp.extracts := put c.pp.extracts 0x0202, pp.excs := put c.pp.excs 0x0203 }

/-- The layouts of the active Almanac stand in the bank that each stage uses from now on. -/
def Chip.putLayouts (c : Chip) : Chip :=
  forN 12 (fun s d =>
    have key := 2 * s + d.rg R.PKT_STAGE_BANK_ACT s
    match d.obj 0x0301 s with
    | some l => { (d.wg R.PKT_STAGE_STAT_KIND s (byteAt l 0)) with pp.layouts := d.pp.layouts.set key l }
    | none => { (d.wg R.PKT_STAGE_STAT_KIND s 0) with pp.layouts := d.pp.layouts.erase key }) c

/-- The present parse-graph copy. -/
def Chip.curPg (c : Chip) : Nat := match [0, 1, 2, 3].find? (fun n => c.rb R.PKT_GEN_SLOT_CUR n) with
  | some n => c.rg R.PKT_GEN_SLOT_PG n
  | none => 0

/-- A new generation becomes current (R177, R179): it takes a free slot, with the banks that ACT names and parse-graph copy `pg`. The
one before it stops being live once no frame holds it. -/
def Chip.newGen (c : Chip) (g pg : Nat) : Chip :=
  have c := forN 4 (fun n d =>
    if d.rb R.PKT_GEN_SLOT_CUR n then
      have d := { (d.wg R.PKT_GEN_SLOT_CUR n 0) with pp.genAt := d.pp.genAt.set n d.now }
      if d.rg R.PKT_GEN_REFS_COUNT n = 0 then d.wg R.PKT_GEN_SLOT_LIVE n 0 else d
    else d) c
  have c := c.wg R.ALM_RULE_GEN_CUR 0 g
  match [0, 1, 2, 3].find? (fun n => !c.rb R.PKT_GEN_SLOT_LIVE n) with
  | some n =>
    have banks := (List.range 12).foldl (fun w s => w + c.rg R.PKT_STAGE_BANK_ACT s * 2 ^ s) 0
    have c := (((c.wg R.PKT_GEN_SLOT_GEN n g).wg R.PKT_GEN_SLOT_LIVE n 1).wg R.PKT_GEN_SLOT_CUR n 1).wg R.PKT_GEN_SLOT_PG n pg
    have c := ((c.wg R.PKT_GEN_SLOT_BANKS n banks).wg R.PKT_GEN_REFS_COUNT n 0).putLayouts
    c.stageUse.liveCount
  | none => c

/-! ## Programs and coefficient sets (R234, R239, R261) -/

/-- A program bank takes a PROGRAM record, or holds no program. -/
def Chip.putProgram (c : Chip) (x bank : Nat) (body : Option (List Byte)) : Chip :=
  have c := c.winClear (mwAddr x bank 0) 0x8000
  have k := c.cell x
  have k := { k with prog := k.prog.filter (fun (e : Nat × Nat) => decide (e.1 / 8 ≠ bank)) }
  match body with
  | none => c.setCell x k
  | some b =>
    have vals := [half b 0, half b 2, half b 4, half b 6, half b 8, half b 10]
    have k := { k with prog := ((List.range 6).zip vals).foldl (fun (t : Tab Nat) (p : Nat × Nat) => t.set (8 * bank + p.1) p.2) k.prog }
    have k := { k with prog := k.prog.set (8 * bank + 6) (k.nsymOf bank (progWords b)) }
    have c := (List.range (4 * half b 0)).foldl (fun d j => d.winSet (mwAddr x bank 0 + 4 * j) (word b (256 + 4 * j))) (c.setCell x k)
    (List.range 60).foldl (fun d j => d.wg R.SMP_LMASK_LANES (256 * x + 64 * bank + 4 + j) (word b (16 + 4 * j))) c

/-- The rows of coefficient bank `a`, placed as program bank `pb` places it, from a COEF_INIT record, or zero. -/
def Chip.putCoefs (c : Chip) (x pb a : Nat) (body : Option (List Byte)) : Chip :=
  have k := c.cell x
  (List.range (k.csize pb)).foldl (fun d r => d.writeRow x (k.csBase pb a + r) (2 ^ 128 - 1) (match body with
    | some b => rowData (slice b (16 + 640 * r) 640)
    | none => zeroRow)) c

/-- The block exponents of a set from a COEF_INIT record, or 0. -/
def Chip.putBexp (c : Chip) (x : Nat) (act : Bool) (body : Option (List Byte)) : Chip :=
  (List.range 16).foldl (fun d k => d.setBexp x act k (match body with
    | some b => byteAt b k
    | none => 0)) c

/-- The spare of a block takes over what its active cell holds: program banks, coefficient set, operand memory and configuration
(R71, R240). It starts anew, at the first row with SOS that reaches it. -/
def Chip.copyCell (c : Chip) (a sp : Nat) : Chip :=
  have c := (c.winCopy (rowAddr a 0) (rowAddr sp 0) 0x80000).winCopy (mwAddr a 0 0) (mwAddr sp 0 0) 0x10000
  have c := forN 124 (fun i d => d.wg R.SMP_LMASK_LANES (256 * sp + 4 + i) (d.rg R.SMP_LMASK_LANES (256 * a + 4 + i))) c
  have c := forN 16 (fun k d => (d.setBexp sp true k (d.bexp a true k)).setBexp sp false k (d.bexp a false k)) c
  have c := (c.setCell sp { SmpCell.reset with prog := (c.cell a).prog, wait := true }).setCell a { c.cell a with cmp := [], cmpOn := false }
  have c := ((c.wg R.SMP_PROG_BANK_ACT sp (c.rg R.SMP_PROG_BANK_ACT a)).wg R.SMP_CSET_STAT_ACT sp (c.coefAct a)).wg R.SMP_CSET_CTRL_ARM sp (c.rg R.SMP_CSET_CTRL_ARM a)
  have c := (c.wg R.SMP_CELL_CFG_ENABLE sp (c.rg R.SMP_CELL_CFG_ENABLE a)).wg R.SMP_CELL_CFG_SYM_TO sp (c.rg R.SMP_CELL_CFG_SYM_TO a)
  have c := c.wg R.SMP_CSET_STAT_RESEED sp (c.rg R.SMP_CSET_STAT_RESEED a)
  c.smpStart sp (decide (0 < (c.cell a).count (c.rg R.SMP_PROG_BANK_ACT a)))

/-- The spare of block `b` that shadows holds what its cell holds. -/
def Chip.mirror (c : Chip) (b : Nat) : Chip := match c.shadowPair b with
  | some (sp, a) => c.copyCell a sp
  | none => c

/-- Number 16 × b + c of cell x, as records name it. -/
def smpNo (x : Nat) : Nat := 16 * (x / 3) + 8 + x % 3

/-- Cell x takes PROGRAM and COEF_INIT of a full Almanac: the program in `bank`, both coefficient banks and both sets of block
exponents, ENABLE where it holds a program (R239, R261). -/
def Chip.cellApply (c : Chip) (x bank : Nat) : Chip :=
  have prog := c.obj 0x0501 (smpNo x)
  have coef := c.obj 0x0503 (smpNo x)
  have c := if bank = 0 then c.putProgram x 0 prog else c
  have c := ((c.putCoefs x bank 0 coef).putCoefs x bank 1 coef).putBexp x true coef
  have c := ((c.putBexp x false coef).wg R.SMP_CSET_CTRL_ARM x 0).wg R.SMP_PROG_BANK_ACT x bank
  (c.wb R.SMP_CELL_CFG_ENABLE x prog.isSome).smpStart x prog.isSome

/-! ## Schedule and timing (R212, R302) -/

/-- Shapers and ports whose registers of a range of the window differ from their reset values. -/
def Chip.shapersSet (c : Chip) : List Nat := ((c.regs.filter (fun e => decide (0x58300000 ≤ e.1 / 32 ∧ e.1 / 32 < 0x58380000))).map (fun e => (e.1 / 32 - 0x58300000) / 64)).eraseDups
def Chip.gatesSet (c : Chip) : List Nat := ((c.regs.filter (fun e => decide (0x58500000 ≤ e.1 / 32 ∧ e.1 / 32 < 0x58580000))).map (fun e => (e.1 / 32 - 0x58500000) / 4096)).eraseDups

/-- A record type that a shadow set carries: SHAPER, GATE_LIST. -/
def shadowed (rtype : Nat) : Bool := decide (rtype = 0x0402 ∨ rtype = 0x0404)

/-- An object of a SCHEDULE or TIMING type enters its registers, or leaves them at their reset values. -/
def Chip.putObj (c : Chip) (t : Tab (List Byte)) (key : Nat) : Chip :=
  have rt := key / 65536
  have i := key % 65536
  match t.find key with
  | some b => (c.resetRec rt i).putRec rt i b
  | none => c.resetRec rt i

/-- The objects of section `s` whose state differs from the reset state, whoever set it (R52): of SCHEDULE by their registers, of
SAMPLE_PROGRAMS and TIMING every object that may be there; coefficient sets of the head end are its own (R260). -/
def Chip.setKeys (c : Chip) (s : Nat) : List Nat :=
  if s = 4 then (c.regs.filterMap (fun e => schedKey (e.1 / 32))).eraseDups
  else if s = 5 then (List.range 96).flatMap (fun x => (0x0501 * 65536 + smpNo x) :: (if (c.cell x).prog.isEmpty ∨ c.hasCoefFlow x then [] else [0x0503 * 65536 + smpNo x]))
  else if s = 6 then timingKinds.flatMap (fun k => (List.range k.2).map (fun i => k.1 * 65536 + i))
  else []

/-- The objects of section `s` that an Almanac sets: those it names, and with REPLACE those of the active Almanac, its own and every
other that is not in its reset state (R52). -/
def Chip.keys (c : Chip) (p : Prepared) (s : Nat) : List Nat :=
  have all := match p.sects.find? (fun x => decide (x.1 = s)) with
    | some x => x.2.1
    | none => false
  ((p.named.filter (fun k => decide (k / 65536 / 256 = s))) ++
    (if all then ((c.alm.active ++ p.objs).map (fun e => e.1) ++ c.setKeys s).filter (fun k => decide (k / 65536 / 256 = s)) else [])).eraseDups

/-- Does an Almanac carry section `s`, and with REPLACE? -/
def Prepared.has (p : Prepared) (s : Nat) : Bool := p.sects.any (fun x => decide (x.1 = s))
def Prepared.replaces (p : Prepared) (s : Nat) : Bool := p.sects.any (fun x => decide (x.1 = s) && x.2.1)

/-- Shadow sets hand over outside their own arming: every set of a full Almanac (R212). -/
def Chip.schedHandover (c : Chip) (sh gt : List Nat) : Chip :=
  gt.foldl (fun d p => d.gateHandover p d.lNow) (sh.foldl (fun d i => d.shaperHandover i) c)

/-- SCHEDULE of a full Almanac. -/
def Chip.schedApply (c : Chip) (t : Tab (List Byte)) : Chip :=
  have sh := c.shapersSet
  have gt := c.gatesSet
  have c := c.withSched t
  c.schedHandover (sh ++ c.shapersSet).eraseDups (gt ++ c.gatesSet).eraseDups

/-! ## Security policy (R335, R388) -/

/-- The role that the active SECURITY_POLICY gives a key digest. -/
def Chip.roleOf (c : Chip) (digest : List Byte) : Option Nat := (List.range 8).find? (fun r => match c.obj 0x0901 r with
  | some b => (roleKeys b).contains digest
  | none => false)

/-- The rights of role `r` under the active policy. -/
def Chip.roleRights (c : Chip) (r : Nat) : Nat := match c.obj 0x0901 r with
  | some b => (word b 0 % 65536) &&& c.roleCeil r
  | none => 0

/-- Every session's key is looked up again at a commit that changes SECURITY_POLICY (R335). -/
def Chip.sessRecheck (c : Chip) : Chip :=
  forN 4 (fun s d =>
    if d.sessOpen s then
      have x := d.sess s
      have had := d.rg R.HST_SESS_STAT_ROLE s
      match d.roleOf (sha3_512 x.hostKey) with
      | none => d.sessClose s 4
      | some r =>
        have rights := d.roleRights r
        if (x.rights &&& rights) ≠ x.rights ∨ (had < 0x80 ∧ had ≠ r) then d.sessClose s 4
        else (d.setSess s { x with rights := rights }).wg R.HST_SESS_STAT_ROLE s r
    else d) c

/-! ## Power policy (R419, R422) -/

/-- RETRY_DLY in ms, INIT and INIT_OP of the active Almanac. -/
def Chip.retryDly (c : Chip) (d : Nat) : Nat := match c.obj 0x0702 d with
  | some b => byteAt b 2
  | none => 1

/-- The operating point of region `n` taken at once. -/
def Chip.opTake (c : Chip) (n k : Nat) : Chip :=
  ((c.wg R.PWR_RGN_OP_CUR n k).wg R.PWR_RGN_STAT_VOLT_MV n (c.opPoint n k).1).wg R.PWR_RGN_STAT_CAP n (c.opPoint n k).2

/-! ## A full Almanac in ASSEMBLY (R67) -/

/-- Bring HLT_PACE_REQ of every region up to the active structure (R16). -/
def Chip.paceApply (c : Chip) : Chip := forN 4 (fun n d => d.wg R.HLT_PACE_REQ_REQ n (paceOf d.alm.active n)) c

/-- What a new generation sets beside the units: ALM_GEN_ACTIVE, the sections' generations, the trunk revisions (R57, R62, R123). -/
def Chip.genTake (c : Chip) (p : Prepared) : Chip :=
  have sg := p.sects.foldl (fun (t : Tab Nat) (x : Nat × Bool × Nat) => t.set x.1 x.2.2) c.alm.sectGen
  have c := match objOf p.objs 0x0A02 0 with
    | some b => (c.wg R.TRK_REV_STAT_CUR 0 (byteAt b 0)).wg R.TRK_REV_STAT_PREV 0 (byteAt b 1)
    | none => c
  { (c.wg R.ALM_GEN_ACTIVE_GEN 0 p.gen) with alm.active := p.objs, alm.sectGen := sg }

/-- A full Almanac is applied as one transaction: every unit takes its configuration, and the terminal goes on to SELFCHECK. -/
def Chip.fullApply (c : Chip) (m : Mem) (p : Prepared) : Chip :=
  have src := c.rg R.TMG_B_CFG_SRC 0
  have c := { c.genTake p with alm.keySlot := p.slot, sec.dAlmanac := p.chain }
  have c := ((c.structApply m).paceApply).wg R.TRK_SIDE_STAT_ACTIVE 0 c.homeSide
  have c := c.winClear 0x40000000 0x18000000
  have c := forN 12 (fun s d => d.wg R.PKT_STAGE_BANK_ACT s 0) c
  have c := (List.range 12).foldl (fun d s => match d.obj 0x0301 s with
    | some l => d.putRuns p.words s (allocRange l 0).1
    | none => d) c
  have c := ((c.putRuns p.words 12 0x40000000).putGraph p.objs 0).newGen (c.rg R.ALM_RULE_GEN_CUR 0) 0
  have c := (c.schedApply p.objs).nameShapers.withTiming p.objs
  have c := forN 96 (fun x d => d.cellApply x 0) c
  have c := forN 32 (fun b d => d.mirror b) c
  have c := forN 4 (fun n d => (d.wg R.PWR_RGN_OP_TARGET n (initOpOf p.objs (9 + n))).opTake n (initOpOf p.objs (9 + n))) c
  have c := ((c.extendM 4 p.chain).sessRecheck).timeCfg src
  (c.setMode 1 1).portsEval

/-! ## A delta (R68, R69) -/

/-- Stages whose inactive bank a delta prepares: with REPLACE all, else those named by LAYOUT or ENTRIES; a flow stage whose table
does not change keeps its bank, for its entries are the host's (R170). -/
def Chip.deltaStages (c : Chip) (p : Prepared) : List Nat :=
  if !p.has 3 then [] else
  (List.range 12).filter (fun s =>
    (p.replaces 3 || p.named.contains (0x0301 * 65536 + s) || p.named.contains (0x0302 * 65536 + s)) &&
    !(match objOf p.objs 0x0301 s with
      | some l => decide (byteAt l 0 = 4) && !c.stageMoved p.objs s
      | none => false))

/-- Sample cells whose inactive program bank, and whose coefficient set, a delta prepares. -/
def Chip.deltaCells (c : Chip) (p : Prepared) (rtype : Nat) : List Nat :=
  ((c.keys p 5).filter (fun k => decide (k / 65536 = rtype))).map (fun k => smpOf (k % 65536))

/-- Register keys and widths of a record's shadow registers. -/
def recKeys (rtype i n : Nat) : List (Nat × Nat) :=
  (recAddrs rtype i n).flatMap (fun a => (fieldsAt a).map (fun f => (f.key (f.instAt a), f.width)))

/-- The coefficient set of cell x takes a COEF_INIT record in its shadow copy (R261). -/
def Chip.coefShadow (c : Chip) (x pb : Nat) (t : Tab (List Byte)) : Chip :=
  have coef := objOf t 0x0503 (smpNo x)
  (c.putCoefs x pb (1 - c.coefAct x) coef).putBexp x false coef

/-- Register keys and widths of the shadow block exponents of cell x. -/
def bexpKeys (x : Nat) : List (Nat × Nat) := (List.range 16).map (fun k => ((bexpFld false k).key (256 * x + k / 4), (bexpFld false k).width))

/-- A write of an armed shadow set clears its ARM (R80). -/
def Chip.disarm (c : Chip) (f : Fld) (i : Nat) : Chip :=
  if c.rb f i then (c.wg f i 0).wsat R.ALM_SHADOW_DISARM_COUNT 0 (c.rg R.ALM_SHADOW_DISARM_COUNT 0 + 1) else c

/-- A verified delta is prepared in the inactive resources (R68): table banks, program banks, shadow sets. -/
def Chip.deltaPrepare (c : Chip) (p : Prepared) : Chip :=
  have c := (c.deltaStages p).foldl (fun d s =>
    have bank := 1 - d.rg R.PKT_STAGE_BANK_ACT s
    have d := { (d.wg R.PKT_STAGE_STAT_LOCK s 1) with alm.load.banks := d.alm.load.banks.set s bank }
    match objOf p.objs 0x0301 s with
    | none => d
    | some l =>
      have r := allocRange l bank
      have d := if p.replaces 3 || d.stageMoved p.objs s then d.winClear r.1 r.2 else d.winCopy (allocRange l (1 - bank)).1 r.1 r.2
      { (d.putRuns p.words s r.1) with alm.load.region := r :: d.alm.load.region }) c
  have c := (c.deltaCells p 0x0501).foldl (fun d x =>
    have bank := 1 - d.rg R.SMP_PROG_BANK_ACT x
    have d := (d.putProgram x bank (objOf p.objs 0x0501 (smpNo x))).wg R.SMP_PROG_BANK_LOCK x 1
    { d with alm.load.region := (mwAddr x bank 0, 0x8000) :: d.alm.load.region, alm.load.banks := d.alm.load.banks.set (16 + x) bank }) c
  have c := (c.deltaCells p 0x0503).foldl (fun d x =>
    if p.named.contains (0x0501 * 65536 + smpNo x) then d
    else
      have pb := d.runBank x
      have k := d.cell x
      have e := (d.disarm R.SMP_CSET_CTRL_ARM x).coefShadow x pb p.objs
      { e with alm.load.region := (rowAddr x (k.csBase pb (1 - d.coefAct x)), 1024 * k.csize pb) :: e.alm.load.region, alm.load.shadow := bexpKeys x ++ e.alm.load.shadow }) c
  ((c.keys p 4).filter (fun k => shadowed (k / 65536))).foldl (fun d k =>
    have e := (if k / 65536 = 0x0402 then d.disarm R.SCH_SHAPER_CTRL_ARM (k % 65536) else d.disarm R.SCH_GATE_CTRL_ARM (k % 65536)).putObj p.objs k
    { e with alm.load.shadow := recKeys (k / 65536) (k % 65536) 256 ++ e.alm.load.shadow }) c

/-- A delta takes effect at its commit point: banks, shadow sets, registers. The rule generation is counted by the commit engine. A stage
or cell takes the bank that was prepared, whatever a transaction has made of ACT meanwhile (R85). A cell that gets its first program
with no COEF_INIT starts with zero coefficient rows (R261). WRITE_EPOCH and LAST_EPOCH of the shadow sets stay (log entry 71). -/
def Chip.deltaApply (c : Chip) (p : Prepared) : Chip :=
  have src := c.rg R.TMG_B_CFG_SRC 0
  have stages := c.deltaStages p
  have progs := c.deltaCells p 0x0501
  have coefs := c.deltaCells p 0x0503
  have sched := c.keys p 4
  have timing := c.keys p 6
  have cells := if p.has 5 then List.range 96 else []
  have banks := c.alm.load.banks
  have fresh := progs.filter (fun x => (c.obj 0x0501 (smpNo x)).isNone && (objOf p.objs 0x0503 (smpNo x)).isNone)
  have c := { c.genTake p with alm.load.region := [], alm.load.shadow := [], alm.load.banks := [] }
  have c := stages.foldl (fun d s => d.wg R.PKT_STAGE_BANK_ACT s (Tab.get (1 - d.rg R.PKT_STAGE_BANK_ACT s) banks s)) c
  have c := if p.replaces 3 then c.winClear 0x40000000 0x40000 else c
  have c := c.putRuns p.words 12 0x40000000
  have c := coefs.foldl (fun d x =>
    have d := if p.named.contains (0x0501 * 65536 + smpNo x) then d.coefShadow x (Tab.get (1 - d.rg R.SMP_PROG_BANK_ACT x) banks (16 + x)) p.objs else d
    d.wg R.SMP_CSET_CTRL_ARM x 1) c
  have c := progs.foldl (fun d x => d.wg R.SMP_PROG_BANK_ACT x (Tab.get (1 - d.rg R.SMP_PROG_BANK_ACT x) banks (16 + x))) c
  have c := fresh.foldl (fun d x => (d.putCoefs x (d.rg R.SMP_PROG_BANK_ACT x) 0 none).putCoefs x (d.rg R.SMP_PROG_BANK_ACT x) 1 none) c
  have c := cells.foldl (fun d x => (d.wb R.SMP_CELL_CFG_ENABLE x (objOf p.objs 0x0501 (smpNo x)).isSome).smpChange x) c
  have c := if p.has 5 then forN 32 (fun b d => d.mirror b) c else c
  have c := (sched.filter (fun k => !shadowed (k / 65536))).foldl (fun d k => if k / 65536 = 0x0403 then d.polChange (k % 65536) (fun e => e.putObj p.objs k) else d.putObj p.objs k) c.accrueAll
  have c := c.nameShapers
  have c := c.schedHandover ((sched.filter (fun k => decide (k / 65536 = 0x0402))).map (fun k => k % 65536)) ((sched.filter (fun k => decide (k / 65536 = 0x0404))).map (fun k => k % 65536))
  have c := timing.foldl (fun d k => d.putObj p.objs k) c
  if p.has 6 then c.timeCfg src else c

/-! ## The restore of a domain (R409, R466) -/

/-- What domain `d` holds beside registers is lost: frames of its ports and slices, its cells, its engines. -/
def Chip.domLost (c : Chip) (d : Nat) : Chip :=
  if 9 ≤ d ∧ d ≤ 12 then
    have n := d - 9
    have mine := fun (p : Nat) => decide (p / 32 = n)
    have c := (c.qs.frames.filter (fun x => decide (x.f.blk / 8 = n) && x.spill.isNone)).foldl (fun e x => e.dropQueued x) c
    have keep := fun (t : Tab Nat) => t.filter (fun (e : Nat × Nat) => !mine e.1)
    have keep8 := fun (t : Tab Nat) => t.filter (fun (e : Nat × Nat) => !mine (e.1 / 8))
    { c with qs.tx := c.qs.tx.filter (fun (x : TxFrame) => !mine x.port), pt.trainAt := keep c.pt.trainAt, pt.failAt := keep c.pt.failAt, pt.flushAt := keep c.pt.flushAt, pt.wakeAt := keep c.pt.wakeAt, pt.busyAt := keep c.pt.busyAt, pt.pauseEnd := keep8 c.pt.pauseEnd, pt.pauseAt := keep8 c.pt.pauseAt, pt.releaseEnd := keep8 c.pt.releaseEnd, pt.ctlQ := c.pt.ctlQ.filter (fun (x : CtlTx) => !mine x.port), pt.freeAt := keep c.pt.freeAt, pt.loopQ := c.pt.loopQ.filter (fun (x : LoopTx) => !mine x.port) }
  else if 13 ≤ d then
    (List.range 24).foldl (fun e j =>
      have x := 24 * (d - 13) + j
      ((e.setCell x SmpCell.reset).setPath x FhCell.reset).winUndef (rowAddr x 0) 0x80000 |>.winUndef (mwAddr x 0 0) 0x10000) c
  else if d = 8 then { c with ds.eng := [], ds.mon := [] }
  else if d = 7 then
    ((c.qs.frames.filter (fun x => x.spill.isSome)).foldl (fun e x => e.dropQueued x) c).wg R.MEM_HBM_STAT_TRAINED 0 0
  else c

/-- On exit from OFF the registers of the domain take their reset values, and the loader restores what the active Almanac sets. -/
def Chip.domRestore (c : Chip) (d : Nat) : Chip :=
  have c := { c with regs := c.regs.filter (fun (e : Nat × Nat) => decide (domAt (e.1 / 32) ≠ d)) }
  if c.rg R.ALM_GEN_ACTIVE_GEN 0 = 0 then c
  else if d = 8 then c.wg R.TRK_SIDE_STAT_ACTIVE 0 c.homeSide
  else if 9 ≤ d ∧ d ≤ 12 then forN 32 (fun j e => e.portApply (32 * (d - 9) + j)) c
  else if 13 ≤ d then
    forN 8 (fun m e => e.mirror (8 * (d - 13) + m)) (forN 24 (fun j e => e.cellApply (24 * (d - 13) + j) 0) c)
  else c

end Sys2Proof.Machine
end

