-- ==== Sys2Proof/Machine/Line.lean ====
section
/-! DEFINITION. What a burst carries before coding (04_trunk_access.md R140, R141): the Eve, the delimiter and the scrambled body. The
bit that a register of a pseudo-random sequence gives is its oldest one (log entry 32). -/

namespace Sys2Proof.Machine

open Sys2Proof

/-- `n` bits, first bit first, as bytes: bit 7 of a byte is sent first (R7). -/
def packBits : List Bool → List Byte
  | a :: b :: c :: d :: e :: f :: g :: h :: r =>
    BitVec.ofNat 8 (b2n a * 128 + b2n b * 64 + b2n c * 32 + b2n d * 16 + b2n e * 8 + b2n f * 4 + b2n g * 2 + b2n h) :: packBits r
  | _ => []

/-- `n` bits of the sequence xʷ + xᵛ + 1 from a state of `w` bits, oldest bit first. -/
def prbs (w v : Nat) : Nat → Nat → List Bool
  | _, 0 => []
  | st, n + 1 => bit st (w - 1) :: prbs w v ((st * 2 + (if bit st (w - 1) = bit st (v - 1) then 0 else 1)) % 2 ^ w) n

/-- The bytes of the Eve: 4,096 symbols of 4 bits of PRBS15 from 0x7FFF, or the last 512 of them (R141). -/
def eveBytes (short : Bool) : List Byte :=
  have l := packBits (prbs 15 14 0x7FFF 16384)
  if short then l.drop 1792 else l

/-- The delimiter: its 64-bit word sent 16 times (R141). -/
def delimiterBytes : List Byte := (List.replicate 16 (beBytes 8 0x3A91C65E0F27B4D8)).flatten

/-- The additive scrambler PRBS31 with all ones at the first bit (R94, R141). -/
def scramble (l : List Byte) : List Byte :=
  List.zipWith (fun (a b : Byte) => a ^^^ b) l (packBits (prbs 31 28 0x7FFFFFFF (8 * l.length)))

/-! The sequence of R94 from any bit on. Bit n of it is a linear function of its first 31 bits, all ones: the parity of the coefficients
of xⁿ modulo x³¹ + x³ + 1, the polynomial of its recurrence. -/

/-- x · a and a · b modulo x³¹ + x³ + 1. -/
def polyX (a : Nat) : Nat := if a.testBit 30 then (a * 2) % 2 ^ 31 ^^^ 9 else a * 2
def polyMul (a b : Nat) : Nat := (List.range 31).foldr (fun i r => if b.testBit i then polyX r ^^^ a else polyX r) 0

/-- xⁿ modulo x³¹ + x³ + 1. -/
def polyPow (n : Nat) : Nat := (List.range 32).foldr (fun i r => if n.testBit i then polyX (polyMul r r) else polyMul r r) 1

/-- `n` bits of the sequence from the bit of residue `a` on. -/
def prbsFrom : Nat → Nat → List Bool
  | _, 0 => []
  | a, n + 1 => decide (popCount 31 a % 2 = 1) :: prbsFrom (polyX a) n

/-- The additive scrambler for bytes that begin `o` bytes after the start of the sequence (R94). -/
def scrambleAt (o : Nat) (l : List Byte) : List Byte :=
  List.zipWith (fun (a b : Byte) => a ^^^ b) l (packBits (prbsFrom (polyPow (8 * o)) (8 * l.length)))

end Sys2Proof.Machine
end

