-- ==== Sys2Proof/Machine/Measure.lean ====
section
/-! DEFINITION. Registers and counters that report a measurement of the line or of a device, which no command gives
(03_trunk_downstream.md R111, R112, R115; 10_ports_and_lanes.md R327; log entry 42). Each is stored like any other, from its reset
value on; what a measurement adds or finds is a free value. -/

namespace Sys2Proof.Machine

open Sys2Proof

/-- A field takes a free value. -/
def Chip.wfree (c : Chip) (f : Fld) (i : Nat) : Chip :=
  have x := c.draw
  x.2.wg f i (x.1 % 2 ^ f.width)

/-- A measured counter: its family, its instances, and when it counts. -/
structure Measured where
  ctr : Ctr
  n : Nat
  on : Chip → Nat → Bool

/-- Does the PRBS31 checker of port `p` see anything but the generator's own pattern (R317)? -/
def Chip.prbsIn (c : Chip) (p : Nat) : Bool :=
  c.rb R.PRT_LOOP_PRBS_CHK p && !(decide (c.rg R.PRT_LOOP_LOOP p = 2) && c.rb R.PRT_LOOP_PRBS_GEN p)

/-- PRBS_LOCK of a checker that sees the fibre: whether 64 good bits on end have come is free. -/
def Chip.monitorPrbs (c : Chip) (p : Nat) : Chip :=
  if c.prbsIn p ∧ (c.rg R.PRT_LOOP_LOOP p = 0 ∨ c.rg R.PRT_LOOP_LOOP p = 3) then c.wfree R.PRT_LOOP_PRBS_LOCK p else c

/-- Errors that the line or a device corrects, and bit errors of a test pattern. -/
def measuredCtrs : List Measured :=
  [⟨C.TRK_DS_FEC_CORR_BITS, 16, fun c k => c.rb R.TRK_DS_CFG_ENABLE k⟩, ⟨C.TRK_DS_FEC_UNCORR, 16, fun c k => c.rb R.TRK_DS_CFG_ENABLE k⟩,
   ⟨C.PRT_FEC_CORR, 128, fun c p => decide (c.rg R.PRT_STAT_LINK p ≠ 0)⟩, ⟨C.PRT_FEC_UNCORR, 128, fun c p => decide (c.rg R.PRT_STAT_LINK p ≠ 0)⟩,
   ⟨C.PRT_PRBS_ERR, 128, fun c p => c.prbsIn p⟩, ⟨C.HST_FEC_CORR, 1, fun c _ => decide (c.rg R.HST_STAT_LINK 0 ≠ 0)⟩,
   ⟨C.HST_FEC_UNCORR, 1, fun c _ => decide (c.rg R.HST_STAT_LINK 0 ≠ 0)⟩, ⟨C.MEM_HBM_CORR, 1, fun c _ => decide (c.rg R.MEM_HBM_STAT_TRAINED 0 ≠ 0)⟩]

/-- What instance `i` has met since it was last looked at is counted. -/
def Chip.measureOne (c : Chip) (m : Measured) (i : Nat) : Chip :=
  if m.on c i then
    have x := c.draw
    x.2.incBy m.ctr i x.1
  else c

/-- The instance of a counter family whose live LO word lies at an address. -/
def Measured.instAt (m : Measured) (a : Nat) : Option Nat := (List.range m.n).find? (fun i => decide (m.ctr.key i = a))

/-- A measured counter whose live LO word lies at `a` is brought up to date. -/
def Chip.measureAt (c : Chip) (a : Nat) : Chip :=
  match measuredCtrs.findSome? (fun m => (m.instAt a).map (fun i => (m, i))) with
  | some x => c.measureOne x.1 x.2
  | none => c

/-- Every measured counter is brought up to date, for the copy into the latched banks (R111). -/
def Chip.measureAll (c : Chip) : Chip := measuredCtrs.foldl (fun d m => forN m.n (fun i e => e.measureOne m i) d) c

/-- The monitors of wavelength k are refreshed where their 10 ms have passed and the receiver runs (R115). -/
def Chip.monitorDs (c : Chip) (k : Nat) : Chip :=
  have n := c.now / (10 * msPs)
  if c.rb R.TRK_DS_CFG_ENABLE k ∧ Tab.get 0 c.ds.monAt k < n then
    have c := [R.TRK_DS_MON_PWR_PWR, R.TRK_DS_MON_PWR_OSNR, R.TRK_DS_MON_CD_DGD, R.TRK_DS_MON_FOFS_FOFS, R.TRK_DS_MON_FOFS_SNR].foldl (fun d f => d.wfree f k) c
    { c with ds.monAt := c.ds.monAt.set k n }
  else c

/-- BER of the last latched second of every receiver that runs (R115). -/
def Chip.monitorBer (c : Chip) : Chip := forN 16 (fun k d => if d.rb R.TRK_DS_CFG_ENABLE k then d.wfree R.TRK_DS_MON_BER_PPB k else d) c

/-- The optical powers of a local port that is not switched off. -/
def Chip.monitorPort (c : Chip) (p : Nat) : Chip :=
  if c.rg R.PRT_STAT_LINK p = 0 then c else (c.wfree R.PRT_OPT_MON_RX_PWR p).wfree R.PRT_OPT_MON_TX_PWR p

/-- CARRIER of the sensor bus: 1 while the terminal sends, and what the segment carries otherwise; 0 with the MAC off. -/
def Chip.monitorSbus (c : Chip) : Chip :=
  if c.rb R.SBS_CFG_EN 0 = false then c.wg R.SBS_STAT_CARRIER 0 0
  else if c.pt.sbHist.any (fun y => decide (c.now < y.2)) || c.pt.sbTx.any (fun x => x.start.isSome) then c.wg R.SBS_STAT_CARRIER 0 1
  else c.wfree R.SBS_STAT_CARRIER 0

/-- KIB of the step of a load in progress: it grows by a free amount, never past the image; in READING, whose length is not known before
the header, never past the greatest image (R66, R87). -/
def Chip.monitorLoad (c : Chip) : Chip :=
  have st := c.rg R.ALM_LOAD_STAT_STATE 0
  if 1 ≤ st ∧ st ≤ 3 then
    have top := if st = 1 then 262144 else cdiv c.alm.load.len 1024
    have old := c.rg R.ALM_LOAD_PROG_KIB 0
    have x := c.draw
    x.2.wg R.ALM_LOAD_PROG_KIB 0 (old + x.1 % (top - old + 1))
  else c

/-- The register at an address takes the measurement it reports. -/
def Chip.refresh (c : Chip) (a : Nat) : Chip :=
  if 0x20000 ≤ a ∧ a < 0x30000 ∧ 0x10 ≤ a % 0x1000 ∧ a % 0x1000 < 0x20 then c.monitorDs ((a - 0x20000) / 0x1000)
  else if 0xC0000 ≤ a ∧ a < 0xE0000 ∧ a % 0x400 = 0x34 then c.monitorPort ((a - 0xC0000) / 0x400)
  else if 0xC0000 ≤ a ∧ a < 0xE0000 ∧ a % 0x400 = 0x1C then c.monitorPrbs ((a - 0xC0000) / 0x400)
  else if a = R.SBS_STAT_CARRIER.reg then c.monitorSbus
  else if a = R.ALM_LOAD_PROG_KIB.reg then c.monitorLoad
  else c

/-- The part of a sensor-bus transmission within a span. -/
def sbusIn (a b : Nat) (x : Nat × Nat) : Nat := min x.2 b - max x.1 a

/-- DUTY of SBS_GUARD (R326, R327): percent of the last completed 100 ms window. -/
def Chip.sbusDuty (c : Chip) : Nat :=
  have w := c.now / (100 * msPs) * (100 * msPs)
  (c.pt.sbHist.map (sbusIn (w - 100 * msPs) w)).sum / msPs

end Sys2Proof.Machine
end

