-- ==== Sys2Proof/Machine/Downstream.lean ====
section
/-! DEFINITION. The downstream side of the trunk (03_trunk_downstream.md): start-up of a receiver (R91 to R93), frame alignment (R98),
headers and the superframe count (R99, R100), message slots (R97, R124, R125), carriage units (R101 to R106), the trace (R107),
defects and channel monitors (R108 to R110), the per-second latch (R111, R112), the watch receiver (R89, R90) and the protection
switch (R113, R114). -/

namespace Sys2Proof.Machine

open Sys2Proof

/-! ## Start-up of a receiver -/

/-- An engine serves wavelength `k`, it is powered and its receiver is enabled. -/
def Chip.rxOn (c : Chip) (k : Nat) : Bool := c.rb R.TRK_DS_CFG_ENABLE k && decide (c.engineOf k ≠ 31) && c.domOn 8

/-- The side whose fibre the receivers are on: from step 2 of a switch the other one (R114). -/
def Chip.pathSide (c : Chip) : Nat := if c.ds.apsStep ≥ 2 then 1 - c.rg R.TRK_SIDE_STAT_ACTIVE 0 else c.rg R.TRK_SIDE_STAT_ACTIVE 0

/-- DSP acquisition begins: warm where TRK_SIDE_CD holds a value for the side and wavelength and COLD was not written (R91). -/
def Chip.dsAcquire (c : Chip) (k : Nat) (cold : Bool) : Chip :=
  have e := c.eng k
  have warm := !cold && !e.forceCold && c.rb R.TRK_SIDE_CD_VALID (16 * c.pathSide + k)
  (c.wg R.TRK_DS_STAT_ACQ k (if warm then 2 else 1)).setEng k { e with step := 2, at_ := c.now, forceCold := false, cands := [] }

/-- The receiver is switched off: OFF, IDLE, LOS and LOF read 0 (R92). -/
def Chip.dsOff (c : Chip) (k : Nat) : Chip :=
  have e := c.eng k
  have c := ((c.wg R.TRK_DS_CFG_ENABLE k 0).wg R.TRK_DS_STAT_ACQ k 0).setEng k { e with step := 0, cands := [], sfc := none, jump := none, delin := none, good := 0, frGrants := false }
  ((c.setFstate k 0).setDefect k 0 false).syncCheck

/-- A write of TRK_DS_CFG of engine `k` (R92): FREQ_N out of range leaves ENABLE at 0 and is an error; LOF_MISS out of range is
ignored; COLD forces the next acquisition to be cold. Of a receiver that is on already, ENABLE = 1 written again or a changed FREQ_N
does not tune it again, and a FREQ_N out of range switches it off (DESIGN CHOICE, log entry 75). -/
def dsCfgWrite (k v : Nat) (c : Chip) : Chip × Nat :=
  have c := ((c.wg R.TRK_DS_CFG_TIM_EN k (bitN v 1)).wg R.TRK_DS_CFG_EVT_EN k (bitN v 3)).wg R.TRK_DS_CFG_FREQ_N k (bits v 16 16)
  have c := if 2 ≤ bits v 8 4 then c.wg R.TRK_DS_CFG_LOF_MISS k (bits v 8 4) else c
  have c := if bit v 1 then c else c.setDefect k 4 false
  have c := if bit v 2 then c.setEng k { c.eng k with forceCold := true } else c
  if bit v 0 then
    if freqDsOk (bits v 16 16) then (if c.rb R.TRK_DS_CFG_ENABLE k then c else c.dsStart k, stOk)
    else (if c.rb R.TRK_DS_CFG_ENABLE k then c.dsOff k else c, stRefused)
  else (if c.rb R.TRK_DS_CFG_ENABLE k then c.dsOff k else c, stOk)

/-- DS_ENABLE (R92, R93): TRK_DS_CFG is written with ENABLE = 1; `v` gives its other bits. -/
def execDsEnable (t : Nat) (k : Fin 16) (v : Nat) (s : State) : Host.Outcome State Fault Refusal :=
  s.on t (fun _ c => c.answeredIn 8 (dsCfgWrite k.val (setBit (v % 2 ^ 32) 0)))

/-- DS_COLD (R91): TRK_DS_CFG is written as it stands with COLD = 1. -/
def dsCold (k : Nat) (c : Chip) : Chip := c.setEng k { c.eng k with forceCold := true }

def execDsCold (t : Nat) (k : Fin 16) (s : State) : Host.Outcome State Fault Refusal := s.on t (fun _ c => c.answeredIn 8 (fun c => (dsCold k.val c, stOk)))

/-- DS_OSC_SETTLED (R93 step 2). -/
def dsOscSettled (k : Nat) (c : Chip) : Chip := if c.rxOn k ∧ (c.eng k).step = 1 then c.dsAcquire k false else c

def execDsOscSettled (t : Nat) (k : Fin 16) (s : State) : Host.Outcome State Fault Refusal := s.on t (fun _ => dsOscSettled k.val)

/-- DS_DSP_LOCKED (R93 step 3): the dispersion found is stored for the side and wavelength; the engine hunts, unless its framing kept
SYNC (log entry 29). -/
def dsDspLocked (k : Nat) (cd : Int) (c : Chip) : Chip :=
  have e := c.eng k
  if c.rxOn k ∧ e.step = 2 then
    have i := 16 * c.pathSide + k
    have c := (((c.wg R.TRK_DS_STAT_ACQ k 3).ws R.TRK_SIDE_CD_CD i cd).wg R.TRK_SIDE_CD_VALID i 1).ws R.TRK_DS_MON_CD_CD k cd
    have c := if c.ds.apsStep = 3 then { c with ds.apsStep := 4 } else c
    if c.rg R.TRK_DS_STAT_FSTATE k = 3 then c.setEng k { e with step := 6 }
    else (c.setEng k { e with step := 3, at_ := c.now, cands := [] }).setFstate k 1
  else c

def execDsDspLocked (t : Nat) (k : Fin 16) (cd : Int) (s : State) : Host.Outcome State Fault Refusal := s.on t (fun _ => dsDspLocked k.val cd)

/-- The bound of a start-up step in ps (R93). -/
def Chip.dsBound (c : Chip) (k : Nat) : Nat := match (c.eng k).step with
  | 1 => 10 * msPs
  | 2 => if c.rg R.TRK_DS_STAT_ACQ k = 2 then msPs else 20 * msPs
  | 3 => 125 * usPs
  | _ => 250 * usPs

/-- DS_ACQ_TIMEOUT (R93): a step has exceeded its bound. -/
def dsAcqTimeout (k : Nat) (c : Chip) : Chip :=
  have e := c.eng k
  if c.rxOn k ∧ 1 ≤ e.step ∧ e.step ≤ 5 ∧ e.at_ + c.dsBound k ≤ c.now then
    have c := if e.step = 2 then c else c.setFstate k 0
    (c.dsAcquire k true).syncCheck
  else c

def execDsAcqTimeout (t : Nat) (k : Fin 16) (s : State) : Host.Outcome State Fault Refusal := s.on t (fun _ => dsAcqTimeout k.val)

/-! ## Frame alignment (R98) -/

/-- PSYNC (R94), and the bits in which eight bytes differ from it. -/
def psyncWord : Nat := 0xB5E30C9A6F12D47B
def psyncDiff (w : List Byte) : Nat := popCount 64 (beAt w 0 8 ^^^ psyncWord)

/-- PSYNC_CANDIDATE: the eight bytes at bit position `pos` of the frame period are tested while no SYNC is held; an exact match opens a
candidate. -/
def psyncCandidate (k pos : Nat) (w : List Byte) (c : Chip) : Chip :=
  have e := c.eng k
  have st := c.rg R.TRK_DS_STAT_FSTATE k
  if c.rxOn k = false ∨ (st ≠ 1 ∧ st ≠ 2) ∨ psyncDiff w ≠ 0 ∨ e.cands.any (fun x => decide (x.pos = pos)) then c
  else if e.cands.length ≥ 4 then c.inc C.TRK_DS_CAND_DROP k
  else
    have e := { e with cands := e.cands ++ [⟨pos, 0⟩] }
    (c.setEng k (if st = 1 then { e with step := 4, at_ := c.now } else e)).setFstate k 2

def execPsyncCandidate (t : Nat) (k : Fin 16) (pos : Nat) (w : List Byte) (s : State) : Host.Outcome State Fault Refusal :=
  s.on t (fun _ => psyncCandidate k.val pos w)

/-- CANDIDATE_TEST: the candidate at `pos` is tested one frame period after its last match, on the eight bytes that stand there. -/
def candidateTest (k pos : Nat) (w : List Byte) (c : Chip) : Chip :=
  have e := c.eng k
  if c.rxOn k = false ∨ c.rg R.TRK_DS_STAT_FSTATE k ≠ 2 then c
  else match e.cands.find? (fun x => decide (x.pos = pos)) with
  | none => c
  | some x =>
    if psyncDiff w > 3 then
      have r := e.cands.filter (fun (y : Cand) => decide (y.pos ≠ pos))
      if r.isEmpty then (c.setEng k { e with cands := [], step := 3, at_ := c.now }).setFstate k 1 else c.setEng k { e with cands := r }
    else if x.passes = 0 then c.setEng k { e with cands := e.cands.map (fun (y : Cand) => if y.pos = pos then ⟨pos, 1⟩ else y) }
    else ((c.setEng k { e with cands := [], misses := 0, sfc := none, jump := none, good := 0, delin := none, step := 5, at_ := c.now }).setFstate k 3).aCheck

def execCandidateTest (t : Nat) (k : Fin 16) (pos : Nat) (w : List Byte) (s : State) : Host.Outcome State Fault Refusal :=
  s.on t (fun _ => candidateTest k.val pos w)

/-! ## Channel monitors (R109) -/

/-- A monitor's running counts. -/
def Chip.mon (c : Chip) (m : Nat) : Mon := Tab.get ⟨0, 0, 0, 0⟩ c.ds.mon m
def Chip.setMon (c : Chip) (m : Nat) (x : Mon) : Chip := { c with ds.mon := c.ds.mon.set m x }

/-- Monitors bound to a port tag on wavelength `k`, and to an allocation of channel `k`. -/
def Chip.tagMons (c : Chip) (k tag : Nat) : List Nat :=
  c.mons.filter (fun m => !c.rb R.TRK_CHMON_CFG_KIND m && decide (c.rg R.TRK_CHMON_CFG_ID m = tag) && c.rbit R.TRK_CHMON_LIM_MASK m k)
def Chip.allocMons (c : Chip) (k a : Nat) : List Nat :=
  c.mons.filter (fun m => c.rb R.TRK_CHMON_CFG_KIND m && decide (c.rg R.TRK_CHMON_CFG_ID m = 4096 * k + a))

/-- A unit of a tag was seen: CH_AIS and CH_LOSS clear. -/
def Chip.monUnit (c : Chip) (k tag : Nat) : Chip :=
  (c.tagMons k tag).foldl (fun d m => ((d.setMon m { d.mon m with idle := 0, units := (d.mon m).units + 1 }).monDefect m 5 false).monDefect m 4 false) c

/-- A channel AIS marker of a tag was seen: CH_AIS is declared. -/
def Chip.monMarker (c : Chip) (k tag : Nat) : Chip :=
  (c.tagMons k tag).foldl (fun d m => ((d.setMon m { d.mon m with idle := 0, ais := 0 }).monDefect m 5 false).monDefect m 4 true) c

/-- An errored frame of a tag: TAG_FAIL, FRAG_ERR or OVERSIZE. -/
def Chip.monErr (c : Chip) (k tag : Nat) : Chip :=
  (c.tagMons k tag).foldl (fun d m => d.setMon m { d.mon m with errs := (d.mon m).errs + 1 }) c

/-- A grant of an allocation was taken: CH_LOSS clears. -/
def Chip.monGrant (c : Chip) (k a : Nat) : Chip :=
  (c.allocMons k a).foldl (fun d m => (d.setMon m { d.mon m with idle := 0 }).monDefect m 5 false) c

/-- CHMON_AIS_TIMEOUT: 3 whole Octaves without a marker clear CH_AIS. -/
def chmonAisTimeout (m : Nat) (c : Chip) : Chip :=
  if c.rb R.TRK_CHMON_CFG_ENABLE m ∧ 3 < (c.mon m).ais then c.monDefect m 4 false else c

def execChmonAisTimeout (t : Nat) (m : Fin 1024) (s : State) : Host.Outcome State Fault Refusal := s.on t (fun _ => chmonAisTimeout m.val)

/-- CHMON_CH_LOSS: LOSS_OCT whole Octaves with no unit or marker of a tag with CONT, or with no grant of an allocation. -/
def chmonChLoss (m : Nat) (c : Chip) : Chip :=
  if c.rb R.TRK_CHMON_CFG_ENABLE m ∧ (c.rb R.TRK_CHMON_CFG_KIND m ∨ c.rb R.TRK_CHMON_CFG_CONT m) ∧ c.rg R.TRK_CHMON_CFG_LOSS_OCT m < (c.mon m).idle then
    c.monDefect m 5 true
  else c

def execChmonChLoss (t : Nat) (m : Fin 1024) (s : State) : Host.Outcome State Fault Refusal := s.on t (fun _ => chmonChLoss m.val)

/-! ## Reassembly (R105, R106) -/

/-- Bytes of PAYLOAD, bytes of the header window (R94, R153), and 2⁵¹. -/
def payloadLen : Nat := 25000000
def hdrWindow : Nat := 512
def sfcMod : Nat := 2 ^ 51

/-- More bytes of frame `id` arrive, and not its last, wherever it stands. -/
def Chip.moreBytes (c : Chip) (id : Nat) (bs : List Byte) : Chip :=
  have up := fun (f : Frame) => if f.id = id ∧ f.known = false then { f with bytes := f.bytes ++ bs } else f
  have c := { c with pp.waiting := c.pp.waiting.map up, pp.back := c.pp.back.map up, pp.held := c.pp.held.map (fun (x : Frame × Hold) => (up x.1, x.2)), pp.miss := c.pp.miss.map (fun (x : Miss) => { x with p := { x.p with f := up x.p.f } }) }
  { c with qs.frames := c.qs.frames.map (fun (x : QFrame) => { x with f := up x.f }), qs.tx := c.qs.tx.map (fun (x : TxFrame) => { x with f := up x.f }) }

/-- A frame of wavelength `k` that is closed as failed: stomped where part of it has been handed on (R181), dropped otherwise. -/
def Chip.failFrame (c : Chip) (k : Nat) (f : OpenFrame) : Chip :=
  match f.id with
  | none => c
  | some id =>
    match c.qs.tx.find? (fun x => decide (x.f.id = id)) with
    | some x => (c.stompTx x []).inc C.TRK_DS_STOMPED k
    | none => c.removeFrame id

/-- The open frame of a tag leaves the list of wavelength `k`, or takes a new value. -/
def Chip.openDrop (c : Chip) (k tag : Nat) : Chip :=
  c.setEng k { c.eng k with frames := (c.eng k).frames.filter (fun (x : OpenFrame) => decide (x.tag ≠ tag)) }
def Chip.openPut (c : Chip) (k : Nat) (f : OpenFrame) : Chip := (c.openDrop k f.tag).setEng k { (c.openDrop k f.tag).eng k with frames := ((c.openDrop k f.tag).eng k).frames ++ [f] }

/-- What remains of a frame after its open part was dropped is discarded up to its last unit (log entry 28). -/
def Chip.openSkip (c : Chip) (k : Nat) (f : OpenFrame) (last : Bool) : Chip :=
  if last then c.openDrop k f.tag else c.openPut k { f with skip := true, data := [], id := none }

/-- Delineation is lost (R102): every open frame of the wavelength is closed as failed. -/
def Chip.delinLost (c : Chip) (k : Nat) : Chip :=
  have fs := (c.eng k).frames
  have c := (c.inc C.TRK_DS_DELIN_LOST k).setEng k { c.eng k with delin := none, frames := [] }
  fs.foldl (fun d f => if f.skip then d else d.failFrame k f) c

/-- The frame that the pipelines take from an open frame (R155): `known` tells that `bs` is all of it. -/
def OpenFrame.toFrame (f : OpenFrame) (k blk : Nat) (bs : List Byte) (known : Bool) (maxFrame : Nat) : Frame :=
  { id := 0, bytes := bs, len := if known then bs.length + 4 else maxFrame, known := known, origin := 1, wl := k, src := f.tag, blk := blk, pass := 0, gen := 0, bus := 0,
    tsNs := tsNsOf f.ts, tsFrac := fracOf f.ts, tsOk := f.tsOk, entry := true, role := 0, grown := 0, claim := 0, polCh := 0, stomp := false }

/-- The 96-bit IV of a downstream frame: WL, the SFC and the offset of its first header (R105). -/
def downIv (k sfc off : Nat) : List Byte := beBytes 1 k ++ beBytes 7 sfc ++ beBytes 4 off

/-- Does the tag of a frame verify (R105): `tag` under its key and IV, with PORT_TAG as additional data, over what was carried? -/
def Chip.openTagOk (c : Chip) (k : Nat) (f : OpenFrame) (tag : List Byte) : Bool :=
  decide (tag = gcmTagBytes (Tab.get [] c.sec.trunkKeys (2 * f.key)) (downIv k f.sfc f.off) (beBytes 2 f.tag) f.wire)

/-- The last unit of a frame has arrived: tag, length, and the hand-over of what has not been handed on. `bs` is the plaintext not
yet in the core. -/
def Chip.openLast (c : Chip) (k blk : Nat) (mgmt : Bool) (f : OpenFrame) (bs tag : List Byte) : Chip :=
  have c := c.openDrop k f.tag
  if f.key ≠ 0 ∧ c.openTagOk k f tag = false then
    (((c.inc C.TRK_DS_TAG_FAIL k).inc C.SEC_TAG_TAG_FAIL f.key).monErr k f.tag).failFrame k f
  else if mgmt then c.emit .coreFrame k [f.tag] bs
  else if f.wire.length < 60 then c.inc C.PKT_BLK_RUNT_TRUNK blk
  else
    have c := (c.inc C.TRK_DS_FRAMES_OUT k).incBy C.TRK_DS_BYTES_OUT k f.wire.length
    match f.id with
    | some id => c.lastByte id bs
    | none => c.arrive (f.toFrame k blk bs true c.maxFrame)

/-- A unit of data joins the open frame `f` of its tag (R105, R106); the last one of an encrypted frame ends with its tag. A receive edge
FIFO without room for it discards the rest of the frame (R24). -/
def Chip.openData (c : Chip) (k blk : Nat) (mgmt : Bool) (f : OpenFrame) (data : List Byte) (last : Bool) : Chip :=
  if mgmt = false ∧ c.fifoOver 1 k f.id data.length then ((c.errEdgeTrunk k 4).failFrame k f).openSkip k f last
  else
    have n := if f.key ≠ 0 ∧ last then data.length - 16 else data.length
    have key := Tab.get [] c.sec.trunkKeys (2 * f.key)
    have plain := if f.key = 0 then data.take n else gcmStream key (downIv k f.sfc f.off) f.wire.length (data.take n)
    have f1 := { f with wire := f.wire ++ data.take n, data := f.data ++ plain }
    if f1.wire.length + 4 > c.maxFrame then
      (((c.inc C.TRK_DS_OVERSIZE k).monErr k f.tag).failFrame k f).openSkip k f last
    else if last then c.openLast k blk mgmt f1 f1.data (data.drop n)
    else match f.id with
    | some id => (c.moreBytes id plain).openPut k { f1 with data := [] }
    | none =>
      if mgmt = false ∧ hdrWindow ≤ f1.wire.length then
        have id := c.pp.nextId
        (c.arrive (f1.toFrame k blk f1.data false c.maxFrame)).openPut k { f1 with data := [], id := some id }
      else c.openPut k f1

/-- A data unit whose tag and key are good. The first one of a frame takes its stamp, where the capture FIFO has room for it (R26). -/
def Chip.dataUnit (c : Chip) (k tag key pos : Nat) (mgmt : Bool) (data : List Byte) (last : Bool) : Chip :=
  have blk := bits (c.winGet (0x40000000 + 4 * tag)) 1 5
  match (c.eng k).frames.find? (fun x => decide (x.tag = tag)) with
  | some f => if f.skip then (if last then c.openDrop k tag else c) else c.openData k blk mgmt f data last
  | none =>
    have stamp := c.stampRoom 1 k
    have f : OpenFrame := { tag := tag, key := key, start := c.now, sfc := (c.eng k).frSfc, off := pos, wire := [], data := [], id := none, skip := false, ts := c.lNow, tsOk := stamp }
    have c := if stamp then c else c.inc C.TMG_STAMP_DROP 0
    if ((c.eng k).frames.filter (fun x => !x.skip)).length ≥ 256 then ((c.inc C.TRK_DS_FRAG_ERR k).monErr k tag).openSkip k f last
    else c.openData k blk mgmt f data last

/-- The header of a unit, with a single-bit error corrected: its 64 bits and whether one was corrected; none where it is worse. -/
def unitHdr (h : List Byte) : Option (Nat × Bool) :=
  have w := beNat (h.take 8)
  have good := fun (x : Nat) => decide (crc16 (beBytes 6 (x / 65536)) = x % 65536)
  if good w then some (w, false)
  else match (List.range 64).find? (fun i => good (w ^^^ 2 ^ i)) with
  | some i => some (w ^^^ 2 ^ i, true)
  | none => none

/-- Is key index `key` provisioned downstream (R393, R395)? -/
def Chip.keyDown (c : Chip) (key : Nat) : Bool :=
  decide (1 ≤ key ∧ key ≤ 254) && c.keyPermits key 0 && c.rb R.SEC_KIDX_STAT_DOWN key && !c.rb R.SEC_KIDX_STAT_DISABLED key

/-- A delineated unit, by its header word (R101, R103, R104, R130). A channel AIS marker of tag 0xFFFF is ignored uncounted, for the spec
does not say whether it is an Intercalary unit or a marker (DESIGN CHOICE, log entry 73). -/
def Chip.unit (c : Chip) (k w pos : Nat) (data : List Byte) : Chip :=
  have tag := bits w 48 16
  have len := bits w 34 14
  have last := bit w 33
  have key := bits w 24 8
  have ent := c.winGet (0x40000000 + 4 * tag)
  have mgmt := c.rb R.TRK_TERM_ID_VALID 0 && decide (tag = c.rg R.TRK_TERM_ALLOC_MGMT_TAG 0)
  if tag = 0xFFFF then (if bits w 24 8 = 0xFF ∧ bits w 34 14 = 0 ∧ bit w 33 then c else c.inc C.TRK_DS_CU_INTERCALARY k)
  else if mgmt = false ∧ bit ent 0 = false then c.inc C.TRK_DS_CU_FOREIGN k
  else if key = 0xFF ∧ len = 0 ∧ last then c.monMarker k tag
  else
    have c := c.monUnit k tag
    if (if key = 0 then !mgmt && bit ent 6 else !c.keyDown key) then c.inc C.TRK_DS_KEY_ERR k
    else if bit w 32 then
      match (c.eng k).frames.find? (fun x => decide (x.tag = tag)) with
      | some f => (if f.skip then c else c.failFrame k f).openDrop k tag
      | none => c
    else c.dataUnit k tag key pos mgmt ((data ++ zeros len).take len) last

/-- Bytes of PAYLOAD from offset `pos` on as the line carries them, descrambled: what does not fit this frame stands at the start of the
next PAYLOAD (R94, R101). -/
def payloadBytes (pos : Nat) (l : List Byte) : List Byte :=
  scrambleAt (24608 + pos) (l.take (payloadLen - pos)) ++ scrambleAt (24608 + (pos - payloadLen)) (l.drop (payloadLen - pos))

/-- CARRIAGE_UNIT (R101 to R106): the next unit of wavelength `k`, at the instant its header begins: the eight bytes of its header and
its data as the line carries them. -/
def carriageUnit (k : Nat) (hdr data : List Byte) (c : Chip) : Chip :=
  match (c.eng k).delin with
  | none => c
  | some pos =>
    if c.rxOn k = false ∨ c.rg R.TRK_DS_STAT_FSTATE k ≠ 3 ∨ payloadLen ≤ pos then c
    else match unitHdr (payloadBytes pos hdr) with
    | none => c.delinLost k
    | some (w, fixed) =>
      have c := if fixed then c.inc C.TRK_DS_CU_CORR k else c
      have next := pos + 8 + bits w 34 14
      if next > 2 * payloadLen then c.delinLost k
      else (c.setEng k { c.eng k with delin := some next }).unit k w pos (payloadBytes (pos + 8) data)

def execCarriageUnit (t : Nat) (k : Fin 16) (hdr data : List Byte) (s : State) : Host.Outcome State Fault Refusal :=
  s.on t (fun _ => carriageUnit k.val hdr data)

/-- FRAG_TIMEOUT (R106): the open frame of a tag was not closed within 125 µs. -/
def fragTimeout (k tag : Nat) (c : Chip) : Chip :=
  match (c.eng k).frames.find? (fun x => decide (x.tag = tag)) with
  | some f =>
    if f.start + 125 * usPs ≤ c.now then
      (if f.skip then c else ((c.inc C.TRK_DS_FRAG_ERR k).monErr k tag).failFrame k f).openDrop k tag
    else c
  | none => c

def execFragTimeout (t : Nat) (k : Fin 16) (tag : Nat) (s : State) : Host.Outcome State Fault Refusal := s.on t (fun _ => fragTimeout k.val tag)

/-! ## Message slots (R97, R124, R125) -/

/-- An ACK record is queued, or counted in ACK_OVR (R125). -/
def Chip.ack (c : Chip) (x : MsgSlot) (status : Nat) : Chip :=
  if c.up.acks.length ≥ 64 then c.inc C.TRK_US_ACK_OVR x.wl
  else { c with up.acks := c.up.acks ++ [⟨0x82, beBytes 1 (byteAt x.bytes 2) ++ beBytes 1 status ++ slice x.bytes 4 2 ++ beBytes 1 x.wl⟩] }

/-- Fields of a slot. -/
def MsgSlot.dest (x : MsgSlot) : Nat := half x.bytes 0
def MsgSlot.typ (x : MsgSlot) : Nat := byteAt x.bytes 2
def MsgSlot.auth (x : MsgSlot) : Bool := bit (byteAt x.bytes 3) 0
def MsgSlot.body (x : MsgSlot) : List Byte := slice x.bytes 8 (min (byteAt x.bytes 6) 36)

/-- The slot is directed: it carries the terminal's own ID. -/
def MsgSlot.directed (x : MsgSlot) : Bool := decide (x.dest < 0xFFFE)

/-- The length of the body of a type (R126), and whether the type is accepted only with AUTH. -/
def msgLen (typ : Nat) : Nat := match typ with
  | 1 => 6
  | 2 => 19
  | 3 => 7
  | 4 => 8
  | 5 => 5
  | 6 => 4
  | 9 => 4
  | 10 => 19
  | 11 => 6
  | _ => 0
def msgAuth (typ : Nat) : Bool := decide (typ = 5 ∨ typ = 6 ∨ typ = 8 ∨ typ = 10 ∨ typ = 11)

/-- What R124 does with an accepted slot: dropped, dropped and counted, or let through. -/
inductive AuthEnd where
  | pass | drop | fail
deriving DecidableEq, Repr

/-- Does the TAG of a slot verify under the management key: AES-256-GCM with no plaintext and bytes 0 to 43 as additional data (R124)? -/
def Chip.slotTagOk (c : Chip) (x : MsgSlot) : Bool :=
  decide (slice x.bytes 44 16 = gcmTagBytes (Tab.get [] c.sec.vault 0) (beBytes 1 x.wl ++ beBytes 7 x.sfc ++ beBytes 2 x.index ++ zeros 2) (x.bytes.take 44) [])

def Chip.authCheck (c : Chip) (x : MsgSlot) : AuthEnd :=
  have mmk := c.rb R.TRK_TERM_ID_MMK 0
  if x.directed = false then (if x.auth then .drop else .pass)
  else if mmk = false then (if x.auth ∨ msgAuth x.typ then .drop else .pass)
  else if x.auth ∧ c.slotTagOk x then .pass else .fail

/-- A slot that has passed R97 and R124: DISCOVERY and ASSIGN_ID come by broadcast, every other known type directed; an unknown type
is answered UNSUPPORTED, a body of another length or an ACTION of EMIT_CTRL that does not exist REFUSED (R125). -/
def Chip.slotQueue (c : Chip) (x : MsgSlot) : Chip :=
  if x.directed = false then
    if x.dest = 0xFFFE ∧ (x.typ = 1 ∨ x.typ = 2) ∧ byteAt x.bytes 6 = msgLen x.typ then c.setEng x.wl { c.eng x.wl with msgs := (c.eng x.wl).msgs ++ [x] } else c
  else if x.typ = 0 ∨ 11 < x.typ ∨ (x.typ = 11 ∧ x.rev = 2) then (c.inc C.TRK_US_MSG_UNSUPP x.wl).ack x 1
  else if x.typ = 9 ∨ x.typ = 10 then
    (if byteAt x.bytes 6 = msgLen x.typ then c.setEng x.wl { c.eng x.wl with msgs := (c.eng x.wl).msgs ++ [x] } else c)
  else if x.typ ≤ 2 ∨ byteAt x.bytes 6 ≠ msgLen x.typ ∨ (x.typ = 6 ∧ 2 < byteAt x.bytes 8) then c.ack x 2
  else c.setEng x.wl { c.eng x.wl with msgs := (c.eng x.wl).msgs ++ [x] }

/-- One message slot of a frame of wavelength `k` (R97): its checks, its copy to the cores' ring (R365), its authentication. A full
ring loses the copy; the message still acts, as R372 says of messages without Omlia (log entry 30). -/
def Chip.slotTake (c : Chip) (x : MsgSlot) : Chip :=
  if crc32c (x.bytes.take 60) ≠ word x.bytes 60 then c.inc C.TRK_DS_MSG_CRC x.wl
  else
    have held := c.rb R.TRK_TERM_ID_VALID 0
    if (x.dest = 0xFFFF ∨ (x.dest = 0xFFFE ∧ held = false) ∨ (x.dest < 0xFFFE ∧ held ∧ x.dest = c.rg R.TRK_TERM_ID_ID 0)) then
      have c := c.inc C.TRK_DS_MSG_ACCEPT x.wl
      have c := if c.wqFree x.wl then c.wqPush x.wl x.bytes else if c.rb R.MCU_WQ_CFG_EN x.wl then c.inc C.TRK_DS_MSG_OVR x.wl else c
      match c.authCheck x with
      | .pass => c.slotQueue x
      | .drop => c
      | .fail => c.inc C.TRK_US_MSG_AUTH_FAIL x.wl
    else c

/-- The message area of a frame, as the line carries it: its first `n` slots. -/
def Chip.slots (c : Chip) (k n : Nat) (area : List Byte) : Chip :=
  have e := c.eng k
  forN n (fun i d => d.slotTake { wl := k, index := i, bytes := scrambleAt (16416 + 64 * i) ((slice area (64 * i) 64 ++ zeros 64).take 64), sfc := e.frSfc, rev := e.frRev }) c

/-! ## Frames (R99, R100, R107, R108) -/

/-- The byte of the trace in a good header (R107). -/
def Chip.traceByte (c : Chip) (k sfc : Nat) (b : Byte) : Chip :=
  have e := c.eng k
  have tr := if sfc % 64 = 0 then [b] else if sfc % 64 = e.trace.length then e.trace ++ [b] else []
  if tr.length < 64 then c.setEng k { e with trace := tr }
  else
    have c := forN 16 (fun j d => d.wg R.TRK_DS_TRACE_ACC_BYTES (1024 * k + j) (word tr (4 * j))) c
    have same := (List.range 16).all (fun j => decide (c.rg R.TRK_DS_TRACE_EXP_BYTES (1024 * k + j) = word tr (4 * j)))
    have e := { e with trace := [], traceBad := if same then 0 else e.traceBad + 1, traceGood := if same then e.traceGood + 1 else 0 }
    have c := c.setEng k e
    if c.rb R.TRK_DS_CFG_TIM_EN k = false then c
    else if 2 ≤ e.traceBad then c.setDefect k 4 true
    else if 2 ≤ e.traceGood then c.setDefect k 4 false
    else c

/-- The AIS flag of a good header (R108). -/
def Chip.aisFlag (c : Chip) (k : Nat) (on : Bool) : Chip :=
  have e := c.eng k
  have e := if on then { e with aisRun := e.aisRun + 1, clearRun := 0 } else { e with aisRun := 0, clearRun := e.clearRun + 1 }
  have c := c.setEng k e
  if 3 ≤ e.aisRun then c.setDefect k 2 true else if 3 ≤ e.clearRun then c.setDefect k 2 false else c

/-- Delineation as a frame begins (R102): it continues from the position it has reached; a FIRST_UNIT that disagrees is taken as
correct and counts as a loss. A position inside the frame that ended has no successor here (log entry 28). -/
def Chip.delinFrame (c : Chip) (k : Nat) (first : Option Nat) : Chip :=
  match (c.eng k).delin with
  | some p =>
    if payloadLen ≤ p then
      match first with
      | none => c.setEng k { c.eng k with delin := some (p - payloadLen) }
      | some f => if f = p - payloadLen then c.setEng k { c.eng k with delin := some f } else (c.delinLost k).setEng k { (c.delinLost k).eng k with delin := some f }
    else c.setEng k { c.eng k with delin := first }
  | none => c.setEng k { c.eng k with delin := first }

/-- The frame in process: its SFC, and whether its grant map may be used. -/
def Chip.frameHead (c : Chip) (k sfc rev count : Nat) (grants : Bool) : Chip :=
  have c := c.setEng k { c.eng k with frSfc := sfc, frAt := c.now, frGrants := grants, frCount := count, frRev := rev }
  (c.wg R.TRK_DS_SFC_LO_SFC k sfc).wg R.TRK_DS_SFC_HI_SFC k (sfc / 2 ^ 32)

/-- A frame whose SFC is adopted: the next is predicted, the frame's arrival is stamped on the time channel (R272). -/
def Chip.frameSfc (c : Chip) (k sfc rev count : Nat) (grants : Bool) : Chip :=
  have c := c.frameHead k sfc rev count grants
  have c := c.setEng k { c.eng k with sfc := some ((sfc + 1) % sfcMod) }
  if k = c.timeCh ∧ (c.ds.apsStep = 0 ∨ 5 ≤ c.ds.apsStep) then c.stampFrame sfc else c

/-- A frame whose header fails (R99). Its SFC is the one before it plus 1, which after SYNC and before the first good header is a free
value (log entry 74). -/
def Chip.badFrame (c : Chip) (k : Nat) (area : List Byte) : Chip :=
  have e := c.eng k
  have c := (c.inc C.TRK_DS_HDR_ERR k).setEng k { e with good := 0, trace := [], frGrants := false }
  have c := match e.sfc, e.jump with
    | some p, _ => c.frameSfc k p e.frRev 0 false
    | none, some p => (c.frameHead k p e.frRev 0 false).setEng k { (c.frameHead k p e.frRev 0 false).eng k with jump := some ((p + 1) % sfcMod) }
    | none, none => c.draw.2.frameHead k (c.draw.1 % sfcMod) e.frRev 0 false
  (c.delinFrame k none).slots k 128 area

/-- The SFC of a good header (R93 step 5, R100): the SFC of the frame, none while none is adopted. -/
def Chip.takeSfc (c : Chip) (k h : Nat) : Chip × Option Nat :=
  have e := c.eng k
  match e.sfc with
  | none => if e.jump = some h ∧ 2 ≤ e.good then (c.setEng k { e with jump := none, step := 6 }, some h) else (c.setEng k { e with jump := some ((h + 1) % sfcMod) }, none)
  | some p =>
    if h = p then (c.setEng k { e with jump := none }, some p)
    else if e.jump = some h then ((((c.setEng k { e with jump := none }).inc C.TRK_DS_SFC_JUMP k).wg R.TRK_DS_EVT_SFC_JUMP k 1).sfcAdopted, some h)
    else (c.setEng k { e with jump := some ((h + 1) % sfcMod) }, some p)

/-- In LAPSE, within TO_LAPSE, a wavelength in SYNC with two consecutive good headers brings OPERATIONAL back (R117). -/
def Chip.lapseExit (c : Chip) (k : Nat) : Chip :=
  if c.mode = 6 ∧ 2 ≤ (c.eng k).good ∧ c.inSync k ∧ c.now ≤ c.up.modeAt + c.rg R.TRK_ACT_TMR_TO_LAPSE 0 * msPs then c.setMode 5 7 else c

/-- A frame with a good header `h` (R95, R100). Before an SFC is adopted the frame has the one of its own header (log entry 74). -/
def Chip.goodFrame (c : Chip) (k : Nat) (h area : List Byte) : Chip :=
  have c := (c.inc C.TRK_DS_HDR_GOOD k).setEng k { c.eng k with good := (c.eng k).good + 1, frGrants := false }
  have sfc := beAt h 4 7 % sfcMod
  have rev := byteAt h 0
  have cur := c.rg R.TRK_REV_STAT_CUR 0
  have prev := c.rg R.TRK_REV_STAT_PREV 0
  have c := (c.wbit R.TRK_REV_STAT_ON_PREV 0 k (decide (rev = prev))).aisFlag k (bit (byteAt h 2) 0)
  have c := c.traceByte k sfc (h.getD 3 0)
  have wlOk := decide (byteAt h 1 = k)
  have revOk := decide (rev = cur ∨ rev = prev)
  have c := if wlOk then c else c.inc C.TRK_DS_WL_ERR k
  have c := if revOk then c else c.inc C.TRK_DS_REV_ERR k
  have n := min (half h 12) 2048
  have c := match c.takeSfc k sfc with
    | (c, none) => c.frameHead k sfc rev n (wlOk && revOk)
    | (c, some p) => c.frameSfc k p rev n (wlOk && revOk)
  have c := (c.delinFrame k (some (word h 16 % 2 ^ 25))).lapseExit k
  if wlOk && revOk then c.slots k (min (byteAt h 14) 128) area else c

/-- LOF_MISS misses in a row: back to HUNT, LOF is declared (R98, R108). -/
def Chip.lofDeclare (c : Chip) (k : Nat) : Chip :=
  ((c.setEng k { c.eng k with step := 3, at_ := c.now, misses := 0, cands := [], sfc := none, jump := none, delin := none, good := 0, frGrants := false }).setFstate k 1).syncCheck

/-- DS_FRAME (R98 to R100): a frame of wavelength `k` at its expected position, at the instant its PSYNC begins: the bytes that stand
in the place of PSYNC, its header and its message area, as the line carries them. -/
def dsFrame (k : Nat) (sync hdr area : List Byte) (c : Chip) : Chip :=
  if c.rxOn k = false ∨ c.rg R.TRK_DS_STAT_FSTATE k ≠ 3 then c
  else
    have e := c.eng k
    have miss := if psyncDiff sync ≤ 3 then 0 else e.misses + 1
    have c := c.setEng k { e with misses := miss }
    have h := scrambleAt 0 hdr
    if c.rg R.TRK_DS_CFG_LOF_MISS k ≤ miss then c.lofDeclare k
    else if h.length = 32 ∧ crc32c (h.take 28) = word h 28 then c.goodFrame k h area
    else c.badFrame k area

def execDsFrame (t : Nat) (k : Fin 16) (sync hdr area : List Byte) (s : State) : Host.Outcome State Fault Refusal :=
  s.on t (fun _ => dsFrame k.val sync hdr area)

/-! ## Defects (R108) -/

/-- LOS_DECLARE: low power or no DSP lock for 10 µs. Where the lock is gone the DSP acquires again (log entry 29). -/
def losDeclare (k : Nat) (lock : Bool) (c : Chip) : Chip :=
  if c.rb R.TRK_DS_CFG_ENABLE k then
    have c := c.setDefect k 0 true
    have c := if lock = false ∧ c.rg R.TRK_DS_STAT_ACQ k = 3 then c.dsAcquire k false else c
    c.syncCheck
  else c

def execLosDeclare (t : Nat) (k : Fin 16) (lock : Bool) (s : State) : Host.Outcome State Fault Refusal := s.on t (fun _ => losDeclare k.val lock)

/-- LOS_CLEAR: power at the threshold + 1.0 dB with DSP lock for 1 ms. -/
def losClear (k : Nat) (c : Chip) : Chip := if c.rg R.TRK_DS_STAT_ACQ k = 3 then (c.setDefect k 0 false).aCheck else c

def execLosClear (t : Nat) (k : Fin 16) (s : State) : Host.Outcome State Fault Refusal := s.on t (fun _ => losClear k.val)

/-- RDI_TIMEOUT: no repeat for 3 consecutive whole Octaves. -/
def rdiTimeout (k : Nat) (c : Chip) : Chip := if 3 < (c.eng k).rdiOct then c.setDefect k 3 false else c

def execRdiTimeout (t : Nat) (k : Fin 16) (s : State) : Host.Outcome State Fault Refusal := s.on t (fun _ => rdiTimeout k.val)

/-! ## The per-second latch (R111, R112) -/

/-- A completed second of a monitor: its counts are latched, SD is judged (R109). -/
def Chip.monSecond (c : Chip) (m : Nat) : Chip :=
  have x := c.mon m
  have c := (c.wsat R.TRK_CHMON_ERRS_ERR m x.errs).wsat R.TRK_CHMON_ERRS_UNITS m x.units
  have c := c.setMon m { x with errs := 0, units := 0 }
  if c.rb R.TRK_CHMON_CFG_KIND m then c
  else if c.rg R.TRK_CHMON_LIM_SD_THR m ≤ x.errs then c.monDefect m 6 true
  else if x.errs ≤ c.rg R.TRK_CHMON_LIM_SD_CLR m then c.monDefect m 6 false
  else c

/-- A completed second of a key index: TAG_THR failures or more set TAG_ALARM, and DISABLED with TAG_ACT 1 (R395). -/
def Chip.keySecond (c : Chip) (i : Nat) : Chip :=
  match c.obj 0x0902 i with
  | some b =>
    have n := (c.counter C.SEC_TAG_TAG_FAIL i + 2 ^ 48 - Tab.get 0 c.lat (C.SEC_TAG_TAG_FAIL.key i)) % 2 ^ 48
    if half b 2 ≤ n then
      have c := (c.wg R.SEC_KIDX_STAT_TAG_ALARM i 1).wg R.SEC_EVT_TAG_ALARM 0 1
      if byteAt b 4 = 1 then c.wg R.SEC_KIDX_STAT_DISABLED i 1 else c
    else c
  | none => c

/-- The key indices that have failed a tag. -/
def Chip.tagIdx (c : Chip) : List Nat :=
  ((c.cnt.filter (fun e => decide (C.SEC_TAG_TAG_FAIL.base ≤ e.1 ∧ e.1 < C.SEC_TAG_TAG_FAIL.base + 8 * 255))).map (fun e => (e.1 - C.SEC_TAG_TAG_FAIL.base) / 8)).filter (fun i => decide (1 ≤ i))

/-- SECOND_LATCH: the seconds field of local time has changed; every counter is copied at one instant. -/
def secondLatch (c : Chip) : Chip :=
  have sec := secOf c.lNow
  if sec = c.ds.latchSec then c
  else
    have c := c.tagIdx.foldl (fun d i => d.keySecond i) c
    have step := decide (sec ≠ c.ds.latchSec + 1)
    have c := (c.wg R.TRK_LATCH_STAT_SEQ 0 (c.rg R.TRK_LATCH_STAT_SEQ 0 + 1)).wb R.TRK_LATCH_STAT_STEP 0 step
    have c := c.residency.measureAll.monitorBer
    have c := { c with lat := c.cnt, ds.latchSec := sec }
    ((c.mons.foldl (fun d m => d.monSecond m) c).srcEvent 49).linePulse 0

def execSecondLatch (t : Nat) (s : State) : Host.Outcome State Fault Refusal := s.on t (fun _ => secondLatch)

/-- The offset of an address inside one instance of a family with these strides and counts. -/
def dimsRem : List (Nat × Nat) → Nat → Option Nat
  | [], off => some off
  | (st, n) :: r, off => if off / st < n then dimsRem r (off % st) else none

/-- Is `a` the address of the LO word of a live counter? -/
def ctrLive (a : Nat) : Bool :=
  ctrFams.any (fun f => decide (f.live ≤ a) && match dimsRem f.dims (a - f.live) with
    | some r => decide (r < 8 * f.n ∧ r % 8 = 0)
    | none => false)

/-! ## Protection (R89, R90, R113, R114) -/

/-- The inactive side is healthy (R90). -/
def Chip.otherOk (c : Chip) : Bool :=
  have mask := c.rg R.TRK_SIDE_MASK_MASK 0
  c.ds.cycleDone && decide (c.rg R.TRK_WATCH_OK_OK 0 &&& mask = mask) &&
    decide (c.now ≤ c.ds.cycleAt + 32 * c.rg R.TRK_WATCH_CTRL_DWELL 0 * msPs) && c.rb R.TRK_SIDE_STAT_EQD_VALID 0

/-- OTHER_OK, and the instant from which the side named by TRUNK_SIDE has been healthy while it is the inactive one (R113). -/
def Chip.sideHealth (c : Chip) : Chip :=
  have ok := c.otherOk
  have c := c.wb R.TRK_SIDE_STAT_OTHER_OK 0 ok
  if ok = false ∨ c.rg R.TRK_SIDE_STAT_ACTIVE 0 = c.homeSide then { c with ds.apsHealthyAt := none }
  else if c.ds.apsHealthyAt.isSome then c else { c with ds.apsHealthyAt := some c.now }

/-- Step 1 of a switch: no new burst starts (R114). -/
def Chip.apsStart (c : Chip) (req : Nat) : Chip :=
  { ((c.wg R.TRK_SIDE_STAT_STATE 0 1).wg R.TRK_SIDE_STAT_REQ 0 req) with ds.apsStep := 1, ds.apsAt := c.now }

/-- The requests present are judged (R113): `auto` and `revert` tell that their conditions hold now. -/
def Chip.apsEval (c : Chip) (auto revert : Bool) : Chip :=
  have cmd := c.rg R.TRK_SIDE_CTRL_CMD 0
  if c.ds.apsStep ≠ 0 then c
  else if c.ds.lockout then c.wg R.TRK_SIDE_STAT_REQ 0 1
  else if cmd = 2 then (c.wg R.TRK_SIDE_CTRL_CMD 0 0).apsStart 2
  else if auto then (if c.otherOk then c.apsStart 3 else (c.wg R.TRK_SIDE_STAT_REQ 0 3).wg R.TRK_SIDE_STAT_APS_BLOCKED 0 1)
  else if cmd = 1 then (if c.otherOk then (c.wg R.TRK_SIDE_CTRL_CMD 0 0).apsStart 4 else c.wg R.TRK_SIDE_STAT_REQ 0 4)
  else if revert then c.apsStart 5
  else c.wg R.TRK_SIDE_STAT_REQ 0 0

/-- AUTO and REVERT rest for 1 s after a switch. -/
def Chip.apsFree (c : Chip) : Bool := decide (c.ds.apsStep = 0 ∧ c.ds.apsHoldEnd ≤ c.now)

/-- The condition of AUTO has held for HOLD. -/
def Chip.apsAuto (c : Chip) : Bool := match c.ds.apsFailAt with
  | some a => decide (a + c.rg R.TRK_SIDE_CTRL_HOLD 0 * msPs ≤ c.now)
  | none => false

/-- The condition of REVERT has held for WTR minutes. -/
def Chip.apsRevert (c : Chip) : Bool := c.rb R.TRK_SIDE_CTRL_REVERT 0 && match c.ds.apsHealthyAt with
  | some a => decide (a + c.rg R.TRK_SIDE_CTRL_WTR 0 * 60 * secPs ≤ c.now) && c.otherOk && decide (c.rg R.TRK_SIDE_STAT_ACTIVE 0 ≠ c.homeSide)
  | none => false

/-- The requests present now are judged (R113). -/
def Chip.apsNow (c : Chip) : Chip := c.apsEval (c.apsFree && c.apsAuto) (c.apsFree && c.apsRevert)

/-- A command in TRK_SIDE_CTRL (R113): 1 MANUAL, 2 FORCE, 3 LOCKOUT, 4 CLEAR. -/
def apsCmd (cmd : Nat) (c : Chip) : Chip :=
  match cmd with
  | 3 => ({ (c.wg R.TRK_SIDE_CTRL_CMD 0 3) with ds.lockout := true }).apsNow
  | 4 => ({ (c.wg R.TRK_SIDE_CTRL_CMD 0 0) with ds.lockout := false }).apsNow
  | _ => (c.wg R.TRK_SIDE_CTRL_CMD 0 cmd).apsNow

def execApsManual (t : Nat) (s : State) : Host.Outcome State Fault Refusal := s.on t (fun _ c => c.answeredIn 8 (fun c => (apsCmd 1 c, stOk)))
def execApsForce (t : Nat) (s : State) : Host.Outcome State Fault Refusal := s.on t (fun _ c => c.answeredIn 8 (fun c => (apsCmd 2 c, stOk)))
def execApsLockout (t : Nat) (s : State) : Host.Outcome State Fault Refusal := s.on t (fun _ c => c.answeredIn 8 (fun c => (apsCmd 3 c, stOk)))
def execApsClear (t : Nat) (s : State) : Host.Outcome State Fault Refusal := s.on t (fun _ c => c.answeredIn 8 (fun c => (apsCmd 4 c, stOk)))

/-- APS_AUTO_HOLD. -/
def apsAutoHold (c : Chip) : Chip := if c.apsFree ∧ c.apsAuto then c.apsNow else c

def execApsAutoHold (t : Nat) (s : State) : Host.Outcome State Fault Refusal := s.on t (fun _ => apsAutoHold)

/-- APS_WTR_EXPIRE. -/
def apsWtrExpire (c : Chip) : Chip := if c.apsFree ∧ c.apsRevert then c.apsNow else c

def execApsWtrExpire (t : Nat) (s : State) : Host.Outcome State Fault Refusal := s.on t (fun _ => apsWtrExpire)

/-- APS_HOLD_END: HOLD ends, and conditions that still hold are acted on. -/
def apsHoldEnd (c : Chip) : Chip :=
  if c.rg R.TRK_SIDE_STAT_STATE 0 = 2 ∧ c.ds.apsHoldEnd ≤ c.now then (c.wg R.TRK_SIDE_STAT_STATE 0 0).apsNow else c

def execApsHoldEnd (t : Nat) (s : State) : Host.Outcome State Fault Refusal := s.on t (fun _ => apsHoldEnd)

/-- The watch receiver begins its cycle again, at the lowest masked wavelength (R89): after a switch, and after a change of
TRK_SIDE_MASK. -/
def Chip.watchRestart (c : Chip) : Chip :=
  { (c.wg R.TRK_WATCH_CTRL_CUR_WL 0 (((List.range 16).find? (fun k => c.rbit R.TRK_SIDE_MASK_MASK 0 k)).getD 0)) with ds.watchOk := 0, ds.visitAt := c.now }

/-- APS_QUIESCED (R114 step 2): the burst in progress is complete; every receiver and transmitter moves to the other fibre, the
watch receiver to the former side. Grants decoded for the former side cannot be emitted any more (log entry 31). No wavelength is in
SYNC, which ends ANNOUNCE and RANGING (R117); OPERATIONAL and JUBILEE last through the switch. -/
def apsQuiesced (c : Chip) : Chip :=
  if c.ds.apsStep = 1 ∧ c.up.active.isEmpty then
    have c := c.dropGrants
    have c := forN 16 (fun k d =>
      if d.rb R.TRK_DS_CFG_ENABLE k then
        ((d.wg R.TRK_DS_STAT_ACQ k 0).setEng k { d.eng k with step := 0, cands := [], sfc := none, jump := none, delin := none, good := 0, frGrants := false }).setFstate k 0
      else d) c
    { (c.wg R.TRK_SIDE_STAT_OTHER_OK 0 0).watchRestart.syncCheck with ds.apsStep := 2, ds.cycleDone := false, ds.parked := none, ds.apsHealthyAt := none }
  else c

def execApsQuiesced (t : Nat) (s : State) : Host.Outcome State Fault Refusal := s.on t (fun _ => apsQuiesced)

/-- APS_PATH_MOVED (R114 step 3): acquisition from TRK_SIDE_CD on every wavelength. -/
def apsPathMoved (c : Chip) : Chip :=
  if c.ds.apsStep = 2 then forN 16 (fun k d => if d.rxOn k then d.dsAcquire k false else d) { c with ds.apsStep := 3 } else c

def execApsPathMoved (t : Nat) (s : State) : Host.Outcome State Fault Refusal := s.on t (fun _ => apsPathMoved)

/-- EQD_VALID: the inactive side holds a valid equalization delay for every masked channel (R135). -/
def Chip.eqdCheck (c : Chip) : Chip :=
  have o := 1 - c.rg R.TRK_SIDE_STAT_ACTIVE 0
  (c.wb R.TRK_SIDE_STAT_EQD_VALID 0 ((List.range 16).all (fun k => !c.rbit R.TRK_SIDE_MASK_MASK 0 k || c.rb R.TRK_EQD_VALID (16 * o + k)))).sideHealth

/-- APS_SYNC (R114 step 5): a wavelength is in SYNC with its SFC adopted; the new side's delays are in use from here. -/
def apsSync (c : Chip) : Chip :=
  if (c.ds.apsStep = 3 ∨ c.ds.apsStep = 4) ∧ (List.range 16).any (fun k => c.inSync k && decide ((c.eng k).step = 6)) then { c with ds.apsStep := 5 } else c

def execApsSync (t : Nat) (s : State) : Host.Outcome State Fault Refusal := s.on t (fun _ => apsSync)

/-- ACTIVE changes, with what follows from it. -/
def Chip.apsActive (c : Chip) : Chip :=
  have c := { (c.wg R.TRK_SIDE_STAT_ACTIVE 0 (1 - c.rg R.TRK_SIDE_STAT_ACTIVE 0)) with ds.apsStep := 0 }
  (c.eqdCheck.wsat R.TRK_SIDE_STAT_LAST_US 0 ((c.now - c.ds.apsAt) / usPs)).apsTrack

/-- APS_RESUME (R114 step 6): grants are decoded on the new side. STATE reads HOLD for the 1 s after the switch (log entry 31). -/
def apsResume (c : Chip) : Chip :=
  if c.ds.apsStep = 5 then
    have c := (c.apsActive.wg R.TRK_SIDE_STAT_SWITCHED 0 1).wg R.TRK_SIDE_STAT_REQ 0 0
    { (c.wg R.TRK_SIDE_STAT_STATE 0 2) with ds.apsHoldEnd := c.now + secPs }.syncCheck
  else c

def execApsResume (t : Nat) (s : State) : Host.Outcome State Fault Refusal := s.on t (fun _ => apsResume)

/-- APS_SWITCH_TIMEOUT: not complete within 10 ms of step 1; the terminal stays on the new side, or on the old one where the path has
not moved (DESIGN CHOICE, log entry 76). -/
def apsSwitchTimeout (c : Chip) : Chip :=
  if c.ds.apsStep ≠ 0 ∧ c.ds.apsAt + 10 * msPs ≤ c.now then
    have moved := decide (2 ≤ c.ds.apsStep)
    have c := if moved then forN 16 (fun k d => if d.rxOn k ∧ (d.eng k).step = 0 then d.dsAcquire k false else d) c else c
    have c := if moved then c.apsActive else { c with ds.apsStep := 0 }
    ((c.wg R.TRK_SIDE_STAT_STATE 0 3).wg R.TRK_SIDE_STAT_REQ 0 0).syncCheck
  else c

def execApsSwitchTimeout (t : Nat) (s : State) : Host.Outcome State Fault Refusal := s.on t (fun _ => apsSwitchTimeout)

/-- The next wavelength of the cycle after `w`, and whether the cycle is complete. -/
def Chip.watchNext (c : Chip) (w : Nat) : Nat × Bool :=
  have ks := (List.range 16).filter (fun k => c.rbit R.TRK_SIDE_MASK_MASK 0 k)
  match ks.find? (fun k => decide (w < k)) with
  | some k => (k, false)
  | none => (ks.headD 0, true)

/-- WATCH_DWELL_END (R89): the visit of CUR_WL, a masked wavelength, ends: SYNC was reached, the differences of the SFCs of its good headers from the
prediction of the active side at their arrival, the trace assembled (empty for none), and the dispersion found. -/
def watchDwellEnd (sync : Bool) (diffs : List Int) (trace : List Byte) (cd : Int) (c : Chip) : Chip :=
  have w := c.rg R.TRK_WATCH_CTRL_CUR_WL 0
  if c.rb R.TRK_WATCH_CTRL_ENABLE 0 = false ∨ c.rbit R.TRK_SIDE_MASK_MASK 0 w = false ∨ c.ds.parked.isSome ∨ c.now < c.ds.visitAt + c.rg R.TRK_WATCH_CTRL_DWELL 0 * msPs then c
  else
    have other := 1 - c.pathSide
    have named := (List.range 16).all (fun j => decide (word trace (4 * j) = c.rg R.TRK_DS_TRACE_EXP_BYTES (1024 * w + j)))
    have ok := sync && decide (2 ≤ (diffs.filter (fun x => decide (-16 ≤ x ∧ x ≤ 16))).length) && (!c.rb R.TRK_DS_CFG_TIM_EN w || (decide (trace.length = 64) && named))
    have c := if sync then (c.ws R.TRK_SIDE_CD_CD (16 * other + w) cd).wg R.TRK_SIDE_CD_VALID (16 * other + w) 1 else c
    have c := { c with ds.watchOk := putBit c.ds.watchOk w ok, ds.visitAt := c.now }
    have n := c.watchNext w
    have c := c.wg R.TRK_WATCH_CTRL_CUR_WL 0 n.1
    if n.2 then ({ (c.sideHealth.wg R.TRK_WATCH_OK_OK 0 c.ds.watchOk) with ds.cycleDone := true, ds.cycleAt := c.now, ds.watchOk := 0 }.sideHealth).apsNow else c

def execWatchDwellEnd (t : Nat) (sync : Bool) (diffs : List Int) (trace : List Byte) (cd : Int) (s : State) : Host.Outcome State Fault Refusal :=
  s.on t (fun _ => watchDwellEnd sync diffs trace cd)

end Sys2Proof.Machine
end

