-- ==== Sys2Proof/Machine/Upstream.lean ====
section
/-! DEFINITION. Activation, ranging and upstream bursts (04_trunk_access.md R123 to R150; 06_queues_and_shaping.md R194 to R197): what
the head end's messages do, the grant decoder, burst formation and emission, the emission guard. -/

namespace Sys2Proof.Machine

open Sys2Proof

/-! ## Messages (R126) -/

/-- The first message that wavelength `k` holds and that satisfies a condition is taken off its queue. -/
def Chip.popMsg (c : Chip) (k : Nat) (p : MsgSlot → Bool) : Option (MsgSlot × Chip) :=
  match (c.eng k).msgs.find? p with
  | some x => some (x, c.setEng k { c.eng k with msgs := (c.eng k).msgs.erase x })
  | none => none

/-- A message of one type acts; with none queued nothing happens. -/
def Chip.onMsg (c : Chip) (k : Nat) (p : MsgSlot → Bool) (f : MsgSlot → Chip → Chip) : Chip :=
  match c.popMsg k p with
  | some (x, d) => f x d
  | none => c

/-- DISCOVERY (R117, R129): LISTEN goes to ANNOUNCE; in ANNOUNCE the channels are renewed. -/
def discoveryMsg (k : Nat) (x : MsgSlot) (c : Chip) : Chip :=
  if (c.mode = 2 ∨ c.mode = 3) ∧ c.inSync k then
    have d := { c with up.discAt := c.now, up.heId := word x.body 0, up.chMask := half x.body 4 }
    if c.mode = 2 then { d.setMode 3 3 with up.unanswered := 0, up.skips := 0, up.annOct := none } else d
  else c

def discovery (k : Nat) (c : Chip) : Chip := c.onMsg k (fun x => decide (x.typ = 1)) (discoveryMsg k)

def execDiscovery (t : Nat) (k : Fin 16) (s : State) : Host.Outcome State Fault Refusal := s.on t (fun _ => discovery k.val)

/-- ASSIGN_ID (R117, R130): in ANNOUNCE, for this terminal's SERIAL, with fields in range. -/
def assignIdMsg (x : MsgSlot) (c : Chip) : Chip :=
  have b := x.body
  if c.mode = 3 ∧ b.take 12 = c.serial ∧ half b 12 ≤ 0xFFFD ∧ half b 14 ≤ 4093 ∧ half b 16 ≤ 65534 ∧ byteAt b 18 ≤ 15 then
    have c := ((c.wg R.TRK_TERM_ID_ID 0 (half b 12)).wg R.TRK_TERM_ID_HOME 0 (byteAt b 18)).wg R.TRK_TERM_ID_VALID 0 1
    have c := (c.wg R.TRK_TERM_ALLOC_DEFAULT 0 (half b 14)).wg R.TRK_TERM_ALLOC_MGMT_TAG 0 (half b 16)
    { c with up.unanswered := 0, up.skips := 0, up.annOct := none }.setMode 4 4
  else c

def assignId (k : Nat) (c : Chip) : Chip := c.onMsg k (fun x => decide (x.typ = 2)) assignIdMsg

def execAssignId (t : Nat) (k : Fin 16) (s : State) : Host.Outcome State Fault Refusal := s.on t (fun _ => assignId k.val)

/-- RANGING, OPERATIONAL and JUBILEE. -/
def Chip.rangingModes (c : Chip) : Bool := decide (c.mode = 4 ∨ c.mode = 5 ∨ c.mode = 10)

/-- The spare trunk engine serves a wavelength (R13). -/
def Chip.spareEngBusy (c : Chip) : Bool := (List.range 16).any (fun k => decide (c.engineOf k = 16))

/-- RANGING_REQ (R132, R135). -/
def rangingReqMsg (x : MsgSlot) (c : Chip) : Chip :=
  have b := x.body
  have ch := byteAt b 0
  have side := byteAt b 1
  have other := decide (side ≠ c.side)
  if c.rangingModes = false ∨ 15 < ch ∨ 1 < side ∨ 400000000 < word b 2 ∨ byteAt b 6 = 0 ∨ (x.rev = 2 ∧ side ≠ 0) then c.ack x 2
  else if other ∧ (c.mode = 4 ∨ c.spareEngBusy ∨ c.rb R.TRK_WATCH_CTRL_ENABLE 0 = false ∨ x.rev = 2) then c.ack x 2
  else
    have rs := c.up.ranging.filter (fun (r : RangeReq) => decide (r.side ≠ side ∨ r.ch ≠ ch))
    have c := { c with up.ranging := rs ++ [({ side := side, ch := ch, preset := word b 2, octs := byteAt b 6 } : RangeReq)], ds.parked := if other then some ch else c.ds.parked }
    c.ack x 0

def rangingReq (k : Nat) (c : Chip) : Chip := c.onMsg k (fun x => decide (x.typ = 3)) rangingReqMsg

def execRangingReq (t : Nat) (k : Fin 16) (s : State) : Host.Outcome State Fault Refusal := s.on t (fun _ => rangingReq k.val)

/-- RANGING becomes OPERATIONAL once there are a valid EqD of the home channel, a management key and an authenticated allocation, in
whichever order the last two messages came (R117). -/
def Chip.operational (c : Chip) : Chip :=
  if c.mode = 4 ∧ c.rb R.TRK_EQD_VALID (16 * c.side + c.rg R.TRK_TERM_ID_HOME 0) ∧ c.rb R.TRK_TERM_ID_MMK 0 ∧ c.instances R.TRK_ALLOC_VALID 1024 ≠ [] then c.setMode 5 5 else c

/-- RANGING_TIME (R133): an ADJUST with no delay to adjust is refused (log entry 33). Each value waits behind those before it until its
own Octave. -/
def rangingTimeMsg (x : MsgSlot) (c : Chip) : Chip :=
  have b := x.body
  have ch := byteAt b 0
  have side := byteAt b 1
  have adj := bit (byteAt b 2) 0
  have i := 16 * side + ch
  have chg := sgn 32 (word b 4)
  have v : Int := if adj then (c.rg R.TRK_EQD_EQD i : Int) + chg else (word b 4 : Int)
  if c.rangingModes = false ∨ 15 < ch ∨ 1 < side ∨ (x.rev = 2 ∧ side ≠ 0) ∨ 1 < byteAt b 2 ∨ (adj ∧ (c.rb R.TRK_EQD_VALID i = false ∨ chg < -32768 ∨ 32767 < chg)) ∨
      v < 0 ∨ 400000000 < v then c.ack x 2
  else
    have old := if c.rb R.TRK_EQD_VALID i then some (c.rg R.TRK_EQD_EQD i) else none
    have c := { c with up.eqdPend := c.up.eqdPend ++ [({ side := side, ch := ch, old := old, at_ := c.now } : EqdPend)] }
    (((c.wg R.TRK_EQD_EQD i v.toNat).wg R.TRK_EQD_VALID i 1).eqdCheck.aCheck).operational.ack x 0

def rangingTime (k : Nat) (c : Chip) : Chip := c.onMsg k (fun x => decide (x.typ = 4)) rangingTimeMsg

def execRangingTime (t : Nat) (k : Fin 16) (s : State) : Host.Outcome State Fault Refusal := s.on t (fun _ => rangingTime k.val)

/-- The allocation-table entry of a channel and an ALLOC_ID. -/
def Chip.allocIdx (c : Chip) (ch id : Nat) : Option Nat :=
  (c.instances R.TRK_ALLOC_VALID 1024).find? (fun a => decide (c.rg R.TRK_ALLOC_CH a = ch ∧ c.rg R.TRK_ALLOC_ALLOC_ID a = id))

/-- An entry leaves the table (R195). -/
def Chip.allocDrop (c : Chip) (a : Nat) : Chip :=
  have g := c.rg R.TRK_ALLOC_GROUP a
  have ch := c.rg R.TRK_ALLOC_CH a
  have id := c.rg R.TRK_ALLOC_ALLOC_ID a
  have c := (c.loseSplits (fun s => decide (s.ch = ch ∧ s.alloc = id)))
  have c := c.allocClear a
  { c with up.owedAborts := c.up.owedAborts.filter (fun (e : Nat × Nat) => decide (e.1 ≠ 4096 * ch + id)) }.rebind g (some a)

/-- An entry is written by an authenticated ASSIGN_ALLOC; frames of the group that are unbound are bound (R195). -/
def Chip.allocPut (c : Chip) (a ch id group : Nat) (frag : Bool) : Chip :=
  have c := ((c.wg R.TRK_ALLOC_ALLOC_ID a id).wg R.TRK_ALLOC_CH a ch).wg R.TRK_ALLOC_GROUP a group
  have c := ((c.wb R.TRK_ALLOC_FRAG_OK a frag).wg R.TRK_ALLOC_AUTH a 1).wg R.TRK_ALLOC_VALID a 1
  c.rebind group none

/-- ASSIGN_ALLOC (R126). An entry replaced in another group leaves its old group first. -/
def assignAllocMsg (x : MsgSlot) (c : Chip) : Chip :=
  have b := x.body
  have id := half b 0
  have ch := byteAt b 2
  have fl := byteAt b 3
  have group := byteAt b 4
  if 4093 < id ∨ 15 < ch ∨ 3 < fl ∨ 63 < group then c.ack x 2
  else match c.allocIdx ch id with
  | some a =>
    if bit fl 0 = false then (c.allocDrop a).ack x 0
    else
      have d := if c.rg R.TRK_ALLOC_GROUP a = group then c else (c.wg R.TRK_ALLOC_VALID a 0).rebind (c.rg R.TRK_ALLOC_GROUP a) (some a)
      ((d.allocPut a ch id group (bit fl 1)).operational).ack x 0
  | none =>
    if bit fl 0 = false then c.ack x 0
    else match (List.range 1024).find? (fun a => !c.rb R.TRK_ALLOC_VALID a) with
    | some a => ((c.allocPut a ch id group (bit fl 1)).operational).ack x 0
    | none => c.ack x 2

def assignAlloc (k : Nat) (c : Chip) : Chip := c.onMsg k (fun x => decide (x.typ = 5)) assignAllocMsg

def execAssignAlloc (t : Nat) (k : Fin 16) (s : State) : Host.Outcome State Fault Refusal := s.on t (fun _ => assignAlloc k.val)

/-- An EMIT_CTRL message of an ACTION. -/
def isEmit (n : Nat) (x : MsgSlot) : Bool := decide (x.typ = 6 ∧ byteAt x.bytes 8 = n)

/-- EMIT_RELEASE: SILENCED returns to OPERATIONAL; REFUSED in another mode. -/
def emitReleaseMsg (x : MsgSlot) (c : Chip) : Chip := if c.mode = 7 then (c.setMode 5 11).ack x 0 else c.ack x 2

def emitRelease (k : Nat) (c : Chip) : Chip := c.onMsg k (isEmit 0) emitReleaseMsg

def execEmitRelease (t : Nat) (k : Fin 16) (s : State) : Host.Outcome State Fault Refusal := s.on t (fun _ => emitRelease k.val)

/-- EMIT_SILENCE: RANGING, OPERATIONAL or JUBILEE enters SILENCED. -/
def emitSilenceMsg (x : MsgSlot) (c : Chip) : Chip := if c.rangingModes then ((c.setMode 7 11).swapMode).ack x 0 else c.ack x 2

def emitSilence (k : Nat) (c : Chip) : Chip := c.onMsg k (isEmit 1) emitSilenceMsg

def execEmitSilence (t : Nat) (k : Fin 16) (s : State) : Host.Outcome State Fault Refusal := s.on t (fun _ => emitSilence k.val)

/-- EMIT_CH_OFF: bit k forbids all emission on Uk. -/
def emitChOffMsg (x : MsgSlot) (c : Chip) : Chip :=
  (forN 16 (fun k d => if d.rb R.TRK_US_STAT_CH_OFF k = bit (half x.body 2) k then d else d.wb R.TRK_US_STAT_CH_OFF k (bit (half x.body 2) k)) c).ack x 0

def emitChOff (k : Nat) (c : Chip) : Chip := c.onMsg k (isEmit 2) emitChOffMsg

def execEmitChOff (t : Nat) (k : Fin 16) (s : State) : Host.Outcome State Fault Refusal := s.on t (fun _ => emitChOff k.val)

/-- DEACTIVATE: RANGING, OPERATIONAL or JUBILEE enters LISTEN. -/
def deactivateMsg (x : MsgSlot) (c : Chip) : Chip := if c.rangingModes then ((c.ack x 0).enterListen 12).swapMode else c.ack x 2

def deactivate (k : Nat) (c : Chip) : Chip := c.onMsg k (fun x => decide (x.typ = 7)) deactivateMsg

def execDeactivate (t : Nat) (k : Fin 16) (s : State) : Host.Outcome State Fault Refusal := s.on t (fun _ => deactivate k.val)

/-- QUAR_RELEASE (R117, R150): in QUARANTINE it clears the laser power latch. -/
def quarReleaseMsg (x : MsgSlot) (c : Chip) : Chip :=
  if c.mode = 8 then ((c.wg R.TRK_GUARD_STAT_QUAR 0 0).ack x 0).enterListen 14 else c.ack x 2

def quarRelease (k : Nat) (c : Chip) : Chip := c.onMsg k (fun x => decide (x.typ = 8)) quarReleaseMsg

def execQuarRelease (t : Nat) (k : Fin 16) (s : State) : Host.Outcome State Fault Refusal := s.on t (fun _ => quarRelease k.val)

/-- RDI (R108): no acknowledgement. -/
def rdiMsg (x : MsgSlot) (c : Chip) : Chip :=
  forN 16 (fun k d =>
    if bit (half x.body 0) k then
      (if bit (half x.body 2) k then (d.setEng k { d.eng k with rdiOct := 0 }).setDefect k 3 true else d.setDefect k 3 false)
    else d) c

def rdiRow (k : Nat) (c : Chip) : Chip := c.onMsg k (fun x => decide (x.typ = 9)) rdiMsg

def execRdi (t : Nat) (k : Fin 16) (s : State) : Host.Outcome State Fault Refusal := s.on t (fun _ => rdiRow k.val)

/-- TOD_MAP (R272): no acknowledgement; a field out of range is refused. -/
def todMapMsg (x : MsgSlot) (c : Chip) : Chip :=
  have b := x.body
  if word b 13 ≤ 999999999 ∧ beAt b 0 7 < sfcMod then
    c.todMap (beAt b 0 7) (((beAt b 7 6 * 1000000000 + word b 13) * 65536 + half b 17 : Nat) : Int)
  else c

def todMapRow (k : Nat) (c : Chip) : Chip := c.onMsg k (fun x => decide (x.typ = 10)) todMapMsg

def execTodMap (t : Nat) (k : Fin 16) (s : State) : Host.Outcome State Fault Refusal := s.on t (fun _ => todMapRow k.val)

/-- EPACT (R274): writes TMG_A_EPACT of a side and channel. -/
def epactMsg (x : MsgSlot) (c : Chip) : Chip :=
  have b := x.body
  if byteAt b 0 ≤ 15 ∧ byteAt b 1 ≤ 1 then (c.wg R.TMG_A_EPACT_EPACT (16 * byteAt b 1 + byteAt b 0) (word b 2)).ack x 0 else c.ack x 2

def epactRow (k : Nat) (c : Chip) : Chip := c.onMsg k (fun x => decide (x.typ = 11)) epactMsg

def execEpact (t : Nat) (k : Fin 16) (s : State) : Host.Outcome State Fault Refusal := s.on t (fun _ => epactRow k.val)

/-- What an Octave boundary counts for the trunk: RDI repeats (R108), monitors (R109), the answer to an announcement (R129), open
ranging requests (R132), delays that now hold (R133). -/
def Chip.trunkOctave (c : Chip) : Chip :=
  have c := forN 16 (fun k d => if d.rb R.TRK_DS_STAT_RDI k then d.setEng k { d.eng k with rdiOct := (d.eng k).rdiOct + 1 } else d) c
  have c := c.mons.foldl (fun d m => d.setMon m { d.mon m with ais := (d.mon m).ais + 1, idle := (d.mon m).idle + 1 }) c
  { c with up.annOct := c.up.annOct.map (fun n => n + 1), up.ranging := c.up.ranging.map (fun (r : RangeReq) => { r with octs := r.octs - 1 }), up.eqdPend := c.up.eqdPend.filter (fun (e : EqdPend) => decide (c.now < e.at_ + 250 * usPs)) }

/-- ANNOUNCE_UNANSWERED (R129 steps 3 and 4): the number of windows to skip is a free value below 2^min(c, 4). -/
def announceUnanswered (c : Chip) : Chip :=
  match c.up.annOct with
  | some n =>
    if 3 ≤ n then
      have u := c.up.unanswered + 1
      have d := c.draw
      { d.2 with up.unanswered := u, up.skips := d.1 % 2 ^ min u 4, up.annOct := none }
    else c
  | none => c

def execAnnounceUnanswered (t : Nat) (s : State) : Host.Outcome State Fault Refusal := s.on t (fun _ => announceUnanswered)

/-- A ranging request closes; the watch receiver goes on with its cycle unless another request for the inactive side is open (R135). -/
def Chip.rangeClose (c : Chip) (side ch : Nat) : Chip :=
  have rest := c.up.ranging.filter (fun (r : RangeReq) => decide (r.side ≠ side ∨ r.ch ≠ ch))
  have c := { c with up.ranging := rest }
  if side = c.side then c
  else match (rest.filter (fun (r : RangeReq) => decide (r.side ≠ c.side))).getLast? with
    | some r => { c with ds.parked := some r.ch }
    | none => { c with ds.parked := none }

/-- RANGING_REQ_EXPIRE (R132): WINDOW Octaves have passed. -/
def rangingReqExpire (c : Chip) : Chip :=
  (c.up.ranging.filter (fun (r : RangeReq) => decide (r.octs = 0))).foldl (fun d r => d.rangeClose r.side r.ch) c

def execRangingReqExpire (t : Nat) (s : State) : Host.Outcome State Fault Refusal := s.on t (fun _ => rangingReqExpire)

/-! ## Grants (R136) -/

/-- The mode permits a kind of emission (R116). -/
def Chip.permits (c : Chip) (g : GrantKind) : Bool := match g with
  | .discovery => decide (c.mode = 3)
  | .ranging => c.rangingModes
  | .assigned => decide (c.mode = 5 ∨ c.mode = 10)
  | .default => c.rangingModes || (decide (c.mode = 11) && !c.up.dyingSent)

/-- The delay in force for frames of now on a side and channel: what the oldest value that waits replaces (R133). -/
def Chip.eqdNow (c : Chip) (side ch : Nat) : Option Nat :=
  match c.up.eqdPend.find? (fun e => decide (e.side = side ∧ e.ch = ch)) with
  | some e => e.old
  | none => if c.rb R.TRK_EQD_VALID (16 * side + ch) then some (c.rg R.TRK_EQD_EQD (16 * side + ch)) else none

/-- The kind of a grant of channel `k` (R136); none where it is not one of this terminal. -/
def Chip.grantKind (c : Chip) (k alloc : Nat) (mgmt : Bool) : Option GrantKind :=
  have dflt := c.rb R.TRK_TERM_ID_VALID 0 && decide (alloc = c.rg R.TRK_TERM_ALLOC_DEFAULT 0) && mgmt
  if (c.allocIdx k alloc).isSome ∧ c.permits .assigned then some .assigned
  else if alloc = 4095 ∧ c.annCh = some k ∧ c.permits .discovery then some .discovery
  else if alloc = 4094 ∧ c.up.ranging.any (fun r => decide (r.ch = k)) ∧ c.permits .ranging then some .ranging
  else if dflt ∧ c.permits .default then some .default
  else none

/-- The checks on a taken entry (R136). -/
def grantOk (g : GrantKind) (shortEve : Bool) (start len : Nat) : Bool :=
  decide ((if g = .discovery then 71 else if g = .ranging then 70 else if shortEve then 14 else 70) ≤ len ∧ start + len ≤ 390625 ∧
    (g = .default → len ≤ 16384) ∧ (g = .ranging → shortEve = false))

/-- A window joins the store, in order of its first symbol. -/
def insertWin (w : Window) : List Window → List Window
  | [] => [w]
  | x :: r => if w.t0 < x.t0 then w :: x :: r else x :: insertWin w r

/-- PENDING of a channel. -/
def Chip.pendCount (c : Chip) (k : Nat) : Chip := c.wg R.TRK_US_STAT_PENDING k ((c.up.store.filter (fun w => decide (w.ch = k))).length)

def Chip.storeWin (c : Chip) (w : Window) : Chip := { c with up.store := insertWin w c.up.store }.pendCount w.ch

/-- Is an announcement burst on its way or waiting for its answer? -/
def Chip.announcing (c : Chip) : Bool :=
  c.up.annOct.isSome || c.up.store.any (fun w => decide (w.kind = .discovery)) || (c.up.formed ++ c.up.active).any (fun b => decide (b.win.kind = .discovery))

/-- A valid entry becomes a window (R129, R131, R132). A discovery window is not used from the choice of one until its burst is answered
or counted as unanswered, nor while windows are skipped (log entry 77); a grant on a channel with no valid delay is placed nowhere (log
entry 33). A window on the inactive side is timed by the watch receiver, at which the frame arrives at `watch` (R135). -/
def Chip.placeGrant (c : Chip) (k watch : Nat) (g : GrantKind) (w : Window) : Chip :=
  have base := (c.eng k).frAt + 250 * usPs
  match g with
  | .discovery =>
    if c.announcing then c
    else if c.up.skips ≠ 0 then { c with up.skips := c.up.skips - 1 }
    else
      have d := c.draw
      have st := w.start + d.1 % (w.len - 70)
      d.2.storeWin { w with start := st, len := 71, shortEve := false, t0 := base + blkPs st }
  | .ranging =>
    match c.up.ranging.find? (fun r => decide (r.ch = k)) with
    | some r =>
      have base := if r.side = w.side then base else watch + 250 * usPs
      (c.rangeClose r.side r.ch).storeWin { w with side := r.side, len := 70, t0 := base + symPs r.preset + blkPs w.start }
    | none => c
  | _ =>
    match c.eqdNow w.side k with
    | some e => c.storeWin { w with t0 := base + symPs e + blkPs w.start }
    | none => c

/-- GRANT_ENTRY (R96, R136): entry `idx` of the grant map of the frame in process on wavelength `k`, its 64 bits as the line carries them;
`watch`: the instant at which the same frame arrives at the watch receiver. -/
def grantEntry (k idx raw watch : Nat) (c : Chip) : Chip :=
  have e := c.eng k
  have w := beNat (scrambleAt (32 + 8 * idx) (beBytes 8 raw))
  if c.rxOn k = false ∨ e.frGrants = false ∨ e.frCount ≤ idx ∨ c.ds.apsStep ≠ 0 then c
  else if crc8 (beBytes 7 (w / 256)) ≠ w % 256 then c.inc C.TRK_DS_GRANT_HEC k
  else if c.rb R.TRK_US_STAT_CH_OFF k ∨ c.rb R.TRK_US_CFG_ENABLE k = false then c
  else
    have alloc := bits w 52 12
    have mgmt := bit w 49
    match c.grantKind k alloc mgmt with
    | none => c
    | some g =>
      have short := bit w 51 && decide (e.frRev ≠ 2)
      have start := bits w 27 19
      have len := bits w 8 19
      have c := (c.inc C.TRK_US_GRANT_OWN k).monGrant k alloc
      if grantOk g short start len = false then c.inc C.TRK_US_GRANT_BAD k
      else if 4096 ≤ (c.up.store.filter (fun x => decide (x.ch = k))).length then c.inc C.TRK_US_GRANT_OVR k
      else c.placeGrant k watch g { ch := k, alloc := alloc, kind := g, shortEve := short, report := bit w 50, mgmt := mgmt, start := start, len := len, t0 := 0, sfc := e.frSfc, rev := e.frRev, side := c.side }

def execGrantEntry (t : Nat) (k : Fin 16) (idx w watch : Nat) (s : State) : Host.Outcome State Fault Refusal := s.on t (fun _ => grantEntry k.val idx w watch)

/-! ## Burst formation (R127, R128, R138, R142 to R146, R196, R197) -/

/-- The end of the last window of a channel and fibre before now or already formed (R134). -/
def Chip.prevEnd (c : Chip) (ch side : Nat) : Nat :=
  ((c.up.formed ++ c.up.active).filter (fun b => decide (b.win.ch = ch ∧ b.win.side = side))).foldl (fun n b => max n b.win.endAt) (Tab.get 0 c.up.lastEnd (2 * ch + side))

/-- The end of the last burst of a channel and fibre, likewise (R137). -/
def Chip.prevLit (c : Chip) (ch side : Nat) : Nat :=
  ((c.up.formed ++ c.up.active).filter (fun b => decide (b.win.ch = ch ∧ b.win.side = side))).foldl (fun n b => max n b.win.endAt) (Tab.get 0 c.up.lastLit (2 * ch + side))

/-- The first byte and the SFC of the IV of what is sent upstream on channel `k`, with an identifier position (R127, R144). -/
def upIv (k sfc pos : Nat) : List Byte := beBytes 1 (0x80 + k) ++ beBytes 7 sfc ++ beBytes 4 pos

/-- A carriage unit: its header with HEC, and its data (R101). -/
def unitBytes (tag : Nat) (last abort : Bool) (key : Nat) (data : List Byte) : List Byte :=
  have h := beBytes 6 (tag * 2 ^ 32 + data.length * 2 ^ 18 + b2n last * 2 ^ 17 + b2n abort * 2 ^ 16 + key * 2 ^ 8)
  h ++ beBytes 2 (crc16 h) ++ data

/-- A record of 64 bytes (R127): SEQ is a free value, for no rule numbers the records (log entry 3). -/
def Chip.record (c : Chip) (k sfc pos dest : Nat) (r : Rec) : Chip × List Byte :=
  have d := c.draw
  have auth := c.rb R.TRK_TERM_ID_MMK 0 && decide (dest ≠ 0xFFFE)
  have head := beBytes 2 dest ++ beBytes 1 r.typ ++ beBytes 1 (b2n auth) ++ beBytes 2 (d.1 % 65536) ++ beBytes 1 r.body.length ++ zeros 1 ++ r.body ++ zeros (36 - r.body.length)
  have tag := if auth then gcmTagBytes (Tab.get [] c.sec.vault 0) (upIv k sfc pos) head [] else zeros 16
  (d.2, head ++ tag ++ beBytes 4 (crc32c (head ++ tag)))

/-- GRADE as the fuses give it, by majority of 8 bits (R376). -/
def Chip.grade (c : Chip) : Nat := if 4 < popCount 8 (c.fuse 2448 8) then 1 else 0

/-- The ANNOUNCE record (R128). -/
def Chip.announceRec (c : Chip) : Rec :=
  ⟨0x81, c.serial ++ (sha3_512 c.idPub).take 16 ++ beBytes 1 (c.rg R.TRK_REV_STAT_CUR 0) ++ beBytes 1 (c.rg R.TRK_REV_STAT_PREV 0) ++ beBytes 1 c.grade⟩

/-- The filling of a units area: the chip, the bytes so far, the space left, the burst's counts and what it took. -/
structure Fill where
  c : Chip
  bytes : List Byte
  left : Nat
  units : Nat
  frags : Nat
  took : List QFrame
  mgmt : List (Nat × List Byte)
  /-- queues that take no further part -/
  stop : List Nat

/-- A unit is placed. -/
def Fill.put (f : Fill) (u : List Byte) : Fill := { f with bytes := f.bytes ++ u, left := f.left - u.length, units := f.units + 1 }

/-- The units queued for MGMT_TAG, as far as they fit (R138). -/
def Fill.mgmtUnits (f : Fill) (tag : Nat) : Nat → Fill
  | 0 => f
  | n + 1 => match f.c.up.mgmtQ with
    | [] => f
    | m :: r => if 8 + m.2.length ≤ f.left then Fill.mgmtUnits { (f.put (unitBytes tag true false 0 m.2)) with c := { f.c with up.mgmtQ := r }, mgmt := f.mgmt ++ [m] } tag n else f

/-- The abort units owed to an allocation (R144). -/
def Fill.aborts (f : Fill) (ka : Nat) : Fill :=
  have owed := f.c.up.owedAborts.filter (fun (e : Nat × Nat) => decide (e.1 = ka))
  have now := owed.take (f.left / 8)
  have f := now.foldl (fun (g : Fill) e => g.put (unitBytes e.2 true true 0 [])) f
  { f with c := { f.c with up.owedAborts := f.c.up.owedAborts.filter (fun (e : Nat × Nat) => decide (e.1 ≠ ka)) ++ owed.drop now.length } }

/-- The remainder of a frame that an earlier burst of the allocation split (R196 step 2); the flag tells whether filling goes on. -/
def Fill.splitRest (f : Fill) (k alloc : Nat) (frag : Bool) : Fill × Bool :=
  match f.c.up.splits.find? (fun s => decide (s.ch = k ∧ s.alloc = alloc)) with
  | none => (f, true)
  | some s =>
    have others := f.c.up.splits.filter (fun (x : SplitFrame) => decide (x.ch ≠ k ∨ x.alloc ≠ alloc))
    if 8 + s.rest.length ≤ f.left then
      ({ (f.put (unitBytes s.tag true false s.key s.rest)) with c := { f.c with up.splits := others }, frags := f.frags + 1 }, true)
    else if frag = true ∧ 72 ≤ f.left then
      have n := f.left - 8
      ({ (f.put (unitBytes s.tag false false s.key (s.rest.take n))) with c := { f.c with up.splits := others ++ [{ s with rest := s.rest.drop n }] }, frags := f.frags + 1 }, false)
    else (f, false)

/-- The key index of a queued frame: a GROUP of indices is spread by HASH (R395). -/
def Chip.upKey (c : Chip) (x : Frame) : Nat := match c.obj 0x0902 x.key with
  | some b => if x.key = 0 then 0 else x.key + x.hash * max 1 (byteAt b 1) / 2 ^ 32
  | none => x.key

/-- Is an upstream key provisioned (R393, R395)? -/
def Chip.keyUp (c : Chip) (key : Nat) : Bool :=
  decide (1 ≤ key ∧ key ≤ 254) && c.keyPermits key 1 && c.rb R.SEC_KIDX_STAT_UP key && !c.rb R.SEC_KIDX_STAT_DISABLED key

/-- Data of a frame's unit: plaintext, or ciphertext with its tag under the position of its first header (R105, R144). -/
def Chip.upData (c : Chip) (k sfc pos key tag : Nat) (l : List Byte) : List Byte :=
  if key = 0 then l
  else
    have kk := Tab.get [] c.sec.trunkKeys (2 * key + 1)
    have ct := gcmStream kk (upIv k sfc pos) 0 l
    ct ++ gcmTagBytes kk (upIv k sfc pos) (beBytes 2 tag) ct

/-- Decisions of the group's tree until nothing more fits (R196 step 3, R197). `start` is the identifier position of the area. -/
def Fill.tree (f : Fill) (w : Window) (a group start : Nat) (frag : Bool) : Nat → Fill
  | 0 => f
  | n + 1 =>
    have isMine := fun (q : Nat) => decide (f.c.qDir q = 1 ∧ f.c.qGroup q = group)
    have cnt := fun (x : QFrame) => decide (x.member = some a)
    match f.c.treePick (rootG group) isMine cnt (fun q x => x.f.known && !f.stop.contains q) with
    | none => f
    | some k =>
      have x := k.x
      have key := f.c.upKey x.f
      if key ≠ 0 ∧ f.c.keyUp key = false then
        Fill.tree { f with c := (f.c.dropQueued x).inc C.SEC_KEY_MISS_UP 0 } w a group start frag n
      else
        have data := f.c.upData w.ch w.sfc (start + f.bytes.length) key x.f.outTag x.f.bytes
        if 8 + data.length ≤ f.left then
          Fill.tree { (f.put (unitBytes x.f.outTag true false key data)) with c := f.c.takeChosen k, took := f.took ++ [x] } w a group start frag n
        else if frag = true ∧ f.c.rb R.SCH_Q_CFG_IQ x.q = false ∧ 72 ≤ f.left then
          have m := f.left - 8
          have sp : SplitFrame := { alloc := w.alloc, ch := w.ch, rest := data.drop m, tag := x.f.outTag, key := key, queue := x.q, endAt := w.endAt, id := x.f.id, at_ := x.at_ }
          have c := f.c.takeChosen k
          { (f.put (unitBytes x.f.outTag false false key (data.take m))) with c := { c with up.splits := c.up.splits ++ [sp] }, took := f.took ++ [x], frags := f.frags + 1 }
        else Fill.tree { f with stop := x.q :: f.stop } w a group start frag n

/-- Intercalary fill (R144): units of at most 16,383 data bytes, then 1 to 7 bytes of zero (log entry 34). -/
def fillUnits : Nat → Nat → List Byte × Nat
  | 0, n => (zeros n, 0)
  | fuel + 1, n =>
    if n < 8 then (zeros n, 0)
    else
      have m := min n 16391
      have r := fillUnits fuel (n - m)
      (unitBytes 0xFFFF true false 0 (zeros (m - 8)) ++ r.1, r.2 + 1)

/-- The zero bytes that end such a fill of `n` bytes. -/
def padZeros (n : Nat) : Nat := if n % 16391 < 8 then n % 16391 else 0

/-- Bytes a frame will take upstream with its unit header and tag. -/
def Chip.unitLen (c : Chip) (f : Frame) : Nat := 8 + f.bytes.length + (if c.upKey f = 0 then 0 else 16)

/-- Bytes still queued for an allocation of channel `k`, and the instant of the oldest frame (R143). -/
def Chip.allocLoad (c : Chip) (k alloc : Nat) : Nat × Option Nat :=
  match c.allocIdx k alloc with
  | none => ((c.up.mgmtQ.map (fun m => 8 + m.2.length)).foldl (· + ·) 0, (c.up.mgmtQ.map (·.1)).min?)
  | some a =>
    have fs := c.qs.frames.filter (fun x => decide (x.member = some a))
    have sp := c.up.splits.filter (fun s => decide (s.ch = k ∧ s.alloc = alloc))
    ((fs.map (fun x => c.unitLen x.f)).foldl (· + ·) ((sp.map (fun s => 8 + s.rest.length)).foldl (· + ·) 0), (sp.map (·.at_) ++ fs.map (·.at_)).min?)

/-- A report of 8 bytes. -/
def Chip.report (c : Chip) (k alloc : Nat) : List Byte :=
  have l := c.allocLoad k alloc
  have age := match l.2 with
    | some a => min ((c.now - a) / usPs) 0xFFFF
    | none => 0
  beBytes 2 (4096 * k + alloc) ++ beBytes 4 (min (cdiv l.1 64) 0xFFFFFFFF) ++ beBytes 2 age

/-- Further allocations to report on, in round robin from the one last reported, among those with bytes queued (R143). -/
def Chip.moreReports (c : Chip) (k alloc : Nat) : List Nat :=
  have ids := ((c.instances R.TRK_ALLOC_VALID 1024).filter (fun a => decide (c.rg R.TRK_ALLOC_CH a = k))).map (fun a => c.rg R.TRK_ALLOC_ALLOC_ID a)
  have ids := (ids.filter (fun i => decide (i ≠ alloc ∧ (c.allocLoad k i).1 ≠ 0))).mergeSort (fun a b => decide (a ≤ b))
  have p := Tab.get 0 c.up.rptPos k
  (ids.filter (fun i => decide (p < i)) ++ ids.filter (fun i => decide (i ≤ p))).take (c.rg R.TRK_US_GH_ACT_RPT_EXTRA k)

/-- The burst header (R142). -/
def burstHdr (term : Nat) (w : Window) (dying : Bool) (recs : Nat) (rpts : List (List Byte)) : List Byte :=
  have flags := b2n (decide (w.kind = .discovery)) + 2 * b2n (decide (w.kind = .ranging)) + 4 * b2n w.mgmt + 8 * b2n w.report + 16 * b2n dying + 32 * b2n w.shortEve
  have h := beBytes 2 term ++ beBytes 2 (4096 * w.ch + w.alloc) ++ beBytes 1 w.rev ++ beBytes 1 flags ++ beBytes 1 recs ++ beBytes 1 rpts.length ++ beBytes 7 w.sfc ++ zeros 1 ++
    (rpts.flatten ++ zeros 32).take 32 ++ zeros 12
  h ++ beBytes 4 (crc32c h)

/-- The trailer (R145). -/
def burstTrailer (front : List Byte) (used units : Nat) : List Byte :=
  beBytes 4 used ++ beBytes 2 units ++ zeros 50 ++ beBytes 4 (crc32c front) ++ beBytes 4 0x4B515452

/-- Bytes of the body of a window (R140). -/
def Window.bodyLen (w : Window) : Nat := (w.len - (if w.shortEve then 12 else 68)) * 64

/-- The management cores are stopped: CTRL is not ON, or no core is left that runs or may take a task (R139, R356). -/
def Chip.coresStopped (c : Chip) : Bool := !c.domOn 2 || (List.range 16).all (fun j => decide (3 ≤ c.rg R.MCU_CORE_STAT_STATE j))

/-- Pending records of a MGMT burst: acknowledgements, and in EVENTIDE a DYING record (R128). They wait while the cores are stopped
(R139). -/
def Chip.pendRecs (c : Chip) : List Rec := if c.coresStopped then [] else c.up.acks ++ (if c.mode = 11 then [⟨0x83, beBytes 1 c.up.dyingReason⟩] else [])

/-- The units area of a window, filled in the order of R196. -/
def Chip.fillArea (c : Chip) (w : Window) (space start : Nat) : Fill :=
  have f : Fill := { c := c, bytes := [], left := space, units := 0, frags := 0, took := [], mgmt := [], stop := [] }
  if w.kind = .discovery ∨ w.kind = .ranging then f
  else
    have f := if w.mgmt then f.mgmtUnits (c.rg R.TRK_TERM_ALLOC_MGMT_TAG 0) c.up.mgmtQ.length else f
    match c.allocIdx w.ch w.alloc with
    | none => f
    | some a =>
      if w.kind = .default then f
      else
        have frag := c.rb R.TRK_ALLOC_FRAG_OK a
        have r := (f.aborts (4096 * w.ch + w.alloc)).splitRest w.ch w.alloc frag
        if r.2 then r.1.tree w a (c.rg R.TRK_ALLOC_GROUP a) start frag (2 * c.qs.frames.length + 1) else r.1

/-- A window becomes a burst (R142 to R146). -/
def Chip.formBurst (c : Chip) (w : Window) : Chip :=
  have body := w.bodyLen
  have term := if w.kind = .discovery then 0xFFFE else c.rg R.TRK_TERM_ID_ID 0
  have recs := if w.kind = .discovery then [c.announceRec] else if w.kind = .ranging ∨ w.mgmt = false then [] else c.pendRecs.take (min 8 ((body - 128) / 64))
  have acks := (recs.filter (fun r => decide (r.typ = 0x82))).length
  have split := c.up.splits.find? (fun s => decide (s.ch = w.ch ∧ s.alloc = w.alloc))
  have owed := c.up.owedAborts.filter (fun (e : Nat × Nat) => decide (e.1 = 4096 * w.ch + w.alloc))
  have c := { c with up.acks := c.up.acks.drop acks }
  have out := (List.range recs.length).foldl (fun (x : Chip × List Byte) i =>
    match recs[i]? with
    | some r =>
      have y := x.1.record w.ch w.sfc (w.start * 64 + 64 + 64 * i) term r
      (y.1, x.2 ++ y.2)
    | none => x) (c, [])
  have space := body - 128 - 64 * recs.length
  have f := out.1.fillArea w space (w.start * 64 + 64 + 64 * recs.length)
  have pad := fillUnits (f.left + 1) f.left
  have c := f.c
  have more := if w.report then c.moreReports w.ch w.alloc else []
  have rpts := if w.report ∧ w.kind ≠ .discovery ∧ w.kind ≠ .ranging then c.report w.ch w.alloc :: more.map (fun i => c.report w.ch i) else []
  have c := if more.isEmpty then c else { c with up.rptPos := c.up.rptPos.set w.ch (more.getLastD 0) }
  have dying := decide (c.mode = 11)
  have front := burstHdr term w dying recs.length rpts ++ out.2 ++ f.bytes ++ pad.1
  have z := padZeros f.left
  have trailer := burstTrailer front (space - z) (f.units + pad.2)
  have b : Burst := { win := w, body := front ++ trailer, records := recs, dying := dying, took := f.took, splitWas := split, owedWere := owed, mgmt := f.mgmt, unitBytes := f.bytes.length, fillBytes := f.left, frags := f.frags, rpts := rpts.length }
  { c with up.formed := c.up.formed ++ [b] }

/-- The lower of the ceiling and the fused ceiling (R147). -/
def Chip.launchCeil (c : Chip) : Int := min (c.rs R.TRK_GUARD_PWR_CEIL 0) c.laserCeil

/-- What the guard asks of a window at any time (R147), beside its place: mode, channel, latch, launch power, and a table entry that
an authenticated ASSIGN_ALLOC wrote. -/
def Chip.guardOk (c : Chip) (w : Window) : Bool :=
  c.permits w.kind && !c.rb R.TRK_US_STAT_CH_OFF w.ch && !c.rb R.TRK_GUARD_STAT_QUAR 0 && decide (c.rs R.TRK_US_GH_ACT_PWR w.ch < c.launchCeil) &&
    (decide (w.kind ≠ .assigned) || match c.allocIdx w.ch w.alloc with
      | some a => c.rb R.TRK_ALLOC_AUTH a
      | none => false)

/-- BURST_FORM (R146): 20 µs before t(0) of the first window of channel `k`. -/
def burstForm (k : Nat) (c : Chip) : Chip :=
  match c.up.store.find? (fun w => decide (w.ch = k)) with
  | none => c
  | some w =>
    if c.now + 20 * usPs < w.t0 then c
    else
      have c := { c with up.store := c.up.store.erase w }.pendCount k
      have prev := c.prevEnd k w.side
      if c.guardOk w = false then c
      else if prev ≠ 0 ∧ w.t0 < prev + symPs 1600 then c.inc C.TRK_US_SPACING_DROP k
      else if w.shortEve ∧ (c.prevLit k w.side = 0 ∨ c.prevLit k w.side + 250 * usPs < w.t0) then c.inc C.TRK_US_EVE_REFUSED k
      else c.formBurst w

def execBurstForm (t : Nat) (k : Fin 16) (s : State) : Host.Outcome State Fault Refusal := s.on t (fun _ => burstForm k.val)

/-! ## Emission (R140, R141, R147) -/

/-- The units of an area: offset, length with header, tag. -/
def unitList (l : List Byte) : Nat → Nat → List (Nat × Nat × Nat)
  | _, 0 => []
  | off, n + 1 =>
    if l.length < off + 8 then []
    else
      have len := 8 + bits (beAt l off 8) 34 14
      (off, len, half l off) :: unitList l (off + len) n

/-- A transmit edge FIFO runs empty at byte `o` of the units area (R25, R146): the frame in progress ends with the abort flag, what
remains of its data being a free value; the rest is fill; frames not reached go back to their queues (log entry 34). -/
def Chip.underrun (c : Chip) (b : Burst) (o : Nat) : Chip × Burst :=
  have k := b.win.ch
  have off := 64 + 64 * b.records.length
  have areaLen := b.body.length - off - 64
  have area := slice b.body off areaLen
  have us := unitList area 0 area.length
  match us.find? (fun u => decide (u.1 ≤ o ∧ o < u.1 + u.2.1 ∧ u.2.2 ≠ 0xFFFF)) with
  | none => (c, b)
  | some u =>
    have later := (us.filter (fun v => decide (u.1 < v.1 ∧ v.2.2 ≠ 0xFFFF))).length
    have back := b.took.drop (b.took.length - later)
    have d := c.draw
    have cut := o - u.1
    have keep := area.take o ++ beBytes (u.2.1 - cut) d.1
    have room := areaLen - keep.length
    have owe := decide (room < 8)
    have ab := if owe then [] else unitBytes u.2.2 true true 0 []
    have pad := fillUnits (room + 1) (room - ab.length)
    have area2 := keep ++ ab ++ pad.1
    have front := b.body.take off ++ area2
    have n := (us.filter (fun v => decide (v.1 ≤ u.1))).length + b2n (!owe) + pad.2
    have z := padZeros (room - ab.length)
    have c := ((d.2.inc C.TRK_US_STOMPED k).errEdgeTrunk k 5).loseSplits (fun _ => false)
    have ids := back.map (fun x => x.f.id)
    have c := { c with qs.frames := back ++ c.qs.frames, qs.out := c.qs.out.filter (fun (x : QFrame) => !ids.contains x.f.id), up.splits := c.up.splits.filter (fun (s : SplitFrame) => decide (s.ch ≠ k ∨ s.alloc ≠ b.win.alloc)), up.owedAborts := if owe then c.up.owedAborts ++ [(4096 * k + b.win.alloc, u.2.2)] else c.up.owedAborts }
    have c := back.foldl (fun e x => e.queueStat x.q x.f.blk) c
    (c, { b with body := front ++ burstTrailer front (areaLen - z) n, took := b.took.take (b.took.length - later), unitBytes := keep.length + ab.length, fillBytes := room - ab.length })

/-- A burst that is not emitted gives back what it took, after the later bursts of its allocation, whose windows are formed again. -/
def Chip.withdraw (c : Chip) (b : Burst) : Chip :=
  have later := c.up.formed.filter (fun (x : Burst) => decide (x.win.ch = b.win.ch ∧ x.win.alloc = b.win.alloc))
  have c := { c with up.formed := c.up.formed.filter (fun (x : Burst) => !later.contains x) }
  have c := later.reverse.foldl (fun d x => d.unform x) c
  later.foldl (fun d x => d.storeWin x.win) (c.unform b)

/-- BURST_START (R140): the laser rise begins 768 symbols before t(0), where the guard permits the window and before its end (R147);
another one is not emitted and gives back what it took. `und` gives the byte of the units area at which the edge FIFO runs empty, if it does. -/
def burstStart (k : Nat) (und : Option Nat) (c : Chip) : Chip :=
  match c.up.formed.find? (fun b => decide (b.win.ch = k)) with
  | none => c
  | some b =>
    if c.now + symPs 768 < b.win.t0 then c
    else
      have c := { c with up.formed := c.up.formed.erase b }
      if c.guardOk b.win = false ∨ b.win.endAt ≤ c.now ∨ c.ds.apsStep ≠ 0 then c.withdraw b
      else
        have r := match und with
          | some o => c.underrun b o
          | none => (c, b)
        have c := r.1
        have b := r.2
        have pwr := c.draw
        have c := (pwr.2.wg R.TRK_US_MON_PWR k pwr.1).wfree R.TRK_US_MON_BIAS k |>.emit .gateOpen k [b.win.side] []
        have c := c.emit .burst k [b.win.side, b.win.t0, b.win.endAt] (eveBytes b.win.shortEve ++ delimiterBytes ++ scramble b.body)
        have c := ((c.wg R.TRK_US_STAT_BURSTING k 1).wb R.TRK_US_STAT_LAST_EVE k b.win.shortEve).inc C.TRK_US_BURSTS k
        have c := if b.win.shortEve then c.inc C.TRK_US_EVE_SHORT k else c.inc C.TRK_US_EVE_FULL k
        have c := ((c.incBy C.TRK_US_REPORTS k b.rpts).incBy C.TRK_US_UNIT_BYTES k b.unitBytes).incBy C.TRK_US_FILL_BYTES k b.fillBytes
        { (c.incBy C.TRK_US_FRAGMENTS k b.frags) with up.active := c.up.active ++ [b] }

def execBurstStart (t : Nat) (k : Fin 16) (und : Option Nat) (s : State) : Host.Outcome State Fault Refusal := s.on t (fun _ => burstStart k.val und)

/-- BURST_END (R140): the gate shuts at symbol LENGTH × 64. An announcement burst begins to wait for its answer (R129); a burst with
DYING ends emission in EVENTIDE (R116). -/
def burstEnd (k : Nat) (c : Chip) : Chip :=
  match c.up.active.find? (fun b => decide (b.win.ch = k)) with
  | none => c
  | some b =>
    if c.now < b.win.endAt then c
    else
      have rest := c.up.active.erase b
      have c := { (c.emit .gateShut k [b.win.side] []) with up.active := rest, up.lastEnd := c.up.lastEnd.set (2 * k + b.win.side) b.win.endAt, up.lastLit := c.up.lastLit.set (2 * k + b.win.side) b.win.endAt }
      have c := c.wb R.TRK_US_STAT_BURSTING k (rest.any (fun x => decide (x.win.ch = k)))
      have c := if b.win.kind = .discovery ∧ c.mode = 3 then { c with up.annOct := some 0 } else c
      (if b.dying ∧ c.mode = 11 then { c.dropGrants with up.dyingSent := true } else c).outSweep

def execBurstEnd (t : Nat) (k : Fin 16) (s : State) : Host.Outcome State Fault Refusal := s.on t (fun _ => burstEnd k.val)

/-- UP_FRAG_TIMEOUT (R144): a split frame is not complete 125 µs after the end of its first burst. -/
def upFragTimeout (k alloc : Nat) (c : Chip) : Chip :=
  match c.up.splits.find? (fun s => decide (s.ch = k ∧ s.alloc = alloc)) with
  | some s =>
    if s.endAt + 125 * usPs ≤ c.now then
      { (c.inc C.TRK_US_STOMPED k) with up.splits := c.up.splits.erase s, up.owedAborts := c.up.owedAborts ++ [(4096 * k + alloc, s.tag)] }
    else c
  | none => c

def execUpFragTimeout (t : Nat) (k : Fin 16) (alloc : Nat) (s : State) : Host.Outcome State Fault Refusal := s.on t (fun _ => upFragTimeout k.val alloc)

/-! ## The emission guard (R148, R149) -/

/-- GUARD_TRIP: the guard shuts the gate of channel `k` and records the trip; the third within 1 s opens the latch. -/
def guardTrip (k cause : Nat) (c : Chip) : Chip :=
  have recent := c.up.trips.filter (fun x => decide (c.now < x + secPs))
  have c := (((c.inc C.TRK_US_GUARD_TRIP k).wg R.TRK_GUARD_STAT_LAST_CAUSE 0 cause).wg R.TRK_GUARD_STAT_LAST_CH 0 k).wg R.TRK_GUARD_STAT_TRIPPED 0 1
  have c := { (c.shutGates [k]) with up.trips := recent ++ [c.now] }
  have c := c.wg R.TRK_GUARD_STAT_RECENT 0 (min 2 (recent.length + 1))
  if recent.length < 2 then c
  else
    have c := (c.wg R.TRK_GUARD_STAT_QUAR 0 1).shutGates (List.range 16)
    if (2 ≤ c.mode ∧ c.mode ≤ 7) ∨ c.mode = 9 ∨ c.mode = 10 then c.enterQuarantine 13 else c

def execGuardTrip (t : Nat) (k : Fin 16) (cause : Fin 8) (s : State) : Host.Outcome State Fault Refusal := s.on t (fun _ => guardTrip k.val cause.val)

end Sys2Proof.Machine
end

