-- ==== Sys2Proof/Machine/Power.lean ====
section
/-! DEFINITION. Power domains, islands, wake sets, operating points and thermal limits (14_power_and_health.md R407 to R426). -/

namespace Sys2Proof.Machine

open Sys2Proof

/-! ## Requests of domains (R410 to R413) -/

/-- Does a domain have PLLs (R407)? -/
def domPll (d : Nat) : Bool := decide (d = 1 ∨ d = 4 ∨ d = 5 ∨ 7 ≤ d ∧ d ≤ 12)

/-- The children of a domain (R407). -/
def domKids (d : Nat) : List Nat := (List.range 17).filter (fun e => (domParents e).contains d)

/-- The domain of a unit by its wear index (R407, R432). -/
def wearDom (w : Nat) : Nat :=
  if w < 352 then (if w % 11 < 8 then 9 else 13) + w / 11 / 8
  else if w < 387 then 8 else if w < 419 then 9 + (w - 387) / 8 else if w < 423 then 9 + (w - 419) else if w < 440 then 2
  else if w < 508 then 7 else if w < 512 then 4 else 1

/-- The slot of a transaction that holds values of domain `d`: staged writes, or prepared programs of its cells (R76). -/
def Chip.domStaged (c : Chip) (d : Nat) : Option Nat :=
  have held := c.alm.txns.filter (fun x => x.writes.any (fun w => decide (w.1 < 0x80000000 ∧ domAt w.1 = d)) ||
    (decide (x.origin = .delta ∨ x.origin = .jubilee) && (match c.alm.load.prep with
      | some p => p.named.any (fun k => decide ((k / 65536 = 0x0501 ∨ k / 65536 = 0x0503) ∧ 13 + smpOf (k % 65536) / 24 = d))
      | none => false)))
  (held.map (fun x => x.slot)).min?

/-- The lowest-numbered enabled unit that keeps domain `d` from leaving ON (R413 refuser 6); 0xFFFF where only the mode does. -/
def Chip.domEnabled (c : Chip) (d : Nat) : Option Nat :=
  if d = 8 then
    match (List.range 16).find? (fun k => c.rb R.TRK_DS_CFG_ENABLE k) with
    | some k => some (c.engineOf k)
    | none => if [2, 3, 4, 5, 10, 11].contains c.mode then some 0xFFFF else none
  else if 9 ≤ d ∧ d ≤ 12 then (List.range 128).find? (fun p => decide (p / 32 = d - 9 ∧ c.rg R.PRT_STAT_LINK p ≠ 0))
  else if 13 ≤ d then (List.range 96).find? (fun x => decide (x / 24 = d - 13) && c.rb R.SMP_CELL_CFG_ENABLE x)
  else if d = 7 then ((c.qs.frames.filter (fun x => x.spill.isSome)).map (fun x => x.q)).min?
  else none

/-- The refuser of a request that starts, with REF_UNIT (R413), in the order of R413. -/
def Chip.refuser (c : Chip) (d target : Nat) : Option (Nat × Nat) :=
  have entry := decide (target ≠ 2)
  have ps := domParents d
  have kid := (domKids d).find? (fun e => decide (c.pstate e = 2 ∨ (target = 0 ∧ c.pstate e = 1)))
  if c.pstate d = 3 then some (8, 0)
  else if (entry ∧ domRequestable d = false ∧ ¬(d = 1 ∧ c.mode = 0)) ∨ (target = 1 ∧ c.pstate d = 0) then some (5, 0)
  else if entry = false then
    match ps.find? (fun e => decide (c.pstate e = 3)), ps.find? (fun e => !c.domOn e) with
    | some e, _ => some (4, e)
    | none, some e => some (3, e)
    | none, none => none
  else
    match kid, c.domStaged d, c.domEnabled d with
    | some e, _, _ => some (2, e)
    | none, some slot, _ => some (1, slot)
    | none, none, some u => some (6, u)
    | none, none, none => if c.rg R.HLT_SWAP_STAT_STATE 0 = 1 ∧ wearDom c.pw.swapUnit = d then some (7, c.pw.swapUnit) else none

/-- A refusal is recorded and counted (R413). -/
def Chip.domRefused (c : Chip) (d code unit : Nat) : Chip :=
  (((c.wg R.PWR_DOM_REFUSE_REFUSER d code).wg R.PWR_DOM_REFUSE_REF_UNIT d unit).inc C.PWR_DOM_REFUSED d).wg R.PWR_EVT_REFUSED 0 1

/-- A request starts (R410, R411 step 1): complete at once, refused, or in flight. -/
def Chip.domStart (c : Chip) (d target : Nat) : Chip :=
  if c.pstate d = target then c
  else
    match c.refuser d target with
    | some r => c.domRefused d r.1 r.2
    | none =>
      have r : DomReq := { step := if target = 2 then 1 else 4, target := target, src := c.pstate d, at_ := c.now, latched := false }
      have c := { c with pw.dom := c.pw.dom.set d r }
      ((c.wg R.PWR_DOM_STAT_BUSY d 1).wg R.PWR_DOM_STAT_IN_FLIGHT d target).wg R.PWR_DOM_STAT_ATTEMPT d 0

/-- A request arrives (R412); a wake event for a domain that is clamped or loses its supply is latched (R418). -/
def Chip.domReq (c : Chip) (d target : Nat) (wake : Bool) : Chip :=
  match c.pw.dom.find d with
  | none => c.domStart d target
  | some r =>
    have pend := c.rb R.PWR_DOM_STAT_PEND_V d
    if wake ∧ r.step = 5 then { c with pw.dom := c.pw.dom.set d { r with latched := true } }
    else if pend = false ∧ r.target = target then c
    else
      have c := if pend then c.inc C.PWR_DOM_SUPERSEDED d else c
      (c.wg R.PWR_DOM_STAT_PEND_V d 1).wg R.PWR_DOM_STAT_PEND d target

/-- The request in flight ends, and the pending one starts (R412). -/
def Chip.domEnd (c : Chip) (d : Nat) : Chip :=
  have c := { ((c.wg R.PWR_DOM_STAT_BUSY d 0).wg R.PWR_DOM_STAT_IN_FLIGHT d 0) with pw.dom := c.pw.dom.erase d }
  if c.rb R.PWR_DOM_STAT_PEND_V d then
    have t := c.rg R.PWR_DOM_STAT_PEND d
    ((c.wg R.PWR_DOM_STAT_PEND_V d 0).wg R.PWR_DOM_STAT_PEND d 0).domStart d t
  else c

/-- The step of the request in flight moves on now. -/
def Chip.domStep (c : Chip) (d : Nat) (r : DomReq) (step : Nat) : Chip :=
  { c with pw.dom := c.pw.dom.set d { r with step := step, at_ := c.now } }

/-- Pace windows follow Qn (R20, R22): PACE_LOW and every MEAS end when it leaves ON, and counting starts with the first window that
ends after it is ON. -/
def Chip.pacePower (c : Chip) (d st : Nat) : Chip :=
  if 9 ≤ d ∧ d ≤ 12 then
    if st = 2 then { c with st.paceAt := c.st.paceAt.set (d - 9) c.paceWindow } else c.paceStop (d - 9)
  else c

/-- PSTATE of a domain changes, and with it its region and blocks (R469); residency is counted up to here (R426). -/
def Chip.setPstate (c : Chip) (d st : Nat) : Chip :=
  c.watch (fun c => (((c.residency).wg R.PWR_DOM_STAT_PSTATE d st).wg R.PWR_EVT_DOM_CHG 0 1).pacePower d st)

/-- Can the member of a wake set no longer reach ON: refused, failed, or never issued? -/
def Chip.wakeLost (c : Chip) (w : WakeSet) (d : Nat) : Bool :=
  bit w.lost d || (bit w.issued d && !c.domOn d && (c.pw.dom.find d).isNone)

/-- Wake sets go on (R416): in ascending order, members are issued once their parents in the mask are ON, or lost with them. -/
def Chip.wakeOne (c : Chip) (w : WakeSet) : Chip × WakeSet :=
  (List.range 17).foldl (fun (a : Chip × WakeSet) d =>
    have c := a.1
    have w := a.2
    have ps := (domParents d).filter (fun e => bit w.mask e)
    if bit w.mask d = false then a
    else if c.wakeLost w d then (c, { w with lost := setBit w.lost d })
    else if bit w.issued d then a
    else
      match ps.find? (fun e => c.wakeLost w e) with
      | some e => (c.domRefused d 4 e, { w with lost := setBit w.lost d })
      | none =>
        if ps.all (fun e => c.domOn e) then
          have c := c.domReq d 2 true
          have w := { w with issued := setBit w.issued d }
          (c, if c.wakeLost w d then { w with lost := setBit w.lost d } else w)
        else a) (c, w)

/-- Has every member of a wake set come to its end? -/
def Chip.wakeOver (c : Chip) (w : WakeSet) : Bool := (List.range 17).all (fun d => !bit w.mask d || bit w.lost d || (bit w.issued d && c.domOn d))

def Chip.wakeRun (c : Chip) : Chip :=
  c.pw.wakes.foldl (fun d w =>
    have r := d.wakeOne w
    if r.1.wakeOver r.2 then r.1 else { r.1 with pw.wakes := r.1.pw.wakes ++ [r.2] }) { c with pw.wakes := [] }

/-- The loader brings domains to their INIT states while it prepares a full Almanac (R422): first to ON, every domain whose INIT is
not OFF; then, outside JUBILEE, to RETENTION. A refusal or a failure fails the load, and what it brought up goes OFF again. -/
def Chip.loaderPower (c : Chip) : Chip :=
  match c.alm.load.prep with
  | none => c
  | some p =>
    if p.full = false ∨ c.rg R.ALM_LOAD_STAT_STATE 0 ≠ 3 then c
    else
      have jub := decide (c.mode = 10)
      have want := (List.range 17).filter (fun d => decide (initOf p.objs d = 2 ∨ (initOf p.objs d = 1 ∧ jub = false)))
      have up := want.foldl (fun e d =>
        if e.alm.load.domains.contains d ∨ e.domOn d ∨ (e.pw.dom.find d).isSome ∨ ((domParents d).all (fun x => e.domOn x)) = false then e
        else { (e.domReq d 2 false) with alm.load.domains := e.alm.load.domains ++ [d] }) c
      have lost := up.alm.load.domains.any (fun d => decide (up.pstate d = 0 ∨ up.pstate d = 3) && (up.pw.dom.find d).isNone)
      if lost then
        have ds := up.alm.load.domains.reverse
        ds.foldl (fun e d => if e.pstate d = 3 then e else e.domReq d 0 false) { (up.loadFail 18 7) with alm.load.domains := [] }
      else if want.all (fun d => up.domOn d || decide (up.pstate d = 1)) then
        (want.reverse.filter (fun d => decide (initOf p.objs d = 1))).foldl (fun e d => if e.domOn d then e.domReq d 1 false else e) up
      else up

/-- Has every domain reached the state that the load being prepared needs? -/
def Chip.loaderReady (c : Chip) (p : Prepared) : Bool :=
  (List.range 17).all (fun d => (if c.mode = 10 then decide (initOf p.objs d ≠ 2) || c.domOn d
    else decide (c.pstate d = initOf p.objs d) && (c.pw.dom.find d).isNone))

/-- What follows a change of a domain: wake sets, the loader, ports that may train. -/
def Chip.domNext (c : Chip) : Chip := (c.wakeRun.loaderPower).portsEval

/-- A write of PWR_DOM_REQ: a TARGET of 3 is out of range (R436). -/
def domRequest (d v : Nat) (c : Chip) : Chip × Nat :=
  if bits v 0 2 = 3 then (c, stRefused)
  else ((c.watch (fun c => c.domReq d (bits v 0 2) false)).domNext, stOk)

def execDomRequest (t : Nat) (d : Fin 17) (v : Nat) (s : State) : Host.Outcome State Fault Refusal := s.on t (fun _ c => c.answered (domRequest d.val v))

/-! ## Exit to ON (R410, R414, R415) -/

/-- DOM_SUPPLY_READY: the supply is ready within 2 ms; PLLs lock, where the domain has them. -/
def domSupplyReady (d : Nat) (c : Chip) : Chip := match c.pw.dom.find d with
  | some r => if r.step = 1 ∧ c.now ≤ r.at_ + 2 * msPs then c.domStep d r (if domPll d then 2 else 3) else c
  | none => c

def execDomSupplyReady (t : Nat) (d : Fin 17) (s : State) : Host.Outcome State Fault Refusal := s.on t (fun _ => domSupplyReady d.val)

/-- DOM_PLL_LOCKED: within 20 ms. -/
def domPllLocked (d : Nat) (c : Chip) : Chip := match c.pw.dom.find d with
  | some r => if r.step = 2 ∧ c.now ≤ r.at_ + 20 * msPs then c.domStep d r 3 else c
  | none => c

def execDomPllLocked (t : Nat) (d : Fin 17) (s : State) : Host.Outcome State Fault Refusal := s.on t (fun _ => domPllLocked d.val)

/-- The islands of a domain: 2b the port island of block b, 2b + 1 its sample island, 64 + e engine e (R407, R415). -/
def domIslands (d : Nat) : List Nat :=
  if d = 8 then (List.range 17).map (fun e => 64 + e)
  else if 9 ≤ d ∧ d ≤ 12 then (List.range 8).map (fun m => 2 * (8 * (d - 9) + m))
  else if 13 ≤ d then (List.range 8).map (fun m => 2 * (8 * (d - 13) + m) + 1)
  else []
def islandDom (i : Nat) : Nat := if 64 ≤ i then 8 else if i % 2 = 0 then 9 + i / 16 else 13 + i / 16

/-- PSTATE of an island; an engine island has none of its own. -/
def Chip.setIsland (c : Chip) (i st : Nat) : Chip :=
  if 64 ≤ i then c
  else if i % 2 = 0 then c.residency.wg R.PWR_ISL_HOLD_P_STATE (i / 2) st
  else c.residency.wg R.PWR_ISL_HOLD_S_STATE (i / 2) st
def Chip.islandHeld (c : Chip) (i : Nat) : Bool :=
  if 64 ≤ i then false else if i % 2 = 0 then c.rb R.PWR_ISL_HOLD_HOLD_P (i / 2) else c.rb R.PWR_ISL_HOLD_HOLD_S (i / 2)

/-- PWR_ATTEMPT (R425): domain or region, cause, attempt. -/
def Chip.attemptErr (c : Chip) (index unit cause n : Nat) : Chip :=
  (c.errChip (c.mkErr 0x12 16 index 3 1 (unit + cause * 256 + n * 65536))).inc C.PWR_DOM_PWR_ATTEMPT index

/-- The units of an island that FAILED are lost (R415). -/
def Chip.islandLost (c : Chip) (i : Nat) : Chip :=
  if 64 ≤ i then
    have e := i - 64
    if bit c.st.engLost e then c
    else
      have c := { c with st.engLost := setBit c.st.engLost e }
      have c := if e = 16 then c.wg R.HLT_SPARE_CHIP_TRK_ENG 0 0 else c
      (match c.waveOf e with
      | some k => c.errRegion (k / 4) (c.mkErr 0x0D 6 e 2 2 e)
      | none => c.errChip (c.mkErr 0x0D 6 e 3 2 e)).syncCheck
  else if i % 2 = 0 then c.errRegion (i / 16) (c.mkErr 0x0A 4 (i / 2) 2 2 (i / 2))
  else
    have b := i / 2
    have spares := [8, 9, 10].filter (fun k => decide (c.cellRole b k = 1 ∨ c.cellRole b k = 2))
    have rest := [8, 9, 10].filter (fun k => !spares.contains k)
    (spares ++ rest).foldl (fun d k => d.errBlock b (d.mkErr 0x08 2 (16 * b + k) 1 2 k)) c

/-- An island fails in step 3 or in a retry: it is tried again up to three times, then FAILED. -/
def Chip.islandFail (c : Chip) (i : Nat) : Chip :=
  have n := Tab.get 0 c.pw.islTry i
  have d := islandDom i
  have c := (c.attemptErr d d 3 n).wg R.PWR_EVT_FAIL 0 1
  if n < 3 then { (c.setIsland i 0) with pw.islTry := c.pw.islTry.set i (n + 1), pw.islAt := c.pw.islAt.set i c.now }
  else
    have c := c.chipRecovered 0x12 (16 * 512 + d)
    { (c.setIsland i 3) with pw.islTry := c.pw.islTry.erase i, pw.islAt := c.pw.islAt.erase i, pw.islFailed := setBit c.pw.islFailed i }.islandLost i

/-- An island comes ON: its cells start their programs. -/
def Chip.islandUp (c : Chip) (i : Nat) : Chip :=
  have c := { (c.setIsland i 2) with pw.islTry := c.pw.islTry.erase i, pw.islAt := c.pw.islAt.erase i }
  if 64 ≤ i ∨ i % 2 = 0 then c else forN 3 (fun j d => d.smpChange (3 * (i / 2) + j)) c

/-- The domain becomes FAILED after its fourth attempt (R414): a region's domain is a region lost (R415). -/
def Chip.domFailed (c : Chip) (d : Nat) : Chip :=
  have c := (c.setPstate d 3).wbit R.PWR_STAT_FAILED 0 d true
  have c := (c.chipRecovered 0x12 (16 * 512 + d)).errChip (c.mkErr 0x13 16 d 3 2 d)
  have c := if 9 ≤ d ∧ d ≤ 12 ∧ bit c.st.lostRegions (d - 9) = false then c.errChip (c.mkErr 0x10 5 (d - 9) 3 3 (d - 9)) else c
  c.domEnd d

/-- An attempt of a domain fails: PWR_ATTEMPT with a cause; it is tried again, or FAILED after the fourth attempt (R414). -/
def Chip.attemptFail (c : Chip) (d : Nat) (r : DomReq) (cause : Nat) : Chip :=
  have n := c.rg R.PWR_DOM_STAT_ATTEMPT d
  have c := if r.src = 1 then (c.domLost d).setPstate d 0 else c
  have c := (c.attemptErr d d cause n).wg R.PWR_EVT_FAIL 0 1
  if n < 3 then c.domStep d { r with src := 0 } 6 else (c.watch (fun c => c.domFailed d)).domNext

/-- Is a step that began at `a` past its bound, in ps (R12)? -/
def Chip.boundPast (c : Chip) (a bound : Nat) : Bool := decide (a + bound < c.now)

/-- DOM_ISLANDS_ON: islands are ON but those of `bad`, state is restored, isolation released: PSTATE becomes ON (R409, R410). Past the
bound of 100 µs from RETENTION or 50 ms from OFF the step has failed (R12): every island has, or, in a domain that has none, the
attempt (log entry 66). -/
def domIslandsOn (d : Nat) (bad : List Nat) (c : Chip) : Chip := match c.pw.dom.find d with
  | some r =>
    have late := c.boundPast r.at_ (if r.src = 0 then 50 * msPs else 100 * usPs)
    if r.step ≠ 3 then c
    else if late ∧ domIslands d = [] then c.attemptFail d r 3
    else
      have c := if r.src = 0 then ((c.domRestore d).wb R.PWR_DOM_STAT_RESTORED d (decide (c.rg R.ALM_GEN_ACTIVE_GEN 0 ≠ 0))) else c
      have c := (c.setPstate d 2).when (decide (d = 7)) (fun c => c.wg R.MEM_HBM_STAT_TRAINED 0 3)
      have isl := (domIslands d).filter (fun i => !bit c.pw.islFailed i && !c.islandHeld i)
      have c := (c.watch (fun c => isl.foldl (fun e i => if late || bad.contains i then e.islandFail i else e.islandUp i) c)).chipRecovered 0x12 (16 * 512 + d)
      ((c.watch (fun c => c.domEnd d)).domNext)
  | none => c

def execDomIslandsOn (t : Nat) (d : Fin 17) (bad : List Nat) (s : State) : Host.Outcome State Fault Refusal := s.on t (fun _ => domIslandsOn d.val bad)

/-- DOM_ATTEMPT_FAIL: supply not ready in 2 ms, or no lock in 20 ms. The domain is OFF again. -/
def domAttemptFail (d : Nat) (c : Chip) : Chip := match c.pw.dom.find d with
  | some r =>
    if (r.step = 1 ∧ r.at_ + 2 * msPs ≤ c.now) ∨ (r.step = 2 ∧ r.at_ + 20 * msPs ≤ c.now) then c.attemptFail d r r.step else c
  | none => c

def execDomAttemptFail (t : Nat) (d : Fin 17) (s : State) : Host.Outcome State Fault Refusal := s.on t (fun _ => domAttemptFail d.val)

/-- DOM_RETRY: RETRY_DLY, twice and four times it after the attempts that failed. -/
def domRetry (d : Nat) (c : Chip) : Chip := match c.pw.dom.find d with
  | some r =>
    have n := c.rg R.PWR_DOM_STAT_ATTEMPT d
    if r.step = 6 ∧ r.at_ + c.retryDly d * 2 ^ n * msPs ≤ c.now then (c.domStep d r 1).wg R.PWR_DOM_STAT_ATTEMPT d (n + 1) else c
  | none => c

def execDomRetry (t : Nat) (d : Fin 17) (s : State) : Host.Outcome State Fault Refusal := s.on t (fun _ => domRetry d.val)

/-- DOM_CLEAR: CLEAR of PWR_DOM_CTRL returns a FAILED domain to OFF (R414). -/
def domClear (d v : Nat) (c : Chip) : Chip × Nat :=
  if bit v 0 = false then (c, stOk)
  else if c.pstate d ≠ 3 then (c, stRefused)
  else (((c.setPstate d 0).wbit R.PWR_STAT_FAILED 0 d false).wg R.PWR_DOM_STAT_ATTEMPT d 0, stOk)

def execDomClear (t : Nat) (d : Fin 17) (v : Nat) (s : State) : Host.Outcome State Fault Refusal := s.on t (fun _ c => c.answered (domClear d.val v))

/-! ## Entry to RETENTION and OFF (R411, R418) -/

/-- A step of an entry passes its bound: the domain returns to ON from its clamped state (R411, R12). -/
def Chip.entryFail (c : Chip) (d : Nat) (r : DomReq) : Chip :=
  have c := if r.src = 2 then c else (domIslands d).foldl (fun e i => if bit e.pw.islFailed i ∨ e.islandHeld i then e else e.setIsland i 2) (c.setPstate d 2)
  have c := (c.inc C.PWR_DOM_ABORTED d).errChip (c.mkErr 0x14 16 d 3 0 d)
  (c.domEnd d).domNext

/-- DOM_QUIET: handshakes are done, state is latched, isolation clamps set; PACE_LOW of a region ends (R22). Steps 1 and 2 of R411
have bounds of 10 µs and 1 µs; past them the entry fails as its step 3 does (log entry 66). -/
def domQuiet (d : Nat) (c : Chip) : Chip := match c.pw.dom.find d with
  | some r =>
    if r.step ≠ 4 then c
    else if c.boundPast r.at_ (11 * usPs) then c.watch (fun c => c.entryFail d r)
    else
      have c := c.domStep d r 5
      if 9 ≤ d ∧ d ≤ 12 then c.watch (fun c => c.paceStop (d - 9)) else c
  | none => c

def execDomQuiet (t : Nat) (d : Fin 17) (s : State) : Host.Outcome State Fault Refusal := s.on t (fun _ => domQuiet d.val)

/-- The islands of a domain follow it out of ON. -/
def Chip.islandsDown (c : Chip) (d st : Nat) : Chip :=
  ((domIslands d).filter (fun i => !bit c.pw.islFailed i)).foldl (fun e i => { (e.setIsland i st) with pw.islTry := e.pw.islTry.erase i, pw.islAt := e.pw.islAt.erase i }) c

/-- DOM_ENTRY_DONE: the supply is lowered or removed within 2 ms; past them the entry has failed (R411). A wake event latched on the
way is replayed as a request for ON. -/
def domEntryDone (d : Nat) (c : Chip) : Chip := match c.pw.dom.find d with
  | some r =>
    if r.step ≠ 5 then c
    else if c.boundPast r.at_ (2 * msPs) then c.watch (fun c => c.entryFail d r)
    else
      have c := c.watch (fun c => (c.setPstate d r.target).islandsDown d r.target)
      have c := if r.target = 0 then c.domLost d else c
      if r.latched then
        have c := { (c.inc C.PWR_DOM_REPLAYED d) with pw.dom := c.pw.dom.erase d }
        have c := (c.wg R.PWR_DOM_STAT_BUSY d 0).domStart d 2
        (if (c.pw.dom.find d).isSome then c else c.domEnd d).domNext
      else (c.domEnd d).domNext
  | none => c

def execDomEntryDone (t : Nat) (d : Fin 17) (s : State) : Host.Outcome State Fault Refusal := s.on t (fun _ => domEntryDone d.val)

/-- DOM_ENTRY_TIMEOUT: step 3 of an entry passes 2 ms; the domain returns to ON (R411). -/
def domEntryTimeout (d : Nat) (c : Chip) : Chip := match c.pw.dom.find d with
  | some r => if r.step = 5 ∧ r.at_ + 2 * msPs ≤ c.now then c.entryFail d r else c
  | none => c

def execDomEntryTimeout (t : Nat) (d : Fin 17) (s : State) : Host.Outcome State Fault Refusal := s.on t (fun _ => domEntryTimeout d.val)

/-! ## Islands (R415) -/

/-- The lowest enabled unit of an island. -/
def Chip.islandUnit (c : Chip) (b : Nat) (smp : Bool) : Option Nat :=
  if smp then [0, 1, 2].findSome? (fun j => if c.rb R.SMP_CELL_CFG_ENABLE (3 * b + j) then some (3 * b + j) else none)
  else ((c.blkPorts b).filter (fun p => decide (c.rg R.PRT_STAT_LINK p ≠ 0))).min?

/-- A HOLD bit of an island takes a value. -/
def Chip.holdSet (c : Chip) (i : Nat) (v : Bool) : Chip :=
  have was := c.islandHeld i
  have c := if i % 2 = 0 then c.wb R.PWR_ISL_HOLD_HOLD_P (i / 2) v else c.wb R.PWR_ISL_HOLD_HOLD_S (i / 2) v
  if v = was ∨ bit c.pw.islFailed i then c
  else if v then
    have c := { (c.setIsland i 0) with pw.islTry := c.pw.islTry.erase i, pw.islAt := c.pw.islAt.erase i }
    if i % 2 = 0 then c else forN 3 (fun j d => (d.setCell (3 * (i / 2) + j) { SmpCell.reset with prog := (d.cell (3 * (i / 2) + j)).prog }).setPath (3 * (i / 2) + j) FhCell.reset) c
  else if c.domOn (islandDom i) then c.islandUp i
  else c

/-- ISLAND_HOLD: a write of PWR_ISL_HOLD; refused while an island that it holds has an enabled unit. -/
def islandHold (b v : Nat) (c : Chip) : Chip × Nat :=
  have p := if bit v 0 && !c.rb R.PWR_ISL_HOLD_HOLD_P b then c.islandUnit b false else none
  have q := if bit v 1 && !c.rb R.PWR_ISL_HOLD_HOLD_S b then c.islandUnit b true else none
  match p, q with
  | some u, _ => (c.domRefused (9 + b / 8) 6 u, stRefused)
  | none, some u => (c.domRefused (13 + b / 8) 6 u, stRefused)
  | none, none => ((c.watch (fun c => (c.holdSet (2 * b) (bit v 0)).holdSet (2 * b + 1) (bit v 1))).portsEval, stOk)

def execIslandHold (t : Nat) (b : Fin 32) (v : Nat) (s : State) : Host.Outcome State Fault Refusal := s.on t (fun _ c => c.answered (islandHold b.val v))

/-- ISLAND_RETRY: a failed island is tried again after its delay, while its domain is ON. -/
def islandRetry (i : Nat) (ok : Bool) (c : Chip) : Chip :=
  have n := Tab.get 0 c.pw.islTry i
  have d := islandDom i
  if n = 0 ∨ c.domOn d = false ∨ c.now < Tab.get 0 c.pw.islAt i + c.retryDly d * 2 ^ (n - 1) * msPs then c
  else if ok then ((c.watch (fun c => c.islandUp i)).chipRecovered 0x12 (16 * 512 + d)).portsEval
  else c.watch (fun c => c.islandFail i)

def execIslandRetry (t : Nat) (i : Fin 81) (ok : Bool) (s : State) : Host.Outcome State Fault Refusal := s.on t (fun _ => islandRetry i.val ok)

/-- ENGINE_LOST: a trunk engine fails (R32). -/
def engineLost (e : Nat) (c : Chip) : Chip := c.watch (fun c => c.islandLost (64 + e))

def execEngineLost (t : Nat) (e : Fin 17) (s : State) : Host.Outcome State Fault Refusal := s.on t (fun _ => engineLost e.val)

/-! ## Wake sets and pins (R416 to R418) -/

/-- A wake set starts. -/
def Chip.wakeStart (c : Chip) (mask : Nat) : Chip :=
  if mask = 0 then c else ({ c with pw.wakes := c.pw.wakes ++ [{ mask := mask, issued := 0, lost := 0 }] } : Chip).domNext

/-- WAKE_SET: a write of PWR_WAKE_SET. -/
def wakeSet (v : Nat) (c : Chip) : Chip × Nat := (c.watch (fun c => c.wakeStart (bits v 0 17)), stOk)

def execWakeSet (t : Nat) (v : Nat) (s : State) : Host.Outcome State Fault Refusal := s.on t (fun _ c => c.answered (wakeSet v))

/-- An accepted event of pin i acts. An event with RESTART while EVENTIDE is complete asks for a warm reset in place of a wake set. -/
def Chip.pinEvent (c : Chip) (i : Nat) : Chip :=
  have c := { c with pw.pinAt := c.pw.pinAt.set i c.now }
  if c.rb R.PWR_WAKE_CFG_EN i = false then c
  else if c.rb R.PWR_WAKE_CFG_RESTART i ∧ c.rb R.PWR_STAT_COMPLETE 0 then { c with hp.resetAt := some c.now, el.byWake := true }
  else c.watch (fun c => c.wakeStart (c.rg R.PWR_WAKE_CFG_DOMAINS i))

/-- WAKE_PIN: pin i has been at its active level for `width` µs, which the filter accepts from MINW on. An event with RESTART while
EVENTIDE is complete asks for a warm reset in place of a wake set. -/
def wakePin (i width : Nat) (c : Chip) : Chip :=
  if width < c.rg R.PWR_WAKE_CFG_MINW i ∨ c.rbit R.PWR_WAKE_STAT_LEVEL 0 i ∨ c.rbit R.PWR_WAKE_STAT_MASKED 0 i then c
  else
    have c := { (c.wbit R.PWR_WAKE_STAT_LEVEL 0 i true) with pw.pinOn := c.pw.pinOn.set i c.now }
    match c.pw.pinAt.find i with
    | some a =>
      if c.now < a + msPs then c.inc C.PWR_WAKE_OVERRUN 0
      else c.pinEvent i
    | none => c.pinEvent i
def execWakePin (t : Nat) (i : Fin 4) (width : Nat) (s : State) : Host.Outcome State Fault Refusal := s.on t (fun _ => wakePin i.val width)

/-- WAKE_PIN_STUCK: the level has been active for STUCK. -/
def wakePinStuck (i : Nat) (c : Chip) : Chip :=
  if c.rbit R.PWR_WAKE_STAT_LEVEL 0 i ∧ Tab.get 0 c.pw.pinOn i + c.rg R.PWR_WAKE_CFG_STUCK i * secPs ≤ c.now then
    (c.wbit R.PWR_WAKE_STAT_MASKED 0 i true).wg R.PWR_EVT_WAKE_STUCK 0 1
  else c

def execWakePinStuck (t : Nat) (i : Fin 4) (s : State) : Host.Outcome State Fault Refusal := s.on t (fun _ => wakePinStuck i.val)

/-- WAKE_PIN_INACTIVE: the pin goes inactive, and its mask clears. -/
def wakePinInactive (i : Nat) (c : Chip) : Chip :=
  { ((c.wbit R.PWR_WAKE_STAT_LEVEL 0 i false).wbit R.PWR_WAKE_STAT_MASKED 0 i false) with pw.pinOn := c.pw.pinOn.erase i }

def execWakePinInactive (t : Nat) (i : Fin 4) (s : State) : Host.Outcome State Fault Refusal := s.on t (fun _ => wakePinInactive i.val)

/-! ## Operating points (R419 to R421) -/

/-- The request in flight ends; the one that waits starts. -/
def Chip.opEnd (c : Chip) (n : Nat) : Chip :=
  have c := { (c.wg R.PWR_RGN_OP_BUSY n 0) with pw.op := c.pw.op.erase n }
  match c.pw.opPend.find n with
  | some q => { ((c.wg R.PWR_RGN_OP_PEND_V n 0).wg R.PWR_RGN_OP_PEND n 0) with pw.opPend := c.pw.opPend.erase n }.opStart n q.op q.volt q.cap
  | none => c

/-- The request has reached its point: CUR follows an operating point; at TARGET a throttle is over. -/
def Chip.opDone (c : Chip) (n : Nat) (r : OpReq) : Chip :=
  have c := match r.op with
    | some k => c.wg R.PWR_RGN_OP_CUR n k
    | none => c
  have c := if c.rg R.PWR_RGN_OP_CUR n = c.rg R.PWR_RGN_OP_TARGET n then { c with pw.throttled := clrBit c.pw.throttled n } else c
  c.opEnd n

/-- A step of an OP request passes its bound: the voltage returns to its previous value, the cap stays at the lower of the two,
PWR_ATTEMPT with cause OP, and the request ends (R421, R12). -/
def Chip.opFail (c : Chip) (n : Nat) (r : OpReq) : Chip :=
  have c := c.wg R.PWR_RGN_STAT_VOLT_MV n r.prevVolt
  have c := (c.attemptErr (9 + n) n 4 0).chipRecovered 0x12 (16 * 512 + (9 + n))
  c.watch (fun c => c.opEnd n)

/-- OP_CAP_SET: the cap takes its value at a 1 µs window (R21); past the bound of 1 µs the request fails as its step 2 does (log
entry 66). -/
def opCapSet (n : Nat) (c : Chip) : Chip := match c.pw.op.find n with
  | some r =>
    if (r.step = 1 ∨ r.step = 3) ∧ c.boundPast r.at_ usPs = true then c.opFail n r
    else
    have d := c.wg R.PWR_RGN_STAT_CAP n r.cap
    if r.step = 1 then { d with pw.op := d.pw.op.set n { r with step := 2, at_ := d.now } }
    else if r.step = 3 then d.watch (fun d => d.opDone n r)
    else c
  | none => c

def execOpCapSet (t : Nat) (n : Fin 4) (s : State) : Host.Outcome State Fault Refusal := s.on t (fun _ => opCapSet n.val)

/-- OP_VOLT_READY: the voltage has settled within 2 ms. -/
def opVoltReady (n : Nat) (c : Chip) : Chip := match c.pw.op.find n with
  | some r =>
    if r.step = 2 ∧ c.now ≤ r.at_ + 2 * msPs then
      have c := c.wg R.PWR_RGN_STAT_VOLT_MV n r.volt
      if c.rg R.PWR_RGN_STAT_CAP n < r.cap then { c with pw.op := c.pw.op.set n { r with step := 3, at_ := c.now } }
      else c.watch (fun c => c.opDone n r)
    else c
  | none => c

def execOpVoltReady (t : Nat) (n : Fin 4) (s : State) : Host.Outcome State Fault Refusal := s.on t (fun _ => opVoltReady n.val)

/-- OP_VOLT_TIMEOUT: the voltage returns to its previous value, the cap stays at the lower of the two, PWR_ATTEMPT with cause OP. -/
def opVoltTimeout (n : Nat) (c : Chip) : Chip := match c.pw.op.find n with
  | some r =>
    if r.step = 2 ∧ r.at_ + 2 * msPs ≤ c.now then c.opFail n r else c
  | none => c

def execOpVoltTimeout (t : Nat) (n : Fin 4) (s : State) : Host.Outcome State Fault Refusal := s.on t (fun _ => opVoltTimeout n.val)

/-- RGN_MAN_REQUEST: a write of PWR_RGN_MAN, in LOOPBACK only; 0 requests nothing. -/
def rgnManRequest (n v : Nat) (c : Chip) : Chip × Nat :=
  if c.mode ≠ 9 then (c, stRefused)
  else
    have volt := if bits v 0 16 = 0 then c.rg R.PWR_RGN_STAT_VOLT_MV n else bits v 0 16
    have cap := if bits v 16 16 = 0 then c.rg R.PWR_RGN_STAT_CAP n else bits v 16 16
    if c.capMax n volt < cap then (c.inc C.PWR_DOM_ORDER_REFUSED (9 + n), stRefused)
    else if cap < c.rg R.HLT_PACE_REQ_REQ n then (c, stRefused)
    else
      have c := (c.wg R.PWR_RGN_MAN_VOLT_MV n (bits v 0 16)).wg R.PWR_RGN_MAN_CAP n (bits v 16 16)
      (if v % 2 ^ 32 = 0 then c else c.opReq n none volt cap, stOk)

def execRgnManRequest (t : Nat) (n : Fin 4) (v : Nat) (s : State) : Host.Outcome State Fault Refusal := s.on t (fun _ c => c.answered (rgnManRequest n.val v))

/-- On leaving LOOPBACK, a region whose voltage or cap differs from those of CUR is requested back to CUR (R420). -/
def Chip.manualBack (c : Chip) : Chip :=
  forN 4 (fun n d =>
    have k := d.rg R.PWR_RGN_OP_CUR n
    have aim := match d.pw.opPend.find n, d.pw.op.find n with
      | some q, _ => (q.volt, q.cap)
      | none, some r => (r.volt, r.cap)
      | none, none => (d.rg R.PWR_RGN_STAT_VOLT_MV n, d.rg R.PWR_RGN_STAT_CAP n)
    if aim = d.opPoint n k then d else d.opAsk n k) c

/-! ## Thermal limits (R423, R424) -/

/-- A sensor's reading in 0.1 °C; none where it has none. -/
def Chip.temp (c : Chip) (s : Nat) : Option Int := if c.rg R.PWR_TEMP_T s = 0x8000 then none else some (c.rs R.PWR_TEMP_T s)

/-- The cold plate is outside the range of the grade (R1). -/
def Chip.plateOut (c : Chip) : Bool := match c.temp 6 with
  | some x => if c.grade = 1 then decide (x < -400 ∨ 850 < x) else decide (x < -50 ∨ 700 < x)
  | none => false

/-- The thermal controller's check of region `n`. -/
def Chip.thermRegion (c : Chip) (n : Nat) : Chip :=
  if c.opIdle n = false then c
  else
    have lim := c.thermal
    have cur := c.rg R.PWR_RGN_OP_CUR n
    have target := c.rg R.PWR_RGN_OP_TARGET n
    match c.temp n with
    | none => c
    | some x =>
      if 10 * (lim.1 : Int) ≤ x then
        match c.lowerPoint n with
        | none => c
        | some k =>
          have c := ((c.opAsk n k).wg R.PWR_EVT_THROTTLE 0 1).inc C.PWR_THROTTLE_STEPS 0
          have c := { c with pw.throttled := setBit c.pw.throttled n }
          c.errRegion n (c.mkErr 0x0C 16 (9 + n) 2 0 (c.opPoint n k).2)
      else if x ≤ 10 * (lim.2.1 : Int) ∧ cur ≠ target ∧ (match c.pw.relAt.find n with
          | some a => decide (a + 100 * msPs ≤ c.now)
          | none => true) = true then
        { (c.opAsk n (if cur < target then cur + 1 else cur - 1)) with pw.relAt := c.pw.relAt.set n c.now }
      else c

/-- Has a span of `d` ps passed since an instant, if there was one? -/
def Chip.spanOver (c : Chip) (a : Option Nat) (d : Nat) : Bool := match a with
  | some t => decide (t + d ≤ c.now)
  | none => true

/-- THERMAL_CHECK: every 10 ms; the readings of the sensors in 0.1 °C, none for a sensor that gives none. -/
def thermalCheck (temps : List (Option Int)) (c : Chip) : Chip :=
  if c.spanOver c.pw.thermAt (10 * msPs) = false then c
  else
  have out := c.plateOut
  have c := { c with pw.thermAt := some c.now }
  have c := forN 7 (fun s d => match temps.getD s none with
    | some x => d.wg R.PWR_TEMP_T s (unsgn 16 x)
    | none => d.wg R.PWR_TEMP_T s 0x8000) c
  have c := if c.plateOut && !out then (c.wg R.PWR_EVT_CP_RANGE 0 1).inc C.PWR_CP_RANGE 0 else c
  have hot := (List.range 6).any (fun s => match c.temp s with
    | some x => decide (10 * (c.thermal.2.2.1 : Int) ≤ x)
    | none => false)
  have c := { c with pw.hotAt := if hot then some (c.pw.hotAt.getD c.now) else none }
  c.watch (fun c => forN 4 (fun n d => d.thermRegion n) c)

def execThermalCheck (t : Nat) (temps : List (Option Int)) (s : State) : Host.Outcome State Fault Refusal := s.on t (fun _ => thermalCheck temps)

/-- THERMAL_EVENTIDE: a die sensor has been at or above T_EVENTIDE for 100 ms; modes 1 to 10 enter EVENTIDE (R117, R424). -/
def thermalEventide (c : Chip) : Chip := match c.pw.hotAt with
  | some a => if a + 100 * msPs ≤ c.now ∧ 1 ≤ c.mode ∧ c.mode ≤ 10 then c.enterEventide 17 else c
  | none => c

def execThermalEventide (t : Nat) (s : State) : Host.Outcome State Fault Refusal := s.on t (fun _ => thermalEventide)

/-- Domains lose their supply at once: no sequence runs, every port is down, every laser gate shut. -/
def Chip.powerCut (c : Chip) (ds : List Nat) : Chip :=
  have c := (c.shutGates (List.range 16)).portsDown (List.range 128)
  ds.foldl (fun e d =>
    have e := { ((((e.setPstate d 0).wg R.PWR_DOM_STAT_BUSY d 0).wg R.PWR_DOM_STAT_IN_FLIGHT d 0).wg R.PWR_DOM_STAT_PEND_V d 0) with pw.dom := e.pw.dom.erase d }
    (e.islandsDown d 0).domLost d) c

/-- THERM_TRIP: die sensor `sn` of PWR_TEMP reads 120 °C or more (R424): every domain but AON, TIME and CTRL loses power, CTRL enters RETENTION,
THERM_TRIP_N goes low, and the terminal acts on nothing but reset. -/
def thermTrip (sn : Nat) (c : Chip) : Chip :=
  have c := c.errChip (c.mkErr 0x15 16 sn 3 3 sn)
  have c := c.watch (fun c => (c.powerCut [16, 15, 14, 13, 12, 11, 10, 9, 8, 7, 6, 5, 4, 3]).setPstate 2 1)
  { c with pw.tripped := true, el.trip := true }

def execThermTrip (t : Nat) (sn : Fin 6) (s : State) : Host.Outcome State Fault Refusal := s.on t (fun _ => thermTrip sn.val)

end Sys2Proof.Machine
end

