-- ==== Sys2Proof/Machine/Loader.lean ====
section
/-! DEFINITION. The loader (02_almanac.md R63 to R68), entry to JUBILEE and its candidate (R83 to R86). -/

namespace Sys2Proof.Machine

open Sys2Proof

/-- Offset and length of the Almanac that a flash bank's directory names; none where the directory is not valid or names none (R380). -/
def dirOk (m : Mem) (bank : Nat) : Bool :=
  have d := m.flashRead (bank * 0x20000000) 64
  decide (word d 0 = 0x4B514244) && decide (beAt d 60 4 = crc32c (d.take 60)) && [8, 16, 24, 32].all (fun o => decide (word d o % 4096 = 0 ∧ word d o + word d (o + 4) ≤ 0x20000000))
def dirArea (m : Mem) (bank o : Nat) : Nat × Nat :=
  have d := m.flashRead (bank * 0x20000000) 64
  (word d o, word d (o + 4))

/-- A load starts (R66 step 1): for a session, or for the terminal itself (4). -/
def Chip.loadStart (c : Chip) (sess src : Nat) : Chip :=
  have c := { c with alm.load := { AlmSt.reset.load with sess := sess, addr := c.rg R.ALM_LOAD_ADDR_ADDR4K 0 * 4096, src := src, at_ := c.now } }
  (((((c.wg R.ALM_LOAD_PROG_KIB 0 0).wg R.ALM_LOAD_STAT_STATE 0 1).wg R.ALM_LOAD_STAT_KIND 0 0).wg R.ALM_LOAD_STAT_CAUSE 0 0).wg R.ALM_LOAD_STAT_SECTION 0 0).wg R.ALM_LOAD_TXN_ID 0 0

/-- A load is in progress, or a delta or JUBILEE candidate waits (check 1 of R65). -/
def Chip.loadBusy (c : Chip) : Bool := decide (1 ≤ c.rg R.ALM_LOAD_STAT_STATE 0 ∧ c.rg R.ALM_LOAD_STAT_STATE 0 ≤ 4)

/-- ALM_LOAD_START: a write of ALM_LOAD_CTRL with START by a session. -/
def almLoadStart (sess v : Nat) (c : Chip) : Chip × Nat :=
  if c.loadBusy then (c, stBusy)
  else
    have c := c.wg R.ALM_LOAD_CTRL_SRC 0 (bits v 4 2)
    if bits v 4 2 = 3 then (c, stOk) else (c.loadStart sess (bits v 4 2), stOk)
def execAlmLoadStart (t : Nat) (sess : Fin 5) (v : Nat) (s : State) : Host.Outcome State Fault Refusal := s.on t (fun _ c => c.answeredIn 2 (almLoadStart sess.val v))

/-- The transaction of a prepared delta or candidate takes a slot, or waits for one (R66 step 4). ALM_GEN_CAND then names it. -/
def Chip.loadTxn (c : Chip) (p : Prepared) : Chip :=
  match c.txnFree with
  | none => if c.alm.load.waiting then c else { c with alm.load.waiting := true, alm.load.at_ := c.now }
  | some slot =>
    have r := c.txnOpen slot c.alm.load.sess (if p.full then .jubilee else .delta)
    have c := { (r.1.wg R.ALM_LOAD_TXN_ID 0 r.2) with alm.load.waiting := false }
    have c := (if p.full then c.wg R.ALM_JUB_STAT_TXN 0 r.2 else c).wg R.ALM_GEN_CAND_GEN 0 p.gen
    if c.rg R.ALM_LOAD_STAT_STATE 0 = 4 then c else c.loadState 4 0 0

/-- STATE of ALM_JUB_STAT in JUBILEE by what is resident (R86). A kept candidate with no commit transaction gets one where JUBILEE is
READY (R66). -/
def Chip.jubReady (c : Chip) : Chip :=
  if c.mode = 10 ∧ c.rg R.ALM_JUB_STAT_STATE 0 ≠ 3 then
    have ready := c.rb R.ALM_JUB_STAT_CAND_ALM 0 && c.rb R.ALM_JUB_STAT_CAND_FW 0
    have c := match c.alm.cand with
      | some p => if (ready || decide (c.rg R.ALM_LOAD_STAT_STATE 0 = 3)) && !c.alm.load.waiting && !c.alm.txns.any (fun (x : Txn) => decide (x.origin = TxnOrigin.jubilee)) then { c with alm.load.prep := some p }.loadTxn p else c
      | none => c
    c.jubState (if ready then 2 else 1)
  else c

/-- ALM_READ_DONE: the 32-byte header, then the rest, could be read (`hdrOk`, `restOk`); a flash image is copied to DDR5 (R64, checks 2, 3). -/
def almReadDone (hdrOk restOk : Bool) (m : Mem) (c : Chip) : Chip :=
  if c.rg R.ALM_LOAD_STAT_STATE 0 ≠ 1 then c
  else
    have ld := c.alm.load
    have flash := decide (ld.src ≠ 0)
    have dir := dirArea m (ld.src - 1) 24
    have src := (ld.src - 1) * 0x20000000 + dir.1
    have img := fun (n : Nat) => if flash then m.flashRead src n else m.ddrRead ld.addr n
    have len := if flash then dir.2 else word (img 32) 16
    have there := c.ddrOk && (!flash || (dirOk m (ld.src - 1) && decide (dir.2 ≠ 0))) && decide (ld.addr + 32 ≤ c.ddrCap)
    if hdrOk = false ∨ there = false then c.loadFail 3 0
    else
      have delta := decide (byteAt (img 32) 6 = 1)
      have c := c.wb R.ALM_LOAD_STAT_KIND 0 delta
      if (delta = true ∧ c.mode ≠ 5) ∨ (delta = false ∧ c.mode ≠ 0 ∧ c.mode ≠ 10) then c.loadFail 2 0
      else if restOk = false ∨ c.ddrCap < ld.addr + len then c.loadFail 3 0
      else
        have c := if flash then c.mem (.ddr ld.addr (img len)) else c
        ({ c with alm.load.len := len, alm.load.full := !delta, alm.load.at_ := c.now }.wg R.ALM_LOAD_STAT_STATE 0 2).wg R.ALM_LOAD_PROG_KIB 0 0
def execAlmReadDone (t : Nat) (hdrOk restOk : Bool) (s : State) : Host.Outcome State Fault Refusal := s.on t (fun m => almReadDone hdrOk restOk m)

/-- ALM_VERIFY_DONE: checks 4 to 17 are made; preparation begins (R66 step 3, R68, R422). -/
def almVerifyDone (m : Mem) (c : Chip) : Chip :=
  if c.rg R.ALM_LOAD_STAT_STATE 0 ≠ 2 then c
  else
    have img := m.ddrRead c.alm.load.addr c.alm.load.len
    match c.verify img (decide (c.mode = 10)) with
    | some e => c.loadFail e.1 e.2
    | none =>
      have p := c.preparedOf img
      have c := { ((c.wg R.ALM_LOAD_STAT_STATE 0 3).wg R.ALM_LOAD_PROG_KIB 0 0) with alm.load.prep := some p, alm.load.at_ := c.now }
      if p.full = true ∧ c.mode = 0 then c.watch (fun c => c.loaderPower)
      else
        have c := c.deltaPrepare p
        if p.full then c.watch (fun c => c.loaderPower) else c
def execAlmVerifyDone (t : Nat) (s : State) : Host.Outcome State Fault Refusal := s.on t (fun m => almVerifyDone m)

/-- ALM_PREPARE_DONE: a full Almanac in ASSEMBLY is applied; a delta or a candidate opens its transaction (R66 step 4, R67). -/
def almPrepareDone (m : Mem) (c : Chip) : Chip :=
  match c.alm.load.prep with
  | none => c
  | some p =>
    if c.rg R.ALM_LOAD_STAT_STATE 0 ≠ 3 ∨ (p.full = true ∧ c.loaderReady p = false) then c
    else if p.full then
      if c.mode = 0 then c.watch (fun c => ((c.fullApply m p).loadState 5 0 0))
      else
        have c := { ((c.wg R.ALM_JUB_STAT_CAND_ALM 0 1).wg R.ALM_GEN_CAND_GEN 0 p.gen) with alm.cand := some p }
        if c.mode = 10 then (c.loadTxn p).jubReady else c.loadState 4 0 0
    else c.loadTxn p
def execAlmPrepareDone (t : Nat) (s : State) : Host.Outcome State Fault Refusal := s.on t (fun m => almPrepareDone m)

/-- ALM_SLOT_FREED: a slot is free for the load that waits; a candidate takes one in JUBILEE only. -/
def almSlotFreed (c : Chip) : Chip := match c.alm.load.waiting, c.alm.load.prep, c.txnFree with
  | true, some p, some _ => if p.full = true ∧ c.mode ≠ 10 then c else (c.loadTxn p).jubReady
  | _, _, _ => c
def execAlmSlotFreed (t : Nat) (s : State) : Host.Outcome State Fault Refusal := s.on t (fun _ => almSlotFreed)

/-- The candidate Almanac is gone. -/
def Chip.candGone (c : Chip) : Chip := ({ (c.wg R.ALM_JUB_STAT_CAND_ALM 0 0) with alm.cand := none } : Chip).jubReady

/-- ALM_SLOT_TIMEOUT: no slot within 2 s. -/
def almSlotTimeout (c : Chip) : Chip :=
  if c.alm.load.waiting ∧ c.alm.load.at_ + 2 * secPs ≤ c.now then
    have full := c.alm.load.full
    have c := c.loadFail 1 0
    if full then c.candGone else c
  else c
def execAlmSlotTimeout (t : Nat) (s : State) : Host.Outcome State Fault Refusal := s.on t (fun _ => almSlotTimeout)

/-- The domains that the loader has brought up go back to OFF (R422). -/
def Chip.loaderBack (c : Chip) : Chip :=
  c.alm.load.domains.reverse.foldl (fun d e => if d.pstate e = 3 then d else d.domReq e 0 false) { c with alm.load.domains := [] }

/-- ALM_LOAD_CANCEL: a load that is not over fails with cause CANCELLED; the transaction of a READY load aborts (R66). -/
def Chip.loadCancel (c : Chip) : Chip :=
  if c.loadBusy = false then c
  else
    have full := c.alm.load.full
    have c := { c with alm.load.cancelled := true }
    match c.alm.txns.find? (fun x => decide (x.origin = .delta ∨ x.origin = .jubilee)) with
    | some x => c.txnAbort x 7 0 false
    | none =>
      have c := if full then c.watch (fun c => c.loaderBack) else c
      have c := c.loadFail 20 0
      if full = true ∧ c.mode ≠ 0 then c.candGone else c
def almLoadCancel (c : Chip) : Chip × Nat := (c.loadCancel, stOk)
def execAlmLoadCancel (t : Nat) (s : State) : Host.Outcome State Fault Refusal := s.on t (fun _ c => c.answeredIn 2 almLoadCancel)

/-- ALM_ARB_ADVANCE: a write of ALM_ARB. COUNT rises to TARGET where R63 allows it. -/
def almArbAdvance (v : Nat) (c : Chip) : Chip × Nat :=
  have target := bits v 8 6
  have d := c.wg R.ALM_ARB_TARGET 0 target
  have low := min (Tab.get 0 c.alm.sectGen 9) (Tab.get 0 c.alm.sectGen 10) / 0x04000000
  if bit v 16 = false then (d, stOk)
  else if c.mode = 0 ∨ target ≤ c.arbCount ∨ low < target then (c, stRefused)
  else
    have fs := blow d.sec.fuses 2056 (2 ^ target - 1)
    ({ d with sec.fuses := fs, sec.fuseImg := blow d.sec.fuseImg 2056 (2 ^ target - 1) }, stOk)
def execAlmArbAdvance (t : Nat) (v : Nat) (s : State) : Host.Outcome State Fault Refusal := s.on t (fun _ c => c.answeredIn 2 (almArbAdvance v))

/-! ## Accesses that are held (R81) -/

/-- An access that is held is remembered for whom it waits: a session 0 to 3, 8 for an answer of its own, 9 for nobody, 16 + j for
core j, 32 + ch for a DMA channel (R81). -/
def Chip.park (c : Chip) (a v sess : Nat) : Chip := { c with alm.held := c.alm.held ++ [({ addr := a, data := v, sess := sess } : HeldWrite)] }

/-- A held write also counts. -/
def Chip.hold (c : Chip) (a v sess : Nat) : Chip := (c.park a v sess).wsat R.ALM_SHADOW_HELD_COUNT 0 (c.rg R.ALM_SHADOW_HELD_COUNT 0 + 1)

/-! ## JUBILEE (R83, R86) -/

/-- JUB_ENTER: ENTER in OPERATIONAL. A candidate kept from an earlier JUBILEE gets a new transaction. -/
def jubEnter (c : Chip) : Chip × Nat :=
  if c.mode ≠ 5 then (c, stRefused)
  else
    have c := c.setMode 10 16
    (c.jubReady, stOk)
def execJubEnter (t : Nat) (s : State) : Host.Outcome State Fault Refusal := s.on t (fun _ c => c.answeredIn 2 jubEnter)

/-- CANCEL: the candidate is discarded, and the terminal returns to OPERATIONAL (R86, R373). -/
def Chip.jubCancel (c : Chip) : Chip :=
  have was := c.mode
  have c := if c.alm.load.full then c.loadCancel else c
  have c := c.dropCandidate
  if was = 10 then
    have c := c.setMode 5 16
    c.jubState 0
  else c

/-- CANCEL takes effect. Outside JUBILEE it discards a resident candidate and leaves the mode; with none it is refused (log
entry 72). -/
def jubCancel (c : Chip) : Chip × Nat :=
  if c.mode ≠ 10 ∧ c.rb R.ALM_JUB_STAT_CAND_ALM 0 = false ∧ c.rb R.ALM_JUB_STAT_CAND_FW 0 = false then (c, stRefused)
  else (c.jubCancel, stOk)

/-- JUB_CANCEL: a write of CANCEL; inside a hand-over window it is held like any write, and answered when it lands (R81). -/
def jubCancelRow (c : Chip) : Chip := if c.domOn 2 ∧ c.alm.window then c.hold R.ALM_JUB_CTRL_ENTER.reg 2 8 else c.answeredIn 2 jubCancel
def execJubCancel (t : Nat) (s : State) : Host.Outcome State Fault Refusal := s.on t (fun _ => jubCancelRow)

/-- JUB_OLD_RELEASED: the old rule generation has drained and the old tasks have retired (R83 step 6). -/
def jubOldReleased (c : Chip) : Chip :=
  if c.alm.oldHeld ∧ c.rg R.ALM_RULE_GEN_LIVE 0 ≤ 1 ∧ c.mc.retiring = [] then { c with alm.oldHeld := false } else c
def execJubOldReleased (t : Nat) (s : State) : Host.Outcome State Fault Refusal := s.on t (fun _ => jubOldReleased)

end Sys2Proof.Machine
end

