-- ==== Sys2Proof/Machine/Boot.lean ====
section
/-! DEFINITION. The boot (13_security.md R378 to R385) and the check of a candidate Omlia (R384). -/

namespace Sys2Proof.Machine

open Sys2Proof

/-- Longest firmware image (R379). -/
def maxFw : Nat := 67116160

/-- Image `kind` (1 stage 1, 2 Omlia) of a boot source, 0 and 1 the flash banks, 2 the images that a host put in DDR5 (R382), with the
length that the directory, or the place in DDR5, gives it. An image that DDR5 does not hold whole is empty. -/
def Chip.bootImage (c : Chip) (m : Mem) (src kind : Nat) : List Byte × Nat :=
  if src < 2 then
    have a := dirArea m src (8 * kind)
    (m.flashRead (src * 0x20000000 + a.1) (min a.2 maxFw), a.2)
  else
    have at1 := c.rg R.SEC_BOOT_ADDR_ADDR4K 0 * 4096
    have len1 := 7296 + beAt (m.ddrRead at1 64) 16 4
    have at_ := if kind = 1 then at1 else at1 + cdiv len1 4096 * 4096
    have len := 7296 + beAt (m.ddrRead at_ 64) 16 4
    if len ≤ maxFw ∧ at_ + len ≤ c.ddrCap then (m.ddrRead at_ len, len) else ([], len)

/-- HALTED with a CAUSE (R382): M stands as step 1 left it. A retry that ends sets DONE. -/
def Chip.bootHalt (c : Chip) (retry : Bool) (cause : Nat) : Chip :=
  have c := ((c.wg R.SEC_BOOT_STAT_STAGE 0 4).wg R.SEC_BOOT_STAT_CAUSE 0 cause).wg R.SEC_EVT_BOOT_HALT 0 1
  have c := if retry then c.wg R.SEC_EVT_DONE 0 1 else c
  { c with sec.bootTry := [] }

/-- The spares that remain by the swap record of the boot bank (HLT_SPARE_CELLS, HLT_SPARE_CHIP). -/
def Chip.spareReport (c : Chip) (m : Mem) : Chip :=
  have fall := fun (f : Fld) (d : Chip) => d.wg f 0 (d.rg f 0 - 1)
  (c.swapEntries m).foldl (fun d e =>
    match wearKind (half e 2) with
    | 0 => fall R.HLT_SPARE_CELLS_PORT d
    | 1 => fall R.HLT_SPARE_CELLS_PIPE d
    | 2 => fall R.HLT_SPARE_CELLS_SAMPLE d
    | 3 => fall R.HLT_SPARE_CHIP_TRK_ENG d
    | 4 => fall R.HLT_SPARE_CHIP_TRK_LASER d
    | 5 => fall R.HLT_SPARE_CHIP_LOC_LASER d
    | 6 => fall R.HLT_SPARE_CHIP_MCU d
    | 8 => fall R.HLT_SPARE_CHIP_HBM_PC d
    | 9 => fall R.HLT_SPARE_CHIP_DDR_RANK d
    | _ => fall R.HLT_SPARE_CHIP_OVEN d) c

/-- Step 4 over the sources in turn. `cause` is that of the failure before. -/
def bootStep4 (m : Mem) : List Nat → Bool → Nat → Chip → Chip
  | [], retry, cause, c => c.bootHalt retry cause
  | b :: rest, retry, _, c =>
    if b < 2 ∧ dirOk m b = false then bootStep4 m rest retry 1 c
    else
      have img := c.bootImage m b 1
      have cause := c.imageCause img.1 img.2 1
      if cause ≠ 0 then bootStep4 m rest retry cause c
      else
        have d := sha3_512 img.1
        have c := (c.extendM 2 d).wg R.SEC_BOOT_STAT_STAGE 0 1
        have c := if b < 2 then c.wg R.SEC_BOOT_STAT_BANK 0 b else c
        have body := (slice img.1 64 (beAt img.1 16 4)).zipIdx.filterMap (fun (x : Byte × Nat) => if x.1 = 0 then none else some (x.2, x.1))
        { c with sec.dStage1 := d, sec.bootTry := b :: rest, sec.bootStep := 4, mc.lmem := c.mc.lmem.set 0 body }

/-- Step 1 and step 2: the ROM starts with BOOT_SEL sampled, M takes type 1, the check codes of the fuses are checked (`fusesGood`),
the identity key pair is derived. -/
def bootStart (bootSel : Nat) (fusesGood : Bool) (c : Chip) : Chip :=
  if c.sec.bootStep ≠ 0 ∨ c.rg R.SEC_BOOT_STAT_STAGE 0 ≠ 0 then c
  else
    have c := ({ c with sec.bootSel := bootSel, sec.fuseImg := c.sec.fuses } : Chip).extendRom.wb R.SEC_STAT_ENT_OK 0 (!c.sec.entBad)
    if fusesGood = false then (c.alarmStart (2 ^ 6)).bootHalt false 5
    else
      have c := if c.sec.entBad ∨ c.alarmHolds then { c with sec.idDue := true } else { (c.wg R.SEC_STAT_ID_READY 0 1) with sec.idDue := false }
      { c with sec.bootStep := 2 }
def execBootStart (t : Nat) (bootSel : Fin 4) (fusesGood : Bool) (s : State) : Host.Outcome State Fault Refusal := s.on t (fun _ => bootStart bootSel.val fusesGood)

/-- The order of the banks by BOOT_SEL (R382). -/
def bankOrder (m : Mem) (sel : Nat) : List Nat :=
  have gen := fun (b : Nat) => beAt (m.flashRead (b * 0x20000000) 64) 4 4
  have both := dirOk m 0 && dirOk m 1
  have first1 := if both then (if sel = 3 then decide (gen 1 < gen 0) else decide (gen 0 < gen 1)) else dirOk m 1
  match sel with
  | 1 => [0]
  | 2 => [1]
  | _ => if first1 then [1, 0] else [0, 1]

/-- Step 3 ends and step 4 runs: the DIMMs found, ranks and GiB of each, and whether they keep the rules of R453 and the training
passed. -/
def bootDdrTrained (dimms ranks cap : Nat) (ok : Bool) (m : Mem) (c : Chip) : Chip :=
  if c.sec.bootStep ≠ 2 ∨ c.rg R.SEC_BOOT_STAT_STAGE 0 ≠ 0 then c
  else if ok = false ∨ dimms < 1 ∨ 2 < dimms ∨ ranks < 1 ∨ 2 < ranks ∨ cap < 16 ∨ 256 < cap then c.bootHalt false 6
  else
    have all := dimms * ranks
    have spare := c.rb R.MEM_DDR_CFG_SPARE_RANK 0 && decide (2 ≤ all)
    have use := if spare then all - 1 else all
    have c := (((c.wg R.MEM_DDR_STAT_TRAINED 0 1).wg R.MEM_DDR_STAT_DIMMS 0 dimms).wg R.MEM_DDR_STAT_RANKS 0 use).wg R.MEM_DDR_STAT_RATE 0 (if dimms = 1 then 64 else 56)
    have c := ({ c with pw.scrubAt := c.now }.wg R.MEM_DDR_STAT_CAP 0 (cap / ranks * use)).wb R.HLT_SPARE_CHIP_DDR_RANK 0 spare
    bootStep4 m (bankOrder m c.sec.bootSel) false 1 c
def execBootDdrTrained (t dimms ranks cap : Nat) (ok : Bool) (s : State) : Host.Outcome State Fault Refusal :=
  s.on t (fun m => bootDdrTrained dimms ranks cap ok m)

/-- Step 5: Omlia of the same source is read into DDR5 and verified. On a failure M returns to its value after step 1, and the
other bank is tried from step 4. Where stage 1 puts Omlia in DDR5 is open. -/
def bootStage1Run (m : Mem) (c : Chip) : Chip :=
  match c.sec.bootTry with
  | [] => c
  | b :: rest =>
    if c.sec.bootStep ≠ 4 then c
    else
      have img := c.bootImage m b 2
      have cause := c.imageCause img.1 img.2 2
      if cause ≠ 0 then
        bootStep4 m rest (decide (b = 2)) cause { (c.extendRom.wg R.SEC_BOOT_STAT_STAGE 0 0) with sec.bootStep := 2 }
      else
        have d := sha3_512 img.1
        have r := c.draw
        have c := if b = 2 then c else r.2.mem (.ddr (r.1 % (c.ddrCap - img.1.length + 1)) img.1)
        have c := (c.extendM 3 d).wg R.SEC_BOOT_STAT_STAGE 0 2
        have entry := forN 16 (fun j (e : Tab Nat) => e.set j (beAt img.1 12 4)) c.mc.entry
        { c with sec.dOmlia := d, sec.omliaVer := beAt img.1 8 4, sec.bootStep := 5, mc.entry := entry }
def execBootStage1Run (t : Nat) (s : State) : Host.Outcome State Fault Refusal := s.on t (fun m => bootStage1Run m)

/-- After a cold start, Omlia seeds the model of each resonator from its block of the ARCHIVE area of a bank (R290, R372, R429). -/
def Chip.oscSeed (c : Chip) (m : Mem) (b : Nat) : Chip :=
  if c.tm.seeded = true ∨ 2 ≤ b then c
  else
    have block := m.flashRead (c.archBase m + 65536) (c.archLen m - 65536)
    have osc := forN 3 (fun n (t : Tab OscModel) => match Config.vigilSeed block n with
      | some x => t.set n { aging := x.1, curve := x.2 }
      | none => t) c.tm.osc
    { c with tm.osc := osc, tm.seeded := true }

/-- Step 6: Omlia is released to all cores; the Almanac that the directory of a bank names is loaded, owned by no session. -/
def bootOmliaVerified (m : Mem) (c : Chip) : Chip :=
  match c.sec.bootTry with
  | [] => c
  | b :: _ =>
    if c.sec.bootStep ≠ 5 then c
    else
      have c := (({ (c.wg R.SEC_BOOT_STAT_STAGE 0 3) with sec.bootTry := [], sec.bootStep := 6, mc.released := true } : Chip).spareReport m).oscSeed m b
      if b = 2 then c.wg R.SEC_EVT_DONE 0 1
      else if (dirArea m b 24).2 ≠ 0 ∧ c.loadBusy = false then c.loadStart 4 (b + 1)
      else c
def execBootOmliaVerified (t : Nat) (s : State) : Host.Outcome State Fault Refusal := s.on t (fun m => bootOmliaVerified m)

/-- BOOT_RETRY: RETRY in SEC_BOOT_CTRL runs steps 4 and 5 again from DDR5; refused unless HALTED. -/
def bootRetry (m : Mem) (c : Chip) : Chip × Nat :=
  if c.rg R.SEC_BOOT_STAT_STAGE 0 ≠ 4 then (c, stRefused)
  else
    have c := (c.wg R.SEC_BOOT_STAT_STAGE 0 0).wg R.SEC_BOOT_STAT_CAUSE 0 0
    if c.ddrOk then (bootStep4 m [2] true 2 { c with sec.bootStep := 2 }, stOk) else (c.bootHalt true 6, stOk)
def execBootRetry (t : Nat) (s : State) : Host.Outcome State Fault Refusal := s.on t (fun m c => c.answeredIn 3 (bootRetry m))

/-- FW_CAND_VERIFY_DONE: the check of the candidate ends; a valid one sets CAND_FW (R384). -/
def fwCandVerifyDone (m : Mem) (c : Chip) : Chip :=
  match c.sec.candOp with
  | none => c
  | some (a, len) =>
    have img := if c.ddrOk ∧ a + len ≤ c.ddrCap ∧ len ≤ maxFw then m.ddrRead a len else []
    have cause := c.imageCause img len 2
    have c := { (c.wg R.SEC_EVT_DONE 0 1) with sec.candOp := none }
    if cause ≠ 0 then (c.wg R.SEC_FW_CAND_CTRL_STATE 0 3).wg R.SEC_FW_CAND_CTRL_CAUSE 0 cause
    else
      have c := ((c.wg R.SEC_FW_CAND_CTRL_STATE 0 2).wg R.SEC_FW_CAND_CTRL_CAUSE 0 0).wg R.ALM_JUB_STAT_CAND_FW 0 1
      ({ c with sec.cand := some (sha3_512 img, beAt img 8 4) } : Chip).jubReady
def execFwCandVerifyDone (t : Nat) (s : State) : Host.Outcome State Fault Refusal := s.on t (fun m => fwCandVerifyDone m)

end Sys2Proof.Machine
end

