-- ==== Sys2Proof/Machine/DmaRegs.lean ====
section
/-! DEFINITION. The registers of the DMA channels and what starts and stops them (11_host_control_and_dma.md R350 to R353,
R355). -/

namespace Sys2Proof.Machine

open Sys2Proof

/-- HEAD ≠ TAIL: the ring holds descriptors. -/
def Chip.dmaHas (c : Chip) (ch : Nat) : Bool := decide (c.rg R.DMA_CH_HEAD_HEAD ch ≠ c.rg R.DMA_CH_TAIL_TAIL ch)

/-- Work waits on a channel: a descriptor in progress, or one in the ring. -/
def Chip.dmaWork (c : Chip) (ch : Nat) : Bool := (c.hp.dma.find ch).isSome || c.dmaHas ch

/-- The level line that a REQUEST channel names is asserted (R351). -/
def Chip.dmaLine (c : Chip) (ch : Nat) : Bool :=
  have r := c.rg R.DMA_CH_CFG_REQ ch
  decide (c.rg R.DMA_CH_CFG_TRIG ch = 3 ∧ 3 ≤ r) && c.rbit R.DMA_SWREQ_REQ 0 (r - 3)

/-- A channel that is enabled and neither busy nor stopped goes on: it is busy where work waits and its trigger allows, else it
waits for a trigger or is idle. -/
def Chip.dmaGo (c : Chip) (ch : Nat) : Chip :=
  if c.dmaWork ch = false then c.wg R.DMA_CH_STAT_STATE ch 1
  else if c.rg R.DMA_CH_CFG_TRIG ch = 0 ∨ c.dmaLine ch then c.wg R.DMA_CH_STAT_STATE ch 2
  else if Tab.get 0 c.hp.dmaTrig ch ≠ 0 then { (c.wg R.DMA_CH_STAT_STATE ch 2) with hp.dmaTrig := c.hp.dmaTrig.erase ch }
  else c.wg R.DMA_CH_STAT_STATE ch 3

/-- Is the channel enabled and not stopped? -/
def Chip.dmaLive (c : Chip) (ch : Nat) : Bool := c.rb R.DMA_CH_CFG_EN ch && decide (c.rg R.DMA_CH_STAT_STATE ch ≠ 4)

/-- A trigger, or a pulse of a request line (R351): it makes a channel with work busy; a busy channel holds one more. -/
def Chip.dmaTrigger (c : Chip) (ch : Nat) : Chip :=
  if c.dmaLive ch = false then c
  else if c.rg R.DMA_CH_STAT_STATE ch = 2 then
    if Tab.get 0 c.hp.dmaTrig ch = 0 then { c with hp.dmaTrig := c.hp.dmaTrig.set ch 1 } else c.inc C.DMA_TRIG_LOST ch
  else if c.dmaWork ch then c.wg R.DMA_CH_STAT_STATE ch 2
  else c

/-- DMA_TAIL_WRITE: descriptors are handed to the engine. -/
def dmaTailWrite (ch v : Nat) (c : Chip) : Chip × Nat :=
  have c := c.wg R.DMA_CH_TAIL_TAIL ch v
  (if c.dmaLive ch ∧ c.rg R.DMA_CH_STAT_STATE ch ≠ 2 then c.dmaGo ch else c, stOk)
def execDmaTailWrite (t : Nat) (ch : Fin 64) (v : Nat) (s : State) : Host.Outcome State Fault Refusal :=
  s.on t (fun _ c => c.answeredIn 6 (dmaTailWrite ch.val v))

/-- DMA_CH_CFG_WRITE by an owner: a session s is s + 1, the management cores 0. Disabling a channel stops it as STOP does. -/
def dmaChCfgWrite (ch owner v : Nat) (c : Chip) : Chip × Nat :=
  have en := c.rb R.DMA_CH_CFG_EN ch
  if bits v 8 3 = 7 ∨ bits v 16 5 < 2 ∨ 16 < bits v 16 5 then (c, stRefused)
  else if en ∧ c.rg R.DMA_CH_CFG_OWNER ch ≠ owner then (c, stAccess)
  else if en ∧ (bits v 1 2 ≠ c.rg R.DMA_CH_CFG_TRIG ch ∨ bits v 4 1 ≠ c.rg R.DMA_CH_CFG_EVT_EN ch ∨ bits v 8 3 ≠ c.rg R.DMA_CH_CFG_REQ ch ∨
      bits v 16 5 ≠ c.rg R.DMA_CH_CFG_SIZE_LOG2 ch) then (c, stRefused)
  else
    have c := ((c.wg R.DMA_CH_CFG_EN ch (bits v 0 1)).wg R.DMA_CH_CFG_TRIG ch (bits v 1 2)).wg R.DMA_CH_CFG_PRIO ch (bits v 3 1)
    have c := ((c.wg R.DMA_CH_CFG_EVT_EN ch (bits v 4 1)).wg R.DMA_CH_CFG_REQ ch (bits v 8 3)).wg R.DMA_CH_CFG_SIZE_LOG2 ch (bits v 16 5)
    have c := c.wg R.DMA_CH_CFG_OWNER ch owner
    if en = bit v 0 then (c, stOk)
    else if en then
      have c := c.dmaStop ch
      (if (c.hp.dma.find ch).isSome then c else { (c.wg R.DMA_CH_STAT_STATE ch 0) with hp.dmaTrig := c.hp.dmaTrig.erase ch }, stOk)
    else ({ c with hp.dmaAt := c.hp.dmaAt.set ch c.eNow }.dmaGo ch, stOk)
def execDmaChCfgWrite (t : Nat) (ch : Fin 64) (owner : Fin 5) (v : Nat) (s : State) : Host.Outcome State Fault Refusal :=
  s.on t (fun _ c => c.answeredIn 6 (dmaChCfgWrite ch.val owner.val v))

/-- A write of DMA_CH_CTRL: STOP, START, RESET_RING. -/
def dmaCtrl (ch v : Nat) (c : Chip) : Chip × Nat :=
  have st := c.rg R.DMA_CH_STAT_STATE ch
  if bit v 2 ∧ st ≠ 0 ∧ st ≠ 4 then (c, stRefused)
  else
    have c := if bit v 2 then c.wg R.DMA_CH_HEAD_HEAD ch 0 else c
    have c := if bit v 0 then c.dmaStop ch else c
    (if bit v 1 ∧ st = 4 ∧ c.rb R.DMA_CH_CFG_EN ch = true then c.dmaGo ch else c, stOk)
def execDmaStop (t : Nat) (ch : Fin 64) (s : State) : Host.Outcome State Fault Refusal := s.on t (fun _ c => c.answeredIn 6 (dmaCtrl ch.val 1))
def execDmaStart (t : Nat) (ch : Fin 64) (s : State) : Host.Outcome State Fault Refusal := s.on t (fun _ c => c.answeredIn 6 (dmaCtrl ch.val 2))
def execDmaResetRing (t : Nat) (ch : Fin 64) (s : State) : Host.Outcome State Fault Refusal := s.on t (fun _ c => c.answeredIn 6 (dmaCtrl ch.val 4))

/-- DMA_SWREQ: a level line counts as a request for as long as it is asserted. -/
def dmaSwreq (v : Nat) (c : Chip) : Chip × Nat :=
  (forN 64 (fun ch d => if d.dmaLive ch ∧ d.rg R.DMA_CH_STAT_STATE ch = 3 ∧ d.dmaLine ch = true ∧ d.dmaWork ch = true then d.wg R.DMA_CH_STAT_STATE ch 2 else d)
    (c.wg R.DMA_SWREQ_REQ 0 v), stOk)
def execDmaSwreq (t : Nat) (v : Nat) (s : State) : Host.Outcome State Fault Refusal := s.on t (fun _ c => c.answeredIn 6 (dmaSwreq v))

/-- DMA_TIMER_TICK: PERIOD µs of elapsed local time have passed on a TIMER channel. -/
def dmaTimerTick (ch : Nat) (c : Chip) : Chip :=
  have due := Tab.get 0 c.hp.dmaAt ch + c.rg R.DMA_CH_TIMER_PERIOD ch * usU
  if c.rb R.DMA_CH_CFG_EN ch ∧ c.rg R.DMA_CH_CFG_TRIG ch = 1 ∧ due ≤ c.eNow then
    { c with hp.dmaAt := c.hp.dmaAt.set ch due }.dmaTrigger ch
  else c
def execDmaTimerTick (t : Nat) (ch : Fin 64) (s : State) : Host.Outcome State Fault Refusal := s.on t (fun _ => dmaTimerTick ch.val)

/-- DMA_REQUEST: a pulse of line 0 (per-second latch), 1 (Octave boundary) or 2 (PPS_OUT[0] edge). -/
def dmaRequest (line : Nat) (c : Chip) : Chip :=
  have n := Tab.get 0 c.hp.lineDue line
  if n = 0 then c
  else forN 64 (fun ch d => if d.rg R.DMA_CH_CFG_TRIG ch = 3 ∧ d.rg R.DMA_CH_CFG_REQ ch = line then d.dmaTrigger ch else d) { c with hp.lineDue := c.hp.lineDue.set line (n - 1) }
def execDmaRequest (t : Nat) (line : Fin 3) (s : State) : Host.Outcome State Fault Refusal := s.on t (fun _ => dmaRequest line.val)

end Sys2Proof.Machine
end

