-- ==== Sys2Proof/Machine/Board.lean ====
section
/-! DEFINITION. Supplies and resets (15_electrical_mechanical.md R442 to R448, 16_register_map.md R466). These commands act whatever
the supplies: they go through `State.onAny`. -/

namespace Sys2Proof.Machine

open Sys2Proof

/-! ## What a reset leaves -/

/-- A fuse or flash operation that loses its supply or is cut by a reset: which bits it blew, what its flash area or its DDR5 buffer
holds, is open (log entries 25, 26). -/
def Chip.opsCut (c : Chip) (fuse : Bool) : Chip :=
  have c := match c.sec.fuseOp with
    | some (g, ws) =>
      if fuse then
        have r := c.draw
        { r.2 with sec.fuses := c.sec.fuses ||| (fuseBits g ws &&& r.1), sec.fuseOp := none }
      else c
    | none => c
  match c.sec.flashOp with
  | some (op, a, d) =>
    have r := c.draw
    have junk := fun (n : Nat) => (List.range n).map (fun i => BitVec.ofNat 8 (r.1 / 256 ^ i))
    have c := { r.2 with sec.flashOp := none }
    match op with
    | 1 => c.mem (.flash a (junk 65536))
    | 2 => c.mem (.flash a (junk 4096))
    | _ => c.mem (.ddr d (junk 4096))
  | none => c

/-- The chip without its supplies (R446, R447): it is as a cold reset leaves it, but for what is not kept in a powered store: fuses, the
latches of R150 and R424, the pins, and, with AON powered (`aon`), the conditions of the alarm sensors, whose sources stay unreleased
(R402). DDR5 loses its content. -/
def Chip.supplyLost (c : Chip) (aon : Bool) (el : ElecSt) : Chip :=
  have c := (c.shutGates (List.range 16)).opsCut true
  have act := if aon then c.rg R.SEC_ALARM_STAT_ACTIVE 0 else 0
  have sec : SecSt := { SecSt.reset with fuses := c.sec.fuses, fuseImg := c.sec.fuses, fuseDone := c.sec.fuseDone }
  have d : Chip := { Chip.reset with now := c.now, fresh := c.fresh, out := c.out, mout := c.mout, sec := sec, el := el }
  have d := { d with pt.lit := c.pt.lit, tm.timeVio := c.tm.timeVio, pw.pinOn := c.pw.pinOn, pw.pinAt := c.pw.pinAt }
  have d := (d.wg R.TRK_GUARD_STAT_QUAR 0 (c.rg R.TRK_GUARD_STAT_QUAR 0)).wg R.SEC_ALARM_STAT_ACTIVE 0 act
  (d.wg R.SEC_ALARM_STAT_RELEASE 0 act).mem .ddrLost

/-- The board side enters a phase now. -/
def Chip.phase (c : Chip) (n : Nat) : Chip := { c with el.phase := n, el.at_ := c.now }

/-- A field that a warm reset leaves (R466): RWS fields and those marked kept of the domains that stay ON. -/
def keptKey (k : Nat) : Bool :=
  decide (domAt (k / 32) ≤ 5) && (fieldsAt (k / 32)).any (fun f => decide (f.lsb = k % 32) && (decide (f.acc = .rws) || f.kept))

/-- A warm reset with its CAUSE (R445, R466): transactions abort, keys are erased (R401), TIME runs on (R264), counters stay (R465),
every domain that R408 does not start is OFF. -/
def Chip.warmReset (c : Chip) (cause : Nat) : Chip :=
  have c := (c.residency.txnAbortAll 9 false (fun _ => true)).abortAnswer.eraseKeys
  have c := ((c.shutGates (List.range 16)).opsCut false).winClear 0x40000000 0x20000000
  have c := (c.winUndef 0x60000000 0x3000000).winUndef 0x64000000 0x600000
  have stat := c.rg R.SEC_ALARM_STAT_ACTIVE 0
  have released := c.rg R.SEC_ALARM_STAT_RELEASE 0 &&& stat
  have masked := c.rg R.SEC_ALARM_STAT_MASKED 0
  have first := c.rg R.SEC_ALARM_STAT_FIRST 0
  have cnt := c.rg R.CHIP_RESET_WARM_CNT 0
  have sec : SecSt := { SecSt.reset with fuses := c.sec.fuses, fuseImg := c.sec.fuses, fuseDone := c.sec.fuseDone, entBad := c.sec.entBad, tamperAt := c.sec.tamperAt, almEnd := c.sec.almEnd, firstSet := c.sec.firstSet }
  have alm : AlmSt := { AlmSt.reset with slotSeq := c.alm.slotSeq, done := c.alm.done, orders := c.alm.orders, window := c.alm.window, octave := c.alm.octave, octAt := c.alm.octAt, undef := c.alm.undef }
  have mc : McuSt := { McuSt.reset with tickAt := c.eNow, mtimeAt := c.mc.mtimeAt, lmem := c.mc.lmem, scratch := c.mc.scratch }
  have pw : PowSt := { PowSt.reset with pinAt := c.pw.pinAt, pinOn := c.pw.pinOn, resAt := c.pw.resAt }
  have pt : PortSt := { PortSt.reset with lit := c.pt.lit, sbHist := c.pt.sbHist, hostAt := c.now }
  have ds : DsSt := { DsSt.reset with latchSec := c.ds.latchSec, cycleAt := c.now, visitAt := c.now }
  have d : Chip := { c with regs := c.regs.filter (fun (e : Nat × Nat) => keptKey e.1), cap := [], st := StructSt.reset, alm := alm, ds := ds, pp := PipeSt.reset, qs := QueueSt.reset, up := { UpSt.reset with modeAt := c.now }, smp := SmpSt.reset, fh := FhSt.reset, pt := pt, hp := HostSt.reset, mc := mc, sec := sec, pw := pw, el := { c.el with byPin := false, byWake := false } }
  have d := (((d.wg R.SEC_ALARM_STAT_ACTIVE 0 stat).wg R.SEC_ALARM_STAT_RELEASE 0 released).wg R.SEC_ALARM_STAT_MASKED 0 masked).wg R.SEC_ALARM_STAT_FIRST 0 first
  ((d.wg R.CHIP_RESET_CAUSE 0 cause).wsat R.CHIP_RESET_WARM_CNT 0 (cnt + 1)).hostTrain

/-- WARM_RESET: a low pulse of `low` µs on RESET_N ends, or the reset that a ZCP RESET (R344) or a RESTART wake (R416) asked for is
due. A fuse programming goes before it. The CAUSE of a RESTART wake is open. -/
def warmReset (low : Nat) (c : Chip) : Chip :=
  have due := match c.hp.resetAt with
    | some a => decide (a ≤ c.now) && !c.hp.resetWaits
    | none => false
  have pin := decide (10 ≤ low)
  if c.el.phase ≠ 5 ∨ (due = false ∧ pin = false) then c
  else if c.sec.fuseOp.isSome then { c with hp.resetAt := some c.now, el.byPin := c.el.byPin || pin }
  else if pin ∨ c.el.byPin then c.warmReset 4
  else if c.el.byWake then
    have r := c.draw
    r.2.warmReset r.1
  else c.warmReset 5
def execWarmReset (t low : Nat) (s : State) : Host.Outcome State Fault Refusal := s.onAny t (fun _ => warmReset low)

/-! ## Power-up (R444) -/

/-- VAUX3_UP: AON starts. -/
def vaux3Up (c : Chip) : Chip := if c.el.phase = 0 then c.phase 1 else c
def execVaux3Up (t : Nat) (s : State) : Host.Outcome State Fault Refusal := s.onAny t (fun _ => vaux3Up)

/-- REGULATORS_START: VIN12 is in range and PWR_EN high. -/
def regulatorsStart (c : Chip) : Chip := if c.el.phase = 1 then c.phase 2 else c
def execRegulatorsStart (t : Nat) (s : State) : Host.Outcome State Fault Refusal := s.onAny t (fun _ => regulatorsStart)

/-- PWR_GOOD_RELEASE: the regulators are ready within their bound. -/
def pwrGoodRelease (c : Chip) : Chip := if c.el.phase = 2 ∧ c.now ≤ c.el.at_ + 40 * msPs then c.phase 4 else c
def execPwrGoodRelease (t : Nat) (s : State) : Host.Outcome State Fault Refusal := s.onAny t (fun _ => pwrGoodRelease)

/-- REGULATOR_TIMEOUT: 40 ms have passed; the regulators are shut down. -/
def regulatorTimeout (c : Chip) : Chip := if c.el.phase = 2 ∧ c.el.at_ + 40 * msPs < c.now then c.phase 3 else c
def execRegulatorTimeout (t : Nat) (s : State) : Host.Outcome State Fault Refusal := s.onAny t (fun _ => regulatorTimeout)

/-- REGULATOR_RETRY: 1 s later step 2 is tried again. -/
def regulatorRetry (c : Chip) : Chip := if c.el.phase = 3 ∧ c.el.at_ + secPs ≤ c.now then c.phase 2 else c
def execRegulatorRetry (t : Nat) (s : State) : Host.Outcome State Fault Refusal := s.onAny t (fun _ => regulatorRetry)

/-- COLD_RESET_DONE: RESET_N is high and PWR_GOOD has been high for 1 ms: the chip runs from here, and boot begins. -/
def coldResetDone (c : Chip) : Chip :=
  if c.el.phase = 4 ∧ c.el.at_ + msPs ≤ c.now then
    have cause := c.el.cause
    have c := { (c.phase 5) with tm.clkAt := c.now, up.modeAt := c.now, alm.octAt := c.now, ds.cycleAt := c.now, ds.visitAt := c.now, pt.hostAt := c.now, pw.resAt := c.now, el.cause := 1 }
    ({ c with mc.tickAt := c.eNow, mc.mtimeAt := c.eNow }.wg R.CHIP_RESET_CAUSE 0 cause).hostTrain
  else c
def execColdResetDone (t : Nat) (s : State) : Host.Outcome State Fault Refusal := s.onAny t (fun _ => coldResetDone)

/-! ## Loss of supplies (R446, R447) -/

/-- The loss of VIN12 or of PWR_EN: every gate shuts, PWR_GOOD goes low, only AON stays powered; the next reset has CAUSE `cause`. -/
def Chip.vin12Off (c : Chip) (cause : Nat) : Chip :=
  if c.el.phase = 0 then c
  else if c.el.phase = 1 then { c with el.cause := cause }
  else c.supplyLost true { c.el with phase := 1, at_ := c.now, cause := cause, byPin := false, byWake := false }

/-- VIN12_LOSS. -/
def vin12Loss (c : Chip) : Chip := c.vin12Off 1
def execVin12Loss (t : Nat) (s : State) : Host.Outcome State Fault Refusal := s.onAny t (fun _ => vin12Loss)

/-- PWR_EN_LOW. -/
def pwrEnLow (c : Chip) : Chip := c.vin12Off 2
def execPwrEnLow (t : Nat) (s : State) : Host.Outcome State Fault Refusal := s.onAny t (fun _ => pwrEnLow)

/-- VIN12_REMOVED: the quarantine latch and the latch of THERM_TRIP_N clear. -/
def vin12Removed (c : Chip) : Chip :=
  have c := (c.vin12Off 1).wg R.TRK_GUARD_STAT_QUAR 0 0
  { c with el.trip := false }
def execVin12Removed (t : Nat) (s : State) : Host.Outcome State Fault Refusal := s.onAny t (fun _ => vin12Removed)

/-- VAUX3_LOSS: the VOLT alarm, then the loss of every supply. -/
def vaux3Loss (c : Chip) : Chip :=
  if c.el.phase = 0 then c
  else
    have c := if c.running then c.alarmStart 1 else c
    c.supplyLost false { c.el with phase := 0, at_ := c.now, cause := 3, byPin := false, byWake := false }
def execVaux3Loss (t : Nat) (s : State) : Host.Outcome State Fault Refusal := s.onAny t (fun _ => vaux3Loss)

end Sys2Proof.Machine
end

