-- ==== Sys2Proof/Machine/Mcu.lean ====
section
/-! DEFINITION. The management cores, the task scheduler, its work queues and its trace (12_management_cores.md R356 to R375). -/

namespace Sys2Proof.Machine

open Sys2Proof

/-! ## Time base, trace, faults -/

/-- MTIME in µs (R367). -/
def Chip.mtime (c : Chip) : Nat := ((c.eNow - c.mc.mtimeAt) / usU).toNat

/-- A trace record without its count (R369). -/
def Chip.traceRec (c : Chip) (kind core task other prio detail : Nat) : List Byte :=
  beBytes 4 (tsNsOf c.lNow) ++ beBytes 2 (fracOf c.lNow) ++ beBytes 1 kind ++ beBytes 1 core ++ beBytes 2 task ++ beBytes 2 other ++ beBytes 1 prio ++ beBytes 1 detail

/-- A record enters the ring, or the buffer of 256 while DDR5 does not answer. -/
def Chip.traceOut (c : Chip) (b : List Byte) : Chip :=
  if c.ddrOk then
    have i := c.rg R.MCU_TRACE_WR_INDEX 0
    (c.mem (.ddr (c.rg R.MCU_TRACE_BASE_BASE4K 0 * 4096 + 16 * i) b)).wg R.MCU_TRACE_WR_INDEX 0 ((i + 1) % 2 ^ c.rg R.MCU_TRACE_CFG_SIZE_LOG2 0)
  else { c with mc.traceBuf := c.mc.traceBuf ++ [b] }

/-- A record gets its SEQ and is written. -/
def Chip.traceSeq (c : Chip) (b : List Byte) : Chip :=
  { c.traceOut (b ++ beBytes 2 c.mc.traceSeq) with mc.traceSeq := c.mc.traceSeq + 1 }

/-- Buffered records go to the ring once DDR5 answers. -/
def Chip.traceFlush (c : Chip) : Chip :=
  if c.ddrOk then c.mc.traceBuf.foldl (fun d b => d.traceOut b) { c with mc.traceBuf := [] } else c

/-- Is a kind traced? -/
def Chip.traced (c : Chip) (kind : Nat) : Bool := c.rb R.MCU_TRACE_CFG_EN 0 && c.rbit R.MCU_TRACE_CFG_KINDS 0 (kind - 1)

/-- A decision is traced: a record that finds the buffer full is lost, and a LOST record goes ahead of the next one written. -/
def Chip.trace (c : Chip) (kind core task other prio detail : Nat) : Chip :=
  if c.traced kind = false then c
  else
    have c := c.traceFlush
    if 256 ≤ c.mc.traceBuf.length then { c.inc C.MCU_TRACE_LOST 0 with mc.traceLost := c.mc.traceLost + 1 }
    else
      have d := if c.mc.traceLost ≠ 0 ∧ c.traced 10 then { c.traceSeq (c.traceRec 10 0xFF 0xFFFF (min 65535 c.mc.traceLost) 0 0) with mc.traceLost := 0 } else c
      if 256 ≤ d.mc.traceBuf.length then { d.inc C.MCU_TRACE_LOST 0 with mc.traceLost := d.mc.traceLost + 1 }
      else d.traceSeq (d.traceRec kind core task other prio detail)

/-- A precise access fault of core j (R358). -/
def Chip.coreFault (c : Chip) (j st store addr : Nat) : Chip :=
  have c := ((c.wg R.MCU_CORE_FAULT_STATUS j st).wg R.MCU_CORE_FAULT_STORE j store).wg R.MCU_CORE_FAULT_VALID j 1
  (c.wg R.MCU_CORE_FAULT_ADDR_ADDR j addr).inc C.MCU_ACCESS_FAULT 0

/-! ## Tasks and ready lists (R360, R363, R373) -/

/-- STATE of a task; the level it stands at: a candidate's tasks run at priority 0. -/
def Chip.tstate (c : Chip) (t : Nat) : Nat := c.rg R.MCU_TASK_STAT_STATE t
def Chip.level (c : Chip) (t : Nat) : Nat := if c.rb R.MCU_TASK_CFG_IMG t then 0 else c.rg R.MCU_TASK_CFG_PRIO t

/-- May the task be dispatched at all, and on core j? A task left with an empty mask may run on every active core (R371). -/
def Chip.runnable (c : Chip) (t : Nat) : Bool := !(c.rb R.MCU_TASK_CFG_IMG t && c.rb R.MCU_TASK_CFG_SERVICE t)
def Chip.mayRun (c : Chip) (t j : Nat) : Bool := c.rbit R.MCU_TASK_CFG_AFFINITY t j || decide (c.rg R.MCU_TASK_CFG_AFFINITY t = 0)

/-- Is core j idle and free to take a task? -/
def Chip.coreIdle (c : Chip) (j : Nat) : Bool :=
  decide (c.rg R.MCU_CORE_STAT_STATE j = 0) && !c.rb R.MCU_CTRL_HALT 0 && !(decide (c.rg R.MCU_SPARE_STAT_STATE 0 ≠ 0 ∧ c.mc.spareCore = j))

/-- The task of core j. -/
def Chip.coreTask (c : Chip) (j : Nat) : Option Nat := c.mc.run.find j

/-- The ready list of a level. -/
def Chip.readyList (c : Chip) (p : Nat) : List Nat := Tab.get [] c.mc.ready p

/-- A task leaves the ready lists and any reservation. -/
def Chip.unready (c : Chip) (t : Nat) : Chip :=
  have rd := (c.mc.ready.map (fun (x : Nat × List Nat) => (x.1, x.2.filter (fun (y : Nat) => decide (y ≠ t))))).filter (fun (x : Nat × List Nat) => decide (x.2 ≠ []))
  { c with mc.ready := rd, mc.resv := c.mc.resv.filter (fun (x : Nat × Nat) => decide (x.2 ≠ t)) }

/-- A task enters the ready list of its level at the tail or at the head. -/
def Chip.enlist (c : Chip) (t : Nat) (head : Bool) : Chip :=
  have p := c.level t
  have l := c.readyList p
  { c with mc.ready := c.mc.ready.set p (if head then t :: l else l ++ [t]) }

/-- The task that a source is bound to: by SIGNAL for this signal, or by MCU_SRC_BIND (R362, R364). -/
def Chip.boundTo (c : Chip) (n : Nat) : Option Nat :=
  match c.mc.sig.find n with
  | some t => some t
  | none => if c.rb R.MCU_SRC_BIND_EN n then some (c.rg R.MCU_SRC_BIND_TASK n) else none

/-- Pending sources bound to a task. -/
def Chip.sources (c : Chip) (t : Nat) : List Nat :=
  (List.range 64).filter (fun n => c.rb R.MCU_SRC_BIND_PEND n && decide (c.boundTo n = some t))

/-- A task is dispatched to core j: it consumes its pending sources, and a held read of MCU_SCHED_NEXT is answered (R362 to R364). -/
def Chip.dispatch (c : Chip) (t j : Nat) : Chip :=
  have c := c.unready t
  have ns := c.sources t
  have c := (c.wg R.MCU_SCHED_SRC_LO_SRC j ((ns.filter (fun n => decide (n < 32))).foldl (fun w n => w + 2 ^ n) 0)).wg R.MCU_SCHED_SRC_HI_SRC j
    ((ns.filter (fun n => decide (32 ≤ n))).foldl (fun w n => w + 2 ^ (n - 32)) 0)
  have c := ns.foldl (fun (d : Chip) n => { (d.wg R.MCU_SRC_BIND_PEND n 0) with mc.sig := d.mc.sig.erase n }) c
  have why := Tab.get 0 c.mc.why t
  have c := ((c.wg R.MCU_TASK_STAT_STATE t 3).wg R.MCU_TASK_STAT_LAST t j).inc C.MCU_DISPATCH 0
  have c := (c.wg R.MCU_CORE_STAT_STATE j 1).wg R.MCU_CORE_STAT_TASK j t
  have c := ((c.wg R.MCU_SCHED_NEXT_TASK j t).wg R.MCU_SCHED_NEXT_WHY j why).wg R.MCU_SCHED_SELF_TASK j t
  have c := { c with mc.run := c.mc.run.set j t, mc.runAt := c.mc.runAt.set j c.now }
  have c := c.trace 1 j t 0 (c.level t) why
  if c.mc.waits.contains j then { c with mc.waits := c.mc.waits.filter (fun (x : Nat) => decide (x ≠ j)) }.emit .schedResult j [t, why] [] else c

/-- The task that core j takes at a boundary (R363): the highest level with a READY task that may run on j; there the first with LAST = j
among the first AFF_DEPTH of them, else the first. -/
def Chip.pickFor (c : Chip) (j : Nat) : Option Nat :=
  (List.range 32).reverse.findSome? (fun p =>
    have l := (c.readyList p).filter (fun t => c.runnable t && c.mayRun t j)
    match (l.take (c.rg R.MCU_CORE_CFG_AFF_DEPTH j)).find? (fun t => decide (c.rg R.MCU_TASK_STAT_LAST t = j)) with
    | some t => some t
    | none => l.head?)

/-- Core j is free: its reserved task ahead of all, else what it picks, else it is IDLE, or HALTED while HALT is 1. -/
def Chip.coreFree (c : Chip) (j : Nat) : Chip :=
  have r := c.mc.resv.find j
  have c := { (((c.wg R.MCU_CORE_STAT_STATE j 0).wg R.MCU_CORE_STAT_TASK j 0).wg R.MCU_SCHED_SELF_TASK j 0) with mc.run := c.mc.run.erase j, mc.runAt := c.mc.runAt.erase j, mc.resv := c.mc.resv.erase j, mc.resvAt := c.mc.resvAt.erase j, mc.late := c.mc.late.filter (fun (x : Nat) => decide (x ≠ j)), mc.wdog := c.mc.wdog.filter (fun (x : Nat) => decide (x ≠ j)) }
  if c.rb R.MCU_CTRL_HALT 0 then c.wg R.MCU_CORE_STAT_STATE j 3
  else if c.coreIdle j = false then c
  else
    match r, c.pickFor j with
    | some t, _ => c.dispatch t j
    | none, some t => c.dispatch t j
    | none, none => c

/-- A core is preempted and reserved for task t; a task that it was reserved for keeps its place at the head of its level (R363). -/
def Chip.reserve (c : Chip) (t j : Nat) : Chip :=
  have old := (c.coreTask j).getD 0
  match c.mc.resv.find j with
  | some r =>
    have c := (c.unready r).enlist r true
    { (c.wg R.MCU_CORE_STAT_TASK j t) with mc.resv := c.mc.resv.set j t }
  | none =>
    have c := { ((c.wg R.MCU_CORE_STAT_STATE j 2).wg R.MCU_CORE_STAT_TASK j t) with mc.resv := c.mc.resv.set j t, mc.resvAt := c.mc.resvAt.set j (Tab.get c.now c.mc.resvAt j) }
    ((c.inc C.MCU_PREEMPT 0).trace 2 j t old (c.level t) (c.level old)).emit .coreIrq j [1] []

/-- The decision for a task that has become READY (R363). -/
def Chip.matchTask (c : Chip) (t : Nat) : Chip :=
  if c.tstate t ≠ 2 ∨ c.runnable t = false ∨ c.rb R.MCU_CTRL_HALT 0 ∨ c.mc.resv.any (fun x => decide (x.2 = t)) then c
  else
    have cores := (List.range 16).filter (fun j => c.mayRun t j)
    have last := c.rg R.MCU_TASK_STAT_LAST t
    have idle := cores.filter (fun j => c.coreIdle j)
    if idle.contains last then c.dispatch t last
    else match idle.head? with
      | some j => c.dispatch t j
      | none =>
        have p := c.level t
        have low := cores.filterMap (fun j => match c.coreTask j with
          | some u => if c.level u < p ∧ c.rg R.MCU_CORE_STAT_STATE j ≠ 4 ∧ ¬(c.rg R.MCU_SPARE_STAT_STATE 0 ≠ 0 ∧ c.mc.spareCore = j) ∧ (match c.mc.resv.find j with
              | some r => decide (c.level r < p)
              | none => true) = true then some (j, c.level u) else none
          | none => none)
        match (low.map (fun x => x.2)).min? with
        | none => c
        | some least =>
          have ties := (low.filter (fun x => decide (x.2 = least))).map (fun x => x.1)
          match if ties.contains last then some last else ties.head? with
          | some j => c.reserve t j
          | none => c

/-- A task becomes READY with the reason its next dispatch reports, at the tail or head of its level. -/
def Chip.makeReady (c : Chip) (t why : Nat) (head : Bool) : Chip :=
  have c := { (c.wg R.MCU_TASK_STAT_STATE t 2) with mc.why := c.mc.why.set t why, mc.wake := c.mc.wake.erase t }
  c.enlist t head

/-- A task becomes READY, and is matched with a core. -/
def Chip.ready (c : Chip) (t why : Nat) : Chip := (c.makeReady t why false).matchTask t

/-- A task becomes SUSPENDED; with `fault` because its core failed it (R362, R368, R371). -/
def Chip.suspended (c : Chip) (t : Nat) (fault : Bool) : Chip :=
  have c := { ((c.unready t).wg R.MCU_TASK_STAT_STATE t 6) with mc.wake := c.mc.wake.erase t, mc.susp := c.mc.susp.filter (fun (x : Nat) => decide (x ≠ t)) }
  if fault then c.wg R.MCU_TASK_STAT_FAULT t 1 else c

/-! ## Boundaries (R360, R362, R363) -/

/-- A boundary of core j: its running task t goes on as `f` says, unless a SUSPEND waits for it or it retires; then core j is free,
and a task that is still READY is matched again. -/
def Chip.boundary (c : Chip) (j op : Nat) (f : Chip → Nat → Chip) : Chip :=
  match c.coreTask j with
  | none => c.coreFault j stRefused 1 0x40000
  | some t =>
    have c := c.trace 3 j t 0 (c.level t) op
    have c :=
      if c.tstate t = 7 then { c.taskFree t with mc.retiring := c.mc.retiring.filter (fun (x : Nat) => decide (x ≠ t)) }
      else if c.tstate t ≠ 3 then c
      else if c.mc.susp.contains t then c.suspended t false
      else f c t
    (c.coreFree j).matchTask t

/-- YIELD: to the tail of its level, or to its head on a preempted core. -/
def Chip.yielded (c : Chip) (j t : Nat) : Chip :=
  if (c.mc.resvAt.find j).isSome then c.makeReady t 3 true else c.makeReady t 4 false

/-- The signed difference of two ticks modulo 2³² (R367). -/
def tickDiff (a b : Nat) : Int := sgn 32 ((a + 2 ^ 32 - b % 2 ^ 32) % 2 ^ 32)

/-- The task is delayed until a tick. -/
def Chip.delayed (c : Chip) (t st tk : Nat) : Chip :=
  { (c.wg R.MCU_TASK_STAT_STATE t st) with mc.wake := c.mc.wake.set t (tk % 2 ^ 32) }

def Chip.tickNow (c : Chip) : Nat := c.rg R.MCU_TICK_NOW_NOW 0

/-- END. -/
def Chip.opEndTask (c : Chip) (t : Nat) : Chip :=
  have n := c.rg R.MCU_TASK_STAT_ACT_PEND t
  if n = 0 then c.wg R.MCU_TASK_STAT_STATE t 1 else (c.wg R.MCU_TASK_STAT_ACT_PEND t (n - 1)).makeReady t 0 false

/-- WAIT. -/
def Chip.opWait (c : Chip) (arg t : Nat) : Chip :=
  if c.sources t ≠ [] then c.makeReady t 1 false
  else if arg = 0 then c.wg R.MCU_TASK_STAT_STATE t 5
  else c.delayed t 5 (c.tickNow + arg)

/-! ## Sources (R364) -/

/-- Source n becomes pending, and a task WAITING for it becomes READY. -/
def Chip.sourcePending (c : Chip) (n : Nat) : Chip :=
  if 64 ≤ n ∨ (53 ≤ n ∧ n ≤ 55) then c
  else
    have c := c.wg R.MCU_SRC_BIND_PEND n 1
    match c.boundTo n with
    | some t =>
      have c := c.trace 5 0xFF t n (c.level t) 0
      if c.tstate t = 5 then c.ready t 1 else c
    | none => c.trace 5 0xFF 0xFFFF n 0 0

/-! ## Commands that are no boundary -/

/-- ACTIVATE: its status. -/
def Chip.opActivate (c : Chip) (t : Nat) : Chip × Nat :=
  have st := c.tstate t
  if st = 0 then (c, stRefused)
  else if st = 1 then (c.ready t 0, stOk)
  else if c.rg R.MCU_TASK_STAT_ACT_PEND t = 255 then ({ (c.inc C.MCU_ACT_OVR 0).trace 7 0xFF t 0 (c.level t) 0 with mc.pulse := true }, stOk)
  else ((c.wg R.MCU_TASK_STAT_ACT_PEND t (c.rg R.MCU_TASK_STAT_ACT_PEND t + 1)).trace 6 0xFF t 0 (c.level t) 0, stOk)

/-- SIGNAL. -/
def Chip.opSignal (c : Chip) (t arg : Nat) : Chip × Nat :=
  have n := 56 + arg % 8
  (({ c with mc.sig := c.mc.sig.set n t } : Chip).sourcePending n, stOk)

/-- SUSPEND; a task in another state than those R362 names is left as it is. -/
def Chip.opSuspend (c : Chip) (t : Nat) : Chip × Nat :=
  have st := c.tstate t
  if st = 2 ∨ st = 4 ∨ st = 5 then (c.suspended t false, stOk)
  else if st = 3 then ({ c with mc.susp := t :: c.mc.susp.filter (fun (x : Nat) => decide (x ≠ t)) }, stOk)
  else (c, stOk)

/-- RESUME. -/
def Chip.opResume (c : Chip) (t : Nat) : Chip × Nat :=
  if c.tstate t = 6 then (c.ready t 4, stOk) else ({ c with mc.susp := c.mc.susp.filter (fun (x : Nat) => decide (x ≠ t)) }, stOk)

/-- SET_PRIO. -/
def Chip.opSetPrio (c : Chip) (t arg : Nat) : Chip × Nat :=
  if c.tstate t = 2 then
    have rd := c.mc.ready.map (fun (x : Nat × List Nat) => (x.1, x.2.filter (fun (y : Nat) => decide (y ≠ t))))
    (({ c with mc.ready := rd }.wg R.MCU_TASK_CFG_PRIO t (arg % 32)).enlist t false, stOk)
  else (c.wg R.MCU_TASK_CFG_PRIO t (arg % 32), stOk)

/-- A host command in the layout of MCU_HOST_CMD: OPs 1 and 7 to 10 only. -/
def Chip.hostOp (c : Chip) (v : Nat) : Chip × Nat :=
  have t := bits v 16 9
  have arg := bits v 4 12
  match bits v 0 4 with
  | 1 => c.opActivate t
  | 7 => c.opSignal t arg
  | 8 => c.opSuspend t
  | 9 => c.opResume t
  | 10 => c.opSetPrio t arg
  | _ => (c, stRefused)

/-! ## The command FIFO (R361) -/

/-- Entries of the command FIFO whose decisions are not yet over. -/
def Chip.fifoLive (c : Chip) : List Nat := c.mc.fifo.filter (fun t => decide (c.now < t))

/-- Is the FIFO of 64 entries full, and when does an entry free for the next command? -/
def Chip.fifoFull (c : Chip) : Bool := decide (64 ≤ c.fifoLive.length)
def Chip.fifoFree (c : Chip) : Nat := c.fifoLive.getD (c.fifoLive.length - 64) c.now

/-- A command enters the FIFO; the scheduler makes one decision at a time (R361). It acts here at once: what waits is only its entry
(DESIGN CHOICE, log entry 83). -/
def Chip.fifoPush (c : Chip) : Chip :=
  { c with mc.fifo := c.fifoLive ++ [c.fifoLive.getLastD c.now + Config.decisionPs] }

/-- A held host command runs once an entry has freed for it within 1 ms. -/
def Chip.hostGo (c : Chip) : Chip := match c.mc.hostHeld with
  | some h =>
    if h.free ≤ c.now ∧ h.free < h.at_ + msPs then ({ c with mc.hostHeld := none } : Chip).fifoPush.answered (fun c => c.hostOp h.word)
    else c
  | none => c

/-- A command of a core: one that finds the FIFO full is held until an entry frees (R361). -/
def Chip.coreCmd (c : Chip) (f : Chip → Chip) : Chip :=
  have c := c.hostGo
  f (if c.fifoFull then c.inc C.MCU_FIFO_FULL 0 else c).fifoPush

/-- A host command that no row holds: run now, run when an entry frees for it within 1 ms, or answered BUSY. -/
def Chip.hostCmdNow (c : Chip) (v : Nat) : Chip × Nat :=
  have c := c.hostGo
  if c.fifoFull = false then c.fifoPush.hostOp v
  else if c.fifoFree < c.now + msPs then (c.inc C.MCU_FIFO_FULL 0).fifoPush.hostOp v
  else (c.inc C.MCU_FIFO_FULL 0, stBusy)

/-- A command that answers a status: another than OK is an access fault of the core. -/
def Chip.coreOp (c : Chip) (j : Nat) (f : Chip → Chip × Nat) : Chip :=
  c.coreCmd (fun c =>
    have r := f c
    if r.2 = stOk then r.1 else r.1.coreFault j r.2 1 0x40000)

/-! ## The commands of cores (R362) -/

/-- Run a command of the cores and their scheduler: they act while CTRL is ON (R407). -/
def State.onCtrl (s : State) (t : Nat) (f : Mem → Chip → Chip) : Host.Outcome State Fault Refusal :=
  s.on t (fun m c => if c.domOn 2 then f m c else c)

def activate (j task : Nat) (c : Chip) : Chip := c.coreOp j (fun c => c.opActivate task)
def execTaskActivate (t : Nat) (j : Fin 16) (task : Fin 512) (s : State) : Host.Outcome State Fault Refusal := s.onCtrl t (fun _ => activate j.val task.val)

def taskEnd (j : Nat) (c : Chip) : Chip := c.coreCmd (fun c => c.boundary j 2 (fun c t => c.opEndTask t))
def execTaskEnd (t : Nat) (j : Fin 16) (s : State) : Host.Outcome State Fault Refusal := s.onCtrl t (fun _ => taskEnd j.val)

def taskYield (j : Nat) (c : Chip) : Chip := c.coreCmd (fun c => c.boundary j 3 (fun c t => c.yielded j t))
def execTaskYield (t : Nat) (j : Fin 16) (s : State) : Host.Outcome State Fault Refusal := s.onCtrl t (fun _ => taskYield j.val)

/-- DELAY: ARG ticks, 1 to 2³¹ − 1; 0 acts as YIELD, another value is refused. -/
def taskDelay (j arg : Nat) (c : Chip) : Chip :=
  c.coreCmd (fun c =>
    if 2 ^ 31 ≤ arg then c.coreFault j stRefused 1 0x40000
    else c.boundary j 4 (fun c t => if arg = 0 then c.yielded j t else c.delayed t 4 (c.tickNow + arg)))
def execTaskDelay (t : Nat) (j : Fin 16) (arg : Nat) (s : State) : Host.Outcome State Fault Refusal := s.onCtrl t (fun _ => taskDelay j.val arg)

/-- DELAY_UNTIL: a tick not after MCU_TICK_NOW acts as YIELD. -/
def taskDelayUntil (j arg : Nat) (c : Chip) : Chip :=
  c.coreCmd (fun c => c.boundary j 5 (fun c t => if tickDiff arg c.tickNow ≤ 0 then c.yielded j t else c.delayed t 4 arg))
def execTaskDelayUntil (t : Nat) (j : Fin 16) (arg : Nat) (s : State) : Host.Outcome State Fault Refusal := s.onCtrl t (fun _ => taskDelayUntil j.val arg)

def taskWait (j arg : Nat) (c : Chip) : Chip := c.coreCmd (fun c => c.boundary j 6 (fun c t => c.opWait (arg % 2 ^ 32) t))
def execTaskWait (t : Nat) (j : Fin 16) (arg : Nat) (s : State) : Host.Outcome State Fault Refusal := s.onCtrl t (fun _ => taskWait j.val arg)

def taskSignal (j task arg : Nat) (c : Chip) : Chip := c.coreOp j (fun c => c.opSignal task arg)
def execTaskSignal (t : Nat) (j : Fin 16) (task : Fin 512) (arg : Nat) (s : State) : Host.Outcome State Fault Refusal := s.onCtrl t (fun _ => taskSignal j.val task.val arg)

def taskSuspend (j task : Nat) (c : Chip) : Chip := c.coreOp j (fun c => c.opSuspend task)
def execTaskSuspend (t : Nat) (j : Fin 16) (task : Fin 512) (s : State) : Host.Outcome State Fault Refusal := s.onCtrl t (fun _ => taskSuspend j.val task.val)

def taskResume (j task : Nat) (c : Chip) : Chip := c.coreOp j (fun c => c.opResume task)
def execTaskResume (t : Nat) (j : Fin 16) (task : Fin 512) (s : State) : Host.Outcome State Fault Refusal := s.onCtrl t (fun _ => taskResume j.val task.val)

def taskSetPrio (j task arg : Nat) (c : Chip) : Chip := c.coreOp j (fun c => c.opSetPrio task arg)
def execTaskSetPrio (t : Nat) (j : Fin 16) (task : Fin 512) (arg : Nat) (s : State) : Host.Outcome State Fault Refusal := s.onCtrl t (fun _ => taskSetPrio j.val task.val arg)

/-- SCHED_NEXT_READ: a core that runs a task gets it at once; another is held until a task is dispatched to it. -/
def schedNextRead (j : Nat) (c : Chip) : Chip :=
  match c.coreTask j with
  | some t => c.emit .schedResult j [t, c.rg R.MCU_SCHED_NEXT_WHY j] []
  | none => if c.mc.waits.contains j then c else { c with mc.waits := c.mc.waits ++ [j] }
def execSchedNextRead (t : Nat) (j : Fin 16) (s : State) : Host.Outcome State Fault Refusal := s.onCtrl t (fun _ => schedNextRead j.val)

/-- TASK_DISPATCH: the decision of R363 for a READY task. -/
def taskDispatch (task : Nat) (c : Chip) : Chip := c.matchTask task
def execTaskDispatch (t : Nat) (task : Fin 512) (s : State) : Host.Outcome State Fault Refusal := s.onCtrl t (fun _ => taskDispatch task.val)

/-- SWSRC_SET: bit i sets source 56 + i. -/
def swsrcSet (v : Nat) (c : Chip) : Chip × Nat := (forN 8 (fun i d => if bit v i then d.sourcePending (56 + i) else d) c, stOk)
def execSwsrcSet (t : Nat) (v : Nat) (s : State) : Host.Outcome State Fault Refusal := s.on t (fun _ c => c.answeredIn 2 (swsrcSet v))

/-! ## Ticks, timers, watchdogs (R359, R363, R367, R368) -/

/-- The delay list in the order of R367. -/
def Chip.wakeLess (c : Chip) (a b : Nat × Nat) : Bool :=
  have d := tickDiff a.2 c.tickNow
  have e := tickDiff b.2 c.tickNow
  decide (d < e) || (decide (d = e) && (decide (c.level b.1 < c.level a.1) || (decide (c.level a.1 = c.level b.1 ∧ a.1 ≤ b.1))))

/-- SCHED_TICK: the tick advances by 1 every TICK µs of elapsed local time, and entries whose wake tick is not after it leave the delay list in order. -/
def schedTick (c : Chip) : Chip :=
  have step := c.rg R.MCU_TICK_TICK 0 * usU
  if c.eNow < c.mc.tickAt + step then c
  else
    have c := { (c.wg R.MCU_TICK_NOW_NOW 0 (c.tickNow + 1)) with mc.tickAt := c.mc.tickAt + step }
    have due := (c.mc.wake.filter (fun e => decide (tickDiff e.2 c.tickNow ≤ 0))).mergeSort (fun a b => c.wakeLess a b)
    due.foldl (fun d e => (d.trace 4 0xFF e.1 0 (d.level e.1) 0).ready e.1 2) c
def execSchedTick (t : Nat) (s : State) : Host.Outcome State Fault Refusal := s.onCtrl t (fun _ => schedTick)

/-- PREEMPT_TIMEOUT: no boundary within PRE_TO; the reservation stands. -/
def preemptTimeout (j : Nat) (c : Chip) : Chip := match c.mc.resvAt.find j with
  | some a =>
    if a + c.rg R.MCU_CTRL_PRE_TO 0 * usPs ≤ c.now ∧ c.mc.late.contains j = false then { c.inc C.MCU_PRE_LATE 0 with mc.late := j :: c.mc.late, mc.pulse := true }
    else c
  | none => c
def execPreemptTimeout (t : Nat) (j : Fin 16) (s : State) : Host.Outcome State Fault Refusal := s.onCtrl t (fun _ => preemptTimeout j.val)

/-- The task of core j has run for k × RUN_MAX. -/
def Chip.ranFor (c : Chip) (j k : Nat) : Bool := match c.mc.runAt.find j with
  | some a => decide (a + k * c.rg R.MCU_CORE_CFG_RUN_MAX j * usPs ≤ c.now)
  | none => false

/-- TASK_WATCHDOG: a watchdog request. -/
def taskWatchdog (j : Nat) (c : Chip) : Chip :=
  if c.ranFor j 1 ∧ c.mc.wdog.contains j = false then
    have c := { ((c.wg R.MCU_CORE_STAT_STATE j 2).inc C.MCU_WDOG 0) with mc.wdog := j :: c.mc.wdog }
    have t := (c.coreTask j).getD 0
    (c.trace 11 j t 0 (c.level t) 0).emit .coreIrq j [2] []
  else c
def execTaskWatchdog (t : Nat) (j : Fin 16) (s : State) : Host.Outcome State Fault Refusal := s.onCtrl t (fun _ => taskWatchdog j.val)

/-- The running task of core j becomes SUSPENDED with FAULT, and the core is free. -/
def Chip.faultTask (c : Chip) (j : Nat) : Chip := match c.coreTask j with
  | some t =>
    have c := c.trace 9 j t 0 (c.level t) 0
    if c.tstate t = 7 then (c.taskFree t).wg R.MCU_TASK_STAT_FAULT t 1 else c.suspended t true
  | none => c

/-- A core starts at the boot ROM entry of R383. -/
def Chip.coreStart (c : Chip) (j : Nat) : Chip := { c with mc.entry := c.mc.entry.set (c.rg R.MCU_CORE_STAT_PHYS j) 0x100040 }

/-- CORE_WATCHDOG_RESET: still RUNNING at 2 × RUN_MAX. -/
def coreWatchdogReset (j : Nat) (c : Chip) : Chip := if c.ranFor j 2 then ((c.faultTask j).coreStart j).coreFree j else c
def execCoreWatchdogReset (t : Nat) (j : Fin 16) (s : State) : Host.Outcome State Fault Refusal := s.onCtrl t (fun _ => coreWatchdogReset j.val)

/-- MTIMER_INTERRUPT: raised while MTIME ≥ MTIMECMP. -/
def mtimerInterrupt (j : Nat) (c : Chip) : Chip :=
  if c.rg R.MCU_MTIMECMP_HI_US j * 2 ^ 32 + c.rg R.MCU_MTIMECMP_LO_US j ≤ c.mtime then c.emit .coreIrq j [0] [] else c
def execMtimerInterrupt (t : Nat) (j : Fin 16) (s : State) : Host.Outcome State Fault Refusal := s.onCtrl t (fun _ => mtimerInterrupt j.val)

/-! ## Host commands and configuration (R361, R362, R375) -/

/-- MCU_HOST_CMD: executed, or held while the FIFO is full. -/
def mcuHostCmd (v : Nat) (c : Chip) : Chip :=
  have c := c.hostGo
  if c.fifoFull ∧ c.mc.hostHeld.isNone then
    { c.inc C.MCU_FIFO_FULL 0 with mc.hostHeld := some { word := v % 2 ^ 32, at_ := c.now, free := c.fifoFree } }
  else c.answered (fun c => c.hostCmdNow v)
def execMcuHostCmd (t : Nat) (v : Nat) (s : State) : Host.Outcome State Fault Refusal :=
  s.on t (fun _ c => if c.domOn 2 then mcuHostCmd v c else c.answeredIn 2 (fun c => (c, stRefused)))

/-- HOST_CMD_BUSY: held for 1 ms, answered BUSY and not executed; one for which an entry freed before that is executed. -/
def hostCmdBusy (c : Chip) : Chip := match c.mc.hostHeld with
  | some h =>
    if h.free < h.at_ + msPs then c.hostGo
    else if h.at_ + msPs ≤ c.now then ({ c with mc.hostHeld := none } : Chip).answered (fun c => (c, stBusy)) else c
  | none => c
def execHostCmdBusy (t : Nat) (s : State) : Host.Outcome State Fault Refusal := s.onCtrl t (fun _ => hostCmdBusy)

/-- TASK_CFG_WRITE: VALID makes a FREE task DORMANT and back; another change of it is refused. A task in another state takes only
AFFINITY. -/
def taskCfgWrite (k v : Nat) (c : Chip) : Chip × Nat :=
  have st := c.tstate k
  if 2 ≤ st ∧ bit v 7 ≠ c.rb R.MCU_TASK_CFG_VALID k then (c, stRefused)
  else
    have c := c.wg R.MCU_TASK_CFG_AFFINITY k (bits v 16 16)
    if 2 ≤ st then (c, stOk)
    else
      have c := ((c.wg R.MCU_TASK_CFG_PRIO k (bits v 0 5)).wb R.MCU_TASK_CFG_IMG k (bit v 5)).wb R.MCU_TASK_CFG_SERVICE k (bit v 6)
      ((c.wb R.MCU_TASK_CFG_VALID k (bit v 7)).wg R.MCU_TASK_STAT_STATE k (if bit v 7 then 1 else 0), stOk)
def execTaskCfgWrite (t : Nat) (k : Fin 512) (v : Nat) (s : State) : Host.Outcome State Fault Refusal := s.on t (fun _ c => c.answeredIn 2 (taskCfgWrite k.val v))

/-- MCU_HALT: a write of MCU_CTRL. HALT stops dispatch; once it is 0, idle cores take tasks again, in ascending order. -/
def mcuHalt (v : Nat) (c : Chip) : Chip × Nat :=
  if bits v 16 10 = 0 ∨ 1000 < bits v 16 10 then (c, stRefused)
  else
    have was := c.rb R.MCU_CTRL_HALT 0
    have c := ((c.wb R.MCU_CTRL_HALT 0 (bit v 0)).wb R.MCU_CTRL_EVT_EN 0 (bit v 1)).wg R.MCU_CTRL_PRE_TO 0 (bits v 16 10)
    if was = bit v 0 then (c, stOk)
    else if bit v 0 then (forN 16 (fun j d => if d.rg R.MCU_CORE_STAT_STATE j = 0 then d.wg R.MCU_CORE_STAT_STATE j 3 else d) c, stOk)
    else (forN 16 (fun j d => if d.rg R.MCU_CORE_STAT_STATE j = 3 then d.coreFree j else d) c, stOk)
def execMcuHalt (t : Nat) (v : Nat) (s : State) : Host.Outcome State Fault Refusal := s.on t (fun _ c => c.answeredIn 2 (mcuHalt v))

/-! ## The spare core (R370, R371) -/

/-- A planned swap of core j: refused while one runs, with no spare left, or for a core that is lost. -/
def Chip.coreSwap (c : Chip) (j : Nat) : Chip × Nat :=
  if c.rg R.MCU_SPARE_STAT_STATE 0 ≠ 0 ∨ c.rb R.HLT_SPARE_CHIP_MCU 0 = false ∨ c.rg R.MCU_CORE_STAT_STATE j = 4 then (c, stRefused)
  else
    have c := { ((c.wg R.MCU_SPARE_STAT_STATE 0 1).wg R.MCU_STAT_SWAPPING 0 1) with mc.spareCore := j }
    (match c.mc.resv.find j with
      | some _ => { c with mc.resv := c.mc.resv.erase j }
      | none => c, stOk)

/-- MCU_SPARE_GO: a write of MCU_SPARE_CMD. -/
def mcuSpareGo (v : Nat) (c : Chip) : Chip × Nat :=
  have d := c.wg R.MCU_SPARE_CMD_CORE 0 (bits v 0 4)
  if bit v 4 then
    have r := d.coreSwap (bits v 0 4)
    if r.2 = stOk then r else (c, r.2)
  else (d, stOk)
def execMcuSpareGo (t : Nat) (v : Nat) (s : State) : Host.Outcome State Fault Refusal := s.on t (fun _ c => c.answeredIn 2 (mcuSpareGo v))

/-- MCU_SPARE_DRAINED: the core is at a boundary or IDLE; it is stopped there, and its state is copied. -/
def mcuSpareDrained (c : Chip) : Chip :=
  have j := c.mc.spareCore
  if c.rg R.MCU_SPARE_STAT_STATE 0 = 1 ∧ (c.coreTask j).isNone then c.wg R.MCU_SPARE_STAT_STATE 0 2 else c
def execMcuSpareDrained (t : Nat) (s : State) : Host.Outcome State Fault Refusal := s.onCtrl t (fun _ => mcuSpareDrained)

/-- MCU_SPARE_COPIED: logical j maps to the spare, with the old core's local memory; the old core is quarantined, and its entry of
the swap record is appended (R430). -/
def mcuSpareCopied (m : Mem) (c : Chip) : Chip :=
  if c.rg R.MCU_SPARE_STAT_STATE 0 ≠ 2 then c
  else
    have j := c.mc.spareCore
    have old := c.rg R.MCU_CORE_STAT_PHYS j
    have sp := c.rg R.MCU_SPARE_STAT_PHYS 0
    have c := { c with mc.lmem := c.mc.lmem.set sp (Tab.get [] c.mc.lmem old), mc.entry := c.mc.entry.set sp (Tab.get 0 c.mc.entry old) }
    have c := (((c.wg R.MCU_CORE_STAT_PHYS j sp).wg R.MCU_SPARE_STAT_PHYS 0 31).wg R.MCU_SPARE_STAT_STATE 0 0).wg R.MCU_STAT_SWAPPING 0 0
    have c := ((c.wg R.HLT_SPARE_CHIP_MCU 0 0).wg R.HLT_WEAR_STAT_LEVEL (423 + old) 3).inc C.MCU_SWAP 0
    have c := ((c.emit .copied (423 + sp) [423 + old] []).trace 8 j 0xFFFF sp 0 0).swapAppend m 6 0 (423 + old) (423 + sp)
    if c.rg R.MCU_CORE_STAT_STATE j = 0 then c.coreFree j else c
def execMcuSpareCopied (t : Nat) (s : State) : Host.Outcome State Fault Refusal := s.onCtrl t (fun m => mcuSpareCopied m)

/-- A core is lost by error (R371): with a spare available the spare takes its number with its local memory cleared; with none, the
core leaves every AFFINITY. `cause` is that of the swap entry (R430). -/
def Chip.coreLost (c : Chip) (m : Mem) (j cause : Nat) : Chip :=
  have c := c.faultTask j
  have old := c.rg R.MCU_CORE_STAT_PHYS j
  if c.rb R.HLT_SPARE_CHIP_MCU 0 then
    have sp := c.rg R.MCU_SPARE_STAT_PHYS 0
    have c := { (((c.wg R.MCU_CORE_STAT_PHYS j sp).wg R.MCU_SPARE_STAT_PHYS 0 31).wg R.HLT_SPARE_CHIP_MCU 0 0) with mc.lmem := c.mc.lmem.erase sp }
    have c := (c.wg R.MCU_SPARE_STAT_STATE 0 0).wg R.MCU_STAT_SWAPPING 0 0
    have c := ((c.wg R.HLT_WEAR_STAT_LEVEL (423 + old) 3).trace 8 j 0xFFFF sp 0 0).swapAppend m 6 cause (423 + old) (423 + sp)
    (c.coreStart j).coreFree j
  else
    have c := forN 512 (fun t d => if d.rbit R.MCU_TASK_CFG_AFFINITY t j then d.wbit R.MCU_TASK_CFG_AFFINITY t j false else d) c
    have c := { c with mc.run := c.mc.run.erase j, mc.runAt := c.mc.runAt.erase j, mc.resv := c.mc.resv.erase j, mc.resvAt := c.mc.resvAt.erase j, mc.waits := c.mc.waits.filter (fun (x : Nat) => decide (x ≠ j)) }
    (c.wg R.MCU_CORE_STAT_STATE j 4).wg R.MCU_CORE_STAT_TASK j 0

/-! ## JUBILEE (R373) -/

/-- The commit of a candidate Omlia: tasks of the old image retire, those of the new take their priorities. -/
def Chip.tasksRetire (c : Chip) : Chip :=
  have old := (List.range 512).filter (fun t => decide (c.tstate t ≠ 0) && !c.rb R.MCU_TASK_CFG_IMG t)
  have c := old.foldl (fun (d : Chip) t =>
    if d.tstate t = 3 then { (d.wg R.MCU_TASK_STAT_STATE t 7) with mc.retiring := d.mc.retiring ++ [t] } else (d.unready t).taskFree t) c
  have new := c.instances R.MCU_TASK_CFG_IMG 512
  have c := new.foldl (fun d t =>
    if d.tstate t = 2 then ((d.unready t).wg R.MCU_TASK_CFG_IMG t 0).enlist t false else d.wg R.MCU_TASK_CFG_IMG t 0) c
  new.foldl (fun d t => d.matchTask t) c

/-! ## Work queues (R365, R366) -/

/-- WQ_POINTER_WRITE: an occupancy below 0 or above the slots is refused. The HEAD of a ring that hardware produces is read-only
(R375). -/
def wqPointerWrite (w : Nat) (tail : Bool) (v : Nat) (c : Chip) : Chip × Nat :=
  if w ≤ 32 ∧ tail = false then (c, stOk)
  else
    have d := if tail then c.wg R.MCU_WQ_TAIL_INDEX w v else c.wg R.MCU_WQ_HEAD_INDEX w v
    if c.wqSlots w < d.wqOcc w then (c, stRefused) else (d, stOk)
def execWqPointerWrite (t : Nat) (w : Fin 49) (tail : Bool) (v : Nat) (s : State) : Host.Outcome State Fault Refusal :=
  s.on t (fun _ c => c.answeredIn 2 (wqPointerWrite w.val tail v))

/-- A frame from the host or a core enters the terminal (R346): `slice` is the block of a frame for a DIR 1 queue. -/
def Chip.injectPass (c : Chip) (p : Nat) (l : List Byte) : Chip := c.localFrame p l true (l.length + 4)
def Chip.injectQueue (c : Chip) (p q slice : Nat) (l : List Byte) : Chip :=
  have b := if c.qDir q = 0 then c.portBlk (c.qPort q) else slice
  have bus := busSet (busSet (busSet (busSet 0 466 14 (l.length + 4)) 480 16 p) 338 1 1) 339 15 q
  have f : Frame := { id := c.pp.nextId, bytes := l, len := l.length + 4, known := true, origin := 0, wl := 0, src := p, blk := b, pass := 0, gen := 65536, bus := bus, tsNs := tsNsOf c.lNow, tsFrac := fracOf c.lNow, tsOk := true, entry := false, role := 0, grown := 0, claim := 0, polCh := 0, stomp := false }
  ({ c with pp.nextId := c.pp.nextId + 1 } : Chip).admitFrame f q none

/-- What a transmit descriptor asks for: its status, and the chip after. -/
def Chip.txDesc (c : Chip) (m : Mem) (d : List Byte) : Chip × Nat :=
  have target := byteAt d 0
  have pq := half d 2
  have len := half d 4
  have addr := beAt d 8 8
  have l := m.ddrRead addr len
  if 4 < target ∨ byteAt d 1 ≠ 0 ∨ len < 60 ∨ c.maxFrame - 4 < len ∨ (target = 2 ∧ 1514 < len) ∨ (target = 0 ∧ 128 ≤ pq) ∨ (target = 1 ∧ 32768 ≤ pq) ∨ (2 ≤ target ∧ pq ≠ 0) then (c, stRefused)
  else if c.ddrCap < addr + len then (c, stAddress)
  else match target with
    | 0 => (c.injectPass pq l, stOk)
    | 1 => (c.injectQueue 0 pq (pq % 32) l, stOk)
    | 2 => (c.sbQueue l, stOk)
    | 3 => ({ c with pp.hostQ := c.pp.hostQ ++ [(4, l)] }, stOk)
    | _ => ({ c with up.mgmtQ := c.up.mgmtQ ++ [(c.now, l)] }, stOk)

/-- TX_DESC_PROCESS: hardware takes the next descriptor of the transmit ring of core j, writes STATUS, advances TAIL. A sensor-bus frame waits under R326. -/
def txDescProcess (m : Mem) (j : Nat) (c : Chip) : Chip :=
  have w := 33 + j
  if c.rb R.MCU_WQ_CFG_EN w = false ∨ c.wqOcc w = 0 ∨ c.ddrOk = false then c
  else
    have tail := c.rg R.MCU_WQ_TAIL_INDEX w
    have a := c.wqAddr w tail
    have r := c.txDesc m (m.ddrRead a 16)
    ((r.1.mem (.ddr (a + 6) (beBytes 2 r.2))).wg R.MCU_WQ_TAIL_INDEX w (tail + 1)).srcEvent 52
def execTxDescProcess (t : Nat) (j : Fin 16) (s : State) : Host.Outcome State Fault Refusal := s.onCtrl t (fun m => txDescProcess m j.val)

end Sys2Proof.Machine
end

