-- ==== Sys2Proof/Machine/Health.lean ====
section
/-! DEFINITION. EVENTIDE and the self-test, the swap record, wear and planned swaps, chip units taken out of service
(14_power_and_health.md R427 to R437; 01_architecture.md R37; 12_management_cores.md R371; 16_register_map.md R470). -/

namespace Sys2Proof.Machine

open Sys2Proof

/-! ## The end of a pace window (R20, R22) and the host's RESOLVE (R36)

Both can take a trunk engine out of service, and with it the last wavelength in SYNC (R117). -/

/-- PACE_WINDOW_END (R20, R22): a 10 µs window of L has ended since the last one; no window completes while Qn is not ON. -/
def paceWindowEnd (n : Nat) (meas : List Nat) (c : Chip) : Chip :=
  if c.domOn (9 + n) ∧ Tab.get 0 c.st.paceAt n ≠ c.paceWindow then
    { c with st.paceAt := c.st.paceAt.set n c.paceWindow }.watch (fun c => ((c.takePace n meas).comparePace n).syncCheck)
  else c

def execPaceWindowEnd (t : Nat) (n : Fin 4) (meas : List Nat) (s : State) : Host.Outcome State Fault Refusal :=
  s.on t (fun _ => paceWindowEnd n.val meas)

/-- RESOLVE is written to HLT_ERR_CTRL of record block `i`: a FIRST entry in HOST_WAIT is resolved and LATEST moves up. A write
to an entry that is not in HOST_WAIT is ignored. -/
def errResolve (i : Nat) (c : Chip) : Chip :=
  if c.firstEmpty i = false ∧ c.rg R.HLT_ERR_FIRST_HDR_STATE i = 2 then
    if i = recChip then c.watch (fun c => c.chipResolve.syncCheck)
    else c.wg R.HLT_ERR_FIRST_HDR_STATE i 3
  else c

def execErrResolve (t : Nat) (i : Nat) (s : State) : Host.Outcome State Fault Refusal := s.on t (fun _ c => c.answeredIn 2 (fun c => (errResolve i c, stOk)))

/-! ## Take-over by a spare (R37) -/

/-- The spare sample cell sp of block b holds the program and the first coefficient set of cell k from the Almanac image (R240). -/
def Chip.loadSpare (c : Chip) (b k sp : Nat) : Chip :=
  have x := 3 * b + (k - 8)
  have y := 3 * b + (sp - 8)
  have prog := c.obj 0x0501 (smpNo x)
  have coef := c.obj 0x0503 (smpNo x)
  have bank := c.rg R.SMP_PROG_BANK_ACT x
  have c := (((c.putProgram y bank prog).putCoefs y bank 0 coef).putCoefs y bank 1 coef).putBexp y true coef
  have c := ((c.putBexp y false coef).wg R.SMP_CSET_CTRL_ARM y 0).wg R.SMP_PROG_BANK_ACT y bank
  have c := c.setCell y { SmpCell.reset with prog := (c.cell y).prog }
  (c.wb R.SMP_CELL_CFG_ENABLE y (c.rb R.SMP_CELL_CFG_ENABLE x)).smpStart y prog.isSome

/-- Did the spare shadow cell k before k was lost? -/
def Chip.hadShadow (c : Chip) (b k sp : Nat) : Bool :=
  decide (c.cellRole b sp = 2) && (decide (c.pw.swapKind = 2 ∧ c.rg R.HLT_SWAP_STAT_STATE 0 ≠ 0 ∧ c.pw.swapUnit = wearCell b k) || decide ((c.setRole b k 0).shadowSel b = some k))

/-- At the second Octave boundary after the failure the spare takes the role of the failed cell (R37); the swap record gains an
entry of cause 1 (R430). A sample spare that did not shadow it is loaded first. -/
def spareTakeover (m : Mem) (b k : Nat) (c : Chip) : Chip :=
  match c.st.takeovers.find? (fun x => decide (x.blk = b ∧ x.cell = k ∧ x.boundaries = 0)) with
  | some x =>
    have d := if 8 ≤ k ∧ c.hadShadow b k x.spare = false then c.loadSpare b k x.spare else c
    have d := { d with st.takeovers := d.st.takeovers.filter (fun (y : Takeover) => decide (y.blk ≠ b ∨ y.cell ≠ k)) }
    have d := ((d.takeRole b k x.spare).setRole b x.spare 0).spareCount
    (d.takeoverResolve b k).swapAppend m (cellKind k) 1 (wearCell b k) (wearCell b x.spare)
  | none => c

def execSpareTakeover (t : Nat) (b : Fin 32) (k : Fin 11) (s : State) : Host.Outcome State Fault Refusal :=
  s.on t (fun m => spareTakeover m b.val k.val)

/-! ## Chip units (R473, R470, R371) -/

/-- CHIP_UNIT of a unit kind and index. -/
def Chip.unitErr (c : Chip) (kind i : Nat) : Chip := c.errChip (c.mkErr 0x11 kind i 3 2 kind)

/-- An HBM stack (8), DDR5 (9), logical core (10), the host port (11) or the timing unit (12) is lost and taken out of service. -/
def Chip.unitLost (c : Chip) (m : Mem) (kind i cause : Nat) : Chip :=
  have c := c.unitErr kind i
  match kind with
  | 8 =>
    have c := c.wbit R.MEM_HBM_STAT_TRAINED 0 (i % 2) false
    if c.rg R.MEM_HBM_STAT_TRAINED 0 = 0 then c.domLost 7 else c
  | 9 => c.wg R.MEM_DDR_STAT_TRAINED 0 0
  | 10 => if i < 16 then c.coreLost m i cause else c
  | 11 => hostLinkDown c
  | _ => c

/-- CHIP_UNIT. -/
def chipUnit (m : Mem) (kind i : Nat) (c : Chip) : Chip := c.watch (fun c => c.unitLost m (8 + kind) i 1)
def execChipUnit (t : Nat) (kind : Fin 5) (i : Nat) (s : State) : Host.Outcome State Fault Refusal := s.on t (fun m => chipUnit m kind.val i)

/-- An uncorrectable read of DDR5 (R470): the reader is answered MEMORY. -/
def Chip.memUncorr (c : Chip) (a : Nat) : Chip :=
  have c := (c.wg R.MEM_EVT_DDR_UNCORR 0 1).inc C.MEM_DDR_UNCORR 0
  ((c.wg R.MEM_ERR_LO_ADDR 0 (a % 2 ^ 32)).wg R.MEM_ERR_HI_ADDR 0 (a / 2 ^ 32)).unitErr 9 0

/-- An uncorrectable read of HBM stack `st` at an address (R470). -/
def Chip.hbmUncorr (c : Chip) (st a : Nat) : Chip :=
  have c := (c.wg R.MEM_EVT_HBM_UNCORR 0 1).inc C.MEM_HBM_UNCORR 0
  have a := a % 2 ^ 47 + 2 ^ 47
  ((c.wg R.MEM_ERR_LO_ADDR 0 (a % 2 ^ 32)).wg R.MEM_ERR_HI_ADDR 0 (a / 2 ^ 32)).unitErr 8 st

/-- SPILL_REFILL (R189); `bad` is the HBM stack and address of an uncorrectable error in what is read (R470): the frame's bytes are then
open (log entry 84). -/
def spillRefill (q : Nat) (bad : Option (Fin 2 × Nat)) (c : Chip) : Chip := match c.spillNext q with
  | none => c
  | some (x, k) =>
    match bad with
    | none => c.refill q x k
    | some b =>
      have r := c.draw
      (r.2.watch (fun c => c.hbmUncorr b.1.val b.2)).refill q { x with f := { x.f with bytes := (List.range x.f.bytes.length).map (fun i => BitVec.ofNat 8 (r.1 / 256 ^ i)) } } k
def execSpillRefill (t : Nat) (q : Fin 32768) (bad : Option (Fin 2 × Nat)) (s : State) : Host.Outcome State Fault Refusal :=
  s.on t (fun _ => spillRefill q.val bad)

/-- MEM_SCRUB_PASS: a patrol scrub of DDR5 completes, SCRUB_H hours after the one before; words corrected, post-package repairs, the address of an uncorrectable word. -/
def memScrubPass (corr ppr : Nat) (bad : Option Nat) (c : Chip) : Chip :=
  have h := c.rg R.MEM_DDR_CFG_SCRUB_H 0
  if c.ddrOk = false ∨ h = 0 ∨ c.now < c.pw.scrubAt + h * 3600 * secPs then c
  else
    have c := (({ c with pw.scrubAt := c.now }.inc C.MEM_SCRUB_PASSES 0).incBy C.MEM_DDR_CORR 0 corr).incBy C.MEM_DDR_PPR 0 ppr
    match bad with
    | some a => c.memUncorr a
    | none => c
def execMemScrubPass (t : Nat) (corr ppr : Nat) (bad : Option Nat) (s : State) : Host.Outcome State Fault Refusal := s.on t (fun _ => memScrubPass corr ppr bad)

/-! ## EVENTIDE (R427) -/

/-- Step k of the sequence begins. -/
def Chip.evGo (c : Chip) (k bound : Nat) : Chip :=
  { c with pw.evStep := k, pw.evLate := c.pw.evLate || decide (c.pw.evAt + bound < c.now), pw.evAt := c.now }

/-- EVENTIDE_QUIESCED: step 1 is done. Lasers are shut, queued frames are dropped, Omlia's archive block is written, or skipped
where it is late (`block` none). -/
def eventideQuiesced (block : Option (List Byte)) (m : Mem) (c : Chip) : Chip :=
  if c.pw.evStep ≠ 1 ∨ (c.up.dyingSent = false ∧ c.now < c.pw.evAt + 10 * msPs) then c
  else
    have c := (c.dropGrants.shutGates (List.range 16)).portsDown (List.range 128)
    have c := c.qs.frames.foldl (fun (d : Chip) x => if d.qDir x.q = 0 then (d.unqueue x).inc C.PRT_TX_FLUSH (d.qPort x.q) else d.unqueue x) c
    have c := match block with
      | some b => (c.mem (.flash (c.archBase m + 65536) (b.take (c.archLen m - 65536)))).wg R.HLT_ST_STAT_ARCHIVED 0 1
      | none => c.wg R.HLT_ST_STAT_ARCHIVED 0 0
    { c.evGo 2 (10 * msPs) with pw.evLate := c.pw.evLate || block.isNone }
def execEventideQuiesced (t : Nat) (block : Option (List Byte)) (s : State) : Host.Outcome State Fault Refusal := s.on t (fun m => eventideQuiesced block m)

/-- EVENTIDE_ARCHIVED: step 2 is done. The scan interlock runs (`clear`: every key register reads zero) and sessions close. -/
def eventideArchived (clear : Bool) (c : Chip) : Chip :=
  if c.pw.evStep ≠ 2 then c else (((c.evGo 3 secPs).scanInterlock clear).sessCloseAll 5)
def execEventideArchived (t : Nat) (clear : Bool) (s : State) : Host.Outcome State Fault Refusal := s.on t (fun _ => eventideArchived clear)

/-- EVENTIDE_SCAN_ENABLED: SCAN_EN is set, or the bound of step 3 has passed: the self-test runs. -/
def eventideScanEnabled (c : Chip) : Chip :=
  if c.pw.evStep = 3 ∧ (c.rb R.SEC_STAT_SCAN_EN 0 = true ∨ c.pw.evAt + 10 * msPs ≤ c.now) then { c.evGo 4 (10 * msPs) with pw.stDone := 0, pw.stFail := 0 } else c
def execEventideScanEnabled (t : Nat) (s : State) : Host.Outcome State Fault Refusal := s.on t (fun _ => eventideScanEnabled)

/-! ## The self-test record (R428, R429) -/

/-- The domain of a partition (R428, R407). -/
def partDom (p : Nat) : Nat :=
  if p < 352 then wearDom p else if p < 384 then 9 + (p - 352) / 8 else if p < 388 then 9 + (p - 384) else if p < 389 then 6 else if p < 406 then 8 else 2

/-- A bit map of 512 bits as 64 bytes, bit p in bit p mod 8 of byte p ÷ 8. -/
def mapBytes (v : Nat) : List Byte := (List.range 64).map (fun i => BitVec.ofNat 8 (v / 256 ^ i))
def mapNat (b : List Byte) : Nat := b.foldr (fun x a => a * 256 + x.toNat) 0

/-- The valid swap record: its header and entries; nothing where no header of this terminal stands. -/
def Chip.swapBytes (c : Chip) (m : Mem) : List Byte :=
  have h := m.flashRead (c.archBase m + 4096) 16
  if h = beBytes 4 0x4B515357 ++ c.serial then h ++ (c.swapEntries m).flatten else []

/-- Fuse bits 3,840 to 6,911 in fuse words, each most significant byte first. -/
def Chip.repairBytes (c : Chip) : List Byte := (List.range 96).flatMap (fun w => beBytes 4 (c.fuse (3840 + 32 * w) 32))
def Chip.repairDigest (c : Chip) (m : Mem) : List Byte := sha3_512 (c.repairBytes ++ c.swapBytes m)

/-- The record with its digest. -/
def Chip.stRecord (c : Chip) (m : Mem) (result : Nat) : List Byte :=
  have h := beBytes 4 0x4B515354 ++ beBytes 2 1 ++ beBytes 1 result ++ [0xFF] ++ c.serial ++ beBytes 4 (c.rg R.ALM_GEN_ACTIVE_GEN 0) ++
    beBytes 6 (secOf c.lNow) ++ beBytes 1 (c.rg R.HLT_ST_CFG_PATTERNS_LOG2 0) ++ zeros 1 ++ c.repairDigest m ++ mapBytes c.pw.stFail ++ mapBytes c.pw.stDone ++ zeros 32
  h ++ sha3_512 h

/-- RESULT of the self-test in progress. -/
def Chip.stResult (c : Chip) : Nat := if c.pw.evLate then 2 else if c.pw.stFail ≠ 0 then 1 else 0

/-- A domain has power or can be woken: neither it nor one that it depends on is FAILED (R413, R414). -/
def Chip.canPower (c : Chip) (d : Nat) : Bool :=
  have up := domParents d
  have upper := up.flatMap domParents
  (d :: (up ++ upper ++ upper.flatMap domParents)).all (fun e => decide (c.pstate e ≠ 3))

/-- The island of a partition, as `domIslands` numbers them, if it lies in one. -/
def partIsland (p : Nat) : Option Nat :=
  if p < 352 then some (2 * (p / 11) + (if p % 11 < 8 then 0 else 1))
  else if p < 384 then some (2 * (p - 352))
  else if 389 ≤ p ∧ p < 406 then some (64 + (p - 389))
  else none

/-- Is a partition powered, or can it be woken (R427 step 4)? -/
def Chip.testable (c : Chip) (p : Nat) : Bool :=
  c.canPower (partDom p) && (match partIsland p with
    | some i => !bit c.pw.islFailed i && !c.islandHeld i
    | none => true)

/-- EVENTIDE_SELFTEST_DONE: the partitions that failed, as a bit map; every partition that can be powered was tested, and the record is
written. Scan ends. -/
def eventideSelftestDone (fail : Nat) (m : Mem) (c : Chip) : Chip :=
  if c.pw.evStep ≠ 4 then c
  else
    have d := (List.range 425).foldl (fun w p => w + b2n (c.testable p && c.rb R.SEC_STAT_SCAN_EN 0) * 2 ^ p) 0
    have c := { (c.evGo 5 (2 * secPs * 2 ^ c.rg R.HLT_ST_CFG_PATTERNS_LOG2 0 / 65536)) with pw.stDone := d, pw.stFail := d &&& fail }
    have c := c.wg R.SEC_STAT_SCAN_EN 0 0
    c.mem (.flash (c.archBase m) (c.stRecord m c.stResult))
def execEventideSelftestDone (t : Nat) (fail : Nat) (s : State) : Host.Outcome State Fault Refusal := s.on t (fun m => eventideSelftestDone fail m)

/-- EVENTIDE_RECORD_WRITTEN: the record stands, with RESULT 2 where its writing was late. In EVENTIDE every domain but TIME, AON and CTRL
goes OFF in descending order, CTRL enters RETENTION, and COMPLETE is set; in SELFCHECK the outcome waits to be acted on. -/
def eventideRecordWritten (m : Mem) (c : Chip) : Chip :=
  if c.pw.evStep ≠ 5 then c
  else
    have late := decide (c.pw.evAt + 500 * msPs < c.now) && !c.pw.evLate
    have c := c.evGo 6 (500 * msPs)
    have c := if late then c.mem (.flash (c.archBase m) (c.stRecord m 2)) else c
    if c.pw.evCheck then c
    else
      have c := c.watch (fun c => (c.powerCut [16, 15, 14, 13, 12, 11, 10, 9, 8, 7, 6, 5, 4, 3]).setPstate 2 1)
      c.wg R.PWR_STAT_COMPLETE 0 1
def execEventideRecordWritten (t : Nat) (s : State) : Host.Outcome State Fault Refusal := s.on t (fun m => eventideRecordWritten m)

/-! ## SELFCHECK (R431) -/

/-- Is a self-test record valid for this start? -/
def Chip.stValid (c : Chip) (m : Mem) (b : List Byte) : Bool :=
  decide (slice b 0 4 = beBytes 4 0x4B515354 ∧ slice b 4 2 = beBytes 2 1 ∧ byteAt b 7 = 0xFF ∧ slice b 8 12 = c.serial) &&
    decide (slice b 256 64 = sha3_512 (b.take 256)) && decide (slice b 32 64 = c.repairDigest m) && decide (byteAt b 6 ≤ 1)

/-- A failed partition raises the error of its unit, and its swap is direct, with cause 2. -/
def Chip.partFail (c : Chip) (m : Mem) (p : Nat) : Chip :=
  if p < 352 then
    have b := p / 11
    have k := p % 11
    have c := c.errCellLost b k (c.mkErr 0x08 (cellSrcKind k) (cellSrcIndex b k) 0 2 k)
    match c.st.takeovers.find? (fun x => decide (x.blk = b ∧ x.cell = k)) with
    | some x =>
      have c := { c with st.takeovers := c.st.takeovers.filter (fun (y : Takeover) => decide (y.blk ≠ b ∨ y.cell ≠ k)) }
      have c := if 8 ≤ k then c.loadSpare b k x.spare else c
      have c := ((c.takeRole b k x.spare).setRole b x.spare 0).spareCount
      (c.takeoverResolve b k).swapAppend m (cellKind k) 2 p (wearCell b x.spare)
    | none => c
  else if p < 384 then c.errRegion ((p - 352) / 8) (c.mkErr 0x0A 4 (p - 352) 2 2 (p - 352))
  else if p < 388 then c.errChip (c.mkErr 0x10 5 (p - 384) 3 3 (p - 384))
  else if p = 388 then c.unitErr 5 4
  else if p < 406 then
    have spare := c.rb R.HLT_SPARE_CHIP_TRK_ENG 0
    have c := c.islandLost (64 + (p - 389))
    if spare ∧ p < 405 then c.swapAppend m 3 2 (352 + (p - 389)) 368 else c
  else if p < 423 then
    match (List.range 16).find? (fun j => decide (c.rg R.MCU_CORE_STAT_PHYS j = p - 406)) with
    | some j => c.unitLost m 10 j 2
    | none => (c.unitErr 10 16).wg R.HLT_SPARE_CHIP_MCU 0 0
  else if p = 423 then c.unitErr 14 0
  else c.unitErr 11 1

/-- The outcome is acted on, and the terminal leaves SELFCHECK (R117). -/
def Chip.checkEnd (c : Chip) (m : Mem) (outcome fails : Nat) : Chip :=
  have c := ((c.wg R.HLT_ST_STAT_OUTCOME 0 outcome).wg R.HLT_ST_STAT_FAILS 0 (popCount 425 fails)).wg R.HLT_EVT_ST_DONE 0 1
  have c := forN 16 (fun j d => d.wg R.HLT_ST_FAIL_MAP j (bits fails (32 * j) 32)) c
  have c := if outcome = 2 then c.watch (fun c => ((List.range 425).filter (fun p => bit fails p)).foldl (fun d p => d.partFail m p) c) else c
  have c := { c with pw.evStep := 0, pw.evCheck := false, pw.evLate := false }
  if c.rb R.TRK_GUARD_STAT_QUAR 0 then c.enterQuarantine 2 else c.enterListen 2

/-- SELFCHECK_DONE: the record is read, FRESH is programmed to 0, and its outcome is acted on; or, with FULL_ON_MISS, steps 3 to 5 of R427
run first (`clear` as at EVENTIDE_ARCHIVED), and this command acts on what they found. -/
def selfcheckDone (clear : Bool) (m : Mem) (c : Chip) : Chip :=
  if c.mode ≠ 1 then c
  else if c.pw.evCheck then
    if c.pw.evStep ≠ 6 then c
    else (c.mem (.flash (c.archBase m + 7) (zeros 1))).checkEnd m (if c.pw.stFail = 0 then 1 else 2) c.pw.stFail
  else
    have b := m.flashRead (c.archBase m) 320
    if c.stValid m b then
      have fail := if byteAt b 6 = 1 then mapNat (slice b 96 64) else 0
      (c.mem (.flash (c.archBase m + 7) (zeros 1))).checkEnd m (if byteAt b 6 = 1 then 2 else 1) fail
    else
      have c := c.mem (.flash (c.archBase m + 7) (zeros 1))
      if c.rb R.HLT_ST_CFG_FULL_ON_MISS 0 then
        have c := { c with pw.evStep := 3, pw.evAt := c.now, pw.evLate := false, pw.evCheck := true }
        ((c.wg R.HLT_ST_STAT_OUTCOME 0 3).scanInterlock clear).sessCloseAll 5
      else (c.wg R.HLT_ST_STAT_UNTESTED 0 1).checkEnd m 3 0
def execSelfcheckDone (t : Nat) (clear : Bool) (s : State) : Host.Outcome State Fault Refusal := s.on t (fun m => selfcheckDone clear m)

/-! ## Wear (R432, R433) -/

/-- WARN, SWAP and SHADOW_MIN of a kind. -/
def Chip.policy (c : Chip) (kind : Nat) : Nat × Nat × Nat := match c.obj 0x0801 kind with
  | some b => (word b 4, word b 8, byteAt b 1)
  | none => (0xFFFFFFFF, 0xFFFFFFFF, 8)

/-- WEAR_UPDATE: VAL and AUX of a unit, once a minute. LEVEL rises with VAL; an AUX that reaches SWAP of the SRAM kind has its row or column repaired
at the next commit. -/
def wearUpdate (w val aux : Nat) (c : Chip) : Chip :=
  if c.spanOver (c.pw.wearAt.find w) (60 * secPs) = false then c
  else
  have c := ({ c with pw.wearAt := c.pw.wearAt.set w c.now }.wg R.HLT_WEAR_VAL_VALUE w val).wg R.HLT_WEAR_AUX_VALUE w aux
  have p := c.policy (wearKind w)
  have old := c.rg R.HLT_WEAR_STAT_LEVEL w
  have lvl := if p.2.1 ≤ val % 2 ^ 32 then 2 else if p.1 ≤ val % 2 ^ 32 then 1 else 0
  have c := if old < lvl then
      have c := c.wg R.HLT_WEAR_STAT_LEVEL w lvl
      if lvl = 2 then c.wg R.HLT_EVT_WEAR_DUE 0 1 else c.wg R.HLT_EVT_WEAR_WARN 0 1
    else c
  have sram := decide (w < 369 ∨ (423 ≤ w ∧ w < 440)) && decide ((c.policy 7).2.1 ≤ aux % 2 ^ 32)
  if sram ∧ c.pw.sramDue.contains w = false then { c with pw.sramDue := c.pw.sramDue ++ [w] } else c
def execWearUpdate (t : Nat) (w : Fin 515) (val aux : Nat) (s : State) : Host.Outcome State Fault Refusal := s.on t (fun _ => wearUpdate w.val val aux)

/-- Repairs that wait for a commit are made (R40, R432). -/
def Chip.sramRepair (c : Chip) : Chip := c.pw.sramDue.foldl (fun d w => d.emit .copied w [] []) { c with pw.sramDue := [] }

/-! ## Planned swaps (R434, R435) -/

/-- Units of a range with LEVEL RETIRED. -/
def Chip.retired (c : Chip) (lo n : Nat) : Nat := ((List.range n).filter (fun i => decide (c.rg R.HLT_WEAR_STAT_LEVEL (lo + i) = 3))).length

/-- The spare that would serve unit u, where u is active and a healthy spare of its kind serves it. -/
def Chip.swapFor (c : Chip) (u : Nat) : Option Nat :=
  if c.rg R.HLT_WEAR_STAT_LEVEL u = 3 ∨ c.domOn (wearDom u) = false then none
  else match wearKind u with
    | 3 =>
      if c.rb R.HLT_SPARE_CHIP_TRK_ENG 0 ∧ u < 368 ∧ c.engineOf (u - 352) = u - 352 ∧ bit c.st.engLost (u - 352) = false ∧ (c.up.ranging.any (fun r => decide (r.side ≠ c.rg R.TRK_SIDE_STAT_ACTIVE 0))) = false then some 368 else none
    | 4 =>
      have left := c.rg R.HLT_SPARE_CHIP_TRK_LASER 0
      if left ≠ 0 ∧ u < 387 - left then some (387 - left) else none
    | 5 =>
      have left := c.rg R.HLT_SPARE_CHIP_LOC_LASER 0
      if left ≠ 0 ∧ u < 423 - left then some (423 - left) else none
    | 6 => if (List.range 16).any (fun j => decide (c.rg R.MCU_CORE_STAT_PHYS j = u - 423)) then some (423 + c.rg R.MCU_SPARE_STAT_PHYS 0) else none
    | 8 =>
      have s := (u - 440) / 34
      have used := c.retired (440 + 34 * s) 34
      if used < 2 ∧ (u - 440) % 34 < 32 + used then some (440 + 34 * s + 32 + used) else none
    | 9 =>
      have sp := 508 + c.rg R.MEM_DDR_STAT_RANKS 0
      if c.rb R.HLT_SPARE_CHIP_DDR_RANK 0 ∧ u < sp then some sp else none
    | 10 =>
      have n := u - 512
      have sp := c.rg R.TMG_OSC_STAT_SPARE 0
      if sp ≠ 3 ∧ (c.rg R.TMG_OSC_STAT_PRIMARY 0 = n ∨ c.rg R.TMG_OSC_STAT_SECONDARY 0 = n) then some (512 + sp) else none
    | _ =>
      if c.cellRole (u / 11) (u % 11) = 0 then (c.spareOf (u / 11) (cellKind (u % 11))).map (fun k => wearCell (u / 11) k) else none

/-- A swap enters SHADOW: a spare cell receives mirrored inputs, a sample spare starts anew on its target (R240). -/
def Chip.swapShadow (c : Chip) (u sp : Nat) : Chip :=
  have c := { ((((c.wg R.HLT_SWAP_STAT_STATE 0 1).wg R.HLT_SWAP_STAT_RESTARTS 0 0).wg R.HLT_SWAP_STAT_OCTAVES 0 0).wg R.HLT_SWAP_STAT_SPARE 0 sp) with pw.swapKind := wearKind u, pw.swapUnit := u, pw.swapSpare := sp, pw.swapAt := c.now, pw.swapWait := none, pw.swapTxn := none }
  have c :=
    if wearKind u ≤ 2 then
      have b := u / 11
      have c := (c.setRole b (sp % 11) 2).spareCount
      if wearKind u = 2 then
        have x := 3 * b + (u % 11 - 8)
        have y := 3 * b + (sp % 11 - 8)
        c.copyCell x y
      else c
    else c
  if c.mode = 8 ∨ c.mode = 11 then c.swapFail 3 else c

/-- SWAP_GO: a write of HLT_SWAP_CMD. -/
def swapGo (m : Mem) (v : Nat) (c : Chip) : Chip × Nat :=
  have u := bits v 0 10
  have d := c.wg R.HLT_SWAP_CMD_UNIT 0 u
  if bit v 16 = false then (d, stOk)
  else if 515 ≤ u ∨ c.rg R.HLT_SWAP_STAT_STATE 0 ≠ 0 then (c, stRefused)
  else match c.swapFor u with
    | none => (c, stRefused)
    | some sp =>
      match wearKind u with
      | 6 =>
        match (List.range 16).find? (fun j => decide (d.rg R.MCU_CORE_STAT_PHYS j = u - 423)) with
        | some j =>
          have r := d.coreSwap j
          if r.2 = stOk then r else (c, r.2)
        | none => (c, stRefused)
      | 10 =>
        have d := { (d.oscMove (u - 512)) with pw.swapKind := 10, pw.swapUnit := u, pw.swapSpare := sp }
        (d.swapDone m, stOk)
      | _ => (d.watch (fun d => d.swapShadow u sp), stOk)
def execSwapGo (t : Nat) (v : Nat) (s : State) : Host.Outcome State Fault Refusal := s.on t (fun m c => c.answeredIn 2 (swapGo m v))

/-- Is the spare of the swap in shadow still there? -/
def Chip.swapSpareOk (c : Chip) : Bool :=
  have sp := c.pw.swapSpare
  if c.pw.swapKind ≤ 2 then decide (c.cellRole (sp / 11) (sp % 11) = 2) && !(c.st.takeovers.any (fun x => decide (x.blk = sp / 11 ∧ x.spare = sp % 11)))
  else if c.pw.swapKind = 3 then c.rb R.HLT_SPARE_CHIP_TRK_ENG 0
  else if c.pw.swapKind = 8 then decide (c.rg R.HLT_WEAR_STAT_LEVEL sp ≠ 3 ∧ c.rg R.HLT_SPARE_CHIP_HBM_PC 0 ≠ 0)
  else true

/-- An Octave of the shadow ends: clean, or with a mismatch, which restarts the count; the third restart ends the swap (R434). -/
def Chip.swapOctave (c : Chip) (mismatch : Bool) : Chip :=
  if c.rg R.HLT_SWAP_STAT_STATE 0 ≠ 1 ∨ c.pw.swapKind = 8 ∨ c.pw.swapKind = 9 then c
  else if c.swapSpareOk = false then c.swapFail 2
  else if mismatch then
    have n := c.rg R.HLT_SWAP_STAT_RESTARTS 0 + 1
    have c := (c.wg R.HLT_SWAP_STAT_RESTARTS 0 n).wg R.HLT_SWAP_STAT_OCTAVES 0 0
    if 3 ≤ n then c.swapFail 1 else c
  else c.wsat R.HLT_SWAP_STAT_OCTAVES 0 (c.rg R.HLT_SWAP_STAT_OCTAVES 0 + 1)

/-- SWAP_SHADOW_DONE: SHADOW_MIN clean Octaves have passed. An internal transaction with POINT_KIND 0 takes a slot, or waits for one. -/
def swapShadowDone (c : Chip) : Chip :=
  if c.rg R.HLT_SWAP_STAT_STATE 0 ≠ 1 ∨ c.pw.swapKind = 8 ∨ c.pw.swapKind = 9 ∨ c.rg R.HLT_SWAP_STAT_OCTAVES 0 < (c.policy c.pw.swapKind).2.2 then c
  else if c.swapSpareOk = false then c.swapFail 2
  else match c.txnFree with
    | some slot =>
      have r := c.txnOpen slot 4 .swap
      have c := { r.1 with alm.orders := c.alm.orders + 1, pw.swapTxn := some r.2, pw.swapWait := none }
      have c := { c with alm.txns := c.alm.txns.map (fun (x : Txn) => if x.slot = slot then { x with pending := true, kind := 0, value := c.nextPoint, order := c.alm.orders } else x) }
      c.wg R.HLT_SWAP_STAT_STATE 0 2
    | none => { c with pw.swapWait := some (c.pw.swapWait.getD c.now) }
def execSwapShadowDone (t : Nat) (s : State) : Host.Outcome State Fault Refusal := s.on t (fun _ => swapShadowDone)

/-- SWAP_SLOT_TIMEOUT: no slot within 1 s. -/
def swapSlotTimeout (c : Chip) : Chip := match c.pw.swapWait with
  | some a => if a + secPs ≤ c.now ∧ c.rg R.HLT_SWAP_STAT_STATE 0 = 1 then c.swapFail 4 else c
  | none => c
def execSwapSlotTimeout (t : Nat) (s : State) : Host.Outcome State Fault Refusal := s.on t (fun _ => swapSlotTimeout)

/-- SPARE_COPY_DONE: the copy of a pseudo-channel or rank is complete; the remap waits for an Octave boundary (R435). -/
def spareCopyDone (c : Chip) : Chip :=
  if c.rg R.HLT_SWAP_STAT_STATE 0 = 1 ∧ (c.pw.swapKind = 8 ∨ c.pw.swapKind = 9) then
    if c.swapSpareOk then { ((c.emit .copied c.pw.swapSpare [c.pw.swapUnit] []).wg R.HLT_SWAP_STAT_STATE 0 2) with pw.remap := some (c.pw.swapUnit, c.pw.swapSpare) } else c.swapFail 2
  else c
def execSpareCopyDone (t : Nat) (s : State) : Host.Outcome State Fault Refusal := s.on t (fun _ => spareCopyDone)

/-- The remap at an Octave boundary. -/
def Chip.remapDone (c : Chip) (m : Mem) : Chip := match c.pw.remap with
  | some _ =>
    have c := if c.pw.swapKind = 8 then c.wg R.MEM_HBM_STAT_REMAPPED 0 (c.rg R.MEM_HBM_STAT_REMAPPED 0 + 1) else c
    { c.swapDone m with pw.remap := none }
  | none => c

end Sys2Proof.Machine
end

