-- ==== Sys2Proof/Machine/Outputs.lean ====
section
/-! DEFINITION. What the timing unit sends: PPS_OUT, TOD_TX, PTP Sync and ESMC (09_time_and_sync.md R295 to R301). -/

namespace Sys2Proof.Machine

open Sys2Proof

/-- Is CLASS HOLD_OUT, or HOLD_IN, in force (R287)? -/
def Chip.inHold (c : Chip) (inside : Bool) : Bool :=
  decide (c.rg R.TMG_STAT_STATE 0 = 1 ∨ c.rg R.TMG_STAT_STATE 0 = 3) && c.rb R.TMG_STAT_OUT_VALID 0 && (c.holdIn == inside)

/-- Is an output with squelch field `sq` held at its inactive level (R295)? -/
def Chip.squelched (c : Chip) (sq : Nat) : Bool :=
  decide (1 ≤ sq) && (decide (c.rg R.TMG_STAT_STATE 0 = 0) || (decide (sq = 2) && c.inHold false))

/-- The level of FREQ_OUT, none while it is high impedance (R295): a 10 MHz square wave that rises where NS of L is a multiple of 100,
low while it is off or squelched. -/
def Chip.freqOut (c : Chip) : Option Bool :=
  if c.running = false then none
  else some (c.rb R.TMG_OUT_CFG_FREQ_EN 0 && c.domOn 1 && !c.squelched (c.rg R.TMG_OUT_CFG_FREQ_SQ 0) && decide (nsOf c.lNow % 100 < 50))

/-- The whole second nearest to a local time, and the distance from it in 2⁻¹⁶ ns. -/
def nearSec (l : Int) : Nat × Nat :=
  have s := (l + 32768000000000) / 65536000000000
  (s.toNat, (l - s * 65536000000000).natAbs)

/-- PPS_OUT_EDGE: output `j` drives its active edge ADV ns before a whole second of L (to 1 ns, log entry 1), unless it is off,
squelched, or without TIME_VIO. -/
def ppsOutEdge (j : Nat) (c : Chip) : Chip :=
  have n := nearSec (c.lNow + (c.rg R.TMG_PPSOUT_CFG_ADV j : Int) * 65536)
  if c.rb R.TMG_PPSOUT_CFG_EN j = false ∨ c.squelched (c.rg R.TMG_PPSOUT_CFG_SQ j) = true ∨ c.tm.timeVio = false ∨ c.domOn 1 = false ∨ 65536 < n.2 then c
  else
    have c := c.emit .ppsEdge j [n.1, c.rg R.TMG_PPSOUT_CFG_POL j, c.rg R.TMG_PPSOUT_CFG_WIDTH j] []
    if j = 0 then { c with tm.ppsOutSec := some (n.1, c.now) }.linePulse 2 else c

def execPpsOutEdge (t : Nat) (j : Fin 2) (s : State) : Host.Outcome State Fault Refusal := s.on t (fun _ => ppsOutEdge j.val)

/-- The TOD message that names an edge of TAI second `sec` (R279, R296). -/
def Chip.todMessage (c : Chip) (sec : Nat) : List Byte :=
  have valid := decide (c.rg R.TMG_STAT_STATE 0 = 2) || c.inHold true
  have l := beBytes 2 0xA55A ++ beBytes 1 1 ++ beBytes 1 (b2n valid + 2 * c.rg R.TMG_UTC_PENDING 0 + 4 * c.rg R.TMG_UTC_DIR 0) ++ beBytes 6 sec ++
    beBytes 2 (c.rg R.TMG_UTC_OFFSET 0) ++ beBytes 6 (c.rg R.TMG_LEAP_AT_LO_SEC 0 + c.rg R.TMG_LEAP_AT_HI_SEC 0 * 2 ^ 32) ++ zeros 4
  l ++ beBytes 2 (crc16 l)

/-- TOD_TX_SEND: 100 ms after an edge of PPS_OUT[0] that was driven. -/
def todTxSend (c : Chip) : Chip := match c.tm.ppsOutSec with
  | some (sec, a) =>
    if a + 100 * msPs ≤ c.now then
      have c := { c with tm.ppsOutSec := none }
      if c.rb R.TMG_OUT_CFG_TOD_EN 0 ∧ c.tm.timeVio = true ∧ c.domOn 1 = true then c.emit .todMsg 0 [sec] (c.todMessage sec) else c
    else c
  | none => c

def execTodTxSend (t : Nat) (s : State) : Host.Outcome State Fault Refusal := s.on t (fun _ => todTxSend)

/-- PTP_SYNC_SEND: a Sync instant of port `p` (to 1 ns, log entry 1). -/
def ptpSyncSend (p : Nat) (c : Chip) : Chip :=
  have past := c.syncPast p
  if c.rg R.TMG_PTP_CFG_ROLE p = 1 ∧ c.domOn 1 = true ∧ c.portEnabled p = true ∧ (past ≤ 65536 ∨ c.syncIvl p - past ≤ 65536) then c.hwSend p .syncFrame false else c

def execPtpSyncSend (t : Nat) (p : Fin 128) (s : State) : Host.Outcome State Fault Refusal := s.on t (fun _ => ptpSyncSend p.val)

/-- ESMC_INFO_SEND: the information PDU of each second. -/
def esmcInfoSend (p : Nat) (c : Chip) : Chip :=
  if c.rb R.TMG_PTP_CFG_ESMC_EN p ∧ c.domOn 1 = true then c.hwSend p .esmcPdu false else c

def execEsmcInfoSend (t : Nat) (p : Fin 128) (s : State) : Host.Outcome State Fault Refusal := s.on t (fun _ => esmcInfoSend p.val)

/-- ESMC_EVENT_SEND: the event PDU that a change of QL owes the port. -/
def esmcEventSend (p : Nat) (c : Chip) : Chip :=
  if bit c.tm.esmcDue p ∧ c.rb R.TMG_PTP_CFG_ESMC_EN p = true ∧ c.domOn 1 = true then
    { c with tm.esmcDue := clrBit c.tm.esmcDue p }.hwSend p .esmcPdu true
  else c

def execEsmcEventSend (t : Nat) (p : Fin 128) (s : State) : Host.Outcome State Fault Refusal := s.on t (fun _ => esmcEventSend p.val)

end Sys2Proof.Machine
end

