-- ==== Sys2Proof/Machine/Reads.lean ====
section
/-! DEFINITION. What registers and counters read as (00_scope.md R9, R10; 03_trunk_downstream.md R111, R112;
16_register_map.md R465, R467 to R469), and the event bits that the host sees (11_host_control_and_dma.md R347, R348). -/

namespace Sys2Proof.Machine

open Sys2Proof

/-! ## HST_EVT_PEND (R347, R348) -/

/-- Is some bit of a field set in an instance whose own EVT_EN is 1? -/
def Chip.evFam (c : Chip) (en f : Fld) (n : Nat) : Bool := (c.instances f n).any (fun i => c.rb en i)

/-- Does unit u, in the order of the address map, hold an event bit that raises a ZCP EVENT under its EVT_EN? -/
def Chip.evUnit (c : Chip) (u : Nat) : Bool := match u with
  | 0 => c.rb R.CHIP_CFG_EVT_EN 0 && (c.rb R.CHIP_EVT_REGION_CHG 0 || c.rb R.CHIP_EVT_BLOCK_CHG 0)
  | 1 => c.rb R.ALM_EVT_EVT_EN 0 && (c.rb R.ALM_EVT_LOAD_CHG 0 || c.rb R.ALM_EVT_JUB_CHG 0)
  | 2 => c.evFam R.TRK_DS_CFG_EVT_EN R.TRK_DS_EVT_SFC_JUMP 16 || c.evFam R.TRK_DS_CFG_EVT_EN R.TRK_DS_EVT_CHG 16 ||
      c.evFam R.TRK_CHMON_CFG_EVT_EN R.TRK_CHMON_STATE_CHG 1024 || (c.rb R.TRK_MODE_CTRL_EVT_EN 0 && c.rb R.TRK_MODE_EVT_MODE_CHG 0) ||
      c.rb R.TRK_SIDE_STAT_SWITCHED 0 || c.rb R.TRK_GUARD_STAT_TRIPPED 0
  | 5 => [R.SMP_CELL_EVT_SLIP, R.SMP_CELL_EVT_MISSING, R.SMP_CELL_EVT_ARR_OVR, R.SMP_CELL_EVT_SAT, R.SMP_CELL_EVT_ACC_SAT, R.SMP_CELL_EVT_FLIP,
      R.SMP_CELL_EVT_HANDOVER, R.SMP_CELL_EVT_MISMATCH, R.SMP_PATH_EVT_LATE, R.SMP_PATH_EVT_SUPERSEDED, R.SMP_PATH_EVT_SET_LOST,
      R.SMP_PATH_EVT_SYM_LOSS, R.SMP_PATH_EVT_FMT].any (fun f => c.evFam R.SMP_CELL_CFG_EVT_EN f 96)
  | 6 => c.rb R.TMG_SEL_CFG_EVT_EN 0 && [R.TMG_EVT_STATE_CHG, R.TMG_EVT_SEL_CHG, R.TMG_EVT_EQX_DONE, R.TMG_EVT_EQX_LARGE, R.TMG_EVT_STEPPED,
      R.TMG_EVT_STEP_REFUSED, R.TMG_EVT_SLEW_REFUSED, R.TMG_EVT_LEAP_DONE, R.TMG_EVT_A_LOST, R.TMG_EVT_B_LOST, R.TMG_EVT_OSC_FAULT,
      R.TMG_EVT_VIG_LIMIT, R.TMG_EVT_PPS_STUCK].any (fun f => c.rb f 0)
  | 7 => [R.PRT_EVT_LINK_CHG, R.PRT_EVT_FAULT, R.PRT_EVT_PAUSE_WD, R.PRT_EVT_WAKE_FAIL, R.PRT_EVT_SEC_FAIL].any (fun f => c.evFam R.PRT_CFG_EVT_EN f 128)
  | 8 => c.rb R.HST_STAT_SSC_MISMATCH 0
  | 9 => c.rb R.SBS_CFG_EVT_EN 0 && [R.SBS_EVT_ALARM, R.SBS_EVT_ALARM_STUCK, R.SBS_EVT_POLL_LOST, R.SBS_EVT_GUARD_HELD].any (fun f => c.rb f 0)
  | 10 => c.evFam R.DMA_CH_CFG_EVT_EN R.DMA_CH_STAT_DONE 64 || c.evFam R.DMA_CH_CFG_EVT_EN R.DMA_CH_STAT_ERROR 64
  | 11 => c.rb R.MCU_CTRL_EVT_EN 0 && (c.mc.pulse || !(c.instances R.MCU_TASK_STAT_FAULT 512).isEmpty)
  | 12 => c.rb R.SEC_CFG_EVT_EN 0 && [R.SEC_EVT_ALARM, R.SEC_EVT_ENT_FAIL, R.SEC_EVT_TAG_ALARM, R.SEC_EVT_PN_NEAR, R.SEC_EVT_DONE,
      R.SEC_EVT_BOOT_HALT].any (fun f => c.rb f 0)
  | 13 => c.rb R.PWR_CFG_EVT_EN 0 && [R.PWR_EVT_DOM_CHG, R.PWR_EVT_REFUSED, R.PWR_EVT_FAIL, R.PWR_EVT_THROTTLE, R.PWR_EVT_CP_RANGE,
      R.PWR_EVT_WAKE_STUCK].any (fun f => c.rb f 0)
  | 14 => c.evFam R.HLT_ERR_CTRL_EVT_EN R.HLT_ERR_CTRL_NEW 704 || (c.rb R.HLT_ST_CFG_EVT_EN 0 &&
      [R.HLT_EVT_WEAR_WARN, R.HLT_EVT_WEAR_DUE, R.HLT_EVT_SWAP_DONE, R.HLT_EVT_SWAP_FAIL, R.HLT_EVT_ST_DONE].any (fun f => c.rb f 0))
  | 15 => c.rb R.MEM_DDR_CFG_EVT_EN 0 && (c.rb R.MEM_EVT_DDR_UNCORR 0 || c.rb R.MEM_EVT_HBM_UNCORR 0)
  | _ => false

/-- HST_EVT_PEND. -/
def Chip.evPend (c : Chip) : Nat := (List.range 16).foldl (fun w u => w + b2n (c.evUnit u) * 2 ^ u) 0

/-- ALERT_N is asserted (R348). -/
def Chip.alertLow (c : Chip) : Bool := decide (c.evPend &&& c.rg R.HST_ALERT_EN_EN 0 ≠ 0)

/-- Bits that have risen in HST_EVT_PEND are noted for the sessions that are told of them and as events of R364; a momentary event of the
cores is over. -/
def Chip.evtUpdate (c : Chip) : Chip :=
  have p := c.evPend
  have up := p &&& (0xFFFF - (p &&& c.hp.pend))
  have c := forN 4 (fun s d =>
    if d.sessOpen s ∧ d.rb R.HST_SESS_CFG_EVT_SUB s = true ∧ up &&& d.rg R.HST_SESS_CFG_EVT_MASK s ≠ 0 then d.setSess s { d.sess s with rose := true } else d) c
  have c := (List.range 16).foldl (fun (d : Chip) u => if bit up u then d.srcEvent (33 + u) else d) c
  have c := { c with mc.pulse := false }
  { c with hp.pend := c.evPend }

/-- SOURCE_PENDING: the event of source n has come (R364); a bit of HST_EVT_PEND may have risen since the last look at it. -/
def sourcePending (n : Nat) (c : Chip) : Chip :=
  have c := if 33 ≤ n ∧ n ≤ 48 then c.evtUpdate else c
  if c.mc.srcDue.contains n then { c with mc.srcDue := c.mc.srcDue.erase n }.sourcePending n else c
def execSourcePending (t : Nat) (n : Fin 64) (s : State) : Host.Outcome State Fault Refusal := s.onCtrl t (fun _ => sourcePending n.val)

/-! ## Registers that read as something the chip holds elsewhere -/

/-- The Octave number of the point of a transaction (R72, R79, R339): for a TIME point that of the Octave which holds its instant. -/
def Chip.pointOctave (c : Chip) (x : Txn) : Nat :=
  if x.kind = 2 then c.alm.octave + (c.now - c.alm.octAt + (x.value * 1000 - c.lNs) * 1000) / msPs else x.value

/-- What ALM_TXN_QUERY names (R77): STATE, CAUSE, POINT_KIND, WRITES, OCTAVE, ADDR. -/
def Chip.txnShown (c : Chip) : List Nat :=
  have q := c.rg R.ALM_TXN_QUERY_ID 0
  match c.alm.txns.find? (fun (x : Txn) => decide (x.id = q)) with
  | some x => [if x.pending then 2 else 1, 0, x.kind, x.writes.length, if x.pending then c.pointOctave x else 0, 0]
  | none =>
    match c.alm.done.find? (fun (d : TxnDone) => decide (d.id = q ∧ c.now ≤ d.time + secPs)) with
    | some d => [d.state, d.cause, d.kind, d.writes, d.octave, d.addr]
    | none => [0, 0, 0, 0, 0, 0]

/-- A short Eve is permitted on channel k now (R137). -/
def Chip.shortOk (c : Chip) (k : Nat) : Bool :=
  have e := Tab.get 0 c.up.lastLit (2 * k + c.side)
  decide (e ≠ 0 ∧ e ≤ c.now ∧ c.now ≤ e + 250 * usPs)

/-- Records of errors with an entry in HOST_WAIT. -/
def Chip.hostWaits (c : Chip) : Bool :=
  (c.instances R.HLT_ERR_FIRST_HDR_STATE 704).any (fun i => decide (c.rg R.HLT_ERR_FIRST_HDR_VALID i = 1 ∧ c.rg R.HLT_ERR_FIRST_HDR_STATE i = 2)) ||
  (c.instances R.HLT_ERR_LATEST_HDR_STATE 704).any (fun i => decide (c.rg R.HLT_ERR_LATEST_HDR_VALID i = 1 ∧ c.rg R.HLT_ERR_LATEST_HDR_STATE i = 2))

/-- Fields that are derived at every read: each with its value. -/
def derivedFlds : List (Fld × (Chip → Nat → Nat)) := [
  (R.CHIP_ID_GRADE, fun c _ => c.grade),
  (R.CHIP_SERIAL_BYTES, fun c i => beAt c.serial (4 * i) 4),
  (R.CHIP_MAC_LO_MAC, fun c _ => c.macBase), (R.CHIP_MAC_HI_MAC, fun c _ => c.macBase / 2 ^ 32),
  (R.CHIP_CLKID_LO_ID, fun c _ => beAt c.clockId 4 4), (R.CHIP_CLKID_HI_ID, fun c _ => beAt c.clockId 0 4),
  (R.CHIP_STAT_MODE, fun c _ => c.mode), (R.CHIP_STAT_ALM, fun c _ => b2n (decide (c.rg R.ALM_GEN_ACTIVE_GEN 0 ≠ 0))),
  (R.CHIP_STAT_FATAL, fun c _ => b2n (decide (c.rg R.HLT_ERR_FIRST_HDR_VALID 0 = 1 ∧ c.rg R.HLT_ERR_FIRST_HDR_SEV 0 = 3))),
  (R.CHIP_STAT_HOST_WAIT, fun c _ => b2n c.hostWaits), (R.CHIP_STAT_QUAR, fun c _ => c.rg R.TRK_GUARD_STAT_QUAR 0),
  (R.CHIP_STAT_REGION_OK, fun c _ => (List.range 4).foldl (fun w n => w + b2n (decide (c.regionState n = 1 ∨ c.regionState n = 2)) * 2 ^ n) 0),
  (R.CHIP_STAT_BLOCKS_LOST, fun c _ => popCount 32 c.st.exclBlocks), (R.CHIP_STAT_ENG_LOST, fun c _ => popCount 17 c.st.engLost),
  (R.TRK_TERM_ID_ANN_CH, fun c _ => if c.mode = 3 then c.annCh.getD 0 else 0),
  (R.CHIP_BLOCK_OK_OK, fun c _ => c.blockOkWord), (R.CHIP_REGION_STAT_STATE, fun c n => c.regionState n),
  (R.CHIP_REGION_STAT_BLOCKS, fun c n => c.blockOkWord / 2 ^ (8 * n)),
  (R.CHIP_REGION_STAT_ENGINES, fun c n => (List.range 4).foldl (fun w i => w + b2n (c.domOn 8 && decide (c.engineOf (4 * n + i) ≠ 31)) * 2 ^ i) 0),
  (R.CHIP_REGION_STAT_SPARE_ENG, fun c n => b2n (c.domOn 8 && (List.range 4).any (fun i => decide (c.engineOf (4 * n + i) = 16)))),
  (R.HLT_PACE_REQ_CAP, fun c n => c.rg R.PWR_RGN_STAT_CAP n),
  (R.ALM_ARB_COUNT, fun c _ => c.arbCount), (R.ALM_OCTAVE_LO_NUM, fun c _ => c.alm.octave), (R.ALM_OCTAVE_HI_NUM, fun c _ => c.alm.octave / 2 ^ 32),
  (R.ALM_TXN_OPEN_OPEN, fun c _ => (c.alm.txns.filter (fun (x : Txn) => !x.pending)).length),
  (R.ALM_TXN_OPEN_PENDING, fun c _ => (c.alm.txns.filter (fun (x : Txn) => x.pending)).length),
  (R.ALM_TXN_RESULT_STATE, fun c _ => c.txnShown.getD 0 0), (R.ALM_TXN_RESULT_CAUSE, fun c _ => c.txnShown.getD 1 0),
  (R.ALM_TXN_RESULT_POINT_KIND, fun c _ => c.txnShown.getD 2 0), (R.ALM_TXN_RESULT_WRITES, fun c _ => c.txnShown.getD 3 0),
  (R.ALM_TXN_EPOCH_OCTAVE, fun c _ => c.txnShown.getD 4 0), (R.ALM_TXN_DETAIL_ADDR, fun c _ => c.txnShown.getD 5 0),
  (R.TRK_CHMON_SUM_ACTIVE, fun c _ => (c.instances R.TRK_CHMON_STATE_DEF 1024).length),
  (R.TRK_CHMON_SUM_CHANGED, fun c _ => (c.instances R.TRK_CHMON_STATE_CHG 1024).length),
  (R.TRK_GUARD_PWR_FUSE, fun c _ => unsgn 16 c.laserCeil), (R.TRK_US_STAT_SHORT_OK, fun c k => b2n (c.shortOk k)),
  (R.TRK_SIDE_STAT_OTHER_OK, fun c _ => b2n c.otherOk), (R.SCH_Q_OCC_CELLS, fun c q => c.occ q), (R.SCH_SLICE_STAT_FREE, fun c b => 98304 - c.sliceUsed b),
  (R.TRK_GUARD_STAT_RECENT, fun c _ => min 2 (c.up.trips.filter (fun (x : Nat) => decide (c.now < x + secPs))).length),
  (R.SCH_SHAPER_CREDIT_BAL, fun c s => unsgn 32 (satInt 32 (c.shaperNow s (c.qs.frames.any (fun (x : QFrame) => (c.pathShapers x.q).any (fun y => decide (y.1 = s)))) / (byteU : Nat)))),
  (R.SCH_POL_TOKENS_BAL, fun c p => c.policerNow p / byteU),
  (R.TMG_SLEW_SLEW_MAX, fun c _ => c.slewMax), (R.TMG_EQX_REM, fun c _ => unsgn 32 (satInt 32 c.remNs)),
  (R.TMG_PTP_STAT_SLAVE, fun c p => b2n (decide (c.rg R.TMG_PTP_CFG_ROLE p = 2 ∧ c.rg R.TMG_B_CFG_SRC 0 = 3 ∧ c.rg R.TMG_B_CFG_PORT 0 = p))),
  (R.PRT_MAC_LO_MAC, fun c p => c.portMac p), (R.PRT_MAC_HI_MAC, fun c p => c.portMac p / 2 ^ 32),
  (R.PRT_STAT_SEC_ON, fun c p => c.rg R.PRT_SEC_CFG_SEC_EN p),
  (R.HST_MAC_LO_MAC, fun c _ => c.hostMac), (R.HST_MAC_HI_MAC, fun c _ => c.hostMac / 2 ^ 32),
  (R.SBS_MAC_LO_MAC, fun c _ => c.sbusMac), (R.SBS_MAC_HI_MAC, fun c _ => c.sbusMac / 2 ^ 32),
  (R.PRT_STAT_TX_IDLE, fun c p => b2n (c.txIdle p)), (R.SBS_STAT_QUEUE, fun c _ => min 255 (c.wqOcc 32)), (R.SBS_GUARD_DUTY_MAX, fun c _ => c.dutyMax), (R.SBS_GUARD_DUTY, fun c _ => c.sbusDuty),
  (R.SCH_SPILL_STAT_STAGE_FULL, fun c n => b2n (c.stageFull n)),
  (R.HST_EVT_PEND_PEND, fun c _ => c.evPend), (R.HST_ZCP_STAT_OPEN, fun c _ => ((List.range 4).filter (fun s => c.sessOpen s)).length),
  (R.HST_ZCP_STAT_ALERT, fun c _ => b2n c.alertLow),
  (R.HST_SESS_KEY_KEYID, fun c s => if (c.sess s).hostKey.isEmpty then 0 else beAt (sha3_512 (c.sess s).hostKey) 0 4),
  (R.DMA_CH_STAT_PENDING, fun c ch => b2n (decide (Tab.get 0 c.hp.dmaTrig ch ≠ 0))),
  (R.MCU_STAT_ACTIVE, fun c _ => ((List.range 16).filter (fun j => decide (c.rg R.MCU_CORE_STAT_STATE j ≠ 4))).length),
  (R.MCU_STAT_READY, fun c _ => ((c.mc.ready : Tab (List Nat)).map (fun (e : Nat × List Nat) => e.2.length)).sum),
  (R.SEC_STAT_DEBUG_LOCKED, fun c _ => b2n c.debugLocked),
  (R.SEC_STAT_ROOT_VALID, fun c _ => (List.range 4).foldl (fun w s => w + b2n (c.rootValid s) * 2 ^ s) 0),
  (R.SEC_BOOT_STAT_ROM_REV, fun _ _ => Config.romRev.toNat), (R.SEC_MEAS_M, fun c w => beAt c.sec.meas (4 * w) 4),
  (R.SEC_FUSE_READ_BITS, fun c w => if 80 ≤ w ∧ w ≤ 87 then 0 else c.fuse (32 * w) 32), (R.SEC_ID_PUB_KEY, fun c w => beAt c.idPub (4 * w) 4)]

/-- Do two fields have the same place? -/
def Fld.same (f g : Fld) : Bool := decide (f.reg = g.reg ∧ f.lsb = g.lsb)

/-- What a field reads as (R9). -/
def Chip.fieldRead (c : Chip) (f : Fld) (i : Nat) : Nat :=
  if f.acc = .wo then 0
  else match derivedFlds.find? (fun e => e.1.same f) with
    | some e => e.2 c i % 2 ^ f.width
    | none => c.rg f i

/-- The word that the fields of an address read as, measurements taken first. -/
def Chip.wordRead (c : Chip) (a : Nat) : Chip × Nat :=
  have c := c.refresh a
  (c, (fieldsAt a).foldl (fun w f => w + c.fieldRead f (f.instAt a) * 2 ^ f.lsb) 0)

/-- RC fields of an address return to their reset values (R9). -/
def Chip.readClears (c : Chip) (a : Nat) : Chip :=
  (fieldsAt a).foldl (fun d f => if f.acc = .rc then { d with regs := d.regs.erase (f.key (f.instAt a)) } else d) c

/-- LO words of the RO pairs with no capture rule of their own (R467). -/
def roLo (a : Nat) : Bool :=
  [0x10, 0x18, 0x10024, 0xF0018, 0xF0020, 0x150010].contains a || (decide (0x20000 ≤ a ∧ a < 0x30000) && decide (a % 0x1000 = 0xA0))

/-- Value of a flow counter as it reads (R262): a coefficient flow's counters read 0, and so does the sixth of an output flow. -/
def Chip.flowCount (c : Chip) (a v : Nat) : Nat :=
  if 0x65000000 ≤ a ∧ a < 0x65080000 then
    match c.obj 0x0502 ((a - 0x65000000) / 0x80) with
    | some b => if byteAt b 0 = 2 ∨ (byteAt b 0 = 1 ∧ a % 0x80 / 8 = 5) then 0 else v
    | none => v
  else v

/-- A read of a counter word: LO captures HI, the next read of HI gives what was captured (R112). -/
def Chip.counterRead (c : Chip) (k : Nat × Bool × Bool) : Chip × Nat :=
  have c := if 0x130000 ≤ k.1 ∧ k.1 < 0x140000 then c.residency else c
  if k.2.1 then (c, c.flowCount k.1 (Tab.get 0 c.lat k.1) / 2 ^ (if k.2.2 then 32 else 0) % 2 ^ 32)
  else if k.2.2 then
    match c.cap.find (k.1 + 4) with
    | some h => ({ c with cap := c.cap.erase (k.1 + 4) }, h)
    | none => (c, c.flowCount k.1 (Tab.get 0 c.cnt k.1) / 2 ^ 32)
  else
    have c := c.measureAt k.1
    have v := c.flowCount k.1 (Tab.get 0 c.cnt k.1)
    ({ c with cap := c.cap.set (k.1 + 4) (v / 2 ^ 32) }, v % 2 ^ 32)

/-- COUNTER_LO_READ (R112): the LO word is read, the HI word captured for its next read. -/
def counterLoRead (a : Nat) (c : Chip) : Chip :=
  if ctrLive a then
    have r := c.counterRead (a, false, false)
    r.1.emit .readWord 0 [r.2] []
  else c
def execCounterLoRead (t : Nat) (a : Nat) (s : State) : Host.Outcome State Fault Refusal := s.on t (fun _ => counterLoRead a)

/-- A read of a register or counter word at an address of the register space or of a register family of the table window. -/
def Chip.regRead (c : Chip) (a : Nat) : Chip × Nat :=
  match ctrAt a with
  | some k => c.counterRead k
  | none =>
    if a = R.TMG_NS_NS.reg then c.captureL.wordRead a
    else match c.hp.hiCap.find a with
      | some h => ({ c with hp.hiCap := c.hp.hiCap.erase a }, h)
      | none =>
        have r := c.wordRead a
        have c := r.1.readClears a
        if roLo a then
          have h := c.wordRead (a + 4)
          ({ h.1 with hp.hiCap := h.1.hp.hiCap.set (a + 4) h.2 }, r.2)
        else (c, r.2)

end Sys2Proof.Machine
end

