-- ==== Sys2Proof/Machine/Access.lean ====
section
/-! DEFINITION. Writes of the register space and of the table window: rights (13_security.md R387, R389), addresses and domains
(16_register_map.md R462 to R464, R467), what each register with a behaviour of its own does, shadow sets (02_almanac.md R80 to R82),
table banks and sample memories (05_packet_pipeline.md R172, 07_sample_engines.md R235), and how a staged write lands (R71, R472). -/

namespace Sys2Proof.Machine

open Sys2Proof

/-! ## Rights and places -/

/-- Where an address lies (R329, R463). -/
inductive Spot where
  | hole | reg | ctr | table | sample | ddr
deriving DecidableEq, Repr

/-- A word of the tables of the window: port tags, range, ternary and exact tables. -/
def inTables (a : Nat) : Bool :=
  decide (0x40000000 ≤ a ∧ a < 0x40040000 ∨ 0x40100000 ≤ a ∧ a < 0x40180000 ∨ 0x41000000 ≤ a ∧ a < 0x42000000 ∨ 0x48000000 ≤ a ∧ a < 0x58000000)

/-- A word of the operand memories or of the program tables. -/
def inSample (a : Nat) : Bool := decide (0x60000000 ≤ a ∧ a < 0x63000000 ∨ 0x64000000 ≤ a ∧ a < 0x64600000)

def placeAt (a : Nat) : Spot :=
  if 0x80000000 ≤ a then .ddr
  else if inTables a then .table
  else if inSample a then .sample
  else if (ctrAt a).isSome then .ctr
  else if (fieldsAt a).isEmpty then .hole
  else .reg

/-- The right of R387, as its bit, that a write of a SEC register takes. -/
def secBit (off : Nat) : Nat :=
  if 0x20 ≤ off ∧ off < 0x2C ∨ 0x30 ≤ off ∧ off < 0x3C ∨ 0x50 ≤ off ∧ off < 0x5C then 7
  else if 0x40 ≤ off ∧ off < 0x44 ∨ 0x80 ≤ off ∧ off < 0xC0 then 10
  else if 0x60 ≤ off ∧ off < 0x64 then 15
  else 9

/-- The right that a write of an address takes; none where no unit lies there. -/
def writeBit (a : Nat) : Option Nat :=
  if a < 0x10000 then some 6
  else if a < 0x20000 then some (if a / 4 = 0x1000C / 4 then 11 else 7)
  else if a < 0x40000 then some 1
  else if a < 0x80000 then some 2
  else if a < 0xA0000 then some 3
  else if a < 0xC0000 then some 4
  else if a < 0x100000 then some 5
  else if a < 0x120000 then some 6
  else if a < 0x130000 then some (secBit (a - 0x120000))
  else if a < 0x160000 then some 6
  else if a < 0x40000000 then none
  else if a < 0x60000000 then some 2
  else if a < 0x80000000 then some 3
  else some 6

/-- Is right `b` among those of `who`: sessions 0 to 3, core j as 4 + j (R388, R389)? -/
def Chip.hasRight (c : Chip) (who b : Nat) : Bool := bit (if who < 4 then (c.sess who).rights else c.mcuRights) b

/-- What a core may never write, whatever the fuses hold (R389). -/
def coreBarred (a : Nat) : Bool :=
  decide (0x10000 ≤ a ∧ a < 0x20000) ||
  (decide (0x120000 ≤ a ∧ a < 0x130000) && ([7, 10, 15].contains (secBit (a - 0x120000)) && !decide (0x120050 ≤ a ∧ a < 0x12005C) || decide (a / 4 = 0x120010 / 4)))

/-- The vault, which only the cores reach (R389). -/
def inVault (a : Nat) : Bool := decide (0x120280 ≤ a ∧ a < 0x1202B0)

/-- The slot whose HST_SESS_CFG an address is (R355). -/
def sessCfgOf (a : Nat) : Option Nat := (List.range 4).find? (fun s => decide (a / 4 = (0xE0444 + 0x20 * s) / 4))

/-- May `who` write an address: OK, or the status that says no? -/
def Chip.mayWrite (c : Chip) (who a : Nat) : Nat :=
  match sessCfgOf a with
  | some s => if who = s then stOk else stAccess
  | none =>
    if 4 ≤ who ∧ coreBarred a then stRefused
    else if who < 4 ∧ inVault a then stAccess
    else match writeBit a with
      | some b => if c.hasRight who b then stOk else stAccess
      | none => stOk

/-- May `who` read an address? -/
def Chip.mayRead (c : Chip) (who a : Nat) : Nat :=
  if who < 4 ∧ inVault a then stAccess else if c.hasRight who 0 then stOk else stAccess

/-- Alignment, address and power domain of a word access (R329, R464). -/
def Chip.reach (c : Chip) (a : Nat) : Nat :=
  if a % 4 ≠ 0 then stAlign
  else match placeAt a with
    | .hole => stAddress
    | .ddr => if c.ddrOk = false then stRefused else if a - 0x80000000 + 4 ≤ c.ddrCap then stOk else stAddress
    | .ctr => stOk
    | _ => if c.domOn (domAt a) then stOk else stRefused

/-- Units whose chapters answer REFUSED where a field is out of range (R355, R375, R406, R436). -/
def refuseUnit (a : Nat) : Bool := decide (0xE0400 ≤ a ∧ a < 0xF0000 ∨ 0x100000 ≤ a ∧ a < 0x140000)

/-- How a write comes: by itself, staged and checked at STAGE, or staged and landing at its commit point. -/
inductive Via where
  | direct | check | land
deriving DecidableEq, Repr

def Via.staged (w : Via) : Bool := decide (w ≠ .direct)

/-- The answer to a word with a field out of range: ignored as a whole, or refused. -/
def badWord (w : Via) (a : Nat) : Nat := if w.staged || refuseUnit a then stRefused else stOk

/-- A register with no behaviour of its own takes its fields (R9, R467), its ranges and the rules across registers kept; those of a
staged write are judged over the whole transaction (R472). -/
def Chip.plainWrite (c : Chip) (w : Via) (a v : Nat) : Chip × Nat :=
  if inBounds a v = false then (c, badWord w a)
  else if w.staged || (c.putWord a v).comboOk a then (c.putWord a v, stOk)
  else (c, badWord w a)

/-- The same where a write is LOCKED unless it is staged. -/
def Chip.lockedWrite (c : Chip) (w : Via) (st a v : Nat) (f : Chip → Chip) : Chip × Nat :=
  if w.staged = false then (c, st)
  else if inBounds a v then (f c, stOk) else (c, stRefused)

/-- A staged write acts on the spare of a sample cell too (R71). -/
def Chip.withSpare (c : Chip) (w : Via) (x : Nat) (f : Nat → Chip → Chip) : Chip :=
  have c := f x c
  if w.staged && decide (c.cellRole (smpBlk x) (smpNum x) = 0) then
    match c.spareSmp (smpBlk x) with
    | some y => f y c
    | none => c
  else c

/-! ## Shadow sets (R80 to R82, R202, R205, R234) -/

/-- A shadow set: grant handling of a channel, a shaper, the gate list of a port, the coefficient set of a cell. -/
inductive Shad where
  | gh (k : Nat) | shaper (s : Nat) | gate (p : Nat) | cset (x : Nat)
deriving DecidableEq, Repr

/-- The set that an address belongs to, and whether it is the register that holds ARM. -/
def shadAt (a : Nat) : Option (Shad × Bool) :=
  if 0x20000 ≤ a ∧ a < 0x30000 then
    if a % 0x1000 = 0x408 then some (.gh ((a - 0x20000) / 0x1000), false)
    else if a % 0x1000 = 0x410 then some (.gh ((a - 0x20000) / 0x1000), true) else none
  else if 0x58300000 ≤ a ∧ a < 0x58380000 then
    if a % 0x40 < 0xC then some (.shaper ((a - 0x58300000) / 0x40), false)
    else if a % 0x40 = 0xC then some (.shaper ((a - 0x58300000) / 0x40), true) else none
  else if 0x58500000 ≤ a ∧ a < 0x58580000 then
    have o := a % 0x1000
    if o = 0 then some (.gate ((a - 0x58500000) / 0x1000), true)
    else if 8 ≤ o ∧ o < 0x18 ∨ 0x400 ≤ o ∧ o < 0x800 then some (.gate ((a - 0x58500000) / 0x1000), false) else none
  else if 0x80000 ≤ a ∧ a < 0x98000 then
    have o := (a - 0x80000) % 0x400
    if o = 0x14 then some (.cset ((a - 0x80000) / 0x400), true)
    else if 0x30 ≤ o ∧ o < 0x40 then some (.cset ((a - 0x80000) / 0x400), false) else none
  else none

/-- ARM and the fields of the epoch register of a set, with their instance. -/
def Shad.armFld (s : Shad) : Fld × Nat := match s with
  | .gh k => (R.TRK_US_GH_CTRL_ARM, k)
  | .shaper n => (R.SCH_SHAPER_CTRL_ARM, n)
  | .gate p => (R.SCH_GATE_CTRL_ARM, p)
  | .cset x => (R.SMP_CSET_CTRL_ARM, x)
def Shad.lastFld (s : Shad) : Fld × Nat := match s with
  | .gh k => (R.TRK_US_GH_EPOCH_LAST_EPOCH, k)
  | .shaper n => (R.SCH_SHAPER_EPOCH_LAST_EPOCH, n)
  | .gate p => (R.SCH_GATE_EPOCH_LAST_EPOCH, p)
  | .cset x => (R.SMP_CSET_EPOCH_LAST_EPOCH, x)
def Shad.writeFld (s : Shad) : Fld × Nat := match s with
  | .gh k => (R.TRK_US_GH_EPOCH_WRITE_EPOCH, k)
  | .shaper n => (R.SCH_SHAPER_EPOCH_WRITE_EPOCH, n)
  | .gate p => (R.SCH_GATE_EPOCH_WRITE_EPOCH, p)
  | .cset x => (R.SMP_CSET_EPOCH_WRITE_EPOCH, x)

def Chip.armed (c : Chip) (s : Shad) : Bool := c.rb s.armFld.1 s.armFld.2

/-- Is a write of the set held now: the hand-over window is open, or, for a coefficient set, that of a HOP point or re-seeding
(R81, R234, R259)? -/
def Chip.shadHeld (c : Chip) (s : Shad) : Bool := match s with
  | .cset x => c.hopOpen x || c.rb R.SMP_CSET_STAT_RESEED x
  | _ => c.alm.window

/-- The first boundary at which a write made now can take effect, in the numbers of the set (R82). -/
def Chip.shadEpoch (c : Chip) (s : Shad) : Nat := match s with
  | .cset x => c.rg R.SMP_SYM_CNT_CNT x + 1
  | _ => c.nextPoint

/-- A write has reached a set: WRITE_EPOCH follows, and a write other than of ARM disarms (R80). -/
def Chip.shadTouch (c : Chip) (s : Shad) (ctrl : Bool) : Chip :=
  have c := c.wg s.writeFld.1 s.writeFld.2 (c.shadEpoch s)
  if !ctrl && c.armed s then (c.wg s.armFld.1 s.armFld.2 0).wsat R.ALM_SHADOW_DISARM_COUNT 0 (c.rg R.ALM_SHADOW_DISARM_COUNT 0 + 1)
  else c

/-- Does a coefficient set belong to a flow of the head end, so that the host may not write it (R260)? -/
def Chip.shadFlow (c : Chip) (s : Shad) : Bool := match s with
  | .cset x => c.hasCoefFlow x
  | _ => false

/-- The sets that a write reaches: a coefficient set with that of the spare (R235). -/
def Chip.shadCopies (c : Chip) (s : Shad) : List Nat := match s with
  | .cset x => if c.cellRole (smpBlk x) (smpNum x) = 0 then (match c.spareSmp (smpBlk x) with
      | some y => [x, y]
      | none => [x]) else [x]
  | _ => []

/-- A write of a shadow register that lands (R80, R205, R235). -/
def Chip.shadWrite (c : Chip) (s : Shad) (ctrl : Bool) (a v : Nat) : Chip × Nat :=
  if c.shadFlow s then (c, stLocked)
  else if inBounds a v = false then (c, badWord .direct a)
  else match s with
    | .gate p =>
      if ctrl && bit v 0 && !c.gateLegal p then (c, stRefused) else ((c.shadTouch s ctrl).putWord a v, stOk)
    | .cset x => ((c.shadCopies s).foldl (fun d y => (d.shadTouch (.cset y) ctrl).putWord (a + 0x400 * y - 0x400 * x) v) c, stOk)
    | _ => ((c.shadTouch s ctrl).putWord a v, stOk)

/-- A register key of the shadow copy of the gate list of a port. -/
def gateShadKey (p k : Nat) : Bool :=
  have o := k / 32 - (0x58500000 + 0x1000 * p)
  decide (0x58500000 + 0x1000 * p ≤ k / 32 ∧ (o = 0 ∨ 8 ≤ o ∧ o < 0x18 ∨ 0x400 ≤ o ∧ o < 0x800))

/-- A staged write of a gate list: the active list with that word replaced takes effect, the shadow copy stays (R71). -/
def Chip.gateStaged (c : Chip) (p a v : Nat) : Chip :=
  have old := c.regs.filter (fun (e : Nat × Nat) => gateShadKey p e.1)
  have n := c.rg R.SCH_GATE_STAT_ACT_N p
  have base := (Tab.get 0 c.qs.gateBase p / 65536).toNat
  have d := forN 256 (fun e d => (d.wg R.SCH_GATE_ENTRY_INTERVAL (gateIdx p e) (d.rg R.SCH_GATE_ACT_ENTRY_INTERVAL (gateIdx p e))).wg
    R.SCH_GATE_ENTRY_STATES (gateIdx p e) (d.rg R.SCH_GATE_ACT_ENTRY_STATES (gateIdx p e))) c
  have d := (d.wg R.SCH_GATE_BASE_NS_NS p (base % 1000000000)).wg R.SCH_GATE_BASE_SLO_SEC p (base / 1000000000)
  have d := (d.wg R.SCH_GATE_BASE_SHI_SEC p (base / 1000000000 / 2 ^ 32)).wg R.SCH_GATE_LEN_N p n
  have d := (d.wb R.SCH_GATE_LEN_EN p (c.rb R.SCH_GATE_STAT_ACT_EN p)).wg R.SCH_GATE_LEN_IDLE p (Tab.get 255 c.qs.gateIdle p)
  have d := d.putWord a v
  have d := d.gateHandover p d.lNow
  { d with regs := old.foldl (fun (t : Tab Nat) (e : Nat × Nat) => t.set e.1 e.2) (d.regs.filter (fun (e : Nat × Nat) => !gateShadKey p e.1)) }

/-- The active gate list of a port is legal (R205). -/
def Chip.gateActOk (c : Chip) (p : Nat) : Bool :=
  have n := c.rg R.SCH_GATE_STAT_ACT_N p
  decide (1 ≤ n ∧ n ≤ 256 ∧ c.rg R.SCH_GATE_CYCLE_NS p ≤ 1000000000)

/-- A staged write of a shaper changes its active values; the balance is kept and clipped (R202). -/
def Chip.shaperStaged (c : Chip) (s a v : Nat) : Chip :=
  have c := c.accrue s (c.qs.frames.any (fun x => (c.pathShapers x.q).any (fun y => decide (y.1 = s))))
  have c := match a % 0x40 with
    | 0 => (c.wg R.SCH_SHAPER_ACT_CFG_MODE s (bits v 0 1)).wg R.SCH_SHAPER_ACT_CFG_OVERHEAD s (bits v 16 9)
    | 4 => c.wg R.SCH_SHAPER_ACT_RATE_RATE s v
    | 8 => c.wg R.SCH_SHAPER_ACT_BURST_BURST s v
    | _ => c
  { c with qs.bal := c.qs.bal.set s (min (Tab.get 0 c.qs.bal s) ((c.rg R.SCH_SHAPER_ACT_BURST_BURST s * byteU : Nat) : Int)) }

/-- A staged write of a shadowed register: the active value, and never ARM (R71, R260). -/
def Chip.shadStaged (c : Chip) (w : Via) (s : Shad) (ctrl : Bool) (a v : Nat) : Chip × Nat :=
  if (ctrl && bit v 0) || c.shadFlow s || !inBounds a v then (c, stRefused)
  else if ctrl then (c, stOk)
  else match s with
    | .gh k => ((c.wg R.TRK_US_GH_ACT_PWR k (bits v 0 16)).wg R.TRK_US_GH_ACT_RPT_EXTRA k (bits v 16 2), stOk)
    | .shaper n => (c.shaperStaged n a v, stOk)
    | .gate p => (c.gateStaged p a v, stOk)
    | .cset x =>
      have q := (a - 0x80030) % 0x400 / 4
      (c.withSpare w x (fun y d => forN 4 (fun j e => e.setBexp y true (4 * q + j) (bits v (8 * j) 6)) d), stOk)

/-! ## Table banks and sample memories (R172, R173, R235) -/

/-- The stage, of one bank of a table kind, whose allocation holds a window address. -/
def Chip.tableLocked (c : Chip) (a : Nat) : Bool :=
  c.alm.load.region.any (fun (r : Nat × Nat) => decide (r.1 ≤ a ∧ a < r.1 + r.2)) ||
  (List.range 12).any (fun s => (List.range 2).any (fun b =>
    match c.pp.layouts.find (2 * s + b) with
    | some l => c.rbit R.PKT_STAGE_STAT_USE s b && decide ((allocRange l b).1 ≤ a ∧ a < (allocRange l b).1 + (allocRange l b).2)
    | none => false))

/-- The first address of the action word that a word of a table belongs to, and whether the word is reserved. -/
def actionAt (a : Nat) : Option Nat × Bool :=
  if 0x40100000 ≤ a ∧ a < 0x40180000 then (if a % 16 < 8 then none else some (a / 16 * 16 + 8), false)
  else if 0x41000000 ≤ a ∧ a < 0x42000000 then (if 80 ≤ a % 128 ∧ a % 128 < 88 then some (a / 128 * 128 + 80) else none, decide (88 ≤ a % 128))
  else if 0x48000000 ≤ a then (if 20 ≤ a % 32 ∧ a % 32 < 28 then some (a / 32 * 32 + 20) else none, decide (28 ≤ a % 32))
  else (none, false)

/-- The action word that a word of a table belongs to is legal as it stands (R173). -/
def Chip.actionOk (c : Chip) (a : Nat) : Bool := match (actionAt a).1 with
  | some b => !bit (c.winWords b 2) 63 || wordLegal (c.winWords b 2)
  | none => true

/-- A write of the port-tag table or of a table bank (R172). The entry of tag 0xFFFF ignores it, as reserved bytes do. -/
def Chip.tableWrite (c : Chip) (w : Via) (a v : Nat) : Chip × Nat :=
  if a < 0x40040000 then
    if w.staged = false then (c, stLocked)
    else (if a = 0x4003FFFC then c else c.winSet a (v % 128), stOk)
  else if w.staged = false ∧ c.tableLocked a then (c, stLocked)
  else if (actionAt a).2 then (c, stOk)
  else if w.staged || (c.winSet a v).actionOk a then (c.winSet a v, stOk)
  else (c, stRefused)

/-- A staged write of a cell's memories lands in the cell and in its spare (R71); rows of the coefficient set land in the active
bank, program words are judged over the whole transaction. -/
def Chip.smpStaged (c : Chip) (a v : Nat) : Chip × Nat :=
  if a < 0x64000000 then
    have x := (a - 0x60000000) / 0x80000
    have r := (a - 0x60000000) % 0x80000 / 1024
    have k := c.cell x
    have b := c.runBank x
    have act := c.coefAct x
    if c.rowInBank x r (1 - act) then
      if c.hasCoefFlow x then (c, stRefused)
      else (c.smpMemPut (a + 1024 * k.csBase b act - 1024 * k.csBase b (1 - act)) v, stOk)
    else (c.smpMemPut a v, stOk)
  else (c.smpMemPut a v, stOk)

/-- The microword that a word of a program table belongs to may stand in the program of its bank (R226). -/
def Chip.mwOk (c : Chip) (a : Nat) : Bool :=
  have o := a - 0x64000000
  c.entryOk (o / 0x10000) (o % 0x10000 / 0x8000) (o % 0x8000 / 16) (c.winWords (a / 16 * 16) 4)

/-- A direct write of a word of a program table (R226). A microword takes four words: one that would leave an illegal microword waits, as
the LO word of a pair does, for the rest of its entry, and takes effect with the write that makes the microword legal; the write of the
last word of an entry that does not is refused, and the words that waited are dropped (log entry 69). -/
def Chip.microWrite (c : Chip) (a v : Nat) : Chip × Nat :=
  have e := a / 16 * 16
  have ws := (List.range 4).map (fun i => (e + 4 * i, if e + 4 * i = a then some v else c.hp.loHeld.find (e + 4 * i)))
  have put := fun (d : Chip) => ws.foldl (fun d w => match w.2 with
    | some x => d.smpMemLand w.1 x
    | none => d) d
  have clear : Chip := { c with hp.loHeld := ws.foldl (fun t w => t.erase w.1) c.hp.loHeld }
  if (put c).mwOk a then (put clear, stOk)
  else if a % 16 = 12 then (clear, stRefused)
  else ({ c with hp.loHeld := c.hp.loHeld.set a (v % 2 ^ 32) }, stOk)

/-- A direct write of a cell's memories that is not held (R235). -/
def Chip.smpDirect (c : Chip) (a v : Nat) : Chip × Nat := match c.smpMemCheck a with
  | .bad st => (c, st)
  | _ => if 0x64000000 ≤ a then c.microWrite a v else (c.smpMemLand a v, stOk)

/-! ## Registers with a behaviour of their own -/

/-- First address and instance of the register at an address. -/
def regBase (a : Nat) : Nat := match fieldsAt a with
  | f :: _ => f.reg
  | [] => 0
def regInst (a : Nat) : Nat := match fieldsAt a with
  | f :: _ => f.instAt a
  | [] => 0

/-- CHIP, ALM (never staged), HLT and MEM. ALM_LOAD_CTRL takes CANCEL before START; in ALM_JUB_CTRL CANCEL acts and ENTER beside it is
ignored (log entry 72). -/
def chipWrite (m : Mem) (w : Via) (who a v : Nat) (c : Chip) : Chip × Nat :=
  have b := regBase a
  have i := regInst a
  if b = R.HLT_ERR_CTRL_EVT_EN.reg then
    have c := c.putWord a v
    (if bit v 0 then errResolve i c else c, stOk)
  else if b = R.HLT_SWAP_CMD_UNIT.reg then swapGo m v c
  else if b = R.ALM_ARB_TARGET.reg then almArbAdvance v c
  else if b = R.ALM_LOAD_CTRL_SRC.reg then
    have c := if bit v 1 then c.loadCancel else c
    if bit v 0 then almLoadStart (min who 4) v c else (c.wg R.ALM_LOAD_CTRL_SRC 0 (bits v 4 2), stOk)
  else if b = R.ALM_JUB_CTRL_ENTER.reg then
    if bit v 1 then jubCancel c else if bit v 0 then jubEnter c else (c, stOk)
  else if b = R.MEM_DDR_CFG_SCRUB_H.reg then
    if bits v 8 1 ≠ c.rg R.MEM_DDR_CFG_SPARE_RANK 0 ∧ c.mode ≠ 0 then (c, stRefused) else c.plainWrite w a v
  else c.plainWrite w a v

/-- LOOPBACK_LEAVE (R117, R317, R420): CMD 2. -/
def loopbackLeave (c : Chip) : Chip × Nat :=
  if c.mode ≠ 9 then (c, stRefused) else ((c.manualBack).enterListen 15, stOk)
def execLoopbackLeave (t : Nat) (s : State) : Host.Outcome State Fault Refusal := s.on t (fun _ c => c.answeredIn 2 loopbackLeave)

/-- TRK. -/
def trkWrite (w : Via) (a v : Nat) (c : Chip) : Chip × Nat :=
  have b := regBase a
  have i := regInst a
  if b = R.TRK_DS_CFG_ENABLE.reg then
    if w.staged && (!inBounds a v || bit v 0 && !freqDsOk (bits v 16 16)) then (c, stRefused) else dsCfgWrite i v c
  else if b = R.TRK_SIDE_CTRL_CMD.reg then
    if inBounds a v = false then (c, badWord w a)
    else (((apsCmd (bits v 0 3) (c.putWord a v)).apsTrack).sideHealth, stOk)
  else if b = R.TRK_SIDE_MASK_MASK.reg then
    have d := c.putWord a v
    ((if d.rg R.TRK_SIDE_MASK_MASK 0 = c.rg R.TRK_SIDE_MASK_MASK 0 then d else d.watchRestart).apsTrack.eqdCheck, stOk)
  else if b = R.TRK_WATCH_CTRL_ENABLE.reg then
    have r := c.plainWrite w a v
    ((if c.rb R.TRK_WATCH_CTRL_ENABLE 0 then r.1 else { r.1 with ds.visitAt := c.now }).sideHealth, r.2)
  else if b = R.TRK_MODE_CTRL_EVT_EN.reg then
    have r := match bits v 0 3 with
      | 1 => loopbackEnter c
      | 2 => loopbackLeave c
      | 3 => eventideEnter c
      | _ => (c, stOk)
    if r.2 = stOk then (r.1.putWord a v, stOk) else (c, r.2)
  else if b = R.TRK_CHMON_CFG_ENABLE.reg ∨ b = R.TRK_CHMON_LIM_MASK.reg then
    have r := c.plainWrite w a v
    have same := c.rb R.TRK_CHMON_CFG_ENABLE i && decide (r.1.rg R.TRK_CHMON_CFG_ID i = c.rg R.TRK_CHMON_CFG_ID i ∧ r.1.rg R.TRK_CHMON_CFG_KIND i = c.rg R.TRK_CHMON_CFG_KIND i)
    ((if same then r.1 else r.1.setMon i ⟨0, 0, 0, 0⟩).monEval i, r.2)
  else c.plainWrite w a v

/-- PKT. -/
def pktWrite (w : Via) (a v : Nat) (c : Chip) : Chip × Nat :=
  have b := regBase a
  have i := regInst a
  if b = R.PKT_STAGE_BANK_ACT.reg ∨ b = R.PKT_HASH_CFG_SEED.reg then c.lockedWrite w stRefused a v (fun d => d.putWord a v)
  else if b = R.PKT_SP_CFG_EN.reg ∨ b = R.PKT_SP_RATE_RATE.reg then
    have d := { c with pp.spTok := c.pp.spTok.set i (c.spTokens i), pp.spAt := c.pp.spAt.set i c.now }
    d.plainWrite w a v
  else if b = R.PKT_FLOW_CMD_OP.reg then
    if c.rb R.PKT_FLOW_CMD_BUSY 0 then (c, stRefused)
    else if bit v 8 then flowGo (bits v 0 3) (bits v 4 3) (bits v 7 1) c
    else (c.putWord a v, stOk)
  else c.plainWrite w a v

/-- A staged word of SCH_Q_CFG moves a queue that holds frames (R193). -/
def Chip.queueMoves (c : Chip) (q v : Nat) : Bool :=
  c.qHolds q && decide (bits v 0 1 ≠ c.rg R.SCH_Q_CFG_VALID q ∨ bits v 1 1 ≠ c.rg R.SCH_Q_CFG_DIR q ∨ bits v 4 3 ≠ c.rg R.SCH_Q_CFG_TC q ∨
    bits v 8 7 ≠ c.rg R.SCH_Q_CFG_PORT q)

/-- SCH: PFC, queues and nodes (R193), policers (R204). A change of the MODE of PFC ends the XOFF of every class of the port, which then
arises again by the new MODE (DESIGN CHOICE, log entry 78). -/
def schWrite (w : Via) (a v : Nat) (c : Chip) : Chip × Nat :=
  have b := regBase a
  have i := regInst a
  if a < 0x80000 then
    have p := (a - 0x61000) / 0x80
    have r := if b = R.SCH_PFC_CFG_MODE.reg ∧ w = .direct ∧ bits v 0 2 = 3 then c.plainWrite w a (c.clipWord a v) else c.plainWrite w a v
    have d := if r.1.rg R.SCH_PFC_CFG_MODE p = c.rg R.SCH_PFC_CFG_MODE p then r.1 else r.1.wg R.SCH_PFC_STAT_XOFF p 0
    (d.pfcUpdate p, r.2)
  else if a < 0x58080000 ∨ 0x58480000 ≤ a ∧ a < 0x58490000 then
    if w = .land ∧ b = R.SCH_Q_CFG_VALID.reg ∧ c.queueMoves i v then (c, stRefused)
    else c.lockedWrite w stLocked a v (fun d => (d.accrueAll.putWord a v).nameShapers)
  else
    have p := (a - 0x58380000) / 0x40
    (c.polChange p (fun d => (d.plainWrite w a v).1), (c.plainWrite w a v).2)

/-- SMP apart from coefficient sets. -/
def smpWrite (w : Via) (a v : Nat) (c : Chip) : Chip × Nat :=
  have b := regBase a
  have i := regInst a
  if b = R.SMP_CELL_CFG_ENABLE.reg then
    if inBounds a v = false then (c, badWord w a) else (c.withSpare w i (fun y d => smpEnable y v d), stOk)
  else if b = R.SMP_PROG_BANK_ACT.reg then
    c.lockedWrite w stRefused a v (fun d => d.withSpare w i (fun y e => (e.wg R.SMP_PROG_BANK_ACT y (bits v 0 1)).smpChange y))
  else if b = R.SMP_LMASK_LANES.reg then
    have x := i / 256
    have bank := i % 256 / 64 % 2
    if w.staged = false ∧ (c.runBank x = bank ∨ c.rg R.SMP_PROG_BANK_ACT x = bank ∨ c.rb R.SMP_PROG_BANK_LOCK x) then (c, stLocked)
    else (c.withSpare .land x (fun y d => d.wg R.SMP_LMASK_LANES (256 * y + i % 256) v), stOk)
  else c.plainWrite w a v

/-- TMG registers that only the Almanac or a transaction writes (R302). -/
def timingLocked (b : Nat) : Bool :=
  [R.TMG_A_CFG_CH, R.TMG_A_TEQ_TEQ, R.TMG_B_CFG_SRC, R.TMG_B_PPS_DELAY, R.TMG_SERVO_CFG_BW, R.TMG_SERVO_LIM_LOCK_N, R.TMG_OUT_CFG_FREQ_EN,
   R.TMG_PPSOUT_CFG_EN, R.TMG_CLASS_FREE, R.TMG_QL_FREE, R.TMG_PTP_CFG_ROLE, R.TMG_PTP_RATE_LOG_SYNC].any (fun f => decide (f.reg = b))

/-- May `who` write the leap fields: the host with SRC = 0, or as it sets SRC to 0; Omlia for a PTP source (R294)? -/
def Chip.leapMay (c : Chip) (core : Bool) (b v : Nat) : Bool :=
  if core then c.rb R.TMG_UTC_SRC 0 && decide (c.rg R.TMG_B_CFG_SRC 0 = 2 ∨ c.rg R.TMG_B_CFG_SRC 0 = 3)
  else !c.rb R.TMG_UTC_SRC 0 || (decide (b = R.TMG_UTC_SRC.reg) && !bit v 18)

/-- TMG. -/
def tmgWrite (w : Via) (core : Bool) (a v : Nat) (c : Chip) : Chip × Nat :=
  have b := regBase a
  if timingLocked b then c.lockedWrite w stLocked a v (fun d => (d.putWord a v).timeCfg (d.rg R.TMG_B_CFG_SRC 0))
  else if b = R.TMG_SEL_CFG_MODE.reg then
    if inBounds a v = false then (c, badWord w a) else (selCfgWrite v c, stOk)
  else if b = R.TMG_SLEW_SLEW.reg then slewWrite core v c
  else if b = R.TMG_STEP_HI_DELTA.reg then
    if bit v 31 = false then c.plainWrite w a v
    else if w.staged then
      if c.rb R.TMG_STAT_OUT_VALID 0 then
        ((c.putWord a v).stepL (c.stepDelta (c.rg R.TMG_STEP_LO_DELTA 0) v), stOk)
      else (c, stRefused)
    else
      have r := timeStep core (c.rg R.TMG_STEP_LO_DELTA 0) v c
      (if r.2 = stOk then r.1.putWord a v else r.1, r.2)
  else if b = R.TMG_B_MEAS_LO_OFS.reg then if core then (c.wg R.TMG_B_MEAS_LO_OFS 0 v, stOk) else (c, stRefused)
  else if b = R.TMG_B_MEAS_HI_OFS.reg then
    if core = false then (c, stRefused)
    else if bit v 31 then bMeasWrite true (bit v 30) (sgn 48 (bits v 0 16 * 2 ^ 32 + c.rg R.TMG_B_MEAS_LO_OFS 0)) c
    else (c, stOk)
  else if b = R.TMG_UTC_SRC.reg ∨ b = R.TMG_LEAP_AT_HI_SEC.reg then
    if c.leapMay core b v then c.plainWrite w a v else (c, stRefused)
  else c.plainWrite w a v

/-- PRT, HST below the ZCP registers, SBS. -/
def portWrite (w : Via) (a v : Nat) (c : Chip) : Chip × Nat :=
  have b := regBase a
  have i := regInst a
  if b = R.PRT_CFG_ADMIN_DOWN.reg then
    if w.staged && !inBounds a v then (c, stRefused) else prtCfgWrite i v c
  else if b = R.PRT_LOOP_LOOP.reg then loopSet i v c
  else if b = R.PRT_SEC_CFG_SEC_EN.reg ∧ w = .direct then c.plainWrite w a (c.clipWord a v)
  else if b = R.HST_LANE_CFG_MODE.reg then
    if w.staged && !inBounds a v then (c, stRefused) else hostLaneCfg v c
  else c.plainWrite w a v

/-- DMA, for `owner` (a session s as s + 1, the cores 0). -/
def dmaWrite (w : Via) (owner a v : Nat) (c : Chip) : Chip × Nat :=
  have b := regBase a
  have i := regInst a
  if b = R.DMA_CH_CFG_EN.reg then dmaChCfgWrite i owner v c
  else if b = R.DMA_CH_TAIL_TAIL.reg then dmaTailWrite i (bits v 0 16) c
  else if b = R.DMA_CH_CTRL_STOP.reg then dmaCtrl i v c
  else if b = R.DMA_SWREQ_REQ.reg then dmaSwreq v c
  else c.plainWrite w a v

/-- MCU. -/
def mcuWrite (w : Via) (a v : Nat) (c : Chip) : Chip × Nat :=
  have b := regBase a
  have i := regInst a
  if b = R.MCU_CTRL_HALT.reg then mcuHalt v c
  else if b = R.MCU_HOST_CMD_CMD.reg then c.hostCmdNow v
  else if b = R.MCU_SWSRC_SET.reg then swsrcSet v c
  else if b = R.MCU_SPARE_CMD_CORE.reg then mcuSpareGo v c
  else if b = R.MCU_WQ_BASE_BASE4K.reg then
    if i ≤ 15 then (c, stOk) else if c.rb R.MCU_WQ_CFG_EN i then (c, stRefused) else c.plainWrite w a v
  else if b = R.MCU_WQ_HEAD_INDEX.reg then wqPointerWrite i false (bits v 0 16) c
  else if b = R.MCU_WQ_TAIL_INDEX.reg then wqPointerWrite i true (bits v 0 16) c
  else if b = R.MCU_WQ_CFG_EN.reg then
    if i < 33 then (c.wg R.MCU_WQ_CFG_EN i (bits v 0 1), stOk)
    else if c.rb R.MCU_WQ_CFG_EN i ∧ bits v 4 4 ≠ c.rg R.MCU_WQ_CFG_SIZE_LOG2 i then (c, stRefused)
    else c.plainWrite w a v
  else if b = R.MCU_TASK_CFG_VALID.reg then taskCfgWrite i v c
  else c.plainWrite w a v

/-- SEC. Whether the programming supply is there is open here and is drawn as a free value; `core` tells which core writes the
vault. -/
def secWrite (m : Mem) (w : Via) (core a v : Nat) (c : Chip) : Chip × Nat :=
  have b := regBase a
  have i := regInst a
  if b = R.SEC_ALARM_STAT_RELEASE.reg ∨ a = 0x120010 then alarmRelease (bits v 8 8) c
  else if b = R.SEC_BOOT_CTRL_RETRY.reg then
    if bit v 0 then bootRetry m c else (c, stOk)
  else if b = R.SEC_FW_CAND_CTRL_VERIFY.reg then if bit v 0 then fwCandVerify c else (c, stOk)
  else if b = R.SEC_FUSE_CTRL_GROUP.reg then
    have x := c.draw
    if bit v 8 then fuseProgram (bits v 0 4) (bit x.1 0) x.2 else c.plainWrite w a v
  else if b = R.SEC_FUSE_DATA_DATA.reg then (c.wg R.SEC_FUSE_DATA_DATA i v, stOk)
  else if b = R.SEC_FLASH_CTRL_OP.reg then if bit v 8 then flashGo (bits v 0 2) c else c.plainWrite w a v
  else if b = R.SEC_DEBUG_EN.reg then
    if bit v 0 then debugEnable c else if c.debugLocked then (c, stRefused) else (c.wg R.SEC_DEBUG_EN 0 0, stOk)
  else if b = R.SEC_MK_CTRL_OP.reg then
    if bit v 8 = false then c.plainWrite w a v
    else match bits v 0 2 with
      | 1 => mkOffer c
      | 2 => mkAnswer m c
      | _ => (c, stRefused)
  else if b = R.SEC_KEY_CTRL_TARGET.reg then
    if bit v 8 = false then c.plainWrite w a v
    else match bits v 0 3 with
      | 0 => keyLoadTrunk 0 c
      | 1 => keyLoadTrunk 1 c
      | 2 => keyLoadMacsecTx c
      | 3 => keyLoadMacsecRx c
      | 4 => keyLoadVault c
      | 5 => keyErase c
      | _ => (c, stRefused)
  else if b = R.SEC_KEY_DATA_KEY.reg then (c.wg R.SEC_KEY_DATA_KEY i v, stOk)
  else if b = R.SEC_KEY_AUX_AUX.reg then (c.wg R.SEC_KEY_AUX_AUX i v, stOk)
  else if b = R.SEC_VLT_CTRL_OP.reg then
    if bit v 8 = false then c.plainWrite w a v
    else if bits v 0 2 = 1 ∨ bits v 0 2 = 2 then vaultGo (bits v 0 2) core (bits v 4 3) c
    else (c, stRefused)
  else c.plainWrite w a v

/-- PWR. A staged TARGET is a request of the region (R421). -/
def pwrWrite (w : Via) (a v : Nat) (c : Chip) : Chip × Nat :=
  have b := regBase a
  have i := regInst a
  if b = R.PWR_WAKE_SET_MASK.reg then wakeSet v c
  else if b = R.PWR_DOM_REQ_TARGET.reg then domRequest i v c
  else if b = R.PWR_DOM_CTRL_CLEAR.reg then domClear i v c
  else if b = R.PWR_RGN_OP_TARGET.reg then
    c.lockedWrite w stLocked a v (fun d => (d.wg R.PWR_RGN_OP_TARGET i (bits v 0 3)).opAsk i (bits v 0 3))
  else if b = R.PWR_RGN_MAN_CAP.reg then rgnManRequest i v c
  else if b = R.PWR_ISL_HOLD_HOLD_P.reg then islandHold i v c
  else c.plainWrite w a v

/-- LO words of the pairs without GO or ARM (R467). -/
def pairLo (a : Nat) : Bool :=
  [R.PRT_MAC_LO_MAC, R.HST_MAC_LO_MAC, R.SBS_MAC_LO_MAC, R.TMG_LEAP_AT_LO_SEC, R.SBS_POLL_DA_LO_DA].any (fun f => decide (f.reg = regBase a))

/-- A write of a register, in its unit. -/
def unitWrite (m : Mem) (w : Via) (who a v : Nat) (c : Chip) : Chip × Nat :=
  if a < 0x20000 then chipWrite m w who a v c
  else if a < 0x40000 then trkWrite w a v c
  else if a < 0x60000 then pktWrite w a v c
  else if a < 0x80000 then schWrite w a v c
  else if a < 0xA0000 then smpWrite w a v c
  else if a < 0xC0000 then tmgWrite w (decide (4 ≤ who)) a v c
  else if a < 0x100000 then portWrite w a v c
  else if a < 0x110000 then dmaWrite w (if who < 4 then who + 1 else 0) a v c
  else if a < 0x120000 then mcuWrite w a v c
  else if a < 0x130000 then secWrite m w (who - 4) a v c
  else if a < 0x140000 then pwrWrite w a v c
  else if a < 0x160000 then chipWrite m w who a v c
  else schWrite w a v c

/-- Does a field of a shadow set hold what a READY delta has prepared (R68)? -/
def Chip.setPrepared (c : Chip) (s : Shad) : Bool := c.alm.load.shadow.any (fun (k : Nat × Nat) => decide ((shadAt (k.1 / 32)).map (fun x => x.1) = some s))

/-- Is a register's field among those that a READY delta has prepared, or ARM of a set that holds some of them (R68)? -/
def Chip.regLocked (c : Chip) (a : Nat) : Bool :=
  (fieldsAt a).any (fun f => c.alm.load.shadow.any (fun (k : Nat × Nat) => decide (k.1 = f.key (f.instAt a)))) ||
  (match shadAt a with
   | some (s, true) => c.setPrepared s
   | _ => false)

/-- A write of a register that has the right, the address and the domain, and is not held (R9, R71, R467, R472). A LO word of a pair
waits for its HI word. -/
def Chip.registerWrite (c : Chip) (m : Mem) (w : Via) (who a v : Nat) : Chip × Nat :=
  if w = .direct ∧ c.regLocked a then (c, stLocked)
  else if pairLo a then
    if regBase a = R.TMG_LEAP_AT_LO_SEC.reg ∧ c.leapMay (decide (4 ≤ who)) (regBase a) v = false then (c, stRefused)
    else ({ c with hp.loHeld := c.hp.loHeld.set a (v % 2 ^ 32) }, stOk)
  else match shadAt a with
    | some s => if w.staged then c.shadStaged w s.1 s.2 a v else c.shadWrite s.1 s.2 a v
    | none =>
      have r := unitWrite m w who a v c
      if r.2 = stOk ∧ pairLo (a - 4) then
        match r.1.hp.loHeld.find (a - 4) with
        | some lo => ({ (r.1.putWord (a - 4) lo) with hp.loHeld := r.1.hp.loHeld.erase (a - 4) }, stOk)
        | none => r
      else r

/-- A write of any word below DDR5 that may be made now. -/
def Chip.wordWrite (c : Chip) (m : Mem) (w : Via) (who a v : Nat) : Chip × Nat := match placeAt a with
  | .table => c.tableWrite w a v
  | .sample => if w.staged then c.smpStaged a v else c.smpDirect a v
  | .ctr => (c, stOk)
  | .reg => c.registerWrite m w who a v
  | _ => (c, stAddress)

/-! ## Word accesses (R9, R81, R329, R340, R464) -/

/-- Is a write of a word held now (R81, R234)? -/
def Chip.writeHeld (c : Chip) (a v : Nat) : Bool :=
  if inSample a then decide (c.smpMemCheck a = .held)
  else if regBase a = R.ALM_JUB_CTRL_ENTER.reg ∧ a < 0x20000 then bit v 1 && c.alm.window
  else match shadAt a with
    | some s => !c.shadFlow s.1 && c.shadHeld s.1
    | none => false

/-- Is a read of a word held: of the shadow copy of a coefficient set that re-seeds (R234)? -/
def Chip.readHeld (c : Chip) (a : Nat) : Bool :=
  if 0x60000000 ≤ a ∧ a < 0x63000000 then
    have x := (a - 0x60000000) / 0x80000
    c.rb R.SMP_CSET_STAT_RESEED x && c.rowInBank x ((a - 0x60000000) % 0x80000 / 1024) (1 - c.coefAct x)
  else match shadAt a with
    | some (.cset x, false) => c.rb R.SMP_CSET_STAT_RESEED x
    | _ => false

/-- A word of DDR5 is written. -/
def Chip.ddrPut (c : Chip) (a : Nat) (b : List Byte) : Chip := c.mem (.ddr (a - 0x80000000) b)

/-- A write of a word by `who` with every check; none where it is held. -/
def Chip.writeWord (c : Chip) (m : Mem) (who a v : Nat) : Option (Chip × Nat) :=
  have st := c.mayWrite who a
  have at_ := c.reach a
  if st ≠ stOk then some (c, st)
  else if at_ ≠ stOk then some (c, at_)
  else if 0x80000000 ≤ a then some (c.ddrPut a (beBytes 4 v), stOk)
  else if c.writeHeld a v then none
  else
    have r := c.evtUpdate.wordWrite m .direct who a (v % 2 ^ 32)
    some (r.1.evtUpdate, r.2)

/-- The word that an address reads as, where the access may be made. -/
def Chip.rawRead (c : Chip) (m : Mem) (a : Nat) : Chip × Nat := match placeAt a with
  | .ddr => (c, beNat ((m.applyAll c.mout).ddrRead (a - 0x80000000) 4))
  | .table => (c, if a = 0x4003FFFC then 0 else c.winGet a)
  | .sample => (c, c.winGet a)
  | _ => c.regRead a

/-- The answer to a read of a word: the chip after, the value and the status. -/
structure ReadEnd where
  chip : Chip
  val : Nat
  st : Nat

/-- A read of a word by `who` with every check; none where it is held. -/
def Chip.readWord (c : Chip) (m : Mem) (who a : Nat) : Option ReadEnd :=
  have st := c.mayRead who a
  have at_ := c.reach a
  if st ≠ stOk then some ⟨c, 0, st⟩
  else if at_ ≠ stOk then some ⟨c, 0, at_⟩
  else if c.readHeld a then none
  else
    have r := c.rawRead m a
    some ⟨r.1, r.2, stOk⟩

/-! ## The rows that write by themselves -/

/-- A core access that would draw another status than OK faults in the core (R358). -/
def Chip.writeEnd (c : Chip) (who st a : Nat) : Chip :=
  if who < 4 then c.emit .answer 0 [st] []
  else if st = stOk then c else c.coreFault (who - 4) st 1 a

/-- A write of a word by a session (0 to 3) or by core who − 4, as a row of its own. A held write of a core stalls it (R358). -/
def hostWrite (m : Mem) (who a v : Nat) (c : Chip) : Chip := match c.writeWord m who a v with
  | some r => r.1.writeEnd who r.2 a
  | none => c.hold a (v % 2 ^ 32) (if who < 4 then 8 else 12 + who)

def execRegisterWrite (t : Nat) (who : Fin 20) (a v : Nat) (s : State) : Host.Outcome State Fault Refusal :=
  s.on t (fun m => hostWrite m who.val a v)

/-- SHADOW_WRITE (R80): the same for an address of a shadow set; another address is none. -/
def execShadowWrite (t : Nat) (who : Fin 20) (a v : Nat) (s : State) : Host.Outcome State Fault Refusal :=
  s.on t (fun m c => if (shadAt a).isSome then hostWrite m who.val a v c else c)

/-- TABLE_WINDOW_WRITE (R172, R193): the same for the tables, queues and nodes. -/
def execTableWindowWrite (t : Nat) (who : Fin 20) (a v : Nat) (s : State) : Host.Outcome State Fault Refusal :=
  s.on t (fun m c => if 0x40000000 ≤ a ∧ a < 0x60000000 then hostWrite m who.val a v c else c)

/-- SMP_MEM_WRITE (R235): the same for the memories and lane masks of a sample cell. -/
def execSmpMemWrite (t : Nat) (who : Fin 20) (a v : Nat) (s : State) : Host.Outcome State Fault Refusal :=
  s.on t (fun m c => if inSample a ∨ inFam R.SMP_LMASK_LANES a then hostWrite m who.val a v c else c)

end Sys2Proof.Machine
end

