-- ==== Sys2Proof/Machine/Commit.lean ====
section
/-! DEFINITION. The commit engine (02_almanac.md R69 to R77): transactions, commit points, hand-over windows and shadow sets (R78 to
R82), the commits of a delta, a JUBILEE candidate and a planned swap, and Octave boundaries (09_time_and_sync.md R276). -/

namespace Sys2Proof.Machine

open Sys2Proof

/-- The end of a request: STATUS, INDEX, DETAIL and body of its response (R331, R338). -/
structure Reply where
  st : Nat
  index : Nat
  detail : Nat
  body : List Byte

def Reply.ok (body : List Byte) : Reply := ⟨stOk, 0xFFFF, 0, body⟩
def Reply.err (st detail : Nat) : Reply := ⟨st, 0xFFFF, detail % 2 ^ 32, []⟩

/-! ## Staged writes (R71, R472) -/

/-- An address that no staged write may have: the ALM unit, DDR5 (R71, R342). -/
def stageBarred (a : Nat) : Bool := decide (0x10000 ≤ a ∧ a < 0x20000 ∨ 0x80000000 ≤ a ∨ a % 4 ≠ 0)

/-- Staged writes, oldest first, as their targets take them; the index of the first that is refused. -/
def Chip.stageAll (c : Chip) (m : Mem) (w : Via) (who : Nat) (ws : List (Nat × Nat)) : Chip × Option Nat :=
  ws.zipIdx.foldl (fun r x => match r.2 with
    | some _ => r
    | none =>
      if stageBarred x.1.1 then (r.1, some x.2)
      else
        have y := r.1.wordWrite m w who x.1.1 x.1.2
        if y.2 = stOk then (y.1, none) else (r.1, some x.2)) (c, none)

/-- What the target of a staged write judges once every write has landed. -/
def Chip.stagedOk (c : Chip) (a : Nat) : Bool := match placeAt a with
  | .table => c.actionOk a
  | .sample => decide (a < 0x64000000) || c.mwOk a
  | .reg => c.comboOk a && (match shadAt a with
    | some (.gate p, _) => c.gateActOk p
    | _ => true)
  | _ => true

/-- A session's transaction by its ID (R70, R343). -/
def Chip.txnBy (c : Chip) (s id : Nat) : Option Txn := c.alm.txns.find? (fun (x : Txn) => decide (x.id = id ∧ x.owner = s))

/-- BEGIN (R70, R342). -/
def Chip.beginTxn (c : Chip) (s : Nat) : Chip × Reply := match c.txnFree with
  | some slot =>
    have r := c.txnOpen slot s .host
    (r.1, .ok (beBytes 2 r.2 ++ zeros 2))
  | none => (c, .err stBusy 0)

/-- The items of a STAGE body: address and data. -/
def stageItems (b : List Byte) : List (Nat × Nat) := (List.range ((b.length - 4) / 8)).map (fun i => (word b (4 + 8 * i), word b (8 + 8 * i)))

/-- STAGE (R70, R71, R342, R387, R472). -/
def Chip.stageTxn (c : Chip) (m : Mem) (s : Nat) (b : List Byte) : Chip × Reply :=
  have items := stageItems b
  if b.length < 4 then (c, .err stFormat b.length)
  else if (b.length - 4) % 8 ≠ 0 then (c, .err stFormat (4 + 8 * items.length))
  else if items.isEmpty ∨ 2000 < items.length then (c, .err stFormat 4)
  else match c.txnBy s (half b 0) with
    | none => (c, .err stUnknownTxn (half b 0))
    | some x =>
      if x.pending then (c, .err stRefused 0)
      else match items.findIdx? (fun w => decide (c.mayWrite s w.1 ≠ stOk)) with
        | some i => (c, ⟨stAccess, i, (items.getD i (0, 0)).1, []⟩)
        | none =>
          if 4096 < x.writes.length + items.length then (c.txnAbort x 3 0 false, .err stTxn 3)
          else
            have old := c.stageAll m .check s x.writes
            have new := old.1.stageAll m .check s items
            have bad := match new.2 with
              | some i => some i
              | none => items.findIdx? (fun w => !new.1.stagedOk w.1)
            match bad with
            | some i => (c.txnAbort x 1 (items.getD i (0, 0)).1 false, ⟨stTxn, i, 1, []⟩)
            | none => (c.txnSet { x with writes := x.writes ++ items }, .ok [])

/-! ## COMMIT and ABORT (R72, R75, R79, R342) -/

/-- R18: the cap of an operating point that the transaction sets lies below the pace that its region requires. -/
def Chip.paceBad (c : Chip) (x : Txn) : Bool :=
  x.writes.any (fun w => inFam R.PWR_RGN_OP_TARGET w.1 &&
    decide ((c.opPoint (R.PWR_RGN_OP_TARGET.instAt w.1) (bits w.2 0 3)).2 < c.rg R.HLT_PACE_REQ_REQ (R.PWR_RGN_OP_TARGET.instAt w.1))) ||
  (match x.origin, c.alm.load.prep with
   | .jubilee, some p => (List.range 4).any (fun n => decide ((opOf p.objs n (initOpOf p.objs (9 + n))).2 < paceOf p.objs n))
   | _, _ => false)

/-- Local time of a TIME point in 2⁻¹⁶ ns. -/
def timePoint (us : Nat) : Int := ((us * 1000 * 65536 : Nat) : Int)

/-- COMMIT has arrived after the window of its point opened (R75 cause 2, R79). -/
def Chip.late (c : Chip) (kind value : Nat) : Bool :=
  if kind = 1 then decide (value < c.nextPoint) else if kind = 2 then decide (timePoint value - octU / 50 ≤ c.lNow) else false

/-- Do two points fall together: the same boundary, or the same instant? -/
def samePoint (x y : Txn) : Bool := decide ((x.kind = 2 ↔ y.kind = 2) ∧ x.value = y.value)

/-- COMMIT (R72, R75, R342). A JUBILEE commit becomes PENDING in ALM_JUB_STAT (R83 step 4). -/
def Chip.commitTxn (c : Chip) (s : Nat) (notify : Bool) (b : List Byte) : Chip × Reply :=
  if b.length ≠ 16 then (c, .err stFormat (min b.length 16))
  else match c.txnBy s (half b 0) with
    | none => (c, .err stUnknownTxn (half b 0))
    | some x =>
      have kind := byteAt b 2
      have us := word b 10
      have value := if kind = 0 then c.nextPoint else if kind = 1 then beAt b 4 6 else beAt b 4 6 * 1000000 + us
      have y := { x with kind := kind, value := value, notify := notify, pending := true, order := c.alm.orders }
      if x.pending ∨ 2 < kind ∨ (kind = 2 ∧ 999999 < us) then (c, .err stRefused 0)
      else
        have fails : Option (Nat × Nat) :=
          if kind = 1 ∧ c.rb R.ALM_OCTAVE_HI_VALID 0 = false then some (11, 0)
          else if c.late kind value then some (2, 0)
          else if c.paceBad y then some (4, 0)
          else match x.writes.find? (fun w => c.alm.txns.any (fun (z : Txn) => z.pending && samePoint y z && z.writes.any (fun v => decide (v.1 = w.1)))) with
            | some w => some (5, w.1)
            | none => none
        match fails with
        | some f => (({ c with alm.orders := c.alm.orders + 1 }.txnSet y).txnAbort y f.1 f.2 false, .err stTxn f.1)
        | none =>
          have c := { c with alm.orders := c.alm.orders + 1 }.txnSet y
          have c := if x.origin = .jubilee then c.jubState 3 else c
          (c, .ok (beBytes 8 (c.pointOctave y)))

/-- ABORT (R342). -/
def Chip.abortTxn (c : Chip) (s : Nat) (b : List Byte) : Chip × Reply :=
  if b.length ≠ 4 then (c, .err stFormat (min b.length 4))
  else match c.txnBy s (half b 0) with
    | some x => (c.txnAbort x 7 0 false, .ok [])
    | none =>
      if c.alm.done.any (fun (d : TxnDone) => decide (d.id = half b 0 ∧ d.owner = s ∧ c.now < d.time + secPs)) then (c, .err stRefused 0)
      else (c, .err stUnknownTxn (half b 0))

/-! ## What a commit point finds (R69, R75, R76) -/

/-- Domains that the content of a delta or a candidate needs ON. -/
def Prepared.doms (p : Prepared) : List Nat :=
  if p.full then (List.range 17).filter (fun d => decide (initOf p.objs d = 2))
  else
    (if p.has 2 ∨ p.has 3 then [domAt 0x40000000] else []) ++ (if p.has 4 then [domAt 0x58000000] else []) ++
      (p.named.filter (fun k => decide (k / 65536 / 256 = 5))).map (fun k => 13 + smpOf (k % 65536) / 24)

/-- The content that a transaction carries beside its staged writes. -/
def Chip.txnPrep (c : Chip) (x : Txn) : Option Prepared := match x.origin with
  | .delta => c.alm.load.prep
  | .jubilee => c.alm.load.prep
  | _ => none

/-- Does a commit change PARSE_GRAPH, TABLES or a stage bank (R179)? -/
def Chip.ruleChange (c : Chip) (x : Txn) : Bool :=
  x.writes.any (fun w => inFam R.PKT_STAGE_BANK_ACT w.1 && decide (bits w.2 0 1 ≠ c.rg R.PKT_STAGE_BANK_ACT (R.PKT_STAGE_BANK_ACT.instAt w.1))) ||
  (match c.txnPrep x with
   | some p => p.has 2 || p.has 3
   | none => false)

/-- The cause and address that stop a transaction at its point before its writes are tried: POWER, SHADOW_BUSY of a set that hands over
at an Octave boundary (`oct`), CONFLICT with what the point has taken, PACE_CAP, RULE_GEN_FULL. -/
def Chip.pointStop (c : Chip) (x : Txn) (oct : Bool) (seen : List Nat) : Option (Nat × Nat) :=
  match x.writes.find? (fun w => !c.domOn (domAt w.1)) with
  | some w => some (12, w.1)
  | none =>
    if (match c.txnPrep x with
        | some p => p.doms.any (fun d => !c.domOn d)
        | none => false) then some (12, 0)
    else match x.writes.find? (fun w => oct && (match shadAt w.1 with
        | some (.cset _, _) => false
        | some s => c.armed s.1
        | none => false)) with
      | some w => some (6, w.1)
      | none =>
        match x.writes.find? (fun w => seen.contains w.1) with
        | some w => some (5, w.1)
        | none =>
          if c.paceBad x then some (4, 0)
          else if c.ruleChange x && decide (4 ≤ c.rg R.ALM_RULE_GEN_LIVE 0) then some (10, 0)
          else none

/-! ## What takes effect with a loader's transaction -/

/-- The loader's part of a commit: what it prepared is in force (R66). -/
def Chip.loadDone (c : Chip) : Chip := c.loadRelease.loadState 5 0 0

/-- Every other transaction pending for this boundary or a later one ends with GEN_CHANGE (R85), before the sessions are checked (R84). -/
def Chip.genChange (c : Chip) (x : Txn) : Chip := c.txnAbortAll 13 false (fun (y : Txn) => y.pending && decide (y.slot ≠ x.slot))

/-- The JUBILEE commit (R83 step 5, R84, R85, R335, R373, R422). -/
def Chip.jubCommit (c : Chip) (p : Prepared) : Chip :=
  have changed := (List.range 128).filter (fun i => decide (objOf p.objs 0x0101 i ≠ c.obj 0x0101 i))
  have c := changed.foldl (fun d i => d.portDown i) c
  have c := c.deltaApply p
  have c := (changed.foldl (fun d i => d.portApply i) c).paceApply
  have c := { c with alm.keySlot := p.slot, sec.dAlmanac := p.chain, alm.oldHeld := true }
  have c := match c.sec.cand with
    | some f => ({ c with sec.dOmlia := f.1, sec.omliaVer := f.2 } : Chip).extendM 6 f.1
    | none => c
  have c := (c.extendM 7 p.chain).tasksRetire
  have c := forN 4 (fun n d => (d.wg R.PWR_RGN_OP_TARGET n (initOpOf p.objs (9 + n))).opAsk n (initOpOf p.objs (9 + n))) c
  have c := ((List.range 17).reverse.filter (fun d => domRequestable d && decide (initOf p.objs d ≠ 2))).foldl (fun e d => e.domReq d (initOf p.objs d) false) c
  have c := c.sessRecheck.loadDone
  have c := (((c.wg R.ALM_JUB_STAT_CAND_ALM 0 0).wg R.ALM_JUB_STAT_CAND_FW 0 0).wg R.ALM_JUB_STAT_TXN 0 0).wg R.SEC_FW_CAND_CTRL_STATE 0 0
  have c := { c with alm.cand := none, sec.cand := none, sec.candOp := none }
  ((c.jubState 0).setMode 5 16).portsEval

/-- A transaction's own content takes effect: a delta, a candidate, the exchange of a planned swap (R434 step 4; a sample cell waits for
its wrap). -/
def Chip.takeOrigin (c : Chip) (m : Mem) (x : Txn) : Chip := match x.origin, c.alm.load.prep with
  | .delta, some p => (c.deltaApply p).loadDone
  | .jubilee, some p => c.jubCommit p
  | .swap, _ =>
    if c.pw.swapKind = 2 then
      have c := { c with pw.swapTxn := none }
      c.swapWrap m (3 * (c.pw.swapUnit / 11) + (c.pw.swapUnit % 11 - 8))
    else c.swapDone m
  | _, _ => c

/-! ## The boundary token (R74) -/

/-- The transactions of a point one after the other: the chip, the addresses taken so far, whether a rule generation is due and whether
the parse graph changes with it. -/
structure Token where
  chip : Chip
  seen : List Nat
  bump : Bool
  graph : Bool

/-- One transaction at its point: it commits or aborts. -/
def Token.take (k : Token) (m : Mem) (x : Txn) (oct : Bool) (n : Nat) : Token :=
  have c := k.chip
  if (c.alm.txns.any (fun (y : Txn) => decide (y = x))) = false then k
  else match c.pointStop x oct k.seen with
    | some f => { k with chip := c.txnAbort x f.1 f.2 false }
    | none =>
      have r := c.stageAll m .land (min x.owner 3) x.writes
      have bad := match r.2 with
        | some i => some i
        | none => x.writes.findIdx? (fun (w : Nat × Nat) => !r.1.stagedOk w.1)
      match bad with
      | some i => { k with chip := c.txnAbort x 1 (x.writes.getD i (0, 0)).1 false }
      | none =>
        have rules := c.ruleChange x
        have graph := match c.txnPrep x with
          | some p => p.has 2
          | none => false
        have d := r.1.txnRecord x 3 0 0 n
        have d := (if x.origin = .jubilee then d.genChange x else d).takeOrigin m x
        { chip := d, seen := k.seen ++ x.writes.map (fun (w : Nat × Nat) => w.1), bump := k.bump || rules, graph := k.graph || graph }

/-- The rule generation increments once for a point (R69, R179); a changed parse graph stands in the copy that is not in use. -/
def Token.newRules (k : Token) : Chip :=
  have c := k.chip
  have g := (c.rg R.ALM_RULE_GEN_CUR 0 + 1) % 256
  if k.graph then (c.putGraph c.alm.active (1 - c.curPg)).newGen g (1 - c.curPg)
  else if k.bump then c.newGen g c.curPg
  else c

/-- Insert a transaction by arrival of its COMMIT. -/
def byOrder (x : Txn) : List Txn → List Txn
  | [] => [x]
  | y :: ys => if x.order < y.order then x :: y :: ys else y :: byOrder x ys

/-- The token of a point: a JUBILEE commit first, then the others as their COMMITs came. SRAM repairs due at a commit are made (R431). -/
def Chip.token (c : Chip) (m : Mem) (due : List Txn) (oct : Bool) (n : Nat) : Chip :=
  have s := due.foldl (fun l x => byOrder x l) []
  have s := s.filter (fun (x : Txn) => decide (x.origin = TxnOrigin.jubilee)) ++ s.filter (fun (x : Txn) => decide (x.origin ≠ TxnOrigin.jubilee))
  have k := s.foldl (fun (k : Token) x => k.take m x oct n) (Token.mk c [] false false)
  if s.isEmpty then c else (k.newRules).sramRepair

/-- COMMIT_POINT (R79, R289): local time has reached a TIME point, or a step has passed it. Instants are taken in their order. -/
def commitPoint (m : Mem) (c : Chip) : Chip :=
  have due := c.alm.txns.filter (fun (x : Txn) => x.pending && decide (x.kind = 2) && decide (timePoint x.value ≤ c.lNow))
  match (due.map (fun (x : Txn) => x.value)).min? with
  | some v => c.token m (due.filter (fun (x : Txn) => decide (x.value = v))) false c.alm.octave
  | none => c
def execCommitPoint (t : Nat) (s : State) : Host.Outcome State Fault Refusal := s.on t (fun m => commitPoint m)

/-- TXN_STATUS_EXPIRE (R77): 1 s after completion a status is no longer readable. -/
def txnStatusExpire (c : Chip) : Chip := { c with alm.done := c.alm.done.filter (fun (d : TxnDone) => decide (c.now < d.time + secPs)) }
def execTxnStatusExpire (t : Nat) (s : State) : Host.Outcome State Fault Refusal := s.on t (fun _ => txnStatusExpire)

/-! ## Octave boundaries (R73, R78, R80, R276) -/

/-- The sets of one kind that are armed. -/
def Chip.armedSets (c : Chip) : List Shad :=
  (if c.domOn 8 then (c.instances R.TRK_US_GH_CTRL_ARM 16).map Shad.gh else []) ++
  (if c.domOn (domAt 0x58300000) then (c.instances R.SCH_SHAPER_CTRL_ARM 8192).map Shad.shaper ++ (c.instances R.SCH_GATE_CTRL_ARM 128).map Shad.gate else [])

/-- An armed set hands over at boundary `n` (R80, R82, R151, R202, R206). -/
def Chip.setHandover (c : Chip) (n : Nat) (s : Shad) : Chip :=
  have c := match s with
    | .gh k => (c.wg R.TRK_US_GH_ACT_PWR k (c.rg R.TRK_US_GH_SHD_PWR k)).wg R.TRK_US_GH_ACT_RPT_EXTRA k (c.rg R.TRK_US_GH_SHD_RPT_EXTRA k)
    | .shaper i => c.shaperHandover i
    | .gate p => c.gateHandover p c.lNow
    | .cset _ => c
  (c.wg s.armFld.1 s.armFld.2 0).wg s.lastFld.1 s.lastFld.2 n

/-- Is a pending transaction due at boundary `n`: its number is reached or skipped, or a NEXT point that a grid moved back has left
behind (R276)? -/
def Chip.octaveDue (c : Chip) (n : Nat) (x : Txn) : Bool :=
  x.pending && decide (x.kind ≠ 2) && (decide (x.value ≤ n) || decide (x.kind = 0 ∧ n ≤ c.alm.octave ∧ x.value ≠ n + 1))

/-- OCTAVE_BOUNDARY (R73, R74, R276): commits, hand-overs, and everything else that waits for the boundary. `mismatch`: the comparison of
a swap in SHADOW has failed in the Octave that ends (R434). -/
def octaveBoundary (m : Mem) (mismatch : Bool) (c : Chip) : Chip :=
  have d := c.octDue
  if 0 < d.2 then c
  else
    have n := d.1 % 2 ^ 48
    have c := { c with alm.window := true }
    have c := c.watch (fun c => c.token m (c.alm.txns.filter (c.octaveDue n)) true n)
    have c := c.armedSets.foldl (fun e s => e.setHandover n s) c
    have c := { c with alm.octave := n, alm.octAt := c.now, st.takeovers := c.st.takeovers.map (fun (x : Takeover) => { x with boundaries := x.boundaries - 1 }) }
    ((((c.trunkOctave).swapOctave mismatch).remapDone m).srcEvent 50).linePulse 1
def execOctaveBoundary (t : Nat) (mismatch : Bool) (s : State) : Host.Outcome State Fault Refusal := s.on t (fun m => octaveBoundary m mismatch)

/-- HANDOVER_WINDOW_OPEN (R78): 20 µs before a boundary. -/
def handoverWindowOpen (c : Chip) : Chip :=
  if c.alm.window = false ∧ c.octDue.2 ≤ octU / 50 then { c with alm.window := true } else c
def execHandoverWindowOpen (t : Nat) (s : State) : Host.Outcome State Fault Refusal := s.on t (fun _ => handoverWindowOpen)

/-- HANDOVER_WINDOW_CLOSE (R78, R81): 2 µs after a boundary. What was held lands with SHADOW_WRITE_LAND. -/
def handoverWindowClose (c : Chip) : Chip :=
  if c.alm.window = true ∧ c.octOpen = false ∧ c.alm.octAt + 2 * usPs ≤ c.now then
    { c with alm.window := false }
  else c
def execHandoverWindowClose (t : Nat) (s : State) : Host.Outcome State Fault Refusal := s.on t (fun _ => handoverWindowClose)

end Sys2Proof.Machine
end

