-- ==== Sys2Proof/Machine/DmaBurst.lean ====
section
/-! DEFINITION. Bursts of the DMA engine (11_host_control_and_dma.md R349 to R354). -/

namespace Sys2Proof.Machine

open Sys2Proof

/-- The rights a channel acts with: session s for OWNER s + 1, the cores for 0 (R353). -/
def Chip.dmaWho (c : Chip) (ch : Nat) : Nat := if c.rg R.DMA_CH_CFG_OWNER ch = 0 then 4 else c.rg R.DMA_CH_CFG_OWNER ch - 1

/-- The channel that is granted the next burst (R351): PRIO 1 first, in round robin after the channel served last. -/
def Chip.dmaPick (c : Chip) : Option Nat :=
  have ready := ((List.range 64).map (fun i => (c.hp.dmaRr + 1 + i) % 64)).filter (fun ch => decide (c.rg R.DMA_CH_STAT_STATE ch = 2) &&
    !(match c.hp.dma.find ch with
      | some r => r.waits
      | none => false))
  match ready.find? (fun ch => c.rb R.DMA_CH_CFG_PRIO ch) with
  | some ch => some ch
  | none => ready.head?

/-- CTRL, SRC, DST and LEN of a descriptor. -/
def dCtrl (d : List Byte) (b : Nat) : Bool := bit (half d 0) b
def dSrc (d : List Byte) : Nat := beAt d 2 6
def dDst (d : List Byte) : Nat := beAt d 10 6
def dLen (d : List Byte) : Nat := word d 16

/-- What is wrong with a descriptor before any byte moves: LEN, ALIGN (R353, R354). -/
def descBad (d : List Byte) : Option Nat :=
  have fill := dCtrl d 12
  have inWords := decide (dDst d < 0x80000000) || (!fill && decide (dSrc d < 0x80000000))
  if dLen d = 0 ∨ 268435456 < dLen d then some 8
  else if inWords ∧ (dDst d % 4 ≠ 0 ∨ dLen d % 4 ≠ 0 ∨ (fill = false ∧ dSrc d % 4 ≠ 0)) then some 3
  else none

/-- Bytes of the next burst: up to the first 4 KiB boundary of source or destination (R352). -/
def burstLen (d : List Byte) (moved : Nat) : Nat :=
  have to4k := fun (a : Nat) => 4096 - (a + moved) % 4096
  min (dLen d - moved) (if dCtrl d 12 then to4k (dDst d) else min (to4k (dSrc d)) (to4k (dDst d)))

/-- A descriptor STATUS for a word that was not read, not written. -/
def srcStatus (st : Nat) : Nat := if st = stAccess then 4 else if st = stAlign then 3 else 1
def dstStatus (st : Nat) : Nat := if st = stAccess then 4 else if st = stLocked then 5 else if st = stAlign then 3 else 2

/-- The source bytes of a burst, or the STATUS that ends it; nothing where a read is held. -/
structure BurstSrc where
  chip : Chip
  bytes : List Byte
  st : Nat
  held : Option Nat

/-- The bytes that a burst reads: a pattern, DDR5 (`bad` is an uncorrectable byte), words. -/
def Chip.burstRead (c : Chip) (m : Mem) (who : Nat) (d : List Byte) (moved n : Nat) (bad : Option Nat) : BurstSrc :=
  have a := dSrc d + moved
  if dCtrl d 12 then ⟨c, (List.range n).map (fun i => (slice d 4 4).getD ((moved + i) % 4) 0), 0, none⟩
  else if 0x80000000 ≤ a then
    if c.mayRead who a ≠ stOk then ⟨c, [], 4, none⟩
    else if c.ddrOk = false ∨ c.ddrCap < a - 0x80000000 + n then ⟨c, [], 1, none⟩
    else match bad with
      | some e => if a - 0x80000000 ≤ e ∧ e < a - 0x80000000 + n then ⟨c.memUncorr e, [], 6, none⟩ else ⟨c, (m.applyAll c.mout).ddrRead (a - 0x80000000) n, 0, none⟩
      | none => ⟨c, (m.applyAll c.mout).ddrRead (a - 0x80000000) n, 0, none⟩
  else (List.range (n / 4)).foldl (fun (r : BurstSrc) i =>
    if r.st ≠ 0 ∨ r.held.isSome then r
    else match r.chip.readWord m who (a + 4 * i) with
      | some e => if e.st = stOk then ⟨e.chip, r.bytes ++ beBytes 4 e.val, 0, none⟩ else ⟨e.chip, r.bytes, srcStatus e.st, none⟩
      | none => { r with held := some (a + 4 * i) }) ⟨c, [], 0, none⟩

/-- The first word of a destination that a hand-over window holds. -/
def Chip.burstHeld (c : Chip) (a : Nat) (bytes : List Byte) : Option Nat :=
  if 0x80000000 ≤ a then none
  else ((List.range (bytes.length / 4)).map (fun i => a + 4 * i)).find? (fun x => c.writeHeld x (word bytes (x - a)))

/-- The bytes of a burst are written: the chip, how many bytes were, and the STATUS that ends it. -/
def Chip.burstWrite (c : Chip) (m : Mem) (who a : Nat) (bytes : List Byte) : Chip × Nat × Nat :=
  if 0x80000000 ≤ a then
    if c.mayWrite who a ≠ stOk then (c, 0, 4)
    else if c.ddrOk = false ∨ c.ddrCap < a - 0x80000000 + bytes.length then (c, 0, 2)
    else (c.ddrPut a bytes, bytes.length, 0)
  else (List.range (bytes.length / 4)).foldl (fun r i =>
    if r.2.2 ≠ 0 then r
    else match r.1.writeWord m who (a + 4 * i) (word bytes (4 * i)) with
      | some e => if e.2 = stOk then (e.1, r.2.1 + 4, 0) else (e.1, r.2.1, dstStatus e.2)
      | none => r) (c, 0, 0)

/-- A descriptor is over (R350): written back, DONE, the trigger of its chain, STOP, or the stop of an error. -/
def Chip.dmaFinish (c : Chip) (ch : Nat) (r : DmaRun) (st : Nat) : Chip :=
  have c := c.dmaWriteBack ch r st
  have c := if dCtrl r.desc 14 then c.dmaFlag R.DMA_CH_STAT_DONE ch else c
  have dst := half r.desc 0 % 64
  have c := if st ≠ 0 then (c.dmaFlag R.DMA_CH_STAT_ERROR ch).wg R.DMA_CH_STAT_STATE ch 4
    else if dCtrl r.desc 11 ∨ r.stop then c.wg R.DMA_CH_STAT_STATE ch 4
    else c.dmaGo ch
  have c := if c.rb R.DMA_CH_CFG_EN ch then c else { (c.wg R.DMA_CH_STAT_STATE ch 0) with hp.dmaTrig := c.hp.dmaTrig.erase ch }
  if dCtrl r.desc 13 then (if c.rg R.DMA_CH_CFG_TRIG dst = 2 then c.dmaTrigger dst else c.inc C.DMA_TRIG_LOST dst) else c

/-- A burst of a descriptor in progress (R352). One that touches a held shadow register waits whole. -/
def Chip.dmaRunBurst (c : Chip) (m : Mem) (ch : Nat) (r : DmaRun) (bad : Option Nat) : Chip :=
  have who := c.dmaWho ch
  have n := burstLen r.desc r.moved
  have a := dDst r.desc + r.moved
  have s := c.burstRead m who r.desc r.moved n bad
  have waits : Chip := { c with hp.dma := c.hp.dma.set ch { r with waits := true } }
  match s.held with
  | some x => waits.park x 0 (32 + ch)
  | none =>
    if s.st ≠ 0 then s.chip.dmaFinish ch { r with waits := false } s.st
    else match s.chip.burstHeld a s.bytes with
      | some x => waits.hold x (word s.bytes (x - a)) (32 + ch)
      | none =>
        have w := s.chip.burstWrite m who a s.bytes
        have c := w.1.incBy C.DMA_BYTES ch w.2.1
        have r := { r with moved := r.moved + w.2.1, waits := false }
        if w.2.2 ≠ 0 then c.dmaFinish ch r w.2.2
        else if r.moved = dLen r.desc then c.dmaFinish ch r 0
        else if r.stop then
          have c := ((c.dmaWriteBack ch r 7).dmaFlag R.DMA_CH_STAT_ERROR ch).wg R.DMA_CH_STAT_STATE ch 4
          if c.rb R.DMA_CH_CFG_EN ch then c else { (c.wg R.DMA_CH_STAT_STATE ch 0) with hp.dmaTrig := c.hp.dmaTrig.erase ch }
        else
          have c := { c with hp.dma := c.hp.dma.set ch r }
          if c.rg R.DMA_CH_CFG_TRIG ch = 3 then c.dmaGo ch else c

/-- The channel takes the descriptor at HEAD (R350): none that the engine owns, one that is malformed, or its first burst. A ring
outside DDR5 stops the channel. -/
def Chip.dmaTake (c : Chip) (m : Mem) (ch : Nat) (bad : Option Nat) : Chip :=
  if c.ddrOk = false then c
  else if c.ddrCap < c.dmaDesc ch + 32 then ((c.wg R.DMA_CH_STAT_LAST_STATUS ch 1).dmaFlag R.DMA_CH_STAT_ERROR ch).wg R.DMA_CH_STAT_STATE ch 4
  else
    have d := (m.applyAll c.mout).ddrRead (c.dmaDesc ch) 32
    if dCtrl d 15 = false then (c.inc C.DMA_OWN_MISS ch).wg R.DMA_CH_STAT_STATE ch 3
    else
      have r : DmaRun := { desc := d, moved := 0, waits := false, stop := false }
      match descBad d with
      | some st => c.dmaFinish ch r st
      | none => c.dmaRunBurst m ch r bad

/-- DMA_BURST: one grant of the engine; `bad` is a DDR5 byte whose read meets an uncorrectable error. -/
def dmaBurst (bad : Option Nat) (m : Mem) (c : Chip) : Chip :=
  if c.domOn 6 = false then c
  else match c.dmaPick with
    | none => c
    | some ch =>
      have c := { c.evtUpdate with hp.dmaRr := ch }
      have d := match c.hp.dma.find ch with
        | some r => c.dmaRunBurst m ch r bad
        | none => c.dmaTake m ch bad
      d.evtUpdate
def execDmaBurst (t : Nat) (bad : Option Nat) (s : State) : Host.Outcome State Fault Refusal := s.on t (fun m => dmaBurst bad m)

end Sys2Proof.Machine
end

