-- ==== Sys2Proof/Machine/Zcp.lean ====
section
/-! DEFINITION. The Zalone Control Protocol (11_host_control_and_dma.md R328 to R347): sessions, requests and their responses, memory
operations, attestation (13_security.md R386), slow-path packets, EVENT frames; and the landing of held accesses (R81). -/

namespace Sys2Proof.Machine

open Sys2Proof

/-! ## Frames (R328, R330) -/

/-- Does the host port take and send frames: its domain is ON (R407)? A frame arrives only over a link that is up. -/
def Chip.zcpAlive (c : Chip) : Bool := c.domOn 5

/-- The IV of a protected frame: DIR, SESSION, zeros, SEQ (R330). -/
def zcpIv (dir sess seq : Nat) : List Byte := beBytes 1 dir ++ beBytes 1 sess ++ zeros 2 ++ beBytes 8 seq

/-- Bytes 0 to 29 of a frame that the terminal sends (R328), to the address `da` from which the session was opened (DESIGN CHOICE, log
entry 81). -/
def Chip.zcpHead (c : Chip) (da kind sess seq len : Nat) : List Byte :=
  beBytes 6 da ++ beBytes 6 c.hostMac ++ beBytes 2 0x88B5 ++ beBytes 1 1 ++ beBytes 1 kind ++ beBytes 1 sess ++ zeros 1 ++ beBytes 8 seq ++ beBytes 4 len

/-- A frame without FCS padded to 64 bytes with it (R328). -/
def zcpPad (l : List Byte) : List Byte := l ++ zeros (60 - l.length)

/-- A message: its header and BODY (R331). -/
def zcpMessage (typ flags tag st index detail : Nat) (body : List Byte) : List Byte :=
  beBytes 1 typ ++ beBytes 1 flags ++ beBytes 2 tag ++ beBytes 2 st ++ beBytes 2 index ++ beBytes 4 detail ++ body

/-- A protected frame of a session: the header bytes 14 to 29 are authenticated, the message is encrypted under the key for frames from
the terminal (R330, R333). -/
def Chip.zcpSeal (c : Chip) (s seq : Nat) (msg : List Byte) : List Byte :=
  have x := c.sess s
  have head := c.zcpHead x.peer 1 s seq msg.length
  have key := x.keys.drop 32
  have iv := zcpIv 0x80 s seq
  have ct := gcmStream key iv 0 msg
  zcpPad (head ++ ct ++ gcmTagBytes key iv (head.drop 14) ct)

/-- A frame leaves on the host port, or waits there behind those that a pause or a link that is down holds (R319). -/
def Chip.hostSend (c : Chip) (o : Output) : Chip :=
  if c.hostClear ∧ c.hp.txWait = [] then c.hostOut o else { c with hp.txWait := c.hp.txWait ++ [o] }

/-- The protected frame that a session sends next (R330): TYPE, MFLAGS, TAG, STATUS, INDEX, DETAIL, body. -/
def Chip.zcpOutput (c : Chip) (s typ flags tag st index detail : Nat) (body : List Byte) : Output :=
  have seq := (c.sess s).txSeq + 1
  { kind := .zcp, unit := s, data := [seq, typ, flags, tag, st, index, detail], bytes := c.zcpSeal s seq (zcpMessage typ flags tag st index detail body) }

/-- A protected frame of a session leaves under the next SEQ (R330). -/
def Chip.zcpSend (c : Chip) (s typ flags tag st index detail : Nat) (body : List Byte) : Chip :=
  have o := c.zcpOutput s typ flags tag st index detail body
  (c.setSess s { c.sess s with txSeq := (c.sess s).txSeq + 1 }).hostSend o

/-- A clear frame leaves to an address: SESSION, TYPE, body. -/
def Chip.zcpClear (c : Chip) (da s typ : Nat) (body : List Byte) : Chip :=
  have msg := zcpMessage typ 0 0 0 0 0 body
  c.hostSend { kind := .zcpClear, unit := s, data := [typ], bytes := zcpPad (c.zcpHead da 0 s 0 msg.length ++ msg) }

/-- REJECT with a reason (R332). -/
def Chip.zcpReject (c : Chip) (da s reason : Nat) : Chip := c.zcpClear da s 0x83 (beBytes 1 reason ++ zeros 3)

/-- A frame drawn by a rule of R328 or R330. -/
def Chip.formatDrop (c : Chip) : Chip := c.inc C.ZCP_FORMAT_DROP 0

/-- VER, KIND and LENGTH of a received frame without FCS are those of a frame of a kind, which holds its MESSAGE, and its TAG (R328). -/
def zcpForm (kind : Nat) (l : List Byte) : Bool :=
  decide (byteAt l 14 = 1 ∧ byteAt l 15 = kind ∧ 12 ≤ beAt l 26 4 ∧ beAt l 26 4 + 16 * kind ≤ 16350 ∧ 30 + beAt l 26 4 + 16 * kind ≤ l.length)

/-- The message in a received frame. -/
structure ZcpMsg where
  typ : Nat
  flags : Nat
  tag : Nat
  body : List Byte
deriving DecidableEq, Repr
def zcpMsgOf (m : List Byte) : ZcpMsg := { typ := byteAt m 0, flags := byteAt m 1, tag := half m 2, body := m.drop 12 }

/-- SESSION and SEQ of a received frame; the message of a clear one. -/
def zcpSess (l : List Byte) : Nat := byteAt l 16
def zcpSeq (l : List Byte) : Nat := beAt l 18 8
def zcpClearMsg (l : List Byte) : ZcpMsg := zcpMsgOf (slice l 30 (beAt l 26 4))

/-- What a protected frame says under the key of its session for frames from the host, where its tag verifies (R330, R333). -/
def Chip.zcpOpens (c : Chip) (l : List Byte) : Option ZcpMsg :=
  have key := (c.sess (zcpSess l)).keys.take 32
  have iv := zcpIv 0 (zcpSess l) (zcpSeq l)
  have ct := slice l 30 (beAt l 26 4)
  if zcpForm 1 l = true ∧ c.sessOpen (zcpSess l) = true ∧ gcmTagBytes key iv (slice l 14 16) ct = slice l (30 + beAt l 26 4) 16 then
    some (zcpMsgOf (gcmStream key iv 0 ct))
  else none

/-- A frame without FCS arrives on the host port (R319): whether it goes to ZCP. -/
def Chip.hostRx (c : Chip) (l : List Byte) : Chip × Bool :=
  if c.zcpAlive = false ∨ c.rg R.HST_STAT_LINK 0 ≠ 2 then (c, false)
  else if l.length < 60 ∨ 16380 < l.length then (c.inc C.HST_RX_DROP 0, false)
  else
    have c := (c.inc C.HST_RX_FRAMES 0).incBy C.HST_RX_BYTES 0 (l.length + 4)
    if beAt l 12 2 ≠ 0x88B5 then (c.inc C.HST_RX_DROP 0, false) else (c, true)

/-- Is SEQ new in a session (R330)? -/
def Sess.fresh (x : Sess) (seq : Nat) : Bool :=
  decide (x.top < seq) || (decide (x.top ≤ seq + 63 ∧ seq ≠ x.top) && !x.seen.contains seq)

/-- A protected frame arrives: the checks of R330, and its message where it is accepted. Sixteen tag failures in one second close the
session (R336). -/
def Chip.zcpAccept (c : Chip) (l : List Byte) : Chip × Option ZcpMsg :=
  have r := c.hostRx l
  have c := r.1
  have s := zcpSess l
  if r.2 = false then (c, none)
  else if zcpForm 1 l = false ∨ c.sessOpen s = false then (c.formatDrop, none)
  else
    have x := c.sess s
    match c.zcpOpens l with
    | none =>
      have fails := c.now :: x.fails.filter (fun t => decide (c.now < t + secPs))
      have c := (c.inc C.ZCP_TAG_FAIL 0).setSess s { x with fails := fails }
      (if 16 ≤ fails.length then c.sessClose s 3 else c, none)
    | some m =>
      if x.fresh (zcpSeq l) then
        have top := max x.top (zcpSeq l)
        have seen := (x.top :: zcpSeq l :: x.seen).filter (fun k => decide (k ≠ top ∧ top ≤ k + 63))
        ((c.inc C.ZCP_RX_MSG 0).setSess s { x with top := top, seen := seen, lastRx := c.now }, some m)
      else (c.inc C.ZCP_REPLAY 0, none)

/-- A response is kept under its TAG and sent (R337). -/
def Chip.zcpRespond (c : Chip) (s : Nat) (r : Req) (p : Reply) : Chip :=
  if c.sessOpen s = false then c
  else
    have x := c.sess s
    have k : Kept := { typ := r.typ, tag := r.tag, status := p.st, index := p.index, detail := p.detail, body := p.body }
    have c := c.setSess s { x with kept := (k :: x.kept.filter (fun (y : Kept) => decide (y.tag ≠ r.tag))).take 64 }
    (if p.st = stBusy then c.inc C.ZCP_BUSY_SENT 0 else c).zcpSend s r.typ 1 r.tag p.st p.index p.detail p.body

/-! ## Items of READ, WRITE and MODIFY (R339, R340) -/

structure Item where
  addr : Nat
  n : Nat
  words : List Nat
  mask : Nat
  value : Nat

/-- Items of a WRITE body from an offset on, and the offset of one that is cut off. -/
def writeItems : Nat → List Byte → Nat → List Item × Option Nat
  | 0, _, _ => ([], none)
  | fuel + 1, b, o =>
    if b.length ≤ o then ([], none)
    else if b.length < o + 8 ∨ b.length < o + 8 + 4 * half b (o + 6) then ([], some o)
    else
      have n := half b (o + 6)
      have r := writeItems fuel b (o + 8 + 4 * n)
      (⟨beAt b o 6, n, (List.range n).map (fun i => word b (o + 8 + 4 * i)), 0, 0⟩ :: r.1, r.2)

/-- Items of a body of one size each. -/
def sameItems (size : Nat) (b : List Byte) (f : Nat → Item) : List Item × Option Nat :=
  ((List.range (b.length / size)).map (fun i => f (size * i)), if b.length % size = 0 then none else some (b.length / size * size))

/-- The items of a request, as reads (1), writes (2) or modifications (3) of words; a BULK in the table window is one of them. -/
def Req.items (r : Req) : Nat × List Item × Option Nat :=
  have b := r.body
  match r.typ with
  | 1 => (1, sameItems 8 b (fun o => ⟨beAt b o 6, half b (o + 6), [], 0, 0⟩))
  | 2 => (2, writeItems (b.length / 8 + 1) b 0)
  | 3 => (3, sameItems 16 b (fun o => ⟨beAt b o 6, 1, [], word b (o + 8), word b (o + 12)⟩))
  | _ =>
    have n := word b 8 / 4
    if byteAt b 0 = 0 then (2, [⟨beAt b 2 6, n, (List.range n).map (fun i => word b (12 + 4 * i)), 0, 0⟩], none)
    else (1, [⟨beAt b 2 6, n, [], 0, 0⟩], none)

/-- What the environment decides while requests run: a DDR5 byte whose read meets an uncorrectable error. -/
structure Env where
  bad : Option Nat

/-- The end of one word: its status, its bytes in the response, and the access that is held. -/
structure WordEnd where
  chip : Chip
  st : Nat
  bytes : List Byte
  held : Option (Nat × Nat × Bool)

/-- Does an uncorrectable error lie in the word at an address? -/
def Env.hits (e : Env) (a : Nat) : Option Nat := match e.bad with
  | some x => if 0x80000000 ≤ a ∧ a - 0x80000000 ≤ x ∧ x < a - 0x80000000 + 4 then some x else none
  | none => none

/-- A register with a field that a MODIFY may not touch (R340). -/
def noModify (a : Nat) : Bool := decide (a < 0x80000000) && (fieldsAt a).any (fun f => decide (f.acc = .rc ∨ f.acc = .wo))

/-- One word of an item of kind 1, 2 or 3. -/
def Chip.zcpWord (c : Chip) (m : Mem) (s kind : Nat) (it : Item) (w : Nat) (e : Env) : WordEnd :=
  have a := it.addr + 4 * w
  match kind with
  | 1 => match c.readWord m s a with
    | none => ⟨c, 0, [], some (a, 0, false)⟩
    | some r => match e.hits a with
      | some x => if r.st = stOk then ⟨c.memUncorr x, stMemory, zeros 4, none⟩ else ⟨r.chip, r.st, beBytes 4 r.val, none⟩
      | none => ⟨r.chip, r.st, beBytes 4 r.val, none⟩
  | 2 => match c.writeWord m s a (it.words.getD w 0) with
    | none => ⟨c, 0, [], some (a, it.words.getD w 0, true)⟩
    | some r => ⟨r.1, r.2, [], none⟩
  | _ =>
    if c.mayWrite s a ≠ stOk then ⟨c, c.mayWrite s a, zeros 4, none⟩
    else if c.reach a ≠ stOk then ⟨c, c.reach a, zeros 4, none⟩
    else if noModify a then ⟨c, stRefused, zeros 4, none⟩
    else if c.readHeld a then ⟨c, 0, [], some (a, 0, false)⟩
    else match e.hits a with
      | some x => ⟨c.memUncorr x, stMemory, zeros 4, none⟩
      | none =>
        have r := c.rawRead m a
        have v := (r.2 &&& (0xFFFFFFFF - it.mask)) ||| (it.value &&& it.mask)
        match r.1.writeWord m s a v with
        | none => ⟨c, 0, [], some (a, v, true)⟩
        | some d => ⟨d.1, d.2, beBytes 4 r.2, none⟩

/-- Bytes that an item's words take in the response. -/
def itemBytes (kind n : Nat) : Nat := if kind = 1 then 4 * n else if kind = 2 then 0 else 4

/-- The item in progress is over: its status stands before its words, the first failing item is remembered. -/
def Exec.close (x : Exec) (kind n : Nat) : Exec :=
  have p := x.done.length - 4 - itemBytes kind n
  have fail := match x.fail with
    | some f => some f
    | none => if x.ist = 0 then none else some (x.item, x.ist, if x.ist = stBusy then 0 else x.iad % 2 ^ 32)
  { x with item := x.item + 1, word := 0, done := x.done.take p ++ beBytes 2 x.ist ++ x.done.drop (p + 2), fail := fail, ist := 0, iad := 0 }

/-- Items word by word until they are done, or an access is held; `stop` is STOP_ON_ERR. -/
def Chip.zcpGo (m : Mem) (s kind : Nat) (items : List Item) (stop : Bool) (e : Env) : Nat → Exec → Chip → Chip × Exec × Option (Nat × Nat × Bool)
  | 0, x, c => (c, x, none)
  | fuel + 1, x, c => match items[x.item]? with
    | none => (c, x, none)
    | some it =>
      if x.word = 0 ∧ stop = true ∧ x.fail.isSome = true then
        zcpGo m s kind items stop e fuel { x with item := x.item + 1, done := x.done ++ beBytes 2 stSkipped ++ zeros (2 + itemBytes kind it.n) } c
      else
        have y := if x.word = 0 then { x with done := x.done ++ zeros 4 } else x
        if it.n = 0 then
          zcpGo m s kind items stop e fuel ({ y with ist := if kind = 1 then stRefused else 0, iad := it.addr }.close kind 0) c
        else
          have r := c.zcpWord m s kind it x.word e
          match r.held with
          | some h => (c, x, some h)
          | none =>
            have bad := decide (y.ist = 0 ∧ r.st ≠ 0)
            have y := { y with done := y.done ++ r.bytes, word := y.word + 1, ist := if bad then r.st else y.ist, iad := if bad then it.addr + 4 * x.word else y.iad }
            zcpGo m s kind items stop e fuel (if it.n ≤ y.word then y.close kind it.n else y) r.chip

/-- The response to a request whose items are done. -/
def Exec.reply (x : Exec) : Reply :=
  have f := x.fail.getD (0xFFFF, 0, 0)
  if x.req.typ ≤ 3 then ⟨f.2.1, f.1, f.2.2, x.done⟩
  else if byteAt x.req.body 0 = 0 then ⟨f.2.1, 0xFFFF, f.2.2, []⟩
  else if byteAt x.req.body 0 = 1 then ⟨f.2.1, 0xFFFF, f.2.2, x.done.drop 4⟩
  else ⟨f.2.1, 0xFFFF, f.2.2, if f.2.1 = 0 then sha3_512 (x.done.drop 4) else []⟩

/-- A request with items goes on: its response, or nothing where an access is held, which later items and requests wait behind
(R81, R340). -/
def Chip.zcpItems (c : Chip) (m : Mem) (s : Nat) (x : Exec) (e : Env) : Chip × Option Reply :=
  have k := x.req.items
  have fuel := (k.2.1.map (fun it => it.n + 2)).sum + 1
  have r := zcpGo m s k.1 k.2.1 (bit x.req.flags 1) e fuel x c
  match r.2.2 with
  | some h =>
    have c := if h.2.2 then r.1.hold h.1 h.2.1 s else r.1.park h.1 h.2.1 s
    (c.setSess s { c.sess s with cur := some r.2.1 }, none)
  | none => (r.1, some r.2.1.reply)

/-! ## BULK, ATTEST, PACKET, RESET (R341, R344, R346, R386) -/

/-- A BULK in DDR5. -/
def Chip.bulkDdr (c : Chip) (m : Mem) (op a len : Nat) (data : List Byte) (e : Env) : Chip × Reply :=
  have d := a - 0x80000000
  have body := if op = 1 then zeros len else []
  if c.ddrOk = false then (c, ⟨stRefused, 0xFFFF, a % 2 ^ 32, body⟩)
  else if c.ddrCap < d + len then (c, ⟨stAddress, 0xFFFF, max a (0x80000000 + c.ddrCap) % 2 ^ 32, body⟩)
  else if op = 0 then (c.ddrPut a data, .ok [])
  else
    have l := (m.applyAll c.mout).ddrRead d len
    have ok := Reply.ok (if op = 1 then l else sha3_512 l)
    match e.bad with
    | some x => if d ≤ x ∧ x < d + len then (c.memUncorr x, ⟨stMemory, 0xFFFF, (0x80000000 + x) % 2 ^ 32, body⟩) else (c, ok)
    | none => (c, ok)

/-- BULK (R341, R387): what the body asks for is checked first; the table window then goes word by word. -/
def Chip.zcpBulk (c : Chip) (m : Mem) (s : Nat) (r : Req) (e : Env) : Chip × Option Reply :=
  have b := r.body
  have op := byteAt b 0
  have a := beAt b 2 6
  have len := word b 8
  have right := if op = 0 then (if a < 0x80000000 then decide (c.mayWrite s a = stOk) else c.hasRight s 7) else decide (c.mayRead s a = stOk)
  if b.length < 12 then (c, some (.err stFormat b.length))
  else if 2 < op ∨ len = 0 ∨ (op < 2 ∧ 16310 < len) ∨ a < 0x40000000 then (c, some (.err stRefused a))
  else if b.length - 12 ≠ (if op = 0 then len else 0) then (c, some (.err stFormat 8))
  else if a < 0x80000000 ∧ (a % 4 ≠ 0 ∨ len % 4 ≠ 0) then (c, some (.err stAlign a))
  else if right = false then (c, some (.err stAccess a))
  else if a < 0x80000000 then c.zcpItems m s { req := r, item := 0, word := 0, done := [], fail := none, ist := 0, iad := 0 } e
  else
    have x := c.bulkDdr m op a len (b.drop 12) e
    (x.1, some x.2)

/-- The report of ATTEST (R386). -/
def Chip.attestReport (c : Chip) (nonce : List Byte) : List Byte :=
  have flags := b2n c.debugLocked + 2 * c.rg R.TRK_GUARD_STAT_QUAR 0 + 4 * b2n c.alarmHolds + 8 * c.rg R.SEC_ALARM_STAT_ERASED 0
  have head := beBytes 4 0x4B514154 ++ beBytes 2 1 ++ beBytes 1 c.grade ++ beBytes 1 c.mode ++ c.serial ++ nonce ++ c.sec.meas ++
    beBytes 2 (c.rg R.SEC_MEAS_CNT_COUNT 0) ++ beBytes 1 c.arbCount ++ beBytes 1 c.alm.keySlot ++ beBytes 4 (c.rg R.ALM_GEN_ACTIVE_GEN 0) ++
    beBytes 4 c.sec.omliaVer ++ beBytes 2 Config.romRev.toNat ++ beBytes 2 flags ++ beBytes 4 (c.counter C.SEC_ALARM_EVENTS 0) ++
    beBytes 4 (tsNsOf c.lNow) ++ beBytes 2 (fracOf c.lNow) ++ zeros 2 ++ c.sec.dStage1 ++ c.sec.dOmlia ++ c.sec.dAlmanac
  head ++ signed "ZCP-A" head ++ [0]

/-- An ATTEST is in progress: it takes at most 50 ms, and how long is open (R344, log entry 83). -/
def Chip.attesting (c : Chip) : Bool := match c.hp.attestAt with
  | some a => decide (c.now < a + min Config.attestPs (50 * msPs))
  | none => false

/-- ATTEST (R344, R386, R387, R402). -/
def Chip.zcpAttest (c : Chip) (s : Nat) (b : List Byte) : Chip × Reply :=
  if c.hasRight s 14 = false then (c, .err stAccess 0)
  else if b.length ≠ 64 then (c, .err stFormat (min b.length 64))
  else if c.attesting then (c, .err stBusy 0)
  else if c.rb R.SEC_STAT_ID_READY 0 = false then (c, .err stRefused 0)
  else ({ c with hp.attestAt := some c.now }, .ok (c.attestReport b))

/-- PACKET from the host (R346, R387). -/
def Chip.zcpPacket (c : Chip) (s : Nat) (b : List Byte) : Chip × Reply :=
  have target := byteAt b 0
  have port := half b 2
  have q := half b 4
  have f := b.drop 8
  if c.hasRight s 13 = false then (c, .err stAccess 0)
  else if b.length < 8 then (c, .err stFormat b.length)
  else if 1 < target ∨ 128 ≤ port ∨ 32768 ≤ q ∨ f.length < 60 ∨ c.maxFrame - 4 < f.length then (c, .err stRefused 0)
  else (if target = 0 then c.injectPass port f else c.injectQueue port q (c.portBlk port) f, .ok [])

/-- RESET (R344, R387): a warm reset starts 1 ms after the response. -/
def Chip.zcpResetReq (c : Chip) (s : Nat) (b : List Byte) : Chip × Reply :=
  if c.hasRight s 12 = false then (c, .err stAccess 0)
  else if b.length ≠ 4 then (c, .err stFormat (min b.length 4))
  else if word b 0 ≠ 1 then (c, .err stRefused 0)
  else ({ c with hp.resetAt := some (c.now + msPs) }, .ok [])

/-! ## Requests (R337, R339) -/

/-- A request with an empty body. -/
def emptyBody (b : List Byte) (ok : Reply) : Reply := if b.isEmpty then ok else .err stFormat 0

/-- A request begins: its response, or nothing where it is held. -/
def Chip.zcpStart (c : Chip) (m : Mem) (s : Nat) (r : Req) (e : Env) : Chip × Option Reply :=
  have some' := fun (x : Chip × Reply) => (x.1, some x.2)
  have txn := c.hasRight s 8
  match r.typ with
  | 4 => c.zcpBulk m s r e
  | 5 => if txn = false then (c, some (.err stAccess 0)) else if r.body.isEmpty then some' (c.beginTxn s) else (c, some (.err stFormat 0))
  | 6 => if txn = false then (c, some (.err stAccess 0)) else some' (c.stageTxn m s r.body)
  | 7 => if txn = false then (c, some (.err stAccess 0)) else some' (c.commitTxn s (bit r.flags 2) r.body)
  | 8 => if txn = false then (c, some (.err stAccess 0)) else some' (c.abortTxn s r.body)
  | 9 => some' (c.zcpAttest s r.body)
  | 11 => some' (c.zcpPacket s r.body)
  | 12 => some' (c.zcpResetReq s r.body)
  | 0x84 => (c, some (emptyBody r.body (.ok [])))
  | 0x85 => (c, some (emptyBody r.body (.ok [])))
  | typ =>
    if 1 ≤ typ ∧ typ ≤ 3 then
      have k := r.items
      match k.2.2 with
      | some o => (c, some (.err stFormat o))
      | none =>
        if typ = 1 ∧ 16334 < 12 + (k.2.1.map (fun it => 4 + 4 * it.n)).sum then (c, some (.err stSize 0))
        else c.zcpItems m s { req := r, item := 0, word := 0, done := [], fail := none, ist := 0, iad := 0 } e
    else (c, some (.err stUnsupported 0))

/-- The response to a request is sent where there is one; a CLOSE that was answered closes the session (R336). -/
def Chip.zcpEnd (c : Chip) (s : Nat) (r : Req) (p : Option Reply) : Chip := match p with
  | some p =>
    have c := c.zcpRespond s r p
    if r.typ = 0x85 ∧ p.st = stOk then c.sessClose s 1 else c
  | none => c

/-- The requests of a session run in order until one is held (R337). -/
def Chip.zcpPump (m : Mem) (s : Nat) (e : Env) : Nat → Chip → Chip
  | 0, c => c
  | fuel + 1, c =>
    have x := c.sess s
    match x.cur, x.queue with
    | none, r :: rest =>
      have d := (c.setSess s { x with queue := rest }).zcpStart m s r e
      zcpPump m s e fuel (d.1.zcpEnd s r d.2)
    | _, _ => c

/-- OUTSTANDING follows the requests not yet answered. -/
def Chip.zcpCount (c : Chip) (s : Nat) : Chip :=
  if c.sessOpen s then c.wg R.HST_SESS_STAT_OUTSTANDING s ((c.sess s).queue.length + b2n (c.sess s).cur.isSome) else c

/-- A request has arrived in a session (R337): a retry is answered from the store, one in execution is not taken again, beyond 64 the
answer is BUSY. -/
def Chip.zcpRequest (c : Chip) (m : Mem) (s : Nat) (r : Req) (e : Env) : Chip :=
  have x := c.sess s
  match x.kept.find? (fun k => decide (k.typ = r.typ ∧ k.tag = r.tag)) with
  | some k => (c.zcpSend s k.typ 1 k.tag k.status k.index k.detail k.body).inc C.ZCP_RETRY_HIT 0
  | none =>
    if x.queue.any (fun q => decide (q.tag = r.tag)) || (match x.cur with
      | some y => decide (y.req.tag = r.tag)
      | none => false) then c
    else if 64 ≤ x.queue.length + b2n x.cur.isSome then (c.zcpSend s r.typ 1 r.tag stBusy 0xFFFF 0 []).inc C.ZCP_BUSY_SENT 0
    else
      have c := c.setSess s { x with queue := x.queue ++ [r] }
      (zcpPump m s e (x.queue.length + 1) c).zcpCount s

/-- The types that a row of its own carries. -/
def zcpTypes : List Nat := [1, 2, 3, 4, 5, 6, 7, 8, 9, 10, 11, 12, 0x84, 0x85]

/-- Is a frame the business of another row than that of TYPE `typ`: a set-up message, or a message of another row's TYPE? -/
def Chip.otherRow (c : Chip) (typ : Nat) (l : List Byte) : Bool :=
  (zcpForm 0 l && decide ((zcpClearMsg l).typ = 0x80 ∨ (zcpClearMsg l).typ = 0x82)) ||
    (match c.zcpOpens l with
    | some m => zcpTypes.contains m.typ && decide (m.typ ≠ typ)
    | none => false)

/-- A row that is a request frame, from its destination address on without FCS: one of its own TYPE, of a TYPE that no row has, or one
that is not accepted. A frame with RESP set asks for nothing. -/
def zcpRow (typ : Nat) (l : List Byte) (e : Env) (m : Mem) (c : Chip) : Chip :=
  if c.otherRow typ l then c
  else
    have a := c.evtUpdate.zcpAccept l
    match a.2 with
    | some x =>
      if bit x.flags 0 then a.1.evtUpdate
      else (a.1.zcpRequest m (zcpSess l) { typ := x.typ, flags := x.flags, tag := x.tag, body := x.body } e).evtUpdate
    | none => a.1.evtUpdate

def execZcpRead (t : Nat) (frame : List Byte) (bad : Option Nat) (s : State) : Host.Outcome State Fault Refusal :=
  s.on t (fun m => zcpRow 1 frame ⟨bad⟩ m)
def execZcpWrite (t : Nat) (frame : List Byte) (s : State) : Host.Outcome State Fault Refusal :=
  s.on t (fun m => zcpRow 2 frame ⟨none⟩ m)
def execZcpModify (t : Nat) (frame : List Byte) (bad : Option Nat) (s : State) : Host.Outcome State Fault Refusal :=
  s.on t (fun m => zcpRow 3 frame ⟨bad⟩ m)

/-- A BULK row: a frame with its own OP, or with one that no row has. -/
def bulkRow (op : Nat) (l : List Byte) (e : Env) (m : Mem) (c : Chip) : Chip :=
  match c.zcpOpens l with
  | some x => if x.typ = 4 ∧ byteAt x.body 0 ≠ op ∧ byteAt x.body 0 ≤ 2 then c else zcpRow 4 l e m c
  | none => zcpRow 4 l e m c
def execZcpBulkWrite (t : Nat) (frame : List Byte) (s : State) : Host.Outcome State Fault Refusal :=
  s.on t (fun m => bulkRow 0 frame ⟨none⟩ m)
def execZcpBulkRead (t : Nat) (frame : List Byte) (bad : Option Nat) (s : State) : Host.Outcome State Fault Refusal :=
  s.on t (fun m => bulkRow 1 frame ⟨bad⟩ m)
def execZcpBulkDigest (t : Nat) (frame : List Byte) (bad : Option Nat) (s : State) : Host.Outcome State Fault Refusal :=
  s.on t (fun m => bulkRow 2 frame ⟨bad⟩ m)

def execZcpBegin (t : Nat) (frame : List Byte) (s : State) : Host.Outcome State Fault Refusal :=
  s.on t (fun m => zcpRow 5 frame ⟨none⟩ m)
def execZcpStage (t : Nat) (frame : List Byte) (s : State) : Host.Outcome State Fault Refusal :=
  s.on t (fun m => zcpRow 6 frame ⟨none⟩ m)
def execZcpCommit (t : Nat) (frame : List Byte) (s : State) : Host.Outcome State Fault Refusal :=
  s.on t (fun m => zcpRow 7 frame ⟨none⟩ m)
def execZcpAbort (t : Nat) (frame : List Byte) (s : State) : Host.Outcome State Fault Refusal :=
  s.on t (fun m => zcpRow 8 frame ⟨none⟩ m)
def execZcpAttest (t : Nat) (frame : List Byte) (s : State) : Host.Outcome State Fault Refusal :=
  s.on t (fun m => zcpRow 9 frame ⟨none⟩ m)
def execZcpPacket (t : Nat) (frame : List Byte) (s : State) : Host.Outcome State Fault Refusal :=
  s.on t (fun m => zcpRow 11 frame ⟨none⟩ m)
def execZcpReset (t : Nat) (frame : List Byte) (s : State) : Host.Outcome State Fault Refusal :=
  s.on t (fun m => zcpRow 12 frame ⟨none⟩ m)
def execZcpKeepalive (t : Nat) (frame : List Byte) (s : State) : Host.Outcome State Fault Refusal :=
  s.on t (fun m => zcpRow 0x84 frame ⟨none⟩ m)
def execZcpClose (t : Nat) (frame : List Byte) (s : State) : Host.Outcome State Fault Refusal :=
  s.on t (fun m => zcpRow 0x85 frame ⟨none⟩ m)

/-! ## Session set-up (R332 to R336, R388) -/

/-- Role and rights of a host key (R388): 0x80 is ROOT, 0x81 FACTORY. -/
def Chip.roleFor (c : Chip) (key : List Byte) : Option (Nat × Nat) :=
  have d := sha3_512 key
  if c.rg R.ALM_GEN_ACTIVE_GEN 0 ≠ 0 then (c.roleOf d).map (fun r => (r, c.roleRights r))
  else if (List.range 4).any (fun k => c.rootValid k) then
    if (List.range 4).any (fun k => c.rootValid k && decide (c.rootHash k = d)) then some (0x80, 0xD6C1) else none
  else some (0x81, 0x5441)

/-- ACCEPT (R332 to R334): the slot becomes HALF_OPEN. -/
def Chip.zcpAcceptOpen (c : Chip) (da s : Nat) (body : List Byte) (role : Nat × Nat) : Chip :=
  have ek := slice body 2592 1568
  have r1 := c.draw
  have r2 := r1.2.draw
  have c := r2.2
  have head := beBytes 1 s ++ beBytes 1 role.1 ++ zeros 2 ++ beBytes 32 (r1.1 % 2 ^ 256) ++ beBytes 1568 (Config.mlkemCt ek r2.1).toNat ++ c.idPub
  have th := sha3_512 (body ++ head)
  have kk := sha3_512 (beBytes 32 (Config.mlkemSs ek r2.1).toNat ++ th)
  have x : Sess := { Sess.reset with peer := da, hostKey := body.take 2592, keys := kk, th := th, rights := role.2, at_ := c.now }
  have c := ((c.setSess s x).wg R.HST_SESS_STAT_STATE s 1).wg R.HST_SESS_STAT_ROLE s role.1
  have c := (c.wg R.HST_SESS_CFG_EVT_SUB s 1).wg R.HST_SESS_CFG_SP_SUB s 0
  c.zcpClear da s 0x81 (head ++ signed "ZCP-T" th ++ [0])

/-- New sessions are discarded: an alarm holds (R402), the noise source fails (R398), the identity key is not there, or EVENTIDE has
closed the sessions (R427). -/
def Chip.noSessions (c : Chip) : Bool := c.alarmHolds || c.sec.entBad || !c.rb R.SEC_STAT_ID_READY 0 || decide (3 ≤ c.pw.evStep)

/-- A set-up row with a clear message of TYPE `typ` (R328, R332): what a good one does; a clear frame with a message that no row has is
dropped, a frame of another row is none of its business. -/
def setupRow (typ : Nat) (l : List Byte) (f : ZcpMsg → Chip → Chip) (c : Chip) : Chip :=
  if zcpForm 1 l = true ∨ (zcpForm 0 l = true ∧ (zcpClearMsg l).typ ≠ typ ∧ ((zcpClearMsg l).typ = 0x80 ∨ (zcpClearMsg l).typ = 0x82)) then c
  else
    have r := c.hostRx l
    if r.2 = false then r.1
    else if zcpForm 0 l = false ∨ (zcpClearMsg l).typ ≠ typ then r.1.formatDrop
    else f (zcpClearMsg l) r.1

/-- An OPEN from an address (R334): at most 8 in any second. -/
def Chip.zcpOpenMsg (c : Chip) (da : Nat) (body : List Byte) : Chip :=
  have opens := c.hp.opens.filter (fun t => decide (c.now < t + secPs))
  if c.noSessions ∨ 8 ≤ opens.length then c.inc C.ZCP_OPEN_DROP 0
  else
    have c := { c.inc C.ZCP_RX_MSG 0 with hp.opens := c.now :: opens }
    if body.length ≠ 4192 then c.zcpReject da 0xFF 5
    else match (List.range 4).find? (fun s => decide (c.rg R.HST_SESS_STAT_STATE s = 0)), c.roleFor (body.take 2592) with
      | none, _ => c.zcpReject da 0xFF 1
      | _, none => c.zcpReject da 0xFF 2
      | some s, some role => c.zcpAcceptOpen da s body role

/-- OPEN (R334). -/
def zcpOpen (l : List Byte) (c : Chip) : Chip := setupRow 0x80 l (fun m c => c.zcpOpenMsg (beAt l 6 6) m.body) c
def execZcpOpen (t : Nat) (frame : List Byte) (s : State) : Host.Outcome State Fault Refusal := s.on t (fun _ => zcpOpen frame)

/-- Does SIG_H of a CONFIRM verify over TH by the key of the session's HOST_KEY (R333)? -/
def Sess.sigOk (x : Sess) (body : List Byte) : Bool :=
  Config.mldsaVerify x.hostKey (ascii "ZCP-H") x.th (body.take 4627)

/-- A CONFIRM for slot `s` (R334 steps 2 and 3). -/
def Chip.zcpConfirmMsg (c : Chip) (da s : Nat) (body : List Byte) : Chip :=
  have c := c.inc C.ZCP_RX_MSG 0
  have half := decide (s < 4 ∧ c.rg R.HST_SESS_STAT_STATE s = 1)
  if body.length ≠ 4628 then (if half then c.sessFree s else c).zcpReject da s 5
  else if half = false then c
  else if (c.sess s).sigOk body = false then (c.sessFree s).zcpReject da s 3
  else ((c.setSess s { c.sess s with lastRx := c.now }).wg R.HST_SESS_STAT_STATE s 2).zcpSend s 0x84 1 0 stOk 0xFFFF 0 []

/-- CONFIRM (R334). -/
def zcpConfirm (l : List Byte) (c : Chip) : Chip := setupRow 0x82 l (fun m c => c.zcpConfirmMsg (beAt l 6 6) (zcpSess l) m.body) c
def execZcpConfirm (t : Nat) (frame : List Byte) (s : State) : Host.Outcome State Fault Refusal := s.on t (fun _ => zcpConfirm frame)

/-- CONFIRM_TIMEOUT (R334 step 4). -/
def confirmTimeout (s : Nat) (c : Chip) : Chip :=
  if c.rg R.HST_SESS_STAT_STATE s = 1 ∧ (c.sess s).at_ + 2 * secPs ≤ c.now then (c.sessFree s).zcpReject (c.sess s).peer s 4 else c
def execConfirmTimeout (t : Nat) (sess : Fin 4) (s : State) : Host.Outcome State Fault Refusal := s.on t (fun _ => confirmTimeout sess.val)

/-- IDLE_TIMEOUT (R336). -/
def idleTimeout (s : Nat) (c : Chip) : Chip :=
  if c.sessOpen s ∧ (c.sess s).lastRx + c.rg R.HST_ZCP_CFG_IDLE_TO 0 * secPs ≤ c.now then c.sessClose s 2 else c
def execIdleTimeout (t : Nat) (sess : Fin 4) (s : State) : Host.Outcome State Fault Refusal := s.on t (fun _ => idleTimeout sess.val)

/-! ## Slow-path packets (R345) -/

/-- The slow-path record that the host port sends next and the others: the oldest of the first source after the one served last that has
one, in round robin over the four regions and the cores (R30; the cores' share is a DESIGN CHOICE, log entry 79). -/
def Chip.hostTurn (c : Chip) : Option ((Nat × List Byte) × List (Nat × List Byte)) :=
  match ((List.range 5).map (fun i => (c.pp.hostLast + 1 + i) % 5)).find? (fun g => c.pp.hostQ.any (fun x => decide (x.1 = g))) with
  | none => none
  | some g => (c.pp.hostQ.find? (fun x => decide (x.1 = g))).map
      (fun x => (x, (c.pp.hostQ.takeWhile (fun y => decide (y.1 ≠ g))) ++ (c.pp.hostQ.dropWhile (fun y => decide (y.1 ≠ g))).drop 1))

/-- SP_PACKET_SEND: the record whose turn it is goes to the lowest OPEN session with SP_SUB, or is dropped. -/
def spPacketSend (c : Chip) : Chip := match c.hostTurn with
  | none => c
  | some (f, rest) =>
    if c.hostClear = false ∨ c.hp.txWait ≠ [] then c
    else
      have c := { c with pp.hostQ := rest, pp.hostLast := f.1 }
      match (List.range 4).find? (fun s => c.sessOpen s && c.rb R.HST_SESS_CFG_SP_SUB s) with
      | some s => (c.zcpSend s 0x0B 0 0 0 0 0 f.2).inc C.ZCP_SP_SENT 0
      | none => c.inc C.ZCP_SP_NOHOST 0
def execSpPacketSend (t : Nat) (s : State) : Host.Outcome State Fault Refusal := s.on t (fun _ => spPacketSend)

/-! ## EVENT frames (R347) -/

/-- The body of an EVENT frame sent now. -/
def Chip.eventBody (c : Chip) (seq : Nat) (results : List (Nat × Nat × Nat)) : List Byte :=
  beBytes 4 seq ++ beBytes 4 c.evPend ++ beBytes 1 c.mode ++ zeros 3 ++ beBytes 4 (tsNsOf c.lNow) ++ beBytes 2 (fracOf c.lNow) ++
    beBytes 2 results.length ++ results.flatMap (fun r => beBytes 2 r.1 ++ beBytes 2 (r.2.1 * 8192 + r.2.2))

/-- EVENT_SEND: a rise or a NOTIFY result is told, no sooner than EVT_HOLDOFF after the frame before. -/
def eventSend (s : Nat) (c : Chip) : Chip :=
  have c := c.evtUpdate
  have x := c.sess s
  have due := match x.evtAt with
    | some t => decide (t + c.rg R.HST_ZCP_CFG_EVT_HOLDOFF 0 * msPs ≤ c.now)
    | none => true
  if c.hostClear = false ∨ c.hp.txWait ≠ [] ∨ c.sessOpen s = false ∨ due = false ∨ (x.rose = false ∧ x.results = []) then c
  else
    have seq := (x.evtSeq + 1) % 2 ^ 32
    have f : EvtFrame := { seq := seq, at_ := c.now, results := x.results.take 64 }
    have c := c.setSess s { x with evtSeq := seq, evtAt := some c.now, unacked := x.unacked ++ [f], rose := false, results := x.results.drop 64 }
    (c.zcpSend s 0x0A 0 0 0 0 0 (c.eventBody seq f.results)).inc C.ZCP_EVT_SENT 0
def execEventSend (t : Nat) (sess : Fin 4) (s : State) : Host.Outcome State Fault Refusal := s.on t (fun _ => eventSend sess.val)

/-- EVENT_RESEND: the oldest frame not acknowledged for EVT_RETRY is sent again, or given up where there is nothing left to tell. -/
def eventResend (s : Nat) (c : Chip) : Chip :=
  have x := c.sess s
  match x.unacked.find? (fun f => decide (f.at_ + c.rg R.HST_ZCP_CFG_EVT_RETRY 0 * msPs ≤ c.now)) with
  | none => c
  | some f =>
    if c.hostClear = false ∨ c.hp.txWait ≠ [] ∨ c.sessOpen s = false then c
    else if c.evPend &&& c.rg R.HST_SESS_CFG_EVT_MASK s = 0 ∧ f.results = [] then
      c.setSess s { x with unacked := x.unacked.filter (fun (g : EvtFrame) => decide (g.seq ≠ f.seq)) }
    else
      have c := c.setSess s { x with evtAt := some c.now, unacked := x.unacked.map (fun (g : EvtFrame) => if g.seq = f.seq then { g with at_ := c.now } else g) }
      (c.zcpSend s 0x0A 0 0 0 0 0 (c.eventBody f.seq f.results)).inc C.ZCP_EVT_RESENT 0
def execEventResend (t : Nat) (sess : Fin 4) (s : State) : Host.Outcome State Fault Refusal := s.on t (fun _ => eventResend sess.val)

/-- EVENT_ACK: an EVENT with RESP = 1 that names EVT_SEQ. One without RESP asks for something that no TYPE gives. -/
def eventAck (l : List Byte) (m : Mem) (c : Chip) : Chip :=
  match c.zcpOpens l with
  | some x =>
    if x.typ ≠ 0x0A ∨ bit x.flags 0 = false ∨ x.body.length ≠ 4 then zcpRow 0x0A l ⟨none⟩ m c
    else
      have a := c.zcpAccept l
      match a.2 with
      | some _ =>
        have y := a.1.sess (zcpSess l)
        a.1.setSess (zcpSess l) { y with unacked := y.unacked.filter (fun (g : EvtFrame) => decide (g.seq ≠ word x.body 0)) }
      | none => a.1
  | none => zcpRow 0x0A l ⟨none⟩ m c
def execEventAck (t : Nat) (frame : List Byte) (s : State) : Host.Outcome State Fault Refusal := s.on t (fun m => eventAck frame m)

/-! ## Held accesses land (R81, R234, R464) -/

/-- A request that waited for an access goes on, and the requests behind it. -/
def Chip.zcpResume (c : Chip) (m : Mem) (s : Nat) : Chip :=
  have x := c.sess s
  match x.cur with
  | none => c
  | some y =>
    have e : Env := ⟨none⟩
    have r := (c.setSess s { x with cur := none }).zcpItems m s y e
    have c := r.1.zcpEnd s y.req r.2
    (zcpPump m s e x.queue.length c).zcpCount s

/-- One held access: it stays held, or lands. One whose domain is no longer ON is refused. -/
def Chip.landOne (c : Chip) (m : Mem) (h : HeldWrite) : Chip :=
  if c.writeHeld h.addr h.data ∨ c.readHeld h.addr then { c with alm.held := c.alm.held ++ [h] }
  else if h.sess < 4 then c.zcpResume m h.sess
  else if 32 ≤ h.sess then
    match c.hp.dma.find (h.sess - 32) with
    | some r => c.dmaRunBurst m (h.sess - 32) r none
    | none => c
  else
    have who := if h.sess < 16 then 0 else h.sess - 12
    have r := if c.domOn (domAt h.addr) then c.wordWrite m .direct who h.addr h.data else (c, stRefused)
    if h.sess = 9 then r.1 else r.1.writeEnd who r.2 h.addr

/-- SHADOW_WRITE_LAND: what is no longer held lands in the order in which it came. -/
def shadowWriteLand (m : Mem) (c : Chip) : Chip :=
  have held := c.alm.held
  (held.foldl (fun (d : Chip) h => d.landOne m h) { c.evtUpdate with alm.held := [] }).evtUpdate
def execShadowWriteLand (t : Nat) (s : State) : Host.Outcome State Fault Refusal := s.on t (fun m => shadowWriteLand m)

end Sys2Proof.Machine
end

