-- ==== Sys2Proof/Machine/Dispatch.lean ====
section
/-! DEFINITION. One arm for each command: the direct call of its meaning. -/

namespace Sys2Proof.Machine

def exec (i : Instr) (s : State) : Host.Outcome State Fault Refusal :=
  match i with
  | .paceWindowEnd t n meas => Sys2Proof.Machine.execPaceWindowEnd t n meas s
  | .hsTimeout t b k stage fails since more => Sys2Proof.Machine.execHsTimeout t b k stage fails since more s
  | .spareTakeover t b k => Sys2Proof.Machine.execSpareTakeover t b k s
  | .errResolve t n => Sys2Proof.Machine.execErrResolve t n s
  | .almLoadStart t sess v => Sys2Proof.Machine.execAlmLoadStart t sess v s
  | .almReadDone t hdrOk restOk => Sys2Proof.Machine.execAlmReadDone t hdrOk restOk s
  | .almVerifyDone t => Sys2Proof.Machine.execAlmVerifyDone t s
  | .almPrepareDone t => Sys2Proof.Machine.execAlmPrepareDone t s
  | .almSlotFreed t => Sys2Proof.Machine.execAlmSlotFreed t s
  | .almSlotTimeout t => Sys2Proof.Machine.execAlmSlotTimeout t s
  | .almLoadCancel t => Sys2Proof.Machine.execAlmLoadCancel t s
  | .almArbAdvance t v => Sys2Proof.Machine.execAlmArbAdvance t v s
  | .zcpBegin t frame => Sys2Proof.Machine.execZcpBegin t frame s
  | .zcpStage t frame => Sys2Proof.Machine.execZcpStage t frame s
  | .zcpCommit t frame => Sys2Proof.Machine.execZcpCommit t frame s
  | .zcpAbort t frame => Sys2Proof.Machine.execZcpAbort t frame s
  | .commitPoint t => Sys2Proof.Machine.execCommitPoint t s
  | .txnStatusExpire t => Sys2Proof.Machine.execTxnStatusExpire t s
  | .octaveBoundary t mismatch => Sys2Proof.Machine.execOctaveBoundary t mismatch s
  | .handoverWindowOpen t => Sys2Proof.Machine.execHandoverWindowOpen t s
  | .handoverWindowClose t => Sys2Proof.Machine.execHandoverWindowClose t s
  | .shadowWrite t who a v => Sys2Proof.Machine.execShadowWrite t who a v s
  | .shadowWriteLand t => Sys2Proof.Machine.execShadowWriteLand t s
  | .jubEnter t => Sys2Proof.Machine.execJubEnter t s
  | .jubCancel t => Sys2Proof.Machine.execJubCancel t s
  | .jubOldReleased t => Sys2Proof.Machine.execJubOldReleased t s
  | .dsEnable t k v => Sys2Proof.Machine.execDsEnable t k v s
  | .dsCold t k => Sys2Proof.Machine.execDsCold t k s
  | .dsOscSettled t k => Sys2Proof.Machine.execDsOscSettled t k s
  | .dsDspLocked t k cd => Sys2Proof.Machine.execDsDspLocked t k cd s
  | .dsAcqTimeout t k => Sys2Proof.Machine.execDsAcqTimeout t k s
  | .psyncCandidate t k pos w => Sys2Proof.Machine.execPsyncCandidate t k pos w s
  | .candidateTest t k pos w => Sys2Proof.Machine.execCandidateTest t k pos w s
  | .dsFrame t k sync hdr area => Sys2Proof.Machine.execDsFrame t k sync hdr area s
  | .losDeclare t k lock => Sys2Proof.Machine.execLosDeclare t k lock s
  | .losClear t k => Sys2Proof.Machine.execLosClear t k s
  | .rdiTimeout t k => Sys2Proof.Machine.execRdiTimeout t k s
  | .carriageUnit t k hdr data => Sys2Proof.Machine.execCarriageUnit t k hdr data s
  | .fragTimeout t k tag => Sys2Proof.Machine.execFragTimeout t k tag s
  | .chmonAisTimeout t m => Sys2Proof.Machine.execChmonAisTimeout t m s
  | .chmonChLoss t m => Sys2Proof.Machine.execChmonChLoss t m s
  | .secondLatch t => Sys2Proof.Machine.execSecondLatch t s
  | .counterLoRead t a => Sys2Proof.Machine.execCounterLoRead t a s
  | .watchDwellEnd t sync diffs trace cd => Sys2Proof.Machine.execWatchDwellEnd t sync diffs trace cd s
  | .apsManual t => Sys2Proof.Machine.execApsManual t s
  | .apsForce t => Sys2Proof.Machine.execApsForce t s
  | .apsLockout t => Sys2Proof.Machine.execApsLockout t s
  | .apsClear t => Sys2Proof.Machine.execApsClear t s
  | .apsAutoHold t => Sys2Proof.Machine.execApsAutoHold t s
  | .apsWtrExpire t => Sys2Proof.Machine.execApsWtrExpire t s
  | .apsHoldEnd t => Sys2Proof.Machine.execApsHoldEnd t s
  | .apsQuiesced t => Sys2Proof.Machine.execApsQuiesced t s
  | .apsPathMoved t => Sys2Proof.Machine.execApsPathMoved t s
  | .apsSync t => Sys2Proof.Machine.execApsSync t s
  | .apsResume t => Sys2Proof.Machine.execApsResume t s
  | .apsSwitchTimeout t => Sys2Proof.Machine.execApsSwitchTimeout t s
  | .discovery t k => Sys2Proof.Machine.execDiscovery t k s
  | .assignId t k => Sys2Proof.Machine.execAssignId t k s
  | .rangingReq t k => Sys2Proof.Machine.execRangingReq t k s
  | .rangingTime t k => Sys2Proof.Machine.execRangingTime t k s
  | .assignAlloc t k => Sys2Proof.Machine.execAssignAlloc t k s
  | .emitRelease t k => Sys2Proof.Machine.execEmitRelease t k s
  | .emitSilence t k => Sys2Proof.Machine.execEmitSilence t k s
  | .emitChOff t k => Sys2Proof.Machine.execEmitChOff t k s
  | .deactivate t k => Sys2Proof.Machine.execDeactivate t k s
  | .quarRelease t k => Sys2Proof.Machine.execQuarRelease t k s
  | .rdi t k => Sys2Proof.Machine.execRdi t k s
  | .todMap t k => Sys2Proof.Machine.execTodMap t k s
  | .todMapHeldMeasure t => Sys2Proof.Machine.execTodMapHeldMeasure t s
  | .epact t k => Sys2Proof.Machine.execEpact t k s
  | .announceTimeout t => Sys2Proof.Machine.execAnnounceTimeout t s
  | .rangingTimeout t => Sys2Proof.Machine.execRangingTimeout t s
  | .lapseTimeout t => Sys2Proof.Machine.execLapseTimeout t s
  | .loopbackEnter t => Sys2Proof.Machine.execLoopbackEnter t s
  | .loopbackLeave t => Sys2Proof.Machine.execLoopbackLeave t s
  | .eventideEnter t => Sys2Proof.Machine.execEventideEnter t s
  | .eventideEmitEnd t => Sys2Proof.Machine.execEventideEmitEnd t s
  | .grantEntry t k idx w watch => Sys2Proof.Machine.execGrantEntry t k idx w watch s
  | .announceUnanswered t => Sys2Proof.Machine.execAnnounceUnanswered t s
  | .rangingReqExpire t => Sys2Proof.Machine.execRangingReqExpire t s
  | .burstForm t k => Sys2Proof.Machine.execBurstForm t k s
  | .burstStart t k und => Sys2Proof.Machine.execBurstStart t k und s
  | .burstEnd t k => Sys2Proof.Machine.execBurstEnd t k s
  | .upFragTimeout t k alloc => Sys2Proof.Machine.execUpFragTimeout t k alloc s
  | .guardTrip t k cause => Sys2Proof.Machine.execGuardTrip t k cause s
  | .pipelinePass t b => Sys2Proof.Machine.execPipelinePass t b s
  | .frameLastByte t id rest fcsOk => Sys2Proof.Machine.execFrameLastByte t id rest fcsOk s
  | .flowFetchDone t table bank key => Sys2Proof.Machine.execFlowFetchDone t table bank key s
  | .genExpire t n => Sys2Proof.Machine.execGenExpire t n s
  | .flowInsert t table bank => Sys2Proof.Machine.execFlowInsert t table bank s
  | .flowDelete t table bank => Sys2Proof.Machine.execFlowDelete t table bank s
  | .flowLookup t table bank => Sys2Proof.Machine.execFlowLookup t table bank s
  | .flowCmdDone t => Sys2Proof.Machine.execFlowCmdDone t s
  | .tableWindowWrite t who a v => Sys2Proof.Machine.execTableWindowWrite t who a v s
  | .schedDecision t p und => Sys2Proof.Machine.execSchedDecision t p und s
  | .pfcRefresh t p => Sys2Proof.Machine.execPfcRefresh t p s
  | .spillRefill t q bad => Sys2Proof.Machine.execSpillRefill t q bad s
  | .gateEntryAdvance t p => Sys2Proof.Machine.execGateEntryAdvance t p s
  | .gateBaseReached t p => Sys2Proof.Machine.execGateBaseReached t p s
  | .smpEnable t x v => Sys2Proof.Machine.execSmpEnable t x v s
  | .smpStep t x host => Sys2Proof.Machine.execSmpStep t x host s
  | .smpRowArrival t x => Sys2Proof.Machine.execSmpRowArrival t x s
  | .smpSymTimeout t x => Sys2Proof.Machine.execSmpSymTimeout t x s
  | .smpMemWrite t who a v => Sys2Proof.Machine.execSmpMemWrite t who a v s
  | .iqFrameAssemble t x => Sys2Proof.Machine.execIqFrameAssemble t x s
  | .iqAsmTimeout t x => Sys2Proof.Machine.execIqAsmTimeout t x s
  | .iqOutputBlock t x => Sys2Proof.Machine.execIqOutputBlock t x s
  | .coefFrame t x => Sys2Proof.Machine.execCoefFrame t x s
  | .coefSetTimeout t x => Sys2Proof.Machine.execCoefSetTimeout t x s
  | .domainLossTimeout t d => Sys2Proof.Machine.execDomainLossTimeout t d s
  | .ppsInEdge t width => Sys2Proof.Machine.execPpsInEdge t width s
  | .ppsMissing t => Sys2Proof.Machine.execPpsMissing t s
  | .ppsStuck t => Sys2Proof.Machine.execPpsStuck t s
  | .todRxMsg t bytes => Sys2Proof.Machine.execTodRxMsg t bytes s
  | .freqInMeasure t ppb => Sys2Proof.Machine.execFreqInMeasure t ppb s
  | .freqinIntegralUpdate t phase => Sys2Proof.Machine.execFreqinIntegralUpdate t phase s
  | .bMeasWrite t core invalid ofs => Sys2Proof.Machine.execBMeasWrite t core invalid ofs s
  | .selCfgWrite t v => Sys2Proof.Machine.execSelCfgWrite t v s
  | .selWtrExpire t => Sys2Proof.Machine.execSelWtrExpire t s
  | .steerUpdate t => Sys2Proof.Machine.execSteerUpdate t s
  | .timeStep t core lo hi => Sys2Proof.Machine.execTimeStep t core lo hi s
  | .slewWrite t core v => Sys2Proof.Machine.execSlewWrite t core v s
  | .tmgNsRead t => Sys2Proof.Machine.execTmgNsRead t s
  | .oscCheck t rp rs dp ds => Sys2Proof.Machine.execOscCheck t rp rs dp ds s
  | .leapApply t => Sys2Proof.Machine.execLeapApply t s
  | .ppsOutEdge t j => Sys2Proof.Machine.execPpsOutEdge t j s
  | .todTxSend t => Sys2Proof.Machine.execTodTxSend t s
  | .ptpSyncSend t p => Sys2Proof.Machine.execPtpSyncSend t p s
  | .esmcInfoSend t p => Sys2Proof.Machine.execEsmcInfoSend t p s
  | .esmcEventSend t p => Sys2Proof.Machine.execEsmcEventSend t p s
  | .portLightOn t p => Sys2Proof.Machine.execPortLightOn t p s
  | .portTrainLocked t p => Sys2Proof.Machine.execPortTrainLocked t p s
  | .portTrainTimeout t p => Sys2Proof.Machine.execPortTrainTimeout t p s
  | .portRetrainDelay t p => Sys2Proof.Machine.execPortRetrainDelay t p s
  | .portLinkFault t p light lf => Sys2Proof.Machine.execPortLinkFault t p light lf s
  | .portAdminDown t p v => Sys2Proof.Machine.execPortAdminDown t p v s
  | .portFlushTimeout t p => Sys2Proof.Machine.execPortFlushTimeout t p s
  | .localFrameRx t p bytes whole sfd fcsOk => Sys2Proof.Machine.execLocalFrameRx t p bytes whole sfd fcsOk s
  | .pauseFrameRx t p bytes fcsOk => Sys2Proof.Machine.execPauseFrameRx t p bytes fcsOk s
  | .pauseExpire t p k => Sys2Proof.Machine.execPauseExpire t p k s
  | .pauseWdExpire t p k => Sys2Proof.Machine.execPauseWdExpire t p k s
  | .pauseReleaseEnd t p k => Sys2Proof.Machine.execPauseReleaseEnd t p k s
  | .idleEnter t p => Sys2Proof.Machine.execIdleEnter t p s
  | .wakeBurstSend t p rx => Sys2Proof.Machine.execWakeBurstSend t p rx s
  | .wakeLocked t p => Sys2Proof.Machine.execWakeLocked t p s
  | .wakeFail t p => Sys2Proof.Machine.execWakeFail t p s
  | .loopSet t p v => Sys2Proof.Machine.execLoopSet t p v s
  | .hostLaneCfg t v => Sys2Proof.Machine.execHostLaneCfg t v s
  | .hostLaneApply t => Sys2Proof.Machine.execHostLaneApply t s
  | .hostModeAlternate t => Sys2Proof.Machine.execHostModeAlternate t s
  | .sbusFrameTx t coll runs => Sys2Proof.Machine.execSbusFrameTx t coll runs s
  | .sbusBackoffEnd t coll runs => Sys2Proof.Machine.execSbusBackoffEnd t coll runs s
  | .sbusJabber t => Sys2Proof.Machine.execSbusJabber t s
  | .sbusGuardRelease t coll runs => Sys2Proof.Machine.execSbusGuardRelease t coll runs s
  | .sbusPollSend t e => Sys2Proof.Machine.execSbusPollSend t e s
  | .sbusPollTimeout t e => Sys2Proof.Machine.execSbusPollTimeout t e s
  | .sbusReply t bytes fcsOk => Sys2Proof.Machine.execSbusReply t bytes fcsOk s
  | .sbusAlarm t bytes fcsOk => Sys2Proof.Machine.execSbusAlarm t bytes fcsOk s
  | .sbusFrameRx t bytes fcsOk => Sys2Proof.Machine.execSbusFrameRx t bytes fcsOk s
  | .sbusAlarmStuck t e => Sys2Proof.Machine.execSbusAlarmStuck t e s
  | .zcpOpen t frame => Sys2Proof.Machine.execZcpOpen t frame s
  | .zcpConfirm t frame => Sys2Proof.Machine.execZcpConfirm t frame s
  | .confirmTimeout t sess => Sys2Proof.Machine.execConfirmTimeout t sess s
  | .zcpKeepalive t frame => Sys2Proof.Machine.execZcpKeepalive t frame s
  | .zcpClose t frame => Sys2Proof.Machine.execZcpClose t frame s
  | .idleTimeout t sess => Sys2Proof.Machine.execIdleTimeout t sess s
  | .zcpRead t frame bad => Sys2Proof.Machine.execZcpRead t frame bad s
  | .zcpWrite t frame => Sys2Proof.Machine.execZcpWrite t frame s
  | .registerWrite t who a v => Sys2Proof.Machine.execRegisterWrite t who a v s
  | .zcpModify t frame bad => Sys2Proof.Machine.execZcpModify t frame bad s
  | .zcpBulkWrite t frame => Sys2Proof.Machine.execZcpBulkWrite t frame s
  | .zcpBulkRead t frame bad => Sys2Proof.Machine.execZcpBulkRead t frame bad s
  | .zcpBulkDigest t frame bad => Sys2Proof.Machine.execZcpBulkDigest t frame bad s
  | .zcpAttest t frame => Sys2Proof.Machine.execZcpAttest t frame s
  | .zcpPacket t frame => Sys2Proof.Machine.execZcpPacket t frame s
  | .zcpReset t frame => Sys2Proof.Machine.execZcpReset t frame s
  | .eventAck t frame => Sys2Proof.Machine.execEventAck t frame s
  | .eventSend t sess => Sys2Proof.Machine.execEventSend t sess s
  | .eventResend t sess => Sys2Proof.Machine.execEventResend t sess s
  | .spPacketSend t => Sys2Proof.Machine.execSpPacketSend t s
  | .dmaTailWrite t ch v => Sys2Proof.Machine.execDmaTailWrite t ch v s
  | .dmaChCfgWrite t ch owner v => Sys2Proof.Machine.execDmaChCfgWrite t ch owner v s
  | .dmaTimerTick t ch => Sys2Proof.Machine.execDmaTimerTick t ch s
  | .dmaRequest t line => Sys2Proof.Machine.execDmaRequest t line s
  | .dmaSwreq t v => Sys2Proof.Machine.execDmaSwreq t v s
  | .dmaBurst t bad => Sys2Proof.Machine.execDmaBurst t bad s
  | .dmaStop t ch => Sys2Proof.Machine.execDmaStop t ch s
  | .dmaStart t ch => Sys2Proof.Machine.execDmaStart t ch s
  | .dmaResetRing t ch => Sys2Proof.Machine.execDmaResetRing t ch s
  | .taskActivate t j task => Sys2Proof.Machine.execTaskActivate t j task s
  | .taskEnd t j => Sys2Proof.Machine.execTaskEnd t j s
  | .taskYield t j => Sys2Proof.Machine.execTaskYield t j s
  | .taskDelay t j arg => Sys2Proof.Machine.execTaskDelay t j arg s
  | .taskDelayUntil t j arg => Sys2Proof.Machine.execTaskDelayUntil t j arg s
  | .taskWait t j arg => Sys2Proof.Machine.execTaskWait t j arg s
  | .taskSignal t j task arg => Sys2Proof.Machine.execTaskSignal t j task arg s
  | .taskSuspend t j task => Sys2Proof.Machine.execTaskSuspend t j task s
  | .taskResume t j task => Sys2Proof.Machine.execTaskResume t j task s
  | .taskSetPrio t j task arg => Sys2Proof.Machine.execTaskSetPrio t j task arg s
  | .schedNextRead t j => Sys2Proof.Machine.execSchedNextRead t j s
  | .taskDispatch t task => Sys2Proof.Machine.execTaskDispatch t task s
  | .sourcePending t n => Sys2Proof.Machine.execSourcePending t n s
  | .swsrcSet t v => Sys2Proof.Machine.execSwsrcSet t v s
  | .schedTick t => Sys2Proof.Machine.execSchedTick t s
  | .preemptTimeout t j => Sys2Proof.Machine.execPreemptTimeout t j s
  | .taskWatchdog t j => Sys2Proof.Machine.execTaskWatchdog t j s
  | .coreWatchdogReset t j => Sys2Proof.Machine.execCoreWatchdogReset t j s
  | .mtimerInterrupt t j => Sys2Proof.Machine.execMtimerInterrupt t j s
  | .hostCmdBusy t => Sys2Proof.Machine.execHostCmdBusy t s
  | .mcuHostCmd t v => Sys2Proof.Machine.execMcuHostCmd t v s
  | .taskCfgWrite t k v => Sys2Proof.Machine.execTaskCfgWrite t k v s
  | .mcuHalt t v => Sys2Proof.Machine.execMcuHalt t v s
  | .wqPointerWrite t w tail v => Sys2Proof.Machine.execWqPointerWrite t w tail v s
  | .txDescProcess t j => Sys2Proof.Machine.execTxDescProcess t j s
  | .mcuSpareGo t v => Sys2Proof.Machine.execMcuSpareGo t v s
  | .mcuSpareDrained t => Sys2Proof.Machine.execMcuSpareDrained t s
  | .mcuSpareCopied t => Sys2Proof.Machine.execMcuSpareCopied t s
  | .fuseProgram t group supplyOk => Sys2Proof.Machine.execFuseProgram t group supplyOk s
  | .fuseProgramDone t verified => Sys2Proof.Machine.execFuseProgramDone t verified s
  | .fuseCheck t grown => Sys2Proof.Machine.execFuseCheck t grown s
  | .bootStart t bootSel fusesGood => Sys2Proof.Machine.execBootStart t bootSel fusesGood s
  | .bootDdrTrained t dimms ranks cap ok => Sys2Proof.Machine.execBootDdrTrained t dimms ranks cap ok s
  | .bootStage1Run t => Sys2Proof.Machine.execBootStage1Run t s
  | .bootOmliaVerified t => Sys2Proof.Machine.execBootOmliaVerified t s
  | .bootRetry t => Sys2Proof.Machine.execBootRetry t s
  | .fwCandVerify t => Sys2Proof.Machine.execFwCandVerify t s
  | .fwCandVerifyDone t => Sys2Proof.Machine.execFwCandVerifyDone t s
  | .flashErase t => Sys2Proof.Machine.execFlashErase t s
  | .flashProgram t => Sys2Proof.Machine.execFlashProgram t s
  | .flashRead t => Sys2Proof.Machine.execFlashRead t s
  | .flashOpDone t ok => Sys2Proof.Machine.execFlashOpDone t ok s
  | .debugEnable t => Sys2Proof.Machine.execDebugEnable t s
  | .mkOffer t => Sys2Proof.Machine.execMkOffer t s
  | .mkAnswer t => Sys2Proof.Machine.execMkAnswer t s
  | .mkOpDone t => Sys2Proof.Machine.execMkOpDone t s
  | .keyLoadTrunkDown t => Sys2Proof.Machine.execKeyLoadTrunkDown t s
  | .keyLoadTrunkUp t => Sys2Proof.Machine.execKeyLoadTrunkUp t s
  | .keyLoadMacsecTx t => Sys2Proof.Machine.execKeyLoadMacsecTx t s
  | .keyLoadMacsecRx t => Sys2Proof.Machine.execKeyLoadMacsecRx t s
  | .keyLoadVault t => Sys2Proof.Machine.execKeyLoadVault t s
  | .keyErase t => Sys2Proof.Machine.execKeyErase t s
  | .vaultEncrypt t core slot => Sys2Proof.Machine.execVaultEncrypt t core slot s
  | .vaultDecrypt t core slot => Sys2Proof.Machine.execVaultDecrypt t core slot s
  | .alarmStart t mask => Sys2Proof.Machine.execAlarmStart t mask s
  | .alarmAutoRelease t n => Sys2Proof.Machine.execAlarmAutoRelease t n s
  | .alarmRelease t mask => Sys2Proof.Machine.execAlarmRelease t mask s
  | .idDerive t => Sys2Proof.Machine.execIdDerive t s
  | .tamperStuck t j => Sys2Proof.Machine.execTamperStuck t j s
  | .entropyFail t => Sys2Proof.Machine.execEntropyFail t s
  | .entropyRecover t => Sys2Proof.Machine.execEntropyRecover t s
  | .scanInterlock t jtag clear => Sys2Proof.Machine.execScanInterlock t jtag clear s
  | .domRequest t d v => Sys2Proof.Machine.execDomRequest t d v s
  | .domSupplyReady t d => Sys2Proof.Machine.execDomSupplyReady t d s
  | .domPllLocked t d => Sys2Proof.Machine.execDomPllLocked t d s
  | .domIslandsOn t d bad => Sys2Proof.Machine.execDomIslandsOn t d bad s
  | .domAttemptFail t d => Sys2Proof.Machine.execDomAttemptFail t d s
  | .domRetry t d => Sys2Proof.Machine.execDomRetry t d s
  | .domQuiet t d => Sys2Proof.Machine.execDomQuiet t d s
  | .domEntryDone t d => Sys2Proof.Machine.execDomEntryDone t d s
  | .domEntryTimeout t d => Sys2Proof.Machine.execDomEntryTimeout t d s
  | .domClear t d v => Sys2Proof.Machine.execDomClear t d v s
  | .wakeSet t v => Sys2Proof.Machine.execWakeSet t v s
  | .wakePin t n width => Sys2Proof.Machine.execWakePin t n width s
  | .wakePinStuck t n => Sys2Proof.Machine.execWakePinStuck t n s
  | .islandHold t b v => Sys2Proof.Machine.execIslandHold t b v s
  | .opCapSet t n => Sys2Proof.Machine.execOpCapSet t n s
  | .opVoltReady t n => Sys2Proof.Machine.execOpVoltReady t n s
  | .opVoltTimeout t n => Sys2Proof.Machine.execOpVoltTimeout t n s
  | .rgnManRequest t n v => Sys2Proof.Machine.execRgnManRequest t n v s
  | .thermalCheck t temps => Sys2Proof.Machine.execThermalCheck t temps s
  | .thermalEventide t => Sys2Proof.Machine.execThermalEventide t s
  | .thermTrip t sn => Sys2Proof.Machine.execThermTrip t sn s
  | .eventideQuiesced t block => Sys2Proof.Machine.execEventideQuiesced t block s
  | .eventideArchived t clear => Sys2Proof.Machine.execEventideArchived t clear s
  | .eventideScanEnabled t => Sys2Proof.Machine.execEventideScanEnabled t s
  | .eventideSelftestDone t fail => Sys2Proof.Machine.execEventideSelftestDone t fail s
  | .eventideRecordWritten t => Sys2Proof.Machine.execEventideRecordWritten t s
  | .selfcheckDone t clear => Sys2Proof.Machine.execSelfcheckDone t clear s
  | .wearUpdate t w val aux => Sys2Proof.Machine.execWearUpdate t w val aux s
  | .swapGo t v => Sys2Proof.Machine.execSwapGo t v s
  | .swapShadowDone t => Sys2Proof.Machine.execSwapShadowDone t s
  | .swapSlotTimeout t => Sys2Proof.Machine.execSwapSlotTimeout t s
  | .memScrubPass t corr ppr bad => Sys2Proof.Machine.execMemScrubPass t corr ppr bad s
  | .vaux3Up t => Sys2Proof.Machine.execVaux3Up t s
  | .regulatorsStart t => Sys2Proof.Machine.execRegulatorsStart t s
  | .pwrGoodRelease t => Sys2Proof.Machine.execPwrGoodRelease t s
  | .regulatorTimeout t => Sys2Proof.Machine.execRegulatorTimeout t s
  | .regulatorRetry t => Sys2Proof.Machine.execRegulatorRetry t s
  | .coldResetDone t => Sys2Proof.Machine.execColdResetDone t s
  | .warmReset t low => Sys2Proof.Machine.execWarmReset t low s
  | .vin12Loss t => Sys2Proof.Machine.execVin12Loss t s
  | .pwrEnLow t => Sys2Proof.Machine.execPwrEnLow t s
  | .vin12Removed t => Sys2Proof.Machine.execVin12Removed t s
  | .vaux3Loss t => Sys2Proof.Machine.execVaux3Loss t s
  | .ppsStuckRelease t => Sys2Proof.Machine.execPpsStuckRelease t s
  | .freqInEdgeLoss t => Sys2Proof.Machine.execFreqInEdgeLoss t s
  | .alarmEnd t n => Sys2Proof.Machine.execAlarmEnd t n s
  | .wakePinInactive t n => Sys2Proof.Machine.execWakePinInactive t n s
  | .remoteFault t p on => Sys2Proof.Machine.execRemoteFault t p on s
  | .hostBlockLock t => Sys2Proof.Machine.execHostBlockLock t s
  | .hostLinkDown t => Sys2Proof.Machine.execHostLinkDown t s
  | .sscDetect t det ofs => Sys2Proof.Machine.execSscDetect t det ofs s
  | .engineLost t e => Sys2Proof.Machine.execEngineLost t e s
  | .chipUnit t kind n => Sys2Proof.Machine.execChipUnit t kind n s
  | .islandRetry t n ok => Sys2Proof.Machine.execIslandRetry t n ok s
  | .spareCopyDone t => Sys2Proof.Machine.execSpareCopyDone t s
  | .timeVioOutOfRange t inRange => Sys2Proof.Machine.execTimeVioOutOfRange t inRange s

end Sys2Proof.Machine
end

