-- ==== Sys2Proof/Safety.lean ====
section
/-! DEFINITION. The words the statements are made of: a sound machine, the chip at the instant of a command, what a command that is
a host write answers. -/

namespace Sys2Proof.Safety

open Sys2Proof Sys2Proof.Machine

/-- The invariant of every step: DDR5 and flash are in canonical form, and no change of a memory waits (log entry 2). -/
def sound (s : State) : Prop := s.mem.wf = true ∧ s.chip.mout = []

/-- The chip at the instant of a command, before the command has its effect. -/
abbrev chipAt (s : State) (t : Nat) : Chip := s.chip.tick t

/-- The terminal is out of reset with its supplies and not tripped, and no change of a memory waits. -/
abbrev ready (s : State) : Prop := s.chip.running = true ∧ s.chip.mout = []

/-- Every register field that is not named by its key reads as before. -/
def regsKept (s u : State) (ks : List Nat) : Prop := ∀ (g : Fld) (j : Nat), g.key j ∉ ks → u.chip.rg g j = s.chip.rg g j

/-- The frame of a command: every register field but the named ones, every counter, every word of the table window and every byte of
both memories is unchanged. -/
def kept (s u : State) (ks : List Nat) : Prop :=
  regsKept s u ks ∧ u.chip.cnt = s.chip.cnt ∧ u.chip.win = s.chip.win ∧ u.mem = s.mem

/-- The newest thing that left the terminal. -/
abbrev newest (u : State) : Option Output := u.chip.out.head?

/-- The command was a host write and was answered with a ZCP status (R338). -/
abbrev answered (u : State) (status : Nat) : Prop := newest u = some { kind := .answer, unit := 0, data := [status], bytes := [] }

/-- A frame of the host with a request of a TYPE that its session accepts and begins at once (R319, R330, R337): the link is up, HOSTIF ON
and nothing paused or waiting, the frame opens under the keys of its session to the message `x`, its SEQ is new, no response is kept under
its TAG and no request waits. -/
abbrev requestOk (c : Chip) (l : List Byte) (x : ZcpMsg) (typ : Nat) : Prop :=
  c.hostClear = true ∧ c.hp.txWait = [] ∧ 60 ≤ l.length ∧ l.length ≤ 16380 ∧ beAt l 12 2 = 0x88B5 ∧ c.zcpOpens l = some x ∧ x.typ = typ ∧
  bit x.flags 0 = false ∧ (c.sess (zcpSess l)).fresh (zcpSeq l) = true ∧
  (c.sess (zcpSess l)).kept.find? (fun k => decide (k.typ = typ ∧ k.tag = x.tag)) = none ∧ (c.sess (zcpSess l)).queue = [] ∧
  (c.sess (zcpSess l)).cur = none

/-- The newest frame to the host is the response OK to that request, with a body (R331), protected under the session's keys (R330). -/
abbrev responded (s u : State) (l : List Byte) (x : ZcpMsg) (body : List Byte) : Prop :=
  newest u = some (s.chip.zcpOutput (zcpSess l) x.typ 1 x.tag stOk 0xFFFF 0 body)

/-- The commands of the board (R443 to R447): supplies, regulators and resets act whatever the supplies. -/
def boardCommand : Instr → Bool
  | .vaux3Up _ | .regulatorsStart _ | .pwrGoodRelease _ | .regulatorTimeout _ | .regulatorRetry _ | .coldResetDone _
  | .warmReset _ _ | .vin12Loss _ | .pwrEnLow _ | .vin12Removed _ | .vaux3Loss _ => true
  | _ => false

/-- The commands of the management cores, of their scheduler and of their transmit rings (R361 to R374). -/
def coreCommand : Instr → Bool
  | .taskActivate _ _ _ | .taskEnd _ _ | .taskYield _ _ | .taskDelay _ _ _ | .taskDelayUntil _ _ _ | .taskWait _ _ _
  | .taskSignal _ _ _ _ | .taskSuspend _ _ _ | .taskResume _ _ _ | .taskSetPrio _ _ _ _ | .schedNextRead _ _ | .taskDispatch _ _
  | .sourcePending _ _ | .schedTick _ | .preemptTimeout _ _ | .taskWatchdog _ _ | .coreWatchdogReset _ _ | .mtimerInterrupt _ _
  | .hostCmdBusy _ | .txDescProcess _ _ | .mcuSpareDrained _ | .mcuSpareCopied _ => true
  | _ => false

/-- The power domain of the register that a command writes for the host, for the commands that the table lists for one register (R462); the
registers of domain 0, which is never OFF, are left out. -/
def writeDomain : Instr → Option Nat
  | .timeStep _ _ _ _ | .bMeasWrite _ _ _ _ | .slewWrite _ _ _ | .selCfgWrite _ _ => some 1
  | .errResolve _ _ | .almLoadStart _ _ _ | .almLoadCancel _ | .almArbAdvance _ _ | .jubEnter _ | .jubCancel _ | .loopbackEnter _ |
    .loopbackLeave _ | .eventideEnter _ | .swapGo _ _ | .swsrcSet _ _ | .taskCfgWrite _ _ _ | .mcuHalt _ _ | .mcuSpareGo _ _ |
    .wqPointerWrite _ _ _ _ | .mcuHostCmd _ _ => some 2
  | .bootRetry _ | .fuseProgram _ _ _ | .alarmRelease _ _ | .debugEnable _ | .flashErase _ | .flashProgram _ | .flashRead _ |
    .mkOffer _ | .mkAnswer _ | .keyLoadTrunkDown _ | .keyLoadTrunkUp _ | .keyLoadMacsecTx _ | .keyLoadMacsecRx _ | .keyLoadVault _ |
    .keyErase _ | .vaultEncrypt _ _ _ | .vaultDecrypt _ _ _ | .fwCandVerify _ => some 3
  | .hostLaneCfg _ _ => some 5
  | .dmaTailWrite _ _ _ | .dmaChCfgWrite _ _ _ _ | .dmaStop _ _ | .dmaStart _ _ | .dmaResetRing _ _ | .dmaSwreq _ _ |
    .flowInsert _ _ _ | .flowDelete _ _ _ | .flowLookup _ _ _ => some 6
  | .dsEnable _ _ _ | .dsCold _ _ | .apsManual _ | .apsForce _ | .apsLockout _ | .apsClear _ => some 8
  | .portAdminDown _ p _ | .loopSet _ p _ => some (9 + p.val / 32)
  | .smpEnable _ x _ => some (13 + x.val / 24)
  | _ => none

/-- The instant and the rank of a command that is one of the triggers of R118: reset, QUARANTINE, EVENTIDE, EMIT_CTRL, DEACTIVATE, loss of
downstream, and the other triggers of R117. -/
def triggerRank : Instr → Option (Nat × Nat)
  | .coldResetDone t | .warmReset t _ => some (t, 1)
  | .guardTrip t _ _ => some (t, 2)
  | .eventideEnter t | .thermalEventide t => some (t, 3)
  | .emitRelease t _ | .emitSilence t _ => some (t, 4)
  | .deactivate t _ => some (t, 5)
  | .losDeclare t _ _ | .dsAcqTimeout t _ | .engineLost t _ => some (t, 6)
  | .discovery t _ | .assignId t _ | .rangingTime t _ | .assignAlloc t _ | .quarRelease t _ | .announceTimeout t | .rangingTimeout t
  | .lapseTimeout t | .loopbackEnter t | .loopbackLeave t | .selfcheckDone t _ | .jubEnter t | .jubCancel t => some (t, 7)
  | _ => none

/-- The instant and the rank of a command on which the scheduler decides (R361): tick wakes, sources in ascending number, commands of
cores in ascending logical number, host commands. -/
def schedRank : Instr → Option (Nat × Nat)
  | .schedTick t => some (t, 0)
  | .sourcePending t n => some (t, 1 + n)
  | .taskActivate t j _ | .taskEnd t j | .taskYield t j | .taskDelay t j _ | .taskDelayUntil t j _ | .taskWait t j _
  | .taskSignal t j _ _ | .taskSuspend t j _ | .taskResume t j _ | .taskSetPrio t j _ _ => some (t, 65 + j)
  | .mcuHostCmd t _ => some (t, 81)
  | _ => none

/-- The triggers of one instant stand in the queue in the order of R118, and the decisions of the scheduler in that of R361, which is how
the sender gives them (log entry 1). -/
def orderly (l : List Instr) : Prop :=
  (l.filterMap triggerRank).Pairwise (fun x y => x.1 = y.1 → x.2 ≤ y.2) ∧ (l.filterMap schedRank).Pairwise (fun x y => x.1 = y.1 → x.2 ≤ y.2)

end Sys2Proof.Safety
end

