-- ==== Sys2Proof/Certificates/Slice0/Obligations.lean ====
section
/-! DEFINITION. The statements for the provers. Each clause of a family says, for one command and one set of conditions on its operands and
the state before, that `exec` answers a next state and what that state holds; `kept` is its frame. Instants, the queue and the record of
what left the terminal are the model's own (log entries 1 and 5). -/

open Sys2Proof Sys2Proof.Machine Sys2Proof.Safety

section
set_option linter.unusedVariables false

/-- Windows of the pace monitors: the lowest of nine, and three windows below or not below the required pace: R20, R22. -/
def Obligations.PaceWindowCommands : Prop :=
  (∀ (t : Nat) (n : Fin 4) (meas : List Nat) (low : Nat) (s : State), ready s → (chipAt s t).domOn (9 + n) = true → Tab.get 0 s.chip.st.paceAt n ≠ (chipAt s t).paceWindow → (∀ m : Fin 8, s.chip.monitorOn (8 * n + m) = true) → low = ((List.range 8).map (fun m => meas.getD m 0)).foldl min (meas.getD 8 0) → low < 65536 → s.chip.rg R.HLT_PACE_REQ_REQ n ≤ low → s.chip.rg R.HLT_PACE_STAT_BELOW n = 0 → ∃ u, exec (.paceWindowEnd t n meas) s = .next u ∧ u.chip.rg R.HLT_PACE_MEAS_MEAS n = low ∧ (∀ m : Fin 8, u.chip.rg R.HLT_PACE_BLK_MEAS (8 * n + m) = meas.getD m 0 % 65536) ∧ u.chip.rg R.HLT_PACE_STAT_BELOW n = 0 ∧ Tab.get 0 u.chip.st.aboveRun n = Tab.get 0 s.chip.st.aboveRun n + 1 ∧ Tab.get 0 u.chip.st.belowRun n = 0) ∧
  (∀ (t : Nat) (n : Fin 4) (meas : List Nat) (low : Nat) (s : State), ready s → (chipAt s t).domOn (9 + n) = true → Tab.get 0 s.chip.st.paceAt n ≠ (chipAt s t).paceWindow → (∀ m : Fin 8, s.chip.monitorOn (8 * n + m) = true) → low = ((List.range 8).map (fun m => meas.getD m 0)).foldl min (meas.getD 8 0) → low < 65536 → low < s.chip.rg R.HLT_PACE_REQ_REQ n → Tab.get 0 s.chip.st.belowRun n < 2 → s.chip.rg R.HLT_PACE_STAT_BELOW n = 0 → ∃ u, exec (.paceWindowEnd t n meas) s = .next u ∧ u.chip.rg R.HLT_PACE_MEAS_MEAS n = low ∧ u.chip.rg R.HLT_PACE_STAT_BELOW n = 0 ∧ Tab.get 0 u.chip.st.belowRun n = Tab.get 0 s.chip.st.belowRun n + 1 ∧ Tab.get 0 u.chip.st.aboveRun n = 0) ∧
  (∀ (t : Nat) (n : Fin 4) (meas : List Nat) (low : Nat) (s : State), ready s → (chipAt s t).domOn (9 + n) = true → Tab.get 0 s.chip.st.paceAt n ≠ (chipAt s t).paceWindow → (∀ m : Fin 8, s.chip.monitorOn (8 * n + m) = true) → low = ((List.range 8).map (fun m => meas.getD m 0)).foldl min (meas.getD 8 0) → low < 65536 → low < s.chip.rg R.HLT_PACE_REQ_REQ n → Tab.get 0 s.chip.st.belowRun n = 2 → s.chip.rg R.HLT_PACE_STAT_BELOW n = 0 → ∃ u, exec (.paceWindowEnd t n meas) s = .next u ∧ u.chip.rg R.HLT_PACE_MEAS_MEAS n = low ∧ u.chip.rg R.HLT_PACE_STAT_BELOW n = 1 ∧ u.chip.rg R.HLT_PACE_STAT_BELOW_SEEN n = 1) ∧
  (∀ (t : Nat) (n : Fin 4) (meas : List Nat) (low : Nat) (s : State), ready s → (chipAt s t).domOn (9 + n) = true → Tab.get 0 s.chip.st.paceAt n ≠ (chipAt s t).paceWindow → (∀ m : Fin 8, s.chip.monitorOn (8 * n + m) = true) → low = ((List.range 8).map (fun m => meas.getD m 0)).foldl min (meas.getD 8 0) → low < 65536 → s.chip.rg R.HLT_PACE_REQ_REQ n ≤ low → Tab.get 0 s.chip.st.aboveRun n = 2 → ∃ u, exec (.paceWindowEnd t n meas) s = .next u ∧ u.chip.rg R.HLT_PACE_MEAS_MEAS n = low ∧ u.chip.rg R.HLT_PACE_STAT_BELOW n = 0) ∧
  (∀ (t : Nat) (n : Fin 4) (meas : List Nat) (s : State), ready s → (chipAt s t).domOn (9 + n) = false ∨ Tab.get 0 s.chip.st.paceAt n = (chipAt s t).paceWindow → ∃ u, exec (.paceWindowEnd t n meas) s = .next u ∧ u.chip.out = s.chip.out ∧ kept s u [])

/-- The handshake watchdog of a cell, a spare that takes over a quarantined cell, RESOLVE: R32, R34, R36, R37, R38. -/
def Obligations.ErrorCommands : Prop :=
  (∀ (t : Nat) (b : Fin 32) (k : Fin 11) (stage : Nat) (fails : Fin 4) (since : Nat) (s : State), ready s → fails.val < 3 → since + s.chip.rg R.HLT_HSWD_TIME 0 * 100000 ≤ max s.chip.now t → s.chip.firstEmpty (recCell b k) = true → ∃ u, exec (.hsTimeout t b k stage fails since []) s = .next u ∧ u.chip.rg R.HLT_ERR_FIRST_HDR_VALID (recCell b k) = 1 ∧ u.chip.rg R.HLT_ERR_FIRST_HDR_CODE (recCell b k) = 3 ∧ u.chip.rg R.HLT_ERR_FIRST_HDR_SEV (recCell b k) = 1 ∧ u.chip.rg R.HLT_ERR_FIRST_DETAIL_DETAIL (recCell b k) = stage % 2 ^ 32 ∧ u.chip.rg R.HLT_ERR_FIRST_AUX_ATTEMPTS (recCell b k) = fails + 1 ∧ u.chip.rg R.HLT_ERR_FIRST_HDR_STATE (recCell b k) = 3) ∧
  (∀ (t : Nat) (b : Fin 32) (k : Fin 11) (stage : Nat) (fails : Fin 4) (since : Nat) (more : List HwErr) (s : State), ready s → max s.chip.now t < since + s.chip.rg R.HLT_HSWD_TIME 0 * 100000 → ∃ u, exec (.hsTimeout t b k stage fails since more) s = .next u ∧ u.chip.out = s.chip.out ∧ kept s u []) ∧
  (∀ (t : Nat) (b : Fin 32) (k : Fin 11) (sl : Fin 4) (x : Takeover) (s : State), ready s → k.val < 5 → s.chip.st.takeovers.find? (fun x => decide (x.blk = b.val ∧ x.cell = k.val ∧ x.boundaries = 0)) = some x → s.chip.slotCell b sl = k → ∃ u, exec (.spareTakeover t b k) s = .next u ∧ u.chip.slotCell b sl = x.spare ∧ u.chip.st.takeovers = s.chip.st.takeovers.filter (fun y => decide (y.blk ≠ b.val ∨ y.cell ≠ k.val))) ∧
  (∀ (t : Nat) (n : Nat) (s : State), ready s → s.chip.domOn 2 = true → n ≠ recChip → s.chip.rg R.HLT_ERR_FIRST_HDR_VALID n = 1 → s.chip.rg R.HLT_ERR_FIRST_HDR_STATE n = 2 → ∃ u, exec (.errResolve t n) s = .next u ∧ u.chip.rg R.HLT_ERR_FIRST_HDR_STATE n = 3 ∧ kept s u [R.HLT_ERR_FIRST_HDR_STATE.key n]) ∧
  (∀ (t : Nat) (s : State), ready s → s.chip.domOn 2 = true → s.chip.rg R.HLT_ERR_FIRST_HDR_VALID recChip = 1 → s.chip.rg R.HLT_ERR_FIRST_HDR_STATE recChip = 2 → s.chip.latestEmpty recChip = true → s.chip.mode = 0 → ∃ u, exec (.errResolve t recChip) s = .next u ∧ u.chip.rg R.HLT_ERR_FIRST_HDR_STATE recChip = 3) ∧
  (∀ (t : Nat) (n : Nat) (s : State), ready s → s.chip.domOn 2 = true → s.chip.rg R.HLT_ERR_FIRST_HDR_VALID n = 0 ∨ s.chip.rg R.HLT_ERR_FIRST_HDR_STATE n ≠ 2 → ∃ u, exec (.errResolve t n) s = .next u ∧ answered u stOk ∧ kept s u [])

/-- The loader of the Almanac: start, read, verify, prepare, wait for a slot, cancel: R63, R65, R66, R68, R70. -/
def Obligations.LoaderCommands : Prop :=
  (∀ (t : Nat) (sess : Fin 5) (v : Nat) (s : State), ready s → s.chip.domOn 2 = true → s.chip.loadBusy = false → bits v 4 2 ≠ 3 → ∃ u, exec (.almLoadStart t sess v) s = .next u ∧ u.chip.rg R.ALM_LOAD_STAT_STATE 0 = 1 ∧ u.chip.rg R.ALM_LOAD_STAT_CAUSE 0 = 0 ∧ u.chip.alm.load.src = bits v 4 2 ∧ u.chip.alm.load.addr = 4096 * s.chip.rg R.ALM_LOAD_ADDR_ADDR4K 0 ∧ answered u stOk ∧ kept s u [R.ALM_LOAD_CTRL_SRC.key 0, R.ALM_LOAD_STAT_STATE.key 0, R.ALM_LOAD_STAT_KIND.key 0, R.ALM_LOAD_STAT_CAUSE.key 0, R.ALM_LOAD_STAT_SECTION.key 0, R.ALM_LOAD_TXN_ID.key 0, R.ALM_LOAD_PROG_KIB.key 0]) ∧
  (∀ (t : Nat) (a n : Nat) (s : State), ready s → s.chip.rg R.ALM_LOAD_STAT_STATE 0 = 1 → s.chip.alm.load.src = 0 → s.chip.alm.load.addr = a → (chipAt s t).ddrOk = true → s.chip.mode = 0 → byteAt (s.mem.ddrRead a 32) 6 = 0 → n = min (word (s.mem.ddrRead a 32) 16) maxImage → a + 32 ≤ s.chip.ddrCap → a + n ≤ s.chip.ddrCap → ∃ u, exec (.almReadDone t true true) s = .next u ∧ u.chip.rg R.ALM_LOAD_STAT_STATE 0 = 2 ∧ u.chip.alm.load.len = n ∧ u.chip.alm.load.full = true ∧ kept s u [R.ALM_LOAD_STAT_STATE.key 0, R.ALM_LOAD_STAT_KIND.key 0, R.ALM_LOAD_PROG_KIB.key 0]) ∧
  (∀ (t : Nat) (img : List Byte) (s : State), ready s → s.chip.rg R.ALM_LOAD_STAT_STATE 0 = 2 → img = s.mem.ddrRead s.chip.alm.load.addr s.chip.alm.load.len → ∃ u, exec (.almVerifyDone t) s = .next u ∧ (∀ e, (chipAt s t).verify img (decide (s.chip.mode = 10)) = some e → u.chip.rg R.ALM_LOAD_STAT_STATE 0 = 6 ∧ u.chip.rg R.ALM_LOAD_STAT_CAUSE 0 = e.1 % 64) ∧ ((chipAt s t).verify img (decide (s.chip.mode = 10)) = none → byteAt img 6 = 1 → u.chip.rg R.ALM_GEN_CAND_GEN 0 = word img 8 % 2 ^ 32)) ∧
  (∀ (t : Nat) (p : Prepared) (slot : Nat) (s : State), ready s → s.chip.alm.load.prep = some p → p.full = false → s.chip.rg R.ALM_LOAD_STAT_STATE 0 = 3 → s.chip.txnFree = some slot → ∃ u, exec (.almPrepareDone t) s = .next u ∧ u.chip.rg R.ALM_LOAD_STAT_STATE 0 = 4 ∧ u.chip.alm.txns = s.chip.alm.txns ++ [{ slot := slot, seq := Tab.get 0 u.chip.alm.slotSeq slot, owner := s.chip.alm.load.sess, origin := .delta, pending := false, writes := [], kind := 0, value := 0, order := 0, notify := false }] ∧ u.chip.rg R.ALM_LOAD_TXN_ID 0 = txnId slot (Tab.get 0 u.chip.alm.slotSeq slot) % 2 ^ 16) ∧
  (∀ (t : Nat) (p : Prepared) (slot : Nat) (s : State), ready s → s.chip.alm.load.prep = some p → p.full = false → s.chip.alm.load.waiting = true → s.chip.mode ≠ 10 → s.chip.txnFree = some slot → ∃ u, exec (.almSlotFreed t) s = .next u ∧ u.chip.rg R.ALM_LOAD_STAT_STATE 0 = 4 ∧ u.chip.alm.load.waiting = false ∧ u.chip.rg R.ALM_LOAD_TXN_ID 0 = txnId slot (Tab.get 0 u.chip.alm.slotSeq slot) % 2 ^ 16) ∧
  (∀ (t : Nat) (s : State), ready s → s.chip.alm.load.waiting = true → s.chip.alm.load.full = false → s.chip.alm.load.at_ + 2 * secPs ≤ max s.chip.now t → ∃ u, exec (.almSlotTimeout t) s = .next u ∧ u.chip.rg R.ALM_LOAD_STAT_STATE 0 = 6 ∧ u.chip.rg R.ALM_LOAD_STAT_CAUSE 0 = 1 ∧ u.chip.rg R.ALM_EVT_LOAD_CHG 0 = 1) ∧
  (∀ (t : Nat) (s : State), ready s → s.chip.domOn 2 = true → s.chip.loadBusy = true → s.chip.alm.txns = [] → s.chip.alm.load.full = false → ∃ u, exec (.almLoadCancel t) s = .next u ∧ u.chip.rg R.ALM_LOAD_STAT_STATE 0 = 6 ∧ u.chip.rg R.ALM_LOAD_STAT_CAUSE 0 = 20 ∧ answered u stOk) ∧
  (∀ (t : Nat) (v : Nat) (s : State), ready s → s.chip.domOn 2 = true → bit v 16 = true → s.chip.mode ≠ 0 → s.chip.arbCount < bits v 8 6 → bits v 8 6 ≤ min (Tab.get 0 s.chip.alm.sectGen 9) (Tab.get 0 s.chip.alm.sectGen 10) / 0x04000000 → ∃ u, exec (.almArbAdvance t v) s = .next u ∧ u.chip.sec.fuseImg = s.chip.sec.fuseImg ||| (2 ^ bits v 8 6 - 1) * 2 ^ 2056 ∧ u.chip.rg R.ALM_ARB_TARGET 0 = bits v 8 6 % 64 ∧ answered u stOk ∧ kept s u [R.ALM_ARB_TARGET.key 0])

/-- Transactions: BEGIN, STAGE, COMMIT, ABORT, the commit point of local time, expiry of a status: R70, R71, R72, R74, R77, R342, R472. -/
def Obligations.TransactionCommands : Prop :=
  (∀ (t : Nat) (l : List Byte) (q : ZcpMsg) (slot : Nat) (s : State), ready s → requestOk (chipAt s t) l q 5 → s.chip.hasRight (zcpSess l) 8 = true → q.body = [] → s.chip.txnFree = some slot → ∃ u, exec (.zcpBegin t l) s = .next u ∧ responded s u l q (beBytes 2 (txnId slot (Tab.get 0 u.chip.alm.slotSeq slot)) ++ zeros 2) ∧ u.chip.alm.txns = s.chip.alm.txns ++ [{ slot := slot, seq := Tab.get 0 u.chip.alm.slotSeq slot, owner := zcpSess l, origin := .host, pending := false, writes := [], kind := 0, value := 0, order := 0, notify := false }]) ∧
  (∀ (t : Nat) (l : List Byte) (q : ZcpMsg) (x : Txn) (a v : Nat) (s : State), ready s → requestOk (chipAt s t) l q 6 → s.chip.hasRight (zcpSess l) 8 = true → s.chip.hasRight (zcpSess l) 2 = true → q.body = beBytes 2 x.id ++ zeros 2 ++ beBytes 4 a ++ beBytes 4 v → x.slot < 64 → x.seq < 1024 → s.chip.txnBy (zcpSess l) x.id = some x → x.pending = false → x.writes = [] → 0x40000000 ≤ a → a < 0x4003FFFC → a % 4 = 0 → v < 2 ^ 32 → ∃ u, exec (.zcpStage t l) s = .next u ∧ responded s u l q [] ∧ u.chip.alm.txns = s.chip.alm.txns.map (fun y => if y.slot = x.slot then { x with writes := [(a, v)] } else y)) ∧
  (∀ (t : Nat) (l : List Byte) (q : ZcpMsg) (x : Txn) (s : State), ready s → requestOk (chipAt s t) l q 7 → s.chip.hasRight (zcpSess l) 8 = true → q.body = beBytes 2 x.id ++ [0] ++ zeros 13 → x.slot < 64 → x.seq < 1024 → s.chip.txnBy (zcpSess l) x.id = some x → x.pending = false → x.writes = [] → x.origin = .host → ∃ u, exec (.zcpCommit t l) s = .next u ∧ responded s u l q (beBytes 8 (chipAt s t).nextPoint) ∧ u.chip.alm.txns = s.chip.alm.txns.map (fun y => if y.slot = x.slot then { x with pending := true, kind := 0, value := (chipAt s t).nextPoint, notify := bit q.flags 2, order := s.chip.alm.orders } else y)) ∧
  (∀ (t : Nat) (l : List Byte) (q : ZcpMsg) (x : Txn) (s : State), ready s → requestOk (chipAt s t) l q 8 → s.chip.hasRight (zcpSess l) 8 = true → q.body = beBytes 2 x.id ++ zeros 2 → x.slot < 64 → x.seq < 1024 → s.chip.txnBy (zcpSess l) x.id = some x → x.origin = .host → x.notify = false → ∃ u, exec (.zcpAbort t l) s = .next u ∧ responded s u l q [] ∧ u.chip.alm.txns = s.chip.alm.txns.filter (fun y => decide (y.slot ≠ x.slot)) ∧ u.chip.alm.done.head? = some { id := x.id, owner := x.owner, state := 4, cause := 7, kind := x.kind, writes := x.writes.length, octave := s.chip.alm.octave, addr := 0, time := max s.chip.now t }) ∧
  (∀ (t : Nat) (x : Txn) (a v : Nat) (s : State), ready s → s.chip.alm.txns = [x] → x.pending = true → x.kind = 2 → timePoint x.value ≤ (chipAt s t).lNow → x.origin = .host → x.notify = false → x.writes = [(a, v)] → 0x40000000 ≤ a → a < 0x4003FFFC → a % 4 = 0 → (chipAt s t).domOn 6 = true → ∃ u, exec (.commitPoint t) s = .next u ∧ u.chip.winGet a = v % 128 ∧ u.chip.alm.txns = [] ∧ u.chip.alm.done.head? = some { id := x.id, owner := x.owner, state := 3, cause := 0, kind := 2, writes := 1, octave := s.chip.alm.octave, addr := 0, time := max s.chip.now t }) ∧
  (∀ (t : Nat) (d : TxnDone) (s : State), ready s → d ∈ s.chip.alm.done → d.time + secPs ≤ max s.chip.now t → ∃ u, exec (.txnStatusExpire t) s = .next u ∧ d ∉ u.chip.alm.done ∧ kept s u [])

/-- The Octave boundary, its hand-over window, held shadow writes: R73, R78, R80, R81, R82. -/
def Obligations.OctaveCommands : Prop :=
  (∀ (t : Nat) (mismatch : Bool) (s : State), ready s → (chipAt s t).octDue.2 ≤ 0 → s.chip.alm.txns = [] → (chipAt s t).armedSets = [] → s.chip.rg R.HLT_SWAP_STAT_STATE 0 ≠ 1 → s.chip.pw.remap = none → ∃ u, exec (.octaveBoundary t mismatch) s = .next u ∧ u.chip.alm.octave = (chipAt s t).octDue.1 % 2 ^ 48 ∧ u.chip.alm.octAt = max s.chip.now t ∧ u.chip.alm.window = true ∧ u.chip.st.takeovers = s.chip.st.takeovers.map (fun x => { x with boundaries := x.boundaries - 1 })) ∧
  (∀ (t : Nat) (s : State), ready s → s.chip.alm.window = false → (chipAt s t).octDue.2 ≤ octU / 50 → ∃ u, exec (.handoverWindowOpen t) s = .next u ∧ u.chip.alm.window = true ∧ kept s u []) ∧
  (∀ (t : Nat) (s : State), ready s → s.chip.alm.window = true → (chipAt s t).octOpen = false → s.chip.alm.octAt + 2 * usPs ≤ max s.chip.now t → ∃ u, exec (.handoverWindowClose t) s = .next u ∧ u.chip.alm.window = false ∧ kept s u []) ∧
  (∀ (t : Nat) (who : Fin 20) (k : Fin 16) (v : Nat) (s : State), ready s → who.val < 4 → s.chip.hasRight who 1 = true → (chipAt s t).domOn 8 = true → s.chip.alm.window = false → inBounds (0x20408 + 0x1000 * k) v = true → s.chip.rg R.TRK_US_GH_CTRL_ARM k = 1 → ∃ u, exec (.shadowWrite t who (0x20408 + 0x1000 * k) v) s = .next u ∧ u.chip.rg R.TRK_US_GH_SHD_PWR k = bits v 0 16 ∧ u.chip.rg R.TRK_US_GH_CTRL_ARM k = 0 ∧ answered u stOk) ∧
  (∀ (t : Nat) (w : HeldWrite) (k : Fin 16) (v : Nat) (s : State), ready s → s.chip.alm.held = [w] → w.addr = 0x20408 + 0x1000 * k → w.data = v → w.sess = 8 → (chipAt s t).domOn 8 = true → s.chip.alm.window = false → inBounds (0x20408 + 0x1000 * k) v = true → ∃ u, exec (.shadowWriteLand t) s = .next u ∧ u.chip.rg R.TRK_US_GH_SHD_PWR k = bits v 0 16 ∧ u.chip.alm.held = [] ∧ answered u stOk)

/-- JUBILEE: entering, cancelling, the release of the old generation: R83, R86. -/
def Obligations.JubileeCommands : Prop :=
  (∀ (t : Nat) (s : State), ready s → s.chip.domOn 2 = true → s.chip.mode = 5 → s.chip.alm.cand = none → ∃ u, exec (.jubEnter t) s = .next u ∧ u.chip.mode = 10 ∧ u.chip.rg R.TRK_MODE_PREV 0 = 5 ∧ u.chip.rg R.TRK_MODE_CAUSE 0 = 16 ∧ answered u stOk) ∧
  (∀ (t : Nat) (s : State), ready s → s.chip.domOn 2 = true → s.chip.mode = 10 → s.chip.alm.window = false → s.chip.alm.load.full = false → s.chip.alm.txns = [] → ∃ u, exec (.jubCancel t) s = .next u ∧ u.chip.mode = 5 ∧ u.chip.rg R.ALM_JUB_STAT_STATE 0 = 0 ∧ answered u stOk) ∧
  (∀ (t : Nat) (s : State), ready s → s.chip.alm.oldHeld = true → s.chip.rg R.ALM_RULE_GEN_LIVE 0 ≤ 1 → s.chip.mc.retiring = [] → ∃ u, exec (.jubOldReleased t) s = .next u ∧ u.chip.alm.oldHeld = false ∧ kept s u [])

/-- A downstream engine starts: ENABLE, COLD, oscillator, DSP, timeout, PSYNC candidates: R91, R93, R98. -/
def Obligations.ReceiverStartCommands : Prop :=
  (∀ (t : Nat) (k : Fin 16) (v : Nat) (s : State), ready s → s.chip.domOn 8 = true → v < 2 ^ 32 → bit v 0 = true → bit v 1 = true → bit v 2 = false → freqDsOk (bits v 16 16) = true → s.chip.rg R.TRK_DS_CFG_ENABLE k = 0 → ∃ u, exec (.dsEnable t k v) s = .next u ∧ u.chip.rg R.TRK_DS_CFG_ENABLE k = 1 ∧ u.chip.rg R.TRK_DS_CFG_FREQ_N k = bits v 16 16 ∧ u.chip.rg R.TRK_DS_STAT_FSTATE k = 0 ∧ (u.chip.eng k).step = 1 ∧ answered u stOk) ∧
  (∀ (t : Nat) (k : Fin 16) (s : State), ready s → s.chip.domOn 8 = true → ∃ u, exec (.dsCold t k) s = .next u ∧ (u.chip.eng k).forceCold = true ∧ kept s u []) ∧
  (∀ (t : Nat) (k : Fin 16) (s : State), ready s → (chipAt s t).rxOn k = true → (s.chip.eng k).step = 1 → ∃ u, exec (.dsOscSettled t k) s = .next u ∧ u.chip.rg R.TRK_DS_STAT_ACQ k = (if (s.chip.eng k).forceCold = false ∧ s.chip.rg R.TRK_SIDE_CD_VALID (16 * s.chip.pathSide + k) = 1 then 2 else 1) ∧ (u.chip.eng k).step = 2 ∧ (u.chip.eng k).at_ = max s.chip.now t ∧ kept s u [R.TRK_DS_STAT_ACQ.key k]) ∧
  (∀ (t : Nat) (k : Fin 16) (cd : Int) (s : State), ready s → (chipAt s t).rxOn k = true → (s.chip.eng k).step = 2 → s.chip.rg R.TRK_DS_STAT_FSTATE k ≠ 3 → s.chip.ds.apsStep = 0 → ∃ u, exec (.dsDspLocked t k cd) s = .next u ∧ u.chip.rg R.TRK_DS_STAT_ACQ k = 3 ∧ u.chip.rg R.TRK_DS_STAT_FSTATE k = 1 ∧ u.chip.rg R.TRK_SIDE_CD_VALID (16 * s.chip.pathSide + k) = 1 ∧ (u.chip.eng k).step = 3) ∧
  (∀ (t : Nat) (k : Fin 16) (s : State), ready s → (chipAt s t).rxOn k = true → 1 ≤ (s.chip.eng k).step → (s.chip.eng k).step ≤ 5 → (s.chip.eng k).at_ + s.chip.dsBound k ≤ max s.chip.now t → s.chip.mode = 0 → ∃ u, exec (.dsAcqTimeout t k) s = .next u ∧ u.chip.rg R.TRK_DS_STAT_ACQ k = 1 ∧ (u.chip.eng k).step = 2 ∧ (u.chip.eng k).cands = []) ∧
  (∀ (t : Nat) (k : Fin 16) (pos : Nat) (w : List Byte) (s : State), ready s → (chipAt s t).rxOn k = true → psyncDiff w = 0 → s.chip.rg R.TRK_DS_STAT_FSTATE k = 1 → (s.chip.eng k).cands = [] → ∃ u, exec (.psyncCandidate t k pos w) s = .next u ∧ u.chip.rg R.TRK_DS_STAT_FSTATE k = 2 ∧ (u.chip.eng k).cands = [⟨pos, 0⟩] ∧ (u.chip.eng k).step = 4) ∧
  (∀ (t : Nat) (k : Fin 16) (pos : Nat) (w : List Byte) (s : State), ready s → (chipAt s t).rxOn k = true → psyncDiff w = 0 → s.chip.rg R.TRK_DS_STAT_FSTATE k = 2 → (s.chip.eng k).cands.any (fun x => decide (x.pos = pos)) = false → 4 ≤ (s.chip.eng k).cands.length → ∃ u, exec (.psyncCandidate t k pos w) s = .next u ∧ u.chip.counter C.TRK_DS_CAND_DROP k = (s.chip.counter C.TRK_DS_CAND_DROP k + 1) % 2 ^ 48 ∧ u.chip.ds = s.chip.ds ∧ regsKept s u []) ∧
  (∀ (t : Nat) (k : Fin 16) (pos : Nat) (w : List Byte) (x : Cand) (s : State), ready s → (chipAt s t).rxOn k = true → s.chip.rg R.TRK_DS_STAT_FSTATE k = 2 → (s.chip.eng k).cands.find? (fun x => decide (x.pos = pos)) = some x → psyncDiff w ≤ 3 → x.passes = 1 → ∃ u, exec (.candidateTest t k pos w) s = .next u ∧ u.chip.rg R.TRK_DS_STAT_FSTATE k = 3 ∧ (u.chip.eng k).step = 5 ∧ (u.chip.eng k).cands = [])

/-- Downstream frames, defects of a wavelength, carriage units and the time-out of a frame: R98, R99, R102, R104, R106, R108. -/
def Obligations.ReceiverFrameCommands : Prop :=
  (∀ (t : Nat) (k : Fin 16) (sync hdr area : List Byte) (s : State), ready s → (chipAt s t).rxOn k = true → s.chip.rg R.TRK_DS_STAT_FSTATE k = 3 → psyncDiff sync ≤ 3 → 1 ≤ s.chip.rg R.TRK_DS_CFG_LOF_MISS k → hdr.length = 32 → crc32c ((scrambleAt 0 hdr).take 28) ≠ word (scrambleAt 0 hdr) 28 → ∃ u, exec (.dsFrame t k sync hdr area) s = .next u ∧ u.chip.counter C.TRK_DS_HDR_ERR k = (s.chip.counter C.TRK_DS_HDR_ERR k + 1) % 2 ^ 48 ∧ (u.chip.eng k).misses = 0 ∧ (u.chip.eng k).good = 0 ∧ u.chip.rg R.TRK_DS_STAT_FSTATE k = 3) ∧
  (∀ (t : Nat) (k : Fin 16) (sync hdr area : List Byte) (s : State), ready s → (chipAt s t).rxOn k = true → s.chip.rg R.TRK_DS_STAT_FSTATE k = 3 → 3 < psyncDiff sync → s.chip.rg R.TRK_DS_CFG_LOF_MISS k ≤ (s.chip.eng k).misses + 1 → s.chip.mode = 0 → ∃ u, exec (.dsFrame t k sync hdr area) s = .next u ∧ u.chip.rg R.TRK_DS_STAT_FSTATE k = 1 ∧ u.chip.rg R.TRK_DS_STAT_LOF k = 1 ∧ (u.chip.eng k).step = 3 ∧ (u.chip.eng k).delin = none) ∧
  (∀ (t : Nat) (k : Fin 16) (s : State), ready s → s.chip.rg R.TRK_DS_CFG_ENABLE k = 1 → s.chip.mode = 0 → ∃ u, exec (.losDeclare t k true) s = .next u ∧ u.chip.rg R.TRK_DS_STAT_LOS k = 1) ∧
  (∀ (t : Nat) (k : Fin 16) (s : State), ready s → s.chip.rg R.TRK_DS_STAT_ACQ k = 3 → ∃ u, exec (.losClear t k) s = .next u ∧ u.chip.rg R.TRK_DS_STAT_LOS k = 0) ∧
  (∀ (t : Nat) (k : Fin 16) (s : State), ready s → 3 < (s.chip.eng k).rdiOct → ∃ u, exec (.rdiTimeout t k) s = .next u ∧ u.chip.rg R.TRK_DS_STAT_RDI k = 0) ∧
  (∀ (t : Nat) (k : Fin 16) (hdr data : List Byte) (w pos : Nat) (s : State), ready s → (chipAt s t).rxOn k = true → s.chip.rg R.TRK_DS_STAT_FSTATE k = 3 → (s.chip.eng k).delin = some pos → pos < payloadLen → unitHdr (payloadBytes pos hdr) = some (w, false) → pos + 8 + bits w 34 14 ≤ 2 * payloadLen → bits w 48 16 = 0xFFFF → bits w 24 8 ≠ 0xFF → ∃ u, exec (.carriageUnit t k hdr data) s = .next u ∧ u.chip.counter C.TRK_DS_CU_INTERCALARY k = (s.chip.counter C.TRK_DS_CU_INTERCALARY k + 1) % 2 ^ 48 ∧ (u.chip.eng k).delin = some (pos + 8 + bits w 34 14) ∧ (u.chip.eng k).frames = (s.chip.eng k).frames ∧ regsKept s u []) ∧
  (∀ (t : Nat) (k : Fin 16) (hdr data : List Byte) (w pos : Nat) (s : State), ready s → (chipAt s t).rxOn k = true → s.chip.rg R.TRK_DS_STAT_FSTATE k = 3 → (s.chip.eng k).delin = some pos → pos < payloadLen → unitHdr (payloadBytes pos hdr) = some (w, false) → pos + 8 + bits w 34 14 ≤ 2 * payloadLen → bits w 48 16 ≠ 0xFFFF → s.chip.rg R.TRK_TERM_ID_VALID 0 = 0 → bit (s.chip.winGet (0x40000000 + 4 * bits w 48 16)) 0 = false → ∃ u, exec (.carriageUnit t k hdr data) s = .next u ∧ u.chip.counter C.TRK_DS_CU_FOREIGN k = (s.chip.counter C.TRK_DS_CU_FOREIGN k + 1) % 2 ^ 48 ∧ (u.chip.eng k).delin = some (pos + 8 + bits w 34 14) ∧ regsKept s u []) ∧
  (∀ (t : Nat) (k : Fin 16) (tag : Nat) (f : OpenFrame) (s : State), ready s → (s.chip.eng k).frames.find? (fun x => decide (x.tag = tag)) = some f → f.skip = false → f.id = none → f.start + 125 * usPs ≤ max s.chip.now t → ∃ u, exec (.fragTimeout t k tag) s = .next u ∧ u.chip.counter C.TRK_DS_FRAG_ERR k = (s.chip.counter C.TRK_DS_FRAG_ERR k + 1) % 2 ^ 48 ∧ (u.chip.eng k).frames = (s.chip.eng k).frames.filter (fun x => decide (x.tag ≠ tag)))

/-- Channel monitors, the counter latch of each second, a counter read, a visit of the watch receiver: R89, R109, R111, R112. -/
def Obligations.MonitorAndCounterCommands : Prop :=
  (∀ (t : Nat) (m : Fin 1024) (s : State), ready s → s.chip.rg R.TRK_CHMON_CFG_ENABLE m = 1 → 3 < (s.chip.mon m).ais → ∃ u, exec (.chmonAisTimeout t m) s = .next u ∧ bit (u.chip.rg R.TRK_CHMON_STATE_RAW m) 3 = false) ∧
  (∀ (t : Nat) (m : Fin 1024) (s : State), ready s → s.chip.rg R.TRK_CHMON_CFG_ENABLE m = 1 → s.chip.rg R.TRK_CHMON_CFG_CONT m = 1 → s.chip.rg R.TRK_CHMON_CFG_LOSS_OCT m < (s.chip.mon m).idle → ∃ u, exec (.chmonChLoss t m) s = .next u ∧ bit (u.chip.rg R.TRK_CHMON_STATE_RAW m) 4 = true) ∧
  (∀ (t : Nat) (s : State), ready s → secOf (chipAt s t).lNow ≠ s.chip.ds.latchSec → s.chip.mons = [] → ∃ u, exec (.secondLatch t) s = .next u ∧ u.chip.lat = u.chip.cnt ∧ u.chip.ds.latchSec = secOf (chipAt s t).lNow ∧ u.chip.rg R.TRK_LATCH_STAT_SEQ 0 = (s.chip.rg R.TRK_LATCH_STAT_SEQ 0 + 1) % 2 ^ R.TRK_LATCH_STAT_SEQ.width ∧ u.chip.rg R.TRK_LATCH_STAT_STEP 0 = (if secOf (chipAt s t).lNow = s.chip.ds.latchSec + 1 then 0 else 1)) ∧
  (∀ (t : Nat) (a : Nat) (s : State), ready s → ctrLive a = true → ∃ u, exec (.counterLoRead t a) s = .next u ∧ newest u = some { kind := .readWord, unit := 0, data := [Tab.get 0 s.chip.cnt a % 2 ^ 32], bytes := [] } ∧ Tab.get 0 u.chip.cap (a + 4) = Tab.get 0 s.chip.cnt a / 2 ^ 32 ∧ kept s u []) ∧
  (∀ (t : Nat) (sync : Bool) (diffs : List Int) (trace : List Byte) (cd : Int) (n : Nat) (s : State), ready s → s.chip.rg R.TRK_WATCH_CTRL_ENABLE 0 = 1 → s.chip.rbit R.TRK_SIDE_MASK_MASK 0 (s.chip.rg R.TRK_WATCH_CTRL_CUR_WL 0) = true → s.chip.ds.parked = none → s.chip.ds.visitAt + s.chip.rg R.TRK_WATCH_CTRL_DWELL 0 * msPs ≤ max s.chip.now t → s.chip.watchNext (s.chip.rg R.TRK_WATCH_CTRL_CUR_WL 0) = (n, false) → sync = false → ∃ u, exec (.watchDwellEnd t sync diffs trace cd) s = .next u ∧ u.chip.rg R.TRK_WATCH_CTRL_CUR_WL 0 = n ∧ u.chip.ds.visitAt = max s.chip.now t ∧ u.chip.ds.watchOk = putBit s.chip.ds.watchOk (s.chip.rg R.TRK_WATCH_CTRL_CUR_WL 0) false)

/-- Protection switching: host commands, hold-off, wait to restore, the steps of a switch: R113, R114. -/
def Obligations.ProtectionCommands : Prop :=
  (∀ (t : Nat) (s : State), ready s → s.chip.domOn 8 = true → s.chip.ds.apsStep = 0 → (chipAt s t).apsAuto = false → s.chip.ds.lockout = false → (chipAt s t).otherOk = true → ∃ u, exec (.apsManual t) s = .next u ∧ u.chip.ds.apsStep = 1 ∧ u.chip.ds.apsAt = max s.chip.now t ∧ u.chip.rg R.TRK_SIDE_STAT_STATE 0 = 1 ∧ u.chip.rg R.TRK_SIDE_STAT_REQ 0 = 4 ∧ u.chip.rg R.TRK_SIDE_CTRL_CMD 0 = 0 ∧ kept s u [R.TRK_SIDE_STAT_STATE.key 0, R.TRK_SIDE_STAT_REQ.key 0, R.TRK_SIDE_CTRL_CMD.key 0]) ∧
  (∀ (t : Nat) (s : State), ready s → s.chip.domOn 8 = true → s.chip.ds.apsStep = 0 → s.chip.ds.lockout = false → ∃ u, exec (.apsForce t) s = .next u ∧ u.chip.ds.apsStep = 1 ∧ u.chip.rg R.TRK_SIDE_STAT_STATE 0 = 1 ∧ u.chip.rg R.TRK_SIDE_STAT_REQ 0 = 2 ∧ u.chip.rg R.TRK_SIDE_CTRL_CMD 0 = 0 ∧ kept s u [R.TRK_SIDE_STAT_STATE.key 0, R.TRK_SIDE_STAT_REQ.key 0, R.TRK_SIDE_CTRL_CMD.key 0]) ∧
  (∀ (t : Nat) (s : State), ready s → s.chip.domOn 8 = true → s.chip.ds.apsStep = 0 → ∃ u, exec (.apsLockout t) s = .next u ∧ u.chip.ds.lockout = true ∧ u.chip.rg R.TRK_SIDE_STAT_REQ 0 = 1 ∧ u.chip.ds.apsStep = 0 ∧ kept s u [R.TRK_SIDE_STAT_REQ.key 0, R.TRK_SIDE_CTRL_CMD.key 0]) ∧
  (∀ (t : Nat) (s : State), ready s → s.chip.domOn 8 = true → s.chip.ds.apsStep = 0 → (chipAt s t).apsAuto = false → (chipAt s t).apsRevert = false → ∃ u, exec (.apsClear t) s = .next u ∧ u.chip.ds.lockout = false ∧ u.chip.rg R.TRK_SIDE_STAT_REQ 0 = 0 ∧ u.chip.rg R.TRK_SIDE_CTRL_CMD 0 = 0 ∧ kept s u [R.TRK_SIDE_STAT_REQ.key 0, R.TRK_SIDE_CTRL_CMD.key 0]) ∧
  (∀ (t : Nat) (a : Nat) (s : State), ready s → s.chip.ds.apsStep = 0 → s.chip.ds.apsHoldEnd ≤ max s.chip.now t → s.chip.ds.apsFailAt = some a → a + s.chip.rg R.TRK_SIDE_CTRL_HOLD 0 * msPs ≤ max s.chip.now t → s.chip.ds.lockout = false → s.chip.rg R.TRK_SIDE_CTRL_CMD 0 = 0 → (chipAt s t).otherOk = true → ∃ u, exec (.apsAutoHold t) s = .next u ∧ u.chip.ds.apsStep = 1 ∧ u.chip.rg R.TRK_SIDE_STAT_STATE 0 = 1 ∧ u.chip.rg R.TRK_SIDE_STAT_REQ 0 = 3) ∧
  (∀ (t : Nat) (s : State), ready s → s.chip.ds.apsStep = 0 → s.chip.ds.apsHoldEnd ≤ max s.chip.now t → s.chip.ds.apsFailAt = none → (chipAt s t).apsRevert = true → s.chip.ds.lockout = false → s.chip.rg R.TRK_SIDE_CTRL_CMD 0 = 0 → ∃ u, exec (.apsWtrExpire t) s = .next u ∧ u.chip.ds.apsStep = 1 ∧ u.chip.rg R.TRK_SIDE_STAT_STATE 0 = 1 ∧ u.chip.rg R.TRK_SIDE_STAT_REQ 0 = 5) ∧
  (∀ (t : Nat) (s : State), ready s → s.chip.rg R.TRK_SIDE_STAT_STATE 0 = 2 → s.chip.ds.apsHoldEnd ≤ max s.chip.now t → s.chip.ds.apsStep = 0 → s.chip.ds.apsFailAt = none → s.chip.rg R.TRK_SIDE_CTRL_REVERT 0 = 0 → s.chip.ds.lockout = false → s.chip.rg R.TRK_SIDE_CTRL_CMD 0 = 0 → ∃ u, exec (.apsHoldEnd t) s = .next u ∧ u.chip.rg R.TRK_SIDE_STAT_STATE 0 = 0 ∧ u.chip.rg R.TRK_SIDE_STAT_REQ 0 = 0 ∧ kept s u [R.TRK_SIDE_STAT_STATE.key 0, R.TRK_SIDE_STAT_REQ.key 0]) ∧
  (∀ (t : Nat) (s : State), ready s → s.chip.ds.apsStep = 1 → s.chip.up.active = [] → ∃ u, exec (.apsQuiesced t) s = .next u ∧ u.chip.ds.apsStep = 2 ∧ u.chip.ds.cycleDone = false ∧ u.chip.rg R.TRK_SIDE_STAT_OTHER_OK 0 = 0) ∧
  (∀ (t : Nat) (s : State), ready s → s.chip.ds.apsStep = 2 → ∃ u, exec (.apsPathMoved t) s = .next u ∧ u.chip.ds.apsStep = 3 ∧ (∀ k : Fin 16, (chipAt s t).rxOn k = true → (u.chip.eng k).step = 2)) ∧
  (∀ (t : Nat) (k : Fin 16) (s : State), ready s → s.chip.ds.apsStep = 4 → s.chip.inSync k = true → (s.chip.eng k).step = 6 → ∃ u, exec (.apsSync t) s = .next u ∧ u.chip.ds.apsStep = 5 ∧ kept s u []) ∧
  (∀ (t : Nat) (s : State), ready s → s.chip.ds.apsStep = 5 → s.chip.mode = 0 → ∃ u, exec (.apsResume t) s = .next u ∧ u.chip.rg R.TRK_SIDE_STAT_STATE 0 = 2 ∧ u.chip.rg R.TRK_SIDE_STAT_SWITCHED 0 = 1 ∧ u.chip.ds.apsHoldEnd = max s.chip.now t + secPs) ∧
  (∀ (t : Nat) (s : State), ready s → s.chip.ds.apsStep = 1 → s.chip.ds.apsAt + 10 * msPs ≤ max s.chip.now t → s.chip.mode = 0 → ∃ u, exec (.apsSwitchTimeout t) s = .next u ∧ u.chip.rg R.TRK_SIDE_STAT_STATE 0 = 3 ∧ u.chip.rg R.TRK_SIDE_STAT_REQ 0 = 0 ∧ u.chip.ds.apsStep = 0)

/-- Messages that bring the terminal into operation: DISCOVERY, ASSIGN_ID, ranging, allocations: R117, R126, R129, R130, R132, R133. -/
def Obligations.ActivationMessages : Prop :=
  (∀ (t : Nat) (k : Fin 16) (x : MsgSlot) (s : State), ready s → (s.chip.eng k).msgs.find? (fun x => decide (x.typ = 1)) = some x → s.chip.mode = 2 → s.chip.inSync k = true → ∃ u, exec (.discovery t k) s = .next u ∧ u.chip.mode = 3 ∧ u.chip.rg R.TRK_MODE_PREV 0 = 2 ∧ u.chip.rg R.TRK_MODE_CAUSE 0 = 3 ∧ u.chip.up.heId = word x.body 0 ∧ u.chip.up.chMask = half x.body 4 ∧ u.chip.up.discAt = max s.chip.now t ∧ u.chip.up.unanswered = 0 ∧ kept s u [R.TRK_MODE_PREV.key 0, R.TRK_MODE_CODE.key 0, R.TRK_MODE_CAUSE.key 0, R.TRK_MODE_EVT_MODE_CHG.key 0]) ∧
  (∀ (t : Nat) (k : Fin 16) (x : MsgSlot) (s : State), ready s → (s.chip.eng k).msgs.find? (fun x => decide (x.typ = 2)) = some x → s.chip.mode = 3 → x.body.take 12 = s.chip.serial → half x.body 12 ≤ 0xFFFD → half x.body 14 ≤ 4093 → half x.body 16 ≤ 65534 → byteAt x.body 18 ≤ 15 → ∃ u, exec (.assignId t k) s = .next u ∧ u.chip.mode = 4 ∧ u.chip.rg R.TRK_TERM_ID_ID 0 = half x.body 12 ∧ u.chip.rg R.TRK_TERM_ID_HOME 0 = byteAt x.body 18 ∧ u.chip.rg R.TRK_TERM_ID_VALID 0 = 1 ∧ u.chip.rg R.TRK_TERM_ALLOC_DEFAULT 0 = half x.body 14 ∧ u.chip.rg R.TRK_TERM_ALLOC_MGMT_TAG 0 = half x.body 16 ∧ u.chip.rg R.TRK_MODE_CAUSE 0 = 4) ∧
  (∀ (t : Nat) (k : Fin 16) (x : MsgSlot) (s : State), ready s → (s.chip.eng k).msgs.find? (fun x => decide (x.typ = 3)) = some x → s.chip.mode = 4 → byteAt x.body 0 ≤ 15 → byteAt x.body 1 = s.chip.side → s.chip.side = 0 → word x.body 2 ≤ 400000000 → byteAt x.body 6 ≠ 0 → s.chip.up.acks.length < 64 → ∃ u, exec (.rangingReq t k) s = .next u ∧ u.chip.up.ranging = s.chip.up.ranging.filter (fun r => decide (r.side ≠ s.chip.side ∨ r.ch ≠ byteAt x.body 0)) ++ [{ side := s.chip.side, ch := byteAt x.body 0, preset := word x.body 2, octs := byteAt x.body 6 }] ∧ u.chip.up.acks = s.chip.up.acks ++ [⟨0x82, beBytes 1 (byteAt x.bytes 2) ++ [0] ++ slice x.bytes 4 2 ++ beBytes 1 x.wl⟩]) ∧
  (∀ (t : Nat) (k : Fin 16) (x : MsgSlot) (s : State), ready s → (s.chip.eng k).msgs.find? (fun x => decide (x.typ = 4)) = some x → s.chip.mode = 5 → byteAt x.body 0 ≤ 15 → byteAt x.body 1 = 0 → byteAt x.body 2 = 0 → word x.body 4 ≤ 400000000 → s.chip.up.acks.length < 64 → ∃ u, exec (.rangingTime t k) s = .next u ∧ u.chip.rg R.TRK_EQD_EQD (byteAt x.body 0) = word x.body 4 ∧ u.chip.rg R.TRK_EQD_VALID (byteAt x.body 0) = 1 ∧ u.chip.mode = 5 ∧ u.chip.up.acks = s.chip.up.acks ++ [⟨0x82, beBytes 1 (byteAt x.bytes 2) ++ [0] ++ slice x.bytes 4 2 ++ beBytes 1 x.wl⟩]) ∧
  (∀ (t : Nat) (k : Fin 16) (x : MsgSlot) (a : Nat) (s : State), ready s → (s.chip.eng k).msgs.find? (fun x => decide (x.typ = 5)) = some x → s.chip.mode = 5 → half x.body 0 ≤ 4093 → byteAt x.body 2 ≤ 15 → byteAt x.body 3 = 3 → byteAt x.body 4 ≤ 63 → s.chip.allocIdx (byteAt x.body 2) (half x.body 0) = none → (List.range 1024).find? (fun a => !s.chip.rb R.TRK_ALLOC_VALID a) = some a → s.chip.qs.frames = [] → s.chip.up.acks.length < 64 → ∃ u, exec (.assignAlloc t k) s = .next u ∧ u.chip.rg R.TRK_ALLOC_ALLOC_ID a = half x.body 0 ∧ u.chip.rg R.TRK_ALLOC_CH a = byteAt x.body 2 ∧ u.chip.rg R.TRK_ALLOC_GROUP a = byteAt x.body 4 ∧ u.chip.rg R.TRK_ALLOC_FRAG_OK a = 1 ∧ u.chip.rg R.TRK_ALLOC_VALID a = 1 ∧ u.chip.up.acks = s.chip.up.acks ++ [⟨0x82, beBytes 1 (byteAt x.bytes 2) ++ [0] ++ slice x.bytes 4 2 ++ beBytes 1 x.wl⟩]) ∧
  (∀ (t : Nat) (k : Fin 16) (x : MsgSlot) (n : Stamp) (r : List Stamp) (sfc : Nat) (s : State), ready s → (s.chip.eng k).msgs.find? (fun x => decide (x.typ = 10)) = some x → word x.body 13 ≤ 999999999 → sfc = beAt x.body 0 7 → sfc < sfcMod → s.chip.aStamps = n :: r → s.chip.aStamps.find? (fun x => decide (x.sfc = sfc)) = none → n.sfc < sfc → sfc ≤ n.sfc + 1024 → s.chip.tm.held.length < 4 → ∃ u, exec (.todMap t k) s = .next u ∧ u.chip.tm.held = s.chip.tm.held ++ [(sfc, (((beAt x.body 7 6 * 1000000000 + word x.body 13) * 65536 + half x.body 17 : Nat) : Int))] ∧ u.chip.counter C.TMG_TOD_MAP_ACCEPT 0 = (s.chip.counter C.TMG_TOD_MAP_ACCEPT 0 + 1) % 2 ^ 48) ∧
  (∀ (t : Nat) (k : Fin 16) (x : MsgSlot) (s : State), ready s → (s.chip.eng k).msgs.find? (fun x => decide (x.typ = 11)) = some x → byteAt x.body 0 ≤ 15 → byteAt x.body 1 ≤ 1 → s.chip.up.acks.length < 64 → ∃ u, exec (.epact t k) s = .next u ∧ u.chip.rg R.TMG_A_EPACT_EPACT (16 * byteAt x.body 1 + byteAt x.body 0) = word x.body 2 % 2 ^ R.TMG_A_EPACT_EPACT.width ∧ u.chip.up.acks = s.chip.up.acks ++ [⟨0x82, beBytes 1 (byteAt x.bytes 2) ++ [0] ++ slice x.bytes 4 2 ++ beBytes 1 x.wl⟩] ∧ kept s u [R.TMG_A_EPACT_EPACT.key (16 * byteAt x.body 1 + byteAt x.body 0)]) ∧
  (∀ (t : Nat) (h : Nat × Int) (x : Stamp) (s : State), ready s → (chipAt s t).aPaused = false → s.chip.tm.held = [h] → s.chip.aStamps = [x] → x.sfc = h.1 → s.chip.rg R.TMG_A_TEQ_TEQ 0 ≠ 0 → ∃ u, exec (.todMapHeldMeasure t) s = .next u ∧ u.chip.tm.held = [] ∧ u.chip.tm.assoc = some h ∧ u.chip.tm.grid = some h ∧ u.chip.rg R.ALM_OCTAVE_HI_VALID 0 = 1)

/-- EMIT messages, DEACTIVATE, release from quarantine, RDI, the time limits of the modes, loopback, EVENTIDE: R108, R116, R117, R126, R150, R427. -/
def Obligations.EmissionAndModeCommands : Prop :=
  (∀ (t : Nat) (k : Fin 16) (x : MsgSlot) (s : State), ready s → (s.chip.eng k).msgs.find? (isEmit 0) = some x → s.chip.mode = 7 → s.chip.up.acks.length < 64 → ∃ u, exec (.emitRelease t k) s = .next u ∧ u.chip.mode = 5 ∧ u.chip.rg R.TRK_MODE_PREV 0 = 7 ∧ u.chip.rg R.TRK_MODE_CAUSE 0 = 11 ∧ u.chip.up.acks = s.chip.up.acks ++ [⟨0x82, beBytes 1 (byteAt x.bytes 2) ++ [0] ++ slice x.bytes 4 2 ++ beBytes 1 x.wl⟩] ∧ kept s u [R.TRK_MODE_PREV.key 0, R.TRK_MODE_CODE.key 0, R.TRK_MODE_CAUSE.key 0, R.TRK_MODE_EVT_MODE_CHG.key 0]) ∧
  (∀ (t : Nat) (k : Fin 16) (x : MsgSlot) (s : State), ready s → (s.chip.eng k).msgs.find? (isEmit 1) = some x → s.chip.mode = 5 → s.chip.rg R.HLT_SWAP_STAT_STATE 0 ≠ 1 → s.chip.up.formed = [] → s.chip.up.acks.length < 64 → ∃ u, exec (.emitSilence t k) s = .next u ∧ u.chip.mode = 7 ∧ u.chip.rg R.TRK_MODE_CAUSE 0 = 11 ∧ u.chip.up.store = [] ∧ u.chip.up.acks = s.chip.up.acks ++ [⟨0x82, beBytes 1 (byteAt x.bytes 2) ++ [0] ++ slice x.bytes 4 2 ++ beBytes 1 x.wl⟩]) ∧
  (∀ (t : Nat) (k : Fin 16) (x : MsgSlot) (s : State), ready s → (s.chip.eng k).msgs.find? (isEmit 2) = some x → s.chip.up.acks.length < 64 → ∃ u, exec (.emitChOff t k) s = .next u ∧ (∀ j : Fin 16, u.chip.rg R.TRK_US_STAT_CH_OFF j = b2n (bit (half x.body 2) j) ∨ u.chip.rg R.TRK_US_STAT_CH_OFF j = s.chip.rg R.TRK_US_STAT_CH_OFF j ∧ s.chip.rb R.TRK_US_STAT_CH_OFF j = bit (half x.body 2) j) ∧ u.chip.up.acks = s.chip.up.acks ++ [⟨0x82, beBytes 1 (byteAt x.bytes 2) ++ [0] ++ slice x.bytes 4 2 ++ beBytes 1 x.wl⟩]) ∧
  (∀ (t : Nat) (k : Fin 16) (x : MsgSlot) (s : State), ready s → (s.chip.eng k).msgs.find? (fun x => decide (x.typ = 7)) = some x → s.chip.mode = 5 → s.chip.rg R.HLT_SWAP_STAT_STATE 0 ≠ 1 → ∃ u, exec (.deactivate t k) s = .next u ∧ u.chip.mode = 2 ∧ u.chip.rg R.TRK_MODE_CAUSE 0 = 12 ∧ u.chip.rg R.TRK_TERM_ID_VALID 0 = 0 ∧ u.chip.up.ranging = []) ∧
  (∀ (t : Nat) (k : Fin 16) (x : MsgSlot) (s : State), ready s → (s.chip.eng k).msgs.find? (fun x => decide (x.typ = 8)) = some x → s.chip.mode = 8 → ∃ u, exec (.quarRelease t k) s = .next u ∧ u.chip.mode = 2 ∧ u.chip.rg R.TRK_GUARD_STAT_QUAR 0 = 0 ∧ u.chip.rg R.TRK_MODE_CAUSE 0 = 14) ∧
  (∀ (t : Nat) (k : Fin 16) (x : MsgSlot) (j : Fin 16) (s : State), ready s → (s.chip.eng k).msgs.find? (fun x => decide (x.typ = 9)) = some x → bit (half x.body 0) j = true → bit (half x.body 2) j = true → ∃ u, exec (.rdi t k) s = .next u ∧ u.chip.rg R.TRK_DS_STAT_RDI j = 1 ∧ (u.chip.eng j).rdiOct = 0) ∧
  (∀ (t : Nat) (s : State), ready s → s.chip.mode = 3 → s.chip.up.discAt + s.chip.rg R.TRK_ACT_TMR_TO_DISC 0 * secPs ≤ max s.chip.now t → ∃ u, exec (.announceTimeout t) s = .next u ∧ u.chip.mode = 2 ∧ u.chip.rg R.TRK_MODE_CAUSE 0 = 9 ∧ u.chip.rg R.TRK_TERM_ID_VALID 0 = 0) ∧
  (∀ (t : Nat) (s : State), ready s → s.chip.mode = 4 → s.chip.up.modeAt + s.chip.rg R.TRK_ACT_TMR_TO_RANGE 0 * secPs ≤ max s.chip.now t → ∃ u, exec (.rangingTimeout t) s = .next u ∧ u.chip.mode = 2 ∧ u.chip.rg R.TRK_MODE_CAUSE 0 = 10 ∧ u.chip.rg R.TRK_TERM_ID_VALID 0 = 0) ∧
  (∀ (t : Nat) (s : State), ready s → s.chip.mode = 6 → s.chip.up.modeAt + s.chip.rg R.TRK_ACT_TMR_TO_LAPSE 0 * msPs ≤ max s.chip.now t → ∃ u, exec (.lapseTimeout t) s = .next u ∧ u.chip.mode = 2 ∧ u.chip.rg R.TRK_MODE_CAUSE 0 = 8 ∧ u.chip.rg R.TRK_TERM_ID_VALID 0 = 0) ∧
  (∀ (t : Nat) (s : State), ready s → s.chip.domOn 2 = true → s.chip.mode = 2 → ∃ u, exec (.loopbackEnter t) s = .next u ∧ u.chip.mode = 9 ∧ u.chip.rg R.TRK_MODE_PREV 0 = 2 ∧ u.chip.rg R.TRK_MODE_CAUSE 0 = 15 ∧ u.chip.up.store = []) ∧
  (∀ (t : Nat) (s : State), ready s → s.chip.domOn 2 = true → s.chip.mode = 9 → ∃ u, exec (.loopbackLeave t) s = .next u ∧ u.chip.mode = 2 ∧ u.chip.rg R.TRK_MODE_CAUSE 0 = 15) ∧
  (∀ (t : Nat) (s : State), ready s → s.chip.domOn 2 = true → s.chip.mode = 5 → s.chip.rg R.HLT_SWAP_STAT_STATE 0 ≠ 1 → s.chip.alm.txns = [] → ∃ u, exec (.eventideEnter t) s = .next u ∧ u.chip.mode = 11 ∧ u.chip.rg R.TRK_MODE_CAUSE 0 = 15 ∧ u.chip.pw.evStep = 1 ∧ u.chip.pw.evAt = max s.chip.now t ∧ u.chip.up.dyingSent = false) ∧
  (∀ (t : Nat) (s : State), ready s → s.chip.mode = 11 → s.chip.up.modeAt + 10 * msPs ≤ max s.chip.now t → s.chip.up.dyingSent = false → ∃ u, exec (.eventideEmitEnd t) s = .next u ∧ u.chip.up.dyingSent = true ∧ u.chip.up.store = [] ∧ u.chip.up.formed = [])

/-- Grants, ranging requests, bursts and the upstream guard: R129, R132, R136, R140, R144, R146, R148. -/
def Obligations.GrantAndBurstCommands : Prop :=
  (∀ (t : Nat) (k : Fin 16) (idx raw watch w e : Nat) (s : State), ready s → (chipAt s t).rxOn k = true → (s.chip.eng k).frGrants = true → idx < (s.chip.eng k).frCount → s.chip.ds.apsStep = 0 → w = beNat (scrambleAt (32 + 8 * idx) (beBytes 8 raw)) → crc8 (beBytes 7 (w / 256)) = w % 256 → s.chip.rg R.TRK_US_STAT_CH_OFF k = 0 → s.chip.rg R.TRK_US_CFG_ENABLE k = 1 → (chipAt s t).grantKind k (bits w 52 12) (bit w 49) = some .assigned → s.chip.mons = [] → bit w 51 = false → grantOk .assigned false (bits w 27 19) (bits w 8 19) = true → (s.chip.up.store.filter (fun x => decide (x.ch = k.val))).length < 4096 → (chipAt s t).eqdNow s.chip.side k = some e → ∃ u, exec (.grantEntry t k idx raw watch) s = .next u ∧ u.chip.counter C.TRK_US_GRANT_OWN k = (s.chip.counter C.TRK_US_GRANT_OWN k + 1) % 2 ^ 48 ∧ u.chip.up.store = insertWin { ch := k, alloc := bits w 52 12, kind := .assigned, shortEve := false, report := bit w 50, mgmt := bit w 49, start := bits w 27 19, len := bits w 8 19, t0 := (s.chip.eng k).frAt + 250 * usPs + symPs e + blkPs (bits w 27 19), sfc := (s.chip.eng k).frSfc, rev := (s.chip.eng k).frRev, side := s.chip.side } s.chip.up.store) ∧
  (∀ (t : Nat) (n : Nat) (s : State), ready s → s.chip.up.annOct = some n → 3 ≤ n → ∃ u, exec (.announceUnanswered t) s = .next u ∧ u.chip.up.unanswered = s.chip.up.unanswered + 1 ∧ u.chip.up.annOct = none ∧ u.chip.up.skips < 2 ^ min (s.chip.up.unanswered + 1) 4 ∧ kept s u []) ∧
  (∀ (t : Nat) (r : RangeReq) (s : State), ready s → r ∈ s.chip.up.ranging → r.octs = 0 → ∃ u, exec (.rangingReqExpire t) s = .next u ∧ r ∉ u.chip.up.ranging ∧ (∀ q ∈ u.chip.up.ranging, q.octs ≠ 0) ∧ kept s u []) ∧
  (∀ (t : Nat) (k : Fin 16) (w : Window) (s : State), ready s → s.chip.up.store.find? (fun w => decide (w.ch = k.val)) = some w → w.t0 ≤ max s.chip.now t + 20 * usPs → (chipAt s t).guardOk w = true → s.chip.prevEnd k w.side = 0 → w.shortEve = false → ∃ u, exec (.burstForm t k) s = .next u ∧ u.chip.up.store = s.chip.up.store.erase w ∧ u.chip.up.formed.map (fun b => b.win) = s.chip.up.formed.map (fun b => b.win) ++ [w]) ∧
  (∀ (t : Nat) (k : Fin 16) (b : Burst) (s : State), ready s → s.chip.up.formed.find? (fun b => decide (b.win.ch = k.val)) = some b → b.win.t0 ≤ max s.chip.now t + symPs 768 → max s.chip.now t < b.win.endAt → (chipAt s t).guardOk b.win = true → s.chip.ds.apsStep = 0 → ∃ u, exec (.burstStart t k none) s = .next u ∧ u.chip.up.formed = s.chip.up.formed.erase b ∧ u.chip.up.active = s.chip.up.active ++ [b] ∧ u.chip.rg R.TRK_US_STAT_BURSTING k = 1 ∧ u.chip.counter C.TRK_US_BURSTS k = (s.chip.counter C.TRK_US_BURSTS k + 1) % 2 ^ 48 ∧ newest u = some { kind := .burst, unit := k, data := [b.win.side, b.win.t0, b.win.endAt], bytes := eveBytes b.win.shortEve ++ delimiterBytes ++ scramble b.body }) ∧
  (∀ (t : Nat) (k : Fin 16) (b : Burst) (s : State), ready s → s.chip.up.active.find? (fun b => decide (b.win.ch = k.val)) = some b → b.win.endAt ≤ max s.chip.now t → b.dying = false → b.win.kind ≠ .discovery → (s.chip.up.active.erase b).any (fun x => decide (x.win.ch = k.val)) = false → s.chip.qs.out = [] → ∃ u, exec (.burstEnd t k) s = .next u ∧ u.chip.up.active = s.chip.up.active.erase b ∧ u.chip.rg R.TRK_US_STAT_BURSTING k = 0 ∧ newest u = some { kind := .gateShut, unit := k, data := [b.win.side], bytes := [] } ∧ Tab.get 0 u.chip.up.lastEnd (2 * k + b.win.side) = b.win.endAt ∧ kept s u [R.TRK_US_STAT_BURSTING.key k]) ∧
  (∀ (t : Nat) (k : Fin 16) (alloc : Nat) (f : SplitFrame) (s : State), ready s → s.chip.up.splits.find? (fun f => decide (f.ch = k.val ∧ f.alloc = alloc)) = some f → f.endAt + 125 * usPs ≤ max s.chip.now t → ∃ u, exec (.upFragTimeout t k alloc) s = .next u ∧ u.chip.up.splits = s.chip.up.splits.erase f ∧ u.chip.up.owedAborts = s.chip.up.owedAborts ++ [(4096 * k + alloc, f.tag)] ∧ u.chip.counter C.TRK_US_STOMPED k = (s.chip.counter C.TRK_US_STOMPED k + 1) % 2 ^ 48 ∧ regsKept s u []) ∧
  (∀ (t : Nat) (k : Fin 16) (cause : Fin 8) (s : State), ready s → s.chip.up.trips = [] → ∃ u, exec (.guardTrip t k cause) s = .next u ∧ u.chip.counter C.TRK_US_GUARD_TRIP k = (s.chip.counter C.TRK_US_GUARD_TRIP k + 1) % 2 ^ 48 ∧ u.chip.rg R.TRK_GUARD_STAT_TRIPPED 0 = 1 ∧ u.chip.rg R.TRK_GUARD_STAT_LAST_CH 0 = k ∧ u.chip.rg R.TRK_GUARD_STAT_LAST_CAUSE 0 = cause ∧ u.chip.rg R.TRK_GUARD_STAT_RECENT 0 = 1 ∧ u.chip.up.trips = [max s.chip.now t]) ∧
  (∀ (t : Nat) (k : Fin 16) (cause : Fin 8) (a b : Nat) (s : State), ready s → s.chip.up.trips = [a, b] → max s.chip.now t < a + secPs → max s.chip.now t < b + secPs → s.chip.mode = 5 → s.chip.alm.txns = [] → s.chip.up.formed = [] → s.chip.rg R.HLT_SWAP_STAT_STATE 0 ≠ 1 → ∃ u, exec (.guardTrip t k cause) s = .next u ∧ u.chip.rg R.TRK_GUARD_STAT_QUAR 0 = 1 ∧ u.chip.mode = 8 ∧ u.chip.rg R.TRK_MODE_CAUSE 0 = 13 ∧ u.chip.up.active.filter (fun b => decide (b.win.ch < 16)) = [])

/-- Passes, last bytes, flow fetches and expired generations: R153, R154, R168, R174, R178, R474. -/
def Obligations.PipelineCommands : Prop :=
  (∀ (t : Nat) (b : Fin 32) (f : Frame) (r : List Frame) (role : Nat) (s : State), ready s → (chipAt s t).blockOk b = true → s.chip.pp.back = [] → s.chip.pp.waiting = f :: r → f.blk = b → f.pass = 0 → f.entry = true → f.known = true → f.origin = 0 → s.chip.passRole f = some role → s.chip.pipeDead b role = false → s.chip.pp.nodes = [] → s.chip.pp.layouts = [] → ∃ u, exec (.pipelinePass t b) s = .next u ∧ u.chip.pp.waiting = r.filter (fun x => decide (x.id ≠ f.id)) ∧ u.chip.counter C.PKT_BLK_PASS_FIRST b = (s.chip.counter C.PKT_BLK_PASS_FIRST b + 1) % 2 ^ 48 ∧ u.chip.counter C.PKT_BLK_NO_DEST b = (s.chip.counter C.PKT_BLK_NO_DEST b + 1) % 2 ^ 48 ∧ u.chip.qs.frames = s.chip.qs.frames) ∧
  (∀ (t : Nat) (id : Nat) (rest : List Byte) (r : RxOpen) (f : Frame) (s : State), ready s → s.chip.pt.rxOpen = [r] → r.id = id → s.chip.qs.frames = [] → s.chip.qs.tx = [] → s.chip.pp.held = [] → s.chip.pp.miss = [] → s.chip.pp.back = [] → s.chip.pp.waiting = [f] → f.id = id → f.known = false → r.n + rest.length + 4 ≤ s.chip.maxFrame → ∃ u, exec (.frameLastByte t id rest true) s = .next u ∧ u.chip.pt.rxOpen = [] ∧ u.chip.pp.waiting = [f.ended rest] ∧ u.chip.counter C.PRT_RX_FRAMES r.port = (s.chip.counter C.PRT_RX_FRAMES r.port + 1) % 2 ^ 48 ∧ u.chip.counter C.PRT_RX_BYTES r.port = (s.chip.counter C.PRT_RX_BYTES r.port + (r.n + rest.length + 4)) % 2 ^ 48 ∧ regsKept s u []) ∧
  (∀ (t : Nat) (id : Nat) (rest : List Byte) (r : RxOpen) (f : Frame) (s : State), ready s → s.chip.pt.rxOpen = [r] → r.id = id → s.chip.qs.frames = [] → s.chip.pp.held = [] → s.chip.pp.miss = [] → s.chip.pp.back = [] → s.chip.pp.waiting = [f] → f.id = id → ∃ u, exec (.frameLastByte t id rest false) s = .next u ∧ u.chip.pt.rxOpen = [] ∧ u.chip.pp.waiting = [] ∧ u.chip.counter C.PRT_RX_FCS_ERR r.port = (s.chip.counter C.PRT_RX_FCS_ERR r.port + 1) % 2 ^ 48 ∧ regsKept s u []) ∧
  (∀ (t : Nat) (table : Fin 8) (bank : Fin 2) (key : Nat) (x : Miss) (a : Nat) (s : State), ready s → s.chip.pp.miss = [x] → x.table = table → x.bank = bank → x.key = key → s.chip.flowBucket table bank key = some a → flowKey (s.mem.ddrRead (a + 64 * x.ways) 64) ≠ key → x.ways < 3 → ∃ u, exec (.flowFetchDone t table bank key) s = .next u ∧ u.chip.pp.miss = [{ x with ways := x.ways + 1 }] ∧ u.chip.counter C.PKT_FLOW_FETCH 0 = (s.chip.counter C.PKT_FLOW_FETCH 0 + 1) % 2 ^ 48 ∧ regsKept s u [] ∧ u.mem = s.mem) ∧
  (∀ (t : Nat) (n : Fin 4) (a : Nat) (s : State), ready s → s.chip.pp.genAt.find n = some a → s.chip.rb R.PKT_GEN_SLOT_LIVE n = true → s.chip.rb R.PKT_GEN_SLOT_CUR n = false → a + msPs ≤ max s.chip.now t → ∃ u, exec (.genExpire t n) s = .next u ∧ u.chip.rg R.PKT_GEN_SLOT_LIVE n = 0 ∧ u.chip.rg R.PKT_GEN_REFS_COUNT n = 0 ∧ (∀ f ∈ u.chip.pp.back, f.pass = 0 ∨ f.gen ≠ s.chip.rg R.PKT_GEN_SLOT_GEN n) ∧ (∀ f ∈ u.chip.pp.held, f.1.gen ≠ s.chip.rg R.PKT_GEN_SLOT_GEN n) ∧ (∀ f ∈ u.chip.pp.miss, f.p.f.gen ≠ s.chip.rg R.PKT_GEN_SLOT_GEN n) ∧ u.mem = s.mem)

/-- Flow commands and writes of the table window: R170, R172, R184. -/
def Obligations.FlowAndTableCommands : Prop :=
  (∀ (t : Nat) (table : Fin 8) (bank : Fin 2) (s : State), ready s → s.chip.domOn 6 = true → s.chip.rg R.PKT_FLOW_CMD_BUSY 0 = 0 → ∃ u, exec (.flowInsert t table bank) s = .next u ∧ answered u stOk ∧ u.chip.rg R.PKT_FLOW_CMD_OP 0 = 1 ∧ u.chip.rg R.PKT_FLOW_CMD_TABLE 0 = table ∧ u.chip.rg R.PKT_FLOW_CMD_BANK 0 = bank ∧ u.chip.rg R.PKT_FLOW_CMD_BUSY 0 = 1 ∧ u.chip.pp.flow = some { op := 1, table := table, bank := bank, key := s.chip.flowData.1, action := s.chip.flowData.2 } ∧ kept s u [R.PKT_FLOW_CMD_OP.key 0, R.PKT_FLOW_CMD_TABLE.key 0, R.PKT_FLOW_CMD_BANK.key 0, R.PKT_FLOW_CMD_BUSY.key 0]) ∧
  (∀ (t : Nat) (table : Fin 8) (bank : Fin 2) (s : State), ready s → s.chip.domOn 6 = true → s.chip.rg R.PKT_FLOW_CMD_BUSY 0 = 0 → ∃ u, exec (.flowDelete t table bank) s = .next u ∧ answered u stOk ∧ u.chip.rg R.PKT_FLOW_CMD_OP 0 = 2 ∧ u.chip.rg R.PKT_FLOW_CMD_TABLE 0 = table ∧ u.chip.rg R.PKT_FLOW_CMD_BANK 0 = bank ∧ u.chip.rg R.PKT_FLOW_CMD_BUSY 0 = 1 ∧ u.chip.pp.flow = some { op := 2, table := table, bank := bank, key := s.chip.flowData.1, action := s.chip.flowData.2 } ∧ kept s u [R.PKT_FLOW_CMD_OP.key 0, R.PKT_FLOW_CMD_TABLE.key 0, R.PKT_FLOW_CMD_BANK.key 0, R.PKT_FLOW_CMD_BUSY.key 0]) ∧
  (∀ (t : Nat) (table : Fin 8) (bank : Fin 2) (s : State), ready s → s.chip.domOn 6 = true → s.chip.rg R.PKT_FLOW_CMD_BUSY 0 = 0 → ∃ u, exec (.flowLookup t table bank) s = .next u ∧ answered u stOk ∧ u.chip.rg R.PKT_FLOW_CMD_OP 0 = 3 ∧ u.chip.rg R.PKT_FLOW_CMD_TABLE 0 = table ∧ u.chip.rg R.PKT_FLOW_CMD_BANK 0 = bank ∧ u.chip.rg R.PKT_FLOW_CMD_BUSY 0 = 1 ∧ u.chip.pp.flow = some { op := 3, table := table, bank := bank, key := s.chip.flowData.1, action := s.chip.flowData.2 } ∧ kept s u [R.PKT_FLOW_CMD_OP.key 0, R.PKT_FLOW_CMD_TABLE.key 0, R.PKT_FLOW_CMD_BANK.key 0, R.PKT_FLOW_CMD_BUSY.key 0]) ∧
  (∀ (t : Nat) (x : FlowCmd) (a w : Nat) (s : State), ready s → s.chip.pp.flow = some x → x.op = 1 → s.chip.flowBucket x.table x.bank x.key = some a → s.chip.flowLocked x.table x.bank = false → wayOf s.mem a x.key = none → freeWay s.mem a = some w → ∃ u, exec (.flowCmdDone t) s = .next u ∧ u.chip.rg R.PKT_FLOW_CMD_RESULT 0 = 0 ∧ u.chip.rg R.PKT_FLOW_CMD_WAY 0 = w ∧ u.chip.rg R.PKT_FLOW_CMD_BUSY 0 = 0 ∧ u.chip.pp.flow = none ∧ u.mem = s.mem.apply (.ddr (a + 64 * w) (beBytes 40 x.key ++ beBytes 8 x.action ++ zeros 16)) ∧ regsKept s u [R.PKT_FLOW_CMD_RESULT.key 0, R.PKT_FLOW_CMD_WAY.key 0, R.PKT_FLOW_CMD_BUSY.key 0]) ∧
  (∀ (t : Nat) (x : FlowCmd) (a : Nat) (s : State), ready s → s.chip.pp.flow = some x → x.op = 3 → s.chip.flowBucket x.table x.bank x.key = some a → s.chip.flowLocked x.table x.bank = false → wayOf s.mem a x.key = none → ∃ u, exec (.flowCmdDone t) s = .next u ∧ u.chip.rg R.PKT_FLOW_CMD_RESULT 0 = 3 ∧ u.chip.rg R.PKT_FLOW_CMD_WAY 0 = 0 ∧ u.chip.rg R.PKT_FLOW_CMD_BUSY 0 = 0 ∧ u.chip.pp.flow = none ∧ kept s u [R.PKT_FLOW_CMD_RESULT.key 0, R.PKT_FLOW_CMD_WAY.key 0, R.PKT_FLOW_CMD_BUSY.key 0]) ∧
  (∀ (t : Nat) (who : Fin 20) (a v : Nat) (s : State), ready s → who.val < 4 → (chipAt s t).mayWrite who a = stOk → (chipAt s t).reach a = stOk → 0x48000000 ≤ a → a < 0x58000000 → a % 32 < 20 → (chipAt s t).evtUpdate.tableLocked a = false → ∃ u, exec (.tableWindowWrite t who a v) s = .next u ∧ answered u stOk ∧ u.chip.winGet a = v % 2 ^ 32 ∧ u.mem = s.mem)

/-- Transmission of a frame, repeated PAUSE and PFC frames, spill, gate lists: R189, R192, R201, R205, R206, R210. -/
def Obligations.QueueAndGateCommands : Prop :=
  (∀ (t : Nat) (p : Fin 128) (x : QFrame) (s : State), ready s → (chipAt s t).lineUp p = true → (chipAt s t).lineBusy p = false → s.chip.rg R.PRT_STAT_LINK p = 2 → (chipAt s t).ctlNext p = none → s.chip.rg R.PRT_LOOP_PRBS_GEN p = 0 → s.chip.cellRole (s.chip.portBlk p) (s.chip.slotCell (s.chip.portBlk p) (s.chip.portSlot p)) ≠ 3 → s.chip.qs.tx = [] → s.chip.qs.out = [] → s.chip.qs.frames = [x] → x.spill = none → x.f.known = true → x.f.stomp = false → x.f.origin ≠ 0 → s.chip.rg R.SCH_Q_CFG_VALID x.q = 1 → s.chip.rg R.SCH_Q_CFG_DIR x.q = 0 → s.chip.rg R.SCH_Q_CFG_PORT x.q = p → s.chip.rg R.SCH_Q_CFG_PARENT x.q = 0xFFF → s.chip.rg R.SCH_Q_SCHED_SH_EN x.q = 0 → s.chip.rg R.SCH_GATE_STAT_ACT_EN p = 0 → (chipAt s t).classPaused p (s.chip.rg R.SCH_Q_CFG_TC x.q) = false → s.chip.rg R.PRT_SEC_CFG_SEC_EN p = 0 → ∃ u, exec (.schedDecision t p none) s = .next u ∧ u.chip.qs.frames = [] ∧ u.chip.counter C.SCH_Q_DEQ_FRAMES x.q = (s.chip.counter C.SCH_Q_DEQ_FRAMES x.q + 1) % 2 ^ 48 ∧ u.chip.counter C.PRT_TX_FRAMES p = (s.chip.counter C.PRT_TX_FRAMES p + 1) % 2 ^ 48 ∧ newest u = some { kind := .portFrame, unit := p, data := [x.f.id, 0], bytes := x.f.bytes ++ fcsBytes x.f.bytes } ∧ u.mem = s.mem) ∧
  (∀ (t : Nat) (p : Fin 128) (x : Nat) (s : State), ready s → s.chip.rg R.SCH_PFC_CFG_MODE p = 2 → x = s.chip.rg R.SCH_PFC_STAT_XOFF p → x ≠ 0 → x < 256 → (∀ j : Fin 8, bit x j = true → Tab.get 0 s.chip.qs.pfcAt (pfcIdx p j) + s.chip.pfcPeriod p ≤ max s.chip.now t) → (chipAt s t).lineUp p = true → (chipAt s t).lineBusy p = false → s.chip.rg R.PRT_STAT_LINK p = 2 → s.chip.rg R.PRT_LOOP_PRBS_GEN p = 0 → s.chip.qs.out = [] → ∃ u, exec (.pfcRefresh t p) s = .next u ∧ newest u = some { kind := .pauseFrame, unit := p, data := [max s.chip.now t], bytes := s.chip.pauseFrame p x x } ∧ u.chip.counter C.PRT_TX_CTRL p = (s.chip.counter C.PRT_TX_CTRL p + 1) % 2 ^ 48 ∧ (∀ j : Fin 8, bit x j = true → Tab.get 0 u.chip.qs.pfcAt (pfcIdx p j) = max s.chip.now t) ∧ regsKept s u [] ∧ u.mem = s.mem) ∧
  (∀ (t : Nat) (q : Fin 32768) (x : QFrame) (k : Fin 256) (s : State), ready s → s.chip.qs.frames = [x] → s.chip.qs.out = [] → s.chip.qs.tx = [] → s.chip.up.splits = [] → x.q = q → x.spill = some k.val → x.cells ≤ s.chip.rg R.SCH_Q_LIMIT_MIN q * 4 → x.cells ≤ s.chip.rg R.SCH_Q_SPILL_SPILL_ON q * 4 → ∃ u, exec (.spillRefill t q none) s = .next u ∧ u.chip.qs.frames = [{ x with spill := none, reserve := true }] ∧ u.chip.rg R.SCH_Q_FRAMES_FRAMES q = 1 ∧ u.chip.rg R.SCH_Q_OCC_SPILLING q = 0 ∧ Tab.get 255 u.chip.qs.refilled q = k ∧ u.chip.cnt = s.chip.cnt ∧ u.mem = s.mem) ∧
  (∀ (t : Nat) (p : Fin 128) (s : State), ready s → s.chip.rg R.SCH_GATE_STAT_ACT_EN p = 1 → s.chip.rg R.SCH_GATE_STAT_BEFORE_BASE p = 0 → Tab.get 0 s.chip.qs.gateAt p + s.chip.gateIval p (s.chip.rg R.SCH_GATE_STAT_CUR p) ≤ (chipAt s t).lNow → ∃ u, exec (.gateEntryAdvance t p) s = .next u ∧ u.chip.rg R.SCH_GATE_STAT_CUR p = (s.chip.rg R.SCH_GATE_STAT_CUR p + 1) % s.chip.rg R.SCH_GATE_STAT_ACT_N p % 2 ^ R.SCH_GATE_STAT_CUR.width ∧ Tab.get 0 u.chip.qs.gateAt p = Tab.get 0 s.chip.qs.gateAt p + s.chip.gateIval p (s.chip.rg R.SCH_GATE_STAT_CUR p) ∧ kept s u [R.SCH_GATE_STAT_CUR.key p]) ∧
  (∀ (t : Nat) (p : Fin 128) (s : State), ready s → s.chip.rg R.SCH_GATE_STAT_BEFORE_BASE p = 1 → Tab.get 0 s.chip.qs.gateBase p ≤ (chipAt s t).lNow → ∃ u, exec (.gateBaseReached t p) s = .next u ∧ u.chip.rg R.SCH_GATE_STAT_BEFORE_BASE p = 0 ∧ u.chip.rg R.SCH_GATE_STAT_CUR p = 0 ∧ Tab.get 0 u.chip.qs.gateAt p = Tab.get 0 s.chip.qs.gateBase p ∧ kept s u [R.SCH_GATE_STAT_BEFORE_BASE.key p, R.SCH_GATE_STAT_CUR.key p])

/-- A microword of a sample cell, its rows and its symbol timeout: R215, R217, R220, R221, R227, R229, R231, R235. -/
def Obligations.SampleEngineCommands : Prop :=
  (∀ (t : Nat) (x : Fin 96) (v : Nat) (s : State), ready s → s.chip.domOn (13 + x.val / 24) = true → 1 ≤ bits v 16 10 → bits v 16 10 ≤ 1000 → (s.chip.cell x).on = false → s.chip.rg R.SMP_PROG_BANK_ACT x = s.chip.rg R.SMP_PROG_BANK_RUN x → s.chip.cellRole (smpBlk x) (smpNum x) = 0 → ∃ u, exec (.smpEnable t x v) s = .next u ∧ u.chip.rg R.SMP_CELL_CFG_ENABLE x = bits v 0 1 ∧ u.chip.rg R.SMP_CELL_CFG_EVT_EN x = bits v 1 1 ∧ u.chip.rg R.SMP_CELL_CFG_SYM_TO x = bits v 16 10 ∧ (u.chip.cell x).on = (bit v 0 && decide ((s.chip.cell x).count (s.chip.rg R.SMP_PROG_BANK_ACT x) ≠ 0)) ∧ ((u.chip.cell x).on = true → u.chip.rg R.SMP_CELL_STAT_STATE x = 2 ∧ u.chip.rg R.SMP_CELL_STAT_ENTRY x = 0) ∧ u.mem = s.mem) ∧
  (∀ (t : Nat) (x : Fin 96) (host : Bool) (w : Nat) (s : State), ready s → (chipAt s t).smpPowered x = true → bit s.chip.st.smpLost x = false → s.chip.cellRole (smpBlk x) (smpNum x) = 0 → s.chip.shadowPair (smpBlk x) = none → (s.chip.cell x).on = true → s.chip.rg R.SMP_CSET_STAT_RESEED x = 0 → s.chip.pw.swapKind ≠ 2 → w = s.chip.microword x (s.chip.runBank x) (s.chip.cell x).entry → mwLegal w = true → mwHop w = false → mwEos w = false → (s.chip.cell x).rep + 1 = mwRep w → mwOpc w = 0 → ∃ u, exec (.smpStep t x host) s = .next u ∧ u.chip.counter C.SMP_STEPS_EXEC x = (s.chip.counter C.SMP_STEPS_EXEC x + 1) % 2 ^ 48 ∧ (u.chip.cell x).entry = (s.chip.cell x).entry + 1 ∧ (u.chip.cell x).rep = 0 ∧ (u.chip.cell x).steps = (s.chip.cell x).steps + 1 ∧ (u.chip.cell x).acc = (s.chip.cell x).acc ∧ u.chip.rg R.SMP_CELL_STAT_STATE x = 2 ∧ u.chip.win = s.chip.win ∧ u.mem = s.mem ∧ regsKept s u [R.SMP_CELL_STAT_STATE.key x, R.SMP_CELL_STAT_ENTRY.key x]) ∧
  (∀ (t : Nat) (x : Fin 96) (w ra rb : Nat) (l : Fin 128) (s : State), ready s → (chipAt s t).smpPowered x = true → bit s.chip.st.smpLost x = false → s.chip.cellRole (smpBlk x) (smpNum x) = 0 → s.chip.shadowPair (smpBlk x) = none → (s.chip.cell x).on = true → s.chip.rg R.SMP_CSET_STAT_RESEED x = 0 → s.chip.pw.swapKind ≠ 2 → w = s.chip.microword x (s.chip.runBank x) (s.chip.cell x).entry → mwLegal w = true → mwHop w = false → mwEos w = false → (s.chip.cell x).rep + 1 = mwRep w → mwOpc w = 1 → mwClr w = false → (s.chip.cell x).opA (s.chip.runBank x) (s.chip.coefAct x) w (s.chip.cell x).rep = .row ra → (s.chip.cell x).opB (s.chip.runBank x) (s.chip.coefAct x) w (s.chip.cell x).rep = .row rb → waitFor (s.chip.cell x).accW (s.chip.cell x).rowW (s.chip.cell x).steps [] [ra, rb] = 0 → bit (s.chip.laneMask x (s.chip.runBank x) (mwMask w)) l = true → ∃ u, exec (.smpStep t x false) s = .next u ∧ Tab.get (0, 0) (u.chip.cell x).acc (128 * accOf w (s.chip.cell x).rep + l) = (satInt 52 ((Tab.get (0, 0) (s.chip.cell x).acc (128 * accOf w (s.chip.cell x).rep + l)).1 + (((s.chip.readRow x ra).getD l (0, 0)).1 * ((s.chip.readRow x rb).getD l (0, 0)).1 - ((s.chip.readRow x ra).getD l (0, 0)).2 * ((s.chip.readRow x rb).getD l (0, 0)).2)), satInt 52 ((Tab.get (0, 0) (s.chip.cell x).acc (128 * accOf w (s.chip.cell x).rep + l)).2 + (((s.chip.readRow x ra).getD l (0, 0)).1 * ((s.chip.readRow x rb).getD l (0, 0)).2 + ((s.chip.readRow x ra).getD l (0, 0)).2 * ((s.chip.readRow x rb).getD l (0, 0)).1)))) ∧
  (∀ (t : Nat) (x : Fin 96) (r : ARow) (rest : List ARow) (y : Nat) (s : State), ready s → (s.chip.path x).emit = r :: rest → y = s.chip.smpServe x → y ≠ 255 → (chipAt s t).smpPowered y = true → (s.chip.cell y).on = true → (s.chip.cell y).skipping = false → (s.chip.cell y).arr.length < 128 → s.chip.shadowPair (smpBlk y) = none → ∃ u, exec (.smpRowArrival t x) s = .next u ∧ (u.chip.cell y).arr = (s.chip.cell y).arr ++ [r] ∧ (u.chip.path x).emit = rest ∧ u.chip.counter C.SMP_ROWS_IN y = (s.chip.counter C.SMP_ROWS_IN y + 1) % 2 ^ 48 ∧ regsKept s u [R.SMP_ASM_STAT_EMITTING.key x] ∧ u.mem = s.mem) ∧
  (∀ (t : Nat) (x : Fin 96) (a : Nat) (s : State), ready s → (s.chip.cell x).popAt = some a → a + s.chip.rg R.SMP_CELL_CFG_SYM_TO x * usPs ≤ max s.chip.now t → (s.chip.cell x).zeroing = false → ∃ u, exec (.smpSymTimeout t x) s = .next u ∧ (u.chip.cell x).zeroing = true ∧ (u.chip.cell x).bad = true ∧ u.chip.rg R.SMP_CELL_EVT_MISSING x = 1 ∧ u.chip.rg R.SMP_CELL_STAT_BAD x = 1 ∧ kept s u [R.SMP_CELL_EVT_MISSING.key x, R.SMP_CELL_STAT_BAD.key x]) ∧
  (∀ (t : Nat) (who : Fin 20) (a v x r : Nat) (s : State), ready s → who.val < 4 → v < 2 ^ 32 → 0x60000000 ≤ a → a < 0x63000000 → (chipAt s t).mayWrite who a = stOk → (chipAt s t).reach a = stOk → x = (a - 0x60000000) / 0x80000 → r = (a - 0x60000000) % 0x80000 / 1024 → s.chip.rowInBank x r 0 = false → s.chip.rowInBank x r 1 = false → s.chip.coefAct x ≤ 1 → ∃ u, exec (.smpMemWrite t who a v) s = .next u ∧ answered u stOk ∧ u.chip.winGet a = partWord (sgn 20 v) ∧ u.chip.cnt = s.chip.cnt ∧ u.mem = s.mem)

/-- IQ frames, symbols, output blocks and coefficient sets: R246, R247, R248, R249, R252, R254, R257, R258. -/
def Obligations.FronthaulCommands : Prop :=
  (∀ (t : Nat) (x : Fin 96) (f : Frame) (flow : Nat) (b : List Byte) (q : IqSect) (e : Nat × List Byte) (s : State), ready s → s.chip.fh.inQ = [(f, flow)] → s.chip.obj 0x0502 flow = some b → flCell b = x → flNext b = 0xFFFF → iqParse f.bytes = some q → q.mant = flMant b → sectPrbs q b ≠ [] → s.chip.rg R.SMP_ASM_STAT_VALID x = 0 → (s.chip.path x).opened = [] → (s.chip.path x).emit = [] → e ∈ s.chip.inFlows x → flSlot e.2 ≠ flSlot b → flFirst e.2 < 512 → 1 ≤ flCount e.2 → ∃ u, exec (.iqFrameAssemble t x) s = .next u ∧ u.chip.fh.inQ = [] ∧ (u.chip.path x).opened.map (fun y => (y.num, y.gen, y.at_)) = [(q.sym, some f.gen, max s.chip.now t)] ∧ (∀ i ∈ sectPrbs q b, (u.chip.path x).opened.map (fun y => Tab.get [] y.prbs (512 * flSlot b + q.first + i)) = [(prbParts (slice q.data (i * (1 + 3 * q.mant)) (1 + 3 * q.mant)) q.mant).map (fun y => (satInt 20 y.1, satInt 20 y.2))]) ∧ u.chip.counter C.SMP_FLOW_FRAMES flow = (s.chip.counter C.SMP_FLOW_FRAMES flow + 1) % 2 ^ 48 ∧ u.mem = s.mem) ∧
  (∀ (t : Nat) (x : Fin 96) (y : OpenSym) (e : Nat × List Byte) (s : State), ready s → (s.chip.path x).opened = [y] → s.chip.rank0 x = some e → y.at_ + flTimeout e.2 * usPs ≤ max s.chip.now t → s.chip.symComplete x y = false → flFill e.2 = false → ∃ u, exec (.iqAsmTimeout t x) s = .next u ∧ (u.chip.path x).opened = [] ∧ (u.chip.path x).emit = (s.chip.path x).emit ∧ u.chip.counter C.SMP_PATH_SYM_DROPPED x = (s.chip.counter C.SMP_PATH_SYM_DROPPED x + 1) % 2 ^ 48 ∧ u.chip.rg R.SMP_PATH_EVT_SYM_LOSS x = 1 ∧ u.chip.rg R.SMP_ASM_STAT_LAST_EMIT x = y.num % 2 ^ R.SMP_ASM_STAT_LAST_EMIT.width ∧ u.chip.rg R.SMP_ASM_STAT_VALID x = 1 ∧ u.chip.rg R.SMP_ASM_STAT_OPEN x = 0 ∧ u.mem = s.mem) ∧
  (∀ (t : Nat) (x : Fin 96) (y : Nat) (r : DRow) (e : Nat × List Byte) (s : State), ready s → y = s.chip.smpServe x → y ≠ 255 → (chipAt s t).smpPowered y = true → (s.chip.cell y).dep = [r] → r.blk = true → s.chip.flows.find? (fun e => decide (flKind e.2 = 1 ∧ flCell e.2 = x ∧ flSlot e.2 = r.stream)) = some e → Tab.get [] (s.chip.path x).blocks r.stream = [] → 1 ≤ flCount e.2 → flCount e.2 ≤ flPerFrame e.2 → ∃ u, exec (.iqOutputBlock t x) s = .next u ∧ (u.chip.cell y).dep = [] ∧ u.chip.pp.back.map (fun f => f.bytes) = s.chip.pp.back.map (fun f => f.bytes) ++ [outFrame e.2 (Tab.get 0 s.chip.fh.seqId e.1) r.sym (r.part || r.bad) r.exp 0 (flCount e.2) ((List.range (flCount e.2)).flatMap (fun i => (blockPrb [r] e.2 i).1))] ∧ u.chip.counter C.SMP_FLOW_FRAMES e.1 = (s.chip.counter C.SMP_FLOW_FRAMES e.1 + 1) % 2 ^ 48 ∧ Tab.get 0 u.chip.fh.seqId e.1 = (Tab.get 0 s.chip.fh.seqId e.1 + 1) % 65536 ∧ u.mem = s.mem) ∧
  (∀ (t : Nat) (x : Fin 96) (f : Frame) (flow : Nat) (b p : List Byte) (s : State), ready s → s.chip.fh.coefQ = [(f, flow)] → s.chip.obj 0x0502 flow = some b → flCell b = x → s.chip.coefForm x f.bytes = true → p = f.bytes.drop 14 → (s.chip.path x).pend = none → (s.chip.path x).any = false → s.chip.spareSmp (smpBlk x) = none → s.chip.smpServe x = x → ∃ u, exec (.coefFrame t x) s = .next u ∧ u.chip.fh.coefQ = [] ∧ u.chip.rg R.SMP_COEF_STAT_STATE x = 1 ∧ u.chip.rg R.SMP_CSET_STAT_RESEED x = 1 ∧ u.chip.rg R.SMP_CSET_CTRL_ARM x = 0 ∧ u.chip.rg R.SMP_COEF_STAT_APPLY x = half p 8 ∧ u.chip.rg R.SMP_COEF_STAT_ROWS x = byteAt p 14 ∧ (u.chip.path x).pend.map (fun y => (y.seq, y.apply, y.total, y.rows)) = some (word p 4, half p 8, half p 10, (List.range (byteAt p 14)).map (fun i => half p 12 + i)) ∧ (u.chip.path x).await = coefRows p ∧ u.chip.cnt = s.chip.cnt ∧ u.mem = s.mem) ∧
  (∀ (t : Nat) (x : Fin 96) (y : CoefSet) (e : Nat × List Byte) (s : State), ready s → (s.chip.path x).pend = some y → s.chip.flows.find? (fun e => decide (flKind e.2 = 2 ∧ flCell e.2 = x)) = some e → s.chip.rg R.SMP_COEF_STAT_STATE x = 2 → y.complete = false → s.chip.spareSmp (smpBlk x) = none → s.chip.smpServe x = x → y.at_ + flTimeout e.2 * usPs ≤ max s.chip.now t → ∃ u, exec (.coefSetTimeout t x) s = .next u ∧ (u.chip.path x).pend = none ∧ u.chip.rg R.SMP_COEF_STAT_STATE x = 1 ∧ u.chip.rg R.SMP_CSET_STAT_RESEED x = 1 ∧ u.chip.rg R.SMP_PATH_EVT_SET_LOST x = 1 ∧ u.chip.counter C.SMP_PATH_SETS_INCOMPLETE x = (s.chip.counter C.SMP_PATH_SETS_INCOMPLETE x + 1) % 2 ^ 48 ∧ u.mem = s.mem)

/-- References of T-A and T-B: loss, PPS_IN, TOD_RX, FREQ_IN, PTP: R269, R270, R275, R278, R279, R280, R281, R442. -/
def Obligations.TimeDomainCommands : Prop :=
  (∀ (t : Nat) (a : Nat) (s : State), ready s → s.chip.tm.mapAt = some a → a + s.chip.rg R.TMG_A_CFG_LOSS_TO 0 * secPs ≤ max s.chip.now t → s.chip.rg R.TMG_DOM_STAT_DSTATE 0 = 2 → ∃ u, exec (.domainLossTimeout t 0) s = .next u ∧ u.chip.rg R.TMG_DOM_STAT_DSTATE 0 = 3 ∧ u.chip.rg R.TMG_DOM_STAT_REF_OK 0 = 0 ∧ u.chip.rg R.TMG_DOM_STAT_CAUSE 0 = 1 ∧ u.chip.rg R.TMG_EVT_A_LOST 0 = 1 ∧ u.mem = s.mem) ∧
  (∀ (t : Nat) (w a : Nat) (s : State), ready s → s.chip.tm.timeVio = true → s.chip.rg R.TMG_B_PPS_MINW 0 ≤ w → s.chip.rg R.TMG_PPSIN_STAT_STUCK 0 = 0 → s.chip.tm.ppsAt = some a → s.chip.tm.ppsFresh = false → a + 900 * msPs ≤ max s.chip.now t → max s.chip.now t ≤ a + 1100 * msPs → s.chip.tm.ppsEdge = none → ∃ u, exec (.ppsInEdge t w) s = .next u ∧ u.chip.tm.ppsAt = some (max s.chip.now t) ∧ u.chip.tm.ppsEdge = some ((chipAt s t).dNow 1 - s.chip.rs R.TMG_B_PPS_DELAY 0 * 65536) ∧ u.chip.tm.ppsMiss = 0 ∧ u.chip.rg R.TMG_PPSIN_STAT_PRESENT 0 = 1 ∧ u.chip.counter C.TMG_PPS_EDGES 0 = (s.chip.counter C.TMG_PPS_EDGES 0 + 1) % 2 ^ 48 ∧ regsKept s u [R.TMG_PPSIN_STAT_PRESENT.key 0] ∧ u.mem = s.mem) ∧
  (∀ (t : Nat) (w a : Nat) (s : State), ready s → s.chip.tm.timeVio = true → s.chip.rg R.TMG_B_PPS_MINW 0 ≤ w → s.chip.rg R.TMG_PPSIN_STAT_STUCK 0 = 0 → s.chip.tm.ppsAt = some a → s.chip.tm.ppsFresh = false → a + msPs ≤ max s.chip.now t → max s.chip.now t < a + 900 * msPs → ∃ u, exec (.ppsInEdge t w) s = .next u ∧ u.chip.counter C.TMG_PPS_SPURIOUS 0 = (s.chip.counter C.TMG_PPS_SPURIOUS 0 + 1) % 2 ^ 48 ∧ u.chip.tm = s.chip.tm ∧ regsKept s u [] ∧ u.mem = s.mem) ∧
  (∀ (t : Nat) (a : Nat) (s : State), ready s → s.chip.tm.ppsMissAt = some a → a + 1100 * msPs ≤ max s.chip.now t → s.chip.tm.ppsMiss < 2 → ∃ u, exec (.ppsMissing t) s = .next u ∧ u.chip.counter C.TMG_PPS_MISSING 0 = (s.chip.counter C.TMG_PPS_MISSING 0 + 1) % 2 ^ 48 ∧ u.chip.rg R.TMG_PPSIN_STAT_PRESENT 0 = 0 ∧ u.chip.rg R.TMG_PPSIN_STAT_QUAL_CNT 0 = 0 ∧ u.chip.tm.ppsMiss = s.chip.tm.ppsMiss + 1 ∧ u.chip.tm.ppsFresh = true ∧ u.chip.tm.ppsMissAt = some (max s.chip.now t) ∧ u.chip.tm.ppsAt = s.chip.tm.ppsAt ∧ regsKept s u [R.TMG_PPSIN_STAT_PRESENT.key 0, R.TMG_PPSIN_STAT_QUAL_CNT.key 0] ∧ u.mem = s.mem) ∧
  (∀ (t : Nat) (a : Nat) (s : State), ready s → s.chip.tm.ppsMissAt = some a → a + 1100 * msPs ≤ max s.chip.now t → s.chip.tm.ppsMiss = 2 → s.chip.rg R.TMG_B_CFG_SRC 0 = 1 → s.chip.rg R.TMG_DOM_STAT_DSTATE 1 = 2 → ∃ u, exec (.ppsMissing t) s = .next u ∧ u.chip.rg R.TMG_DOM_STAT_DSTATE 1 = 3 ∧ u.chip.rg R.TMG_DOM_STAT_CAUSE 1 = 5 ∧ u.chip.rg R.TMG_EVT_B_LOST 0 = 1 ∧ u.mem = s.mem) ∧
  (∀ (t : Nat) (s : State), ready s → s.chip.rg R.TMG_B_CFG_SRC 0 = 1 → s.chip.rg R.TMG_DOM_STAT_DSTATE 1 = 2 → ∃ u, exec (.ppsStuck t) s = .next u ∧ u.chip.rg R.TMG_PPSIN_STAT_STUCK 0 = 1 ∧ u.chip.rg R.TMG_EVT_PPS_STUCK 0 = 1 ∧ u.chip.rg R.TMG_DOM_STAT_DSTATE 1 = 3 ∧ u.chip.rg R.TMG_DOM_STAT_CAUSE 1 = 6 ∧ u.chip.rg R.TMG_PPSIN_STAT_QUAL_CNT 0 = 0 ∧ u.mem = s.mem) ∧
  (∀ (t : Nat) (s : State), ready s → s.chip.rg R.TMG_PPSIN_STAT_STUCK 0 = 1 → ∃ u, exec (.ppsStuckRelease t) s = .next u ∧ u.chip.rg R.TMG_PPSIN_STAT_STUCK 0 = 0 ∧ u.chip.tm.ppsFresh = true ∧ kept s u [R.TMG_PPSIN_STAT_STUCK.key 0]) ∧
  (∀ (t : Nat) (w : List (Nat × Byte)) (b : List Byte) (a : Nat) (e : Int) (s : State), ready s → b = todFind (todStretch w) → b.length = 24 → byteAt b 2 = 1 → crc16 (b.take 22) = beAt b 22 2 → bit (byteAt b 3) 0 = true → s.chip.tm.ppsAt = some a → s.chip.tm.ppsEdge = some e → a + 10 * msPs ≤ max s.chip.now t → max s.chip.now t ≤ a + 900 * msPs → s.chip.rg R.TMG_B_CFG_FREQ_IN_EN 0 = 0 → s.chip.rg R.TMG_PPSIN_STAT_QUAL_CNT 0 < 15 → s.chip.rg R.TMG_B_CFG_SRC 0 = 1 → s.chip.rg R.TMG_PPSIN_STAT_QUAL_CNT 0 + 1 < s.chip.rg R.TMG_B_CFG_QUAL 0 → s.chip.rg R.TMG_DOM_STAT_DSTATE 1 = 3 → s.chip.rg R.TMG_UTC_SRC 0 = 1 → ∃ u, exec (.todRxMsg t w) s = .next u ∧ u.chip.counter C.TMG_TOD_RX_OK 0 = (s.chip.counter C.TMG_TOD_RX_OK 0 + 1) % 2 ^ 48 ∧ u.chip.tm.ppsEdge = none ∧ u.chip.tm.ppsNoTod = 0 ∧ u.chip.rg R.TMG_PPSIN_STAT_TOD_OK 0 = 1 ∧ u.chip.rg R.TMG_PPSIN_STAT_QUAL_CNT 0 = s.chip.rg R.TMG_PPSIN_STAT_QUAL_CNT 0 + 1 ∧ u.chip.rg R.TMG_UTC_OFFSET 0 = beAt b 10 2 ∧ u.chip.rg R.TMG_UTC_PENDING 0 = b2n (bit (byteAt b 3) 1) ∧ u.chip.rg R.TMG_UTC_DIR 0 = b2n (bit (byteAt b 3) 2) ∧ u.chip.rg R.TMG_LEAP_AT_LO_SEC 0 = beAt b 12 6 % 2 ^ 32 ∧ u.chip.rg R.TMG_LEAP_AT_HI_SEC 0 = beAt b 12 6 / 2 ^ 32 ∧ u.mem = s.mem) ∧
  (∀ (t : Nat) (w : List (Nat × Byte)) (b : List Byte) (a : Nat) (e : Int) (s : State), ready s → b = todFind (todStretch w) → b.length = 24 → byteAt b 2 = 1 → crc16 (b.take 22) = beAt b 22 2 → bit (byteAt b 3) 0 = true → s.chip.tm.ppsAt = some a → s.chip.tm.ppsEdge = some e → a + 10 * msPs ≤ max s.chip.now t → max s.chip.now t ≤ a + 900 * msPs → s.chip.rg R.TMG_B_CFG_FREQ_IN_EN 0 = 0 → s.chip.rg R.TMG_PPSIN_STAT_QUAL_CNT 0 < 15 → s.chip.rg R.TMG_B_CFG_SRC 0 ≠ 1 → ∃ u, exec (.todRxMsg t w) s = .next u ∧ u.chip.counter C.TMG_TOD_RX_OK 0 = (s.chip.counter C.TMG_TOD_RX_OK 0 + 1) % 2 ^ 48 ∧ u.chip.tm.ppsEdge = none ∧ u.chip.tm.ppsNoTod = 0 ∧ u.chip.rg R.TMG_PPSIN_STAT_TOD_OK 0 = 1 ∧ u.chip.rg R.TMG_PPSIN_STAT_QUAL_CNT 0 = s.chip.rg R.TMG_PPSIN_STAT_QUAL_CNT 0 + 1 ∧ regsKept s u [R.TMG_PPSIN_STAT_TOD_OK.key 0, R.TMG_PPSIN_STAT_QUAL_CNT.key 0] ∧ u.mem = s.mem) ∧
  (∀ (t : Nat) (w : List (Nat × Byte)) (b : List Byte) (s : State), ready s → b = todFind (todStretch w) → b.length = 24 → crc16 (b.take 22) ≠ beAt b 22 2 → ∃ u, exec (.todRxMsg t w) s = .next u ∧ u.chip.counter C.TMG_TOD_RX_ERR 0 = (s.chip.counter C.TMG_TOD_RX_ERR 0 + 1) % 2 ^ 48 ∧ u.chip.tm = s.chip.tm ∧ regsKept s u [] ∧ u.mem = s.mem) ∧
  (∀ (t : Nat) (w : List (Nat × Byte)) (s : State), ready s → (todFind (todStretch w)).length ≠ 24 → ∃ u, exec (.todRxMsg t w) s = .next u ∧ u.chip.tm = s.chip.tm ∧ kept s u []) ∧
  (∀ (t : Nat) (ppb : Int) (a : Nat) (s : State), ready s → absI ppb ≤ 2000 → s.chip.tm.freqGood = some a → a + secPs ≤ max s.chip.now t → ∃ u, exec (.freqInMeasure t ppb) s = .next u ∧ u.chip.rg R.TMG_PPSIN_STAT_FREQ_OK 0 = 1 ∧ u.chip.tm = s.chip.tm ∧ kept s u [R.TMG_PPSIN_STAT_FREQ_OK.key 0]) ∧
  (∀ (t : Nat) (ppb : Int) (s : State), ready s → 2000 < absI ppb → s.chip.rg R.TMG_PPSIN_STAT_FREQ_OK 0 = 1 → s.chip.rg R.TMG_B_CFG_FREQ_IN_EN 0 = 1 → s.chip.rg R.TMG_B_CFG_SRC 0 = 1 → s.chip.rg R.TMG_DOM_STAT_DSTATE 1 = 2 → ∃ u, exec (.freqInMeasure t ppb) s = .next u ∧ u.chip.rg R.TMG_PPSIN_STAT_FREQ_OK 0 = 0 ∧ u.chip.counter C.TMG_FREQIN_LOST 0 = (s.chip.counter C.TMG_FREQIN_LOST 0 + 1) % 2 ^ 48 ∧ u.chip.rg R.TMG_DOM_STAT_DSTATE 1 = 3 ∧ u.chip.rg R.TMG_DOM_STAT_CAUSE 1 = 8) ∧
  (∀ (t : Nat) (s : State), ready s → s.chip.rg R.TMG_PPSIN_STAT_FREQ_OK 0 = 1 → s.chip.rg R.TMG_B_CFG_FREQ_IN_EN 0 = 0 → ∃ u, exec (.freqInEdgeLoss t) s = .next u ∧ u.chip.rg R.TMG_PPSIN_STAT_FREQ_OK 0 = 0 ∧ u.chip.counter C.TMG_FREQIN_LOST 0 = (s.chip.counter C.TMG_FREQIN_LOST 0 + 1) % 2 ^ 48 ∧ u.chip.tm.freqGood = none ∧ regsKept s u [R.TMG_PPSIN_STAT_FREQ_OK.key 0] ∧ u.mem = s.mem) ∧
  (∀ (t : Nat) (phase : Int) (s : State), ready s → s.chip.rg R.TMG_B_CFG_SRC 0 = 1 → s.chip.rg R.TMG_B_CFG_FREQ_IN_EN 0 = 1 → s.chip.rg R.TMG_PPSIN_STAT_FREQ_OK 0 = 1 → s.chip.rg R.TMG_DOM_STAT_DSTATE 1 = 2 → ∃ u, exec (.freqinIntegralUpdate t phase) s = .next u ∧ u.chip.tm.domB.integ = clampI (s.chip.tm.domB.integ + servoI (servoWn (s.chip.servoBw 1 msPs).1) ((phase + 50 * 65536) % (100 * 65536) - 50 * 65536) msPs) servoMax ∧ u.chip.tm.domB.lastAt = s.chip.tm.domB.lastAt ∧ u.chip.tm.y0 = s.chip.tm.y0 ∧ kept s u [R.TMG_DOM_FREQ_S.key 1]) ∧
  (∀ (t : Nat) (ofs : Int) (s : State), ready s → s.chip.domOn 1 = true → s.chip.rg R.TMG_B_CFG_SRC 0 = 2 → s.chip.rg R.TMG_DOM_STAT_DSTATE 1 = 2 → ∃ u, exec (.bMeasWrite t true false ofs) s = .next u ∧ answered u stOk ∧ u.chip.counter C.TMG_B_MEAS 0 = (s.chip.counter C.TMG_B_MEAS 0 + 1) % 2 ^ 48 ∧ u.chip.tm.domB.lastAt = some (max s.chip.now t) ∧ u.mem = s.mem) ∧
  (∀ (t : Nat) (ofs : Int) (s : State), ready s → s.chip.domOn 1 = true → s.chip.rg R.TMG_B_CFG_SRC 0 = 2 → s.chip.rg R.TMG_DOM_STAT_DSTATE 1 = 2 → ∃ u, exec (.bMeasWrite t true true ofs) s = .next u ∧ answered u stOk ∧ u.chip.rg R.TMG_DOM_STAT_DSTATE 1 = 3 ∧ u.chip.rg R.TMG_DOM_STAT_CAUSE 1 = 9 ∧ u.chip.tm.bRun = 0 ∧ u.mem = s.mem) ∧
  (∀ (t : Nat) (inv : Bool) (ofs : Int) (s : State), ready s → s.chip.domOn 1 = true → ∃ u, exec (.bMeasWrite t false inv ofs) s = .next u ∧ answered u stRefused ∧ u.chip.tm = s.chip.tm ∧ kept s u []) ∧
  (∀ (t : Nat) (s : State), ready s → s.chip.rg R.TMG_B_CFG_SRC 0 ≠ 1 → ∃ u, exec (.timeVioOutOfRange t false) s = .next u ∧ u.chip.tm.timeVio = false ∧ u.chip.rg R.TMG_PPSIN_STAT_PRESENT 0 = 0 ∧ u.chip.rg R.TMG_PPSIN_STAT_QUAL_CNT 0 = 0 ∧ kept s u [R.TMG_PPSIN_STAT_PRESENT.key 0, R.TMG_PPSIN_STAT_QUAL_CNT.key 0]) ∧
  (∀ (t : Nat) (s : State), ready s → ∃ u, exec (.timeVioOutOfRange t true) s = .next u ∧ u.chip.tm.timeVio = true ∧ u.chip.tm.ppsFresh = true ∧ kept s u [])

/-- Selection, steer, steps, slew, resonators and the leap second: R265, R282, R283, R284, R288, R291, R293, R294. -/
def Obligations.TimeSelectionCommands : Prop :=
  (∀ (t : Nat) (v : Nat) (s : State), ready s → s.chip.domOn 1 = true → bits v 0 2 ≠ 3 → bits v 4 12 ≤ 3600 → ∃ u, exec (.selCfgWrite t v) s = .next u ∧ u.chip.rg R.TMG_SEL_CFG_MODE 0 = bits v 0 2 ∧ u.chip.rg R.TMG_SEL_CFG_PREF 0 = bits v 2 1 ∧ u.chip.rg R.TMG_SEL_CFG_WTR 0 = bits v 4 12 ∧ u.chip.rg R.TMG_SEL_CFG_EVT_EN 0 = bits v 16 1 ∧ u.mem = s.mem) ∧
  (∀ (t : Nat) (s : State), ready s → s.chip.rg R.TMG_SEL_CFG_MODE 0 = 0 → s.chip.tm.away = true → s.chip.rg R.TMG_SEL_CFG_PREF 0 = 1 → s.chip.rg R.TMG_STAT_SEL 0 = 0 → s.chip.rg R.TMG_DOM_STAT_DSTATE 1 = 2 → s.chip.rg R.TMG_SEL_CFG_WTR 0 ≠ 0 → (s.chip.dom 1).lockedAt + s.chip.rg R.TMG_SEL_CFG_WTR 0 * secPs ≤ max s.chip.now t → ∃ u, exec (.selWtrExpire t) s = .next u ∧ u.chip.rg R.TMG_STAT_SEL 0 = 1 ∧ u.chip.rg R.TMG_EVT_SEL_CHG 0 = 1 ∧ u.chip.tm.away = false ∧ u.mem = s.mem) ∧
  (∀ (t : Nat) (s : State), ready s → ∃ u, exec (.steerUpdate t) s = .next u ∧ -((s.chip.rg R.TMG_SLEW_SLEW 0 * 65536 / 10 : Nat) : Int) ≤ u.chip.tm.r ∧ u.chip.tm.r ≤ ((s.chip.rg R.TMG_SLEW_SLEW 0 * 65536 / 10 : Nat) : Int) ∧ u.mem = s.mem) ∧
  (∀ (t : Nat) (s : State), ready s → s.chip.rg R.TMG_STAT_OUT_VALID 0 = 1 → s.chip.rg R.TMG_SEL_CFG_MODE 0 = 0 → s.chip.rg R.TMG_DOM_STAT_DSTATE 0 ≠ 2 → s.chip.rg R.TMG_DOM_STAT_DSTATE 1 ≠ 2 → s.chip.rg R.TMG_STAT_SEL 0 ≤ 1 → s.chip.rg R.TMG_STAT_STATE 0 = 3 → s.chip.rg R.TMG_STAT_EQX_ACTIVE 0 = 0 → ∃ u, exec (.steerUpdate t) s = .next u ∧ u.chip.tm.vigMs = s.chip.tm.vigMs + 1 ∧ u.chip.tm.r = 0 ∧ u.chip.tm.y0 = s.chip.vigilY0 ((s.chip.tm.vigMs + 1) / 1000) ∧ u.chip.rg R.TMG_STAT_STATE 0 = 3 ∧ u.chip.rg R.TMG_VIG_TIME_SEC 0 = min ((s.chip.tm.vigMs + 1) / 1000) (2 ^ R.TMG_VIG_TIME_SEC.width - 1)) ∧
  (∀ (t : Nat) (lo hi : Nat) (s : State), ready s → s.chip.domOn 1 = true → s.chip.rg R.TMG_STAT_OUT_VALID 0 = 1 → bit hi 30 = false → absI (sgn 48 (lo % 2 ^ 32 + hi % 65536 * 2 ^ 32)) ≤ 1000 → ∃ u, exec (.timeStep t false lo hi) s = .next u ∧ answered u stOk ∧ u.chip.lNow = (chipAt s t).lNow + sgn 48 (lo % 2 ^ 32 + hi % 65536 * 2 ^ 32) * 65536 ∧ u.chip.counter C.TMG_OUT_STEP 0 = (s.chip.counter C.TMG_OUT_STEP 0 + 1) % 2 ^ 48 ∧ u.chip.rg R.TMG_EVT_STEPPED 0 = 1 ∧ u.mem = s.mem) ∧
  (∀ (t : Nat) (lo hi : Nat) (s : State), ready s → s.chip.domOn 1 = true → ∃ u, exec (.timeStep t true lo hi) s = .next u ∧ answered u stRefused ∧ u.chip.tm = s.chip.tm ∧ u.chip.counter C.TMG_STEP_REFUSED 0 = (s.chip.counter C.TMG_STEP_REFUSED 0 + 1) % 2 ^ 48 ∧ u.chip.rg R.TMG_EVT_STEP_REFUSED 0 = 1 ∧ regsKept s u [R.TMG_EVT_STEP_REFUSED.key 0] ∧ u.mem = s.mem) ∧
  (∀ (t : Nat) (v : Nat) (s : State), ready s → s.chip.domOn 1 = true → 1 ≤ v % 65536 → v % 65536 ≤ s.chip.slewMax → ∃ u, exec (.slewWrite t false v) s = .next u ∧ answered u stOk ∧ u.chip.rg R.TMG_SLEW_SLEW 0 = v % 65536 ∧ kept s u [R.TMG_SLEW_SLEW.key 0]) ∧
  (∀ (t : Nat) (v : Nat) (s : State), ready s → s.chip.domOn 1 = true → ∃ u, exec (.slewWrite t true v) s = .next u ∧ answered u stRefused ∧ u.chip.counter C.TMG_SLEW_REFUSED 0 = (s.chip.counter C.TMG_SLEW_REFUSED 0 + 1) % 2 ^ 48 ∧ u.chip.rg R.TMG_EVT_SLEW_REFUSED 0 = 1 ∧ regsKept s u [R.TMG_EVT_SLEW_REFUSED.key 0] ∧ u.mem = s.mem) ∧
  (∀ (t : Nat) (s : State), ready s → ∃ u, exec (.tmgNsRead t) s = .next u ∧ u.chip.rg R.TMG_NS_NS 0 = nsOf (chipAt s t).lNow % 2 ^ R.TMG_NS_NS.width ∧ u.chip.rg R.TMG_FRAC_FRAC 0 = fracOf (chipAt s t).lNow % 2 ^ R.TMG_FRAC_FRAC.width ∧ u.chip.rg R.TMG_SEC_LO_SEC 0 = secOf (chipAt s t).lNow % 2 ^ 32 ∧ u.chip.rg R.TMG_SEC_HI_SEC 0 = secOf (chipAt s t).lNow / 2 ^ 32 ∧ newest u = some { kind := .readWord, unit := 0, data := [nsOf (chipAt s t).lNow % 2 ^ R.TMG_NS_NS.width], bytes := [] } ∧ kept s u [R.TMG_NS_NS.key 0, R.TMG_FRAC_FRAC.key 0, R.TMG_SEC_LO_SEC.key 0, R.TMG_SEC_HI_SEC.key 0, R.TMG_TS_NOW_TS_NS.key 0]) ∧
  (∀ (t : Nat) (rp rs dp ds : Nat) (s : State), ready s → s.chip.rg R.TMG_OSC_STAT_SECONDARY 0 < 3 → s.chip.rg R.TMG_OSC_STAT_PRIMARY 0 ≠ s.chip.rg R.TMG_OSC_STAT_SECONDARY 0 → s.chip.rg R.TMG_OSC_STAT_SPARE 0 ≤ 3 → 10 < rp → 2 ≤ Tab.get 0 s.chip.tm.oscRun (s.chip.rg R.TMG_OSC_STAT_PRIMARY 0) → s.chip.rg R.TMG_DOM_STAT_DSTATE 0 = 2 → ds ≤ dp → ∃ u, exec (.oscCheck t rp rs dp ds) s = .next u ∧ u.chip.rg R.TMG_OSC_STAT_PRIMARY 0 = s.chip.rg R.TMG_OSC_STAT_SECONDARY 0 ∧ u.chip.rg R.TMG_OSC_STAT_SECONDARY 0 = s.chip.rg R.TMG_OSC_STAT_SPARE 0 ∧ u.chip.rg R.TMG_OSC_STAT_SPARE 0 = 3 ∧ u.chip.rg R.TMG_EVT_OSC_FAULT 0 = 1 ∧ u.chip.rg R.HLT_SPARE_CHIP_OVEN 0 = 0 ∧ u.chip.rg R.TMG_VIG_STAT_LEARN_H 0 = 0 ∧ u.chip.counter C.TMG_OSC_FAULT 0 = (s.chip.counter C.TMG_OSC_FAULT 0 + 1) % 2 ^ 48) ∧
  (∀ (t : Nat) (s : State), ready s → s.chip.rg R.TMG_UTC_PENDING 0 = 1 → s.chip.rg R.TMG_UTC_DIR 0 = 0 → s.chip.rg R.TMG_LEAP_AT_LO_SEC 0 + s.chip.rg R.TMG_LEAP_AT_HI_SEC 0 * 2 ^ 32 ≤ secOf (chipAt s t).lNow → s.chip.rs R.TMG_UTC_OFFSET 0 < 32767 → ∃ u, exec (.leapApply t) s = .next u ∧ u.chip.rs R.TMG_UTC_OFFSET 0 = s.chip.rs R.TMG_UTC_OFFSET 0 + 1 ∧ u.chip.rg R.TMG_UTC_PENDING 0 = 0 ∧ u.chip.rg R.TMG_EVT_LEAP_DONE 0 = 1 ∧ kept s u [R.TMG_UTC_OFFSET.key 0, R.TMG_UTC_PENDING.key 0, R.TMG_EVT_LEAP_DONE.key 0])

/-- PPS_OUT edges, TOD messages, PTP Sync and ESMC frames: R295, R296, R298, R301. -/
def Obligations.TimeOutputCommands : Prop :=
  (∀ (t : Nat) (j : Fin 2) (sec : Nat) (s : State), ready s → s.chip.rg R.TMG_PPSOUT_CFG_EN j = 1 → (chipAt s t).squelched (s.chip.rg R.TMG_PPSOUT_CFG_SQ j) = false → s.chip.tm.timeVio = true → (chipAt s t).domOn 1 = true → (nearSec ((chipAt s t).lNow + (s.chip.rg R.TMG_PPSOUT_CFG_ADV j : Int) * 65536)).1 = sec → (nearSec ((chipAt s t).lNow + (s.chip.rg R.TMG_PPSOUT_CFG_ADV j : Int) * 65536)).2 ≤ 65536 → ∃ u, exec (.ppsOutEdge t j) s = .next u ∧ newest u = some { kind := .ppsEdge, unit := j, data := [sec, s.chip.rg R.TMG_PPSOUT_CFG_POL j, s.chip.rg R.TMG_PPSOUT_CFG_WIDTH j], bytes := [] } ∧ (j = 0 → u.chip.tm.ppsOutSec = some (sec, max s.chip.now t)) ∧ kept s u []) ∧
  (∀ (t : Nat) (sec a : Nat) (s : State), ready s → s.chip.tm.ppsOutSec = some (sec, a) → a + 100 * msPs ≤ max s.chip.now t → s.chip.rg R.TMG_OUT_CFG_TOD_EN 0 = 1 → s.chip.tm.timeVio = true → (chipAt s t).domOn 1 = true → ∃ u, exec (.todTxSend t) s = .next u ∧ newest u = some { kind := .todMsg, unit := 0, data := [sec], bytes := (chipAt s t).todMessage sec } ∧ u.chip.tm.ppsOutSec = none ∧ kept s u []) ∧
  (∀ (t : Nat) (p : Fin 128) (s : State), ready s → (chipAt s t).lineUp p = true → s.chip.rg R.PRT_STAT_LINK p = 2 → (chipAt s t).domOn 1 = true → (chipAt s t).lineBusy p = false → s.chip.rg R.PRT_LOOP_PRBS_GEN p = 0 → s.chip.rg R.PRT_SEC_CFG_SEC_EN p = 0 → s.chip.rg R.TMG_PTP_CFG_ROLE p = 1 → (chipAt s t).syncPast p ≤ 65536 → ∃ u, exec (.ptpSyncSend t p) s = .next u ∧ newest u = some { kind := .syncFrame, unit := p, data := [max s.chip.now t], bytes := ((chipAt s t).wg R.TMG_PTP_STAT_SEQ p (s.chip.rg R.TMG_PTP_STAT_SEQ p + 1)).syncFrame p ((chipAt s t).lAfter ((chipAt s t).lanePs p 64)) ++ fcsBytes (((chipAt s t).wg R.TMG_PTP_STAT_SEQ p (s.chip.rg R.TMG_PTP_STAT_SEQ p + 1)).syncFrame p ((chipAt s t).lAfter ((chipAt s t).lanePs p 64))) } ∧ u.chip.rg R.TMG_PTP_STAT_SEQ p = (s.chip.rg R.TMG_PTP_STAT_SEQ p + 1) % 2 ^ R.TMG_PTP_STAT_SEQ.width ∧ u.chip.counter C.TMG_SYNC_SENT 0 = (s.chip.counter C.TMG_SYNC_SENT 0 + 1) % 2 ^ 48 ∧ regsKept s u [R.TMG_PTP_STAT_SEQ.key p] ∧ u.mem = s.mem) ∧
  (∀ (t : Nat) (p : Fin 128) (s : State), ready s → (chipAt s t).lineUp p = true → s.chip.rg R.PRT_STAT_LINK p = 2 → (chipAt s t).domOn 1 = true → (chipAt s t).lineBusy p = false → s.chip.rg R.PRT_LOOP_PRBS_GEN p = 0 → s.chip.rg R.PRT_SEC_CFG_SEC_EN p = 0 → s.chip.rg R.TMG_PTP_CFG_ESMC_EN p = 1 → ∃ u, exec (.esmcInfoSend t p) s = .next u ∧ newest u = some { kind := .esmcPdu, unit := p, data := [max s.chip.now t], bytes := s.chip.esmcPdu p false ++ fcsBytes (s.chip.esmcPdu p false) } ∧ u.chip.counter C.TMG_ESMC_SENT 0 = (s.chip.counter C.TMG_ESMC_SENT 0 + 1) % 2 ^ 48 ∧ regsKept s u [] ∧ u.mem = s.mem) ∧
  (∀ (t : Nat) (p : Fin 128) (s : State), ready s → (chipAt s t).lineUp p = true → s.chip.rg R.PRT_STAT_LINK p = 2 → (chipAt s t).domOn 1 = true → (chipAt s t).lineBusy p = false → s.chip.rg R.PRT_LOOP_PRBS_GEN p = 0 → s.chip.rg R.PRT_SEC_CFG_SEC_EN p = 0 → s.chip.rg R.TMG_PTP_CFG_ESMC_EN p = 1 → bit s.chip.tm.esmcDue p = true → ∃ u, exec (.esmcEventSend t p) s = .next u ∧ newest u = some { kind := .esmcPdu, unit := p, data := [max s.chip.now t], bytes := s.chip.esmcPdu p true ++ fcsBytes (s.chip.esmcPdu p true) } ∧ bit u.chip.tm.esmcDue p = false ∧ u.chip.counter C.TMG_ESMC_SENT 0 = (s.chip.counter C.TMG_ESMC_SENT 0 + 1) % 2 ^ 48 ∧ regsKept s u [] ∧ u.mem = s.mem)

/-- The link of a local port: light, training, faults, configuration, loops: R306, R307, R315, R316, R317. -/
def Obligations.PortLinkCommands : Prop :=
  (∀ (t : Nat) (p : Fin 128) (s : State), ready s → s.chip.rg R.PRT_STAT_LINK p = 0 → s.chip.rg R.PRT_LOOP_LOOP p = 0 → (chipAt s t).portMay p = true → s.chip.pt.failAt.find p = none → ∃ u, exec (.portLightOn t p) s = .next u ∧ u.chip.rg R.PRT_STAT_LINK p = 1 ∧ bit u.chip.pt.lit p = true ∧ Tab.get 0 u.chip.pt.trainAt p = max s.chip.now t ∧ u.mem = s.mem) ∧
  (∀ (t : Nat) (p : Fin 128) (s : State), ready s → s.chip.rg R.PRT_STAT_LINK p = 1 → Tab.get 0 s.chip.pt.trainAt p + msPs ≤ max s.chip.now t → (chipAt s t).portMay p = true → s.chip.pt.ctlQ = [] → ∃ u, exec (.portTrainLocked t p) s = .next u ∧ u.chip.rg R.PRT_STAT_LINK p = 2 ∧ u.chip.rg R.PRT_STAT_LF p = 0 ∧ u.mem = s.mem) ∧
  (∀ (t : Nat) (p : Fin 128) (s : State), ready s → s.chip.rg R.PRT_STAT_LINK p = 1 → Tab.get 0 s.chip.pt.trainAt p + 100 * msPs ≤ max s.chip.now t → ∃ u, exec (.portTrainTimeout t p) s = .next u ∧ u.chip.rg R.PRT_STAT_LINK p = 0 ∧ u.chip.pt.failAt.find p = some (max s.chip.now t) ∧ u.mem = s.mem) ∧
  (∀ (t : Nat) (p : Fin 128) (a : Nat) (s : State), ready s → s.chip.pt.failAt.find p = some a → a + 10 * msPs ≤ max s.chip.now t → s.chip.rg R.PRT_STAT_LINK p = 0 → s.chip.rg R.PRT_LOOP_LOOP p = 0 → bit s.chip.pt.lit p = true → (chipAt s t).portMay p = true → ∃ u, exec (.portRetrainDelay t p) s = .next u ∧ u.chip.rg R.PRT_STAT_LINK p = 1 ∧ u.chip.pt.failAt.find p = none ∧ Tab.get 0 u.chip.pt.trainAt p = max s.chip.now t ∧ u.mem = s.mem) ∧
  (∀ (t : Nat) (p : Fin 128) (lf : Bool) (s : State), ready s → s.chip.rg R.PRT_STAT_LINK p = 2 → s.chip.rg R.PRT_LOOP_LOOP p = 0 → ∃ u, exec (.portLinkFault t p false lf) s = .next u ∧ u.chip.rg R.PRT_STAT_LINK p = 0 ∧ bit u.chip.pt.lit p = false ∧ (lf = true → u.chip.rg R.PRT_STAT_LF p = 1 ∧ u.chip.rg R.PRT_EVT_FAULT p = 1) ∧ u.mem = s.mem) ∧
  (∀ (t : Nat) (p : Fin 128) (s : State), ready s → s.chip.rg R.PRT_STAT_LINK p = 2 → s.chip.rg R.PRT_STAT_RF p = 0 → ∃ u, exec (.remoteFault t p true) s = .next u ∧ u.chip.rg R.PRT_STAT_RF p = 1 ∧ u.chip.rg R.PRT_EVT_FAULT p = 1 ∧ kept s u [R.PRT_STAT_RF.key p, R.PRT_EVT_FAULT.key p]) ∧
  (∀ (t : Nat) (p : Fin 128) (s : State), ready s → s.chip.rg R.PRT_STAT_LINK p = 2 → s.chip.pt.ctlQ = [] → ∃ u, exec (.remoteFault t p false) s = .next u ∧ u.chip.rg R.PRT_STAT_RF p = 0 ∧ kept s u [R.PRT_STAT_RF.key p]) ∧
  (∀ (t : Nat) (p : Fin 128) (v : Nat) (s : State), ready s → s.chip.domOn (9 + p.val / 32) = true → bit v 4 = true → bits v 8 2 ≠ 3 → 1 ≤ bits v 16 10 → bits v 16 10 ≤ 1000 → ∃ u, exec (.portAdminDown t p v) s = .next u ∧ answered u stOk ∧ u.chip.rg R.PRT_CFG_ADMIN_DOWN p = 1 ∧ u.chip.rg R.PRT_CFG_IDLE_EN p = bits v 10 1 ∧ u.chip.rg R.PRT_CFG_EVT_EN p = bits v 11 1 ∧ u.chip.rg R.PRT_CFG_RX_PAUSE p = bits v 8 2 ∧ u.chip.rg R.PRT_CFG_FLUSH_TO p = bits v 16 10 ∧ u.chip.rg R.PRT_STAT_LINK p = 0 ∧ u.mem = s.mem) ∧
  (∀ (t : Nat) (p : Fin 128) (a : Nat) (x : QFrame) (s : State), ready s → s.chip.pt.flushAt = [(p.val, a)] → a + s.chip.rg R.PRT_CFG_FLUSH_TO p * msPs ≤ max s.chip.now t → s.chip.qs.frames = [x] → s.chip.rg R.SCH_Q_CFG_DIR x.q = 0 → s.chip.rg R.SCH_Q_CFG_PORT x.q = p → x.at_ ≤ a → x.f.origin ≠ 0 → ∃ u, exec (.portFlushTimeout t p) s = .next u ∧ u.chip.qs.frames = [] ∧ u.chip.pt.flushAt = [] ∧ u.chip.counter C.PRT_TX_FLUSH p = (s.chip.counter C.PRT_TX_FLUSH p + 1) % 2 ^ 48 ∧ u.mem = s.mem) ∧
  (∀ (t : Nat) (p : Fin 128) (s : State), ready s → s.chip.rg R.PRT_STAT_LINK p = 2 → s.chip.rg R.PRT_CFG_IDLE_EN p = 1 → bit s.chip.pt.lit p = true → s.chip.qs.frames = [] → s.chip.pt.ctlQ = [] → Tab.get 0 s.chip.pt.busyAt p + s.chip.rg R.PRT_IDLE_CFG_HOLD p * usPs ≤ max s.chip.now t → ∃ u, exec (.idleEnter t p) s = .next u ∧ u.chip.rg R.PRT_STAT_LINK p = 3 ∧ u.chip.rg R.PRT_STAT_RX_IDLE p = 1 ∧ u.chip.rg R.PRT_EVT_LINK_CHG p = 1 ∧ u.chip.counter C.PRT_IDLE_ENTRY p = (s.chip.counter C.PRT_IDLE_ENTRY p + 1) % 2 ^ 48 ∧ u.mem = s.mem) ∧
  (∀ (t : Nat) (p : Fin 128) (s : State), ready s → (chipAt s t).txIdle p = true → s.chip.rg R.PRT_STAT_LINK p = 3 → ∃ u, exec (.wakeBurstSend t p true) s = .next u ∧ u.chip.rg R.PRT_STAT_RX_IDLE p = 0 ∧ newest u = some { kind := .wakeBurst, unit := p, data := [1024], bytes := [] } ∧ Tab.get 0 u.chip.pt.wakeAt p = max s.chip.now t ∧ kept s u [R.PRT_STAT_RX_IDLE.key p]) ∧
  (∀ (t : Nat) (p : Fin 128) (a : Nat) (s : State), ready s → s.chip.pt.wakeAt.find p = some a → s.chip.rg R.PRT_STAT_LINK p = 3 → max s.chip.now t ≤ a + usPs → s.chip.pt.ctlQ = [] → ∃ u, exec (.wakeLocked t p) s = .next u ∧ u.chip.rg R.PRT_STAT_LINK p = 2 ∧ u.chip.rg R.PRT_STAT_RX_IDLE p = 0 ∧ u.chip.pt.wakeAt.find p = none ∧ u.mem = s.mem) ∧
  (∀ (t : Nat) (p : Fin 128) (a : Nat) (s : State), ready s → s.chip.pt.wakeAt.find p = some a → s.chip.rg R.PRT_STAT_LINK p = 3 → a + usPs ≤ max s.chip.now t → ∃ u, exec (.wakeFail t p) s = .next u ∧ u.chip.rg R.PRT_STAT_LINK p = 1 ∧ u.chip.rg R.PRT_EVT_WAKE_FAIL p = 1 ∧ u.chip.pt.wakeAt.find p = none ∧ u.chip.counter C.PRT_WAKE_FAIL p = (s.chip.counter C.PRT_WAKE_FAIL p + 1) % 2 ^ 48 ∧ u.mem = s.mem) ∧
  (∀ (t : Nat) (p : Fin 128) (v : Nat) (s : State), ready s → s.chip.domOn (9 + p.val / 32) = true → s.chip.mode = 9 → bits v 0 2 = 2 → (chipAt s t).portMay p = true → s.chip.rg R.PRT_STAT_LINK p = 2 → ∃ u, exec (.loopSet t p v) s = .next u ∧ answered u stOk ∧ u.chip.rg R.PRT_LOOP_LOOP p = 2 ∧ u.chip.rg R.PRT_LOOP_PRBS_GEN p = bits v 4 1 ∧ u.chip.rg R.PRT_LOOP_PRBS_CHK p = bits v 5 1 ∧ u.chip.rg R.PRT_LOOP_PRBS_LOCK p = b2n (bit v 4 && bit v 5) ∧ u.chip.rg R.PRT_STAT_LINK p = 4 ∧ u.mem = s.mem) ∧
  (∀ (t : Nat) (p : Fin 128) (v : Nat) (s : State), ready s → s.chip.domOn (9 + p.val / 32) = true → s.chip.mode ≠ 9 → ∃ u, exec (.loopSet t p v) s = .next u ∧ answered u stRefused ∧ kept s u [])

/-- Frames received on a local port, pauses and their watchdog: R180, R305, R308, R309, R310, R319. -/
def Obligations.PortFrameCommands : Prop :=
  (∀ (t : Nat) (p : Fin 128) (l : List Byte) (s : State), ready s → s.chip.rg R.PRT_STAT_LINK p = 2 → beAt l 12 2 ≠ 0x8808 → s.chip.rg R.PRT_SEC_CFG_SEC_EN p = 0 → 60 ≤ l.length → l.length + 4 ≤ s.chip.maxFrame → s.chip.fifoOver 0 p none l.length = false → s.chip.stampRoom 0 p = true → s.chip.cellRole (s.chip.portBlk p) (s.chip.slotCell (s.chip.portBlk p) (s.chip.portSlot p)) ≠ 3 → ∃ u, exec (.localFrameRx t p l true true true) s = .next u ∧ u.chip.counter C.PRT_RX_FRAMES p = (s.chip.counter C.PRT_RX_FRAMES p + 1) % 2 ^ 48 ∧ u.chip.counter C.PRT_RX_BYTES p = (s.chip.counter C.PRT_RX_BYTES p + (l.length + 4)) % 2 ^ 48 ∧ u.chip.pp.waiting.map (fun f => (f.id, f.bytes, f.len)) = s.chip.pp.waiting.map (fun f => (f.id, f.bytes, f.len)) ++ [(s.chip.pp.nextId, l, l.length + 4)] ∧ (∀ f ∈ u.chip.pp.waiting.getLast?, f.known = true ∧ f.origin = 0 ∧ f.src = p ∧ f.blk = s.chip.portBlk p ∧ f.entry = true ∧ f.tsOk = true) ∧ u.chip.rg R.PRT_STAT_RX_IDLE p = 0 ∧ regsKept s u [R.PRT_STAT_RX_IDLE.key p] ∧ u.mem = s.mem) ∧
  (∀ (t : Nat) (p : Fin 128) (l : List Byte) (s : State), ready s → s.chip.rg R.PRT_STAT_LINK p = 2 → beAt l 12 2 ≠ 0x8808 → ∃ u, exec (.localFrameRx t p l true true false) s = .next u ∧ u.chip.counter C.PRT_RX_FCS_ERR p = (s.chip.counter C.PRT_RX_FCS_ERR p + 1) % 2 ^ 48 ∧ u.chip.pp = s.chip.pp ∧ regsKept s u [R.PRT_STAT_RX_IDLE.key p] ∧ u.mem = s.mem) ∧
  (∀ (t : Nat) (p : Fin 129) (l : List Byte) (s : State), ready s → p.val < 128 → s.chip.rg R.PRT_STAT_LINK p = 2 → s.chip.rg R.PRT_CFG_RX_PAUSE p = 1 → beAt l 0 6 = 0x0180C2000001 → beAt l 12 2 = 0x8808 → beAt l 14 2 = 1 → 0 < beAt l 16 2 → s.chip.pt.releaseEnd = [] → ∃ u, exec (.pauseFrameRx t p l true) s = .next u ∧ (∀ k : Fin 8, u.chip.pt.pauseEnd.find (pauseKey p k) = some (max s.chip.now t + (chipAt s t).lanePs p (512 * beAt l 16 2))) ∧ u.chip.rg R.PRT_STAT_PAUSED p = 0xFF ∧ u.chip.counter C.PRT_RX_PAUSE p = (s.chip.counter C.PRT_RX_PAUSE p + 1) % 2 ^ 48 ∧ u.chip.counter C.PRT_RX_FRAMES p = (s.chip.counter C.PRT_RX_FRAMES p + 1) % 2 ^ 48 ∧ regsKept s u [R.PRT_STAT_PAUSED.key p, R.PRT_STAT_WD_REL.key p, R.PRT_STAT_RX_IDLE.key p] ∧ u.mem = s.mem) ∧
  (∀ (t : Nat) (p : Fin 129) (k : Fin 8) (e : Nat) (s : State), ready s → s.chip.hp.txWait = [] → s.chip.pt.pauseEnd.find (pauseKey p k) = some e → e ≤ max s.chip.now t → ∃ u, exec (.pauseExpire t p k) s = .next u ∧ u.chip.pt.pauseEnd.find (pauseKey p k) = none ∧ u.chip.pt.pauseAt.find (pauseKey p k) = none ∧ (p.val < 128 → bit (u.chip.rg R.PRT_STAT_PAUSED p) k = false) ∧ u.chip.cnt = s.chip.cnt ∧ u.mem = s.mem ∧ regsKept s u [R.PRT_STAT_PAUSED.key p, R.PRT_STAT_WD_REL.key p, R.HST_STAT_PAUSED.key 0]) ∧
  (∀ (t : Nat) (p : Fin 129) (k : Fin 8) (e a : Nat) (s : State), ready s → p.val < 128 → s.chip.pt.pauseEnd.find (pauseKey p k) = some e → s.chip.pt.pauseAt.find (pauseKey p k) = some a → a + s.chip.rg R.PRT_PAUSE_CFG_WD p * msPs ≤ max s.chip.now t → max s.chip.now t ≤ e → ∃ u, exec (.pauseWdExpire t p k) s = .next u ∧ u.chip.pt.pauseEnd.find (pauseKey p k) = none ∧ u.chip.pt.releaseEnd.find (pauseKey p k) = some (max s.chip.now t + s.chip.rg R.PRT_PAUSE_CFG_RELEASE p * 100 * msPs) ∧ bit (u.chip.rg R.PRT_STAT_PAUSED p) k = false ∧ bit (u.chip.rg R.PRT_STAT_WD_REL p) k = true ∧ u.chip.rg R.PRT_EVT_PAUSE_WD p = 1 ∧ u.chip.counter C.PRT_PAUSE_WD p = (s.chip.counter C.PRT_PAUSE_WD p + 1) % 2 ^ 48 ∧ u.mem = s.mem) ∧
  (∀ (t : Nat) (p : Fin 129) (k : Fin 8) (e : Nat) (s : State), ready s → s.chip.pt.releaseEnd.find (pauseKey p k) = some e → e ≤ max s.chip.now t → ∃ u, exec (.pauseReleaseEnd t p k) s = .next u ∧ u.chip.pt.releaseEnd.find (pauseKey p k) = none ∧ (p.val < 128 → bit (u.chip.rg R.PRT_STAT_WD_REL p) k = false) ∧ u.chip.cnt = s.chip.cnt ∧ u.mem = s.mem ∧ regsKept s u [R.PRT_STAT_PAUSED.key p, R.PRT_STAT_WD_REL.key p, R.HST_STAT_PAUSED.key 0])

/-- The lanes of the host port: R318, R319, R320. -/
def Obligations.HostPortCommands : Prop :=
  (∀ (t : Nat) (v : Nat) (s : State), ready s → s.chip.domOn 5 = true → ∃ u, exec (.hostLaneCfg t v) s = .next u ∧ answered u stOk ∧ u.chip.pt.lane = some (v, max s.chip.now t + msPs) ∧ kept s u []) ∧
  (∀ (t : Nat) (v a : Nat) (s : State), ready s → s.chip.pt.lane = some (v, a) → a ≤ max s.chip.now t → bits v 0 2 ≠ 3 → ∃ u, exec (.hostLaneApply t) s = .next u ∧ u.chip.pt.lane = none ∧ u.chip.rg R.HST_LANE_CFG_MODE 0 = bits v 0 2 ∧ u.chip.rg R.HST_LANE_CFG_FEC_EN 0 = bits v 2 1 ∧ u.chip.rg R.HST_LANE_CFG_SSC 0 = bits v 3 1 ∧ u.chip.rg R.HST_LANE_CFG_TX_INV 0 = bits v 4 4 ∧ u.chip.rg R.HST_LANE_CFG_RX_INV 0 = bits v 8 4 ∧ u.chip.rg R.HST_LANE_CFG_RX_MAP 0 = bits v 12 8 ∧ u.chip.rg R.HST_STAT_LINK 0 = 1 ∧ u.chip.rg R.HST_STAT_MODE_ACT 0 = (if bits v 0 2 = 1 then 1 else 2) ∧ u.chip.pt.hostAt = max s.chip.now t ∧ u.mem = s.mem) ∧
  (∀ (t : Nat) (s : State), ready s → s.chip.rg R.HST_STAT_LINK 0 = 0 → (chipAt s t).domOn 5 = true → ∃ u, exec (.hostModeAlternate t) s = .next u ∧ u.chip.rg R.HST_STAT_LINK 0 = 1 ∧ u.chip.rg R.HST_STAT_MODE_ACT 0 = (if s.chip.rg R.HST_LANE_CFG_MODE 0 = 1 then 1 else 2) ∧ u.chip.pt.hostAt = max s.chip.now t ∧ kept s u [R.HST_STAT_LINK.key 0, R.HST_STAT_MODE_ACT.key 0]) ∧
  (∀ (t : Nat) (s : State), ready s → s.chip.rg R.HST_LANE_CFG_MODE 0 = 0 → s.chip.rg R.HST_STAT_LINK 0 = 1 → s.chip.pt.hostAt + 50 * msPs ≤ max s.chip.now t → ∃ u, exec (.hostModeAlternate t) s = .next u ∧ u.chip.rg R.HST_STAT_MODE_ACT 0 = (3 - s.chip.rg R.HST_STAT_MODE_ACT 0) % 2 ^ R.HST_STAT_MODE_ACT.width ∧ u.chip.pt.hostAt = max s.chip.now t ∧ kept s u [R.HST_STAT_MODE_ACT.key 0]) ∧
  (∀ (t : Nat) (s : State), ready s → s.chip.hp.txWait = [] → s.chip.rg R.HST_STAT_LINK 0 = 1 → s.chip.pt.hostAt + msPs ≤ max s.chip.now t → (chipAt s t).domOn 5 = true → ∃ u, exec (.hostBlockLock t) s = .next u ∧ u.chip.rg R.HST_STAT_LINK 0 = 2 ∧ kept s u [R.HST_STAT_LINK.key 0]) ∧
  (∀ (t : Nat) (s : State), ready s → s.chip.rg R.HST_STAT_LINK 0 = 2 → ∃ u, exec (.hostLinkDown t) s = .next u ∧ u.chip.rg R.HST_STAT_LINK 0 = 1 ∧ u.chip.counter C.HST_LINK_DOWN 0 = (s.chip.counter C.HST_LINK_DOWN 0 + 1) % 2 ^ 48 ∧ u.chip.pt.hostAt = max s.chip.now t ∧ regsKept s u [R.HST_STAT_LINK.key 0] ∧ u.mem = s.mem) ∧
  (∀ (t : Nat) (det : Bool) (ofs : Int) (s : State), ready s → -128 ≤ ofs → ofs ≤ 127 → ∃ u, exec (.sscDetect t det ofs) s = .next u ∧ u.chip.rg R.HST_STAT_SSC_DET 0 = b2n det ∧ u.chip.rs R.HST_STAT_REFCLK_OFS 0 = ofs ∧ u.chip.rg R.HST_STAT_SSC_MISMATCH 0 = b2n (det != s.chip.rb R.HST_LANE_CFG_SSC 0) ∧ kept s u [R.HST_STAT_SSC_DET.key 0, R.HST_STAT_REFCLK_OFS.key 0, R.HST_STAT_SSC_MISMATCH.key 0])

/-- Transmission on the sensor bus: frames, backoff, jabber, the duty bound, polls: R322, R323, R324, R326. -/
def Obligations.SensorBusSendCommands : Prop :=
  (∀ (t : Nat) (x : SbusTx) (r : List SbusTx) (s : State), ready s → s.chip.rg R.SBS_CFG_EN 0 = 1 → (chipAt s t).domOn 2 = true → s.chip.pt.sbTx = x :: r → x.start = none → s.chip.pt.sbHist = [] → x.attempt = 0 → x.held = false → sbusPs x.bytes.length ≤ s.chip.dutyMax * msPs → ∃ u, exec (.sbusFrameTx t none false) s = .next u ∧ u.chip.pt.sbTx = r ∧ newest u = some { kind := .sbusFrame, unit := 0, data := [], bytes := x.bytes } ∧ u.chip.counter C.SBS_TX_FRAMES 0 = (s.chip.counter C.SBS_TX_FRAMES 0 + 1) % 2 ^ 48 ∧ u.chip.pt.sbHist = [(max s.chip.now t, max s.chip.now t + sbusPs x.bytes.length)] ∧ regsKept s u [] ∧ u.mem = s.mem) ∧
  (∀ (t : Nat) (a : Nat) (runs : Bool) (x : SbusTx) (r : List SbusTx) (s : State), ready s → s.chip.rg R.SBS_CFG_EN 0 = 1 → (chipAt s t).domOn 2 = true → s.chip.pt.sbTx = x :: r → x.start = none → s.chip.pt.sbHist = [] → x.attempt = 0 → x.held = false → sbusPs x.bytes.length ≤ s.chip.dutyMax * msPs → ∃ u, exec (.sbusFrameTx t (some a) runs) s = .next u ∧ u.chip.counter C.SBS_COLLISIONS 0 = (s.chip.counter C.SBS_COLLISIONS 0 + 1) % 2 ^ 48 ∧ u.chip.pt.sbTx.map (fun y => (y.bytes, y.attempt)) = (x.bytes, 1) :: r.map (fun y => (y.bytes, y.attempt)) ∧ (∀ y ∈ u.chip.pt.sbTx.head?, y.backoff = max s.chip.now t + min a (sbusPs x.bytes.length) + 3200000 ∨ y.backoff = max s.chip.now t + min a (sbusPs x.bytes.length) + 3200000 + sbusSlot) ∧ regsKept s u [] ∧ u.mem = s.mem) ∧
  (∀ (t : Nat) (x : SbusTx) (r : List SbusTx) (a b : Nat) (s : State), ready s → s.chip.rg R.SBS_CFG_EN 0 = 1 → (chipAt s t).domOn 2 = true → s.chip.pt.sbTx = x :: r → x.start = none → s.chip.pt.sbHist = [(a, b)] → x.attempt = 0 → x.held = false → b ≤ max s.chip.now t → max s.chip.now t + sbusPs x.bytes.length ≤ 100 * msPs → s.chip.dutyMax * msPs < b - a + sbusPs x.bytes.length → ∃ u, exec (.sbusFrameTx t none false) s = .next u ∧ u.chip.pt.sbTx = { x with held := true } :: r ∧ u.chip.counter C.SBS_GUARD_HELD 0 = (s.chip.counter C.SBS_GUARD_HELD 0 + 1) % 2 ^ 48 ∧ u.chip.rg R.SBS_EVT_GUARD_HELD 0 = 1 ∧ regsKept s u [R.SBS_EVT_GUARD_HELD.key 0] ∧ u.mem = s.mem) ∧
  (∀ (t : Nat) (x : SbusTx) (r : List SbusTx) (s : State), ready s → s.chip.rg R.SBS_CFG_EN 0 = 1 → (chipAt s t).domOn 2 = true → s.chip.pt.sbTx = x :: r → x.start = none → s.chip.pt.sbHist = [] → 0 < x.attempt → x.held = false → x.backoff ≤ max s.chip.now t → sbusPs x.bytes.length ≤ s.chip.dutyMax * msPs → ∃ u, exec (.sbusBackoffEnd t none false) s = .next u ∧ u.chip.pt.sbTx = r ∧ newest u = some { kind := .sbusFrame, unit := 0, data := [], bytes := x.bytes } ∧ u.chip.counter C.SBS_TX_FRAMES 0 = (s.chip.counter C.SBS_TX_FRAMES 0 + 1) % 2 ^ 48 ∧ u.chip.pt.sbHist = [(max s.chip.now t, max s.chip.now t + sbusPs x.bytes.length)] ∧ regsKept s u [] ∧ u.mem = s.mem) ∧
  (∀ (t : Nat) (x : SbusTx) (r : List SbusTx) (s : State), ready s → s.chip.rg R.SBS_CFG_EN 0 = 1 → (chipAt s t).domOn 2 = true → s.chip.pt.sbTx = x :: r → x.start = none → s.chip.pt.sbHist = [] → x.held = true → sbusPs x.bytes.length ≤ s.chip.dutyMax * msPs → ∃ u, exec (.sbusGuardRelease t none false) s = .next u ∧ u.chip.pt.sbTx = r ∧ newest u = some { kind := .sbusFrame, unit := 0, data := [], bytes := x.bytes } ∧ u.chip.counter C.SBS_TX_FRAMES 0 = (s.chip.counter C.SBS_TX_FRAMES 0 + 1) % 2 ^ 48 ∧ u.chip.pt.sbHist = [(max s.chip.now t, max s.chip.now t + sbusPs x.bytes.length)] ∧ regsKept s u [] ∧ u.mem = s.mem) ∧
  (∀ (t : Nat) (x : SbusTx) (r : List SbusTx) (a : Nat) (s : State), ready s → s.chip.pt.sbTx = x :: r → x.start = some a → a + 2 * msPs ≤ max s.chip.now t → ∃ u, exec (.sbusJabber t) s = .next u ∧ u.chip.pt.sbTx = r ∧ u.chip.counter C.SBS_JABBER 0 = (s.chip.counter C.SBS_JABBER 0 + 1) % 2 ^ 48 ∧ u.chip.pt.sbHist = s.chip.pt.sbHist ++ [(a, max s.chip.now t)] ∧ regsKept s u [] ∧ u.mem = s.mem) ∧
  (∀ (t : Nat) (e : Fin 64) (s : State), ready s → s.chip.rg R.SBS_CFG_EN 0 = 1 → (chipAt s t).domOn 2 = true → s.chip.rg R.SBS_POLL_CFG_EN e = 1 → Tab.get 0 s.chip.pt.pollDue e ≤ max s.chip.now t → ∃ u, exec (.sbusPollSend t e) s = .next u ∧ u.chip.rg R.SBS_POLL_STAT_SEQ e = (s.chip.rg R.SBS_POLL_STAT_SEQ e + 1) % 65536 ∧ u.chip.counter C.SBS_POLL_SENT 0 = (s.chip.counter C.SBS_POLL_SENT 0 + 1) % 2 ^ 48 ∧ u.chip.pt.sbTx.map (fun y => y.bytes) = s.chip.pt.sbTx.map (fun y => y.bytes) ++ [framed (beBytes 6 (s.chip.pollDa e) ++ beBytes 6 s.chip.sbusMac ++ beBytes 2 0x88B6 ++ beBytes 1 0x41 ++ beBytes 1 0 ++ beBytes 2 ((s.chip.rg R.SBS_POLL_STAT_SEQ e + 1) % 65536) ++ beBytes 2 16 ++ (List.range 4).flatMap (fun w => beBytes 4 (s.chip.rg R.SBS_POLL_BODY_BYTES (8 * e + w))))] ∧ u.chip.pt.polls = s.chip.pt.polls ++ [{ entry := e, seq := (s.chip.rg R.SBS_POLL_STAT_SEQ e + 1) % 65536, sent := max s.chip.now t, left := s.chip.rg R.SBS_POLL_CFG_RETRY e, tmo := s.chip.rg R.SBS_POLL_CFG_TIMEOUT e * msPs }] ∧ Tab.get 0 u.chip.pt.pollDue e = max s.chip.now t + s.chip.rg R.SBS_POLL_CFG_INTERVAL e * 10 * msPs ∧ regsKept s u [R.SBS_POLL_STAT_SEQ.key e] ∧ u.mem = s.mem) ∧
  (∀ (t : Nat) (e : Fin 64) (p : Poll) (s : State), ready s → s.chip.pt.polls = [p] → p.entry = e → p.left = 0 → p.sent + p.tmo ≤ max s.chip.now t → ∃ u, exec (.sbusPollTimeout t e) s = .next u ∧ u.chip.counter C.SBS_POLL_MISS 0 = (s.chip.counter C.SBS_POLL_MISS 0 + 1) % 2 ^ 48 ∧ u.chip.rg R.SBS_POLL_STAT_LOST e = 1 ∧ u.chip.rg R.SBS_EVT_POLL_LOST 0 = 1 ∧ u.chip.pt.polls = [] ∧ regsKept s u [R.SBS_POLL_STAT_LOST.key e, R.SBS_EVT_POLL_LOST.key 0] ∧ u.mem = s.mem)

/-- Frames received on the sensor bus: replies, alarms, others: R324, R325, R365. -/
def Obligations.SensorBusReceiveCommands : Prop :=
  (∀ (t : Nat) (l : List Byte) (e : Fin 64) (p : Poll) (s : State), ready s → (chipAt s t).sbusMine l = true → 60 ≤ l.length → l.length ≤ 1514 → s.chip.wqFree 32 = false → s.chip.sbusFrom l = [e.val] → sbusType l = 0x42 → s.chip.pt.polls = [p] → p.entry = e → p.seq = beAt l 16 2 → ∃ u, exec (.sbusReply t l true) s = .next u ∧ u.chip.pt.polls = [] ∧ u.chip.rg R.SBS_POLL_STAT_LOST e = 0 ∧ regsKept s u [R.SBS_POLL_STAT_LOST.key e] ∧ u.chip.counter C.SBS_RX_FRAMES 0 = (s.chip.counter C.SBS_RX_FRAMES 0 + 1) % 2 ^ 48 ∧ u.chip.counter C.SBS_SBS_QFULL 0 = (s.chip.counter C.SBS_SBS_QFULL 0 + 1) % 2 ^ 48 ∧ u.mem = s.mem) ∧
  (∀ (t : Nat) (l : List Byte) (e : Fin 64) (s : State), ready s → (chipAt s t).sbusMine l = true → 60 ≤ l.length → l.length ≤ 1514 → s.chip.wqFree 32 = false → s.chip.sbusFrom l = [e.val] → sbusType l = 0x43 → bit (byteAt l 15) 0 = true → s.chip.rbit (alarmFld e) 0 (e % 32) = false → s.chip.rbit (maskFld e) 0 (e % 32) = false → s.chip.pt.almAt.find e = none → ∃ u, exec (.sbusAlarm t l true) s = .next u ∧ u.chip.rbit (alarmFld e) 0 (e % 32) = true ∧ u.chip.rg R.SBS_EVT_ALARM 0 = 1 ∧ u.chip.counter C.SBS_ALARM_EVENTS 0 = (s.chip.counter C.SBS_ALARM_EVENTS 0 + 1) % 2 ^ 48 ∧ u.chip.pt.almAt.find e = some (max s.chip.now t) ∧ u.chip.pt.almOn.find e = some (max s.chip.now t) ∧ regsKept s u [(alarmFld e).key 0, R.SBS_EVT_ALARM.key 0] ∧ u.chip.counter C.SBS_RX_FRAMES 0 = (s.chip.counter C.SBS_RX_FRAMES 0 + 1) % 2 ^ 48 ∧ u.chip.counter C.SBS_SBS_QFULL 0 = (s.chip.counter C.SBS_SBS_QFULL 0 + 1) % 2 ^ 48 ∧ u.mem = s.mem) ∧
  (∀ (t : Nat) (l : List Byte) (e : Fin 64) (s : State), ready s → (chipAt s t).sbusMine l = true → 60 ≤ l.length → l.length ≤ 1514 → s.chip.wqFree 32 = false → s.chip.sbusFrom l = [e.val] → sbusType l ≠ 0x42 → sbusType l ≠ 0x43 → ∃ u, exec (.sbusFrameRx t l true) s = .next u ∧ u.chip.counter C.SBS_RX_FRAMES 0 = (s.chip.counter C.SBS_RX_FRAMES 0 + 1) % 2 ^ 48 ∧ u.chip.counter C.SBS_SBS_QFULL 0 = (s.chip.counter C.SBS_SBS_QFULL 0 + 1) % 2 ^ 48 ∧ u.mem = s.mem ∧ regsKept s u []) ∧
  (∀ (t : Nat) (l : List Byte) (s : State), ready s → (chipAt s t).sbusMine l = true → 60 ≤ l.length → l.length ≤ 1514 → sbusType l ≠ 0x42 → sbusType l ≠ 0x43 → ∃ u, exec (.sbusFrameRx t l false) s = .next u ∧ u.chip.counter C.SBS_RX_FCS_ERR 0 = (s.chip.counter C.SBS_RX_FCS_ERR 0 + 1) % 2 ^ 48 ∧ regsKept s u [] ∧ u.mem = s.mem) ∧
  (∀ (t : Nat) (e : Fin 64) (a : Nat) (s : State), ready s → s.chip.pt.almOn.find e = some a → a + s.chip.rg R.SBS_CFG_STUCK 0 * secPs ≤ max s.chip.now t → s.chip.rbit (maskFld e) 0 (e % 32) = false → ∃ u, exec (.sbusAlarmStuck t e) s = .next u ∧ u.chip.rbit (maskFld e) 0 (e % 32) = true ∧ u.chip.rg R.SBS_EVT_ALARM_STUCK 0 = 1 ∧ kept s u [(maskFld e).key 0, R.SBS_EVT_ALARM_STUCK.key 0])

/-- ZCP sessions: OPEN, CONFIRM, KEEPALIVE, CLOSE, timeouts, RESET: R330, R331, R334, R336, R344, R388. -/
def Obligations.SessionCommands : Prop :=
  (∀ (t : Nat) (l : List Byte) (k : Nat) (role : Nat × Nat) (s : State), ready s → (chipAt s t).hostClear = true → s.chip.hp.txWait = [] → 60 ≤ l.length → l.length ≤ 16380 → beAt l 12 2 = 0x88B5 → zcpForm 0 l = true → (zcpClearMsg l).typ = 0x80 → (zcpClearMsg l).body.length = 4192 → (chipAt s t).noSessions = false → s.chip.hp.opens = [] → (List.range 4).find? (fun s0 => decide (s.chip.rg R.HST_SESS_STAT_STATE s0 = 0)) = some k → s.chip.roleFor ((zcpClearMsg l).body.take 2592) = some role → ∃ u, exec (.zcpOpen t l) s = .next u ∧ u.chip.rg R.HST_SESS_STAT_STATE k = 1 ∧ u.chip.rg R.HST_SESS_STAT_ROLE k = role.1 % 2 ^ R.HST_SESS_STAT_ROLE.width ∧ u.chip.rg R.HST_SESS_CFG_EVT_SUB k = 1 ∧ u.chip.rg R.HST_SESS_CFG_SP_SUB k = 0 ∧ (u.chip.sess k).rights = role.2 ∧ (u.chip.sess k).hostKey = (zcpClearMsg l).body.take 2592 ∧ (u.chip.sess k).peer = beAt l 6 6 ∧ (newest u).map (fun o => (o.kind, o.unit, o.data)) = some (.zcpClear, k, [0x81]) ∧ regsKept s u [R.HST_SESS_STAT_STATE.key k, R.HST_SESS_STAT_ROLE.key k, R.HST_SESS_CFG_EVT_SUB.key k, R.HST_SESS_CFG_SP_SUB.key k] ∧ u.mem = s.mem) ∧
  (∀ (t : Nat) (l : List Byte) (k : Fin 4) (s : State), ready s → (chipAt s t).hostClear = true → s.chip.hp.txWait = [] → 60 ≤ l.length → l.length ≤ 16380 → beAt l 12 2 = 0x88B5 → zcpForm 0 l = true → (zcpClearMsg l).typ = 0x82 → (zcpClearMsg l).body.length = 4628 → zcpSess l = k → s.chip.rg R.HST_SESS_STAT_STATE k = 1 → ∃ u, exec (.zcpConfirm t l) s = .next u ∧ u.chip.rg R.HST_SESS_STAT_STATE k = (if (s.chip.sess k).sigOk (zcpClearMsg l).body then 2 else 0) ∧ ((s.chip.sess k).sigOk (zcpClearMsg l).body = true → (u.chip.sess k).lastRx = max s.chip.now t ∧ newest u = some (s.chip.zcpOutput k 0x84 1 0 stOk 0xFFFF 0 [])) ∧ ((s.chip.sess k).sigOk (zcpClearMsg l).body = false → newest u = some { kind := .zcpClear, unit := k, data := [0x83], bytes := zcpPad (s.chip.zcpHead (beAt l 6 6) 0 k 0 16 ++ zcpMessage 0x83 0 0 0 0 0 [3, 0, 0, 0]) }) ∧ regsKept s u [R.HST_SESS_STAT_STATE.key k, R.HST_SESS_STAT_ROLE.key k, R.HST_SESS_STAT_OUTSTANDING.key k] ∧ u.mem = s.mem) ∧
  (∀ (t : Nat) (k : Fin 4) (s : State), ready s → (chipAt s t).hostClear = true → s.chip.hp.txWait = [] → s.chip.rg R.HST_SESS_STAT_STATE k = 1 → (s.chip.sess k).at_ + 2 * secPs ≤ max s.chip.now t → ∃ u, exec (.confirmTimeout t k) s = .next u ∧ u.chip.rg R.HST_SESS_STAT_STATE k = 0 ∧ newest u = some { kind := .zcpClear, unit := k, data := [0x83], bytes := zcpPad (s.chip.zcpHead ((s.chip.sess k).peer) 0 k 0 16 ++ zcpMessage 0x83 0 0 0 0 0 [4, 0, 0, 0]) } ∧ regsKept s u [R.HST_SESS_STAT_STATE.key k, R.HST_SESS_STAT_ROLE.key k, R.HST_SESS_STAT_OUTSTANDING.key k] ∧ u.mem = s.mem) ∧
  (∀ (t : Nat) (l : List Byte) (q : ZcpMsg) (s : State), ready s → requestOk (chipAt s t) l q 0x84 → q.body = [] → ∃ u, exec (.zcpKeepalive t l) s = .next u ∧ responded s u l q [] ∧ (u.chip.sess (zcpSess l)).lastRx = max s.chip.now t ∧ u.mem = s.mem) ∧
  (∀ (t : Nat) (l : List Byte) (q : ZcpMsg) (s : State), ready s → requestOk (chipAt s t) l q 0x85 → q.body = [] → ∃ u, exec (.zcpClose t l) s = .next u ∧ responded s u l q [] ∧ u.chip.rg R.HST_SESS_STAT_STATE (zcpSess l) = 0 ∧ u.chip.rg R.HST_SESS_STAT_CLOSE_CAUSE (zcpSess l) = 1 ∧ u.chip.sess (zcpSess l) = Sess.reset) ∧
  (∀ (t : Nat) (k : Fin 4) (s : State), ready s → s.chip.rg R.HST_SESS_STAT_STATE k = 2 → (s.chip.sess k).lastRx + s.chip.rg R.HST_ZCP_CFG_IDLE_TO 0 * secPs ≤ max s.chip.now t → ∃ u, exec (.idleTimeout t k) s = .next u ∧ u.chip.rg R.HST_SESS_STAT_STATE k = 0 ∧ u.chip.rg R.HST_SESS_STAT_CLOSE_CAUSE k = 2 ∧ u.chip.sess k = Sess.reset) ∧
  (∀ (t : Nat) (l : List Byte) (q : ZcpMsg) (s : State), ready s → requestOk (chipAt s t) l q 12 → q.body = [0, 0, 0, 1] → s.chip.hasRight (zcpSess l) 12 = true → ∃ u, exec (.zcpReset t l) s = .next u ∧ responded s u l q [] ∧ u.chip.hp.resetAt = some (max s.chip.now t + msPs) ∧ u.mem = s.mem)

/-- READ, WRITE, MODIFY, BULK and register writes: R9, R338, R339, R340, R341, R464. -/
def Obligations.AccessCommands : Prop :=
  (∀ (t : Nat) (l : List Byte) (q : ZcpMsg) (a : Nat) (s : State), ready s → requestOk (chipAt s t) l q 1 → q.body = beBytes 6 a ++ beBytes 2 1 → 0x48000000 ≤ a → a < 0x58000000 → a % 32 < 20 → (chipAt s t).reach a = stOk → (chipAt s t).mayRead (zcpSess l) a = stOk → ∃ u, exec (.zcpRead t l none) s = .next u ∧ responded s u l q (zeros 4 ++ beBytes 4 (s.chip.winGet a)) ∧ u.chip.win = s.chip.win ∧ u.mem = s.mem) ∧
  (∀ (t : Nat) (l : List Byte) (q : ZcpMsg) (a v : Nat) (s : State), ready s → requestOk (chipAt s t) l q 2 → q.body = beBytes 6 a ++ beBytes 2 1 ++ beBytes 4 v → 0x48000000 ≤ a → a < 0x58000000 → a % 32 < 20 → (chipAt s t).reach a = stOk → (chipAt s t).mayWrite (zcpSess l) a = stOk → (chipAt s t).evtUpdate.tableLocked a = false → v < 2 ^ 32 → ∃ u, exec (.zcpWrite t l) s = .next u ∧ responded s u l q (zeros 4) ∧ u.chip.winGet a = v ∧ u.mem = s.mem) ∧
  (∀ (t : Nat) (l : List Byte) (q : ZcpMsg) (a k v : Nat) (s : State), ready s → requestOk (chipAt s t) l q 3 → q.body = beBytes 6 a ++ zeros 2 ++ beBytes 4 k ++ beBytes 4 v → 0x48000000 ≤ a → a < 0x58000000 → a % 32 < 20 → (chipAt s t).reach a = stOk → (chipAt s t).mayWrite (zcpSess l) a = stOk → (chipAt s t).evtUpdate.tableLocked a = false → k < 2 ^ 32 → v < 2 ^ 32 → s.chip.winGet a < 2 ^ 32 → ∃ u, exec (.zcpModify t l none) s = .next u ∧ responded s u l q (zeros 4 ++ beBytes 4 (s.chip.winGet a)) ∧ u.chip.winGet a = ((s.chip.winGet a &&& (0xFFFFFFFF - k)) ||| (v &&& k)) ∧ u.mem = s.mem) ∧
  (∀ (t : Nat) (l : List Byte) (q : ZcpMsg) (a n : Nat) (d : List Byte) (s : State), ready s → requestOk (chipAt s t) l q 4 → q.body = [0, 0] ++ beBytes 6 a ++ beBytes 4 n ++ d → (chipAt s t).ddrOk = true → 0x80000000 ≤ a → a < 2 ^ 48 → a - 0x80000000 + n ≤ (chipAt s t).ddrCap → 0 < n → n ≤ 16310 → d.length = n → s.chip.hasRight (zcpSess l) 7 = true → ∃ u, exec (.zcpBulkWrite t l) s = .next u ∧ responded s u l q [] ∧ u.mem = s.mem.apply (.ddr (a - 0x80000000) d)) ∧
  (∀ (t : Nat) (l : List Byte) (q : ZcpMsg) (a n : Nat) (s : State), ready s → requestOk (chipAt s t) l q 4 → q.body = [1, 0] ++ beBytes 6 a ++ beBytes 4 n → (chipAt s t).ddrOk = true → 0x80000000 ≤ a → a < 2 ^ 48 → a - 0x80000000 + n ≤ (chipAt s t).ddrCap → 0 < n → n ≤ 16310 → (chipAt s t).mayRead (zcpSess l) a = stOk → ∃ u, exec (.zcpBulkRead t l none) s = .next u ∧ responded s u l q (s.mem.ddrRead (a - 0x80000000) n) ∧ u.mem = s.mem) ∧
  (∀ (t : Nat) (l : List Byte) (q : ZcpMsg) (a n : Nat) (s : State), ready s → requestOk (chipAt s t) l q 4 → q.body = [2, 0] ++ beBytes 6 a ++ beBytes 4 n → (chipAt s t).ddrOk = true → 0x80000000 ≤ a → a < 2 ^ 48 → a - 0x80000000 + n ≤ (chipAt s t).ddrCap → 0 < n → n < 2 ^ 32 → (chipAt s t).mayRead (zcpSess l) a = stOk → ∃ u, exec (.zcpBulkDigest t l none) s = .next u ∧ responded s u l q (sha3_512 (s.mem.ddrRead (a - 0x80000000) n)) ∧ u.mem = s.mem) ∧
  (∀ (t : Nat) (who : Fin 20) (a v : Nat) (s : State), ready s → who.val < 4 → (chipAt s t).mayWrite who a = stOk → (chipAt s t).reach a = stOk → 0x80000000 ≤ a → v < 2 ^ 32 → ∃ u, exec (.registerWrite t who a v) s = .next u ∧ answered u stOk ∧ u.mem = s.mem.apply (.ddr (a - 0x80000000) (beBytes 4 v)) ∧ u.chip.win = s.chip.win ∧ u.chip.cnt = s.chip.cnt ∧ regsKept s u []) ∧
  (∀ (t : Nat) (who : Fin 20) (v : Nat) (s : State), ready s → who.val < 4 → s.chip.hasRight who 4 = true → (chipAt s t).domOn 1 = true → 1 ≤ v → v ≤ s.chip.slewMax → v < 65536 → s.chip.alm.load.shadow = [] → ∃ u, exec (.registerWrite t who 0xA000C v) s = .next u ∧ answered u stOk ∧ u.chip.rg R.TMG_SLEW_SLEW 0 = v ∧ u.mem = s.mem)

/-- PACKET, ATTEST, slow-path packets and EVENT frames: R344, R345, R346, R347, R386. -/
def Obligations.PacketAndEventCommands : Prop :=
  (∀ (t : Nat) (l : List Byte) (q : ZcpMsg) (s : State), ready s → requestOk (chipAt s t) l q 9 → s.chip.hasRight (zcpSess l) 14 = true → q.body.length = 64 → (chipAt s t).attesting = false → s.chip.rg R.SEC_STAT_ID_READY 0 = 1 → ∃ u, exec (.zcpAttest t l) s = .next u ∧ responded s u l q ((chipAt s t).attestReport q.body) ∧ u.chip.hp.attestAt = some (max s.chip.now t) ∧ u.mem = s.mem) ∧
  (∀ (t : Nat) (l : List Byte) (q : ZcpMsg) (p : Fin 128) (f : List Byte) (s : State), ready s → requestOk (chipAt s t) l q 11 → q.body = [0, 0] ++ beBytes 2 p ++ zeros 4 ++ f → s.chip.hasRight (zcpSess l) 13 = true → 60 ≤ f.length → f.length ≤ s.chip.maxFrame - 4 → s.chip.cellRole (s.chip.portBlk p) (s.chip.slotCell (s.chip.portBlk p) (s.chip.portSlot p)) ≠ 3 → ∃ u, exec (.zcpPacket t l) s = .next u ∧ responded s u l q [] ∧ u.chip.pp.waiting.map (fun x => (x.bytes, x.src)) = s.chip.pp.waiting.map (fun x => (x.bytes, x.src)) ++ [(f, p.val)] ∧ u.mem = s.mem) ∧
  (∀ (t : Nat) (l : List Byte) (q : ZcpMsg) (n : Nat) (s : State), ready s → (chipAt s t).hostClear = true → s.chip.hp.txWait = [] → 60 ≤ l.length → l.length ≤ 16380 → beAt l 12 2 = 0x88B5 → (chipAt s t).zcpOpens l = some q → q.typ = 0x0A → bit q.flags 0 = true → q.body = beBytes 4 n → n < 2 ^ 32 → (s.chip.sess (zcpSess l)).fresh (zcpSeq l) = true → ∃ u, exec (.eventAck t l) s = .next u ∧ (u.chip.sess (zcpSess l)).unacked = (s.chip.sess (zcpSess l)).unacked.filter (fun g => decide (g.seq ≠ n)) ∧ u.chip.counter C.ZCP_RX_MSG 0 = (s.chip.counter C.ZCP_RX_MSG 0 + 1) % 2 ^ 48 ∧ regsKept s u [] ∧ u.mem = s.mem) ∧
  (∀ (t : Nat) (k : Fin 4) (s : State), ready s → (chipAt s t).hostClear = true → s.chip.hp.txWait = [] → s.chip.rg R.HST_SESS_STAT_STATE k = 2 → (s.chip.sess k).evtAt = none → (s.chip.sess k).results ≠ [] → (s.chip.sess k).evtSeq < 2 ^ 32 → ∃ u, exec (.eventSend t k) s = .next u ∧ newest u = some (s.chip.zcpOutput k 0x0A 0 0 0 0 0 (u.chip.eventBody (((s.chip.sess k).evtSeq + 1) % 2 ^ 32) ((s.chip.sess k).results.take 64))) ∧ (u.chip.sess k).evtSeq = ((s.chip.sess k).evtSeq + 1) % 2 ^ 32 ∧ (u.chip.sess k).results = (s.chip.sess k).results.drop 64 ∧ (u.chip.sess k).unacked.map (fun g => (g.seq, g.results)) = (s.chip.sess k).unacked.map (fun g => (g.seq, g.results)) ++ [(((s.chip.sess k).evtSeq + 1) % 2 ^ 32, (s.chip.sess k).results.take 64)] ∧ u.chip.counter C.ZCP_EVT_SENT 0 = (s.chip.counter C.ZCP_EVT_SENT 0 + 1) % 2 ^ 48 ∧ regsKept s u [] ∧ u.mem = s.mem) ∧
  (∀ (t : Nat) (k : Fin 4) (g : EvtFrame) (s : State), ready s → (chipAt s t).hostClear = true → s.chip.hp.txWait = [] → s.chip.rg R.HST_SESS_STAT_STATE k = 2 → (s.chip.sess k).unacked = [g] → g.at_ + s.chip.rg R.HST_ZCP_CFG_EVT_RETRY 0 * msPs ≤ max s.chip.now t → g.results ≠ [] → ∃ u, exec (.eventResend t k) s = .next u ∧ newest u = some (s.chip.zcpOutput k 0x0A 0 0 0 0 0 ((chipAt s t).eventBody g.seq g.results)) ∧ (u.chip.sess k).unacked = [{ g with at_ := max s.chip.now t }] ∧ u.chip.counter C.ZCP_EVT_RESENT 0 = (s.chip.counter C.ZCP_EVT_RESENT 0 + 1) % 2 ^ 48 ∧ regsKept s u [] ∧ u.mem = s.mem) ∧
  (∀ (t : Nat) (f : Nat × List Byte) (r : List (Nat × List Byte)) (k : Nat) (s : State), ready s → (chipAt s t).hostClear = true → s.chip.hp.txWait = [] → s.chip.hostTurn = some (f, r) → (List.range 4).find? (fun k => s.chip.sessOpen k && s.chip.rb R.HST_SESS_CFG_SP_SUB k) = some k → ∃ u, exec (.spPacketSend t) s = .next u ∧ newest u = some (s.chip.zcpOutput k 0x0B 0 0 0 0 0 f.2) ∧ u.chip.pp.hostQ = r ∧ u.chip.pp.hostLast = f.1 ∧ u.chip.counter C.ZCP_SP_SENT 0 = (s.chip.counter C.ZCP_SP_SENT 0 + 1) % 2 ^ 48 ∧ regsKept s u [] ∧ u.mem = s.mem)

/-- DMA: TAIL, configuration, triggers, STOP, START, RESET_RING: R349, R350, R351, R353, R354, R355. -/
def Obligations.DmaChannelCommands : Prop :=
  (∀ (t : Nat) (ch : Fin 64) (v : Nat) (s : State), ready s → s.chip.domOn 6 = true → s.chip.rg R.DMA_CH_CFG_EN ch = 1 → s.chip.rg R.DMA_CH_CFG_TRIG ch = 0 → s.chip.rg R.DMA_CH_STAT_STATE ch = 1 → v < 65536 → s.chip.rg R.DMA_CH_HEAD_HEAD ch ≠ v → ∃ u, exec (.dmaTailWrite t ch v) s = .next u ∧ answered u stOk ∧ u.chip.rg R.DMA_CH_TAIL_TAIL ch = v ∧ u.chip.rg R.DMA_CH_STAT_STATE ch = 2 ∧ kept s u [R.DMA_CH_TAIL_TAIL.key ch, R.DMA_CH_STAT_STATE.key ch]) ∧
  (∀ (t : Nat) (ch : Fin 64) (owner : Fin 5) (v : Nat) (s : State), ready s → s.chip.domOn 6 = true → s.chip.rg R.DMA_CH_CFG_EN ch = 0 → bits v 8 3 < 7 → 2 ≤ bits v 16 5 → bits v 16 5 ≤ 16 → bit v 0 = true → s.chip.hp.dma.find ch = none → s.chip.rg R.DMA_CH_HEAD_HEAD ch = s.chip.rg R.DMA_CH_TAIL_TAIL ch → ∃ u, exec (.dmaChCfgWrite t ch owner v) s = .next u ∧ answered u stOk ∧ u.chip.rg R.DMA_CH_CFG_EN ch = 1 ∧ u.chip.rg R.DMA_CH_CFG_TRIG ch = bits v 1 2 ∧ u.chip.rg R.DMA_CH_CFG_PRIO ch = bits v 3 1 ∧ u.chip.rg R.DMA_CH_CFG_EVT_EN ch = bits v 4 1 ∧ u.chip.rg R.DMA_CH_CFG_REQ ch = bits v 8 3 ∧ u.chip.rg R.DMA_CH_CFG_SIZE_LOG2 ch = bits v 16 5 ∧ u.chip.rg R.DMA_CH_CFG_OWNER ch = owner.val ∧ u.chip.rg R.DMA_CH_STAT_STATE ch = 1 ∧ kept s u [R.DMA_CH_CFG_EN.key ch, R.DMA_CH_CFG_TRIG.key ch, R.DMA_CH_CFG_PRIO.key ch, R.DMA_CH_CFG_EVT_EN.key ch, R.DMA_CH_CFG_REQ.key ch, R.DMA_CH_CFG_SIZE_LOG2.key ch, R.DMA_CH_CFG_OWNER.key ch, R.DMA_CH_STAT_STATE.key ch]) ∧
  (∀ (t : Nat) (ch : Fin 64) (owner : Fin 5) (v : Nat) (s : State), ready s → s.chip.domOn 6 = true → s.chip.rg R.DMA_CH_CFG_EN ch ≠ 0 → bits v 8 3 < 7 → 2 ≤ bits v 16 5 → bits v 16 5 ≤ 16 → s.chip.rg R.DMA_CH_CFG_OWNER ch ≠ owner.val → ∃ u, exec (.dmaChCfgWrite t ch owner v) s = .next u ∧ answered u stAccess ∧ kept s u []) ∧
  (∀ (t : Nat) (ch : Fin 64) (s : State), ready s → s.chip.rg R.DMA_CH_CFG_EN ch = 1 → s.chip.rg R.DMA_CH_CFG_TRIG ch = 1 → s.chip.rg R.DMA_CH_STAT_STATE ch = 3 → Tab.get 0 s.chip.hp.dmaAt ch + s.chip.rg R.DMA_CH_TIMER_PERIOD ch * usU ≤ (chipAt s t).eNow → s.chip.rg R.DMA_CH_HEAD_HEAD ch ≠ s.chip.rg R.DMA_CH_TAIL_TAIL ch → ∃ u, exec (.dmaTimerTick t ch) s = .next u ∧ u.chip.rg R.DMA_CH_STAT_STATE ch = 2 ∧ u.chip.hp.dmaAt = s.chip.hp.dmaAt.set ch (Tab.get 0 s.chip.hp.dmaAt ch + s.chip.rg R.DMA_CH_TIMER_PERIOD ch * usU) ∧ kept s u [R.DMA_CH_STAT_STATE.key ch]) ∧
  (∀ (t : Nat) (line : Fin 3) (ch : Fin 64) (s : State), ready s → Tab.get 0 s.chip.hp.lineDue line ≠ 0 → s.chip.rg R.DMA_CH_CFG_EN ch = 1 → s.chip.rg R.DMA_CH_CFG_TRIG ch = 3 → s.chip.rg R.DMA_CH_CFG_REQ ch = line → s.chip.rg R.DMA_CH_STAT_STATE ch = 3 → s.chip.rg R.DMA_CH_HEAD_HEAD ch ≠ s.chip.rg R.DMA_CH_TAIL_TAIL ch → ∃ u, exec (.dmaRequest t line) s = .next u ∧ u.chip.rg R.DMA_CH_STAT_STATE ch = 2 ∧ regsKept s u ((List.range 64).map (fun j => R.DMA_CH_STAT_STATE.key j)) ∧ u.chip.win = s.chip.win ∧ u.mem = s.mem) ∧
  (∀ (t : Nat) (line : Fin 3) (ch : Fin 64) (s : State), ready s → Tab.get 0 s.chip.hp.lineDue line ≠ 0 → s.chip.rg R.DMA_CH_CFG_EN ch = 1 → s.chip.rg R.DMA_CH_CFG_TRIG ch = 3 → s.chip.rg R.DMA_CH_CFG_REQ ch = line → s.chip.rg R.DMA_CH_STAT_STATE ch = 2 → Tab.get 0 s.chip.hp.dmaTrig ch ≠ 0 → ∃ u, exec (.dmaRequest t line) s = .next u ∧ u.chip.counter C.DMA_TRIG_LOST ch = (s.chip.counter C.DMA_TRIG_LOST ch + 1) % 2 ^ 48 ∧ u.chip.rg R.DMA_CH_STAT_STATE ch = 2 ∧ regsKept s u ((List.range 64).map (fun j => R.DMA_CH_STAT_STATE.key j)) ∧ u.mem = s.mem) ∧
  (∀ (t : Nat) (v : Nat) (ch : Fin 64) (i : Fin 4) (s : State), ready s → s.chip.domOn 6 = true → s.chip.rg R.DMA_CH_CFG_EN ch = 1 → s.chip.rg R.DMA_CH_CFG_TRIG ch = 3 → s.chip.rg R.DMA_CH_CFG_REQ ch = 3 + i → bit v i = true → s.chip.rg R.DMA_CH_STAT_STATE ch = 3 → s.chip.rg R.DMA_CH_HEAD_HEAD ch ≠ s.chip.rg R.DMA_CH_TAIL_TAIL ch → ∃ u, exec (.dmaSwreq t v) s = .next u ∧ answered u stOk ∧ u.chip.rg R.DMA_SWREQ_REQ 0 = v % 16 ∧ u.chip.rg R.DMA_CH_STAT_STATE ch = 2 ∧ regsKept s u (R.DMA_SWREQ_REQ.key 0 :: (List.range 64).map (fun j => R.DMA_CH_STAT_STATE.key j)) ∧ u.chip.cnt = s.chip.cnt ∧ u.mem = s.mem) ∧
  (∀ (t : Nat) (ch : Fin 64) (s : State), ready s → s.chip.domOn 6 = true → s.chip.rg R.DMA_CH_STAT_STATE ch ≠ 0 → s.chip.hp.dma.find ch = none → ∃ u, exec (.dmaStop t ch) s = .next u ∧ answered u stOk ∧ u.chip.rg R.DMA_CH_STAT_STATE ch = 4 ∧ kept s u [R.DMA_CH_STAT_STATE.key ch]) ∧
  (∀ (t : Nat) (ch : Fin 64) (s : State), ready s → s.chip.domOn 6 = true → s.chip.rg R.DMA_CH_CFG_EN ch = 1 → s.chip.rg R.DMA_CH_STAT_STATE ch = 4 → s.chip.rg R.DMA_CH_CFG_TRIG ch = 0 → s.chip.hp.dma.find ch = none → ∃ u, exec (.dmaStart t ch) s = .next u ∧ answered u stOk ∧ u.chip.rg R.DMA_CH_STAT_STATE ch = (if s.chip.rg R.DMA_CH_HEAD_HEAD ch = s.chip.rg R.DMA_CH_TAIL_TAIL ch then 1 else 2) ∧ kept s u [R.DMA_CH_STAT_STATE.key ch]) ∧
  (∀ (t : Nat) (ch : Fin 64) (s : State), ready s → s.chip.domOn 6 = true → s.chip.rg R.DMA_CH_STAT_STATE ch = 0 ∨ s.chip.rg R.DMA_CH_STAT_STATE ch = 4 → ∃ u, exec (.dmaResetRing t ch) s = .next u ∧ answered u stOk ∧ u.chip.rg R.DMA_CH_HEAD_HEAD ch = 0 ∧ kept s u [R.DMA_CH_HEAD_HEAD.key ch]) ∧
  (∀ (t : Nat) (ch : Fin 64) (s : State), ready s → s.chip.domOn 6 = true → s.chip.rg R.DMA_CH_STAT_STATE ch ≠ 0 → s.chip.rg R.DMA_CH_STAT_STATE ch ≠ 4 → ∃ u, exec (.dmaResetRing t ch) s = .next u ∧ answered u stRefused ∧ kept s u []) ∧
  (∀ (t : Nat) (ch : Fin 64) (a : Nat) (d : List Byte) (s : State), ready s → s.chip.domOn 6 = true → (chipAt s t).ddrOk = true → s.chip.dmaPick = some ch.val → s.chip.hp.dma.find ch = none → a = s.chip.dmaDesc ch → a + 32 ≤ s.chip.ddrCap → d = s.mem.ddrRead a 32 → half d 0 = 0x8000 → 0x80000000 ≤ dSrc d → 0x80000000 ≤ dDst d → 0 < dLen d → dSrc d % 4096 + dLen d ≤ 4096 → dDst d % 4096 + dLen d ≤ 4096 → dSrc d - 0x80000000 + dLen d ≤ s.chip.ddrCap → dDst d - 0x80000000 + dLen d ≤ s.chip.ddrCap → s.chip.mayRead (s.chip.dmaWho ch) (dSrc d) = stOk → s.chip.mayWrite (s.chip.dmaWho ch) (dDst d) = stOk → ∃ u, exec (.dmaBurst t none) s = .next u ∧ u.chip.rg R.DMA_CH_HEAD_HEAD ch = (s.chip.rg R.DMA_CH_HEAD_HEAD ch + 1) % 2 ^ s.chip.rg R.DMA_CH_CFG_SIZE_LOG2 ch % 65536 ∧ u.chip.rg R.DMA_CH_STAT_LAST_STATUS ch = 0 ∧ u.chip.counter C.DMA_BYTES ch = (s.chip.counter C.DMA_BYTES ch + dLen d) % 2 ^ 48 ∧ u.chip.counter C.DMA_DESC_DONE ch = (s.chip.counter C.DMA_DESC_DONE ch + 1) % 2 ^ 48 ∧ u.mem = (s.mem.applyAll [.ddr (dDst d - 0x80000000) (s.mem.ddrRead (dSrc d - 0x80000000) (dLen d))]).apply (.ddr a (zeros 2 ++ slice d 2 6 ++ zeros 2 ++ slice d 10 6 ++ slice d 16 4 ++ beBytes 4 (dLen d) ++ beBytes 4 (tsNsOf (chipAt s t).lNow) ++ beBytes 2 (fracOf (chipAt s t).lNow) ++ zeros 2)) ∧ regsKept s u [R.DMA_CH_HEAD_HEAD.key ch, R.DMA_CH_STAT_LAST_STATUS.key ch, R.DMA_CH_STAT_STATE.key ch])

/-- Scheduler commands of the cores: ACTIVATE, END, YIELD, DELAY, WAIT, SIGNAL, …: R359, R360, R361, R362, R363, R364, R367. -/
def Obligations.TaskCommandsOfCores : Prop :=
  (∀ (t : Nat) (j : Fin 16) (task : Fin 512) (s : State), ready s → s.chip.domOn 2 = true → s.chip.rg R.MCU_TRACE_CFG_EN 0 = 0 → s.chip.mc.hostHeld = none → s.chip.rg R.MCU_TASK_STAT_STATE task = 1 → s.chip.rg R.MCU_CTRL_HALT 0 = 1 → s.chip.rg R.MCU_TASK_CFG_IMG task = 0 → ∃ u, exec (.taskActivate t j task) s = .next u ∧ u.chip.rg R.MCU_TASK_STAT_STATE task = 2 ∧ u.chip.readyList (s.chip.rg R.MCU_TASK_CFG_PRIO task) = s.chip.readyList (s.chip.rg R.MCU_TASK_CFG_PRIO task) ++ [task.val] ∧ regsKept s u [R.MCU_TASK_STAT_STATE.key task] ∧ u.chip.cnt = (if (chipAt s t).fifoFull then ((chipAt s t).inc C.MCU_FIFO_FULL 0).cnt else s.chip.cnt) ∧ u.chip.win = s.chip.win ∧ u.mem = s.mem) ∧
  (∀ (t : Nat) (j : Fin 16) (task : Fin 512) (s : State), ready s → s.chip.domOn 2 = true → s.chip.rg R.MCU_TRACE_CFG_EN 0 = 0 → s.chip.mc.hostHeld = none → 2 ≤ s.chip.rg R.MCU_TASK_STAT_STATE task → s.chip.rg R.MCU_TASK_STAT_ACT_PEND task < 255 → ∃ u, exec (.taskActivate t j task) s = .next u ∧ u.chip.rg R.MCU_TASK_STAT_ACT_PEND task = s.chip.rg R.MCU_TASK_STAT_ACT_PEND task + 1 ∧ regsKept s u [R.MCU_TASK_STAT_ACT_PEND.key task] ∧ u.chip.cnt = (if (chipAt s t).fifoFull then ((chipAt s t).inc C.MCU_FIFO_FULL 0).cnt else s.chip.cnt) ∧ u.chip.win = s.chip.win ∧ u.mem = s.mem) ∧
  (∀ (t : Nat) (j : Fin 16) (task : Fin 512) (s : State), ready s → s.chip.domOn 2 = true → s.chip.rg R.MCU_TRACE_CFG_EN 0 = 0 → s.chip.mc.hostHeld = none → s.chip.mc.run.find j = some task.val → s.chip.rg R.MCU_TASK_STAT_STATE task = 3 → s.chip.mc.susp.contains task.val = false → s.chip.mc.ready = [] → s.chip.mc.resv = [] → s.chip.rg R.MCU_TASK_STAT_ACT_PEND task = 0 → ∃ u, exec (.taskEnd t j) s = .next u ∧ u.chip.rg R.MCU_TASK_STAT_STATE task = 1 ∧ u.chip.rg R.MCU_CORE_STAT_STATE j = (if s.chip.rg R.MCU_CTRL_HALT 0 = 0 then 0 else 3) ∧ u.chip.rg R.MCU_CORE_STAT_TASK j = 0 ∧ u.chip.mc.run = s.chip.mc.run.erase j ∧ regsKept s u [R.MCU_TASK_STAT_STATE.key task, R.MCU_CORE_STAT_STATE.key j, R.MCU_CORE_STAT_TASK.key j, R.MCU_SCHED_SELF_TASK.key j] ∧ u.chip.cnt = (if (chipAt s t).fifoFull then ((chipAt s t).inc C.MCU_FIFO_FULL 0).cnt else s.chip.cnt) ∧ u.chip.win = s.chip.win ∧ u.mem = s.mem) ∧
  (∀ (t : Nat) (j : Fin 16) (task : Fin 512) (s : State), ready s → s.chip.domOn 2 = true → s.chip.rg R.MCU_TRACE_CFG_EN 0 = 0 → s.chip.mc.hostHeld = none → s.chip.mc.run.find j = some task.val → s.chip.rg R.MCU_TASK_STAT_STATE task = 3 → s.chip.mc.susp.contains task.val = false → s.chip.rg R.MCU_CTRL_HALT 0 = 1 → s.chip.mc.resvAt.find j = none → s.chip.rg R.MCU_TASK_CFG_IMG task = 0 → ∃ u, exec (.taskYield t j) s = .next u ∧ u.chip.rg R.MCU_TASK_STAT_STATE task = 2 ∧ u.chip.readyList (s.chip.rg R.MCU_TASK_CFG_PRIO task) = s.chip.readyList (s.chip.rg R.MCU_TASK_CFG_PRIO task) ++ [task.val] ∧ u.chip.rg R.MCU_CORE_STAT_STATE j = (if s.chip.rg R.MCU_CTRL_HALT 0 = 0 then 0 else 3) ∧ u.chip.rg R.MCU_CORE_STAT_TASK j = 0 ∧ u.chip.mc.run = s.chip.mc.run.erase j ∧ regsKept s u [R.MCU_TASK_STAT_STATE.key task, R.MCU_CORE_STAT_STATE.key j, R.MCU_CORE_STAT_TASK.key j, R.MCU_SCHED_SELF_TASK.key j] ∧ u.chip.cnt = (if (chipAt s t).fifoFull then ((chipAt s t).inc C.MCU_FIFO_FULL 0).cnt else s.chip.cnt) ∧ u.chip.win = s.chip.win ∧ u.mem = s.mem) ∧
  (∀ (t : Nat) (j : Fin 16) (task : Fin 512) (arg : Nat) (s : State), ready s → s.chip.domOn 2 = true → s.chip.rg R.MCU_TRACE_CFG_EN 0 = 0 → s.chip.mc.hostHeld = none → s.chip.mc.run.find j = some task.val → s.chip.rg R.MCU_TASK_STAT_STATE task = 3 → s.chip.mc.susp.contains task.val = false → s.chip.mc.ready = [] → s.chip.mc.resv = [] → 0 < arg → arg < 2 ^ 31 → ∃ u, exec (.taskDelay t j arg) s = .next u ∧ u.chip.rg R.MCU_TASK_STAT_STATE task = 4 ∧ u.chip.mc.wake.find task = some ((s.chip.tickNow + arg) % 2 ^ 32) ∧ u.chip.rg R.MCU_CORE_STAT_STATE j = (if s.chip.rg R.MCU_CTRL_HALT 0 = 0 then 0 else 3) ∧ u.chip.rg R.MCU_CORE_STAT_TASK j = 0 ∧ u.chip.mc.run = s.chip.mc.run.erase j ∧ regsKept s u [R.MCU_TASK_STAT_STATE.key task, R.MCU_CORE_STAT_STATE.key j, R.MCU_CORE_STAT_TASK.key j, R.MCU_SCHED_SELF_TASK.key j] ∧ u.chip.cnt = (if (chipAt s t).fifoFull then ((chipAt s t).inc C.MCU_FIFO_FULL 0).cnt else s.chip.cnt) ∧ u.chip.win = s.chip.win ∧ u.mem = s.mem) ∧
  (∀ (t : Nat) (j : Fin 16) (task : Fin 512) (arg : Nat) (s : State), ready s → s.chip.domOn 2 = true → s.chip.rg R.MCU_TRACE_CFG_EN 0 = 0 → s.chip.mc.hostHeld = none → s.chip.mc.run.find j = some task.val → s.chip.rg R.MCU_TASK_STAT_STATE task = 3 → s.chip.mc.susp.contains task.val = false → s.chip.mc.ready = [] → s.chip.mc.resv = [] → 0 < tickDiff arg s.chip.tickNow → ∃ u, exec (.taskDelayUntil t j arg) s = .next u ∧ u.chip.rg R.MCU_TASK_STAT_STATE task = 4 ∧ u.chip.mc.wake.find task = some (arg % 2 ^ 32) ∧ u.chip.rg R.MCU_CORE_STAT_STATE j = (if s.chip.rg R.MCU_CTRL_HALT 0 = 0 then 0 else 3) ∧ u.chip.rg R.MCU_CORE_STAT_TASK j = 0 ∧ u.chip.mc.run = s.chip.mc.run.erase j ∧ regsKept s u [R.MCU_TASK_STAT_STATE.key task, R.MCU_CORE_STAT_STATE.key j, R.MCU_CORE_STAT_TASK.key j, R.MCU_SCHED_SELF_TASK.key j] ∧ u.chip.cnt = (if (chipAt s t).fifoFull then ((chipAt s t).inc C.MCU_FIFO_FULL 0).cnt else s.chip.cnt) ∧ u.chip.win = s.chip.win ∧ u.mem = s.mem) ∧
  (∀ (t : Nat) (j : Fin 16) (task : Fin 512) (arg : Nat) (s : State), ready s → s.chip.domOn 2 = true → s.chip.rg R.MCU_TRACE_CFG_EN 0 = 0 → s.chip.mc.hostHeld = none → s.chip.mc.run.find j = some task.val → s.chip.rg R.MCU_TASK_STAT_STATE task = 3 → s.chip.mc.susp.contains task.val = false → s.chip.mc.ready = [] → s.chip.mc.resv = [] → s.chip.sources task = [] → arg < 2 ^ 32 → ∃ u, exec (.taskWait t j arg) s = .next u ∧ u.chip.rg R.MCU_TASK_STAT_STATE task = 5 ∧ (arg = 0 → u.chip.mc.wake = s.chip.mc.wake) ∧ (arg ≠ 0 → u.chip.mc.wake.find task = some ((s.chip.tickNow + arg) % 2 ^ 32)) ∧ u.chip.rg R.MCU_CORE_STAT_STATE j = (if s.chip.rg R.MCU_CTRL_HALT 0 = 0 then 0 else 3) ∧ u.chip.rg R.MCU_CORE_STAT_TASK j = 0 ∧ u.chip.mc.run = s.chip.mc.run.erase j ∧ regsKept s u [R.MCU_TASK_STAT_STATE.key task, R.MCU_CORE_STAT_STATE.key j, R.MCU_CORE_STAT_TASK.key j, R.MCU_SCHED_SELF_TASK.key j] ∧ u.chip.cnt = (if (chipAt s t).fifoFull then ((chipAt s t).inc C.MCU_FIFO_FULL 0).cnt else s.chip.cnt) ∧ u.chip.win = s.chip.win ∧ u.mem = s.mem) ∧
  (∀ (t : Nat) (j : Fin 16) (task : Fin 512) (arg : Nat) (s : State), ready s → s.chip.domOn 2 = true → s.chip.rg R.MCU_TRACE_CFG_EN 0 = 0 → s.chip.mc.hostHeld = none → s.chip.rg R.MCU_TASK_STAT_STATE task ≠ 5 → ∃ u, exec (.taskSignal t j task arg) s = .next u ∧ u.chip.rg R.MCU_SRC_BIND_PEND (56 + arg % 8) = 1 ∧ u.chip.mc.sig.find (56 + arg % 8) = some task.val ∧ regsKept s u [R.MCU_SRC_BIND_PEND.key (56 + arg % 8)] ∧ u.chip.cnt = (if (chipAt s t).fifoFull then ((chipAt s t).inc C.MCU_FIFO_FULL 0).cnt else s.chip.cnt) ∧ u.chip.win = s.chip.win ∧ u.mem = s.mem) ∧
  (∀ (t : Nat) (j : Fin 16) (task : Fin 512) (s : State), ready s → s.chip.domOn 2 = true → s.chip.rg R.MCU_TRACE_CFG_EN 0 = 0 → s.chip.mc.hostHeld = none → s.chip.rg R.MCU_TASK_STAT_STATE task = 2 ∨ s.chip.rg R.MCU_TASK_STAT_STATE task = 4 ∨ s.chip.rg R.MCU_TASK_STAT_STATE task = 5 → ∃ u, exec (.taskSuspend t j task) s = .next u ∧ u.chip.rg R.MCU_TASK_STAT_STATE task = 6 ∧ u.chip.mc.wake = s.chip.mc.wake.erase task ∧ regsKept s u [R.MCU_TASK_STAT_STATE.key task] ∧ u.chip.cnt = (if (chipAt s t).fifoFull then ((chipAt s t).inc C.MCU_FIFO_FULL 0).cnt else s.chip.cnt) ∧ u.chip.win = s.chip.win ∧ u.mem = s.mem) ∧
  (∀ (t : Nat) (j : Fin 16) (task : Fin 512) (s : State), ready s → s.chip.domOn 2 = true → s.chip.rg R.MCU_TRACE_CFG_EN 0 = 0 → s.chip.mc.hostHeld = none → s.chip.rg R.MCU_TASK_STAT_STATE task = 3 → ∃ u, exec (.taskSuspend t j task) s = .next u ∧ task.val ∈ u.chip.mc.susp ∧ regsKept s u [] ∧ u.chip.cnt = (if (chipAt s t).fifoFull then ((chipAt s t).inc C.MCU_FIFO_FULL 0).cnt else s.chip.cnt) ∧ u.chip.win = s.chip.win ∧ u.mem = s.mem) ∧
  (∀ (t : Nat) (j : Fin 16) (task : Fin 512) (s : State), ready s → s.chip.domOn 2 = true → s.chip.rg R.MCU_TRACE_CFG_EN 0 = 0 → s.chip.mc.hostHeld = none → s.chip.rg R.MCU_TASK_STAT_STATE task = 6 → s.chip.rg R.MCU_CTRL_HALT 0 = 1 → s.chip.rg R.MCU_TASK_CFG_IMG task = 0 → ∃ u, exec (.taskResume t j task) s = .next u ∧ u.chip.rg R.MCU_TASK_STAT_STATE task = 2 ∧ u.chip.readyList (s.chip.rg R.MCU_TASK_CFG_PRIO task) = s.chip.readyList (s.chip.rg R.MCU_TASK_CFG_PRIO task) ++ [task.val] ∧ regsKept s u [R.MCU_TASK_STAT_STATE.key task] ∧ u.chip.cnt = (if (chipAt s t).fifoFull then ((chipAt s t).inc C.MCU_FIFO_FULL 0).cnt else s.chip.cnt) ∧ u.chip.win = s.chip.win ∧ u.mem = s.mem) ∧
  (∀ (t : Nat) (j : Fin 16) (task : Fin 512) (arg : Nat) (s : State), ready s → s.chip.domOn 2 = true → s.chip.rg R.MCU_TRACE_CFG_EN 0 = 0 → s.chip.mc.hostHeld = none → ∃ u, exec (.taskSetPrio t j task arg) s = .next u ∧ u.chip.rg R.MCU_TASK_CFG_PRIO task = arg % 32 ∧ regsKept s u [R.MCU_TASK_CFG_PRIO.key task] ∧ u.chip.cnt = (if (chipAt s t).fifoFull then ((chipAt s t).inc C.MCU_FIFO_FULL 0).cnt else s.chip.cnt) ∧ u.chip.win = s.chip.win ∧ u.mem = s.mem)

/-- Dispatch, sources, ticks and watchdogs of the cores: R359, R363, R364, R367, R368, R374. -/
def Obligations.DispatchAndTimerCommands : Prop :=
  (∀ (t : Nat) (j : Fin 16) (task : Nat) (s : State), ready s → s.chip.domOn 2 = true → s.chip.mc.run.find j = some task → ∃ u, exec (.schedNextRead t j) s = .next u ∧ newest u = some { kind := .schedResult, unit := j, data := [task, s.chip.rg R.MCU_SCHED_NEXT_WHY j], bytes := [] } ∧ kept s u []) ∧
  (∀ (t : Nat) (j : Fin 16) (s : State), ready s → s.chip.domOn 2 = true → s.chip.mc.run.find j = none → ∃ u, exec (.schedNextRead t j) s = .next u ∧ j.val ∈ u.chip.mc.waits ∧ kept s u []) ∧
  (∀ (t : Nat) (task : Fin 512) (j : Fin 16) (s : State), ready s → s.chip.domOn 2 = true → s.chip.rg R.MCU_TRACE_CFG_EN 0 = 0 → s.chip.rg R.MCU_TASK_STAT_STATE task = 2 → s.chip.runnable task = true → s.chip.rg R.MCU_CTRL_HALT 0 = 0 → s.chip.mc.resv = [] → s.chip.rg R.MCU_TASK_STAT_LAST task = j → s.chip.mayRun task j = true → s.chip.coreIdle j = true → s.chip.sources task = [] → s.chip.mc.waits = [] → ∃ u, exec (.taskDispatch t task) s = .next u ∧ u.chip.rg R.MCU_TASK_STAT_STATE task = 3 ∧ u.chip.rg R.MCU_TASK_STAT_LAST task = j ∧ u.chip.rg R.MCU_CORE_STAT_STATE j = 1 ∧ u.chip.rg R.MCU_CORE_STAT_TASK j = task ∧ u.chip.rg R.MCU_SCHED_NEXT_TASK j = task ∧ u.chip.rg R.MCU_SCHED_SELF_TASK j = task ∧ u.chip.rg R.MCU_SCHED_SRC_LO_SRC j = 0 ∧ u.chip.rg R.MCU_SCHED_SRC_HI_SRC j = 0 ∧ u.chip.mc.run.find j = some task.val ∧ u.chip.counter C.MCU_DISPATCH 0 = (s.chip.counter C.MCU_DISPATCH 0 + 1) % 2 ^ 48 ∧ regsKept s u [R.MCU_TASK_STAT_STATE.key task, R.MCU_TASK_STAT_LAST.key task, R.MCU_CORE_STAT_STATE.key j, R.MCU_CORE_STAT_TASK.key j, R.MCU_SCHED_NEXT_TASK.key j, R.MCU_SCHED_NEXT_WHY.key j, R.MCU_SCHED_SELF_TASK.key j, R.MCU_SCHED_SRC_LO_SRC.key j, R.MCU_SCHED_SRC_HI_SRC.key j] ∧ u.mem = s.mem) ∧
  (∀ (t : Nat) (n : Fin 64) (task : Fin 512) (s : State), ready s → s.chip.domOn 2 = true → s.chip.rg R.MCU_TRACE_CFG_EN 0 = 0 → n.val < 33 ∨ 48 < n.val ∧ n.val < 53 → s.chip.mc.srcDue.contains n.val = true → s.chip.mc.sig = [] → s.chip.rg R.MCU_SRC_BIND_EN n = 1 → s.chip.rg R.MCU_SRC_BIND_TASK n = task → s.chip.rg R.MCU_TASK_STAT_STATE task = 5 → s.chip.rg R.MCU_CTRL_HALT 0 = 1 → s.chip.rg R.MCU_TASK_CFG_IMG task = 0 → ∃ u, exec (.sourcePending t n) s = .next u ∧ u.chip.rg R.MCU_SRC_BIND_PEND n = 1 ∧ u.chip.rg R.MCU_TASK_STAT_STATE task = 2 ∧ u.chip.readyList (s.chip.rg R.MCU_TASK_CFG_PRIO task) = s.chip.readyList (s.chip.rg R.MCU_TASK_CFG_PRIO task) ++ [task.val] ∧ kept s u [R.MCU_SRC_BIND_PEND.key n, R.MCU_TASK_STAT_STATE.key task]) ∧
  (∀ (t : Nat) (n : Fin 64) (s : State), ready s → s.chip.domOn 2 = true → n.val < 33 ∨ 48 < n.val → s.chip.mc.srcDue.contains n.val = false → ∃ u, exec (.sourcePending t n) s = .next u ∧ u.chip.mc = s.chip.mc ∧ kept s u []) ∧
  (∀ (t : Nat) (i : Fin 8) (s : State), ready s → s.chip.domOn 2 = true → s.chip.rg R.MCU_TRACE_CFG_EN 0 = 0 → s.chip.boundTo (56 + i) = none → ∃ u, exec (.swsrcSet t (2 ^ i.val)) s = .next u ∧ answered u stOk ∧ u.chip.rg R.MCU_SRC_BIND_PEND (56 + i) = 1 ∧ kept s u [R.MCU_SRC_BIND_PEND.key (56 + i)]) ∧
  (∀ (t : Nat) (s : State), ready s → s.chip.domOn 2 = true → s.chip.mc.tickAt + s.chip.rg R.MCU_TICK_TICK 0 * usU ≤ (chipAt s t).eNow → s.chip.mc.wake = [] → ∃ u, exec (.schedTick t) s = .next u ∧ u.chip.rg R.MCU_TICK_NOW_NOW 0 = (s.chip.rg R.MCU_TICK_NOW_NOW 0 + 1) % 2 ^ 32 ∧ u.chip.mc.tickAt = s.chip.mc.tickAt + s.chip.rg R.MCU_TICK_TICK 0 * usU ∧ kept s u [R.MCU_TICK_NOW_NOW.key 0]) ∧
  (∀ (t : Nat) (task : Fin 512) (s : State), ready s → s.chip.domOn 2 = true → s.chip.rg R.MCU_TRACE_CFG_EN 0 = 0 → s.chip.mc.tickAt + s.chip.rg R.MCU_TICK_TICK 0 * usU ≤ (chipAt s t).eNow → s.chip.tickNow + 1 < 2 ^ 32 → s.chip.mc.wake = [(task.val, s.chip.tickNow + 1)] → s.chip.rg R.MCU_CTRL_HALT 0 = 1 → ∃ u, exec (.schedTick t) s = .next u ∧ u.chip.rg R.MCU_TASK_STAT_STATE task = 2 ∧ u.chip.mc.wake = [] ∧ kept s u [R.MCU_TICK_NOW_NOW.key 0, R.MCU_TASK_STAT_STATE.key task]) ∧
  (∀ (t : Nat) (j : Fin 16) (a : Nat) (s : State), ready s → s.chip.domOn 2 = true → s.chip.mc.resvAt.find j = some a → a + s.chip.rg R.MCU_CTRL_PRE_TO 0 * usPs ≤ max s.chip.now t → s.chip.mc.late.contains j.val = false → ∃ u, exec (.preemptTimeout t j) s = .next u ∧ u.chip.counter C.MCU_PRE_LATE 0 = (s.chip.counter C.MCU_PRE_LATE 0 + 1) % 2 ^ 48 ∧ u.chip.mc.resv = s.chip.mc.resv ∧ regsKept s u [] ∧ u.mem = s.mem) ∧
  (∀ (t : Nat) (j : Fin 16) (a : Nat) (s : State), ready s → s.chip.domOn 2 = true → s.chip.rg R.MCU_TRACE_CFG_EN 0 = 0 → s.chip.mc.runAt.find j = some a → a + s.chip.rg R.MCU_CORE_CFG_RUN_MAX j * usPs ≤ max s.chip.now t → s.chip.mc.wdog.contains j.val = false → ∃ u, exec (.taskWatchdog t j) s = .next u ∧ u.chip.rg R.MCU_CORE_STAT_STATE j = 2 ∧ newest u = some { kind := .coreIrq, unit := j, data := [2], bytes := [] } ∧ u.chip.counter C.MCU_WDOG 0 = (s.chip.counter C.MCU_WDOG 0 + 1) % 2 ^ 48 ∧ regsKept s u [R.MCU_CORE_STAT_STATE.key j] ∧ u.mem = s.mem) ∧
  (∀ (t : Nat) (j : Fin 16) (a : Nat) (task : Fin 512) (s : State), ready s → s.chip.domOn 2 = true → s.chip.rg R.MCU_TRACE_CFG_EN 0 = 0 → s.chip.mc.runAt.find j = some a → a + 2 * s.chip.rg R.MCU_CORE_CFG_RUN_MAX j * usPs ≤ max s.chip.now t → s.chip.mc.run.find j = some task.val → s.chip.rg R.MCU_TASK_STAT_STATE task = 3 → s.chip.mc.ready = [] → s.chip.mc.resv = [] → ∃ u, exec (.coreWatchdogReset t j) s = .next u ∧ u.chip.rg R.MCU_TASK_STAT_STATE task = 6 ∧ u.chip.rg R.MCU_TASK_STAT_FAULT task = 1 ∧ Tab.get 0 u.chip.mc.entry (s.chip.rg R.MCU_CORE_STAT_PHYS j) = 0x100040 ∧ u.chip.rg R.MCU_CORE_STAT_STATE j = (if s.chip.rg R.MCU_CTRL_HALT 0 = 0 then 0 else 3) ∧ u.chip.rg R.MCU_CORE_STAT_TASK j = 0 ∧ u.chip.mc.run = s.chip.mc.run.erase j ∧ kept s u [R.MCU_TASK_STAT_STATE.key task, R.MCU_TASK_STAT_FAULT.key task, R.MCU_CORE_STAT_STATE.key j, R.MCU_CORE_STAT_TASK.key j, R.MCU_SCHED_SELF_TASK.key j]) ∧
  (∀ (t : Nat) (j : Fin 16) (s : State), ready s → s.chip.domOn 2 = true → s.chip.rg R.MCU_MTIMECMP_HI_US j * 2 ^ 32 + s.chip.rg R.MCU_MTIMECMP_LO_US j ≤ (chipAt s t).mtime → ∃ u, exec (.mtimerInterrupt t j) s = .next u ∧ newest u = some { kind := .coreIrq, unit := j, data := [0], bytes := [] } ∧ kept s u []) ∧
  (∀ (t : Nat) (v : Nat) (s : State), ready s → s.chip.domOn 2 = true → s.chip.mc.hostHeld = none → (chipAt s t).fifoFull = false → bits v 0 4 = 10 → s.chip.rg R.MCU_TASK_STAT_STATE (bits v 16 9) ≠ 2 → ∃ u, exec (.mcuHostCmd t v) s = .next u ∧ answered u stOk ∧ u.chip.rg R.MCU_TASK_CFG_PRIO (bits v 16 9) = bits v 4 12 % 32 ∧ kept s u [R.MCU_TASK_CFG_PRIO.key (bits v 16 9)]) ∧
  (∀ (t : Nat) (v : Nat) (s : State), ready s → s.chip.domOn 2 = true → s.chip.mc.hostHeld = none → (chipAt s t).fifoFull = false → bits v 0 4 ≠ 1 → bits v 0 4 < 7 ∨ 10 < bits v 0 4 → ∃ u, exec (.mcuHostCmd t v) s = .next u ∧ answered u stRefused ∧ kept s u []) ∧
  (∀ (t : Nat) (v : Nat) (s : State), ready s → s.chip.domOn 2 = true → s.chip.mc.hostHeld = none → (chipAt s t).fifoFull = true → ∃ u, exec (.mcuHostCmd t v) s = .next u ∧ u.chip.mc.hostHeld = some { word := v % 2 ^ 32, at_ := max s.chip.now t, free := (chipAt s t).fifoFree } ∧ u.chip.out = s.chip.out ∧ u.chip.counter C.MCU_FIFO_FULL 0 = (s.chip.counter C.MCU_FIFO_FULL 0 + 1) % 2 ^ 48 ∧ regsKept s u [] ∧ u.mem = s.mem) ∧
  (∀ (t : Nat) (h : HostCmd) (s : State), ready s → s.chip.domOn 2 = true → s.chip.mc.hostHeld = some h → h.at_ + msPs ≤ h.free → h.at_ + msPs ≤ max s.chip.now t → ∃ u, exec (.hostCmdBusy t) s = .next u ∧ answered u stBusy ∧ u.chip.mc.hostHeld = none ∧ kept s u []) ∧
  (∀ (t : Nat) (k : Fin 512) (v : Nat) (s : State), ready s → s.chip.domOn 2 = true → s.chip.rg R.MCU_TASK_STAT_STATE k < 2 → ∃ u, exec (.taskCfgWrite t k v) s = .next u ∧ answered u stOk ∧ u.chip.rg R.MCU_TASK_CFG_PRIO k = bits v 0 5 ∧ u.chip.rg R.MCU_TASK_CFG_IMG k = bits v 5 1 ∧ u.chip.rg R.MCU_TASK_CFG_SERVICE k = bits v 6 1 ∧ u.chip.rg R.MCU_TASK_CFG_VALID k = bits v 7 1 ∧ u.chip.rg R.MCU_TASK_CFG_AFFINITY k = bits v 16 16 ∧ u.chip.rg R.MCU_TASK_STAT_STATE k = bits v 7 1 ∧ kept s u [R.MCU_TASK_CFG_PRIO.key k, R.MCU_TASK_CFG_IMG.key k, R.MCU_TASK_CFG_SERVICE.key k, R.MCU_TASK_CFG_VALID.key k, R.MCU_TASK_CFG_AFFINITY.key k, R.MCU_TASK_STAT_STATE.key k]) ∧
  (∀ (t : Nat) (k : Fin 512) (v : Nat) (s : State), ready s → s.chip.domOn 2 = true → 2 ≤ s.chip.rg R.MCU_TASK_STAT_STATE k → s.chip.rb R.MCU_TASK_CFG_VALID k = bit v 7 → ∃ u, exec (.taskCfgWrite t k v) s = .next u ∧ answered u stOk ∧ u.chip.rg R.MCU_TASK_CFG_AFFINITY k = bits v 16 16 ∧ kept s u [R.MCU_TASK_CFG_AFFINITY.key k]) ∧
  (∀ (t : Nat) (v : Nat) (s : State), ready s → s.chip.domOn 2 = true → 1 ≤ bits v 16 10 → bits v 16 10 ≤ 1000 → bit v 0 = true → s.chip.rg R.MCU_CTRL_HALT 0 = 0 → ∃ u, exec (.mcuHalt t v) s = .next u ∧ answered u stOk ∧ u.chip.rg R.MCU_CTRL_HALT 0 = 1 ∧ u.chip.rg R.MCU_CTRL_EVT_EN 0 = bits v 1 1 ∧ u.chip.rg R.MCU_CTRL_PRE_TO 0 = bits v 16 10 ∧ (∀ j : Fin 16, u.chip.rg R.MCU_CORE_STAT_STATE j = (if s.chip.rg R.MCU_CORE_STAT_STATE j = 0 then 3 else s.chip.rg R.MCU_CORE_STAT_STATE j)) ∧ regsKept s u ([R.MCU_CTRL_HALT.key 0, R.MCU_CTRL_EVT_EN.key 0, R.MCU_CTRL_PRE_TO.key 0] ++ (List.range 16).map (fun j => R.MCU_CORE_STAT_STATE.key j)) ∧ u.chip.cnt = s.chip.cnt ∧ u.mem = s.mem)

/-- Work queue pointers and transmit descriptors: R365, R366, R375. -/
def Obligations.WorkQueueCommands : Prop :=
  (∀ (t : Nat) (w : Fin 49) (v : Nat) (s : State), ready s → s.chip.domOn 2 = true → w.val ≤ 32 → v < 65536 → (s.chip.rg R.MCU_WQ_HEAD_INDEX w + 65536 - v) % 65536 ≤ s.chip.wqSlots w → ∃ u, exec (.wqPointerWrite t w true v) s = .next u ∧ answered u stOk ∧ u.chip.rg R.MCU_WQ_TAIL_INDEX w = v ∧ kept s u [R.MCU_WQ_TAIL_INDEX.key w]) ∧
  (∀ (t : Nat) (w : Fin 49) (v : Nat) (s : State), ready s → s.chip.domOn 2 = true → 32 < w.val → v < 65536 → (v + 65536 - s.chip.rg R.MCU_WQ_TAIL_INDEX w) % 65536 ≤ s.chip.wqSlots w → ∃ u, exec (.wqPointerWrite t w false v) s = .next u ∧ answered u stOk ∧ u.chip.rg R.MCU_WQ_HEAD_INDEX w = v ∧ kept s u [R.MCU_WQ_HEAD_INDEX.key w]) ∧
  (∀ (t : Nat) (w : Fin 49) (v : Nat) (s : State), ready s → s.chip.domOn 2 = true → w.val ≤ 32 → ∃ u, exec (.wqPointerWrite t w false v) s = .next u ∧ answered u stOk ∧ kept s u []) ∧
  (∀ (t : Nat) (j : Fin 16) (a : Nat) (d : List Byte) (s : State), ready s → s.chip.domOn 2 = true → s.chip.rg R.MCU_WQ_CFG_EN (33 + j) = 1 → s.chip.wqOcc (33 + j) ≠ 0 → (chipAt s t).ddrOk = true → a = s.chip.wqAddr (33 + j) (s.chip.rg R.MCU_WQ_TAIL_INDEX (33 + j)) → d = s.mem.ddrRead a 16 → half d 0 = 0x0300 → half d 2 = 0 → 60 ≤ half d 4 → half d 4 ≤ s.chip.maxFrame - 4 → beAt d 8 8 + half d 4 ≤ s.chip.ddrCap → ∃ u, exec (.txDescProcess t j) s = .next u ∧ u.chip.pp.hostQ = s.chip.pp.hostQ ++ [(4, s.mem.ddrRead (beAt d 8 8) (half d 4))] ∧ u.chip.rg R.MCU_WQ_TAIL_INDEX (33 + j) = (s.chip.rg R.MCU_WQ_TAIL_INDEX (33 + j) + 1) % 65536 ∧ u.mem = s.mem.apply (.ddr (a + 6) [0, 0]) ∧ regsKept s u [R.MCU_WQ_TAIL_INDEX.key (33 + j)] ∧ u.chip.cnt = s.chip.cnt) ∧
  (∀ (t : Nat) (j : Fin 16) (a : Nat) (d : List Byte) (s : State), ready s → s.chip.domOn 2 = true → s.chip.rg R.MCU_WQ_CFG_EN (33 + j) = 1 → s.chip.wqOcc (33 + j) ≠ 0 → (chipAt s t).ddrOk = true → a = s.chip.wqAddr (33 + j) (s.chip.rg R.MCU_WQ_TAIL_INDEX (33 + j)) → d = s.mem.ddrRead a 16 → 4 < byteAt d 0 ∨ byteAt d 1 ≠ 0 ∨ half d 4 < 60 ∨ s.chip.maxFrame - 4 < half d 4 → ∃ u, exec (.txDescProcess t j) s = .next u ∧ u.chip.rg R.MCU_WQ_TAIL_INDEX (33 + j) = (s.chip.rg R.MCU_WQ_TAIL_INDEX (33 + j) + 1) % 65536 ∧ u.mem = s.mem.apply (.ddr (a + 6) [0, 4]) ∧ regsKept s u [R.MCU_WQ_TAIL_INDEX.key (33 + j)] ∧ u.chip.cnt = s.chip.cnt)

/-- Swap of a management core: R370, R371. -/
def Obligations.SpareCoreCommands : Prop :=
  (∀ (t : Nat) (j : Fin 16) (s : State), ready s → s.chip.domOn 2 = true → s.chip.rg R.MCU_SPARE_STAT_STATE 0 = 0 → s.chip.rg R.HLT_SPARE_CHIP_MCU 0 = 1 → s.chip.rg R.MCU_CORE_STAT_STATE j ≠ 4 → ∃ u, exec (.mcuSpareGo t (16 + j.val)) s = .next u ∧ answered u stOk ∧ u.chip.rg R.MCU_SPARE_STAT_STATE 0 = 1 ∧ u.chip.rg R.MCU_STAT_SWAPPING 0 = 1 ∧ u.chip.mc.spareCore = j ∧ kept s u [R.MCU_SPARE_CMD_CORE.key 0, R.MCU_SPARE_STAT_STATE.key 0, R.MCU_STAT_SWAPPING.key 0]) ∧
  (∀ (t : Nat) (j : Fin 16) (s : State), ready s → s.chip.domOn 2 = true → s.chip.rg R.MCU_SPARE_STAT_STATE 0 ≠ 0 ∨ s.chip.rg R.HLT_SPARE_CHIP_MCU 0 = 0 ∨ s.chip.rg R.MCU_CORE_STAT_STATE j = 4 → ∃ u, exec (.mcuSpareGo t (16 + j.val)) s = .next u ∧ answered u stRefused ∧ kept s u []) ∧
  (∀ (t : Nat) (s : State), ready s → s.chip.domOn 2 = true → s.chip.rg R.MCU_SPARE_STAT_STATE 0 = 1 → s.chip.mc.run.find s.chip.mc.spareCore = none → ∃ u, exec (.mcuSpareDrained t) s = .next u ∧ u.chip.rg R.MCU_SPARE_STAT_STATE 0 = 2 ∧ kept s u [R.MCU_SPARE_STAT_STATE.key 0]) ∧
  (∀ (t : Nat) (j : Fin 16) (sp : Nat) (s : State), ready s → s.chip.domOn 2 = true → s.chip.rg R.MCU_TRACE_CFG_EN 0 = 0 → s.chip.rg R.MCU_SPARE_STAT_STATE 0 = 2 → s.chip.mc.spareCore = j → s.chip.rg R.MCU_SPARE_STAT_PHYS 0 = sp → sp < 17 → s.chip.rg R.MCU_CORE_STAT_PHYS j < 17 → s.chip.mc.ready = [] → s.chip.mc.resv = [] → s.chip.rg R.MCU_CORE_STAT_STATE j = 0 → ∃ u, exec (.mcuSpareCopied t) s = .next u ∧ u.chip.rg R.MCU_CORE_STAT_PHYS j = sp ∧ u.chip.rg R.MCU_SPARE_STAT_PHYS 0 = 31 ∧ u.chip.rg R.MCU_SPARE_STAT_STATE 0 = 0 ∧ u.chip.rg R.MCU_STAT_SWAPPING 0 = 0 ∧ u.chip.rg R.HLT_SPARE_CHIP_MCU 0 = 0 ∧ u.chip.rg R.HLT_WEAR_STAT_LEVEL (423 + s.chip.rg R.MCU_CORE_STAT_PHYS j) = 3 ∧ Tab.get [] u.chip.mc.lmem sp = Tab.get [] s.chip.mc.lmem (s.chip.rg R.MCU_CORE_STAT_PHYS j) ∧ u.chip.counter C.MCU_SWAP 0 = (s.chip.counter C.MCU_SWAP 0 + 1) % 2 ^ 48)

/-- Programming of fuses, their check, flash operations, debug: R376, R377, R378, R380, R405, R406. -/
def Obligations.FuseAndFlashCommands : Prop :=
  (∀ (t : Nat) (group : Fin 16) (s : State), ready s → s.chip.domOn 3 = true → group.val ≤ 9 → s.chip.sec.fuseOp = none → s.chip.fuseRefused group ((List.range 16).map (fun w => s.chip.rg R.SEC_FUSE_DATA_DATA w)) = false → ∃ u, exec (.fuseProgram t group true) s = .next u ∧ answered u stOk ∧ u.chip.rg R.SEC_FUSE_CTRL_GROUP 0 = group ∧ u.chip.rg R.SEC_FUSE_CTRL_BUSY 0 = 1 ∧ u.chip.rg R.SEC_FUSE_CTRL_RESULT 0 = 0 ∧ (∀ w : Fin 16, u.chip.rg R.SEC_FUSE_DATA_DATA w = 0) ∧ u.chip.sec.fuseOp = some (group.val, (List.range 16).map (fun w => s.chip.rg R.SEC_FUSE_DATA_DATA w)) ∧ regsKept s u ((List.range 16).map (fun w => R.SEC_FUSE_DATA_DATA.key w) ++ [R.SEC_FUSE_CTRL_GROUP.key 0, R.SEC_FUSE_CTRL_BUSY.key 0, R.SEC_FUSE_CTRL_RESULT.key 0]) ∧ u.mem = s.mem) ∧
  (∀ (t : Nat) (group : Fin 16) (supply : Bool) (s : State), ready s → s.chip.domOn 3 = true → group.val ≤ 9 → s.chip.sec.fuseOp = none → s.chip.fuseRefused group ((List.range 16).map (fun w => s.chip.rg R.SEC_FUSE_DATA_DATA w)) = true ∨ supply = false → ∃ u, exec (.fuseProgram t group supply) s = .next u ∧ answered u stRefused ∧ u.chip.rg R.SEC_FUSE_CTRL_RESULT 0 = (if s.chip.fuseRefused group ((List.range 16).map (fun w => s.chip.rg R.SEC_FUSE_DATA_DATA w)) then 1 else 2) ∧ u.chip.sec.fuses = s.chip.sec.fuses ∧ u.chip.sec.fuseOp = none ∧ u.mem = s.mem) ∧
  (∀ (t : Nat) (g : Nat) (ws : List Nat) (s : State), ready s → s.chip.sec.fuseOp = some (g, ws) → ∃ u, exec (.fuseProgramDone t true) s = .next u ∧ u.chip.sec.fuses = s.chip.sec.fuses ||| fuseBits g ws ∧ u.chip.sec.fuseDone = setBit s.chip.sec.fuseDone g ∧ u.chip.rg R.SEC_FUSE_CTRL_BUSY 0 = 0 ∧ u.chip.rg R.SEC_FUSE_CTRL_RESULT 0 = 0 ∧ u.chip.rg R.SEC_EVT_DONE 0 = 1 ∧ kept s u [R.SEC_FUSE_CTRL_BUSY.key 0, R.SEC_FUSE_CTRL_RESULT.key 0, R.SEC_EVT_DONE.key 0]) ∧
  (∀ (t : Nat) (g : Nat) (ws : List Nat) (s : State), ready s → s.chip.sec.fuseOp = some (g, ws) → ∃ u, exec (.fuseProgramDone t false) s = .next u ∧ u.chip.sec.fuses = s.chip.sec.fuses ||| (fuseBits g ws &&& s.chip.draw.1) ∧ u.chip.sec.fuseDone = s.chip.sec.fuseDone ∧ u.chip.rg R.SEC_FUSE_CTRL_BUSY 0 = 0 ∧ u.chip.rg R.SEC_FUSE_CTRL_RESULT 0 = 3 ∧ u.chip.rg R.SEC_EVT_DONE 0 = 1 ∧ kept s u [R.SEC_FUSE_CTRL_BUSY.key 0, R.SEC_FUSE_CTRL_RESULT.key 0, R.SEC_EVT_DONE.key 0]) ∧
  (∀ (t : Nat) (grown : Nat) (s : State), ready s → s.chip.sec.fuseChkAt + secPs ≤ max s.chip.now t → s.chip.sec.fuses ||| (grown % 2 ^ 8192) = s.chip.sec.fuseImg → ∃ u, exec (.fuseCheck t grown) s = .next u ∧ u.chip.sec = { s.chip.sec with fuses := s.chip.sec.fuseImg, fuseChkAt := max s.chip.now t } ∧ kept s u []) ∧
  (∀ (t : Nat) (grown : Nat) (s : State), ready s → s.chip.sec.fuseChkAt + secPs ≤ max s.chip.now t → s.chip.sec.fuses ||| (grown % 2 ^ 8192) ≠ s.chip.sec.fuseImg → s.chip.rbit R.SEC_ALARM_STAT_ACTIVE 0 6 = false → ∃ u, exec (.fuseCheck t grown) s = .next u ∧ u.chip.rbit R.SEC_ALARM_STAT_ACTIVE 0 6 = true ∧ u.chip.rbit R.SEC_ALARM_STAT_RELEASE 0 6 = true ∧ u.chip.rg R.SEC_EVT_ALARM 0 = 1 ∧ u.chip.rg R.SEC_ALARM_STAT_ERASED 0 = 1 ∧ u.chip.rg R.SEC_STAT_ID_READY 0 = 0 ∧ u.chip.rg R.TRK_TERM_ID_MMK 0 = 0 ∧ u.chip.sec.vault = [] ∧ u.chip.sec.trunkKeys = [] ∧ u.chip.sec.msTx = [] ∧ u.chip.sec.msRx = [] ∧ u.chip.sec.offer = none ∧ (s.chip.hp.dma = [] → u.mem = s.mem)) ∧
  (∀ (t : Nat) (s : State), ready s → s.chip.domOn 3 = true → s.chip.sec.flashOp = none → s.chip.rg R.SEC_FLASH_ADDR_ADDR 0 % 65536 = 0 → s.chip.rg R.SEC_FLASH_ADDR_ADDR 0 < 0x40000000 → s.chip.domOn 4 = true → ∃ u, exec (.flashErase t) s = .next u ∧ answered u stOk ∧ u.chip.rg R.SEC_FLASH_CTRL_OP 0 = 1 ∧ u.chip.rg R.SEC_FLASH_CTRL_BUSY 0 = 1 ∧ u.chip.rg R.SEC_FLASH_CTRL_RESULT 0 = 0 ∧ u.chip.sec.flashOp = some (1, s.chip.rg R.SEC_FLASH_ADDR_ADDR 0, s.chip.rg R.SEC_FLASH_DDR_ADDR4K 0 * 4096) ∧ kept s u [R.SEC_FLASH_CTRL_OP.key 0, R.SEC_FLASH_CTRL_BUSY.key 0, R.SEC_FLASH_CTRL_RESULT.key 0]) ∧
  (∀ (t : Nat) (s : State), ready s → s.chip.domOn 3 = true → s.chip.sec.flashOp = none → s.chip.rg R.SEC_FLASH_ADDR_ADDR 0 % 65536 ≠ 0 → ∃ u, exec (.flashErase t) s = .next u ∧ answered u stRefused ∧ u.chip.rg R.SEC_FLASH_CTRL_RESULT 0 = 1 ∧ u.chip.sec.flashOp = none ∧ kept s u [R.SEC_FLASH_CTRL_OP.key 0, R.SEC_FLASH_CTRL_RESULT.key 0]) ∧
  (∀ (t : Nat) (s : State), ready s → s.chip.domOn 3 = true → s.chip.sec.flashOp = none → s.chip.rg R.SEC_FLASH_ADDR_ADDR 0 % 4096 = 0 → s.chip.rg R.SEC_FLASH_ADDR_ADDR 0 < 0x40000000 → (chipAt s t).ddrOk = true → s.chip.rg R.SEC_FLASH_DDR_ADDR4K 0 * 4096 + 4096 ≤ s.chip.ddrCap → ∃ u, exec (.flashProgram t) s = .next u ∧ answered u stOk ∧ u.chip.rg R.SEC_FLASH_CTRL_OP 0 = 2 ∧ u.chip.rg R.SEC_FLASH_CTRL_BUSY 0 = 1 ∧ u.chip.rg R.SEC_FLASH_CTRL_RESULT 0 = 0 ∧ u.chip.sec.flashOp = some (2, s.chip.rg R.SEC_FLASH_ADDR_ADDR 0, s.chip.rg R.SEC_FLASH_DDR_ADDR4K 0 * 4096) ∧ kept s u [R.SEC_FLASH_CTRL_OP.key 0, R.SEC_FLASH_CTRL_BUSY.key 0, R.SEC_FLASH_CTRL_RESULT.key 0]) ∧
  (∀ (t : Nat) (s : State), ready s → s.chip.domOn 3 = true → s.chip.sec.flashOp = none → s.chip.rg R.SEC_FLASH_ADDR_ADDR 0 % 4096 ≠ 0 → ∃ u, exec (.flashProgram t) s = .next u ∧ answered u stRefused ∧ u.chip.rg R.SEC_FLASH_CTRL_RESULT 0 = 1 ∧ u.chip.sec.flashOp = none ∧ kept s u [R.SEC_FLASH_CTRL_OP.key 0, R.SEC_FLASH_CTRL_RESULT.key 0]) ∧
  (∀ (t : Nat) (s : State), ready s → s.chip.domOn 3 = true → s.chip.sec.flashOp = none → s.chip.rg R.SEC_FLASH_ADDR_ADDR 0 % 4096 = 0 → s.chip.rg R.SEC_FLASH_ADDR_ADDR 0 < 0x40004000 → (chipAt s t).ddrOk = true → s.chip.rg R.SEC_FLASH_DDR_ADDR4K 0 * 4096 + 4096 ≤ s.chip.ddrCap → ∃ u, exec (.flashRead t) s = .next u ∧ answered u stOk ∧ u.chip.rg R.SEC_FLASH_CTRL_OP 0 = 3 ∧ u.chip.rg R.SEC_FLASH_CTRL_BUSY 0 = 1 ∧ u.chip.rg R.SEC_FLASH_CTRL_RESULT 0 = 0 ∧ u.chip.sec.flashOp = some (3, s.chip.rg R.SEC_FLASH_ADDR_ADDR 0, s.chip.rg R.SEC_FLASH_DDR_ADDR4K 0 * 4096) ∧ kept s u [R.SEC_FLASH_CTRL_OP.key 0, R.SEC_FLASH_CTRL_BUSY.key 0, R.SEC_FLASH_CTRL_RESULT.key 0]) ∧
  (∀ (t : Nat) (s : State), ready s → s.chip.domOn 3 = true → s.chip.sec.flashOp = none → s.chip.rg R.SEC_FLASH_ADDR_ADDR 0 % 4096 ≠ 0 → ∃ u, exec (.flashRead t) s = .next u ∧ answered u stRefused ∧ u.chip.rg R.SEC_FLASH_CTRL_RESULT 0 = 1 ∧ u.chip.sec.flashOp = none ∧ kept s u [R.SEC_FLASH_CTRL_OP.key 0, R.SEC_FLASH_CTRL_RESULT.key 0]) ∧
  (∀ (t : Nat) (a d : Nat) (s : State), ready s → s.chip.sec.flashOp = some (1, a, d) → ∃ u, exec (.flashOpDone t true) s = .next u ∧ u.chip.rg R.SEC_FLASH_CTRL_BUSY 0 = 0 ∧ u.chip.rg R.SEC_EVT_DONE 0 = 1 ∧ u.chip.sec.flashOp = none ∧ u.chip.rg R.SEC_FLASH_CTRL_RESULT 0 = 0 ∧ u.mem = s.mem.apply (.erase a 65536) ∧ regsKept s u [R.SEC_FLASH_CTRL_BUSY.key 0, R.SEC_FLASH_CTRL_RESULT.key 0, R.SEC_EVT_DONE.key 0] ∧ u.chip.cnt = s.chip.cnt) ∧
  (∀ (t : Nat) (a d : Nat) (s : State), ready s → s.chip.sec.flashOp = some (2, a, d) → ∃ u, exec (.flashOpDone t true) s = .next u ∧ u.chip.rg R.SEC_FLASH_CTRL_BUSY 0 = 0 ∧ u.chip.rg R.SEC_EVT_DONE 0 = 1 ∧ u.chip.sec.flashOp = none ∧ u.chip.rg R.SEC_FLASH_CTRL_RESULT 0 = 0 ∧ u.mem = s.mem.apply (.flash a (s.mem.ddrRead d 4096)) ∧ regsKept s u [R.SEC_FLASH_CTRL_BUSY.key 0, R.SEC_FLASH_CTRL_RESULT.key 0, R.SEC_EVT_DONE.key 0] ∧ u.chip.cnt = s.chip.cnt) ∧
  (∀ (t : Nat) (a d : Nat) (s : State), ready s → s.chip.sec.flashOp = some (3, a, d) → a < 0x40000000 → ∃ u, exec (.flashOpDone t true) s = .next u ∧ u.chip.rg R.SEC_FLASH_CTRL_BUSY 0 = 0 ∧ u.chip.rg R.SEC_EVT_DONE 0 = 1 ∧ u.chip.sec.flashOp = none ∧ u.chip.rg R.SEC_FLASH_CTRL_RESULT 0 = 0 ∧ u.mem = s.mem.apply (.ddr d (s.mem.flashRead a 4096)) ∧ regsKept s u [R.SEC_FLASH_CTRL_BUSY.key 0, R.SEC_FLASH_CTRL_RESULT.key 0, R.SEC_EVT_DONE.key 0] ∧ u.chip.cnt = s.chip.cnt) ∧
  (∀ (t : Nat) (op a d : Nat) (s : State), ready s → s.chip.sec.flashOp = some (op, a, d) → ∃ u, exec (.flashOpDone t false) s = .next u ∧ u.chip.rg R.SEC_FLASH_CTRL_BUSY 0 = 0 ∧ u.chip.rg R.SEC_EVT_DONE 0 = 1 ∧ u.chip.sec.flashOp = none ∧ u.chip.rg R.SEC_FLASH_CTRL_RESULT 0 = 2 ∧ regsKept s u [R.SEC_FLASH_CTRL_BUSY.key 0, R.SEC_FLASH_CTRL_RESULT.key 0, R.SEC_EVT_DONE.key 0] ∧ u.chip.cnt = s.chip.cnt) ∧
  (∀ (t : Nat) (s : State), ready s → s.chip.domOn 3 = true → s.chip.debugLocked = false → s.chip.rbit R.SEC_ALARM_STAT_ACTIVE 0 7 = false → ∃ u, exec (.debugEnable t) s = .next u ∧ answered u stOk ∧ u.chip.rg R.SEC_DEBUG_EN 0 = 1 ∧ u.chip.rbit R.SEC_ALARM_STAT_ACTIVE 0 7 = true ∧ u.chip.rbit R.SEC_ALARM_STAT_RELEASE 0 7 = true ∧ u.chip.rg R.SEC_ALARM_STAT_ERASED 0 = 1 ∧ u.chip.rg R.SEC_STAT_ID_READY 0 = 0 ∧ u.chip.rg R.TRK_TERM_ID_MMK 0 = 0 ∧ u.chip.sec.vault = [] ∧ u.chip.sec.trunkKeys = [] ∧ u.chip.sec.msTx = [] ∧ u.chip.sec.msRx = [] ∧ u.chip.sec.offer = none ∧ (s.chip.hp.dma = [] → u.mem = s.mem)) ∧
  (∀ (t : Nat) (s : State), ready s → s.chip.domOn 3 = true → s.chip.debugLocked = true → ∃ u, exec (.debugEnable t) s = .next u ∧ answered u stRefused ∧ kept s u [])

/-- Boot, its retry and halt, a candidate Omlia: R379, R381, R382, R384. -/
def Obligations.BootAndFirmwareCommands : Prop :=
  (∀ (t : Nat) (sel : Fin 4) (s : State), ready s → s.chip.sec.bootStep = 0 → s.chip.rg R.SEC_BOOT_STAT_STAGE 0 = 0 → s.chip.sec.entBad = false → s.chip.rg R.SEC_ALARM_STAT_RELEASE 0 = 0 → ∃ u, exec (.bootStart t sel true) s = .next u ∧ u.chip.sec.meas = sha3_512 (zeros 64 ++ [1] ++ beBytes 64 Config.romDigest.toNat) ∧ u.chip.rg R.SEC_MEAS_CNT_COUNT 0 = 1 ∧ u.chip.rg R.SEC_STAT_ENT_OK 0 = 1 ∧ u.chip.rg R.SEC_STAT_ID_READY 0 = 1 ∧ u.chip.sec.bootStep = 2 ∧ u.chip.sec.bootSel = sel ∧ kept s u [R.SEC_MEAS_CNT_COUNT.key 0, R.SEC_STAT_ENT_OK.key 0, R.SEC_STAT_ID_READY.key 0]) ∧
  (∀ (t : Nat) (sel : Fin 4) (s : State), ready s → s.chip.sec.bootStep = 0 → s.chip.rg R.SEC_BOOT_STAT_STAGE 0 = 0 → ∃ u, exec (.bootStart t sel false) s = .next u ∧ u.chip.rg R.SEC_BOOT_STAT_STAGE 0 = 4 ∧ u.chip.rg R.SEC_BOOT_STAT_CAUSE 0 = 5 ∧ u.chip.rg R.SEC_EVT_BOOT_HALT 0 = 1 ∧ u.chip.rbit R.SEC_ALARM_STAT_ACTIVE 0 6 = true ∧ u.mem = s.mem) ∧
  (∀ (t : Nat) (dimms ranks cap : Nat) (s : State), ready s → s.chip.sec.bootStep = 2 → s.chip.rg R.SEC_BOOT_STAT_STAGE 0 = 0 → dimms = 1 ∨ dimms = 2 → ranks = 1 ∨ ranks = 2 → 16 ≤ cap → cap ≤ 256 → s.chip.rg R.MEM_DDR_CFG_SPARE_RANK 0 = 0 → dirOk s.mem 0 = false → dirOk s.mem 1 = false → ∃ u, exec (.bootDdrTrained t dimms ranks cap true) s = .next u ∧ u.chip.rg R.MEM_DDR_STAT_TRAINED 0 = 1 ∧ u.chip.rg R.MEM_DDR_STAT_DIMMS 0 = dimms ∧ u.chip.rg R.MEM_DDR_STAT_RANKS 0 = dimms * ranks ∧ u.chip.rg R.MEM_DDR_STAT_RATE 0 = (if dimms = 1 then 64 else 56) ∧ u.chip.rg R.MEM_DDR_STAT_CAP 0 = cap / ranks * (dimms * ranks) % 2 ^ R.MEM_DDR_STAT_CAP.width ∧ u.chip.rg R.HLT_SPARE_CHIP_DDR_RANK 0 = 0 ∧ u.chip.rg R.SEC_BOOT_STAT_STAGE 0 = 4 ∧ u.chip.rg R.SEC_BOOT_STAT_CAUSE 0 = 1 ∧ u.chip.rg R.SEC_EVT_BOOT_HALT 0 = 1 ∧ kept s u [R.MEM_DDR_STAT_TRAINED.key 0, R.MEM_DDR_STAT_DIMMS.key 0, R.MEM_DDR_STAT_RANKS.key 0, R.MEM_DDR_STAT_RATE.key 0, R.MEM_DDR_STAT_CAP.key 0, R.HLT_SPARE_CHIP_DDR_RANK.key 0, R.SEC_BOOT_STAT_STAGE.key 0, R.SEC_BOOT_STAT_CAUSE.key 0, R.SEC_EVT_BOOT_HALT.key 0]) ∧
  (∀ (t : Nat) (dimms ranks cap : Nat) (s : State), ready s → s.chip.sec.bootStep = 2 → s.chip.rg R.SEC_BOOT_STAT_STAGE 0 = 0 → ∃ u, exec (.bootDdrTrained t dimms ranks cap false) s = .next u ∧ u.chip.rg R.SEC_BOOT_STAT_STAGE 0 = 4 ∧ u.chip.rg R.SEC_BOOT_STAT_CAUSE 0 = 6 ∧ u.chip.rg R.SEC_EVT_BOOT_HALT 0 = 1 ∧ kept s u [R.SEC_BOOT_STAT_STAGE.key 0, R.SEC_BOOT_STAT_CAUSE.key 0, R.SEC_EVT_BOOT_HALT.key 0]) ∧
  (∀ (t : Nat) (b : Fin 2) (cause : Nat) (s : State), ready s → s.chip.sec.bootStep = 4 → s.chip.sec.bootTry = [b.val] → cause = (chipAt s t).imageCause ((chipAt s t).bootImage s.mem b 2).1 ((chipAt s t).bootImage s.mem b 2).2 2 → ∃ u, exec (.bootStage1Run t) s = .next u ∧ (cause = 0 → u.chip.rg R.SEC_BOOT_STAT_STAGE 0 = 2 ∧ u.chip.sec.bootStep = 5 ∧ u.chip.sec.dOmlia = sha3_512 ((chipAt s t).bootImage s.mem b 2).1 ∧ u.chip.sec.meas = sha3_512 (s.chip.sec.meas ++ [3] ++ sha3_512 ((chipAt s t).bootImage s.mem b 2).1)) ∧ (cause ≠ 0 → u.chip.rg R.SEC_BOOT_STAT_STAGE 0 = 4 ∧ u.chip.rg R.SEC_BOOT_STAT_CAUSE 0 = cause % 2 ^ R.SEC_BOOT_STAT_CAUSE.width ∧ u.chip.rg R.SEC_MEAS_CNT_COUNT 0 = 1 ∧ u.chip.sec.bootTry = [] ∧ u.mem = s.mem)) ∧
  (∀ (t : Nat) (s : State), ready s → s.chip.sec.bootStep = 5 → s.chip.sec.bootTry = [2] → s.chip.swapEntries s.mem = [] → ∃ u, exec (.bootOmliaVerified t) s = .next u ∧ u.chip.rg R.SEC_BOOT_STAT_STAGE 0 = 3 ∧ u.chip.rg R.SEC_EVT_DONE 0 = 1 ∧ u.chip.mc.released = true ∧ u.chip.sec.bootStep = 6 ∧ kept s u [R.SEC_BOOT_STAT_STAGE.key 0, R.SEC_EVT_DONE.key 0]) ∧
  (∀ (t : Nat) (cause : Nat) (s : State), ready s → s.chip.domOn 3 = true → s.chip.rg R.SEC_BOOT_STAT_STAGE 0 = 4 → cause = (if (chipAt s t).ddrOk then (chipAt s t).imageCause ((chipAt s t).bootImage s.mem 2 1).1 ((chipAt s t).bootImage s.mem 2 1).2 1 else 6) → ∃ u, exec (.bootRetry t) s = .next u ∧ answered u stOk ∧ (cause = 0 → u.chip.rg R.SEC_BOOT_STAT_STAGE 0 = 1 ∧ u.chip.sec.bootStep = 4 ∧ u.chip.sec.bootTry = [2] ∧ u.chip.sec.dStage1 = sha3_512 ((chipAt s t).bootImage s.mem 2 1).1) ∧ (cause ≠ 0 → u.chip.rg R.SEC_BOOT_STAT_STAGE 0 = 4 ∧ u.chip.rg R.SEC_BOOT_STAT_CAUSE 0 = cause % 2 ^ R.SEC_BOOT_STAT_CAUSE.width ∧ u.chip.rg R.SEC_EVT_DONE 0 = 1 ∧ u.chip.sec.bootTry = []) ∧ u.mem = s.mem) ∧
  (∀ (t : Nat) (s : State), ready s → s.chip.domOn 3 = true → s.chip.rg R.SEC_BOOT_STAT_STAGE 0 ≠ 4 → ∃ u, exec (.bootRetry t) s = .next u ∧ answered u stRefused ∧ kept s u []) ∧
  (∀ (t : Nat) (s : State), ready s → s.chip.domOn 3 = true → s.chip.rg R.TRK_MODE_CODE 0 = 10 → s.chip.rg R.ALM_JUB_STAT_STATE 0 = 1 → ∃ u, exec (.fwCandVerify t) s = .next u ∧ answered u stOk ∧ u.chip.rg R.SEC_FW_CAND_CTRL_STATE 0 = 1 ∧ u.chip.rg R.SEC_FW_CAND_CTRL_CAUSE 0 = 0 ∧ u.chip.rg R.ALM_JUB_STAT_CAND_FW 0 = 0 ∧ u.chip.sec.candOp = some (s.chip.rg R.SEC_FW_CAND_ADDR_ADDR4K 0 * 4096, s.chip.rg R.SEC_FW_CAND_LEN_LEN 0) ∧ kept s u [R.SEC_FW_CAND_CTRL_STATE.key 0, R.SEC_FW_CAND_CTRL_CAUSE.key 0, R.ALM_JUB_STAT_CAND_FW.key 0]) ∧
  (∀ (t : Nat) (s : State), ready s → s.chip.domOn 3 = true → s.chip.rg R.TRK_MODE_CODE 0 ≠ 10 ∨ s.chip.rg R.ALM_JUB_STAT_STATE 0 ≠ 1 → ∃ u, exec (.fwCandVerify t) s = .next u ∧ answered u stRefused ∧ kept s u []) ∧
  (∀ (t : Nat) (a len cause : Nat) (s : State), ready s → s.chip.sec.candOp = some (a, len) → (chipAt s t).ddrOk = true → a + len ≤ s.chip.ddrCap → len ≤ maxFw → cause = (chipAt s t).imageCause (s.mem.ddrRead a len) len 2 → ∃ u, exec (.fwCandVerifyDone t) s = .next u ∧ u.chip.rg R.SEC_EVT_DONE 0 = 1 ∧ u.chip.sec.candOp = none ∧ (cause = 0 → u.chip.rg R.SEC_FW_CAND_CTRL_STATE 0 = 2 ∧ u.chip.rg R.ALM_JUB_STAT_CAND_FW 0 = 1 ∧ (u.chip.sec.cand.map (fun x => x.2)) = some (beAt (s.mem.ddrRead a len) 8 4)) ∧ (cause ≠ 0 → u.chip.rg R.SEC_FW_CAND_CTRL_STATE 0 = 3 ∧ u.chip.rg R.SEC_FW_CAND_CTRL_CAUSE 0 = cause % 2 ^ R.SEC_FW_CAND_CTRL_CAUSE.width) ∧ u.mem = s.mem)

/-- Management key, key loads, erasure of keys, the vault: R391, R392, R393, R394, R396, R397, R400, R402. -/
def Obligations.KeyCommands : Prop :=
  (∀ (t : Nat) (s : State), ready s → s.chip.domOn 3 = true → s.chip.sec.mkOp = none → s.chip.rg R.TRK_MODE_CODE 0 = 4 ∨ s.chip.rg R.TRK_MODE_CODE 0 = 5 ∨ s.chip.rg R.TRK_MODE_CODE 0 = 10 → s.chip.sec.entBad = false → s.chip.rg R.SEC_STAT_ID_READY 0 = 1 → ∃ u, exec (.mkOffer t) s = .next u ∧ answered u stOk ∧ u.chip.rg R.SEC_MK_CTRL_OP 0 = 1 ∧ u.chip.rg R.SEC_MK_CTRL_BUSY 0 = 1 ∧ u.chip.rg R.SEC_MK_CTRL_RESULT 0 = 0 ∧ u.chip.sec.mkOp = some (1, []) ∧ u.chip.sec.offer = none ∧ kept s u [R.SEC_MK_CTRL_OP.key 0, R.SEC_MK_CTRL_BUSY.key 0, R.SEC_MK_CTRL_RESULT.key 0]) ∧
  (∀ (t : Nat) (s : State), ready s → s.chip.domOn 3 = true → s.chip.rg R.TRK_MODE_CODE 0 ≠ 4 → s.chip.rg R.TRK_MODE_CODE 0 ≠ 5 → s.chip.rg R.TRK_MODE_CODE 0 ≠ 10 → ∃ u, exec (.mkOffer t) s = .next u ∧ answered u stRefused ∧ kept s u []) ∧
  (∀ (t : Nat) (s : State), ready s → s.chip.domOn 3 = true → s.chip.sec.mkOp = none → s.chip.rg R.SEC_ALARM_STAT_RELEASE 0 = 0 → (chipAt s t).ddrOk = true → ∃ u, exec (.mkAnswer t) s = .next u ∧ answered u stOk ∧ u.chip.rg R.SEC_MK_CTRL_OP 0 = 2 ∧ u.chip.rg R.SEC_MK_CTRL_BUSY 0 = 1 ∧ u.chip.rg R.SEC_MK_CTRL_RESULT 0 = 0 ∧ (u.chip.sec.mkOp.map (fun x => x.1)) = some 2 ∧ kept s u [R.SEC_MK_CTRL_OP.key 0, R.SEC_MK_CTRL_BUSY.key 0, R.SEC_MK_CTRL_RESULT.key 0]) ∧
  (∀ (t : Nat) (s : State), ready s → s.chip.domOn 3 = true → s.chip.sec.mkOp = none → s.chip.rg R.SEC_ALARM_STAT_RELEASE 0 ≠ 0 → ∃ u, exec (.mkAnswer t) s = .next u ∧ answered u stRefused ∧ u.chip.rg R.SEC_MK_CTRL_RESULT 0 = 5 ∧ u.chip.counter C.SEC_MK_FAIL 0 = (s.chip.counter C.SEC_MK_FAIL 0 + 1) % 2 ^ 48 ∧ regsKept s u [R.SEC_MK_CTRL_OP.key 0, R.SEC_MK_CTRL_RESULT.key 0] ∧ u.mem = s.mem) ∧
  (∀ (t : Nat) (s : State), ready s → s.chip.sec.mkOp = some (1, []) → s.chip.rg R.SEC_STAT_ID_READY 0 = 1 → ∃ u, exec (.mkOpDone t) s = .next u ∧ u.chip.rg R.SEC_MK_CTRL_BUSY 0 = 0 ∧ u.chip.rg R.SEC_MK_CTRL_RESULT 0 = 0 ∧ u.chip.rg R.SEC_EVT_DONE 0 = 1 ∧ u.chip.sec.offer.isSome = true ∧ u.mem = s.mem.apply (.ddr (s.chip.rg R.SEC_MK_ADDR_ADDR4K 0 * 4096) ((chipAt s t).offerBody (chipAt s t).draw.1 (chipAt s t).draw.2.draw.1)) ∧ regsKept s u [R.SEC_MK_CTRL_BUSY.key 0, R.SEC_MK_CTRL_RESULT.key 0, R.SEC_EVT_DONE.key 0] ∧ u.chip.cnt = s.chip.cnt) ∧
  (∀ (t : Nat) (b : List Byte) (o : MkOffer) (r : Nat) (s : State), ready s → s.chip.sec.mkOp = some (2, b) → s.chip.sec.offer = some o → r = (if ¬(b.length = 8820 ∧ byteAt b 8819 = 0) then 4 else if b.take 32 ≠ o.body.take 32 then 3 else if s.chip.headEndKey (sha3_512 (slice b 1600 2592)) = false then 1 else if Config.mldsaVerify (slice b 1600 2592) (ascii "KQ-MK-H") (sha3_512 (o.body ++ b.take 4192)) (slice b 4192 4627) = false then 2 else 0) → ∃ u, exec (.mkOpDone t) s = .next u ∧ u.chip.rg R.SEC_MK_CTRL_BUSY 0 = 0 ∧ u.chip.rg R.SEC_MK_CTRL_RESULT 0 = r ∧ u.chip.rg R.SEC_EVT_DONE 0 = 1 ∧ (r = 0 → u.chip.rg R.TRK_TERM_ID_MMK 0 = 1 ∧ (u.chip.sec.vault.find 0).isSome = true) ∧ (r ≠ 0 → u.chip.rg R.TRK_TERM_ID_MMK 0 = s.chip.rg R.TRK_TERM_ID_MMK 0 ∧ u.chip.sec.vault = s.chip.sec.vault ∧ u.chip.counter C.SEC_MK_FAIL 0 = (s.chip.counter C.SEC_MK_FAIL 0 + 1) % 2 ^ 48) ∧ regsKept s u [R.SEC_MK_CTRL_BUSY.key 0, R.SEC_MK_CTRL_RESULT.key 0, R.SEC_EVT_DONE.key 0, R.TRK_TERM_ID_MMK.key 0] ∧ u.mem = s.mem) ∧
  (∀ (t : Nat) (i : Nat) (s : State), ready s → s.chip.domOn 3 = true → s.chip.rg R.SEC_KEY_SEL_INDEX 0 = i → s.chip.keyPermits i 0 = true → s.chip.rg R.SEC_ALARM_STAT_RELEASE 0 = 0 → ∃ u, exec (.keyLoadTrunkDown t) s = .next u ∧ answered u stOk ∧ u.chip.rg R.SEC_KEY_CTRL_TARGET 0 = 0 ∧ u.chip.rg R.SEC_KIDX_STAT_DOWN i = 1 ∧ u.chip.rg R.SEC_KIDX_STAT_DISABLED i = 0 ∧ u.chip.sec.trunkKeys.find (2 * i + 0) = some s.chip.keyData ∧ u.chip.rg R.SEC_KEY_CTRL_RESULT 0 = 0 ∧ (∀ w : Fin 8, u.chip.rg R.SEC_KEY_DATA_KEY w = 0) ∧ (∀ w : Fin 6, u.chip.rg R.SEC_KEY_AUX_AUX w = 0) ∧ u.chip.counter C.SEC_KEY_LOADS 0 = (s.chip.counter C.SEC_KEY_LOADS 0 + 1) % 2 ^ 48 ∧ regsKept s u ((List.range 8).map (fun w => R.SEC_KEY_DATA_KEY.key w) ++ (List.range 6).map (fun w => R.SEC_KEY_AUX_AUX.key w) ++ [R.SEC_KEY_CTRL_TARGET.key 0, R.SEC_KEY_CTRL_RESULT.key 0, R.SEC_KIDX_STAT_DOWN.key i, R.SEC_KIDX_STAT_DISABLED.key i]) ∧ u.mem = s.mem) ∧
  (∀ (t : Nat) (s : State), ready s → s.chip.domOn 3 = true → s.chip.keyPermits (s.chip.rg R.SEC_KEY_SEL_INDEX 0) 0 = false ∨ s.chip.rg R.SEC_ALARM_STAT_RELEASE 0 ≠ 0 → ∃ u, exec (.keyLoadTrunkDown t) s = .next u ∧ answered u stRefused ∧ u.chip.rg R.SEC_KEY_CTRL_RESULT 0 = (if s.chip.rg R.SEC_ALARM_STAT_RELEASE 0 = 0 then 1 else 2) ∧ u.chip.sec.trunkKeys = s.chip.sec.trunkKeys ∧ u.chip.counter C.SEC_KEY_REFUSED 0 = (s.chip.counter C.SEC_KEY_REFUSED 0 + 1) % 2 ^ 48 ∧ regsKept s u ((List.range 8).map (fun w => R.SEC_KEY_DATA_KEY.key w) ++ (List.range 6).map (fun w => R.SEC_KEY_AUX_AUX.key w) ++ [R.SEC_KEY_CTRL_TARGET.key 0, R.SEC_KEY_CTRL_RESULT.key 0]) ∧ u.mem = s.mem) ∧
  (∀ (t : Nat) (i : Nat) (s : State), ready s → s.chip.domOn 3 = true → s.chip.rg R.SEC_KEY_SEL_INDEX 0 = i → s.chip.keyPermits i 1 = true → s.chip.rg R.SEC_ALARM_STAT_RELEASE 0 = 0 → ∃ u, exec (.keyLoadTrunkUp t) s = .next u ∧ answered u stOk ∧ u.chip.rg R.SEC_KEY_CTRL_TARGET 0 = 1 ∧ u.chip.rg R.SEC_KIDX_STAT_UP i = 1 ∧ u.chip.rg R.SEC_KIDX_STAT_DISABLED i = 0 ∧ u.chip.sec.trunkKeys.find (2 * i + 1) = some s.chip.keyData ∧ u.chip.rg R.SEC_KEY_CTRL_RESULT 0 = 0 ∧ (∀ w : Fin 8, u.chip.rg R.SEC_KEY_DATA_KEY w = 0) ∧ (∀ w : Fin 6, u.chip.rg R.SEC_KEY_AUX_AUX w = 0) ∧ u.chip.counter C.SEC_KEY_LOADS 0 = (s.chip.counter C.SEC_KEY_LOADS 0 + 1) % 2 ^ 48 ∧ regsKept s u ((List.range 8).map (fun w => R.SEC_KEY_DATA_KEY.key w) ++ (List.range 6).map (fun w => R.SEC_KEY_AUX_AUX.key w) ++ [R.SEC_KEY_CTRL_TARGET.key 0, R.SEC_KEY_CTRL_RESULT.key 0, R.SEC_KIDX_STAT_UP.key i, R.SEC_KIDX_STAT_DISABLED.key i]) ∧ u.mem = s.mem) ∧
  (∀ (t : Nat) (s : State), ready s → s.chip.domOn 3 = true → s.chip.keyPermits (s.chip.rg R.SEC_KEY_SEL_INDEX 0) 1 = false ∨ s.chip.rg R.SEC_ALARM_STAT_RELEASE 0 ≠ 0 → ∃ u, exec (.keyLoadTrunkUp t) s = .next u ∧ answered u stRefused ∧ u.chip.rg R.SEC_KEY_CTRL_RESULT 0 = (if s.chip.rg R.SEC_ALARM_STAT_RELEASE 0 = 0 then 1 else 2) ∧ u.chip.sec.trunkKeys = s.chip.sec.trunkKeys ∧ u.chip.counter C.SEC_KEY_REFUSED 0 = (s.chip.counter C.SEC_KEY_REFUSED 0 + 1) % 2 ^ 48 ∧ regsKept s u ((List.range 8).map (fun w => R.SEC_KEY_DATA_KEY.key w) ++ (List.range 6).map (fun w => R.SEC_KEY_AUX_AUX.key w) ++ [R.SEC_KEY_CTRL_TARGET.key 0, R.SEC_KEY_CTRL_RESULT.key 0]) ∧ u.mem = s.mem) ∧
  (∀ (t : Nat) (p an : Nat) (s : State), ready s → s.chip.domOn 3 = true → s.chip.rg R.SEC_KEY_SEL_PORT 0 = p → p < 128 → s.chip.rg R.SEC_KEY_SEL_AN 0 = an → an < 4 → s.chip.rg R.SEC_ALARM_STAT_RELEASE 0 = 0 → ∃ u, exec (.keyLoadMacsecTx t) s = .next u ∧ answered u stOk ∧ u.chip.rg R.SEC_MS_STAT_TX_AN p = an ∧ u.chip.rg R.SEC_MS_STAT_TX_SA p = 1 ∧ u.chip.rg R.SEC_MS_STAT_PN_EXH p = 0 ∧ (u.chip.sec.msTx.find (4 * p + an)).map (fun x => (x.sak, x.pn)) = some (s.chip.keyData, s.chip.keyAux 4 * 4294967296 + s.chip.keyAux 5) ∧ u.chip.rg R.SEC_KEY_CTRL_RESULT 0 = 0 ∧ (∀ w : Fin 8, u.chip.rg R.SEC_KEY_DATA_KEY w = 0) ∧ (∀ w : Fin 6, u.chip.rg R.SEC_KEY_AUX_AUX w = 0) ∧ u.chip.counter C.SEC_KEY_LOADS 0 = (s.chip.counter C.SEC_KEY_LOADS 0 + 1) % 2 ^ 48 ∧ regsKept s u ((List.range 8).map (fun w => R.SEC_KEY_DATA_KEY.key w) ++ (List.range 6).map (fun w => R.SEC_KEY_AUX_AUX.key w) ++ [R.SEC_KEY_CTRL_TARGET.key 0, R.SEC_KEY_CTRL_RESULT.key 0, R.SEC_MS_STAT_TX_AN.key p, R.SEC_MS_STAT_TX_SA.key p, R.SEC_MS_STAT_PN_EXH.key p]) ∧ u.mem = s.mem) ∧
  (∀ (t : Nat) (p an sc : Nat) (s : State), ready s → s.chip.domOn 3 = true → s.chip.rg R.SEC_KEY_SEL_PORT 0 = p → p < 128 → s.chip.rg R.SEC_KEY_SEL_AN 0 = an → an < 4 → s.chip.rg R.SEC_ALARM_STAT_RELEASE 0 = 0 → s.chip.rg R.SEC_KEY_SEL_SC 0 = sc → sc < 4 → ∃ u, exec (.keyLoadMacsecRx t) s = .next u ∧ answered u stOk ∧ u.chip.rbit R.SEC_MS_STAT_RX_SA p (4 * sc + an) = true ∧ (u.chip.sec.msRx.find (16 * p + (4 * sc + an))).map (fun x => (x.sak, x.sci, x.next)) = some (s.chip.keyData, s.chip.keyAux 4 * 4294967296 + s.chip.keyAux 5, 0) ∧ u.chip.rg R.SEC_KEY_CTRL_RESULT 0 = 0 ∧ (∀ w : Fin 8, u.chip.rg R.SEC_KEY_DATA_KEY w = 0) ∧ (∀ w : Fin 6, u.chip.rg R.SEC_KEY_AUX_AUX w = 0) ∧ u.chip.counter C.SEC_KEY_LOADS 0 = (s.chip.counter C.SEC_KEY_LOADS 0 + 1) % 2 ^ 48 ∧ regsKept s u ((List.range 8).map (fun w => R.SEC_KEY_DATA_KEY.key w) ++ (List.range 6).map (fun w => R.SEC_KEY_AUX_AUX.key w) ++ [R.SEC_KEY_CTRL_TARGET.key 0, R.SEC_KEY_CTRL_RESULT.key 0, R.SEC_MS_STAT_RX_SA.key p]) ∧ u.mem = s.mem) ∧
  (∀ (t : Nat) (i : Nat) (s : State), ready s → s.chip.domOn 3 = true → s.chip.rg R.SEC_KEY_SEL_INDEX 0 = i → 1 ≤ i → i ≤ 7 → s.chip.rg R.SEC_ALARM_STAT_RELEASE 0 = 0 → ∃ u, exec (.keyLoadVault t) s = .next u ∧ answered u stOk ∧ u.chip.rg R.SEC_KEY_CTRL_TARGET 0 = 4 ∧ u.chip.sec.vault.find i = some s.chip.keyData ∧ u.chip.rg R.SEC_KEY_CTRL_RESULT 0 = 0 ∧ (∀ w : Fin 8, u.chip.rg R.SEC_KEY_DATA_KEY w = 0) ∧ (∀ w : Fin 6, u.chip.rg R.SEC_KEY_AUX_AUX w = 0) ∧ u.chip.counter C.SEC_KEY_LOADS 0 = (s.chip.counter C.SEC_KEY_LOADS 0 + 1) % 2 ^ 48 ∧ regsKept s u ((List.range 8).map (fun w => R.SEC_KEY_DATA_KEY.key w) ++ (List.range 6).map (fun w => R.SEC_KEY_AUX_AUX.key w) ++ [R.SEC_KEY_CTRL_TARGET.key 0, R.SEC_KEY_CTRL_RESULT.key 0]) ∧ u.mem = s.mem) ∧
  (∀ (t : Nat) (i : Nat) (s : State), ready s → s.chip.domOn 3 = true → s.chip.rg R.SEC_KEY_SEL_INDEX 0 = i → s.chip.rg R.SEC_KEY_SEL_ETARGET 0 = 4 → 1 ≤ i → i ≤ 7 → s.chip.rg R.SEC_ALARM_STAT_RELEASE 0 = 0 → ∃ u, exec (.keyErase t) s = .next u ∧ answered u stOk ∧ u.chip.rg R.SEC_KEY_CTRL_TARGET 0 = 5 ∧ u.chip.sec.vault.find i = none ∧ u.chip.rg R.SEC_KEY_CTRL_RESULT 0 = 0 ∧ (∀ w : Fin 8, u.chip.rg R.SEC_KEY_DATA_KEY w = 0) ∧ (∀ w : Fin 6, u.chip.rg R.SEC_KEY_AUX_AUX w = 0) ∧ u.chip.counter C.SEC_KEY_LOADS 0 = (s.chip.counter C.SEC_KEY_LOADS 0 + 1) % 2 ^ 48 ∧ regsKept s u ((List.range 8).map (fun w => R.SEC_KEY_DATA_KEY.key w) ++ (List.range 6).map (fun w => R.SEC_KEY_AUX_AUX.key w) ++ [R.SEC_KEY_CTRL_TARGET.key 0, R.SEC_KEY_CTRL_RESULT.key 0]) ∧ u.mem = s.mem) ∧
  (∀ (t : Nat) (i : Nat) (s : State), ready s → s.chip.domOn 3 = true → s.chip.rg R.SEC_KEY_SEL_INDEX 0 = i → s.chip.rg R.SEC_KEY_SEL_ETARGET 0 = 0 → 1 ≤ i → i ≤ 254 → s.chip.rg R.SEC_ALARM_STAT_RELEASE 0 = 0 → ∃ u, exec (.keyErase t) s = .next u ∧ answered u stOk ∧ u.chip.rg R.SEC_KIDX_STAT_DOWN i = 0 ∧ u.chip.sec.trunkKeys.find (2 * i) = none ∧ u.chip.rg R.SEC_KEY_CTRL_RESULT 0 = 0 ∧ (∀ w : Fin 8, u.chip.rg R.SEC_KEY_DATA_KEY w = 0) ∧ (∀ w : Fin 6, u.chip.rg R.SEC_KEY_AUX_AUX w = 0) ∧ u.chip.counter C.SEC_KEY_LOADS 0 = (s.chip.counter C.SEC_KEY_LOADS 0 + 1) % 2 ^ 48 ∧ regsKept s u ((List.range 8).map (fun w => R.SEC_KEY_DATA_KEY.key w) ++ (List.range 6).map (fun w => R.SEC_KEY_AUX_AUX.key w) ++ [R.SEC_KEY_CTRL_TARGET.key 0, R.SEC_KEY_CTRL_RESULT.key 0, R.SEC_KIDX_STAT_DOWN.key i]) ∧ u.mem = s.mem) ∧
  (∀ (t : Nat) (core : Fin 16) (slot : Fin 8) (key : List Byte) (s : State), ready s → s.chip.domOn 3 = true → s.chip.sec.vault.find slot = some key → ∃ u, exec (.vaultEncrypt t core slot) s = .next u ∧ answered u stOk ∧ u.chip.rg R.SEC_VLT_CTRL_OP 0 = 1 ∧ u.chip.rg R.SEC_VLT_CTRL_SLOT 0 = slot ∧ u.chip.rg R.SEC_VLT_CTRL_RESULT 0 = 0 ∧ (∀ w : Fin 4, u.chip.rg R.SEC_VLT_OUT_BLOCK w = (Config.aesBlock true key ((List.range 4).flatMap (fun w => beBytes 4 (s.chip.rg R.SEC_VLT_IN_BLOCK w)))).toNat / 2 ^ (32 * (3 - w.val)) % 2 ^ 32) ∧ u.chip.sec.vltCore = core ∧ kept s u [R.SEC_VLT_CTRL_OP.key 0, R.SEC_VLT_CTRL_SLOT.key 0, R.SEC_VLT_CTRL_RESULT.key 0, R.SEC_VLT_OUT_BLOCK.key 0, R.SEC_VLT_OUT_BLOCK.key 1, R.SEC_VLT_OUT_BLOCK.key 2, R.SEC_VLT_OUT_BLOCK.key 3]) ∧
  (∀ (t : Nat) (core : Fin 16) (slot : Fin 8) (s : State), ready s → s.chip.domOn 3 = true → s.chip.sec.vault.find slot = none → ∃ u, exec (.vaultEncrypt t core slot) s = .next u ∧ answered u stOk ∧ u.chip.rg R.SEC_VLT_CTRL_OP 0 = 1 ∧ u.chip.rg R.SEC_VLT_CTRL_SLOT 0 = slot ∧ u.chip.rg R.SEC_VLT_CTRL_RESULT 0 = 1 ∧ (∀ w : Fin 4, u.chip.rg R.SEC_VLT_OUT_BLOCK w = 0) ∧ kept s u [R.SEC_VLT_CTRL_OP.key 0, R.SEC_VLT_CTRL_SLOT.key 0, R.SEC_VLT_CTRL_RESULT.key 0, R.SEC_VLT_OUT_BLOCK.key 0, R.SEC_VLT_OUT_BLOCK.key 1, R.SEC_VLT_OUT_BLOCK.key 2, R.SEC_VLT_OUT_BLOCK.key 3]) ∧
  (∀ (t : Nat) (core : Fin 16) (slot : Fin 8) (key : List Byte) (s : State), ready s → s.chip.domOn 3 = true → s.chip.sec.vault.find slot = some key → ∃ u, exec (.vaultDecrypt t core slot) s = .next u ∧ answered u stOk ∧ u.chip.rg R.SEC_VLT_CTRL_OP 0 = 2 ∧ u.chip.rg R.SEC_VLT_CTRL_SLOT 0 = slot ∧ u.chip.rg R.SEC_VLT_CTRL_RESULT 0 = 0 ∧ (∀ w : Fin 4, u.chip.rg R.SEC_VLT_OUT_BLOCK w = (Config.aesBlock false key ((List.range 4).flatMap (fun w => beBytes 4 (s.chip.rg R.SEC_VLT_IN_BLOCK w)))).toNat / 2 ^ (32 * (3 - w.val)) % 2 ^ 32) ∧ u.chip.sec.vltCore = core ∧ kept s u [R.SEC_VLT_CTRL_OP.key 0, R.SEC_VLT_CTRL_SLOT.key 0, R.SEC_VLT_CTRL_RESULT.key 0, R.SEC_VLT_OUT_BLOCK.key 0, R.SEC_VLT_OUT_BLOCK.key 1, R.SEC_VLT_OUT_BLOCK.key 2, R.SEC_VLT_OUT_BLOCK.key 3]) ∧
  (∀ (t : Nat) (core : Fin 16) (slot : Fin 8) (s : State), ready s → s.chip.domOn 3 = true → s.chip.sec.vault.find slot = none → ∃ u, exec (.vaultDecrypt t core slot) s = .next u ∧ answered u stOk ∧ u.chip.rg R.SEC_VLT_CTRL_OP 0 = 2 ∧ u.chip.rg R.SEC_VLT_CTRL_SLOT 0 = slot ∧ u.chip.rg R.SEC_VLT_CTRL_RESULT 0 = 1 ∧ (∀ w : Fin 4, u.chip.rg R.SEC_VLT_OUT_BLOCK w = 0) ∧ kept s u [R.SEC_VLT_CTRL_OP.key 0, R.SEC_VLT_CTRL_SLOT.key 0, R.SEC_VLT_CTRL_RESULT.key 0, R.SEC_VLT_OUT_BLOCK.key 0, R.SEC_VLT_OUT_BLOCK.key 1, R.SEC_VLT_OUT_BLOCK.key 2, R.SEC_VLT_OUT_BLOCK.key 3])

/-- Alarms: their start, end and release, the derivation of the identity key, a stuck tamper switch: R399, R400, R402, R403. -/
def Obligations.AlarmCommands : Prop :=
  (∀ (t : Nat) (n : Fin 8) (s : State), ready s → n.val ≠ 3 → n.val ≠ 4 → s.chip.rbit R.SEC_ALARM_STAT_ACTIVE 0 n = false → ∀ k : Fin 4, s.chip.rg R.HST_SESS_STAT_STATE k ≤ 2 → ∃ u, exec (.alarmStart t (2 ^ n.val)) s = .next u ∧ u.chip.rbit R.SEC_ALARM_STAT_ACTIVE 0 n = true ∧ u.chip.rbit R.SEC_ALARM_STAT_RELEASE 0 n = true ∧ u.chip.rg R.SEC_EVT_ALARM 0 = 1 ∧ (s.chip.sec.firstSet = false → u.chip.rg R.SEC_ALARM_STAT_FIRST 0 = n) ∧ u.chip.sec.firstSet = true ∧ (∀ k : Fin 4, u.chip.rg R.HST_SESS_STAT_STATE k = 0) ∧ u.chip.sec.idDue = true ∧ u.chip.rg R.SEC_ALARM_STAT_ERASED 0 = 1 ∧ u.chip.rg R.SEC_STAT_ID_READY 0 = 0 ∧ u.chip.rg R.TRK_TERM_ID_MMK 0 = 0 ∧ u.chip.sec.vault = [] ∧ u.chip.sec.trunkKeys = [] ∧ u.chip.sec.msTx = [] ∧ u.chip.sec.msRx = [] ∧ u.chip.sec.offer = none ∧ (s.chip.hp.dma = [] → u.mem = s.mem)) ∧
  (∀ (t : Nat) (n : Fin 8) (s : State), ready s → n.val ≠ 3 → n.val ≠ 4 → s.chip.rbit R.SEC_ALARM_STAT_ACTIVE 0 n = true → ∃ u, exec (.alarmEnd t n) s = .next u ∧ u.chip.rbit R.SEC_ALARM_STAT_ACTIVE 0 n = false ∧ u.chip.sec.almEnd = s.chip.sec.almEnd.set n (max s.chip.now t) ∧ kept s u [R.SEC_ALARM_STAT_ACTIVE.key 0]) ∧
  (∀ (t : Nat) (n : Fin 8) (s : State), ready s → s.chip.rbit R.SEC_ALARM_STAT_RELEASE 0 n = true → s.chip.rbit R.SEC_ALARM_STAT_ACTIVE 0 n = false → s.chip.alarmAction n = 0 → Tab.get 0 s.chip.sec.almEnd n + secPs ≤ max s.chip.now t → ∃ u, exec (.alarmAutoRelease t n) s = .next u ∧ u.chip.rbit R.SEC_ALARM_STAT_RELEASE 0 n = false ∧ kept s u [R.SEC_ALARM_STAT_RELEASE.key 0]) ∧
  (∀ (t : Nat) (n : Fin 8) (s : State), ready s → s.chip.domOn 3 = true → s.chip.rbit R.SEC_ALARM_STAT_ACTIVE 0 n = false → s.chip.alarmAction n = 1 → ∃ u, exec (.alarmRelease t (2 ^ n.val)) s = .next u ∧ answered u stOk ∧ u.chip.rbit R.SEC_ALARM_STAT_RELEASE 0 n = false ∧ kept s u [R.SEC_ALARM_STAT_RELEASE.key 0]) ∧
  (∀ (t : Nat) (mask : Nat) (s : State), ready s → s.chip.domOn 3 = true → ∀ n < 8, s.chip.rbit R.SEC_ALARM_STAT_ACTIVE 0 n = true ∨ s.chip.alarmAction n ≠ 1 → ∃ u, exec (.alarmRelease t mask) s = .next u ∧ answered u stOk ∧ kept s u []) ∧
  (∀ (t : Nat) (s : State), ready s → s.chip.sec.idDue = true → s.chip.rg R.SEC_ALARM_STAT_RELEASE 0 = 0 → s.chip.sec.entBad = false → s.chip.pw.evStep < 3 → ∃ u, exec (.idDerive t) s = .next u ∧ u.chip.rg R.SEC_STAT_ID_READY 0 = 1 ∧ u.chip.sec.idDue = false ∧ kept s u [R.SEC_STAT_ID_READY.key 0]) ∧
  (∀ (t : Nat) (j : Fin 2) (s : State), ready s → s.chip.alarmStuck (3 + j) ≠ 0 → s.chip.rbit R.SEC_ALARM_STAT_ACTIVE 0 (3 + j) = true → Tab.get 0 s.chip.sec.tamperAt (3 + j) + s.chip.alarmStuck (3 + j) * secPs ≤ max s.chip.now t → ∃ u, exec (.tamperStuck t j) s = .next u ∧ u.chip.rbit R.SEC_ALARM_STAT_MASKED 0 j = true ∧ u.chip.rbit R.SEC_ALARM_STAT_ACTIVE 0 (3 + j) = false ∧ kept s u [R.SEC_ALARM_STAT_MASKED.key 0, R.SEC_ALARM_STAT_ACTIVE.key 0])

/-- The noise source and the scan interlock: R398, R404. -/
def Obligations.EntropyAndScanCommands : Prop :=
  (∀ (t : Nat) (s : State), ready s → True → ∃ u, exec (.entropyFail t) s = .next u ∧ u.chip.rg R.SEC_STAT_ENT_OK 0 = 0 ∧ u.chip.rg R.SEC_EVT_ENT_FAIL 0 = 1 ∧ u.chip.sec.entBad = true ∧ u.chip.counter C.SEC_ENT_FAIL 0 = (s.chip.counter C.SEC_ENT_FAIL 0 + 1) % 2 ^ 48 ∧ regsKept s u [R.SEC_STAT_ENT_OK.key 0, R.SEC_EVT_ENT_FAIL.key 0] ∧ u.mem = s.mem) ∧
  (∀ (t : Nat) (s : State), ready s → True → ∃ u, exec (.entropyRecover t) s = .next u ∧ u.chip.rg R.SEC_STAT_ENT_OK 0 = 1 ∧ u.chip.sec.entBad = false ∧ kept s u [R.SEC_STAT_ENT_OK.key 0]) ∧
  (∀ (t : Nat) (s : State), ready s → s.chip.rg R.TRK_MODE_CODE 0 = 11 → ∃ u, exec (.scanInterlock t false true) s = .next u ∧ u.chip.rg R.SEC_STAT_SCAN_EN 0 = 1 ∧ u.chip.rg R.SEC_ALARM_STAT_ERASED 0 = 1 ∧ u.chip.rg R.SEC_STAT_ID_READY 0 = 0 ∧ u.chip.rg R.TRK_TERM_ID_MMK 0 = 0 ∧ u.chip.sec.vault = [] ∧ u.chip.sec.trunkKeys = [] ∧ u.chip.sec.msTx = [] ∧ u.chip.sec.msRx = [] ∧ u.chip.sec.offer = none ∧ (s.chip.hp.dma = [] → u.mem = s.mem)) ∧
  (∀ (t : Nat) (clear : Bool) (s : State), ready s → s.chip.rg R.SEC_DEBUG_EN 0 = 0 → ∃ u, exec (.scanInterlock t true clear) s = .next u ∧ u.chip.sec = s.chip.sec ∧ kept s u [])

/-- Power domains: requests, steps of exit and entry, retries: R407, R409, R410, R411, R412, R413, R414. -/
def Obligations.DomainCommands : Prop :=
  (∀ (t : Nat) (d : Fin 17) (v : Nat) (s : State), ready s → bits v 0 2 = 2 → s.chip.rg R.PWR_DOM_STAT_PSTATE d = 0 → s.chip.pw.dom.find d = none → s.chip.refuser d 2 = none → s.chip.pw.wakes = [] → s.chip.alm.load.prep = none → ∃ u, exec (.domRequest t d v) s = .next u ∧ answered u stOk ∧ u.chip.rg R.PWR_DOM_STAT_BUSY d = 1 ∧ u.chip.rg R.PWR_DOM_STAT_IN_FLIGHT d = 2 ∧ u.chip.rg R.PWR_DOM_STAT_ATTEMPT d = 0 ∧ u.chip.rg R.PWR_DOM_STAT_PSTATE d = 0 ∧ u.chip.pw.dom.find d = some ⟨1, 2, 0, max s.chip.now t, false⟩ ∧ u.mem = s.mem) ∧
  (∀ (t : Nat) (d : Fin 17) (v code unit : Nat) (s : State), ready s → bits v 0 2 ≠ 3 → s.chip.rg R.PWR_DOM_STAT_PSTATE d ≠ bits v 0 2 → s.chip.pw.dom.find d = none → s.chip.refuser d (bits v 0 2) = some (code, unit) → code < 16 → unit < 65536 → s.chip.pw.wakes = [] → s.chip.alm.load.prep = none → ∃ u, exec (.domRequest t d v) s = .next u ∧ answered u stOk ∧ u.chip.rg R.PWR_DOM_REFUSE_REFUSER d = code ∧ u.chip.rg R.PWR_DOM_REFUSE_REF_UNIT d = unit ∧ u.chip.rg R.PWR_EVT_REFUSED 0 = 1 ∧ u.chip.pw.dom.find d = none ∧ u.mem = s.mem) ∧
  (∀ (t : Nat) (d : Fin 17) (v : Nat) (s : State), ready s → bits v 0 2 = 3 → ∃ u, exec (.domRequest t d v) s = .next u ∧ answered u stRefused ∧ kept s u []) ∧
  (∀ (t : Nat) (d : Fin 17) (r : DomReq) (s : State), ready s → s.chip.pw.dom.find d = some r → r.step = 1 → max s.chip.now t ≤ r.at_ + 2 * msPs → ∃ u, exec (.domSupplyReady t d) s = .next u ∧ u.chip.pw.dom.find d = some { r with step := if domPll d then 2 else 3, at_ := max s.chip.now t } ∧ kept s u []) ∧
  (∀ (t : Nat) (d : Fin 17) (r : DomReq) (s : State), ready s → s.chip.pw.dom.find d = some r → r.step = 2 → max s.chip.now t ≤ r.at_ + 20 * msPs → ∃ u, exec (.domPllLocked t d) s = .next u ∧ u.chip.pw.dom.find d = some { r with step := 3, at_ := max s.chip.now t } ∧ kept s u []) ∧
  (∀ (t : Nat) (d : Fin 17) (r : DomReq) (s : State), ready s → s.chip.pw.dom.find d = some r → r.step = 3 → s.chip.rg R.PWR_DOM_STAT_PEND_V d = 0 → r.src = 1 → (chipAt s t).boundPast r.at_ (100 * usPs) = false → s.chip.pw.wakes = [] → s.chip.alm.load.prep = none → ∃ u, exec (.domIslandsOn t d []) s = .next u ∧ u.chip.rg R.PWR_DOM_STAT_PSTATE d = 2 ∧ u.chip.rg R.PWR_DOM_STAT_BUSY d = 0 ∧ u.chip.rg R.PWR_DOM_STAT_IN_FLIGHT d = 0 ∧ u.chip.rg R.PWR_EVT_DOM_CHG 0 = 1 ∧ u.chip.pw.dom.find d = none ∧ u.mem = s.mem) ∧
  (∀ (t : Nat) (d : Fin 17) (r : DomReq) (s : State), ready s → s.chip.pw.dom.find d = some r → r.step = 1 → r.at_ + 2 * msPs ≤ max s.chip.now t → s.chip.rg R.PWR_DOM_STAT_ATTEMPT d < 3 → r.src = 0 → ∃ u, exec (.domAttemptFail t d) s = .next u ∧ u.chip.rg R.PWR_EVT_FAIL 0 = 1 ∧ u.chip.pw.dom.find d = some { r with src := 0, step := 6, at_ := max s.chip.now t } ∧ u.mem = s.mem) ∧
  (∀ (t : Nat) (d : Fin 17) (r : DomReq) (s : State), ready s → s.chip.pw.dom.find d = some r → r.step = 6 → s.chip.rg R.PWR_DOM_STAT_ATTEMPT d < 3 → r.at_ + s.chip.retryDly d * 2 ^ s.chip.rg R.PWR_DOM_STAT_ATTEMPT d * msPs ≤ max s.chip.now t → ∃ u, exec (.domRetry t d) s = .next u ∧ u.chip.rg R.PWR_DOM_STAT_ATTEMPT d = s.chip.rg R.PWR_DOM_STAT_ATTEMPT d + 1 ∧ u.chip.pw.dom.find d = some { r with step := 1, at_ := max s.chip.now t } ∧ kept s u [R.PWR_DOM_STAT_ATTEMPT.key d]) ∧
  (∀ (t : Nat) (d : Fin 17) (r : DomReq) (s : State), ready s → s.chip.pw.dom.find d = some r → r.step = 4 → (chipAt s t).boundPast r.at_ (11 * usPs) = false → d.val < 9 ∨ 12 < d.val → ∃ u, exec (.domQuiet t d) s = .next u ∧ u.chip.pw.dom.find d = some { r with step := 5, at_ := max s.chip.now t } ∧ kept s u []) ∧
  (∀ (t : Nat) (d : Fin 17) (r : DomReq) (s : State), ready s → s.chip.pw.dom.find d = some r → r.step = 5 → r.target < 2 → r.latched = false → (chipAt s t).boundPast r.at_ (2 * msPs) = false → s.chip.rg R.PWR_DOM_STAT_PEND_V d = 0 → s.chip.pw.wakes = [] → s.chip.alm.load.prep = none → ∃ u, exec (.domEntryDone t d) s = .next u ∧ u.chip.rg R.PWR_DOM_STAT_PSTATE d = r.target ∧ u.chip.rg R.PWR_DOM_STAT_BUSY d = 0 ∧ u.chip.rg R.PWR_DOM_STAT_IN_FLIGHT d = 0 ∧ u.chip.pw.dom.find d = none ∧ u.mem = s.mem) ∧
  (∀ (t : Nat) (d : Fin 17) (r : DomReq) (s : State), ready s → s.chip.pw.dom.find d = some r → r.step = 5 → r.src ≠ 2 → r.at_ + 2 * msPs ≤ max s.chip.now t → s.chip.rg R.PWR_DOM_STAT_PEND_V d = 0 → ∃ u, exec (.domEntryTimeout t d) s = .next u ∧ u.chip.rg R.PWR_DOM_STAT_PSTATE d = 2 ∧ u.chip.rg R.PWR_DOM_STAT_BUSY d = 0 ∧ u.chip.pw.dom.find d = none ∧ u.mem = s.mem) ∧
  (∀ (t : Nat) (d : Fin 17) (v : Nat) (s : State), ready s → bit v 0 = true → s.chip.rg R.PWR_DOM_STAT_PSTATE d = 3 → d.val < 9 ∨ 12 < d.val → ∃ u, exec (.domClear t d v) s = .next u ∧ answered u stOk ∧ u.chip.rg R.PWR_DOM_STAT_PSTATE d = 0 ∧ u.chip.rbit R.PWR_STAT_FAILED 0 d = false ∧ u.chip.rg R.PWR_DOM_STAT_ATTEMPT d = 0 ∧ regsKept s u [R.PWR_DOM_STAT_PSTATE.key d, R.PWR_STAT_FAILED.key 0, R.PWR_DOM_STAT_ATTEMPT.key d, R.PWR_EVT_DOM_CHG.key 0, R.CHIP_EVT_REGION_CHG.key 0, R.CHIP_EVT_BLOCK_CHG.key 0] ∧ u.mem = s.mem) ∧
  (∀ (t : Nat) (d : Fin 17) (v : Nat) (s : State), ready s → bit v 0 = true → s.chip.rg R.PWR_DOM_STAT_PSTATE d = 3 → ∃ u, exec (.domClear t d v) s = .next u ∧ answered u stOk ∧ u.chip.rg R.PWR_DOM_STAT_PSTATE d = 0 ∧ u.chip.rbit R.PWR_STAT_FAILED 0 d = false ∧ u.chip.rg R.PWR_DOM_STAT_ATTEMPT d = 0 ∧ u.mem = s.mem) ∧
  (∀ (t : Nat) (d : Fin 17) (v : Nat) (s : State), ready s → bit v 0 = true → s.chip.rg R.PWR_DOM_STAT_PSTATE d ≠ 3 → ∃ u, exec (.domClear t d v) s = .next u ∧ answered u stRefused ∧ kept s u [])

/-- Wake sets, wake pins, islands held and tried again: R415, R416, R417, R418. -/
def Obligations.WakeAndIslandCommands : Prop :=
  (∀ (t : Nat) (s : State), ready s → True → ∃ u, exec (.wakeSet t 0) s = .next u ∧ answered u stOk ∧ kept s u []) ∧
  (∀ (t : Nat) (s : State), ready s → s.chip.pw.wakes = [] → s.chip.alm.load.prep = none → s.chip.rg R.PWR_DOM_STAT_PSTATE 6 = 0 → s.chip.pw.dom.find 6 = none → (domParents 6).all (fun e => s.chip.domOn e) = true → ∃ u, exec (.wakeSet t 64) s = .next u ∧ answered u stOk ∧ u.chip.rg R.PWR_DOM_STAT_BUSY 6 = 1 ∧ u.chip.rg R.PWR_DOM_STAT_IN_FLIGHT 6 = 2 ∧ u.chip.pw.wakes.map (fun w => (w.mask, w.issued, w.lost)) = [(64, 64, 0)] ∧ u.mem = s.mem) ∧
  (∀ (t : Nat) (i : Fin 4) (width : Nat) (s : State), ready s → (s.chip.rg R.PWR_WAKE_CFG_MINW i ≤ width) → s.chip.rbit R.PWR_WAKE_STAT_LEVEL 0 i = false → s.chip.rbit R.PWR_WAKE_STAT_MASKED 0 i = false → s.chip.pw.pinAt.find i = none → s.chip.rg R.PWR_WAKE_CFG_EN i = 0 → ∃ u, exec (.wakePin t i width) s = .next u ∧ u.chip.rbit R.PWR_WAKE_STAT_LEVEL 0 i = true ∧ u.chip.pw.pinOn.find i = some (max s.chip.now t) ∧ u.chip.pw.pinAt.find i = some (max s.chip.now t) ∧ kept s u [R.PWR_WAKE_STAT_LEVEL.key 0]) ∧
  (∀ (t : Nat) (i : Fin 4) (width : Nat) (s : State), ready s → (s.chip.rg R.PWR_WAKE_CFG_MINW i ≤ width) → s.chip.rbit R.PWR_WAKE_STAT_LEVEL 0 i = false → s.chip.rbit R.PWR_WAKE_STAT_MASKED 0 i = false → s.chip.pw.pinAt.find i = none → s.chip.rg R.PWR_WAKE_CFG_EN i = 1 → s.chip.rg R.PWR_WAKE_CFG_RESTART i = 1 → s.chip.rg R.PWR_STAT_COMPLETE 0 = 1 → ∃ u, exec (.wakePin t i width) s = .next u ∧ u.chip.rbit R.PWR_WAKE_STAT_LEVEL 0 i = true ∧ u.chip.hp.resetAt = some (max s.chip.now t) ∧ u.chip.el.byWake = true ∧ kept s u [R.PWR_WAKE_STAT_LEVEL.key 0]) ∧
  (∀ (t : Nat) (i : Fin 4) (width : Nat) (s : State), ready s → width < s.chip.rg R.PWR_WAKE_CFG_MINW i → ∃ u, exec (.wakePin t i width) s = .next u ∧ u.chip.pw = s.chip.pw ∧ kept s u []) ∧
  (∀ (t : Nat) (i : Fin 4) (s : State), ready s → s.chip.rbit R.PWR_WAKE_STAT_LEVEL 0 i = true → Tab.get 0 s.chip.pw.pinOn i + s.chip.rg R.PWR_WAKE_CFG_STUCK i * secPs ≤ max s.chip.now t → ∃ u, exec (.wakePinStuck t i) s = .next u ∧ u.chip.rbit R.PWR_WAKE_STAT_MASKED 0 i = true ∧ u.chip.rg R.PWR_EVT_WAKE_STUCK 0 = 1 ∧ kept s u [R.PWR_WAKE_STAT_MASKED.key 0, R.PWR_EVT_WAKE_STUCK.key 0]) ∧
  (∀ (t : Nat) (i : Fin 4) (s : State), ready s → True → ∃ u, exec (.wakePinInactive t i) s = .next u ∧ u.chip.rbit R.PWR_WAKE_STAT_LEVEL 0 i = false ∧ u.chip.rbit R.PWR_WAKE_STAT_MASKED 0 i = false ∧ u.chip.pw.pinOn.find i = none ∧ kept s u [R.PWR_WAKE_STAT_LEVEL.key 0, R.PWR_WAKE_STAT_MASKED.key 0]) ∧
  (∀ (t : Nat) (b : Fin 32) (v : Nat) (s : State), ready s → s.chip.islandUnit b false = none → s.chip.islandUnit b true = none → ∃ u, exec (.islandHold t b v) s = .next u ∧ answered u stOk ∧ u.chip.rg R.PWR_ISL_HOLD_HOLD_P b = bits v 0 1 ∧ u.chip.rg R.PWR_ISL_HOLD_HOLD_S b = bits v 1 1 ∧ u.mem = s.mem) ∧
  (∀ (t : Nat) (b : Fin 32) (v unit : Nat) (s : State), ready s → bit v 0 = true → s.chip.rg R.PWR_ISL_HOLD_HOLD_P b = 0 → s.chip.islandUnit b false = some unit → unit < 65536 → ∃ u, exec (.islandHold t b v) s = .next u ∧ answered u stRefused ∧ u.chip.rg R.PWR_DOM_REFUSE_REFUSER (9 + b / 8) = 6 ∧ u.chip.rg R.PWR_DOM_REFUSE_REF_UNIT (9 + b / 8) = unit ∧ u.chip.rg R.PWR_ISL_HOLD_HOLD_P b = 0 ∧ u.chip.rg R.PWR_EVT_REFUSED 0 = 1 ∧ u.mem = s.mem) ∧
  (∀ (t : Nat) (i : Fin 81) (ok : Bool) (s : State), ready s → Tab.get 0 s.chip.pw.islTry i = 0 → ∃ u, exec (.islandRetry t i ok) s = .next u ∧ u.chip.pw = s.chip.pw ∧ kept s u []) ∧
  (∀ (t : Nat) (i : Fin 81) (s : State), ready s → 1 ≤ Tab.get 0 s.chip.pw.islTry i → i.val < 64 → s.chip.domOn (islandDom i) = true → Tab.get 0 s.chip.pw.islAt i + s.chip.retryDly (islandDom i) * 2 ^ (Tab.get 0 s.chip.pw.islTry i - 1) * msPs ≤ max s.chip.now t → ∃ u, exec (.islandRetry t i true) s = .next u ∧ (if i.val % 2 = 0 then u.chip.rg R.PWR_ISL_HOLD_P_STATE (i / 2) = 2 else u.chip.rg R.PWR_ISL_HOLD_S_STATE (i / 2) = 2) ∧ u.chip.pw.islTry.find i = none ∧ u.mem = s.mem)

/-- Operating points of regions, temperatures, thermal limits: R419, R420, R421, R423, R424, R426. -/
def Obligations.OperatingPointCommands : Prop :=
  (∀ (t : Nat) (n : Fin 4) (r : OpReq) (s : State), ready s → s.chip.pw.op.find n = some r → r.step = 1 → (chipAt s t).boundPast r.at_ (usPs) = false → ∃ u, exec (.opCapSet t n) s = .next u ∧ u.chip.rg R.PWR_RGN_STAT_CAP n = r.cap % 65536 ∧ u.chip.pw.op.find n = some { r with step := 2, at_ := max s.chip.now t } ∧ kept s u [R.PWR_RGN_STAT_CAP.key n]) ∧
  (∀ (t : Nat) (n : Fin 4) (r : OpReq) (s : State), ready s → s.chip.pw.op.find n = some r → r.step = 2 → max s.chip.now t ≤ r.at_ + 2 * msPs → s.chip.rg R.PWR_RGN_STAT_CAP n < r.cap → ∃ u, exec (.opVoltReady t n) s = .next u ∧ u.chip.rg R.PWR_RGN_STAT_VOLT_MV n = r.volt % 65536 ∧ u.chip.pw.op.find n = some { r with step := 3, at_ := max s.chip.now t } ∧ kept s u [R.PWR_RGN_STAT_VOLT_MV.key n]) ∧
  (∀ (t : Nat) (n : Fin 4) (r : OpReq) (s : State), ready s → s.chip.pw.op.find n = some r → r.step = 2 → r.at_ + 2 * msPs ≤ max s.chip.now t → s.chip.pw.opPend.find n = none → ∃ u, exec (.opVoltTimeout t n) s = .next u ∧ u.chip.rg R.PWR_RGN_STAT_VOLT_MV n = r.prevVolt % 65536 ∧ u.chip.rg R.PWR_RGN_OP_BUSY n = 0 ∧ u.chip.pw.op.find n = none ∧ u.mem = s.mem) ∧
  (∀ (t : Nat) (n : Fin 4) (s : State), ready s → s.chip.rg R.TRK_MODE_CODE 0 = 9 → s.chip.rg R.PWR_RGN_STAT_CAP n ≤ s.chip.capMax n (s.chip.rg R.PWR_RGN_STAT_VOLT_MV n) → s.chip.rg R.HLT_PACE_REQ_REQ n ≤ s.chip.rg R.PWR_RGN_STAT_CAP n → ∃ u, exec (.rgnManRequest t n 0) s = .next u ∧ answered u stOk ∧ u.chip.rg R.PWR_RGN_MAN_VOLT_MV n = 0 ∧ u.chip.rg R.PWR_RGN_MAN_CAP n = 0 ∧ kept s u [R.PWR_RGN_MAN_VOLT_MV.key n, R.PWR_RGN_MAN_CAP.key n]) ∧
  (∀ (t : Nat) (n : Fin 4) (v : Nat) (s : State), ready s → s.chip.rg R.TRK_MODE_CODE 0 ≠ 9 → ∃ u, exec (.rgnManRequest t n v) s = .next u ∧ answered u stRefused ∧ kept s u []) ∧
  (∀ (t : Nat) (temps : List (Option Int)) (j : Fin 7) (s : State), ready s → (chipAt s t).spanOver s.chip.pw.thermAt (10 * msPs) = true → ∃ u, exec (.thermalCheck t temps) s = .next u ∧ u.chip.rg R.PWR_TEMP_T j = (match temps.getD j none with | some x => unsgn 16 x % 65536 | none => 0x8000) ∧ u.mem = s.mem) ∧
  (∀ (t : Nat) (a : Nat) (s : State), ready s → s.chip.pw.hotAt = some a → a + 100 * msPs ≤ max s.chip.now t → 1 ≤ s.chip.rg R.TRK_MODE_CODE 0 → s.chip.rg R.TRK_MODE_CODE 0 ≤ 9 → ∃ u, exec (.thermalEventide t) s = .next u ∧ u.chip.rg R.TRK_MODE_CODE 0 = 11 ∧ u.chip.rg R.TRK_MODE_CAUSE 0 = 17 ∧ u.chip.rg R.TRK_MODE_PREV 0 = s.chip.rg R.TRK_MODE_CODE 0 ∧ u.chip.pw.evStep = 1 ∧ u.mem = s.mem) ∧
  (∀ (t : Nat) (sn : Fin 6) (s : State), ready s → True → ∃ u, exec (.thermTrip t sn) s = .next u ∧ u.chip.running = false ∧ u.chip.el.trip = true ∧ u.chip.rg R.PWR_DOM_STAT_PSTATE 2 = 1 ∧ (∀ d : Fin 17, 3 ≤ d.val → u.chip.rg R.PWR_DOM_STAT_PSTATE d = 0) ∧ u.mem = s.mem)

/-- EVENTIDE, the self-test record, SELFCHECK: R427, R428, R429, R431. -/
def Obligations.EventideAndSelftestCommands : Prop :=
  (∀ (t : Nat) (s : State), ready s → s.chip.pw.evStep = 1 → s.chip.up.dyingSent = true → ∃ u, exec (.eventideQuiesced t none) s = .next u ∧ u.chip.pw.evStep = 2 ∧ u.chip.pw.evLate = true ∧ u.chip.rg R.HLT_ST_STAT_ARCHIVED 0 = 0 ∧ u.mem = s.mem) ∧
  (∀ (t : Nat) (b : List Byte) (s : State), ready s → s.chip.pw.evStep = 1 → s.chip.up.dyingSent = true → ∃ u, exec (.eventideQuiesced t (some b)) s = .next u ∧ u.chip.pw.evStep = 2 ∧ u.chip.rg R.HLT_ST_STAT_ARCHIVED 0 = 1 ∧ u.mem = s.mem.apply (.flash (s.chip.archBase s.mem + 65536) (b.take (s.chip.archLen s.mem - 65536)))) ∧
  (∀ (t : Nat) (s : State), ready s → s.chip.pw.evStep = 2 → ∀ k : Fin 4, s.chip.rg R.HST_SESS_STAT_STATE k ≤ 2 → ∃ u, exec (.eventideArchived t true) s = .next u ∧ u.chip.pw.evStep = 3 ∧ u.chip.rg R.SEC_STAT_SCAN_EN 0 = 1 ∧ u.chip.sec.vault = [] ∧ u.chip.sec.trunkKeys = [] ∧ (∀ k : Fin 4, u.chip.rg R.HST_SESS_STAT_STATE k = 0)) ∧
  (∀ (t : Nat) (s : State), ready s → s.chip.pw.evStep = 3 → s.chip.rg R.SEC_STAT_SCAN_EN 0 = 1 → ∃ u, exec (.eventideScanEnabled t) s = .next u ∧ u.chip.pw.evStep = 4 ∧ u.chip.pw.stDone = 0 ∧ u.chip.pw.stFail = 0 ∧ kept s u []) ∧
  (∀ (t : Nat) (fail : Nat) (s : State), ready s → s.chip.pw.evStep = 4 → ∃ u, exec (.eventideSelftestDone t fail) s = .next u ∧ u.chip.pw.evStep = 5 ∧ u.chip.rg R.SEC_STAT_SCAN_EN 0 = 0 ∧ u.chip.pw.stFail = u.chip.pw.stDone &&& fail ∧ u.mem = s.mem.apply (.flash (s.chip.archBase s.mem) (u.chip.stRecord s.mem u.chip.stResult)) ∧ regsKept s u [R.SEC_STAT_SCAN_EN.key 0] ∧ u.chip.cnt = s.chip.cnt) ∧
  (∀ (t : Nat) (s : State), ready s → s.chip.pw.evStep = 5 → s.chip.pw.evCheck = true → max s.chip.now t ≤ s.chip.pw.evAt + 500 * msPs → ∃ u, exec (.eventideRecordWritten t) s = .next u ∧ u.chip.pw.evStep = 6 ∧ kept s u []) ∧
  (∀ (t : Nat) (s : State), ready s → s.chip.pw.evStep = 5 → s.chip.pw.evCheck = false → max s.chip.now t ≤ s.chip.pw.evAt + 500 * msPs → ∃ u, exec (.eventideRecordWritten t) s = .next u ∧ u.chip.pw.evStep = 6 ∧ u.chip.rg R.PWR_STAT_COMPLETE 0 = 1 ∧ u.chip.rg R.PWR_DOM_STAT_PSTATE 2 = 1 ∧ (∀ d : Fin 17, 3 ≤ d.val → u.chip.rg R.PWR_DOM_STAT_PSTATE d = 0) ∧ u.mem = s.mem) ∧
  (∀ (t : Nat) (clear : Bool) (s : State), ready s → s.chip.rg R.TRK_MODE_CODE 0 = 1 → s.chip.pw.evCheck = false → (chipAt s t).stValid s.mem (s.mem.flashRead (s.chip.archBase s.mem) 320) = false → s.chip.rg R.HLT_ST_CFG_FULL_ON_MISS 0 = 0 → s.chip.rg R.TRK_GUARD_STAT_QUAR 0 = 0 → ∃ u, exec (.selfcheckDone t clear) s = .next u ∧ u.chip.rg R.HLT_ST_STAT_OUTCOME 0 = 3 ∧ u.chip.rg R.HLT_ST_STAT_UNTESTED 0 = 1 ∧ u.chip.rg R.HLT_ST_STAT_FAILS 0 = 0 ∧ u.chip.rg R.HLT_EVT_ST_DONE 0 = 1 ∧ u.chip.rg R.TRK_MODE_CODE 0 = 2 ∧ u.chip.rg R.TRK_MODE_CAUSE 0 = 2 ∧ u.mem = s.mem.apply (.flash (s.chip.archBase s.mem + 7) (zeros 1)))

/-- Wear, planned swaps, memory scrub, units and engines lost: R32, R432, R433, R434, R435, R470, R473. -/
def Obligations.WearSwapAndUnitCommands : Prop :=
  (∀ (t : Nat) (w : Fin 515) (val aux : Nat) (s : State), ready s → (chipAt s t).spanOver (s.chip.pw.wearAt.find w) (60 * secPs) = true → val < 2 ^ 32 → aux < 2 ^ 32 → ∃ u, exec (.wearUpdate t w val aux) s = .next u ∧ u.chip.rg R.HLT_WEAR_VAL_VALUE w = val ∧ u.chip.rg R.HLT_WEAR_AUX_VALUE w = aux ∧ u.chip.rg R.HLT_WEAR_STAT_LEVEL w = max (s.chip.rg R.HLT_WEAR_STAT_LEVEL w) (if (s.chip.policy (wearKind w)).2.1 ≤ val then 2 else if (s.chip.policy (wearKind w)).1 ≤ val then 1 else 0) ∧ kept s u [R.HLT_WEAR_VAL_VALUE.key w, R.HLT_WEAR_AUX_VALUE.key w, R.HLT_WEAR_STAT_LEVEL.key w, R.HLT_EVT_WEAR_DUE.key 0, R.HLT_EVT_WEAR_WARN.key 0]) ∧
  (∀ (t : Nat) (v sp : Nat) (s : State), ready s → s.chip.domOn 2 = true → bit v 16 = true → bits v 0 10 < 515 → s.chip.rg R.HLT_SWAP_STAT_STATE 0 = 0 → s.chip.swapFor (bits v 0 10) = some sp → wearKind (bits v 0 10) = 3 → s.chip.rg R.TRK_MODE_CODE 0 ≠ 8 → s.chip.rg R.TRK_MODE_CODE 0 ≠ 11 → ∃ u, exec (.swapGo t v) s = .next u ∧ answered u stOk ∧ u.chip.rg R.HLT_SWAP_CMD_UNIT 0 = bits v 0 10 ∧ u.chip.rg R.HLT_SWAP_STAT_STATE 0 = 1 ∧ u.chip.rg R.HLT_SWAP_STAT_SPARE 0 = sp % 2 ^ R.HLT_SWAP_STAT_SPARE.width ∧ u.chip.rg R.HLT_SWAP_STAT_RESTARTS 0 = 0 ∧ u.chip.rg R.HLT_SWAP_STAT_OCTAVES 0 = 0 ∧ u.chip.pw.swapUnit = bits v 0 10 ∧ kept s u [R.HLT_SWAP_CMD_UNIT.key 0, R.HLT_SWAP_STAT_STATE.key 0, R.HLT_SWAP_STAT_SPARE.key 0, R.HLT_SWAP_STAT_RESTARTS.key 0, R.HLT_SWAP_STAT_OCTAVES.key 0]) ∧
  (∀ (t : Nat) (v : Nat) (s : State), ready s → s.chip.domOn 2 = true → bit v 16 = true → 515 ≤ bits v 0 10 ∨ s.chip.rg R.HLT_SWAP_STAT_STATE 0 ≠ 0 ∨ s.chip.swapFor (bits v 0 10) = none → ∃ u, exec (.swapGo t v) s = .next u ∧ answered u stRefused ∧ kept s u []) ∧
  (∀ (t : Nat) (s : State), ready s → s.chip.rg R.HLT_SWAP_STAT_STATE 0 = 1 → s.chip.pw.swapKind = 3 → (s.chip.policy 3).2.2 ≤ s.chip.rg R.HLT_SWAP_STAT_OCTAVES 0 → s.chip.rg R.HLT_SPARE_CHIP_TRK_ENG 0 = 1 → s.chip.txnFree ≠ none → ∃ u, exec (.swapShadowDone t) s = .next u ∧ u.chip.rg R.HLT_SWAP_STAT_STATE 0 = 2 ∧ u.chip.pw.swapTxn.isSome = true ∧ u.mem = s.mem) ∧
  (∀ (t : Nat) (a : Nat) (s : State), ready s → s.chip.pw.swapWait = some a → a + secPs ≤ max s.chip.now t → s.chip.rg R.HLT_SWAP_STAT_STATE 0 = 1 → s.chip.pw.swapKind = 3 → ∃ u, exec (.swapSlotTimeout t) s = .next u ∧ u.chip.rg R.HLT_SWAP_STAT_STATE 0 = 0 ∧ u.chip.rg R.HLT_SWAP_STAT_CAUSE 0 = 4 ∧ u.chip.rg R.HLT_EVT_SWAP_FAIL 0 = 1 ∧ u.chip.pw.swapWait = none ∧ kept s u [R.HLT_SWAP_STAT_STATE.key 0, R.HLT_SWAP_STAT_CAUSE.key 0, R.HLT_EVT_SWAP_FAIL.key 0]) ∧
  (∀ (t : Nat) (s : State), ready s → s.chip.rg R.HLT_SWAP_STAT_STATE 0 = 1 → s.chip.pw.swapKind = 9 → ∃ u, exec (.spareCopyDone t) s = .next u ∧ u.chip.rg R.HLT_SWAP_STAT_STATE 0 = 2 ∧ u.chip.pw.remap = some (s.chip.pw.swapUnit, s.chip.pw.swapSpare) ∧ newest u = some { kind := .copied, unit := s.chip.pw.swapSpare, data := [s.chip.pw.swapUnit], bytes := [] } ∧ kept s u [R.HLT_SWAP_STAT_STATE.key 0]) ∧
  (∀ (t : Nat) (corr ppr : Nat) (s : State), ready s → (chipAt s t).ddrOk = true → s.chip.rg R.MEM_DDR_CFG_SCRUB_H 0 ≠ 0 → s.chip.pw.scrubAt + s.chip.rg R.MEM_DDR_CFG_SCRUB_H 0 * 3600 * secPs ≤ max s.chip.now t → ∃ u, exec (.memScrubPass t corr ppr none) s = .next u ∧ u.chip.counter C.MEM_SCRUB_PASSES 0 = (s.chip.counter C.MEM_SCRUB_PASSES 0 + 1) % 2 ^ 48 ∧ u.chip.counter C.MEM_DDR_CORR 0 = (s.chip.counter C.MEM_DDR_CORR 0 + corr) % 2 ^ 48 ∧ u.chip.counter C.MEM_DDR_PPR 0 = (s.chip.counter C.MEM_DDR_PPR 0 + ppr) % 2 ^ 48 ∧ regsKept s u [] ∧ u.mem = s.mem) ∧
  (∀ (t : Nat) (corr ppr : Nat) (bad : Option Nat) (s : State), ready s → (chipAt s t).ddrOk = false ∨ s.chip.rg R.MEM_DDR_CFG_SCRUB_H 0 = 0 → ∃ u, exec (.memScrubPass t corr ppr bad) s = .next u ∧ u.chip.out = s.chip.out ∧ kept s u []) ∧
  (∀ (t : Nat) (e : Fin 17) (s : State), ready s → bit s.chip.st.engLost e = false → ∃ u, exec (.engineLost t e) s = .next u ∧ bit u.chip.st.engLost e = true ∧ (e.val = 16 → u.chip.rg R.HLT_SPARE_CHIP_TRK_ENG 0 = 0) ∧ u.mem = s.mem) ∧
  (∀ (t : Nat) (i : Nat) (s : State), ready s → True → ∃ u, exec (.chipUnit t 1 i) s = .next u ∧ u.chip.rg R.MEM_DDR_STAT_TRAINED 0 = 0 ∧ u.mem = s.mem)

/-- Power-up, resets, loss of supplies: R401, R408, R442, R443, R444, R445, R446, R447, R466, R469. -/
def Obligations.SupplyAndResetCommands : Prop :=
  (∀ (t : Nat) (s : State), s.chip.mout = [] → s.chip.el.phase = 0 → ∃ u, exec (.vaux3Up t) s = .next u ∧ u.chip.el.phase = 1 ∧ u.chip.running = false ∧ kept s u []) ∧
  (∀ (t : Nat) (s : State), s.chip.mout = [] → s.chip.el.phase = 1 → ∃ u, exec (.regulatorsStart t) s = .next u ∧ u.chip.el.phase = 2 ∧ u.chip.el.at_ = max s.chip.now t ∧ kept s u []) ∧
  (∀ (t : Nat) (s : State), s.chip.mout = [] → s.chip.el.phase = 2 → max s.chip.now t ≤ s.chip.el.at_ + 40 * msPs → ∃ u, exec (.pwrGoodRelease t) s = .next u ∧ u.chip.el.phase = 4 ∧ u.chip.el.at_ = max s.chip.now t ∧ kept s u []) ∧
  (∀ (t : Nat) (s : State), s.chip.mout = [] → s.chip.el.phase = 2 → s.chip.el.at_ + 40 * msPs < max s.chip.now t → ∃ u, exec (.regulatorTimeout t) s = .next u ∧ u.chip.el.phase = 3 ∧ u.chip.el.at_ = max s.chip.now t ∧ kept s u []) ∧
  (∀ (t : Nat) (s : State), s.chip.mout = [] → s.chip.el.phase = 3 → s.chip.el.at_ + secPs ≤ max s.chip.now t → ∃ u, exec (.regulatorRetry t) s = .next u ∧ u.chip.el.phase = 2 ∧ u.chip.el.at_ = max s.chip.now t ∧ kept s u []) ∧
  (∀ (t : Nat) (s : State), s.chip.mout = [] → s.chip.el.phase = 4 → s.chip.el.at_ + msPs ≤ max s.chip.now t → s.chip.el.cause < 16 → ∃ u, exec (.coldResetDone t) s = .next u ∧ u.chip.el.phase = 5 ∧ u.chip.rg R.CHIP_RESET_CAUSE 0 = s.chip.el.cause ∧ u.chip.tm.clkAt = max s.chip.now t ∧ u.chip.rg R.HST_STAT_LINK 0 = 1 ∧ u.chip.rg R.HST_STAT_MODE_ACT 0 = (if s.chip.rg R.HST_LANE_CFG_MODE 0 = 1 then 1 else 2) ∧ kept s u [R.CHIP_RESET_CAUSE.key 0, R.HST_STAT_LINK.key 0, R.HST_STAT_MODE_ACT.key 0]) ∧
  (∀ (t : Nat) (low : Nat) (s : State), s.chip.mout = [] → s.chip.el.phase = 5 → 10 ≤ low → s.chip.sec.fuseOp = none → s.chip.sec.flashOp = none → ∃ u, exec (.warmReset t low) s = .next u ∧ u.chip.rg R.CHIP_RESET_CAUSE 0 = 4 ∧ u.chip.rg R.TRK_MODE_CODE 0 = 0 ∧ (∀ d : Fin 17, 6 ≤ d.val → u.chip.rg R.PWR_DOM_STAT_PSTATE d = 0) ∧ (∀ k : Fin 4, u.chip.rg R.HST_SESS_STAT_STATE k = 0) ∧ u.chip.sec.vault = [] ∧ u.chip.sec.trunkKeys = [] ∧ u.chip.sec.msTx = [] ∧ u.chip.sec.msRx = [] ∧ u.chip.sec.fuses = s.chip.sec.fuses ∧ u.chip.sec.meas = zeros 64 ∧ u.chip.el.phase = 5 ∧ (s.chip.hp.dma = [] → u.mem = s.mem)) ∧
  (∀ (t : Nat) (s : State), s.chip.mout = [] → 2 ≤ s.chip.el.phase → s.chip.sec.fuseOp = none → s.chip.sec.flashOp = none → ∃ u, exec (.vin12Loss t) s = .next u ∧ u.chip.el.phase = 1 ∧ u.chip.el.cause = 1 ∧ u.chip.running = false ∧ u.chip.rg R.TRK_MODE_CODE 0 = 0 ∧ u.chip.rg R.TRK_GUARD_STAT_QUAR 0 = s.chip.rg R.TRK_GUARD_STAT_QUAR 0 % 2 ∧ u.chip.sec.vault = [] ∧ u.chip.sec.trunkKeys = [] ∧ u.chip.sec.fuses = s.chip.sec.fuses ∧ u.mem = s.mem.apply .ddrLost) ∧
  (∀ (t : Nat) (s : State), s.chip.mout = [] → 2 ≤ s.chip.el.phase → s.chip.sec.fuseOp = none → s.chip.sec.flashOp = none → ∃ u, exec (.pwrEnLow t) s = .next u ∧ u.chip.el.phase = 1 ∧ u.chip.el.cause = 2 ∧ u.chip.running = false ∧ u.chip.rg R.TRK_MODE_CODE 0 = 0 ∧ u.chip.rg R.TRK_GUARD_STAT_QUAR 0 = s.chip.rg R.TRK_GUARD_STAT_QUAR 0 % 2 ∧ u.chip.sec.vault = [] ∧ u.chip.sec.trunkKeys = [] ∧ u.chip.sec.fuses = s.chip.sec.fuses ∧ u.mem = s.mem.apply .ddrLost) ∧
  (∀ (t : Nat) (s : State), s.chip.mout = [] → 2 ≤ s.chip.el.phase → s.chip.sec.fuseOp = none → s.chip.sec.flashOp = none → ∃ u, exec (.vin12Removed t) s = .next u ∧ u.chip.el.phase = 1 ∧ u.chip.el.trip = false ∧ u.chip.running = false ∧ u.chip.rg R.TRK_GUARD_STAT_QUAR 0 = 0 ∧ u.chip.sec.vault = [] ∧ u.chip.sec.fuses = s.chip.sec.fuses ∧ u.mem = s.mem.apply .ddrLost) ∧
  (∀ (t : Nat) (s : State), s.chip.mout = [] → 1 ≤ s.chip.el.phase → s.chip.sec.fuseOp = none → s.chip.sec.flashOp = none → ∃ u, exec (.vaux3Loss t) s = .next u ∧ u.chip.el.phase = 0 ∧ u.chip.el.cause = 3 ∧ u.chip.rg R.SEC_ALARM_STAT_RELEASE 0 = 0 ∧ u.chip.running = false ∧ u.chip.rg R.TRK_MODE_CODE 0 = 0 ∧ u.chip.rg R.TRK_GUARD_STAT_QUAR 0 = s.chip.rg R.TRK_GUARD_STAT_QUAR 0 % 2 ∧ u.chip.sec.vault = [] ∧ u.chip.sec.trunkKeys = [] ∧ u.chip.sec.fuses = s.chip.sec.fuses ∧ u.mem = s.mem.apply .ddrLost)

/-- A step takes the command at the front of the queue and runs it on the rest: R444. -/
def Obligations.StepRunsFrontCommand : Prop :=
  ∀ (c : Instr) (cs : List Instr) (s : State), step { s with pending := c :: cs } = exec c { s with pending := cs }

/-- A step on an empty queue changes nothing: R444. -/
def Obligations.StepIdlesOnEmptyQueue : Prop :=
  ∀ (s : State), s.pending = [] → step s = .next s

/-- Every command answers a next state and leaves the queue alone: R444. -/
def Obligations.EveryCommandAnswersAndKeepsTheQueue : Prop :=
  ∀ (c : Instr) (s : State), ∃ u, exec c s = .next u ∧ u.pending = s.pending

/-- Every step keeps DDR5 and flash in canonical form and leaves no change of a memory waiting: R329, R453, R380. -/
def Obligations.EveryStepKeepsTheMachineSound : Prop :=
  ∀ (s u : State), sound s → step s = .next u → sound u ∧ u.pending = s.pending.tail

/-- The state after reset is sound and its queue is empty: R329, R453. -/
def Obligations.ResetIsSound : Prop :=
  sound State.reset ∧ State.reset.pending = []

/-- A terminal that is not running acts on no command but those of its board: R424, R443, R444, R446. -/
def Obligations.StoppedTerminalOnlyLetsTimePass : Prop :=
  ∀ (c : Instr) (s : State), boardCommand c = false → s.chip.running = false → ∃ u, exec c s = .next u ∧ u.chip.running = false ∧ u.chip.out = s.chip.out ∧ regsKept s u [] ∧ u.chip.cnt = s.chip.cnt ∧ u.chip.win = s.chip.win ∧ (s.chip.mout = [] → u.mem = s.mem)

/-- Commands of the cores and their scheduler change nothing while the CTRL domain is not ON: R407, R408. -/
def Obligations.CoresActOnlyWhileCtrlIsOn : Prop :=
  ∀ (c : Instr) (s : State), coreCommand c = true → ready s → s.chip.domOn 2 = false → ∃ u, exec c s = .next u ∧ u.chip.out = s.chip.out ∧ kept s u []

/-- A command that writes a register of a domain that is not ON is answered REFUSED and writes nothing: R462, R464. -/
def Obligations.DomainOffRefused : Prop :=
  ∀ (c : Instr) (d : Nat) (s : State), writeDomain c = some d → ready s → s.chip.domOn d = false → ∃ u, exec c s = .next u ∧ answered u stRefused ∧ kept s u []

/-- A register write without its right, or to an address that is not there, is answered so and changes nothing: R9, R10, R388, R464. -/
def Obligations.RegisterWriteNeedsItsRight : Prop :=
  ∀ (t : Nat) (who : Fin 20) (a v : Nat) (s : State), ready s → who.val < 4 → (chipAt s t).mayWrite who a ≠ stOk ∨ (chipAt s t).reach a ≠ stOk → ∃ u, exec (.registerWrite t who a v) s = .next u ∧ answered u (if (chipAt s t).mayWrite who a ≠ stOk then (chipAt s t).mayWrite who a else (chipAt s t).reach a) ∧ kept s u []

/-- An alarm empties every key store and closes every session: R400, R401, R402. -/
def Obligations.AlarmErasesEveryKeyStore : Prop :=
  ∀ (t mask : Nat) (n : Fin 8) (s : State), ready s → bit mask n = true → n.val ≠ 3 → n.val ≠ 4 → s.chip.rbit R.SEC_ALARM_STAT_ACTIVE 0 n = false → (∀ k : Fin 4, s.chip.rg R.HST_SESS_STAT_STATE k ≤ 2) → ∃ u, exec (.alarmStart t mask) s = .next u ∧ u.chip.rbit R.SEC_ALARM_STAT_ACTIVE 0 n = true ∧ u.chip.rbit R.SEC_ALARM_STAT_RELEASE 0 n = true ∧ u.chip.sec.vault = [] ∧ u.chip.sec.trunkKeys = [] ∧ u.chip.sec.msTx = [] ∧ u.chip.sec.msRx = [] ∧ u.chip.sec.offer = none ∧ u.chip.rg R.TRK_TERM_ID_MMK 0 = 0 ∧ u.chip.rg R.SEC_STAT_ID_READY 0 = 0 ∧ (∀ k : Fin 4, u.chip.rg R.HST_SESS_STAT_STATE k = 0) ∧ (s.chip.hp.dma = [] → u.mem = s.mem)

/-- R112: a read of the LO word captures the HI word, and the next read of the HI word returns it: R112. -/
def Obligations.CounterReadCapturesItsHighWord : Prop :=
  (∀ (t a : Nat) (s : State), ready s → ctrLive a = true → ∃ u v, exec (.counterLoRead t a) s = .next u ∧ v = s.chip.flowCount a (Tab.get 0 u.chip.cnt a) ∧ newest u = some { kind := .readWord, unit := 0, data := [v % 2 ^ 32], bytes := [] } ∧ u.chip.cap.find (a + 4) = some (v / 2 ^ 32) ∧ (measuredCtrs.all (fun m => (m.instAt a).isNone) = true → ¬(0x130000 ≤ a ∧ a < 0x140000) → u.chip.cnt = s.chip.cnt) ∧ regsKept s u [] ∧ u.chip.win = s.chip.win ∧ u.mem = s.mem) ∧
  (∀ (t a hi : Nat) (l : List Byte) (q : ZcpMsg) (s : State), ready s → ctrLive a = true → a < 0x80000000 → requestOk (chipAt s t) l q 1 → q.body = beBytes 6 (a + 4) ++ beBytes 2 1 → (chipAt s t).mayRead (zcpSess l) (a + 4) = stOk → (chipAt s t).reach (a + 4) = stOk → (chipAt s t).readHeld (a + 4) = false → s.chip.cap.find (a + 4) = some hi → ∃ u, exec (.zcpRead t l none) s = .next u ∧ responded s u l q (zeros 4 ++ beBytes 4 hi) ∧ u.chip.cap.find (a + 4) = none)

/-- R78: the hand-over window opens 20 µs before an Octave boundary and closes 2 µs after it: R78. -/
def Obligations.HandoverWindowOpensAndCloses : Prop :=
  (∀ (t : Nat) (s : State), ready s → ∃ u, exec (.handoverWindowOpen t) s = .next u ∧ u.chip.alm.window = (s.chip.alm.window || decide (50 * (chipAt s t).octDue.2 ≤ octU)) ∧ kept s u []) ∧
  (∀ (t : Nat) (s : State), ready s → ∃ u, exec (.handoverWindowClose t) s = .next u ∧ u.chip.alm.window = (s.chip.alm.window && (decide (50 * (chipAt s t).octDue.2 ≤ octU) || decide (max s.chip.now t < s.chip.alm.octAt + 2 * usPs))) ∧ kept s u [])

/-- After reset the terminal is in ASSEMBLY, the six boot domains are ON, every session is CLOSED and the handshake watchdog is 1 µs: R11, R38, R408. -/
def Obligations.ResetLeavesAssemblyAndBootDomains : Prop :=
  State.reset.chip.rg R.TRK_MODE_CODE 0 = 0 ∧ (∀ d : Fin 17, State.reset.chip.rg R.PWR_DOM_STAT_PSTATE d = (if d.val < 6 then 2 else 0)) ∧ (∀ k : Fin 4, State.reset.chip.rg R.HST_SESS_STAT_STATE k = 0) ∧ State.reset.chip.rg R.HLT_HSWD_TIME 0 = 10 ∧ State.reset.chip.rg R.TRK_GUARD_STAT_QUAR 0 = 0 ∧ State.reset.chip.rg R.SEC_BOOT_STAT_STAGE 0 = 0 ∧ State.reset.chip.running = true

end
end

