-- ==== Sys2Proof/Laws/State.lean ====
section
/-! SUPPORT. The small lemmas of the state: what each named update leaves of each field, the reads of registers and counters
after a write, and what one command of a terminal does to the whole state. -/

namespace Sys2Proof.Machine

open Sys2Proof

/-! ## The named updates, field by field -/

@[simp] theorem Chip.wg_now (c : Chip) (f : Fld) (i v : Nat) : (c.wg f i v).now = c.now := (rfl)
@[simp] theorem Chip.wg_fresh (c : Chip) (f : Fld) (i v : Nat) : (c.wg f i v).fresh = c.fresh := (rfl)
@[simp] theorem Chip.wg_cnt (c : Chip) (f : Fld) (i v : Nat) : (c.wg f i v).cnt = c.cnt := (rfl)
@[simp] theorem Chip.wg_lat (c : Chip) (f : Fld) (i v : Nat) : (c.wg f i v).lat = c.lat := (rfl)
@[simp] theorem Chip.wg_cap (c : Chip) (f : Fld) (i v : Nat) : (c.wg f i v).cap = c.cap := (rfl)
@[simp] theorem Chip.wg_win (c : Chip) (f : Fld) (i v : Nat) : (c.wg f i v).win = c.win := (rfl)
@[simp] theorem Chip.wg_out (c : Chip) (f : Fld) (i v : Nat) : (c.wg f i v).out = c.out := (rfl)
@[simp] theorem Chip.wg_mout (c : Chip) (f : Fld) (i v : Nat) : (c.wg f i v).mout = c.mout := (rfl)
@[simp] theorem Chip.wg_st (c : Chip) (f : Fld) (i v : Nat) : (c.wg f i v).st = c.st := (rfl)
@[simp] theorem Chip.wg_alm (c : Chip) (f : Fld) (i v : Nat) : (c.wg f i v).alm = c.alm := (rfl)
@[simp] theorem Chip.wg_ds (c : Chip) (f : Fld) (i v : Nat) : (c.wg f i v).ds = c.ds := (rfl)
@[simp] theorem Chip.wg_pp (c : Chip) (f : Fld) (i v : Nat) : (c.wg f i v).pp = c.pp := (rfl)
@[simp] theorem Chip.wg_qs (c : Chip) (f : Fld) (i v : Nat) : (c.wg f i v).qs = c.qs := (rfl)
@[simp] theorem Chip.wg_up (c : Chip) (f : Fld) (i v : Nat) : (c.wg f i v).up = c.up := (rfl)
@[simp] theorem Chip.wg_smp (c : Chip) (f : Fld) (i v : Nat) : (c.wg f i v).smp = c.smp := (rfl)
@[simp] theorem Chip.wg_fh (c : Chip) (f : Fld) (i v : Nat) : (c.wg f i v).fh = c.fh := (rfl)
@[simp] theorem Chip.wg_tm (c : Chip) (f : Fld) (i v : Nat) : (c.wg f i v).tm = c.tm := (rfl)
@[simp] theorem Chip.wg_pt (c : Chip) (f : Fld) (i v : Nat) : (c.wg f i v).pt = c.pt := (rfl)
@[simp] theorem Chip.wg_hp (c : Chip) (f : Fld) (i v : Nat) : (c.wg f i v).hp = c.hp := (rfl)
@[simp] theorem Chip.wg_mc (c : Chip) (f : Fld) (i v : Nat) : (c.wg f i v).mc = c.mc := (rfl)
@[simp] theorem Chip.wg_sec (c : Chip) (f : Fld) (i v : Nat) : (c.wg f i v).sec = c.sec := (rfl)
@[simp] theorem Chip.wg_pw (c : Chip) (f : Fld) (i v : Nat) : (c.wg f i v).pw = c.pw := (rfl)
@[simp] theorem Chip.wg_el (c : Chip) (f : Fld) (i v : Nat) : (c.wg f i v).el = c.el := (rfl)

@[simp] theorem Chip.incBy_now (c : Chip) (k : Ctr) (i n : Nat) : (c.incBy k i n).now = c.now := (rfl)
@[simp] theorem Chip.incBy_fresh (c : Chip) (k : Ctr) (i n : Nat) : (c.incBy k i n).fresh = c.fresh := (rfl)
@[simp] theorem Chip.incBy_regs (c : Chip) (k : Ctr) (i n : Nat) : (c.incBy k i n).regs = c.regs := (rfl)
@[simp] theorem Chip.incBy_lat (c : Chip) (k : Ctr) (i n : Nat) : (c.incBy k i n).lat = c.lat := (rfl)
@[simp] theorem Chip.incBy_cap (c : Chip) (k : Ctr) (i n : Nat) : (c.incBy k i n).cap = c.cap := (rfl)
@[simp] theorem Chip.incBy_win (c : Chip) (k : Ctr) (i n : Nat) : (c.incBy k i n).win = c.win := (rfl)
@[simp] theorem Chip.incBy_out (c : Chip) (k : Ctr) (i n : Nat) : (c.incBy k i n).out = c.out := (rfl)
@[simp] theorem Chip.incBy_mout (c : Chip) (k : Ctr) (i n : Nat) : (c.incBy k i n).mout = c.mout := (rfl)
@[simp] theorem Chip.incBy_st (c : Chip) (k : Ctr) (i n : Nat) : (c.incBy k i n).st = c.st := (rfl)
@[simp] theorem Chip.incBy_alm (c : Chip) (k : Ctr) (i n : Nat) : (c.incBy k i n).alm = c.alm := (rfl)
@[simp] theorem Chip.incBy_ds (c : Chip) (k : Ctr) (i n : Nat) : (c.incBy k i n).ds = c.ds := (rfl)
@[simp] theorem Chip.incBy_pp (c : Chip) (k : Ctr) (i n : Nat) : (c.incBy k i n).pp = c.pp := (rfl)
@[simp] theorem Chip.incBy_qs (c : Chip) (k : Ctr) (i n : Nat) : (c.incBy k i n).qs = c.qs := (rfl)
@[simp] theorem Chip.incBy_up (c : Chip) (k : Ctr) (i n : Nat) : (c.incBy k i n).up = c.up := (rfl)
@[simp] theorem Chip.incBy_smp (c : Chip) (k : Ctr) (i n : Nat) : (c.incBy k i n).smp = c.smp := (rfl)
@[simp] theorem Chip.incBy_fh (c : Chip) (k : Ctr) (i n : Nat) : (c.incBy k i n).fh = c.fh := (rfl)
@[simp] theorem Chip.incBy_tm (c : Chip) (k : Ctr) (i n : Nat) : (c.incBy k i n).tm = c.tm := (rfl)
@[simp] theorem Chip.incBy_pt (c : Chip) (k : Ctr) (i n : Nat) : (c.incBy k i n).pt = c.pt := (rfl)
@[simp] theorem Chip.incBy_hp (c : Chip) (k : Ctr) (i n : Nat) : (c.incBy k i n).hp = c.hp := (rfl)
@[simp] theorem Chip.incBy_mc (c : Chip) (k : Ctr) (i n : Nat) : (c.incBy k i n).mc = c.mc := (rfl)
@[simp] theorem Chip.incBy_sec (c : Chip) (k : Ctr) (i n : Nat) : (c.incBy k i n).sec = c.sec := (rfl)
@[simp] theorem Chip.incBy_pw (c : Chip) (k : Ctr) (i n : Nat) : (c.incBy k i n).pw = c.pw := (rfl)
@[simp] theorem Chip.incBy_el (c : Chip) (k : Ctr) (i n : Nat) : (c.incBy k i n).el = c.el := (rfl)

@[simp] theorem Chip.emit_now (c : Chip) (k : OutKind) (x : Nat) (d : List Nat) (b : List Byte) : (c.emit k x d b).now = c.now := (rfl)
@[simp] theorem Chip.emit_fresh (c : Chip) (k : OutKind) (x : Nat) (d : List Nat) (b : List Byte) : (c.emit k x d b).fresh = c.fresh := (rfl)
@[simp] theorem Chip.emit_regs (c : Chip) (k : OutKind) (x : Nat) (d : List Nat) (b : List Byte) : (c.emit k x d b).regs = c.regs := (rfl)
@[simp] theorem Chip.emit_cnt (c : Chip) (k : OutKind) (x : Nat) (d : List Nat) (b : List Byte) : (c.emit k x d b).cnt = c.cnt := (rfl)
@[simp] theorem Chip.emit_lat (c : Chip) (k : OutKind) (x : Nat) (d : List Nat) (b : List Byte) : (c.emit k x d b).lat = c.lat := (rfl)
@[simp] theorem Chip.emit_cap (c : Chip) (k : OutKind) (x : Nat) (d : List Nat) (b : List Byte) : (c.emit k x d b).cap = c.cap := (rfl)
@[simp] theorem Chip.emit_win (c : Chip) (k : OutKind) (x : Nat) (d : List Nat) (b : List Byte) : (c.emit k x d b).win = c.win := (rfl)
@[simp] theorem Chip.emit_mout (c : Chip) (k : OutKind) (x : Nat) (d : List Nat) (b : List Byte) : (c.emit k x d b).mout = c.mout := (rfl)
@[simp] theorem Chip.emit_st (c : Chip) (k : OutKind) (x : Nat) (d : List Nat) (b : List Byte) : (c.emit k x d b).st = c.st := (rfl)
@[simp] theorem Chip.emit_alm (c : Chip) (k : OutKind) (x : Nat) (d : List Nat) (b : List Byte) : (c.emit k x d b).alm = c.alm := (rfl)
@[simp] theorem Chip.emit_ds (c : Chip) (k : OutKind) (x : Nat) (d : List Nat) (b : List Byte) : (c.emit k x d b).ds = c.ds := (rfl)
@[simp] theorem Chip.emit_pp (c : Chip) (k : OutKind) (x : Nat) (d : List Nat) (b : List Byte) : (c.emit k x d b).pp = c.pp := (rfl)
@[simp] theorem Chip.emit_qs (c : Chip) (k : OutKind) (x : Nat) (d : List Nat) (b : List Byte) : (c.emit k x d b).qs = c.qs := (rfl)
@[simp] theorem Chip.emit_up (c : Chip) (k : OutKind) (x : Nat) (d : List Nat) (b : List Byte) : (c.emit k x d b).up = c.up := (rfl)
@[simp] theorem Chip.emit_smp (c : Chip) (k : OutKind) (x : Nat) (d : List Nat) (b : List Byte) : (c.emit k x d b).smp = c.smp := (rfl)
@[simp] theorem Chip.emit_fh (c : Chip) (k : OutKind) (x : Nat) (d : List Nat) (b : List Byte) : (c.emit k x d b).fh = c.fh := (rfl)
@[simp] theorem Chip.emit_tm (c : Chip) (k : OutKind) (x : Nat) (d : List Nat) (b : List Byte) : (c.emit k x d b).tm = c.tm := (rfl)
@[simp] theorem Chip.emit_pt (c : Chip) (k : OutKind) (x : Nat) (d : List Nat) (b : List Byte) : (c.emit k x d b).pt = c.pt := (rfl)
@[simp] theorem Chip.emit_hp (c : Chip) (k : OutKind) (x : Nat) (d : List Nat) (b : List Byte) : (c.emit k x d b).hp = c.hp := (rfl)
@[simp] theorem Chip.emit_mc (c : Chip) (k : OutKind) (x : Nat) (d : List Nat) (b : List Byte) : (c.emit k x d b).mc = c.mc := (rfl)
@[simp] theorem Chip.emit_sec (c : Chip) (k : OutKind) (x : Nat) (d : List Nat) (b : List Byte) : (c.emit k x d b).sec = c.sec := (rfl)
@[simp] theorem Chip.emit_pw (c : Chip) (k : OutKind) (x : Nat) (d : List Nat) (b : List Byte) : (c.emit k x d b).pw = c.pw := (rfl)
@[simp] theorem Chip.emit_el (c : Chip) (k : OutKind) (x : Nat) (d : List Nat) (b : List Byte) : (c.emit k x d b).el = c.el := (rfl)

@[simp] theorem Chip.winSet_now (c : Chip) (a v : Nat) : (c.winSet a v).now = c.now := (rfl)
@[simp] theorem Chip.winSet_fresh (c : Chip) (a v : Nat) : (c.winSet a v).fresh = c.fresh := (rfl)
@[simp] theorem Chip.winSet_regs (c : Chip) (a v : Nat) : (c.winSet a v).regs = c.regs := (rfl)
@[simp] theorem Chip.winSet_cnt (c : Chip) (a v : Nat) : (c.winSet a v).cnt = c.cnt := (rfl)
@[simp] theorem Chip.winSet_lat (c : Chip) (a v : Nat) : (c.winSet a v).lat = c.lat := (rfl)
@[simp] theorem Chip.winSet_cap (c : Chip) (a v : Nat) : (c.winSet a v).cap = c.cap := (rfl)
@[simp] theorem Chip.winSet_out (c : Chip) (a v : Nat) : (c.winSet a v).out = c.out := (rfl)
@[simp] theorem Chip.winSet_mout (c : Chip) (a v : Nat) : (c.winSet a v).mout = c.mout := (rfl)
@[simp] theorem Chip.winSet_st (c : Chip) (a v : Nat) : (c.winSet a v).st = c.st := (rfl)
@[simp] theorem Chip.winSet_alm (c : Chip) (a v : Nat) : (c.winSet a v).alm = c.alm := (rfl)
@[simp] theorem Chip.winSet_ds (c : Chip) (a v : Nat) : (c.winSet a v).ds = c.ds := (rfl)
@[simp] theorem Chip.winSet_pp (c : Chip) (a v : Nat) : (c.winSet a v).pp = c.pp := (rfl)
@[simp] theorem Chip.winSet_qs (c : Chip) (a v : Nat) : (c.winSet a v).qs = c.qs := (rfl)
@[simp] theorem Chip.winSet_up (c : Chip) (a v : Nat) : (c.winSet a v).up = c.up := (rfl)
@[simp] theorem Chip.winSet_smp (c : Chip) (a v : Nat) : (c.winSet a v).smp = c.smp := (rfl)
@[simp] theorem Chip.winSet_fh (c : Chip) (a v : Nat) : (c.winSet a v).fh = c.fh := (rfl)
@[simp] theorem Chip.winSet_tm (c : Chip) (a v : Nat) : (c.winSet a v).tm = c.tm := (rfl)
@[simp] theorem Chip.winSet_pt (c : Chip) (a v : Nat) : (c.winSet a v).pt = c.pt := (rfl)
@[simp] theorem Chip.winSet_hp (c : Chip) (a v : Nat) : (c.winSet a v).hp = c.hp := (rfl)
@[simp] theorem Chip.winSet_mc (c : Chip) (a v : Nat) : (c.winSet a v).mc = c.mc := (rfl)
@[simp] theorem Chip.winSet_sec (c : Chip) (a v : Nat) : (c.winSet a v).sec = c.sec := (rfl)
@[simp] theorem Chip.winSet_pw (c : Chip) (a v : Nat) : (c.winSet a v).pw = c.pw := (rfl)
@[simp] theorem Chip.winSet_el (c : Chip) (a v : Nat) : (c.winSet a v).el = c.el := (rfl)

@[simp] theorem Chip.mem_now (c : Chip) (o : MemOp) : (c.mem o).now = c.now := (rfl)
@[simp] theorem Chip.mem_fresh (c : Chip) (o : MemOp) : (c.mem o).fresh = c.fresh := (rfl)
@[simp] theorem Chip.mem_regs (c : Chip) (o : MemOp) : (c.mem o).regs = c.regs := (rfl)
@[simp] theorem Chip.mem_cnt (c : Chip) (o : MemOp) : (c.mem o).cnt = c.cnt := (rfl)
@[simp] theorem Chip.mem_lat (c : Chip) (o : MemOp) : (c.mem o).lat = c.lat := (rfl)
@[simp] theorem Chip.mem_cap (c : Chip) (o : MemOp) : (c.mem o).cap = c.cap := (rfl)
@[simp] theorem Chip.mem_win (c : Chip) (o : MemOp) : (c.mem o).win = c.win := (rfl)
@[simp] theorem Chip.mem_out (c : Chip) (o : MemOp) : (c.mem o).out = c.out := (rfl)
@[simp] theorem Chip.mem_st (c : Chip) (o : MemOp) : (c.mem o).st = c.st := (rfl)
@[simp] theorem Chip.mem_alm (c : Chip) (o : MemOp) : (c.mem o).alm = c.alm := (rfl)
@[simp] theorem Chip.mem_ds (c : Chip) (o : MemOp) : (c.mem o).ds = c.ds := (rfl)
@[simp] theorem Chip.mem_pp (c : Chip) (o : MemOp) : (c.mem o).pp = c.pp := (rfl)
@[simp] theorem Chip.mem_qs (c : Chip) (o : MemOp) : (c.mem o).qs = c.qs := (rfl)
@[simp] theorem Chip.mem_up (c : Chip) (o : MemOp) : (c.mem o).up = c.up := (rfl)
@[simp] theorem Chip.mem_smp (c : Chip) (o : MemOp) : (c.mem o).smp = c.smp := (rfl)
@[simp] theorem Chip.mem_fh (c : Chip) (o : MemOp) : (c.mem o).fh = c.fh := (rfl)
@[simp] theorem Chip.mem_tm (c : Chip) (o : MemOp) : (c.mem o).tm = c.tm := (rfl)
@[simp] theorem Chip.mem_pt (c : Chip) (o : MemOp) : (c.mem o).pt = c.pt := (rfl)
@[simp] theorem Chip.mem_hp (c : Chip) (o : MemOp) : (c.mem o).hp = c.hp := (rfl)
@[simp] theorem Chip.mem_mc (c : Chip) (o : MemOp) : (c.mem o).mc = c.mc := (rfl)
@[simp] theorem Chip.mem_sec (c : Chip) (o : MemOp) : (c.mem o).sec = c.sec := (rfl)
@[simp] theorem Chip.mem_pw (c : Chip) (o : MemOp) : (c.mem o).pw = c.pw := (rfl)
@[simp] theorem Chip.mem_el (c : Chip) (o : MemOp) : (c.mem o).el = c.el := (rfl)

@[simp] theorem Chip.tick_fresh (c : Chip) (t : Nat) : (c.tick t).fresh = c.fresh := (rfl)
@[simp] theorem Chip.tick_regs (c : Chip) (t : Nat) : (c.tick t).regs = c.regs := (rfl)
@[simp] theorem Chip.tick_cnt (c : Chip) (t : Nat) : (c.tick t).cnt = c.cnt := (rfl)
@[simp] theorem Chip.tick_lat (c : Chip) (t : Nat) : (c.tick t).lat = c.lat := (rfl)
@[simp] theorem Chip.tick_cap (c : Chip) (t : Nat) : (c.tick t).cap = c.cap := (rfl)
@[simp] theorem Chip.tick_win (c : Chip) (t : Nat) : (c.tick t).win = c.win := (rfl)
@[simp] theorem Chip.tick_out (c : Chip) (t : Nat) : (c.tick t).out = c.out := (rfl)
@[simp] theorem Chip.tick_mout (c : Chip) (t : Nat) : (c.tick t).mout = c.mout := (rfl)
@[simp] theorem Chip.tick_st (c : Chip) (t : Nat) : (c.tick t).st = c.st := (rfl)
@[simp] theorem Chip.tick_alm (c : Chip) (t : Nat) : (c.tick t).alm = c.alm := (rfl)
@[simp] theorem Chip.tick_ds (c : Chip) (t : Nat) : (c.tick t).ds = c.ds := (rfl)
@[simp] theorem Chip.tick_pp (c : Chip) (t : Nat) : (c.tick t).pp = c.pp := (rfl)
@[simp] theorem Chip.tick_qs (c : Chip) (t : Nat) : (c.tick t).qs = c.qs := (rfl)
@[simp] theorem Chip.tick_up (c : Chip) (t : Nat) : (c.tick t).up = c.up := (rfl)
@[simp] theorem Chip.tick_smp (c : Chip) (t : Nat) : (c.tick t).smp = c.smp := (rfl)
@[simp] theorem Chip.tick_fh (c : Chip) (t : Nat) : (c.tick t).fh = c.fh := (rfl)
@[simp] theorem Chip.tick_tm (c : Chip) (t : Nat) : (c.tick t).tm = c.tm := (rfl)
@[simp] theorem Chip.tick_pt (c : Chip) (t : Nat) : (c.tick t).pt = c.pt := (rfl)
@[simp] theorem Chip.tick_hp (c : Chip) (t : Nat) : (c.tick t).hp = c.hp := (rfl)
@[simp] theorem Chip.tick_mc (c : Chip) (t : Nat) : (c.tick t).mc = c.mc := (rfl)
@[simp] theorem Chip.tick_sec (c : Chip) (t : Nat) : (c.tick t).sec = c.sec := (rfl)
@[simp] theorem Chip.tick_pw (c : Chip) (t : Nat) : (c.tick t).pw = c.pw := (rfl)
@[simp] theorem Chip.tick_el (c : Chip) (t : Nat) : (c.tick t).el = c.el := (rfl)

@[simp] theorem Chip.draw_now (c : Chip) : (c.draw.2).now = c.now := (rfl)
@[simp] theorem Chip.draw_regs (c : Chip) : (c.draw.2).regs = c.regs := (rfl)
@[simp] theorem Chip.draw_cnt (c : Chip) : (c.draw.2).cnt = c.cnt := (rfl)
@[simp] theorem Chip.draw_lat (c : Chip) : (c.draw.2).lat = c.lat := (rfl)
@[simp] theorem Chip.draw_cap (c : Chip) : (c.draw.2).cap = c.cap := (rfl)
@[simp] theorem Chip.draw_win (c : Chip) : (c.draw.2).win = c.win := (rfl)
@[simp] theorem Chip.draw_out (c : Chip) : (c.draw.2).out = c.out := (rfl)
@[simp] theorem Chip.draw_mout (c : Chip) : (c.draw.2).mout = c.mout := (rfl)
@[simp] theorem Chip.draw_st (c : Chip) : (c.draw.2).st = c.st := (rfl)
@[simp] theorem Chip.draw_alm (c : Chip) : (c.draw.2).alm = c.alm := (rfl)
@[simp] theorem Chip.draw_ds (c : Chip) : (c.draw.2).ds = c.ds := (rfl)
@[simp] theorem Chip.draw_pp (c : Chip) : (c.draw.2).pp = c.pp := (rfl)
@[simp] theorem Chip.draw_qs (c : Chip) : (c.draw.2).qs = c.qs := (rfl)
@[simp] theorem Chip.draw_up (c : Chip) : (c.draw.2).up = c.up := (rfl)
@[simp] theorem Chip.draw_smp (c : Chip) : (c.draw.2).smp = c.smp := (rfl)
@[simp] theorem Chip.draw_fh (c : Chip) : (c.draw.2).fh = c.fh := (rfl)
@[simp] theorem Chip.draw_tm (c : Chip) : (c.draw.2).tm = c.tm := (rfl)
@[simp] theorem Chip.draw_pt (c : Chip) : (c.draw.2).pt = c.pt := (rfl)
@[simp] theorem Chip.draw_hp (c : Chip) : (c.draw.2).hp = c.hp := (rfl)
@[simp] theorem Chip.draw_mc (c : Chip) : (c.draw.2).mc = c.mc := (rfl)
@[simp] theorem Chip.draw_sec (c : Chip) : (c.draw.2).sec = c.sec := (rfl)
@[simp] theorem Chip.draw_pw (c : Chip) : (c.draw.2).pw = c.pw := (rfl)
@[simp] theorem Chip.draw_el (c : Chip) : (c.draw.2).el = c.el := (rfl)

@[simp] theorem Chip.done_now (c : Chip) : (c.done).now = c.now := (rfl)
@[simp] theorem Chip.done_fresh (c : Chip) : (c.done).fresh = c.fresh := (rfl)
@[simp] theorem Chip.done_regs (c : Chip) : (c.done).regs = c.regs := (rfl)
@[simp] theorem Chip.done_cnt (c : Chip) : (c.done).cnt = c.cnt := (rfl)
@[simp] theorem Chip.done_lat (c : Chip) : (c.done).lat = c.lat := (rfl)
@[simp] theorem Chip.done_cap (c : Chip) : (c.done).cap = c.cap := (rfl)
@[simp] theorem Chip.done_win (c : Chip) : (c.done).win = c.win := (rfl)
@[simp] theorem Chip.done_out (c : Chip) : (c.done).out = c.out := (rfl)
@[simp] theorem Chip.done_st (c : Chip) : (c.done).st = c.st := (rfl)
@[simp] theorem Chip.done_alm (c : Chip) : (c.done).alm = c.alm := (rfl)
@[simp] theorem Chip.done_ds (c : Chip) : (c.done).ds = c.ds := (rfl)
@[simp] theorem Chip.done_pp (c : Chip) : (c.done).pp = c.pp := (rfl)
@[simp] theorem Chip.done_qs (c : Chip) : (c.done).qs = c.qs := (rfl)
@[simp] theorem Chip.done_up (c : Chip) : (c.done).up = c.up := (rfl)
@[simp] theorem Chip.done_smp (c : Chip) : (c.done).smp = c.smp := (rfl)
@[simp] theorem Chip.done_fh (c : Chip) : (c.done).fh = c.fh := (rfl)
@[simp] theorem Chip.done_tm (c : Chip) : (c.done).tm = c.tm := (rfl)
@[simp] theorem Chip.done_pt (c : Chip) : (c.done).pt = c.pt := (rfl)
@[simp] theorem Chip.done_hp (c : Chip) : (c.done).hp = c.hp := (rfl)
@[simp] theorem Chip.done_mc (c : Chip) : (c.done).mc = c.mc := (rfl)
@[simp] theorem Chip.done_sec (c : Chip) : (c.done).sec = c.sec := (rfl)
@[simp] theorem Chip.done_pw (c : Chip) : (c.done).pw = c.pw := (rfl)
@[simp] theorem Chip.done_el (c : Chip) : (c.done).el = c.el := (rfl)

@[simp] theorem Chip.emit_out (c : Chip) (k : OutKind) (x : Nat) (d : List Nat) (b : List Byte) :
    (c.emit k x d b).out = { kind := k, unit := x, data := d, bytes := b } :: c.out := (rfl)
@[simp] theorem Chip.mem_mout (c : Chip) (o : MemOp) : (c.mem o).mout = c.mout ++ [o] := (rfl)
@[simp] theorem Chip.tick_now (c : Chip) (t : Nat) : (c.tick t).now = max c.now t := (rfl)
@[simp] theorem Chip.draw_fresh (c : Chip) : c.draw.2.fresh = c.fresh + 1 := (rfl)
@[simp] theorem Chip.draw_value (c : Chip) : c.draw.1 = Config.freeVal c.fresh := (rfl)

/-! ## The other writes are writes of `wg` -/

@[simp] theorem Chip.wb_eq (c : Chip) (f : Fld) (i : Nat) (b : Bool) : c.wb f i b = c.wg f i (b2n b) := (rfl)
@[simp] theorem Chip.ws_eq (c : Chip) (f : Fld) (i : Nat) (x : Int) : c.ws f i x = c.wg f i (unsgn f.width (satInt f.width x)) := (rfl)
@[simp] theorem Chip.wsat_eq (c : Chip) (f : Fld) (i v : Nat) : c.wsat f i v = c.wg f i (satNat f.width v) := (rfl)
@[simp] theorem Chip.inc_eq (c : Chip) (k : Ctr) (i : Nat) : c.inc k i = c.incBy k i 1 := (rfl)
@[simp] theorem Chip.when_true (c : Chip) (f : Chip → Chip) : c.when true f = f c := (rfl)
@[simp] theorem Chip.when_false (c : Chip) (f : Chip → Chip) : c.when false f = c := (rfl)

/-! ## Tables -/

/-- A key reads what was last written under it. -/
@[simp] theorem Tab.find_set_same {α : Type} (t : Tab α) (k : Nat) (v : α) : (t.set k v).find k = some v := by
  induction t with
  | nil => simp [Tab.set, Tab.find]
  | cons e r ih =>
    obtain ⟨j, w⟩ := e
    simp only [Tab.set]
    split
    · simp [Tab.find]
    · split
      · simp [Tab.find]
      · simp only [Tab.find, if_neg ‹¬ k < j›, if_neg ‹¬ k = j›, ih]

/-- A write under one key leaves every other key. -/
theorem Tab.find_set_other {α : Type} (t : Tab α) (k k' : Nat) (v : α) (h : k ≠ k') : (t.set k v).find k' = t.find k' := by
  induction t with
  | nil =>
    simp only [Tab.set, Tab.find]
    rw [if_neg (by omega)]
    split <;> rfl
  | cons e r ih =>
    obtain ⟨j, w⟩ := e
    simp only [Tab.set]
    split
    · by_cases h1 : k' < k
      · have : k' ≠ j := by omega
        simp [Tab.find, Ne.symm h, h1, this, show k' < j by omega]
      · simp [Tab.find, Ne.symm h, h1]
    · split
      · subst_vars
        by_cases h1 : k' < j <;> simp [Tab.find, Ne.symm h, h1]
      · simp only [Tab.find, ih]

@[simp] theorem Tab.get_set_same {α : Type} (d : α) (t : Tab α) (k : Nat) (v : α) : Tab.get d (t.set k v) k = v := by
  simp [Tab.get]

theorem Tab.get_set_other {α : Type} (d : α) (t : Tab α) (k k' : Nat) (v : α) (h : k ≠ k') :
    Tab.get d (t.set k v) k' = Tab.get d t k' := by
  simp [Tab.get, Tab.find_set_other t k k' v h]

/-! ## Bit fields -/

theorem bits_lt (v l w : Nat) : bits v l w < 2 ^ w := Nat.mod_lt _ (Nat.two_pow_pos w)

@[simp] theorem bits_mod (v l w : Nat) : bits v l w % 2 ^ w = bits v l w := Nat.mod_eq_of_lt (bits_lt v l w)

/-! ## Registers and counters -/

/-- What a register field reads after a write of a field. -/
theorem Chip.rg_wg (c : Chip) (f g : Fld) (i j v : Nat) :
    (c.wg f i v).rg g j = if g.key j = f.key i then v % 2 ^ f.width else c.rg g j := by
  simp only [Chip.rg, Chip.wg]
  split
  · rename_i h
    rw [h, Tab.get_set_same]
  · rename_i h
    exact Tab.get_set_other _ _ _ _ _ (Ne.symm h)

@[simp] theorem Chip.rg_wg_same (c : Chip) (f : Fld) (i v : Nat) : (c.wg f i v).rg f i = v % 2 ^ f.width := by
  rw [Chip.rg_wg, if_pos rfl]

theorem Chip.rg_wg_other (c : Chip) (f g : Fld) (i j v : Nat) (h : f.key i ≠ g.key j) : (c.wg f i v).rg g j = c.rg g j := by
  rw [Chip.rg_wg, if_neg (Ne.symm h)]

/-- Two fields at different bit positions never share a key. -/
theorem Fld.key_ne_of_lsb (f g : Fld) (i j : Nat) (hf : f.lsb < 32) (hg : g.lsb < 32) (h : f.lsb ≠ g.lsb) : f.key i ≠ g.key j := by
  simp only [Fld.key]
  omega

@[simp] theorem Chip.rg_incBy (c : Chip) (k : Ctr) (i n : Nat) (f : Fld) (j : Nat) : (c.incBy k i n).rg f j = c.rg f j := (rfl)
@[simp] theorem Chip.rg_emit (c : Chip) (k : OutKind) (x : Nat) (d : List Nat) (b : List Byte) (f : Fld) (j : Nat) :
    (c.emit k x d b).rg f j = c.rg f j := (rfl)
@[simp] theorem Chip.rg_winSet (c : Chip) (a v : Nat) (f : Fld) (j : Nat) : (c.winSet a v).rg f j = c.rg f j := (rfl)
@[simp] theorem Chip.rg_mem (c : Chip) (o : MemOp) (f : Fld) (j : Nat) : (c.mem o).rg f j = c.rg f j := (rfl)
@[simp] theorem Chip.rg_tick (c : Chip) (t : Nat) (f : Fld) (j : Nat) : (c.tick t).rg f j = c.rg f j := (rfl)
@[simp] theorem Chip.rg_draw (c : Chip) (f : Fld) (j : Nat) : c.draw.2.rg f j = c.rg f j := (rfl)

/-- A counter after it counted. -/
theorem Chip.counter_incBy (c : Chip) (k l : Ctr) (i j n : Nat) :
    (c.incBy k i n).counter l j = if l.key j = k.key i then (c.counter k i + n) % 2 ^ 48 else c.counter l j := by
  simp only [Chip.counter, Chip.incBy]
  split
  · rename_i h
    rw [h, Tab.get_set_same]
  · rename_i h
    exact Tab.get_set_other _ _ _ _ _ (Ne.symm h)

@[simp] theorem Chip.counter_incBy_same (c : Chip) (k : Ctr) (i n : Nat) :
    (c.incBy k i n).counter k i = (c.counter k i + n) % 2 ^ 48 := by
  rw [Chip.counter_incBy, if_pos rfl]

@[simp] theorem Chip.counter_wg (c : Chip) (f : Fld) (i v : Nat) (k : Ctr) (j : Nat) : (c.wg f i v).counter k j = c.counter k j := (rfl)
@[simp] theorem Chip.counter_emit (c : Chip) (o : OutKind) (x : Nat) (d : List Nat) (b : List Byte) (k : Ctr) (j : Nat) :
    (c.emit o x d b).counter k j = c.counter k j := (rfl)
@[simp] theorem Chip.counter_tick (c : Chip) (t : Nat) (k : Ctr) (j : Nat) : (c.tick t).counter k j = c.counter k j := (rfl)

@[simp] theorem Chip.rg_done (c : Chip) (f : Fld) (j : Nat) : c.done.rg f j = c.rg f j := (rfl)
@[simp] theorem Chip.counter_done (c : Chip) (k : Ctr) (j : Nat) : c.done.counter k j = c.counter k j := (rfl)
@[simp] theorem Chip.done_mout (c : Chip) : c.done.mout = [] := (rfl)

/-! ## An update of another part leaves registers and counters -/

@[simp] theorem Chip.rg_mk (c : Chip) (now' : Nat) (fresh' : Nat) (cnt' : Tab Nat) (lat' : Tab Nat) (cap' : Tab Nat) (win' : Tab Nat) (out' : List Output) (mout' : List MemOp) (st' : StructSt) (alm' : AlmSt) (ds' : DsSt) (pp' : PipeSt) (qs' : QueueSt) (up' : UpSt) (smp' : SmpSt) (fh' : FhSt) (tm' : TmSt) (pt' : PortSt) (hp' : HostSt) (mc' : McuSt) (sec' : SecSt) (pw' : PowSt) (el' : ElecSt) (f : Fld) (j : Nat) :
    (Chip.mk now' fresh' c.regs cnt' lat' cap' win' out' mout' st' alm' ds' pp' qs' up' smp' fh' tm' pt' hp' mc' sec' pw' el').rg f j = c.rg f j := (rfl)
@[simp] theorem Chip.counter_mk (c : Chip) (now' : Nat) (fresh' : Nat) (regs' : Tab Nat) (lat' : Tab Nat) (cap' : Tab Nat) (win' : Tab Nat) (out' : List Output) (mout' : List MemOp) (st' : StructSt) (alm' : AlmSt) (ds' : DsSt) (pp' : PipeSt) (qs' : QueueSt) (up' : UpSt) (smp' : SmpSt) (fh' : FhSt) (tm' : TmSt) (pt' : PortSt) (hp' : HostSt) (mc' : McuSt) (sec' : SecSt) (pw' : PowSt) (el' : ElecSt) (k : Ctr) (j : Nat) :
    (Chip.mk now' fresh' regs' c.cnt lat' cap' win' out' mout' st' alm' ds' pp' qs' up' smp' fh' tm' pt' hp' mc' sec' pw' el').counter k j = c.counter k j := (rfl)

/-! ## One command -/

@[simp] theorem Chip.running_tick (c : Chip) (t : Nat) : (c.tick t).running = c.running := (rfl)
@[simp] theorem Chip.running_wg (c : Chip) (f : Fld) (i v : Nat) : (c.wg f i v).running = c.running := (rfl)

@[simp] theorem State.after_chip (s : State) (c : Chip) : (s.after c).chip = c.done := (rfl)
@[simp] theorem State.after_mem (s : State) (c : Chip) : (s.after c).mem = s.mem.applyAll c.mout := (rfl)
@[simp] theorem State.after_pending (s : State) (c : Chip) : (s.after c).pending = s.pending := (rfl)

/-- A command that acts whatever the supplies. -/
theorem State.onAny_next (s : State) (t : Nat) (f : Mem → Chip → Chip) : s.onAny t f = .next (s.after (f s.mem (s.chip.tick t))) := (rfl)

/-- A command of a terminal that runs. -/
theorem State.on_running (s : State) (t : Nat) (f : Mem → Chip → Chip) (h : s.chip.running = true) :
    s.on t f = .next (s.after (f s.mem (s.chip.tick t))) := by
  simp only [State.on, State.onAny_next, Chip.running_tick, h, if_true]

/-- A command of a terminal that does not run changes its instant only. -/
theorem State.on_stopped (s : State) (t : Nat) (f : Mem → Chip → Chip) (h : s.chip.running = false) :
    s.on t f = .next (s.after (s.chip.tick t)) := by
  simp [State.on, State.onAny_next, h]

/-- A command of a terminal that runs answers a next state; what holds of the chip it leaves holds of that state. -/
theorem State.on_answers (s : State) (t : Nat) (f : Mem → Chip → Chip) (P : State → Prop) (h : s.chip.running = true)
    (hp : P (s.after (f s.mem (s.chip.tick t)))) : ∃ u, s.on t f = .next u ∧ P u := ⟨_, State.on_running s t f h, hp⟩

/-- The same for a command that acts whatever the supplies. -/
theorem State.onAny_answers (s : State) (t : Nat) (f : Mem → Chip → Chip) (P : State → Prop)
    (hp : P (s.after (f s.mem (s.chip.tick t)))) : ∃ u, s.onAny t f = .next u ∧ P u := ⟨_, rfl, hp⟩

end Sys2Proof.Machine
end

