-- ==== Sys2Proof/Laws/Reads.lean ====
section
/-! SUPPORT. What is read of the chip does not depend on the instant alone, nor on the changes of the memories that wait: one lemma
for each reader of the model. -/

namespace Sys2Proof.Machine

open Sys2Proof

/-! ## After the instant moved -/

@[simp] theorem Chip.aCause_tick (c : Chip) (t : Nat) : (c.tick t).aCause = c.aCause := (rfl)
@[simp] theorem Chip.aPaused_tick (c : Chip) (t : Nat) : (c.tick t).aPaused = c.aPaused := (rfl)
@[simp] theorem Chip.aStamps_tick (c : Chip) (t : Nat) : (c.tick t).aStamps = c.aStamps := (rfl)
@[simp] theorem Chip.actionOk_tick (c : Chip) (a : Nat) (t : Nat) : (c.tick t).actionOk a = c.actionOk a := (rfl)
@[simp] theorem Chip.admitCells_tick (c : Chip) (f : Frame) (t : Nat) : (c.tick t).admitCells f = c.admitCells f := (rfl)
@[simp] theorem Chip.admitStopped_tick (c : Chip) (t : Nat) : (c.tick t).admitStopped = c.admitStopped := (rfl)
@[simp] theorem Chip.alarmAction_tick (c : Chip) (n : Nat) (t : Nat) : (c.tick t).alarmAction n = c.alarmAction n := (rfl)
@[simp] theorem Chip.alarmHolds_tick (c : Chip) (t : Nat) : (c.tick t).alarmHolds = c.alarmHolds := (rfl)
@[simp] theorem Chip.alarmStuck_tick (c : Chip) (n : Nat) (t : Nat) : (c.tick t).alarmStuck n = c.alarmStuck n := (rfl)
@[simp] theorem Chip.alarmUsed_tick (c : Chip) (n : Nat) (t : Nat) : (c.tick t).alarmUsed n = c.alarmUsed n := (rfl)
@[simp] theorem Chip.alertLow_tick (c : Chip) (t : Nat) : (c.tick t).alertLow = c.alertLow := (rfl)
@[simp] theorem Chip.allocIdx_tick (c : Chip) (ch id : Nat) (t : Nat) : (c.tick t).allocIdx ch id = c.allocIdx ch id := (rfl)
@[simp] theorem Chip.allocLoad_tick (c : Chip) (k alloc : Nat) (t : Nat) : (c.tick t).allocLoad k alloc = c.allocLoad k alloc := (rfl)
@[simp] theorem Chip.allocMons_tick (c : Chip) (k a : Nat) (t : Nat) : (c.tick t).allocMons k a = c.allocMons k a := (rfl)
@[simp] theorem Chip.annCh_tick (c : Chip) (t : Nat) : (c.tick t).annCh = c.annCh := (rfl)
@[simp] theorem Chip.announceRec_tick (c : Chip) (t : Nat) : (c.tick t).announceRec = c.announceRec := (rfl)
@[simp] theorem Chip.announcing_tick (c : Chip) (t : Nat) : (c.tick t).announcing = c.announcing := (rfl)
@[simp] theorem Chip.anySync_tick (c : Chip) (t : Nat) : (c.tick t).anySync = c.anySync := (rfl)
@[simp] theorem Chip.arbCount_tick (c : Chip) (t : Nat) : (c.tick t).arbCount = c.arbCount := (rfl)
@[simp] theorem Chip.archBase_tick (c : Chip) (m : Mem) (t : Nat) : (c.tick t).archBase m = c.archBase m := (rfl)
@[simp] theorem Chip.archLen_tick (c : Chip) (m : Mem) (t : Nat) : (c.tick t).archLen m = c.archLen m := (rfl)
@[simp] theorem Chip.armed_tick (c : Chip) (s : Shad) (t : Nat) : (c.tick t).armed s = c.armed s := (rfl)
@[simp] theorem Chip.armedSet_tick (c : Chip) (y : Nat) (t : Nat) : (c.tick t).armedSet y = c.armedSet y := (rfl)
@[simp] theorem Chip.armedSets_tick (c : Chip) (t : Nat) : (c.tick t).armedSets = c.armedSets := (rfl)
@[simp] theorem Chip.arrivals_tick (c : Chip) (origin src : Nat) (t : Nat) : (c.tick t).arrivals origin src = c.arrivals origin src := (rfl)
@[simp] theorem Chip.authCheck_tick (c : Chip) (x : MsgSlot) (t : Nat) : (c.tick t).authCheck x = c.authCheck x := (rfl)
@[simp] theorem Chip.bPps_tick (c : Chip) (t : Nat) : (c.tick t).bPps = c.bPps := (rfl)
@[simp] theorem Chip.bexp_tick (c : Chip) (x : Nat) (act : Bool) (k : Nat) (t : Nat) : (c.tick t).bexp x act k = c.bexp x act k := (rfl)
@[simp] theorem Chip.blkPorts_tick (c : Chip) (b : Nat) (t : Nat) : (c.tick t).blkPorts b = c.blkPorts b := (rfl)
@[simp] theorem Chip.blockOk_tick (c : Chip) (b : Nat) (t : Nat) : (c.tick t).blockOk b = c.blockOk b := (rfl)
@[simp] theorem Chip.blockOkWord_tick (c : Chip) (t : Nat) : (c.tick t).blockOkWord = c.blockOkWord := (rfl)
@[simp] theorem Chip.bootImage_tick (c : Chip) (m : Mem) (src kind : Nat) (t : Nat) : (c.tick t).bootImage m src kind = c.bootImage m src kind := (rfl)
@[simp] theorem Chip.boundTo_tick (c : Chip) (n : Nat) (t : Nat) : (c.tick t).boundTo n = c.boundTo n := (rfl)
@[simp] theorem Chip.burstHeld_tick (c : Chip) (a : Nat) (bytes : List Byte) (t : Nat) : (c.tick t).burstHeld a bytes = c.burstHeld a bytes := (rfl)
@[simp] theorem Chip.cacheFind_tick (c : Chip) (t b k : Nat) (t0 : Nat) : (c.tick t0).cacheFind t b k = c.cacheFind t b k := (rfl)
@[simp] theorem Chip.canPower_tick (c : Chip) (d : Nat) (t : Nat) : (c.tick t).canPower d = c.canPower d := (rfl)
@[simp] theorem Chip.capMax_tick (c : Chip) (n volt : Nat) (t : Nat) : (c.tick t).capMax n volt = c.capMax n volt := (rfl)
@[simp] theorem Chip.cell_tick (c : Chip) (x : Nat) (t : Nat) : (c.tick t).cell x = c.cell x := (rfl)
@[simp] theorem Chip.cellRole_tick (c : Chip) (b k : Nat) (t : Nat) : (c.tick t).cellRole b k = c.cellRole b k := (rfl)
@[simp] theorem Chip.cellServes_tick (c : Chip) (b k : Nat) (t : Nat) : (c.tick t).cellServes b k = c.cellServes b k := (rfl)
@[simp] theorem Chip.choose_tick (c : Chip) (parent : Nat) (ks : List Pick) (t : Nat) : (c.tick t).choose parent ks = c.choose parent ks := (rfl)
@[simp] theorem Chip.clipWord_tick (c : Chip) (a v : Nat) (t : Nat) : (c.tick t).clipWord a v = c.clipWord a v := (rfl)
@[simp] theorem Chip.clockId_tick (c : Chip) (t : Nat) : (c.tick t).clockId = c.clockId := (rfl)
@[simp] theorem Chip.coefAct_tick (c : Chip) (x : Nat) (t : Nat) : (c.tick t).coefAct x = c.coefAct x := (rfl)
@[simp] theorem Chip.coefCells_tick (c : Chip) (x : Nat) (t : Nat) : (c.tick t).coefCells x = c.coefCells x := (rfl)
@[simp] theorem Chip.coefClosed_tick (c : Chip) (x : Nat) (t : Nat) : (c.tick t).coefClosed x = c.coefClosed x := (rfl)
@[simp] theorem Chip.coefForm_tick (c : Chip) (x : Nat) (l : List Byte) (t : Nat) : (c.tick t).coefForm x l = c.coefForm x l := (rfl)
@[simp] theorem Chip.coreIdle_tick (c : Chip) (j : Nat) (t : Nat) : (c.tick t).coreIdle j = c.coreIdle j := (rfl)
@[simp] theorem Chip.coreTask_tick (c : Chip) (j : Nat) (t : Nat) : (c.tick t).coreTask j = c.coreTask j := (rfl)
@[simp] theorem Chip.coresStopped_tick (c : Chip) (t : Nat) : (c.tick t).coresStopped = c.coresStopped := (rfl)
@[simp] theorem Chip.ctlNext_tick (c : Chip) (p : Nat) (t : Nat) : (c.tick t).ctlNext p = c.ctlNext p := (rfl)
@[simp] theorem Chip.curPg_tick (c : Chip) (t : Nat) : (c.tick t).curPg = c.curPg := (rfl)
@[simp] theorem Chip.dDown_tick (c : Chip) (t : Nat) : (c.tick t).dDown = c.dDown := (rfl)
@[simp] theorem Chip.ddrCap_tick (c : Chip) (t : Nat) : (c.tick t).ddrCap = c.ddrCap := (rfl)
@[simp] theorem Chip.ddrOk_tick (c : Chip) (t : Nat) : (c.tick t).ddrOk = c.ddrOk := (rfl)
@[simp] theorem Chip.debugLocked_tick (c : Chip) (t : Nat) : (c.tick t).debugLocked = c.debugLocked := (rfl)
@[simp] theorem Chip.deltaCells_tick (c : Chip) (p : Prepared) (rtype : Nat) (t : Nat) : (c.tick t).deltaCells p rtype = c.deltaCells p rtype := (rfl)
@[simp] theorem Chip.deltaStages_tick (c : Chip) (p : Prepared) (t : Nat) : (c.tick t).deltaStages p = c.deltaStages p := (rfl)
@[simp] theorem Chip.dmaDesc_tick (c : Chip) (ch : Nat) (t : Nat) : (c.tick t).dmaDesc ch = c.dmaDesc ch := (rfl)
@[simp] theorem Chip.dmaHas_tick (c : Chip) (ch : Nat) (t : Nat) : (c.tick t).dmaHas ch = c.dmaHas ch := (rfl)
@[simp] theorem Chip.dmaLine_tick (c : Chip) (ch : Nat) (t : Nat) : (c.tick t).dmaLine ch = c.dmaLine ch := (rfl)
@[simp] theorem Chip.dmaLive_tick (c : Chip) (ch : Nat) (t : Nat) : (c.tick t).dmaLive ch = c.dmaLive ch := (rfl)
@[simp] theorem Chip.dmaPick_tick (c : Chip) (t : Nat) : (c.tick t).dmaPick = c.dmaPick := (rfl)
@[simp] theorem Chip.dmaWho_tick (c : Chip) (ch : Nat) (t : Nat) : (c.tick t).dmaWho ch = c.dmaWho ch := (rfl)
@[simp] theorem Chip.dmaWork_tick (c : Chip) (ch : Nat) (t : Nat) : (c.tick t).dmaWork ch = c.dmaWork ch := (rfl)
@[simp] theorem Chip.dom_tick (c : Chip) (d : Nat) (t : Nat) : (c.tick t).dom d = c.dom d := (rfl)
@[simp] theorem Chip.domEnabled_tick (c : Chip) (d : Nat) (t : Nat) : (c.tick t).domEnabled d = c.domEnabled d := (rfl)
@[simp] theorem Chip.domOn_tick (c : Chip) (d : Nat) (t : Nat) : (c.tick t).domOn d = c.domOn d := (rfl)
@[simp] theorem Chip.domStaged_tick (c : Chip) (d : Nat) (t : Nat) : (c.tick t).domStaged d = c.domStaged d := (rfl)
@[simp] theorem Chip.drr_tick (c : Chip) (parent : Nat) (ks : List Pick) (t : Nat) : (c.tick t).drr parent ks = c.drr parent ks := (rfl)
@[simp] theorem Chip.dsBound_tick (c : Chip) (k : Nat) (t : Nat) : (c.tick t).dsBound k = c.dsBound k := (rfl)
@[simp] theorem Chip.dstate_tick (c : Chip) (d : Nat) (t : Nat) : (c.tick t).dstate d = c.dstate d := (rfl)
@[simp] theorem Chip.dutyMax_tick (c : Chip) (t : Nat) : (c.tick t).dutyMax = c.dutyMax := (rfl)
@[simp] theorem Chip.eng_tick (c : Chip) (k : Nat) (t : Nat) : (c.tick t).eng k = c.eng k := (rfl)
@[simp] theorem Chip.engineOf_tick (c : Chip) (k : Nat) (t : Nat) : (c.tick t).engineOf k = c.engineOf k := (rfl)
@[simp] theorem Chip.entryOk_tick (c : Chip) (x bank e w : Nat) (t : Nat) : (c.tick t).entryOk x bank e w = c.entryOk x bank e w := (rfl)
@[simp] theorem Chip.eqdNow_tick (c : Chip) (side ch : Nat) (t : Nat) : (c.tick t).eqdNow side ch = c.eqdNow side ch := (rfl)
@[simp] theorem Chip.esmcPdu_tick (c : Chip) (p : Nat) (event : Bool) (t : Nat) : (c.tick t).esmcPdu p event = c.esmcPdu p event := (rfl)
@[simp] theorem Chip.evFam_tick (c : Chip) (en f : Fld) (n : Nat) (t : Nat) : (c.tick t).evFam en f n = c.evFam en f n := (rfl)
@[simp] theorem Chip.evPend_tick (c : Chip) (t : Nat) : (c.tick t).evPend = c.evPend := (rfl)
@[simp] theorem Chip.evUnit_tick (c : Chip) (u : Nat) (t : Nat) : (c.tick t).evUnit u = c.evUnit u := (rfl)
@[simp] theorem Chip.exactFind_tick (c : Chip) (bank base size key : Nat) (t : Nat) : (c.tick t).exactFind bank base size key = c.exactFind bank base size key := (rfl)
@[simp] theorem Chip.excAction_tick (c : Chip) (pg e : Nat) (t : Nat) : (c.tick t).excAction pg e = c.excAction pg e := (rfl)
@[simp] theorem Chip.fifoOver_tick (c : Chip) (origin src : Nat) (id : Option Nat) (n : Nat) (t : Nat) : (c.tick t).fifoOver origin src id n = c.fifoOver origin src id n := (rfl)
@[simp] theorem Chip.firstEmpty_tick (c : Chip) (i : Nat) (t : Nat) : (c.tick t).firstEmpty i = c.firstEmpty i := (rfl)
@[simp] theorem Chip.floorPoint_tick (c : Chip) (n : Nat) (t : Nat) : (c.tick t).floorPoint n = c.floorPoint n := (rfl)
@[simp] theorem Chip.flowAt_tick (c : Chip) (s x : Nat) (t : Nat) : (c.tick t).flowAt s x = c.flowAt s x := (rfl)
@[simp] theorem Chip.flowBucket_tick (c : Chip) (t b k : Nat) (t0 : Nat) : (c.tick t0).flowBucket t b k = c.flowBucket t b k := (rfl)
@[simp] theorem Chip.flowCount_tick (c : Chip) (a v : Nat) (t : Nat) : (c.tick t).flowCount a v = c.flowCount a v := (rfl)
@[simp] theorem Chip.flowData_tick (c : Chip) (t : Nat) : (c.tick t).flowData = c.flowData := (rfl)
@[simp] theorem Chip.flowLocked_tick (c : Chip) (table bank : Nat) (t : Nat) : (c.tick t).flowLocked table bank = c.flowLocked table bank := (rfl)
@[simp] theorem Chip.flows_tick (c : Chip) (t : Nat) : (c.tick t).flows = c.flows := (rfl)
@[simp] theorem Chip.fuse_tick (c : Chip) (lsb w : Nat) (t : Nat) : (c.tick t).fuse lsb w = c.fuse lsb w := (rfl)
@[simp] theorem Chip.fuseRefused_tick (c : Chip) (group : Nat) (ws : List Nat) (t : Nat) : (c.tick t).fuseRefused group ws = c.fuseRefused group ws := (rfl)
@[simp] theorem Chip.gateActOk_tick (c : Chip) (p : Nat) (t : Nat) : (c.tick t).gateActOk p = c.gateActOk p := (rfl)
@[simp] theorem Chip.gateBit_tick (c : Chip) (p e t : Nat) (t0 : Nat) : (c.tick t0).gateBit p e t = c.gateBit p e t := (rfl)
@[simp] theorem Chip.gateIval_tick (c : Chip) (p e : Nat) (t : Nat) : (c.tick t).gateIval p e = c.gateIval p e := (rfl)
@[simp] theorem Chip.gateLegal_tick (c : Chip) (p : Nat) (t : Nat) : (c.tick t).gateLegal p = c.gateLegal p := (rfl)
@[simp] theorem Chip.gateNever_tick (c : Chip) (p t : Nat) (f : Frame) (t0 : Nat) : (c.tick t0).gateNever p t f = c.gateNever p t f := (rfl)
@[simp] theorem Chip.gateOpen_tick (c : Chip) (p t : Nat) (t0 : Nat) : (c.tick t0).gateOpen p t = c.gateOpen p t := (rfl)
@[simp] theorem Chip.gatesSet_tick (c : Chip) (t : Nat) : (c.tick t).gatesSet = c.gatesSet := (rfl)
@[simp] theorem Chip.genBank_tick (c : Chip) (g s : Nat) (t : Nat) : (c.tick t).genBank g s = c.genBank g s := (rfl)
@[simp] theorem Chip.genPg_tick (c : Chip) (g : Nat) (t : Nat) : (c.tick t).genPg g = c.genPg g := (rfl)
@[simp] theorem Chip.genSlot_tick (c : Chip) (g : Nat) (t : Nat) : (c.tick t).genSlot g = c.genSlot g := (rfl)
@[simp] theorem Chip.getLatest_tick (c : Chip) (i : Nat) (t : Nat) : (c.tick t).getLatest i = c.getLatest i := (rfl)
@[simp] theorem Chip.grade_tick (c : Chip) (t : Nat) : (c.tick t).grade = c.grade := (rfl)
@[simp] theorem Chip.grantKind_tick (c : Chip) (k alloc : Nat) (mgmt : Bool) (t : Nat) : (c.tick t).grantKind k alloc mgmt = c.grantKind k alloc mgmt := (rfl)
@[simp] theorem Chip.groupDone_tick (c : Chip) (g : Nat) (t : Nat) : (c.tick t).groupDone g = c.groupDone g := (rfl)
@[simp] theorem Chip.guardOk_tick (c : Chip) (w : Window) (t : Nat) : (c.tick t).guardOk w = c.guardOk w := (rfl)
@[simp] theorem Chip.hadShadow_tick (c : Chip) (b k sp : Nat) (t : Nat) : (c.tick t).hadShadow b k sp = c.hadShadow b k sp := (rfl)
@[simp] theorem Chip.hasCoefFlow_tick (c : Chip) (x : Nat) (t : Nat) : (c.tick t).hasCoefFlow x = c.hasCoefFlow x := (rfl)
@[simp] theorem Chip.hasRight_tick (c : Chip) (who b : Nat) (t : Nat) : (c.tick t).hasRight who b = c.hasRight who b := (rfl)
@[simp] theorem Chip.hashOf_tick (c : Chip) (l : List Byte) (hs : List Hdr) (t : Nat) : (c.tick t).hashOf l hs = c.hashOf l hs := (rfl)
@[simp] theorem Chip.hbmBytes_tick (c : Chip) (n : Nat) (t : Nat) : (c.tick t).hbmBytes n = c.hbmBytes n := (rfl)
@[simp] theorem Chip.headEndKey_tick (c : Chip) (d : List Byte) (t : Nat) : (c.tick t).headEndKey d = c.headEndKey d := (rfl)
@[simp] theorem Chip.homeSide_tick (c : Chip) (t : Nat) : (c.tick t).homeSide = c.homeSide := (rfl)
@[simp] theorem Chip.hopOpen_tick (c : Chip) (x : Nat) (t : Nat) : (c.tick t).hopOpen x = c.hopOpen x := (rfl)
@[simp] theorem Chip.hostMac_tick (c : Chip) (t : Nat) : (c.tick t).hostMac = c.hostMac := (rfl)
@[simp] theorem Chip.hostMode_tick (c : Chip) (t : Nat) : (c.tick t).hostMode = c.hostMode := (rfl)
@[simp] theorem Chip.hostTurn_tick (c : Chip) (t : Nat) : (c.tick t).hostTurn = c.hostTurn := (rfl)
@[simp] theorem Chip.hostWaits_tick (c : Chip) (t : Nat) : (c.tick t).hostWaits = c.hostWaits := (rfl)
@[simp] theorem Chip.idPub_tick (c : Chip) (t : Nat) : (c.tick t).idPub = c.idPub := (rfl)
@[simp] theorem Chip.imageCause_tick (c : Chip) (b : List Byte) (len kind : Nat) (t : Nat) : (c.tick t).imageCause b len kind = c.imageCause b len kind := (rfl)
@[simp] theorem Chip.inFlight_tick (c : Chip) (id : Nat) (t : Nat) : (c.tick t).inFlight id = c.inFlight id := (rfl)
@[simp] theorem Chip.inFlows_tick (c : Chip) (x : Nat) (t : Nat) : (c.tick t).inFlows x = c.inFlows x := (rfl)
@[simp] theorem Chip.inSync_tick (c : Chip) (k : Nat) (t : Nat) : (c.tick t).inSync k = c.inSync k := (rfl)
@[simp] theorem Chip.instances_tick (c : Chip) (f : Fld) (n : Nat) (t : Nat) : (c.tick t).instances f n = c.instances f n := (rfl)
@[simp] theorem Chip.islandHeld_tick (c : Chip) (i : Nat) (t : Nat) : (c.tick t).islandHeld i = c.islandHeld i := (rfl)
@[simp] theorem Chip.islandUnit_tick (c : Chip) (b : Nat) (smp : Bool) (t : Nat) : (c.tick t).islandUnit b smp = c.islandUnit b smp := (rfl)
@[simp] theorem Chip.keyAux_tick (c : Chip) (w : Nat) (t : Nat) : (c.tick t).keyAux w = c.keyAux w := (rfl)
@[simp] theorem Chip.keyData_tick (c : Chip) (t : Nat) : (c.tick t).keyData = c.keyData := (rfl)
@[simp] theorem Chip.keyDown_tick (c : Chip) (key : Nat) (t : Nat) : (c.tick t).keyDown key = c.keyDown key := (rfl)
@[simp] theorem Chip.keyPermits_tick (c : Chip) (i dir : Nat) (t : Nat) : (c.tick t).keyPermits i dir = c.keyPermits i dir := (rfl)
@[simp] theorem Chip.keyUp_tick (c : Chip) (key : Nat) (t : Nat) : (c.tick t).keyUp key = c.keyUp key := (rfl)
@[simp] theorem Chip.keys_tick (c : Chip) (p : Prepared) (s : Nat) (t : Nat) : (c.tick t).keys p s = c.keys p s := (rfl)
@[simp] theorem Chip.laneMask_tick (c : Chip) (x bank m : Nat) (t : Nat) : (c.tick t).laneMask x bank m = c.laneMask x bank m := (rfl)
@[simp] theorem Chip.laneOfs_tick (c : Chip) (t : Nat) : (c.tick t).laneOfs = c.laneOfs := (rfl)
@[simp] theorem Chip.lanePs_tick (c : Chip) (p n : Nat) (t : Nat) : (c.tick t).lanePs p n = c.lanePs p n := (rfl)
@[simp] theorem Chip.laserCeil_tick (c : Chip) (t : Nat) : (c.tick t).laserCeil = c.laserCeil := (rfl)
@[simp] theorem Chip.lateConflict_tick (c : Chip) (f : Frame) (t : Nat) : (c.tick t).lateConflict f = c.lateConflict f := (rfl)
@[simp] theorem Chip.latestEmpty_tick (c : Chip) (i : Nat) (t : Nat) : (c.tick t).latestEmpty i = c.latestEmpty i := (rfl)
@[simp] theorem Chip.launchCeil_tick (c : Chip) (t : Nat) : (c.tick t).launchCeil = c.launchCeil := (rfl)
@[simp] theorem Chip.leadsTo_tick (c : Chip) (p q : Nat) (t : Nat) : (c.tick t).leadsTo p q = c.leadsTo p q := (rfl)
@[simp] theorem Chip.leapMay_tick (c : Chip) (core : Bool) (b v : Nat) (t : Nat) : (c.tick t).leapMay core b v = c.leapMay core b v := (rfl)
@[simp] theorem Chip.level_tick (c : Chip) (t : Nat) (t0 : Nat) : (c.tick t0).level t = c.level t := (rfl)
@[simp] theorem Chip.lineUp_tick (c : Chip) (p : Nat) (t : Nat) : (c.tick t).lineUp p = c.lineUp p := (rfl)
@[simp] theorem Chip.liveNodes_tick (c : Chip) (isMine : Nat → Bool) (t : Nat) : (c.tick t).liveNodes isMine = c.liveNodes isMine := (rfl)
@[simp] theorem Chip.loadBusy_tick (c : Chip) (t : Nat) : (c.tick t).loadBusy = c.loadBusy := (rfl)
@[simp] theorem Chip.loaderReady_tick (c : Chip) (p : Prepared) (t : Nat) : (c.tick t).loaderReady p = c.loaderReady p := (rfl)
@[simp] theorem Chip.lowerPoint_tick (c : Chip) (n : Nat) (t : Nat) : (c.tick t).lowerPoint n = c.lowerPoint n := (rfl)
@[simp] theorem Chip.macBase_tick (c : Chip) (t : Nat) : (c.tick t).macBase = c.macBase := (rfl)
@[simp] theorem Chip.macOf_tick (c : Chip) (lo hi : Fld) (i ofs : Nat) (t : Nat) : (c.tick t).macOf lo hi i ofs = c.macOf lo hi i ofs := (rfl)
@[simp] theorem Chip.maxFrame_tick (c : Chip) (t : Nat) : (c.tick t).maxFrame = c.maxFrame := (rfl)
@[simp] theorem Chip.mayRead_tick (c : Chip) (who a : Nat) (t : Nat) : (c.tick t).mayRead who a = c.mayRead who a := (rfl)
@[simp] theorem Chip.mayRun_tick (c : Chip) (t j : Nat) (t0 : Nat) : (c.tick t0).mayRun t j = c.mayRun t j := (rfl)
@[simp] theorem Chip.mayWrite_tick (c : Chip) (who a : Nat) (t : Nat) : (c.tick t).mayWrite who a = c.mayWrite who a := (rfl)
@[simp] theorem Chip.mcuRights_tick (c : Chip) (t : Nat) : (c.tick t).mcuRights = c.mcuRights := (rfl)
@[simp] theorem Chip.memberKey_tick (c : Chip) (a : Nat) (t : Nat) : (c.tick t).memberKey a = c.memberKey a := (rfl)
@[simp] theorem Chip.microword_tick (c : Chip) (x bank e : Nat) (t : Nat) : (c.tick t).microword x bank e = c.microword x bank e := (rfl)
@[simp] theorem Chip.mode_tick (c : Chip) (t : Nat) : (c.tick t).mode = c.mode := (rfl)
@[simp] theorem Chip.mon_tick (c : Chip) (m : Nat) (t : Nat) : (c.tick t).mon m = c.mon m := (rfl)
@[simp] theorem Chip.monWl_tick (c : Chip) (m : Nat) (t : Nat) : (c.tick t).monWl m = c.monWl m := (rfl)
@[simp] theorem Chip.monitorOn_tick (c : Chip) (b : Nat) (t : Nat) : (c.tick t).monitorOn b = c.monitorOn b := (rfl)
@[simp] theorem Chip.mons_tick (c : Chip) (t : Nat) : (c.tick t).mons = c.mons := (rfl)
@[simp] theorem Chip.moreReports_tick (c : Chip) (k alloc : Nat) (t : Nat) : (c.tick t).moreReports k alloc = c.moreReports k alloc := (rfl)
@[simp] theorem Chip.moveShift_tick (c : Chip) (x w mask : Nat) (v : List (Int × Int)) (t : Nat) : (c.tick t).moveShift x w mask v = c.moveShift x w mask v := (rfl)
@[simp] theorem Chip.mwOk_tick (c : Chip) (a : Nat) (t : Nat) : (c.tick t).mwOk a = c.mwOk a := (rfl)
@[simp] theorem Chip.namedShapers_tick (c : Chip) (t : Nat) : (c.tick t).namedShapers = c.namedShapers := (rfl)
@[simp] theorem Chip.nearLoop_tick (c : Chip) (p : Nat) (t : Nat) : (c.tick t).nearLoop p = c.nearLoop p := (rfl)
@[simp] theorem Chip.newMeets_tick (c : Chip) (t : Tab (List Byte)) (t0 : Nat) : (c.tick t0).newMeets t = c.newMeets t := (rfl)
@[simp] theorem Chip.nextFrame_tick (c : Chip) (b : Nat) (t : Nat) : (c.tick t).nextFrame b = c.nextFrame b := (rfl)
@[simp] theorem Chip.noSessions_tick (c : Chip) (t : Nat) : (c.tick t).noSessions = c.noSessions := (rfl)
@[simp] theorem Chip.nodeGroup_tick (c : Chip) (n : Nat) (t : Nat) : (c.tick t).nodeGroup n = c.nodeGroup n := (rfl)
@[simp] theorem Chip.nodeHolds_tick (c : Chip) (n : Nat) (t : Nat) : (c.tick t).nodeHolds n = c.nodeHolds n := (rfl)
@[simp] theorem Chip.nodesValid_tick (c : Chip) (t : Nat) : (c.tick t).nodesValid = c.nodesValid := (rfl)
@[simp] theorem Chip.obj_tick (c : Chip) (rtype inst : Nat) (t : Nat) : (c.tick t).obj rtype inst = c.obj rtype inst := (rfl)
@[simp] theorem Chip.octaveDue_tick (c : Chip) (n : Nat) (x : Txn) (t : Nat) : (c.tick t).octaveDue n x = c.octaveDue n x := (rfl)
@[simp] theorem Chip.offerBody_tick (c : Chip) (nonce rand : Nat) (t : Nat) : (c.tick t).offerBody nonce rand = c.offerBody nonce rand := (rfl)
@[simp] theorem Chip.opIdle_tick (c : Chip) (n : Nat) (t : Nat) : (c.tick t).opIdle n = c.opIdle n := (rfl)
@[simp] theorem Chip.opPoint_tick (c : Chip) (n k : Nat) (t : Nat) : (c.tick t).opPoint n k = c.opPoint n k := (rfl)
@[simp] theorem Chip.openTagOk_tick (c : Chip) (k : Nat) (f : OpenFrame) (tag : List Byte) (t : Nat) : (c.tick t).openTagOk k f tag = c.openTagOk k f tag := (rfl)
@[simp] theorem Chip.otherRow_tick (c : Chip) (typ : Nat) (l : List Byte) (t : Nat) : (c.tick t).otherRow typ l = c.otherRow typ l := (rfl)
@[simp] theorem Chip.paceBad_tick (c : Chip) (x : Txn) (t : Nat) : (c.tick t).paceBad x = c.paceBad x := (rfl)
@[simp] theorem Chip.parse_tick (c : Chip) (pg : Nat) (l : List Byte) (lf : Nat) (known : Bool) (bus : Nat) (t : Nat) : (c.tick t).parse pg l lf known bus = c.parse pg l lf known bus := (rfl)
@[simp] theorem Chip.passRole_tick (c : Chip) (f : Frame) (t : Nat) : (c.tick t).passRole f = c.passRole f := (rfl)
@[simp] theorem Chip.path_tick (c : Chip) (x : Nat) (t : Nat) : (c.tick t).path x = c.path x := (rfl)
@[simp] theorem Chip.pathShapers_tick (c : Chip) (q : Nat) (t : Nat) : (c.tick t).pathShapers q = c.pathShapers q := (rfl)
@[simp] theorem Chip.pathSide_tick (c : Chip) (t : Nat) : (c.tick t).pathSide = c.pathSide := (rfl)
@[simp] theorem Chip.pauseFrame_tick (c : Chip) (p named paused : Nat) (t : Nat) : (c.tick t).pauseFrame p named paused = c.pauseFrame p named paused := (rfl)
@[simp] theorem Chip.pauseNames_tick (c : Chip) (p : Nat) (l : List Byte) (t : Nat) : (c.tick t).pauseNames p l = c.pauseNames p l := (rfl)
@[simp] theorem Chip.pauseRel_tick (c : Chip) (p : Nat) (t : Nat) : (c.tick t).pauseRel p = c.pauseRel p := (rfl)
@[simp] theorem Chip.pauseWd_tick (c : Chip) (p : Nat) (t : Nat) : (c.tick t).pauseWd p = c.pauseWd p := (rfl)
@[simp] theorem Chip.pendRecs_tick (c : Chip) (t : Nat) : (c.tick t).pendRecs = c.pendRecs := (rfl)
@[simp] theorem Chip.permits_tick (c : Chip) (g : GrantKind) (t : Nat) : (c.tick t).permits g = c.permits g := (rfl)
@[simp] theorem Chip.pfcClasses_tick (c : Chip) (p : Nat) (t : Nat) : (c.tick t).pfcClasses p = c.pfcClasses p := (rfl)
@[simp] theorem Chip.pfcOk_tick (c : Chip) (i : Nat) (t : Nat) : (c.tick t).pfcOk i = c.pfcOk i := (rfl)
@[simp] theorem Chip.pfcPeriod_tick (c : Chip) (p : Nat) (t : Nat) : (c.tick t).pfcPeriod p = c.pfcPeriod p := (rfl)
@[simp] theorem Chip.pickFor_tick (c : Chip) (j : Nat) (t : Nat) : (c.tick t).pickFor j = c.pickFor j := (rfl)
@[simp] theorem Chip.pipeCell_tick (c : Chip) (b r : Nat) (t : Nat) : (c.tick t).pipeCell b r = c.pipeCell b r := (rfl)
@[simp] theorem Chip.pipeDead_tick (c : Chip) (b r : Nat) (t : Nat) : (c.tick t).pipeDead b r = c.pipeDead b r := (rfl)
@[simp] theorem Chip.plateOut_tick (c : Chip) (t : Nat) : (c.tick t).plateOut = c.plateOut := (rfl)
@[simp] theorem Chip.pointStop_tick (c : Chip) (x : Txn) (oct : Bool) (seen : List Nat) (t : Nat) : (c.tick t).pointStop x oct seen = c.pointStop x oct seen := (rfl)
@[simp] theorem Chip.policy_tick (c : Chip) (kind : Nat) (t : Nat) : (c.tick t).policy kind = c.policy kind := (rfl)
@[simp] theorem Chip.pollDa_tick (c : Chip) (e : Nat) (t : Nat) : (c.tick t).pollDa e = c.pollDa e := (rfl)
@[simp] theorem Chip.portBlk_tick (c : Chip) (p : Nat) (t : Nat) : (c.tick t).portBlk p = c.portBlk p := (rfl)
@[simp] theorem Chip.portEnabled_tick (c : Chip) (p : Nat) (t : Nat) : (c.tick t).portEnabled p = c.portEnabled p := (rfl)
@[simp] theorem Chip.portFuel_tick (c : Chip) (t : Nat) : (c.tick t).portFuel = c.portFuel := (rfl)
@[simp] theorem Chip.portMac_tick (c : Chip) (p : Nat) (t : Nat) : (c.tick t).portMac p = c.portMac p := (rfl)
@[simp] theorem Chip.portMay_tick (c : Chip) (p : Nat) (t : Nat) : (c.tick t).portMay p = c.portMay p := (rfl)
@[simp] theorem Chip.portRate_tick (c : Chip) (p : Nat) (t : Nat) : (c.tick t).portRate p = c.portRate p := (rfl)
@[simp] theorem Chip.portSlot_tick (c : Chip) (p : Nat) (t : Nat) : (c.tick t).portSlot p = c.portSlot p := (rfl)
@[simp] theorem Chip.prbsIn_tick (c : Chip) (p : Nat) (t : Nat) : (c.tick t).prbsIn p = c.prbsIn p := (rfl)
@[simp] theorem Chip.preparedOf_tick (c : Chip) (img : List Byte) (t : Nat) : (c.tick t).preparedOf img = c.preparedOf img := (rfl)
@[simp] theorem Chip.prevEnd_tick (c : Chip) (ch side : Nat) (t : Nat) : (c.tick t).prevEnd ch side = c.prevEnd ch side := (rfl)
@[simp] theorem Chip.prevLit_tick (c : Chip) (ch side : Nat) (t : Nat) : (c.tick t).prevLit ch side = c.prevLit ch side := (rfl)
@[simp] theorem Chip.pstate_tick (c : Chip) (d : Nat) (t : Nat) : (c.tick t).pstate d = c.pstate d := (rfl)
@[simp] theorem Chip.ptpOk_tick (c : Chip) (t : Nat) : (c.tick t).ptpOk = c.ptpOk := (rfl)
@[simp] theorem Chip.qDie_tick (c : Chip) (q : Nat) (t : Nat) : (c.tick t).qDie q = c.qDie q := (rfl)
@[simp] theorem Chip.qDir_tick (c : Chip) (q : Nat) (t : Nat) : (c.tick t).qDir q = c.qDir q := (rfl)
@[simp] theorem Chip.qGroup_tick (c : Chip) (q : Nat) (t : Nat) : (c.tick t).qGroup q = c.qGroup q := (rfl)
@[simp] theorem Chip.qHolds_tick (c : Chip) (q : Nat) (t : Nat) : (c.tick t).qHolds q = c.qHolds q := (rfl)
@[simp] theorem Chip.qNodes_tick (c : Chip) (q : Nat) (t : Nat) : (c.tick t).qNodes q = c.qNodes q := (rfl)
@[simp] theorem Chip.qPort_tick (c : Chip) (q : Nat) (t : Nat) : (c.tick t).qPort q = c.qPort q := (rfl)
@[simp] theorem Chip.qValid_tick (c : Chip) (q : Nat) (t : Nat) : (c.tick t).qValid q = c.qValid q := (rfl)
@[simp] theorem Chip.queueLimits_tick (c : Chip) (q : Nat) (t : Nat) : (c.tick t).queueLimits q = c.queueLimits q := (rfl)
@[simp] theorem Chip.queueMoves_tick (c : Chip) (q v : Nat) (t : Nat) : (c.tick t).queueMoves q v = c.queueMoves q v := (rfl)
@[simp] theorem Chip.queuesValid_tick (c : Chip) (t : Nat) : (c.tick t).queuesValid = c.queuesValid := (rfl)
@[simp] theorem Chip.rangeFind_tick (c : Chip) (bank base size key : Nat) (t : Nat) : (c.tick t).rangeFind bank base size key = c.rangeFind bank base size key := (rfl)
@[simp] theorem Chip.rangingModes_tick (c : Chip) (t : Nat) : (c.tick t).rangingModes = c.rangingModes := (rfl)
@[simp] theorem Chip.rank0_tick (c : Chip) (x : Nat) (t : Nat) : (c.tick t).rank0 x = c.rank0 x := (rfl)
@[simp] theorem Chip.rb_tick (c : Chip) (f : Fld) (i : Nat) (t : Nat) : (c.tick t).rb f i = c.rb f i := (rfl)
@[simp] theorem Chip.rbit_tick (c : Chip) (f : Fld) (i k : Nat) (t : Nat) : (c.tick t).rbit f i k = c.rbit f i k := (rfl)
@[simp] theorem Chip.reach_tick (c : Chip) (a : Nat) (t : Nat) : (c.tick t).reach a = c.reach a := (rfl)
@[simp] theorem Chip.readHeld_tick (c : Chip) (a : Nat) (t : Nat) : (c.tick t).readHeld a = c.readHeld a := (rfl)
@[simp] theorem Chip.readRow_tick (c : Chip) (x r : Nat) (t : Nat) : (c.tick t).readRow x r = c.readRow x r := (rfl)
@[simp] theorem Chip.readyList_tick (c : Chip) (p : Nat) (t : Nat) : (c.tick t).readyList p = c.readyList p := (rfl)
@[simp] theorem Chip.refuser_tick (c : Chip) (d target : Nat) (t : Nat) : (c.tick t).refuser d target = c.refuser d target := (rfl)
@[simp] theorem Chip.regLocked_tick (c : Chip) (a : Nat) (t : Nat) : (c.tick t).regLocked a = c.regLocked a := (rfl)
@[simp] theorem Chip.regionGone_tick (c : Chip) (n : Nat) (t : Nat) : (c.tick t).regionGone n = c.regionGone n := (rfl)
@[simp] theorem Chip.regionState_tick (c : Chip) (n : Nat) (t : Nat) : (c.tick t).regionState n = c.regionState n := (rfl)
@[simp] theorem Chip.repairBytes_tick (c : Chip) (t : Nat) : (c.tick t).repairBytes = c.repairBytes := (rfl)
@[simp] theorem Chip.repairDigest_tick (c : Chip) (m : Mem) (t : Nat) : (c.tick t).repairDigest m = c.repairDigest m := (rfl)
@[simp] theorem Chip.reservesOk_tick (c : Chip) (blk : Nat → Nat) (t : Nat) : (c.tick t).reservesOk blk = c.reservesOk blk := (rfl)
@[simp] theorem Chip.resultOf_tick (c : Chip) (full : Bool) (ss : List ASect) (t : Nat) : (c.tick t).resultOf full ss = c.resultOf full ss := (rfl)
@[simp] theorem Chip.retired_tick (c : Chip) (lo n : Nat) (t : Nat) : (c.tick t).retired lo n = c.retired lo n := (rfl)
@[simp] theorem Chip.retryDly_tick (c : Chip) (d : Nat) (t : Nat) : (c.tick t).retryDly d = c.retryDly d := (rfl)
@[simp] theorem Chip.roleCeil_tick (c : Chip) (r : Nat) (t : Nat) : (c.tick t).roleCeil r = c.roleCeil r := (rfl)
@[simp] theorem Chip.roleFor_tick (c : Chip) (key : List Byte) (t : Nat) : (c.tick t).roleFor key = c.roleFor key := (rfl)
@[simp] theorem Chip.roleOf_tick (c : Chip) (digest : List Byte) (t : Nat) : (c.tick t).roleOf digest = c.roleOf digest := (rfl)
@[simp] theorem Chip.roleRights_tick (c : Chip) (r : Nat) (t : Nat) : (c.tick t).roleRights r = c.roleRights r := (rfl)
@[simp] theorem Chip.rootDone_tick (c : Chip) (s : Nat) (t : Nat) : (c.tick t).rootDone s = c.rootDone s := (rfl)
@[simp] theorem Chip.rootHash_tick (c : Chip) (s : Nat) (t : Nat) : (c.tick t).rootHash s = c.rootHash s := (rfl)
@[simp] theorem Chip.rootRevoked_tick (c : Chip) (s : Nat) (t : Nat) : (c.tick t).rootRevoked s = c.rootRevoked s := (rfl)
@[simp] theorem Chip.rootValid_tick (c : Chip) (s : Nat) (t : Nat) : (c.tick t).rootValid s = c.rootValid s := (rfl)
@[simp] theorem Chip.rowInBank_tick (c : Chip) (x r a : Nat) (t : Nat) : (c.tick t).rowInBank x r a = c.rowInBank x r a := (rfl)
@[simp] theorem Chip.rs_tick (c : Chip) (f : Fld) (i : Nat) (t : Nat) : (c.tick t).rs f i = c.rs f i := (rfl)
@[simp] theorem Chip.ruleChange_tick (c : Chip) (x : Txn) (t : Nat) : (c.tick t).ruleChange x = c.ruleChange x := (rfl)
@[simp] theorem Chip.runBank_tick (c : Chip) (x : Nat) (t : Nat) : (c.tick t).runBank x = c.runBank x := (rfl)
@[simp] theorem Chip.runnable_tick (c : Chip) (t : Nat) (t0 : Nat) : (c.tick t0).runnable t = c.runnable t := (rfl)
@[simp] theorem Chip.rxOn_tick (c : Chip) (k : Nat) (t : Nat) : (c.tick t).rxOn k = c.rxOn k := (rfl)
@[simp] theorem Chip.sbusFrom_tick (c : Chip) (l : List Byte) (t : Nat) : (c.tick t).sbusFrom l = c.sbusFrom l := (rfl)
@[simp] theorem Chip.sbusMac_tick (c : Chip) (t : Nat) : (c.tick t).sbusMac = c.sbusMac := (rfl)
@[simp] theorem Chip.sbusMine_tick (c : Chip) (l : List Byte) (t : Nat) : (c.tick t).sbusMine l = c.sbusMine l := (rfl)
@[simp] theorem Chip.sbusUsed_tick (c : Chip) (end_ : Nat) (t : Nat) : (c.tick t).sbusUsed end_ = c.sbusUsed end_ := (rfl)
@[simp] theorem Chip.secAdds_tick (c : Chip) (p et : Nat) (t : Nat) : (c.tick t).secAdds p et = c.secAdds p et := (rfl)
@[simp] theorem Chip.secBypass_tick (c : Chip) (p et : Nat) (t : Nat) : (c.tick t).secBypass p et = c.secBypass p et := (rfl)
@[simp] theorem Chip.secBytes_tick (c : Chip) (p : Nat) (s : Option (MsTx × Nat)) (l : List Byte) (t : Nat) : (c.tick t).secBytes p s l = c.secBytes p s l := (rfl)
@[simp] theorem Chip.secOffset_tick (c : Chip) (p : Nat) (t : Nat) : (c.tick t).secOffset p = c.secOffset p := (rfl)
@[simp] theorem Chip.secProtect_tick (c : Chip) (p : Nat) (sa : MsTx) (an : Nat) (l : List Byte) (t : Nat) : (c.tick t).secProtect p sa an l = c.secProtect p sa an l := (rfl)
@[simp] theorem Chip.selDom_tick (c : Chip) (t : Nat) : (c.tick t).selDom = c.selDom := (rfl)
@[simp] theorem Chip.selectable_tick (c : Chip) (d : Nat) (t : Nat) : (c.tick t).selectable d = c.selectable d := (rfl)
@[simp] theorem Chip.serial_tick (c : Chip) (t : Nat) : (c.tick t).serial = c.serial := (rfl)
@[simp] theorem Chip.served_tick (c : Chip) (y : Nat) (t : Nat) : (c.tick t).served y = c.served y := (rfl)
@[simp] theorem Chip.servoBw_tick (c : Chip) (d tau : Nat) (t : Nat) : (c.tick t).servoBw d tau = c.servoBw d tau := (rfl)
@[simp] theorem Chip.sess_tick (c : Chip) (s : Nat) (t : Nat) : (c.tick t).sess s = c.sess s := (rfl)
@[simp] theorem Chip.sessOpen_tick (c : Chip) (s : Nat) (t : Nat) : (c.tick t).sessOpen s = c.sessOpen s := (rfl)
@[simp] theorem Chip.setDue_tick (c : Chip) (x : Nat) (reach : Option Nat) (t : Nat) : (c.tick t).setDue x reach = c.setDue x reach := (rfl)
@[simp] theorem Chip.setKeys_tick (c : Chip) (s : Nat) (t : Nat) : (c.tick t).setKeys s = c.setKeys s := (rfl)
@[simp] theorem Chip.setLate_tick (c : Chip) (x t : Nat) (t0 : Nat) : (c.tick t0).setLate x t = c.setLate x t := (rfl)
@[simp] theorem Chip.setPrepared_tick (c : Chip) (s : Shad) (t : Nat) : (c.tick t).setPrepared s = c.setPrepared s := (rfl)
@[simp] theorem Chip.shadCopies_tick (c : Chip) (s : Shad) (t : Nat) : (c.tick t).shadCopies s = c.shadCopies s := (rfl)
@[simp] theorem Chip.shadFlow_tick (c : Chip) (s : Shad) (t : Nat) : (c.tick t).shadFlow s = c.shadFlow s := (rfl)
@[simp] theorem Chip.shadHeld_tick (c : Chip) (s : Shad) (t : Nat) : (c.tick t).shadHeld s = c.shadHeld s := (rfl)
@[simp] theorem Chip.shadowOf_tick (c : Chip) (x : Nat) (t : Nat) : (c.tick t).shadowOf x = c.shadowOf x := (rfl)
@[simp] theorem Chip.shadowPair_tick (c : Chip) (b : Nat) (t : Nat) : (c.tick t).shadowPair b = c.shadowPair b := (rfl)
@[simp] theorem Chip.shadowSel_tick (c : Chip) (b : Nat) (t : Nat) : (c.tick t).shadowSel b = c.shadowSel b := (rfl)
@[simp] theorem Chip.shapersSet_tick (c : Chip) (t : Nat) : (c.tick t).shapersSet = c.shapersSet := (rfl)
@[simp] theorem Chip.sharedPool_tick (c : Chip) (b : Nat) (t : Nat) : (c.tick t).sharedPool b = c.sharedPool b := (rfl)
@[simp] theorem Chip.side_tick (c : Chip) (t : Nat) : (c.tick t).side = c.side := (rfl)
@[simp] theorem Chip.sideFails_tick (c : Chip) (t : Nat) : (c.tick t).sideFails = c.sideFails := (rfl)
@[simp] theorem Chip.signScope_tick (c : Chip) (s : Nat) (t : Nat) : (c.tick t).signScope s = c.signScope s := (rfl)
@[simp] theorem Chip.slewMax_tick (c : Chip) (t : Nat) : (c.tick t).slewMax = c.slewMax := (rfl)
@[simp] theorem Chip.sliceOf_tick (c : Chip) (f : Frame) (q : Nat) (t : Nat) : (c.tick t).sliceOf f q = c.sliceOf f q := (rfl)
@[simp] theorem Chip.slotCell_tick (c : Chip) (b slot : Nat) (t : Nat) : (c.tick t).slotCell b slot = c.slotCell b slot := (rfl)
@[simp] theorem Chip.slotPort_tick (c : Chip) (b slot : Nat) (t : Nat) : (c.tick t).slotPort b slot = c.slotPort b slot := (rfl)
@[simp] theorem Chip.slotTagOk_tick (c : Chip) (x : MsgSlot) (t : Nat) : (c.tick t).slotTagOk x = c.slotTagOk x := (rfl)
@[simp] theorem Chip.smpMemCheck_tick (c : Chip) (a : Nat) (t : Nat) : (c.tick t).smpMemCheck a = c.smpMemCheck a := (rfl)
@[simp] theorem Chip.smpPowered_tick (c : Chip) (x : Nat) (t : Nat) : (c.tick t).smpPowered x = c.smpPowered x := (rfl)
@[simp] theorem Chip.smpRuns_tick (c : Chip) (x : Nat) (t : Nat) : (c.tick t).smpRuns x = c.smpRuns x := (rfl)
@[simp] theorem Chip.smpServe_tick (c : Chip) (x : Nat) (t : Nat) : (c.tick t).smpServe x = c.smpServe x := (rfl)
@[simp] theorem Chip.sources_tick (c : Chip) (t : Nat) (t0 : Nat) : (c.tick t0).sources t = c.sources t := (rfl)
@[simp] theorem Chip.spCore_tick (c : Chip) (k hash : Nat) (t : Nat) : (c.tick t).spCore k hash = c.spCore k hash := (rfl)
@[simp] theorem Chip.spareEngBusy_tick (c : Chip) (t : Nat) : (c.tick t).spareEngBusy = c.spareEngBusy := (rfl)
@[simp] theorem Chip.spareOf_tick (c : Chip) (b j : Nat) (t : Nat) : (c.tick t).spareOf b j = c.spareOf b j := (rfl)
@[simp] theorem Chip.spareSmp_tick (c : Chip) (b : Nat) (t : Nat) : (c.tick t).spareSmp b = c.spareSmp b := (rfl)
@[simp] theorem Chip.spilledBytes_tick (c : Chip) (q : Nat) (t : Nat) : (c.tick t).spilledBytes q = c.spilledBytes q := (rfl)
@[simp] theorem Chip.stResult_tick (c : Chip) (t : Nat) : (c.tick t).stResult = c.stResult := (rfl)
@[simp] theorem Chip.stValid_tick (c : Chip) (m : Mem) (b : List Byte) (t : Nat) : (c.tick t).stValid m b = c.stValid m b := (rfl)
@[simp] theorem Chip.stageMoved_tick (c : Chip) (t : Tab (List Byte)) (s : Nat) (t0 : Nat) : (c.tick t0).stageMoved t s = c.stageMoved t s := (rfl)
@[simp] theorem Chip.stampRoom_tick (c : Chip) (origin src : Nat) (t : Nat) : (c.tick t).stampRoom origin src = c.stampRoom origin src := (rfl)
@[simp] theorem Chip.structOk_tick (c : Chip) (t : Tab (List Byte)) (t0 : Nat) : (c.tick t0).structOk t = c.structOk t := (rfl)
@[simp] theorem Chip.swapBytes_tick (c : Chip) (m : Mem) (t : Nat) : (c.tick t).swapBytes m = c.swapBytes m := (rfl)
@[simp] theorem Chip.swapEntries_tick (c : Chip) (m : Mem) (t : Nat) : (c.tick t).swapEntries m = c.swapEntries m := (rfl)
@[simp] theorem Chip.swapFor_tick (c : Chip) (u : Nat) (t : Nat) : (c.tick t).swapFor u = c.swapFor u := (rfl)
@[simp] theorem Chip.swapSpareOk_tick (c : Chip) (t : Nat) : (c.tick t).swapSpareOk = c.swapSpareOk := (rfl)
@[simp] theorem Chip.symComplete_tick (c : Chip) (x : Nat) (s : OpenSym) (t : Nat) : (c.tick t).symComplete x s = c.symComplete x s := (rfl)
@[simp] theorem Chip.symRows_tick (c : Chip) (x : Nat) (s : OpenSym) (part : Bool) (t : Nat) : (c.tick t).symRows x s part = c.symRows x s part := (rfl)
@[simp] theorem Chip.syncFrame_tick (c : Chip) (p : Nat) (l : Int) (t : Nat) : (c.tick t).syncFrame p l = c.syncFrame p l := (rfl)
@[simp] theorem Chip.syncIvl_tick (c : Chip) (p : Nat) (t : Nat) : (c.tick t).syncIvl p = c.syncIvl p := (rfl)
@[simp] theorem Chip.tableLocked_tick (c : Chip) (a : Nat) (t : Nat) : (c.tick t).tableLocked a = c.tableLocked a := (rfl)
@[simp] theorem Chip.tablesOk_tick (c : Chip) (t : Tab (List Byte)) (runs : List ARec) (t0 : Nat) : (c.tick t0).tablesOk t runs = c.tablesOk t runs := (rfl)
@[simp] theorem Chip.tagIdx_tick (c : Chip) (t : Nat) : (c.tick t).tagIdx = c.tagIdx := (rfl)
@[simp] theorem Chip.tagMons_tick (c : Chip) (k tag : Nat) (t : Nat) : (c.tick t).tagMons k tag = c.tagMons k tag := (rfl)
@[simp] theorem Chip.takingOver_tick (c : Chip) (b k : Nat) (t : Nat) : (c.tick t).takingOver b k = c.takingOver b k := (rfl)
@[simp] theorem Chip.temp_tick (c : Chip) (s : Nat) (t : Nat) : (c.tick t).temp s = c.temp s := (rfl)
@[simp] theorem Chip.ternFind_tick (c : Chip) (bank base size key : Nat) (t : Nat) : (c.tick t).ternFind bank base size key = c.ternFind bank base size key := (rfl)
@[simp] theorem Chip.testable_tick (c : Chip) (p : Nat) (t : Nat) : (c.tick t).testable p = c.testable p := (rfl)
@[simp] theorem Chip.thermal_tick (c : Chip) (t : Nat) : (c.tick t).thermal = c.thermal := (rfl)
@[simp] theorem Chip.tickNow_tick (c : Chip) (t : Nat) : (c.tick t).tickNow = c.tickNow := (rfl)
@[simp] theorem Chip.timeCh_tick (c : Chip) (t : Nat) : (c.tick t).timeCh = c.timeCh := (rfl)
@[simp] theorem Chip.timeState_tick (c : Chip) (t : Nat) : (c.tick t).timeState = c.timeState := (rfl)
@[simp] theorem Chip.traced_tick (c : Chip) (kind : Nat) (t : Nat) : (c.tick t).traced kind = c.traced kind := (rfl)
@[simp] theorem Chip.tstate_tick (c : Chip) (t : Nat) (t0 : Nat) : (c.tick t0).tstate t = c.tstate t := (rfl)
@[simp] theorem Chip.txTime_tick (c : Chip) (p : Nat) (f : Frame) (t : Nat) : (c.tick t).txTime p f = c.txTime p f := (rfl)
@[simp] theorem Chip.txnBy_tick (c : Chip) (s id : Nat) (t : Nat) : (c.tick t).txnBy s id = c.txnBy s id := (rfl)
@[simp] theorem Chip.txnFree_tick (c : Chip) (t : Nat) : (c.tick t).txnFree = c.txnFree := (rfl)
@[simp] theorem Chip.txnPrep_tick (c : Chip) (x : Txn) (t : Nat) : (c.tick t).txnPrep x = c.txnPrep x := (rfl)
@[simp] theorem Chip.unitLen_tick (c : Chip) (f : Frame) (t : Nat) : (c.tick t).unitLen f = c.unitLen f := (rfl)
@[simp] theorem Chip.upData_tick (c : Chip) (k sfc pos key tag : Nat) (l : List Byte) (t : Nat) : (c.tick t).upData k sfc pos key tag l = c.upData k sfc pos key tag l := (rfl)
@[simp] theorem Chip.upKey_tick (c : Chip) (x : Frame) (t : Nat) : (c.tick t).upKey x = c.upKey x := (rfl)
@[simp] theorem Chip.vigilY0_tick (c : Chip) (secs : Nat) (t : Nat) : (c.tick t).vigilY0 secs = c.vigilY0 secs := (rfl)
@[simp] theorem Chip.wakeLess_tick (c : Chip) (a b : Nat × Nat) (t : Nat) : (c.tick t).wakeLess a b = c.wakeLess a b := (rfl)
@[simp] theorem Chip.wakeLost_tick (c : Chip) (w : WakeSet) (d : Nat) (t : Nat) : (c.tick t).wakeLost w d = c.wakeLost w d := (rfl)
@[simp] theorem Chip.wakeOver_tick (c : Chip) (w : WakeSet) (t : Nat) : (c.tick t).wakeOver w = c.wakeOver w := (rfl)
@[simp] theorem Chip.walkNode_tick (c : Chip) (pg : Nat) (l : List Byte) (lf : Nat) (known : Bool) (w : Walk) (t : Nat) : (c.tick t).walkNode pg l lf known w = c.walkNode pg l lf known w := (rfl)
@[simp] theorem Chip.watchNext_tick (c : Chip) (w : Nat) (t : Nat) : (c.tick t).watchNext w = c.watchNext w := (rfl)
@[simp] theorem Chip.waveOf_tick (c : Chip) (e : Nat) (t : Nat) : (c.tick t).waveOf e = c.waveOf e := (rfl)
@[simp] theorem Chip.winGet_tick (c : Chip) (a : Nat) (t : Nat) : (c.tick t).winGet a = c.winGet a := (rfl)
@[simp] theorem Chip.wqAddr_tick (c : Chip) (w index : Nat) (t : Nat) : (c.tick t).wqAddr w index = c.wqAddr w index := (rfl)
@[simp] theorem Chip.wqFree_tick (c : Chip) (w : Nat) (t : Nat) : (c.tick t).wqFree w = c.wqFree w := (rfl)
@[simp] theorem Chip.wqOcc_tick (c : Chip) (w : Nat) (t : Nat) : (c.tick t).wqOcc w = c.wqOcc w := (rfl)
@[simp] theorem Chip.wqSlots_tick (c : Chip) (w : Nat) (t : Nat) : (c.tick t).wqSlots w = c.wqSlots w := (rfl)
@[simp] theorem Chip.writeHeld_tick (c : Chip) (a v : Nat) (t : Nat) : (c.tick t).writeHeld a v = c.writeHeld a v := (rfl)
@[simp] theorem Chip.zcpAlive_tick (c : Chip) (t : Nat) : (c.tick t).zcpAlive = c.zcpAlive := (rfl)
@[simp] theorem Chip.zcpHead_tick (c : Chip) (da kind sess seq len : Nat) (t : Nat) : (c.tick t).zcpHead da kind sess seq len = c.zcpHead da kind sess seq len := (rfl)
@[simp] theorem Chip.zcpOpens_tick (c : Chip) (l : List Byte) (t : Nat) : (c.tick t).zcpOpens l = c.zcpOpens l := (rfl)
@[simp] theorem Chip.zcpOutput_tick (c : Chip) (s typ flags tag st index detail : Nat) (body : List Byte) (t : Nat) : (c.tick t).zcpOutput s typ flags tag st index detail body = c.zcpOutput s typ flags tag st index detail body := (rfl)
@[simp] theorem Chip.zcpSeal_tick (c : Chip) (s seq : Nat) (msg : List Byte) (t : Nat) : (c.tick t).zcpSeal s seq msg = c.zcpSeal s seq msg := (rfl)

/-! ## After a command -/

@[simp] theorem Chip.aCause_done (c : Chip) : c.done.aCause = c.aCause := (rfl)
@[simp] theorem Chip.aHeard_done (c : Chip) : c.done.aHeard = c.aHeard := (rfl)
@[simp] theorem Chip.aPaused_done (c : Chip) : c.done.aPaused = c.aPaused := (rfl)
@[simp] theorem Chip.aStamps_done (c : Chip) : c.done.aStamps = c.aStamps := (rfl)
@[simp] theorem Chip.actionOk_done (c : Chip) (a : Nat) : c.done.actionOk a = c.actionOk a := (rfl)
@[simp] theorem Chip.admitCells_done (c : Chip) (f : Frame) : c.done.admitCells f = c.admitCells f := (rfl)
@[simp] theorem Chip.admitStopped_done (c : Chip) : c.done.admitStopped = c.admitStopped := (rfl)
@[simp] theorem Chip.alarmAction_done (c : Chip) (n : Nat) : c.done.alarmAction n = c.alarmAction n := (rfl)
@[simp] theorem Chip.alarmHolds_done (c : Chip) : c.done.alarmHolds = c.alarmHolds := (rfl)
@[simp] theorem Chip.alarmStuck_done (c : Chip) (n : Nat) : c.done.alarmStuck n = c.alarmStuck n := (rfl)
@[simp] theorem Chip.alarmUsed_done (c : Chip) (n : Nat) : c.done.alarmUsed n = c.alarmUsed n := (rfl)
@[simp] theorem Chip.alertLow_done (c : Chip) : c.done.alertLow = c.alertLow := (rfl)
@[simp] theorem Chip.allocIdx_done (c : Chip) (ch id : Nat) : c.done.allocIdx ch id = c.allocIdx ch id := (rfl)
@[simp] theorem Chip.allocLoad_done (c : Chip) (k alloc : Nat) : c.done.allocLoad k alloc = c.allocLoad k alloc := (rfl)
@[simp] theorem Chip.allocMons_done (c : Chip) (k a : Nat) : c.done.allocMons k a = c.allocMons k a := (rfl)
@[simp] theorem Chip.annCh_done (c : Chip) : c.done.annCh = c.annCh := (rfl)
@[simp] theorem Chip.announceRec_done (c : Chip) : c.done.announceRec = c.announceRec := (rfl)
@[simp] theorem Chip.announcing_done (c : Chip) : c.done.announcing = c.announcing := (rfl)
@[simp] theorem Chip.anySync_done (c : Chip) : c.done.anySync = c.anySync := (rfl)
@[simp] theorem Chip.apsAuto_done (c : Chip) : c.done.apsAuto = c.apsAuto := (rfl)
@[simp] theorem Chip.apsFree_done (c : Chip) : c.done.apsFree = c.apsFree := (rfl)
@[simp] theorem Chip.apsRevert_done (c : Chip) : c.done.apsRevert = c.apsRevert := (rfl)
@[simp] theorem Chip.arbCount_done (c : Chip) : c.done.arbCount = c.arbCount := (rfl)
@[simp] theorem Chip.archBase_done (c : Chip) (m : Mem) : c.done.archBase m = c.archBase m := (rfl)
@[simp] theorem Chip.archLen_done (c : Chip) (m : Mem) : c.done.archLen m = c.archLen m := (rfl)
@[simp] theorem Chip.armed_done (c : Chip) (s : Shad) : c.done.armed s = c.armed s := (rfl)
@[simp] theorem Chip.armedSet_done (c : Chip) (y : Nat) : c.done.armedSet y = c.armedSet y := (rfl)
@[simp] theorem Chip.armedSets_done (c : Chip) : c.done.armedSets = c.armedSets := (rfl)
@[simp] theorem Chip.arrivals_done (c : Chip) (origin src : Nat) : c.done.arrivals origin src = c.arrivals origin src := (rfl)
@[simp] theorem Chip.attestReport_done (c : Chip) (nonce : List Byte) : c.done.attestReport nonce = c.attestReport nonce := (rfl)
@[simp] theorem Chip.attesting_done (c : Chip) : c.done.attesting = c.attesting := (rfl)
@[simp] theorem Chip.authCheck_done (c : Chip) (x : MsgSlot) : c.done.authCheck x = c.authCheck x := (rfl)
@[simp] theorem Chip.bNow_done (c : Chip) : c.done.bNow = c.bNow := (rfl)
@[simp] theorem Chip.bPps_done (c : Chip) : c.done.bPps = c.bPps := (rfl)
@[simp] theorem Chip.bexp_done (c : Chip) (x : Nat) (act : Bool) (k : Nat) : c.done.bexp x act k = c.bexp x act k := (rfl)
@[simp] theorem Chip.blkPorts_done (c : Chip) (b : Nat) : c.done.blkPorts b = c.blkPorts b := (rfl)
@[simp] theorem Chip.blockOk_done (c : Chip) (b : Nat) : c.done.blockOk b = c.blockOk b := (rfl)
@[simp] theorem Chip.blockOkWord_done (c : Chip) : c.done.blockOkWord = c.blockOkWord := (rfl)
@[simp] theorem Chip.bootImage_done (c : Chip) (m : Mem) (src kind : Nat) : c.done.bootImage m src kind = c.bootImage m src kind := (rfl)
@[simp] theorem Chip.boundPast_done (c : Chip) (a bound : Nat) : c.done.boundPast a bound = c.boundPast a bound := (rfl)
@[simp] theorem Chip.boundTo_done (c : Chip) (n : Nat) : c.done.boundTo n = c.boundTo n := (rfl)
@[simp] theorem Chip.burstHeld_done (c : Chip) (a : Nat) (bytes : List Byte) : c.done.burstHeld a bytes = c.burstHeld a bytes := (rfl)
@[simp] theorem Chip.cacheFind_done (c : Chip) (t b k : Nat) : c.done.cacheFind t b k = c.cacheFind t b k := (rfl)
@[simp] theorem Chip.canPower_done (c : Chip) (d : Nat) : c.done.canPower d = c.canPower d := (rfl)
@[simp] theorem Chip.capMax_done (c : Chip) (n volt : Nat) : c.done.capMax n volt = c.capMax n volt := (rfl)
@[simp] theorem Chip.cell_done (c : Chip) (x : Nat) : c.done.cell x = c.cell x := (rfl)
@[simp] theorem Chip.cellRole_done (c : Chip) (b k : Nat) : c.done.cellRole b k = c.cellRole b k := (rfl)
@[simp] theorem Chip.cellServes_done (c : Chip) (b k : Nat) : c.done.cellServes b k = c.cellServes b k := (rfl)
@[simp] theorem Chip.charged_done (c : Chip) (p t : Nat) : c.done.charged p t = c.charged p t := (rfl)
@[simp] theorem Chip.chargedAll_done (c : Chip) (p : Nat) : c.done.chargedAll p = c.chargedAll p := (rfl)
@[simp] theorem Chip.choose_done (c : Chip) (parent : Nat) (ks : List Pick) : c.done.choose parent ks = c.choose parent ks := (rfl)
@[simp] theorem Chip.classPaused_done (c : Chip) (p t : Nat) : c.done.classPaused p t = c.classPaused p t := (rfl)
@[simp] theorem Chip.classQl_done (c : Chip) : c.done.classQl = c.classQl := (rfl)
@[simp] theorem Chip.clipWord_done (c : Chip) (a v : Nat) : c.done.clipWord a v = c.clipWord a v := (rfl)
@[simp] theorem Chip.clkAge_done (c : Chip) : c.done.clkAge = c.clkAge := (rfl)
@[simp] theorem Chip.clockId_done (c : Chip) : c.done.clockId = c.clockId := (rfl)
@[simp] theorem Chip.coefAct_done (c : Chip) (x : Nat) : c.done.coefAct x = c.coefAct x := (rfl)
@[simp] theorem Chip.coefCells_done (c : Chip) (x : Nat) : c.done.coefCells x = c.coefCells x := (rfl)
@[simp] theorem Chip.coefClosed_done (c : Chip) (x : Nat) : c.done.coefClosed x = c.coefClosed x := (rfl)
@[simp] theorem Chip.coefForm_done (c : Chip) (x : Nat) (l : List Byte) : c.done.coefForm x l = c.coefForm x l := (rfl)
@[simp] theorem Chip.coreIdle_done (c : Chip) (j : Nat) : c.done.coreIdle j = c.coreIdle j := (rfl)
@[simp] theorem Chip.coreTask_done (c : Chip) (j : Nat) : c.done.coreTask j = c.coreTask j := (rfl)
@[simp] theorem Chip.coresStopped_done (c : Chip) : c.done.coresStopped = c.coresStopped := (rfl)
@[simp] theorem Chip.ctlNext_done (c : Chip) (p : Nat) : c.done.ctlNext p = c.ctlNext p := (rfl)
@[simp] theorem Chip.curPg_done (c : Chip) : c.done.curPg = c.curPg := (rfl)
@[simp] theorem Chip.dDown_done (c : Chip) : c.done.dDown = c.dDown := (rfl)
@[simp] theorem Chip.dNow_done (c : Chip) (d : Nat) : c.done.dNow d = c.dNow d := (rfl)
@[simp] theorem Chip.ddrCap_done (c : Chip) : c.done.ddrCap = c.ddrCap := (rfl)
@[simp] theorem Chip.ddrOk_done (c : Chip) : c.done.ddrOk = c.ddrOk := (rfl)
@[simp] theorem Chip.debugLocked_done (c : Chip) : c.done.debugLocked = c.debugLocked := (rfl)
@[simp] theorem Chip.deltaCells_done (c : Chip) (p : Prepared) (rtype : Nat) : c.done.deltaCells p rtype = c.deltaCells p rtype := (rfl)
@[simp] theorem Chip.deltaStages_done (c : Chip) (p : Prepared) : c.done.deltaStages p = c.deltaStages p := (rfl)
@[simp] theorem Chip.dmaDesc_done (c : Chip) (ch : Nat) : c.done.dmaDesc ch = c.dmaDesc ch := (rfl)
@[simp] theorem Chip.dmaHas_done (c : Chip) (ch : Nat) : c.done.dmaHas ch = c.dmaHas ch := (rfl)
@[simp] theorem Chip.dmaLine_done (c : Chip) (ch : Nat) : c.done.dmaLine ch = c.dmaLine ch := (rfl)
@[simp] theorem Chip.dmaLive_done (c : Chip) (ch : Nat) : c.done.dmaLive ch = c.dmaLive ch := (rfl)
@[simp] theorem Chip.dmaPick_done (c : Chip) : c.done.dmaPick = c.dmaPick := (rfl)
@[simp] theorem Chip.dmaWho_done (c : Chip) (ch : Nat) : c.done.dmaWho ch = c.dmaWho ch := (rfl)
@[simp] theorem Chip.dmaWork_done (c : Chip) (ch : Nat) : c.done.dmaWork ch = c.dmaWork ch := (rfl)
@[simp] theorem Chip.dom_done (c : Chip) (d : Nat) : c.done.dom d = c.dom d := (rfl)
@[simp] theorem Chip.domEnabled_done (c : Chip) (d : Nat) : c.done.domEnabled d = c.domEnabled d := (rfl)
@[simp] theorem Chip.domOn_done (c : Chip) (d : Nat) : c.done.domOn d = c.domOn d := (rfl)
@[simp] theorem Chip.domStaged_done (c : Chip) (d : Nat) : c.done.domStaged d = c.domStaged d := (rfl)
@[simp] theorem Chip.drr_done (c : Chip) (parent : Nat) (ks : List Pick) : c.done.drr parent ks = c.drr parent ks := (rfl)
@[simp] theorem Chip.dsBound_done (c : Chip) (k : Nat) : c.done.dsBound k = c.dsBound k := (rfl)
@[simp] theorem Chip.dstate_done (c : Chip) (d : Nat) : c.done.dstate d = c.dstate d := (rfl)
@[simp] theorem Chip.dutyMax_done (c : Chip) : c.done.dutyMax = c.dutyMax := (rfl)
@[simp] theorem Chip.eNow_done (c : Chip) : c.done.eNow = c.eNow := (rfl)
@[simp] theorem Chip.eng_done (c : Chip) (k : Nat) : c.done.eng k = c.eng k := (rfl)
@[simp] theorem Chip.engineOf_done (c : Chip) (k : Nat) : c.done.engineOf k = c.engineOf k := (rfl)
@[simp] theorem Chip.entryOk_done (c : Chip) (x bank e w : Nat) : c.done.entryOk x bank e w = c.entryOk x bank e w := (rfl)
@[simp] theorem Chip.eqdNow_done (c : Chip) (side ch : Nat) : c.done.eqdNow side ch = c.eqdNow side ch := (rfl)
@[simp] theorem Chip.esmcPdu_done (c : Chip) (p : Nat) (event : Bool) : c.done.esmcPdu p event = c.esmcPdu p event := (rfl)
@[simp] theorem Chip.evFam_done (c : Chip) (en f : Fld) (n : Nat) : c.done.evFam en f n = c.evFam en f n := (rfl)
@[simp] theorem Chip.evPend_done (c : Chip) : c.done.evPend = c.evPend := (rfl)
@[simp] theorem Chip.evUnit_done (c : Chip) (u : Nat) : c.done.evUnit u = c.evUnit u := (rfl)
@[simp] theorem Chip.eventBody_done (c : Chip) (seq : Nat) (results : List (Nat × Nat × Nat)) : c.done.eventBody seq results = c.eventBody seq results := (rfl)
@[simp] theorem Chip.exactFind_done (c : Chip) (bank base size key : Nat) : c.done.exactFind bank base size key = c.exactFind bank base size key := (rfl)
@[simp] theorem Chip.excAction_done (c : Chip) (pg e : Nat) : c.done.excAction pg e = c.excAction pg e := (rfl)
@[simp] theorem Chip.fifoFree_done (c : Chip) : c.done.fifoFree = c.fifoFree := (rfl)
@[simp] theorem Chip.fifoFull_done (c : Chip) : c.done.fifoFull = c.fifoFull := (rfl)
@[simp] theorem Chip.fifoLive_done (c : Chip) : c.done.fifoLive = c.fifoLive := (rfl)
@[simp] theorem Chip.fifoOver_done (c : Chip) (origin src : Nat) (id : Option Nat) (n : Nat) : c.done.fifoOver origin src id n = c.fifoOver origin src id n := (rfl)
@[simp] theorem Chip.firstEmpty_done (c : Chip) (i : Nat) : c.done.firstEmpty i = c.firstEmpty i := (rfl)
@[simp] theorem Chip.floorPoint_done (c : Chip) (n : Nat) : c.done.floorPoint n = c.floorPoint n := (rfl)
@[simp] theorem Chip.flowAt_done (c : Chip) (s x : Nat) : c.done.flowAt s x = c.flowAt s x := (rfl)
@[simp] theorem Chip.flowBucket_done (c : Chip) (t b k : Nat) : c.done.flowBucket t b k = c.flowBucket t b k := (rfl)
@[simp] theorem Chip.flowCount_done (c : Chip) (a v : Nat) : c.done.flowCount a v = c.flowCount a v := (rfl)
@[simp] theorem Chip.flowData_done (c : Chip) : c.done.flowData = c.flowData := (rfl)
@[simp] theorem Chip.flowLocked_done (c : Chip) (table bank : Nat) : c.done.flowLocked table bank = c.flowLocked table bank := (rfl)
@[simp] theorem Chip.flows_done (c : Chip) : c.done.flows = c.flows := (rfl)
@[simp] theorem Chip.freqOut_done (c : Chip) : c.done.freqOut = c.freqOut := (rfl)
@[simp] theorem Chip.fuse_done (c : Chip) (lsb w : Nat) : c.done.fuse lsb w = c.fuse lsb w := (rfl)
@[simp] theorem Chip.fuseRefused_done (c : Chip) (group : Nat) (ws : List Nat) : c.done.fuseRefused group ws = c.fuseRefused group ws := (rfl)
@[simp] theorem Chip.gain_done (c : Chip) (r : Int) : c.done.gain r = c.gain r := (rfl)
@[simp] theorem Chip.gateActOk_done (c : Chip) (p : Nat) : c.done.gateActOk p = c.gateActOk p := (rfl)
@[simp] theorem Chip.gateBit_done (c : Chip) (p e t : Nat) : c.done.gateBit p e t = c.gateBit p e t := (rfl)
@[simp] theorem Chip.gateIval_done (c : Chip) (p e : Nat) : c.done.gateIval p e = c.gateIval p e := (rfl)
@[simp] theorem Chip.gateLegal_done (c : Chip) (p : Nat) : c.done.gateLegal p = c.gateLegal p := (rfl)
@[simp] theorem Chip.gateNever_done (c : Chip) (p t : Nat) (f : Frame) : c.done.gateNever p t f = c.gateNever p t f := (rfl)
@[simp] theorem Chip.gateOpen_done (c : Chip) (p t : Nat) : c.done.gateOpen p t = c.gateOpen p t := (rfl)
@[simp] theorem Chip.gatesSet_done (c : Chip) : c.done.gatesSet = c.gatesSet := (rfl)
@[simp] theorem Chip.genBank_done (c : Chip) (g s : Nat) : c.done.genBank g s = c.genBank g s := (rfl)
@[simp] theorem Chip.genPg_done (c : Chip) (g : Nat) : c.done.genPg g = c.genPg g := (rfl)
@[simp] theorem Chip.genSlot_done (c : Chip) (g : Nat) : c.done.genSlot g = c.genSlot g := (rfl)
@[simp] theorem Chip.getLatest_done (c : Chip) (i : Nat) : c.done.getLatest i = c.getLatest i := (rfl)
@[simp] theorem Chip.grade_done (c : Chip) : c.done.grade = c.grade := (rfl)
@[simp] theorem Chip.grantKind_done (c : Chip) (k alloc : Nat) (mgmt : Bool) : c.done.grantKind k alloc mgmt = c.grantKind k alloc mgmt := (rfl)
@[simp] theorem Chip.groupDone_done (c : Chip) (g : Nat) : c.done.groupDone g = c.groupDone g := (rfl)
@[simp] theorem Chip.guardOk_done (c : Chip) (w : Window) : c.done.guardOk w = c.guardOk w := (rfl)
@[simp] theorem Chip.hadShadow_done (c : Chip) (b k sp : Nat) : c.done.hadShadow b k sp = c.hadShadow b k sp := (rfl)
@[simp] theorem Chip.hasCoefFlow_done (c : Chip) (x : Nat) : c.done.hasCoefFlow x = c.hasCoefFlow x := (rfl)
@[simp] theorem Chip.hasRight_done (c : Chip) (who b : Nat) : c.done.hasRight who b = c.hasRight who b := (rfl)
@[simp] theorem Chip.hashOf_done (c : Chip) (l : List Byte) (hs : List Hdr) : c.done.hashOf l hs = c.hashOf l hs := (rfl)
@[simp] theorem Chip.hbmBytes_done (c : Chip) (n : Nat) : c.done.hbmBytes n = c.hbmBytes n := (rfl)
@[simp] theorem Chip.headEndKey_done (c : Chip) (d : List Byte) : c.done.headEndKey d = c.headEndKey d := (rfl)
@[simp] theorem Chip.holdIn_done (c : Chip) : c.done.holdIn = c.holdIn := (rfl)
@[simp] theorem Chip.holding_done (c : Chip) : c.done.holding = c.holding := (rfl)
@[simp] theorem Chip.homeSide_done (c : Chip) : c.done.homeSide = c.homeSide := (rfl)
@[simp] theorem Chip.hopOpen_done (c : Chip) (x : Nat) : c.done.hopOpen x = c.hopOpen x := (rfl)
@[simp] theorem Chip.hostClear_done (c : Chip) : c.done.hostClear = c.hostClear := (rfl)
@[simp] theorem Chip.hostMac_done (c : Chip) : c.done.hostMac = c.hostMac := (rfl)
@[simp] theorem Chip.hostMode_done (c : Chip) : c.done.hostMode = c.hostMode := (rfl)
@[simp] theorem Chip.hostTurn_done (c : Chip) : c.done.hostTurn = c.hostTurn := (rfl)
@[simp] theorem Chip.hostWaits_done (c : Chip) : c.done.hostWaits = c.hostWaits := (rfl)
@[simp] theorem Chip.hwErr_done (c : Chip) (b : Nat) (x : HwErr) : c.done.hwErr b x = c.hwErr b x := (rfl)
@[simp] theorem Chip.idPub_done (c : Chip) : c.done.idPub = c.idPub := (rfl)
@[simp] theorem Chip.imageCause_done (c : Chip) (b : List Byte) (len kind : Nat) : c.done.imageCause b len kind = c.imageCause b len kind := (rfl)
@[simp] theorem Chip.inFlight_done (c : Chip) (id : Nat) : c.done.inFlight id = c.inFlight id := (rfl)
@[simp] theorem Chip.inFlows_done (c : Chip) (x : Nat) : c.done.inFlows x = c.inFlows x := (rfl)
@[simp] theorem Chip.inHold_done (c : Chip) (inside : Bool) : c.done.inHold inside = c.inHold inside := (rfl)
@[simp] theorem Chip.inRelease_done (c : Chip) (p t : Nat) : c.done.inRelease p t = c.inRelease p t := (rfl)
@[simp] theorem Chip.inSync_done (c : Chip) (k : Nat) : c.done.inSync k = c.inSync k := (rfl)
@[simp] theorem Chip.instances_done (c : Chip) (f : Fld) (n : Nat) : c.done.instances f n = c.instances f n := (rfl)
@[simp] theorem Chip.islandHeld_done (c : Chip) (i : Nat) : c.done.islandHeld i = c.islandHeld i := (rfl)
@[simp] theorem Chip.islandUnit_done (c : Chip) (b : Nat) (smp : Bool) : c.done.islandUnit b smp = c.islandUnit b smp := (rfl)
@[simp] theorem Chip.keyAux_done (c : Chip) (w : Nat) : c.done.keyAux w = c.keyAux w := (rfl)
@[simp] theorem Chip.keyData_done (c : Chip) : c.done.keyData = c.keyData := (rfl)
@[simp] theorem Chip.keyDown_done (c : Chip) (key : Nat) : c.done.keyDown key = c.keyDown key := (rfl)
@[simp] theorem Chip.keyPermits_done (c : Chip) (i dir : Nat) : c.done.keyPermits i dir = c.keyPermits i dir := (rfl)
@[simp] theorem Chip.keyUp_done (c : Chip) (key : Nat) : c.done.keyUp key = c.keyUp key := (rfl)
@[simp] theorem Chip.keys_done (c : Chip) (p : Prepared) (s : Nat) : c.done.keys p s = c.keys p s := (rfl)
@[simp] theorem Chip.lAfter_done (c : Chip) (ps : Nat) : c.done.lAfter ps = c.lAfter ps := (rfl)
@[simp] theorem Chip.lNow_done (c : Chip) : c.done.lNow = c.lNow := (rfl)
@[simp] theorem Chip.lNs_done (c : Chip) : c.done.lNs = c.lNs := (rfl)
@[simp] theorem Chip.laneMask_done (c : Chip) (x bank m : Nat) : c.done.laneMask x bank m = c.laneMask x bank m := (rfl)
@[simp] theorem Chip.laneOfs_done (c : Chip) : c.done.laneOfs = c.laneOfs := (rfl)
@[simp] theorem Chip.lanePs_done (c : Chip) (p n : Nat) : c.done.lanePs p n = c.lanePs p n := (rfl)
@[simp] theorem Chip.laserCeil_done (c : Chip) : c.done.laserCeil = c.laserCeil := (rfl)
@[simp] theorem Chip.late_done (c : Chip) (kind value : Nat) : c.done.late kind value = c.late kind value := (rfl)
@[simp] theorem Chip.lateConflict_done (c : Chip) (f : Frame) : c.done.lateConflict f = c.lateConflict f := (rfl)
@[simp] theorem Chip.latestEmpty_done (c : Chip) (i : Nat) : c.done.latestEmpty i = c.latestEmpty i := (rfl)
@[simp] theorem Chip.launchCeil_done (c : Chip) : c.done.launchCeil = c.launchCeil := (rfl)
@[simp] theorem Chip.leadsTo_done (c : Chip) (p q : Nat) : c.done.leadsTo p q = c.leadsTo p q := (rfl)
@[simp] theorem Chip.leapMay_done (c : Chip) (core : Bool) (b v : Nat) : c.done.leapMay core b v = c.leapMay core b v := (rfl)
@[simp] theorem Chip.level_done (c : Chip) (t : Nat) : c.done.level t = c.level t := (rfl)
@[simp] theorem Chip.lineBusy_done (c : Chip) (p : Nat) : c.done.lineBusy p = c.lineBusy p := (rfl)
@[simp] theorem Chip.lineUp_done (c : Chip) (p : Nat) : c.done.lineUp p = c.lineUp p := (rfl)
@[simp] theorem Chip.liveNodes_done (c : Chip) (isMine : Nat → Bool) : c.done.liveNodes isMine = c.liveNodes isMine := (rfl)
@[simp] theorem Chip.loadBusy_done (c : Chip) : c.done.loadBusy = c.loadBusy := (rfl)
@[simp] theorem Chip.loaderReady_done (c : Chip) (p : Prepared) : c.done.loaderReady p = c.loaderReady p := (rfl)
@[simp] theorem Chip.lowerPoint_done (c : Chip) (n : Nat) : c.done.lowerPoint n = c.lowerPoint n := (rfl)
@[simp] theorem Chip.macBase_done (c : Chip) : c.done.macBase = c.macBase := (rfl)
@[simp] theorem Chip.macOf_done (c : Chip) (lo hi : Fld) (i ofs : Nat) : c.done.macOf lo hi i ofs = c.macOf lo hi i ofs := (rfl)
@[simp] theorem Chip.maxFrame_done (c : Chip) : c.done.maxFrame = c.maxFrame := (rfl)
@[simp] theorem Chip.mayRead_done (c : Chip) (who a : Nat) : c.done.mayRead who a = c.mayRead who a := (rfl)
@[simp] theorem Chip.mayRun_done (c : Chip) (t j : Nat) : c.done.mayRun t j = c.mayRun t j := (rfl)
@[simp] theorem Chip.mayWrite_done (c : Chip) (who a : Nat) : c.done.mayWrite who a = c.mayWrite who a := (rfl)
@[simp] theorem Chip.mcuRights_done (c : Chip) : c.done.mcuRights = c.mcuRights := (rfl)
@[simp] theorem Chip.memberKey_done (c : Chip) (a : Nat) : c.done.memberKey a = c.memberKey a := (rfl)
@[simp] theorem Chip.microword_done (c : Chip) (x bank e : Nat) : c.done.microword x bank e = c.microword x bank e := (rfl)
@[simp] theorem Chip.mkErr_done (c : Chip) (code kind index origin sev detail : Nat) : c.done.mkErr code kind index origin sev detail = c.mkErr code kind index origin sev detail := (rfl)
@[simp] theorem Chip.mode_done (c : Chip) : c.done.mode = c.mode := (rfl)
@[simp] theorem Chip.modeSince_done (c : Chip) (ps : Nat) : c.done.modeSince ps = c.modeSince ps := (rfl)
@[simp] theorem Chip.mon_done (c : Chip) (m : Nat) : c.done.mon m = c.mon m := (rfl)
@[simp] theorem Chip.monWl_done (c : Chip) (m : Nat) : c.done.monWl m = c.monWl m := (rfl)
@[simp] theorem Chip.monitorOn_done (c : Chip) (b : Nat) : c.done.monitorOn b = c.monitorOn b := (rfl)
@[simp] theorem Chip.mons_done (c : Chip) : c.done.mons = c.mons := (rfl)
@[simp] theorem Chip.moreReports_done (c : Chip) (k alloc : Nat) : c.done.moreReports k alloc = c.moreReports k alloc := (rfl)
@[simp] theorem Chip.moveShift_done (c : Chip) (x w mask : Nat) (v : List (Int × Int)) : c.done.moveShift x w mask v = c.moveShift x w mask v := (rfl)
@[simp] theorem Chip.mtime_done (c : Chip) : c.done.mtime = c.mtime := (rfl)
@[simp] theorem Chip.mwOk_done (c : Chip) (a : Nat) : c.done.mwOk a = c.mwOk a := (rfl)
@[simp] theorem Chip.namedShapers_done (c : Chip) : c.done.namedShapers = c.namedShapers := (rfl)
@[simp] theorem Chip.nearLoop_done (c : Chip) (p : Nat) : c.done.nearLoop p = c.nearLoop p := (rfl)
@[simp] theorem Chip.newMeets_done (c : Chip) (t : Tab (List Byte)) : c.done.newMeets t = c.newMeets t := (rfl)
@[simp] theorem Chip.nextFrame_done (c : Chip) (b : Nat) : c.done.nextFrame b = c.nextFrame b := (rfl)
@[simp] theorem Chip.nextPoint_done (c : Chip) : c.done.nextPoint = c.nextPoint := (rfl)
@[simp] theorem Chip.noSessions_done (c : Chip) : c.done.noSessions = c.noSessions := (rfl)
@[simp] theorem Chip.nodeGroup_done (c : Chip) (n : Nat) : c.done.nodeGroup n = c.nodeGroup n := (rfl)
@[simp] theorem Chip.nodeHolds_done (c : Chip) (n : Nat) : c.done.nodeHolds n = c.nodeHolds n := (rfl)
@[simp] theorem Chip.nodeKid_done (c : Chip) (n : Nat) (best : Option Pick) : c.done.nodeKid n best = c.nodeKid n best := (rfl)
@[simp] theorem Chip.nodesValid_done (c : Chip) : c.done.nodesValid = c.nodesValid := (rfl)
@[simp] theorem Chip.obj_done (c : Chip) (rtype inst : Nat) : c.done.obj rtype inst = c.obj rtype inst := (rfl)
@[simp] theorem Chip.occ_done (c : Chip) (q : Nat) : c.done.occ q = c.occ q := (rfl)
@[simp] theorem Chip.octDue_done (c : Chip) : c.done.octDue = c.octDue := (rfl)
@[simp] theorem Chip.octOpen_done (c : Chip) : c.done.octOpen = c.octOpen := (rfl)
@[simp] theorem Chip.octaveDue_done (c : Chip) (n : Nat) (x : Txn) : c.done.octaveDue n x = c.octaveDue n x := (rfl)
@[simp] theorem Chip.offerBody_done (c : Chip) (nonce rand : Nat) : c.done.offerBody nonce rand = c.offerBody nonce rand := (rfl)
@[simp] theorem Chip.onLane_done (c : Chip) (p : Nat) : c.done.onLane p = c.onLane p := (rfl)
@[simp] theorem Chip.opIdle_done (c : Chip) (n : Nat) : c.done.opIdle n = c.opIdle n := (rfl)
@[simp] theorem Chip.opPoint_done (c : Chip) (n k : Nat) : c.done.opPoint n k = c.opPoint n k := (rfl)
@[simp] theorem Chip.openTagOk_done (c : Chip) (k : Nat) (f : OpenFrame) (tag : List Byte) : c.done.openTagOk k f tag = c.openTagOk k f tag := (rfl)
@[simp] theorem Chip.otherOk_done (c : Chip) : c.done.otherOk = c.otherOk := (rfl)
@[simp] theorem Chip.otherRow_done (c : Chip) (typ : Nat) (l : List Byte) : c.done.otherRow typ l = c.otherRow typ l := (rfl)
@[simp] theorem Chip.paceBad_done (c : Chip) (x : Txn) : c.done.paceBad x = c.paceBad x := (rfl)
@[simp] theorem Chip.paceWindow_done (c : Chip) : c.done.paceWindow = c.paceWindow := (rfl)
@[simp] theorem Chip.parse_done (c : Chip) (pg : Nat) (l : List Byte) (lf : Nat) (known : Bool) (bus : Nat) : c.done.parse pg l lf known bus = c.parse pg l lf known bus := (rfl)
@[simp] theorem Chip.passRole_done (c : Chip) (f : Frame) : c.done.passRole f = c.passRole f := (rfl)
@[simp] theorem Chip.path_done (c : Chip) (x : Nat) : c.done.path x = c.path x := (rfl)
@[simp] theorem Chip.pathShapers_done (c : Chip) (q : Nat) : c.done.pathShapers q = c.pathShapers q := (rfl)
@[simp] theorem Chip.pathSide_done (c : Chip) : c.done.pathSide = c.pathSide := (rfl)
@[simp] theorem Chip.pauseFrame_done (c : Chip) (p named paused : Nat) : c.done.pauseFrame p named paused = c.pauseFrame p named paused := (rfl)
@[simp] theorem Chip.pauseNames_done (c : Chip) (p : Nat) (l : List Byte) : c.done.pauseNames p l = c.pauseNames p l := (rfl)
@[simp] theorem Chip.pauseRel_done (c : Chip) (p : Nat) : c.done.pauseRel p = c.pauseRel p := (rfl)
@[simp] theorem Chip.pauseWd_done (c : Chip) (p : Nat) : c.done.pauseWd p = c.pauseWd p := (rfl)
@[simp] theorem Chip.pendRecs_done (c : Chip) : c.done.pendRecs = c.pendRecs := (rfl)
@[simp] theorem Chip.permits_done (c : Chip) (g : GrantKind) : c.done.permits g = c.permits g := (rfl)
@[simp] theorem Chip.pfcCharge_done (c : Chip) (p t : Nat) : c.done.pfcCharge p t = c.pfcCharge p t := (rfl)
@[simp] theorem Chip.pfcClasses_done (c : Chip) (p : Nat) : c.done.pfcClasses p = c.pfcClasses p := (rfl)
@[simp] theorem Chip.pfcOk_done (c : Chip) (i : Nat) : c.done.pfcOk i = c.pfcOk i := (rfl)
@[simp] theorem Chip.pfcOver_done (c : Chip) (f : Frame) (cells : Nat) : c.done.pfcOver f cells = c.pfcOver f cells := (rfl)
@[simp] theorem Chip.pfcPeriod_done (c : Chip) (p : Nat) : c.done.pfcPeriod p = c.pfcPeriod p := (rfl)
@[simp] theorem Chip.pickFor_done (c : Chip) (j : Nat) : c.done.pickFor j = c.pickFor j := (rfl)
@[simp] theorem Chip.pipeCell_done (c : Chip) (b r : Nat) : c.done.pipeCell b r = c.pipeCell b r := (rfl)
@[simp] theorem Chip.pipeDead_done (c : Chip) (b r : Nat) : c.done.pipeDead b r = c.pipeDead b r := (rfl)
@[simp] theorem Chip.plateOut_done (c : Chip) : c.done.plateOut = c.plateOut := (rfl)
@[simp] theorem Chip.pointOctave_done (c : Chip) (x : Txn) : c.done.pointOctave x = c.pointOctave x := (rfl)
@[simp] theorem Chip.pointStop_done (c : Chip) (x : Txn) (oct : Bool) (seen : List Nat) : c.done.pointStop x oct seen = c.pointStop x oct seen := (rfl)
@[simp] theorem Chip.policerNow_done (c : Chip) (p : Nat) : c.done.policerNow p = c.policerNow p := (rfl)
@[simp] theorem Chip.policy_done (c : Chip) (kind : Nat) : c.done.policy kind = c.policy kind := (rfl)
@[simp] theorem Chip.pollDa_done (c : Chip) (e : Nat) : c.done.pollDa e = c.pollDa e := (rfl)
@[simp] theorem Chip.portBlk_done (c : Chip) (p : Nat) : c.done.portBlk p = c.portBlk p := (rfl)
@[simp] theorem Chip.portEnabled_done (c : Chip) (p : Nat) : c.done.portEnabled p = c.portEnabled p := (rfl)
@[simp] theorem Chip.portFuel_done (c : Chip) : c.done.portFuel = c.portFuel := (rfl)
@[simp] theorem Chip.portMac_done (c : Chip) (p : Nat) : c.done.portMac p = c.portMac p := (rfl)
@[simp] theorem Chip.portMay_done (c : Chip) (p : Nat) : c.done.portMay p = c.portMay p := (rfl)
@[simp] theorem Chip.portRate_done (c : Chip) (p : Nat) : c.done.portRate p = c.portRate p := (rfl)
@[simp] theorem Chip.portSlot_done (c : Chip) (p : Nat) : c.done.portSlot p = c.portSlot p := (rfl)
@[simp] theorem Chip.prbsIn_done (c : Chip) (p : Nat) : c.done.prbsIn p = c.prbsIn p := (rfl)
@[simp] theorem Chip.preparedOf_done (c : Chip) (img : List Byte) : c.done.preparedOf img = c.preparedOf img := (rfl)
@[simp] theorem Chip.prevEnd_done (c : Chip) (ch side : Nat) : c.done.prevEnd ch side = c.prevEnd ch side := (rfl)
@[simp] theorem Chip.prevLit_done (c : Chip) (ch side : Nat) : c.done.prevLit ch side = c.prevLit ch side := (rfl)
@[simp] theorem Chip.pstate_done (c : Chip) (d : Nat) : c.done.pstate d = c.pstate d := (rfl)
@[simp] theorem Chip.ptpOk_done (c : Chip) : c.done.ptpOk = c.ptpOk := (rfl)
@[simp] theorem Chip.qDie_done (c : Chip) (q : Nat) : c.done.qDie q = c.qDie q := (rfl)
@[simp] theorem Chip.qDir_done (c : Chip) (q : Nat) : c.done.qDir q = c.qDir q := (rfl)
@[simp] theorem Chip.qGroup_done (c : Chip) (q : Nat) : c.done.qGroup q = c.qGroup q := (rfl)
@[simp] theorem Chip.qHolds_done (c : Chip) (q : Nat) : c.done.qHolds q = c.qHolds q := (rfl)
@[simp] theorem Chip.qNodes_done (c : Chip) (q : Nat) : c.done.qNodes q = c.qNodes q := (rfl)
@[simp] theorem Chip.qPort_done (c : Chip) (q : Nat) : c.done.qPort q = c.qPort q := (rfl)
@[simp] theorem Chip.qValid_done (c : Chip) (q : Nat) : c.done.qValid q = c.qValid q := (rfl)
@[simp] theorem Chip.queueKids_done (c : Chip) (isMine : Nat → Bool) (cnt : QFrame → Bool) (node : Nat) (ok : Nat → QFrame → Bool) : c.done.queueKids isMine cnt node ok = c.queueKids isMine cnt node ok := (rfl)
@[simp] theorem Chip.queueLimits_done (c : Chip) (q : Nat) : c.done.queueLimits q = c.queueLimits q := (rfl)
@[simp] theorem Chip.queueMoves_done (c : Chip) (q v : Nat) : c.done.queueMoves q v = c.queueMoves q v := (rfl)
@[simp] theorem Chip.queuesValid_done (c : Chip) : c.done.queuesValid = c.queuesValid := (rfl)
@[simp] theorem Chip.ranFor_done (c : Chip) (j k : Nat) : c.done.ranFor j k = c.ranFor j k := (rfl)
@[simp] theorem Chip.rangeFind_done (c : Chip) (bank base size key : Nat) : c.done.rangeFind bank base size key = c.rangeFind bank base size key := (rfl)
@[simp] theorem Chip.rangingModes_done (c : Chip) : c.done.rangingModes = c.rangingModes := (rfl)
@[simp] theorem Chip.rank0_done (c : Chip) (x : Nat) : c.done.rank0 x = c.rank0 x := (rfl)
@[simp] theorem Chip.rb_done (c : Chip) (f : Fld) (i : Nat) : c.done.rb f i = c.rb f i := (rfl)
@[simp] theorem Chip.rbit_done (c : Chip) (f : Fld) (i k : Nat) : c.done.rbit f i k = c.rbit f i k := (rfl)
@[simp] theorem Chip.reach_done (c : Chip) (a : Nat) : c.done.reach a = c.reach a := (rfl)
@[simp] theorem Chip.readHeld_done (c : Chip) (a : Nat) : c.done.readHeld a = c.readHeld a := (rfl)
@[simp] theorem Chip.readRow_done (c : Chip) (x r : Nat) : c.done.readRow x r = c.readRow x r := (rfl)
@[simp] theorem Chip.readyList_done (c : Chip) (p : Nat) : c.done.readyList p = c.readyList p := (rfl)
@[simp] theorem Chip.refuser_done (c : Chip) (d target : Nat) : c.done.refuser d target = c.refuser d target := (rfl)
@[simp] theorem Chip.regLocked_done (c : Chip) (a : Nat) : c.done.regLocked a = c.regLocked a := (rfl)
@[simp] theorem Chip.regionGone_done (c : Chip) (n : Nat) : c.done.regionGone n = c.regionGone n := (rfl)
@[simp] theorem Chip.regionState_done (c : Chip) (n : Nat) : c.done.regionState n = c.regionState n := (rfl)
@[simp] theorem Chip.remNs_done (c : Chip) : c.done.remNs = c.remNs := (rfl)
@[simp] theorem Chip.remU_done (c : Chip) : c.done.remU = c.remU := (rfl)
@[simp] theorem Chip.repairBytes_done (c : Chip) : c.done.repairBytes = c.repairBytes := (rfl)
@[simp] theorem Chip.repairDigest_done (c : Chip) (m : Mem) : c.done.repairDigest m = c.repairDigest m := (rfl)
@[simp] theorem Chip.report_done (c : Chip) (k alloc : Nat) : c.done.report k alloc = c.report k alloc := (rfl)
@[simp] theorem Chip.reservesOk_done (c : Chip) (blk : Nat → Nat) : c.done.reservesOk blk = c.reservesOk blk := (rfl)
@[simp] theorem Chip.resultOf_done (c : Chip) (full : Bool) (ss : List ASect) : c.done.resultOf full ss = c.resultOf full ss := (rfl)
@[simp] theorem Chip.retired_done (c : Chip) (lo n : Nat) : c.done.retired lo n = c.retired lo n := (rfl)
@[simp] theorem Chip.retryDly_done (c : Chip) (d : Nat) : c.done.retryDly d = c.retryDly d := (rfl)
@[simp] theorem Chip.roleCeil_done (c : Chip) (r : Nat) : c.done.roleCeil r = c.roleCeil r := (rfl)
@[simp] theorem Chip.roleFor_done (c : Chip) (key : List Byte) : c.done.roleFor key = c.roleFor key := (rfl)
@[simp] theorem Chip.roleOf_done (c : Chip) (digest : List Byte) : c.done.roleOf digest = c.roleOf digest := (rfl)
@[simp] theorem Chip.roleRights_done (c : Chip) (r : Nat) : c.done.roleRights r = c.roleRights r := (rfl)
@[simp] theorem Chip.rootDone_done (c : Chip) (s : Nat) : c.done.rootDone s = c.rootDone s := (rfl)
@[simp] theorem Chip.rootHash_done (c : Chip) (s : Nat) : c.done.rootHash s = c.rootHash s := (rfl)
@[simp] theorem Chip.rootRevoked_done (c : Chip) (s : Nat) : c.done.rootRevoked s = c.rootRevoked s := (rfl)
@[simp] theorem Chip.rootValid_done (c : Chip) (s : Nat) : c.done.rootValid s = c.rootValid s := (rfl)
@[simp] theorem Chip.rowInBank_done (c : Chip) (x r a : Nat) : c.done.rowInBank x r a = c.rowInBank x r a := (rfl)
@[simp] theorem Chip.rs_done (c : Chip) (f : Fld) (i : Nat) : c.done.rs f i = c.rs f i := (rfl)
@[simp] theorem Chip.ruleChange_done (c : Chip) (x : Txn) : c.done.ruleChange x = c.ruleChange x := (rfl)
@[simp] theorem Chip.runBank_done (c : Chip) (x : Nat) : c.done.runBank x = c.runBank x := (rfl)
@[simp] theorem Chip.runnable_done (c : Chip) (t : Nat) : c.done.runnable t = c.runnable t := (rfl)
@[simp] theorem Chip.running_done (c : Chip) : c.done.running = c.running := (rfl)
@[simp] theorem Chip.rxOn_done (c : Chip) (k : Nat) : c.done.rxOn k = c.rxOn k := (rfl)
@[simp] theorem Chip.sbusDuty_done (c : Chip) : c.done.sbusDuty = c.sbusDuty := (rfl)
@[simp] theorem Chip.sbusFits_done (c : Chip) (d : Nat) : c.done.sbusFits d = c.sbusFits d := (rfl)
@[simp] theorem Chip.sbusFrom_done (c : Chip) (l : List Byte) : c.done.sbusFrom l = c.sbusFrom l := (rfl)
@[simp] theorem Chip.sbusHead_done (c : Chip) : c.done.sbusHead = c.sbusHead := (rfl)
@[simp] theorem Chip.sbusMac_done (c : Chip) : c.done.sbusMac = c.sbusMac := (rfl)
@[simp] theorem Chip.sbusMine_done (c : Chip) (l : List Byte) : c.done.sbusMine l = c.sbusMine l := (rfl)
@[simp] theorem Chip.sbusUsed_done (c : Chip) (end_ : Nat) : c.done.sbusUsed end_ = c.sbusUsed end_ := (rfl)
@[simp] theorem Chip.secAdds_done (c : Chip) (p et : Nat) : c.done.secAdds p et = c.secAdds p et := (rfl)
@[simp] theorem Chip.secBypass_done (c : Chip) (p et : Nat) : c.done.secBypass p et = c.secBypass p et := (rfl)
@[simp] theorem Chip.secBytes_done (c : Chip) (p : Nat) (s : Option (MsTx × Nat)) (l : List Byte) : c.done.secBytes p s l = c.secBytes p s l := (rfl)
@[simp] theorem Chip.secOffset_done (c : Chip) (p : Nat) : c.done.secOffset p = c.secOffset p := (rfl)
@[simp] theorem Chip.secProtect_done (c : Chip) (p : Nat) (sa : MsTx) (an : Nat) (l : List Byte) : c.done.secProtect p sa an l = c.secProtect p sa an l := (rfl)
@[simp] theorem Chip.selDom_done (c : Chip) : c.done.selDom = c.selDom := (rfl)
@[simp] theorem Chip.selectable_done (c : Chip) (d : Nat) : c.done.selectable d = c.selectable d := (rfl)
@[simp] theorem Chip.sending_done (c : Chip) (x : QFrame) : c.done.sending x = c.sending x := (rfl)
@[simp] theorem Chip.serial_done (c : Chip) : c.done.serial = c.serial := (rfl)
@[simp] theorem Chip.served_done (c : Chip) (y : Nat) : c.done.served y = c.served y := (rfl)
@[simp] theorem Chip.servoBw_done (c : Chip) (d tau : Nat) : c.done.servoBw d tau = c.servoBw d tau := (rfl)
@[simp] theorem Chip.sess_done (c : Chip) (s : Nat) : c.done.sess s = c.sess s := (rfl)
@[simp] theorem Chip.sessOpen_done (c : Chip) (s : Nat) : c.done.sessOpen s = c.sessOpen s := (rfl)
@[simp] theorem Chip.setDue_done (c : Chip) (x : Nat) (reach : Option Nat) : c.done.setDue x reach = c.setDue x reach := (rfl)
@[simp] theorem Chip.setKeys_done (c : Chip) (s : Nat) : c.done.setKeys s = c.setKeys s := (rfl)
@[simp] theorem Chip.setLate_done (c : Chip) (x t : Nat) : c.done.setLate x t = c.setLate x t := (rfl)
@[simp] theorem Chip.setPrepared_done (c : Chip) (s : Shad) : c.done.setPrepared s = c.setPrepared s := (rfl)
@[simp] theorem Chip.shadCopies_done (c : Chip) (s : Shad) : c.done.shadCopies s = c.shadCopies s := (rfl)
@[simp] theorem Chip.shadEpoch_done (c : Chip) (s : Shad) : c.done.shadEpoch s = c.shadEpoch s := (rfl)
@[simp] theorem Chip.shadFlow_done (c : Chip) (s : Shad) : c.done.shadFlow s = c.shadFlow s := (rfl)
@[simp] theorem Chip.shadHeld_done (c : Chip) (s : Shad) : c.done.shadHeld s = c.shadHeld s := (rfl)
@[simp] theorem Chip.shadowOf_done (c : Chip) (x : Nat) : c.done.shadowOf x = c.shadowOf x := (rfl)
@[simp] theorem Chip.shadowPair_done (c : Chip) (b : Nat) : c.done.shadowPair b = c.shadowPair b := (rfl)
@[simp] theorem Chip.shadowSel_done (c : Chip) (b : Nat) : c.done.shadowSel b = c.shadowSel b := (rfl)
@[simp] theorem Chip.shaperNow_done (c : Chip) (s : Nat) (held : Bool) : c.done.shaperNow s held = c.shaperNow s held := (rfl)
@[simp] theorem Chip.shaperOk_done (c : Chip) (s : Nat) (held : Bool) : c.done.shaperOk s held = c.shaperOk s held := (rfl)
@[simp] theorem Chip.shapersSet_done (c : Chip) : c.done.shapersSet = c.shapersSet := (rfl)
@[simp] theorem Chip.sharedPool_done (c : Chip) (b : Nat) : c.done.sharedPool b = c.sharedPool b := (rfl)
@[simp] theorem Chip.sharedUsed_done (c : Chip) (b : Nat) : c.done.sharedUsed b = c.sharedUsed b := (rfl)
@[simp] theorem Chip.shortOk_done (c : Chip) (k : Nat) : c.done.shortOk k = c.shortOk k := (rfl)
@[simp] theorem Chip.side_done (c : Chip) : c.done.side = c.side := (rfl)
@[simp] theorem Chip.sideFails_done (c : Chip) : c.done.sideFails = c.sideFails := (rfl)
@[simp] theorem Chip.signScope_done (c : Chip) (s : Nat) : c.done.signScope s = c.signScope s := (rfl)
@[simp] theorem Chip.slewMax_done (c : Chip) : c.done.slewMax = c.slewMax := (rfl)
@[simp] theorem Chip.sliceOf_done (c : Chip) (f : Frame) (q : Nat) : c.done.sliceOf f q = c.sliceOf f q := (rfl)
@[simp] theorem Chip.sliceUsed_done (c : Chip) (b : Nat) : c.done.sliceUsed b = c.sliceUsed b := (rfl)
@[simp] theorem Chip.slotCell_done (c : Chip) (b slot : Nat) : c.done.slotCell b slot = c.slotCell b slot := (rfl)
@[simp] theorem Chip.slotPort_done (c : Chip) (b slot : Nat) : c.done.slotPort b slot = c.slotPort b slot := (rfl)
@[simp] theorem Chip.slotTagOk_done (c : Chip) (x : MsgSlot) : c.done.slotTagOk x = c.slotTagOk x := (rfl)
@[simp] theorem Chip.smpMemCheck_done (c : Chip) (a : Nat) : c.done.smpMemCheck a = c.smpMemCheck a := (rfl)
@[simp] theorem Chip.smpPowered_done (c : Chip) (x : Nat) : c.done.smpPowered x = c.smpPowered x := (rfl)
@[simp] theorem Chip.smpRuns_done (c : Chip) (x : Nat) : c.done.smpRuns x = c.smpRuns x := (rfl)
@[simp] theorem Chip.smpServe_done (c : Chip) (x : Nat) : c.done.smpServe x = c.smpServe x := (rfl)
@[simp] theorem Chip.sources_done (c : Chip) (t : Nat) : c.done.sources t = c.sources t := (rfl)
@[simp] theorem Chip.spCore_done (c : Chip) (k hash : Nat) : c.done.spCore k hash = c.spCore k hash := (rfl)
@[simp] theorem Chip.spTokens_done (c : Chip) (k : Nat) : c.done.spTokens k = c.spTokens k := (rfl)
@[simp] theorem Chip.spanOver_done (c : Chip) (a : Option Nat) (d : Nat) : c.done.spanOver a d = c.spanOver a d := (rfl)
@[simp] theorem Chip.spareEngBusy_done (c : Chip) : c.done.spareEngBusy = c.spareEngBusy := (rfl)
@[simp] theorem Chip.spareOf_done (c : Chip) (b j : Nat) : c.done.spareOf b j = c.spareOf b j := (rfl)
@[simp] theorem Chip.spareSmp_done (c : Chip) (b : Nat) : c.done.spareSmp b = c.spareSmp b := (rfl)
@[simp] theorem Chip.spillNext_done (c : Chip) (q : Nat) : c.done.spillNext q = c.spillNext q := (rfl)
@[simp] theorem Chip.spilledBytes_done (c : Chip) (q : Nat) : c.done.spilledBytes q = c.spilledBytes q := (rfl)
@[simp] theorem Chip.squelched_done (c : Chip) (sq : Nat) : c.done.squelched sq = c.squelched sq := (rfl)
@[simp] theorem Chip.stRecord_done (c : Chip) (m : Mem) (result : Nat) : c.done.stRecord m result = c.stRecord m result := (rfl)
@[simp] theorem Chip.stResult_done (c : Chip) : c.done.stResult = c.stResult := (rfl)
@[simp] theorem Chip.stValid_done (c : Chip) (m : Mem) (b : List Byte) : c.done.stValid m b = c.stValid m b := (rfl)
@[simp] theorem Chip.stageFull_done (c : Chip) (n : Nat) : c.done.stageFull n = c.stageFull n := (rfl)
@[simp] theorem Chip.stageMoved_done (c : Chip) (t : Tab (List Byte)) (s : Nat) : c.done.stageMoved t s = c.stageMoved t s := (rfl)
@[simp] theorem Chip.stageNow_done (c : Chip) : c.done.stageNow = c.stageNow := (rfl)
@[simp] theorem Chip.stampRoom_done (c : Chip) (origin src : Nat) : c.done.stampRoom origin src = c.stampRoom origin src := (rfl)
@[simp] theorem Chip.steerRate_done (c : Chip) : c.done.steerRate = c.steerRate := (rfl)
@[simp] theorem Chip.stepDelta_done (c : Chip) (lo hi : Nat) : c.done.stepDelta lo hi = c.stepDelta lo hi := (rfl)
@[simp] theorem Chip.structOk_done (c : Chip) (t : Tab (List Byte)) : c.done.structOk t = c.structOk t := (rfl)
@[simp] theorem Chip.swapBytes_done (c : Chip) (m : Mem) : c.done.swapBytes m = c.swapBytes m := (rfl)
@[simp] theorem Chip.swapEntries_done (c : Chip) (m : Mem) : c.done.swapEntries m = c.swapEntries m := (rfl)
@[simp] theorem Chip.swapFor_done (c : Chip) (u : Nat) : c.done.swapFor u = c.swapFor u := (rfl)
@[simp] theorem Chip.swapSpareOk_done (c : Chip) : c.done.swapSpareOk = c.swapSpareOk := (rfl)
@[simp] theorem Chip.symComplete_done (c : Chip) (x : Nat) (s : OpenSym) : c.done.symComplete x s = c.symComplete x s := (rfl)
@[simp] theorem Chip.symRows_done (c : Chip) (x : Nat) (s : OpenSym) (part : Bool) : c.done.symRows x s part = c.symRows x s part := (rfl)
@[simp] theorem Chip.syncFrame_done (c : Chip) (p : Nat) (l : Int) : c.done.syncFrame p l = c.syncFrame p l := (rfl)
@[simp] theorem Chip.syncIvl_done (c : Chip) (p : Nat) : c.done.syncIvl p = c.syncIvl p := (rfl)
@[simp] theorem Chip.syncPast_done (c : Chip) (p : Nat) : c.done.syncPast p = c.syncPast p := (rfl)
@[simp] theorem Chip.tableLocked_done (c : Chip) (a : Nat) : c.done.tableLocked a = c.tableLocked a := (rfl)
@[simp] theorem Chip.tablesOk_done (c : Chip) (t : Tab (List Byte)) (runs : List ARec) : c.done.tablesOk t runs = c.tablesOk t runs := (rfl)
@[simp] theorem Chip.tagIdx_done (c : Chip) : c.done.tagIdx = c.tagIdx := (rfl)
@[simp] theorem Chip.tagMons_done (c : Chip) (k tag : Nat) : c.done.tagMons k tag = c.tagMons k tag := (rfl)
@[simp] theorem Chip.takingOver_done (c : Chip) (b k : Nat) : c.done.takingOver b k = c.takingOver b k := (rfl)
@[simp] theorem Chip.tamperFast_done (c : Chip) (n : Nat) : c.done.tamperFast n = c.tamperFast n := (rfl)
@[simp] theorem Chip.temp_done (c : Chip) (s : Nat) : c.done.temp s = c.temp s := (rfl)
@[simp] theorem Chip.ternFind_done (c : Chip) (bank base size key : Nat) : c.done.ternFind bank base size key = c.ternFind bank base size key := (rfl)
@[simp] theorem Chip.testable_done (c : Chip) (p : Nat) : c.done.testable p = c.testable p := (rfl)
@[simp] theorem Chip.thermal_done (c : Chip) : c.done.thermal = c.thermal := (rfl)
@[simp] theorem Chip.tickNow_done (c : Chip) : c.done.tickNow = c.tickNow := (rfl)
@[simp] theorem Chip.timeCh_done (c : Chip) : c.done.timeCh = c.timeCh := (rfl)
@[simp] theorem Chip.timeState_done (c : Chip) : c.done.timeState = c.timeState := (rfl)
@[simp] theorem Chip.todMessage_done (c : Chip) (sec : Nat) : c.done.todMessage sec = c.todMessage sec := (rfl)
@[simp] theorem Chip.traceRec_done (c : Chip) (kind core task other prio detail : Nat) : c.done.traceRec kind core task other prio detail = c.traceRec kind core task other prio detail := (rfl)
@[simp] theorem Chip.traced_done (c : Chip) (kind : Nat) : c.done.traced kind = c.traced kind := (rfl)
@[simp] theorem Chip.tstate_done (c : Chip) (t : Nat) : c.done.tstate t = c.tstate t := (rfl)
@[simp] theorem Chip.txIdle_done (c : Chip) (p : Nat) : c.done.txIdle p = c.txIdle p := (rfl)
@[simp] theorem Chip.txTime_done (c : Chip) (p : Nat) (f : Frame) : c.done.txTime p f = c.txTime p f := (rfl)
@[simp] theorem Chip.txnBy_done (c : Chip) (s id : Nat) : c.done.txnBy s id = c.txnBy s id := (rfl)
@[simp] theorem Chip.txnFree_done (c : Chip) : c.done.txnFree = c.txnFree := (rfl)
@[simp] theorem Chip.txnPrep_done (c : Chip) (x : Txn) : c.done.txnPrep x = c.txnPrep x := (rfl)
@[simp] theorem Chip.txnShown_done (c : Chip) : c.done.txnShown = c.txnShown := (rfl)
@[simp] theorem Chip.unitLen_done (c : Chip) (f : Frame) : c.done.unitLen f = c.unitLen f := (rfl)
@[simp] theorem Chip.upData_done (c : Chip) (k sfc pos key tag : Nat) (l : List Byte) : c.done.upData k sfc pos key tag l = c.upData k sfc pos key tag l := (rfl)
@[simp] theorem Chip.upKey_done (c : Chip) (x : Frame) : c.done.upKey x = c.upKey x := (rfl)
@[simp] theorem Chip.vigilY0_done (c : Chip) (secs : Nat) : c.done.vigilY0 secs = c.vigilY0 secs := (rfl)
@[simp] theorem Chip.wakeLess_done (c : Chip) (a b : Nat × Nat) : c.done.wakeLess a b = c.wakeLess a b := (rfl)
@[simp] theorem Chip.wakeLost_done (c : Chip) (w : WakeSet) (d : Nat) : c.done.wakeLost w d = c.wakeLost w d := (rfl)
@[simp] theorem Chip.wakeOver_done (c : Chip) (w : WakeSet) : c.done.wakeOver w = c.wakeOver w := (rfl)
@[simp] theorem Chip.walkNode_done (c : Chip) (pg : Nat) (l : List Byte) (lf : Nat) (known : Bool) (w : Walk) : c.done.walkNode pg l lf known w = c.walkNode pg l lf known w := (rfl)
@[simp] theorem Chip.watchNext_done (c : Chip) (w : Nat) : c.done.watchNext w = c.watchNext w := (rfl)
@[simp] theorem Chip.waveOf_done (c : Chip) (e : Nat) : c.done.waveOf e = c.waveOf e := (rfl)
@[simp] theorem Chip.winGet_done (c : Chip) (a : Nat) : c.done.winGet a = c.winGet a := (rfl)
@[simp] theorem Chip.wqAddr_done (c : Chip) (w index : Nat) : c.done.wqAddr w index = c.wqAddr w index := (rfl)
@[simp] theorem Chip.wqFree_done (c : Chip) (w : Nat) : c.done.wqFree w = c.wqFree w := (rfl)
@[simp] theorem Chip.wqOcc_done (c : Chip) (w : Nat) : c.done.wqOcc w = c.wqOcc w := (rfl)
@[simp] theorem Chip.wqSlots_done (c : Chip) (w : Nat) : c.done.wqSlots w = c.wqSlots w := (rfl)
@[simp] theorem Chip.writeHeld_done (c : Chip) (a v : Nat) : c.done.writeHeld a v = c.writeHeld a v := (rfl)
@[simp] theorem Chip.zcpAlive_done (c : Chip) : c.done.zcpAlive = c.zcpAlive := (rfl)
@[simp] theorem Chip.zcpHead_done (c : Chip) (da kind sess seq len : Nat) : c.done.zcpHead da kind sess seq len = c.zcpHead da kind sess seq len := (rfl)
@[simp] theorem Chip.zcpOpens_done (c : Chip) (l : List Byte) : c.done.zcpOpens l = c.zcpOpens l := (rfl)
@[simp] theorem Chip.zcpOutput_done (c : Chip) (s typ flags tag st index detail : Nat) (body : List Byte) : c.done.zcpOutput s typ flags tag st index detail body = c.zcpOutput s typ flags tag st index detail body := (rfl)
@[simp] theorem Chip.zcpSeal_done (c : Chip) (s seq : Nat) (msg : List Byte) : c.done.zcpSeal s seq msg = c.zcpSeal s seq msg := (rfl)

end Sys2Proof.Machine
end

