-- ==== Sys2Proof/Laws/Watch.lean ====
section
/-! SUPPORT. What watching the region states and the CHIP_BLOCK_OK bits (16_register_map.md R469) adds to an operation: two bits of
CHIP_EVT, and nothing else. -/

namespace Sys2Proof.Machine

open Sys2Proof

/-- An operation that is watched is the operation, with at most two bits of CHIP_EVT set after it. -/
theorem Chip.watch_eq (c : Chip) (f : Chip → Chip) :
    c.watch f = f c ∨ c.watch f = (f c).wg R.CHIP_EVT_REGION_CHG 0 1 ∨ c.watch f = (f c).wg R.CHIP_EVT_BLOCK_CHG 0 1 ∨
      c.watch f = ((f c).wg R.CHIP_EVT_REGION_CHG 0 1).wg R.CHIP_EVT_BLOCK_CHG 0 1 := by
  unfold Chip.watch
  generalize f c = d
  by_cases a : ((List.range 4).any fun n => decide (c.regionState n ≠ d.regionState n)) = true <;>
    by_cases b : c.blockOkWord ≠ d.blockOkWord <;> simp only [a, b, if_true, if_false, not_false_eq_true, ne_eq, true_or, or_true] <;> simp [*]

/-- A field that is neither of the two bits reads as the operation leaves it. -/
theorem Chip.watch_rg (c : Chip) (f : Chip → Chip) (g : Fld) (i : Nat) (h : g.key i ≠ R.CHIP_EVT_REGION_CHG.key 0)
    (h' : g.key i ≠ R.CHIP_EVT_BLOCK_CHG.key 0) : (c.watch f).rg g i = (f c).rg g i := by
  obtain e | e | e | e := c.watch_eq f <;> rw [e] <;> simp only [Chip.rg_wg, if_neg h, if_neg h']

@[simp] theorem Chip.watch_now (c : Chip) (f : Chip → Chip) : (c.watch f).now = (f c).now := by
  obtain e | e | e | e := c.watch_eq f <;> rw [e] <;> simp
@[simp] theorem Chip.watch_fresh (c : Chip) (f : Chip → Chip) : (c.watch f).fresh = (f c).fresh := by
  obtain e | e | e | e := c.watch_eq f <;> rw [e] <;> simp
@[simp] theorem Chip.watch_cnt (c : Chip) (f : Chip → Chip) : (c.watch f).cnt = (f c).cnt := by
  obtain e | e | e | e := c.watch_eq f <;> rw [e] <;> simp
@[simp] theorem Chip.watch_lat (c : Chip) (f : Chip → Chip) : (c.watch f).lat = (f c).lat := by
  obtain e | e | e | e := c.watch_eq f <;> rw [e] <;> simp
@[simp] theorem Chip.watch_cap (c : Chip) (f : Chip → Chip) : (c.watch f).cap = (f c).cap := by
  obtain e | e | e | e := c.watch_eq f <;> rw [e] <;> simp
@[simp] theorem Chip.watch_win (c : Chip) (f : Chip → Chip) : (c.watch f).win = (f c).win := by
  obtain e | e | e | e := c.watch_eq f <;> rw [e] <;> simp
@[simp] theorem Chip.watch_out (c : Chip) (f : Chip → Chip) : (c.watch f).out = (f c).out := by
  obtain e | e | e | e := c.watch_eq f <;> rw [e] <;> simp
@[simp] theorem Chip.watch_mout (c : Chip) (f : Chip → Chip) : (c.watch f).mout = (f c).mout := by
  obtain e | e | e | e := c.watch_eq f <;> rw [e] <;> simp
@[simp] theorem Chip.watch_st (c : Chip) (f : Chip → Chip) : (c.watch f).st = (f c).st := by
  obtain e | e | e | e := c.watch_eq f <;> rw [e] <;> simp
@[simp] theorem Chip.watch_alm (c : Chip) (f : Chip → Chip) : (c.watch f).alm = (f c).alm := by
  obtain e | e | e | e := c.watch_eq f <;> rw [e] <;> simp
@[simp] theorem Chip.watch_ds (c : Chip) (f : Chip → Chip) : (c.watch f).ds = (f c).ds := by
  obtain e | e | e | e := c.watch_eq f <;> rw [e] <;> simp
@[simp] theorem Chip.watch_pp (c : Chip) (f : Chip → Chip) : (c.watch f).pp = (f c).pp := by
  obtain e | e | e | e := c.watch_eq f <;> rw [e] <;> simp
@[simp] theorem Chip.watch_qs (c : Chip) (f : Chip → Chip) : (c.watch f).qs = (f c).qs := by
  obtain e | e | e | e := c.watch_eq f <;> rw [e] <;> simp
@[simp] theorem Chip.watch_up (c : Chip) (f : Chip → Chip) : (c.watch f).up = (f c).up := by
  obtain e | e | e | e := c.watch_eq f <;> rw [e] <;> simp
@[simp] theorem Chip.watch_smp (c : Chip) (f : Chip → Chip) : (c.watch f).smp = (f c).smp := by
  obtain e | e | e | e := c.watch_eq f <;> rw [e] <;> simp
@[simp] theorem Chip.watch_fh (c : Chip) (f : Chip → Chip) : (c.watch f).fh = (f c).fh := by
  obtain e | e | e | e := c.watch_eq f <;> rw [e] <;> simp
@[simp] theorem Chip.watch_tm (c : Chip) (f : Chip → Chip) : (c.watch f).tm = (f c).tm := by
  obtain e | e | e | e := c.watch_eq f <;> rw [e] <;> simp
@[simp] theorem Chip.watch_pt (c : Chip) (f : Chip → Chip) : (c.watch f).pt = (f c).pt := by
  obtain e | e | e | e := c.watch_eq f <;> rw [e] <;> simp
@[simp] theorem Chip.watch_hp (c : Chip) (f : Chip → Chip) : (c.watch f).hp = (f c).hp := by
  obtain e | e | e | e := c.watch_eq f <;> rw [e] <;> simp
@[simp] theorem Chip.watch_mc (c : Chip) (f : Chip → Chip) : (c.watch f).mc = (f c).mc := by
  obtain e | e | e | e := c.watch_eq f <;> rw [e] <;> simp
@[simp] theorem Chip.watch_sec (c : Chip) (f : Chip → Chip) : (c.watch f).sec = (f c).sec := by
  obtain e | e | e | e := c.watch_eq f <;> rw [e] <;> simp
@[simp] theorem Chip.watch_pw (c : Chip) (f : Chip → Chip) : (c.watch f).pw = (f c).pw := by
  obtain e | e | e | e := c.watch_eq f <;> rw [e] <;> simp
@[simp] theorem Chip.watch_el (c : Chip) (f : Chip → Chip) : (c.watch f).el = (f c).el := by
  obtain e | e | e | e := c.watch_eq f <;> rw [e] <;> simp

@[simp] theorem Chip.watch_counter (c : Chip) (f : Chip → Chip) (k : Ctr) (i : Nat) : (c.watch f).counter k i = (f c).counter k i := by
  simp only [Chip.counter, Chip.watch_cnt]

end Sys2Proof.Machine
end

