-- ==== Sys2Proof/Laws/Downstream.lean ====
section
/-! SUPPORT. What the shared operations of the downstream side leave: a defect of a wavelength (03_trunk_downstream.md R108) changes that
defect, its event bit and the channel monitors that follow it, and the engine's state nothing else of the engines. -/

namespace Sys2Proof.Machine

open Sys2Proof

/-- A fold of operations that each keep a reading keeps it. -/
theorem foldl_keeps {α β γ : Type} (f : α → β → α) (r : α → γ) (h : ∀ a b, r (f a b) = r a) (l : List β) (a : α) :
    r (l.foldl f a) = r a := by
  induction l generalizing a with
  | nil => rfl
  | cons b l ih => rw [List.foldl_cons, ih, h]

/-- The same for an operation done for each number below a bound. -/
theorem forN_keeps {α γ : Type} (n : Nat) (f : Nat → α → α) (r : α → γ) (h : ∀ i a, r (f i a) = r a) (a : α) : r (forN n f a) = r a :=
  foldl_keeps _ r (fun a i => h i a) _ a

/-- The keys of what follows a defect of a wavelength: the channel monitors' states, and the request that AUTO holds (R113). -/
def followKeys (k : Nat) : Prop := k = R.TRK_SIDE_STAT_REQ.key 0 ∨ ∃ m, k = R.TRK_CHMON_STATE_RAW.key m ∨ k = R.TRK_CHMON_STATE_DEF.key m ∨ k = R.TRK_CHMON_STATE_CHG.key m

/-- A channel monitor's evaluation writes its state only. -/
theorem Chip.monEval_rg (c : Chip) (m : Nat) (g : Fld) (j : Nat) (h : ¬ followKeys (g.key j)) : (c.monEval m).rg g j = c.rg g j := by
  have h1 : g.key j ≠ R.TRK_CHMON_STATE_RAW.key m := fun e => h (.inr ⟨m, .inl e⟩)
  have h2 : g.key j ≠ R.TRK_CHMON_STATE_DEF.key m := fun e => h (.inr ⟨m, .inr (.inl e)⟩)
  have h3 : g.key j ≠ R.TRK_CHMON_STATE_CHG.key m := fun e => h (.inr ⟨m, .inr (.inr e)⟩)
  simp only [Chip.monEval, Chip.monSet]
  repeat' split
  all_goals simp only [Chip.rg_wg, if_neg h1, if_neg h2, if_neg h3]

theorem Chip.monEval_ds (c : Chip) (m : Nat) : (c.monEval m).ds = c.ds := by
  simp only [Chip.monEval, Chip.monSet]
  repeat' split
  all_goals simp

theorem Chip.apsTrack_rg (c : Chip) (g : Fld) (j : Nat) (h : ¬ followKeys (g.key j)) : c.apsTrack.rg g j = c.rg g j := by
  have h0 : g.key j ≠ R.TRK_SIDE_STAT_REQ.key 0 := fun e => h (.inl e)
  unfold Chip.apsTrack
  dsimp only
  repeat' split
  all_goals first | rfl | exact Chip.rg_wg_other c _ _ _ _ _ (Ne.symm h0)

theorem Chip.apsTrack_eng (c : Chip) : c.apsTrack.ds.eng = c.ds.eng := by
  unfold Chip.apsTrack
  dsimp only
  repeat' split
  all_goals rfl

/-- A field that is neither a defect, nor its event bit, nor a channel monitor's state keeps its value. -/
theorem Chip.setDefect_rg (c : Chip) (k d : Nat) (on : Bool) (g : Fld) (j : Nat) (h1 : g.key j ≠ (defectFld d).key k)
    (h2 : g.key j ≠ R.TRK_DS_EVT_CHG.key k) (h3 : ¬ followKeys (g.key j)) : (c.setDefect k d on).rg g j = c.rg g j := by
  unfold Chip.setDefect
  split
  · rfl
  · rw [Chip.apsTrack_rg _ _ _ h3, foldl_keeps _ (fun x : Chip => x.rg g j) (fun a b => Chip.monEval_rg a b g j h3)]
    simp only [Chip.wbit, Chip.wb_eq, Chip.rg_wg, if_neg h1, if_neg h2]

/-- The defect reads as it was set. -/
theorem Chip.setDefect_self (c : Chip) (k d : Nat) (on : Bool) (hw : (defectFld d).width = 1) (h2 : (defectFld d).key k ≠ R.TRK_DS_EVT_CHG.key k)
    (h3 : ¬ followKeys ((defectFld d).key k)) : ((c.setDefect k d on).rb (defectFld d) k) = on := by
  unfold Chip.setDefect
  split
  · assumption
  · rw [Chip.rb, Chip.apsTrack_rg _ _ _ h3, foldl_keeps _ (fun x : Chip => x.rg (defectFld d) k) (fun a b => Chip.monEval_rg a b (defectFld d) k h3)]
    simp only [Chip.wbit, Chip.wb_eq, Chip.rg_wg, if_neg h2, if_pos, hw]
    cases on <;> rfl

/-- The engines keep what they hold. -/
@[simp] theorem Chip.setDefect_eng (c : Chip) (k d : Nat) (on : Bool) (j : Nat) : (c.setDefect k d on).eng j = c.eng j := by
  unfold Chip.setDefect
  split
  · rfl
  · simp only [Chip.eng, Chip.apsTrack_eng]
    rw [foldl_keeps _ (fun x : Chip => x.ds) (fun a b => Chip.monEval_ds a b)]
    rfl

@[simp] theorem Chip.setFstate_eng (c : Chip) (k st j : Nat) : (c.setFstate k st).eng j = c.eng j := by
  simp only [Chip.setFstate, Chip.setDefect_eng]
  rfl

/-- The engine's state reads as it was set (2 bits). -/
theorem Chip.setFstate_self (c : Chip) (k st : Nat) (hk : k < 16) : (c.setFstate k st).rg R.TRK_DS_STAT_FSTATE k = st % 4 := by
  unfold Chip.setFstate
  rw [Chip.setDefect_rg]
  · simp [R.TRK_DS_STAT_FSTATE]
  · simp only [Fld.key, defectFld, R.TRK_DS_STAT_FSTATE, R.TRK_DS_STAT_LOF]; omega
  · simp only [Fld.key, R.TRK_DS_STAT_FSTATE, R.TRK_DS_EVT_CHG]; omega
  · rintro (h | ⟨m, h⟩)
    · simp only [Fld.key, R.TRK_DS_STAT_FSTATE, R.TRK_SIDE_STAT_REQ] at h; omega
    simp only [Fld.key, R.TRK_DS_STAT_FSTATE, R.TRK_CHMON_STATE_RAW, R.TRK_CHMON_STATE_DEF, R.TRK_CHMON_STATE_CHG] at h
    omega

/-- Another field keeps its value. -/
theorem Chip.setFstate_rg (c : Chip) (k st : Nat) (g : Fld) (j : Nat) (h0 : g.key j ≠ R.TRK_DS_STAT_FSTATE.key k)
    (h1 : g.key j ≠ R.TRK_DS_STAT_LOF.key k) (h2 : g.key j ≠ R.TRK_DS_EVT_CHG.key k) (h3 : ¬ followKeys (g.key j)) :
    (c.setFstate k st).rg g j = c.rg g j := by
  unfold Chip.setFstate
  rw [Chip.setDefect_rg _ _ _ _ _ _ (by simpa only [defectFld] using h1) h2 h3, Chip.rg_wg, if_neg h0]

@[simp] theorem Chip.setEng_eng (c : Chip) (k : Nat) (e : Eng) : (c.setEng k e).eng k = e := by
  simp [Chip.eng, Chip.setEng]

@[simp] theorem Chip.setEng_rg (c : Chip) (k : Nat) (e : Eng) (g : Fld) (j : Nat) : (c.setEng k e).rg g j = c.rg g j := (rfl)

end Sys2Proof.Machine
end

