-- ==== Sys2Proof/Laws/Mem.lean ====
section
/-! SUPPORT. The laws of the two addressed memories: a byte reads what was last written, a write leaves every other byte, and every
change keeps the canonical form. -/

namespace Sys2Proof.Machine

open Sys2Proof

/-- Every address of the list is above `a`. -/
def cellsAbove (a : Nat) (l : List Host.Cell) : Bool := l.all (fun x => decide (a < x.1))

/-- The canonical form of a list with a first cell: its value, its place, and the rest. -/
theorem cellsWf_cons (d : Byte) (a : Nat) (v : Byte) (l : List Host.Cell) :
    cellsWf d ((a, v) :: l) = true ↔ v ≠ d ∧ cellsAbove a l = true ∧ cellsWf d l = true := by
  induction l generalizing a v with
  | nil => simp [cellsWf, cellsAbove]
  | cons e r ih =>
    obtain ⟨b, w⟩ := e
    have hb := ih b w
    simp only [cellsWf, Bool.and_eq_true, decide_eq_true_eq, cellsAbove, List.all_cons]
    constructor
    · rintro ⟨⟨hv, hab⟩, hw⟩
      refine ⟨hv, ⟨hab, ?_⟩, hw⟩
      have hr := (hb.mp hw).2.1
      simp only [cellsAbove, List.all_eq_true, decide_eq_true_eq] at hr ⊢
      intro x hx
      have := hr x hx
      omega
    · rintro ⟨hv, ⟨hab, -⟩, hw⟩
      exact ⟨⟨hv, hab⟩, hw⟩

/-- A write at an address above `a` keeps every address above `a`. -/
theorem cellSet_above (d : Byte) (l : List Host.Cell) (a b : Nat) (x : Byte) (h : cellsAbove a l = true) (hab : a < b) :
    cellsAbove a (cellSet d l b x) = true := by
  induction l with
  | nil =>
    simp only [cellSet]
    split <;> simp [cellsAbove, hab]
  | cons e r ih =>
    obtain ⟨c, v⟩ := e
    simp only [cellsAbove, List.all_cons, Bool.and_eq_true, decide_eq_true_eq] at h
    have ihr := ih (by simpa [cellsAbove] using h.2)
    simp only [cellSet]
    split
    · split <;> simp [cellsAbove, h.1, hab] <;> simpa using h.2
    · split
      · split
        · simpa [cellsAbove] using h.2
        · simp only [cellsAbove, List.all_cons, Bool.and_eq_true, decide_eq_true_eq]
          exact ⟨hab, by simpa using h.2⟩
      · simp only [cellsAbove, List.all_cons, Bool.and_eq_true, decide_eq_true_eq]
        exact ⟨h.1, by simpa [cellsAbove] using ihr⟩

/-- One byte written keeps the canonical form. -/
theorem cellSet_wf (d : Byte) (l : List Host.Cell) (a : Nat) (x : Byte) (h : cellsWf d l = true) : cellsWf d (cellSet d l a x) = true := by
  induction l with
  | nil =>
    simp only [cellSet]
    split
    · exact h
    · simp [cellsWf, *]
  | cons e r ih =>
    obtain ⟨b, v⟩ := e
    obtain ⟨hv, hab, hr⟩ := (cellsWf_cons d b v r).mp h
    simp only [cellSet]
    split
    · split
      · exact h
      · refine (cellsWf_cons d a x _).mpr ⟨‹_›, ?_, h⟩
        simp only [cellsAbove, List.all_cons, Bool.and_eq_true, decide_eq_true_eq, List.all_eq_true] at hab ⊢
        exact ⟨‹_›, fun y hy => by have := hab y hy; omega⟩
    · split
      · subst_vars
        split
        · exact hr
        · exact (cellsWf_cons d _ x r).mpr ⟨‹_›, hab, hr⟩
      · exact (cellsWf_cons d b v _).mpr ⟨hv, cellSet_above d r b a x hab (by omega), ih hr⟩

/-- Bytes written keep the canonical form. -/
theorem cellsPut_wf (d : Byte) (l : List Host.Cell) (a : Nat) (bs : List Byte) (h : cellsWf d l = true) :
    cellsWf d (cellsPut d l a bs) = true := by
  induction bs generalizing l a with
  | nil => exact h
  | cons x r ih => exact ih _ _ (cellSet_wf d l a x h)

/-- Cells taken out keep the canonical form. -/
theorem cellsWf_filter (d : Byte) (l : List Host.Cell) (p : Host.Cell → Bool) (h : cellsWf d l = true) :
    cellsWf d (l.filter p) = true := by
  induction l with
  | nil => exact h
  | cons e r ih =>
    obtain ⟨b, v⟩ := e
    obtain ⟨hv, hab, hr⟩ := (cellsWf_cons d b v r).mp h
    simp only [List.filter_cons]
    split
    · refine (cellsWf_cons d b v _).mpr ⟨hv, ?_, ih hr⟩
      simp only [cellsAbove, List.all_eq_true, decide_eq_true_eq, List.mem_filter] at hab ⊢
      exact fun y hy => hab y hy.1
    · exact ih hr

/-- One change of a memory keeps the canonical form of both. -/
theorem Mem.apply_wf (m : Mem) (o : MemOp) (h : m.wf = true) : (m.apply o).wf = true := by
  simp only [Mem.wf, Bool.and_eq_true] at h ⊢
  cases o with
  | ddr a bs => exact ⟨cellsPut_wf _ _ _ _ h.1, h.2⟩
  | flash a bs => exact ⟨h.1, cellsPut_wf _ _ _ _ h.2⟩
  | erase a n => exact ⟨h.1, cellsWf_filter _ _ _ h.2⟩
  | ddrLost => exact ⟨rfl, h.2⟩

/-- The changes of one command keep the canonical form of both memories. -/
theorem Mem.applyAll_wf (m : Mem) (os : List MemOp) (h : m.wf = true) : (m.applyAll os).wf = true := by
  induction os generalizing m with
  | nil => exact h
  | cons o r ih => exact ih _ (Mem.apply_wf m o h)

/-- A byte reads what was last written to it, in canonical form. -/
theorem cellGet_cellSet_same (d : Byte) (l : List Host.Cell) (a : Nat) (x : Byte) (h : cellsWf d l = true) :
    cellGet d (cellSet d l a x) a = x := by
  induction l with
  | nil =>
    simp only [cellSet]
    split <;> simp [cellGet, *]
  | cons e r ih =>
    obtain ⟨b, v⟩ := e
    obtain ⟨hv, hab, hr⟩ := (cellsWf_cons d b v r).mp h
    simp only [cellSet]
    split
    · split
      · have hne : ¬ a = b := by omega
        simp [cellGet, *]
      · simp [cellGet]
    · split
      · rename_i he
        subst he
        split
        · rename_i hx
          subst hx
          cases r with
          | nil => simp [cellGet]
          | cons e r =>
            obtain ⟨c, w⟩ := e
            have hac : a < c := by simpa [cellsAbove] using (List.all_eq_true.mp hab (c, w) (by simp))
            have hne : ¬ a = c := by omega
            simp [cellGet, hne, hac]
        · simp [cellGet]
      · simp [cellGet, ih hr, *]

/-- A write leaves every byte at another address, in canonical form. -/
theorem cellGet_cellSet_other (d : Byte) (l : List Host.Cell) (a b : Nat) (x : Byte) (h : cellsWf d l = true) (hne : a ≠ b) :
    cellGet d (cellSet d l a x) b = cellGet d l b := by
  induction l with
  | nil =>
    simp only [cellSet]
    split
    · rfl
    · simp only [cellGet]
      rw [if_neg (by omega)]
      split <;> rfl
  | cons e r ih =>
    obtain ⟨c, v⟩ := e
    obtain ⟨hv, hab, hr⟩ := (cellsWf_cons d c v r).mp h
    simp only [cellSet]
    split
    · split
      · rfl
      · simp only [cellGet]
        rw [if_neg (Ne.symm hne)]
        by_cases h1 : b < a
        · have h2 : ¬ b = c := by omega
          have h3 : b < c := by omega
          simp [h1, h2, h3]
        · simp [h1]
    · split
      · rename_i he
        subst he
        split
        · simp only [cellGet]
          rw [if_neg (Ne.symm hne)]
          by_cases h1 : b < a
          · rw [if_pos h1]
            cases r with
            | nil => rfl
            | cons e r =>
              obtain ⟨c, w⟩ := e
              have hac : a < c := by simpa [cellsAbove] using (List.all_eq_true.mp hab (c, w) (by simp))
              have h2 : ¬ b = c := by omega
              have h3 : b < c := by omega
              simp [cellGet, h2, h3]
          · rw [if_neg h1]
        · simp only [cellGet, if_neg (Ne.symm hne)]
      · simp only [cellGet, ih hr]

end Sys2Proof.Machine
end

