-- ==== Sys2Proof/Laws/Zcp.lean ====
section
/-! SUPPORT. The protected frames of the Zalone Control Protocol (11_host_control_and_dma.md R328, R330, R333): big-endian fields, the
stream cipher, and a frame that a host builds under the keys of a session, which that session opens to the message in it. -/

namespace Sys2Proof.Machine

open Sys2Proof

/-! ## Big-endian fields -/

@[simp] theorem beBytes_length (n v : Nat) : (beBytes n v).length = n := by
  induction n with
  | zero => rfl
  | succ n ih => simp [beBytes, ih]

theorem foldl_be (l : List Byte) (a : Nat) : l.foldl (fun a b => a * 256 + b.toNat) a = a * 256 ^ l.length + beNat l := by
  induction l generalizing a with
  | nil => simp [beNat]
  | cons b l ih =>
    simp only [beNat, List.foldl_cons, List.length_cons, Nat.pow_succ]
    rw [ih, ih (0 * 256 + b.toNat), Nat.add_mul, Nat.zero_mul, Nat.zero_add, Nat.mul_assoc, Nat.mul_comm 256, Nat.add_assoc]

/-- Bytes written from a number read as that number, as far as they hold it. -/
@[simp] theorem beNat_beBytes (n v : Nat) : beNat (beBytes n v) = v % 256 ^ n := by
  induction n with
  | zero => simp [beBytes, beNat, Nat.mod_one]
  | succ n ih =>
    rw [beBytes, beNat, List.foldl_cons, foldl_be, ih, beBytes_length]
    simp only [Nat.zero_mul, Nat.zero_add, BitVec.toNat_ofNat]
    rw [Nat.mod_pow_succ (b := 256), Nat.mul_comm, Nat.add_comm]

/-! ## The stream cipher -/

@[simp] theorem gcmStream_length (key iv : List Byte) (off : Nat) (l : List Byte) : (gcmStream key iv off l).length = l.length := by
  simp [gcmStream]

/-- What is encrypted is decrypted by the same key, IV and place. -/
@[simp] theorem gcmStream_twice (key iv : List Byte) (off : Nat) (l : List Byte) : gcmStream key iv off (gcmStream key iv off l) = l := by
  apply List.ext_getElem (by simp)
  intro i h1 h2
  simp only [gcmStream, List.length_map, List.length_range] at h1 ⊢
  have h2 : i < l.length := by simpa using h1
  simp [List.getD, h2]

@[simp] theorem gcmTagBytes_length (key iv aad ct : List Byte) : (gcmTagBytes key iv aad ct).length = 16 := by simp [gcmTagBytes]

/-! ## A frame of the host -/

/-- The header of a protected frame of the host, before its MESSAGE (R328). -/
def hostHead (sess seq len : Nat) : List Byte :=
  zeros 12 ++ beBytes 2 0x88B5 ++ beBytes 1 1 ++ beBytes 1 1 ++ beBytes 1 sess ++ zeros 1 ++ beBytes 8 seq ++ beBytes 4 len

/-- A protected frame that a host sends under the key of a session for its frames (R330, R333), without FCS. -/
def hostFrame (key : List Byte) (sess seq : Nat) (msg : List Byte) : List Byte :=
  have head := hostHead sess seq msg.length
  have ct := gcmStream key (zcpIv 0 sess seq) 0 msg
  zcpPad (head ++ (ct ++ gcmTagBytes key (zcpIv 0 sess seq) (head.drop 14) ct))

theorem hostHead_length (sess seq len : Nat) : (hostHead sess seq len).length = 30 := by simp [hostHead, zeros]

/-- A field of the header, whatever follows. -/
theorem slice_hostHead (sess seq len o n : Nat) (l : List Byte) (h : o + n ≤ 30) :
    slice (hostHead sess seq len ++ l) o n = slice (hostHead sess seq len) o n := by
  have hl := hostHead_length sess seq len
  simp only [slice]
  rw [List.drop_append_of_le_length (by omega), List.take_append_of_le_length (by simp; omega)]

/-- The fields of the header read as they were written. -/
theorem hostHead_fields (sess seq len : Nat) (l : List Byte) (h1 : sess < 256) (h2 : seq < 2 ^ 64) (h3 : len < 2 ^ 32) :
    beAt (hostHead sess seq len ++ l) 12 2 = 0x88B5 ∧ byteAt (hostHead sess seq len ++ l) 14 = 1 ∧ byteAt (hostHead sess seq len ++ l) 15 = 1 ∧
      zcpSess (hostHead sess seq len ++ l) = sess ∧ zcpSeq (hostHead sess seq len ++ l) = seq ∧ beAt (hostHead sess seq len ++ l) 26 4 = len := by
  have a1 : slice (hostHead sess seq len) 12 2 = beBytes 2 0x88B5 := by rfl
  have a2 : slice (hostHead sess seq len) 14 1 = beBytes 1 1 := by rfl
  have a3 : slice (hostHead sess seq len) 15 1 = beBytes 1 1 := by rfl
  have a4 : slice (hostHead sess seq len) 16 1 = beBytes 1 sess := by rfl
  have a5 : slice (hostHead sess seq len) 18 8 = beBytes 8 seq := by rfl
  have a6 : slice (hostHead sess seq len) 26 4 = beBytes 4 len := by rfl
  refine ⟨?_, ?_, ?_, ?_, ?_, ?_⟩ <;>
    simp only [zcpSess, zcpSeq, byteAt, beAt] <;> rw [slice_hostHead _ _ _ _ _ _ (by decide)] <;>
    simp only [a1, a2, a3, a4, a5, a6, beNat_beBytes] <;> omega

/-- An open session opens a frame that its host built, to the message in it. -/
theorem Chip.zcpOpens_hostFrame (c : Chip) (sess seq : Nat) (msg : List Byte) (ho : c.sessOpen sess = true) (h1 : sess < 256)
    (h2 : seq < 2 ^ 64) (h3 : 12 ≤ msg.length) (h4 : msg.length ≤ 16334) :
    c.zcpOpens (hostFrame ((c.sess sess).keys.take 32) sess seq msg) = some (zcpMsgOf msg) := by
  simp only [hostFrame, zcpPad, List.append_assoc]
  generalize hk : (c.sess sess).keys.take 32 = key
  generalize hct : gcmStream key (zcpIv 0 sess seq) 0 msg = ct
  have hcl : ct.length = msg.length := by rw [← hct]; simp
  generalize htg : gcmTagBytes key (zcpIv 0 sess seq) ((hostHead sess seq msg.length).drop 14) ct = tg
  have htl : tg.length = 16 := by rw [← htg]; simp
  generalize hz : zeros (60 - (hostHead sess seq msg.length ++ (ct ++ tg)).length) = z
  have hl := hostHead_length sess seq msg.length
  obtain ⟨f1, f2, f3, f4, f5, f6⟩ := hostHead_fields sess seq msg.length (ct ++ (tg ++ z)) h1 h2 (by omega)
  have s1 : slice (hostHead sess seq msg.length ++ (ct ++ (tg ++ z))) 30 msg.length = ct := by
    rw [slice, List.drop_left' hl, List.take_left' hcl]
  have s2 : slice (hostHead sess seq msg.length ++ (ct ++ (tg ++ z))) (30 + msg.length) 16 = tg := by
    rw [slice, ← List.append_assoc, List.drop_left' (by simp [hl, hcl]), List.take_left' htl]
  have s3 : slice (hostHead sess seq msg.length ++ (ct ++ (tg ++ z))) 14 16 = (hostHead sess seq msg.length).drop 14 := by
    rw [slice_hostHead _ _ _ _ _ _ (by decide), slice, List.take_of_length_le (by simp [hl])]
  have hf : zcpForm 1 (hostHead sess seq msg.length ++ (ct ++ (tg ++ z))) = true := by
    simp only [zcpForm, f2, f3, f6, decide_eq_true_eq, List.length_append, hl, hcl, htl, true_and]
    omega
  simp only [Chip.zcpOpens, f4, f5, f6, hk, s1, s2, s3, hf, ho, htg, and_self, if_true]
  rw [← hct, gcmStream_twice]

/-- What is read of a frame of the host without its key, and how long it is. -/
theorem hostFrame_fields (key : List Byte) (sess seq : Nat) (msg : List Byte) (h1 : sess < 256) (h2 : seq < 2 ^ 64) (h3 : msg.length < 2 ^ 32) :
    beAt (hostFrame key sess seq msg) 12 2 = 0x88B5 ∧ zcpSess (hostFrame key sess seq msg) = sess ∧ zcpSeq (hostFrame key sess seq msg) = seq ∧
      (hostFrame key sess seq msg).length = max 60 (46 + msg.length) := by
  have hl := hostHead_length sess seq msg.length
  simp only [hostFrame, zcpPad, List.append_assoc]
  obtain ⟨f1, -, -, f4, f5, -⟩ := hostHead_fields sess seq msg.length _ h1 h2 h3
  refine ⟨f1, f4, f5, ?_⟩
  simp only [List.length_append, hl, gcmStream_length, gcmTagBytes_length, zeros, List.length_replicate]
  omega

theorem zcpMessage_length (typ flags tag st index detail : Nat) (body : List Byte) :
    (zcpMessage typ flags tag st index detail body).length = 12 + body.length := by
  simp [zcpMessage]; omega

theorem zcpMsgOf_zcpMessage (typ flags tag st index detail : Nat) (body : List Byte) (h1 : typ < 256) (h2 : flags < 256) (h3 : tag < 65536) :
    zcpMsgOf (zcpMessage typ flags tag st index detail body) = ⟨typ, flags, tag, body⟩ := by
  simp [zcpMsgOf, zcpMessage, byteAt, half, beAt, slice, beBytes, beNat]
  omega

end Sys2Proof.Machine

namespace Sys2Proof.Safety

open Sys2Proof Sys2Proof.Machine

/-- A request frame that a host builds under the key of an open session is one that the session accepts and begins, where the link takes it,
its SEQ is new and nothing waits. -/
theorem requestOk_hostFrame (c : Chip) (sess seq typ flags tag : Nat) (body : List Byte) (key : List Byte)
    (hk : (c.sess sess).keys.take 32 = key)
    (h : c.hostClear = true ∧ c.hp.txWait = [] ∧ c.sessOpen sess = true ∧ (c.sess sess).fresh seq = true ∧
      (c.sess sess).kept.find? (fun k => decide (k.typ = typ ∧ k.tag = tag)) = none ∧ (c.sess sess).queue = [] ∧ (c.sess sess).cur = none)
    (b : sess < 256 ∧ seq < 2 ^ 64 ∧ typ < 256 ∧ flags < 256 ∧ tag < 65536 ∧ bit flags 0 = false ∧ body.length ≤ 16322) :
    requestOk c (hostFrame key sess seq (zcpMessage typ flags tag 0 0 0 body)) ⟨typ, flags, tag, body⟩ typ := by
  obtain ⟨h1, h2, h3, h4, h5, h6, h7⟩ := h
  obtain ⟨b1, b2, b3, b4, b5, b6, b7⟩ := b
  have hl := zcpMessage_length typ flags tag 0 0 0 body
  have ho := Chip.zcpOpens_hostFrame c sess seq (zcpMessage typ flags tag 0 0 0 body) h3 b1 b2 (by omega) (by omega)
  rw [hk, zcpMsgOf_zcpMessage _ _ _ _ _ _ _ b3 b4 b5] at ho
  obtain ⟨f1, f2, f3, f4⟩ := hostFrame_fields key sess seq (zcpMessage typ flags tag 0 0 0 body) b1 b2 (by omega)
  exact ⟨h1, h2, by omega, by omega, f1, ho, rfl, b6, by rw [f2, f3]; exact h4, by rw [f2]; exact h5, by rw [f2]; exact h6,
    by rw [f2]; exact h7⟩

end Sys2Proof.Safety
end

