-- ==== Sys2Proof/WellFormed.lean ====
section
/-! DEFINITION. Which commands are well formed: operand lists of the length that the spec gives them. -/

namespace Sys2Proof

/-- A command whose operands have the lengths that the spec gives them: nine monitors of a region (R20), the header and the message
area of a downstream frame (R94), the header and at most 16,383 data bytes of a carriage unit (R101), the 24 bytes of a TOD message
(R279), the seven temperature sensors (R423). -/
def Instr.wf (i : Instr) : Bool :=
  match i with
  | .paceWindowEnd _ _ meas => decide (meas.length = 9)
  | .psyncCandidate _ _ _ w => decide (w.length = 8)
  | .candidateTest _ _ _ w => decide (w.length = 8)
  | .dsFrame _ _ sync hdr area => decide (sync.length = 8) && decide (hdr.length = 32) && decide (area.length = 8192)
  | .carriageUnit _ _ hdr data => decide (hdr.length = 8) && decide (data.length ≤ 16383)
  | .todRxMsg _ bytes => decide (bytes.length = 24)
  | .thermalCheck _ temps => decide (temps.length = 7)
  | _ => true

end Sys2Proof
end

