-- ==== Sys2Proof/Tests/Slice0.lean ====
section
/-! SUPPORT. A state and operands that meet the hypotheses of each clause of the statements, refusals of ill-formed commands, and a few
single steps and digests with results taken from the spec. -/

namespace Sys2Proof.Tests

open Sys2Proof Sys2Proof.Machine Sys2Proof.Safety

set_option Elab.async false
set_option linter.unusedVariables false

/-- The state after reset with some register fields set. -/
def st (l : List (Fld × Nat × Nat)) : State := { State.reset with chip := l.foldl (fun c w => c.wg w.1 w.2.1 w.2.2) Chip.reset }
def doms (s : State) : State := { s with chip := [6, 8, 9, 10, 11, 12, 13, 14, 15, 16].foldl (fun c d => c.wg R.PWR_DOM_STAT_PSTATE d 2) s.chip }

/-- Session 0 established with every right, over a link that is up. -/
def stSess : State :=
  { st [(R.PWR_DOM_STAT_PSTATE, 5, 2), (R.HST_STAT_LINK, 0, 2), (R.HST_SESS_STAT_STATE, 0, 2)] with chip.hp.sess := [(0, { Sess.reset with rights := 0xFFFF })] }
/-- A request frame of session 0 with TAG 7 and SEQ 1, under the keys that it has in `stSess`. -/
def hf (typ : Nat) (body : List Byte) : List Byte := hostFrame [] 0 1 (zcpMessage typ 0 7 0 0 0 body)
/-- A clear frame with a message (R328). -/
def clearFrame (sess typ : Nat) (body : List Byte) : List Byte :=
  zcpPad (zeros 12 ++ beBytes 2 0x88B5 ++ [1, 0] ++ beBytes 1 sess ++ zeros 9 ++ beBytes 4 (12 + body.length) ++ zcpMessage typ 0 0 0 0 0 body)
/-- What such a frame asks for. -/
def hm (typ : Nat) (body : List Byte) : ZcpMsg := ⟨typ, 0, 7, body⟩
/-- Such a frame is a request that session 0 accepts and begins, where the conditions that do not need its tag hold. -/
theorem hf_ok (s : State) (typ : Nat) (body : List Byte) (hk : ((chipAt s 0).sess 0).keys.take 32 = [])
    (h : (chipAt s 0).hostClear = true ∧ (chipAt s 0).hp.txWait = [] ∧ (chipAt s 0).sessOpen 0 = true ∧ ((chipAt s 0).sess 0).fresh 1 = true ∧
      ((chipAt s 0).sess 0).kept.find? (fun k => decide (k.typ = typ ∧ k.tag = 7)) = none ∧ ((chipAt s 0).sess 0).queue = [] ∧
      ((chipAt s 0).sess 0).cur = none ∧ typ < 256 ∧ body.length ≤ 16322) :
    requestOk (chipAt s 0) (hf typ body) (hm typ body) typ := by
  obtain ⟨h1, h2, h3, h4, h5, h6, h7, h8, h9⟩ := h
  exact requestOk_hostFrame (chipAt s 0) 0 1 typ 0 7 body [] hk ⟨h1, h2, h3, h4, h5, h6, h7⟩
    ⟨by omega, by omega, h8, by omega, by omega, by decide, h9⟩
/-- A frame of a local port, number `id`, all of whose bytes are there. -/
def fr (id : Nat) (b : List Byte) : Frame :=
  { id := id, bytes := b, len := b.length + 4, known := true, origin := 0, wl := 0, src := 3, blk := 0, pass := 0, gen := 0, bus := 0,
    tsNs := 0, tsFrac := 0, tsOk := false, entry := true, role := 0, grown := 0, claim := 0, polCh := 0, stomp := false }
/-- An EVENT with RESP that names EVT_SEQ 3, in session 0, and what it says. -/
def ackFrame : List Byte := hostFrame [] 0 1 (zcpMessage 0x0A 1 7 0 0 0 (beBytes 4 3))
def ackMsg : ZcpMsg := ⟨0x0A, 1, 7, beBytes 4 3⟩
/-- Session 0 waits for the acknowledgement of EVT_SEQ 3. -/
def stAck : State := { stSess with chip.hp.sess := [(0, { Sess.reset with rights := 0xFFFF, unacked := [⟨3, 7, []⟩] })] }
theorem ackFrame_opens : (chipAt stAck 0).zcpOpens ackFrame = some ackMsg := by
  have h := Chip.zcpOpens_hostFrame (chipAt stAck 0) 0 1 (zcpMessage 0x0A 1 7 0 0 0 (beBytes 4 3)) (by decide +kernel) (by decide) (by decide)
    (by decide) (by decide)
  rw [zcpMsgOf_zcpMessage _ _ _ _ _ _ _ (by decide) (by decide) (by decide)] at h
  exact h
theorem ackFrame_ok : 60 ≤ ackFrame.length ∧ ackFrame.length ≤ 16380 ∧ beAt ackFrame 12 2 = 0x88B5 ∧ (chipAt stAck 0).zcpOpens ackFrame = some ackMsg ∧
    ackMsg.typ = 0x0A ∧ bit ackMsg.flags 0 = true ∧ ackMsg.body = beBytes 4 3 ∧ 3 < 2 ^ 32 ∧
    ((stAck.chip).sess (zcpSess ackFrame)).fresh (zcpSeq ackFrame) = true := by
  obtain ⟨h1, h2, h3, h4⟩ := hostFrame_fields [] 0 1 (zcpMessage 0x0A 1 7 0 0 0 (beBytes 4 3)) (by decide) (by decide) (by decide)
  refine ⟨?_, ?_, h1, ackFrame_opens, rfl, rfl, rfl, by decide, ?_⟩
  · show 60 ≤ (hostFrame _ _ _ _).length
    rw [h4]; decide
  · show (hostFrame _ _ _ _).length ≤ 16380
    rw [h4]; decide
  · show (stAck.chip.sess (zcpSess (hostFrame _ _ _ _))).fresh (zcpSeq (hostFrame _ _ _ _)) = true
    rw [h2, h3]; decide +kernel

/-! ## Ill-formed commands -/

/-- Eight monitors in place of nine (R20). -/
theorem test_wf_pace : Instr.wf (.paceWindowEnd 0 0 (List.replicate 8 0)) = false := by decide +kernel
/-- A TOD message of 23 bytes (R279). -/
theorem test_wf_tod : Instr.wf (.todRxMsg 0 (List.replicate 23 (0, 0))) = false := by decide +kernel
/-- A frame header of 31 bytes, a message area of none, and a PSYNC word of 7 bytes (R94). -/
theorem test_wf_frame_header : Instr.wf (.dsFrame 0 0 (zeros 8) (zeros 31) (zeros 8192)) = false := by decide +kernel
theorem test_wf_frame_area : Instr.wf (.dsFrame 0 0 (zeros 8) (zeros 32) []) = false := by decide +kernel
theorem test_wf_psync : Instr.wf (.psyncCandidate 0 0 0 (zeros 7)) = false := by decide +kernel
theorem test_wf_candidate : Instr.wf (.candidateTest 0 0 0 (zeros 7)) = false := by decide +kernel
/-- A unit header of 7 bytes (R101). -/
theorem test_wf_unit_header : Instr.wf (.carriageUnit 0 0 (zeros 7) []) = false := by decide +kernel
theorem test_wf_unit : Instr.wf (.carriageUnit 0 0 (zeros 8) []) = true := by decide +kernel
/-- Six temperatures (R423). -/
theorem test_wf_temps : Instr.wf (.thermalCheck 0 (List.replicate 6 none)) = false := by decide +kernel

/-! ## Digests, with published check values -/

/-- The check value of CRC-32C over the nine digits. -/
theorem test_crc32c : crc32c (ascii "123456789") = 0xE3069283 := by decide +kernel
/-- The first bytes of SHA3-512 of the empty message (FIPS 202). -/
theorem test_sha3 : (sha3_512 []).take 4 = [0xA6, 0x9F, 0x73, 0xCC] := by decide +kernel

/-! ## Single steps -/

/-- The handshake watchdog is 1 µs by default (R38), and the chip has its part number (R469). -/
theorem test_reset_hswd : State.reset.chip.rg R.HLT_HSWD_TIME 0 = 10 := by decide +kernel
theorem test_reset_mode : State.reset.chip.rg R.TRK_MODE_CODE 0 = 0 := by decide +kernel
/-- A cold reset needs PWR_GOOD for 1 ms (R444): before that the command changes no phase. -/
theorem test_cold_reset_early : (match exec (.coldResetDone 999999999) { State.reset with chip.el.phase := 4 } with
    | .next u => u.chip.el.phase
    | _ => 0) = 4 := by decide +kernel
theorem test_cold_reset : (match exec (.coldResetDone 1000000000) { State.reset with chip.el.phase := 4 } with
    | .next u => u.chip.el.phase
    | _ => 0) = 5 := by decide +kernel
/-- A task that is FREE is not activated: the core takes an access fault (R362). -/
theorem test_activate_free : (match exec (.taskActivate 0 2 5) State.reset with
    | .next u => u.chip.rg R.MCU_CORE_FAULT_VALID 2
    | _ => 0) = 1 := by decide +kernel
/-- The step runs the command at the front. -/
theorem test_step_front : (match step { State.reset with pending := [.entropyFail 0] } with
    | .next u => u.chip.rg R.SEC_EVT_ENT_FAIL 0
    | _ => 0) = 1 := by decide +kernel

/-! ## AES-GCM frames of the host port (R330) -/

/-- A frame opened under its key says what was sealed (the laws of `Laws/Zcp.lean` on one frame). -/
theorem test_host_frame : (chipAt stSess 0).zcpOpens (hf 0x84 []) = some (hm 0x84 []) :=
  (hf_ok stSess 0x84 [] (by decide +kernel) (by decide +kernel)).2.2.2.2.2.1

/-! Witnesses of `PaceWindowCommands`. -/

theorem wit_paceWindowEnd : ∃ (t : Nat) (n : Fin 4) (meas : List Nat) (low : Nat) (s : State), ready s ∧ (chipAt s t).domOn (9 + n) = true ∧ Tab.get 0 s.chip.st.paceAt n ≠ (chipAt s t).paceWindow ∧ (∀ m : Fin 8, s.chip.monitorOn (8 * n + m) = true) ∧ low = ((List.range 8).map (fun m => meas.getD m 0)).foldl min (meas.getD 8 0) ∧ low < 65536 ∧ s.chip.rg R.HLT_PACE_REQ_REQ n ≤ low ∧ s.chip.rg R.HLT_PACE_STAT_BELOW n = 0 :=
  ⟨100000000, 2, [900, 800, 801, 802, 803, 804, 805, 806, 807], 800, st ([(R.PWR_DOM_STAT_PSTATE, 11, 2), (R.HLT_PACE_REQ_REQ, 2, 700)] ++ (List.range 8).map (fun m => (R.PWR_ISL_HOLD_P_STATE, 16 + m, 2))), by decide +kernel⟩

theorem wit_paceWindowEnd_1 : ∃ (t : Nat) (n : Fin 4) (meas : List Nat) (low : Nat) (s : State), ready s ∧ (chipAt s t).domOn (9 + n) = true ∧ Tab.get 0 s.chip.st.paceAt n ≠ (chipAt s t).paceWindow ∧ (∀ m : Fin 8, s.chip.monitorOn (8 * n + m) = true) ∧ low = ((List.range 8).map (fun m => meas.getD m 0)).foldl min (meas.getD 8 0) ∧ low < 65536 ∧ low < s.chip.rg R.HLT_PACE_REQ_REQ n ∧ Tab.get 0 s.chip.st.belowRun n < 2 ∧ s.chip.rg R.HLT_PACE_STAT_BELOW n = 0 :=
  ⟨100000000, 2, [900, 800, 801, 802, 803, 804, 805, 806, 807], 800, st ([(R.PWR_DOM_STAT_PSTATE, 11, 2), (R.HLT_PACE_REQ_REQ, 2, 900)] ++ (List.range 8).map (fun m => (R.PWR_ISL_HOLD_P_STATE, 16 + m, 2))), by decide +kernel⟩

theorem wit_paceWindowEnd_2 : ∃ (t : Nat) (n : Fin 4) (meas : List Nat) (low : Nat) (s : State), ready s ∧ (chipAt s t).domOn (9 + n) = true ∧ Tab.get 0 s.chip.st.paceAt n ≠ (chipAt s t).paceWindow ∧ (∀ m : Fin 8, s.chip.monitorOn (8 * n + m) = true) ∧ low = ((List.range 8).map (fun m => meas.getD m 0)).foldl min (meas.getD 8 0) ∧ low < 65536 ∧ low < s.chip.rg R.HLT_PACE_REQ_REQ n ∧ Tab.get 0 s.chip.st.belowRun n = 2 ∧ s.chip.rg R.HLT_PACE_STAT_BELOW n = 0 :=
  ⟨100000000, 2, [900, 800, 801, 802, 803, 804, 805, 806, 807], 800, { st ([(R.PWR_DOM_STAT_PSTATE, 11, 2), (R.HLT_PACE_REQ_REQ, 2, 900)] ++ (List.range 8).map (fun m => (R.PWR_ISL_HOLD_P_STATE, 16 + m, 2))) with chip.st.belowRun := [(2, 2)] }, by decide +kernel⟩

theorem wit_paceWindowEnd_3 : ∃ (t : Nat) (n : Fin 4) (meas : List Nat) (low : Nat) (s : State), ready s ∧ (chipAt s t).domOn (9 + n) = true ∧ Tab.get 0 s.chip.st.paceAt n ≠ (chipAt s t).paceWindow ∧ (∀ m : Fin 8, s.chip.monitorOn (8 * n + m) = true) ∧ low = ((List.range 8).map (fun m => meas.getD m 0)).foldl min (meas.getD 8 0) ∧ low < 65536 ∧ s.chip.rg R.HLT_PACE_REQ_REQ n ≤ low ∧ Tab.get 0 s.chip.st.aboveRun n = 2 :=
  ⟨100000000, 2, [900, 800, 801, 802, 803, 804, 805, 806, 807], 800, { st ([(R.PWR_DOM_STAT_PSTATE, 11, 2), (R.HLT_PACE_REQ_REQ, 2, 700), (R.HLT_PACE_STAT_BELOW, 2, 1)] ++ (List.range 8).map (fun m => (R.PWR_ISL_HOLD_P_STATE, 16 + m, 2))) with chip.st.aboveRun := [(2, 2)] }, by decide +kernel⟩

theorem wit_paceWindowEnd_4 : ∃ (t : Nat) (n : Fin 4) (meas : List Nat) (s : State), ready s ∧ (chipAt s t).domOn (9 + n) = false ∨ Tab.get 0 s.chip.st.paceAt n = (chipAt s t).paceWindow :=
  ⟨0, 2, [], State.reset, by decide +kernel⟩

/-! Witnesses of `ErrorCommands`. -/

theorem wit_hsTimeout : ∃ (t : Nat) (b : Fin 32) (k : Fin 11) (stage : Nat) (fails : Fin 4) (since : Nat) (s : State), ready s ∧ fails.val < 3 ∧ since + s.chip.rg R.HLT_HSWD_TIME 0 * 100000 ≤ max s.chip.now t ∧ s.chip.firstEmpty (recCell b k) = true :=
  ⟨1000000, 3, 2, 7, 1, 0, State.reset, by decide +kernel⟩

theorem wit_hsTimeout_1 : ∃ (t : Nat) (b : Fin 32) (k : Fin 11) (stage : Nat) (fails : Fin 4) (since : Nat) (more : List HwErr) (s : State), ready s ∧ max s.chip.now t < since + s.chip.rg R.HLT_HSWD_TIME 0 * 100000 :=
  ⟨999999, 3, 2, 7, 1, 0, [], State.reset, by decide +kernel⟩

theorem wit_spareTakeover : ∃ (t : Nat) (b : Fin 32) (k : Fin 11) (sl : Fin 4) (x : Takeover) (s : State), ready s ∧ k.val < 5 ∧ s.chip.st.takeovers.find? (fun x => decide (x.blk = b.val ∧ x.cell = k.val ∧ x.boundaries = 0)) = some x ∧ s.chip.slotCell b sl = k :=
  ⟨0, 3, 1, 1, ⟨3, 1, 4, 0⟩, { State.reset with chip.st.takeovers := [⟨3, 1, 4, 0⟩] }, by decide +kernel⟩

theorem wit_errResolve : ∃ (t : Nat) (n : Nat) (s : State), ready s ∧ s.chip.domOn 2 = true ∧ n ≠ recChip ∧ s.chip.rg R.HLT_ERR_FIRST_HDR_VALID n = 1 ∧ s.chip.rg R.HLT_ERR_FIRST_HDR_STATE n = 2 :=
  ⟨0, 64, st [(R.HLT_ERR_FIRST_HDR_VALID, 64, 1), (R.HLT_ERR_FIRST_HDR_STATE, 64, 2)], by decide +kernel⟩

theorem wit_errResolve_1 : ∃ (t : Nat) (s : State), ready s ∧ s.chip.domOn 2 = true ∧ s.chip.rg R.HLT_ERR_FIRST_HDR_VALID recChip = 1 ∧ s.chip.rg R.HLT_ERR_FIRST_HDR_STATE recChip = 2 ∧ s.chip.latestEmpty recChip = true ∧ s.chip.mode = 0 :=
  ⟨0, st [(R.HLT_ERR_FIRST_HDR_VALID, 0, 1), (R.HLT_ERR_FIRST_HDR_STATE, 0, 2)], by decide +kernel⟩

theorem wit_errResolve_2 : ∃ (t : Nat) (n : Nat) (s : State), ready s ∧ s.chip.domOn 2 = true ∧ s.chip.rg R.HLT_ERR_FIRST_HDR_VALID n = 0 ∨ s.chip.rg R.HLT_ERR_FIRST_HDR_STATE n ≠ 2 :=
  ⟨0, 64, State.reset, by decide +kernel⟩

/-! Witnesses of `LoaderCommands`. -/

theorem wit_almLoadStart : ∃ (t : Nat) (sess : Fin 5) (v : Nat) (s : State), ready s ∧ s.chip.domOn 2 = true ∧ s.chip.loadBusy = false ∧ bits v 4 2 ≠ 3 :=
  ⟨0, 1, 0x11, State.reset, by decide +kernel⟩

theorem wit_almReadDone : ∃ (t : Nat) (a n : Nat) (s : State), ready s ∧ s.chip.rg R.ALM_LOAD_STAT_STATE 0 = 1 ∧ s.chip.alm.load.src = 0 ∧ s.chip.alm.load.addr = a ∧ (chipAt s t).ddrOk = true ∧ s.chip.mode = 0 ∧ byteAt (s.mem.ddrRead a 32) 6 = 0 ∧ n = min (word (s.mem.ddrRead a 32) 16) maxImage ∧ a + 32 ≤ s.chip.ddrCap ∧ a + n ≤ s.chip.ddrCap :=
  ⟨0, 4096, 7376, { st [(R.ALM_LOAD_STAT_STATE, 0, 1), (R.PWR_DOM_STAT_PSTATE, 4, 2), (R.MEM_DDR_STAT_TRAINED, 0, 1), (R.MEM_DDR_STAT_CAP, 0, 8)] with chip.alm.load.addr := 4096, mem.ddr := [(4114, 0x1C), (4115, 0xD0)] }, by decide +kernel⟩

theorem wit_almVerifyDone : ∃ (t : Nat) (img : List Byte) (s : State), ready s ∧ s.chip.rg R.ALM_LOAD_STAT_STATE 0 = 2 ∧ img = s.mem.ddrRead s.chip.alm.load.addr s.chip.alm.load.len :=
  ⟨0, [], st [(R.ALM_LOAD_STAT_STATE, 0, 2)], by decide +kernel⟩

theorem wit_almPrepareDone : ∃ (t : Nat) (p : Prepared) (slot : Nat) (s : State), ready s ∧ s.chip.alm.load.prep = some p ∧ p.full = false ∧ s.chip.rg R.ALM_LOAD_STAT_STATE 0 = 3 ∧ s.chip.txnFree = some slot :=
  ⟨0, ⟨false, 2, 1, [], [], [], [], [], 0⟩, 0, { st [(R.ALM_LOAD_STAT_STATE, 0, 3)] with chip.alm.load.prep := some ⟨false, 2, 1, [], [], [], [], [], 0⟩ }, by decide +kernel⟩

theorem wit_almSlotFreed : ∃ (t : Nat) (p : Prepared) (slot : Nat) (s : State), ready s ∧ s.chip.alm.load.prep = some p ∧ p.full = false ∧ s.chip.alm.load.waiting = true ∧ s.chip.mode ≠ 10 ∧ s.chip.txnFree = some slot :=
  ⟨0, ⟨false, 2, 1, [], [], [], [], [], 0⟩, 0, { st [(R.ALM_LOAD_STAT_STATE, 0, 3)] with chip.alm.load.prep := some ⟨false, 2, 1, [], [], [], [], [], 0⟩, chip.alm.load.waiting := true }, by decide +kernel⟩

theorem wit_almSlotTimeout : ∃ (t : Nat) (s : State), ready s ∧ s.chip.alm.load.waiting = true ∧ s.chip.alm.load.full = false ∧ s.chip.alm.load.at_ + 2 * secPs ≤ max s.chip.now t :=
  ⟨2000000000000, { st [(R.ALM_LOAD_STAT_STATE, 0, 3)] with chip.alm.load.waiting := true }, by decide +kernel⟩

theorem wit_almLoadCancel : ∃ (t : Nat) (s : State), ready s ∧ s.chip.domOn 2 = true ∧ s.chip.loadBusy = true ∧ s.chip.alm.txns = [] ∧ s.chip.alm.load.full = false :=
  ⟨0, st [(R.ALM_LOAD_STAT_STATE, 0, 2)], by decide +kernel⟩

theorem wit_almArbAdvance : ∃ (t : Nat) (v : Nat) (s : State), ready s ∧ s.chip.domOn 2 = true ∧ bit v 16 = true ∧ s.chip.mode ≠ 0 ∧ s.chip.arbCount < bits v 8 6 ∧ bits v 8 6 ≤ min (Tab.get 0 s.chip.alm.sectGen 9) (Tab.get 0 s.chip.alm.sectGen 10) / 0x04000000 :=
  ⟨0, 0x10100, { st [(R.TRK_MODE_CODE, 0, 5)] with chip.alm.sectGen := [(9, 0x04000000), (10, 0x04000000)] }, by decide +kernel⟩

/-! Witnesses of `TransactionCommands`. -/

theorem wit_zcpBegin : ∃ (t : Nat) (l : List Byte) (q : ZcpMsg) (slot : Nat) (s : State), ready s ∧ requestOk (chipAt s t) l q 5 ∧ s.chip.hasRight (zcpSess l) 8 = true ∧ q.body = [] ∧ s.chip.txnFree = some slot :=
  ⟨0, hf 5 ([]), hm 5 ([]), 0, stSess, by decide +kernel, hf_ok (stSess) 5 ([]) (by decide +kernel) (by decide +kernel), by decide +kernel⟩

theorem wit_zcpStage : ∃ (t : Nat) (l : List Byte) (q : ZcpMsg) (x : Txn) (a v : Nat) (s : State), ready s ∧ requestOk (chipAt s t) l q 6 ∧ s.chip.hasRight (zcpSess l) 8 = true ∧ s.chip.hasRight (zcpSess l) 2 = true ∧ q.body = beBytes 2 x.id ++ zeros 2 ++ beBytes 4 a ++ beBytes 4 v ∧ x.slot < 64 ∧ x.seq < 1024 ∧ s.chip.txnBy (zcpSess l) x.id = some x ∧ x.pending = false ∧ x.writes = [] ∧ 0x40000000 ≤ a ∧ a < 0x4003FFFC ∧ a % 4 = 0 ∧ v < 2 ^ 32 :=
  ⟨0, hf 6 (beBytes 2 3 ++ zeros 2 ++ beBytes 4 0x40000010 ++ beBytes 4 5), hm 6 (beBytes 2 3 ++ zeros 2 ++ beBytes 4 0x40000010 ++ beBytes 4 5), ⟨3, 0, 0, .host, false, [], 0, 0, 0, false⟩, 0x40000010, 5, { stSess with chip.alm.txns := [⟨3, 0, 0, .host, false, [], 0, 0, 0, false⟩] }, by decide +kernel, hf_ok ({ stSess with chip.alm.txns := [⟨3, 0, 0, .host, false, [], 0, 0, 0, false⟩] }) 6 (beBytes 2 3 ++ zeros 2 ++ beBytes 4 0x40000010 ++ beBytes 4 5) (by decide +kernel) (by decide +kernel), by decide +kernel⟩

theorem wit_zcpCommit : ∃ (t : Nat) (l : List Byte) (q : ZcpMsg) (x : Txn) (s : State), ready s ∧ requestOk (chipAt s t) l q 7 ∧ s.chip.hasRight (zcpSess l) 8 = true ∧ q.body = beBytes 2 x.id ++ [0] ++ zeros 13 ∧ x.slot < 64 ∧ x.seq < 1024 ∧ s.chip.txnBy (zcpSess l) x.id = some x ∧ x.pending = false ∧ x.writes = [] ∧ x.origin = .host :=
  ⟨0, hf 7 (beBytes 2 3 ++ [0] ++ zeros 13), hm 7 (beBytes 2 3 ++ [0] ++ zeros 13), ⟨3, 0, 0, .host, false, [], 0, 0, 0, false⟩, { stSess with chip.alm.txns := [⟨3, 0, 0, .host, false, [], 0, 0, 0, false⟩] }, by decide +kernel, hf_ok ({ stSess with chip.alm.txns := [⟨3, 0, 0, .host, false, [], 0, 0, 0, false⟩] }) 7 (beBytes 2 3 ++ [0] ++ zeros 13) (by decide +kernel) (by decide +kernel), by decide +kernel⟩

theorem wit_zcpAbort : ∃ (t : Nat) (l : List Byte) (q : ZcpMsg) (x : Txn) (s : State), ready s ∧ requestOk (chipAt s t) l q 8 ∧ s.chip.hasRight (zcpSess l) 8 = true ∧ q.body = beBytes 2 x.id ++ zeros 2 ∧ x.slot < 64 ∧ x.seq < 1024 ∧ s.chip.txnBy (zcpSess l) x.id = some x ∧ x.origin = .host ∧ x.notify = false :=
  ⟨0, hf 8 (beBytes 2 3 ++ zeros 2), hm 8 (beBytes 2 3 ++ zeros 2), ⟨3, 0, 0, .host, false, [], 0, 0, 0, false⟩, { stSess with chip.alm.txns := [⟨3, 0, 0, .host, false, [], 0, 0, 0, false⟩] }, by decide +kernel, hf_ok ({ stSess with chip.alm.txns := [⟨3, 0, 0, .host, false, [], 0, 0, 0, false⟩] }) 8 (beBytes 2 3 ++ zeros 2) (by decide +kernel) (by decide +kernel), by decide +kernel⟩

theorem wit_commitPoint : ∃ (t : Nat) (x : Txn) (a v : Nat) (s : State), ready s ∧ s.chip.alm.txns = [x] ∧ x.pending = true ∧ x.kind = 2 ∧ timePoint x.value ≤ (chipAt s t).lNow ∧ x.origin = .host ∧ x.notify = false ∧ x.writes = [(a, v)] ∧ 0x40000000 ≤ a ∧ a < 0x4003FFFC ∧ a % 4 = 0 ∧ (chipAt s t).domOn 6 = true :=
  ⟨5000000, ⟨3, 0, 0, .host, true, [(0x40000010, 5)], 2, 1, 0, false⟩, 0x40000010, 5, { st [(R.PWR_DOM_STAT_PSTATE, 6, 2)] with chip.alm.txns := [⟨3, 0, 0, .host, true, [(0x40000010, 5)], 2, 1, 0, false⟩] }, by decide +kernel⟩

theorem wit_txnStatusExpire : ∃ (t : Nat) (d : TxnDone) (s : State), ready s ∧ d ∈ s.chip.alm.done ∧ d.time + secPs ≤ max s.chip.now t :=
  ⟨2000000000000, ⟨3, 0, 3, 0, 0, 0, 0, 0, 5⟩, { State.reset with chip.alm.done := [⟨3, 0, 3, 0, 0, 0, 0, 0, 5⟩] }, by decide +kernel⟩

/-! Witnesses of `OctaveCommands`. -/

theorem wit_octaveBoundary : ∃ (t : Nat) (mismatch : Bool) (s : State), ready s ∧ (chipAt s t).octDue.2 ≤ 0 ∧ s.chip.alm.txns = [] ∧ (chipAt s t).armedSets = [] ∧ s.chip.rg R.HLT_SWAP_STAT_STATE 0 ≠ 1 ∧ s.chip.pw.remap = none :=
  ⟨1000000000, false, State.reset, by decide +kernel⟩

theorem wit_handoverWindowOpen : ∃ (t : Nat) (s : State), ready s ∧ s.chip.alm.window = false ∧ (chipAt s t).octDue.2 ≤ octU / 50 :=
  ⟨999000000, State.reset, by decide +kernel⟩

theorem wit_handoverWindowClose : ∃ (t : Nat) (s : State), ready s ∧ s.chip.alm.window = true ∧ (chipAt s t).octOpen = false ∧ s.chip.alm.octAt + 2 * usPs ≤ max s.chip.now t :=
  ⟨2000000, { State.reset with chip.alm.window := true }, by decide +kernel⟩

theorem wit_shadowWrite : ∃ (t : Nat) (who : Fin 20) (k : Fin 16) (v : Nat) (s : State), ready s ∧ who.val < 4 ∧ s.chip.hasRight who 1 = true ∧ (chipAt s t).domOn 8 = true ∧ s.chip.alm.window = false ∧ inBounds (0x20408 + 0x1000 * k) v = true ∧ s.chip.rg R.TRK_US_GH_CTRL_ARM k = 1 :=
  ⟨0, 0, 2, 0x5, { stSess with chip := (((stSess.chip.wg R.PWR_DOM_STAT_PSTATE 8 2).wg R.TRK_US_GH_CTRL_ARM 2 1)) }, by decide +kernel⟩

theorem wit_shadowWriteLand : ∃ (t : Nat) (w : HeldWrite) (k : Fin 16) (v : Nat) (s : State), ready s ∧ s.chip.alm.held = [w] ∧ w.addr = 0x20408 + 0x1000 * k ∧ w.data = v ∧ w.sess = 8 ∧ (chipAt s t).domOn 8 = true ∧ s.chip.alm.window = false ∧ inBounds (0x20408 + 0x1000 * k) v = true :=
  ⟨0, ⟨0x22408, 5, 8⟩, 2, 5, { st [(R.PWR_DOM_STAT_PSTATE, 8, 2)] with chip.alm.held := [⟨0x22408, 5, 8⟩] }, by decide +kernel⟩

/-! Witnesses of `JubileeCommands`. -/

theorem wit_jubEnter : ∃ (t : Nat) (s : State), ready s ∧ s.chip.domOn 2 = true ∧ s.chip.mode = 5 ∧ s.chip.alm.cand = none :=
  ⟨0, st [(R.TRK_MODE_CODE, 0, 5)], by decide +kernel⟩

theorem wit_jubCancel : ∃ (t : Nat) (s : State), ready s ∧ s.chip.domOn 2 = true ∧ s.chip.mode = 10 ∧ s.chip.alm.window = false ∧ s.chip.alm.load.full = false ∧ s.chip.alm.txns = [] :=
  ⟨0, st [(R.TRK_MODE_CODE, 0, 10), (R.ALM_JUB_STAT_STATE, 0, 1)], by decide +kernel⟩

theorem wit_jubOldReleased : ∃ (t : Nat) (s : State), ready s ∧ s.chip.alm.oldHeld = true ∧ s.chip.rg R.ALM_RULE_GEN_LIVE 0 ≤ 1 ∧ s.chip.mc.retiring = [] :=
  ⟨0, { State.reset with chip.alm.oldHeld := true }, by decide +kernel⟩

/-! Witnesses of `ReceiverStartCommands`. -/

theorem wit_dsEnable : ∃ (t : Nat) (k : Fin 16) (v : Nat) (s : State), ready s ∧ s.chip.domOn 8 = true ∧ v < 2 ^ 32 ∧ bit v 0 = true ∧ bit v 1 = true ∧ bit v 2 = false ∧ freqDsOk (bits v 16 16) = true ∧ s.chip.rg R.TRK_DS_CFG_ENABLE k = 0 :=
  ⟨0, 3, 0xFD000003, doms (State.reset), by decide +kernel⟩

theorem wit_dsCold : ∃ (t : Nat) (k : Fin 16) (s : State), ready s ∧ s.chip.domOn 8 = true :=
  ⟨0, 3, doms (State.reset), by decide +kernel⟩

theorem wit_dsOscSettled : ∃ (t : Nat) (k : Fin 16) (s : State), ready s ∧ (chipAt s t).rxOn k = true ∧ (s.chip.eng k).step = 1 :=
  ⟨0, 3, { st [(R.PWR_DOM_STAT_PSTATE, 8, 2), (R.TRK_DS_CFG_ENABLE, 3, 1)] with chip.ds.eng := [(3, { Eng.reset with step := 1 })] }, by decide +kernel⟩

theorem wit_dsDspLocked : ∃ (t : Nat) (k : Fin 16) (cd : Int) (s : State), ready s ∧ (chipAt s t).rxOn k = true ∧ (s.chip.eng k).step = 2 ∧ s.chip.rg R.TRK_DS_STAT_FSTATE k ≠ 3 ∧ s.chip.ds.apsStep = 0 :=
  ⟨0, 3, -5, { st [(R.PWR_DOM_STAT_PSTATE, 8, 2), (R.TRK_DS_CFG_ENABLE, 3, 1)] with chip.ds.eng := [(3, { Eng.reset with step := 2 })] }, by decide +kernel⟩

theorem wit_dsAcqTimeout : ∃ (t : Nat) (k : Fin 16) (s : State), ready s ∧ (chipAt s t).rxOn k = true ∧ 1 ≤ (s.chip.eng k).step ∧ (s.chip.eng k).step ≤ 5 ∧ (s.chip.eng k).at_ + s.chip.dsBound k ≤ max s.chip.now t ∧ s.chip.mode = 0 :=
  ⟨20000000000, 3, { st [(R.PWR_DOM_STAT_PSTATE, 8, 2), (R.TRK_DS_CFG_ENABLE, 3, 1), (R.TRK_MODE_CODE, 0, 0)] with chip.ds.eng := [(3, { Eng.reset with step := 2 })] }, by decide +kernel⟩

theorem wit_psyncCandidate : ∃ (t : Nat) (k : Fin 16) (pos : Nat) (w : List Byte) (s : State), ready s ∧ (chipAt s t).rxOn k = true ∧ psyncDiff w = 0 ∧ s.chip.rg R.TRK_DS_STAT_FSTATE k = 1 ∧ (s.chip.eng k).cands = [] :=
  ⟨0, 3, 77, beBytes 8 psyncWord, st [(R.PWR_DOM_STAT_PSTATE, 8, 2), (R.TRK_DS_CFG_ENABLE, 3, 1), (R.TRK_DS_STAT_FSTATE, 3, 1)], by decide +kernel⟩

theorem wit_psyncCandidate_1 : ∃ (t : Nat) (k : Fin 16) (pos : Nat) (w : List Byte) (s : State), ready s ∧ (chipAt s t).rxOn k = true ∧ psyncDiff w = 0 ∧ s.chip.rg R.TRK_DS_STAT_FSTATE k = 2 ∧ (s.chip.eng k).cands.any (fun x => decide (x.pos = pos)) = false ∧ 4 ≤ (s.chip.eng k).cands.length :=
  ⟨0, 3, 77, beBytes 8 psyncWord, { st [(R.PWR_DOM_STAT_PSTATE, 8, 2), (R.TRK_DS_CFG_ENABLE, 3, 1), (R.TRK_DS_STAT_FSTATE, 3, 2)] with chip.ds.eng := [(3, { Eng.reset with cands := [⟨1, 0⟩, ⟨2, 0⟩, ⟨3, 0⟩, ⟨4, 0⟩] })] }, by decide +kernel⟩

theorem wit_candidateTest : ∃ (t : Nat) (k : Fin 16) (pos : Nat) (w : List Byte) (x : Cand) (s : State), ready s ∧ (chipAt s t).rxOn k = true ∧ s.chip.rg R.TRK_DS_STAT_FSTATE k = 2 ∧ (s.chip.eng k).cands.find? (fun x => decide (x.pos = pos)) = some x ∧ psyncDiff w ≤ 3 ∧ x.passes = 1 :=
  ⟨0, 3, 77, beBytes 8 0xB5E30C9A6F12D47A, ⟨77, 1⟩, { st [(R.PWR_DOM_STAT_PSTATE, 8, 2), (R.TRK_DS_CFG_ENABLE, 3, 1), (R.TRK_DS_STAT_FSTATE, 3, 2)] with chip.ds.eng := [(3, { Eng.reset with cands := [⟨77, 1⟩] })] }, by decide +kernel⟩

/-! Witnesses of `ReceiverFrameCommands`. -/

theorem wit_dsFrame : ∃ (t : Nat) (k : Fin 16) (sync hdr area : List Byte) (s : State), ready s ∧ (chipAt s t).rxOn k = true ∧ s.chip.rg R.TRK_DS_STAT_FSTATE k = 3 ∧ psyncDiff sync ≤ 3 ∧ 1 ≤ s.chip.rg R.TRK_DS_CFG_LOF_MISS k ∧ hdr.length = 32 ∧ crc32c ((scrambleAt 0 hdr).take 28) ≠ word (scrambleAt 0 hdr) 28 :=
  ⟨0, 3, beBytes 8 psyncWord, zeros 32, [], st [(R.PWR_DOM_STAT_PSTATE, 8, 2), (R.TRK_DS_CFG_ENABLE, 3, 1), (R.TRK_DS_STAT_FSTATE, 3, 3)], by decide +kernel⟩

theorem wit_dsFrame_1 : ∃ (t : Nat) (k : Fin 16) (sync hdr area : List Byte) (s : State), ready s ∧ (chipAt s t).rxOn k = true ∧ s.chip.rg R.TRK_DS_STAT_FSTATE k = 3 ∧ 3 < psyncDiff sync ∧ s.chip.rg R.TRK_DS_CFG_LOF_MISS k ≤ (s.chip.eng k).misses + 1 ∧ s.chip.mode = 0 :=
  ⟨0, 3, zeros 8, [], [], { st [(R.PWR_DOM_STAT_PSTATE, 8, 2), (R.TRK_DS_CFG_ENABLE, 3, 1), (R.TRK_DS_STAT_FSTATE, 3, 3), (R.TRK_DS_CFG_LOF_MISS, 3, 4)] with chip.ds.eng := [(3, { Eng.reset with misses := 3 })] }, by decide +kernel⟩

theorem wit_losDeclare : ∃ (t : Nat) (k : Fin 16) (s : State), ready s ∧ s.chip.rg R.TRK_DS_CFG_ENABLE k = 1 ∧ s.chip.mode = 0 :=
  ⟨0, 3, st [(R.PWR_DOM_STAT_PSTATE, 8, 2), (R.TRK_DS_CFG_ENABLE, 3, 1)], by decide +kernel⟩

theorem wit_losClear : ∃ (t : Nat) (k : Fin 16) (s : State), ready s ∧ s.chip.rg R.TRK_DS_STAT_ACQ k = 3 :=
  ⟨0, 3, st [(R.PWR_DOM_STAT_PSTATE, 8, 2), (R.TRK_DS_CFG_ENABLE, 3, 1), (R.TRK_DS_STAT_ACQ, 3, 3), (R.TRK_DS_STAT_LOS, 3, 1)], by decide +kernel⟩

theorem wit_rdiTimeout : ∃ (t : Nat) (k : Fin 16) (s : State), ready s ∧ 3 < (s.chip.eng k).rdiOct :=
  ⟨0, 3, { st [(R.TRK_DS_STAT_RDI, 3, 1)] with chip.ds.eng := [(3, { Eng.reset with rdiOct := 4 })] }, by decide +kernel⟩

theorem wit_carriageUnit : ∃ (t : Nat) (k : Fin 16) (hdr data : List Byte) (w pos : Nat) (s : State), ready s ∧ (chipAt s t).rxOn k = true ∧ s.chip.rg R.TRK_DS_STAT_FSTATE k = 3 ∧ (s.chip.eng k).delin = some pos ∧ pos < payloadLen ∧ unitHdr (payloadBytes pos hdr) = some (w, false) ∧ pos + 8 + bits w 34 14 ≤ 2 * payloadLen ∧ bits w 48 16 = 0xFFFF ∧ bits w 24 8 ≠ 0xFF :=
  ⟨0, 3, payloadBytes 16 (beBytes 6 0xFFFF00000000 ++ beBytes 2 (crc16 (beBytes 6 0xFFFF00000000))), [], beNat (beBytes 6 0xFFFF00000000 ++ beBytes 2 (crc16 (beBytes 6 0xFFFF00000000))), 16, { st [(R.PWR_DOM_STAT_PSTATE, 8, 2), (R.TRK_DS_CFG_ENABLE, 3, 1), (R.TRK_DS_STAT_FSTATE, 3, 3)] with chip.ds.eng := [(3, { Eng.reset with delin := some 16 })] }, by decide +kernel⟩

theorem wit_carriageUnit_1 : ∃ (t : Nat) (k : Fin 16) (hdr data : List Byte) (w pos : Nat) (s : State), ready s ∧ (chipAt s t).rxOn k = true ∧ s.chip.rg R.TRK_DS_STAT_FSTATE k = 3 ∧ (s.chip.eng k).delin = some pos ∧ pos < payloadLen ∧ unitHdr (payloadBytes pos hdr) = some (w, false) ∧ pos + 8 + bits w 34 14 ≤ 2 * payloadLen ∧ bits w 48 16 ≠ 0xFFFF ∧ s.chip.rg R.TRK_TERM_ID_VALID 0 = 0 ∧ bit (s.chip.winGet (0x40000000 + 4 * bits w 48 16)) 0 = false :=
  ⟨0, 3, payloadBytes 16 (beBytes 6 0x000500000000 ++ beBytes 2 (crc16 (beBytes 6 0x000500000000))), [], beNat (beBytes 6 0x000500000000 ++ beBytes 2 (crc16 (beBytes 6 0x000500000000))), 16, { st [(R.PWR_DOM_STAT_PSTATE, 8, 2), (R.TRK_DS_CFG_ENABLE, 3, 1), (R.TRK_DS_STAT_FSTATE, 3, 3)] with chip.ds.eng := [(3, { Eng.reset with delin := some 16 })] }, by decide +kernel⟩

theorem wit_fragTimeout : ∃ (t : Nat) (k : Fin 16) (tag : Nat) (f : OpenFrame) (s : State), ready s ∧ (s.chip.eng k).frames.find? (fun x => decide (x.tag = tag)) = some f ∧ f.skip = false ∧ f.id = none ∧ f.start + 125 * usPs ≤ max s.chip.now t :=
  ⟨125000000, 3, 9, ⟨9, 1, 0, 0, 0, [], [], none, false, 0, true⟩, { State.reset with chip.ds.eng := [(3, { Eng.reset with frames := [⟨9, 1, 0, 0, 0, [], [], none, false, 0, true⟩] })] }, by decide +kernel⟩

/-! Witnesses of `MonitorAndCounterCommands`. -/

theorem wit_chmonAisTimeout : ∃ (t : Nat) (m : Fin 1024) (s : State), ready s ∧ s.chip.rg R.TRK_CHMON_CFG_ENABLE m = 1 ∧ 3 < (s.chip.mon m).ais :=
  ⟨0, 5, { st [(R.TRK_CHMON_CFG_ENABLE, 5, 1), (R.TRK_CHMON_STATE_RAW, 5, 8)] with chip.ds.mon := [(5, ⟨4, 0, 0, 0⟩)] }, by decide +kernel⟩

theorem wit_chmonChLoss : ∃ (t : Nat) (m : Fin 1024) (s : State), ready s ∧ s.chip.rg R.TRK_CHMON_CFG_ENABLE m = 1 ∧ s.chip.rg R.TRK_CHMON_CFG_CONT m = 1 ∧ s.chip.rg R.TRK_CHMON_CFG_LOSS_OCT m < (s.chip.mon m).idle :=
  ⟨0, 5, { st [(R.TRK_CHMON_CFG_ENABLE, 5, 1), (R.TRK_CHMON_CFG_CONT, 5, 1), (R.TRK_CHMON_CFG_LOSS_OCT, 5, 4)] with chip.ds.mon := [(5, ⟨0, 5, 0, 0⟩)] }, by decide +kernel⟩

theorem wit_secondLatch : ∃ (t : Nat) (s : State), ready s ∧ secOf (chipAt s t).lNow ≠ s.chip.ds.latchSec ∧ s.chip.mons = [] :=
  ⟨1000000000000, State.reset, by decide +kernel⟩

theorem wit_counterLoRead : ∃ (t : Nat) (a : Nat) (s : State), ready s ∧ ctrLive a = true :=
  ⟨0, C.TRK_DS_HDR_GOOD.base, State.reset, by decide +kernel⟩

theorem wit_watchDwellEnd : ∃ (t : Nat) (sync : Bool) (diffs : List Int) (trace : List Byte) (cd : Int) (n : Nat) (s : State), ready s ∧ s.chip.rg R.TRK_WATCH_CTRL_ENABLE 0 = 1 ∧ s.chip.rbit R.TRK_SIDE_MASK_MASK 0 (s.chip.rg R.TRK_WATCH_CTRL_CUR_WL 0) = true ∧ s.chip.ds.parked = none ∧ s.chip.ds.visitAt + s.chip.rg R.TRK_WATCH_CTRL_DWELL 0 * msPs ≤ max s.chip.now t ∧ s.chip.watchNext (s.chip.rg R.TRK_WATCH_CTRL_CUR_WL 0) = (n, false) ∧ sync = false :=
  ⟨1000000000000, false, [], [], 0, 1, st [(R.TRK_WATCH_CTRL_ENABLE, 0, 1), (R.TRK_SIDE_MASK_MASK, 0, 3)], by decide +kernel⟩

/-! Witnesses of `ProtectionCommands`. -/

theorem wit_apsManual : ∃ (t : Nat) (s : State), ready s ∧ s.chip.domOn 8 = true ∧ s.chip.ds.apsStep = 0 ∧ (chipAt s t).apsAuto = false ∧ s.chip.ds.lockout = false ∧ (chipAt s t).otherOk = true :=
  ⟨0, doms ({ st [(R.TRK_SIDE_STAT_EQD_VALID, 0, 1), (R.TRK_SIDE_MASK_MASK, 0, 1), (R.TRK_WATCH_OK_OK, 0, 1)] with chip.ds.cycleDone := true }), by decide +kernel⟩

theorem wit_apsForce : ∃ (t : Nat) (s : State), ready s ∧ s.chip.domOn 8 = true ∧ s.chip.ds.apsStep = 0 ∧ s.chip.ds.lockout = false :=
  ⟨0, doms (State.reset), by decide +kernel⟩

theorem wit_apsLockout : ∃ (t : Nat) (s : State), ready s ∧ s.chip.domOn 8 = true ∧ s.chip.ds.apsStep = 0 :=
  ⟨0, doms (State.reset), by decide +kernel⟩

theorem wit_apsClear : ∃ (t : Nat) (s : State), ready s ∧ s.chip.domOn 8 = true ∧ s.chip.ds.apsStep = 0 ∧ (chipAt s t).apsAuto = false ∧ (chipAt s t).apsRevert = false :=
  ⟨0, doms ({ State.reset with chip.ds.lockout := true }), by decide +kernel⟩

theorem wit_apsAutoHold : ∃ (t : Nat) (a : Nat) (s : State), ready s ∧ s.chip.ds.apsStep = 0 ∧ s.chip.ds.apsHoldEnd ≤ max s.chip.now t ∧ s.chip.ds.apsFailAt = some a ∧ a + s.chip.rg R.TRK_SIDE_CTRL_HOLD 0 * msPs ≤ max s.chip.now t ∧ s.chip.ds.lockout = false ∧ s.chip.rg R.TRK_SIDE_CTRL_CMD 0 = 0 ∧ (chipAt s t).otherOk = true :=
  ⟨0, 0, { st [(R.TRK_SIDE_STAT_EQD_VALID, 0, 1), (R.TRK_SIDE_CTRL_HOLD, 0, 0), (R.TRK_SIDE_MASK_MASK, 0, 1), (R.TRK_WATCH_OK_OK, 0, 1)] with chip.ds.cycleDone := true, chip.ds.apsFailAt := some 0 }, by decide +kernel⟩

theorem wit_apsWtrExpire : ∃ (t : Nat) (s : State), ready s ∧ s.chip.ds.apsStep = 0 ∧ s.chip.ds.apsHoldEnd ≤ max s.chip.now t ∧ s.chip.ds.apsFailAt = none ∧ (chipAt s t).apsRevert = true ∧ s.chip.ds.lockout = false ∧ s.chip.rg R.TRK_SIDE_CTRL_CMD 0 = 0 :=
  ⟨0, { st [(R.TRK_SIDE_STAT_EQD_VALID, 0, 1), (R.TRK_SIDE_CTRL_REVERT, 0, 1), (R.TRK_SIDE_CTRL_WTR, 0, 0), (R.TRK_SIDE_MASK_MASK, 0, 1), (R.TRK_SIDE_STAT_ACTIVE, 0, 1), (R.TRK_WATCH_OK_OK, 0, 1)] with chip.ds.cycleDone := true, chip.ds.apsHealthyAt := some 0 }, by decide +kernel⟩

theorem wit_apsHoldEnd : ∃ (t : Nat) (s : State), ready s ∧ s.chip.rg R.TRK_SIDE_STAT_STATE 0 = 2 ∧ s.chip.ds.apsHoldEnd ≤ max s.chip.now t ∧ s.chip.ds.apsStep = 0 ∧ s.chip.ds.apsFailAt = none ∧ s.chip.rg R.TRK_SIDE_CTRL_REVERT 0 = 0 ∧ s.chip.ds.lockout = false ∧ s.chip.rg R.TRK_SIDE_CTRL_CMD 0 = 0 :=
  ⟨0, st [(R.TRK_SIDE_STAT_STATE, 0, 2), (R.TRK_SIDE_CTRL_REVERT, 0, 0)], by decide +kernel⟩

theorem wit_apsQuiesced : ∃ (t : Nat) (s : State), ready s ∧ s.chip.ds.apsStep = 1 ∧ s.chip.up.active = [] :=
  ⟨0, { State.reset with chip.ds.apsStep := 1 }, by decide +kernel⟩

theorem wit_apsPathMoved : ∃ (t : Nat) (s : State), ready s ∧ s.chip.ds.apsStep = 2 :=
  ⟨0, { st [(R.PWR_DOM_STAT_PSTATE, 8, 2), (R.TRK_DS_CFG_ENABLE, 3, 1)] with chip.ds.apsStep := 2 }, by decide +kernel⟩

theorem wit_apsSync : ∃ (t : Nat) (k : Fin 16) (s : State), ready s ∧ s.chip.ds.apsStep = 4 ∧ s.chip.inSync k = true ∧ (s.chip.eng k).step = 6 :=
  ⟨0, 3, { st [(R.PWR_DOM_STAT_PSTATE, 8, 2), (R.TRK_DS_CFG_ENABLE, 3, 1), (R.TRK_DS_STAT_FSTATE, 3, 3)] with chip.ds.apsStep := 4, chip.ds.eng := [(3, { Eng.reset with step := 6 })] }, by decide +kernel⟩

theorem wit_apsResume : ∃ (t : Nat) (s : State), ready s ∧ s.chip.ds.apsStep = 5 ∧ s.chip.mode = 0 :=
  ⟨0, { State.reset with chip.ds.apsStep := 5 }, by decide +kernel⟩

theorem wit_apsSwitchTimeout : ∃ (t : Nat) (s : State), ready s ∧ s.chip.ds.apsStep = 1 ∧ s.chip.ds.apsAt + 10 * msPs ≤ max s.chip.now t ∧ s.chip.mode = 0 :=
  ⟨10000000000, { State.reset with chip.ds.apsStep := 1 }, by decide +kernel⟩

/-! Witnesses of `ActivationMessages`. -/

theorem wit_discovery : ∃ (t : Nat) (k : Fin 16) (x : MsgSlot) (s : State), ready s ∧ (s.chip.eng k).msgs.find? (fun x => decide (x.typ = 1)) = some x ∧ s.chip.mode = 2 ∧ s.chip.inSync k = true :=
  ⟨0, 3, (⟨3, 0, [0, 0, 1, 0, 0, 9, 36, 0] ++ [0, 0, 0, 5, 0, 9] ++ zeros 40, 7, 0⟩ : MsgSlot), { st [(R.TRK_MODE_CODE, 0, 2), (R.TRK_DS_CFG_ENABLE, 3, 1), (R.TRK_DS_STAT_FSTATE, 3, 3)] with chip.ds.eng := [(3, { Eng.reset with msgs := [(⟨3, 0, [0, 0, 1, 0, 0, 9, 36, 0] ++ [0, 0, 0, 5, 0, 9] ++ zeros 40, 7, 0⟩ : MsgSlot)] })] }, by decide +kernel⟩

theorem wit_assignId : ∃ (t : Nat) (k : Fin 16) (x : MsgSlot) (s : State), ready s ∧ (s.chip.eng k).msgs.find? (fun x => decide (x.typ = 2)) = some x ∧ s.chip.mode = 3 ∧ x.body.take 12 = s.chip.serial ∧ half x.body 12 ≤ 0xFFFD ∧ half x.body 14 ≤ 4093 ∧ half x.body 16 ≤ 65534 ∧ byteAt x.body 18 ≤ 15 :=
  ⟨0, 3, (⟨3, 0, [0, 0, 2, 0, 0, 9, 36, 0] ++ Chip.reset.serial ++ [0, 7, 0, 8, 0, 9, 2] ++ zeros 40, 7, 0⟩ : MsgSlot), { st [(R.TRK_MODE_CODE, 0, 3)] with chip.ds.eng := [(3, { Eng.reset with msgs := [(⟨3, 0, [0, 0, 2, 0, 0, 9, 36, 0] ++ Chip.reset.serial ++ [0, 7, 0, 8, 0, 9, 2] ++ zeros 40, 7, 0⟩ : MsgSlot)] })] }, by decide +kernel⟩

theorem wit_rangingReq : ∃ (t : Nat) (k : Fin 16) (x : MsgSlot) (s : State), ready s ∧ (s.chip.eng k).msgs.find? (fun x => decide (x.typ = 3)) = some x ∧ s.chip.mode = 4 ∧ byteAt x.body 0 ≤ 15 ∧ byteAt x.body 1 = s.chip.side ∧ s.chip.side = 0 ∧ word x.body 2 ≤ 400000000 ∧ byteAt x.body 6 ≠ 0 ∧ s.chip.up.acks.length < 64 :=
  ⟨0, 3, (⟨3, 0, [0, 0, 3, 0, 0, 9, 36, 0] ++ [2, 0, 0, 0, 0, 100, 8] ++ zeros 40, 7, 0⟩ : MsgSlot), { st [(R.TRK_MODE_CODE, 0, 4)] with chip.ds.eng := [(3, { Eng.reset with msgs := [(⟨3, 0, [0, 0, 3, 0, 0, 9, 36, 0] ++ [2, 0, 0, 0, 0, 100, 8] ++ zeros 40, 7, 0⟩ : MsgSlot)] })] }, by decide +kernel⟩

theorem wit_rangingTime : ∃ (t : Nat) (k : Fin 16) (x : MsgSlot) (s : State), ready s ∧ (s.chip.eng k).msgs.find? (fun x => decide (x.typ = 4)) = some x ∧ s.chip.mode = 5 ∧ byteAt x.body 0 ≤ 15 ∧ byteAt x.body 1 = 0 ∧ byteAt x.body 2 = 0 ∧ word x.body 4 ≤ 400000000 ∧ s.chip.up.acks.length < 64 :=
  ⟨0, 3, (⟨3, 0, [0, 0, 4, 0, 0, 9, 36, 0] ++ [2, 0, 0, 0, 0, 0, 1, 100] ++ zeros 40, 7, 0⟩ : MsgSlot), { st [(R.TRK_MODE_CODE, 0, 5)] with chip.ds.eng := [(3, { Eng.reset with msgs := [(⟨3, 0, [0, 0, 4, 0, 0, 9, 36, 0] ++ [2, 0, 0, 0, 0, 0, 1, 100] ++ zeros 40, 7, 0⟩ : MsgSlot)] })] }, by decide +kernel⟩

theorem wit_assignAlloc : ∃ (t : Nat) (k : Fin 16) (x : MsgSlot) (a : Nat) (s : State), ready s ∧ (s.chip.eng k).msgs.find? (fun x => decide (x.typ = 5)) = some x ∧ s.chip.mode = 5 ∧ half x.body 0 ≤ 4093 ∧ byteAt x.body 2 ≤ 15 ∧ byteAt x.body 3 = 3 ∧ byteAt x.body 4 ≤ 63 ∧ s.chip.allocIdx (byteAt x.body 2) (half x.body 0) = none ∧ (List.range 1024).find? (fun a => !s.chip.rb R.TRK_ALLOC_VALID a) = some a ∧ s.chip.qs.frames = [] ∧ s.chip.up.acks.length < 64 :=
  ⟨0, 3, (⟨3, 0, [0, 0, 5, 0, 0, 9, 36, 0] ++ [0, 20, 3, 3, 9] ++ zeros 40, 7, 0⟩ : MsgSlot), 0, { st [(R.TRK_MODE_CODE, 0, 5)] with chip.ds.eng := [(3, { Eng.reset with msgs := [(⟨3, 0, [0, 0, 5, 0, 0, 9, 36, 0] ++ [0, 20, 3, 3, 9] ++ zeros 40, 7, 0⟩ : MsgSlot)] })] }, by decide +kernel⟩

theorem wit_todMap : ∃ (t : Nat) (k : Fin 16) (x : MsgSlot) (n : Stamp) (r : List Stamp) (sfc : Nat) (s : State), ready s ∧ (s.chip.eng k).msgs.find? (fun x => decide (x.typ = 10)) = some x ∧ word x.body 13 ≤ 999999999 ∧ sfc = beAt x.body 0 7 ∧ sfc < sfcMod ∧ s.chip.aStamps = n :: r ∧ s.chip.aStamps.find? (fun x => decide (x.sfc = sfc)) = none ∧ n.sfc < sfc ∧ sfc ≤ n.sfc + 1024 ∧ s.chip.tm.held.length < 4 :=
  ⟨0, 3, (⟨3, 0, [0, 0, 10, 0, 0, 9, 36, 0] ++ [0, 0, 0, 0, 0, 0, 5] ++ zeros 20 ++ zeros 40, 7, 0⟩ : MsgSlot), ⟨3, 0, 0, 0, 0⟩, [], 5, { st [(R.TMG_A_TEQ_TEQ, 0, 9)] with chip.ds.eng := [(3, { Eng.reset with msgs := [(⟨3, 0, [0, 0, 10, 0, 0, 9, 36, 0] ++ [0, 0, 0, 0, 0, 0, 5] ++ zeros 20 ++ zeros 40, 7, 0⟩ : MsgSlot)] })], chip.tm.stamps := [⟨3, 0, 0, 0, 0⟩] }, by decide +kernel⟩

theorem wit_epact : ∃ (t : Nat) (k : Fin 16) (x : MsgSlot) (s : State), ready s ∧ (s.chip.eng k).msgs.find? (fun x => decide (x.typ = 11)) = some x ∧ byteAt x.body 0 ≤ 15 ∧ byteAt x.body 1 ≤ 1 ∧ s.chip.up.acks.length < 64 :=
  ⟨0, 3, (⟨3, 0, [0, 0, 11, 0, 0, 9, 36, 0] ++ [2, 1, 0, 0, 1, 9] ++ zeros 40, 7, 0⟩ : MsgSlot), { st [] with chip.ds.eng := [(3, { Eng.reset with msgs := [(⟨3, 0, [0, 0, 11, 0, 0, 9, 36, 0] ++ [2, 1, 0, 0, 1, 9] ++ zeros 40, 7, 0⟩ : MsgSlot)] })] }, by decide +kernel⟩

theorem wit_todMapHeldMeasure : ∃ (t : Nat) (h : Nat × Int) (x : Stamp) (s : State), ready s ∧ (chipAt s t).aPaused = false ∧ s.chip.tm.held = [h] ∧ s.chip.aStamps = [x] ∧ x.sfc = h.1 ∧ s.chip.rg R.TMG_A_TEQ_TEQ 0 ≠ 0 :=
  ⟨0, (5, 100), ⟨5, 0, 0, 7, 7⟩, { st [(R.TMG_A_TEQ_TEQ, 0, 9)] with chip.tm.held := [(5, 100)], chip.tm.stamps := [⟨5, 0, 0, 7, 7⟩] }, by decide +kernel⟩

/-! Witnesses of `EmissionAndModeCommands`. -/

theorem wit_emitRelease : ∃ (t : Nat) (k : Fin 16) (x : MsgSlot) (s : State), ready s ∧ (s.chip.eng k).msgs.find? (isEmit 0) = some x ∧ s.chip.mode = 7 ∧ s.chip.up.acks.length < 64 :=
  ⟨0, 3, (⟨3, 0, [0, 0, 6, 0, 0, 9, 36, 0] ++ [0] ++ zeros 40, 7, 0⟩ : MsgSlot), { st [(R.TRK_MODE_CODE, 0, 7)] with chip.ds.eng := [(3, { Eng.reset with msgs := [(⟨3, 0, [0, 0, 6, 0, 0, 9, 36, 0] ++ [0] ++ zeros 40, 7, 0⟩ : MsgSlot)] })] }, by decide +kernel⟩

theorem wit_emitSilence : ∃ (t : Nat) (k : Fin 16) (x : MsgSlot) (s : State), ready s ∧ (s.chip.eng k).msgs.find? (isEmit 1) = some x ∧ s.chip.mode = 5 ∧ s.chip.rg R.HLT_SWAP_STAT_STATE 0 ≠ 1 ∧ s.chip.up.formed = [] ∧ s.chip.up.acks.length < 64 :=
  ⟨0, 3, (⟨3, 0, [0, 0, 6, 0, 0, 9, 36, 0] ++ [1] ++ zeros 40, 7, 0⟩ : MsgSlot), { st [(R.TRK_MODE_CODE, 0, 5)] with chip.ds.eng := [(3, { Eng.reset with msgs := [(⟨3, 0, [0, 0, 6, 0, 0, 9, 36, 0] ++ [1] ++ zeros 40, 7, 0⟩ : MsgSlot)] })] }, by decide +kernel⟩

theorem wit_emitChOff : ∃ (t : Nat) (k : Fin 16) (x : MsgSlot) (s : State), ready s ∧ (s.chip.eng k).msgs.find? (isEmit 2) = some x ∧ s.chip.up.acks.length < 64 :=
  ⟨0, 3, (⟨3, 0, [0, 0, 6, 0, 0, 9, 36, 0] ++ [2, 0, 0, 7] ++ zeros 40, 7, 0⟩ : MsgSlot), { st [] with chip.ds.eng := [(3, { Eng.reset with msgs := [(⟨3, 0, [0, 0, 6, 0, 0, 9, 36, 0] ++ [2, 0, 0, 7] ++ zeros 40, 7, 0⟩ : MsgSlot)] })] }, by decide +kernel⟩

theorem wit_deactivate : ∃ (t : Nat) (k : Fin 16) (x : MsgSlot) (s : State), ready s ∧ (s.chip.eng k).msgs.find? (fun x => decide (x.typ = 7)) = some x ∧ s.chip.mode = 5 ∧ s.chip.rg R.HLT_SWAP_STAT_STATE 0 ≠ 1 :=
  ⟨0, 3, (⟨3, 0, [0, 0, 7, 0, 0, 9, 36, 0] ++ [] ++ zeros 40, 7, 0⟩ : MsgSlot), { st [(R.TRK_MODE_CODE, 0, 5), (R.TRK_TERM_ID_VALID, 0, 1)] with chip.ds.eng := [(3, { Eng.reset with msgs := [(⟨3, 0, [0, 0, 7, 0, 0, 9, 36, 0] ++ [] ++ zeros 40, 7, 0⟩ : MsgSlot)] })] }, by decide +kernel⟩

theorem wit_quarRelease : ∃ (t : Nat) (k : Fin 16) (x : MsgSlot) (s : State), ready s ∧ (s.chip.eng k).msgs.find? (fun x => decide (x.typ = 8)) = some x ∧ s.chip.mode = 8 :=
  ⟨0, 3, (⟨3, 0, [0, 0, 8, 0, 0, 9, 36, 0] ++ [] ++ zeros 40, 7, 0⟩ : MsgSlot), { st [(R.TRK_MODE_CODE, 0, 8), (R.TRK_GUARD_STAT_QUAR, 0, 1)] with chip.ds.eng := [(3, { Eng.reset with msgs := [(⟨3, 0, [0, 0, 8, 0, 0, 9, 36, 0] ++ [] ++ zeros 40, 7, 0⟩ : MsgSlot)] })] }, by decide +kernel⟩

theorem wit_rdi : ∃ (t : Nat) (k : Fin 16) (x : MsgSlot) (j : Fin 16) (s : State), ready s ∧ (s.chip.eng k).msgs.find? (fun x => decide (x.typ = 9)) = some x ∧ bit (half x.body 0) j = true ∧ bit (half x.body 2) j = true :=
  ⟨0, 3, (⟨3, 0, [0, 0, 9, 0, 0, 9, 36, 0] ++ [0, 4, 0, 4] ++ zeros 40, 7, 0⟩ : MsgSlot), 2, { st [] with chip.ds.eng := [(3, { Eng.reset with msgs := [(⟨3, 0, [0, 0, 9, 0, 0, 9, 36, 0] ++ [0, 4, 0, 4] ++ zeros 40, 7, 0⟩ : MsgSlot)] })] }, by decide +kernel⟩

theorem wit_announceTimeout : ∃ (t : Nat) (s : State), ready s ∧ s.chip.mode = 3 ∧ s.chip.up.discAt + s.chip.rg R.TRK_ACT_TMR_TO_DISC 0 * secPs ≤ max s.chip.now t :=
  ⟨1000000000000000, st [(R.TRK_MODE_CODE, 0, 3)], by decide +kernel⟩

theorem wit_rangingTimeout : ∃ (t : Nat) (s : State), ready s ∧ s.chip.mode = 4 ∧ s.chip.up.modeAt + s.chip.rg R.TRK_ACT_TMR_TO_RANGE 0 * secPs ≤ max s.chip.now t :=
  ⟨1000000000000000, st [(R.TRK_MODE_CODE, 0, 4)], by decide +kernel⟩

theorem wit_lapseTimeout : ∃ (t : Nat) (s : State), ready s ∧ s.chip.mode = 6 ∧ s.chip.up.modeAt + s.chip.rg R.TRK_ACT_TMR_TO_LAPSE 0 * msPs ≤ max s.chip.now t :=
  ⟨1000000000000000, st [(R.TRK_MODE_CODE, 0, 6)], by decide +kernel⟩

theorem wit_loopbackEnter : ∃ (t : Nat) (s : State), ready s ∧ s.chip.domOn 2 = true ∧ s.chip.mode = 2 :=
  ⟨0, st [(R.TRK_MODE_CODE, 0, 2)], by decide +kernel⟩

theorem wit_loopbackLeave : ∃ (t : Nat) (s : State), ready s ∧ s.chip.domOn 2 = true ∧ s.chip.mode = 9 :=
  ⟨0, st [(R.TRK_MODE_CODE, 0, 9)], by decide +kernel⟩

theorem wit_eventideEnter : ∃ (t : Nat) (s : State), ready s ∧ s.chip.domOn 2 = true ∧ s.chip.mode = 5 ∧ s.chip.rg R.HLT_SWAP_STAT_STATE 0 ≠ 1 ∧ s.chip.alm.txns = [] :=
  ⟨0, st [(R.TRK_MODE_CODE, 0, 5)], by decide +kernel⟩

theorem wit_eventideEmitEnd : ∃ (t : Nat) (s : State), ready s ∧ s.chip.mode = 11 ∧ s.chip.up.modeAt + 10 * msPs ≤ max s.chip.now t ∧ s.chip.up.dyingSent = false :=
  ⟨10000000000, st [(R.TRK_MODE_CODE, 0, 11)], by decide +kernel⟩

/-! Witnesses of `GrantAndBurstCommands`. -/

theorem wit_grantEntry : ∃ (t : Nat) (k : Fin 16) (idx raw watch w e : Nat) (s : State), ready s ∧ (chipAt s t).rxOn k = true ∧ (s.chip.eng k).frGrants = true ∧ idx < (s.chip.eng k).frCount ∧ s.chip.ds.apsStep = 0 ∧ w = beNat (scrambleAt (32 + 8 * idx) (beBytes 8 raw)) ∧ crc8 (beBytes 7 (w / 256)) = w % 256 ∧ s.chip.rg R.TRK_US_STAT_CH_OFF k = 0 ∧ s.chip.rg R.TRK_US_CFG_ENABLE k = 1 ∧ (chipAt s t).grantKind k (bits w 52 12) (bit w 49) = some .assigned ∧ s.chip.mons = [] ∧ bit w 51 = false ∧ grantOk .assigned false (bits w 27 19) (bits w 8 19) = true ∧ (s.chip.up.store.filter (fun x => decide (x.ch = k.val))).length < 4096 ∧ (chipAt s t).eqdNow s.chip.side k = some e :=
  ⟨0, 3, 0, beNat (scrambleAt 32 (beBytes 8 (0x0140000008006400 + crc8 (beBytes 7 0x01400000080064)))), 0, 0x0140000008006400 + crc8 (beBytes 7 0x01400000080064), 500, { st [(R.PWR_DOM_STAT_PSTATE, 8, 2), (R.TRK_DS_CFG_ENABLE, 3, 1), (R.TRK_US_CFG_ENABLE, 3, 1), (R.TRK_MODE_CODE, 0, 5), (R.TRK_ALLOC_VALID, 0, 1), (R.TRK_ALLOC_CH, 0, 3), (R.TRK_ALLOC_ALLOC_ID, 0, 20), (R.TRK_EQD_VALID, 3, 1), (R.TRK_EQD_EQD, 3, 500)] with chip.ds.eng := [(3, { Eng.reset with frGrants := true, frCount := 1 })] }, by decide +kernel⟩

theorem wit_announceUnanswered : ∃ (t : Nat) (n : Nat) (s : State), ready s ∧ s.chip.up.annOct = some n ∧ 3 ≤ n :=
  ⟨0, 3, { State.reset with chip.up.annOct := some 3 }, by decide +kernel⟩

theorem wit_rangingReqExpire : ∃ (t : Nat) (r : RangeReq) (s : State), ready s ∧ r ∈ s.chip.up.ranging ∧ r.octs = 0 :=
  ⟨0, ⟨0, 3, 5, 0⟩, { State.reset with chip.up.ranging := [⟨0, 3, 5, 0⟩, ⟨1, 3, 5, 2⟩] }, by decide +kernel⟩

theorem wit_burstForm : ∃ (t : Nat) (k : Fin 16) (w : Window) (s : State), ready s ∧ s.chip.up.store.find? (fun w => decide (w.ch = k.val)) = some w ∧ w.t0 ≤ max s.chip.now t + 20 * usPs ∧ (chipAt s t).guardOk w = true ∧ s.chip.prevEnd k w.side = 0 ∧ w.shortEve = false :=
  ⟨0, 3, ⟨3, 20, .assigned, false, false, false, 10, 100, 5000000, 0, 0, 0⟩, { st [(R.TRK_MODE_CODE, 0, 5), (R.TRK_ALLOC_VALID, 0, 1), (R.TRK_ALLOC_AUTH, 0, 1), (R.TRK_ALLOC_CH, 0, 3), (R.TRK_ALLOC_ALLOC_ID, 0, 20), (R.TRK_US_GH_ACT_PWR, 3, 0x8000)] with chip.up.store := [⟨3, 20, .assigned, false, false, false, 10, 100, 5000000, 0, 0, 0⟩] }, by decide +kernel⟩

theorem wit_burstStart : ∃ (t : Nat) (k : Fin 16) (b : Burst) (s : State), ready s ∧ s.chip.up.formed.find? (fun b => decide (b.win.ch = k.val)) = some b ∧ b.win.t0 ≤ max s.chip.now t + symPs 768 ∧ max s.chip.now t < b.win.endAt ∧ (chipAt s t).guardOk b.win = true ∧ s.chip.ds.apsStep = 0 :=
  ⟨5000000, 3, { win := ⟨3, 20, .assigned, false, false, false, 10, 100, 5000000, 0, 0, 0⟩, body := [1, 2], records := [], dying := false, took := [], splitWas := none, owedWere := [], mgmt := [], unitBytes := 0, fillBytes := 0, frags := 0, rpts := 0 }, { st [(R.TRK_MODE_CODE, 0, 5), (R.TRK_ALLOC_VALID, 0, 1), (R.TRK_ALLOC_AUTH, 0, 1), (R.TRK_ALLOC_CH, 0, 3), (R.TRK_ALLOC_ALLOC_ID, 0, 20), (R.TRK_US_GH_ACT_PWR, 3, 0x8000)] with chip.up.formed := [{ win := ⟨3, 20, .assigned, false, false, false, 10, 100, 5000000, 0, 0, 0⟩, body := [1, 2], records := [], dying := false, took := [], splitWas := none, owedWere := [], mgmt := [], unitBytes := 0, fillBytes := 0, frags := 0, rpts := 0 }] }, by decide +kernel⟩

theorem wit_burstEnd : ∃ (t : Nat) (k : Fin 16) (b : Burst) (s : State), ready s ∧ s.chip.up.active.find? (fun b => decide (b.win.ch = k.val)) = some b ∧ b.win.endAt ≤ max s.chip.now t ∧ b.dying = false ∧ b.win.kind ≠ .discovery ∧ (s.chip.up.active.erase b).any (fun x => decide (x.win.ch = k.val)) = false ∧ s.chip.qs.out = [] :=
  ⟨1000000000, 3, { win := ⟨3, 20, .assigned, false, false, false, 10, 100, 5000000, 0, 0, 0⟩, body := [1, 2], records := [], dying := false, took := [], splitWas := none, owedWere := [], mgmt := [], unitBytes := 0, fillBytes := 0, frags := 0, rpts := 0 }, { st [(R.TRK_US_STAT_BURSTING, 3, 1)] with chip.up.active := [{ win := ⟨3, 20, .assigned, false, false, false, 10, 100, 5000000, 0, 0, 0⟩, body := [1, 2], records := [], dying := false, took := [], splitWas := none, owedWere := [], mgmt := [], unitBytes := 0, fillBytes := 0, frags := 0, rpts := 0 }] }, by decide +kernel⟩

theorem wit_upFragTimeout : ∃ (t : Nat) (k : Fin 16) (alloc : Nat) (f : SplitFrame) (s : State), ready s ∧ s.chip.up.splits.find? (fun f => decide (f.ch = k.val ∧ f.alloc = alloc)) = some f ∧ f.endAt + 125 * usPs ≤ max s.chip.now t :=
  ⟨200000000, 3, 20, ⟨20, 3, [1, 2, 3], 9, 0, 1, 4, 0, 0⟩, { State.reset with chip.up.splits := [⟨20, 3, [1, 2, 3], 9, 0, 1, 4, 0, 0⟩] }, by decide +kernel⟩

theorem wit_guardTrip : ∃ (t : Nat) (k : Fin 16) (cause : Fin 8) (s : State), ready s ∧ s.chip.up.trips = [] :=
  ⟨0, 3, 2, State.reset, by decide +kernel⟩

theorem wit_guardTrip_1 : ∃ (t : Nat) (k : Fin 16) (cause : Fin 8) (a b : Nat) (s : State), ready s ∧ s.chip.up.trips = [a, b] ∧ max s.chip.now t < a + secPs ∧ max s.chip.now t < b + secPs ∧ s.chip.mode = 5 ∧ s.chip.alm.txns = [] ∧ s.chip.up.formed = [] ∧ s.chip.rg R.HLT_SWAP_STAT_STATE 0 ≠ 1 :=
  ⟨30, 3, 2, 10, 20, { st [(R.TRK_MODE_CODE, 0, 5)] with chip.up.trips := [10, 20] }, by decide +kernel⟩

/-! Witnesses of `PipelineCommands`. -/

theorem wit_pipelinePass : ∃ (t : Nat) (b : Fin 32) (f : Frame) (r : List Frame) (role : Nat) (s : State), ready s ∧ (chipAt s t).blockOk b = true ∧ s.chip.pp.back = [] ∧ s.chip.pp.waiting = f :: r ∧ f.blk = b ∧ f.pass = 0 ∧ f.entry = true ∧ f.known = true ∧ f.origin = 0 ∧ s.chip.passRole f = some role ∧ s.chip.pipeDead b role = false ∧ s.chip.pp.nodes = [] ∧ s.chip.pp.layouts = [] :=
  ⟨0, 2, { fr 4 [1, 2, 3] with blk := 2 }, [], 0, { st [(R.PWR_ISL_HOLD_P_STATE, 2, 2), (R.PWR_DOM_STAT_PSTATE, 9, 2)] with chip.pp.waiting := [{ fr 4 [1, 2, 3] with blk := 2 }] }, by decide +kernel⟩

theorem wit_frameLastByte : ∃ (t : Nat) (id : Nat) (rest : List Byte) (r : RxOpen) (f : Frame) (s : State), ready s ∧ s.chip.pt.rxOpen = [r] ∧ r.id = id ∧ s.chip.qs.frames = [] ∧ s.chip.qs.tx = [] ∧ s.chip.pp.held = [] ∧ s.chip.pp.miss = [] ∧ s.chip.pp.back = [] ∧ s.chip.pp.waiting = [f] ∧ f.id = id ∧ f.known = false ∧ r.n + rest.length + 4 ≤ s.chip.maxFrame :=
  ⟨0, 4, [9, 9], ⟨4, 3, 3⟩, { fr 4 [1, 2, 3] with known := false }, { State.reset with chip.pt.rxOpen := [⟨4, 3, 3⟩], chip.pp.waiting := [{ fr 4 [1, 2, 3] with known := false }] }, by decide +kernel⟩

theorem wit_frameLastByte_1 : ∃ (t : Nat) (id : Nat) (rest : List Byte) (r : RxOpen) (f : Frame) (s : State), ready s ∧ s.chip.pt.rxOpen = [r] ∧ r.id = id ∧ s.chip.qs.frames = [] ∧ s.chip.pp.held = [] ∧ s.chip.pp.miss = [] ∧ s.chip.pp.back = [] ∧ s.chip.pp.waiting = [f] ∧ f.id = id :=
  ⟨0, 4, [9, 9], ⟨4, 3, 3⟩, { fr 4 [1, 2, 3] with known := false }, { State.reset with chip.pt.rxOpen := [⟨4, 3, 3⟩], chip.pp.waiting := [{ fr 4 [1, 2, 3] with known := false }] }, by decide +kernel⟩

theorem wit_flowFetchDone : ∃ (t : Nat) (table : Fin 8) (bank : Fin 2) (key : Nat) (x : Miss) (a : Nat) (s : State), ready s ∧ s.chip.pp.miss = [x] ∧ x.table = table ∧ x.bank = bank ∧ x.key = key ∧ s.chip.flowBucket table bank key = some a ∧ flowKey (s.mem.ddrRead (a + 64 * x.ways) 64) ≠ key ∧ x.ways < 3 :=
  ⟨0, 1, 0, 77, ⟨⟨fr 4 [1, 2, 3], []⟩, 2, 1, 0, 77, 1⟩, 4096 + 256 * (crc32c (beBytes 40 77) % 2 ^ 0), { State.reset with chip.alm.active := [(0x0303 * 65536 + 1, zeros 3 ++ [1] ++ zeros 12)], chip.pp.miss := [⟨⟨fr 4 [1, 2, 3], []⟩, 2, 1, 0, 77, 1⟩] }, by decide +kernel⟩

theorem wit_genExpire : ∃ (t : Nat) (n : Fin 4) (a : Nat) (s : State), ready s ∧ s.chip.pp.genAt.find n = some a ∧ s.chip.rb R.PKT_GEN_SLOT_LIVE n = true ∧ s.chip.rb R.PKT_GEN_SLOT_CUR n = false ∧ a + msPs ≤ max s.chip.now t :=
  ⟨2000000000, 2, 5, { st [(R.PKT_GEN_SLOT_LIVE, 2, 1), (R.PKT_GEN_SLOT_GEN, 2, 9), (R.PKT_GEN_REFS_COUNT, 2, 3)] with chip.pp.genAt := [(2, 5)], chip.pp.back := [{ fr 4 [1] with pass := 1, gen := 9 }, fr 5 []] }, by decide +kernel⟩

/-! Witnesses of `FlowAndTableCommands`. -/

theorem wit_flowInsert : ∃ (t : Nat) (table : Fin 8) (bank : Fin 2) (s : State), ready s ∧ s.chip.domOn 6 = true ∧ s.chip.rg R.PKT_FLOW_CMD_BUSY 0 = 0 :=
  ⟨0, 1, 1, doms (State.reset), by decide +kernel⟩

theorem wit_flowDelete : ∃ (t : Nat) (table : Fin 8) (bank : Fin 2) (s : State), ready s ∧ s.chip.domOn 6 = true ∧ s.chip.rg R.PKT_FLOW_CMD_BUSY 0 = 0 :=
  ⟨0, 1, 1, doms (State.reset), by decide +kernel⟩

theorem wit_flowLookup : ∃ (t : Nat) (table : Fin 8) (bank : Fin 2) (s : State), ready s ∧ s.chip.domOn 6 = true ∧ s.chip.rg R.PKT_FLOW_CMD_BUSY 0 = 0 :=
  ⟨0, 1, 1, doms (State.reset), by decide +kernel⟩

theorem wit_flowCmdDone : ∃ (t : Nat) (x : FlowCmd) (a w : Nat) (s : State), ready s ∧ s.chip.pp.flow = some x ∧ x.op = 1 ∧ s.chip.flowBucket x.table x.bank x.key = some a ∧ s.chip.flowLocked x.table x.bank = false ∧ wayOf s.mem a x.key = none ∧ freeWay s.mem a = some w :=
  ⟨0, ⟨1, 1, 0, 77, 2 ^ 63 + 5⟩, 4096 + 256 * (crc32c (beBytes 40 77) % 2 ^ 0), 0, { st [(R.PKT_FLOW_CMD_BUSY, 0, 1)] with chip.alm.active := [(0x0303 * 65536 + 1, zeros 3 ++ [1] ++ zeros 12)], chip.pp.flow := some ⟨1, 1, 0, 77, 2 ^ 63 + 5⟩ }, by decide +kernel⟩

theorem wit_flowCmdDone_1 : ∃ (t : Nat) (x : FlowCmd) (a : Nat) (s : State), ready s ∧ s.chip.pp.flow = some x ∧ x.op = 3 ∧ s.chip.flowBucket x.table x.bank x.key = some a ∧ s.chip.flowLocked x.table x.bank = false ∧ wayOf s.mem a x.key = none :=
  ⟨0, ⟨3, 1, 0, 77, 2 ^ 63 + 5⟩, 4096 + 256 * (crc32c (beBytes 40 77) % 2 ^ 0), { st [(R.PKT_FLOW_CMD_BUSY, 0, 1)] with chip.alm.active := [(0x0303 * 65536 + 1, zeros 3 ++ [1] ++ zeros 12)], chip.pp.flow := some ⟨3, 1, 0, 77, 2 ^ 63 + 5⟩ }, by decide +kernel⟩

theorem wit_tableWindowWrite : ∃ (t : Nat) (who : Fin 20) (a v : Nat) (s : State), ready s ∧ who.val < 4 ∧ (chipAt s t).mayWrite who a = stOk ∧ (chipAt s t).reach a = stOk ∧ 0x48000000 ≤ a ∧ a < 0x58000000 ∧ a % 32 < 20 ∧ (chipAt s t).evtUpdate.tableLocked a = false :=
  ⟨0, 0, 0x48000004, 0x123456789, { stSess with chip := stSess.chip.wg R.PWR_DOM_STAT_PSTATE 6 2 }, by decide +kernel⟩

/-! Witnesses of `QueueAndGateCommands`. -/

theorem wit_schedDecision : ∃ (t : Nat) (p : Fin 128) (x : QFrame) (s : State), ready s ∧ (chipAt s t).lineUp p = true ∧ (chipAt s t).lineBusy p = false ∧ s.chip.rg R.PRT_STAT_LINK p = 2 ∧ (chipAt s t).ctlNext p = none ∧ s.chip.rg R.PRT_LOOP_PRBS_GEN p = 0 ∧ s.chip.cellRole (s.chip.portBlk p) (s.chip.slotCell (s.chip.portBlk p) (s.chip.portSlot p)) ≠ 3 ∧ s.chip.qs.tx = [] ∧ s.chip.qs.out = [] ∧ s.chip.qs.frames = [x] ∧ x.spill = none ∧ x.f.known = true ∧ x.f.stomp = false ∧ x.f.origin ≠ 0 ∧ s.chip.rg R.SCH_Q_CFG_VALID x.q = 1 ∧ s.chip.rg R.SCH_Q_CFG_DIR x.q = 0 ∧ s.chip.rg R.SCH_Q_CFG_PORT x.q = p ∧ s.chip.rg R.SCH_Q_CFG_PARENT x.q = 0xFFF ∧ s.chip.rg R.SCH_Q_SCHED_SH_EN x.q = 0 ∧ s.chip.rg R.SCH_GATE_STAT_ACT_EN p = 0 ∧ (chipAt s t).classPaused p (s.chip.rg R.SCH_Q_CFG_TC x.q) = false ∧ s.chip.rg R.PRT_SEC_CFG_SEC_EN p = 0 :=
  ⟨0, 3, { f := { fr 4 [1, 2, 3] with origin := 1 }, q := 7, cells := 1, reserve := true, spill := none, member := none, at_ := 0 }, { st [(R.PRT_STAT_LINK, 3, 2), (R.SCH_Q_CFG_VALID, 7, 1), (R.SCH_Q_CFG_PORT, 7, 3), (R.SCH_Q_CFG_PARENT, 7, 0xFFF)] with chip.qs.frames := [{ f := { fr 4 [1, 2, 3] with origin := 1 }, q := 7, cells := 1, reserve := true, spill := none, member := none, at_ := 0 }] }, by decide +kernel⟩

theorem wit_pfcRefresh : ∃ (t : Nat) (p : Fin 128) (x : Nat) (s : State), ready s ∧ s.chip.rg R.SCH_PFC_CFG_MODE p = 2 ∧ x = s.chip.rg R.SCH_PFC_STAT_XOFF p ∧ x ≠ 0 ∧ x < 256 ∧ (∀ j : Fin 8, bit x j = true → Tab.get 0 s.chip.qs.pfcAt (pfcIdx p j) + s.chip.pfcPeriod p ≤ max s.chip.now t) ∧ (chipAt s t).lineUp p = true ∧ (chipAt s t).lineBusy p = false ∧ s.chip.rg R.PRT_STAT_LINK p = 2 ∧ s.chip.rg R.PRT_LOOP_PRBS_GEN p = 0 ∧ s.chip.qs.out = [] :=
  ⟨1000000000, 3, 5, st [(R.PRT_STAT_LINK, 3, 2), (R.SCH_PFC_STAT_XOFF, 3, 5), (R.SCH_PFC_CFG_MODE, 3, 2), (R.SCH_PFC_CFG_QUANTA, 3, 9)], by decide +kernel⟩

theorem wit_spillRefill : ∃ (t : Nat) (q : Fin 32768) (x : QFrame) (k : Fin 256) (s : State), ready s ∧ s.chip.qs.frames = [x] ∧ s.chip.qs.out = [] ∧ s.chip.qs.tx = [] ∧ s.chip.up.splits = [] ∧ x.q = q ∧ x.spill = some k.val ∧ x.cells ≤ s.chip.rg R.SCH_Q_LIMIT_MIN q * 4 ∧ x.cells ≤ s.chip.rg R.SCH_Q_SPILL_SPILL_ON q * 4 :=
  ⟨0, 7, { f := { fr 4 [1, 2, 3] with origin := 1 }, q := 7, cells := 1, reserve := true, spill := some 9, member := none, at_ := 0 }, 9, { st [(R.SCH_Q_LIMIT_MIN, 7, 8), (R.SCH_Q_SPILL_SPILL_ON, 7, 8), (R.SCH_Q_OCC_SPILLING, 7, 1)] with chip.qs.frames := [{ f := { fr 4 [1, 2, 3] with origin := 1 }, q := 7, cells := 1, reserve := true, spill := some 9, member := none, at_ := 0 }] }, by decide +kernel⟩

theorem wit_gateEntryAdvance : ∃ (t : Nat) (p : Fin 128) (s : State), ready s ∧ s.chip.rg R.SCH_GATE_STAT_ACT_EN p = 1 ∧ s.chip.rg R.SCH_GATE_STAT_BEFORE_BASE p = 0 ∧ Tab.get 0 s.chip.qs.gateAt p + s.chip.gateIval p (s.chip.rg R.SCH_GATE_STAT_CUR p) ≤ (chipAt s t).lNow :=
  ⟨10 ^ 12, 3, st [(R.SCH_GATE_STAT_ACT_EN, 3, 1), (R.SCH_GATE_STAT_ACT_N, 3, 3), (R.SCH_GATE_STAT_CUR, 3, 2)], by decide +kernel⟩

theorem wit_gateBaseReached : ∃ (t : Nat) (p : Fin 128) (s : State), ready s ∧ s.chip.rg R.SCH_GATE_STAT_BEFORE_BASE p = 1 ∧ Tab.get 0 s.chip.qs.gateBase p ≤ (chipAt s t).lNow :=
  ⟨0, 3, st [(R.SCH_GATE_STAT_BEFORE_BASE, 3, 1), (R.SCH_GATE_STAT_CUR, 3, 2)], by decide +kernel⟩

/-! Witnesses of `SampleEngineCommands`. -/

theorem wit_smpEnable : ∃ (t : Nat) (x : Fin 96) (v : Nat) (s : State), ready s ∧ s.chip.domOn (13 + x.val / 24) = true ∧ 1 ≤ bits v 16 10 ∧ bits v 16 10 ≤ 1000 ∧ (s.chip.cell x).on = false ∧ s.chip.rg R.SMP_PROG_BANK_ACT x = s.chip.rg R.SMP_PROG_BANK_RUN x ∧ s.chip.cellRole (smpBlk x) (smpNum x) = 0 :=
  ⟨0, 5, 0x00140003, doms ({ State.reset with chip.smp.cells := [(5, { SmpCell.reset with prog := [(0, 4)] })] }), by decide +kernel⟩

theorem wit_smpStep : ∃ (t : Nat) (x : Fin 96) (host : Bool) (w : Nat) (s : State), ready s ∧ (chipAt s t).smpPowered x = true ∧ bit s.chip.st.smpLost x = false ∧ s.chip.cellRole (smpBlk x) (smpNum x) = 0 ∧ s.chip.shadowPair (smpBlk x) = none ∧ (s.chip.cell x).on = true ∧ s.chip.rg R.SMP_CSET_STAT_RESEED x = 0 ∧ s.chip.pw.swapKind ≠ 2 ∧ w = s.chip.microword x (s.chip.runBank x) (s.chip.cell x).entry ∧ mwLegal w = true ∧ mwHop w = false ∧ mwEos w = false ∧ (s.chip.cell x).rep + 1 = mwRep w ∧ mwOpc w = 0 :=
  ⟨0, 5, false, 62307681144888376530058885329846272, { st [(R.PWR_DOM_STAT_PSTATE, 13, 2), (R.PWR_ISL_HOLD_S_STATE, 1, 2)] with chip.win := [(0x64050000, 786433), (0x64050004, 2147495936), (0x64050008, 2048)], chip.smp.cells := [(5, { SmpCell.reset with on := true })] }, by decide +kernel⟩

theorem wit_smpStep_1 : ∃ (t : Nat) (x : Fin 96) (w ra rb : Nat) (l : Fin 128) (s : State), ready s ∧ (chipAt s t).smpPowered x = true ∧ bit s.chip.st.smpLost x = false ∧ s.chip.cellRole (smpBlk x) (smpNum x) = 0 ∧ s.chip.shadowPair (smpBlk x) = none ∧ (s.chip.cell x).on = true ∧ s.chip.rg R.SMP_CSET_STAT_RESEED x = 0 ∧ s.chip.pw.swapKind ≠ 2 ∧ w = s.chip.microword x (s.chip.runBank x) (s.chip.cell x).entry ∧ mwLegal w = true ∧ mwHop w = false ∧ mwEos w = false ∧ (s.chip.cell x).rep + 1 = mwRep w ∧ mwOpc w = 1 ∧ mwClr w = false ∧ (s.chip.cell x).opA (s.chip.runBank x) (s.chip.coefAct x) w (s.chip.cell x).rep = .row ra ∧ (s.chip.cell x).opB (s.chip.runBank x) (s.chip.coefAct x) w (s.chip.cell x).rep = .row rb ∧ waitFor (s.chip.cell x).accW (s.chip.cell x).rowW (s.chip.cell x).steps [] [ra, rb] = 0 ∧ bit (s.chip.laneMask x (s.chip.runBank x) (mwMask w)) l = true :=
  ⟨0, 5, 21267850757119144671488356579148824576, 5, 6, 3, { st [(R.PWR_DOM_STAT_PSTATE, 13, 2), (R.PWR_ISL_HOLD_S_STATE, 1, 2)] with chip.win := [(0x60000000 + 0x80000 * 5 + 1024 * 5 + 24, 7), (0x60000000 + 0x80000 * 5 + 1024 * 6 + 24, 9)] ++ [(0x64050000, 268438016), (0x64050004, 25178112), (0x64050008, 2048)], chip.smp.cells := [(5, { SmpCell.reset with on := true })] }, by decide +kernel⟩

theorem wit_smpRowArrival : ∃ (t : Nat) (x : Fin 96) (r : ARow) (rest : List ARow) (y : Nat) (s : State), ready s ∧ (s.chip.path x).emit = r :: rest ∧ y = s.chip.smpServe x ∧ y ≠ 255 ∧ (chipAt s t).smpPowered y = true ∧ (s.chip.cell y).on = true ∧ (s.chip.cell y).skipping = false ∧ (s.chip.cell y).arr.length < 128 ∧ s.chip.shadowPair (smpBlk y) = none :=
  ⟨0, 5, ⟨[(1, 2)], true, 4, false, false⟩, [], 5, { st [(R.PWR_DOM_STAT_PSTATE, 13, 2), (R.PWR_ISL_HOLD_S_STATE, 1, 2)] with chip.smp.cells := [(5, { SmpCell.reset with on := true })], chip.fh.cells := [(5, { FhCell.reset with emit := [⟨[(1, 2)], true, 4, false, false⟩] })] }, by decide +kernel⟩

theorem wit_smpSymTimeout : ∃ (t : Nat) (x : Fin 96) (a : Nat) (s : State), ready s ∧ (s.chip.cell x).popAt = some a ∧ a + s.chip.rg R.SMP_CELL_CFG_SYM_TO x * usPs ≤ max s.chip.now t ∧ (s.chip.cell x).zeroing = false :=
  ⟨10 ^ 12, 5, 7, { State.reset with chip.smp.cells := [(5, { SmpCell.reset with popAt := some 7 })] }, by decide +kernel⟩

theorem wit_smpMemWrite : ∃ (t : Nat) (who : Fin 20) (a v x r : Nat) (s : State), ready s ∧ who.val < 4 ∧ v < 2 ^ 32 ∧ 0x60000000 ≤ a ∧ a < 0x63000000 ∧ (chipAt s t).mayWrite who a = stOk ∧ (chipAt s t).reach a = stOk ∧ x = (a - 0x60000000) / 0x80000 ∧ r = (a - 0x60000000) % 0x80000 / 1024 ∧ s.chip.rowInBank x r 0 = false ∧ s.chip.rowInBank x r 1 = false ∧ s.chip.coefAct x ≤ 1 :=
  ⟨0, 0, 0x60280008, 0xFFFFF, 5, 0, { stSess with chip := stSess.chip.wg R.PWR_DOM_STAT_PSTATE 13 2 }, by decide +kernel⟩

/-! Witnesses of `FronthaulCommands`. -/

theorem wit_iqFrameAssemble : ∃ (t : Nat) (x : Fin 96) (f : Frame) (flow : Nat) (b : List Byte) (q : IqSect) (e : Nat × List Byte) (s : State), ready s ∧ s.chip.fh.inQ = [(f, flow)] ∧ s.chip.obj 0x0502 flow = some b ∧ flCell b = x ∧ flNext b = 0xFFFF ∧ iqParse f.bytes = some q ∧ q.mant = flMant b ∧ sectPrbs q b ≠ [] ∧ s.chip.rg R.SMP_ASM_STAT_VALID x = 0 ∧ (s.chip.path x).opened = [] ∧ (s.chip.path x).emit = [] ∧ e ∈ s.chip.inFlows x ∧ flSlot e.2 ≠ flSlot b ∧ flFirst e.2 < 512 ∧ 1 ≤ flCount e.2 :=
  ⟨0, 5, { fr 4 [] with bytes := zeros 12 ++ [0xAE, 0xFE, 16, 0, 0, 16, 0, 3, 0, 9, 0, 40, 0, 2, 0, 1, 1, 0, 0, 170, 170, 170], gen := 6 }, 3, [0, 0, 0, 26, 0, 1, 0, 0, 0, 8, 255, 255, 0, 100, 50, 0], ⟨40, 2, 1, 1, [0, 0xAA, 0xAA, 0xAA]⟩, (4, [0, 0, 0, 26, 1, 1, 0, 0, 0, 8, 255, 255, 0, 100, 50, 0]), { State.reset with chip.alm.active := [(0x0502 * 65536 + 3, [0, 0, 0, 26, 0, 1, 0, 0, 0, 8, 255, 255, 0, 100, 50, 0]), (0x0502 * 65536 + 4, [0, 0, 0, 26, 1, 1, 0, 0, 0, 8, 255, 255, 0, 100, 50, 0])], chip.fh.inQ := [({ fr 4 [] with bytes := zeros 12 ++ [0xAE, 0xFE, 16, 0, 0, 16, 0, 3, 0, 9, 0, 40, 0, 2, 0, 1, 1, 0, 0, 170, 170, 170], gen := 6 }, 3)] }, by decide +kernel⟩

theorem wit_iqAsmTimeout : ∃ (t : Nat) (x : Fin 96) (y : OpenSym) (e : Nat × List Byte) (s : State), ready s ∧ (s.chip.path x).opened = [y] ∧ s.chip.rank0 x = some e ∧ y.at_ + flTimeout e.2 * usPs ≤ max s.chip.now t ∧ s.chip.symComplete x y = false ∧ flFill e.2 = false :=
  ⟨10 ^ 12, 5, ⟨9, 5, [], 1, none⟩, (3, [0, 0, 0, 26, 0, 1, 0, 0, 0, 8, 255, 255, 0, 100, 50, 0]), { State.reset with chip.alm.active := [(0x0502 * 65536 + 3, [0, 0, 0, 26, 0, 1, 0, 0, 0, 8, 255, 255, 0, 100, 50, 0])], chip.fh.cells := [(5, { FhCell.reset with opened := [⟨9, 5, [], 1, none⟩] })] }, by decide +kernel⟩

theorem wit_iqOutputBlock : ∃ (t : Nat) (x : Fin 96) (y : Nat) (r : DRow) (e : Nat × List Byte) (s : State), ready s ∧ y = s.chip.smpServe x ∧ y ≠ 255 ∧ (chipAt s t).smpPowered y = true ∧ (s.chip.cell y).dep = [r] ∧ r.blk = true ∧ s.chip.flows.find? (fun e => decide (flKind e.2 = 1 ∧ flCell e.2 = x ∧ flSlot e.2 = r.stream)) = some e ∧ Tab.get [] (s.chip.path x).blocks r.stream = [] ∧ 1 ≤ flCount e.2 ∧ flCount e.2 ≤ flPerFrame e.2 :=
  ⟨0, 5, 5, ⟨[(1, 2)], 1, 4, 0, true, false, 9, false⟩, (3, [1, 0, 0, 26, 4, 3, 0, 0, 0, 1, 255, 255, 0, 0, 50, 0] ++ zeros 16), { st [(R.PWR_DOM_STAT_PSTATE, 13, 2), (R.PWR_ISL_HOLD_S_STATE, 1, 2)] with chip.alm.active := [(0x0502 * 65536 + 3, [1, 0, 0, 26, 4, 3, 0, 0, 0, 1, 255, 255, 0, 0, 50, 0] ++ zeros 16)], chip.smp.cells := [(5, { SmpCell.reset with dep := [⟨[(1, 2)], 1, 4, 0, true, false, 9, false⟩] })] }, by decide +kernel⟩

theorem wit_coefFrame : ∃ (t : Nat) (x : Fin 96) (f : Frame) (flow : Nat) (b p : List Byte) (s : State), ready s ∧ s.chip.fh.coefQ = [(f, flow)] ∧ s.chip.obj 0x0502 flow = some b ∧ flCell b = x ∧ s.chip.coefForm x f.bytes = true ∧ p = f.bytes.drop 14 ∧ (s.chip.path x).pend = none ∧ (s.chip.path x).any = false ∧ s.chip.spareSmp (smpBlk x) = none ∧ s.chip.smpServe x = x :=
  ⟨0, 5, { fr 4 [] with bytes := zeros 12 ++ [0x88, 0xB6] ++ ([1, 0, 0, 26, 0, 0, 0, 7, 0, 20, 0, 4, 0, 1, 1, 0] ++ zeros 16 ++ zeros 640), gen := 6 }, 3, [2, 0, 0, 26, 0, 0, 0, 0, 0, 0, 255, 255, 0, 100, 50, 0], [1, 0, 0, 26, 0, 0, 0, 7, 0, 20, 0, 4, 0, 1, 1, 0] ++ zeros 16 ++ zeros 640, { State.reset with chip.alm.active := [(0x0502 * 65536 + 3, [2, 0, 0, 26, 0, 0, 0, 0, 0, 0, 255, 255, 0, 100, 50, 0])], chip.smp.cells := [(5, { SmpCell.reset with prog := [(4, 9)] })], chip.fh.coefQ := [({ fr 4 [] with bytes := zeros 12 ++ [0x88, 0xB6] ++ ([1, 0, 0, 26, 0, 0, 0, 7, 0, 20, 0, 4, 0, 1, 1, 0] ++ zeros 16 ++ zeros 640), gen := 6 }, 3)] }, by decide +kernel⟩

theorem wit_coefSetTimeout : ∃ (t : Nat) (x : Fin 96) (y : CoefSet) (e : Nat × List Byte) (s : State), ready s ∧ (s.chip.path x).pend = some y ∧ s.chip.flows.find? (fun e => decide (flKind e.2 = 2 ∧ flCell e.2 = x)) = some e ∧ s.chip.rg R.SMP_COEF_STAT_STATE x = 2 ∧ y.complete = false ∧ s.chip.spareSmp (smpBlk x) = none ∧ s.chip.smpServe x = x ∧ y.at_ + flTimeout e.2 * usPs ≤ max s.chip.now t :=
  ⟨10 ^ 12, 5, ⟨7, 0, 20, 4, [], [1], 5, false⟩, (3, [2, 0, 0, 26, 0, 0, 0, 0, 0, 0, 255, 255, 0, 100, 50, 0]), { st [(R.SMP_COEF_STAT_STATE, 5, 2)] with chip.alm.active := [(0x0502 * 65536 + 3, [2, 0, 0, 26, 0, 0, 0, 0, 0, 0, 255, 255, 0, 100, 50, 0])], chip.fh.cells := [(5, { FhCell.reset with pend := some ⟨7, 0, 20, 4, [], [1], 5, false⟩ })] }, by decide +kernel⟩

/-! Witnesses of `TimeDomainCommands`. -/

theorem wit_domainLossTimeout : ∃ (t : Nat) (a : Nat) (s : State), ready s ∧ s.chip.tm.mapAt = some a ∧ a + s.chip.rg R.TMG_A_CFG_LOSS_TO 0 * secPs ≤ max s.chip.now t ∧ s.chip.rg R.TMG_DOM_STAT_DSTATE 0 = 2 :=
  ⟨10 ^ 15, 7, { st [(R.TMG_DOM_STAT_DSTATE, 0, 2)] with chip.tm.mapAt := some 7 }, by decide +kernel⟩

theorem wit_ppsInEdge : ∃ (t : Nat) (w a : Nat) (s : State), ready s ∧ s.chip.tm.timeVio = true ∧ s.chip.rg R.TMG_B_PPS_MINW 0 ≤ w ∧ s.chip.rg R.TMG_PPSIN_STAT_STUCK 0 = 0 ∧ s.chip.tm.ppsAt = some a ∧ s.chip.tm.ppsFresh = false ∧ a + 900 * msPs ≤ max s.chip.now t ∧ max s.chip.now t ≤ a + 1100 * msPs ∧ s.chip.tm.ppsEdge = none :=
  ⟨10 ^ 12, 100000, 7, { State.reset with chip.tm.ppsAt := some 7, chip.tm.ppsFresh := false, chip.tm.timeVio := true }, by decide +kernel⟩

theorem wit_ppsInEdge_1 : ∃ (t : Nat) (w a : Nat) (s : State), ready s ∧ s.chip.tm.timeVio = true ∧ s.chip.rg R.TMG_B_PPS_MINW 0 ≤ w ∧ s.chip.rg R.TMG_PPSIN_STAT_STUCK 0 = 0 ∧ s.chip.tm.ppsAt = some a ∧ s.chip.tm.ppsFresh = false ∧ a + msPs ≤ max s.chip.now t ∧ max s.chip.now t < a + 900 * msPs :=
  ⟨10 ^ 10, 100000, 7, { State.reset with chip.tm.ppsAt := some 7, chip.tm.ppsFresh := false, chip.tm.timeVio := true }, by decide +kernel⟩

theorem wit_ppsMissing : ∃ (t : Nat) (a : Nat) (s : State), ready s ∧ s.chip.tm.ppsMissAt = some a ∧ a + 1100 * msPs ≤ max s.chip.now t ∧ s.chip.tm.ppsMiss < 2 :=
  ⟨2 * 10 ^ 12, 7, { State.reset with chip.tm.ppsMissAt := some 7 }, by decide +kernel⟩

theorem wit_ppsMissing_1 : ∃ (t : Nat) (a : Nat) (s : State), ready s ∧ s.chip.tm.ppsMissAt = some a ∧ a + 1100 * msPs ≤ max s.chip.now t ∧ s.chip.tm.ppsMiss = 2 ∧ s.chip.rg R.TMG_B_CFG_SRC 0 = 1 ∧ s.chip.rg R.TMG_DOM_STAT_DSTATE 1 = 2 :=
  ⟨2 * 10 ^ 12, 7, { st [(R.TMG_B_CFG_SRC, 0, 1), (R.TMG_DOM_STAT_DSTATE, 1, 2)] with chip.tm.ppsMissAt := some 7, chip.tm.ppsMiss := 2 }, by decide +kernel⟩

theorem wit_ppsStuck : ∃ (t : Nat) (s : State), ready s ∧ s.chip.rg R.TMG_B_CFG_SRC 0 = 1 ∧ s.chip.rg R.TMG_DOM_STAT_DSTATE 1 = 2 :=
  ⟨0, st [(R.TMG_B_CFG_SRC, 0, 1), (R.TMG_DOM_STAT_DSTATE, 1, 2)], by decide +kernel⟩

theorem wit_ppsStuckRelease : ∃ (t : Nat) (s : State), ready s ∧ s.chip.rg R.TMG_PPSIN_STAT_STUCK 0 = 1 :=
  ⟨0, st [(R.TMG_PPSIN_STAT_STUCK, 0, 1)], by decide +kernel⟩

theorem wit_todRxMsg : ∃ (t : Nat) (w : List (Nat × Byte)) (b : List Byte) (a : Nat) (e : Int) (s : State), ready s ∧ b = todFind (todStretch w) ∧ b.length = 24 ∧ byteAt b 2 = 1 ∧ crc16 (b.take 22) = beAt b 22 2 ∧ bit (byteAt b 3) 0 = true ∧ s.chip.tm.ppsAt = some a ∧ s.chip.tm.ppsEdge = some e ∧ a + 10 * msPs ≤ max s.chip.now t ∧ max s.chip.now t ≤ a + 900 * msPs ∧ s.chip.rg R.TMG_B_CFG_FREQ_IN_EN 0 = 0 ∧ s.chip.rg R.TMG_PPSIN_STAT_QUAL_CNT 0 < 15 ∧ s.chip.rg R.TMG_B_CFG_SRC 0 = 1 ∧ s.chip.rg R.TMG_PPSIN_STAT_QUAL_CNT 0 + 1 < s.chip.rg R.TMG_B_CFG_QUAL 0 ∧ s.chip.rg R.TMG_DOM_STAT_DSTATE 1 = 3 ∧ s.chip.rg R.TMG_UTC_SRC 0 = 1 :=
  ⟨10 ^ 11, (0, 0x33) :: (([0xA5, 0x5A, 1, 1, 0, 0, 0, 0, 0, 9] ++ zeros 12 : List Byte) ++ beBytes 2 (crc16 ([0xA5, 0x5A, 1, 1, 0, 0, 0, 0, 0, 9] ++ zeros 12 : List Byte))).map (fun y => (1000, y)), (([0xA5, 0x5A, 1, 1, 0, 0, 0, 0, 0, 9] ++ zeros 12 : List Byte) ++ beBytes 2 (crc16 ([0xA5, 0x5A, 1, 1, 0, 0, 0, 0, 0, 9] ++ zeros 12 : List Byte))), 7, 5, { st [(R.TMG_UTC_SRC, 0, 1), (R.TMG_B_CFG_SRC, 0, 1), (R.TMG_DOM_STAT_DSTATE, 1, 3)] with chip.tm.ppsAt := some 7, chip.tm.ppsEdge := some 5 }, by decide +kernel⟩

theorem wit_todRxMsg_1 : ∃ (t : Nat) (w : List (Nat × Byte)) (b : List Byte) (a : Nat) (e : Int) (s : State), ready s ∧ b = todFind (todStretch w) ∧ b.length = 24 ∧ byteAt b 2 = 1 ∧ crc16 (b.take 22) = beAt b 22 2 ∧ bit (byteAt b 3) 0 = true ∧ s.chip.tm.ppsAt = some a ∧ s.chip.tm.ppsEdge = some e ∧ a + 10 * msPs ≤ max s.chip.now t ∧ max s.chip.now t ≤ a + 900 * msPs ∧ s.chip.rg R.TMG_B_CFG_FREQ_IN_EN 0 = 0 ∧ s.chip.rg R.TMG_PPSIN_STAT_QUAL_CNT 0 < 15 ∧ s.chip.rg R.TMG_B_CFG_SRC 0 ≠ 1 :=
  ⟨10 ^ 11, (([0xA5, 0x5A, 1, 1, 0, 0, 0, 0, 0, 9] ++ zeros 12 : List Byte) ++ beBytes 2 (crc16 ([0xA5, 0x5A, 1, 1, 0, 0, 0, 0, 0, 9] ++ zeros 12 : List Byte))).map (fun y => (1000, y)), (([0xA5, 0x5A, 1, 1, 0, 0, 0, 0, 0, 9] ++ zeros 12 : List Byte) ++ beBytes 2 (crc16 ([0xA5, 0x5A, 1, 1, 0, 0, 0, 0, 0, 9] ++ zeros 12 : List Byte))), 7, 5, { st [(R.TMG_UTC_SRC, 0, 1)] with chip.tm.ppsAt := some 7, chip.tm.ppsEdge := some 5 }, by decide +kernel⟩

theorem wit_todRxMsg_2 : ∃ (t : Nat) (w : List (Nat × Byte)) (b : List Byte) (s : State), ready s ∧ b = todFind (todStretch w) ∧ b.length = 24 ∧ crc16 (b.take 22) ≠ beAt b 22 2 :=
  ⟨0, (([0xA5, 0x5A, 1, 1, 0, 0, 0, 0, 0, 9] ++ zeros 12 : List Byte) ++ beBytes 2 (crc16 ([0xA5, 0x5A, 1, 1, 0, 0, 0, 0, 0, 9] ++ zeros 12 : List Byte) + 1)).map (fun y => (1000, y)), ([0xA5, 0x5A, 1, 1, 0, 0, 0, 0, 0, 9] ++ zeros 12 : List Byte) ++ beBytes 2 (crc16 ([0xA5, 0x5A, 1, 1, 0, 0, 0, 0, 0, 9] ++ zeros 12 : List Byte) + 1), State.reset, by decide +kernel⟩

theorem wit_todRxMsg_3 : ∃ (t : Nat) (w : List (Nat × Byte)) (s : State), ready s ∧ (todFind (todStretch w)).length ≠ 24 :=
  ⟨0, [(0, 0xA5), (2000000, 0x5A)], State.reset, by decide +kernel⟩

theorem wit_freqInMeasure : ∃ (t : Nat) (ppb : Int) (a : Nat) (s : State), ready s ∧ absI ppb ≤ 2000 ∧ s.chip.tm.freqGood = some a ∧ a + secPs ≤ max s.chip.now t :=
  ⟨10 ^ 13, -2000, 7, { State.reset with chip.tm.freqGood := some 7 }, by decide +kernel⟩

theorem wit_freqInMeasure_1 : ∃ (t : Nat) (ppb : Int) (s : State), ready s ∧ 2000 < absI ppb ∧ s.chip.rg R.TMG_PPSIN_STAT_FREQ_OK 0 = 1 ∧ s.chip.rg R.TMG_B_CFG_FREQ_IN_EN 0 = 1 ∧ s.chip.rg R.TMG_B_CFG_SRC 0 = 1 ∧ s.chip.rg R.TMG_DOM_STAT_DSTATE 1 = 2 :=
  ⟨0, -2001, st [(R.TMG_PPSIN_STAT_FREQ_OK, 0, 1), (R.TMG_B_CFG_FREQ_IN_EN, 0, 1), (R.TMG_B_CFG_SRC, 0, 1), (R.TMG_DOM_STAT_DSTATE, 1, 2)], by decide +kernel⟩

theorem wit_freqInEdgeLoss : ∃ (t : Nat) (s : State), ready s ∧ s.chip.rg R.TMG_PPSIN_STAT_FREQ_OK 0 = 1 ∧ s.chip.rg R.TMG_B_CFG_FREQ_IN_EN 0 = 0 :=
  ⟨0, st [(R.TMG_PPSIN_STAT_FREQ_OK, 0, 1)], by decide +kernel⟩

theorem wit_freqinIntegralUpdate : ∃ (t : Nat) (phase : Int) (s : State), ready s ∧ s.chip.rg R.TMG_B_CFG_SRC 0 = 1 ∧ s.chip.rg R.TMG_B_CFG_FREQ_IN_EN 0 = 1 ∧ s.chip.rg R.TMG_PPSIN_STAT_FREQ_OK 0 = 1 ∧ s.chip.rg R.TMG_DOM_STAT_DSTATE 1 = 2 :=
  ⟨0, 7000000, st [(R.TMG_PPSIN_STAT_FREQ_OK, 0, 1), (R.TMG_B_CFG_FREQ_IN_EN, 0, 1), (R.TMG_B_CFG_SRC, 0, 1), (R.TMG_DOM_STAT_DSTATE, 1, 2)], by decide +kernel⟩

theorem wit_bMeasWrite : ∃ (t : Nat) (ofs : Int) (s : State), ready s ∧ s.chip.domOn 1 = true ∧ s.chip.rg R.TMG_B_CFG_SRC 0 = 2 ∧ s.chip.rg R.TMG_DOM_STAT_DSTATE 1 = 2 :=
  ⟨10 ^ 9, 55, st [(R.TMG_B_CFG_SRC, 0, 2), (R.TMG_DOM_STAT_DSTATE, 1, 2)], by decide +kernel⟩

theorem wit_bMeasWrite_1 : ∃ (t : Nat) (ofs : Int) (s : State), ready s ∧ s.chip.domOn 1 = true ∧ s.chip.rg R.TMG_B_CFG_SRC 0 = 2 ∧ s.chip.rg R.TMG_DOM_STAT_DSTATE 1 = 2 :=
  ⟨10 ^ 9, 55, st [(R.TMG_B_CFG_SRC, 0, 2), (R.TMG_DOM_STAT_DSTATE, 1, 2)], by decide +kernel⟩

theorem wit_bMeasWrite_2 : ∃ (t : Nat) (inv : Bool) (ofs : Int) (s : State), ready s ∧ s.chip.domOn 1 = true :=
  ⟨0, false, 5, State.reset, by decide +kernel⟩

theorem wit_timeVioOutOfRange : ∃ (t : Nat) (s : State), ready s ∧ s.chip.rg R.TMG_B_CFG_SRC 0 ≠ 1 :=
  ⟨0, State.reset, by decide +kernel⟩

theorem wit_timeVioOutOfRange_1 : ∃ (t : Nat) (s : State), ready s :=
  ⟨0, State.reset, by decide +kernel⟩

/-! Witnesses of `TimeSelectionCommands`. -/

theorem wit_selCfgWrite : ∃ (t : Nat) (v : Nat) (s : State), ready s ∧ s.chip.domOn 1 = true ∧ bits v 0 2 ≠ 3 ∧ bits v 4 12 ≤ 3600 :=
  ⟨0, 0x10105, State.reset, by decide +kernel⟩

theorem wit_selWtrExpire : ∃ (t : Nat) (s : State), ready s ∧ s.chip.rg R.TMG_SEL_CFG_MODE 0 = 0 ∧ s.chip.tm.away = true ∧ s.chip.rg R.TMG_SEL_CFG_PREF 0 = 1 ∧ s.chip.rg R.TMG_STAT_SEL 0 = 0 ∧ s.chip.rg R.TMG_DOM_STAT_DSTATE 1 = 2 ∧ s.chip.rg R.TMG_SEL_CFG_WTR 0 ≠ 0 ∧ (s.chip.dom 1).lockedAt + s.chip.rg R.TMG_SEL_CFG_WTR 0 * secPs ≤ max s.chip.now t :=
  ⟨10 ^ 15, { st [(R.TMG_SEL_CFG_PREF, 0, 1), (R.TMG_SEL_CFG_WTR, 0, 1), (R.TMG_DOM_STAT_DSTATE, 1, 2)] with chip.tm.away := true }, by decide +kernel⟩

theorem wit_steerUpdate : ∃ (t : Nat) (s : State), ready s :=
  ⟨10 ^ 9, st [(R.TMG_STAT_OUT_VALID, 0, 1), (R.TMG_STAT_SEL, 0, 1), (R.TMG_DOM_STAT_DSTATE, 1, 2), (R.TMG_SEL_CFG_MODE, 0, 2)], by decide +kernel⟩

theorem wit_steerUpdate_1 : ∃ (t : Nat) (s : State), ready s ∧ s.chip.rg R.TMG_STAT_OUT_VALID 0 = 1 ∧ s.chip.rg R.TMG_SEL_CFG_MODE 0 = 0 ∧ s.chip.rg R.TMG_DOM_STAT_DSTATE 0 ≠ 2 ∧ s.chip.rg R.TMG_DOM_STAT_DSTATE 1 ≠ 2 ∧ s.chip.rg R.TMG_STAT_SEL 0 ≤ 1 ∧ s.chip.rg R.TMG_STAT_STATE 0 = 3 ∧ s.chip.rg R.TMG_STAT_EQX_ACTIVE 0 = 0 :=
  ⟨10 ^ 9, { st [(R.TMG_STAT_OUT_VALID, 0, 1), (R.TMG_STAT_STATE, 0, 3)] with chip.tm.vigMs := 5999 }, by decide +kernel⟩

theorem wit_timeStep : ∃ (t : Nat) (lo hi : Nat) (s : State), ready s ∧ s.chip.domOn 1 = true ∧ s.chip.rg R.TMG_STAT_OUT_VALID 0 = 1 ∧ bit hi 30 = false ∧ absI (sgn 48 (lo % 2 ^ 32 + hi % 65536 * 2 ^ 32)) ≤ 1000 :=
  ⟨10 ^ 9, 0xFFFFFC18, 0xFFFF, st [(R.TMG_STAT_OUT_VALID, 0, 1)], by decide +kernel⟩

theorem wit_timeStep_1 : ∃ (t : Nat) (lo hi : Nat) (s : State), ready s ∧ s.chip.domOn 1 = true :=
  ⟨0, 1, 0, State.reset, by decide +kernel⟩

theorem wit_slewWrite : ∃ (t : Nat) (v : Nat) (s : State), ready s ∧ s.chip.domOn 1 = true ∧ 1 ≤ v % 65536 ∧ v % 65536 ≤ s.chip.slewMax :=
  ⟨0, 1000, State.reset, by decide +kernel⟩

theorem wit_slewWrite_1 : ∃ (t : Nat) (v : Nat) (s : State), ready s ∧ s.chip.domOn 1 = true :=
  ⟨0, 5, State.reset, by decide +kernel⟩

theorem wit_tmgNsRead : ∃ (t : Nat) (s : State), ready s :=
  ⟨123456789012345, { State.reset with chip.tm.off := 7 * 2 ^ 60 + 5 }, by decide +kernel⟩

theorem wit_oscCheck : ∃ (t : Nat) (rp rs dp ds : Nat) (s : State), ready s ∧ s.chip.rg R.TMG_OSC_STAT_SECONDARY 0 < 3 ∧ s.chip.rg R.TMG_OSC_STAT_PRIMARY 0 ≠ s.chip.rg R.TMG_OSC_STAT_SECONDARY 0 ∧ s.chip.rg R.TMG_OSC_STAT_SPARE 0 ≤ 3 ∧ 10 < rp ∧ 2 ≤ Tab.get 0 s.chip.tm.oscRun (s.chip.rg R.TMG_OSC_STAT_PRIMARY 0) ∧ s.chip.rg R.TMG_DOM_STAT_DSTATE 0 = 2 ∧ ds ≤ dp :=
  ⟨0, 11, 0, 5, 5, { st [(R.TMG_DOM_STAT_DSTATE, 0, 2), (R.TMG_OSC_STAT_SECONDARY, 0, 1), (R.TMG_OSC_STAT_SPARE, 0, 2)] with chip.tm.oscRun := [(0, 2)] }, by decide +kernel⟩

theorem wit_leapApply : ∃ (t : Nat) (s : State), ready s ∧ s.chip.rg R.TMG_UTC_PENDING 0 = 1 ∧ s.chip.rg R.TMG_UTC_DIR 0 = 0 ∧ s.chip.rg R.TMG_LEAP_AT_LO_SEC 0 + s.chip.rg R.TMG_LEAP_AT_HI_SEC 0 * 2 ^ 32 ≤ secOf (chipAt s t).lNow ∧ s.chip.rs R.TMG_UTC_OFFSET 0 < 32767 :=
  ⟨9 * 10 ^ 12, st [(R.TMG_UTC_PENDING, 0, 1), (R.TMG_LEAP_AT_LO_SEC, 0, 8)], by decide +kernel⟩

/-! Witnesses of `TimeOutputCommands`. -/

theorem wit_ppsOutEdge : ∃ (t : Nat) (j : Fin 2) (sec : Nat) (s : State), ready s ∧ s.chip.rg R.TMG_PPSOUT_CFG_EN j = 1 ∧ (chipAt s t).squelched (s.chip.rg R.TMG_PPSOUT_CFG_SQ j) = false ∧ s.chip.tm.timeVio = true ∧ (chipAt s t).domOn 1 = true ∧ (nearSec ((chipAt s t).lNow + (s.chip.rg R.TMG_PPSOUT_CFG_ADV j : Int) * 65536)).1 = sec ∧ (nearSec ((chipAt s t).lNow + (s.chip.rg R.TMG_PPSOUT_CFG_ADV j : Int) * 65536)).2 ≤ 65536 :=
  ⟨0, 0, 0, { st [(R.TMG_PPSOUT_CFG_SQ, 0, 0), (R.TMG_PPSOUT_CFG_EN, 0, 1), (R.PWR_DOM_STAT_PSTATE, 1, 2)] with chip.tm.timeVio := true }, by decide +kernel⟩

theorem wit_todTxSend : ∃ (t : Nat) (sec a : Nat) (s : State), ready s ∧ s.chip.tm.ppsOutSec = some (sec, a) ∧ a + 100 * msPs ≤ max s.chip.now t ∧ s.chip.rg R.TMG_OUT_CFG_TOD_EN 0 = 1 ∧ s.chip.tm.timeVio = true ∧ (chipAt s t).domOn 1 = true :=
  ⟨10 ^ 12, 5, 7, { st [(R.TMG_OUT_CFG_TOD_EN, 0, 1), (R.PWR_DOM_STAT_PSTATE, 1, 2)] with chip.tm.timeVio := true, chip.tm.ppsOutSec := some (5, 7) }, by decide +kernel⟩

theorem wit_ptpSyncSend : ∃ (t : Nat) (p : Fin 128) (s : State), ready s ∧ (chipAt s t).lineUp p = true ∧ s.chip.rg R.PRT_STAT_LINK p = 2 ∧ (chipAt s t).domOn 1 = true ∧ (chipAt s t).lineBusy p = false ∧ s.chip.rg R.PRT_LOOP_PRBS_GEN p = 0 ∧ s.chip.rg R.PRT_SEC_CFG_SEC_EN p = 0 ∧ s.chip.rg R.TMG_PTP_CFG_ROLE p = 1 ∧ (chipAt s t).syncPast p ≤ 65536 :=
  ⟨0, 0, st [(R.PRT_STAT_LINK, 0, 2), (R.PWR_DOM_STAT_PSTATE, 1, 2), (R.TMG_PTP_CFG_ROLE, 0, 1)], by decide +kernel⟩

theorem wit_esmcInfoSend : ∃ (t : Nat) (p : Fin 128) (s : State), ready s ∧ (chipAt s t).lineUp p = true ∧ s.chip.rg R.PRT_STAT_LINK p = 2 ∧ (chipAt s t).domOn 1 = true ∧ (chipAt s t).lineBusy p = false ∧ s.chip.rg R.PRT_LOOP_PRBS_GEN p = 0 ∧ s.chip.rg R.PRT_SEC_CFG_SEC_EN p = 0 ∧ s.chip.rg R.TMG_PTP_CFG_ESMC_EN p = 1 :=
  ⟨0, 0, st [(R.PRT_STAT_LINK, 0, 2), (R.PWR_DOM_STAT_PSTATE, 1, 2), (R.TMG_PTP_CFG_ESMC_EN, 0, 1)], by decide +kernel⟩

theorem wit_esmcEventSend : ∃ (t : Nat) (p : Fin 128) (s : State), ready s ∧ (chipAt s t).lineUp p = true ∧ s.chip.rg R.PRT_STAT_LINK p = 2 ∧ (chipAt s t).domOn 1 = true ∧ (chipAt s t).lineBusy p = false ∧ s.chip.rg R.PRT_LOOP_PRBS_GEN p = 0 ∧ s.chip.rg R.PRT_SEC_CFG_SEC_EN p = 0 ∧ s.chip.rg R.TMG_PTP_CFG_ESMC_EN p = 1 ∧ bit s.chip.tm.esmcDue p = true :=
  ⟨0, 5, { st [(R.PRT_STAT_LINK, 5, 2), (R.PWR_DOM_STAT_PSTATE, 1, 2), (R.TMG_PTP_CFG_ESMC_EN, 5, 1)] with chip.tm.esmcDue := 32 }, by decide +kernel⟩

/-! Witnesses of `PortLinkCommands`. -/

theorem wit_portLightOn : ∃ (t : Nat) (p : Fin 128) (s : State), ready s ∧ s.chip.rg R.PRT_STAT_LINK p = 0 ∧ s.chip.rg R.PRT_LOOP_LOOP p = 0 ∧ (chipAt s t).portMay p = true ∧ s.chip.pt.failAt.find p = none :=
  ⟨0, 5, st [(R.PWR_ISL_HOLD_P_STATE, 1, 2), (R.PWR_DOM_STAT_PSTATE, 9, 2), (R.PRT_CFG_RATE, 5, 3)], by decide +kernel⟩

theorem wit_portTrainLocked : ∃ (t : Nat) (p : Fin 128) (s : State), ready s ∧ s.chip.rg R.PRT_STAT_LINK p = 1 ∧ Tab.get 0 s.chip.pt.trainAt p + msPs ≤ max s.chip.now t ∧ (chipAt s t).portMay p = true ∧ s.chip.pt.ctlQ = [] :=
  ⟨10 ^ 9, 5, st [(R.PWR_ISL_HOLD_P_STATE, 1, 2), (R.PWR_DOM_STAT_PSTATE, 9, 2), (R.PRT_CFG_RATE, 5, 3), (R.PRT_STAT_LINK, 5, 1), (R.PRT_STAT_LF, 5, 1)], by decide +kernel⟩

theorem wit_portTrainTimeout : ∃ (t : Nat) (p : Fin 128) (s : State), ready s ∧ s.chip.rg R.PRT_STAT_LINK p = 1 ∧ Tab.get 0 s.chip.pt.trainAt p + 100 * msPs ≤ max s.chip.now t :=
  ⟨10 ^ 11, 5, st [(R.PWR_ISL_HOLD_P_STATE, 1, 2), (R.PWR_DOM_STAT_PSTATE, 9, 2), (R.PRT_CFG_RATE, 5, 3), (R.PRT_STAT_LINK, 5, 1)], by decide +kernel⟩

theorem wit_portRetrainDelay : ∃ (t : Nat) (p : Fin 128) (a : Nat) (s : State), ready s ∧ s.chip.pt.failAt.find p = some a ∧ a + 10 * msPs ≤ max s.chip.now t ∧ s.chip.rg R.PRT_STAT_LINK p = 0 ∧ s.chip.rg R.PRT_LOOP_LOOP p = 0 ∧ bit s.chip.pt.lit p = true ∧ (chipAt s t).portMay p = true :=
  ⟨10 ^ 11, 5, 7, { st [(R.PWR_ISL_HOLD_P_STATE, 1, 2), (R.PWR_DOM_STAT_PSTATE, 9, 2), (R.PRT_CFG_RATE, 5, 3)] with chip.pt.failAt := [(5, 7)], chip.pt.lit := 32 }, by decide +kernel⟩

theorem wit_portLinkFault : ∃ (t : Nat) (p : Fin 128) (lf : Bool) (s : State), ready s ∧ s.chip.rg R.PRT_STAT_LINK p = 2 ∧ s.chip.rg R.PRT_LOOP_LOOP p = 0 :=
  ⟨0, 5, true, { st [(R.PWR_ISL_HOLD_P_STATE, 1, 2), (R.PWR_DOM_STAT_PSTATE, 9, 2), (R.PRT_CFG_RATE, 5, 3), (R.PRT_STAT_LINK, 5, 2)] with chip.pt.lit := 32 }, by decide +kernel⟩

theorem wit_remoteFault : ∃ (t : Nat) (p : Fin 128) (s : State), ready s ∧ s.chip.rg R.PRT_STAT_LINK p = 2 ∧ s.chip.rg R.PRT_STAT_RF p = 0 :=
  ⟨0, 5, st [(R.PRT_STAT_LINK, 5, 2)], by decide +kernel⟩

theorem wit_remoteFault_1 : ∃ (t : Nat) (p : Fin 128) (s : State), ready s ∧ s.chip.rg R.PRT_STAT_LINK p = 2 ∧ s.chip.pt.ctlQ = [] :=
  ⟨0, 5, st [(R.PRT_STAT_LINK, 5, 2), (R.PRT_STAT_RF, 5, 1)], by decide +kernel⟩

theorem wit_portAdminDown : ∃ (t : Nat) (p : Fin 128) (v : Nat) (s : State), ready s ∧ s.chip.domOn (9 + p.val / 32) = true ∧ bit v 4 = true ∧ bits v 8 2 ≠ 3 ∧ 1 ≤ bits v 16 10 ∧ bits v 16 10 ≤ 1000 :=
  ⟨0, 5, 0x00140210, doms (st [(R.PWR_ISL_HOLD_P_STATE, 1, 2), (R.PWR_DOM_STAT_PSTATE, 9, 2), (R.PRT_CFG_RATE, 5, 3), (R.PRT_STAT_LINK, 5, 2)]), by decide +kernel⟩

theorem wit_portFlushTimeout : ∃ (t : Nat) (p : Fin 128) (a : Nat) (x : QFrame) (s : State), ready s ∧ s.chip.pt.flushAt = [(p.val, a)] ∧ a + s.chip.rg R.PRT_CFG_FLUSH_TO p * msPs ≤ max s.chip.now t ∧ s.chip.qs.frames = [x] ∧ s.chip.rg R.SCH_Q_CFG_DIR x.q = 0 ∧ s.chip.rg R.SCH_Q_CFG_PORT x.q = p ∧ x.at_ ≤ a ∧ x.f.origin ≠ 0 :=
  ⟨10 ^ 13, 5, 7, { f := { fr 4 [1, 2, 3] with origin := 1 }, q := 7, cells := 1, reserve := true, spill := none, member := none, at_ := 3 }, { st [(R.SCH_Q_CFG_PORT, 7, 5)] with chip.pt.flushAt := [(5, 7)], chip.qs.frames := [{ f := { fr 4 [1, 2, 3] with origin := 1 }, q := 7, cells := 1, reserve := true, spill := none, member := none, at_ := 3 }] }, by decide +kernel⟩

theorem wit_idleEnter : ∃ (t : Nat) (p : Fin 128) (s : State), ready s ∧ s.chip.rg R.PRT_STAT_LINK p = 2 ∧ s.chip.rg R.PRT_CFG_IDLE_EN p = 1 ∧ bit s.chip.pt.lit p = true ∧ s.chip.qs.frames = [] ∧ s.chip.pt.ctlQ = [] ∧ Tab.get 0 s.chip.pt.busyAt p + s.chip.rg R.PRT_IDLE_CFG_HOLD p * usPs ≤ max s.chip.now t :=
  ⟨10 ^ 12, 5, { st [(R.PWR_ISL_HOLD_P_STATE, 1, 2), (R.PWR_DOM_STAT_PSTATE, 9, 2), (R.PRT_CFG_RATE, 5, 3), (R.PRT_STAT_LINK, 5, 2), (R.PRT_CFG_IDLE_EN, 5, 1)] with chip.pt.lit := 32 }, by decide +kernel⟩

theorem wit_wakeBurstSend : ∃ (t : Nat) (p : Fin 128) (s : State), ready s ∧ (chipAt s t).txIdle p = true ∧ s.chip.rg R.PRT_STAT_LINK p = 3 :=
  ⟨10 ^ 12, 5, st [(R.PRT_STAT_LINK, 5, 3), (R.PRT_STAT_RX_IDLE, 5, 1)], by decide +kernel⟩

theorem wit_wakeLocked : ∃ (t : Nat) (p : Fin 128) (a : Nat) (s : State), ready s ∧ s.chip.pt.wakeAt.find p = some a ∧ s.chip.rg R.PRT_STAT_LINK p = 3 ∧ max s.chip.now t ≤ a + usPs ∧ s.chip.pt.ctlQ = [] :=
  ⟨10 ^ 6, 5, 7, { st [(R.PRT_STAT_LINK, 5, 3)] with chip.pt.wakeAt := [(5, 7)] }, by decide +kernel⟩

theorem wit_wakeFail : ∃ (t : Nat) (p : Fin 128) (a : Nat) (s : State), ready s ∧ s.chip.pt.wakeAt.find p = some a ∧ s.chip.rg R.PRT_STAT_LINK p = 3 ∧ a + usPs ≤ max s.chip.now t :=
  ⟨10 ^ 9, 5, 7, { st [(R.PRT_STAT_LINK, 5, 3)] with chip.pt.wakeAt := [(5, 7)] }, by decide +kernel⟩

theorem wit_loopSet : ∃ (t : Nat) (p : Fin 128) (v : Nat) (s : State), ready s ∧ s.chip.domOn (9 + p.val / 32) = true ∧ s.chip.mode = 9 ∧ bits v 0 2 = 2 ∧ (chipAt s t).portMay p = true ∧ s.chip.rg R.PRT_STAT_LINK p = 2 :=
  ⟨0, 5, 0x32, doms (st [(R.PWR_ISL_HOLD_P_STATE, 1, 2), (R.PWR_DOM_STAT_PSTATE, 9, 2), (R.PRT_CFG_RATE, 5, 3), (R.TRK_MODE_CODE, 0, 9), (R.PRT_STAT_LINK, 5, 2)]), by decide +kernel⟩

theorem wit_loopSet_1 : ∃ (t : Nat) (p : Fin 128) (v : Nat) (s : State), ready s ∧ s.chip.domOn (9 + p.val / 32) = true ∧ s.chip.mode ≠ 9 :=
  ⟨0, 5, 0x32, doms (State.reset), by decide +kernel⟩

/-! Witnesses of `PortFrameCommands`. -/

theorem wit_localFrameRx : ∃ (t : Nat) (p : Fin 128) (l : List Byte) (s : State), ready s ∧ s.chip.rg R.PRT_STAT_LINK p = 2 ∧ beAt l 12 2 ≠ 0x8808 ∧ s.chip.rg R.PRT_SEC_CFG_SEC_EN p = 0 ∧ 60 ≤ l.length ∧ l.length + 4 ≤ s.chip.maxFrame ∧ s.chip.fifoOver 0 p none l.length = false ∧ s.chip.stampRoom 0 p = true ∧ s.chip.cellRole (s.chip.portBlk p) (s.chip.slotCell (s.chip.portBlk p) (s.chip.portSlot p)) ≠ 3 :=
  ⟨0, 5, zeros 60, st [(R.PRT_STAT_LINK, 5, 2)], by decide +kernel⟩

theorem wit_localFrameRx_1 : ∃ (t : Nat) (p : Fin 128) (l : List Byte) (s : State), ready s ∧ s.chip.rg R.PRT_STAT_LINK p = 2 ∧ beAt l 12 2 ≠ 0x8808 :=
  ⟨0, 5, zeros 60, st [(R.PRT_STAT_LINK, 5, 2)], by decide +kernel⟩

theorem wit_pauseFrameRx : ∃ (t : Nat) (p : Fin 129) (l : List Byte) (s : State), ready s ∧ p.val < 128 ∧ s.chip.rg R.PRT_STAT_LINK p = 2 ∧ s.chip.rg R.PRT_CFG_RX_PAUSE p = 1 ∧ beAt l 0 6 = 0x0180C2000001 ∧ beAt l 12 2 = 0x8808 ∧ beAt l 14 2 = 1 ∧ 0 < beAt l 16 2 ∧ s.chip.pt.releaseEnd = [] :=
  ⟨0, 5, zeros 0 ++ beBytes 6 0x0180C2000001 ++ zeros 6 ++ beBytes 2 0x8808 ++ beBytes 2 1 ++ beBytes 2 9 ++ zeros 42, st [(R.PRT_STAT_LINK, 5, 2), (R.PRT_CFG_RX_PAUSE, 5, 1), (R.PRT_CFG_RATE, 5, 3)], by decide +kernel⟩

theorem wit_pauseExpire : ∃ (t : Nat) (p : Fin 129) (k : Fin 8) (e : Nat) (s : State), ready s ∧ s.chip.hp.txWait = [] ∧ s.chip.pt.pauseEnd.find (pauseKey p k) = some e ∧ e ≤ max s.chip.now t :=
  ⟨10, 5, 2, 7, { st [(R.PRT_STAT_PAUSED, 5, 4)] with chip.pt.pauseEnd := [(42, 7)] }, by decide +kernel⟩

theorem wit_pauseWdExpire : ∃ (t : Nat) (p : Fin 129) (k : Fin 8) (e a : Nat) (s : State), ready s ∧ p.val < 128 ∧ s.chip.pt.pauseEnd.find (pauseKey p k) = some e ∧ s.chip.pt.pauseAt.find (pauseKey p k) = some a ∧ a + s.chip.rg R.PRT_PAUSE_CFG_WD p * msPs ≤ max s.chip.now t ∧ max s.chip.now t ≤ e :=
  ⟨10 ^ 12, 5, 2, 10 ^ 13, 7, { st [(R.PRT_STAT_PAUSED, 5, 4)] with chip.pt.pauseEnd := [(42, 10 ^ 13)], chip.pt.pauseAt := [(42, 7)] }, by decide +kernel⟩

theorem wit_pauseReleaseEnd : ∃ (t : Nat) (p : Fin 129) (k : Fin 8) (e : Nat) (s : State), ready s ∧ s.chip.pt.releaseEnd.find (pauseKey p k) = some e ∧ e ≤ max s.chip.now t :=
  ⟨10, 5, 2, 7, { st [(R.PRT_STAT_WD_REL, 5, 4)] with chip.pt.releaseEnd := [(42, 7)] }, by decide +kernel⟩

/-! Witnesses of `HostPortCommands`. -/

theorem wit_hostLaneCfg : ∃ (t : Nat) (v : Nat) (s : State), ready s ∧ s.chip.domOn 5 = true :=
  ⟨0, 5, State.reset, by decide +kernel⟩

theorem wit_hostLaneApply : ∃ (t : Nat) (v a : Nat) (s : State), ready s ∧ s.chip.pt.lane = some (v, a) ∧ a ≤ max s.chip.now t ∧ bits v 0 2 ≠ 3 :=
  ⟨10 ^ 9, 0xE4015, 7, { st [(R.HST_STAT_LINK, 0, 2)] with chip.pt.lane := some (0xE4015, 7) }, by decide +kernel⟩

theorem wit_hostModeAlternate : ∃ (t : Nat) (s : State), ready s ∧ s.chip.rg R.HST_STAT_LINK 0 = 0 ∧ (chipAt s t).domOn 5 = true :=
  ⟨10 ^ 11, st [(R.PWR_DOM_STAT_PSTATE, 5, 2)], by decide +kernel⟩

theorem wit_hostModeAlternate_1 : ∃ (t : Nat) (s : State), ready s ∧ s.chip.rg R.HST_LANE_CFG_MODE 0 = 0 ∧ s.chip.rg R.HST_STAT_LINK 0 = 1 ∧ s.chip.pt.hostAt + 50 * msPs ≤ max s.chip.now t :=
  ⟨10 ^ 11, st [(R.HST_STAT_LINK, 0, 1), (R.HST_STAT_MODE_ACT, 0, 2)], by decide +kernel⟩

theorem wit_hostBlockLock : ∃ (t : Nat) (s : State), ready s ∧ s.chip.hp.txWait = [] ∧ s.chip.rg R.HST_STAT_LINK 0 = 1 ∧ s.chip.pt.hostAt + msPs ≤ max s.chip.now t ∧ (chipAt s t).domOn 5 = true :=
  ⟨10 ^ 11, st [(R.HST_STAT_LINK, 0, 1), (R.PWR_DOM_STAT_PSTATE, 5, 2)], by decide +kernel⟩

theorem wit_hostLinkDown : ∃ (t : Nat) (s : State), ready s ∧ s.chip.rg R.HST_STAT_LINK 0 = 2 :=
  ⟨0, st [(R.HST_STAT_LINK, 0, 2)], by decide +kernel⟩

theorem wit_sscDetect : ∃ (t : Nat) (det : Bool) (ofs : Int) (s : State), ready s ∧ -128 ≤ ofs ∧ ofs ≤ 127 :=
  ⟨0, true, -7, State.reset, by decide +kernel⟩

/-! Witnesses of `SensorBusSendCommands`. -/

theorem wit_sbusFrameTx : ∃ (t : Nat) (x : SbusTx) (r : List SbusTx) (s : State), ready s ∧ s.chip.rg R.SBS_CFG_EN 0 = 1 ∧ (chipAt s t).domOn 2 = true ∧ s.chip.pt.sbTx = x :: r ∧ x.start = none ∧ s.chip.pt.sbHist = [] ∧ x.attempt = 0 ∧ x.held = false ∧ sbusPs x.bytes.length ≤ s.chip.dutyMax * msPs :=
  ⟨0, ⟨[1, 2, 3], 0, none, 0, false⟩, [], { st [(R.SBS_CFG_EN, 0, 1), (R.PWR_DOM_STAT_PSTATE, 2, 2)] with chip.pt.sbTx := [⟨[1, 2, 3], 0, none, 0, false⟩] }, by decide +kernel⟩

theorem wit_sbusFrameTx_1 : ∃ (t : Nat) (a : Nat) (runs : Bool) (x : SbusTx) (r : List SbusTx) (s : State), ready s ∧ s.chip.rg R.SBS_CFG_EN 0 = 1 ∧ (chipAt s t).domOn 2 = true ∧ s.chip.pt.sbTx = x :: r ∧ x.start = none ∧ s.chip.pt.sbHist = [] ∧ x.attempt = 0 ∧ x.held = false ∧ sbusPs x.bytes.length ≤ s.chip.dutyMax * msPs :=
  ⟨0, 77, false, ⟨[1, 2, 3], 0, none, 0, false⟩, [], { st [(R.SBS_CFG_EN, 0, 1), (R.PWR_DOM_STAT_PSTATE, 2, 2)] with chip.pt.sbTx := [⟨[1, 2, 3], 0, none, 0, false⟩] }, by decide +kernel⟩

theorem wit_sbusFrameTx_2 : ∃ (t : Nat) (x : SbusTx) (r : List SbusTx) (a b : Nat) (s : State), ready s ∧ s.chip.rg R.SBS_CFG_EN 0 = 1 ∧ (chipAt s t).domOn 2 = true ∧ s.chip.pt.sbTx = x :: r ∧ x.start = none ∧ s.chip.pt.sbHist = [(a, b)] ∧ x.attempt = 0 ∧ x.held = false ∧ b ≤ max s.chip.now t ∧ max s.chip.now t + sbusPs x.bytes.length ≤ 100 * msPs ∧ s.chip.dutyMax * msPs < b - a + sbusPs x.bytes.length :=
  ⟨10 ^ 10, ⟨[1, 2, 3], 0, none, 0, false⟩, [], 0, 10 ^ 10, { st [(R.SBS_CFG_EN, 0, 1), (R.PWR_DOM_STAT_PSTATE, 2, 2)] with chip.pt.sbTx := [⟨[1, 2, 3], 0, none, 0, false⟩], chip.pt.sbHist := [(0, 10 ^ 10)] }, by decide +kernel⟩

theorem wit_sbusBackoffEnd : ∃ (t : Nat) (x : SbusTx) (r : List SbusTx) (s : State), ready s ∧ s.chip.rg R.SBS_CFG_EN 0 = 1 ∧ (chipAt s t).domOn 2 = true ∧ s.chip.pt.sbTx = x :: r ∧ x.start = none ∧ s.chip.pt.sbHist = [] ∧ 0 < x.attempt ∧ x.held = false ∧ x.backoff ≤ max s.chip.now t ∧ sbusPs x.bytes.length ≤ s.chip.dutyMax * msPs :=
  ⟨9, ⟨[1, 2, 3], 2, none, 7, false⟩, [], { st [(R.SBS_CFG_EN, 0, 1), (R.PWR_DOM_STAT_PSTATE, 2, 2)] with chip.pt.sbTx := [⟨[1, 2, 3], 2, none, 7, false⟩] }, by decide +kernel⟩

theorem wit_sbusGuardRelease : ∃ (t : Nat) (x : SbusTx) (r : List SbusTx) (s : State), ready s ∧ s.chip.rg R.SBS_CFG_EN 0 = 1 ∧ (chipAt s t).domOn 2 = true ∧ s.chip.pt.sbTx = x :: r ∧ x.start = none ∧ s.chip.pt.sbHist = [] ∧ x.held = true ∧ sbusPs x.bytes.length ≤ s.chip.dutyMax * msPs :=
  ⟨9, ⟨[1, 2, 3], 0, none, 0, true⟩, [], { st [(R.SBS_CFG_EN, 0, 1), (R.PWR_DOM_STAT_PSTATE, 2, 2)] with chip.pt.sbTx := [⟨[1, 2, 3], 0, none, 0, true⟩] }, by decide +kernel⟩

theorem wit_sbusJabber : ∃ (t : Nat) (x : SbusTx) (r : List SbusTx) (a : Nat) (s : State), ready s ∧ s.chip.pt.sbTx = x :: r ∧ x.start = some a ∧ a + 2 * msPs ≤ max s.chip.now t :=
  ⟨10 ^ 10, ⟨[1, 2], 0, some 7, 0, false⟩, [], 7, { st [(R.SBS_CFG_EN, 0, 1), (R.PWR_DOM_STAT_PSTATE, 2, 2)] with chip.pt.sbTx := [⟨[1, 2], 0, some 7, 0, false⟩] }, by decide +kernel⟩

theorem wit_sbusPollSend : ∃ (t : Nat) (e : Fin 64) (s : State), ready s ∧ s.chip.rg R.SBS_CFG_EN 0 = 1 ∧ (chipAt s t).domOn 2 = true ∧ s.chip.rg R.SBS_POLL_CFG_EN e = 1 ∧ Tab.get 0 s.chip.pt.pollDue e ≤ max s.chip.now t :=
  ⟨0, 5, st [(R.SBS_CFG_EN, 0, 1), (R.PWR_DOM_STAT_PSTATE, 2, 2), (R.SBS_POLL_CFG_EN, 5, 1), (R.SBS_POLL_DA_LO_DA, 5, 77)], by decide +kernel⟩

theorem wit_sbusPollTimeout : ∃ (t : Nat) (e : Fin 64) (p : Poll) (s : State), ready s ∧ s.chip.pt.polls = [p] ∧ p.entry = e ∧ p.left = 0 ∧ p.sent + p.tmo ≤ max s.chip.now t :=
  ⟨10 ^ 12, 5, ⟨5, 3, 7, 0, 7⟩, { State.reset with chip.pt.polls := [⟨5, 3, 7, 0, 7⟩] }, by decide +kernel⟩

/-! Witnesses of `SensorBusReceiveCommands`. -/

theorem wit_sbusReply : ∃ (t : Nat) (l : List Byte) (e : Fin 64) (p : Poll) (s : State), ready s ∧ (chipAt s t).sbusMine l = true ∧ 60 ≤ l.length ∧ l.length ≤ 1514 ∧ s.chip.wqFree 32 = false ∧ s.chip.sbusFrom l = [e.val] ∧ sbusType l = 0x42 ∧ s.chip.pt.polls = [p] ∧ p.entry = e ∧ p.seq = beAt l 16 2 :=
  ⟨0, beBytes 6 0xFFFFFFFFFFFF ++ beBytes 6 77 ++ beBytes 2 0x88B6 ++ beBytes 1 0x42 ++ beBytes 1 0 ++ beBytes 2 3 ++ zeros 42, 5, ⟨5, 3, 7, 0, 7⟩, { st [(R.SBS_CFG_EN, 0, 1), (R.PWR_DOM_STAT_PSTATE, 2, 2), (R.SBS_POLL_DA_LO_DA, 5, 77), (R.SBS_POLL_STAT_LOST, 5, 1)] with chip.pt.polls := [⟨5, 3, 7, 0, 7⟩] }, by decide +kernel⟩

theorem wit_sbusAlarm : ∃ (t : Nat) (l : List Byte) (e : Fin 64) (s : State), ready s ∧ (chipAt s t).sbusMine l = true ∧ 60 ≤ l.length ∧ l.length ≤ 1514 ∧ s.chip.wqFree 32 = false ∧ s.chip.sbusFrom l = [e.val] ∧ sbusType l = 0x43 ∧ bit (byteAt l 15) 0 = true ∧ s.chip.rbit (alarmFld e) 0 (e % 32) = false ∧ s.chip.rbit (maskFld e) 0 (e % 32) = false ∧ s.chip.pt.almAt.find e = none :=
  ⟨0, beBytes 6 0xFFFFFFFFFFFF ++ beBytes 6 77 ++ beBytes 2 0x88B6 ++ beBytes 1 0x43 ++ beBytes 1 1 ++ beBytes 2 3 ++ zeros 42, 5, st [(R.SBS_CFG_EN, 0, 1), (R.PWR_DOM_STAT_PSTATE, 2, 2), (R.SBS_POLL_DA_LO_DA, 5, 77)], by decide +kernel⟩

theorem wit_sbusFrameRx : ∃ (t : Nat) (l : List Byte) (e : Fin 64) (s : State), ready s ∧ (chipAt s t).sbusMine l = true ∧ 60 ≤ l.length ∧ l.length ≤ 1514 ∧ s.chip.wqFree 32 = false ∧ s.chip.sbusFrom l = [e.val] ∧ sbusType l ≠ 0x42 ∧ sbusType l ≠ 0x43 :=
  ⟨0, beBytes 6 0xFFFFFFFFFFFF ++ beBytes 6 77 ++ beBytes 2 0x88B6 ++ beBytes 1 0x50 ++ beBytes 1 0 ++ beBytes 2 3 ++ zeros 42, 5, st [(R.SBS_CFG_EN, 0, 1), (R.PWR_DOM_STAT_PSTATE, 2, 2), (R.SBS_POLL_DA_LO_DA, 5, 77)], by decide +kernel⟩

theorem wit_sbusFrameRx_1 : ∃ (t : Nat) (l : List Byte) (s : State), ready s ∧ (chipAt s t).sbusMine l = true ∧ 60 ≤ l.length ∧ l.length ≤ 1514 ∧ sbusType l ≠ 0x42 ∧ sbusType l ≠ 0x43 :=
  ⟨0, beBytes 6 0xFFFFFFFFFFFF ++ beBytes 6 77 ++ beBytes 2 0x88B6 ++ beBytes 1 0x50 ++ beBytes 1 0 ++ beBytes 2 3 ++ zeros 42, st [(R.SBS_CFG_EN, 0, 1), (R.PWR_DOM_STAT_PSTATE, 2, 2)], by decide +kernel⟩

theorem wit_sbusAlarmStuck : ∃ (t : Nat) (e : Fin 64) (a : Nat) (s : State), ready s ∧ s.chip.pt.almOn.find e = some a ∧ a + s.chip.rg R.SBS_CFG_STUCK 0 * secPs ≤ max s.chip.now t ∧ s.chip.rbit (maskFld e) 0 (e % 32) = false :=
  ⟨10 ^ 15, 5, 7, { State.reset with chip.pt.almOn := [(5, 7)] }, by decide +kernel⟩

/-! Witnesses of `SessionCommands`. -/

theorem wit_zcpOpen : ∃ (t : Nat) (l : List Byte) (k : Nat) (role : Nat × Nat) (s : State), ready s ∧ (chipAt s t).hostClear = true ∧ s.chip.hp.txWait = [] ∧ 60 ≤ l.length ∧ l.length ≤ 16380 ∧ beAt l 12 2 = 0x88B5 ∧ zcpForm 0 l = true ∧ (zcpClearMsg l).typ = 0x80 ∧ (zcpClearMsg l).body.length = 4192 ∧ (chipAt s t).noSessions = false ∧ s.chip.hp.opens = [] ∧ (List.range 4).find? (fun s0 => decide (s.chip.rg R.HST_SESS_STAT_STATE s0 = 0)) = some k ∧ s.chip.roleFor ((zcpClearMsg l).body.take 2592) = some role :=
  ⟨0, clearFrame 0xFF 0x80 (zeros 4192), 0, (0x81, 0x5441), st [(R.PWR_DOM_STAT_PSTATE, 5, 2), (R.HST_STAT_LINK, 0, 2), (R.SEC_STAT_ID_READY, 0, 1)], by decide +kernel⟩

theorem wit_zcpConfirm : ∃ (t : Nat) (l : List Byte) (k : Fin 4) (s : State), ready s ∧ (chipAt s t).hostClear = true ∧ s.chip.hp.txWait = [] ∧ 60 ≤ l.length ∧ l.length ≤ 16380 ∧ beAt l 12 2 = 0x88B5 ∧ zcpForm 0 l = true ∧ (zcpClearMsg l).typ = 0x82 ∧ (zcpClearMsg l).body.length = 4628 ∧ zcpSess l = k ∧ s.chip.rg R.HST_SESS_STAT_STATE k = 1 :=
  ⟨0, clearFrame 0 0x82 (zeros 4628), 0, st [(R.PWR_DOM_STAT_PSTATE, 5, 2), (R.HST_STAT_LINK, 0, 2), (R.HST_SESS_STAT_STATE, 0, 1)], by decide +kernel⟩

theorem wit_confirmTimeout : ∃ (t : Nat) (k : Fin 4) (s : State), ready s ∧ (chipAt s t).hostClear = true ∧ s.chip.hp.txWait = [] ∧ s.chip.rg R.HST_SESS_STAT_STATE k = 1 ∧ (s.chip.sess k).at_ + 2 * secPs ≤ max s.chip.now t :=
  ⟨10 ^ 13, 0, st [(R.PWR_DOM_STAT_PSTATE, 5, 2), (R.HST_STAT_LINK, 0, 2), (R.HST_SESS_STAT_STATE, 0, 1)], by decide +kernel⟩

theorem wit_zcpKeepalive : ∃ (t : Nat) (l : List Byte) (q : ZcpMsg) (s : State), ready s ∧ requestOk (chipAt s t) l q 0x84 ∧ q.body = [] :=
  ⟨0, hf 0x84 ([]), hm 0x84 ([]), stSess, by decide +kernel, hf_ok (stSess) 0x84 ([]) (by decide +kernel) (by decide +kernel), by decide +kernel⟩

theorem wit_zcpClose : ∃ (t : Nat) (l : List Byte) (q : ZcpMsg) (s : State), ready s ∧ requestOk (chipAt s t) l q 0x85 ∧ q.body = [] :=
  ⟨0, hf 0x85 ([]), hm 0x85 ([]), stSess, by decide +kernel, hf_ok (stSess) 0x85 ([]) (by decide +kernel) (by decide +kernel), by decide +kernel⟩

theorem wit_idleTimeout : ∃ (t : Nat) (k : Fin 4) (s : State), ready s ∧ s.chip.rg R.HST_SESS_STAT_STATE k = 2 ∧ (s.chip.sess k).lastRx + s.chip.rg R.HST_ZCP_CFG_IDLE_TO 0 * secPs ≤ max s.chip.now t :=
  ⟨10 ^ 16, 0, stSess, by decide +kernel⟩

theorem wit_zcpReset : ∃ (t : Nat) (l : List Byte) (q : ZcpMsg) (s : State), ready s ∧ requestOk (chipAt s t) l q 12 ∧ q.body = [0, 0, 0, 1] ∧ s.chip.hasRight (zcpSess l) 12 = true :=
  ⟨0, hf 12 ([0, 0, 0, 1]), hm 12 ([0, 0, 0, 1]), stSess, by decide +kernel, hf_ok (stSess) 12 ([0, 0, 0, 1]) (by decide +kernel) (by decide +kernel), by decide +kernel⟩

/-! Witnesses of `AccessCommands`. -/

theorem wit_zcpRead : ∃ (t : Nat) (l : List Byte) (q : ZcpMsg) (a : Nat) (s : State), ready s ∧ requestOk (chipAt s t) l q 1 ∧ q.body = beBytes 6 a ++ beBytes 2 1 ∧ 0x48000000 ≤ a ∧ a < 0x58000000 ∧ a % 32 < 20 ∧ (chipAt s t).reach a = stOk ∧ (chipAt s t).mayRead (zcpSess l) a = stOk :=
  ⟨0, hf 1 (beBytes 6 0x48000004 ++ beBytes 2 1), hm 1 (beBytes 6 0x48000004 ++ beBytes 2 1), 0x48000004, { { stSess with chip := stSess.chip.wg R.PWR_DOM_STAT_PSTATE 6 2 } with chip.win := [(0x48000004, 77)] }, by decide +kernel, hf_ok ({ { stSess with chip := stSess.chip.wg R.PWR_DOM_STAT_PSTATE 6 2 } with chip.win := [(0x48000004, 77)] }) 1 (beBytes 6 0x48000004 ++ beBytes 2 1) (by decide +kernel) (by decide +kernel), by decide +kernel⟩

theorem wit_zcpWrite : ∃ (t : Nat) (l : List Byte) (q : ZcpMsg) (a v : Nat) (s : State), ready s ∧ requestOk (chipAt s t) l q 2 ∧ q.body = beBytes 6 a ++ beBytes 2 1 ++ beBytes 4 v ∧ 0x48000000 ≤ a ∧ a < 0x58000000 ∧ a % 32 < 20 ∧ (chipAt s t).reach a = stOk ∧ (chipAt s t).mayWrite (zcpSess l) a = stOk ∧ (chipAt s t).evtUpdate.tableLocked a = false ∧ v < 2 ^ 32 :=
  ⟨0, hf 2 (beBytes 6 0x48000004 ++ beBytes 2 1 ++ beBytes 4 77), hm 2 (beBytes 6 0x48000004 ++ beBytes 2 1 ++ beBytes 4 77), 0x48000004, 77, { stSess with chip := stSess.chip.wg R.PWR_DOM_STAT_PSTATE 6 2 }, by decide +kernel, hf_ok ({ stSess with chip := stSess.chip.wg R.PWR_DOM_STAT_PSTATE 6 2 }) 2 (beBytes 6 0x48000004 ++ beBytes 2 1 ++ beBytes 4 77) (by decide +kernel) (by decide +kernel), by decide +kernel⟩

theorem wit_zcpModify : ∃ (t : Nat) (l : List Byte) (q : ZcpMsg) (a k v : Nat) (s : State), ready s ∧ requestOk (chipAt s t) l q 3 ∧ q.body = beBytes 6 a ++ zeros 2 ++ beBytes 4 k ++ beBytes 4 v ∧ 0x48000000 ≤ a ∧ a < 0x58000000 ∧ a % 32 < 20 ∧ (chipAt s t).reach a = stOk ∧ (chipAt s t).mayWrite (zcpSess l) a = stOk ∧ (chipAt s t).evtUpdate.tableLocked a = false ∧ k < 2 ^ 32 ∧ v < 2 ^ 32 ∧ s.chip.winGet a < 2 ^ 32 :=
  ⟨0, hf 3 (beBytes 6 0x48000004 ++ zeros 2 ++ beBytes 4 0xFF00 ++ beBytes 4 0x1234), hm 3 (beBytes 6 0x48000004 ++ zeros 2 ++ beBytes 4 0xFF00 ++ beBytes 4 0x1234), 0x48000004, 0xFF00, 0x1234, { { stSess with chip := stSess.chip.wg R.PWR_DOM_STAT_PSTATE 6 2 } with chip.win := [(0x48000004, 0xABCDEF01)] }, by decide +kernel, hf_ok ({ { stSess with chip := stSess.chip.wg R.PWR_DOM_STAT_PSTATE 6 2 } with chip.win := [(0x48000004, 0xABCDEF01)] }) 3 (beBytes 6 0x48000004 ++ zeros 2 ++ beBytes 4 0xFF00 ++ beBytes 4 0x1234) (by decide +kernel) (by decide +kernel), by decide +kernel⟩

theorem wit_zcpBulkWrite : ∃ (t : Nat) (l : List Byte) (q : ZcpMsg) (a n : Nat) (d : List Byte) (s : State), ready s ∧ requestOk (chipAt s t) l q 4 ∧ q.body = [0, 0] ++ beBytes 6 a ++ beBytes 4 n ++ d ∧ (chipAt s t).ddrOk = true ∧ 0x80000000 ≤ a ∧ a < 2 ^ 48 ∧ a - 0x80000000 + n ≤ (chipAt s t).ddrCap ∧ 0 < n ∧ n ≤ 16310 ∧ d.length = n ∧ s.chip.hasRight (zcpSess l) 7 = true :=
  ⟨0, hf 4 ([0, 0] ++ beBytes 6 0x80000010 ++ beBytes 4 3 ++ [1, 2, 3]), hm 4 ([0, 0] ++ beBytes 6 0x80000010 ++ beBytes 4 3 ++ [1, 2, 3]), 0x80000010, 3, [1, 2, 3], { stSess with chip := ((stSess.chip.wg R.PWR_DOM_STAT_PSTATE 4 2).wg R.MEM_DDR_STAT_CAP 0 2).wg R.MEM_DDR_STAT_TRAINED 0 1 }, by decide +kernel, hf_ok ({ stSess with chip := ((stSess.chip.wg R.PWR_DOM_STAT_PSTATE 4 2).wg R.MEM_DDR_STAT_CAP 0 2).wg R.MEM_DDR_STAT_TRAINED 0 1 }) 4 ([0, 0] ++ beBytes 6 0x80000010 ++ beBytes 4 3 ++ [1, 2, 3]) (by decide +kernel) (by decide +kernel), by decide +kernel⟩

theorem wit_zcpBulkRead : ∃ (t : Nat) (l : List Byte) (q : ZcpMsg) (a n : Nat) (s : State), ready s ∧ requestOk (chipAt s t) l q 4 ∧ q.body = [1, 0] ++ beBytes 6 a ++ beBytes 4 n ∧ (chipAt s t).ddrOk = true ∧ 0x80000000 ≤ a ∧ a < 2 ^ 48 ∧ a - 0x80000000 + n ≤ (chipAt s t).ddrCap ∧ 0 < n ∧ n ≤ 16310 ∧ (chipAt s t).mayRead (zcpSess l) a = stOk :=
  ⟨0, hf 4 ([1, 0] ++ beBytes 6 0x80000010 ++ beBytes 4 3), hm 4 ([1, 0] ++ beBytes 6 0x80000010 ++ beBytes 4 3), 0x80000010, 3, { stSess with chip := ((stSess.chip.wg R.PWR_DOM_STAT_PSTATE 4 2).wg R.MEM_DDR_STAT_CAP 0 2).wg R.MEM_DDR_STAT_TRAINED 0 1 }, by decide +kernel, hf_ok ({ stSess with chip := ((stSess.chip.wg R.PWR_DOM_STAT_PSTATE 4 2).wg R.MEM_DDR_STAT_CAP 0 2).wg R.MEM_DDR_STAT_TRAINED 0 1 }) 4 ([1, 0] ++ beBytes 6 0x80000010 ++ beBytes 4 3) (by decide +kernel) (by decide +kernel), by decide +kernel⟩

theorem wit_zcpBulkDigest : ∃ (t : Nat) (l : List Byte) (q : ZcpMsg) (a n : Nat) (s : State), ready s ∧ requestOk (chipAt s t) l q 4 ∧ q.body = [2, 0] ++ beBytes 6 a ++ beBytes 4 n ∧ (chipAt s t).ddrOk = true ∧ 0x80000000 ≤ a ∧ a < 2 ^ 48 ∧ a - 0x80000000 + n ≤ (chipAt s t).ddrCap ∧ 0 < n ∧ n < 2 ^ 32 ∧ (chipAt s t).mayRead (zcpSess l) a = stOk :=
  ⟨0, hf 4 ([2, 0] ++ beBytes 6 0x80000010 ++ beBytes 4 3), hm 4 ([2, 0] ++ beBytes 6 0x80000010 ++ beBytes 4 3), 0x80000010, 3, { stSess with chip := ((stSess.chip.wg R.PWR_DOM_STAT_PSTATE 4 2).wg R.MEM_DDR_STAT_CAP 0 2).wg R.MEM_DDR_STAT_TRAINED 0 1 }, by decide +kernel, hf_ok ({ stSess with chip := ((stSess.chip.wg R.PWR_DOM_STAT_PSTATE 4 2).wg R.MEM_DDR_STAT_CAP 0 2).wg R.MEM_DDR_STAT_TRAINED 0 1 }) 4 ([2, 0] ++ beBytes 6 0x80000010 ++ beBytes 4 3) (by decide +kernel) (by decide +kernel), by decide +kernel⟩

theorem wit_registerWrite : ∃ (t : Nat) (who : Fin 20) (a v : Nat) (s : State), ready s ∧ who.val < 4 ∧ (chipAt s t).mayWrite who a = stOk ∧ (chipAt s t).reach a = stOk ∧ 0x80000000 ≤ a ∧ v < 2 ^ 32 :=
  ⟨0, 0, 0x80000010, 77, { stSess with chip := ((stSess.chip.wg R.PWR_DOM_STAT_PSTATE 4 2).wg R.MEM_DDR_STAT_CAP 0 2).wg R.MEM_DDR_STAT_TRAINED 0 1 }, by decide +kernel⟩

theorem wit_registerWrite_1 : ∃ (t : Nat) (who : Fin 20) (v : Nat) (s : State), ready s ∧ who.val < 4 ∧ s.chip.hasRight who 4 = true ∧ (chipAt s t).domOn 1 = true ∧ 1 ≤ v ∧ v ≤ s.chip.slewMax ∧ v < 65536 ∧ s.chip.alm.load.shadow = [] :=
  ⟨0, 0, 77, { stSess with chip := stSess.chip.wg R.PWR_DOM_STAT_PSTATE 1 2 }, by decide +kernel⟩

/-! Witnesses of `PacketAndEventCommands`. -/

theorem wit_zcpAttest : ∃ (t : Nat) (l : List Byte) (q : ZcpMsg) (s : State), ready s ∧ requestOk (chipAt s t) l q 9 ∧ s.chip.hasRight (zcpSess l) 14 = true ∧ q.body.length = 64 ∧ (chipAt s t).attesting = false ∧ s.chip.rg R.SEC_STAT_ID_READY 0 = 1 :=
  ⟨0, hf 9 (zeros 64), hm 9 (zeros 64), { stSess with chip := stSess.chip.wg R.SEC_STAT_ID_READY 0 1 }, by decide +kernel, hf_ok ({ stSess with chip := stSess.chip.wg R.SEC_STAT_ID_READY 0 1 }) 9 (zeros 64) (by decide +kernel) (by decide +kernel), by decide +kernel⟩

theorem wit_zcpPacket : ∃ (t : Nat) (l : List Byte) (q : ZcpMsg) (p : Fin 128) (f : List Byte) (s : State), ready s ∧ requestOk (chipAt s t) l q 11 ∧ q.body = [0, 0] ++ beBytes 2 p ++ zeros 4 ++ f ∧ s.chip.hasRight (zcpSess l) 13 = true ∧ 60 ≤ f.length ∧ f.length ≤ s.chip.maxFrame - 4 ∧ s.chip.cellRole (s.chip.portBlk p) (s.chip.slotCell (s.chip.portBlk p) (s.chip.portSlot p)) ≠ 3 :=
  ⟨0, hf 11 ([0, 0] ++ beBytes 2 5 ++ zeros 4 ++ zeros 60), hm 11 ([0, 0] ++ beBytes 2 5 ++ zeros 4 ++ zeros 60), 5, zeros 60, stSess, by decide +kernel, hf_ok (stSess) 11 ([0, 0] ++ beBytes 2 5 ++ zeros 4 ++ zeros 60) (by decide +kernel) (by decide +kernel), by decide +kernel⟩

theorem wit_eventAck : ∃ (t : Nat) (l : List Byte) (q : ZcpMsg) (n : Nat) (s : State), ready s ∧ (chipAt s t).hostClear = true ∧ s.chip.hp.txWait = [] ∧ 60 ≤ l.length ∧ l.length ≤ 16380 ∧ beAt l 12 2 = 0x88B5 ∧ (chipAt s t).zcpOpens l = some q ∧ q.typ = 0x0A ∧ bit q.flags 0 = true ∧ q.body = beBytes 4 n ∧ n < 2 ^ 32 ∧ (s.chip.sess (zcpSess l)).fresh (zcpSeq l) = true :=
  ⟨0, ackFrame, ackMsg, 3, stAck, by decide +kernel, by decide +kernel, by decide +kernel, ackFrame_ok⟩

theorem wit_eventSend : ∃ (t : Nat) (k : Fin 4) (s : State), ready s ∧ (chipAt s t).hostClear = true ∧ s.chip.hp.txWait = [] ∧ s.chip.rg R.HST_SESS_STAT_STATE k = 2 ∧ (s.chip.sess k).evtAt = none ∧ (s.chip.sess k).results ≠ [] ∧ (s.chip.sess k).evtSeq < 2 ^ 32 :=
  ⟨0, 0, { stSess with chip.hp.sess := [(0, { Sess.reset with rights := 0xFFFF, results := [(5, 3, 0)] })] }, by decide +kernel⟩

theorem wit_eventResend : ∃ (t : Nat) (k : Fin 4) (g : EvtFrame) (s : State), ready s ∧ (chipAt s t).hostClear = true ∧ s.chip.hp.txWait = [] ∧ s.chip.rg R.HST_SESS_STAT_STATE k = 2 ∧ (s.chip.sess k).unacked = [g] ∧ g.at_ + s.chip.rg R.HST_ZCP_CFG_EVT_RETRY 0 * msPs ≤ max s.chip.now t ∧ g.results ≠ [] :=
  ⟨10 ^ 13, 0, ⟨3, 7, [(5, 3, 0)]⟩, { stSess with chip.hp.sess := [(0, { Sess.reset with rights := 0xFFFF, unacked := [⟨3, 7, [(5, 3, 0)]⟩] })] }, by decide +kernel⟩

theorem wit_spPacketSend : ∃ (t : Nat) (f : Nat × List Byte) (r : List (Nat × List Byte)) (k : Nat) (s : State), ready s ∧ (chipAt s t).hostClear = true ∧ s.chip.hp.txWait = [] ∧ s.chip.hostTurn = some (f, r) ∧ (List.range 4).find? (fun k => s.chip.sessOpen k && s.chip.rb R.HST_SESS_CFG_SP_SUB k) = some k :=
  ⟨0, (3, [1, 2, 3]), [], 0, { stSess with chip := { stSess.chip.wg R.HST_SESS_CFG_SP_SUB 0 1 with pp.hostQ := [(3, [1, 2, 3])] } }, by decide +kernel⟩

/-! Witnesses of `DmaChannelCommands`. -/

theorem wit_dmaTailWrite : ∃ (t : Nat) (ch : Fin 64) (v : Nat) (s : State), ready s ∧ s.chip.domOn 6 = true ∧ s.chip.rg R.DMA_CH_CFG_EN ch = 1 ∧ s.chip.rg R.DMA_CH_CFG_TRIG ch = 0 ∧ s.chip.rg R.DMA_CH_STAT_STATE ch = 1 ∧ v < 65536 ∧ s.chip.rg R.DMA_CH_HEAD_HEAD ch ≠ v :=
  ⟨0, 3, 5, doms (st [(R.DMA_CH_CFG_EN, 3, 1), (R.DMA_CH_STAT_STATE, 3, 1)]), by decide +kernel⟩

theorem wit_dmaChCfgWrite : ∃ (t : Nat) (ch : Fin 64) (owner : Fin 5) (v : Nat) (s : State), ready s ∧ s.chip.domOn 6 = true ∧ s.chip.rg R.DMA_CH_CFG_EN ch = 0 ∧ bits v 8 3 < 7 ∧ 2 ≤ bits v 16 5 ∧ bits v 16 5 ≤ 16 ∧ bit v 0 = true ∧ s.chip.hp.dma.find ch = none ∧ s.chip.rg R.DMA_CH_HEAD_HEAD ch = s.chip.rg R.DMA_CH_TAIL_TAIL ch :=
  ⟨0, 3, 2, 1 + 2 + 2 ^ 18, doms (State.reset), by decide +kernel⟩

theorem wit_dmaChCfgWrite_1 : ∃ (t : Nat) (ch : Fin 64) (owner : Fin 5) (v : Nat) (s : State), ready s ∧ s.chip.domOn 6 = true ∧ s.chip.rg R.DMA_CH_CFG_EN ch ≠ 0 ∧ bits v 8 3 < 7 ∧ 2 ≤ bits v 16 5 ∧ bits v 16 5 ≤ 16 ∧ s.chip.rg R.DMA_CH_CFG_OWNER ch ≠ owner.val :=
  ⟨0, 3, 2, 1 + 2 ^ 18, doms (st [(R.DMA_CH_CFG_EN, 3, 1)]), by decide +kernel⟩

theorem wit_dmaTimerTick : ∃ (t : Nat) (ch : Fin 64) (s : State), ready s ∧ s.chip.rg R.DMA_CH_CFG_EN ch = 1 ∧ s.chip.rg R.DMA_CH_CFG_TRIG ch = 1 ∧ s.chip.rg R.DMA_CH_STAT_STATE ch = 3 ∧ Tab.get 0 s.chip.hp.dmaAt ch + s.chip.rg R.DMA_CH_TIMER_PERIOD ch * usU ≤ (chipAt s t).eNow ∧ s.chip.rg R.DMA_CH_HEAD_HEAD ch ≠ s.chip.rg R.DMA_CH_TAIL_TAIL ch :=
  ⟨10 ^ 9, 3, st [(R.DMA_CH_CFG_EN, 3, 1), (R.DMA_CH_CFG_TRIG, 3, 1), (R.DMA_CH_STAT_STATE, 3, 3), (R.DMA_CH_TAIL_TAIL, 3, 1), (R.DMA_CH_TIMER_PERIOD, 3, 100)], by decide +kernel⟩

theorem wit_dmaRequest : ∃ (t : Nat) (line : Fin 3) (ch : Fin 64) (s : State), ready s ∧ Tab.get 0 s.chip.hp.lineDue line ≠ 0 ∧ s.chip.rg R.DMA_CH_CFG_EN ch = 1 ∧ s.chip.rg R.DMA_CH_CFG_TRIG ch = 3 ∧ s.chip.rg R.DMA_CH_CFG_REQ ch = line ∧ s.chip.rg R.DMA_CH_STAT_STATE ch = 3 ∧ s.chip.rg R.DMA_CH_HEAD_HEAD ch ≠ s.chip.rg R.DMA_CH_TAIL_TAIL ch :=
  ⟨0, 1, 3, { st [(R.DMA_CH_CFG_EN, 3, 1), (R.DMA_CH_CFG_TRIG, 3, 3), (R.DMA_CH_CFG_REQ, 3, 1), (R.DMA_CH_STAT_STATE, 3, 3), (R.DMA_CH_TAIL_TAIL, 3, 1)] with chip.hp.lineDue := [(1, 1)] }, by decide +kernel⟩

theorem wit_dmaRequest_1 : ∃ (t : Nat) (line : Fin 3) (ch : Fin 64) (s : State), ready s ∧ Tab.get 0 s.chip.hp.lineDue line ≠ 0 ∧ s.chip.rg R.DMA_CH_CFG_EN ch = 1 ∧ s.chip.rg R.DMA_CH_CFG_TRIG ch = 3 ∧ s.chip.rg R.DMA_CH_CFG_REQ ch = line ∧ s.chip.rg R.DMA_CH_STAT_STATE ch = 2 ∧ Tab.get 0 s.chip.hp.dmaTrig ch ≠ 0 :=
  ⟨0, 1, 3, { st [(R.DMA_CH_CFG_EN, 3, 1), (R.DMA_CH_CFG_TRIG, 3, 3), (R.DMA_CH_CFG_REQ, 3, 1), (R.DMA_CH_STAT_STATE, 3, 2)] with chip.hp.dmaTrig := [(3, 1)], chip.hp.lineDue := [(1, 1)] }, by decide +kernel⟩

theorem wit_dmaSwreq : ∃ (t : Nat) (v : Nat) (ch : Fin 64) (i : Fin 4) (s : State), ready s ∧ s.chip.domOn 6 = true ∧ s.chip.rg R.DMA_CH_CFG_EN ch = 1 ∧ s.chip.rg R.DMA_CH_CFG_TRIG ch = 3 ∧ s.chip.rg R.DMA_CH_CFG_REQ ch = 3 + i ∧ bit v i = true ∧ s.chip.rg R.DMA_CH_STAT_STATE ch = 3 ∧ s.chip.rg R.DMA_CH_HEAD_HEAD ch ≠ s.chip.rg R.DMA_CH_TAIL_TAIL ch :=
  ⟨0, 2, 3, 1, doms (st [(R.DMA_CH_CFG_EN, 3, 1), (R.DMA_CH_CFG_TRIG, 3, 3), (R.DMA_CH_CFG_REQ, 3, 4), (R.DMA_CH_STAT_STATE, 3, 3), (R.DMA_CH_TAIL_TAIL, 3, 1)]), by decide +kernel⟩

theorem wit_dmaStop : ∃ (t : Nat) (ch : Fin 64) (s : State), ready s ∧ s.chip.domOn 6 = true ∧ s.chip.rg R.DMA_CH_STAT_STATE ch ≠ 0 ∧ s.chip.hp.dma.find ch = none :=
  ⟨0, 3, doms (st [(R.DMA_CH_STAT_STATE, 3, 2)]), by decide +kernel⟩

theorem wit_dmaStart : ∃ (t : Nat) (ch : Fin 64) (s : State), ready s ∧ s.chip.domOn 6 = true ∧ s.chip.rg R.DMA_CH_CFG_EN ch = 1 ∧ s.chip.rg R.DMA_CH_STAT_STATE ch = 4 ∧ s.chip.rg R.DMA_CH_CFG_TRIG ch = 0 ∧ s.chip.hp.dma.find ch = none :=
  ⟨0, 3, doms (st [(R.DMA_CH_CFG_EN, 3, 1), (R.DMA_CH_STAT_STATE, 3, 4)]), by decide +kernel⟩

theorem wit_dmaResetRing : ∃ (t : Nat) (ch : Fin 64) (s : State), ready s ∧ s.chip.domOn 6 = true ∧ s.chip.rg R.DMA_CH_STAT_STATE ch = 0 ∨ s.chip.rg R.DMA_CH_STAT_STATE ch = 4 :=
  ⟨0, 3, doms (st [(R.DMA_CH_STAT_STATE, 3, 4), (R.DMA_CH_HEAD_HEAD, 3, 4)]), by decide +kernel⟩

theorem wit_dmaResetRing_1 : ∃ (t : Nat) (ch : Fin 64) (s : State), ready s ∧ s.chip.domOn 6 = true ∧ s.chip.rg R.DMA_CH_STAT_STATE ch ≠ 0 ∧ s.chip.rg R.DMA_CH_STAT_STATE ch ≠ 4 :=
  ⟨0, 3, doms (st [(R.DMA_CH_STAT_STATE, 3, 2), (R.DMA_CH_HEAD_HEAD, 3, 4)]), by decide +kernel⟩

theorem wit_dmaBurst : ∃ (t : Nat) (ch : Fin 64) (a : Nat) (d : List Byte) (s : State), ready s ∧ s.chip.domOn 6 = true ∧ (chipAt s t).ddrOk = true ∧ s.chip.dmaPick = some ch.val ∧ s.chip.hp.dma.find ch = none ∧ a = s.chip.dmaDesc ch ∧ a + 32 ≤ s.chip.ddrCap ∧ d = s.mem.ddrRead a 32 ∧ half d 0 = 0x8000 ∧ 0x80000000 ≤ dSrc d ∧ 0x80000000 ≤ dDst d ∧ 0 < dLen d ∧ dSrc d % 4096 + dLen d ≤ 4096 ∧ dDst d % 4096 + dLen d ≤ 4096 ∧ dSrc d - 0x80000000 + dLen d ≤ s.chip.ddrCap ∧ dDst d - 0x80000000 + dLen d ≤ s.chip.ddrCap ∧ s.chip.mayRead (s.chip.dmaWho ch) (dSrc d) = stOk ∧ s.chip.mayWrite (s.chip.dmaWho ch) (dDst d) = stOk :=
  ⟨0, 3, 0, ({ (st [(R.PWR_DOM_STAT_PSTATE, 6, 2), (R.PWR_DOM_STAT_PSTATE, 4, 2), (R.MEM_DDR_STAT_CAP, 0, 2), (R.MEM_DDR_STAT_TRAINED, 0, 1), (R.DMA_CH_CFG_EN, 3, 1), (R.DMA_CH_STAT_STATE, 3, 2), (R.DMA_CH_TAIL_TAIL, 3, 1), (R.DMA_CH_CFG_SIZE_LOG2, 3, 2)]) with mem := State.reset.mem.apply (.ddr 0 (beBytes 2 0x8000 ++ beBytes 6 0x80001000 ++ zeros 2 ++ beBytes 6 0x80002000 ++ beBytes 4 3 ++ zeros 12)) }).mem.ddrRead 0 32, ({ (st [(R.PWR_DOM_STAT_PSTATE, 6, 2), (R.PWR_DOM_STAT_PSTATE, 4, 2), (R.MEM_DDR_STAT_CAP, 0, 2), (R.MEM_DDR_STAT_TRAINED, 0, 1), (R.DMA_CH_CFG_EN, 3, 1), (R.DMA_CH_STAT_STATE, 3, 2), (R.DMA_CH_TAIL_TAIL, 3, 1), (R.DMA_CH_CFG_SIZE_LOG2, 3, 2)]) with mem := State.reset.mem.apply (.ddr 0 (beBytes 2 0x8000 ++ beBytes 6 0x80001000 ++ zeros 2 ++ beBytes 6 0x80002000 ++ beBytes 4 3 ++ zeros 12)) }), by decide +kernel⟩

/-! Witnesses of `TaskCommandsOfCores`. -/

theorem wit_taskActivate : ∃ (t : Nat) (j : Fin 16) (task : Fin 512) (s : State), ready s ∧ s.chip.domOn 2 = true ∧ s.chip.rg R.MCU_TRACE_CFG_EN 0 = 0 ∧ s.chip.mc.hostHeld = none ∧ s.chip.rg R.MCU_TASK_STAT_STATE task = 1 ∧ s.chip.rg R.MCU_CTRL_HALT 0 = 1 ∧ s.chip.rg R.MCU_TASK_CFG_IMG task = 0 :=
  ⟨0, 1, 5, st [(R.PWR_DOM_STAT_PSTATE, 2, 2), (R.MCU_TASK_STAT_STATE, 5, 1), (R.MCU_CTRL_HALT, 0, 1)], by decide +kernel⟩

theorem wit_taskActivate_1 : ∃ (t : Nat) (j : Fin 16) (task : Fin 512) (s : State), ready s ∧ s.chip.domOn 2 = true ∧ s.chip.rg R.MCU_TRACE_CFG_EN 0 = 0 ∧ s.chip.mc.hostHeld = none ∧ 2 ≤ s.chip.rg R.MCU_TASK_STAT_STATE task ∧ s.chip.rg R.MCU_TASK_STAT_ACT_PEND task < 255 :=
  ⟨0, 1, 5, st [(R.PWR_DOM_STAT_PSTATE, 2, 2), (R.MCU_TASK_STAT_STATE, 5, 3)], by decide +kernel⟩

theorem wit_taskEnd : ∃ (t : Nat) (j : Fin 16) (task : Fin 512) (s : State), ready s ∧ s.chip.domOn 2 = true ∧ s.chip.rg R.MCU_TRACE_CFG_EN 0 = 0 ∧ s.chip.mc.hostHeld = none ∧ s.chip.mc.run.find j = some task.val ∧ s.chip.rg R.MCU_TASK_STAT_STATE task = 3 ∧ s.chip.mc.susp.contains task.val = false ∧ s.chip.mc.ready = [] ∧ s.chip.mc.resv = [] ∧ s.chip.rg R.MCU_TASK_STAT_ACT_PEND task = 0 :=
  ⟨0, 1, 5, { st [(R.PWR_DOM_STAT_PSTATE, 2, 2), (R.MCU_TASK_STAT_STATE, 5, 3), (R.MCU_CORE_STAT_STATE, 1, 1), (R.MCU_CORE_STAT_TASK, 1, 5)] with chip.mc.run := [(1, 5)], chip.mc.runAt := [(1, 7)] }, by decide +kernel⟩

theorem wit_taskYield : ∃ (t : Nat) (j : Fin 16) (task : Fin 512) (s : State), ready s ∧ s.chip.domOn 2 = true ∧ s.chip.rg R.MCU_TRACE_CFG_EN 0 = 0 ∧ s.chip.mc.hostHeld = none ∧ s.chip.mc.run.find j = some task.val ∧ s.chip.rg R.MCU_TASK_STAT_STATE task = 3 ∧ s.chip.mc.susp.contains task.val = false ∧ s.chip.rg R.MCU_CTRL_HALT 0 = 1 ∧ s.chip.mc.resvAt.find j = none ∧ s.chip.rg R.MCU_TASK_CFG_IMG task = 0 :=
  ⟨0, 1, 5, { st [(R.PWR_DOM_STAT_PSTATE, 2, 2), (R.MCU_TASK_STAT_STATE, 5, 3), (R.MCU_CORE_STAT_STATE, 1, 1), (R.MCU_CORE_STAT_TASK, 1, 5), (R.MCU_CTRL_HALT, 0, 1)] with chip.mc.run := [(1, 5)], chip.mc.runAt := [(1, 7)] }, by decide +kernel⟩

theorem wit_taskDelay : ∃ (t : Nat) (j : Fin 16) (task : Fin 512) (arg : Nat) (s : State), ready s ∧ s.chip.domOn 2 = true ∧ s.chip.rg R.MCU_TRACE_CFG_EN 0 = 0 ∧ s.chip.mc.hostHeld = none ∧ s.chip.mc.run.find j = some task.val ∧ s.chip.rg R.MCU_TASK_STAT_STATE task = 3 ∧ s.chip.mc.susp.contains task.val = false ∧ s.chip.mc.ready = [] ∧ s.chip.mc.resv = [] ∧ 0 < arg ∧ arg < 2 ^ 31 :=
  ⟨0, 1, 5, 9, { st [(R.PWR_DOM_STAT_PSTATE, 2, 2), (R.MCU_TASK_STAT_STATE, 5, 3), (R.MCU_CORE_STAT_STATE, 1, 1), (R.MCU_CORE_STAT_TASK, 1, 5)] with chip.mc.run := [(1, 5)], chip.mc.runAt := [(1, 7)] }, by decide +kernel⟩

theorem wit_taskDelayUntil : ∃ (t : Nat) (j : Fin 16) (task : Fin 512) (arg : Nat) (s : State), ready s ∧ s.chip.domOn 2 = true ∧ s.chip.rg R.MCU_TRACE_CFG_EN 0 = 0 ∧ s.chip.mc.hostHeld = none ∧ s.chip.mc.run.find j = some task.val ∧ s.chip.rg R.MCU_TASK_STAT_STATE task = 3 ∧ s.chip.mc.susp.contains task.val = false ∧ s.chip.mc.ready = [] ∧ s.chip.mc.resv = [] ∧ 0 < tickDiff arg s.chip.tickNow :=
  ⟨0, 1, 5, 9, { st [(R.PWR_DOM_STAT_PSTATE, 2, 2), (R.MCU_TASK_STAT_STATE, 5, 3), (R.MCU_CORE_STAT_STATE, 1, 1), (R.MCU_CORE_STAT_TASK, 1, 5)] with chip.mc.run := [(1, 5)], chip.mc.runAt := [(1, 7)] }, by decide +kernel⟩

theorem wit_taskWait : ∃ (t : Nat) (j : Fin 16) (task : Fin 512) (arg : Nat) (s : State), ready s ∧ s.chip.domOn 2 = true ∧ s.chip.rg R.MCU_TRACE_CFG_EN 0 = 0 ∧ s.chip.mc.hostHeld = none ∧ s.chip.mc.run.find j = some task.val ∧ s.chip.rg R.MCU_TASK_STAT_STATE task = 3 ∧ s.chip.mc.susp.contains task.val = false ∧ s.chip.mc.ready = [] ∧ s.chip.mc.resv = [] ∧ s.chip.sources task = [] ∧ arg < 2 ^ 32 :=
  ⟨0, 1, 5, 9, { st [(R.PWR_DOM_STAT_PSTATE, 2, 2), (R.MCU_TASK_STAT_STATE, 5, 3), (R.MCU_CORE_STAT_STATE, 1, 1), (R.MCU_CORE_STAT_TASK, 1, 5)] with chip.mc.run := [(1, 5)], chip.mc.runAt := [(1, 7)] }, by decide +kernel⟩

theorem wit_taskSignal : ∃ (t : Nat) (j : Fin 16) (task : Fin 512) (arg : Nat) (s : State), ready s ∧ s.chip.domOn 2 = true ∧ s.chip.rg R.MCU_TRACE_CFG_EN 0 = 0 ∧ s.chip.mc.hostHeld = none ∧ s.chip.rg R.MCU_TASK_STAT_STATE task ≠ 5 :=
  ⟨0, 1, 5, 9, st [(R.PWR_DOM_STAT_PSTATE, 2, 2), (R.MCU_TASK_STAT_STATE, 5, 3)], by decide +kernel⟩

theorem wit_taskSuspend : ∃ (t : Nat) (j : Fin 16) (task : Fin 512) (s : State), ready s ∧ s.chip.domOn 2 = true ∧ s.chip.rg R.MCU_TRACE_CFG_EN 0 = 0 ∧ s.chip.mc.hostHeld = none ∧ s.chip.rg R.MCU_TASK_STAT_STATE task = 2 ∨ s.chip.rg R.MCU_TASK_STAT_STATE task = 4 ∨ s.chip.rg R.MCU_TASK_STAT_STATE task = 5 :=
  ⟨0, 1, 5, st [(R.PWR_DOM_STAT_PSTATE, 2, 2), (R.MCU_TASK_STAT_STATE, 5, 4)], by decide +kernel⟩

theorem wit_taskSuspend_1 : ∃ (t : Nat) (j : Fin 16) (task : Fin 512) (s : State), ready s ∧ s.chip.domOn 2 = true ∧ s.chip.rg R.MCU_TRACE_CFG_EN 0 = 0 ∧ s.chip.mc.hostHeld = none ∧ s.chip.rg R.MCU_TASK_STAT_STATE task = 3 :=
  ⟨0, 1, 5, st [(R.PWR_DOM_STAT_PSTATE, 2, 2), (R.MCU_TASK_STAT_STATE, 5, 3)], by decide +kernel⟩

theorem wit_taskResume : ∃ (t : Nat) (j : Fin 16) (task : Fin 512) (s : State), ready s ∧ s.chip.domOn 2 = true ∧ s.chip.rg R.MCU_TRACE_CFG_EN 0 = 0 ∧ s.chip.mc.hostHeld = none ∧ s.chip.rg R.MCU_TASK_STAT_STATE task = 6 ∧ s.chip.rg R.MCU_CTRL_HALT 0 = 1 ∧ s.chip.rg R.MCU_TASK_CFG_IMG task = 0 :=
  ⟨0, 1, 5, st [(R.PWR_DOM_STAT_PSTATE, 2, 2), (R.MCU_TASK_STAT_STATE, 5, 6), (R.MCU_CTRL_HALT, 0, 1)], by decide +kernel⟩

theorem wit_taskSetPrio : ∃ (t : Nat) (j : Fin 16) (task : Fin 512) (arg : Nat) (s : State), ready s ∧ s.chip.domOn 2 = true ∧ s.chip.rg R.MCU_TRACE_CFG_EN 0 = 0 ∧ s.chip.mc.hostHeld = none :=
  ⟨0, 1, 5, 9, st [(R.PWR_DOM_STAT_PSTATE, 2, 2), (R.MCU_TASK_STAT_STATE, 5, 6)], by decide +kernel⟩

/-! Witnesses of `DispatchAndTimerCommands`. -/

theorem wit_schedNextRead : ∃ (t : Nat) (j : Fin 16) (task : Nat) (s : State), ready s ∧ s.chip.domOn 2 = true ∧ s.chip.mc.run.find j = some task :=
  ⟨0, 1, 5, { st [(R.PWR_DOM_STAT_PSTATE, 2, 2), (R.MCU_TASK_STAT_STATE, 5, 3), (R.MCU_CORE_STAT_STATE, 1, 1), (R.MCU_CORE_STAT_TASK, 1, 5)] with chip.mc.run := [(1, 5)], chip.mc.runAt := [(1, 7)] }, by decide +kernel⟩

theorem wit_schedNextRead_1 : ∃ (t : Nat) (j : Fin 16) (s : State), ready s ∧ s.chip.domOn 2 = true ∧ s.chip.mc.run.find j = none :=
  ⟨0, 1, st [(R.PWR_DOM_STAT_PSTATE, 2, 2)], by decide +kernel⟩

theorem wit_taskDispatch : ∃ (t : Nat) (task : Fin 512) (j : Fin 16) (s : State), ready s ∧ s.chip.domOn 2 = true ∧ s.chip.rg R.MCU_TRACE_CFG_EN 0 = 0 ∧ s.chip.rg R.MCU_TASK_STAT_STATE task = 2 ∧ s.chip.runnable task = true ∧ s.chip.rg R.MCU_CTRL_HALT 0 = 0 ∧ s.chip.mc.resv = [] ∧ s.chip.rg R.MCU_TASK_STAT_LAST task = j ∧ s.chip.mayRun task j = true ∧ s.chip.coreIdle j = true ∧ s.chip.sources task = [] ∧ s.chip.mc.waits = [] :=
  ⟨0, 5, 1, { st [(R.PWR_DOM_STAT_PSTATE, 2, 2), (R.MCU_TASK_STAT_STATE, 5, 2), (R.MCU_TASK_STAT_LAST, 5, 1), (R.MCU_CORE_STAT_STATE, 1, 0)] with chip.mc.ready := [(0, [5])] }, by decide +kernel⟩

theorem wit_sourcePending : ∃ (t : Nat) (n : Fin 64) (task : Fin 512) (s : State), ready s ∧ s.chip.domOn 2 = true ∧ s.chip.rg R.MCU_TRACE_CFG_EN 0 = 0 ∧ n.val < 33 ∨ 48 < n.val ∧ n.val < 53 ∧ s.chip.mc.srcDue.contains n.val = true ∧ s.chip.mc.sig = [] ∧ s.chip.rg R.MCU_SRC_BIND_EN n = 1 ∧ s.chip.rg R.MCU_SRC_BIND_TASK n = task ∧ s.chip.rg R.MCU_TASK_STAT_STATE task = 5 ∧ s.chip.rg R.MCU_CTRL_HALT 0 = 1 ∧ s.chip.rg R.MCU_TASK_CFG_IMG task = 0 :=
  ⟨0, 49, 5, { st [(R.PWR_DOM_STAT_PSTATE, 2, 2), (R.MCU_TASK_STAT_STATE, 5, 5), (R.MCU_SRC_BIND_EN, 49, 1), (R.MCU_SRC_BIND_TASK, 49, 5), (R.MCU_CTRL_HALT, 0, 1)] with chip.mc.srcDue := [49] }, by decide +kernel⟩

theorem wit_sourcePending_1 : ∃ (t : Nat) (n : Fin 64) (s : State), ready s ∧ s.chip.domOn 2 = true ∧ n.val < 33 ∨ 48 < n.val ∧ s.chip.mc.srcDue.contains n.val = false :=
  ⟨0, 49, st [(R.PWR_DOM_STAT_PSTATE, 2, 2)], by decide +kernel⟩

theorem wit_swsrcSet : ∃ (t : Nat) (i : Fin 8) (s : State), ready s ∧ s.chip.domOn 2 = true ∧ s.chip.rg R.MCU_TRACE_CFG_EN 0 = 0 ∧ s.chip.boundTo (56 + i) = none :=
  ⟨0, 3, st [(R.PWR_DOM_STAT_PSTATE, 2, 2)], by decide +kernel⟩

theorem wit_schedTick : ∃ (t : Nat) (s : State), ready s ∧ s.chip.domOn 2 = true ∧ s.chip.mc.tickAt + s.chip.rg R.MCU_TICK_TICK 0 * usU ≤ (chipAt s t).eNow ∧ s.chip.mc.wake = [] :=
  ⟨10 ^ 13, st [(R.PWR_DOM_STAT_PSTATE, 2, 2)], by decide +kernel⟩

theorem wit_schedTick_1 : ∃ (t : Nat) (task : Fin 512) (s : State), ready s ∧ s.chip.domOn 2 = true ∧ s.chip.rg R.MCU_TRACE_CFG_EN 0 = 0 ∧ s.chip.mc.tickAt + s.chip.rg R.MCU_TICK_TICK 0 * usU ≤ (chipAt s t).eNow ∧ s.chip.tickNow + 1 < 2 ^ 32 ∧ s.chip.mc.wake = [(task.val, s.chip.tickNow + 1)] ∧ s.chip.rg R.MCU_CTRL_HALT 0 = 1 :=
  ⟨10 ^ 13, 5, { st [(R.PWR_DOM_STAT_PSTATE, 2, 2), (R.MCU_TASK_STAT_STATE, 5, 4), (R.MCU_CTRL_HALT, 0, 1)] with chip.mc.wake := [(5, 1)] }, by decide +kernel⟩

theorem wit_preemptTimeout : ∃ (t : Nat) (j : Fin 16) (a : Nat) (s : State), ready s ∧ s.chip.domOn 2 = true ∧ s.chip.mc.resvAt.find j = some a ∧ a + s.chip.rg R.MCU_CTRL_PRE_TO 0 * usPs ≤ max s.chip.now t ∧ s.chip.mc.late.contains j.val = false :=
  ⟨10 ^ 13, 1, 3, { st [(R.PWR_DOM_STAT_PSTATE, 2, 2)] with chip.mc.resvAt := [(1, 3)], chip.mc.resv := [(1, 5)] }, by decide +kernel⟩

theorem wit_taskWatchdog : ∃ (t : Nat) (j : Fin 16) (a : Nat) (s : State), ready s ∧ s.chip.domOn 2 = true ∧ s.chip.rg R.MCU_TRACE_CFG_EN 0 = 0 ∧ s.chip.mc.runAt.find j = some a ∧ a + s.chip.rg R.MCU_CORE_CFG_RUN_MAX j * usPs ≤ max s.chip.now t ∧ s.chip.mc.wdog.contains j.val = false :=
  ⟨10 ^ 13, 1, 7, { st [(R.PWR_DOM_STAT_PSTATE, 2, 2), (R.MCU_TASK_STAT_STATE, 5, 3), (R.MCU_CORE_STAT_STATE, 1, 1), (R.MCU_CORE_STAT_TASK, 1, 5)] with chip.mc.run := [(1, 5)], chip.mc.runAt := [(1, 7)] }, by decide +kernel⟩

theorem wit_coreWatchdogReset : ∃ (t : Nat) (j : Fin 16) (a : Nat) (task : Fin 512) (s : State), ready s ∧ s.chip.domOn 2 = true ∧ s.chip.rg R.MCU_TRACE_CFG_EN 0 = 0 ∧ s.chip.mc.runAt.find j = some a ∧ a + 2 * s.chip.rg R.MCU_CORE_CFG_RUN_MAX j * usPs ≤ max s.chip.now t ∧ s.chip.mc.run.find j = some task.val ∧ s.chip.rg R.MCU_TASK_STAT_STATE task = 3 ∧ s.chip.mc.ready = [] ∧ s.chip.mc.resv = [] :=
  ⟨10 ^ 14, 1, 7, 5, { st [(R.PWR_DOM_STAT_PSTATE, 2, 2), (R.MCU_TASK_STAT_STATE, 5, 3), (R.MCU_CORE_STAT_STATE, 1, 1), (R.MCU_CORE_STAT_TASK, 1, 5)] with chip.mc.run := [(1, 5)], chip.mc.runAt := [(1, 7)] }, by decide +kernel⟩

theorem wit_mtimerInterrupt : ∃ (t : Nat) (j : Fin 16) (s : State), ready s ∧ s.chip.domOn 2 = true ∧ s.chip.rg R.MCU_MTIMECMP_HI_US j * 2 ^ 32 + s.chip.rg R.MCU_MTIMECMP_LO_US j ≤ (chipAt s t).mtime :=
  ⟨10 ^ 15, 1, { st [(R.PWR_DOM_STAT_PSTATE, 2, 2), (R.MCU_MTIMECMP_HI_US, 1, 0), (R.MCU_MTIMECMP_LO_US, 1, 100)] with pending := [] }, by decide +kernel⟩

theorem wit_mcuHostCmd : ∃ (t : Nat) (v : Nat) (s : State), ready s ∧ s.chip.domOn 2 = true ∧ s.chip.mc.hostHeld = none ∧ (chipAt s t).fifoFull = false ∧ bits v 0 4 = 10 ∧ s.chip.rg R.MCU_TASK_STAT_STATE (bits v 16 9) ≠ 2 :=
  ⟨0, 10 + 16 * 7 + 65536 * 5, st [(R.PWR_DOM_STAT_PSTATE, 2, 2)], by decide +kernel⟩

theorem wit_mcuHostCmd_1 : ∃ (t : Nat) (v : Nat) (s : State), ready s ∧ s.chip.domOn 2 = true ∧ s.chip.mc.hostHeld = none ∧ (chipAt s t).fifoFull = false ∧ bits v 0 4 ≠ 1 ∧ bits v 0 4 < 7 ∨ 10 < bits v 0 4 :=
  ⟨0, 2, st [(R.PWR_DOM_STAT_PSTATE, 2, 2)], by decide +kernel⟩

theorem wit_mcuHostCmd_2 : ∃ (t : Nat) (v : Nat) (s : State), ready s ∧ s.chip.domOn 2 = true ∧ s.chip.mc.hostHeld = none ∧ (chipAt s t).fifoFull = true :=
  ⟨0, 2, { st [(R.PWR_DOM_STAT_PSTATE, 2, 2)] with chip.mc.fifo := List.replicate 64 9 }, by decide +kernel⟩

theorem wit_hostCmdBusy : ∃ (t : Nat) (h : HostCmd) (s : State), ready s ∧ s.chip.domOn 2 = true ∧ s.chip.mc.hostHeld = some h ∧ h.at_ + msPs ≤ h.free ∧ h.at_ + msPs ≤ max s.chip.now t :=
  ⟨10 ^ 13, ⟨1, 2, 10 ^ 12⟩, { st [(R.PWR_DOM_STAT_PSTATE, 2, 2)] with chip.mc.hostHeld := some ⟨1, 2, 10 ^ 12⟩ }, by decide +kernel⟩

theorem wit_taskCfgWrite : ∃ (t : Nat) (k : Fin 512) (v : Nat) (s : State), ready s ∧ s.chip.domOn 2 = true ∧ s.chip.rg R.MCU_TASK_STAT_STATE k < 2 :=
  ⟨0, 5, 0xFFFF0083, State.reset, by decide +kernel⟩

theorem wit_taskCfgWrite_1 : ∃ (t : Nat) (k : Fin 512) (v : Nat) (s : State), ready s ∧ s.chip.domOn 2 = true ∧ 2 ≤ s.chip.rg R.MCU_TASK_STAT_STATE k ∧ s.chip.rb R.MCU_TASK_CFG_VALID k = bit v 7 :=
  ⟨0, 5, 0xFFFF0083, st [(R.MCU_TASK_STAT_STATE, 5, 2), (R.MCU_TASK_CFG_VALID, 5, 1)], by decide +kernel⟩

theorem wit_mcuHalt : ∃ (t : Nat) (v : Nat) (s : State), ready s ∧ s.chip.domOn 2 = true ∧ 1 ≤ bits v 16 10 ∧ bits v 16 10 ≤ 1000 ∧ bit v 0 = true ∧ s.chip.rg R.MCU_CTRL_HALT 0 = 0 :=
  ⟨0, 65536 * 100 + 1, st [(R.PWR_DOM_STAT_PSTATE, 2, 2), (R.MCU_CORE_STAT_STATE, 3, 0)], by decide +kernel⟩

/-! Witnesses of `WorkQueueCommands`. -/

theorem wit_wqPointerWrite : ∃ (t : Nat) (w : Fin 49) (v : Nat) (s : State), ready s ∧ s.chip.domOn 2 = true ∧ w.val ≤ 32 ∧ v < 65536 ∧ (s.chip.rg R.MCU_WQ_HEAD_INDEX w + 65536 - v) % 65536 ≤ s.chip.wqSlots w :=
  ⟨0, 3, 5, st [(R.MCU_WQ_HEAD_INDEX, 3, 7)], by decide +kernel⟩

theorem wit_wqPointerWrite_1 : ∃ (t : Nat) (w : Fin 49) (v : Nat) (s : State), ready s ∧ s.chip.domOn 2 = true ∧ 32 < w.val ∧ v < 65536 ∧ (v + 65536 - s.chip.rg R.MCU_WQ_TAIL_INDEX w) % 65536 ≤ s.chip.wqSlots w :=
  ⟨0, 33, 5, st [(R.MCU_WQ_TAIL_INDEX, 33, 4), (R.MCU_WQ_CFG_SIZE_LOG2, 33, 4)], by decide +kernel⟩

theorem wit_wqPointerWrite_2 : ∃ (t : Nat) (w : Fin 49) (v : Nat) (s : State), ready s ∧ s.chip.domOn 2 = true ∧ w.val ≤ 32 :=
  ⟨0, 3, 5, State.reset, by decide +kernel⟩

theorem wit_txDescProcess : ∃ (t : Nat) (j : Fin 16) (a : Nat) (d : List Byte) (s : State), ready s ∧ s.chip.domOn 2 = true ∧ s.chip.rg R.MCU_WQ_CFG_EN (33 + j) = 1 ∧ s.chip.wqOcc (33 + j) ≠ 0 ∧ (chipAt s t).ddrOk = true ∧ a = s.chip.wqAddr (33 + j) (s.chip.rg R.MCU_WQ_TAIL_INDEX (33 + j)) ∧ d = s.mem.ddrRead a 16 ∧ half d 0 = 0x0300 ∧ half d 2 = 0 ∧ 60 ≤ half d 4 ∧ half d 4 ≤ s.chip.maxFrame - 4 ∧ beAt d 8 8 + half d 4 ≤ s.chip.ddrCap :=
  ⟨0, 1, 0, ({ st [(R.PWR_DOM_STAT_PSTATE, 2, 2), (R.PWR_DOM_STAT_PSTATE, 4, 2), (R.MEM_DDR_STAT_CAP, 0, 2), (R.MEM_DDR_STAT_TRAINED, 0, 1), (R.MCU_WQ_CFG_EN, 34, 1), (R.MCU_WQ_HEAD_INDEX, 34, 1), (R.MCU_WQ_CFG_SIZE_LOG2, 34, 4)] with mem := State.reset.mem.apply (.ddr 0 ([3, 0, 0, 0, 0, 60] ++ zeros 2 ++ beBytes 8 4096)) }).mem.ddrRead 0 16, { st [(R.PWR_DOM_STAT_PSTATE, 2, 2), (R.PWR_DOM_STAT_PSTATE, 4, 2), (R.MEM_DDR_STAT_CAP, 0, 2), (R.MEM_DDR_STAT_TRAINED, 0, 1), (R.MCU_WQ_CFG_EN, 34, 1), (R.MCU_WQ_HEAD_INDEX, 34, 1), (R.MCU_WQ_CFG_SIZE_LOG2, 34, 4)] with mem := State.reset.mem.apply (.ddr 0 ([3, 0, 0, 0, 0, 60] ++ zeros 2 ++ beBytes 8 4096)) }, by decide +kernel⟩

theorem wit_txDescProcess_1 : ∃ (t : Nat) (j : Fin 16) (a : Nat) (d : List Byte) (s : State), ready s ∧ s.chip.domOn 2 = true ∧ s.chip.rg R.MCU_WQ_CFG_EN (33 + j) = 1 ∧ s.chip.wqOcc (33 + j) ≠ 0 ∧ (chipAt s t).ddrOk = true ∧ a = s.chip.wqAddr (33 + j) (s.chip.rg R.MCU_WQ_TAIL_INDEX (33 + j)) ∧ d = s.mem.ddrRead a 16 ∧ 4 < byteAt d 0 ∨ byteAt d 1 ≠ 0 ∨ half d 4 < 60 ∨ s.chip.maxFrame - 4 < half d 4 :=
  ⟨0, 1, 0, ({ st [(R.PWR_DOM_STAT_PSTATE, 2, 2), (R.PWR_DOM_STAT_PSTATE, 4, 2), (R.MEM_DDR_STAT_CAP, 0, 2), (R.MEM_DDR_STAT_TRAINED, 0, 1), (R.MCU_WQ_CFG_EN, 34, 1), (R.MCU_WQ_HEAD_INDEX, 34, 1), (R.MCU_WQ_CFG_SIZE_LOG2, 34, 4)] with mem := State.reset.mem.apply (.ddr 0 ([5, 0, 0, 0, 0, 60] ++ zeros 2 ++ beBytes 8 4096)) }).mem.ddrRead 0 16, { st [(R.PWR_DOM_STAT_PSTATE, 2, 2), (R.PWR_DOM_STAT_PSTATE, 4, 2), (R.MEM_DDR_STAT_CAP, 0, 2), (R.MEM_DDR_STAT_TRAINED, 0, 1), (R.MCU_WQ_CFG_EN, 34, 1), (R.MCU_WQ_HEAD_INDEX, 34, 1), (R.MCU_WQ_CFG_SIZE_LOG2, 34, 4)] with mem := State.reset.mem.apply (.ddr 0 ([5, 0, 0, 0, 0, 60] ++ zeros 2 ++ beBytes 8 4096)) }, by decide +kernel⟩

/-! Witnesses of `SpareCoreCommands`. -/

theorem wit_mcuSpareGo : ∃ (t : Nat) (j : Fin 16) (s : State), ready s ∧ s.chip.domOn 2 = true ∧ s.chip.rg R.MCU_SPARE_STAT_STATE 0 = 0 ∧ s.chip.rg R.HLT_SPARE_CHIP_MCU 0 = 1 ∧ s.chip.rg R.MCU_CORE_STAT_STATE j ≠ 4 :=
  ⟨0, 3, st [(R.HLT_SPARE_CHIP_MCU, 0, 1)], by decide +kernel⟩

theorem wit_mcuSpareGo_1 : ∃ (t : Nat) (j : Fin 16) (s : State), ready s ∧ s.chip.domOn 2 = true ∧ s.chip.rg R.MCU_SPARE_STAT_STATE 0 ≠ 0 ∨ s.chip.rg R.HLT_SPARE_CHIP_MCU 0 = 0 ∨ s.chip.rg R.MCU_CORE_STAT_STATE j = 4 :=
  ⟨0, 3, st [(R.MCU_CORE_STAT_STATE, 3, 4)], by decide +kernel⟩

theorem wit_mcuSpareDrained : ∃ (t : Nat) (s : State), ready s ∧ s.chip.domOn 2 = true ∧ s.chip.rg R.MCU_SPARE_STAT_STATE 0 = 1 ∧ s.chip.mc.run.find s.chip.mc.spareCore = none :=
  ⟨0, st [(R.PWR_DOM_STAT_PSTATE, 2, 2), (R.MCU_SPARE_STAT_STATE, 0, 1)], by decide +kernel⟩

theorem wit_mcuSpareCopied : ∃ (t : Nat) (j : Fin 16) (sp : Nat) (s : State), ready s ∧ s.chip.domOn 2 = true ∧ s.chip.rg R.MCU_TRACE_CFG_EN 0 = 0 ∧ s.chip.rg R.MCU_SPARE_STAT_STATE 0 = 2 ∧ s.chip.mc.spareCore = j ∧ s.chip.rg R.MCU_SPARE_STAT_PHYS 0 = sp ∧ sp < 17 ∧ s.chip.rg R.MCU_CORE_STAT_PHYS j < 17 ∧ s.chip.mc.ready = [] ∧ s.chip.mc.resv = [] ∧ s.chip.rg R.MCU_CORE_STAT_STATE j = 0 :=
  ⟨0, 3, 16, { st [(R.PWR_DOM_STAT_PSTATE, 2, 2), (R.MCU_SPARE_STAT_STATE, 0, 2), (R.MCU_CORE_STAT_PHYS, 3, 3), (R.MCU_SPARE_STAT_PHYS, 0, 16), (R.MCU_CORE_STAT_STATE, 3, 0)] with chip.mc.spareCore := 3 }, by decide +kernel⟩

/-! Witnesses of `FuseAndFlashCommands`. -/

theorem wit_fuseProgram : ∃ (t : Nat) (group : Fin 16) (s : State), ready s ∧ s.chip.domOn 3 = true ∧ group.val ≤ 9 ∧ s.chip.sec.fuseOp = none ∧ s.chip.fuseRefused group ((List.range 16).map (fun w => s.chip.rg R.SEC_FUSE_DATA_DATA w)) = false :=
  ⟨0, 5, State.reset, by decide +kernel⟩

theorem wit_fuseProgram_1 : ∃ (t : Nat) (group : Fin 16) (supply : Bool) (s : State), ready s ∧ s.chip.domOn 3 = true ∧ group.val ≤ 9 ∧ s.chip.sec.fuseOp = none ∧ s.chip.fuseRefused group ((List.range 16).map (fun w => s.chip.rg R.SEC_FUSE_DATA_DATA w)) = true ∨ supply = false :=
  ⟨0, 9, true, State.reset, by decide +kernel⟩

theorem wit_fuseProgramDone : ∃ (t : Nat) (g : Nat) (ws : List Nat) (s : State), ready s ∧ s.chip.sec.fuseOp = some (g, ws) :=
  ⟨0, 5, [], { State.reset with chip.sec.fuseOp := some (5, []) }, by decide +kernel⟩

theorem wit_fuseProgramDone_1 : ∃ (t : Nat) (g : Nat) (ws : List Nat) (s : State), ready s ∧ s.chip.sec.fuseOp = some (g, ws) :=
  ⟨0, 5, [], { State.reset with chip.sec.fuseOp := some (5, []) }, by decide +kernel⟩

theorem wit_fuseCheck : ∃ (t : Nat) (grown : Nat) (s : State), ready s ∧ s.chip.sec.fuseChkAt + secPs ≤ max s.chip.now t ∧ s.chip.sec.fuses ||| (grown % 2 ^ 8192) = s.chip.sec.fuseImg :=
  ⟨10 ^ 13, 0, State.reset, by decide +kernel⟩

theorem wit_fuseCheck_1 : ∃ (t : Nat) (grown : Nat) (s : State), ready s ∧ s.chip.sec.fuseChkAt + secPs ≤ max s.chip.now t ∧ s.chip.sec.fuses ||| (grown % 2 ^ 8192) ≠ s.chip.sec.fuseImg ∧ s.chip.rbit R.SEC_ALARM_STAT_ACTIVE 0 6 = false :=
  ⟨10 ^ 13, 4, State.reset, by decide +kernel⟩

theorem wit_flashErase : ∃ (t : Nat) (s : State), ready s ∧ s.chip.domOn 3 = true ∧ s.chip.sec.flashOp = none ∧ s.chip.rg R.SEC_FLASH_ADDR_ADDR 0 % 65536 = 0 ∧ s.chip.rg R.SEC_FLASH_ADDR_ADDR 0 < 0x40000000 ∧ s.chip.domOn 4 = true :=
  ⟨0, st [(R.PWR_DOM_STAT_PSTATE, 4, 2), (R.MEM_DDR_STAT_CAP, 0, 2), (R.MEM_DDR_STAT_TRAINED, 0, 1)], by decide +kernel⟩

theorem wit_flashErase_1 : ∃ (t : Nat) (s : State), ready s ∧ s.chip.domOn 3 = true ∧ s.chip.sec.flashOp = none ∧ s.chip.rg R.SEC_FLASH_ADDR_ADDR 0 % 65536 ≠ 0 :=
  ⟨0, st [(R.SEC_FLASH_ADDR_ADDR, 0, 1)], by decide +kernel⟩

theorem wit_flashProgram : ∃ (t : Nat) (s : State), ready s ∧ s.chip.domOn 3 = true ∧ s.chip.sec.flashOp = none ∧ s.chip.rg R.SEC_FLASH_ADDR_ADDR 0 % 4096 = 0 ∧ s.chip.rg R.SEC_FLASH_ADDR_ADDR 0 < 0x40000000 ∧ (chipAt s t).ddrOk = true ∧ s.chip.rg R.SEC_FLASH_DDR_ADDR4K 0 * 4096 + 4096 ≤ s.chip.ddrCap :=
  ⟨0, st [(R.PWR_DOM_STAT_PSTATE, 4, 2), (R.MEM_DDR_STAT_CAP, 0, 2), (R.MEM_DDR_STAT_TRAINED, 0, 1)], by decide +kernel⟩

theorem wit_flashProgram_1 : ∃ (t : Nat) (s : State), ready s ∧ s.chip.domOn 3 = true ∧ s.chip.sec.flashOp = none ∧ s.chip.rg R.SEC_FLASH_ADDR_ADDR 0 % 4096 ≠ 0 :=
  ⟨0, st [(R.SEC_FLASH_ADDR_ADDR, 0, 1)], by decide +kernel⟩

theorem wit_flashRead : ∃ (t : Nat) (s : State), ready s ∧ s.chip.domOn 3 = true ∧ s.chip.sec.flashOp = none ∧ s.chip.rg R.SEC_FLASH_ADDR_ADDR 0 % 4096 = 0 ∧ s.chip.rg R.SEC_FLASH_ADDR_ADDR 0 < 0x40004000 ∧ (chipAt s t).ddrOk = true ∧ s.chip.rg R.SEC_FLASH_DDR_ADDR4K 0 * 4096 + 4096 ≤ s.chip.ddrCap :=
  ⟨0, st [(R.PWR_DOM_STAT_PSTATE, 4, 2), (R.MEM_DDR_STAT_CAP, 0, 2), (R.MEM_DDR_STAT_TRAINED, 0, 1)], by decide +kernel⟩

theorem wit_flashRead_1 : ∃ (t : Nat) (s : State), ready s ∧ s.chip.domOn 3 = true ∧ s.chip.sec.flashOp = none ∧ s.chip.rg R.SEC_FLASH_ADDR_ADDR 0 % 4096 ≠ 0 :=
  ⟨0, st [(R.SEC_FLASH_ADDR_ADDR, 0, 1)], by decide +kernel⟩

theorem wit_flashOpDone : ∃ (t : Nat) (a d : Nat) (s : State), ready s ∧ s.chip.sec.flashOp = some (1, a, d) :=
  ⟨0, 65536, 0, { State.reset with chip.sec.flashOp := some (1, 65536, 0) }, by decide +kernel⟩

theorem wit_flashOpDone_1 : ∃ (t : Nat) (a d : Nat) (s : State), ready s ∧ s.chip.sec.flashOp = some (2, a, d) :=
  ⟨0, 65536, 0, { State.reset with chip.sec.flashOp := some (2, 65536, 0) }, by decide +kernel⟩

theorem wit_flashOpDone_2 : ∃ (t : Nat) (a d : Nat) (s : State), ready s ∧ s.chip.sec.flashOp = some (3, a, d) ∧ a < 0x40000000 :=
  ⟨0, 65536, 0, { State.reset with chip.sec.flashOp := some (3, 65536, 0) }, by decide +kernel⟩

theorem wit_flashOpDone_3 : ∃ (t : Nat) (op a d : Nat) (s : State), ready s ∧ s.chip.sec.flashOp = some (op, a, d) :=
  ⟨0, 3, 65536, 0, { State.reset with chip.sec.flashOp := some (3, 65536, 0) }, by decide +kernel⟩

theorem wit_debugEnable : ∃ (t : Nat) (s : State), ready s ∧ s.chip.domOn 3 = true ∧ s.chip.debugLocked = false ∧ s.chip.rbit R.SEC_ALARM_STAT_ACTIVE 0 7 = false :=
  ⟨0, State.reset, by decide +kernel⟩

theorem wit_debugEnable_1 : ∃ (t : Nat) (s : State), ready s ∧ s.chip.domOn 3 = true ∧ s.chip.debugLocked = true :=
  ⟨0, { State.reset with chip.sec.fuseImg := 2 ^ 2120 }, by decide +kernel⟩

/-! Witnesses of `BootAndFirmwareCommands`. -/

theorem wit_bootStart : ∃ (t : Nat) (sel : Fin 4) (s : State), ready s ∧ s.chip.sec.bootStep = 0 ∧ s.chip.rg R.SEC_BOOT_STAT_STAGE 0 = 0 ∧ s.chip.sec.entBad = false ∧ s.chip.rg R.SEC_ALARM_STAT_RELEASE 0 = 0 :=
  ⟨0, 1, State.reset, by decide +kernel⟩

theorem wit_bootStart_1 : ∃ (t : Nat) (sel : Fin 4) (s : State), ready s ∧ s.chip.sec.bootStep = 0 ∧ s.chip.rg R.SEC_BOOT_STAT_STAGE 0 = 0 :=
  ⟨0, 1, State.reset, by decide +kernel⟩

theorem wit_bootDdrTrained : ∃ (t : Nat) (dimms ranks cap : Nat) (s : State), ready s ∧ s.chip.sec.bootStep = 2 ∧ s.chip.rg R.SEC_BOOT_STAT_STAGE 0 = 0 ∧ dimms = 1 ∨ dimms = 2 ∧ ranks = 1 ∨ ranks = 2 ∧ 16 ≤ cap ∧ cap ≤ 256 ∧ s.chip.rg R.MEM_DDR_CFG_SPARE_RANK 0 = 0 ∧ dirOk s.mem 0 = false ∧ dirOk s.mem 1 = false :=
  ⟨0, 2, 2, 64, { State.reset with chip.sec.bootStep := 2 }, by decide +kernel⟩

theorem wit_bootDdrTrained_1 : ∃ (t : Nat) (dimms ranks cap : Nat) (s : State), ready s ∧ s.chip.sec.bootStep = 2 ∧ s.chip.rg R.SEC_BOOT_STAT_STAGE 0 = 0 :=
  ⟨0, 2, 2, 64, { State.reset with chip.sec.bootStep := 2 }, by decide +kernel⟩

theorem wit_bootStage1Run : ∃ (t : Nat) (b : Fin 2) (cause : Nat) (s : State), ready s ∧ s.chip.sec.bootStep = 4 ∧ s.chip.sec.bootTry = [b.val] ∧ cause = (chipAt s t).imageCause ((chipAt s t).bootImage s.mem b 2).1 ((chipAt s t).bootImage s.mem b 2).2 2 :=
  ⟨0, 0, 2, { State.reset with chip.sec.bootStep := 4, chip.sec.bootTry := [0], mem := State.reset.mem.apply (.flash 16 (zeros 8)) }, by decide +kernel⟩

theorem wit_bootOmliaVerified : ∃ (t : Nat) (s : State), ready s ∧ s.chip.sec.bootStep = 5 ∧ s.chip.sec.bootTry = [2] ∧ s.chip.swapEntries s.mem = [] :=
  ⟨0, { State.reset with chip.sec.bootStep := 5, chip.sec.bootTry := [2] }, by decide +kernel⟩

theorem wit_bootRetry : ∃ (t : Nat) (cause : Nat) (s : State), ready s ∧ s.chip.domOn 3 = true ∧ s.chip.rg R.SEC_BOOT_STAT_STAGE 0 = 4 ∧ cause = (if (chipAt s t).ddrOk then (chipAt s t).imageCause ((chipAt s t).bootImage s.mem 2 1).1 ((chipAt s t).bootImage s.mem 2 1).2 1 else 6) :=
  ⟨0, 6, st [(R.SEC_BOOT_STAT_STAGE, 0, 4)], by decide +kernel⟩

theorem wit_bootRetry_1 : ∃ (t : Nat) (s : State), ready s ∧ s.chip.domOn 3 = true ∧ s.chip.rg R.SEC_BOOT_STAT_STAGE 0 ≠ 4 :=
  ⟨0, State.reset, by decide +kernel⟩

theorem wit_fwCandVerify : ∃ (t : Nat) (s : State), ready s ∧ s.chip.domOn 3 = true ∧ s.chip.rg R.TRK_MODE_CODE 0 = 10 ∧ s.chip.rg R.ALM_JUB_STAT_STATE 0 = 1 :=
  ⟨0, st [(R.TRK_MODE_CODE, 0, 10), (R.ALM_JUB_STAT_STATE, 0, 1)], by decide +kernel⟩

theorem wit_fwCandVerify_1 : ∃ (t : Nat) (s : State), ready s ∧ s.chip.domOn 3 = true ∧ s.chip.rg R.TRK_MODE_CODE 0 ≠ 10 ∨ s.chip.rg R.ALM_JUB_STAT_STATE 0 ≠ 1 :=
  ⟨0, State.reset, by decide +kernel⟩

theorem wit_fwCandVerifyDone : ∃ (t : Nat) (a len cause : Nat) (s : State), ready s ∧ s.chip.sec.candOp = some (a, len) ∧ (chipAt s t).ddrOk = true ∧ a + len ≤ s.chip.ddrCap ∧ len ≤ maxFw ∧ cause = (chipAt s t).imageCause (s.mem.ddrRead a len) len 2 :=
  ⟨0, 0, 16, 2, { st [(R.PWR_DOM_STAT_PSTATE, 4, 2), (R.MEM_DDR_STAT_CAP, 0, 2), (R.MEM_DDR_STAT_TRAINED, 0, 1)] with chip.sec.candOp := some (0, 16) }, by decide +kernel⟩

/-! Witnesses of `KeyCommands`. -/

theorem wit_mkOffer : ∃ (t : Nat) (s : State), ready s ∧ s.chip.domOn 3 = true ∧ s.chip.sec.mkOp = none ∧ s.chip.rg R.TRK_MODE_CODE 0 = 4 ∨ s.chip.rg R.TRK_MODE_CODE 0 = 5 ∨ s.chip.rg R.TRK_MODE_CODE 0 = 10 ∧ s.chip.sec.entBad = false ∧ s.chip.rg R.SEC_STAT_ID_READY 0 = 1 :=
  ⟨0, st [(R.TRK_MODE_CODE, 0, 4), (R.SEC_STAT_ID_READY, 0, 1)], by decide +kernel⟩

theorem wit_mkOffer_1 : ∃ (t : Nat) (s : State), ready s ∧ s.chip.domOn 3 = true ∧ s.chip.rg R.TRK_MODE_CODE 0 ≠ 4 ∧ s.chip.rg R.TRK_MODE_CODE 0 ≠ 5 ∧ s.chip.rg R.TRK_MODE_CODE 0 ≠ 10 :=
  ⟨0, State.reset, by decide +kernel⟩

theorem wit_mkAnswer : ∃ (t : Nat) (s : State), ready s ∧ s.chip.domOn 3 = true ∧ s.chip.sec.mkOp = none ∧ s.chip.rg R.SEC_ALARM_STAT_RELEASE 0 = 0 ∧ (chipAt s t).ddrOk = true :=
  ⟨0, st [(R.PWR_DOM_STAT_PSTATE, 4, 2), (R.MEM_DDR_STAT_TRAINED, 0, 1)], by decide +kernel⟩

theorem wit_mkAnswer_1 : ∃ (t : Nat) (s : State), ready s ∧ s.chip.domOn 3 = true ∧ s.chip.sec.mkOp = none ∧ s.chip.rg R.SEC_ALARM_STAT_RELEASE 0 ≠ 0 :=
  ⟨0, st [(R.SEC_ALARM_STAT_RELEASE, 0, 8)], by decide +kernel⟩

theorem wit_mkOpDone : ∃ (t : Nat) (s : State), ready s ∧ s.chip.sec.mkOp = some (1, []) ∧ s.chip.rg R.SEC_STAT_ID_READY 0 = 1 :=
  ⟨0, { st [(R.SEC_STAT_ID_READY, 0, 1)] with chip.sec.mkOp := some (1, []) }, by decide +kernel⟩

theorem wit_mkOpDone_1 : ∃ (t : Nat) (b : List Byte) (o : MkOffer) (r : Nat) (s : State), ready s ∧ s.chip.sec.mkOp = some (2, b) ∧ s.chip.sec.offer = some o ∧ r = (if ¬(b.length = 8820 ∧ byteAt b 8819 = 0) then 4 else if b.take 32 ≠ o.body.take 32 then 3 else if s.chip.headEndKey (sha3_512 (slice b 1600 2592)) = false then 1 else if Config.mldsaVerify (slice b 1600 2592) (ascii "KQ-MK-H") (sha3_512 (o.body ++ b.take 4192)) (slice b 4192 4627) = false then 2 else 0) :=
  ⟨0, [], ⟨0, []⟩, 4, { State.reset with chip.sec.mkOp := some (2, []), chip.sec.offer := some ⟨0, []⟩ }, by decide +kernel⟩

theorem wit_keyLoadTrunkDown : ∃ (t : Nat) (i : Nat) (s : State), ready s ∧ s.chip.domOn 3 = true ∧ s.chip.rg R.SEC_KEY_SEL_INDEX 0 = i ∧ s.chip.keyPermits i 0 = true ∧ s.chip.rg R.SEC_ALARM_STAT_RELEASE 0 = 0 :=
  ⟨0, 9, { st [(R.SEC_KEY_SEL_INDEX, 0, 9), (R.SEC_KEY_DATA_KEY, 0, 5)] with chip.alm.active := [(0x0902 * 65536 + 9, [3])] }, by decide +kernel⟩

theorem wit_keyLoadTrunkDown_1 : ∃ (t : Nat) (s : State), ready s ∧ s.chip.domOn 3 = true ∧ s.chip.keyPermits (s.chip.rg R.SEC_KEY_SEL_INDEX 0) 0 = false ∨ s.chip.rg R.SEC_ALARM_STAT_RELEASE 0 ≠ 0 :=
  ⟨0, State.reset, by decide +kernel⟩

theorem wit_keyLoadTrunkUp : ∃ (t : Nat) (i : Nat) (s : State), ready s ∧ s.chip.domOn 3 = true ∧ s.chip.rg R.SEC_KEY_SEL_INDEX 0 = i ∧ s.chip.keyPermits i 1 = true ∧ s.chip.rg R.SEC_ALARM_STAT_RELEASE 0 = 0 :=
  ⟨0, 9, { st [(R.SEC_KEY_SEL_INDEX, 0, 9), (R.SEC_KEY_DATA_KEY, 0, 5)] with chip.alm.active := [(0x0902 * 65536 + 9, [3])] }, by decide +kernel⟩

theorem wit_keyLoadTrunkUp_1 : ∃ (t : Nat) (s : State), ready s ∧ s.chip.domOn 3 = true ∧ s.chip.keyPermits (s.chip.rg R.SEC_KEY_SEL_INDEX 0) 1 = false ∨ s.chip.rg R.SEC_ALARM_STAT_RELEASE 0 ≠ 0 :=
  ⟨0, State.reset, by decide +kernel⟩

theorem wit_keyLoadMacsecTx : ∃ (t : Nat) (p an : Nat) (s : State), ready s ∧ s.chip.domOn 3 = true ∧ s.chip.rg R.SEC_KEY_SEL_PORT 0 = p ∧ p < 128 ∧ s.chip.rg R.SEC_KEY_SEL_AN 0 = an ∧ an < 4 ∧ s.chip.rg R.SEC_ALARM_STAT_RELEASE 0 = 0 :=
  ⟨0, 5, 1, st [(R.SEC_KEY_SEL_PORT, 0, 5), (R.SEC_KEY_SEL_AN, 0, 1)], by decide +kernel⟩

theorem wit_keyLoadMacsecRx : ∃ (t : Nat) (p an sc : Nat) (s : State), ready s ∧ s.chip.domOn 3 = true ∧ s.chip.rg R.SEC_KEY_SEL_PORT 0 = p ∧ p < 128 ∧ s.chip.rg R.SEC_KEY_SEL_AN 0 = an ∧ an < 4 ∧ s.chip.rg R.SEC_ALARM_STAT_RELEASE 0 = 0 ∧ s.chip.rg R.SEC_KEY_SEL_SC 0 = sc ∧ sc < 4 :=
  ⟨0, 5, 1, 2, st [(R.SEC_KEY_SEL_PORT, 0, 5), (R.SEC_KEY_SEL_AN, 0, 1), (R.SEC_KEY_SEL_SC, 0, 2)], by decide +kernel⟩

theorem wit_keyLoadVault : ∃ (t : Nat) (i : Nat) (s : State), ready s ∧ s.chip.domOn 3 = true ∧ s.chip.rg R.SEC_KEY_SEL_INDEX 0 = i ∧ 1 ≤ i ∧ i ≤ 7 ∧ s.chip.rg R.SEC_ALARM_STAT_RELEASE 0 = 0 :=
  ⟨0, 3, st [(R.SEC_KEY_SEL_INDEX, 0, 3)], by decide +kernel⟩

theorem wit_keyErase : ∃ (t : Nat) (i : Nat) (s : State), ready s ∧ s.chip.domOn 3 = true ∧ s.chip.rg R.SEC_KEY_SEL_INDEX 0 = i ∧ s.chip.rg R.SEC_KEY_SEL_ETARGET 0 = 4 ∧ 1 ≤ i ∧ i ≤ 7 ∧ s.chip.rg R.SEC_ALARM_STAT_RELEASE 0 = 0 :=
  ⟨0, 3, { st [(R.SEC_KEY_SEL_INDEX, 0, 3), (R.SEC_KEY_SEL_ETARGET, 0, 4)] with chip.sec.vault := [(3, [])] }, by decide +kernel⟩

theorem wit_keyErase_1 : ∃ (t : Nat) (i : Nat) (s : State), ready s ∧ s.chip.domOn 3 = true ∧ s.chip.rg R.SEC_KEY_SEL_INDEX 0 = i ∧ s.chip.rg R.SEC_KEY_SEL_ETARGET 0 = 0 ∧ 1 ≤ i ∧ i ≤ 254 ∧ s.chip.rg R.SEC_ALARM_STAT_RELEASE 0 = 0 :=
  ⟨0, 3, { st [(R.SEC_KEY_SEL_INDEX, 0, 3)] with chip.sec.trunkKeys := [(6, [])] }, by decide +kernel⟩

theorem wit_vaultEncrypt : ∃ (t : Nat) (core : Fin 16) (slot : Fin 8) (key : List Byte) (s : State), ready s ∧ s.chip.domOn 3 = true ∧ s.chip.sec.vault.find slot = some key :=
  ⟨0, 2, 3, [1], { State.reset with chip.sec.vault := [(3, [1])] }, by decide +kernel⟩

theorem wit_vaultEncrypt_1 : ∃ (t : Nat) (core : Fin 16) (slot : Fin 8) (s : State), ready s ∧ s.chip.domOn 3 = true ∧ s.chip.sec.vault.find slot = none :=
  ⟨0, 2, 3, State.reset, by decide +kernel⟩

theorem wit_vaultDecrypt : ∃ (t : Nat) (core : Fin 16) (slot : Fin 8) (key : List Byte) (s : State), ready s ∧ s.chip.domOn 3 = true ∧ s.chip.sec.vault.find slot = some key :=
  ⟨0, 2, 3, [1], { State.reset with chip.sec.vault := [(3, [1])] }, by decide +kernel⟩

theorem wit_vaultDecrypt_1 : ∃ (t : Nat) (core : Fin 16) (slot : Fin 8) (s : State), ready s ∧ s.chip.domOn 3 = true ∧ s.chip.sec.vault.find slot = none :=
  ⟨0, 2, 3, State.reset, by decide +kernel⟩

/-! Witnesses of `AlarmCommands`. -/

theorem wit_alarmStart : ∃ (t : Nat) (n : Fin 8) (s : State), ready s ∧ n.val ≠ 3 ∧ n.val ≠ 4 ∧ s.chip.rbit R.SEC_ALARM_STAT_ACTIVE 0 n = false ∧ ∀ k : Fin 4, s.chip.rg R.HST_SESS_STAT_STATE k ≤ 2 :=
  ⟨0, 1, stSess, by decide +kernel⟩

theorem wit_alarmEnd : ∃ (t : Nat) (n : Fin 8) (s : State), ready s ∧ n.val ≠ 3 ∧ n.val ≠ 4 ∧ s.chip.rbit R.SEC_ALARM_STAT_ACTIVE 0 n = true :=
  ⟨0, 1, st [(R.SEC_ALARM_STAT_ACTIVE, 0, 2)], by decide +kernel⟩

theorem wit_alarmAutoRelease : ∃ (t : Nat) (n : Fin 8) (s : State), ready s ∧ s.chip.rbit R.SEC_ALARM_STAT_RELEASE 0 n = true ∧ s.chip.rbit R.SEC_ALARM_STAT_ACTIVE 0 n = false ∧ s.chip.alarmAction n = 0 ∧ Tab.get 0 s.chip.sec.almEnd n + secPs ≤ max s.chip.now t :=
  ⟨10 ^ 13, 1, st [(R.SEC_ALARM_STAT_RELEASE, 0, 2)], by decide +kernel⟩

theorem wit_alarmRelease : ∃ (t : Nat) (n : Fin 8) (s : State), ready s ∧ s.chip.domOn 3 = true ∧ s.chip.rbit R.SEC_ALARM_STAT_ACTIVE 0 n = false ∧ s.chip.alarmAction n = 1 :=
  ⟨0, 1, { st [(R.SEC_ALARM_STAT_RELEASE, 0, 2)] with chip.alm.active := [(0x0903 * 65536 + 1, [1, 1])] }, by decide +kernel⟩

theorem wit_alarmRelease_1 : ∃ (t : Nat) (mask : Nat) (s : State), ready s ∧ s.chip.domOn 3 = true ∧ ∀ n < 8, s.chip.rbit R.SEC_ALARM_STAT_ACTIVE 0 n = true ∨ s.chip.alarmAction n ≠ 1 :=
  ⟨0, 255, st [(R.SEC_ALARM_STAT_RELEASE, 0, 2)], by decide +kernel⟩

theorem wit_idDerive : ∃ (t : Nat) (s : State), ready s ∧ s.chip.sec.idDue = true ∧ s.chip.rg R.SEC_ALARM_STAT_RELEASE 0 = 0 ∧ s.chip.sec.entBad = false ∧ s.chip.pw.evStep < 3 :=
  ⟨0, { State.reset with chip.sec.idDue := true }, by decide +kernel⟩

theorem wit_tamperStuck : ∃ (t : Nat) (j : Fin 2) (s : State), ready s ∧ s.chip.alarmStuck (3 + j) ≠ 0 ∧ s.chip.rbit R.SEC_ALARM_STAT_ACTIVE 0 (3 + j) = true ∧ Tab.get 0 s.chip.sec.tamperAt (3 + j) + s.chip.alarmStuck (3 + j) * secPs ≤ max s.chip.now t :=
  ⟨10 ^ 13, 0, { st [(R.SEC_ALARM_STAT_ACTIVE, 0, 8)] with chip.alm.active := [(0x0903 * 65536 + 3, [1, 1, 0, 1, 0, 5])] }, by decide +kernel⟩

/-! Witnesses of `EntropyAndScanCommands`. -/

theorem wit_entropyFail : ∃ (t : Nat) (s : State), ready s ∧ True :=
  ⟨0, State.reset, by decide +kernel⟩

theorem wit_entropyRecover : ∃ (t : Nat) (s : State), ready s ∧ True :=
  ⟨0, State.reset, by decide +kernel⟩

theorem wit_scanInterlock : ∃ (t : Nat) (s : State), ready s ∧ s.chip.rg R.TRK_MODE_CODE 0 = 11 :=
  ⟨0, st [(R.TRK_MODE_CODE, 0, 11)], by decide +kernel⟩

theorem wit_scanInterlock_1 : ∃ (t : Nat) (clear : Bool) (s : State), ready s ∧ s.chip.rg R.SEC_DEBUG_EN 0 = 0 :=
  ⟨0, true, State.reset, by decide +kernel⟩

/-! Witnesses of `DomainCommands`. -/

theorem wit_domRequest : ∃ (t : Nat) (d : Fin 17) (v : Nat) (s : State), ready s ∧ bits v 0 2 = 2 ∧ s.chip.rg R.PWR_DOM_STAT_PSTATE d = 0 ∧ s.chip.pw.dom.find d = none ∧ s.chip.refuser d 2 = none ∧ s.chip.pw.wakes = [] ∧ s.chip.alm.load.prep = none :=
  ⟨0, 6, 2, st [(R.PWR_DOM_STAT_PSTATE, 0, 2), (R.PWR_DOM_STAT_PSTATE, 2, 2), (R.PWR_DOM_STAT_PSTATE, 3, 2), (R.PWR_DOM_STAT_PSTATE, 4, 2), (R.PWR_DOM_STAT_PSTATE, 5, 2), (R.PWR_DOM_STAT_PSTATE, 1, 2)], by decide +kernel⟩

theorem wit_domRequest_1 : ∃ (t : Nat) (d : Fin 17) (v code unit : Nat) (s : State), ready s ∧ bits v 0 2 ≠ 3 ∧ s.chip.rg R.PWR_DOM_STAT_PSTATE d ≠ bits v 0 2 ∧ s.chip.pw.dom.find d = none ∧ s.chip.refuser d (bits v 0 2) = some (code, unit) ∧ code < 16 ∧ unit < 65536 ∧ s.chip.pw.wakes = [] ∧ s.chip.alm.load.prep = none :=
  ⟨0, 6, 2, 8, 0, st [(R.PWR_DOM_STAT_PSTATE, 6, 3)], by decide +kernel⟩

theorem wit_domRequest_2 : ∃ (t : Nat) (d : Fin 17) (v : Nat) (s : State), ready s ∧ bits v 0 2 = 3 :=
  ⟨0, 6, 3, State.reset, by decide +kernel⟩

theorem wit_domSupplyReady : ∃ (t : Nat) (d : Fin 17) (r : DomReq) (s : State), ready s ∧ s.chip.pw.dom.find d = some r ∧ r.step = 1 ∧ max s.chip.now t ≤ r.at_ + 2 * msPs :=
  ⟨6, 6, ⟨1, 2, 0, 5, false⟩, { st [(R.PWR_DOM_STAT_BUSY, 6, 1)] with chip.pw.dom := [(6, ⟨1, 2, 0, 5, false⟩)] }, by decide +kernel⟩

theorem wit_domPllLocked : ∃ (t : Nat) (d : Fin 17) (r : DomReq) (s : State), ready s ∧ s.chip.pw.dom.find d = some r ∧ r.step = 2 ∧ max s.chip.now t ≤ r.at_ + 20 * msPs :=
  ⟨6, 7, ⟨2, 2, 0, 5, false⟩, { st [(R.PWR_DOM_STAT_BUSY, 7, 1)] with chip.pw.dom := [(7, ⟨2, 2, 0, 5, false⟩)] }, by decide +kernel⟩

theorem wit_domIslandsOn : ∃ (t : Nat) (d : Fin 17) (r : DomReq) (s : State), ready s ∧ s.chip.pw.dom.find d = some r ∧ r.step = 3 ∧ s.chip.rg R.PWR_DOM_STAT_PEND_V d = 0 ∧ r.src = 1 ∧ (chipAt s t).boundPast r.at_ (100 * usPs) = false ∧ s.chip.pw.wakes = [] ∧ s.chip.alm.load.prep = none :=
  ⟨6, 6, ⟨3, 2, 1, 5, false⟩, { st [(R.PWR_DOM_STAT_BUSY, 6, 1), (R.PWR_DOM_STAT_PSTATE, 6, 1)] with chip.pw.dom := [(6, ⟨3, 2, 1, 5, false⟩)] }, by decide +kernel⟩

theorem wit_domAttemptFail : ∃ (t : Nat) (d : Fin 17) (r : DomReq) (s : State), ready s ∧ s.chip.pw.dom.find d = some r ∧ r.step = 1 ∧ r.at_ + 2 * msPs ≤ max s.chip.now t ∧ s.chip.rg R.PWR_DOM_STAT_ATTEMPT d < 3 ∧ r.src = 0 :=
  ⟨10 ^ 13, 6, ⟨1, 2, 0, 5, false⟩, { st [(R.PWR_DOM_STAT_BUSY, 6, 1)] with chip.pw.dom := [(6, ⟨1, 2, 0, 5, false⟩)] }, by decide +kernel⟩

theorem wit_domRetry : ∃ (t : Nat) (d : Fin 17) (r : DomReq) (s : State), ready s ∧ s.chip.pw.dom.find d = some r ∧ r.step = 6 ∧ s.chip.rg R.PWR_DOM_STAT_ATTEMPT d < 3 ∧ r.at_ + s.chip.retryDly d * 2 ^ s.chip.rg R.PWR_DOM_STAT_ATTEMPT d * msPs ≤ max s.chip.now t :=
  ⟨10 ^ 13, 6, ⟨6, 2, 0, 5, false⟩, { st [(R.PWR_DOM_STAT_BUSY, 6, 1)] with chip.pw.dom := [(6, ⟨6, 2, 0, 5, false⟩)] }, by decide +kernel⟩

theorem wit_domQuiet : ∃ (t : Nat) (d : Fin 17) (r : DomReq) (s : State), ready s ∧ s.chip.pw.dom.find d = some r ∧ r.step = 4 ∧ (chipAt s t).boundPast r.at_ (11 * usPs) = false ∧ d.val < 9 ∨ 12 < d.val :=
  ⟨6, 6, ⟨4, 0, 2, 5, false⟩, { st [(R.PWR_DOM_STAT_BUSY, 6, 1)] with chip.pw.dom := [(6, ⟨4, 0, 2, 5, false⟩)] }, by decide +kernel⟩

theorem wit_domEntryDone : ∃ (t : Nat) (d : Fin 17) (r : DomReq) (s : State), ready s ∧ s.chip.pw.dom.find d = some r ∧ r.step = 5 ∧ r.target < 2 ∧ r.latched = false ∧ (chipAt s t).boundPast r.at_ (2 * msPs) = false ∧ s.chip.rg R.PWR_DOM_STAT_PEND_V d = 0 ∧ s.chip.pw.wakes = [] ∧ s.chip.alm.load.prep = none :=
  ⟨6, 6, ⟨5, 1, 2, 5, false⟩, { st [(R.PWR_DOM_STAT_BUSY, 6, 1)] with chip.pw.dom := [(6, ⟨5, 1, 2, 5, false⟩)] }, by decide +kernel⟩

theorem wit_domEntryTimeout : ∃ (t : Nat) (d : Fin 17) (r : DomReq) (s : State), ready s ∧ s.chip.pw.dom.find d = some r ∧ r.step = 5 ∧ r.src ≠ 2 ∧ r.at_ + 2 * msPs ≤ max s.chip.now t ∧ s.chip.rg R.PWR_DOM_STAT_PEND_V d = 0 :=
  ⟨10 ^ 13, 6, ⟨5, 0, 1, 5, false⟩, { st [(R.PWR_DOM_STAT_BUSY, 6, 1)] with chip.pw.dom := [(6, ⟨5, 0, 1, 5, false⟩)] }, by decide +kernel⟩

theorem wit_domClear : ∃ (t : Nat) (d : Fin 17) (v : Nat) (s : State), ready s ∧ bit v 0 = true ∧ s.chip.rg R.PWR_DOM_STAT_PSTATE d = 3 ∧ d.val < 9 ∨ 12 < d.val :=
  ⟨0, 6, 1, st [(R.PWR_DOM_STAT_PSTATE, 6, 3), (R.PWR_STAT_FAILED, 0, 64)], by decide +kernel⟩

theorem wit_domClear_1 : ∃ (t : Nat) (d : Fin 17) (v : Nat) (s : State), ready s ∧ bit v 0 = true ∧ s.chip.rg R.PWR_DOM_STAT_PSTATE d = 3 :=
  ⟨0, 9, 1, st [(R.PWR_DOM_STAT_PSTATE, 9, 3), (R.PWR_STAT_FAILED, 0, 512)], by decide +kernel⟩

theorem wit_domClear_2 : ∃ (t : Nat) (d : Fin 17) (v : Nat) (s : State), ready s ∧ bit v 0 = true ∧ s.chip.rg R.PWR_DOM_STAT_PSTATE d ≠ 3 :=
  ⟨0, 6, 1, State.reset, by decide +kernel⟩

/-! Witnesses of `WakeAndIslandCommands`. -/

theorem wit_wakeSet : ∃ (t : Nat) (s : State), ready s ∧ True :=
  ⟨0, State.reset, by decide +kernel⟩

theorem wit_wakeSet_1 : ∃ (t : Nat) (s : State), ready s ∧ s.chip.pw.wakes = [] ∧ s.chip.alm.load.prep = none ∧ s.chip.rg R.PWR_DOM_STAT_PSTATE 6 = 0 ∧ s.chip.pw.dom.find 6 = none ∧ (domParents 6).all (fun e => s.chip.domOn e) = true :=
  ⟨0, st [(R.PWR_DOM_STAT_PSTATE, 0, 2), (R.PWR_DOM_STAT_PSTATE, 1, 2), (R.PWR_DOM_STAT_PSTATE, 2, 2), (R.PWR_DOM_STAT_PSTATE, 3, 2), (R.PWR_DOM_STAT_PSTATE, 4, 2), (R.PWR_DOM_STAT_PSTATE, 5, 2)], by decide +kernel⟩

theorem wit_wakePin : ∃ (t : Nat) (i : Fin 4) (width : Nat) (s : State), ready s ∧ (s.chip.rg R.PWR_WAKE_CFG_MINW i ≤ width) ∧ s.chip.rbit R.PWR_WAKE_STAT_LEVEL 0 i = false ∧ s.chip.rbit R.PWR_WAKE_STAT_MASKED 0 i = false ∧ s.chip.pw.pinAt.find i = none ∧ s.chip.rg R.PWR_WAKE_CFG_EN i = 0 :=
  ⟨5, 1, 2000, st [(R.PWR_WAKE_CFG_EN, 1, 0)], by decide +kernel⟩

theorem wit_wakePin_1 : ∃ (t : Nat) (i : Fin 4) (width : Nat) (s : State), ready s ∧ (s.chip.rg R.PWR_WAKE_CFG_MINW i ≤ width) ∧ s.chip.rbit R.PWR_WAKE_STAT_LEVEL 0 i = false ∧ s.chip.rbit R.PWR_WAKE_STAT_MASKED 0 i = false ∧ s.chip.pw.pinAt.find i = none ∧ s.chip.rg R.PWR_WAKE_CFG_EN i = 1 ∧ s.chip.rg R.PWR_WAKE_CFG_RESTART i = 1 ∧ s.chip.rg R.PWR_STAT_COMPLETE 0 = 1 :=
  ⟨5, 1, 2000, st [(R.PWR_WAKE_CFG_EN, 1, 1), (R.PWR_WAKE_CFG_RESTART, 1, 1), (R.PWR_STAT_COMPLETE, 0, 1)], by decide +kernel⟩

theorem wit_wakePin_2 : ∃ (t : Nat) (i : Fin 4) (width : Nat) (s : State), ready s ∧ width < s.chip.rg R.PWR_WAKE_CFG_MINW i :=
  ⟨5, 1, 0, st [(R.PWR_WAKE_CFG_MINW, 1, 1)], by decide +kernel⟩

theorem wit_wakePinStuck : ∃ (t : Nat) (i : Fin 4) (s : State), ready s ∧ s.chip.rbit R.PWR_WAKE_STAT_LEVEL 0 i = true ∧ Tab.get 0 s.chip.pw.pinOn i + s.chip.rg R.PWR_WAKE_CFG_STUCK i * secPs ≤ max s.chip.now t :=
  ⟨10 ^ 18, 1, st [(R.PWR_WAKE_STAT_LEVEL, 0, 2)], by decide +kernel⟩

theorem wit_wakePinInactive : ∃ (t : Nat) (i : Fin 4) (s : State), ready s ∧ True :=
  ⟨0, 1, st [(R.PWR_WAKE_STAT_LEVEL, 0, 2)], by decide +kernel⟩

theorem wit_islandHold : ∃ (t : Nat) (b : Fin 32) (v : Nat) (s : State), ready s ∧ s.chip.islandUnit b false = none ∧ s.chip.islandUnit b true = none :=
  ⟨0, 3, 1, State.reset, by decide +kernel⟩

theorem wit_islandHold_1 : ∃ (t : Nat) (b : Fin 32) (v unit : Nat) (s : State), ready s ∧ bit v 0 = true ∧ s.chip.rg R.PWR_ISL_HOLD_HOLD_P b = 0 ∧ s.chip.islandUnit b false = some unit ∧ unit < 65536 :=
  ⟨0, 0, 1, 0, { st [(R.PRT_STAT_LINK, 0, 1)] with pending := [] }, by decide +kernel⟩

theorem wit_islandRetry : ∃ (t : Nat) (i : Fin 81) (ok : Bool) (s : State), ready s ∧ Tab.get 0 s.chip.pw.islTry i = 0 :=
  ⟨0, 3, true, State.reset, by decide +kernel⟩

theorem wit_islandRetry_1 : ∃ (t : Nat) (i : Fin 81) (s : State), ready s ∧ 1 ≤ Tab.get 0 s.chip.pw.islTry i ∧ i.val < 64 ∧ s.chip.domOn (islandDom i) = true ∧ Tab.get 0 s.chip.pw.islAt i + s.chip.retryDly (islandDom i) * 2 ^ (Tab.get 0 s.chip.pw.islTry i - 1) * msPs ≤ max s.chip.now t :=
  ⟨10 ^ 13, 2, { st [(R.PWR_DOM_STAT_PSTATE, 9, 2)] with chip.pw.islTry := [(2, 1)] }, by decide +kernel⟩

/-! Witnesses of `OperatingPointCommands`. -/

theorem wit_opCapSet : ∃ (t : Nat) (n : Fin 4) (r : OpReq) (s : State), ready s ∧ s.chip.pw.op.find n = some r ∧ r.step = 1 ∧ (chipAt s t).boundPast r.at_ (usPs) = false :=
  ⟨0, 1, ⟨some 2, 800, 400, 1, 700, 5⟩, { State.reset with chip.pw.op := [(1, ⟨some 2, 800, 400, 1, 700, 5⟩)] }, by decide +kernel⟩

theorem wit_opVoltReady : ∃ (t : Nat) (n : Fin 4) (r : OpReq) (s : State), ready s ∧ s.chip.pw.op.find n = some r ∧ r.step = 2 ∧ max s.chip.now t ≤ r.at_ + 2 * msPs ∧ s.chip.rg R.PWR_RGN_STAT_CAP n < r.cap :=
  ⟨0, 1, ⟨some 2, 800, 400, 2, 700, 5⟩, { st [(R.PWR_RGN_STAT_CAP, 1, 300)] with chip.pw.op := [(1, ⟨some 2, 800, 400, 2, 700, 5⟩)] }, by decide +kernel⟩

theorem wit_opVoltTimeout : ∃ (t : Nat) (n : Fin 4) (r : OpReq) (s : State), ready s ∧ s.chip.pw.op.find n = some r ∧ r.step = 2 ∧ r.at_ + 2 * msPs ≤ max s.chip.now t ∧ s.chip.pw.opPend.find n = none :=
  ⟨10 ^ 13, 1, ⟨some 2, 800, 400, 2, 700, 5⟩, { State.reset with chip.pw.op := [(1, ⟨some 2, 800, 400, 2, 700, 5⟩)] }, by decide +kernel⟩

theorem wit_rgnManRequest : ∃ (t : Nat) (n : Fin 4) (s : State), ready s ∧ s.chip.rg R.TRK_MODE_CODE 0 = 9 ∧ s.chip.rg R.PWR_RGN_STAT_CAP n ≤ s.chip.capMax n (s.chip.rg R.PWR_RGN_STAT_VOLT_MV n) ∧ s.chip.rg R.HLT_PACE_REQ_REQ n ≤ s.chip.rg R.PWR_RGN_STAT_CAP n :=
  ⟨0, 1, st [(R.TRK_MODE_CODE, 0, 9), (R.PWR_RGN_STAT_CAP, 1, 0), (R.HLT_PACE_REQ_REQ, 1, 0)], by decide +kernel⟩

theorem wit_rgnManRequest_1 : ∃ (t : Nat) (n : Fin 4) (v : Nat) (s : State), ready s ∧ s.chip.rg R.TRK_MODE_CODE 0 ≠ 9 :=
  ⟨0, 1, 5, State.reset, by decide +kernel⟩

theorem wit_thermalCheck : ∃ (t : Nat) (temps : List (Option Int)) (j : Fin 7) (s : State), ready s ∧ (chipAt s t).spanOver s.chip.pw.thermAt (10 * msPs) = true :=
  ⟨0, [some 400], 0, State.reset, by decide +kernel⟩

theorem wit_thermalEventide : ∃ (t : Nat) (a : Nat) (s : State), ready s ∧ s.chip.pw.hotAt = some a ∧ a + 100 * msPs ≤ max s.chip.now t ∧ 1 ≤ s.chip.rg R.TRK_MODE_CODE 0 ∧ s.chip.rg R.TRK_MODE_CODE 0 ≤ 9 :=
  ⟨10 ^ 13, 5, { st [(R.TRK_MODE_CODE, 0, 5)] with chip.pw.hotAt := some 5 }, by decide +kernel⟩

theorem wit_thermTrip : ∃ (t : Nat) (sn : Fin 6) (s : State), ready s ∧ True :=
  ⟨0, 1, st [(R.PWR_DOM_STAT_PSTATE, 2, 2), (R.PWR_DOM_STAT_PSTATE, 6, 2)], by decide +kernel⟩

/-! Witnesses of `EventideAndSelftestCommands`. -/

theorem wit_eventideQuiesced : ∃ (t : Nat) (s : State), ready s ∧ s.chip.pw.evStep = 1 ∧ s.chip.up.dyingSent = true :=
  ⟨0, { State.reset with chip.pw.evStep := 1, chip.up.dyingSent := true }, by decide +kernel⟩

theorem wit_eventideQuiesced_1 : ∃ (t : Nat) (b : List Byte) (s : State), ready s ∧ s.chip.pw.evStep = 1 ∧ s.chip.up.dyingSent = true :=
  ⟨0, [1], { State.reset with chip.pw.evStep := 1, chip.up.dyingSent := true }, by decide +kernel⟩

theorem wit_eventideArchived : ∃ (t : Nat) (s : State), ready s ∧ s.chip.pw.evStep = 2 ∧ ∀ k : Fin 4, s.chip.rg R.HST_SESS_STAT_STATE k ≤ 2 :=
  ⟨0, { stSess with chip.pw.evStep := 2 }, by decide +kernel⟩

theorem wit_eventideScanEnabled : ∃ (t : Nat) (s : State), ready s ∧ s.chip.pw.evStep = 3 ∧ s.chip.rg R.SEC_STAT_SCAN_EN 0 = 1 :=
  ⟨0, { st [(R.SEC_STAT_SCAN_EN, 0, 1)] with chip.pw.evStep := 3 }, by decide +kernel⟩

theorem wit_eventideSelftestDone : ∃ (t : Nat) (fail : Nat) (s : State), ready s ∧ s.chip.pw.evStep = 4 :=
  ⟨0, 1, { st [(R.SEC_STAT_SCAN_EN, 0, 1)] with chip.pw.evStep := 4 }, by decide +kernel⟩

theorem wit_eventideRecordWritten : ∃ (t : Nat) (s : State), ready s ∧ s.chip.pw.evStep = 5 ∧ s.chip.pw.evCheck = true ∧ max s.chip.now t ≤ s.chip.pw.evAt + 500 * msPs :=
  ⟨0, { State.reset with chip.pw.evStep := 5, chip.pw.evCheck := true }, by decide +kernel⟩

theorem wit_eventideRecordWritten_1 : ∃ (t : Nat) (s : State), ready s ∧ s.chip.pw.evStep = 5 ∧ s.chip.pw.evCheck = false ∧ max s.chip.now t ≤ s.chip.pw.evAt + 500 * msPs :=
  ⟨0, { State.reset with chip.pw.evStep := 5 }, by decide +kernel⟩

theorem wit_selfcheckDone : ∃ (t : Nat) (clear : Bool) (s : State), ready s ∧ s.chip.rg R.TRK_MODE_CODE 0 = 1 ∧ s.chip.pw.evCheck = false ∧ (chipAt s t).stValid s.mem (s.mem.flashRead (s.chip.archBase s.mem) 320) = false ∧ s.chip.rg R.HLT_ST_CFG_FULL_ON_MISS 0 = 0 ∧ s.chip.rg R.TRK_GUARD_STAT_QUAR 0 = 0 :=
  ⟨0, true, st [(R.TRK_MODE_CODE, 0, 1), (R.HLT_ST_CFG_FULL_ON_MISS, 0, 0)], by decide +kernel⟩

/-! Witnesses of `WearSwapAndUnitCommands`. -/

theorem wit_wearUpdate : ∃ (t : Nat) (w : Fin 515) (val aux : Nat) (s : State), ready s ∧ (chipAt s t).spanOver (s.chip.pw.wearAt.find w) (60 * secPs) = true ∧ val < 2 ^ 32 ∧ aux < 2 ^ 32 :=
  ⟨0, 5, 7, 9, State.reset, by decide +kernel⟩

theorem wit_swapGo : ∃ (t : Nat) (v sp : Nat) (s : State), ready s ∧ s.chip.domOn 2 = true ∧ bit v 16 = true ∧ bits v 0 10 < 515 ∧ s.chip.rg R.HLT_SWAP_STAT_STATE 0 = 0 ∧ s.chip.swapFor (bits v 0 10) = some sp ∧ wearKind (bits v 0 10) = 3 ∧ s.chip.rg R.TRK_MODE_CODE 0 ≠ 8 ∧ s.chip.rg R.TRK_MODE_CODE 0 ≠ 11 :=
  ⟨0, 65536 + 352, 368, st [(R.HLT_SPARE_CHIP_TRK_ENG, 0, 1), (R.PWR_DOM_STAT_PSTATE, 8, 2)], by decide +kernel⟩

theorem wit_swapGo_1 : ∃ (t : Nat) (v : Nat) (s : State), ready s ∧ s.chip.domOn 2 = true ∧ bit v 16 = true ∧ 515 ≤ bits v 0 10 ∨ s.chip.rg R.HLT_SWAP_STAT_STATE 0 ≠ 0 ∨ s.chip.swapFor (bits v 0 10) = none :=
  ⟨0, 65536 + 1000, State.reset, by decide +kernel⟩

theorem wit_swapShadowDone : ∃ (t : Nat) (s : State), ready s ∧ s.chip.rg R.HLT_SWAP_STAT_STATE 0 = 1 ∧ s.chip.pw.swapKind = 3 ∧ (s.chip.policy 3).2.2 ≤ s.chip.rg R.HLT_SWAP_STAT_OCTAVES 0 ∧ s.chip.rg R.HLT_SPARE_CHIP_TRK_ENG 0 = 1 ∧ s.chip.txnFree ≠ none :=
  ⟨0, { st [(R.HLT_SWAP_STAT_STATE, 0, 1), (R.HLT_SWAP_STAT_OCTAVES, 0, 8), (R.HLT_SPARE_CHIP_TRK_ENG, 0, 1)] with chip.pw.swapKind := 3 }, by decide +kernel⟩

theorem wit_swapSlotTimeout : ∃ (t : Nat) (a : Nat) (s : State), ready s ∧ s.chip.pw.swapWait = some a ∧ a + secPs ≤ max s.chip.now t ∧ s.chip.rg R.HLT_SWAP_STAT_STATE 0 = 1 ∧ s.chip.pw.swapKind = 3 :=
  ⟨10 ^ 13, 5, { st [(R.HLT_SWAP_STAT_STATE, 0, 1)] with chip.pw.swapKind := 3, chip.pw.swapWait := some 5 }, by decide +kernel⟩

theorem wit_spareCopyDone : ∃ (t : Nat) (s : State), ready s ∧ s.chip.rg R.HLT_SWAP_STAT_STATE 0 = 1 ∧ s.chip.pw.swapKind = 9 :=
  ⟨0, { st [(R.HLT_SWAP_STAT_STATE, 0, 1)] with chip.pw.swapKind := 9 }, by decide +kernel⟩

theorem wit_memScrubPass : ∃ (t : Nat) (corr ppr : Nat) (s : State), ready s ∧ (chipAt s t).ddrOk = true ∧ s.chip.rg R.MEM_DDR_CFG_SCRUB_H 0 ≠ 0 ∧ s.chip.pw.scrubAt + s.chip.rg R.MEM_DDR_CFG_SCRUB_H 0 * 3600 * secPs ≤ max s.chip.now t :=
  ⟨10 ^ 17, 3, 1, st [(R.PWR_DOM_STAT_PSTATE, 4, 2), (R.MEM_DDR_STAT_TRAINED, 0, 1), (R.MEM_DDR_CFG_SCRUB_H, 0, 24)], by decide +kernel⟩

theorem wit_memScrubPass_1 : ∃ (t : Nat) (corr ppr : Nat) (bad : Option Nat) (s : State), ready s ∧ (chipAt s t).ddrOk = false ∨ s.chip.rg R.MEM_DDR_CFG_SCRUB_H 0 = 0 :=
  ⟨0, 3, 1, some 7, State.reset, by decide +kernel⟩

theorem wit_engineLost : ∃ (t : Nat) (e : Fin 17) (s : State), ready s ∧ bit s.chip.st.engLost e = false :=
  ⟨0, 16, st [(R.HLT_SPARE_CHIP_TRK_ENG, 0, 1)], by decide +kernel⟩

theorem wit_chipUnit : ∃ (t : Nat) (i : Nat) (s : State), ready s ∧ True :=
  ⟨0, 0, st [(R.MEM_DDR_STAT_TRAINED, 0, 1)], by decide +kernel⟩

/-! Witnesses of `SupplyAndResetCommands`. -/

theorem wit_vaux3Up : ∃ (t : Nat) (s : State), s.chip.mout = [] ∧ s.chip.el.phase = 0 :=
  ⟨0, { State.reset with chip.el.phase := 0 }, by decide +kernel⟩

theorem wit_regulatorsStart : ∃ (t : Nat) (s : State), s.chip.mout = [] ∧ s.chip.el.phase = 1 :=
  ⟨0, { State.reset with chip.el.phase := 1 }, by decide +kernel⟩

theorem wit_pwrGoodRelease : ∃ (t : Nat) (s : State), s.chip.mout = [] ∧ s.chip.el.phase = 2 ∧ max s.chip.now t ≤ s.chip.el.at_ + 40 * msPs :=
  ⟨0, { State.reset with chip.el.phase := 2 }, by decide +kernel⟩

theorem wit_regulatorTimeout : ∃ (t : Nat) (s : State), s.chip.mout = [] ∧ s.chip.el.phase = 2 ∧ s.chip.el.at_ + 40 * msPs < max s.chip.now t :=
  ⟨10 ^ 13, { State.reset with chip.el.phase := 2 }, by decide +kernel⟩

theorem wit_regulatorRetry : ∃ (t : Nat) (s : State), s.chip.mout = [] ∧ s.chip.el.phase = 3 ∧ s.chip.el.at_ + secPs ≤ max s.chip.now t :=
  ⟨10 ^ 13, { State.reset with chip.el.phase := 3 }, by decide +kernel⟩

theorem wit_coldResetDone : ∃ (t : Nat) (s : State), s.chip.mout = [] ∧ s.chip.el.phase = 4 ∧ s.chip.el.at_ + msPs ≤ max s.chip.now t ∧ s.chip.el.cause < 16 :=
  ⟨10 ^ 13, { State.reset with chip.el.phase := 4 }, by decide +kernel⟩

theorem wit_warmReset : ∃ (t : Nat) (low : Nat) (s : State), s.chip.mout = [] ∧ s.chip.el.phase = 5 ∧ 10 ≤ low ∧ s.chip.sec.fuseOp = none ∧ s.chip.sec.flashOp = none :=
  ⟨0, 10, { stSess with chip := ((stSess.chip.wg R.PWR_DOM_STAT_PSTATE 9 2).wg R.TRK_MODE_CODE 0 5).wg R.SEC_ALARM_STAT_ACTIVE 0 8 }, by decide +kernel⟩

theorem wit_vin12Loss : ∃ (t : Nat) (s : State), s.chip.mout = [] ∧ 2 ≤ s.chip.el.phase ∧ s.chip.sec.fuseOp = none ∧ s.chip.sec.flashOp = none :=
  ⟨0, st [(R.TRK_GUARD_STAT_QUAR, 0, 1), (R.TRK_MODE_CODE, 0, 5), (R.SEC_ALARM_STAT_RELEASE, 0, 8)], by decide +kernel⟩

theorem wit_pwrEnLow : ∃ (t : Nat) (s : State), s.chip.mout = [] ∧ 2 ≤ s.chip.el.phase ∧ s.chip.sec.fuseOp = none ∧ s.chip.sec.flashOp = none :=
  ⟨0, st [(R.TRK_GUARD_STAT_QUAR, 0, 1), (R.TRK_MODE_CODE, 0, 5), (R.SEC_ALARM_STAT_RELEASE, 0, 8)], by decide +kernel⟩

theorem wit_vin12Removed : ∃ (t : Nat) (s : State), s.chip.mout = [] ∧ 2 ≤ s.chip.el.phase ∧ s.chip.sec.fuseOp = none ∧ s.chip.sec.flashOp = none :=
  ⟨0, st [(R.TRK_GUARD_STAT_QUAR, 0, 1), (R.TRK_MODE_CODE, 0, 5), (R.SEC_ALARM_STAT_RELEASE, 0, 8)], by decide +kernel⟩

theorem wit_vaux3Loss : ∃ (t : Nat) (s : State), s.chip.mout = [] ∧ 1 ≤ s.chip.el.phase ∧ s.chip.sec.fuseOp = none ∧ s.chip.sec.flashOp = none :=
  ⟨0, st [(R.TRK_GUARD_STAT_QUAR, 0, 1), (R.TRK_MODE_CODE, 0, 5), (R.SEC_ALARM_STAT_RELEASE, 0, 8)], by decide +kernel⟩

/-! Witnesses of `StepRunsFrontCommand`. -/

/-! Witnesses of `StepIdlesOnEmptyQueue`. -/

theorem wit_StepIdlesOnEmptyQueue : State.reset.pending = [] := by decide +kernel

/-! Witnesses of `EveryCommandAnswersAndKeepsTheQueue`. -/

/-! Witnesses of `EveryStepKeepsTheMachineSound`. -/

theorem wit_EveryStepKeepsTheMachineSound : (State.reset.mem.wf = true ∧ State.reset.chip.mout = []) ∧ step State.reset = .next State.reset := ⟨by decide +kernel, rfl⟩

/-! Witnesses of `ResetIsSound`. -/

/-! Witnesses of `StoppedTerminalOnlyLetsTimePass`. -/

theorem wit_StoppedTerminalOnlyLetsTimePass : ∃ (c : Instr) (s : State), boardCommand c = false ∧ s.chip.running = false :=
  ⟨.schedTick 0, { State.reset with chip.pw.tripped := true }, by decide +kernel⟩

/-! Witnesses of `CoresActOnlyWhileCtrlIsOn`. -/

theorem wit_CoresActOnlyWhileCtrlIsOn : ∃ (c : Instr) (s : State), coreCommand c = true ∧ ready s ∧ s.chip.domOn 2 = false :=
  ⟨.schedTick 0, st [(R.PWR_DOM_STAT_PSTATE, 2, 0)], by decide +kernel⟩

/-! Witnesses of `DomainOffRefused`. -/

theorem wit_DomainOffRefused : ∃ (c : Instr) (d : Nat) (s : State), writeDomain c = some d ∧ ready s ∧ s.chip.domOn d = false :=
  ⟨.loopSet 0 40 0, 10, State.reset, by decide +kernel⟩

/-! Witnesses of `RegisterWriteNeedsItsRight`. -/

theorem wit_RegisterWriteNeedsItsRight : ∃ (t : Nat) (who : Fin 20) (a : Nat) (s : State), ready s ∧ who.val < 4 ∧ ((chipAt s t).mayWrite who a ≠ stOk ∨ (chipAt s t).reach a ≠ stOk) :=
  ⟨0, 0, 0xA000C, State.reset, by decide +kernel⟩

theorem wit_RegisterWriteNeedsItsRight_reach : ∃ (t : Nat) (who : Fin 20) (a : Nat) (s : State), ready s ∧ who.val < 4 ∧ (chipAt s t).mayWrite who a = stOk ∧ (chipAt s t).reach a ≠ stOk :=
  ⟨0, 0, 0xA000E, stSess, by decide +kernel⟩

/-! Witnesses of `AlarmErasesEveryKeyStore`. -/

theorem wit_AlarmErasesEveryKeyStore : ∃ (mask : Nat) (n : Fin 8) (s : State), ready s ∧ bit mask n = true ∧ n.val ≠ 3 ∧ n.val ≠ 4 ∧ s.chip.rbit R.SEC_ALARM_STAT_ACTIVE 0 n = false ∧ (∀ k : Fin 4, s.chip.rg R.HST_SESS_STAT_STATE k ≤ 2) :=
  ⟨0xFF, 7, stSess, by decide +kernel⟩

/-! Witnesses of `CounterReadCapturesItsHighWord`. -/

theorem wit_CounterReadCapturesItsHighWord : ∃ (a : Nat) (s : State), ready s ∧ ctrLive a = true ∧ measuredCtrs.all (fun m => (m.instAt a).isNone) = true ∧ ¬(0x130000 ≤ a ∧ a < 0x140000) :=
  ⟨C.TRK_DS_HDR_GOOD.base, State.reset, by decide +kernel⟩

theorem wit_CounterReadCapturesItsHighWord_hi : ∃ (t a hi : Nat) (l : List Byte) (q : ZcpMsg) (s : State), ready s ∧ ctrLive a = true ∧ a < 0x80000000 ∧ requestOk (chipAt s t) l q 1 ∧ q.body = beBytes 6 (a + 4) ++ beBytes 2 1 ∧ (chipAt s t).mayRead (zcpSess l) (a + 4) = stOk ∧ (chipAt s t).reach (a + 4) = stOk ∧ (chipAt s t).readHeld (a + 4) = false ∧ s.chip.cap.find (a + 4) = some hi :=
  ⟨0, C.TRK_DS_HDR_GOOD.base, 7, hf 1 (beBytes 6 (C.TRK_DS_HDR_GOOD.base + 4) ++ beBytes 2 1), hm 1 (beBytes 6 (C.TRK_DS_HDR_GOOD.base + 4) ++ beBytes 2 1), { stSess with chip.cap := [(C.TRK_DS_HDR_GOOD.base + 4, 7)] }, by decide +kernel, by decide +kernel, by decide +kernel, hf_ok { stSess with chip.cap := [(C.TRK_DS_HDR_GOOD.base + 4, 7)] } 1 (beBytes 6 (C.TRK_DS_HDR_GOOD.base + 4) ++ beBytes 2 1) (by decide +kernel) (by decide +kernel), by decide +kernel⟩

/-! Witnesses of `HandoverWindowOpensAndCloses`. -/

theorem wit_HandoverWindowOpensAndCloses : ∃ s : State, ready s :=
  ⟨{ State.reset with chip.alm.window := true }, by decide +kernel⟩

/-! Witnesses of `ResetLeavesAssemblyAndBootDomains`. -/

end Sys2Proof.Tests
end

section
/-! PROOFS. What the event update of HST_EVT_PEND, the bookkeeping of a ZCP request and its response leave (11_host_control_and_dma.md R330,
R331, R337, R347). -/

namespace Sys2Proof.Machine

open Sys2Proof Sys2Proof.Safety

/-! ## The books: counters, sessions, and the record of events -/

/-- The chip with other counters, sessions, HST_EVT_PEND as last seen, latched sources and pulse of the cores. -/
def Chip.books (c : Chip) (cnt : Tab Nat) (ss : Tab Sess) (pend : Nat) (due : List Nat) (pulse : Bool) : Chip :=
  { c with cnt := cnt, hp := { c.hp with sess := ss, pend := pend }, mc := { c.mc with srcDue := due, pulse := pulse } }

/-- `d` is `c` but for those books. -/
def Chip.Booked (c d : Chip) : Prop := ∃ cnt ss pend due pulse, d = c.books cnt ss pend due pulse

theorem Chip.Booked.refl (c : Chip) : c.Booked c := ⟨c.cnt, c.hp.sess, c.hp.pend, c.mc.srcDue, c.mc.pulse, rfl⟩

theorem Chip.Booked.trans {c d e : Chip} (h : c.Booked d) (g : d.Booked e) : c.Booked e := by
  obtain ⟨_, _, _, _, _, rfl⟩ := h
  obtain ⟨cnt, ss, pend, due, pulse, rfl⟩ := g
  exact ⟨cnt, ss, pend, due, pulse, rfl⟩

/-- A reading that does not look at the books is the same of both. -/
theorem Chip.Booked.read {α : Type} {c d : Chip} (h : c.Booked d) (f : Chip → α)
    (hf : ∀ cnt ss pend due pulse, f (c.books cnt ss pend due pulse) = f c) : f d = f c := by
  obtain ⟨_, _, _, _, _, rfl⟩ := h
  exact hf ..

/-- An operation that leaves the books alone acts the same on both. -/
theorem Chip.Booked.map {c d : Chip} (h : c.Booked d) (f : Chip → Chip)
    (hf : ∀ cnt ss pend due pulse, f (c.books cnt ss pend due pulse) = (f c).books cnt ss pend due pulse) : (f c).Booked (f d) := by
  obtain ⟨cnt, ss, pend, due, pulse, rfl⟩ := h
  exact ⟨cnt, ss, pend, due, pulse, hf ..⟩

theorem Chip.Booked.foldl {α : Type} (f : Chip → α → Chip) (hf : ∀ (d : Chip) (x : α), d.Booked (f d x)) (l : List α) (c : Chip) :
    c.Booked (l.foldl f c) := by
  induction l generalizing c with
  | nil => exact .refl c
  | cons x l ih => exact (hf c x).trans (ih (f c x))

theorem Chip.incBy_booked (c : Chip) (k : Ctr) (i n : Nat) : c.Booked (c.incBy k i n) :=
  ⟨_, c.hp.sess, c.hp.pend, c.mc.srcDue, c.mc.pulse, rfl⟩

theorem Chip.setSess_booked (c : Chip) (s : Nat) (x : Sess) : c.Booked (c.setSess s x) :=
  ⟨c.cnt, _, c.hp.pend, c.mc.srcDue, c.mc.pulse, rfl⟩

theorem Chip.srcEvent_booked (c : Chip) (n : Nat) : c.Booked (c.srcEvent n) := by
  unfold Chip.srcEvent
  split
  · exact .refl c
  · exact ⟨c.cnt, c.hp.sess, c.hp.pend, _, c.mc.pulse, rfl⟩

/-! ## A session slot -/

@[simp] theorem Chip.sess_setSess (c : Chip) (s : Nat) (x : Sess) : (c.setSess s x).sess s = x := Tab.get_set_same ..

theorem Chip.sess_setSess_other (c : Chip) (s k : Nat) (x : Sess) (h : s ≠ k) : (c.setSess s x).sess k = c.sess k :=
  Tab.get_set_other _ _ _ _ _ h

@[simp] theorem Chip.sess_incBy (c : Chip) (k : Ctr) (i n s : Nat) : (c.incBy k i n).sess s = c.sess s := (rfl)

@[simp] theorem Chip.sess_srcEvent (c : Chip) (n s : Nat) : (c.srcEvent n).sess s = c.sess s := by
  unfold Chip.srcEvent
  split <;> rfl

/-! ## The event update (R347) -/

/-- The event update changes the record of events and marks rises for sessions. -/
theorem Chip.evtUpdate_booked (c : Chip) : c.Booked c.evtUpdate := by
  have noted (up : Nat) (d : Chip) : d.Booked (forN 4 (fun s d =>
      if d.sessOpen s ∧ d.rb R.HST_SESS_CFG_EVT_SUB s = true ∧ up &&& d.rg R.HST_SESS_CFG_EVT_MASK s ≠ 0 then
        d.setSess s { d.sess s with rose := true } else d) d) := by
    refine Chip.Booked.foldl _ (fun e s => ?_) _ d
    dsimp only
    split
    · exact e.setSess_booked ..
    · exact .refl e
  have sources (up : Nat) (d : Chip) : d.Booked ((List.range 16).foldl (fun (d : Chip) u => if bit up u then d.srcEvent (33 + u) else d) d) := by
    refine Chip.Booked.foldl _ (fun e u => ?_) _ d
    split
    · exact e.srcEvent_booked ..
    · exact .refl e
  exact ((noted _ c).trans (sources _ _)).trans ⟨_, _, _, _, false, rfl⟩

/-- What a session holds beside its mark of a rise is kept by the event update. -/
theorem Chip.evtUpdate_sess (c : Chip) (k : Nat) : ∃ b, c.evtUpdate.sess k = { c.sess k with rose := b } := by
  have unmarked : { c.evtUpdate.sess k with rose := false } = { c.sess k with rose := false } := by
    refine (foldl_keeps _ (fun d : Chip => { d.sess k with rose := false }) (fun d u => ?_) (List.range 16) _).trans
      (forN_keeps 4 _ (fun d : Chip => { d.sess k with rose := false }) (fun s d => ?_) c)
    · dsimp only
      split <;> simp only [Chip.sess_srcEvent]
    · dsimp only
      split
      · by_cases h : s = k
        · subst h; simp only [Chip.sess_setSess]
        · rw [Chip.sess_setSess_other _ _ _ _ h]
      · rfl
  exact ⟨(c.evtUpdate.sess k).rose, congrArg (fun x : Sess => { x with rose := (c.evtUpdate.sess k).rose }) unmarked⟩

end Sys2Proof.Machine
end

section
/-! PROOFS. A ZCP request that its session accepts and begins at once (11_host_control_and_dma.md R319, R330, R331, R337): the chip on which it
begins, and what its response leaves. -/

namespace Sys2Proof.Machine

open Sys2Proof Sys2Proof.Safety

/-! ## A request is taken and answered (R330, R331, R337) -/

/-- The request in a message. -/
def ZcpMsg.req (q : ZcpMsg) : Req := { typ := q.typ, flags := q.flags, tag := q.tag, body := q.body }

/-- What two states of a session slot share when a response reads the same of both: the peer, the keys, the rights and the last SEQ sent. -/
def Sess.Alike (x y : Sess) : Prop := y.peer = x.peer ∧ y.keys = x.keys ∧ y.rights = x.rights ∧ y.txSeq = x.txSeq

/-- `d` answers a request of session `s` at once, and as `c` would: its port is clear, nothing waits there, the session is open and what
a response is made of is that of `c`. -/
structure Chip.AnswersAs (c d : Chip) (s : Nat) : Prop where
  clear : d.hostClear = true
  empty : d.hp.txWait = []
  isOpen : d.sessOpen s = true
  mac : d.hostMac = c.hostMac
  alike : (c.sess s).Alike (d.sess s)

/-- The frame that a session sends next depends on the address of the port and on what alike slots share. -/
theorem Chip.zcpOutput_alike {c d : Chip} {s : Nat} (hm : d.hostMac = c.hostMac) (h : (c.sess s).Alike (d.sess s))
    (typ flags tag st index detail : Nat) (body : List Byte) :
    d.zcpOutput s typ flags tag st index detail body = c.zcpOutput s typ flags tag st index detail body := by
  obtain ⟨hp, hk, -, ht⟩ := h
  simp only [Chip.zcpOutput, Chip.zcpSeal, Chip.zcpHead, hm, hp, hk, ht]

/-- The open session of a frame that opens. -/
theorem Chip.sessOpen_of_zcpOpens {c : Chip} {l : List Byte} {q : ZcpMsg} (h : c.zcpOpens l = some q) :
    zcpForm 1 l = true ∧ c.sessOpen (zcpSess l) = true := by
  simp only [Chip.zcpOpens] at h
  split at h
  · rename_i hc; exact ⟨hc.1, hc.2.1⟩
  · cases h

/-- A protected frame is no clear one. -/
theorem zcpForm_zero_of_one {l : List Byte} (h : zcpForm 1 l = true) : zcpForm 0 l = false := by
  simp only [zcpForm, decide_eq_true_eq, decide_eq_false_iff_not] at h ⊢
  omega

/-- The event update leaves a request as acceptable as it was. -/
theorem requestOk_evtUpdate {c : Chip} {l : List Byte} {q : ZcpMsg} {typ : Nat} (h : requestOk c l q typ) : requestOk c.evtUpdate l q typ := by
  obtain ⟨b, hb⟩ := c.evtUpdate_sess (zcpSess l)
  have read := fun {α : Type} => c.evtUpdate_booked.read (α := α)
  have hopens : c.evtUpdate.zcpOpens l = c.zcpOpens l := by
    have ho : c.evtUpdate.sessOpen (zcpSess l) = c.sessOpen (zcpSess l) := read (·.sessOpen (zcpSess l)) (fun _ _ _ _ _ => rfl)
    simp only [Chip.zcpOpens, hb, ho]
  have hclear : c.evtUpdate.hostClear = c.hostClear := read (·.hostClear) (fun _ _ _ _ _ => rfl)
  have hwait : c.evtUpdate.hp.txWait = c.hp.txWait := read (·.hp.txWait) (fun _ _ _ _ _ => rfl)
  simpa only [requestOk, hclear, hwait, hopens, hb, Sess.fresh] using h

/-- A frame for ZCP and its message are counted. -/
def Chip.zcpCounted (c : Chip) (l : List Byte) : Chip :=
  ((c.inc C.HST_RX_FRAMES 0).incBy C.HST_RX_BYTES 0 (l.length + 4)).inc C.ZCP_RX_MSG 0

/-- A session that accepted a SEQ at an instant (R330). -/
def Sess.noted (x : Sess) (seq now : Nat) : Sess :=
  { x with
    top := max x.top seq,
    seen := (x.top :: seq :: x.seen).filter (fun k => decide (k ≠ max x.top seq ∧ max x.top seq ≤ k + 63)), lastRx := now }

/-- The chip on which an accepted request begins: the frame is counted and its SEQ noted. -/
def Chip.zcpTaken (c : Chip) (l : List Byte) : Chip :=
  (c.evtUpdate.zcpCounted l).setSess (zcpSess l) ((c.evtUpdate.sess (zcpSess l)).noted (zcpSeq l) c.evtUpdate.now)

theorem hostRx_of_requestOk {c : Chip} {l : List Byte} {q : ZcpMsg} {typ : Nat} (h : requestOk c l q typ) :
    c.hostRx l = ((c.inc C.HST_RX_FRAMES 0).incBy C.HST_RX_BYTES 0 (l.length + 4), true) := by
  obtain ⟨hclear, -, hmin, hmax, htype, -⟩ := h
  simp only [Chip.hostClear, Bool.and_eq_true, decide_eq_true_eq] at hclear
  obtain ⟨⟨hdom, hlink⟩, -⟩ := hclear
  have hshort : ¬ (l.length < 60 ∨ 16380 < l.length) := by omega
  simp [Chip.hostRx, Chip.zcpAlive, hdom, hlink, hshort, htype]

/-- An acceptable request is accepted: it is counted, and its session notes its SEQ and its instant (R330). -/
theorem zcpAccept_of_requestOk {c : Chip} {l : List Byte} {q : ZcpMsg} {typ : Nat} (h : requestOk c l q typ) :
    c.zcpAccept l = ((c.zcpCounted l).setSess (zcpSess l) ((c.sess (zcpSess l)).noted (zcpSeq l) c.now), some q) := by
  have hrx := hostRx_of_requestOk h
  obtain ⟨-, -, -, -, -, hopens, -, -, hfresh, -⟩ := h
  obtain ⟨hform, hopen⟩ := Chip.sessOpen_of_zcpOpens hopens
  generalize hd : (c.inc C.HST_RX_FRAMES 0).incBy C.HST_RX_BYTES 0 (l.length + 4) = d at hrx
  have hdopens : d.zcpOpens l = some q := by subst hd; exact hopens
  have hdopen : d.sessOpen (zcpSess l) = true := by subst hd; exact hopen
  have hdsess : d.sess (zcpSess l) = c.sess (zcpSess l) := by subst hd; rfl
  have hdnow : d.now = c.now := by subst hd; rfl
  simp only [Chip.zcpAccept, hrx, hform, hdopen, hdopens, hdsess, hdnow, hfresh, Chip.zcpCounted, hd, Sess.noted, Bool.true_eq_false, or_self,
    if_false, if_true]

/-- The rows of requests of another TYPE leave a frame to the row of its own. -/
theorem otherRow_of_requestOk {c : Chip} {l : List Byte} {q : ZcpMsg} {typ : Nat} (h : requestOk c l q typ) : c.otherRow typ l = false := by
  obtain ⟨-, -, -, -, -, hopens, htyp, -⟩ := h
  have hclear := zcpForm_zero_of_one (Chip.sessOpen_of_zcpOpens hopens).1
  simp [Chip.otherRow, hclear, hopens, htyp]

theorem Tab.set_set {α : Type} (t : Tab α) (k : Nat) (v w : α) : (t.set k v).set k w = t.set k w := by
  induction t with
  | nil => simp [Tab.set]
  | cons e t ih =>
    obtain ⟨j, x⟩ := e
    by_cases hlt : k < j
    · simp [Tab.set, hlt]
    · by_cases heq : k = j
      · simp [Tab.set, heq]
      · simp [Tab.set, hlt, heq, ih]

@[simp] theorem Chip.setSess_setSess (c : Chip) (s : Nat) (x y : Sess) : (c.setSess s x).setSess s y = c.setSess s y := by
  simp only [Chip.setSess, Tab.set_set]

/-- A request begins and is answered. -/
def Chip.zcpServed (c : Chip) (m : Mem) (s : Nat) (r : Req) (e : Env) : Chip :=
  ((c.zcpStart m s r e).1.zcpEnd s r (c.zcpStart m s r e).2).zcpCount s

/-- A request that arrives in a session where nothing waits and no response is kept under its TAG is served. -/
theorem Chip.zcpRequest_served (c : Chip) (m : Mem) (s : Nat) (r : Req) (e : Env) (x : Sess)
    (hk : x.kept.find? (fun k => decide (k.typ = r.typ ∧ k.tag = r.tag)) = none) (hq : x.queue = []) (hc : x.cur = none) :
    (c.setSess s x).zcpRequest m s r e = (c.setSess s x).zcpServed m s r e := by
  cases x
  subst hq hc
  dsimp only at hk
  simp only [Chip.zcpRequest, Chip.sess_setSess, hk]
  simp [Chip.zcpPump, b2n, Chip.zcpServed]

/-- The row of an acceptable request serves it on the chip that took it. -/
theorem zcpRow_of_requestOk {c : Chip} {l : List Byte} {q : ZcpMsg} {typ : Nat} (h : requestOk c l q typ) (e : Env) (m : Mem) :
    zcpRow typ l e m c = ((c.zcpTaken l).zcpServed m (zcpSess l) q.req e).evtUpdate := by
  have hother := otherRow_of_requestOk h
  have haccept := zcpAccept_of_requestOk (requestOk_evtUpdate h)
  obtain ⟨-, -, -, -, -, -, htyp, hresp, -, hkept, hqueue, hcur⟩ := requestOk_evtUpdate h
  simp only [zcpRow, hother, haccept, hresp, Bool.false_eq_true, if_false]
  subst htyp
  exact congrArg Chip.evtUpdate (Chip.zcpRequest_served _ m _ q.req e _ hkept hqueue hcur)

/-- The chip that took a request differs from the one before in the books. -/
theorem Chip.zcpTaken_booked (c : Chip) (l : List Byte) : c.Booked (c.zcpTaken l) :=
  have hcounted : c.evtUpdate.Booked (c.evtUpdate.zcpCounted l) :=
    ((Chip.incBy_booked ..).trans (Chip.incBy_booked ..)).trans (Chip.incBy_booked ..)
  c.evtUpdate_booked.trans (hcounted.trans (Chip.setSess_booked ..))

theorem Chip.zcpTaken_alike (c : Chip) (l : List Byte) : (c.sess (zcpSess l)).Alike ((c.zcpTaken l).sess (zcpSess l)) := by
  obtain ⟨b, hb⟩ := c.evtUpdate_sess (zcpSess l)
  simp only [Chip.zcpTaken, Chip.sess_setSess, hb]
  exact ⟨rfl, rfl, rfl, rfl⟩

/-- The chip before an acceptable request answers as itself. -/
theorem answersAs_of_requestOk {c : Chip} {l : List Byte} {q : ZcpMsg} {typ : Nat} (h : requestOk c l q typ) : c.AnswersAs c (zcpSess l) := by
  obtain ⟨hclear, hempty, -, -, -, hopens, -⟩ := h
  exact ⟨hclear, hempty, (Chip.sessOpen_of_zcpOpens hopens).2, rfl, rfl, rfl, rfl, rfl⟩

theorem Sess.Alike.trans {x y z : Sess} (h : x.Alike y) (g : y.Alike z) : x.Alike z := by
  obtain ⟨hp, hk, hr, ht⟩ := h
  obtain ⟨gp, gk, gr, gt⟩ := g
  exact ⟨gp.trans hp, gk.trans hk, gr.trans hr, gt.trans ht⟩

/-- What differs from an answering chip in the books alone, and keeps the session alike, answers too. -/
theorem Chip.AnswersAs.booked {c d d' : Chip} {s : Nat} (h : c.AnswersAs d s) (hb : d.Booked d') (ha : (d.sess s).Alike (d'.sess s)) :
    c.AnswersAs d' s where
  clear := (hb.read (·.hostClear) fun _ _ _ _ _ => rfl).trans h.clear
  empty := (hb.read (·.hp.txWait) fun _ _ _ _ _ => rfl).trans h.empty
  isOpen := (hb.read (·.sessOpen s) fun _ _ _ _ _ => rfl).trans h.isOpen
  mac := (hb.read (·.hostMac) fun _ _ _ _ _ => rfl).trans h.mac
  alike := h.alike.trans ha

theorem Chip.AnswersAs.evtUpdate {c d : Chip} {s : Nat} (h : c.AnswersAs d s) : c.AnswersAs d.evtUpdate s := by
  obtain ⟨b, hb⟩ := d.evtUpdate_sess s
  exact h.booked d.evtUpdate_booked (hb ▸ ⟨rfl, rfl, rfl, rfl⟩)

theorem Chip.AnswersAs.winSet {c d : Chip} {s : Nat} (h : c.AnswersAs d s) (a v : Nat) : c.AnswersAs (d.winSet a v) s :=
  ⟨h.clear, h.empty, h.isOpen, h.mac, h.alike⟩

theorem Chip.AnswersAs.mem {c d : Chip} {s : Nat} (h : c.AnswersAs d s) (o : MemOp) : c.AnswersAs (d.mem o) s :=
  ⟨h.clear, h.empty, h.isOpen, h.mac, h.alike⟩

/-- The chip that took a request answers as the chip before. -/
theorem answersAs_zcpTaken {c : Chip} {l : List Byte} {q : ZcpMsg} {typ : Nat} (h : requestOk c l q typ) :
    c.AnswersAs (c.zcpTaken l) (zcpSess l) :=
  (answersAs_of_requestOk h).booked (c.zcpTaken_booked l) (c.zcpTaken_alike l)

/-- The chip once something has left it. -/
def Chip.sent (c : Chip) (o : Output) : Chip := { c with out := o :: c.out }

theorem Chip.Booked.sent {c d : Chip} (h : c.Booked d) (o : Output) : (c.sent o).Booked (d.sent o) :=
  h.map (·.sent o) fun _ _ _ _ _ => rfl

theorem Chip.Booked.wg {c d : Chip} (h : c.Booked d) (f : Fld) (i v : Nat) : (c.wg f i v).Booked (d.wg f i v) :=
  h.map (·.wg f i v) fun _ _ _ _ _ => rfl

theorem Chip.Booked.done {c d : Chip} (h : c.Booked d) : c.done.Booked d.done :=
  h.map Chip.done fun _ _ _ _ _ => rfl

/-- A protected frame of a session of a chip that answers leaves at once. -/
theorem Chip.AnswersAs.send {c d : Chip} {s : Nat} (h : c.AnswersAs d s) (typ flags tag st index detail : Nat) (body : List Byte) :
    (d.sent (c.zcpOutput s typ flags tag st index detail body)).Booked (d.zcpSend s typ flags tag st index detail body) := by
  have hclear : (d.setSess s { d.sess s with txSeq := (d.sess s).txSeq + 1 }).hostClear = true := h.clear
  have hempty : (d.setSess s { d.sess s with txSeq := (d.sess s).txSeq + 1 }).hp.txWait = [] := h.empty
  simp only [Chip.zcpSend, Chip.hostSend, hclear, hempty, and_self, if_true, Chip.zcpOutput_alike h.mac h.alike]
  exact ⟨_, _, d.hp.pend, d.mc.srcDue, d.mc.pulse, rfl⟩

/-- The same from a chip that differs in the books alone. -/
theorem Chip.AnswersAs.send_booked {c d d' : Chip} {s : Nat} (h : c.AnswersAs d s) (hb : d.Booked d') (ha : (d.sess s).Alike (d'.sess s))
    (typ flags tag st index detail : Nat) (body : List Byte) :
    (d.sent (c.zcpOutput s typ flags tag st index detail body)).Booked (d'.zcpSend s typ flags tag st index detail body) :=
  (hb.sent _).trans ((h.booked hb ha).send ..)

/-- A chip that answers sends the response at once; but for the record of it the chip differs in the books. -/
theorem Chip.AnswersAs.respond {c d : Chip} {s : Nat} (h : c.AnswersAs d s) (r : Req) (p : Reply) :
    (d.sent (c.zcpOutput s r.typ 1 r.tag p.st p.index p.detail p.body)).Booked (d.zcpRespond s r p) := by
  simp only [Chip.zcpRespond, h.isOpen, Bool.true_eq_false, if_false]
  split
  · refine h.send_booked ((Chip.setSess_booked ..).trans (Chip.incBy_booked ..)) ?_ ..
    simp only [Chip.sess_incBy, Chip.sess_setSess]
    exact ⟨rfl, rfl, rfl, rfl⟩
  · refine h.send_booked (Chip.setSess_booked ..) ?_ ..
    simp only [Chip.sess_setSess]
    exact ⟨rfl, rfl, rfl, rfl⟩

/-- A request other than CLOSE whose work ends with an answer on a chip that answers is answered at once; but for that, for OUTSTANDING
and for the books the chip is the one its work left. -/
theorem Chip.AnswersAs.served {c d b : Chip} {s : Nat} (h : c.AnswersAs d s) {m : Mem} {r : Req} {e : Env} {p : Reply}
    (hw : b.zcpStart m s r e = (d, some p)) (hr : r.typ ≠ 0x85) :
    ∃ n, ((d.sent (c.zcpOutput s r.typ 1 r.tag p.st p.index p.detail p.body)).wg R.HST_SESS_STAT_OUTSTANDING s n).Booked (b.zcpServed m s r e) := by
  have hb := h.respond r p
  have hopen : (d.zcpRespond s r p).sessOpen s = true := (hb.read (·.sessOpen s) fun _ _ _ _ _ => rfl).trans h.isOpen
  have hserved : b.zcpServed m s r e = (d.zcpRespond s r p).wg R.HST_SESS_STAT_OUTSTANDING s
      (((d.zcpRespond s r p).sess s).queue.length + b2n ((d.zcpRespond s r p).sess s).cur.isSome) := by
    simp only [Chip.zcpServed, hw, Chip.zcpEnd, hr, false_and, if_false, Chip.zcpCount, hopen, if_true]
  exact ⟨_, hserved ▸ hb.wg ..⟩

end Sys2Proof.Machine

namespace Sys2Proof.Safety

open Sys2Proof Sys2Proof.Machine

/-- A row whose request is acceptable and whose work ends with an answer on a chip that is `c` but for the books: the response is the newest
frame, the memory changes that `c` asks for are made, and but for that, for OUTSTANDING and for the books the chip is `c`. -/
theorem zcpRow_answers {s : State} {t : Nat} {l : List Byte} {q : ZcpMsg} {typ : Nat} {c d : Chip} {p : Reply} {e : Env} (hs : ready s)
    (h : requestOk (chipAt s t) l q typ) (hw : ((chipAt s t).zcpTaken l).zcpStart s.mem (zcpSess l) q.req e = (d, some p))
    (ha : (chipAt s t).AnswersAs d (zcpSess l)) (hb : c.Booked d) (hc : typ ≠ 0x85) :
    ∃ u, s.on t (fun m => zcpRow typ l e m) = .next u ∧
      newest u = some (s.chip.zcpOutput (zcpSess l) q.typ 1 q.tag p.st p.index p.detail p.body) ∧
      (∃ o n, ((c.sent o).wg R.HST_SESS_STAT_OUTSTANDING (zcpSess l) n).done.Booked u.chip) ∧ u.mem = s.mem.applyAll c.mout := by
  have htyp : q.req.typ ≠ 0x85 := by
    obtain ⟨-, -, -, -, -, -, htyp, -⟩ := h
    exact fun h85 => hc (htyp.symm.trans h85)
  obtain ⟨n, hv⟩ := ha.served hw htyp
  have hv := hv.trans (Chip.evtUpdate_booked _)
  refine State.on_answers _ _ _ _ hs.1 ?_
  rw [zcpRow_of_requestOk h]
  refine ⟨?_, ⟨(chipAt s t).zcpOutput (zcpSess l) q.typ 1 q.tag p.st p.index p.detail p.body, n, ?_⟩, ?_⟩
  · exact congrArg List.head? (hv.read (·.out) fun _ _ _ _ _ => rfl)
  · exact (((hb.sent _).wg _ _ _).done).trans hv.done
  · exact congrArg s.mem.applyAll ((hv.read (·.mout) fun _ _ _ _ _ => rfl).trans (hb.read (·.mout) fun _ _ _ _ _ => rfl))

end Sys2Proof.Safety
end

section
/-! PROOFS. Requests of one word of an exact table (05_packet_pipeline.md R172, R173; 11_host_control_and_dma.md R339, R340): the rights and
places of a session, the checks of the access, the item in the body. -/

namespace Sys2Proof.Machine

open Sys2Proof Sys2Proof.Safety

/-! ## Rights and places of a session that answers -/

theorem Chip.AnswersAs.lt {c d : Chip} {s : Nat} (h : c.AnswersAs d s) : s < 4 := by
  have ho := h.isOpen
  simp only [Chip.sessOpen, decide_eq_true_eq] at ho
  exact ho.1

theorem Chip.AnswersAs.hasRight {c d : Chip} {s : Nat} (h : c.AnswersAs d s) (b : Nat) : d.hasRight s b = c.hasRight s b := by
  obtain ⟨-, -, hr, -⟩ := h.alike
  simp only [Chip.hasRight, h.lt, if_true, hr]

theorem Chip.AnswersAs.mayWrite {c d : Chip} {s : Nat} (h : c.AnswersAs d s) (a : Nat) : d.mayWrite s a = c.mayWrite s a := by
  simp only [Chip.mayWrite, h.hasRight]

theorem Chip.AnswersAs.mayRead {c d : Chip} {s : Nat} (h : c.AnswersAs d s) (a : Nat) : d.mayRead s a = c.mayRead s a := by
  simp only [Chip.mayRead, h.hasRight]

theorem Chip.Booked.reach {c d : Chip} (h : c.Booked d) (a : Nat) : d.reach a = c.reach a := h.read (·.reach a) fun _ _ _ _ _ => rfl

theorem Chip.Booked.tableLocked {c d : Chip} (h : c.Booked d) (a : Nat) : d.tableLocked a = c.tableLocked a :=
  h.read (·.tableLocked a) fun _ _ _ _ _ => rfl

theorem Chip.Booked.winGet {c d : Chip} (h : c.Booked d) (a : Nat) : d.winGet a = c.winGet a := h.read (·.winGet a) fun _ _ _ _ _ => rfl

theorem Chip.Booked.winSet {c d : Chip} (h : c.Booked d) (a v : Nat) : (c.winSet a v).Booked (d.winSet a v) :=
  h.map (·.winSet a v) fun _ _ _ _ _ => rfl

theorem Chip.Booked.mem {c d : Chip} (h : c.Booked d) (o : MemOp) : (c.mem o).Booked (d.mem o) :=
  h.map (·.mem o) fun _ _ _ _ _ => rfl

@[simp] theorem Chip.winGet_winSet (c : Chip) (a v : Nat) : (c.winSet a v).winGet a = v % 2 ^ 32 := by
  simp [Chip.winGet, Chip.winSet]

/-! ## Words of the exact tables (R172, R173): addresses 0x48000000 to 0x57FFFFFF -/

section
variable {a : Nat} (hlo : 0x48000000 ≤ a) (hhi : a < 0x58000000)
include hlo hhi

theorem placeAt_exact : placeAt a = .table := by
  have hddr : ¬ 0x80000000 ≤ a := by omega
  have htab : inTables a = true := by simp only [inTables, decide_eq_true_eq]; omega
  simp only [placeAt, hddr, htab, if_false, if_true]

theorem fieldsAt_exact : fieldsAt a = [] := by
  have hfams : famsAt a = [] := by
    unfold famsAt
    repeat rw [if_neg (by omega)]
  simp only [fieldsAt, hfams, List.find?_nil]

theorem shadAt_exact : shadAt a = none := by
  unfold shadAt
  repeat rw [if_neg (by omega)]

theorem Chip.readHeld_exact (c : Chip) : c.readHeld a = false := by
  have hcell : ¬ (0x60000000 ≤ a ∧ a < 0x63000000) := by omega
  simp only [Chip.readHeld, hcell, if_false, shadAt_exact hlo hhi]

theorem Chip.writeHeld_exact (c : Chip) (v : Nat) : c.writeHeld a v = false := by
  have hcell : inSample a = false := by simp only [inSample, decide_eq_false_iff_not]; omega
  have hjub : ¬ a < 0x20000 := by omega
  simp only [Chip.writeHeld, hcell, hjub, and_false, Bool.false_eq_true, if_false, shadAt_exact hlo hhi]

theorem noModify_exact : noModify a = false := by
  simp only [noModify, fieldsAt_exact hlo hhi, List.any_nil, Bool.and_false]

theorem Chip.rawRead_exact (c : Chip) (m : Mem) : c.rawRead m a = (c, c.winGet a) := by
  have hport : a ≠ 0x4003FFFC := by omega
  simp only [Chip.rawRead, placeAt_exact hlo hhi, hport, if_false]

/-- A read of a word of an exact table by one who may. -/
theorem Chip.readWord_exact {c : Chip} {who : Nat} (m : Mem) (hr : c.mayRead who a = stOk) (ha : c.reach a = stOk) :
    c.readWord m who a = some ⟨c, c.winGet a, stOk⟩ := by
  simp [Chip.readWord, hr, ha, c.readHeld_exact hlo hhi, c.rawRead_exact hlo hhi]

/-- A word of the key part of an entry is written where no stage uses its bank. -/
theorem Chip.tableWrite_exact {c : Chip} (hkey : a % 32 < 20) (hl : c.tableLocked a = false) (v : Nat) :
    c.tableWrite .direct a v = (c.winSet a v, stOk) := by
  have hact : actionAt a = (none, false) := by
    have hshort : ¬ (0x40100000 ≤ a ∧ a < 0x40180000) := by omega
    have htern : ¬ (0x41000000 ≤ a ∧ a < 0x42000000) := by omega
    have hword : ¬ (20 ≤ a % 32 ∧ a % 32 < 28) := by omega
    have hrsv : ¬ 28 ≤ a % 32 := by omega
    simp only [actionAt, hshort, htern, hlo, hword, hrsv, if_false, if_true, decide_false]
  have hport : ¬ a < 0x40040000 := by omega
  simp [Chip.tableWrite, hport, hl, hact, Chip.actionOk]

/-- A write of such a word by one who may (R340). -/
theorem Chip.writeWord_exact {c : Chip} {who : Nat} (m : Mem) (hw : c.mayWrite who a = stOk) (ha : c.reach a = stOk) (hkey : a % 32 < 20)
    (hl : c.evtUpdate.tableLocked a = false) (v : Nat) :
    c.writeWord m who a v = some ((c.evtUpdate.winSet a (v % 2 ^ 32)).evtUpdate, stOk) := by
  have hddr : ¬ 0x80000000 ≤ a := by omega
  simp [Chip.writeWord, hw, ha, hddr, c.writeHeld_exact hlo hhi, Chip.wordWrite, placeAt_exact hlo hhi, Chip.tableWrite_exact hlo hhi hkey hl]

end

/-! ## Requests of one word (R339, R340) -/

/-- A field of a body reads as the number that was written there, if it holds it. -/
theorem beAt_field {b : List Byte} (pre post : List Byte) {o n v : Nat} (hb : b = pre ++ beBytes n v ++ post) (ho : pre.length = o)
    (hv : v < 256 ^ n) : beAt b o n = v := by
  rw [hb, List.append_assoc, beAt, slice, List.drop_left' ho, List.take_left' (beBytes_length n v), beNat_beBytes, Nat.mod_eq_of_lt hv]

/-- A request whose only item is one word that may be accessed now is answered with its status and its bytes. -/
theorem Chip.zcpStart_word {c d : Chip} {m : Mem} {s : Nat} {r : Req} {e : Env} {it : Item} {bs : List Byte}
    (ht : r.typ = 1 ∨ r.typ = 2 ∨ r.typ = 3) (hi : r.items = (r.typ, [it], none)) (hn : it.n = 1)
    (hw : c.zcpWord m s r.typ it 0 e = ⟨d, stOk, bs, none⟩) (hb : bs.length = itemBytes r.typ 1) :
    c.zcpStart m s r e = (d, some ⟨stOk, 0xFFFF, 0, zeros 4 ++ bs⟩) := by
  have hgo : c.zcpItems m s { req := r, item := 0, word := 0, done := [], fail := none, ist := 0, iad := 0 } e =
      (d, some ⟨stOk, 0xFFFF, 0, zeros 4 ++ bs⟩) := by
    have hle : r.typ ≤ 3 := by omega
    have hstart : (zeros 4).length + bs.length - 4 - itemBytes r.typ 1 = 0 := by simp [zeros]; omega
    have hst : stOk = 0 := rfl
    have hblank : beBytes 2 0 ++ (zeros 4 ++ bs).drop 2 = zeros 4 ++ bs := rfl
    simp [Chip.zcpItems, hi, hn, Chip.zcpGo, hw, Exec.close, Exec.reply, hle, hst, hstart, hblank]
  rcases ht with ht | ht | ht <;> simp [Chip.zcpStart, ht, hi, hgo, hn]

/-- The item of a READ of one word. -/
theorem Req.items_read {r : Req} {a : Nat} (ht : r.typ = 1) (hb : r.body = beBytes 6 a ++ beBytes 2 1) (ha : a < 2 ^ 48) :
    r.items = (1, [⟨a, 1, [], 0, 0⟩], none) := by
  have haddr : beAt r.body 0 6 = a := beAt_field [] (beBytes 2 1) (by simp [hb]) rfl (by omega)
  have hn : half r.body 6 = 1 := beAt_field (beBytes 6 a) [] (by simp [hb]) (by simp) (by decide)
  have hlen : r.body.length = 8 := by simp [hb]
  simp [Req.items, ht, sameItems, hlen, haddr, hn]

/-- The item of a WRITE of one word. -/
theorem Req.items_write {r : Req} {a v : Nat} (ht : r.typ = 2) (hb : r.body = beBytes 6 a ++ beBytes 2 1 ++ beBytes 4 v) (ha : a < 2 ^ 48)
    (hv : v < 2 ^ 32) : r.items = (2, [⟨a, 1, [v], 0, 0⟩], none) := by
  have haddr : beAt r.body 0 6 = a := beAt_field [] (beBytes 2 1 ++ beBytes 4 v) (by simp [hb]) rfl (by omega)
  have hn : half r.body 6 = 1 := beAt_field (beBytes 6 a) (beBytes 4 v) (by simp [hb]) (by simp) (by decide)
  have hword : word r.body 8 = v := beAt_field (beBytes 6 a ++ beBytes 2 1) [] (by simp [hb]) (by simp) (by omega)
  have hlen : r.body.length = 12 := by simp [hb]
  simp [Req.items, ht, writeItems, hlen, haddr, hn, hword]

/-- The item of a MODIFY of one word. -/
theorem Req.items_modify {r : Req} {a k v : Nat} (ht : r.typ = 3) (hb : r.body = beBytes 6 a ++ zeros 2 ++ beBytes 4 k ++ beBytes 4 v)
    (ha : a < 2 ^ 48) (hk : k < 2 ^ 32) (hv : v < 2 ^ 32) : r.items = (3, [⟨a, 1, [], k, v⟩], none) := by
  have haddr : beAt r.body 0 6 = a := beAt_field [] (zeros 2 ++ beBytes 4 k ++ beBytes 4 v) (by simp [hb]) rfl (by omega)
  have hmask : word r.body 8 = k := beAt_field (beBytes 6 a ++ zeros 2) (beBytes 4 v) (by simp [hb]) (by simp [zeros]) (by omega)
  have hword : word r.body 12 = v := beAt_field (beBytes 6 a ++ zeros 2 ++ beBytes 4 k) [] (by simp [hb]) (by simp [zeros]) (by omega)
  have hlen : r.body.length = 16 := by simp [hb, zeros]
  simp [Req.items, ht, sameItems, hlen, haddr, hmask, hword]

end Sys2Proof.Machine
end

section
/-! PROOFS. READ, WRITE, MODIFY and BULK of a session, command by command (11_host_control_and_dma.md R339 to R341). -/

namespace Sys2Proof.Machine

open Sys2Proof Sys2Proof.Safety

/-! ## BULK in DDR5 (R341) -/

/-- The body of a BULK: its OP, its address, its length and its data. -/
theorem bulk_fields {b data : List Byte} {op : Byte} {a n : Nat} (hb : b = [op, 0] ++ beBytes 6 a ++ beBytes 4 n ++ data) (ha : a < 2 ^ 48)
    (hn : n < 2 ^ 32) : byteAt b 0 = op.toNat ∧ beAt b 2 6 = a ∧ word b 8 = n ∧ b.drop 12 = data ∧ b.length = 12 + data.length := by
  refine ⟨?_, ?_, ?_, ?_, ?_⟩
  · simp [hb, byteAt, beAt, slice, beNat]
  · exact beAt_field [op, 0] (beBytes 4 n ++ data) (by simp [hb]) rfl (by omega)
  · exact beAt_field ([op, 0] ++ beBytes 6 a) data hb (by simp) (by omega)
  · rw [hb]; exact List.drop_left' (by simp)
  · simp [hb]; omega

/-- A BULK for DDR5 whose body is well formed and whose session has the right goes to the memory. -/
theorem Chip.zcpStart_bulk {c d : Chip} {m : Mem} {s a n : Nat} {r : Req} {e : Env} {op : Byte} {data : List Byte} {p : Reply}
    (ht : r.typ = 4) (hb : r.body = [op, 0] ++ beBytes 6 a ++ beBytes 4 n ++ data) (hlo : 0x80000000 ≤ a) (hhi : a < 2 ^ 48)
    (hn : n < 2 ^ 32) (hpos : 0 < n) (hmax : op.toNat < 2 ∧ n ≤ 16310 ∨ op.toNat = 2) (hlen : data.length = if op.toNat = 0 then n else 0)
    (hright : (if op.toNat = 0 then c.hasRight s 7 else decide (c.mayRead s a = stOk)) = true)
    (hx : c.bulkDdr m op.toNat a n data e = (d, p)) : c.zcpStart m s r e = (d, some p) := by
  obtain ⟨hop, haddr, hword, hdata, hbody⟩ := bulk_fields hb hhi hn
  have hwin : ¬ a < 0x80000000 := by omega
  have hshort : ¬ r.body.length < 12 := by omega
  have hasked : ¬ (2 < op.toNat ∨ n = 0 ∨ (op.toNat < 2 ∧ 16310 < n) ∨ a < 0x40000000) := by omega
  have hsize : r.body.length - 12 = if op.toNat = 0 then n else 0 := by omega
  simp only [Chip.zcpStart, ht, Chip.zcpBulk, hop, haddr, hword, hdata, hshort, hasked, hsize, hwin, hright, hx, ne_eq, not_true_eq_false,
    false_and, Bool.true_eq_false, if_false]

theorem Chip.Booked.ddrOk {c d : Chip} (h : c.Booked d) : d.ddrOk = c.ddrOk := h.read (·.ddrOk) fun _ _ _ _ _ => rfl

theorem Chip.Booked.ddrCap {c d : Chip} (h : c.Booked d) : d.ddrCap = c.ddrCap := h.read (·.ddrCap) fun _ _ _ _ _ => rfl

section
variable {c : Chip} {a n : Nat} (m : Mem) (data : List Byte) (hok : c.ddrOk = true) (hcap : a - 0x80000000 + n ≤ c.ddrCap)
include hok hcap

theorem Chip.bulkDdr_write (e : Env) : c.bulkDdr m 0 a n data e = (c.mem (.ddr (a - 0x80000000) data), .ok []) := by
  have hin : ¬ c.ddrCap < a - 0x80000000 + n := by omega
  simp [Chip.bulkDdr, hok, hin, Chip.ddrPut]

theorem Chip.bulkDdr_read (hm : c.mout = []) {op : Nat} (hop : op ≠ 0) :
    c.bulkDdr m op a n data ⟨none⟩ =
      (c, .ok (if op = 1 then m.ddrRead (a - 0x80000000) n else sha3_512 (m.ddrRead (a - 0x80000000) n))) := by
  have hin : ¬ c.ddrCap < a - 0x80000000 + n := by omega
  simp [Chip.bulkDdr, hok, hin, hop, hm, Mem.applyAll]

end

end Sys2Proof.Machine

namespace Sys2Proof.Safety

open Sys2Proof Sys2Proof.Machine

/-- A BULK row whose frame is an acceptable request of its OP is the row of that request. -/
theorem on_bulkRow {s : State} {t op : Nat} {l : List Byte} {q : ZcpMsg} (e : Env) (hs : ready s) (h : requestOk (chipAt s t) l q 4)
    (hop : byteAt q.body 0 = op) : s.on t (fun m => bulkRow op l e m) = s.on t (fun m => zcpRow 4 l e m) := by
  obtain ⟨-, -, -, -, -, hopens, -⟩ := h
  rw [State.on_running _ _ _ hs.1, State.on_running _ _ _ hs.1]
  simp [bulkRow, hopens, hop]

/-! ## Accesses of a session to one word and to DDR5 (R339 to R341) -/

/-- The TYPE of an acceptable request. -/
theorem typ_of_requestOk {c : Chip} {l : List Byte} {q : ZcpMsg} {typ : Nat} (h : requestOk c l q typ) : q.req.typ = typ := by
  obtain ⟨-, -, -, -, -, -, htyp, -⟩ := h
  exact htyp

/-- A READ of one word of an exact table. -/
theorem zcpRead_exact (t : Nat) (l : List Byte) (q : ZcpMsg) (a : Nat) (s : State) (hs : ready s) (h : requestOk (chipAt s t) l q 1)
    (hb : q.body = beBytes 6 a ++ beBytes 2 1) (hlo : 0x48000000 ≤ a) (hhi : a < 0x58000000) (_ : a % 32 < 20)
    (ha : (chipAt s t).reach a = stOk) (hr : (chipAt s t).mayRead (zcpSess l) a = stOk) :
    ∃ u, exec (.zcpRead t l none) s = .next u ∧ responded s u l q (zeros 4 ++ beBytes 4 (s.chip.winGet a)) ∧ u.chip.win = s.chip.win ∧
      u.mem = s.mem := by
  have htyp := typ_of_requestOk h
  have hans := answersAs_zcpTaken h
  have hbook := (chipAt s t).zcpTaken_booked l
  have hword : ((chipAt s t).zcpTaken l).zcpWord s.mem (zcpSess l) q.req.typ ⟨a, 1, [], 0, 0⟩ 0 ⟨none⟩ =
      ⟨(chipAt s t).zcpTaken l, stOk, beBytes 4 (s.chip.winGet a), none⟩ := by
    have hread := Chip.readWord_exact hlo hhi s.mem ((hans.mayRead a).trans hr) ((hbook.reach a).trans ha)
    rw [hbook.winGet] at hread
    simp [Chip.zcpWord, htyp, hread, Env.hits]
  have hstart := Chip.zcpStart_word (.inl htyp) (htyp ▸ Req.items_read htyp hb (by omega)) rfl hword (by simp [htyp, itemBytes])
  obtain ⟨u, hu, hnew, ⟨o, n, hub⟩, hmem⟩ := zcpRow_answers hs h hstart hans hbook (by decide)
  exact ⟨u, hu, hnew, hub.read (·.win) fun _ _ _ _ _ => rfl, hmem.trans (congrArg s.mem.applyAll hs.2)⟩

section
variable {s : State} {t typ a : Nat} {l : List Byte} {q : ZcpMsg} (h : requestOk (chipAt s t) l q typ)
include h

/-- A word of an exact table that no stage uses is written on the chip that took the request. -/
theorem zcpTaken_writeWord (hlo : 0x48000000 ≤ a) (hhi : a < 0x58000000) (hkey : a % 32 < 20) (ha : (chipAt s t).reach a = stOk)
    (hw : (chipAt s t).mayWrite (zcpSess l) a = stOk) (hl : (chipAt s t).evtUpdate.tableLocked a = false) (v : Nat) :
    ((chipAt s t).zcpTaken l).writeWord s.mem (zcpSess l) a v =
      some ((((chipAt s t).zcpTaken l).evtUpdate.winSet a (v % 2 ^ 32)).evtUpdate, stOk) := by
  have hbook := (chipAt s t).zcpTaken_booked l
  have hlocked := ((hbook.trans (Chip.evtUpdate_booked _)).tableLocked a).trans (((chipAt s t).evtUpdate_booked.tableLocked a).symm.trans hl)
  exact Chip.writeWord_exact hlo hhi s.mem (((answersAs_zcpTaken h).mayWrite a).trans hw) ((hbook.reach a).trans ha) hkey hlocked v

/-- A request whose work writes one word of the table window is answered, and the word holds the value. -/
theorem zcpRow_writes (hs : ready s) {e : Env} {it : Item} {bs : List Byte} {v : Nat} (ht : typ = 1 ∨ typ = 2 ∨ typ = 3)
    (hi : q.req.items = (typ, [it], none)) (hn : it.n = 1)
    (hword : ((chipAt s t).zcpTaken l).zcpWord s.mem (zcpSess l) typ it 0 e =
      ⟨(((chipAt s t).zcpTaken l).evtUpdate.winSet a (v % 2 ^ 32)).evtUpdate, stOk, bs, none⟩)
    (hlen : bs.length = itemBytes typ 1) :
    ∃ u, s.on t (fun m => zcpRow typ l e m) = .next u ∧ responded s u l q (zeros 4 ++ bs) ∧ u.chip.winGet a = v % 2 ^ 32 ∧ u.mem = s.mem := by
  have htyp := typ_of_requestOk h
  have hans := (((answersAs_zcpTaken h).evtUpdate).winSet a (v % 2 ^ 32)).evtUpdate
  have hbook := ((((chipAt s t).zcpTaken_booked l).trans (Chip.evtUpdate_booked _)).winSet a (v % 2 ^ 32)).trans (Chip.evtUpdate_booked _)
  have hstart := Chip.zcpStart_word (htyp ▸ ht) (htyp.symm ▸ hi) hn (htyp.symm ▸ hword) (htyp.symm ▸ hlen)
  obtain ⟨u, hu, hnew, ⟨o, n, hub⟩, hmem⟩ := zcpRow_answers hs h hstart hans hbook (by omega)
  refine ⟨u, hu, hnew, ?_, hmem.trans (congrArg s.mem.applyAll hs.2)⟩
  calc u.chip.winGet a = ((chipAt s t).winSet a (v % 2 ^ 32)).winGet a := hub.read (·.winGet a) fun _ _ _ _ _ => rfl
    _ = v % 2 ^ 32 := by rw [Chip.winGet_winSet, Nat.mod_mod]

end

/-- A WRITE of one word of an exact table that no stage uses. -/
theorem zcpWrite_exact (t : Nat) (l : List Byte) (q : ZcpMsg) (a v : Nat) (s : State) (hs : ready s) (h : requestOk (chipAt s t) l q 2)
    (hb : q.body = beBytes 6 a ++ beBytes 2 1 ++ beBytes 4 v) (hlo : 0x48000000 ≤ a) (hhi : a < 0x58000000) (hkey : a % 32 < 20)
    (ha : (chipAt s t).reach a = stOk) (hw : (chipAt s t).mayWrite (zcpSess l) a = stOk) (hl : (chipAt s t).evtUpdate.tableLocked a = false)
    (hv : v < 2 ^ 32) :
    ∃ u, exec (.zcpWrite t l) s = .next u ∧ responded s u l q (zeros 4) ∧ u.chip.winGet a = v ∧ u.mem = s.mem := by
  have hwrite := zcpTaken_writeWord h hlo hhi hkey ha hw hl v
  have hword : ((chipAt s t).zcpTaken l).zcpWord s.mem (zcpSess l) 2 ⟨a, 1, [v], 0, 0⟩ 0 ⟨none⟩ =
      ⟨(((chipAt s t).zcpTaken l).evtUpdate.winSet a (v % 2 ^ 32)).evtUpdate, stOk, [], none⟩ := by
    simp only [Chip.zcpWord, Nat.mul_zero, Nat.add_zero, List.getD_cons_zero, hwrite]
  have hdone := zcpRow_writes h hs (.inr (.inl rfl)) (Req.items_write (typ_of_requestOk h) hb (by omega) hv) rfl hword rfl
  rwa [List.append_nil, Nat.mod_eq_of_lt hv] at hdone

/-- A MODIFY of one word of an exact table that no stage uses. -/
theorem zcpModify_exact (t : Nat) (l : List Byte) (q : ZcpMsg) (a k v : Nat) (s : State) (hs : ready s) (h : requestOk (chipAt s t) l q 3)
    (hb : q.body = beBytes 6 a ++ zeros 2 ++ beBytes 4 k ++ beBytes 4 v) (hlo : 0x48000000 ≤ a) (hhi : a < 0x58000000) (hkey : a % 32 < 20)
    (ha : (chipAt s t).reach a = stOk) (hw : (chipAt s t).mayWrite (zcpSess l) a = stOk) (hl : (chipAt s t).evtUpdate.tableLocked a = false)
    (hk : k < 2 ^ 32) (hv : v < 2 ^ 32) (_ : s.chip.winGet a < 2 ^ 32) :
    ∃ u, exec (.zcpModify t l none) s = .next u ∧ responded s u l q (zeros 4 ++ beBytes 4 (s.chip.winGet a)) ∧
      u.chip.winGet a = ((s.chip.winGet a &&& (0xFFFFFFFF - k)) ||| (v &&& k)) ∧ u.mem = s.mem := by
  have hans := answersAs_zcpTaken h
  have hbook := (chipAt s t).zcpTaken_booked l
  have hwrite := zcpTaken_writeWord h hlo hhi hkey ha hw hl ((s.chip.winGet a &&& (0xFFFFFFFF - k)) ||| (v &&& k))
  have hmasked : ((s.chip.winGet a &&& (0xFFFFFFFF - k)) ||| (v &&& k)) < 2 ^ 32 :=
    Nat.or_lt_two_pow (Nat.and_lt_two_pow _ (by omega)) (Nat.and_lt_two_pow _ hk)
  have hread : ((chipAt s t).zcpTaken l).rawRead s.mem a = ((chipAt s t).zcpTaken l, s.chip.winGet a) := by
    rw [Chip.rawRead_exact hlo hhi, hbook.winGet, Chip.winGet_tick]
  have hword : ((chipAt s t).zcpTaken l).zcpWord s.mem (zcpSess l) 3 ⟨a, 1, [], k, v⟩ 0 ⟨none⟩ =
      ⟨(((chipAt s t).zcpTaken l).evtUpdate.winSet a (((s.chip.winGet a &&& (0xFFFFFFFF - k)) ||| (v &&& k)) % 2 ^ 32)).evtUpdate, stOk,
        beBytes 4 (s.chip.winGet a), none⟩ := by
    simp only [Chip.zcpWord, Nat.mul_zero, Nat.add_zero, (hans.mayWrite a).trans hw, (hbook.reach a).trans ha, noModify_exact hlo hhi,
      Chip.readHeld_exact hlo hhi, Env.hits, hread, hwrite, ne_eq, not_true_eq_false, Bool.false_eq_true, if_false]
  have hdone := zcpRow_writes h hs (.inr (.inr rfl)) (Req.items_modify (typ_of_requestOk h) hb (by omega) hk hv) rfl hword
    (beBytes_length ..)
  rwa [Nat.mod_eq_of_lt hmasked] at hdone

/-- A BULK of OP 0 for DDR5. -/
theorem zcpBulkWrite_ddr (t : Nat) (l : List Byte) (q : ZcpMsg) (a n : Nat) (d : List Byte) (s : State) (hs : ready s)
    (h : requestOk (chipAt s t) l q 4) (hb : q.body = [0, 0] ++ beBytes 6 a ++ beBytes 4 n ++ d) (hok : (chipAt s t).ddrOk = true)
    (hlo : 0x80000000 ≤ a) (hhi : a < 2 ^ 48) (hcap : a - 0x80000000 + n ≤ (chipAt s t).ddrCap) (hpos : 0 < n) (hmax : n ≤ 16310)
    (hd : d.length = n) (hr : s.chip.hasRight (zcpSess l) 7 = true) :
    ∃ u, exec (.zcpBulkWrite t l) s = .next u ∧ responded s u l q [] ∧ u.mem = s.mem.apply (.ddr (a - 0x80000000) d) := by
  have hans := answersAs_zcpTaken h
  have hbook := (chipAt s t).zcpTaken_booked l
  have hwork := Chip.bulkDdr_write s.mem d (hbook.ddrOk.trans hok) (hcap.trans_eq hbook.ddrCap.symm) ⟨none⟩
  have hstart := Chip.zcpStart_bulk (op := 0) (typ_of_requestOk h) hb hlo hhi (by omega) hpos (.inl ⟨by decide, hmax⟩) hd
    ((hans.hasRight 7).trans hr) hwork
  obtain ⟨u, hu, hnew, -, hmem⟩ := zcpRow_answers hs h hstart (hans.mem _) (hbook.mem (.ddr (a - 0x80000000) d)) (by decide)
  exact ⟨u, (on_bulkRow ⟨none⟩ hs h (bulk_fields hb hhi (by omega)).1).trans hu, hnew, by rw [hmem, Chip.mem_mout, Chip.tick_mout, hs.2]; rfl⟩

/-- A BULK of OP 1 or 2 for DDR5 that meets no uncorrectable error: the bytes, or their digest. -/
theorem zcpBulk_reads {s : State} {t a n : Nat} {l : List Byte} {q : ZcpMsg} {op : Byte} (hs : ready s) (h : requestOk (chipAt s t) l q 4)
    (hb : q.body = [op, 0] ++ beBytes 6 a ++ beBytes 4 n) (hok : (chipAt s t).ddrOk = true) (hlo : 0x80000000 ≤ a) (hhi : a < 2 ^ 48)
    (hcap : a - 0x80000000 + n ≤ (chipAt s t).ddrCap) (hpos : 0 < n) (hop : op.toNat = 1 ∧ n ≤ 16310 ∨ op.toNat = 2 ∧ n < 2 ^ 32)
    (hr : (chipAt s t).mayRead (zcpSess l) a = stOk) :
    ∃ u, s.on t (fun m => bulkRow op.toNat l ⟨none⟩ m) = .next u ∧
      responded s u l q (if op.toNat = 1 then s.mem.ddrRead (a - 0x80000000) n else sha3_512 (s.mem.ddrRead (a - 0x80000000) n)) ∧
      u.mem = s.mem := by
  have hans := answersAs_zcpTaken h
  have hbook := (chipAt s t).zcpTaken_booked l
  have hread : op.toNat ≠ 0 := by omega
  have hbody : q.body = [op, 0] ++ beBytes 6 a ++ beBytes 4 n ++ [] := by rw [hb, List.append_nil]
  have hmout : ((chipAt s t).zcpTaken l).mout = [] := (hbook.read (·.mout) fun _ _ _ _ _ => rfl).trans hs.2
  have hwork := Chip.bulkDdr_read s.mem [] (hbook.ddrOk.trans hok) (hcap.trans_eq hbook.ddrCap.symm) hmout hread
  have hstart := Chip.zcpStart_bulk (typ_of_requestOk h) hbody hlo hhi (by omega) hpos (by omega) (if_neg hread).symm
    (by rw [if_neg hread, hans.mayRead, hr]; rfl) hwork
  obtain ⟨u, hu, hnew, -, hmem⟩ := zcpRow_answers hs h hstart hans hbook (by decide)
  exact ⟨u, (on_bulkRow ⟨none⟩ hs h (bulk_fields hbody hhi (by omega)).1).trans hu, hnew, hmem.trans (congrArg s.mem.applyAll hs.2)⟩

end Sys2Proof.Safety
end

section
/-! PROOFS. Register writes of a session (00_scope.md R9; 16_register_map.md R464), and the statements of the family 00_scope.md. -/

namespace Sys2Proof.Machine

open Sys2Proof Sys2Proof.Safety

/-! ## Register writes of a session (R9, R387, R464) -/

/-- A write that its writer may not make, or that reaches nothing, changes nothing and is answered so, the right first. -/
theorem Chip.writeWord_refused {c : Chip} (m : Mem) {who a : Nat} (v : Nat) (h : c.mayWrite who a ≠ stOk ∨ c.reach a ≠ stOk) :
    c.writeWord m who a v = some (c, if c.mayWrite who a ≠ stOk then c.mayWrite who a else c.reach a) := by
  by_cases hright : c.mayWrite who a = stOk
  · simp [Chip.writeWord, hright, h.resolve_left (fun hn => hn hright)]
  · simp [Chip.writeWord, hright]

/-- A write of a word of DDR5 by one who may. -/
theorem Chip.writeWord_ddr {c : Chip} (m : Mem) {who a : Nat} (v : Nat) (hw : c.mayWrite who a = stOk) (ha : c.reach a = stOk)
    (hlo : 0x80000000 ≤ a) : c.writeWord m who a v = some (c.mem (.ddr (a - 0x80000000) (beBytes 4 v)), stOk) := by
  simp [Chip.writeWord, hw, ha, hlo, Chip.ddrPut]

/-- The right that TMG_SLEW takes, and its place. -/
theorem mayWrite_slew {c : Chip} {who : Nat} (hwho : who < 4) (hr : c.hasRight who 4 = true) : c.mayWrite who 0xA000C = stOk := by
  have hcfg : sessCfgOf 0xA000C = none := by decide
  have hvault : inVault 0xA000C = false := by decide
  have hbit : writeBit 0xA000C = some 4 := by decide
  have hcore : ¬ 4 ≤ who := by omega
  simp [Chip.mayWrite, hcfg, hvault, hbit, hcore, hr]

theorem placeAt_slew : placeAt 0xA000C = .reg := by decide

theorem regBase_slew : regBase 0xA000C = R.TMG_SLEW_SLEW.reg := by decide

theorem reach_slew {c : Chip} (hd : c.domOn 1 = true) : c.reach 0xA000C = stOk := by
  have hdom : domAt 0xA000C = 1 := by decide
  simp [Chip.reach, placeAt_slew, hdom, hd]

theorem writeHeld_slew (c : Chip) (v : Nat) : c.writeHeld 0xA000C v = false := by
  have hcell : inSample 0xA000C = false := by decide
  have hshad : shadAt 0xA000C = none := by decide
  simp [Chip.writeHeld, hcell, hshad]

/-- TMG_SLEW takes a rate from 1 to SLEW_MAX (R284). -/
theorem registerWrite_slew {c : Chip} (m : Mem) {who v : Nat} (hwho : who < 4) (hsh : c.alm.load.shadow = []) (hv : v < 65536)
    (hlo : 1 ≤ v) (hhi : v ≤ c.slewMax) : c.registerWrite m .direct who 0xA000C v = (c.wg R.TMG_SLEW_SLEW 0 v, stOk) := by
  have hshad : shadAt 0xA000C = none := by decide
  have hlocked : c.regLocked 0xA000C = false := by simp [Chip.regLocked, hsh, hshad]
  have hpair : pairLo 0xA000C = false := by simp only [pairLo, regBase_slew]; decide
  have hnext : pairLo (0xA000C - 4) = false := by decide
  have htiming : timingLocked R.TMG_SLEW_SLEW.reg = false := by decide
  have hsel : ¬ R.TMG_SLEW_SLEW.reg = R.TMG_SEL_CFG_MODE.reg := by decide
  have hunit : unitWrite m .direct who 0xA000C v c = slewWrite false v c := by
    have hcore : decide (4 ≤ who) = false := by simp; omega
    simp [unitWrite, tmgWrite, regBase_slew, htiming, hsel, hcore]
  have hin : 1 ≤ v % 65536 ∧ v % 65536 ≤ c.slewMax := by omega
  simp only [Chip.registerWrite, hlocked, hpair, hshad, hunit, hnext, slewWrite, hin, and_false, and_self, Bool.false_eq_true, if_false, if_true]

end Sys2Proof.Machine

namespace Sys2Proof.Safety

open Sys2Proof Sys2Proof.Machine

/-- A register write of a session whose word takes effect or is refused now: what it leaves, with its answer. -/
theorem registerWrite_answers {s : State} {t a v st : Nat} {who : Fin 20} {d : Chip} (hs : ready s) (hwho : who.val < 4)
    (h : (chipAt s t).writeWord s.mem who a v = some (d, st)) :
    exec (.registerWrite t who a v) s = .next (s.after (d.emit .answer 0 [st] [])) := by
  have hwrite : hostWrite s.mem who a v (chipAt s t) = d.emit .answer 0 [st] [] := by
    simp only [hostWrite, h, Chip.writeEnd, hwho, if_true]
  have hexec : exec (.registerWrite t who a v) s = s.on t (fun m => hostWrite m who a v) := rfl
  rw [hexec, State.on_running _ _ _ hs.1, ← hwrite]

/-- A register write of a word of DDR5. -/
theorem registerWrite_ddr (t : Nat) (who : Fin 20) (a v : Nat) (s : State) (hs : ready s) (hwho : who.val < 4)
    (hw : (chipAt s t).mayWrite who a = stOk) (ha : (chipAt s t).reach a = stOk) (hlo : 0x80000000 ≤ a) (_ : v < 2 ^ 32) :
    ∃ u, exec (.registerWrite t who a v) s = .next u ∧ answered u stOk ∧ u.mem = s.mem.apply (.ddr (a - 0x80000000) (beBytes 4 v)) ∧
      u.chip.win = s.chip.win ∧ u.chip.cnt = s.chip.cnt ∧ regsKept s u [] := by
  refine ⟨_, registerWrite_answers hs hwho (Chip.writeWord_ddr s.mem v hw ha hlo), rfl, ?_, rfl, rfl, fun _ _ _ => rfl⟩
  simp [hs.2, Mem.applyAll]

/-- A register write of TMG_SLEW. -/
theorem registerWrite_tmgSlew (t : Nat) (who : Fin 20) (v : Nat) (s : State) (hs : ready s) (hwho : who.val < 4)
    (hr : s.chip.hasRight who 4 = true) (hd : (chipAt s t).domOn 1 = true) (hlo : 1 ≤ v) (hhi : v ≤ s.chip.slewMax) (hv : v < 65536)
    (hsh : s.chip.alm.load.shadow = []) :
    ∃ u, exec (.registerWrite t who 0xA000C v) s = .next u ∧ answered u stOk ∧ u.chip.rg R.TMG_SLEW_SLEW 0 = v ∧ u.mem = s.mem := by
  have hbook := (chipAt s t).evtUpdate_booked
  have hreg : (chipAt s t).evtUpdate.registerWrite s.mem .direct who 0xA000C v = ((chipAt s t).evtUpdate.wg R.TMG_SLEW_SLEW 0 v, stOk) :=
    registerWrite_slew s.mem hwho ((hbook.read (·.alm.load.shadow) fun _ _ _ _ _ => rfl).trans hsh) hv hlo
      (hhi.trans_eq (hbook.read (·.slewMax) fun _ _ _ _ _ => rfl).symm)
  have hword : (chipAt s t).writeWord s.mem who 0xA000C v = some (((chipAt s t).evtUpdate.wg R.TMG_SLEW_SLEW 0 v).evtUpdate, stOk) := by
    have hmod : v % 4294967296 = v := by omega
    simp [Chip.writeWord, mayWrite_slew hwho hr, reach_slew hd, writeHeld_slew, Chip.wordWrite, placeAt_slew, hmod, hreg]
  have hleft := (hbook.wg R.TMG_SLEW_SLEW 0 v).trans (Chip.evtUpdate_booked _)
  refine ⟨_, registerWrite_answers hs hwho hword, rfl, ?_, ?_⟩
  · have hread : (((chipAt s t).evtUpdate.wg R.TMG_SLEW_SLEW 0 v).evtUpdate).rg R.TMG_SLEW_SLEW 0 = v := by
      rw [hleft.read (·.rg R.TMG_SLEW_SLEW 0) fun _ _ _ _ _ => rfl, Chip.rg_wg_same]
      exact Nat.mod_eq_of_lt hv
    exact hread
  · exact congrArg s.mem.applyAll ((hleft.read (·.mout) fun _ _ _ _ _ => rfl).trans hs.2)

/-- Settles O28: each access goes through the checks of its right and its place to one word, to DDR5 or to TMG_SLEW, and its response is
sent at once. -/
theorem accessCommands : Obligations.AccessCommands := by
  refine ⟨zcpRead_exact, zcpWrite_exact, zcpModify_exact, zcpBulkWrite_ddr, ?_, ?_, registerWrite_ddr, registerWrite_tmgSlew⟩
  · intro t l q a n s hs h hb hok hlo hhi hcap hpos hmax hr
    exact zcpBulk_reads (op := 1) hs h hb hok hlo hhi hcap hpos (.inl ⟨rfl, hmax⟩) hr
  · intro t l q a n s hs h hb hok hlo hhi hcap hpos hmax hr
    exact zcpBulk_reads (op := 2) hs h hb hok hlo hhi hcap hpos (.inr ⟨rfl, hmax⟩) hr

/-- Settles O54: the write ends at the check that fails, on the chip as it was. -/
theorem registerWriteNeedsItsRight : Obligations.RegisterWriteNeedsItsRight := by
  intro t who a v s hs hwho h
  refine ⟨_, registerWrite_answers hs hwho (Chip.writeWord_refused s.mem v h), rfl, fun _ _ _ => rfl, rfl, rfl, ?_⟩
  exact congrArg s.mem.applyAll hs.2

/-- Settles O58: the reset state is concrete, and its fields are read one by one. -/
theorem resetLeavesAssemblyAndBootDomains : Obligations.ResetLeavesAssemblyAndBootDomains := by
  refine ⟨rfl, ?_, ?_, rfl, rfl, rfl, rfl⟩ <;> decide

end Sys2Proof.Safety
end

section
/-! PROOFS. The statements of the family 01_architecture.md, which speak of every state of a running terminal. Both commands end in the check
for a wavelength in SYNC; in ANNOUNCE with none the terminal enters LISTEN (R117), which brings SCH_SPILL_STAT (R213) up to date for the
region of each queued frame, its block / 8. A `State` may name any number as that block, and nothing in the statements keeps it below the 32
of R13: the register then lies at 0x60080 + 4 * (block / 8), wherever that is. -/

namespace Sys2Proof.Machine

open Sys2Proof Sys2Proof.Safety

/-! ## A queued frame whose block is none of the 32 -/

/-- The block number whose region has its SCH_SPILL_STAT.USED at the address of a field. -/
def strayBlk (f : Fld) : Nat := 8 * ((f.reg - R.SCH_SPILL_STAT_USED.reg) / R.SCH_SPILL_STAT_USED.stride)

/-- A frame of a block that waits in HBM (R189): USED of its region is 1 MiB. -/
def spilledFrame (blk : Nat) : QFrame where
  f := { id := 0, bytes := [], len := 1, known := true, origin := 1, wl := 0, src := 0, blk := blk, pass := 0, gen := 0, bus := 0, tsNs := 0,
         tsFrac := 0, tsOk := false, entry := false, role := 0, grown := 0, claim := 0, polCh := 0, stomp := false }
  q := 0
  cells := 0
  reserve := false
  spill := some 0
  member := none
  at_ := 0

/-- The terminal after reset, but in ANNOUNCE, with some register fields set, and with one queued frame, whose block is the stray one of
a field. -/
def announcing (f : Fld) (ws : List (Fld × Nat × Nat)) : State :=
  { State.reset with
    chip := { ws.foldl (fun c w => c.wg w.1 w.2.1 w.2.2) (Chip.reset.wg R.TRK_MODE_CODE 0 3) with qs.frames := [spilledFrame (strayBlk f)] } }

/-- In that state Q0 and the eight port islands of its blocks are ON, so that all nine monitors of region 0 take part. -/
def announcingPaced : State :=
  announcing R.HLT_PACE_MEAS_MEAS ((R.PWR_DOM_STAT_PSTATE, 9, 2) :: (List.range 8).map fun m => (R.PWR_ISL_HOLD_P_STATE, m, 2))

/-- A field reads what was stored under the key of another one, where both have one key. -/
theorem Chip.rg_of_key_eq {c : Chip} {f g : Fld} {i j v : Nat} (hkey : f.key i = g.key j) (h : c.regs.find (f.key i) = some v) :
    c.rg g j = v := by
  rw [Chip.rg, Tab.get, ← hkey, h, Option.getD_some]

/-- What is claimed of the state that a command of a running terminal answers is claimed of the chip that the command leaves. -/
theorem State.after_of_on {s : State} {t : Nat} {f : Mem → Chip → Chip} {P : State → Prop} (hrun : s.chip.running = true)
    (h : ∃ u, s.on t f = .next u ∧ P u) : P (s.after (f s.mem (s.chip.tick t))) := by
  obtain ⟨u, hu, hp⟩ := h
  rw [State.on_running s t f hrun] at hu
  cases hu
  exact hp

/-- The window of region 0 in which every monitor measured 2 leaves USED of the stray region at 1. -/
theorem spillUsed_paceWindowEnd_announcing :
    (paceWindowEnd 0 (List.replicate 9 2) (chipAt announcingPaced 100000000)).regs.find
      (R.SCH_SPILL_STAT_USED.key (strayBlk R.HLT_PACE_MEAS_MEAS / 8)) = some 1 := by
  decide +kernel

/-- The loss of the spare engine leaves USED of the stray region at 1. -/
theorem spillUsed_engineLost_announcing :
    (engineLost 16 (chipAt (announcing R.HLT_SPARE_CHIP_TRK_ENG []) 0)).regs.find
      (R.SCH_SPILL_STAT_USED.key (strayBlk R.HLT_SPARE_CHIP_TRK_ENG / 8)) = some 1 := by
  decide +kernel

end Sys2Proof.Machine

namespace Sys2Proof.Safety

open Sys2Proof Sys2Proof.Machine

/-- Refutes O1 by its first clause: the frame in the queue names a block so high that SCH_SPILL_STAT.USED of its region is HLT_PACE_MEAS.MEAS
of region 0. The window writes the lowest value there, 2; then the fall from ANNOUNCE to LISTEN writes USED, 1. No premise keeps the
blocks of queued frames below 32. -/
theorem not_paceWindowCommands : ¬ Obligations.PaceWindowCommands := by
  rintro ⟨hwindow, -⟩
  have hstep := hwindow 100000000 0 (List.replicate 9 2) 2 announcingPaced (by decide +kernel) (by decide +kernel) (by decide +kernel)
    (by decide +kernel) (by decide) (by decide) (by decide +kernel) (by decide +kernel)
  have hon : exec (.paceWindowEnd 100000000 0 (List.replicate 9 2)) announcingPaced =
      announcingPaced.on 100000000 (fun _ => paceWindowEnd 0 (List.replicate 9 2)) := rfl
  rw [hon] at hstep
  obtain ⟨hmeas, -⟩ := State.after_of_on (by decide +kernel) hstep
  have hused := Chip.rg_of_key_eq (g := R.HLT_PACE_MEAS_MEAS) (j := 0) (by decide) spillUsed_paceWindowEnd_announcing
  rw [State.after_chip, Chip.rg_done] at hmeas
  exact absurd (hmeas.symm.trans hused) (by decide)

/-- Refutes O44 by its clause of ENGINE_LOST: the frame in the queue names a block so high that SCH_SPILL_STAT.USED of its region is
HLT_SPARE_CHIP.TRK_ENG. The loss of the spare engine writes 0 there; then the fall from ANNOUNCE to LISTEN writes USED, 1. No premise
keeps the blocks of queued frames below 32. -/
theorem not_wearSwapAndUnitCommands : ¬ Obligations.WearSwapAndUnitCommands := by
  rintro ⟨-, -, -, -, -, -, -, -, hlost, -⟩
  have hstep := hlost 0 16 (announcing R.HLT_SPARE_CHIP_TRK_ENG []) (by decide +kernel) (by decide +kernel)
  have hon : exec (.engineLost 0 16) (announcing R.HLT_SPARE_CHIP_TRK_ENG []) =
      (announcing R.HLT_SPARE_CHIP_TRK_ENG []).on 0 (fun _ => engineLost 16) := rfl
  rw [hon] at hstep
  obtain ⟨-, hspare, -⟩ := State.after_of_on (by decide +kernel) hstep
  have hused := Chip.rg_of_key_eq (g := R.HLT_SPARE_CHIP_TRK_ENG) (j := 0) (by decide) spillUsed_engineLost_announcing
  rw [State.after_chip, Chip.rg_done] at hspare
  exact absurd ((hspare rfl).symm.trans hused) (by decide)

end Sys2Proof.Safety
end

section
/-! PROOFS. The hand-over window of an Octave boundary (02_almanac.md R78). -/

namespace Sys2Proof.Machine

open Sys2Proof Sys2Proof.Safety

/-- The chip with its hand-over window open or shut. -/
def Chip.withWindow (c : Chip) (b : Bool) : Chip := { c with alm.window := b }

theorem Chip.withWindow_self {c : Chip} {b : Bool} (h : c.alm.window = b) : c.withWindow b = c := by
  subst h
  rfl

/-- 20 µs are a fiftieth of the Octave of 1 ms, with no remainder. -/
theorem le_octU_div_iff (x : Int) : x ≤ octU / 50 ↔ 50 * x ≤ octU := by
  have hexact : octU / 50 = 1310720000 ∧ octU = 50 * 1310720000 := by decide
  omega

/-- R78: the window opens 20 µs before the boundary. -/
theorem handoverWindowOpen_eq (c : Chip) : handoverWindowOpen c = c.withWindow (c.alm.window || decide (50 * c.octDue.2 ≤ octU)) := by
  simp only [handoverWindowOpen, le_octU_div_iff]
  split
  case isTrue h => rw [h.1, decide_eq_true h.2]; rfl
  case isFalse h =>
    refine (Chip.withWindow_self ?_).symm
    cases hw : c.alm.window
    · have hfar : ¬ 50 * c.octDue.2 ≤ octU := fun hnear => h ⟨hw, hnear⟩
      rw [decide_eq_false hfar, Bool.false_or]
    · rw [Bool.true_or]

/-- R78: the window shuts 2 µs after the boundary, unless that of the next boundary has opened. -/
theorem handoverWindowClose_eq (c : Chip) :
    handoverWindowClose c = c.withWindow (c.alm.window && (decide (50 * c.octDue.2 ≤ octU) || decide (c.now < c.alm.octAt + 2 * usPs))) := by
  simp only [handoverWindowClose, Chip.octOpen, le_octU_div_iff]
  split
  case isTrue h =>
    obtain ⟨hw, hnext, hold⟩ := h
    rw [hw, Bool.true_and] at hnext
    rw [hnext, decide_eq_false (Nat.not_lt.mpr hold), Bool.or_false, Bool.and_false]
    rfl
  case isFalse h =>
    refine (Chip.withWindow_self ?_).symm
    cases hw : c.alm.window
    · rw [Bool.false_and]
    · rw [hw, Bool.true_and] at h
      rw [Bool.true_and, eq_comm, Bool.or_eq_true, decide_eq_true_iff, decide_eq_true_iff]
      by_contra hshut
      obtain ⟨hfar, hold⟩ := not_or.mp hshut
      exact h ⟨rfl, decide_eq_false hfar, Nat.not_lt.mp hold⟩

end Sys2Proof.Machine

namespace Sys2Proof.Safety

open Sys2Proof Sys2Proof.Machine

/-- A command that leaves the registers, the counters, the table window and the waiting changes of the memories as they were keeps all of
them. -/
theorem kept_after {s : State} {c : Chip} (hs : ready s) (hregs : c.regs = s.chip.regs) (hcnt : c.cnt = s.chip.cnt)
    (hwin : c.win = s.chip.win) (hmout : c.mout = s.chip.mout) : kept s (s.after c) [] := by
  refine ⟨fun g j _ => ?_, hcnt, hwin, ?_⟩
  · rw [State.after_chip, Chip.rg_done, Chip.rg, hregs]; rfl
  · rw [State.after_mem, hmout, hs.2]; rfl

/-- Settles O57: each of the two commands sets the window by the two distances and nothing else. -/
theorem handoverWindowOpensAndCloses : Obligations.HandoverWindowOpensAndCloses := by
  refine ⟨fun t s hs => ⟨_, State.on_running s t (fun _ => handoverWindowOpen) hs.1, ?_, ?_⟩,
    fun t s hs => ⟨_, State.on_running s t (fun _ => handoverWindowClose) hs.1, ?_, ?_⟩⟩
  · rw [handoverWindowOpen_eq]; rfl
  · rw [handoverWindowOpen_eq]; exact kept_after hs rfl rfl rfl rfl
  · rw [handoverWindowClose_eq]; rfl
  · rw [handoverWindowClose_eq]; exact kept_after hs rfl rfl rfl rfl

end Sys2Proof.Safety
end

section
/-! PROOFS. JUBILEE (02_almanac.md R83, R86): entry, CANCEL and the release of the old generation. -/

namespace Sys2Proof.Machine

open Sys2Proof Sys2Proof.Safety

/-! ## What the loops of the local ports leave (R306, R317): every register below those of the ports, 0xC0000 -/

theorem Chip.loseTx_rg (c : Chip) (p : Nat) (g : Fld) (j : Nat) : (c.loseTx p).rg g j = c.rg g j := by
  unfold Chip.loseTx
  dsimp only
  split <;> rfl

section
variable {g : Fld} {j : Nat} (hg : g.key j < 32 * 0xC0000)
include hg

theorem Chip.rg_wg_ports {f : Fld} (hf : 0xC0000 ≤ f.reg) (c : Chip) (i v : Nat) : (c.wg f i v).rg g j = c.rg g j :=
  Chip.rg_wg_other _ _ _ _ _ _ (by simp only [Fld.key] at hg ⊢; omega)

theorem Chip.setLink_rg_below (c : Chip) (p st : Nat) : (c.setLink p st).rg g j = c.rg g j := by
  unfold Chip.setLink
  split
  · rfl
  · rw [Chip.rg_wg_ports hg (by decide), Chip.rg_wg_ports hg (by decide)]

theorem Chip.trainStart_rg_below (c : Chip) (p : Nat) : (c.trainStart p).rg g j = c.rg g j := c.setLink_rg_below hg p 1

theorem Chip.portDown_rg_below (c : Chip) (p : Nat) : (c.portDown p).rg g j = c.rg g j := by
  have hdown (l : PortSt) :
      ({ ((((c.loseTx p).setLink p 0).inc C.PRT_LINK_DOWN p).wg R.PRT_STAT_RX_IDLE p 0).wg R.PRT_STAT_RF p 0 with pt := l } : Chip).rg g j =
        c.rg g j := by
    rw [Chip.rg_mk, Chip.rg_wg_ports hg (by decide), Chip.rg_wg_ports hg (by decide), Chip.inc_eq, Chip.rg_incBy, Chip.setLink_rg_below hg,
      Chip.loseTx_rg]
  unfold Chip.portDown
  dsimp only
  split
  · rfl
  · split
    · exact hdown _
    · exact hdown _

/-- A port that leaves its loop changes registers of the ports only. -/
theorem Chip.loopTo_none_rg_below (c : Chip) (p : Nat) : (c.loopTo p 0).rg g j = c.rg g j := by
  have hloop (l : PortSt) : ({ c.wg R.PRT_LOOP_LOOP p 0 with pt := l } : Chip).rg g j = c.rg g j := Chip.rg_wg_ports hg (by decide) c p 0
  simp only [Chip.loopTo, ne_eq, not_true_eq_false, false_and, if_false]
  split
  · split
    · rw [Chip.trainStart_rg_below hg, hloop]
    · rw [Chip.portDown_rg_below hg, hloop]
  · exact hloop _

theorem Chip.loopsClear_rg_below (c : Chip) : c.loopsClear.rg g j = c.rg g j :=
  forN_keeps 128 _ (·.rg g j) (fun p d => by
    rw [Chip.rg_wg_ports hg (by decide), Chip.rg_wg_ports hg (by decide), Chip.rg_wg_ports hg (by decide), Chip.loopTo_none_rg_below hg]) c

end

/-! ## Changes of the mode and of ALM_JUB_STAT.STATE -/

/-- What every change of the mode writes: the mode, its predecessor, its cause, the event and the instant (R117). -/
def Chip.modeNoted (c : Chip) (code cause : Nat) : Chip :=
  { (((c.wg R.TRK_MODE_PREV 0 c.mode).wg R.TRK_MODE_CODE 0 code).wg R.TRK_MODE_CAUSE 0 cause).wg R.TRK_MODE_EVT_MODE_CHG 0 1 with
    up.modeAt := c.now }

theorem Chip.modeNoted_mode (c : Chip) {code : Nat} (hcode : code < 16) (cause : Nat) : (c.modeNoted code cause).mode = code := by
  refine (Chip.rg_wg_other _ R.TRK_MODE_EVT_MODE_CHG R.TRK_MODE_CODE 0 0 _ (by decide)).trans ?_
  rw [Chip.rg_wg_other _ _ _ _ _ _ (by decide), Chip.rg_wg_same]
  exact Nat.mod_eq_of_lt hcode

theorem Chip.modeNoted_prev (c : Chip) (hmode : c.mode < 16) (code cause : Nat) : (c.modeNoted code cause).rg R.TRK_MODE_PREV 0 = c.mode := by
  refine (Chip.rg_wg_other _ R.TRK_MODE_EVT_MODE_CHG R.TRK_MODE_PREV 0 0 _ (by decide)).trans ?_
  rw [Chip.rg_wg_other _ _ _ _ _ _ (by decide), Chip.rg_wg_other _ _ _ _ _ _ (by decide), Chip.rg_wg_same]
  exact Nat.mod_eq_of_lt hmode

theorem Chip.modeNoted_cause (c : Chip) (code : Nat) {cause : Nat} (hcause : cause < 256) :
    (c.modeNoted code cause).rg R.TRK_MODE_CAUSE 0 = cause := by
  refine (Chip.rg_wg_other _ R.TRK_MODE_EVT_MODE_CHG R.TRK_MODE_CAUSE 0 0 _ (by decide)).trans ?_
  rw [Chip.rg_wg_same]
  exact Nat.mod_eq_of_lt hcause

/-- OPERATIONAL may be entered from every mode; from LOOPBACK the loops are cleared too. -/
theorem Chip.setMode_operational (c : Chip) (cause : Nat) :
    c.setMode 5 cause = if c.mode = 9 then (c.modeNoted 5 cause).loopsClear else c.modeNoted 5 cause := by
  simp [Chip.setMode, Chip.modeNoted]

/-- Entry to JUBILEE from OPERATIONAL has no effect beside it. -/
theorem Chip.setMode_jubilee {c : Chip} (hmode : c.mode = 5) (cause : Nat) : c.setMode 10 cause = c.modeNoted 10 cause := by
  simp [Chip.setMode, Chip.modeNoted, hmode]

theorem Chip.setMode_operational_mode (c : Chip) (cause : Nat) : (c.setMode 5 cause).mode = 5 := by
  have hnoted := c.modeNoted_mode (code := 5) (by decide) cause
  rw [Chip.setMode_operational]
  split
  · exact (Chip.loopsClear_rg_below (by decide) _).trans hnoted
  · exact hnoted

theorem Chip.jubState_rg_other (c : Chip) (st : Nat) {g : Fld} {j : Nat} (hst : R.ALM_JUB_STAT_STATE.key 0 ≠ g.key j)
    (hevt : R.ALM_EVT_JUB_CHG.key 0 ≠ g.key j) : (c.jubState st).rg g j = c.rg g j := by
  unfold Chip.jubState
  split
  · rfl
  · rw [Chip.rg_wg_other _ _ _ _ _ _ hevt, Chip.rg_wg_other _ _ _ _ _ _ hst]

theorem Chip.jubState_self (c : Chip) {st : Nat} (hst : st < 4) : (c.jubState st).rg R.ALM_JUB_STAT_STATE 0 = st := by
  unfold Chip.jubState
  split
  case isTrue h => exact h
  case isFalse h =>
    rw [Chip.rg_wg_other _ _ _ _ _ _ (by decide), Chip.rg_wg_same]
    exact Nat.mod_eq_of_lt hst

/-- With no candidate, entry to JUBILEE moves ALM_JUB_STAT.STATE at most. -/
theorem Chip.jubReady_rg_other {c : Chip} (hcand : c.alm.cand = none) {g : Fld} {j : Nat} (hst : R.ALM_JUB_STAT_STATE.key 0 ≠ g.key j)
    (hevt : R.ALM_EVT_JUB_CHG.key 0 ≠ g.key j) : c.jubReady.rg g j = c.rg g j := by
  unfold Chip.jubReady
  split
  · rw [hcand]
    exact Chip.jubState_rg_other _ _ hst hevt
  · rfl

end Sys2Proof.Machine

namespace Sys2Proof.Safety

open Sys2Proof Sys2Proof.Machine

/-- A host write to a register of a domain that is ON is answered with the status of its work, and the chip is what its work leaves. -/
theorem on_answeredIn {s : State} {t d st : Nat} {f : Chip → Chip × Nat} {e : Chip} (hs : ready s) (hd : s.chip.domOn d = true)
    (hf : f (chipAt s t) = (e, st)) :
    s.on t (fun _ c => c.answeredIn d f) = .next (s.after (e.emit .answer 0 [st] [])) := by
  have hdom : (chipAt s t).domOn d = true := hd
  rw [State.on_running _ _ _ hs.1, Chip.answeredIn, hdom, if_pos rfl, Chip.answered, hf]

/-- An answer changes no register. -/
theorem rg_answered (s : State) (e : Chip) (st : Nat) (g : Fld) (j : Nat) : (s.after (e.emit .answer 0 [st] [])).chip.rg g j = e.rg g j := by
  rw [State.after_chip, Chip.rg_done, Chip.rg_emit]

/-- JUBILEE is entered (R83 step 1). -/
theorem jubEnter_operational (t : Nat) (s : State) (hs : ready s) (hd : s.chip.domOn 2 = true) (hmode : s.chip.mode = 5)
    (hcand : s.chip.alm.cand = none) :
    ∃ u, exec (.jubEnter t) s = .next u ∧ u.chip.mode = 10 ∧ u.chip.rg R.TRK_MODE_PREV 0 = 5 ∧ u.chip.rg R.TRK_MODE_CAUSE 0 = 16 ∧
      answered u stOk := by
  have hat : (chipAt s t).mode = 5 := hmode
  have henter : jubEnter (chipAt s t) = (((chipAt s t).modeNoted 10 16).jubReady, stOk) := by
    simp only [jubEnter, hat, Chip.setMode_jubilee hat, ne_eq, not_true_eq_false, if_false]
  have hready {g : Fld} {j : Nat} (hst : R.ALM_JUB_STAT_STATE.key 0 ≠ g.key j) (hevt : R.ALM_EVT_JUB_CHG.key 0 ≠ g.key j) :=
    Chip.jubReady_rg_other (c := (chipAt s t).modeNoted 10 16) hcand hst hevt
  refine ⟨_, on_answeredIn hs hd henter, ?_, ?_, ?_, rfl⟩
  · rw [Chip.mode, rg_answered, hready (by decide) (by decide)]
    exact Chip.modeNoted_mode _ (by decide) _
  · rw [rg_answered, hready (by decide) (by decide), Chip.modeNoted_prev _ (by omega), hat]
  · rw [rg_answered, hready (by decide) (by decide), Chip.modeNoted_cause _ _ (by decide)]

/-- CANCEL in JUBILEE (R86). -/
theorem jubCancel_jubilee (t : Nat) (s : State) (hs : ready s) (hd : s.chip.domOn 2 = true) (hmode : s.chip.mode = 10)
    (hwindow : s.chip.alm.window = false) (hfull : s.chip.alm.load.full = false) (_ : s.chip.alm.txns = []) :
    ∃ u, exec (.jubCancel t) s = .next u ∧ u.chip.mode = 5 ∧ u.chip.rg R.ALM_JUB_STAT_STATE 0 = 0 ∧ answered u stOk := by
  have hcancel : jubCancel (chipAt s t) = (((chipAt s t).dropCandidate.setMode 5 16).jubState 0, stOk) := by
    have hat : (chipAt s t).mode = 10 := hmode
    simp [jubCancel, Chip.jubCancel, hat, hfull]
  have hrow : s.on t (fun _ => jubCancelRow) = s.on t (fun _ c => c.answeredIn 2 jubCancel) := by
    rw [State.on_running _ _ _ hs.1, State.on_running _ _ _ hs.1]
    simp [jubCancelRow, hwindow]
  refine ⟨_, hrow.trans (on_answeredIn hs hd hcancel), ?_, ?_, rfl⟩
  · rw [Chip.mode, rg_answered]
    exact (Chip.jubState_rg_other _ _ (by decide) (by decide)).trans (Chip.setMode_operational_mode _ _)
  · rw [rg_answered]
    exact Chip.jubState_self _ (by decide)

/-- The old generation is let go once nothing uses it (R83 step 6). -/
theorem jubOldReleased_unused (t : Nat) (s : State) (hs : ready s) (hheld : s.chip.alm.oldHeld = true)
    (hlive : s.chip.rg R.ALM_RULE_GEN_LIVE 0 ≤ 1) (hretiring : s.chip.mc.retiring = []) :
    ∃ u, exec (.jubOldReleased t) s = .next u ∧ u.chip.alm.oldHeld = false ∧ kept s u [] := by
  have hreleased : jubOldReleased (chipAt s t) = { chipAt s t with alm.oldHeld := false } := if_pos ⟨hheld, hlive, hretiring⟩
  refine ⟨_, State.on_running s t (fun _ => jubOldReleased) hs.1, ?_, ?_⟩
  · rw [hreleased]; rfl
  · rw [hreleased]; exact kept_after hs rfl rfl rfl rfl

/-- Settles O6: entry and CANCEL end in a change of mode that nothing after it takes back; the release writes one mark. -/
theorem jubileeCommands : Obligations.JubileeCommands :=
  ⟨jubEnter_operational, jubCancel_jubilee, jubOldReleased_unused⟩

end Sys2Proof.Safety
end

section
/-! PROOFS. The word of the port-tag table that a transaction stages and lands (02_almanac.md R71; 05_packet_pipeline.md R172):
addresses 0x40000000 to 0x4003FFFB. -/

namespace Sys2Proof.Machine

open Sys2Proof Sys2Proof.Safety

section
variable {a : Nat} (hlo : 0x40000000 ≤ a) (hhi : a < 0x4003FFFC)
include hlo hhi

theorem placeAt_portTag : placeAt a = .table := by
  have hddr : ¬ 0x80000000 ≤ a := by omega
  have htab : inTables a = true := by simp only [inTables, decide_eq_true_eq]; omega
  simp only [placeAt, hddr, htab, if_false, if_true]

theorem inFam_portTag (f : Fld) : inFam f a = false := by
  have hfams : famsAt a = [] := by
    unfold famsAt
    repeat rw [if_neg (by omega)]
  simp only [inFam, fieldsAt, hfams, List.find?_nil, List.any_nil]

theorem shadAt_portTag : shadAt a = none := by
  unfold shadAt
  repeat rw [if_neg (by omega)]

theorem domAt_portTag : domAt a = 6 := by
  unfold domAt
  repeat rw [if_neg (by omega)]
  rw [if_pos (by omega)]

/-- A session with the right of the pipeline may write the table. -/
theorem Chip.mayWrite_portTag {c : Chip} {s : Nat} (hs : s < 4) (hr : c.hasRight s 2 = true) : c.mayWrite s a = stOk := by
  have hcfg : sessCfgOf a = none := by
    simp only [sessCfgOf, List.find?_eq_none, List.mem_range, decide_eq_true_eq]
    omega
  have hvault : inVault a = false := by simp only [inVault, decide_eq_false_iff_not]; omega
  have hbit : writeBit a = some 2 := by
    unfold writeBit
    repeat rw [if_neg (by omega)]
    rw [if_pos (by omega)]
  have hcore : ¬ 4 ≤ s := by omega
  simp [Chip.mayWrite, hcfg, hvault, hbit, hcore, hr]

/-- A staged word of the table is its low seven bits, whoever stages it. -/
theorem Chip.stageAll_portTag (halign : a % 4 = 0) (c : Chip) (m : Mem) {w : Via} (hw : w.staged = true) (who v : Nat) :
    c.stageAll m w who [(a, v)] = (c.winSet a (v % 128), none) := by
  have hbarred : stageBarred a = false := by simp only [stageBarred, decide_eq_false_iff_not]; omega
  have hport : a < 0x40040000 := by omega
  have hlast : a ≠ 0x4003FFFC := by omega
  simp [Chip.stageAll, hbarred, Chip.wordWrite, placeAt_portTag hlo hhi, Chip.tableWrite, hport, hlast, hw]

theorem Chip.stagedOk_portTag (c : Chip) : c.stagedOk a = true := by
  have hact : actionAt a = (none, false) := by
    unfold actionAt
    repeat rw [if_neg (by omega)]
  simp only [Chip.stagedOk, placeAt_portTag hlo hhi, Chip.actionOk, hact]

end

end Sys2Proof.Machine
end

section
/-! PROOFS. BEGIN, STAGE, COMMIT and ABORT of a session (02_almanac.md R70 to R77; 11_host_control_and_dma.md R342): what each does to the
commit engine, and its answer. -/

namespace Sys2Proof.Machine

open Sys2Proof Sys2Proof.Safety

/-! ## The commit engine alone -/

/-- The chip with another state of the Almanac and the commit engine. -/
def Chip.withAlm (c : Chip) (x : AlmSt) : Chip := { c with alm := x }

theorem Chip.Booked.withAlm {c d : Chip} (h : c.Booked d) (x : AlmSt) : (c.withAlm x).Booked (d.withAlm x) :=
  h.map (·.withAlm x) fun _ _ _ _ _ => rfl

theorem Chip.AnswersAs.withAlm {c d : Chip} {s : Nat} (h : c.AnswersAs d s) (x : AlmSt) : c.AnswersAs (d.withAlm x) s :=
  ⟨h.clear, h.empty, h.isOpen, h.mac, h.alike⟩

/-- The ID of a transaction takes 16 bits. -/
theorem Txn.id_lt {x : Txn} (hslot : x.slot < 64) : x.id < 256 ^ 2 := by
  simp only [Txn.id, txnId]
  omega

/-- The record of a transaction that has ended (R77). -/
def Txn.ended (x : Txn) (state cause addr octave time : Nat) : TxnDone where
  id := x.id
  owner := x.owner
  state := state
  cause := cause
  kind := x.kind
  writes := x.writes.length
  octave := octave
  addr := addr
  time := time

/-- A transaction has left its slot, and its record is the newest. -/
def AlmSt.ended (l : AlmSt) (x : Txn) (d : TxnDone) : AlmSt :=
  { l with txns := l.txns.filter (fun y => decide (y.slot ≠ x.slot)), done := (d :: l.done).take 256 }

/-- A transaction has taken a new form in its slot. -/
def AlmSt.put (l : AlmSt) (x : Txn) : AlmSt := { l with txns := l.txns.map (fun y => if y.slot = x.slot then x else y) }

theorem Chip.txnSet_eq (c : Chip) (x : Txn) : c.txnSet x = c.withAlm (c.alm.put x) := rfl

/-- A transaction whose session did not ask to be told ends in the commit engine alone. -/
theorem Chip.txnRecord_silent {c : Chip} {x : Txn} (hn : x.notify = false) (state cause addr octave : Nat) :
    c.txnRecord x state cause addr octave = c.withAlm (c.alm.ended x (x.ended state cause addr octave c.now)) := by
  simp only [Chip.txnRecord, Chip.notify, hn, Bool.false_eq_true, false_and, if_false]
  rfl

/-- A transaction of a session changes no required pace where none of its writes sets an operating point. -/
theorem Chip.paceBad_host {x : Txn} (ho : x.origin = .host) (hw : ∀ w ∈ x.writes, inFam R.PWR_RGN_OP_TARGET w.1 = false) (c : Chip) :
    c.paceBad x = false := by
  simp only [Chip.paceBad, ho, Bool.or_false, List.any_eq_false]
  intro w hmem
  simp [hw w hmem]

/-! ## The four requests -/

/-- A transaction of a session as BEGIN opens it (R70). -/
def Txn.opened (slot seq owner : Nat) : Txn where
  slot := slot
  seq := seq
  owner := owner
  origin := .host
  pending := false
  writes := []
  kind := 0
  value := 0
  order := 0
  notify := false

/-- BEGIN opens a transaction in the free slot and names it (R70). -/
theorem Chip.beginTxn_free {c : Chip} {slot : Nat} (h : c.txnFree = some slot) (s : Nat) :
    ∃ x, c.beginTxn s = (c.withAlm x, .ok (beBytes 2 (txnId slot (Tab.get 0 x.slotSeq slot)) ++ zeros 2)) ∧
      x.txns = c.alm.txns ++ [Txn.opened slot (Tab.get 0 x.slotSeq slot) s] := by
  refine ⟨(c.txnOpen slot s .host).1.alm, ?_, ?_⟩
  · simp only [Chip.beginTxn, h, Chip.txnOpen, Tab.get_set_same]
    rfl
  · simp only [Chip.txnOpen, Tab.get_set_same]
    rfl

/-- The one item of a STAGE body. -/
theorem stageItems_one {b : List Byte} {id a v : Nat} (hb : b = beBytes 2 id ++ zeros 2 ++ beBytes 4 a ++ beBytes 4 v) (ha : a < 2 ^ 32)
    (hv : v < 2 ^ 32) : b.length = 12 ∧ stageItems b = [(a, v)] := by
  have hlen : b.length = 12 := by simp [hb, zeros]
  have haddr : word b 4 = a := beAt_field (beBytes 2 id ++ zeros 2) (beBytes 4 v) hb (by simp [zeros]) (by omega)
  have hdata : word b 8 = v := beAt_field (beBytes 2 id ++ zeros 2 ++ beBytes 4 a) [] (by simp [hb]) (by simp [zeros]) (by omega)
  exact ⟨hlen, by simp [stageItems, hlen, haddr, hdata]⟩

/-- STAGE of one word of the port-tag table as the first write of a transaction (R71). -/
theorem Chip.stageTxn_portTag {c : Chip} {m : Mem} {s a v : Nat} {x : Txn} {b : List Byte} (hs : s < 4)
    (hb : b = beBytes 2 x.id ++ zeros 2 ++ beBytes 4 a ++ beBytes 4 v) (hslot : x.slot < 64) (hx : c.txnBy s x.id = some x)
    (hpend : x.pending = false) (hnone : x.writes = []) (hlo : 0x40000000 ≤ a) (hhi : a < 0x4003FFFC) (halign : a % 4 = 0) (hv : v < 2 ^ 32)
    (hr : c.hasRight s 2 = true) :
    c.stageTxn m s b = (c.withAlm (c.alm.put { x with writes := [(a, v)] }), .ok []) := by
  have hid : half b 0 = x.id := beAt_field [] (zeros 2 ++ beBytes 4 a ++ beBytes 4 v) (by simp [hb]) rfl (Txn.id_lt hslot)
  obtain ⟨hlen, hitems⟩ := stageItems_one hb (by omega) hv
  simp [Chip.stageTxn, hlen, hitems, hid, hx, hpend, hnone, Chip.mayWrite_portTag hlo hhi hs hr,
    Chip.stageAll_portTag hlo hhi halign _ _ (w := .check) rfl, Chip.stagedOk_portTag hlo hhi, Chip.txnSet_eq]

/-- What COMMIT at the next boundary makes of a transaction (R72). -/
def Txn.committed (x : Txn) (value order : Nat) (notify : Bool) : Txn :=
  { x with pending := true, kind := 0, value := value, notify := notify, order := order }

/-- COMMIT with POINT_KIND 0 of a transaction with no writes (R72). -/
theorem Chip.commitTxn_next {c : Chip} {s : Nat} {x : Txn} {b : List Byte} (notify : Bool) (hb : b = beBytes 2 x.id ++ [0] ++ zeros 13)
    (hslot : x.slot < 64) (hx : c.txnBy s x.id = some x) (hpend : x.pending = false) (hnone : x.writes = []) (ho : x.origin = .host) :
    c.commitTxn s notify b =
      (c.withAlm (AlmSt.put { c.alm with orders := c.alm.orders + 1 } (x.committed c.nextPoint c.alm.orders notify)),
        .ok (beBytes 8 c.nextPoint)) := by
  have hlen : b.length = 16 := by simp [hb, zeros]
  have hid : half b 0 = x.id := beAt_field [] ([0] ++ zeros 13) (by simp [hb]) rfl (Txn.id_lt hslot)
  have hkind : byteAt b 2 = 0 := beAt_field (beBytes 2 x.id) (zeros 13) hb (by simp) (by decide)
  have hpace (y : Txn) (hy : y.origin = .host) (hw : y.writes = []) : c.paceBad y = false := Chip.paceBad_host hy (by simp [hw]) c
  simp [Chip.commitTxn, Txn.committed, hlen, hid, hx, hkind, hpend, Chip.late, hpace, hnone, ho, Chip.pointOctave, Chip.txnSet_eq,
    Chip.withAlm]

/-- ABORT of a transaction whose session did not ask to be told (R342). -/
theorem Chip.abortTxn_silent {c : Chip} {s : Nat} {x : Txn} {b : List Byte} (hb : b = beBytes 2 x.id ++ zeros 2) (hslot : x.slot < 64)
    (hx : c.txnBy s x.id = some x) (ho : x.origin = .host) (hn : x.notify = false) :
    c.abortTxn s b = (c.withAlm (c.alm.ended x (x.ended 4 7 0 c.alm.octave c.now)), .ok []) := by
  have hlen : b.length = 4 := by simp [hb, zeros]
  have hid : half b 0 = x.id := beAt_field [] (zeros 2) hb rfl (Txn.id_lt hslot)
  simp [Chip.abortTxn, hlen, hid, hx, Chip.txnAbort, Chip.txnRecord_silent hn, Chip.txnOrigin, ho]

/-! ## The requests begin (R387): a session with the right of transactions -/

section
variable {c : Chip} {s : Nat} {r : Req} (hr : c.hasRight s 8 = true) (m : Mem) (e : Env)
include hr

theorem Chip.zcpStart_begin (ht : r.typ = 5) (hb : r.body = []) : c.zcpStart m s r e = ((c.beginTxn s).1, some (c.beginTxn s).2) := by
  simp only [Chip.zcpStart, ht, hr, hb, Bool.true_eq_false, if_false, List.isEmpty_nil, if_true]

theorem Chip.zcpStart_stage (ht : r.typ = 6) : c.zcpStart m s r e = ((c.stageTxn m s r.body).1, some (c.stageTxn m s r.body).2) := by
  simp only [Chip.zcpStart, ht, hr, Bool.true_eq_false, if_false]

theorem Chip.zcpStart_commit (ht : r.typ = 7) :
    c.zcpStart m s r e = ((c.commitTxn s (bit r.flags 2) r.body).1, some (c.commitTxn s (bit r.flags 2) r.body).2) := by
  simp only [Chip.zcpStart, ht, hr, Bool.true_eq_false, if_false]

theorem Chip.zcpStart_abort (ht : r.typ = 8) : c.zcpStart m s r e = ((c.abortTxn s r.body).1, some (c.abortTxn s r.body).2) := by
  simp only [Chip.zcpStart, ht, hr, Bool.true_eq_false, if_false]

end

end Sys2Proof.Machine

namespace Sys2Proof.Safety

open Sys2Proof Sys2Proof.Machine

/-- What a session reads of the commit engine once its request is taken is what the chip held before. -/
theorem zcpTaken_alm (s : State) (t : Nat) (l : List Byte) : ((chipAt s t).zcpTaken l).alm = s.chip.alm :=
  ((chipAt s t).zcpTaken_booked l).read (·.alm) fun _ _ _ _ _ => rfl

theorem zcpTaken_txnBy (s : State) (t : Nat) (l : List Byte) (n id : Nat) : ((chipAt s t).zcpTaken l).txnBy n id = s.chip.txnBy n id :=
  ((chipAt s t).zcpTaken_booked l).read (·.txnBy n id) fun _ _ _ _ _ => rfl

/-- A request of a session whose work changes the commit engine alone and ends with OK is answered so, and leaves it so. -/
theorem zcpRow_withAlm {s : State} {t typ : Nat} {l : List Byte} {q : ZcpMsg} {x : AlmSt} {body : List Byte} {p : Chip × Reply} (hs : ready s)
    (h : requestOk (chipAt s t) l q typ) (htyp : typ ≠ 0x85)
    (hstart : ((chipAt s t).zcpTaken l).zcpStart s.mem (zcpSess l) q.req ⟨none⟩ = (p.1, some p.2))
    (hp : p = (((chipAt s t).zcpTaken l).withAlm x, .ok body)) :
    ∃ u, s.on t (fun m => zcpRow typ l ⟨none⟩ m) = .next u ∧ responded s u l q body ∧ u.chip.alm = x := by
  subst hp
  obtain ⟨u, hu, hnew, ⟨o, n, hub⟩, -⟩ :=
    zcpRow_answers hs h hstart ((answersAs_zcpTaken h).withAlm x) (((chipAt s t).zcpTaken_booked l).withAlm x) htyp
  exact ⟨u, hu, hnew, hub.read (·.alm) fun _ _ _ _ _ => rfl⟩

/-- BEGIN (R70, R342). -/
theorem zcpBegin_free (t : Nat) (l : List Byte) (q : ZcpMsg) (slot : Nat) (s : State) (hs : ready s) (h : requestOk (chipAt s t) l q 5)
    (hr : s.chip.hasRight (zcpSess l) 8 = true) (hb : q.body = []) (hfree : s.chip.txnFree = some slot) :
    ∃ u, exec (.zcpBegin t l) s = .next u ∧ responded s u l q (beBytes 2 (txnId slot (Tab.get 0 u.chip.alm.slotSeq slot)) ++ zeros 2) ∧
      u.chip.alm.txns = s.chip.alm.txns ++ [Txn.opened slot (Tab.get 0 u.chip.alm.slotSeq slot) (zcpSess l)] := by
  have hright := ((answersAs_zcpTaken h).hasRight 8).trans hr
  have htaken : ((chipAt s t).zcpTaken l).txnFree = some slot :=
    (((chipAt s t).zcpTaken_booked l).read (·.txnFree) fun _ _ _ _ _ => rfl).trans hfree
  obtain ⟨x, hbegin, htxns⟩ := Chip.beginTxn_free htaken (zcpSess l)
  obtain ⟨u, hu, hnew, rfl⟩ := zcpRow_withAlm hs h (by decide) (Chip.zcpStart_begin hright _ _ (typ_of_requestOk h) hb) hbegin
  exact ⟨u, hu, hnew, by rw [htxns, zcpTaken_alm]⟩

/-- STAGE (R71). -/
theorem zcpStage_portTag (t : Nat) (l : List Byte) (q : ZcpMsg) (x : Txn) (a v : Nat) (s : State) (hs : ready s)
    (h : requestOk (chipAt s t) l q 6) (hr : s.chip.hasRight (zcpSess l) 8 = true) (hw : s.chip.hasRight (zcpSess l) 2 = true)
    (hb : q.body = beBytes 2 x.id ++ zeros 2 ++ beBytes 4 a ++ beBytes 4 v) (hslot : x.slot < 64) (_ : x.seq < 1024)
    (hx : s.chip.txnBy (zcpSess l) x.id = some x) (hpend : x.pending = false) (hnone : x.writes = []) (hlo : 0x40000000 ≤ a)
    (hhi : a < 0x4003FFFC) (halign : a % 4 = 0) (hv : v < 2 ^ 32) :
    ∃ u, exec (.zcpStage t l) s = .next u ∧ responded s u l q [] ∧
      u.chip.alm.txns = s.chip.alm.txns.map (fun y => if y.slot = x.slot then { x with writes := [(a, v)] } else y) := by
  have hans := answersAs_zcpTaken h
  have hstage := Chip.stageTxn_portTag (m := s.mem) hans.lt hb hslot ((zcpTaken_txnBy ..).trans hx) hpend hnone hlo hhi halign hv
    ((hans.hasRight 2).trans hw)
  obtain ⟨u, hu, hnew, halm⟩ :=
    zcpRow_withAlm hs h (by decide) (Chip.zcpStart_stage ((hans.hasRight 8).trans hr) _ _ (typ_of_requestOk h)) hstage
  exact ⟨u, hu, hnew, by rw [halm, zcpTaken_alm]; rfl⟩

/-- COMMIT at the next boundary (R72). -/
theorem zcpCommit_next (t : Nat) (l : List Byte) (q : ZcpMsg) (x : Txn) (s : State) (hs : ready s) (h : requestOk (chipAt s t) l q 7)
    (hr : s.chip.hasRight (zcpSess l) 8 = true) (hb : q.body = beBytes 2 x.id ++ [0] ++ zeros 13) (hslot : x.slot < 64) (_ : x.seq < 1024)
    (hx : s.chip.txnBy (zcpSess l) x.id = some x) (hpend : x.pending = false) (hnone : x.writes = []) (ho : x.origin = .host) :
    ∃ u, exec (.zcpCommit t l) s = .next u ∧ responded s u l q (beBytes 8 (chipAt s t).nextPoint) ∧
      u.chip.alm.txns = s.chip.alm.txns.map
        (fun y => if y.slot = x.slot then x.committed (chipAt s t).nextPoint s.chip.alm.orders (bit q.flags 2) else y) := by
  have hans := answersAs_zcpTaken h
  have hnext : ((chipAt s t).zcpTaken l).nextPoint = (chipAt s t).nextPoint :=
    ((chipAt s t).zcpTaken_booked l).read (·.nextPoint) fun _ _ _ _ _ => rfl
  have hcommit := Chip.commitTxn_next (bit q.flags 2) hb hslot ((zcpTaken_txnBy s t l _ _).trans hx) hpend hnone ho
  obtain ⟨u, hu, hnew, halm⟩ :=
    zcpRow_withAlm hs h (by decide) (Chip.zcpStart_commit ((hans.hasRight 8).trans hr) _ _ (typ_of_requestOk h)) hcommit
  refine ⟨u, hu, ?_, ?_⟩
  · rw [← hnext]; exact hnew
  · rw [halm, ← hnext, zcpTaken_alm]; rfl

/-- ABORT (R342). -/
theorem zcpAbort_silent (t : Nat) (l : List Byte) (q : ZcpMsg) (x : Txn) (s : State) (hs : ready s) (h : requestOk (chipAt s t) l q 8)
    (hr : s.chip.hasRight (zcpSess l) 8 = true) (hb : q.body = beBytes 2 x.id ++ zeros 2) (hslot : x.slot < 64) (_ : x.seq < 1024)
    (hx : s.chip.txnBy (zcpSess l) x.id = some x) (ho : x.origin = .host) (hn : x.notify = false) :
    ∃ u, exec (.zcpAbort t l) s = .next u ∧ responded s u l q [] ∧
      u.chip.alm.txns = s.chip.alm.txns.filter (fun y => decide (y.slot ≠ x.slot)) ∧
      u.chip.alm.done.head? = some (x.ended 4 7 0 s.chip.alm.octave (max s.chip.now t)) := by
  have hans := answersAs_zcpTaken h
  have hnow : ((chipAt s t).zcpTaken l).now = max s.chip.now t := ((chipAt s t).zcpTaken_booked l).read (·.now) fun _ _ _ _ _ => rfl
  have habort := Chip.abortTxn_silent hb hslot ((zcpTaken_txnBy s t l _ _).trans hx) ho hn
  rw [hnow, zcpTaken_alm] at habort
  obtain ⟨u, hu, hnew, halm⟩ :=
    zcpRow_withAlm hs h (by decide) (Chip.zcpStart_abort ((hans.hasRight 8).trans hr) _ _ (typ_of_requestOk h)) habort
  exact ⟨u, hu, hnew, by rw [halm]; rfl, by rw [halm]; rfl⟩

end Sys2Proof.Safety
end

section
/-! PROOFS. COMMIT_POINT and TXN_STATUS_EXPIRE (02_almanac.md R74, R77, R79): the token of a TIME point that one transaction has reached. -/

namespace Sys2Proof.Machine

open Sys2Proof Sys2Proof.Safety

/-! ## One transaction takes the token (R74, R76) -/

section
variable {c : Chip} {x : Txn} {a v : Nat} (ho : x.origin = .host) (hw : x.writes = [(a, v)]) (hlo : 0x40000000 ≤ a) (hhi : a < 0x4003FFFC)
include ho hw hlo hhi

theorem Chip.ruleChange_portTag : c.ruleChange x = false := by
  simp [Chip.ruleChange, Chip.txnPrep, ho, hw, inFam_portTag hlo hhi]

/-- Nothing stops a staged word of the port-tag table at a TIME point while PIPE is ON. -/
theorem Chip.pointStop_portTag (hd : c.domOn 6 = true) : c.pointStop x false [] = none := by
  have hpace : c.paceBad x = false := Chip.paceBad_host ho (by simp [hw, inFam_portTag hlo hhi]) c
  simp [Chip.pointStop, hw, domAt_portTag hlo hhi, hd, Chip.txnPrep, ho, hpace, Chip.ruleChange_portTag ho hw hlo hhi]

/-- The transaction commits: its word lands, and it leaves its slot with the record COMMITTED. -/
theorem Token.take_portTag (m : Mem) (halign : a % 4 = 0) (hd : c.domOn 6 = true) (hn : x.notify = false) (hmem : x ∈ c.alm.txns) (n : Nat) :
    (Token.mk c [] false false).take m x false n =
      ⟨(c.winSet a (v % 128)).withAlm (c.alm.ended x (x.ended 3 0 0 n c.now)), [a], false, false⟩ := by
  have hthere : c.alm.txns.any (fun y => decide (y = x)) = true := List.any_eq_true.mpr ⟨x, hmem, decide_eq_true rfl⟩
  simp [Token.take, hthere, Chip.pointStop_portTag ho hw hlo hhi hd, hw, Chip.stageAll_portTag hlo hhi halign _ _ (w := .land) rfl,
    Chip.stagedOk_portTag hlo hhi, Chip.ruleChange_portTag ho hw hlo hhi, Chip.txnPrep, ho, Chip.txnRecord_silent hn, Chip.takeOrigin]

end

/-! ## The token of a point with one transaction -/

/-- The repairs of a commit are reported, and leave the commit engine and the table window as they are (R431). -/
theorem Chip.sramRepair_alm (c : Chip) : c.sramRepair.alm = c.alm :=
  foldl_keeps (fun (d : Chip) w => d.emit .copied w [] []) (·.alm) (fun _ _ => rfl) c.pw.sramDue { c with pw.sramDue := [] }

theorem Chip.sramRepair_winGet (c : Chip) (a : Nat) : c.sramRepair.winGet a = c.winGet a :=
  foldl_keeps (fun (d : Chip) w => d.emit .copied w [] []) (·.winGet a) (fun _ _ => rfl) c.pw.sramDue { c with pw.sramDue := [] }

/-- A word that was written reads so, whatever the commit engine holds. -/
theorem Chip.winGet_winSet_withAlm (c : Chip) (a v : Nat) (x : AlmSt) : ((c.winSet a v).withAlm x).winGet a = v % 2 ^ 32 := by
  simp [Chip.winGet, Chip.withAlm, Chip.winSet]

/-- A lone pending transaction whose instant has come takes the token (R79). -/
theorem commitPoint_lone {m : Mem} {c : Chip} {x : Txn} (htxns : c.alm.txns = [x]) (hpend : x.pending = true) (hkind : x.kind = 2)
    (hdue : timePoint x.value ≤ c.lNow) (ho : x.origin = .host) {d : Chip} {seen : List Nat}
    (htake : (Token.mk c [] false false).take m x false c.alm.octave = ⟨d, seen, false, false⟩) :
    commitPoint m c = d.sramRepair := by
  have hnew : (Token.mk d seen false false).newRules = d := rfl
  simp [commitPoint, htxns, hpend, hkind, hdue, Chip.token, byOrder, ho, htake, hnew]

end Sys2Proof.Machine

namespace Sys2Proof.Safety

open Sys2Proof Sys2Proof.Machine

/-- COMMIT_POINT of one transaction with one word of the port-tag table (R79). -/
theorem commitPoint_portTag (t : Nat) (x : Txn) (a v : Nat) (s : State) (hs : ready s) (htxns : s.chip.alm.txns = [x]) (hpend : x.pending = true)
    (hkind : x.kind = 2) (hdue : timePoint x.value ≤ (chipAt s t).lNow) (ho : x.origin = .host) (hn : x.notify = false)
    (hw : x.writes = [(a, v)]) (hlo : 0x40000000 ≤ a) (hhi : a < 0x4003FFFC) (halign : a % 4 = 0) (hd : (chipAt s t).domOn 6 = true) :
    ∃ u, exec (.commitPoint t) s = .next u ∧ u.chip.winGet a = v % 128 ∧ u.chip.alm.txns = [] ∧
      u.chip.alm.done.head? = some
        { id := x.id, owner := x.owner, state := 3, cause := 0, kind := 2, writes := 1, octave := s.chip.alm.octave, addr := 0,
          time := max s.chip.now t } := by
  have htake := Token.take_portTag ho hw hlo hhi s.mem halign hd hn (by simp [htxns]) (chipAt s t).alm.octave
  have hpoint := commitPoint_lone (c := chipAt s t) htxns hpend hkind hdue ho htake
  have halm : (commitPoint s.mem (chipAt s t)).alm = s.chip.alm.ended x (x.ended 3 0 0 s.chip.alm.octave (max s.chip.now t)) := by
    rw [hpoint, Chip.sramRepair_alm]
    rfl
  refine ⟨_, State.on_running s t commitPoint hs.1, ?_, ?_, ?_⟩
  · rw [State.after_chip, Chip.winGet_done, hpoint, Chip.sramRepair_winGet, Chip.winGet_winSet_withAlm]
    omega
  · rw [State.after_chip, Chip.done_alm, halm]
    simp [AlmSt.ended, htxns]
  · rw [State.after_chip, Chip.done_alm, halm]
    simp [AlmSt.ended, Txn.ended, hkind, hw]

/-- A status that is 1 s old is no longer readable (R77). -/
theorem txnStatusExpire_old (t : Nat) (d : TxnDone) (s : State) (hs : ready s) (_ : d ∈ s.chip.alm.done)
    (hold : d.time + secPs ≤ max s.chip.now t) :
    ∃ u, exec (.txnStatusExpire t) s = .next u ∧ d ∉ u.chip.alm.done ∧ kept s u [] := by
  refine ⟨_, State.on_running s t (fun _ => txnStatusExpire) hs.1, ?_, kept_after hs rfl rfl rfl rfl⟩
  rw [State.after_chip, Chip.done_alm]
  intro hmem
  have hyoung := (List.mem_filter.mp hmem).2
  exact Nat.not_lt.mpr hold (of_decide_eq_true hyoung)

/-- Settles O4: the four requests of a session and the lone transaction of a TIME point change the commit engine, and the word that was
staged, alone. -/
theorem transactionCommands : Obligations.TransactionCommands :=
  ⟨zcpBegin_free, zcpStage_portTag, zcpCommit_next, zcpAbort_silent, commitPoint_portTag, txnStatusExpire_old⟩

end Sys2Proof.Safety
end

section
/-! PROOFS. Two statements of the family 02_almanac.md that fail. The header of an Almanac image may name more bytes than the 256 MiB of
R45: ALM_READ_DONE reads what the header names, and the check of R65 for that length comes at ALM_VERIFY_DONE. And a field of a
shadow set that a READY delta has prepared is LOCKED against every other write (R68). -/

namespace Sys2Proof.Machine

open Sys2Proof Sys2Proof.Safety

/-- The terminal in ASSEMBLY with 8 GiB of DDR5, where a load reads an image at 0 whose header names 512 MiB. -/
def readingLongImage : State :=
  { State.reset with
    chip := (((Chip.reset.wg R.ALM_LOAD_STAT_STATE 0 1).wg R.PWR_DOM_STAT_PSTATE 4 2).wg R.MEM_DDR_STAT_TRAINED 0 1).wg R.MEM_DDR_STAT_CAP 0 8
    mem.ddr := [(16, 0x20)] }

/-- That load takes the length that the header names. -/
theorem almReadDone_longImage :
    (almReadDone true true readingLongImage.mem (chipAt readingLongImage 0)).alm.load.len = 0x20000000 := by
  decide +kernel

/-- A write of TRK_US_GH_SHD for the grants of channel 0 that was held. -/
def heldShadowWrite : HeldWrite := ⟨0x20408, 5, 8⟩

/-- The terminal with the trunk ON where that write is held and a prepared delta holds the PWR field that it is for. -/
def heldBehindDelta : State :=
  { State.reset with
    chip := { Chip.reset.wg R.PWR_DOM_STAT_PSTATE 8 2 with
      alm.held := [heldShadowWrite]
      alm.load.shadow := [(R.TRK_US_GH_SHD_PWR.key 0, 16)] } }

/-- The field keeps its value when the write lands. -/
theorem shadowWriteLand_locked :
    (shadowWriteLand heldBehindDelta.mem (chipAt heldBehindDelta 0)).rg R.TRK_US_GH_SHD_PWR 0 = 0 := by
  decide +kernel

end Sys2Proof.Machine

namespace Sys2Proof.Safety

open Sys2Proof Sys2Proof.Machine

/-- Refutes O3 by its clause of ALM_READ_DONE: the statement has the length of the image as the lesser of the header's 512 MiB and the
256 MiB of R45, and the load takes 512 MiB. -/
theorem not_loaderCommands : ¬ Obligations.LoaderCommands := by
  rintro ⟨-, hread, -⟩
  have hstep := hread 0 0 maxImage readingLongImage (by decide +kernel) (by decide +kernel) (by decide +kernel) (by decide +kernel)
    (by decide +kernel) (by decide +kernel) (by decide +kernel) (by decide +kernel) (by decide +kernel) (by decide +kernel)
  have hon : exec (.almReadDone 0 true true) readingLongImage = readingLongImage.on 0 (fun m => almReadDone true true m) := rfl
  rw [hon] at hstep
  obtain ⟨-, hlen, -⟩ := State.after_of_on (by decide +kernel) hstep
  rw [State.after_chip, Chip.done_alm] at hlen
  exact absurd (hlen.symm.trans almReadDone_longImage) (by decide)

/-- Refutes O5 by its clause of SHADOW_WRITE_LAND: the held write meets a field that a delta has prepared and is LOCKED. No premise keeps
the prepared fields apart from the shadow set. -/
theorem not_octaveCommands : ¬ Obligations.OctaveCommands := by
  rintro ⟨-, -, -, -, hland⟩
  have hstep := hland 0 heldShadowWrite 0 5 heldBehindDelta (by decide +kernel) (by decide +kernel) (by decide) (by decide) (by decide)
    (by decide +kernel) (by decide +kernel) (by decide +kernel)
  have hon : exec (.shadowWriteLand 0) heldBehindDelta = heldBehindDelta.on 0 shadowWriteLand := rfl
  rw [hon] at hstep
  obtain ⟨hpwr, -⟩ := State.after_of_on (by decide +kernel) hstep
  rw [State.after_chip, Chip.rg_done] at hpwr
  exact absurd (shadowWriteLand_locked.symm.trans hpwr) (by decide)

end Sys2Proof.Safety
end

section
/-! PROOFS. The time unit (09_time_and_sync.md R270 to R287): what the check of T-A leaves of the rest of the chip. -/

namespace Sys2Proof.Machine

open Sys2Proof Sys2Proof.Safety

/-- `d` is `c` but for the time unit: its registers, those from 0xA0000 up, and the state beside them and its counters. -/
structure Chip.Timed (c d : Chip) : Prop where
  rg : ∀ (g : Fld) (j : Nat), g.key j < 32 * 0xA0000 → d.rg g j = c.rg g j
  ds : d.ds = c.ds

theorem Chip.Timed.refl (c : Chip) : c.Timed c := ⟨fun _ _ _ => rfl, rfl⟩

theorem Chip.Timed.trans {c d e : Chip} (h : c.Timed d) (k : d.Timed e) : c.Timed e :=
  ⟨fun g j hg => (k.rg g j hg).trans (h.rg g j hg), k.ds.trans h.ds⟩

theorem Chip.Timed.ite {p : Prop} [Decidable p] {c d e : Chip} (h : c.Timed d) (k : c.Timed e) : c.Timed (if p then d else e) := by
  split
  · exact h
  · exact k

/-- A write of a register of the time unit. -/
theorem Chip.Timed.wg {c d : Chip} (h : c.Timed d) {f : Fld} (hf : 0xA0000 ≤ f.reg) (i v : Nat) : c.Timed (d.wg f i v) := by
  refine ⟨fun g j hg => (Chip.rg_wg_other _ _ _ _ _ _ ?_).trans (h.rg g j hg), h.ds⟩
  simp only [Fld.key] at hg ⊢
  omega

/-- A change of the state of the time unit. -/
theorem Chip.Timed.tm {c d : Chip} (h : c.Timed d) (x : TmSt) : c.Timed { d with tm := x } := ⟨h.rg, h.ds⟩

theorem Chip.Timed.inc {c d : Chip} (h : c.Timed d) (k : Ctr) (i : Nat) : c.Timed (d.inc k i) := ⟨h.rg, h.ds⟩

theorem Chip.Timed.setDom {c d : Chip} (h : c.Timed d) (n : Nat) (x : Dom) : c.Timed (d.setDom n x) := .ite (h.tm _) (h.tm _)

theorem Chip.clk_timed (c : Chip) : c.Timed c.clk := (Chip.Timed.refl c).tm _

theorem Chip.select_timed (c : Chip) (d : Nat) : c.Timed (c.select d) := by
  have hsel : c.Timed ((c.clk.wg R.TMG_STAT_SEL 0 d).wg R.TMG_EVT_SEL_CHG 0 1) := (c.clk_timed.wg (by decide) _ _).wg (by decide) _ _
  exact .ite (.refl c) (.ite (((hsel.wg (by decide) _ _).inc _ _).tm _) hsel)

theorem Chip.reselect_timed (c : Chip) : c.Timed c.reselect := by
  have hself : c.Timed c := .refl c
  exact .ite (c.select_timed _) (.ite (c.select_timed _) (.ite (.ite (hself.tm _) (.ite hself ((c.select_timed _).tm _)))
    (.ite (.ite hself ((c.select_timed _).tm _)) hself)))

theorem Chip.initialSet_timed (c : Chip) : c.Timed c.initialSet :=
  .ite ((((c.clk_timed.tm _).setDom _ _).wg (f := R.TMG_DOM_FREQ_S) (by decide) _ _).wg (by decide) _ _) (.refl c)

theorem Chip.vigilEnter_timed (c : Chip) : c.Timed c.vigilEnter :=
  (((c.clk_timed.tm _).wg (by decide) _ _).wg (by decide) _ _).wg (by decide) _ _

theorem Chip.timeStat_timed (c : Chip) : c.Timed c.timeStat := by
  have hvigil : c.Timed (if c.timeState = 3 ∧ c.rg R.TMG_STAT_STATE 0 ≠ 3 then c.vigilEnter else c) := .ite c.vigilEnter_timed (.refl c)
  have hstate := Chip.Timed.ite (p := c.timeState ≠ c.rg R.TMG_STAT_STATE 0)
    ((hvigil.wg (f := R.TMG_STAT_STATE) (by decide) 0 c.timeState).wg (f := R.TMG_EVT_STATE_CHG) (by decide) 0 1) hvigil
  exact ((Chip.Timed.ite (hstate.tm _) hstate).wg (by decide) _ _).wg (by decide) _ _

theorem Chip.timeEval_timed (c : Chip) : c.Timed c.timeEval :=
  (c.reselect_timed.trans (Chip.initialSet_timed _)).trans (Chip.timeStat_timed _)

theorem Chip.domLose_timed (c : Chip) (d cause : Nat) : c.Timed (c.domLose d cause) := by
  have hlost := ((((c.clk_timed.setDom d { c.clk.dom d with rate := 0, overs := 0 }).wg (f := R.TMG_DOM_STAT_DSTATE) (by decide) d 3).wg
    (f := R.TMG_DOM_STAT_REF_OK) (by decide) d 0).wg (f := R.TMG_DOM_STAT_CAUSE) (by decide) d cause).wg
    (f := R.TMG_DOM_FREQ_S) (by decide) d (unsgn 32 (satInt 32 0))
  exact .ite ((Chip.Timed.ite (hlost.wg (by decide) _ _) (hlost.wg (by decide) _ _)).trans (Chip.timeEval_timed _)) (.refl c)

theorem Chip.domValid_timed (c : Chip) (d : Nat) : c.Timed (c.domValid d) :=
  .ite (((((Chip.Timed.refl c).wg (by decide) _ _).wg (by decide) _ _).wg (by decide) _ _).setDom _ _) (.refl c)

/-- The check of T-A (R275) acts on the time unit only. -/
theorem Chip.aCheck_timed (c : Chip) : c.Timed c.aCheck := by
  unfold Chip.aCheck
  split
  · exact .refl c
  · split
    · exact c.domLose_timed 0 _
    · exact .ite ((c.domValid_timed 0).trans (Chip.timeEval_timed _)) (.refl c)

end Sys2Proof.Machine
end

section
/-! PROOFS. The start of a receiver of the trunk (03_trunk_downstream.md R91 to R93, R98). -/

namespace Sys2Proof.Machine

open Sys2Proof Sys2Proof.Safety

/-! ## Shared operations on a wavelength -/

/-- Every register below TRK_SIDE_STAT (R115) is none of those that follow a defect. -/
theorem not_followKeys_of_lt {n : Nat} (h : n < 32 * 0x30008) : ¬ followKeys n := by
  rintro (e | ⟨m, e⟩) <;>
    simp only [Fld.key, R.TRK_SIDE_STAT_REQ, R.TRK_CHMON_STATE_RAW, R.TRK_CHMON_STATE_DEF, R.TRK_CHMON_STATE_CHG] at e <;> omega

/-- A field whose lowest bit is none of 0, 8 and 16 is none of those that follow a defect. -/
theorem not_followKeys_of_lsb {g : Fld} (hlsb : g.lsb < 32) (h0 : g.lsb ≠ 0) (h8 : g.lsb ≠ 8) (h16 : g.lsb ≠ 16) (j : Nat) :
    ¬ followKeys (g.key j) := by
  rintro (e | ⟨m, e⟩) <;>
    simp only [Fld.key, R.TRK_SIDE_STAT_REQ, R.TRK_CHMON_STATE_RAW, R.TRK_CHMON_STATE_DEF, R.TRK_CHMON_STATE_CHG] at e <;> omega

/-- The mode does not follow a wavelength's framing. -/
theorem Chip.setFstate_mode (c : Chip) (k : Fin 16) (st : Nat) : (c.setFstate k st).mode = c.mode := by
  refine Chip.setFstate_rg _ _ _ _ _ ?_ ?_ (Fld.key_ne_of_lsb _ _ _ _ (by decide) (by decide) (by decide)) ?_
  · revert k; decide
  · exact Fld.key_ne_of_lsb _ _ _ _ (by decide) (by decide) (by decide)
  · rintro (e | ⟨m, e⟩)
    · exact absurd e (by decide)
    · simp only [Fld.key, R.TRK_MODE_CODE, R.TRK_CHMON_STATE_RAW, R.TRK_CHMON_STATE_DEF, R.TRK_CHMON_STATE_CHG] at e
      omega

/-- ACQ is written by nothing that follows the framing. -/
theorem Chip.setFstate_acq (c : Chip) (k : Fin 16) (st : Nat) : (c.setFstate k st).rg R.TRK_DS_STAT_ACQ k = c.rg R.TRK_DS_STAT_ACQ k :=
  Chip.setFstate_rg _ _ _ _ _ (Fld.key_ne_of_lsb _ _ _ _ (by decide) (by decide) (by decide))
    (Fld.key_ne_of_lsb _ _ _ _ (by decide) (by decide) (by decide)) (Fld.key_ne_of_lsb _ _ _ _ (by decide) (by decide) (by decide))
    (not_followKeys_of_lsb (by decide) (by decide) (by decide) (by decide) _)

/-- The dispersion of a side and wavelength (R91) does not follow the framing. -/
theorem Chip.setFstate_sideCd (c : Chip) (k st j : Nat) : (c.setFstate k st).rg R.TRK_SIDE_CD_VALID j = c.rg R.TRK_SIDE_CD_VALID j :=
  Chip.setFstate_rg _ _ _ _ _ (Fld.key_ne_of_lsb _ _ _ _ (by decide) (by decide) (by decide))
    (Fld.key_ne_of_lsb _ _ _ _ (by decide) (by decide) (by decide)) (Fld.key_ne_of_lsb _ _ _ _ (by decide) (by decide) (by decide))
    (not_followKeys_of_lsb (by decide) (by decide) (by decide) (by decide) _)

/-- TRK_DS_CFG is written by nothing that follows the framing. -/
theorem Chip.setFstate_cfg (c : Chip) (k : Fin 16) (st : Nat) {g : Fld} (hreg : g.reg = 0x20000) (hstride : g.stride = 0x1000)
    (hlsb : g.lsb < 32) : (c.setFstate k st).rg g k = c.rg g k := by
  refine Chip.setFstate_rg _ _ _ _ _ ?_ ?_ ?_ (not_followKeys_of_lt ?_) <;>
    simp only [Fld.key, hreg, hstride, R.TRK_DS_STAT_FSTATE, R.TRK_DS_STAT_LOF, R.TRK_DS_EVT_CHG] <;> omega

@[simp] theorem Chip.setEng_mode (c : Chip) (k : Nat) (e : Eng) : (c.setEng k e).mode = c.mode := rfl

theorem Chip.aCheck_eng (c : Chip) (k : Nat) : c.aCheck.eng k = c.eng k := by
  rw [Chip.eng, c.aCheck_timed.ds, Chip.eng]

/-- The check of T-A leaves the registers of the engines. -/
theorem Chip.aCheck_rg_ds (c : Chip) {g : Fld} (k : Fin 16) (hreg : g.reg < 0x21000) (hstride : g.stride = 0x1000) (hlsb : g.lsb < 32) :
    c.aCheck.rg g k = c.rg g k :=
  c.aCheck_timed.rg g k (by simp only [Fld.key, hstride]; omega)

/-- In a mode that the loss of the downstream does not end, its check (R117) is that of T-A. -/
theorem Chip.syncCheck_assembly {c : Chip} (h : c.mode = 0) : c.syncCheck = c.aCheck := by
  simp [Chip.syncCheck, h]

/-! ## Acquisition (R91, R93) -/

theorem Chip.dsAcquire_acq (c : Chip) (k : Nat) : (c.dsAcquire k false).rg R.TRK_DS_STAT_ACQ k =
    if (c.eng k).forceCold = false ∧ c.rg R.TRK_SIDE_CD_VALID (16 * c.pathSide + k) = 1 then 2 else 1 := by
  have hwarm : (!false && !(c.eng k).forceCold && c.rb R.TRK_SIDE_CD_VALID (16 * c.pathSide + k)) =
      decide ((c.eng k).forceCold = false ∧ c.rg R.TRK_SIDE_CD_VALID (16 * c.pathSide + k) = 1) := by
    simp [Chip.rb, Bool.decide_and]
  simp only [Chip.dsAcquire, Chip.setEng_rg, Chip.rg_wg_same, hwarm, decide_eq_true_eq]
  split <;> rfl

theorem Chip.dsAcquire_acq_cold (c : Chip) (k : Nat) : (c.dsAcquire k true).rg R.TRK_DS_STAT_ACQ k = 1 :=
  (Chip.setEng_rg ..).trans (Chip.rg_wg_same ..)

theorem Chip.dsAcquire_rg_other (c : Chip) (k : Nat) (cold : Bool) {g : Fld} {j : Nat} (h : R.TRK_DS_STAT_ACQ.key k ≠ g.key j) :
    (c.dsAcquire k cold).rg g j = c.rg g j := Chip.rg_wg_other _ _ _ _ _ _ h

@[simp] theorem Chip.dsAcquire_eng (c : Chip) (k : Nat) (cold : Bool) :
    (c.dsAcquire k cold).eng k = { c.eng k with step := 2, at_ := c.now, forceCold := false, cands := [] } := Chip.setEng_eng _ _ _

theorem Chip.dsAcquire_mode (c : Chip) (k : Fin 16) (cold : Bool) : (c.dsAcquire k cold).mode = c.mode :=
  Chip.dsAcquire_rg_other _ _ _ (Fld.key_ne_of_lsb _ _ _ _ (by decide) (by decide) (by decide))

/-! ## A receiver starts (R92, R93) -/

theorem setBit_of_bit {v i : Nat} (h : bit v i = true) : setBit v i = v := if_pos h

theorem Chip.dsStart_enable (c : Chip) (k : Fin 16) : (c.dsStart k).rg R.TRK_DS_CFG_ENABLE k = 1 := by
  refine (Chip.setFstate_cfg _ k 0 rfl rfl (by decide)).trans ((Chip.setEng_rg ..).trans ?_)
  rw [Chip.rg_wg_other _ _ _ _ _ _ (Fld.key_ne_of_lsb _ _ _ _ (by decide) (by decide) (by decide)), Chip.rg_wg_same]
  rfl

theorem Chip.dsStart_freq (c : Chip) (k : Fin 16) : (c.dsStart k).rg R.TRK_DS_CFG_FREQ_N k = c.rg R.TRK_DS_CFG_FREQ_N k := by
  refine (Chip.setFstate_cfg _ k 0 rfl rfl (by decide)).trans ((Chip.setEng_rg ..).trans ?_)
  rw [Chip.rg_wg_other _ _ _ _ _ _ (Fld.key_ne_of_lsb _ _ _ _ (by decide) (by decide) (by decide)),
    Chip.rg_wg_other _ _ _ _ _ _ (Fld.key_ne_of_lsb _ _ _ _ (by decide) (by decide) (by decide))]

theorem Chip.dsStart_fstate (c : Chip) (k : Fin 16) : (c.dsStart k).rg R.TRK_DS_STAT_FSTATE k = 0 := Chip.setFstate_self _ _ _ k.isLt

theorem Chip.dsStart_step (c : Chip) (k : Nat) : ((c.dsStart k).eng k).step = 1 := by
  simp only [Chip.dsStart, Chip.setFstate_eng, Chip.setEng_eng]

/-- ENABLE and TIM_EN written to a receiver that is off, with FREQ_N in its range, start it on that FREQ_N. -/
theorem dsCfgWrite_starts {c : Chip} {k v : Nat} (henable : bit v 0 = true) (htim : bit v 1 = true) (hcold : bit v 2 = false)
    (hfreq : freqDsOk (bits v 16 16) = true) (hoff : c.rg R.TRK_DS_CFG_ENABLE k = 0) :
    ∃ d : Chip, d.rg R.TRK_DS_CFG_FREQ_N k = bits v 16 16 ∧ dsCfgWrite k v c = (d.dsStart k, stOk) := by
  have hlsb {f g : Fld} {x : Chip} {w : Nat} (hf : f.lsb < 32) (hg : g.lsb < 32) (h : f.lsb ≠ g.lsb) : (x.wg f k w).rg g k = x.rg g k :=
    Chip.rg_wg_other _ _ _ _ _ _ (Fld.key_ne_of_lsb _ _ _ _ hf hg h)
  have htuned := Chip.rg_wg_same ((c.wg R.TRK_DS_CFG_TIM_EN k (bitN v 1)).wg R.TRK_DS_CFG_EVT_EN k (bitN v 3)) R.TRK_DS_CFG_FREQ_N k (bits v 16 16)
  have hstill : ((((c.wg R.TRK_DS_CFG_TIM_EN k (bitN v 1)).wg R.TRK_DS_CFG_EVT_EN k (bitN v 3)).wg R.TRK_DS_CFG_FREQ_N k (bits v 16 16))).rg
      R.TRK_DS_CFG_ENABLE k = 0 := by
    rw [hlsb (by decide) (by decide) (by decide), hlsb (by decide) (by decide) (by decide), hlsb (by decide) (by decide) (by decide), hoff]
  generalize hd : ((c.wg R.TRK_DS_CFG_TIM_EN k (bitN v 1)).wg R.TRK_DS_CFG_EVT_EN k (bitN v 3)).wg R.TRK_DS_CFG_FREQ_N k (bits v 16 16) = d at *
  rw [show R.TRK_DS_CFG_FREQ_N.width = 16 from rfl, bits_mod] at htuned
  by_cases hmiss : 2 ≤ bits v 8 4
  · refine ⟨d.wg R.TRK_DS_CFG_LOF_MISS k (bits v 8 4), ?_, ?_⟩
    · rw [hlsb (by decide) (by decide) (by decide), htuned]
    · simp [dsCfgWrite, hd, hmiss, htim, hcold, henable, hfreq, Chip.rb, hlsb (f := R.TRK_DS_CFG_LOF_MISS) (g := R.TRK_DS_CFG_ENABLE) (by decide) (by decide) (by decide), hstill]
  · exact ⟨d, htuned, by simp [dsCfgWrite, hd, hmiss, htim, hcold, henable, hfreq, Chip.rb, hstill]⟩

/-! ## The DSP locks (R93 step 3) -/

/-- What the DSP found is noted: ACQ, the dispersion of the side and wavelength, and its monitor. -/
def Chip.dspFound (c : Chip) (k : Nat) (cd : Int) : Chip :=
  (((c.wg R.TRK_DS_STAT_ACQ k 3).ws R.TRK_SIDE_CD_CD (16 * c.pathSide + k) cd).wg R.TRK_SIDE_CD_VALID (16 * c.pathSide + k) 1).ws
    R.TRK_DS_MON_CD_CD k cd

/-- A field that shares no lowest bit with what is noted. -/
theorem Chip.dspFound_rg_other (c : Chip) (k : Nat) (cd : Int) {g : Fld} {j : Nat} (hg : g.lsb < 32) (h0 : g.lsb ≠ 0) (h2 : g.lsb ≠ 2)
    (h31 : g.lsb ≠ 31) : (c.dspFound k cd).rg g j = c.rg g j := by
  simp only [Chip.dspFound, Chip.ws_eq]
  rw [Chip.rg_wg_other, Chip.rg_wg_other, Chip.rg_wg_other, Chip.rg_wg_other] <;>
    exact Fld.key_ne_of_lsb _ _ _ _ (by decide) hg (Ne.symm (by assumption))

theorem Chip.dspFound_fstate (c : Chip) (k : Fin 16) (cd : Int) : (c.dspFound k cd).rg R.TRK_DS_STAT_FSTATE k = c.rg R.TRK_DS_STAT_FSTATE k := by
  simp only [Chip.dspFound, Chip.ws_eq]
  rw [Chip.rg_wg_other, Chip.rg_wg_other, Chip.rg_wg_other, Chip.rg_wg_other] <;>
    simp only [Fld.key, R.TRK_DS_STAT_FSTATE, R.TRK_DS_STAT_ACQ, R.TRK_SIDE_CD_CD, R.TRK_SIDE_CD_VALID, R.TRK_DS_MON_CD_CD] <;> omega

theorem Chip.dspFound_acq (c : Chip) (k : Nat) (cd : Int) : (c.dspFound k cd).rg R.TRK_DS_STAT_ACQ k = 3 := by
  simp only [Chip.dspFound, Chip.ws_eq]
  rw [Chip.rg_wg_other, Chip.rg_wg_other, Chip.rg_wg_other, Chip.rg_wg_same]
  · rfl
  all_goals exact Fld.key_ne_of_lsb _ _ _ _ (by decide) (by decide) (by decide)

theorem Chip.dspFound_valid (c : Chip) (k : Nat) (cd : Int) : (c.dspFound k cd).rg R.TRK_SIDE_CD_VALID (16 * c.pathSide + k) = 1 := by
  simp only [Chip.dspFound, Chip.ws_eq]
  rw [Chip.rg_wg_other, Chip.rg_wg_same]
  · rfl
  · exact Fld.key_ne_of_lsb _ _ _ _ (by decide) (by decide) (by decide)

/-- Outside a switch, an engine whose framing has not kept SYNC hunts. -/
theorem dsDspLocked_hunts {c : Chip} {k : Fin 16} (cd : Int) (hrx : c.rxOn k = true) (hstep : (c.eng k).step = 2)
    (hframing : c.rg R.TRK_DS_STAT_FSTATE k ≠ 3) (haps : c.ds.apsStep = 0) :
    dsDspLocked k cd c = ((c.dspFound k cd).setEng k { c.eng k with step := 3, at_ := c.now, cands := [] }).setFstate k 1 := by
  have hframing' := (c.dspFound_fstate k cd).trans_ne hframing
  simp only [Chip.dspFound, Chip.ws_eq] at hframing' ⊢
  simp [dsDspLocked, hrx, hstep, haps, hframing']

/-! ## Candidates (R98) -/

section
variable {c : Chip} {k pos : Nat} {w : List Byte} (hrx : c.rxOn k = true)
include hrx

/-- A PSYNC met in HUNT opens the first candidate. -/
theorem psyncCandidate_opens (hexact : psyncDiff w = 0) (hhunt : c.rg R.TRK_DS_STAT_FSTATE k = 1) (hnone : (c.eng k).cands = []) :
    psyncCandidate k pos w c = (c.setEng k { c.eng k with cands := [⟨pos, 0⟩], step := 4, at_ := c.now }).setFstate k 2 := by
  simp [psyncCandidate, hrx, hexact, hhunt, hnone]

/-- A PSYNC at a new position beside four candidates is dropped. -/
theorem psyncCandidate_drops (hexact : psyncDiff w = 0) (hpresync : c.rg R.TRK_DS_STAT_FSTATE k = 2)
    (hnew : (c.eng k).cands.any (fun x => decide (x.pos = pos)) = false) (hfull : 4 ≤ (c.eng k).cands.length) :
    psyncCandidate k pos w c = c.inc C.TRK_DS_CAND_DROP k := by
  simp only [psyncCandidate, hrx, hexact, hpresync, hnew]
  simp [hfull]

/-- A candidate that has passed once and passes again is SYNC, and the candidates end. -/
theorem candidateTest_syncs {x : Cand} (hpresync : c.rg R.TRK_DS_STAT_FSTATE k = 2)
    (hfind : (c.eng k).cands.find? (fun x => decide (x.pos = pos)) = some x) (hnear : psyncDiff w ≤ 3) (hpasses : x.passes = 1) :
    ∃ e : Eng, e.step = 5 ∧ e.cands = [] ∧ candidateTest k pos w c = ((c.setEng k e).setFstate k 3).aCheck := by
  refine ⟨{ c.eng k with cands := [], misses := 0, sfc := none, jump := none, good := 0, delin := none, step := 5, at_ := c.now }, rfl, rfl, ?_⟩
  simp [candidateTest, hrx, hpresync, hfind, hpasses, Nat.not_lt.mpr hnear]

end

end Sys2Proof.Machine

namespace Sys2Proof.Safety

open Sys2Proof Sys2Proof.Machine

/-- DS_ENABLE (R92, R93). -/
theorem dsEnable_starts (t : Nat) (k : Fin 16) (v : Nat) (s : State) (hs : ready s) (hd : s.chip.domOn 8 = true) (hv : v < 2 ^ 32)
    (henable : bit v 0 = true) (htim : bit v 1 = true) (hcold : bit v 2 = false) (hfreq : freqDsOk (bits v 16 16) = true)
    (hoff : s.chip.rg R.TRK_DS_CFG_ENABLE k = 0) :
    ∃ u, exec (.dsEnable t k v) s = .next u ∧ u.chip.rg R.TRK_DS_CFG_ENABLE k = 1 ∧ u.chip.rg R.TRK_DS_CFG_FREQ_N k = bits v 16 16 ∧
      u.chip.rg R.TRK_DS_STAT_FSTATE k = 0 ∧ (u.chip.eng k).step = 1 ∧ answered u stOk := by
  obtain ⟨d, htuned, hwrite⟩ := dsCfgWrite_starts (c := chipAt s t) henable htim hcold hfreq hoff
  have hword : setBit (v % 2 ^ 32) 0 = v := by rw [Nat.mod_eq_of_lt hv, setBit_of_bit henable]
  refine ⟨_, on_answeredIn (f := dsCfgWrite k (setBit (v % 2 ^ 32) 0)) hs hd (hword.symm ▸ hwrite), ?_, ?_, ?_, ?_, rfl⟩
  · exact (rg_answered ..).trans (d.dsStart_enable k)
  · exact (rg_answered ..).trans ((d.dsStart_freq k).trans htuned)
  · exact (rg_answered ..).trans (d.dsStart_fstate k)
  · exact d.dsStart_step k

/-- DS_COLD (R91). -/
theorem dsCold_forces (t : Nat) (k : Fin 16) (s : State) (hs : ready s) (hd : s.chip.domOn 8 = true) :
    ∃ u, exec (.dsCold t k) s = .next u ∧ (u.chip.eng k).forceCold = true ∧ kept s u [] := by
  refine ⟨_, on_answeredIn (f := fun c => (dsCold k c, stOk)) hs hd rfl, ?_, kept_after hs rfl rfl rfl rfl⟩
  exact congrArg Eng.forceCold (Chip.setEng_eng (chipAt s t) k _)

/-- A command that writes one register field, and beside registers leaves the counters, the table window and the waiting changes of the
memories as they were, keeps all but that field. -/
theorem kept_after_one {s : State} {c : Chip} {f : Fld} {i : Nat} (hs : ready s)
    (hregs : ∀ (g : Fld) (j : Nat), g.key j ≠ f.key i → c.rg g j = s.chip.rg g j) (hcnt : c.cnt = s.chip.cnt)
    (hwin : c.win = s.chip.win) (hmout : c.mout = s.chip.mout) : kept s (s.after c) [f.key i] := by
  refine ⟨fun g j hg => ?_, hcnt, hwin, ?_⟩
  · exact (Chip.rg_done ..).trans (hregs g j (List.ne_of_not_mem_cons hg))
  · rw [State.after_mem, hmout, hs.2]; rfl

/-- DS_OSC_SETTLED (R91, R93 step 2). -/
theorem dsOscSettled_acquires (t : Nat) (k : Fin 16) (s : State) (hs : ready s) (hrx : (chipAt s t).rxOn k = true)
    (hstep : (s.chip.eng k).step = 1) :
    ∃ u, exec (.dsOscSettled t k) s = .next u ∧
      u.chip.rg R.TRK_DS_STAT_ACQ k =
        (if (s.chip.eng k).forceCold = false ∧ s.chip.rg R.TRK_SIDE_CD_VALID (16 * s.chip.pathSide + k) = 1 then 2 else 1) ∧
      (u.chip.eng k).step = 2 ∧ (u.chip.eng k).at_ = max s.chip.now t ∧ kept s u [R.TRK_DS_STAT_ACQ.key k] := by
  have hstep' : ((chipAt s t).eng k).step = 1 := hstep
  have hrow : dsOscSettled k (chipAt s t) = (chipAt s t).dsAcquire k false := if_pos ⟨hrx, hstep'⟩
  have heng := (chipAt s t).dsAcquire_eng k false
  refine ⟨_, State.on_running s t (fun _ => dsOscSettled k) hs.1, ?_⟩
  rw [hrow]
  refine ⟨?_, congrArg Eng.step heng, congrArg Eng.at_ heng, kept_after_one hs (fun g j hg => ?_) rfl rfl rfl⟩
  · exact (chipAt s t).dsAcquire_acq k
  · exact Chip.dsAcquire_rg_other _ _ _ hg.symm

/-- DS_DSP_LOCKED (R93 step 3). -/
theorem dsDspLocked_answers (t : Nat) (k : Fin 16) (cd : Int) (s : State) (hs : ready s) (hrx : (chipAt s t).rxOn k = true)
    (hstep : (s.chip.eng k).step = 2) (hframing : s.chip.rg R.TRK_DS_STAT_FSTATE k ≠ 3) (haps : s.chip.ds.apsStep = 0) :
    ∃ u, exec (.dsDspLocked t k cd) s = .next u ∧ u.chip.rg R.TRK_DS_STAT_ACQ k = 3 ∧ u.chip.rg R.TRK_DS_STAT_FSTATE k = 1 ∧
      u.chip.rg R.TRK_SIDE_CD_VALID (16 * s.chip.pathSide + k) = 1 ∧ (u.chip.eng k).step = 3 := by
  have hrow := dsDspLocked_hunts (c := chipAt s t) cd hrx hstep hframing haps
  refine ⟨_, State.on_running s t (fun _ => dsDspLocked k cd) hs.1, ?_⟩
  rw [hrow]
  refine ⟨?_, Chip.setFstate_self _ _ _ k.isLt, ?_, ?_⟩
  · exact (Chip.setFstate_acq ..).trans ((Chip.setEng_rg ..).trans ((chipAt s t).dspFound_acq k cd))
  · exact (Chip.setFstate_sideCd ..).trans ((Chip.setEng_rg ..).trans ((chipAt s t).dspFound_valid k cd))
  · exact congrArg Eng.step ((Chip.setFstate_eng ..).trans (Chip.setEng_eng ..))

/-- DS_ACQ_TIMEOUT (R93): the receiver acquires again, cold. -/
theorem dsAcqTimeout_assembly (t : Nat) (k : Fin 16) (s : State) (hs : ready s) (hrx : (chipAt s t).rxOn k = true)
    (hfirst : 1 ≤ (s.chip.eng k).step) (hlast : (s.chip.eng k).step ≤ 5)
    (hbound : (s.chip.eng k).at_ + s.chip.dsBound k ≤ max s.chip.now t) (hmode : s.chip.mode = 0) :
    ∃ u, exec (.dsAcqTimeout t k) s = .next u ∧ u.chip.rg R.TRK_DS_STAT_ACQ k = 1 ∧ (u.chip.eng k).step = 2 ∧ (u.chip.eng k).cands = [] := by
  have hdue : (chipAt s t).rxOn k ∧ 1 ≤ ((chipAt s t).eng k).step ∧ ((chipAt s t).eng k).step ≤ 5 ∧
      ((chipAt s t).eng k).at_ + (chipAt s t).dsBound k ≤ (chipAt s t).now := ⟨hrx, hfirst, hlast, hbound⟩
  obtain ⟨d, hd, hrow⟩ : ∃ d : Chip, d.mode = 0 ∧ dsAcqTimeout k (chipAt s t) = (d.dsAcquire k true).syncCheck := by
    refine ⟨if ((chipAt s t).eng k).step = 2 then chipAt s t else (chipAt s t).setFstate k 0, ?_, if_pos hdue⟩
    split
    · exact hmode
    · exact (Chip.setFstate_mode ..).trans hmode
  have heng := (Chip.aCheck_eng (d.dsAcquire k true) k).trans (d.dsAcquire_eng k true)
  refine ⟨_, State.on_running s t (fun _ => dsAcqTimeout k) hs.1, ?_⟩
  rw [hrow, Chip.syncCheck_assembly ((Chip.dsAcquire_mode ..).trans hd)]
  refine ⟨?_, congrArg Eng.step heng, congrArg Eng.cands heng⟩
  exact (Chip.aCheck_rg_ds _ k (by decide) rfl (by decide)).trans (d.dsAcquire_acq_cold k)

/-- PSYNC_CANDIDATE (R98): the first candidate. -/
theorem psyncCandidate_first (t : Nat) (k : Fin 16) (pos : Nat) (w : List Byte) (s : State) (hs : ready s) (hrx : (chipAt s t).rxOn k = true)
    (hexact : psyncDiff w = 0) (hhunt : s.chip.rg R.TRK_DS_STAT_FSTATE k = 1) (hnone : (s.chip.eng k).cands = []) :
    ∃ u, exec (.psyncCandidate t k pos w) s = .next u ∧ u.chip.rg R.TRK_DS_STAT_FSTATE k = 2 ∧ (u.chip.eng k).cands = [⟨pos, 0⟩] ∧
      (u.chip.eng k).step = 4 := by
  have hrow := psyncCandidate_opens (c := chipAt s t) (pos := pos) hrx hexact hhunt hnone
  have heng {c : Chip} {e : Eng} : ((c.setEng k e).setFstate k 2).eng k = e := (Chip.setFstate_eng ..).trans (Chip.setEng_eng ..)
  refine ⟨_, State.on_running s t (fun _ => psyncCandidate k pos w) hs.1, ?_⟩
  rw [hrow]
  exact ⟨Chip.setFstate_self _ _ _ k.isLt, congrArg Eng.cands heng, congrArg Eng.step heng⟩

/-- PSYNC_CANDIDATE (R98): a fifth candidate is dropped and counted. -/
theorem psyncCandidate_fifth (t : Nat) (k : Fin 16) (pos : Nat) (w : List Byte) (s : State) (hs : ready s) (hrx : (chipAt s t).rxOn k = true)
    (hexact : psyncDiff w = 0) (hpresync : s.chip.rg R.TRK_DS_STAT_FSTATE k = 2)
    (hnew : (s.chip.eng k).cands.any (fun x => decide (x.pos = pos)) = false) (hfull : 4 ≤ (s.chip.eng k).cands.length) :
    ∃ u, exec (.psyncCandidate t k pos w) s = .next u ∧
      u.chip.counter C.TRK_DS_CAND_DROP k = (s.chip.counter C.TRK_DS_CAND_DROP k + 1) % 2 ^ 48 ∧ u.chip.ds = s.chip.ds ∧ regsKept s u [] := by
  have hrow := psyncCandidate_drops (c := chipAt s t) hrx hexact hpresync hnew hfull
  refine ⟨_, State.on_running s t (fun _ => psyncCandidate k pos w) hs.1, ?_⟩
  rw [hrow]
  exact ⟨Chip.counter_incBy_same .., rfl, fun _ _ _ => rfl⟩

/-- CANDIDATE_TEST (R98): the third match is SYNC. -/
theorem candidateTest_third (t : Nat) (k : Fin 16) (pos : Nat) (w : List Byte) (x : Cand) (s : State) (hs : ready s)
    (hrx : (chipAt s t).rxOn k = true) (hpresync : s.chip.rg R.TRK_DS_STAT_FSTATE k = 2)
    (hfind : (s.chip.eng k).cands.find? (fun x => decide (x.pos = pos)) = some x) (hnear : psyncDiff w ≤ 3) (hpasses : x.passes = 1) :
    ∃ u, exec (.candidateTest t k pos w) s = .next u ∧ u.chip.rg R.TRK_DS_STAT_FSTATE k = 3 ∧ (u.chip.eng k).step = 5 ∧
      (u.chip.eng k).cands = [] := by
  obtain ⟨e, hstep, hcands, hrow⟩ := candidateTest_syncs (c := chipAt s t) hrx hpresync hfind hnear hpasses
  have heng : ((((chipAt s t).setEng k e).setFstate k 3).aCheck).eng k = e :=
    (Chip.aCheck_eng ..).trans ((Chip.setFstate_eng ..).trans (Chip.setEng_eng ..))
  refine ⟨_, State.on_running s t (fun _ => candidateTest k pos w) hs.1, ?_⟩
  rw [hrow]
  refine ⟨?_, (congrArg Eng.step heng).trans hstep, (congrArg Eng.cands heng).trans hcands⟩
  exact (Chip.aCheck_rg_ds _ k (by decide) rfl (by decide)).trans (Chip.setFstate_self _ _ _ k.isLt)

/-- Settles O7. -/
theorem receiverStartCommands : Obligations.ReceiverStartCommands :=
  ⟨dsEnable_starts, dsCold_forces, dsOscSettled_acquires, dsDspLocked_answers, dsAcqTimeout_assembly, psyncCandidate_first,
    psyncCandidate_fifth, candidateTest_third⟩

end Sys2Proof.Safety
end

section
/-! PROOFS. A defect whose field holds a value of more than one bit (03_trunk_downstream.md R108). -/
namespace Sys2Proof.Machine

open Sys2Proof Sys2Proof.Safety

/-- The terminal after reset with engine 0 locked, where LOS of wavelength 0, a field of one bit, holds 2. -/
def losOutOfWidth : State :=
  { State.reset with
    chip := { Chip.reset with regs := (Chip.reset.wg R.TRK_DS_STAT_ACQ 0 3).regs.set (R.TRK_DS_STAT_LOS.key 0) 2 } }

/-- LOS_CLEAR leaves that field as it is. -/
theorem losClear_losOutOfWidth : (losClear 0 (chipAt losOutOfWidth 0)).rg R.TRK_DS_STAT_LOS 0 = 2 := by
  decide +kernel

end Sys2Proof.Machine

namespace Sys2Proof.Safety

open Sys2Proof Sys2Proof.Machine

/-- Refutes O8 by its clause of LOS_CLEAR: a defect is cleared only where its field reads 1 (`Chip.setDefect`), and the field holds 2. No premise
keeps a field of one bit below 2. -/
theorem not_receiverFrameCommands : ¬ Obligations.ReceiverFrameCommands := by
  rintro ⟨-, -, -, hclear, -⟩
  have hstep := hclear 0 0 losOutOfWidth (by decide +kernel) (by decide +kernel)
  have hon : exec (.losClear 0 0) losOutOfWidth = losOutOfWidth.on 0 (fun _ => losClear 0) := rfl
  rw [hon] at hstep
  have hlos := State.after_of_on (by decide +kernel) hstep
  rw [State.after_chip, Chip.rg_done] at hlos
  exact absurd (losClear_losOutOfWidth.symm.trans hlos) (by decide)

end Sys2Proof.Safety
end

section
/-! PROOFS. The protection switch (03_trunk_downstream.md R113, R114). -/

namespace Sys2Proof.Machine

open Sys2Proof Sys2Proof.Safety

/-! ## What the requests are judged by (R113) -/

/-- The fields that OTHER_OK and the conditions of AUTO and REVERT read. -/
def apsInputs : List Fld :=
  [R.TRK_SIDE_MASK_MASK, R.TRK_WATCH_OK_OK, R.TRK_WATCH_CTRL_DWELL, R.TRK_SIDE_STAT_EQD_VALID, R.TRK_SIDE_STAT_ACTIVE, R.TRK_SIDE_CTRL_REVERT,
   R.TRK_SIDE_CTRL_WTR, R.TRK_SIDE_CTRL_HOLD]

section
variable {c : Chip} {f : Fld} {i v : Nat} (h : ∀ g ∈ apsInputs, f.key i ≠ g.key 0)
include h

theorem Chip.rg_wg_apsInput (g : Fld) (hg : g ∈ apsInputs) : (c.wg f i v).rg g 0 = c.rg g 0 := Chip.rg_wg_other _ _ _ _ _ _ (h g hg)

theorem Chip.otherOk_wg : (c.wg f i v).otherOk = c.otherOk := by
  have hrg := Chip.rg_wg_apsInput (c := c) (v := v) h
  simp only [Chip.otherOk, Chip.rb, Chip.wg_ds, Chip.wg_now, hrg R.TRK_SIDE_MASK_MASK (by decide), hrg R.TRK_WATCH_OK_OK (by decide),
    hrg R.TRK_WATCH_CTRL_DWELL (by decide), hrg R.TRK_SIDE_STAT_EQD_VALID (by decide)]

theorem Chip.apsAuto_wg : (c.wg f i v).apsAuto = c.apsAuto := by
  simp only [Chip.apsAuto, Chip.wg_ds, Chip.wg_now, Chip.rg_wg_apsInput h R.TRK_SIDE_CTRL_HOLD (by decide)]

theorem Chip.apsRevert_wg : (c.wg f i v).apsRevert = c.apsRevert := by
  have hrg := Chip.rg_wg_apsInput (c := c) (v := v) h
  have hhome : (c.wg f i v).homeSide = c.homeSide := rfl
  simp only [Chip.apsRevert, Chip.rb, Chip.wg_ds, Chip.wg_now, Chip.otherOk_wg h, hhome, hrg R.TRK_SIDE_CTRL_REVERT (by decide),
    hrg R.TRK_SIDE_CTRL_WTR (by decide), hrg R.TRK_SIDE_STAT_ACTIVE (by decide)]

end

/-! ## The request in force (R113) -/

section
variable {c : Chip} (hstep : c.ds.apsStep = 0)
include hstep

theorem Chip.apsNow_lockout (hlock : c.ds.lockout = true) : c.apsNow = c.wg R.TRK_SIDE_STAT_REQ 0 1 := by
  simp [Chip.apsNow, Chip.apsEval, hstep, hlock]

variable (hlock : c.ds.lockout = false)
include hlock

theorem Chip.apsNow_force (hcmd : c.rg R.TRK_SIDE_CTRL_CMD 0 = 2) : c.apsNow = (c.wg R.TRK_SIDE_CTRL_CMD 0 0).apsStart 2 := by
  simp [Chip.apsNow, Chip.apsEval, hstep, hlock, hcmd]

theorem Chip.apsNow_auto (hcmd : c.rg R.TRK_SIDE_CTRL_CMD 0 = 0) (hfree : c.apsFree = true) (hauto : c.apsAuto = true)
    (hother : c.otherOk = true) : c.apsNow = c.apsStart 3 := by
  simp [Chip.apsNow, Chip.apsEval, hstep, hlock, hcmd, hfree, hauto, hother]

theorem Chip.apsNow_manual (hcmd : c.rg R.TRK_SIDE_CTRL_CMD 0 = 1) (hauto : c.apsAuto = false) (hother : c.otherOk = true) :
    c.apsNow = (c.wg R.TRK_SIDE_CTRL_CMD 0 0).apsStart 4 := by
  simp [Chip.apsNow, Chip.apsEval, hstep, hlock, hcmd, hauto, hother]

theorem Chip.apsNow_revert (hcmd : c.rg R.TRK_SIDE_CTRL_CMD 0 = 0) (hfree : c.apsFree = true) (hauto : c.apsAuto = false)
    (hrevert : c.apsRevert = true) : c.apsNow = c.apsStart 5 := by
  simp [Chip.apsNow, Chip.apsEval, hstep, hlock, hcmd, hfree, hauto, hrevert]

theorem Chip.apsNow_none (hcmd : c.rg R.TRK_SIDE_CTRL_CMD 0 = 0) (hauto : c.apsAuto = false) (hrevert : c.apsRevert = false) :
    c.apsNow = c.wg R.TRK_SIDE_STAT_REQ 0 0 := by
  simp [Chip.apsNow, Chip.apsEval, hstep, hlock, hcmd, hauto, hrevert]

end

/-- A failure noted long enough ago is the condition of AUTO. -/
theorem apsAuto_of_some {c : Chip} {a : Nat} (h : c.ds.apsFailAt = some a) (hheld : a + c.rg R.TRK_SIDE_CTRL_HOLD 0 * msPs ≤ c.now) :
    c.apsAuto = true := by
  simp only [Chip.apsAuto, h, hheld, decide_true]

/-- With no failure noted the condition of AUTO does not hold. -/
theorem apsAuto_of_none {c : Chip} (h : c.ds.apsFailAt = none) : c.apsAuto = false := by
  simp only [Chip.apsAuto, h]

/-! ## Step 1 of a switch (R114) -/

theorem Chip.apsStart_req (c : Chip) {req : Nat} (hreq : req < 8) : (c.apsStart req).rg R.TRK_SIDE_STAT_REQ 0 = req :=
  (Chip.rg_wg_same (c.wg R.TRK_SIDE_STAT_STATE 0 1) ..).trans (Nat.mod_eq_of_lt hreq)

theorem Chip.apsStart_rg (c : Chip) (req : Nat) {g : Fld} {j : Nat} (hreq : R.TRK_SIDE_STAT_REQ.key 0 ≠ g.key j) :
    (c.apsStart req).rg g j = (c.wg R.TRK_SIDE_STAT_STATE 0 1).rg g j :=
  Chip.rg_wg_other (c.wg R.TRK_SIDE_STAT_STATE 0 1) _ _ _ _ _ hreq

theorem Chip.apsStart_state (c : Chip) (req : Nat) : (c.apsStart req).rg R.TRK_SIDE_STAT_STATE 0 = 1 :=
  (c.apsStart_rg req (by decide)).trans (Chip.rg_wg_same ..)

theorem Chip.apsStart_rg_other (c : Chip) (req : Nat) {g : Fld} {j : Nat} (hreq : R.TRK_SIDE_STAT_REQ.key 0 ≠ g.key j)
    (hstate : R.TRK_SIDE_STAT_STATE.key 0 ≠ g.key j) : (c.apsStart req).rg g j = c.rg g j :=
  (c.apsStart_rg req hreq).trans (Chip.rg_wg_other _ _ _ _ _ _ hstate)

/-! ## The commands of the host (R113) -/

/-- The condition of AUTO does not read CMD, and lets a MANUAL by. -/
theorem apsCmd_manual {c : Chip} (hstep : c.ds.apsStep = 0) (hlock : c.ds.lockout = false) (hauto : c.apsAuto = false)
    (hother : c.otherOk = true) : apsCmd 1 c = ((c.wg R.TRK_SIDE_CTRL_CMD 0 1).wg R.TRK_SIDE_CTRL_CMD 0 0).apsStart 4 :=
  Chip.apsNow_manual hstep hlock (Chip.rg_wg_same ..) ((Chip.apsAuto_wg (by decide)).trans hauto) ((Chip.otherOk_wg (by decide)).trans hother)

theorem apsCmd_force {c : Chip} (hstep : c.ds.apsStep = 0) (hlock : c.ds.lockout = false) :
    apsCmd 2 c = ((c.wg R.TRK_SIDE_CTRL_CMD 0 2).wg R.TRK_SIDE_CTRL_CMD 0 0).apsStart 2 :=
  Chip.apsNow_force hstep hlock (Chip.rg_wg_same ..)

/-- The chip with or without a LOCKOUT in force. -/
def Chip.withLockout (c : Chip) (b : Bool) : Chip := { c with ds.lockout := b }

theorem apsCmd_lockout {c : Chip} (hstep : c.ds.apsStep = 0) :
    apsCmd 3 c = ((c.wg R.TRK_SIDE_CTRL_CMD 0 3).withLockout true).wg R.TRK_SIDE_STAT_REQ 0 1 :=
  Chip.apsNow_lockout (c := (c.wg R.TRK_SIDE_CTRL_CMD 0 3).withLockout true) hstep rfl

theorem apsCmd_clear {c : Chip} (hstep : c.ds.apsStep = 0) (hauto : c.apsAuto = false) (hrevert : c.apsRevert = false) :
    apsCmd 4 c = ((c.wg R.TRK_SIDE_CTRL_CMD 0 0).withLockout false).wg R.TRK_SIDE_STAT_REQ 0 0 :=
  Chip.apsNow_none (c := (c.wg R.TRK_SIDE_CTRL_CMD 0 0).withLockout false) hstep rfl (Chip.rg_wg_same c ..)
    ((Chip.apsAuto_wg (by decide)).trans hauto) ((Chip.apsRevert_wg (by decide)).trans hrevert)

end Sys2Proof.Machine

namespace Sys2Proof.Safety

open Sys2Proof Sys2Proof.Machine

/-- A command that leaves every register field but some, the counters, the table window and the waiting changes of the memories as they
were keeps all but those fields. -/
theorem kept_after_but {s : State} {c : Chip} {ks : List Nat} (hs : ready s)
    (hregs : ∀ (g : Fld) (j : Nat), g.key j ∉ ks → c.rg g j = s.chip.rg g j) (hcnt : c.cnt = s.chip.cnt) (hwin : c.win = s.chip.win)
    (hmout : c.mout = s.chip.mout) : kept s (s.after c) ks :=
  ⟨fun g j hg => (Chip.rg_done ..).trans (hregs g j hg), hcnt, hwin, by rw [State.after_mem, hmout, hs.2]; rfl⟩

/-- A command that begins a switch (R113, R114): CMD is taken, and step 1 has begun. -/
theorem apsCmd_starts {s : State} {t cmd req : Nat} (hs : ready s) (hd : s.chip.domOn 8 = true) (hreq : req < 8)
    (hrow : apsCmd cmd (chipAt s t) = (((chipAt s t).wg R.TRK_SIDE_CTRL_CMD 0 cmd).wg R.TRK_SIDE_CTRL_CMD 0 0).apsStart req) :
    ∃ u, s.on t (fun _ c => c.answeredIn 8 (fun c => (apsCmd cmd c, stOk))) = .next u ∧ u.chip.ds.apsStep = 1 ∧
      u.chip.ds.apsAt = max s.chip.now t ∧ u.chip.rg R.TRK_SIDE_STAT_STATE 0 = 1 ∧ u.chip.rg R.TRK_SIDE_STAT_REQ 0 = req ∧
      u.chip.rg R.TRK_SIDE_CTRL_CMD 0 = 0 ∧
      kept s u [R.TRK_SIDE_STAT_STATE.key 0, R.TRK_SIDE_STAT_REQ.key 0, R.TRK_SIDE_CTRL_CMD.key 0] := by
  refine ⟨_, on_answeredIn hs hd (congrArg (·, stOk) hrow), rfl, rfl, ?_, ?_, ?_, kept_after_but hs ?_ rfl rfl rfl⟩
  · exact (rg_answered ..).trans (Chip.apsStart_state ..)
  · exact (rg_answered ..).trans (Chip.apsStart_req _ hreq)
  · exact (rg_answered ..).trans ((Chip.apsStart_rg_other _ _ (by decide) (by decide)).trans (Chip.rg_wg_same ..))
  · intro g j hg
    obtain ⟨hstate, hreq, hcmd⟩ : g.key j ≠ R.TRK_SIDE_STAT_STATE.key 0 ∧ g.key j ≠ R.TRK_SIDE_STAT_REQ.key 0 ∧
      g.key j ≠ R.TRK_SIDE_CTRL_CMD.key 0 := by simpa using hg
    rw [Chip.rg_emit, Chip.apsStart_rg_other _ _ hreq.symm hstate.symm, Chip.rg_wg_other _ _ _ _ _ _ hcmd.symm,
      Chip.rg_wg_other _ _ _ _ _ _ hcmd.symm, Chip.rg_tick]

/-- APS_MANUAL. -/
theorem apsManual_starts (t : Nat) (s : State) (hs : ready s) (hd : s.chip.domOn 8 = true) (hstep : s.chip.ds.apsStep = 0)
    (hauto : (chipAt s t).apsAuto = false) (hlock : s.chip.ds.lockout = false) (hother : (chipAt s t).otherOk = true) :
    ∃ u, exec (.apsManual t) s = .next u ∧ u.chip.ds.apsStep = 1 ∧ u.chip.ds.apsAt = max s.chip.now t ∧
      u.chip.rg R.TRK_SIDE_STAT_STATE 0 = 1 ∧ u.chip.rg R.TRK_SIDE_STAT_REQ 0 = 4 ∧ u.chip.rg R.TRK_SIDE_CTRL_CMD 0 = 0 ∧
      kept s u [R.TRK_SIDE_STAT_STATE.key 0, R.TRK_SIDE_STAT_REQ.key 0, R.TRK_SIDE_CTRL_CMD.key 0] :=
  apsCmd_starts hs hd (by decide) (apsCmd_manual hstep hlock hauto hother)

/-- APS_FORCE. -/
theorem apsForce_starts (t : Nat) (s : State) (hs : ready s) (hd : s.chip.domOn 8 = true) (hstep : s.chip.ds.apsStep = 0)
    (hlock : s.chip.ds.lockout = false) :
    ∃ u, exec (.apsForce t) s = .next u ∧ u.chip.ds.apsStep = 1 ∧ u.chip.rg R.TRK_SIDE_STAT_STATE 0 = 1 ∧
      u.chip.rg R.TRK_SIDE_STAT_REQ 0 = 2 ∧ u.chip.rg R.TRK_SIDE_CTRL_CMD 0 = 0 ∧
      kept s u [R.TRK_SIDE_STAT_STATE.key 0, R.TRK_SIDE_STAT_REQ.key 0, R.TRK_SIDE_CTRL_CMD.key 0] := by
  obtain ⟨u, hu, hone, -, hrest⟩ := apsCmd_starts (t := t) hs hd (by decide) (apsCmd_force hstep hlock)
  exact ⟨u, hu, hone, hrest⟩

/-- A command that sets or clears LOCKOUT (R113): the request in force is named, and nothing begins. -/
theorem apsCmd_names {s : State} {t cmd v req : Nat} {b : Bool} (hs : ready s) (hd : s.chip.domOn 8 = true) (hreq : req < 8)
    (hrow : apsCmd cmd (chipAt s t) =
      (((chipAt s t).wg R.TRK_SIDE_CTRL_CMD 0 v).withLockout b).wg R.TRK_SIDE_STAT_REQ 0 req) :
    ∃ u, s.on t (fun _ c => c.answeredIn 8 (fun c => (apsCmd cmd c, stOk))) = .next u ∧ u.chip.ds.lockout = b ∧
      u.chip.rg R.TRK_SIDE_STAT_REQ 0 = req ∧ u.chip.rg R.TRK_SIDE_CTRL_CMD 0 = v % 8 ∧ u.chip.ds.apsStep = s.chip.ds.apsStep ∧
      kept s u [R.TRK_SIDE_STAT_REQ.key 0, R.TRK_SIDE_CTRL_CMD.key 0] := by
  have hrg (g : Fld) (j : Nat) : (((chipAt s t).wg R.TRK_SIDE_CTRL_CMD 0 v).withLockout b).rg g j =
      ((chipAt s t).wg R.TRK_SIDE_CTRL_CMD 0 v).rg g j := rfl
  refine ⟨_, on_answeredIn hs hd (congrArg (·, stOk) hrow), rfl, ?_, ?_, rfl, kept_after_but hs ?_ rfl rfl rfl⟩
  · exact (rg_answered ..).trans ((Chip.rg_wg_same ..).trans (Nat.mod_eq_of_lt hreq))
  · exact (rg_answered ..).trans ((Chip.rg_wg_other _ _ _ _ _ _ (by decide)).trans ((hrg ..).trans (Chip.rg_wg_same ..)))
  · intro g j hg
    obtain ⟨hreq, hcmd⟩ : g.key j ≠ R.TRK_SIDE_STAT_REQ.key 0 ∧ g.key j ≠ R.TRK_SIDE_CTRL_CMD.key 0 := by simpa using hg
    rw [Chip.rg_emit, Chip.rg_wg_other _ _ _ _ _ _ hreq.symm, hrg, Chip.rg_wg_other _ _ _ _ _ _ hcmd.symm, Chip.rg_tick]

/-- APS_LOCKOUT. -/
theorem apsLockout_locks (t : Nat) (s : State) (hs : ready s) (hd : s.chip.domOn 8 = true) (hstep : s.chip.ds.apsStep = 0) :
    ∃ u, exec (.apsLockout t) s = .next u ∧ u.chip.ds.lockout = true ∧ u.chip.rg R.TRK_SIDE_STAT_REQ 0 = 1 ∧ u.chip.ds.apsStep = 0 ∧
      kept s u [R.TRK_SIDE_STAT_REQ.key 0, R.TRK_SIDE_CTRL_CMD.key 0] := by
  obtain ⟨u, hu, hlock, hreq, -, hsame, hkept⟩ := apsCmd_names (t := t) hs hd (by decide) (apsCmd_lockout hstep)
  exact ⟨u, hu, hlock, hreq, hsame.trans hstep, hkept⟩

/-- APS_CLEAR. -/
theorem apsClear_clears (t : Nat) (s : State) (hs : ready s) (hd : s.chip.domOn 8 = true) (hstep : s.chip.ds.apsStep = 0)
    (hauto : (chipAt s t).apsAuto = false) (hrevert : (chipAt s t).apsRevert = false) :
    ∃ u, exec (.apsClear t) s = .next u ∧ u.chip.ds.lockout = false ∧ u.chip.rg R.TRK_SIDE_STAT_REQ 0 = 0 ∧
      u.chip.rg R.TRK_SIDE_CTRL_CMD 0 = 0 ∧ kept s u [R.TRK_SIDE_STAT_REQ.key 0, R.TRK_SIDE_CTRL_CMD.key 0] := by
  obtain ⟨u, hu, hlock, hreq, hcmd, -, hkept⟩ := apsCmd_names (t := t) hs hd (by decide) (apsCmd_clear hstep hauto hrevert)
  exact ⟨u, hu, hlock, hreq, hcmd, hkept⟩

/-- A command of the trunk on a running terminal that begins a switch: STATE reads SWITCHING and REQ the request. -/
theorem on_apsStart {s : State} {t req : Nat} {f : Chip → Chip} (hs : ready s) (hreq : req < 8)
    (hrow : f (chipAt s t) = (chipAt s t).apsStart req) :
    ∃ u, s.on t (fun _ => f) = .next u ∧ u.chip.ds.apsStep = 1 ∧ u.chip.rg R.TRK_SIDE_STAT_STATE 0 = 1 ∧
      u.chip.rg R.TRK_SIDE_STAT_REQ 0 = req := by
  refine ⟨_, State.on_running s t (fun _ => f) hs.1, ?_⟩
  rw [hrow]
  exact ⟨rfl, Chip.apsStart_state .., Chip.apsStart_req _ hreq⟩

/-- APS_AUTO_HOLD. -/
theorem apsAutoHold_starts (t a : Nat) (s : State) (hs : ready s) (hstep : s.chip.ds.apsStep = 0) (hhold : s.chip.ds.apsHoldEnd ≤ max s.chip.now t)
    (hfail : s.chip.ds.apsFailAt = some a) (hheld : a + s.chip.rg R.TRK_SIDE_CTRL_HOLD 0 * msPs ≤ max s.chip.now t)
    (hlock : s.chip.ds.lockout = false) (hcmd : s.chip.rg R.TRK_SIDE_CTRL_CMD 0 = 0) (hother : (chipAt s t).otherOk = true) :
    ∃ u, exec (.apsAutoHold t) s = .next u ∧ u.chip.ds.apsStep = 1 ∧ u.chip.rg R.TRK_SIDE_STAT_STATE 0 = 1 ∧
      u.chip.rg R.TRK_SIDE_STAT_REQ 0 = 3 := by
  have hfree : (chipAt s t).apsFree = true := decide_eq_true ⟨hstep, hhold⟩
  have hauto : (chipAt s t).apsAuto = true := apsAuto_of_some hfail hheld
  exact on_apsStart hs (by decide) ((if_pos ⟨hfree, hauto⟩).trans (Chip.apsNow_auto hstep hlock hcmd hfree hauto hother))

/-- APS_WTR_EXPIRE. -/
theorem apsWtrExpire_starts (t : Nat) (s : State) (hs : ready s) (hstep : s.chip.ds.apsStep = 0) (hhold : s.chip.ds.apsHoldEnd ≤ max s.chip.now t)
    (hfail : s.chip.ds.apsFailAt = none) (hrevert : (chipAt s t).apsRevert = true) (hlock : s.chip.ds.lockout = false)
    (hcmd : s.chip.rg R.TRK_SIDE_CTRL_CMD 0 = 0) :
    ∃ u, exec (.apsWtrExpire t) s = .next u ∧ u.chip.ds.apsStep = 1 ∧ u.chip.rg R.TRK_SIDE_STAT_STATE 0 = 1 ∧
      u.chip.rg R.TRK_SIDE_STAT_REQ 0 = 5 := by
  have hfree : (chipAt s t).apsFree = true := decide_eq_true ⟨hstep, hhold⟩
  exact on_apsStart hs (by decide) ((if_pos ⟨hfree, hrevert⟩).trans (Chip.apsNow_revert hstep hlock hcmd hfree (apsAuto_of_none hfail) hrevert))

/-- APS_HOLD_END: with nothing to act on the switch is over. -/
theorem apsHoldEnd_ends (t : Nat) (s : State) (hs : ready s) (hstate : s.chip.rg R.TRK_SIDE_STAT_STATE 0 = 2)
    (hhold : s.chip.ds.apsHoldEnd ≤ max s.chip.now t) (hstep : s.chip.ds.apsStep = 0) (hfail : s.chip.ds.apsFailAt = none)
    (hrevert : s.chip.rg R.TRK_SIDE_CTRL_REVERT 0 = 0) (hlock : s.chip.ds.lockout = false) (hcmd : s.chip.rg R.TRK_SIDE_CTRL_CMD 0 = 0) :
    ∃ u, exec (.apsHoldEnd t) s = .next u ∧ u.chip.rg R.TRK_SIDE_STAT_STATE 0 = 0 ∧ u.chip.rg R.TRK_SIDE_STAT_REQ 0 = 0 ∧
      kept s u [R.TRK_SIDE_STAT_STATE.key 0, R.TRK_SIDE_STAT_REQ.key 0] := by
  have hdue : (chipAt s t).rg R.TRK_SIDE_STAT_STATE 0 = 2 ∧ (chipAt s t).ds.apsHoldEnd ≤ (chipAt s t).now := ⟨hstate, hhold⟩
  have hstay : ((chipAt s t).wg R.TRK_SIDE_STAT_STATE 0 0).apsRevert = false := by
    have hoff : ((chipAt s t).wg R.TRK_SIDE_STAT_STATE 0 0).rb R.TRK_SIDE_CTRL_REVERT 0 = false :=
      decide_eq_false (((Chip.rg_wg_other _ _ _ _ _ _ (by decide)).trans hrevert).trans_ne (by decide))
    rw [Chip.apsRevert, hoff, Bool.false_and]
  have hrow : apsHoldEnd (chipAt s t) = ((chipAt s t).wg R.TRK_SIDE_STAT_STATE 0 0).wg R.TRK_SIDE_STAT_REQ 0 0 :=
    (if_pos hdue).trans (Chip.apsNow_none hstep hlock ((Chip.rg_wg_other _ _ _ _ _ _ (by decide)).trans hcmd) (apsAuto_of_none hfail) hstay)
  refine ⟨_, State.on_running s t (fun _ => apsHoldEnd) hs.1, ?_⟩
  rw [hrow]
  refine ⟨?_, Chip.rg_wg_same .., kept_after_but hs ?_ rfl rfl rfl⟩
  · exact (Chip.rg_wg_other _ _ _ _ _ _ (by decide)).trans (Chip.rg_wg_same ..)
  · intro g j hg
    obtain ⟨hstate, hreq⟩ : g.key j ≠ R.TRK_SIDE_STAT_STATE.key 0 ∧ g.key j ≠ R.TRK_SIDE_STAT_REQ.key 0 := by simpa using hg
    rw [Chip.rg_wg_other _ _ _ _ _ _ hreq.symm, Chip.rg_wg_other _ _ _ _ _ _ hstate.symm, Chip.rg_tick]

/-- APS_SYNC. -/
theorem apsSync_syncs (t : Nat) (k : Fin 16) (s : State) (hs : ready s) (hstep : s.chip.ds.apsStep = 4) (hsync : s.chip.inSync k = true)
    (hadopted : (s.chip.eng k).step = 6) : ∃ u, exec (.apsSync t) s = .next u ∧ u.chip.ds.apsStep = 5 ∧ kept s u [] := by
  have hany : (List.range 16).any (fun k => (chipAt s t).inSync k && decide (((chipAt s t).eng k).step = 6)) = true :=
    List.any_eq_true.mpr ⟨k, List.mem_range.mpr k.isLt, Bool.and_eq_true_iff.mpr ⟨hsync, decide_eq_true hadopted⟩⟩
  have hrow : apsSync (chipAt s t) = { chipAt s t with ds.apsStep := 5 } := if_pos ⟨.inr hstep, hany⟩
  refine ⟨_, State.on_running s t (fun _ => apsSync) hs.1, ?_⟩
  rw [hrow]
  exact ⟨rfl, kept_after hs rfl rfl rfl rfl⟩

end Sys2Proof.Safety
end

section
/-! PROOFS. The steps of a protection switch (03_trunk_downstream.md R114). -/

namespace Sys2Proof.Machine

open Sys2Proof Sys2Proof.Safety

/-! ## Every wavelength in turn -/

/-- What holds before the first number and is kept from each number to the next holds after the last. -/
theorem forN_induct {α : Type} {f : Nat → α → α} {x : α} {p : Nat → α → Prop} (h0 : p 0 x) (hs : ∀ i y, p i y → p (i + 1) (f i y)) :
    ∀ n, p n (forN n f x)
  | 0 => h0
  | n + 1 => by
    rw [forN, List.range_succ, List.foldl_concat]
    exact hs n _ (forN_induct h0 hs n)

@[simp] theorem Chip.done_eng (c : Chip) (k : Nat) : c.done.eng k = c.eng k := rfl

theorem Chip.setEng_eng_other (c : Chip) {k i : Nat} (e : Eng) (h : k ≠ i) : (c.setEng k e).eng i = c.eng i := Tab.get_set_other _ _ _ _ _ h

/-! ## The path has moved (step 3) -/

/-- Acquisition reads as it was whether a receiver is on. -/
theorem Chip.dsAcquire_rxOn (c : Chip) (k : Nat) (cold : Bool) (i : Nat) : (c.dsAcquire k cold).rxOn i = c.rxOn i := by
  have henable : (c.dsAcquire k cold).rg R.TRK_DS_CFG_ENABLE i = c.rg R.TRK_DS_CFG_ENABLE i :=
    Chip.dsAcquire_rg_other _ _ _ (Fld.key_ne_of_lsb _ _ _ _ (by decide) (by decide) (by decide))
  have hdom : (c.dsAcquire k cold).rg R.PWR_DOM_STAT_PSTATE 8 = c.rg R.PWR_DOM_STAT_PSTATE 8 :=
    Chip.dsAcquire_rg_other _ _ _ (Fld.key_ne_of_lsb _ _ _ _ (by decide) (by decide) (by decide))
  simp only [Chip.rxOn, Chip.rb, Chip.domOn, henable, hdom]
  rfl

/-- Every receiver that is on acquires. -/
def Chip.acquireAll (c : Chip) : Chip := forN 16 (fun k d => if d.rxOn k then d.dsAcquire k false else d) c

theorem Chip.acquireAll_step (c : Chip) {k : Nat} (hk : k < 16) (hrx : c.rxOn k = true) : (c.acquireAll.eng k).step = 2 := by
  have hturn : (∀ i, c.acquireAll.rxOn i = c.rxOn i) ∧ ∀ i < 16, c.rxOn i = true → (c.acquireAll.eng i).step = 2 := by
    refine forN_induct (p := fun n (d : Chip) => (∀ i, d.rxOn i = c.rxOn i) ∧ ∀ i < n, c.rxOn i = true → (d.eng i).step = 2)
      ⟨fun _ => rfl, fun _ hi => absurd hi (Nat.not_lt_zero _)⟩ (fun n d hd => ?_) 16
    obtain ⟨hon, hdone⟩ := hd
    split
    case isTrue hn =>
      refine ⟨fun i => (d.dsAcquire_rxOn n false i).trans (hon i), fun i hi hrx => ?_⟩
      by_cases hin : n = i
      · subst hin
        rw [Chip.dsAcquire_eng]
      · exact (congrArg Eng.step (Chip.setEng_eng_other _ _ hin)).trans (hdone i (by omega) hrx)
    case isFalse hn =>
      refine ⟨hon, fun i hi hrx => hdone i ?_ hrx⟩
      have hin : i ≠ n := fun h => hn ((hon n).trans (h ▸ hrx))
      omega
  exact hturn.2 k hk hrx

theorem Chip.acquireAll_apsStep (c : Chip) : c.acquireAll.ds.apsStep = c.ds.apsStep :=
  forN_keeps 16 _ (·.ds.apsStep) (fun k d => by split <;> rfl) c

/-! ## The switch ends (step 6) -/

/-- The chip at a step of a switch. -/
def Chip.atStep (c : Chip) (n : Nat) : Chip := { c with ds.apsStep := n }

@[simp] theorem Chip.sideHealth_now (c : Chip) : c.sideHealth.now = c.now := by
  unfold Chip.sideHealth
  dsimp only
  repeat' split
  all_goals rfl

theorem Chip.sideHealth_rg_other (c : Chip) {g : Fld} {j : Nat} (h : R.TRK_SIDE_STAT_OTHER_OK.key 0 ≠ g.key j) :
    c.sideHealth.rg g j = c.rg g j := by
  unfold Chip.sideHealth
  dsimp only
  repeat' split
  all_goals exact Chip.rg_wg_other _ _ _ _ _ _ h

theorem Chip.apsTrack_now (c : Chip) : c.apsTrack.now = c.now := by
  unfold Chip.apsTrack
  dsimp only
  repeat' split
  all_goals rfl

theorem Chip.apsActive_now (c : Chip) : c.apsActive.now = c.now :=
  (Chip.apsTrack_now _).trans (Chip.sideHealth_now _)

/-- The mode is not touched as ACTIVE changes. -/
theorem Chip.apsActive_mode (c : Chip) : c.apsActive.mode = c.mode := by
  have hfollow : ¬ followKeys (R.TRK_MODE_CODE.key 0) := by
    rintro (e | ⟨m, e⟩)
    · exact absurd e (by decide)
    · simp only [Fld.key, R.TRK_MODE_CODE, R.TRK_CHMON_STATE_RAW, R.TRK_CHMON_STATE_DEF, R.TRK_CHMON_STATE_CHG] at e
      omega
  refine (Chip.apsTrack_rg _ _ _ hfollow).trans ((Chip.rg_wg_other _ _ _ _ _ _ (by decide)).trans ((Chip.sideHealth_rg_other _ (by decide)).trans ?_))
  exact (Chip.rg_wg_other _ _ _ _ _ _ (by decide)).trans (Chip.rg_wg_other _ _ _ _ _ _ (by decide))

/-- The chip as a switch ends, before the downstream is checked: HOLD for 1 s. -/
def Chip.apsResumed (c : Chip) : Chip :=
  have d := ((c.apsActive.wg R.TRK_SIDE_STAT_SWITCHED 0 1).wg R.TRK_SIDE_STAT_REQ 0 0)
  { (d.wg R.TRK_SIDE_STAT_STATE 0 2) with ds.apsHoldEnd := d.now + secPs }

theorem Chip.apsResumed_rg (c : Chip) (g : Fld) (j : Nat) : c.apsResumed.rg g j =
    (((c.apsActive.wg R.TRK_SIDE_STAT_SWITCHED 0 1).wg R.TRK_SIDE_STAT_REQ 0 0).wg R.TRK_SIDE_STAT_STATE 0 2).rg g j := rfl

theorem Chip.apsResumed_reads (c : Chip) {m : Nat} (hmode : c.mode = m) :
    c.apsResumed.rg R.TRK_SIDE_STAT_STATE 0 = 2 ∧ c.apsResumed.rg R.TRK_SIDE_STAT_SWITCHED 0 = 1 ∧ c.apsResumed.mode = m ∧
      c.apsResumed.ds.apsHoldEnd = c.now + secPs := by
  refine ⟨?_, ?_, ?_, congrArg (· + secPs) c.apsActive_now⟩
  · rw [Chip.apsResumed_rg, Chip.rg_wg_same]
    rfl
  · rw [Chip.apsResumed_rg, Chip.rg_wg_other _ _ _ _ _ _ (by decide), Chip.rg_wg_other _ _ _ _ _ _ (by decide), Chip.rg_wg_same]
    rfl
  · rw [Chip.mode, Chip.apsResumed_rg, Chip.rg_wg_other _ _ _ _ _ _ (by decide), Chip.rg_wg_other _ _ _ _ _ _ (by decide),
      Chip.rg_wg_other _ _ _ _ _ _ (by decide), ← Chip.mode, Chip.apsActive_mode, hmode]

theorem Chip.aCheck_rg_side (c : Chip) {g : Fld} (h : g.key 0 < 32 * 0xA0000) : c.aCheck.rg g 0 = c.rg g 0 := c.aCheck_timed.rg g 0 h

end Sys2Proof.Machine

namespace Sys2Proof.Safety

open Sys2Proof Sys2Proof.Machine

/-- APS_PATH_MOVED (R114 step 3). -/
theorem apsPathMoved_acquires (t : Nat) (s : State) (hs : ready s) (hstep : s.chip.ds.apsStep = 2) :
    ∃ u, exec (.apsPathMoved t) s = .next u ∧ u.chip.ds.apsStep = 3 ∧
      (∀ k : Fin 16, (chipAt s t).rxOn k = true → (u.chip.eng k).step = 2) := by
  have hrow : apsPathMoved (chipAt s t) = ((chipAt s t).atStep 3).acquireAll := if_pos hstep
  refine ⟨_, State.on_running s t (fun _ => apsPathMoved) hs.1, ?_⟩
  rw [hrow]
  refine ⟨?_, fun k hrx => ?_⟩
  · rw [State.after_chip, Chip.done_ds, Chip.acquireAll_apsStep, Chip.atStep]
  · rw [State.after_chip, Chip.done_eng]
    exact ((chipAt s t).atStep 3).acquireAll_step k.isLt hrx

/-- APS_RESUME (R114 step 6). -/
theorem apsResume_assembly (t : Nat) (s : State) (hs : ready s) (hstep : s.chip.ds.apsStep = 5) (hmode : s.chip.mode = 0) :
    ∃ u, exec (.apsResume t) s = .next u ∧ u.chip.rg R.TRK_SIDE_STAT_STATE 0 = 2 ∧ u.chip.rg R.TRK_SIDE_STAT_SWITCHED 0 = 1 ∧
      u.chip.ds.apsHoldEnd = max s.chip.now t + secPs := by
  obtain ⟨hstate, hswitched, hmode', hend⟩ := (chipAt s t).apsResumed_reads hmode
  have hrow : apsResume (chipAt s t) = (chipAt s t).apsResumed.syncCheck := if_pos hstep
  refine ⟨_, State.on_running s t (fun _ => apsResume) hs.1, ?_⟩
  rw [hrow, Chip.syncCheck_assembly hmode']
  rw [State.after_chip, Chip.rg_done, Chip.rg_done, Chip.done_ds, (Chip.aCheck_timed _).ds, Chip.aCheck_rg_side _ (by decide),
    Chip.aCheck_rg_side _ (by decide)]
  exact ⟨hstate, hswitched, hend⟩

/-- APS_SWITCH_TIMEOUT before the path has moved. -/
theorem apsSwitchTimeout_assembly (t : Nat) (s : State) (hs : ready s) (hstep : s.chip.ds.apsStep = 1)
    (hbound : s.chip.ds.apsAt + 10 * msPs ≤ max s.chip.now t) (hmode : s.chip.mode = 0) :
    ∃ u, exec (.apsSwitchTimeout t) s = .next u ∧ u.chip.rg R.TRK_SIDE_STAT_STATE 0 = 3 ∧ u.chip.rg R.TRK_SIDE_STAT_REQ 0 = 0 ∧
      u.chip.ds.apsStep = 0 := by
  have hdue : (chipAt s t).ds.apsStep ≠ 0 ∧ (chipAt s t).ds.apsAt + 10 * msPs ≤ (chipAt s t).now := ⟨hstep.trans_ne (by decide), hbound⟩
  have hmoved : ¬ 2 ≤ (chipAt s t).ds.apsStep := by
    have hone : (chipAt s t).ds.apsStep = 1 := hstep
    omega
  have hrow : apsSwitchTimeout (chipAt s t) =
      ((((chipAt s t).atStep 0).wg R.TRK_SIDE_STAT_STATE 0 3).wg R.TRK_SIDE_STAT_REQ 0 0).syncCheck := by
    simp only [apsSwitchTimeout, if_pos hdue, hmoved, decide_false, Bool.false_eq_true, if_false]
    rfl
  have hmode' : ((((chipAt s t).atStep 0).wg R.TRK_SIDE_STAT_STATE 0 3).wg R.TRK_SIDE_STAT_REQ 0 0).mode = 0 :=
    (Chip.rg_wg_other _ _ _ _ _ _ (by decide)).trans ((Chip.rg_wg_other _ _ _ _ _ _ (by decide)).trans hmode)
  refine ⟨_, State.on_running s t (fun _ => apsSwitchTimeout) hs.1, ?_⟩
  rw [hrow, Chip.syncCheck_assembly hmode']
  refine ⟨(Chip.aCheck_rg_side _ (by decide)).trans ?_, (Chip.aCheck_rg_side _ (by decide)).trans (Chip.rg_wg_same ..),
    congrArg DsSt.apsStep (Chip.aCheck_timed _).ds⟩
  exact (Chip.rg_wg_other _ _ _ _ _ _ (by decide)).trans (Chip.rg_wg_same ..)

end Sys2Proof.Safety
end

section
/-! PROOFS. OTHER_OK of TRK_SIDE_STAT (03_trunk_downstream.md R90) through the loss of the downstream (04_trunk_access.md R117, R119, R120). -/

namespace Sys2Proof.Machine

open Sys2Proof Sys2Proof.Safety

/-- OTHER_OK as the register holds it. -/
def Chip.otherOkBit (c : Chip) : Nat := c.rg R.TRK_SIDE_STAT_OTHER_OK 0

/-- A fold of operations that each keep a reading, for the elements of the list, keeps it. -/
theorem foldl_keeps_of_mem {α β γ : Type} (f : α → β → α) (r : α → γ) (l : List β) (h : ∀ b ∈ l, ∀ a, r (f a b) = r a) (a : α) :
    r (l.foldl f a) = r a := by
  induction l generalizing a with
  | nil => rfl
  | cons b l ih =>
    rw [List.foldl_cons, ih (fun b hb => h b (List.mem_cons_of_mem _ hb)), h b List.mem_cons_self]

/-- A write of a field whose lowest bit is not that of OTHER_OK. -/
theorem Chip.otherOkBit_wg (c : Chip) {f : Fld} (hlt : f.lsb < 32) (h3 : f.lsb ≠ 3) (i v : Nat) : (c.wg f i v).otherOkBit = c.otherOkBit :=
  Chip.rg_wg_other _ _ _ _ _ _ (Fld.key_ne_of_lsb _ _ _ _ hlt (by decide) h3)

theorem Chip.otherOkBit_aCheck (c : Chip) : c.aCheck.otherOkBit = c.otherOkBit := c.aCheck_rg_side (by decide)

theorem Chip.otherOkBit_setFstate (c : Chip) (k st : Nat) : (c.setFstate k st).otherOkBit = c.otherOkBit :=
  Chip.setFstate_rg _ _ _ _ _ (Fld.key_ne_of_lsb _ _ _ _ (by decide) (by decide) (by decide))
    (Fld.key_ne_of_lsb _ _ _ _ (by decide) (by decide) (by decide)) (Fld.key_ne_of_lsb _ _ _ _ (by decide) (by decide) (by decide))
    (not_followKeys_of_lsb (by decide) (by decide) (by decide) (by decide) _)

theorem Chip.otherOkBit_dsStart (c : Chip) (k : Nat) : (c.dsStart k).otherOkBit = c.otherOkBit :=
  (Chip.otherOkBit_setFstate ..).trans ((Chip.otherOkBit_wg _ (by decide) (by decide) _ _).trans (Chip.otherOkBit_wg _ (by decide) (by decide) _ _))

/-! ## Queues (R195, R213) -/

theorem Chip.otherOkBit_queueStat (c : Chip) (q b : Nat) : (c.queueStat q b).otherOkBit = c.otherOkBit := by
  unfold Chip.queueStat
  dsimp only
  split <;> simp only [Chip.wb_eq] <;> repeat rw [Chip.otherOkBit_wg _ (by decide) (by decide)]

theorem Chip.otherOkBit_queueStats (l : List (Nat × Nat)) (c : Chip) :
    (l.foldl (fun d y => d.queueStat y.1 y.2) c).otherOkBit = c.otherOkBit :=
  foldl_keeps _ Chip.otherOkBit (fun _ _ => Chip.otherOkBit_queueStat ..) l c

theorem Chip.otherOkBit_rebind (c : Chip) (g : Nat) (a : Option Nat) : (c.rebind g a).otherOkBit = c.otherOkBit :=
  Chip.otherOkBit_queueStats _ _

/-- A choice between a chip and one that reads the same. -/
theorem Chip.otherOkBit_ite_else {p : Prop} [Decidable p] {c d : Chip} (h : d.otherOkBit = c.otherOkBit) :
    (if p then c else d).otherOkBit = c.otherOkBit := by
  split
  · rfl
  · exact h

theorem Chip.otherOkBit_ite_then {p : Prop} [Decidable p] {c d : Chip} (h : d.otherOkBit = c.otherOkBit) :
    (if p then d else c).otherOkBit = c.otherOkBit := by
  split
  · exact h
  · rfl

theorem Chip.otherOkBit_loseSplits (c : Chip) (p : SplitFrame → Bool) : (c.loseSplits p).otherOkBit = c.otherOkBit :=
  foldl_keeps (fun (d : Chip) (x : SplitFrame) => d.inc C.TRK_US_STOMPED x.ch) Chip.otherOkBit (fun _ _ => rfl) _ c

/-- A burst that is given back changes registers of queues only. -/
theorem Chip.otherOkBit_unform (c : Chip) (b : Burst) : (c.unform b).otherOkBit = c.otherOkBit := by
  have hqueues (d : Chip) : (b.took.foldl (fun (d : Chip) x => d.queueStat x.q x.f.blk) d).otherOkBit = d.otherOkBit :=
    foldl_keeps _ Chip.otherOkBit (fun _ _ => Chip.otherOkBit_queueStat ..) _ d
  have hbound (l : List Nat) (d : Chip) : (l.foldl (fun (d : Chip) g => d.rebind g none) d).otherOkBit = d.otherOkBit :=
    foldl_keeps _ Chip.otherOkBit (fun _ _ => Chip.otherOkBit_rebind ..) l d
  exact (hqueues _).trans ((Chip.otherOkBit_ite_else (hbound _ _)).trans (Chip.otherOkBit_ite_else (c := c) rfl))

theorem Chip.otherOkBit_dropGrants (c : Chip) : c.dropGrants.otherOkBit = c.otherOkBit := by
  have hpending (d : Chip) : (forN 16 (fun k d => d.wg R.TRK_US_STAT_PENDING k 0) d).otherOkBit = d.otherOkBit :=
    forN_keeps 16 _ Chip.otherOkBit (fun _ _ => Chip.otherOkBit_wg _ (by decide) (by decide) _ _) d
  have hunform : (c.up.formed.reverse.foldl (fun (d : Chip) b => d.unform b) c).otherOkBit = c.otherOkBit :=
    foldl_keeps _ Chip.otherOkBit (fun _ _ => Chip.otherOkBit_unform ..) _ c
  exact (Chip.rg_mk ..).trans ((hpending _).trans hunform)

/-! ## Modes (R86, R117, R119) -/

/-- A kept candidate's commit transaction aborts: ALM_JUB_STAT.TXN is cleared. -/
theorem Chip.otherOkBit_txnAbort_jubilee (c : Chip) {x : Txn} (h : x.origin = .jubilee) (cause addr : Nat) :
    (c.txnAbort x cause addr true).otherOkBit = c.otherOkBit := by
  have hnotify (d : Chip) : (d.notify x 4 cause).otherOkBit = d.otherOkBit := by
    unfold Chip.notify
    split <;> rfl
  simp only [Chip.txnAbort, Chip.txnOrigin, h, if_true]
  exact (Chip.otherOkBit_wg _ (by decide) (by decide) _ _).trans (hnotify _)

theorem Chip.otherOkBit_leaveJubilee (c : Chip) : (c.leaveJubilee true).otherOkBit = c.otherOkBit := by
  have habort : (c.txnAbortAll 9 true (fun x => decide (x.origin = .jubilee))).otherOkBit = c.otherOkBit :=
    foldl_keeps_of_mem _ Chip.otherOkBit _ (fun x hx d =>
      d.otherOkBit_txnAbort_jubilee (of_decide_eq_true (List.mem_filter.mp hx).2) 9 0) c
  unfold Chip.leaveJubilee
  dsimp only
  rw [Chip.otherOkBit_wg _ (by decide) (by decide), Chip.otherOkBit_wg _ (by decide) (by decide)]
  split <;> exact habort

theorem Chip.otherOkBit_modeNoted (c : Chip) (code cause : Nat) : (c.modeNoted code cause).otherOkBit = c.otherOkBit := by
  refine (Chip.otherOkBit_wg _ (by decide) (by decide) _ _).trans ?_
  repeat rw [Chip.otherOkBit_wg _ (by decide) (by decide)]

/-- A change of the mode, but to EVENTIDE. -/
theorem Chip.otherOkBit_setMode (c : Chip) {code : Nat} (hcode : code ≠ 11) (cause : Nat) : (c.setMode code cause).otherOkBit = c.otherOkBit := by
  have hloops (d : Chip) : d.loopsClear.otherOkBit = d.otherOkBit := d.loopsClear_rg_below (by decide)
  have hleave (d : Chip) : (d.leaveJubilee (decide (code ≠ 11))).otherOkBit = d.otherOkBit := by
    rw [decide_eq_true hcode]
    exact d.otherOkBit_leaveJubilee
  unfold Chip.setMode
  exact (Chip.otherOkBit_ite_then (Chip.otherOkBit_dropGrants _)).trans ((Chip.otherOkBit_ite_then (hloops _)).trans
    ((Chip.otherOkBit_ite_then (hleave _)).trans (c.otherOkBit_modeNoted code cause)))

theorem Chip.otherOkBit_allocClear (c : Chip) (a : Nat) : (c.allocClear a).otherOkBit = c.otherOkBit := by
  simp only [Chip.allocClear, List.foldl_cons, List.foldl_nil]
  repeat rw [Chip.otherOkBit_wg _ (by decide) (by decide)]

theorem Chip.otherOkBit_eraseMgmt (c : Chip) : c.eraseMgmt.otherOkBit = c.otherOkBit :=
  Chip.otherOkBit_wg c (by decide) (by decide) _ _

/-- The identity and the allocations that entry to LISTEN clears. -/
def Chip.forgetIdentity (c : Chip) : Chip :=
  have c := (((c.wg R.TRK_TERM_ID_ID 0 0).wg R.TRK_TERM_ID_HOME 0 0).wg R.TRK_TERM_ID_VALID 0 0).eraseMgmt
  have c := (c.wg R.TRK_TERM_ALLOC_DEFAULT 0 0).wg R.TRK_TERM_ALLOC_MGMT_TAG 0 0
  (c.instances R.TRK_ALLOC_VALID 1024).foldl (fun d a => d.allocClear a) c

theorem Chip.otherOkBit_forgetIdentity (c : Chip) : c.forgetIdentity.otherOkBit = c.otherOkBit := by
  have hallocs (l : List Nat) (d : Chip) : (l.foldl (fun (d : Chip) a => d.allocClear a) d).otherOkBit = d.otherOkBit :=
    foldl_keeps _ Chip.otherOkBit (fun _ _ => Chip.otherOkBit_allocClear ..) l d
  refine (hallocs _ _).trans ?_
  rw [Chip.otherOkBit_wg _ (by decide) (by decide), Chip.otherOkBit_wg _ (by decide) (by decide), Chip.otherOkBit_eraseMgmt]
  repeat rw [Chip.otherOkBit_wg _ (by decide) (by decide)]

/-- The frames and the split frames of allocations that entry to LISTEN lets go. -/
def Chip.forgetBindings (c : Chip) : Chip :=
  have c := { c.loseSplits (fun _ => true) with qs.frames := c.qs.frames.map (fun (x : QFrame) => { x with member := none }), up.owedAborts := [] }
  (c.qs.frames.map (fun x => (x.q, x.f.blk))).foldl (fun d y => d.queueStat y.1 y.2) c

theorem Chip.otherOkBit_forgetBindings (c : Chip) : c.forgetBindings.otherOkBit = c.otherOkBit :=
  (Chip.otherOkBit_queueStats _ _).trans ((Chip.rg_mk ..).trans (Chip.otherOkBit_loseSplits c _))

/-- The channels and delays that entry to LISTEN forgets. -/
def Chip.forgetDelays (c : Chip) : Chip :=
  have c := forN 16 (fun k d => d.wg R.TRK_US_STAT_CH_OFF k 0) c
  have c := forN 32 (fun i d => (d.wg R.TRK_EQD_VALID i 0).wg R.TRK_EQD_EQD i 0) c
  { (c.wg R.TRK_SIDE_STAT_EQD_VALID 0 0) with up.ranging := [], up.eqdPend := [], ds.parked := none }

theorem Chip.otherOkBit_forgetDelays (c : Chip) : c.forgetDelays.otherOkBit = c.otherOkBit := by
  have hoff (d : Chip) : (forN 16 (fun k d => d.wg R.TRK_US_STAT_CH_OFF k 0) d).otherOkBit = d.otherOkBit :=
    forN_keeps 16 _ Chip.otherOkBit (fun _ _ => Chip.otherOkBit_wg _ (by decide) (by decide) _ _) d
  have heqd (d : Chip) : (forN 32 (fun i d => (d.wg R.TRK_EQD_VALID i 0).wg R.TRK_EQD_EQD i 0) d).otherOkBit = d.otherOkBit :=
    forN_keeps 32 _ Chip.otherOkBit
      (fun _ _ => (Chip.otherOkBit_wg _ (by decide) (by decide) _ _).trans (Chip.otherOkBit_wg _ (by decide) (by decide) _ _)) d
  exact (Chip.rg_mk ..).trans ((Chip.otherOkBit_wg _ (by decide) (by decide) _ _).trans ((heqd _).trans (hoff c)))

/-- The masked receivers that entry to LISTEN starts. -/
def Chip.listenStart (c : Chip) : Chip :=
  forN 16 (fun k d => if d.rbit R.TRK_SIDE_MASK_MASK 0 k && !d.rb R.TRK_DS_CFG_ENABLE k && freqDsOk (d.rg R.TRK_DS_CFG_FREQ_N k) then d.dsStart k else d) c

theorem Chip.otherOkBit_listenStart (c : Chip) : c.listenStart.otherOkBit = c.otherOkBit :=
  forN_keeps 16 _ Chip.otherOkBit (fun k d => by
    split
    · exact d.otherOkBit_dsStart k
    · rfl) c

theorem Chip.enterListen_eq (c : Chip) (cause : Nat) :
    c.enterListen cause = (c.setMode 2 cause).forgetIdentity.forgetBindings.forgetDelays.listenStart.aCheck := by
  unfold Chip.enterListen Chip.forgetIdentity Chip.forgetBindings Chip.forgetDelays Chip.listenStart
  with_reducible rfl

theorem Chip.otherOkBit_enterListen (c : Chip) (cause : Nat) : (c.enterListen cause).otherOkBit = c.otherOkBit := by
  rw [Chip.enterListen_eq, Chip.otherOkBit_aCheck, Chip.otherOkBit_listenStart, Chip.otherOkBit_forgetDelays,
    Chip.otherOkBit_forgetBindings, Chip.otherOkBit_forgetIdentity, Chip.otherOkBit_setMode _ (by decide)]

/-- The loss of the downstream leaves OTHER_OK, in every mode. -/
theorem Chip.otherOkBit_syncCheck (c : Chip) : c.syncCheck.otherOkBit = c.otherOkBit := by
  unfold Chip.syncCheck
  split
  · exact c.otherOkBit_aCheck
  · split
    · exact c.otherOkBit_enterListen 6
    · split
      · exact (Chip.otherOkBit_aCheck _).trans (c.otherOkBit_setMode (by decide) 6)
      · exact c.otherOkBit_aCheck

/-- The chip of APS_QUIESCED before the downstream is checked: every receiver goes to the other side. -/
def Chip.apsMoved (c : Chip) : Chip :=
  have c := c.dropGrants
  have c := forN 16 (fun k d =>
    if d.rb R.TRK_DS_CFG_ENABLE k then
      ((d.wg R.TRK_DS_STAT_ACQ k 0).setEng k { d.eng k with step := 0, cands := [], sfc := none, jump := none, delin := none, good := 0, frGrants := false }).setFstate k 0
    else d) c
  (c.wg R.TRK_SIDE_STAT_OTHER_OK 0 0).watchRestart

theorem Chip.otherOkBit_watchRestart (c : Chip) : c.watchRestart.otherOkBit = c.otherOkBit :=
  (Chip.rg_mk ..).trans (Chip.otherOkBit_wg c (by decide) (by decide) _ _)

theorem Chip.apsMoved_otherOkBit (c : Chip) : c.apsMoved.otherOkBit = 0 := by
  unfold Chip.apsMoved
  exact (Chip.otherOkBit_watchRestart _).trans (Chip.rg_wg_same ..)

/-- The chip at step 2 of a switch, whose path moves. -/
def Chip.pathMoving (c : Chip) : Chip := { c with ds.apsStep := 2, ds.cycleDone := false, ds.parked := none, ds.apsHealthyAt := none }

theorem apsQuiesced_moved {c : Chip} (hstep : c.ds.apsStep = 1) (hidle : c.up.active = []) : apsQuiesced c = c.apsMoved.syncCheck.pathMoving := by
  unfold apsQuiesced Chip.apsMoved Chip.pathMoving
  rw [if_pos ⟨hstep, List.isEmpty_iff.mpr hidle⟩]

theorem Chip.pathMoving_reads (c : Chip) :
    c.pathMoving.ds.apsStep = 2 ∧ c.pathMoving.ds.cycleDone = false ∧ c.pathMoving.otherOkBit = c.otherOkBit := ⟨rfl, rfl, rfl⟩

end Sys2Proof.Machine

namespace Sys2Proof.Safety

open Sys2Proof Sys2Proof.Machine

/-- APS_QUIESCED (R114 step 2), in every mode: what the loss of the downstream does then leaves OTHER_OK. -/
theorem apsQuiesced_moves (t : Nat) (s : State) (hs : ready s) (hstep : s.chip.ds.apsStep = 1) (hidle : s.chip.up.active = []) :
    ∃ u, exec (.apsQuiesced t) s = .next u ∧ u.chip.ds.apsStep = 2 ∧ u.chip.ds.cycleDone = false ∧
      u.chip.rg R.TRK_SIDE_STAT_OTHER_OK 0 = 0 := by
  obtain ⟨hnext, hcycle, hother⟩ := (chipAt s t).apsMoved.syncCheck.pathMoving_reads
  refine ⟨_, State.on_running s t (fun _ => apsQuiesced) hs.1, ?_⟩
  rw [apsQuiesced_moved (c := s.chip.tick t) hstep hidle, State.after_chip, Chip.done_ds, Chip.rg_done]
  exact ⟨hnext, hcycle, hother.trans ((Chip.otherOkBit_syncCheck _).trans (Chip.apsMoved_otherOkBit _))⟩

/-- Settles O10. -/
theorem protectionCommands : Obligations.ProtectionCommands :=
  ⟨apsManual_starts, apsForce_starts, apsLockout_locks, apsClear_clears, apsAutoHold_starts, apsWtrExpire_starts, apsHoldEnd_ends,
    apsQuiesced_moves, apsPathMoved_acquires, apsSync_syncs, apsResume_assembly, apsSwitchTimeout_assembly⟩

end Sys2Proof.Safety
end

section
/-! PROOFS. Entry to EVENTIDE with a prepared candidate whose load named the mode (02_almanac.md R68, R86; 14_power_and_health.md R427). -/

namespace Sys2Proof.Machine

open Sys2Proof Sys2Proof.Safety

/-- A register of width `k.2` at key `k.1`, undefined from now on. -/
def Chip.regUndef (c : Chip) (k : Nat × Nat) : Chip := { c.draw.2 with regs := c.draw.2.regs.set k.1 (c.draw.1 % 2 ^ k.2) }

/-- The locks that the loader lets go of, once the inactive resources are undefined. -/
def Chip.loadUnlocked (c : Chip) : Chip :=
  have c := forN 12 (fun s d => if d.rb R.PKT_STAGE_STAT_LOCK s then d.wg R.PKT_STAGE_STAT_LOCK s 0 else d) c
  have c := forN 96 (fun x d => if d.rb R.SMP_PROG_BANK_LOCK x then d.wg R.SMP_PROG_BANK_LOCK x 0 else d) c
  { (c.wg R.ALM_GEN_CAND_GEN 0 0) with alm.load.prep := none, alm.load.waiting := false, alm.load.region := [], alm.load.shadow := [], alm.load.banks := [] }

theorem Chip.loadRelease_one {c : Chip} {k : Nat × Nat} (hregion : c.alm.load.region = []) (hshadow : c.alm.load.shadow = [k]) :
    c.loadRelease = (c.regUndef k).loadUnlocked := by
  unfold Chip.loadRelease Chip.loadUnlocked Chip.regUndef
  simp only [hregion, hshadow, List.foldl_nil, List.foldl_cons]

/-- The registers of a candidate and its tasks as it is discarded. -/
def Chip.candFree (c : Chip) : Chip :=
  have c := ((c.wg R.ALM_JUB_STAT_CAND_ALM 0 0).wg R.ALM_JUB_STAT_CAND_FW 0 0).wg R.SEC_FW_CAND_CTRL_STATE 0 0
  { c.imgFree with alm.cand := none, sec.cand := none, sec.candOp := none }

/-- A prepared candidate is discarded with its load. -/
theorem Chip.dropCandidate_prepared {c : Chip} (h : c.rb R.ALM_JUB_STAT_CAND_ALM 0 = true ∧ c.rg R.ALM_LOAD_STAT_STATE 0 = 4) :
    c.dropCandidate = (c.loadFail 21 0).candFree := by
  unfold Chip.dropCandidate Chip.candFree
  exact congrArg Chip.candFree (if_pos h)

/-- The terminal after reset in OPERATIONAL, with a prepared candidate whose load records the three low bits of TRK_MODE.CODE among the shadow
registers that it prepared. -/
def modeInShadow : State :=
  { State.reset with
    chip := { ((Chip.reset.wg R.TRK_MODE_CODE 0 5).wg R.ALM_JUB_STAT_CAND_ALM 0 1).wg R.ALM_LOAD_STAT_STATE 0 4 with
      alm.load.shadow := [(R.TRK_MODE_CODE.key 0, 3)] } }

/-- That terminal as its candidate is about to be discarded. -/
def modeInShadowLeft : Chip := ((chipAt modeInShadow 0).setMode 11 15).txnAbortAll 9 false (fun _ => true)

/-- What entry to EVENTIDE does to that terminal once the shadow register holds `v`: the mode holds `v`. -/
theorem modeInShadow_mode : ∀ v < 2 ^ 3,
    (({ modeInShadowLeft.draw.2 with
        regs := modeInShadowLeft.draw.2.regs.set (R.TRK_MODE_CODE.key 0) v } : Chip).loadUnlocked.loadState 6 21 0).candFree.swapMode.mode = v := by
  decide +kernel

theorem eventideEnter_modeInShadow : (eventideEnter (chipAt modeInShadow 0)).1.mode < 2 ^ 3 := by
  have hleft : modeInShadowLeft.dropCandidate =
      ((modeInShadowLeft.regUndef (R.TRK_MODE_CODE.key 0, 3)).loadUnlocked.loadState 6 21 0).candFree := by
    rw [Chip.dropCandidate_prepared (by decide +kernel), Chip.loadFail, Chip.loadRelease_one (k := (R.TRK_MODE_CODE.key 0, 3)) (by decide +kernel) (by decide +kernel)]
  have hlt := Nat.mod_lt modeInShadowLeft.draw.1 (y := 2 ^ 3) (by decide)
  have hmode : modeInShadowLeft.dropCandidate.swapMode.mode = modeInShadowLeft.draw.1 % 2 ^ 3 := by
    rw [hleft]
    exact modeInShadow_mode _ hlt
  have hrow : eventideEnter (chipAt modeInShadow 0) = ((chipAt modeInShadow 0).enterEventide 15, stOk) := if_pos (by decide +kernel)
  rw [hrow]
  exact (Chip.rg_mk ..).trans_lt (hmode.trans_lt hlt)

end Sys2Proof.Machine

namespace Sys2Proof.Safety

open Sys2Proof Sys2Proof.Machine

/-- Refutes O12 by its clause of EVENTIDE_ENTER: the candidate is discarded after the mode is written, and the registers that its load recorded as
prepared then hold free values (`Chip.loadRelease`). No premise keeps TRK_MODE.CODE out of that record. -/
theorem not_emissionAndModeCommands : ¬ Obligations.EmissionAndModeCommands := by
  rintro ⟨-, -, -, -, -, -, -, -, -, -, -, hevent, -⟩
  have hstep := hevent 0 modeInShadow (by decide +kernel) (by decide +kernel) (by decide +kernel) (by decide +kernel) (by decide +kernel)
  have hon : exec (.eventideEnter 0) modeInShadow = modeInShadow.on 0 (fun _ c => c.answeredIn 2 eventideEnter) := rfl
  rw [hon] at hstep
  have hmode := (State.after_of_on (by decide +kernel) hstep).1
  have hanswer : (chipAt modeInShadow 0).answeredIn 2 eventideEnter =
      (eventideEnter (chipAt modeInShadow 0)).1.emit .answer 0 [(eventideEnter (chipAt modeInShadow 0)).2] [] := if_pos (by decide +kernel)
  rw [hanswer, Chip.mode, rg_answered, ← Chip.mode] at hmode
  have hlow := eventideEnter_modeInShadow
  rw [hmode] at hlow
  exact absurd hlow (by decide)

end Sys2Proof.Safety
end

section
/-! PROOFS. The addresses of the counters (03_trunk_downstream.md R111, R112). -/

namespace Sys2Proof.Machine

open Sys2Proof Sys2Proof.Safety

/-! ## Offsets inside a family -/

/-- What the strides of a family leave of an offset is the offset inside one group. -/
theorem inDims_append (l : List (Nat × Nat)) : ∀ (dims : List (Nat × Nat)) (off : Nat),
    inDims (dims ++ l) off = (dimsRem dims off).elim false (inDims l)
  | [], _ => rfl
  | (st, n) :: dims, off => by
    rw [List.cons_append, inDims, dimsRem, inDims_append l dims]
    split <;> simp [*]

/-- Strides of whole counters lead from the HI word where they lead from the LO word, four octets on. -/
theorem dimsRem_add_four : ∀ {dims : List (Nat × Nat)} {off r : Nat}, (∀ d ∈ dims, d.1 % 8 = 0) → dimsRem dims off = some r → r % 8 = 0 →
    off % 8 = 0 ∧ dimsRem dims (off + 4) = some (r + 4)
  | [], off, r, _, h, hr => by
    obtain rfl : off = r := Option.some.inj h
    exact ⟨hr, rfl⟩
  | (st, n) :: dims, off, r, hd, h, hr => by
    obtain ⟨k, rfl⟩ : ∃ k, st = 8 * k := ⟨st / 8, by have := hd (st, n) List.mem_cons_self; omega⟩
    rw [dimsRem] at h
    split at h
    case isFalse => cases h
    case isTrue hlt =>
      obtain ⟨hmod, hnext⟩ := dimsRem_add_four (fun d hd' => hd d (List.mem_cons_of_mem _ hd')) h hr
      rw [Nat.mod_mul] at hmod
      have hoff : off % 8 = 0 := by omega
      have hdiv : (off + 4) / (8 * k) = off / (8 * k) := by
        rw [← Nat.div_div_eq_div_mul, ← Nat.div_div_eq_div_mul, show (off + 4) / 8 = off / 8 by omega]
      have hrem : (off + 4) % (8 * k) = off % (8 * k) + 4 := by
        rw [Nat.mod_mul, Nat.mod_mul, show (off + 4) / 8 = off / 8 by omega]
        omega
      refine ⟨hoff, ?_⟩
      rw [dimsRem, hdiv, hrem, if_pos hlt]
      exact hnext

/-- The octets from the first to the last counter of a family with these strides and `n` counters in one group. -/
def dimsSpan (n : Nat) : List (Nat × Nat) → Nat
  | [] => 8 * n
  | (st, c) :: dims => st * (c - 1) + dimsSpan n dims

theorem inDims_lt_span (n : Nat) : ∀ {dims : List (Nat × Nat)} {off : Nat}, inDims (dims ++ [(8, n), (4, 2)]) off = true → off < dimsSpan n dims
  | [], off, h => by
    simp only [List.nil_append, inDims, Bool.and_eq_true, decide_eq_true_eq] at h
    obtain ⟨hn, -⟩ := h
    rw [dimsSpan]
    omega
  | (st, c) :: dims, off, h => by
    simp only [List.cons_append, inDims, Bool.and_eq_true, decide_eq_true_eq] at h
    obtain ⟨hc, hrest⟩ := h
    have hrem := inDims_lt_span n hrest
    have hle : st * (off / st) ≤ st * (c - 1) := Nat.mul_le_mul_left _ (by omega)
    have hsplit := Nat.div_add_mod off st
    rw [dimsSpan]
    omega

/-! ## Families -/

/-- Is `a` a word of a counter of this family, laid out from `base`? -/
def CtrFamily.has (f : CtrFamily) (base a : Nat) : Prop := base ≤ a ∧ inDims (f.dims ++ [(8, f.n), (4, 2)]) (a - base) = true

theorem CtrFamily.has_lt {f : CtrFamily} {base a : Nat} (h : f.has base a) : base ≤ a ∧ a < base + dimsSpan f.n f.dims := by
  obtain ⟨hle, hin⟩ := h
  have hlt := inDims_lt_span f.n hin
  omega

/-- Where a family repeats with one stride, its words lie in one window of the stride. -/
theorem CtrFamily.has_window {f : CtrFamily} {base a st c : Nat} (hd : f.dims = [(st, c)]) (hfit : base % st + 8 * f.n ≤ st) (h : f.has base a) :
    base % st ≤ a % st ∧ a % st < base % st + 8 * f.n := by
  obtain ⟨hle, hin⟩ := h
  simp only [hd, List.cons_append, List.nil_append, inDims, Bool.and_eq_true, decide_eq_true_eq] at hin
  obtain ⟨-, hn, -⟩ := hin
  have hrem : a % st = (base % st + (a - base) % st) % st := by
    rw [← Nat.add_mod, Nat.add_sub_cancel' hle]
  generalize (a - base) % st = r at hn hrem
  have hlt : base % st + r < st := by omega
  rw [Nat.mod_eq_of_lt hlt] at hrem
  omega

/-- The live words of `f` are no latched words of `g`: they lie in different spans, or in different windows of one stride. -/
def CtrFamily.apart (f g : CtrFamily) : Bool :=
  decide (f.live + dimsSpan f.n f.dims ≤ g.lat ∨ g.lat + dimsSpan g.n g.dims ≤ f.live) ||
    match f.dims, g.dims with
    | [(s, _)], [(z, _)] => decide (s = z ∧ f.live % s + 8 * f.n ≤ s ∧ g.lat % s + 8 * g.n ≤ s ∧
        (f.live % s + 8 * f.n ≤ g.lat % s ∨ g.lat % s + 8 * g.n ≤ f.live % s))
    | _, _ => false

theorem CtrFamily.not_has_of_apart {f g : CtrFamily} {a : Nat} (h : f.apart g = true) (hf : f.has f.live a) : ¬ g.has g.lat a := by
  intro hg
  have hfspan := f.has_lt hf
  have hgspan := g.has_lt hg
  rw [CtrFamily.apart, Bool.or_eq_true, decide_eq_true_eq] at h
  rcases h with hspan | hwin
  · omega
  · split at hwin
    case h_1 s c z d hfd hgd =>
      obtain ⟨rfl, hffit, hgfit, hapart⟩ := of_decide_eq_true hwin
      have hfw := f.has_window hfd hffit hf
      have hgw := g.has_window hgd hgfit hg
      omega
    case h_2 => cases hwin

theorem ctrFams_apart : ∀ f ∈ ctrFams, ∀ g ∈ ctrFams, f.apart g = true := by decide

theorem ctrFams_words : ∀ f ∈ ctrFams, f.live % 8 = 0 ∧ ∀ d ∈ f.dims, d.1 % 8 = 0 := by decide

/-- No live counter lies in the windows of tables and samples, below DDR5. -/
theorem ctrFams_placed : ∀ f ∈ ctrFams,
    f.live + dimsSpan f.n f.dims ≤ 0x40000000 ∨ (0x58000000 ≤ f.live ∧ f.live + dimsSpan f.n f.dims ≤ 0x60000000) ∨ 0x64600000 ≤ f.live := by
  decide

/-! ## The HI word of a live counter -/

/-- The HI word of a live counter lies in the family of its LO word. -/
theorem ctrLive_hi {a : Nat} (h : ctrLive a = true) : a % 8 = 0 ∧ ∃ f ∈ ctrFams, f.has f.live (a + 4) := by
  obtain ⟨f, hf, hlive⟩ := List.any_eq_true.mp h
  obtain ⟨hbase, hstride⟩ := ctrFams_words f hf
  rw [Bool.and_eq_true, decide_eq_true_eq] at hlive
  obtain ⟨hle, hrem⟩ := hlive
  split at hrem
  case h_2 => cases hrem
  case h_1 r hr =>
    obtain ⟨hlt, hr8⟩ := of_decide_eq_true hrem
    obtain ⟨hoff, hnext⟩ := dimsRem_add_four hstride hr hr8
    refine ⟨by omega, f, hf, by omega, ?_⟩
    rw [inDims_append, show a + 4 - f.live = a - f.live + 4 by omega, hnext]
    simp only [Option.elim_some, inDims, Bool.and_eq_true, decide_eq_true_eq]
    omega

/-- The first that some element of a list gives, where the elements that give anything give the same. -/
theorem findSome?_eq_of_forall {α β : Type} {f : α → Option β} {x : β} : ∀ {l : List α}, (∀ b ∈ l, f b = none ∨ f b = some x) →
    (∃ b ∈ l, f b = some x) → l.findSome? f = some x
  | [], _, hex => by
    obtain ⟨b, hb, -⟩ := hex
    cases hb
  | b :: l, hall, hex => by
    rw [List.findSome?_cons]
    rcases hall b List.mem_cons_self with hnone | hsome
    · rw [hnone]
      refine findSome?_eq_of_forall (fun d hd => hall d (List.mem_cons_of_mem _ hd)) ?_
      obtain ⟨d, hd, hx⟩ := hex
      rcases List.mem_cons.mp hd with rfl | hd
      · exact absurd (hnone.symm.trans hx) (by simp)
      · exact ⟨d, hd, hx⟩
    · rw [hsome]

theorem ctrAt_hi {a : Nat} (h : ctrLive a = true) : ctrAt (a + 4) = some (a, false, true) := by
  obtain ⟨h8, f, hf, hhas⟩ := ctrLive_hi h
  have hword : (a + 4 - (a + 4) % 8, false, decide ((a + 4) % 8 = 4)) = (a, false, true) := by
    rw [show (a + 4) % 8 = 4 by omega, Nat.add_sub_cancel]
    rfl
  rw [ctrAt]
  refine findSome?_eq_of_forall (fun g hg => ?_) ⟨f, hf, (if_pos hhas).trans (congrArg some hword)⟩
  split
  · exact .inr (congrArg some hword)
  · exact .inl (if_neg (CtrFamily.not_has_of_apart (ctrFams_apart f hf g hg) hhas))

theorem placeAt_hi {a : Nat} (h : ctrLive a = true) (hlt : a < 0x80000000) : placeAt (a + 4) = .ctr := by
  obtain ⟨h8, f, hf, hhas⟩ := ctrLive_hi h
  obtain ⟨hle, hspan⟩ := f.has_lt hhas
  have hplace := ctrFams_placed f hf
  have hddr : ¬ 0x80000000 ≤ a + 4 := by omega
  have htable : inTables (a + 4) = false := decide_eq_false (by omega)
  have hsample : inSample (a + 4) = false := decide_eq_false (by omega)
  simp only [placeAt, hddr, htable, hsample, ctrAt_hi h, if_false, Bool.false_eq_true, Option.isSome_some, if_true]

end Sys2Proof.Machine
end

section
/-! PROOFS. Reads of the two words of a counter (03_trunk_downstream.md R112). -/

namespace Sys2Proof.Machine

open Sys2Proof Sys2Proof.Safety

theorem Tab.find_erase_same {α : Type} : ∀ (t : Tab α) (k : Nat), (t.erase k).find k = none
  | [], _ => rfl
  | (j, v) :: t, k => by
    have htail := Tab.find_erase_same t k
    rw [Tab.erase] at htail ⊢
    by_cases h : j = k
    · rwa [List.filter_cons_of_neg (by simp [h])]
    · rw [List.filter_cons_of_pos (by simp [h]), Tab.find, if_neg (Ne.symm h), htail, ite_self]

/-! ## What a read brings up to date first (R411, R426; log entry 42) -/

/-- The chip with other counters, after other draws of free values and with its residency counted up to another instant. -/
def Chip.recounted (c : Chip) (fresh : Nat) (cnt : Tab Nat) (at_ : Nat) : Chip := { c with fresh := fresh, cnt := cnt, pw.resAt := at_ }

/-- `d` is `c` but for those. -/
def Chip.Recounted (c d : Chip) : Prop := ∃ fresh cnt at_, d = c.recounted fresh cnt at_

theorem Chip.Recounted.refl (c : Chip) : c.Recounted c := ⟨c.fresh, c.cnt, c.pw.resAt, rfl⟩

theorem Chip.Recounted.trans {c d e : Chip} (h : c.Recounted d) (g : d.Recounted e) : c.Recounted e := by
  obtain ⟨_, _, _, rfl⟩ := h
  obtain ⟨fresh, cnt, at_, rfl⟩ := g
  exact ⟨fresh, cnt, at_, rfl⟩

theorem Chip.incBy_recounted (c : Chip) (k : Ctr) (i n : Nat) : c.Recounted (c.incBy k i n) := ⟨c.fresh, _, c.pw.resAt, rfl⟩

theorem Chip.forN_recounted {f : Nat → Chip → Chip} (hf : ∀ i d, Chip.Recounted d (f i d)) (n : Nat) (c : Chip) : c.Recounted (forN n f c) :=
  forN_induct (p := fun _ d => c.Recounted d) (.refl c) (fun i d h => h.trans (hf i d)) n

theorem Chip.residency_recounted (c : Chip) : c.Recounted c.residency := by
  unfold Chip.residency
  dsimp only
  split
  case isTrue => exact .refl c
  case isFalse =>
    refine ((c.forN_recounted (fun d e => e.incBy_recounted ..) 17).trans
      (Chip.forN_recounted (fun b e => (e.incBy_recounted ..).trans (Chip.incBy_recounted ..)) 32 _)).trans ⟨_, _, _, rfl⟩

theorem Chip.measureAt_recounted (c : Chip) (a : Nat) : c.Recounted (c.measureAt a) := by
  unfold Chip.measureAt Chip.measureOne
  split
  · split
    · exact ⟨c.fresh + 1, _, c.pw.resAt, rfl⟩
    · exact .refl c
  · exact .refl c

/-- A counter of nothing measured is not touched. -/
theorem Chip.measureAt_other (c : Chip) {a : Nat} (h : measuredCtrs.all (fun m => (m.instAt a).isNone) = true) : c.measureAt a = c := by
  have hnone : measuredCtrs.findSome? (fun m => (m.instAt a).map (fun i => (m, i))) = none :=
    List.findSome?_eq_none_iff.mpr fun m hm => by
      rw [Option.isNone_iff_eq_none.mp (List.all_eq_true.mp h m hm), Option.map_none]
  rw [Chip.measureAt, hnone]

/-! ## The LO word -/

/-- The chip as the LO word of the counter at `a` is read, brought up to date. -/
def Chip.upToDate (c : Chip) (a : Nat) : Chip := (if 0x130000 ≤ a ∧ a < 0x140000 then c.residency else c).measureAt a

theorem Chip.upToDate_recounted (c : Chip) (a : Nat) : c.Recounted (c.upToDate a) := by
  refine Chip.Recounted.trans ?_ (Chip.measureAt_recounted _ a)
  split
  · exact c.residency_recounted
  · exact .refl c

theorem Chip.upToDate_other (c : Chip) {a : Nat} (hm : measuredCtrs.all (fun m => (m.instAt a).isNone) = true)
    (hr : ¬ (0x130000 ≤ a ∧ a < 0x140000)) : c.upToDate a = c := by
  rw [Chip.upToDate, if_neg hr, c.measureAt_other hm]

/-- The chip with the HI word of the counter at `a` captured from the value `v`. -/
def Chip.capture (c : Chip) (a v : Nat) : Chip := { c with cap := c.cap.set (a + 4) (v / 2 ^ 32) }

theorem Chip.counterRead_lo (c : Chip) (a : Nat) :
    c.counterRead (a, false, false) =
      have v := (c.upToDate a).flowCount a (Tab.get 0 (c.upToDate a).cnt a)
      ((c.upToDate a).capture a v, v % 2 ^ 32) := rfl

theorem counterLoRead_live {c : Chip} {a : Nat} (h : ctrLive a = true) :
    counterLoRead a c =
      have v := (c.upToDate a).flowCount a (Tab.get 0 (c.upToDate a).cnt a)
      ((c.upToDate a).capture a v).emit .readWord 0 [v % 2 ^ 32] [] := by
  rw [counterLoRead, if_pos h, Chip.counterRead_lo]

/-! ## The HI word -/

/-- The chip with the captured HI word of the counter at `a` used up. -/
def Chip.captureUsed (c : Chip) (a : Nat) : Chip := { c with cap := c.cap.erase (a + 4) }

theorem Chip.counterRead_hi {c : Chip} {a hi : Nat} (h : c.cap.find (a + 4) = some hi) :
    ∃ d, c.Recounted d ∧ c.counterRead (a, false, true) = (d.captureUsed a, hi) := by
  obtain ⟨d, hd, hdef⟩ : ∃ d, c.Recounted d ∧ d = if 0x130000 ≤ a ∧ a < 0x140000 then c.residency else c := by
    refine ⟨_, ?_, rfl⟩
    split
    · exact c.residency_recounted
    · exact .refl c
  have hcap : d.cap.find (a + 4) = some hi := by
    obtain ⟨_, _, _, rfl⟩ := hd
    exact h
  refine ⟨d, hd, ?_⟩
  simp only [Chip.counterRead, ← hdef, Bool.false_eq_true, if_false, if_true, hcap]
  rfl

/-- A word that may be read now, in the HI word of a live counter: the captured value. -/
theorem Chip.readWord_hi {c : Chip} {m : Mem} {who a hi : Nat} (hlive : ctrLive a = true) (hlt : a < 0x80000000) (hr : c.mayRead who (a + 4) = stOk)
    (ha : c.reach (a + 4) = stOk) (hheld : c.readHeld (a + 4) = false) (h : c.cap.find (a + 4) = some hi) :
    ∃ d, c.Recounted d ∧ c.readWord m who (a + 4) = some ⟨d.captureUsed a, hi, stOk⟩ := by
  obtain ⟨d, hd, hread⟩ := Chip.counterRead_hi h
  refine ⟨d, hd, ?_⟩
  simp [Chip.readWord, hr, ha, hheld, Chip.rawRead, placeAt_hi hlive hlt, Chip.regRead, ctrAt_hi hlive, hread]

theorem Chip.AnswersAs.captureUsed {c d e : Chip} {s : Nat} (h : c.AnswersAs d s) (hd : d.Recounted e) (a : Nat) :
    c.AnswersAs (e.captureUsed a) s := by
  obtain ⟨_, _, _, rfl⟩ := hd
  exact ⟨h.clear, h.empty, h.isOpen, h.mac, h.alike⟩

end Sys2Proof.Machine

namespace Sys2Proof.Safety

open Sys2Proof Sys2Proof.Machine

/-- COUNTER_LO_READ (R112): the value is answered, its HI word captured. -/
theorem counterLoRead_captures (t a : Nat) (s : State) (hs : ready s) (hlive : ctrLive a = true) :
    ∃ u v, exec (.counterLoRead t a) s = .next u ∧ v = s.chip.flowCount a (Tab.get 0 u.chip.cnt a) ∧
      newest u = some { kind := .readWord, unit := 0, data := [v % 2 ^ 32], bytes := [] } ∧ u.chip.cap.find (a + 4) = some (v / 2 ^ 32) ∧
      (measuredCtrs.all (fun m => (m.instAt a).isNone) = true → ¬(0x130000 ≤ a ∧ a < 0x140000) → u.chip.cnt = s.chip.cnt) ∧
      regsKept s u [] ∧ u.chip.win = s.chip.win ∧ u.mem = s.mem := by
  have hsame := fun hm hr => congrArg Chip.cnt ((chipAt s t).upToDate_other (a := a) hm hr)
  obtain ⟨fresh, cnt, at_, hdate⟩ := (chipAt s t).upToDate_recounted a
  have hrow := counterLoRead_live (c := chipAt s t) hlive
  rw [hdate] at hsame hrow
  refine ⟨_, _, State.on_running s t (fun _ => counterLoRead a) hs.1, rfl, ?_⟩
  rw [hrow]
  exact ⟨rfl, Tab.find_set_same .., hsame, fun _ _ _ => rfl, rfl, congrArg s.mem.applyAll hs.2⟩

/-- A READ of the HI word of a counter whose HI word is captured (R112). -/
theorem zcpRead_captured (t a hi : Nat) (l : List Byte) (q : ZcpMsg) (s : State) (hs : ready s) (hlive : ctrLive a = true) (hlt : a < 0x80000000)
    (h : requestOk (chipAt s t) l q 1) (hb : q.body = beBytes 6 (a + 4) ++ beBytes 2 1) (hr : (chipAt s t).mayRead (zcpSess l) (a + 4) = stOk)
    (ha : (chipAt s t).reach (a + 4) = stOk) (hheld : (chipAt s t).readHeld (a + 4) = false) (hcap : s.chip.cap.find (a + 4) = some hi) :
    ∃ u, exec (.zcpRead t l none) s = .next u ∧ responded s u l q (zeros 4 ++ beBytes 4 hi) ∧ u.chip.cap.find (a + 4) = none := by
  have htyp := typ_of_requestOk h
  have hans := answersAs_zcpTaken h
  have hbook := (chipAt s t).zcpTaken_booked l
  have hheld' := (hbook.read (·.readHeld (a + 4)) fun _ _ _ _ _ => rfl).trans hheld
  have hcap' := (hbook.read (·.cap.find (a + 4)) fun _ _ _ _ _ => rfl).trans hcap
  obtain ⟨d, hd, hread⟩ := Chip.readWord_hi (m := s.mem) hlive hlt ((hans.mayRead _).trans hr) ((hbook.reach _).trans ha) hheld' hcap'
  have hword : ((chipAt s t).zcpTaken l).zcpWord s.mem (zcpSess l) q.req.typ ⟨a + 4, 1, [], 0, 0⟩ 0 ⟨none⟩ =
      ⟨d.captureUsed a, stOk, beBytes 4 hi, none⟩ := by
    simp [Chip.zcpWord, htyp, hread, Env.hits]
  have hstart := Chip.zcpStart_word (.inl htyp) (htyp ▸ Req.items_read htyp hb (by omega)) rfl hword (by simp [htyp, itemBytes])
  obtain ⟨u, hu, hnew, ⟨o, n, hub⟩, -⟩ := zcpRow_answers hs h hstart (hans.captureUsed hd a) (.refl _) (by decide)
  exact ⟨u, hu, hnew, (hub.read (·.cap.find (a + 4)) fun _ _ _ _ _ => rfl).trans (Tab.find_erase_same _ _)⟩

/-- Settles O56. -/
theorem counterReadCapturesItsHighWord : Obligations.CounterReadCapturesItsHighWord := ⟨counterLoRead_captures, zcpRead_captured⟩

end Sys2Proof.Safety
end

section
/-! PROOFS. Messages of the head end (04_trunk_access.md R117, R125 to R133): a message is taken off the queue of its wavelength, and
what it did is acknowledged. -/

namespace Sys2Proof.Machine

open Sys2Proof Sys2Proof.Safety

/-! ## Messages (R125, R126) -/

/-- The chip once a message is off the queue of its wavelength. -/
def Chip.msgTaken (c : Chip) (k : Nat) (x : MsgSlot) : Chip := c.setEng k { c.eng k with msgs := (c.eng k).msgs.erase x }

theorem Chip.onMsg_found {c : Chip} {k : Nat} {p : MsgSlot → Bool} {x : MsgSlot} (h : (c.eng k).msgs.find? p = some x)
    (f : MsgSlot → Chip → Chip) : c.onMsg k p f = f x (c.msgTaken k x) := by
  simp only [Chip.onMsg, Chip.popMsg, h, Chip.msgTaken]

/-- The acknowledgement of a message that was carried out (R125). -/
def MsgSlot.okRec (x : MsgSlot) : Rec := ⟨0x82, beBytes 1 (byteAt x.bytes 2) ++ [0] ++ slice x.bytes 4 2 ++ beBytes 1 x.wl⟩

/-- The chip with one more acknowledgement. -/
def Chip.acked (c : Chip) (x : MsgSlot) : Chip := { c with up.acks := c.up.acks ++ [x.okRec] }

theorem Chip.ack_ok {c : Chip} (h : c.up.acks.length < 64) (x : MsgSlot) : c.ack x 0 = c.acked x := by
  have hroom : ¬ c.up.acks.length ≥ 64 := Nat.not_le.mpr h
  have hzero : beBytes 1 0 = [0] := by decide
  simp only [Chip.ack, hroom, if_false, hzero, Chip.acked, MsgSlot.okRec]

theorem Chip.acked_rg (c : Chip) (x : MsgSlot) (g : Fld) (j : Nat) : (c.acked x).rg g j = c.rg g j := rfl

/-! ## Modes that a message leads to (R117) -/

/-- A mode that is neither one of those in which emission is forbidden nor left from JUBILEE or LOOPBACK is only noted. -/
theorem Chip.setMode_noted {c : Chip} {code : Nat} (cause : Nat) (hleft : c.mode < 9) (hcode : code = 3 ∨ code = 4) :
    c.setMode code cause = c.modeNoted code cause := by
  have hjubilee : c.mode ≠ 10 := by omega
  have hloop : c.mode ≠ 9 := by omega
  rcases hcode with rfl | rfl <;> simp [Chip.setMode, Chip.modeNoted, hjubilee, hloop]

/-- The registers that a change of the mode writes. -/
def modeKeys : List Nat := [R.TRK_MODE_PREV.key 0, R.TRK_MODE_CODE.key 0, R.TRK_MODE_CAUSE.key 0, R.TRK_MODE_EVT_MODE_CHG.key 0]

theorem Chip.modeNoted_rg_other (c : Chip) (code cause : Nat) {g : Fld} {j : Nat} (h : g.key j ∉ modeKeys) :
    (c.modeNoted code cause).rg g j = c.rg g j := by
  obtain ⟨hprev, hcode, hcause, hevt⟩ : g.key j ≠ R.TRK_MODE_PREV.key 0 ∧ g.key j ≠ R.TRK_MODE_CODE.key 0 ∧
    g.key j ≠ R.TRK_MODE_CAUSE.key 0 ∧ g.key j ≠ R.TRK_MODE_EVT_MODE_CHG.key 0 := by simpa [modeKeys] using h
  refine (Chip.rg_wg_other _ R.TRK_MODE_EVT_MODE_CHG g 0 j _ hevt.symm).trans ?_
  rw [Chip.rg_wg_other _ _ _ _ _ _ hcause.symm, Chip.rg_wg_other _ _ _ _ _ _ hcode.symm, Chip.rg_wg_other _ _ _ _ _ _ hprev.symm]

/-- The chip that heard a DISCOVERY (R129): the head end, its channels and the instant. -/
def Chip.heard (c : Chip) (b : List Byte) : Chip := { c with up.discAt := c.now, up.heId := word b 0, up.chMask := half b 4 }

/-- The chip with no announcement under way (R129). -/
def Chip.unannounced (c : Chip) : Chip := { c with up.unanswered := 0, up.skips := 0, up.annOct := none }

theorem discoveryMsg_listen {c : Chip} {k : Nat} (x : MsgSlot) (hmode : c.mode = 2) (hsync : c.inSync k = true) :
    discoveryMsg k x c = ((c.heard x.body).modeNoted 3 3).unannounced := by
  have hheard : (c.heard x.body).mode = 2 := hmode
  have hset := Chip.setMode_noted 3 (hheard.trans_lt (by decide)) (.inl rfl : 3 = 3 ∨ 3 = 4)
  simp only [discoveryMsg, hmode, hsync, true_or, and_self, if_true]
  exact congrArg Chip.unannounced hset

/-- The chip with the identity that ASSIGN_ID gives (R130). -/
def Chip.identified (c : Chip) (b : List Byte) : Chip :=
  (((((c.wg R.TRK_TERM_ID_ID 0 (half b 12)).wg R.TRK_TERM_ID_HOME 0 (byteAt b 18)).wg R.TRK_TERM_ID_VALID 0 1).wg
    R.TRK_TERM_ALLOC_DEFAULT 0 (half b 14)).wg R.TRK_TERM_ALLOC_MGMT_TAG 0 (half b 16)).unannounced

theorem Chip.identified_mode (c : Chip) (b : List Byte) : (c.identified b).mode = c.mode := by
  unfold Chip.identified
  refine (Chip.rg_mk ..).trans ?_
  repeat rw [Chip.rg_wg_other _ _ _ _ _ _ (by decide)]
  rfl

theorem assignIdMsg_announce {c : Chip} (x : MsgSlot) (hmode : c.mode = 3) (hserial : x.body.take 12 = c.serial)
    (hid : half x.body 12 ≤ 0xFFFD) (hdefault : half x.body 14 ≤ 4093) (htag : half x.body 16 ≤ 65534) (hhome : byteAt x.body 18 ≤ 15) :
    assignIdMsg x c = (c.identified x.body).modeNoted 4 4 := by
  have hset := Chip.setMode_noted (c := c.identified x.body) 4 ((c.identified_mode _).trans_lt (by omega)) (.inr rfl : 4 = 3 ∨ 4 = 4)
  simp only [assignIdMsg, hmode, hserial, hid, hdefault, htag, hhome, and_self, if_true]
  exact hset

/-- What ASSIGN_ID gave reads as the message has it, after a change of the mode too. -/
theorem Chip.identified_reads (c : Chip) {b : List Byte} (code cause : Nat) (hid : half b 12 ≤ 0xFFFD) (hdefault : half b 14 ≤ 4093)
    (htag : half b 16 ≤ 65534) (hhome : byteAt b 18 ≤ 15) :
    ((c.identified b).modeNoted code cause).rg R.TRK_TERM_ID_ID 0 = half b 12 ∧
      ((c.identified b).modeNoted code cause).rg R.TRK_TERM_ID_HOME 0 = byteAt b 18 ∧
      ((c.identified b).modeNoted code cause).rg R.TRK_TERM_ID_VALID 0 = 1 ∧
      ((c.identified b).modeNoted code cause).rg R.TRK_TERM_ALLOC_DEFAULT 0 = half b 14 ∧
      ((c.identified b).modeNoted code cause).rg R.TRK_TERM_ALLOC_MGMT_TAG 0 = half b 16 := by
  refine ⟨?_, ?_, ?_, ?_, ?_⟩ <;>
    rw [Chip.modeNoted_rg_other _ _ _ (by decide)] <;>
    refine (Chip.rg_mk ..).trans ?_ <;>
    repeat rw [Chip.rg_wg_other _ _ _ _ _ _ (by decide)]
  all_goals
    rw [Chip.rg_wg_same]
    exact Nat.mod_eq_of_lt (by simp only [R.TRK_TERM_ID_ID, R.TRK_TERM_ID_HOME, R.TRK_TERM_ID_VALID, R.TRK_TERM_ALLOC_DEFAULT, R.TRK_TERM_ALLOC_MGMT_TAG]; omega)

end Sys2Proof.Machine

namespace Sys2Proof.Safety

open Sys2Proof Sys2Proof.Machine

/-- A message of a running terminal acts on the chip without it. -/
theorem on_msg {s : State} {t k : Nat} {p : MsgSlot → Bool} {x : MsgSlot} {f : MsgSlot → Chip → Chip} (hs : ready s)
    (h : (s.chip.eng k).msgs.find? p = some x) :
    s.on t (fun _ c => c.onMsg k p f) = .next (s.after (f x ((chipAt s t).msgTaken k x))) := by
  rw [State.on_running _ _ _ hs.1]
  exact congrArg (fun c => Host.Outcome.next (s.after c)) (Chip.onMsg_found (c := chipAt s t) h f)

/-- DISCOVERY in LISTEN. -/
theorem discovery_announces (t : Nat) (k : Fin 16) (x : MsgSlot) (s : State) (hs : ready s)
    (hmsg : (s.chip.eng k).msgs.find? (fun x => decide (x.typ = 1)) = some x) (hmode : s.chip.mode = 2) (hsync : s.chip.inSync k = true) :
    ∃ u, exec (.discovery t k) s = .next u ∧ u.chip.mode = 3 ∧ u.chip.rg R.TRK_MODE_PREV 0 = 2 ∧ u.chip.rg R.TRK_MODE_CAUSE 0 = 3 ∧
      u.chip.up.heId = word x.body 0 ∧ u.chip.up.chMask = half x.body 4 ∧ u.chip.up.discAt = max s.chip.now t ∧ u.chip.up.unanswered = 0 ∧
      kept s u [R.TRK_MODE_PREV.key 0, R.TRK_MODE_CODE.key 0, R.TRK_MODE_CAUSE.key 0, R.TRK_MODE_EVT_MODE_CHG.key 0] := by
  refine ⟨_, on_msg hs hmsg, ?_⟩
  rw [discoveryMsg_listen (c := (chipAt s t).msgTaken k x) x hmode hsync]
  have hold : (((chipAt s t).msgTaken k x).heard x.body).mode = 2 := hmode
  refine ⟨?_, ?_, ?_, rfl, rfl, rfl, rfl, kept_after_but hs (fun g j hg => ?_) rfl rfl rfl⟩
  · exact (Chip.rg_done ..).trans (Chip.modeNoted_mode _ (by decide) 3)
  · exact (Chip.rg_done ..).trans ((Chip.modeNoted_prev _ (hold.trans_lt (by decide)) 3 3).trans hold)
  · exact (Chip.rg_done ..).trans (Chip.modeNoted_cause _ 3 (by decide))
  · exact Chip.modeNoted_rg_other (((chipAt s t).msgTaken k x).heard x.body) 3 3 hg

/-- ASSIGN_ID in ANNOUNCE. -/
theorem assignId_ranges (t : Nat) (k : Fin 16) (x : MsgSlot) (s : State) (hs : ready s)
    (hmsg : (s.chip.eng k).msgs.find? (fun x => decide (x.typ = 2)) = some x) (hmode : s.chip.mode = 3)
    (hserial : x.body.take 12 = s.chip.serial) (hid : half x.body 12 ≤ 0xFFFD) (hdefault : half x.body 14 ≤ 4093)
    (htag : half x.body 16 ≤ 65534) (hhome : byteAt x.body 18 ≤ 15) :
    ∃ u, exec (.assignId t k) s = .next u ∧ u.chip.mode = 4 ∧ u.chip.rg R.TRK_TERM_ID_ID 0 = half x.body 12 ∧
      u.chip.rg R.TRK_TERM_ID_HOME 0 = byteAt x.body 18 ∧ u.chip.rg R.TRK_TERM_ID_VALID 0 = 1 ∧
      u.chip.rg R.TRK_TERM_ALLOC_DEFAULT 0 = half x.body 14 ∧ u.chip.rg R.TRK_TERM_ALLOC_MGMT_TAG 0 = half x.body 16 ∧
      u.chip.rg R.TRK_MODE_CAUSE 0 = 4 := by
  obtain ⟨hidR, hhomeR, hvalid, hdefaultR, htagR⟩ := ((chipAt s t).msgTaken k x).identified_reads 4 4 hid hdefault htag hhome
  refine ⟨_, on_msg hs hmsg, ?_⟩
  rw [assignIdMsg_announce (c := (chipAt s t).msgTaken k x) x hmode hserial hid hdefault htag hhome]
  exact ⟨(Chip.rg_done ..).trans (Chip.modeNoted_mode _ (by decide) 4), hidR, hhomeR, hvalid, hdefaultR, htagR,
    (Chip.rg_done ..).trans (Chip.modeNoted_cause _ 4 (by decide))⟩

end Sys2Proof.Safety
end

section
/-! PROOFS. What the time unit (09_time_and_sync.md R269 to R287) leaves of the state beside the registers: the upstream side, and the
maps of T-A (R272, R276). -/

namespace Sys2Proof.Machine

open Sys2Proof Sys2Proof.Safety

/-- The upstream side, and of the maps of T-A those held, the association, and the one that the Octave grid stands on. -/
def Chip.mapped (c : Chip) : UpSt × List (Nat × Int) × Option (Nat × Int) × Option (Nat × Int) :=
  (c.up, c.tm.held, c.tm.assoc, c.tm.grid)

/-- A choice between two chips that read the same reads the same. -/
theorem Chip.mapped_ite {p : Prop} [Decidable p] {c d e : Chip} (h : d.mapped = c.mapped) (k : e.mapped = c.mapped) :
    (if p then d else e).mapped = c.mapped := by
  split
  · exact h
  · exact k

theorem Chip.setDom_mapped (c : Chip) (n : Nat) (x : Dom) : (c.setDom n x).mapped = c.mapped := Chip.mapped_ite rfl rfl

theorem Chip.select_mapped (c : Chip) (d : Nat) : (c.select d).mapped = c.mapped := Chip.mapped_ite rfl (Chip.mapped_ite rfl rfl)

theorem Chip.reselect_mapped (c : Chip) : c.reselect.mapped = c.mapped :=
  Chip.mapped_ite (c.select_mapped _) (Chip.mapped_ite (c.select_mapped _)
    (Chip.mapped_ite (Chip.mapped_ite rfl (Chip.mapped_ite rfl (c.select_mapped _)))
      (Chip.mapped_ite (Chip.mapped_ite rfl (c.select_mapped _)) rfl)))

theorem Chip.initialSet_mapped (c : Chip) : c.initialSet.mapped = c.mapped := Chip.mapped_ite (Chip.setDom_mapped ..) rfl

theorem Chip.timeStat_mapped (c : Chip) : c.timeStat.mapped = c.mapped := by
  have hwg (d : Chip) (f : Fld) (i v : Nat) : (d.wg f i v).mapped = d.mapped := rfl
  have hesmc (d : Chip) (n : Nat) : ({ d with tm.esmcDue := n } : Chip).mapped = d.mapped := rfl
  have hvigil : (if c.timeState = 3 ∧ c.rg R.TMG_STAT_STATE 0 ≠ 3 then c.vigilEnter else c).mapped = c.mapped := Chip.mapped_ite rfl rfl
  have hstate := Chip.mapped_ite (p := c.timeState ≠ c.rg R.TMG_STAT_STATE 0)
    (((hwg _ R.TMG_EVT_STATE_CHG 0 1).trans (hwg _ R.TMG_STAT_STATE 0 c.timeState)).trans hvigil) hvigil
  exact (hwg ..).trans ((hwg ..).trans (Chip.mapped_ite ((hesmc ..).trans hstate) hstate))

theorem Chip.timeEval_mapped (c : Chip) : c.timeEval.mapped = c.mapped :=
  (Chip.timeStat_mapped _).trans ((Chip.initialSet_mapped _).trans c.reselect_mapped)

theorem Chip.domLose_mapped (c : Chip) (d cause : Nat) : (c.domLose d cause).mapped = c.mapped :=
  Chip.mapped_ite ((Chip.timeEval_mapped _).trans (Chip.mapped_ite (Chip.setDom_mapped c.clk ..) (Chip.setDom_mapped c.clk ..))) rfl

theorem Chip.domValid_mapped (c : Chip) (d : Nat) : (c.domValid d).mapped = c.mapped := Chip.mapped_ite (Chip.setDom_mapped ..) rfl

theorem Chip.aCheck_mapped (c : Chip) : c.aCheck.mapped = c.mapped := by
  unfold Chip.aCheck
  split
  · rfl
  · split
    · exact c.domLose_mapped 0 _
    · exact Chip.mapped_ite ((Chip.timeEval_mapped _).trans (c.domValid_mapped 0)) rfl

end Sys2Proof.Machine
end

section
/-! PROOFS. A map of T-A that is measured (09_time_and_sync.md R269, R270, R272, R273, R276). -/

namespace Sys2Proof.Machine

open Sys2Proof Sys2Proof.Safety

/-! ## A measurement (R269, R270) -/

theorem Chip.servo_mapped (c : Chip) (d : Nat) (theta : Int) : (c.servo d theta).mapped = c.mapped := by
  have hclamp : (if (c.clk.servoBw d (match (c.clk.dom d).lastAt with
      | some a => min (c.clk.now - a) (10 * secPs)
      | none => 10 * secPs)).2 then c.clk.inc C.TMG_BW_CLAMP 0 else c.clk).mapped = c.mapped := Chip.mapped_ite rfl rfl
  exact Chip.mapped_ite ((Chip.setDom_mapped ..).trans hclamp) ((Chip.setDom_mapped ..).trans hclamp)

theorem Chip.lockCount_mapped (c : Chip) (d : Nat) (theta : Int) : (c.lockCount d theta).mapped = c.mapped := by
  have hcount (v : Nat) (x : Dom) : ((c.wsat R.TMG_DOM_STAT_LOCK_CNT d v).setDom d x).mapped = c.mapped := Chip.setDom_mapped ..
  exact Chip.mapped_ite ((Chip.setDom_mapped ..).trans (hcount _ _)) (Chip.mapped_ite ((Chip.setDom_mapped ..).trans (hcount _ _)) (hcount _ _))

theorem Chip.measure_mapped (c : Chip) (d : Nat) (theta : Int) : (c.measure d theta).mapped = c.mapped :=
  (Chip.timeEval_mapped _).trans ((Chip.lockCount_mapped ..).trans (Chip.servo_mapped _ d theta))

theorem Chip.servo_timed (c : Chip) (d : Nat) (theta : Int) : c.Timed (c.servo d theta) := by
  have hclamp : c.Timed (if (c.clk.servoBw d (match (c.clk.dom d).lastAt with
      | some a => min (c.clk.now - a) (10 * secPs)
      | none => 10 * secPs)).2 then c.clk.inc C.TMG_BW_CLAMP 0 else c.clk) := .ite (c.clk_timed.inc _ _) c.clk_timed
  exact .ite ((hclamp.setDom _ _).inc _ _) ((hclamp.setDom _ _).wg (f := R.TMG_DOM_FREQ_S) (by decide) _ _)

theorem Chip.lockCount_timed (c : Chip) (d : Nat) (theta : Int) : c.Timed (c.lockCount d theta) := by
  have hcount (v : Nat) (x : Dom) : c.Timed ((c.wsat R.TMG_DOM_STAT_LOCK_CNT d v).setDom d x) :=
    ((Chip.Timed.refl c).wg (by decide) d _).setDom d x
  exact .ite (((hcount _ _).setDom _ _).wg (f := R.TMG_DOM_STAT_DSTATE) (by decide) _ _)
    (.ite ((((hcount _ _).setDom _ _).wg (f := R.TMG_DOM_STAT_DSTATE) (by decide) _ _).wg (f := R.TMG_DOM_STAT_LOCK_CNT) (by decide) _ _) (hcount _ _))

theorem Chip.measure_timed (c : Chip) (d : Nat) (theta : Int) : c.Timed (c.measure d theta) :=
  ((((Chip.Timed.refl c).inc _ 0).wg (f := R.TMG_DOM_OFS_THETA) (by decide) d _).trans (Chip.servo_timed _ d theta)).trans
    ((Chip.lockCount_timed ..).trans (Chip.timeEval_timed _))

/-! ## A map against the stamp of its frame (R273, R276) -/

/-- The chip with a new association, on which the Octave grid stands (R276). -/
def Chip.associated (c : Chip) (sfc : Nat) (tU : Int) : Chip :=
  { c with tm.assoc := some (sfc, tU), tm.grid := some (sfc, tU), tm.jumped := false, tm.mapAt := some c.now }.wg R.ALM_OCTAVE_HI_VALID 0 1

/-- What follows the association is the time unit's own. -/
theorem Chip.aMeasure_associated {c : Chip} (hteq : c.rg R.TMG_A_TEQ_TEQ 0 ≠ 0) (sfc : Nat) (tU dA : Int) :
    (c.associated sfc tU).Timed (c.aMeasure sfc tU dA) ∧ (c.aMeasure sfc tU dA).mapped = (c.associated sfc tU).mapped := by
  have hdelay (v : Nat) : (c.associated sfc tU).Timed ((c.associated sfc tU).wg R.TMG_A_DELAY_DDOWN 0 v) :=
    (Chip.Timed.refl _).wg (by decide) 0 v
  have hvalid (v : Nat) := (hdelay v).trans (Chip.domValid_timed _ 0)
  unfold Chip.aMeasure
  rw [if_neg hteq]
  dsimp only
  split
  · exact ⟨hdelay _, rfl⟩
  · split
    · exact ⟨(hvalid _).trans (Chip.measure_timed ..), (Chip.measure_mapped ..).trans (Chip.domValid_mapped ..)⟩
    · exact ⟨hvalid _, Chip.domValid_mapped ..⟩

theorem todMapHeldMeasure_one {c : Chip} {h : Nat × Int} {x : Stamp} (hrun : c.aPaused = false) (hheld : c.tm.held = [h])
    (hstamps : c.aStamps = [x]) (hsfc : x.sfc = h.1) :
    todMapHeldMeasure c = ({ c with tm.held := [] } : Chip).aMeasure h.1 h.2 x.dA := by
  simp [todMapHeldMeasure, hrun, hheld, hstamps, hsfc]

/-- A map of a frame ahead is held (R272). -/
theorem Chip.todMap_ahead {c : Chip} {sfc : Nat} {n : Stamp} {r : List Stamp} (tU : Int) (hstamps : c.aStamps = n :: r)
    (hnone : c.aStamps.find? (fun x => decide (x.sfc = sfc)) = none) (hahead : n.sfc < sfc) (hnear : sfc ≤ n.sfc + 1024)
    (hroom : c.tm.held.length < 4) :
    c.todMap sfc tU = { c.inc C.TMG_TOD_MAP_ACCEPT 0 with tm.held := c.tm.held ++ [(sfc, tU)] } := by
  have hst : (c.incBy C.TMG_TOD_MAP_ACCEPT 0 1).aStamps = n :: r := hstamps
  rw [hstamps] at hnone
  simp [Chip.todMap, hst, hnone, hahead, hnear, Nat.not_le.mpr hroom]

end Sys2Proof.Machine

namespace Sys2Proof.Safety

open Sys2Proof Sys2Proof.Machine

/-- TOD_MAP of a frame ahead (R272). -/
theorem todMap_holds (t : Nat) (k : Fin 16) (x : MsgSlot) (n : Stamp) (r : List Stamp) (sfc : Nat) (s : State) (hs : ready s)
    (hmsg : (s.chip.eng k).msgs.find? (fun x => decide (x.typ = 10)) = some x) (hns : word x.body 13 ≤ 999999999)
    (hsfc : sfc = beAt x.body 0 7) (hmod : sfc < sfcMod) (hstamps : s.chip.aStamps = n :: r)
    (hnone : s.chip.aStamps.find? (fun x => decide (x.sfc = sfc)) = none) (hahead : n.sfc < sfc) (hnear : sfc ≤ n.sfc + 1024)
    (hroom : s.chip.tm.held.length < 4) :
    ∃ u, exec (.todMap t k) s = .next u ∧
      u.chip.tm.held = s.chip.tm.held ++
        [(sfc, (((beAt x.body 7 6 * 1000000000 + word x.body 13) * 65536 + half x.body 17 : Nat) : Int))] ∧
      u.chip.counter C.TMG_TOD_MAP_ACCEPT 0 = (s.chip.counter C.TMG_TOD_MAP_ACCEPT 0 + 1) % 2 ^ 48 := by
  subst hsfc
  refine ⟨_, on_msg hs hmsg, ?_⟩
  rw [todMapMsg, if_pos ⟨hns, hmod⟩, Chip.todMap_ahead (c := (chipAt s t).msgTaken k x) _ hstamps hnone hahead hnear hroom]
  exact ⟨rfl, Chip.counter_incBy_same ((chipAt s t).msgTaken k x) C.TMG_TOD_MAP_ACCEPT 0 1⟩

/-- A held map whose frame was stamped (R272, R276). -/
theorem todMapHeldMeasure_associates (t : Nat) (h : Nat × Int) (x : Stamp) (s : State) (hs : ready s)
    (hrun : (chipAt s t).aPaused = false) (hheld : s.chip.tm.held = [h]) (hstamps : s.chip.aStamps = [x]) (hsfc : x.sfc = h.1)
    (hteq : s.chip.rg R.TMG_A_TEQ_TEQ 0 ≠ 0) :
    ∃ u, exec (.todMapHeldMeasure t) s = .next u ∧ u.chip.tm.held = [] ∧ u.chip.tm.assoc = some h ∧ u.chip.tm.grid = some h ∧
      u.chip.rg R.ALM_OCTAVE_HI_VALID 0 = 1 := by
  obtain ⟨htimed, hmapped⟩ := Chip.aMeasure_associated (c := { chipAt s t with tm.held := [] }) hteq h.1 h.2 x.dA
  obtain ⟨-, hheld', hassoc, hgrid⟩ := by simpa only [Chip.mapped, Prod.mk.injEq] using hmapped
  refine ⟨_, State.on_running s t (fun _ => todMapHeldMeasure) hs.1, ?_⟩
  rw [todMapHeldMeasure_one (c := chipAt s t) hrun hheld hstamps hsfc, State.after_chip, Chip.done_tm, Chip.rg_done]
  refine ⟨hheld', hassoc, hgrid, (htimed.rg _ 0 (by decide)).trans ?_⟩
  exact Chip.rg_wg_same ..

end Sys2Proof.Safety
end

section
/-! PROOFS. Ranging, allocations and EPACT (04_trunk_access.md R126, R132, R133, R195; 09_time_and_sync.md R274). -/

namespace Sys2Proof.Machine

open Sys2Proof Sys2Proof.Safety

/-- Two fields at different bit positions, checked together. -/
theorem Fld.key_ne_of_apart {f g : Fld} {i j : Nat} (h : f.lsb < 32 ∧ g.lsb < 32 ∧ f.lsb ≠ g.lsb) : f.key i ≠ g.key j := by
  obtain ⟨hf, hg, hne⟩ := h
  exact Fld.key_ne_of_lsb f g i j hf hg hne

/-! ## Ranging (R132, R133) -/

/-- The chip with a ranging request open, in the place of one of the same side and channel. -/
def Chip.rangeOpen (c : Chip) (r : RangeReq) : Chip :=
  { c with up.ranging := c.up.ranging.filter (fun q => decide (q.side ≠ r.side ∨ q.ch ≠ r.ch)) ++ [r] }

theorem rangingReqMsg_active {c : Chip} (x : MsgSlot) (hmode : c.mode = 4) (hch : byteAt x.body 0 ≤ 15) (hside : byteAt x.body 1 = c.side)
    (hzero : c.side = 0) (hpreset : word x.body 2 ≤ 400000000) (hocts : byteAt x.body 6 ≠ 0) (hroom : c.up.acks.length < 64) :
    rangingReqMsg x c = (c.rangeOpen { side := c.side, ch := byteAt x.body 0, preset := word x.body 2, octs := byteAt x.body 6 }).acked x := by
  have hmodes : c.rangingModes = true := decide_eq_true (.inl hmode)
  have hopen := Chip.ack_ok (c := c.rangeOpen { side := c.side, ch := byteAt x.body 0, preset := word x.body 2, octs := byteAt x.body 6 }) hroom x
  rw [← hopen]
  simp [rangingReqMsg, hmodes, hside, hzero, Nat.not_lt.mpr hch, Nat.not_lt.mpr hpreset, hocts, Chip.rangeOpen]

/-- A chip that is not in RANGING does not become OPERATIONAL. -/
theorem Chip.operational_other {c : Chip} (hmode : c.mode ≠ 4) : c.operational = c := if_neg fun h => hmode h.1

/-- The chip that took a measured delay (R133), before what depends on it is judged: the value before it waits for its own Octave. -/
def Chip.eqdTaken (c : Chip) (side ch v : Nat) : Chip :=
  have i := 16 * side + ch
  have old := if c.rb R.TRK_EQD_VALID i then some (c.rg R.TRK_EQD_EQD i) else none
  ({ c with up.eqdPend := c.up.eqdPend ++ [({ side := side, ch := ch, old := old, at_ := c.now } : EqdPend)] }.wg R.TRK_EQD_EQD i v).wg
    R.TRK_EQD_VALID i 1

/-- What depends on the delays is judged: EQD_VALID, the health of the other side, T-A (R135, R275). -/
def Chip.eqdJudged (c : Chip) : Chip := c.eqdCheck.aCheck

theorem Chip.sideHealth_up (c : Chip) : c.sideHealth.up = c.up := by
  unfold Chip.sideHealth
  dsimp only
  repeat' split
  all_goals rfl

theorem Chip.eqdJudged_up (c : Chip) : c.eqdJudged.up = c.up :=
  (congrArg Prod.fst (Chip.aCheck_mapped _)).trans (Chip.sideHealth_up _)

/-- Judging the delays writes EQD_VALID and OTHER_OK below the registers of the time unit. -/
theorem Chip.eqdJudged_rg (c : Chip) {g : Fld} {j : Nat} (htime : g.key j < 32 * 0xA0000) (hvalid : R.TRK_SIDE_STAT_EQD_VALID.key 0 ≠ g.key j)
    (hother : R.TRK_SIDE_STAT_OTHER_OK.key 0 ≠ g.key j) : c.eqdJudged.rg g j = c.rg g j :=
  ((Chip.aCheck_timed _).rg g j htime).trans ((Chip.sideHealth_rg_other _ hother).trans (Chip.rg_wg_other _ _ _ _ _ _ hvalid))

/-- A delay of side A reads as it was taken, and the mode is the same. -/
theorem Chip.eqdJudged_reads (c : Chip) {ch v : Nat} (hch : ch ≤ 15) (hv : v ≤ 400000000) :
    (c.eqdTaken 0 ch v).eqdJudged.rg R.TRK_EQD_EQD ch = v ∧ (c.eqdTaken 0 ch v).eqdJudged.rg R.TRK_EQD_VALID ch = 1 ∧
      (c.eqdTaken 0 ch v).eqdJudged.mode = c.mode := by
  have hside : 16 * 0 + ch = ch := Nat.zero_add ch
  have hkey {f : Fld} (hf : f.reg = 0x31000 ∧ f.stride = 4 ∧ f.lsb < 32) : f.key ch < 32 * 0xA0000 := by
    obtain ⟨hreg, hstride, hlsb⟩ := hf
    simp only [Fld.key, hreg, hstride]
    omega
  have hmode {f : Fld} (hf : f.reg = 0x31000) : f.key ch ≠ R.TRK_MODE_CODE.key 0 := by
    simp only [Fld.key, hf, R.TRK_MODE_CODE]
    omega
  refine ⟨?_, ?_, ?_⟩
  · rw [Chip.eqdJudged_rg _ (hkey (by decide)) (Fld.key_ne_of_apart (by decide)) (Fld.key_ne_of_apart (by decide)), Chip.eqdTaken, hside,
      Chip.rg_wg_other _ _ _ _ _ _ (Fld.key_ne_of_apart (by decide)), Chip.rg_wg_same]
    exact Nat.mod_eq_of_lt (hv.trans_lt (by decide))
  · rw [Chip.eqdJudged_rg _ (hkey (by decide)) (Fld.key_ne_of_apart (by decide)) (Fld.key_ne_of_apart (by decide)), Chip.eqdTaken, hside,
      Chip.rg_wg_same]
    rfl
  · rw [Chip.mode, Chip.eqdJudged_rg _ (by decide) (by decide) (by decide), Chip.eqdTaken, hside,
      Chip.rg_wg_other _ _ _ _ _ _ (hmode (by decide)), Chip.rg_wg_other _ _ _ _ _ _ (hmode (by decide))]
    rfl

theorem rangingTimeMsg_sideA {c : Chip} (x : MsgSlot) (hmode : c.mode = 5) (hch : byteAt x.body 0 ≤ 15) (hside : byteAt x.body 1 = 0)
    (habs : byteAt x.body 2 = 0) (hv : word x.body 4 ≤ 400000000) (hroom : c.up.acks.length < 64) :
    rangingTimeMsg x c = (c.eqdTaken 0 (byteAt x.body 0) (word x.body 4)).eqdJudged.acked x := by
  have hmodes : c.rangingModes = true := decide_eq_true (.inr (.inl hmode))
  have hbit : bit 0 0 = false := by decide
  have hpos : ¬ ((word x.body 4 : Nat) : Int) < 0 := by omega
  have hmax : ¬ (400000000 : Int) < (word x.body 4 : Nat) := by omega
  have hmode' : (c.eqdTaken 0 (byteAt x.body 0) (word x.body 4)).eqdJudged.mode = 5 := (c.eqdJudged_reads hch hv).2.2.trans hmode
  have hroom' : (c.eqdTaken 0 (byteAt x.body 0) (word x.body 4)).eqdJudged.up.acks.length < 64 := by
    rw [Chip.eqdJudged_up]
    exact hroom
  rw [← Chip.ack_ok hroom', ← Chip.operational_other (hmode'.trans_ne (by decide))]
  simp [rangingTimeMsg, hmodes, hside, habs, hbit, Nat.not_lt.mpr hch, hpos, hmax, Chip.eqdTaken, Chip.eqdJudged]

/-! ## Allocations (R126, R195) -/

/-- With no frame queued none is bound. -/
theorem Chip.rebind_empty {c : Chip} (h : c.qs.frames = []) (g : Nat) (a : Option Nat) :
    (c.rebind g a).regs = c.regs ∧ (c.rebind g a).up = c.up := by
  simp [Chip.rebind, h]

/-- What a read of a register finds of an entry that was put with no frame queued. -/
theorem Chip.allocPut_rg {c : Chip} (h : c.qs.frames = []) (a ch id group : Nat) (g : Fld) (j : Nat) :
    (c.allocPut a ch id group true).rg g j =
      ((((((c.wg R.TRK_ALLOC_ALLOC_ID a id).wg R.TRK_ALLOC_CH a ch).wg R.TRK_ALLOC_GROUP a group).wg R.TRK_ALLOC_FRAG_OK a 1).wg
        R.TRK_ALLOC_AUTH a 1).wg R.TRK_ALLOC_VALID a 1).rg g j := by
  rw [Chip.allocPut, Chip.rg, (Chip.rebind_empty (by exact h) ..).1]
  rfl

theorem Chip.allocPut_reads {c : Chip} (h : c.qs.frames = []) (a : Nat) {ch id group : Nat} (hid : id ≤ 4093) (hch : ch ≤ 15)
    (hgroup : group ≤ 63) :
    (c.allocPut a ch id group true).rg R.TRK_ALLOC_ALLOC_ID a = id ∧ (c.allocPut a ch id group true).rg R.TRK_ALLOC_CH a = ch ∧
      (c.allocPut a ch id group true).rg R.TRK_ALLOC_GROUP a = group ∧ (c.allocPut a ch id group true).rg R.TRK_ALLOC_FRAG_OK a = 1 ∧
      (c.allocPut a ch id group true).rg R.TRK_ALLOC_VALID a = 1 := by
  refine ⟨?_, ?_, ?_, ?_, ?_⟩ <;>
    rw [Chip.allocPut_rg h] <;>
    repeat rw [Chip.rg_wg_other _ _ _ _ _ _ (Fld.key_ne_of_apart (by decide))]
  all_goals
    rw [Chip.rg_wg_same]
    exact Nat.mod_eq_of_lt (by simp only [R.TRK_ALLOC_ALLOC_ID, R.TRK_ALLOC_CH, R.TRK_ALLOC_GROUP, R.TRK_ALLOC_FRAG_OK, R.TRK_ALLOC_VALID]; omega)

/-- The mode lies below the allocation table. -/
theorem Chip.allocPut_mode {c : Chip} (h : c.qs.frames = []) (a ch id group : Nat) : (c.allocPut a ch id group true).mode = c.mode := by
  have hkey {f : Fld} (hf : f.reg = 0x32000) : f.key a ≠ R.TRK_MODE_CODE.key 0 := by
    simp only [Fld.key, hf, R.TRK_MODE_CODE]
    omega
  rw [Chip.mode, Chip.allocPut_rg h]
  repeat rw [Chip.rg_wg_other _ _ _ _ _ _ (hkey (by decide))]
  rfl

theorem Chip.allocPut_up {c : Chip} (h : c.qs.frames = []) (a ch id group : Nat) : (c.allocPut a ch id group true).up = c.up := by
  rw [Chip.allocPut, (Chip.rebind_empty (by exact h) ..).2]
  rfl

theorem assignAllocMsg_put {c : Chip} (x : MsgSlot) {a : Nat} (hmode : c.mode = 5) (hid : half x.body 0 ≤ 4093) (hch : byteAt x.body 2 ≤ 15)
    (hflags : byteAt x.body 3 = 3) (hgroup : byteAt x.body 4 ≤ 63) (hnew : c.allocIdx (byteAt x.body 2) (half x.body 0) = none)
    (hfree : (List.range 1024).find? (fun a => !c.rb R.TRK_ALLOC_VALID a) = some a) (hframes : c.qs.frames = [])
    (hroom : c.up.acks.length < 64) :
    assignAllocMsg x c = (c.allocPut a (byteAt x.body 2) (half x.body 0) (byteAt x.body 4) true).acked x := by
  have hadd : bit 3 0 = true := by decide
  have hfrag : bit 3 1 = true := by decide
  have hmode' := (c.allocPut_mode hframes a (byteAt x.body 2) (half x.body 0) (byteAt x.body 4)).trans hmode
  have hroom' : (c.allocPut a (byteAt x.body 2) (half x.body 0) (byteAt x.body 4) true).up.acks.length < 64 := by
    rw [Chip.allocPut_up hframes]
    exact hroom
  rw [← Chip.ack_ok hroom', ← Chip.operational_other (hmode'.trans_ne (by decide))]
  simp [assignAllocMsg, hflags, hadd, hfrag, hnew, hfree, Nat.not_lt.mpr hid, Nat.not_lt.mpr hch, Nat.not_lt.mpr hgroup]

theorem epactMsg_written {c : Chip} (x : MsgSlot) (hch : byteAt x.body 0 ≤ 15) (hside : byteAt x.body 1 ≤ 1) (hroom : c.up.acks.length < 64) :
    epactMsg x c = (c.wg R.TMG_A_EPACT_EPACT (16 * byteAt x.body 1 + byteAt x.body 0) (word x.body 2)).acked x :=
  (if_pos ⟨hch, hside⟩).trans (Chip.ack_ok (by exact hroom) x)

end Sys2Proof.Machine

namespace Sys2Proof.Safety

open Sys2Proof Sys2Proof.Machine

/-- An acknowledgement changes no register. -/
theorem rg_after_acked (s : State) (c : Chip) (x : MsgSlot) (g : Fld) (j : Nat) : (s.after (c.acked x)).chip.rg g j = c.rg g j := by
  rw [State.after_chip, Chip.rg_done, Chip.acked_rg]

/-- RANGING_REQ of the active side, A (R132). -/
theorem rangingReq_opens (t : Nat) (k : Fin 16) (x : MsgSlot) (s : State) (hs : ready s)
    (hmsg : (s.chip.eng k).msgs.find? (fun x => decide (x.typ = 3)) = some x) (hmode : s.chip.mode = 4) (hch : byteAt x.body 0 ≤ 15)
    (hside : byteAt x.body 1 = s.chip.side) (hzero : s.chip.side = 0) (hpreset : word x.body 2 ≤ 400000000) (hocts : byteAt x.body 6 ≠ 0)
    (hroom : s.chip.up.acks.length < 64) :
    ∃ u, exec (.rangingReq t k) s = .next u ∧
      u.chip.up.ranging = s.chip.up.ranging.filter (fun r => decide (r.side ≠ s.chip.side ∨ r.ch ≠ byteAt x.body 0)) ++
        [{ side := s.chip.side, ch := byteAt x.body 0, preset := word x.body 2, octs := byteAt x.body 6 }] ∧
      u.chip.up.acks = s.chip.up.acks ++ [⟨0x82, beBytes 1 (byteAt x.bytes 2) ++ [0] ++ slice x.bytes 4 2 ++ beBytes 1 x.wl⟩] := by
  refine ⟨_, on_msg hs hmsg, ?_⟩
  rw [rangingReqMsg_active (c := (chipAt s t).msgTaken k x) x hmode hch hside hzero hpreset hocts hroom]
  exact ⟨rfl, rfl⟩

/-- RANGING_TIME of side A (R133). -/
theorem rangingTime_takes (t : Nat) (k : Fin 16) (x : MsgSlot) (s : State) (hs : ready s)
    (hmsg : (s.chip.eng k).msgs.find? (fun x => decide (x.typ = 4)) = some x) (hmode : s.chip.mode = 5) (hch : byteAt x.body 0 ≤ 15)
    (hside : byteAt x.body 1 = 0) (habs : byteAt x.body 2 = 0) (hv : word x.body 4 ≤ 400000000) (hroom : s.chip.up.acks.length < 64) :
    ∃ u, exec (.rangingTime t k) s = .next u ∧ u.chip.rg R.TRK_EQD_EQD (byteAt x.body 0) = word x.body 4 ∧
      u.chip.rg R.TRK_EQD_VALID (byteAt x.body 0) = 1 ∧ u.chip.mode = 5 ∧
      u.chip.up.acks = s.chip.up.acks ++ [⟨0x82, beBytes 1 (byteAt x.bytes 2) ++ [0] ++ slice x.bytes 4 2 ++ beBytes 1 x.wl⟩] := by
  obtain ⟨heqd, hvalid, hmode'⟩ := ((chipAt s t).msgTaken k x).eqdJudged_reads hch hv
  refine ⟨_, on_msg hs hmsg, ?_⟩
  rw [rangingTimeMsg_sideA (c := (chipAt s t).msgTaken k x) x hmode hch hside habs hv hroom]
  refine ⟨(rg_after_acked ..).trans heqd, (rg_after_acked ..).trans hvalid, (rg_after_acked ..).trans (hmode'.trans hmode), ?_⟩
  rw [State.after_chip, Chip.done_up, Chip.acked, Chip.eqdJudged_up]
  rfl

/-- ASSIGN_ALLOC of an entry that is not in the table (R126). -/
theorem assignAlloc_puts (t : Nat) (k : Fin 16) (x : MsgSlot) (a : Nat) (s : State) (hs : ready s)
    (hmsg : (s.chip.eng k).msgs.find? (fun x => decide (x.typ = 5)) = some x) (hmode : s.chip.mode = 5) (hid : half x.body 0 ≤ 4093)
    (hch : byteAt x.body 2 ≤ 15) (hflags : byteAt x.body 3 = 3) (hgroup : byteAt x.body 4 ≤ 63)
    (hnew : s.chip.allocIdx (byteAt x.body 2) (half x.body 0) = none)
    (hfree : (List.range 1024).find? (fun a => !s.chip.rb R.TRK_ALLOC_VALID a) = some a) (hframes : s.chip.qs.frames = [])
    (hroom : s.chip.up.acks.length < 64) :
    ∃ u, exec (.assignAlloc t k) s = .next u ∧ u.chip.rg R.TRK_ALLOC_ALLOC_ID a = half x.body 0 ∧
      u.chip.rg R.TRK_ALLOC_CH a = byteAt x.body 2 ∧ u.chip.rg R.TRK_ALLOC_GROUP a = byteAt x.body 4 ∧
      u.chip.rg R.TRK_ALLOC_FRAG_OK a = 1 ∧ u.chip.rg R.TRK_ALLOC_VALID a = 1 ∧
      u.chip.up.acks = s.chip.up.acks ++ [⟨0x82, beBytes 1 (byteAt x.bytes 2) ++ [0] ++ slice x.bytes 4 2 ++ beBytes 1 x.wl⟩] := by
  obtain ⟨hidR, hchR, hgroupR, hfragR, hvalidR⟩ := Chip.allocPut_reads (c := (chipAt s t).msgTaken k x) hframes a hid hch hgroup
  refine ⟨_, on_msg hs hmsg, ?_⟩
  rw [assignAllocMsg_put (c := (chipAt s t).msgTaken k x) x hmode hid hch hflags hgroup hnew hfree hframes hroom]
  refine ⟨(rg_after_acked ..).trans hidR, (rg_after_acked ..).trans hchR, (rg_after_acked ..).trans hgroupR,
    (rg_after_acked ..).trans hfragR, (rg_after_acked ..).trans hvalidR, ?_⟩
  rw [State.after_chip, Chip.done_up, Chip.acked, Chip.allocPut_up (by exact hframes)]
  rfl

/-- EPACT (R274). -/
theorem epact_writes (t : Nat) (k : Fin 16) (x : MsgSlot) (s : State) (hs : ready s)
    (hmsg : (s.chip.eng k).msgs.find? (fun x => decide (x.typ = 11)) = some x) (hch : byteAt x.body 0 ≤ 15) (hside : byteAt x.body 1 ≤ 1)
    (hroom : s.chip.up.acks.length < 64) :
    ∃ u, exec (.epact t k) s = .next u ∧
      u.chip.rg R.TMG_A_EPACT_EPACT (16 * byteAt x.body 1 + byteAt x.body 0) = word x.body 2 % 2 ^ R.TMG_A_EPACT_EPACT.width ∧
      u.chip.up.acks = s.chip.up.acks ++ [⟨0x82, beBytes 1 (byteAt x.bytes 2) ++ [0] ++ slice x.bytes 4 2 ++ beBytes 1 x.wl⟩] ∧
      kept s u [R.TMG_A_EPACT_EPACT.key (16 * byteAt x.body 1 + byteAt x.body 0)] := by
  refine ⟨_, on_msg hs hmsg, ?_⟩
  rw [epactMsg_written (c := (chipAt s t).msgTaken k x) x hch hside hroom]
  refine ⟨Chip.rg_wg_same ((chipAt s t).msgTaken k x) .., rfl, kept_after_one hs (fun g j hg => ?_) rfl rfl rfl⟩
  exact Chip.rg_wg_other ((chipAt s t).msgTaken k x) _ _ _ _ _ hg.symm

/-- Settles O11: each message is taken off its queue and acts as R117, R126 to R133, R272 and R274 say. -/
theorem activationMessages : Obligations.ActivationMessages :=
  ⟨discovery_announces, assignId_ranges, rangingReq_opens, rangingTime_takes, assignAlloc_puts, todMap_holds, epact_writes,
    todMapHeldMeasure_associates⟩

end Sys2Proof.Safety
end

section
/-! PROOFS. Grants, announcements and ranging requests (04_trunk_access.md R129, R132, R136). -/

namespace Sys2Proof.Machine

open Sys2Proof Sys2Proof.Safety

/-! ## A grant of an allocation (R136) -/

/-- With no monitor on, none follows a grant (R109). -/
theorem Chip.monGrant_none {c : Chip} (h : c.mons = []) (k a : Nat) : c.monGrant k a = c := by
  simp [Chip.monGrant, Chip.allocMons, h]

section
variable {c : Chip} {k idx raw w : Nat} (hrx : c.rxOn k = true) (hgrants : (c.eng k).frGrants = true) (hidx : idx < (c.eng k).frCount)
  (hstep : c.ds.apsStep = 0) (hw : w = beNat (scrambleAt (32 + 8 * idx) (beBytes 8 raw))) (hhec : crc8 (beBytes 7 (w / 256)) = w % 256)
  (hoff : c.rg R.TRK_US_STAT_CH_OFF k = 0) (henable : c.rg R.TRK_US_CFG_ENABLE k = 1)
include hrx hgrants hidx hstep hw hhec hoff henable

/-- A grant of an allocation with the full EVE, in bounds, with room and with a valid delay becomes a window. -/
theorem grantEntry_assigned (watch : Nat) {e : Nat} (hkind : c.grantKind k (bits w 52 12) (bit w 49) = some .assigned) (hmons : c.mons = [])
    (hfull : bit w 51 = false) (hok : grantOk .assigned false (bits w 27 19) (bits w 8 19) = true)
    (hroom : (c.up.store.filter (fun x => decide (x.ch = k))).length < 4096) (heqd : c.eqdNow c.side k = some e) :
    grantEntry k idx raw watch c = (c.inc C.TRK_US_GRANT_OWN k).storeWin
      { ch := k, alloc := bits w 52 12, kind := .assigned, shortEve := false, report := bit w 50, mgmt := bit w 49, start := bits w 27 19,
        len := bits w 8 19, t0 := (c.eng k).frAt + 250 * usPs + symPs e + blkPs (bits w 27 19), sfc := (c.eng k).frSfc,
        rev := (c.eng k).frRev, side := c.side } := by
  have hlit : c.rb R.TRK_US_STAT_CH_OFF k = false := decide_eq_false (hoff.trans_ne (by decide))
  have hused : c.rb R.TRK_US_CFG_ENABLE k = true := decide_eq_true henable
  have hmon := Chip.monGrant_none (c := c.inc C.TRK_US_GRANT_OWN k) hmons k (bits w 52 12)
  have heqd' : (c.inc C.TRK_US_GRANT_OWN k).eqdNow c.side k = some e := heqd
  have hside : (c.inc C.TRK_US_GRANT_OWN k).side = c.side := rfl
  have heng : (c.inc C.TRK_US_GRANT_OWN k).eng k = c.eng k := rfl
  have hup : (c.inc C.TRK_US_GRANT_OWN k).up = c.up := rfl
  simp only [grantEntry, hrx, hgrants, Nat.not_le.mpr hidx, hstep, ← hw, hhec, hlit, hused, hkind, hfull, Bool.false_and, hmon, hok, hup,
    Nat.not_le.mpr hroom, Chip.placeGrant, heqd', hside, heng, ne_eq, not_true_eq_false, or_self, Bool.true_eq_false, Bool.false_eq_true, if_false]

end

/-! ## An announcement without an answer (R129) -/

theorem announceUnanswered_late {c : Chip} {n : Nat} (hsent : c.up.annOct = some n) (hlate : 3 ≤ n) :
    announceUnanswered c = { c.draw.2 with
      up.unanswered := c.up.unanswered + 1, up.skips := c.draw.1 % 2 ^ min (c.up.unanswered + 1) 4, up.annOct := none } := by
  simp only [announceUnanswered, hsent, if_pos hlate]

/-! ## Ranging requests close (R132) -/

theorem Chip.rangeClose_ranging (c : Chip) (side ch : Nat) :
    (c.rangeClose side ch).up.ranging = c.up.ranging.filter (fun q => decide (q.side ≠ side ∨ q.ch ≠ ch)) := by
  unfold Chip.rangeClose
  dsimp only
  split
  · rfl
  · split <;> rfl

/-- What a closing request leaves: registers, counters, the table window and the waiting changes of the memories. -/
theorem Chip.rangeClose_keeps (c : Chip) (side ch : Nat) :
    ((c.rangeClose side ch).regs, (c.rangeClose side ch).cnt, (c.rangeClose side ch).win, (c.rangeClose side ch).mout) =
      (c.regs, c.cnt, c.win, c.mout) := by
  unfold Chip.rangeClose
  dsimp only
  split
  · rfl
  · split <;> rfl

/-- Requests close one after the other: those stay open that are none of them. -/
theorem rangeCloses_ranging : ∀ (l : List RangeReq) (c : Chip),
    (l.foldl (fun (d : Chip) r => d.rangeClose r.side r.ch) c).up.ranging =
      c.up.ranging.filter (fun q => l.all (fun r => decide (q.side ≠ r.side ∨ q.ch ≠ r.ch)))
  | [], c => (List.filter_true c.up.ranging).symm
  | r :: l, c => by
    rw [List.foldl_cons, rangeCloses_ranging l, Chip.rangeClose_ranging, List.filter_filter]
    simp only [List.all_cons, Bool.and_comm]

theorem rangingReqExpire_ranging (c : Chip) : ∀ q ∈ (rangingReqExpire c).up.ranging, q.octs ≠ 0 := by
  intro q hq hzero
  rw [rangingReqExpire, rangeCloses_ranging, List.mem_filter, List.all_eq_true] at hq
  obtain ⟨hopen, hnone⟩ := hq
  have hself := of_decide_eq_true (hnone q (List.mem_filter.mpr ⟨hopen, decide_eq_true hzero⟩))
  simp at hself

theorem rangingReqExpire_keeps (c : Chip) :
    ((rangingReqExpire c).regs, (rangingReqExpire c).cnt, (rangingReqExpire c).win, (rangingReqExpire c).mout) =
      (c.regs, c.cnt, c.win, c.mout) :=
  foldl_keeps (fun (d : Chip) (r : RangeReq) => d.rangeClose r.side r.ch) (fun d => (d.regs, d.cnt, d.win, d.mout))
    (fun d r => d.rangeClose_keeps r.side r.ch) _ c

end Sys2Proof.Machine

namespace Sys2Proof.Safety

open Sys2Proof Sys2Proof.Machine

/-- GRANT_ENTRY of an allocation (R136). -/
theorem grantEntry_stores (t : Nat) (k : Fin 16) (idx raw watch w e : Nat) (s : State) (hs : ready s) (hrx : (chipAt s t).rxOn k = true)
    (hgrants : (s.chip.eng k).frGrants = true) (hidx : idx < (s.chip.eng k).frCount) (hstep : s.chip.ds.apsStep = 0)
    (hw : w = beNat (scrambleAt (32 + 8 * idx) (beBytes 8 raw))) (hhec : crc8 (beBytes 7 (w / 256)) = w % 256)
    (hoff : s.chip.rg R.TRK_US_STAT_CH_OFF k = 0) (henable : s.chip.rg R.TRK_US_CFG_ENABLE k = 1)
    (hkind : (chipAt s t).grantKind k (bits w 52 12) (bit w 49) = some .assigned) (hmons : s.chip.mons = []) (hfull : bit w 51 = false)
    (hok : grantOk .assigned false (bits w 27 19) (bits w 8 19) = true)
    (hroom : (s.chip.up.store.filter (fun x => decide (x.ch = k.val))).length < 4096)
    (heqd : (chipAt s t).eqdNow s.chip.side k = some e) :
    ∃ u, exec (.grantEntry t k idx raw watch) s = .next u ∧
      u.chip.counter C.TRK_US_GRANT_OWN k = (s.chip.counter C.TRK_US_GRANT_OWN k + 1) % 2 ^ 48 ∧
      u.chip.up.store = insertWin { ch := k, alloc := bits w 52 12, kind := .assigned, shortEve := false, report := bit w 50, mgmt := bit w 49, start := bits w 27 19, len := bits w 8 19, t0 := (s.chip.eng k).frAt + 250 * usPs + symPs e + blkPs (bits w 27 19), sfc := (s.chip.eng k).frSfc, rev := (s.chip.eng k).frRev, side := s.chip.side } s.chip.up.store := by
  refine ⟨_, State.on_running s t (fun _ => grantEntry k idx raw watch) hs.1, ?_⟩
  rw [grantEntry_assigned (c := chipAt s t) hrx hgrants hidx hstep hw hhec hoff henable watch hkind hmons hfull hok hroom heqd]
  exact ⟨Chip.counter_incBy_same (chipAt s t) C.TRK_US_GRANT_OWN k 1, rfl⟩

/-- ANNOUNCE_UNANSWERED (R129). -/
theorem announceUnanswered_skips (t n : Nat) (s : State) (hs : ready s) (hsent : s.chip.up.annOct = some n) (hlate : 3 ≤ n) :
    ∃ u, exec (.announceUnanswered t) s = .next u ∧ u.chip.up.unanswered = s.chip.up.unanswered + 1 ∧ u.chip.up.annOct = none ∧
      u.chip.up.skips < 2 ^ min (s.chip.up.unanswered + 1) 4 ∧ kept s u [] := by
  refine ⟨_, State.on_running s t (fun _ => announceUnanswered) hs.1, ?_⟩
  rw [announceUnanswered_late (c := chipAt s t) hsent hlate]
  exact ⟨rfl, rfl, Nat.mod_lt _ (Nat.two_pow_pos _), kept_after hs rfl rfl rfl rfl⟩

/-- RANGING_REQ_EXPIRE (R132). -/
theorem rangingReqExpire_closes (t : Nat) (r : RangeReq) (s : State) (hs : ready s) (_ : r ∈ s.chip.up.ranging) (hzero : r.octs = 0) :
    ∃ u, exec (.rangingReqExpire t) s = .next u ∧ r ∉ u.chip.up.ranging ∧ (∀ q ∈ u.chip.up.ranging, q.octs ≠ 0) ∧ kept s u [] := by
  have hopen := rangingReqExpire_ranging (chipAt s t)
  obtain ⟨hregs, hcnt, hwin, hmout⟩ := by simpa only [Prod.mk.injEq] using rangingReqExpire_keeps (chipAt s t)
  exact ⟨_, State.on_running s t (fun _ => rangingReqExpire) hs.1, fun hr => hopen r hr hzero, hopen, kept_after hs hregs hcnt hwin hmout⟩

end Sys2Proof.Safety
end

section
/-! PROOFS. A window becomes a burst (04_trunk_access.md R142 to R147; 06_queues_and_shaping.md R192 to R197): what fills it is taken from
the queues, and neither the other windows nor the other bursts change. -/

namespace Sys2Proof.Machine

open Sys2Proof Sys2Proof.Safety

/-! ## Frames leave their queues (R192, R201, R209, R210): the upstream side stays as it is -/

@[simp] theorem Chip.queueStat_up (c : Chip) (q b : Nat) : (c.queueStat q b).up = c.up := by
  unfold Chip.queueStat
  dsimp only
  split <;> rfl

@[simp] theorem Chip.laneOut_up (c : Chip) (p : Nat) (kind : OutKind) (data : List Nat) (l : List Byte) : (c.laneOut p kind data l).up = c.up := by
  unfold Chip.laneOut
  repeat' split
  all_goals rfl

@[simp] theorem Chip.pauseSend_up (c : Chip) (p : Nat) (l : List Byte) : (c.pauseSend p l).up = c.up := by
  unfold Chip.pauseSend
  split
  · rfl
  split
  · exact Chip.laneOut_up ..
  split <;> rfl

@[simp] theorem Chip.pfcUpdate_up (c : Chip) (p : Nat) : (c.pfcUpdate p).up = c.up := by
  unfold Chip.pfcUpdate
  dsimp only
  split
  · rfl
  split <;> simp

@[simp] theorem Chip.unqueue_up (c : Chip) (x : QFrame) : (c.unqueue x).up = c.up := by
  unfold Chip.unqueue
  dsimp only
  split <;> simp

@[simp] theorem Chip.chargeShapers_up (c : Chip) (q len : Nat) : (c.chargeShapers q len).up = c.up := by
  unfold Chip.chargeShapers
  refine foldl_keeps _ Chip.up (fun d x => ?_) _ c
  rfl

@[simp] theorem Chip.settle_up (c : Chip) (q : Nat) : (c.settle q).up = c.up := by
  unfold Chip.settle
  refine foldl_keeps _ Chip.up (fun d x => ?_) _ c
  split <;> rfl

@[simp] theorem Chip.takeChosen_up (c : Chip) (k : Pick) : (c.takeChosen k).up = c.up := by
  unfold Chip.takeChosen
  dsimp only
  split <;> simp

@[simp] theorem Chip.dropQueued_up (c : Chip) (x : QFrame) : (c.dropQueued x).up = c.up := by
  rw [Chip.dropQueued, Chip.inc_eq, Chip.incBy_up, Chip.unqueue_up]

/-! ## The units area (R138, R144, R196) -/

/-- The windows that wait and those that became bursts. -/
def Chip.windows (c : Chip) : List Window × List Window := (c.up.store, c.up.formed.map (fun b => b.win))

theorem Fill.mgmtUnits_windows (tag : Nat) : ∀ (n : Nat) (f : Fill), (f.mgmtUnits tag n).c.windows = f.c.windows
  | 0, _ => rfl
  | n + 1, f => by
    unfold Fill.mgmtUnits
    split
    · rfl
    · split
      · rw [Fill.mgmtUnits_windows tag n]
        rfl
      · rfl

theorem Fill.aborts_windows (f : Fill) (ka : Nat) : (f.aborts ka).c.windows = f.c.windows := by
  have hput (l : List (Nat × Nat)) : (l.foldl (fun (g : Fill) e => g.put (unitBytes e.2 true true 0 [])) f).c = f.c := by
    refine foldl_keeps _ Fill.c (fun g e => ?_) l f
    rfl
  unfold Fill.aborts
  simp only [Chip.windows, hput]

theorem Fill.splitRest_windows (f : Fill) (k alloc : Nat) (frag : Bool) : (f.splitRest k alloc frag).1.c.windows = f.c.windows := by
  unfold Fill.splitRest
  split
  · rfl
  · dsimp only
    repeat' split
    all_goals rfl

theorem Fill.tree_windows (w : Window) (a group start : Nat) (frag : Bool) :
    ∀ (n : Nat) (f : Fill), (f.tree w a group start frag n).c.windows = f.c.windows
  | 0, _ => rfl
  | n + 1, f => by
    unfold Fill.tree
    dsimp only
    split
    · rfl
    · split
      · rw [Fill.tree_windows w a group start frag n]
        simp only [Chip.windows, Chip.inc_eq, Chip.incBy_up, Chip.dropQueued_up]
      split
      · rw [Fill.tree_windows w a group start frag n]
        simp only [Chip.windows, Chip.takeChosen_up]
      split
      · simp only [Chip.windows, Chip.takeChosen_up]
      · rw [Fill.tree_windows w a group start frag n]

/-- What MGMT_TAG takes first (R138). -/
theorem Fill.mgmtFirst_windows (f : Fill) (w : Window) (tag n : Nat) :
    (if w.mgmt then f.mgmtUnits tag n else f).c.windows = f.c.windows := by
  split
  · exact Fill.mgmtUnits_windows tag n f
  · rfl

theorem Fill.owedFirst_windows (f : Fill) (k alloc ka : Nat) (frag : Bool) :
    ((f.aborts ka).splitRest k alloc frag).1.c.windows = f.c.windows :=
  (Fill.splitRest_windows ..).trans (Fill.aborts_windows ..)

theorem Fill.owedThenTree_windows (f : Fill) (w : Window) (k alloc ka a group start n : Nat) (frag : Bool) :
    (if ((f.aborts ka).splitRest k alloc frag).2 then ((f.aborts ka).splitRest k alloc frag).1.tree w a group start frag n
      else ((f.aborts ka).splitRest k alloc frag).1).c.windows = f.c.windows := by
  split
  · rw [Fill.tree_windows, Fill.owedFirst_windows]
  · rw [Fill.owedFirst_windows]

theorem Chip.fillArea_windows (c : Chip) (w : Window) (space start : Nat) : (c.fillArea w space start).c.windows = c.windows := by
  by_cases hkind : w.kind = .discovery ∨ w.kind = .ranging
  · simp only [Chip.fillArea, if_pos hkind]
  cases halloc : c.allocIdx w.ch w.alloc with
  | none => simp only [Chip.fillArea, if_neg hkind, halloc, Fill.mgmtFirst_windows]
  | some a =>
    by_cases hdefault : w.kind = .default
    · simp only [Chip.fillArea, if_neg hkind, halloc, if_pos hdefault, Fill.mgmtFirst_windows]
    · simp only [Chip.fillArea, if_neg hkind, halloc, if_neg hdefault, Fill.owedThenTree_windows, Fill.mgmtFirst_windows]

/-! ## A window becomes a burst (R142 to R147) -/

/-- Records that are formed one after the other change no window where none of them does. -/
theorem Chip.records_windows {f : Chip × List Byte → Nat → Chip × List Byte} (h : ∀ x i, (f x i).1.windows = x.1.windows) (l : List Nat)
    (x : Chip × List Byte) : (l.foldl f x).1.windows = x.1.windows :=
  foldl_keeps f (fun x => x.1.windows) h l x

/-- The round robin of reports aside, a burst joins those that are formed. -/
theorem Chip.burstJoins_windows (c : Chip) (more : List Nat) (k : Nat) (b : Burst) :
    { (if more.isEmpty then c else { c with up.rptPos := c.up.rptPos.set k (more.getLastD 0) }) with
      up.formed := (if more.isEmpty then c else { c with up.rptPos := c.up.rptPos.set k (more.getLastD 0) }).up.formed ++ [b] : Chip }.windows =
      (c.windows.1, c.windows.2 ++ [b.win]) := by
  cases more <;> simp [Chip.windows]

theorem Chip.formBurst_windows (c : Chip) (w : Window) : (c.formBurst w).windows = (c.windows.1, c.windows.2 ++ [w]) := by
  refine (Chip.burstJoins_windows _ _ _ _).trans ?_
  rw [Chip.fillArea_windows, Chip.records_windows (fun x i => ?_)]
  · rfl
  · generalize (if w.kind = .discovery then [c.announceRec] else _ : List Rec)[i]? = r
    cases r <;> rfl

/-! ## What the guard asks of a window (R147) -/

/-- A write under a key that a filter passes over is not in what it leaves. -/
theorem Tab.filter_set {p : Nat × Nat → Bool} {k : Nat} (h : ∀ v, p (k, v) = false) (v : Nat) : ∀ t : Tab Nat, (t.set k v).filter p = t.filter p
  | [] => by simp [Tab.set, h]
  | (j, w) :: r => by
    unfold Tab.set
    split
    · simp [h]
    · split
      · next hkj =>
        subst hkj
        simp [h]
      · simp only [List.filter_cons, Tab.filter_set h v r]

/-- A field at another bit position has the same instances after a write. -/
theorem Chip.instances_wg (c : Chip) {f g : Fld} (h : f.lsb < 32 ∧ g.lsb < 32 ∧ f.lsb ≠ g.lsb) (i v n : Nat) :
    (c.wg f i v).instances g n = c.instances g n := by
  obtain ⟨hf, -, hne⟩ := h
  have hkey : f.key i % 32 ≠ g.lsb := by
    simp only [Fld.key]
    omega
  exact congrArg (List.map _) (Tab.filter_set (fun x => decide_eq_false fun hx => hkey hx.2.1) ..)

/-- PENDING is nothing that the guard asks for. -/
theorem Chip.guardOk_pendCount (c : Chip) (k : Nat) (w : Window) : (c.pendCount k).guardOk w = c.guardOk w := by
  have hrg {g : Fld} (hg : g.lsb < 32 ∧ R.TRK_US_STAT_PENDING.lsb ≠ g.lsb) (j : Nat) : (c.pendCount k).rg g j = c.rg g j :=
    Chip.rg_wg_other _ _ _ _ _ _ (Fld.key_ne_of_apart ⟨by decide, hg⟩)
  have hinst : (c.pendCount k).instances R.TRK_ALLOC_VALID 1024 = c.instances R.TRK_ALLOC_VALID 1024 := c.instances_wg (by decide) ..
  have hpermits : (c.pendCount k).permits w.kind = c.permits w.kind := by
    have hmode : (c.pendCount k).mode = c.mode := hrg (by decide) 0
    cases w.kind <;> simp only [Chip.permits, Chip.rangingModes, hmode]
    rfl
  have hceil : (c.pendCount k).launchCeil = c.launchCeil := by
    simp only [Chip.launchCeil, Chip.rs, hrg (g := R.TRK_GUARD_PWR_CEIL) (by decide)]
    rfl
  have hidx : (c.pendCount k).allocIdx w.ch w.alloc = c.allocIdx w.ch w.alloc := by
    simp only [Chip.allocIdx, hinst, hrg (g := R.TRK_ALLOC_CH) (by decide), hrg (g := R.TRK_ALLOC_ALLOC_ID) (by decide)]
  simp only [Chip.guardOk, hpermits, hceil, hidx, Chip.rb, Chip.rs, hrg (g := R.TRK_US_STAT_CH_OFF) (by decide),
    hrg (g := R.TRK_GUARD_STAT_QUAR) (by decide), hrg (g := R.TRK_US_GH_ACT_PWR) (by decide), hrg (g := R.TRK_ALLOC_AUTH) (by decide)] <;> rfl

/-- The chip with a window taken out of its store. -/
def Chip.windowTaken (c : Chip) (k : Nat) (w : Window) : Chip := { c with up.store := c.up.store.erase w }.pendCount k

theorem burstForm_forms {c : Chip} {k : Nat} {w : Window} (hwin : c.up.store.find? (fun w => decide (w.ch = k)) = some w)
    (hdue : w.t0 ≤ c.now + 20 * usPs) (hguard : c.guardOk w = true) (hprev : c.prevEnd k w.side = 0) (hfull : w.shortEve = false) :
    burstForm k c = (c.windowTaken k w).formBurst w := by
  have hguard' : (c.windowTaken k w).guardOk w = true := (Chip.guardOk_pendCount ..).trans hguard
  have hprev' : (c.windowTaken k w).prevEnd k w.side = 0 := hprev
  unfold Chip.windowTaken at hguard' hprev'
  simp [burstForm, hwin, Nat.not_lt.mpr hdue, hguard', hprev', hfull, Chip.windowTaken]

end Sys2Proof.Machine

namespace Sys2Proof.Safety

open Sys2Proof Sys2Proof.Machine

/-- BURST_FORM (R146). -/
theorem burstForm_moves (t : Nat) (k : Fin 16) (w : Window) (s : State) (hs : ready s)
    (hwin : s.chip.up.store.find? (fun w => decide (w.ch = k.val)) = some w) (hdue : w.t0 ≤ max s.chip.now t + 20 * usPs)
    (hguard : (chipAt s t).guardOk w = true) (hprev : s.chip.prevEnd k w.side = 0) (hfull : w.shortEve = false) :
    ∃ u, exec (.burstForm t k) s = .next u ∧ u.chip.up.store = s.chip.up.store.erase w ∧
      u.chip.up.formed.map (fun b => b.win) = s.chip.up.formed.map (fun b => b.win) ++ [w] := by
  refine ⟨_, State.on_running s t (fun _ => burstForm k) hs.1, ?_⟩
  rw [burstForm_forms (c := chipAt s t) hwin hdue hguard hprev hfull]
  exact Prod.mk.inj (((chipAt s t).windowTaken k w).formBurst_windows w)

end Sys2Proof.Safety
end

section
/-! PROOFS. Emission (04_trunk_access.md R140, R141, R147): a burst begins where the guard permits it, and its gate shuts at its end;
a split frame that is not completed is aborted (R144). -/

namespace Sys2Proof.Machine

open Sys2Proof Sys2Proof.Safety

/-! ## A burst begins -/

/-- Two counters at different places of the same block. -/
theorem Ctr.key_ne_of_base {k l : Ctr} (i : Nat) (h : k.stride = l.stride ∧ k.base ≠ l.base) : k.key i ≠ l.key i := by
  obtain ⟨hstride, hbase⟩ := h
  simp only [Ctr.key, hstride]
  omega

theorem Chip.counter_incBy_other (c : Chip) {k l : Ctr} {i j : Nat} (h : l.key j ≠ k.key i) (n : Nat) :
    (c.incBy k i n).counter l j = c.counter l j :=
  (c.counter_incBy k l i j n).trans (if_neg h)

/-- The chip with a burst off those that are formed. -/
def Chip.burstTaken (c : Chip) (b : Burst) : Chip := { c with up.formed := c.up.formed.erase b }

/-- The laser is lit for a burst (R140): its power and bias are measured, the gate opens, the bytes go out. -/
def Chip.burstLit (c : Chip) (k : Nat) (b : Burst) : Chip :=
  (((c.draw.2.wg R.TRK_US_MON_PWR k c.draw.1).wfree R.TRK_US_MON_BIAS k).emit .gateOpen k [b.win.side] []).emit .burst k
    [b.win.side, b.win.t0, b.win.endAt] (eveBytes b.win.shortEve ++ delimiterBytes ++ scramble b.body)

/-- The state of the channel while it bursts. -/
def Chip.burstNoted (c : Chip) (k : Nat) (b : Burst) : Chip := (c.wg R.TRK_US_STAT_BURSTING k 1).wb R.TRK_US_STAT_LAST_EVE k b.win.shortEve

/-- What counts of a burst beside BURSTS. -/
def Chip.burstParts (c : Chip) (k : Nat) (b : Burst) : Chip :=
  ((((if b.win.shortEve then c.inc C.TRK_US_EVE_SHORT k else c.inc C.TRK_US_EVE_FULL k).incBy C.TRK_US_REPORTS k b.rpts).incBy
    C.TRK_US_UNIT_BYTES k b.unitBytes).incBy C.TRK_US_FILL_BYTES k b.fillBytes).incBy C.TRK_US_FRAGMENTS k b.frags

theorem Chip.burstParts_eq (c : Chip) (k : Nat) (b : Burst) : c.burstParts k b = { c with cnt := (c.burstParts k b).cnt } := by
  unfold Chip.burstParts
  split <;> rfl

theorem Chip.burstParts_bursts (c : Chip) (k : Nat) (b : Burst) :
    (c.burstParts k b).counter C.TRK_US_BURSTS k = c.counter C.TRK_US_BURSTS k := by
  have hkey {l : Ctr} (h : C.TRK_US_BURSTS.stride = l.stride ∧ C.TRK_US_BURSTS.base ≠ l.base) : C.TRK_US_BURSTS.key k ≠ l.key k :=
    Ctr.key_ne_of_base k h
  unfold Chip.burstParts
  rw [Chip.counter_incBy_other _ (hkey (by decide)), Chip.counter_incBy_other _ (hkey (by decide)),
    Chip.counter_incBy_other _ (hkey (by decide)), Chip.counter_incBy_other _ (hkey (by decide))]
  split
  · exact Chip.counter_incBy_other _ (hkey (by decide)) _
  · exact Chip.counter_incBy_other _ (hkey (by decide)) _

/-- The chip once a burst is on its way. -/
def Chip.burstBegun (c : Chip) (k : Nat) (b : Burst) : Chip := ((((c.burstLit k b).burstNoted k b).inc C.TRK_US_BURSTS k).burstParts k b)

theorem burstStart_begins {c : Chip} {k : Nat} {b : Burst} (hburst : c.up.formed.find? (fun b => decide (b.win.ch = k)) = some b)
    (hdue : b.win.t0 ≤ c.now + symPs 768) (hopen : c.now < b.win.endAt) (hguard : c.guardOk b.win = true) (hstep : c.ds.apsStep = 0) :
    burstStart k none c =
      { (c.burstTaken b).burstBegun k b with up.active := ((c.burstTaken b).burstBegun k b).up.active ++ [b] } := by
  have hguard' : (c.burstTaken b).guardOk b.win = true := hguard
  unfold Chip.burstTaken at hguard'
  unfold burstStart
  simp only [hburst, Nat.not_lt.mpr hdue, hguard', Nat.not_le.mpr hopen, hstep, Bool.true_eq_false, ne_eq, not_true_eq_false, or_self, if_false]
  rfl

theorem Chip.burstBegun_up (c : Chip) (k : Nat) (b : Burst) : (c.burstBegun k b).up = c.up := by
  rw [Chip.burstBegun, Chip.burstParts_eq]
  rfl

theorem Chip.burstBegun_out (c : Chip) (k : Nat) (b : Burst) : (c.burstBegun k b).out.head? =
    some { kind := .burst, unit := k, data := [b.win.side, b.win.t0, b.win.endAt],
           bytes := eveBytes b.win.shortEve ++ delimiterBytes ++ scramble b.body } := by
  rw [Chip.burstBegun, Chip.burstParts_eq]
  rfl

theorem Chip.burstBegun_bursting (c : Chip) (k : Nat) (b : Burst) : (c.burstBegun k b).rg R.TRK_US_STAT_BURSTING k = 1 := by
  have hnoted : ((c.burstLit k b).burstNoted k b).rg R.TRK_US_STAT_BURSTING k = 1 := by
    rw [Chip.burstNoted, Chip.wb_eq, Chip.rg_wg_other _ _ _ _ _ _ (Fld.key_ne_of_apart (by decide)), Chip.rg_wg_same]
    rfl
  rw [Chip.burstBegun, Chip.burstParts_eq]
  exact hnoted

theorem Chip.burstBegun_bursts (c : Chip) (k : Nat) (b : Burst) :
    (c.burstBegun k b).counter C.TRK_US_BURSTS k = (c.counter C.TRK_US_BURSTS k + 1) % 2 ^ 48 :=
  (Chip.burstParts_bursts ..).trans (Chip.counter_incBy_same ((c.burstLit k b).burstNoted k b) ..)

/-! ## A burst ends -/

/-- With no frame sent there is none whose charge ends. -/
theorem Chip.outSweep_none {c : Chip} (h : c.qs.out = []) : c.outSweep = c := by
  obtain ⟨now, fresh, regs, cnt, lat, cap, win, out, mout, st, alm, ds, pp, qs⟩ := c
  cases qs
  simp_all [Chip.outSweep]

/-- The chip once the gate of a burst is shut. -/
def Chip.burstShut (c : Chip) (k : Nat) (b : Burst) : Chip :=
  { c.emit .gateShut k [b.win.side] [] with
    up.active := c.up.active.erase b, up.lastEnd := c.up.lastEnd.set (2 * k + b.win.side) b.win.endAt,
    up.lastLit := c.up.lastLit.set (2 * k + b.win.side) b.win.endAt }

theorem burstEnd_shuts {c : Chip} {k : Nat} {b : Burst} (hburst : c.up.active.find? (fun b => decide (b.win.ch = k)) = some b)
    (hdue : b.win.endAt ≤ c.now) (hdying : b.dying = false) (hkind : b.win.kind ≠ .discovery)
    (hlast : (c.up.active.erase b).any (fun x => decide (x.win.ch = k)) = false) (hout : c.qs.out = []) :
    burstEnd k c = (c.burstShut k b).wg R.TRK_US_STAT_BURSTING k 0 := by
  have hsweep := Chip.outSweep_none (c := (c.burstShut k b).wg R.TRK_US_STAT_BURSTING k 0) hout
  rw [← hsweep]
  simp only [burstEnd, hburst, Nat.not_lt.mpr hdue, hdying, hkind, hlast, Chip.wb_eq, false_and, Bool.false_eq_true, if_false]
  rfl

/-! ## A split frame times out (R144) -/

theorem upFragTimeout_stomps {c : Chip} {k alloc : Nat} {f : SplitFrame}
    (hsplit : c.up.splits.find? (fun s => decide (s.ch = k ∧ s.alloc = alloc)) = some f) (hdue : f.endAt + 125 * usPs ≤ c.now) :
    upFragTimeout k alloc c = { c.inc C.TRK_US_STOMPED k with
      up.splits := c.up.splits.erase f, up.owedAborts := c.up.owedAborts ++ [(4096 * k + alloc, f.tag)] } := by
  simp only [upFragTimeout, hsplit, if_pos hdue]

end Sys2Proof.Machine

namespace Sys2Proof.Safety

open Sys2Proof Sys2Proof.Machine

/-- BURST_START (R140). -/
theorem burstStart_emits (t : Nat) (k : Fin 16) (b : Burst) (s : State) (hs : ready s)
    (hburst : s.chip.up.formed.find? (fun b => decide (b.win.ch = k.val)) = some b) (hdue : b.win.t0 ≤ max s.chip.now t + symPs 768)
    (hopen : max s.chip.now t < b.win.endAt) (hguard : (chipAt s t).guardOk b.win = true) (hstep : s.chip.ds.apsStep = 0) :
    ∃ u, exec (.burstStart t k none) s = .next u ∧ u.chip.up.formed = s.chip.up.formed.erase b ∧
      u.chip.up.active = s.chip.up.active ++ [b] ∧ u.chip.rg R.TRK_US_STAT_BURSTING k = 1 ∧
      u.chip.counter C.TRK_US_BURSTS k = (s.chip.counter C.TRK_US_BURSTS k + 1) % 2 ^ 48 ∧
      newest u = some { kind := .burst, unit := k, data := [b.win.side, b.win.t0, b.win.endAt], bytes := eveBytes b.win.shortEve ++ delimiterBytes ++ scramble b.body } := by
  have hup := Chip.burstBegun_up ((chipAt s t).burstTaken b) k b
  have hactive : (((chipAt s t).burstTaken b).burstBegun k b).up.active = s.chip.up.active := by
    rw [hup]
    rfl
  refine ⟨_, State.on_running s t (fun _ => burstStart k none) hs.1, ?_⟩
  rw [burstStart_begins (c := chipAt s t) hburst hdue hopen hguard hstep]
  refine ⟨congrArg UpSt.formed hup, congrArg (· ++ [b]) hactive, ?_, ?_, ?_⟩
  · exact (Chip.rg_mk ..).trans (Chip.burstBegun_bursting ..)
  · exact (Chip.counter_mk ..).trans (Chip.burstBegun_bursts ..)
  · exact Chip.burstBegun_out ..

/-- BURST_END (R140). -/
theorem burstEnd_closes (t : Nat) (k : Fin 16) (b : Burst) (s : State) (hs : ready s)
    (hburst : s.chip.up.active.find? (fun b => decide (b.win.ch = k.val)) = some b) (hdue : b.win.endAt ≤ max s.chip.now t)
    (hdying : b.dying = false) (hkind : b.win.kind ≠ .discovery)
    (hlast : (s.chip.up.active.erase b).any (fun x => decide (x.win.ch = k.val)) = false) (hout : s.chip.qs.out = []) :
    ∃ u, exec (.burstEnd t k) s = .next u ∧ u.chip.up.active = s.chip.up.active.erase b ∧ u.chip.rg R.TRK_US_STAT_BURSTING k = 0 ∧
      newest u = some { kind := .gateShut, unit := k, data := [b.win.side], bytes := [] } ∧
      Tab.get 0 u.chip.up.lastEnd (2 * k + b.win.side) = b.win.endAt ∧ kept s u [R.TRK_US_STAT_BURSTING.key k] := by
  refine ⟨_, State.on_running s t (fun _ => burstEnd k) hs.1, ?_⟩
  rw [burstEnd_shuts (c := chipAt s t) hburst hdue hdying hkind hlast hout]
  refine ⟨rfl, Chip.rg_wg_same ((chipAt s t).burstShut k b) .., rfl, Tab.get_set_same .., kept_after_one hs (fun g j hg => ?_) rfl rfl rfl⟩
  exact Chip.rg_wg_other ((chipAt s t).burstShut k b) _ _ _ _ _ hg.symm

/-- UP_FRAG_TIMEOUT (R144). -/
theorem upFragTimeout_aborts (t : Nat) (k : Fin 16) (alloc : Nat) (f : SplitFrame) (s : State) (hs : ready s)
    (hsplit : s.chip.up.splits.find? (fun f => decide (f.ch = k.val ∧ f.alloc = alloc)) = some f)
    (hdue : f.endAt + 125 * usPs ≤ max s.chip.now t) :
    ∃ u, exec (.upFragTimeout t k alloc) s = .next u ∧ u.chip.up.splits = s.chip.up.splits.erase f ∧
      u.chip.up.owedAborts = s.chip.up.owedAborts ++ [(4096 * k + alloc, f.tag)] ∧
      u.chip.counter C.TRK_US_STOMPED k = (s.chip.counter C.TRK_US_STOMPED k + 1) % 2 ^ 48 ∧ regsKept s u [] := by
  refine ⟨_, State.on_running s t (fun _ => upFragTimeout k alloc) hs.1, ?_⟩
  rw [upFragTimeout_stomps (c := chipAt s t) hsplit hdue]
  exact ⟨rfl, rfl, Chip.counter_incBy_same (chipAt s t) .., fun _ _ _ => rfl⟩

end Sys2Proof.Safety
end

section
/-! PROOFS. The emission guard (04_trunk_access.md R148, R149): a trip shuts the gate of its channel; the third within 1 s shuts every
gate and leads to QUARANTINE. -/

namespace Sys2Proof.Machine

open Sys2Proof Sys2Proof.Safety

/-! ## Gates are shut (R120, R148) -/

/-- The registers TRK_US_STAT of the channels, by their keys. -/
abbrev usStatKey (n : Nat) : Prop := n / 32 % 0x1000 = 0x404

theorem Fld.usStatKey_key {f : Fld} (h : f.reg = 0x20404 ∧ f.stride = 0x1000 ∧ f.lsb < 32) (i : Nat) : usStatKey (f.key i) := by
  obtain ⟨hreg, hstride, hlsb⟩ := h
  simp only [usStatKey, Fld.key, hreg, hstride]
  omega

/-- A write of TRK_US_STAT leaves every other register. -/
theorem Chip.rg_wg_usStat (c : Chip) {f g : Fld} {j : Nat} (h : f.reg = 0x20404 ∧ f.stride = 0x1000 ∧ f.lsb < 32) (hg : ¬ usStatKey (g.key j))
    (i v : Nat) : (c.wg f i v).rg g j = c.rg g j :=
  Chip.rg_wg_other _ _ _ _ _ _ fun he => hg (he ▸ Fld.usStatKey_key h i)

theorem Chip.shutGates_rg (c : Chip) (ks : List Nat) {g : Fld} {j : Nat} (hg : ¬ usStatKey (g.key j)) : (c.shutGates ks).rg g j = c.rg g j := by
  refine (Chip.rg_mk ..).trans (foldl_keeps _ (fun d : Chip => d.rg g j) (fun d b => ?_) _ c)
  exact Chip.rg_wg_usStat (d.emit .gateShut b.win.ch [b.win.side] []) (by decide) hg ..

/-- The gates of bursts are shut one after the other. -/
theorem Chip.gatesShut_keeps (c : Chip) (l : List Burst) :
    ((l.foldl (fun (d : Chip) b => (d.emit .gateShut b.win.ch [b.win.side] []).wg R.TRK_US_STAT_BURSTING b.win.ch 0) c).cnt,
      (l.foldl (fun (d : Chip) b => (d.emit .gateShut b.win.ch [b.win.side] []).wg R.TRK_US_STAT_BURSTING b.win.ch 0) c).alm,
      (l.foldl (fun (d : Chip) b => (d.emit .gateShut b.win.ch [b.win.side] []).wg R.TRK_US_STAT_BURSTING b.win.ch 0) c).up) =
      (c.cnt, c.alm, c.up) := by
  refine foldl_keeps _ (fun d : Chip => (d.cnt, d.alm, d.up)) (fun d b => ?_) l c
  rfl

theorem Chip.shutGates_keeps (c : Chip) (ks : List Nat) :
    (c.shutGates ks).cnt = c.cnt ∧ (c.shutGates ks).alm = c.alm ∧ (c.shutGates ks).up.formed = c.up.formed ∧
      (c.shutGates ks).up.active = c.up.active.filter (fun b => !ks.contains b.win.ch) := by
  obtain ⟨hcnt, halm, hup⟩ := by simpa only [Prod.mk.injEq] using c.gatesShut_keeps (c.up.active.filter (fun b => ks.contains b.win.ch))
  unfold Chip.shutGates
  simp only [hcnt, halm, hup, and_self]

/-! ## A trip (R148) -/

/-- The chip that counted a trip and names its channel and cause. -/
def Chip.tripNoted (c : Chip) (k cause : Nat) : Chip :=
  (((c.inc C.TRK_US_GUARD_TRIP k).wg R.TRK_GUARD_STAT_LAST_CAUSE 0 cause).wg R.TRK_GUARD_STAT_LAST_CH 0 k).wg R.TRK_GUARD_STAT_TRIPPED 0 1

/-- The chip after a trip, with the trips of the last second before it. -/
def Chip.tripped (c : Chip) (k cause : Nat) (recent : List Nat) : Chip :=
  { (c.tripNoted k cause).shutGates [k] with up.trips := recent ++ [c.now] }.wg R.TRK_GUARD_STAT_RECENT 0 (min 2 (recent.length + 1))

theorem guardTrip_first {c : Chip} (h : c.up.trips = []) (k cause : Nat) : guardTrip k cause c = c.tripped k cause [] := by
  simp only [guardTrip, h, List.filter_nil, List.length_nil, Nat.zero_lt_two, if_true]
  rfl

/-- The chip once the latch is open: every gate is shut. -/
def Chip.guardLatched (c : Chip) (k cause : Nat) (recent : List Nat) : Chip :=
  ((c.tripped k cause recent).wg R.TRK_GUARD_STAT_QUAR 0 1).shutGates (List.range 16)

theorem guardTrip_third {c : Chip} {a b : Nat} (h : c.up.trips = [a, b]) (ha : c.now < a + secPs) (hb : c.now < b + secPs) (k cause : Nat)
    (hmode : (c.guardLatched k cause [a, b]).mode = 5) : guardTrip k cause c = (c.guardLatched k cause [a, b]).enterQuarantine 13 := by
  have hrecent : c.up.trips.filter (fun x => decide (c.now < x + secPs)) = [a, b] := by simp [h, ha, hb]
  have hmodes : 2 ≤ (c.guardLatched k cause [a, b]).mode ∧ (c.guardLatched k cause [a, b]).mode ≤ 7 := by omega
  unfold guardTrip
  simp only [hrecent, List.length_cons, List.length_nil]
  exact (if_neg (by decide)).trans (if_pos (.inl hmodes))

/-- RECENT aside, a trip's registers outside TRK_US_STAT are those that it noted. -/
theorem Chip.tripped_rg (c : Chip) (k cause : Nat) (recent : List Nat) {g : Fld} {j : Nat} (hg : ¬ usStatKey (g.key j))
    (hrecent : R.TRK_GUARD_STAT_RECENT.key 0 ≠ g.key j) : (c.tripped k cause recent).rg g j = (c.tripNoted k cause).rg g j :=
  (Chip.rg_wg_other _ _ _ _ _ _ hrecent).trans (Chip.shutGates_rg _ _ hg)

/-- A trip leaves what lies outside TRK_US_STAT and the registers of the guard. -/
theorem Chip.tripped_rg_other (c : Chip) (k cause : Nat) (recent : List Nat) {g : Fld} {j : Nat} (hg : ¬ usStatKey (g.key j))
    (hguard : g.key j / 32 ≠ 0x30820) : (c.tripped k cause recent).rg g j = c.rg g j := by
  have hkey {f : Fld} (hf : f.key 0 / 32 = 0x30820) : f.key 0 ≠ g.key j := fun he => hguard (he ▸ hf)
  rw [Chip.tripped_rg c k cause recent hg (hkey (by decide)), Chip.tripNoted, Chip.rg_wg_other _ _ _ _ _ _ (hkey (by decide)),
    Chip.rg_wg_other _ _ _ _ _ _ (hkey (by decide)), Chip.rg_wg_other _ _ _ _ _ _ (hkey (by decide))]
  rfl

theorem Chip.tripped_reads (c : Chip) {k cause : Nat} (hk : k < 16) (hcause : cause < 8) (recent : List Nat) :
    (c.tripped k cause recent).rg R.TRK_GUARD_STAT_TRIPPED 0 = 1 ∧ (c.tripped k cause recent).rg R.TRK_GUARD_STAT_LAST_CH 0 = k ∧
      (c.tripped k cause recent).rg R.TRK_GUARD_STAT_LAST_CAUSE 0 = cause := by
  refine ⟨?_, ?_, ?_⟩ <;>
    rw [Chip.tripped_rg _ _ _ _ (by decide) (by decide), Chip.tripNoted] <;>
    repeat rw [Chip.rg_wg_other _ _ _ _ _ _ (by decide)]
  all_goals rw [Chip.rg_wg_same]
  · rfl
  · exact Nat.mod_eq_of_lt hk
  · exact Nat.mod_eq_of_lt hcause

theorem Chip.tripped_counts (c : Chip) (k cause : Nat) (recent : List Nat) :
    (c.tripped k cause recent).counter C.TRK_US_GUARD_TRIP k = (c.counter C.TRK_US_GUARD_TRIP k + 1) % 2 ^ 48 := by
  obtain ⟨hcnt, -⟩ := (c.tripNoted k cause).shutGates_keeps [k]
  have hnoted : (c.tripNoted k cause).counter C.TRK_US_GUARD_TRIP k = (c.counter C.TRK_US_GUARD_TRIP k + 1) % 2 ^ 48 :=
    Chip.counter_incBy_same ..
  exact (congrArg (fun t => Tab.get 0 t _) hcnt).trans hnoted

theorem Chip.guardLatched_rg_other (c : Chip) (k cause : Nat) (recent : List Nat) {g : Fld} {j : Nat} (hg : ¬ usStatKey (g.key j))
    (hguard : g.key j / 32 ≠ 0x30820) : (c.guardLatched k cause recent).rg g j = c.rg g j := by
  have hquar : R.TRK_GUARD_STAT_QUAR.key 0 ≠ g.key j := fun he => hguard (he ▸ by decide)
  rw [Chip.guardLatched, Chip.shutGates_rg _ _ hg, Chip.rg_wg_other _ _ _ _ _ _ hquar, Chip.tripped_rg_other _ _ _ _ hg hguard]

theorem Chip.guardLatched_quar (c : Chip) (k cause : Nat) (recent : List Nat) :
    (c.guardLatched k cause recent).rg R.TRK_GUARD_STAT_QUAR 0 = 1 := by
  rw [Chip.guardLatched, Chip.shutGates_rg _ _ (by decide), Chip.rg_wg_same]
  rfl

theorem Chip.guardLatched_mode (c : Chip) (k cause : Nat) (recent : List Nat) : (c.guardLatched k cause recent).mode = c.mode :=
  Chip.guardLatched_rg_other c k cause recent (g := R.TRK_MODE_CODE) (j := 0) (by decide) (by decide)

theorem Chip.tripped_keeps (c : Chip) (k cause : Nat) (recent : List Nat) :
    (c.tripped k cause recent).alm = c.alm ∧ (c.tripped k cause recent).up.formed = c.up.formed := by
  obtain ⟨-, halm, hformed, -⟩ := (c.tripNoted k cause).shutGates_keeps [k]
  rw [Chip.tripped, Chip.wg_alm, Chip.wg_up]
  exact ⟨halm, hformed⟩

theorem Chip.guardLatched_keeps (c : Chip) (k cause : Nat) (recent : List Nat) :
    (c.guardLatched k cause recent).alm = c.alm ∧ (c.guardLatched k cause recent).up.formed = c.up.formed := by
  obtain ⟨-, halm, hformed, -⟩ := ((c.tripped k cause recent).wg R.TRK_GUARD_STAT_QUAR 0 1).shutGates_keeps (List.range 16)
  rw [Chip.guardLatched, halm, hformed, Chip.wg_alm, Chip.wg_up]
  exact c.tripped_keeps k cause recent

/-! ## QUARANTINE (R149) -/

/-- In OPERATIONAL nothing of JUBILEE or LOOPBACK is left: the change is noted and every grant is discarded (R120). -/
theorem Chip.setMode_quarantine {c : Chip} (hmode : c.mode = 5) (cause : Nat) : c.setMode 8 cause = (c.modeNoted 8 cause).dropGrants := by
  simp [Chip.setMode, Chip.modeNoted, hmode]

theorem Chip.dropGrants_rg {c : Chip} (h : c.up.formed = []) {g : Fld} {j : Nat} (hg : ¬ usStatKey (g.key j)) : c.dropGrants.rg g j = c.rg g j := by
  have hpending : (forN 16 (fun k d => d.wg R.TRK_US_STAT_PENDING k 0) c).rg g j = c.rg g j :=
    forN_keeps 16 _ (fun d : Chip => d.rg g j) (fun k d => Chip.rg_wg_usStat d (by decide) hg k 0) c
  unfold Chip.dropGrants
  rw [h]
  exact (Chip.rg_mk ..).trans hpending

theorem Chip.dropGrants_alm {c : Chip} (h : c.up.formed = []) : c.dropGrants.alm = c.alm := by
  have hpending : (forN 16 (fun k d => d.wg R.TRK_US_STAT_PENDING k 0) c).alm = c.alm :=
    forN_keeps 16 _ Chip.alm (fun k d => Chip.wg_alm d R.TRK_US_STAT_PENDING k 0) c
  simp only [Chip.dropGrants, h, List.reverse_nil, List.foldl_nil, hpending]

/-- With no transaction there is none that aborts. -/
theorem Chip.txnAbortAll_none {c : Chip} (h : c.alm.txns = []) (cause : Nat) (keep : Bool) (p : Txn → Bool) : c.txnAbortAll cause keep p = c := by
  simp only [Chip.txnAbortAll, h, List.filter_nil, List.foldl_nil]

/-- The chip in QUARANTINE, before a swap is looked at. -/
def Chip.quarantined (c : Chip) (cause : Nat) : Chip := (c.modeNoted 8 cause).dropGrants.shutGates (List.range 16)

section
variable {c : Chip} (hformed : c.up.formed = [])
include hformed

theorem Chip.quarantined_rg (cause : Nat) {g : Fld} {j : Nat} (hg : ¬ usStatKey (g.key j)) :
    (c.quarantined cause).rg g j = (c.modeNoted 8 cause).rg g j :=
  (Chip.shutGates_rg _ _ hg).trans (Chip.dropGrants_rg (c := c.modeNoted 8 cause) hformed hg)

theorem Chip.enterQuarantine_operational (hmode : c.mode = 5) (htxns : c.alm.txns = []) (hswap : c.rg R.HLT_SWAP_STAT_STATE 0 ≠ 1) (cause : Nat) :
    c.enterQuarantine cause = c.quarantined cause := by
  have halm : (c.modeNoted 8 cause).dropGrants.alm.txns = [] :=
    (congrArg AlmSt.txns (Chip.dropGrants_alm (c := c.modeNoted 8 cause) hformed)).trans htxns
  have hswap' : (c.quarantined cause).rg R.HLT_SWAP_STAT_STATE 0 ≠ 1 := by
    rwa [Chip.quarantined_rg hformed cause (by decide), Chip.modeNoted_rg_other _ _ _ (by decide)]
  rw [Chip.enterQuarantine, Chip.setMode_quarantine hmode, Chip.txnAbortAll_none halm]
  exact if_neg hswap'

end

/-- No burst of a channel is left. -/
theorem Chip.quarantined_active (c : Chip) (cause : Nat) : (c.quarantined cause).up.active.filter (fun b => decide (b.win.ch < 16)) = [] := by
  obtain ⟨-, -, -, hactive⟩ := (c.modeNoted 8 cause).dropGrants.shutGates_keeps (List.range 16)
  rw [Chip.quarantined, hactive, List.filter_filter, List.filter_eq_nil_iff]
  intro b _ hb
  simp at hb

/-- What the third trip within 1 s leaves in OPERATIONAL. -/
theorem guardTrip_operational {c : Chip} {a b : Nat} (htrips : c.up.trips = [a, b]) (ha : c.now < a + secPs) (hb : c.now < b + secPs)
    (hmode : c.mode = 5) (htxns : c.alm.txns = []) (hformed : c.up.formed = []) (hswap : c.rg R.HLT_SWAP_STAT_STATE 0 ≠ 1) (k cause : Nat) :
    guardTrip k cause c = (c.guardLatched k cause [a, b]).quarantined 13 := by
  obtain ⟨halm, hup⟩ := c.guardLatched_keeps k cause [a, b]
  have hmode' : (c.guardLatched k cause [a, b]).mode = 5 := (c.guardLatched_mode ..).trans hmode
  have hswap' : (c.guardLatched k cause [a, b]).rg R.HLT_SWAP_STAT_STATE 0 ≠ 1 := by
    rwa [Chip.guardLatched_rg_other _ _ _ _ (by decide) (by decide)]
  have htxns' : (c.guardLatched k cause [a, b]).alm.txns = [] := by rw [halm, htxns]
  rw [guardTrip_third htrips ha hb k cause hmode', Chip.enterQuarantine_operational (hup.trans hformed) hmode' htxns' hswap']

theorem Chip.quarantined_reads {c : Chip} (hformed : c.up.formed = []) (hquar : c.rg R.TRK_GUARD_STAT_QUAR 0 = 1) {cause : Nat} (hcause : cause < 256) :
    (c.quarantined cause).rg R.TRK_GUARD_STAT_QUAR 0 = 1 ∧ (c.quarantined cause).mode = 8 ∧ (c.quarantined cause).rg R.TRK_MODE_CAUSE 0 = cause := by
  refine ⟨?_, ?_, ?_⟩
  · rwa [Chip.quarantined_rg hformed cause (by decide), Chip.modeNoted_rg_other _ _ _ (by decide)]
  · exact (Chip.quarantined_rg hformed cause (g := R.TRK_MODE_CODE) (by decide)).trans (c.modeNoted_mode (by decide) cause)
  · exact (Chip.quarantined_rg hformed cause (by decide)).trans (c.modeNoted_cause 8 hcause)

end Sys2Proof.Machine

namespace Sys2Proof.Safety

open Sys2Proof Sys2Proof.Machine

/-- GUARD_TRIP, the first of a second (R148). -/
theorem guardTrip_records (t : Nat) (k : Fin 16) (cause : Fin 8) (s : State) (hs : ready s) (htrips : s.chip.up.trips = []) :
    ∃ u, exec (.guardTrip t k cause) s = .next u ∧
      u.chip.counter C.TRK_US_GUARD_TRIP k = (s.chip.counter C.TRK_US_GUARD_TRIP k + 1) % 2 ^ 48 ∧
      u.chip.rg R.TRK_GUARD_STAT_TRIPPED 0 = 1 ∧ u.chip.rg R.TRK_GUARD_STAT_LAST_CH 0 = k ∧ u.chip.rg R.TRK_GUARD_STAT_LAST_CAUSE 0 = cause ∧
      u.chip.rg R.TRK_GUARD_STAT_RECENT 0 = 1 ∧ u.chip.up.trips = [max s.chip.now t] := by
  obtain ⟨htripped, hch, hcause⟩ := (chipAt s t).tripped_reads k.isLt cause.isLt []
  refine ⟨_, State.on_running s t (fun _ => guardTrip k cause) hs.1, ?_⟩
  rw [guardTrip_first (c := chipAt s t) htrips]
  exact ⟨Chip.tripped_counts (chipAt s t) k cause [], htripped, hch, hcause, Chip.rg_wg_same .., rfl⟩

/-- GUARD_TRIP, the third within 1 s in OPERATIONAL (R148, R149). -/
theorem guardTrip_quarantines (t : Nat) (k : Fin 16) (cause : Fin 8) (a b : Nat) (s : State) (hs : ready s)
    (htrips : s.chip.up.trips = [a, b]) (ha : max s.chip.now t < a + secPs) (hb : max s.chip.now t < b + secPs) (hmode : s.chip.mode = 5)
    (htxns : s.chip.alm.txns = []) (hformed : s.chip.up.formed = []) (hswap : s.chip.rg R.HLT_SWAP_STAT_STATE 0 ≠ 1) :
    ∃ u, exec (.guardTrip t k cause) s = .next u ∧ u.chip.rg R.TRK_GUARD_STAT_QUAR 0 = 1 ∧ u.chip.mode = 8 ∧
      u.chip.rg R.TRK_MODE_CAUSE 0 = 13 ∧ u.chip.up.active.filter (fun b => decide (b.win.ch < 16)) = [] := by
  obtain ⟨-, hup⟩ := (chipAt s t).guardLatched_keeps k cause [a, b]
  have hformed' : ((chipAt s t).guardLatched k cause [a, b]).up.formed = [] := hup.trans hformed
  obtain ⟨hquar, hmode', hcause⟩ := Chip.quarantined_reads hformed' (Chip.guardLatched_quar ..) (cause := 13) (by decide)
  refine ⟨_, State.on_running s t (fun _ => guardTrip k cause) hs.1, ?_⟩
  rw [guardTrip_operational (c := chipAt s t) htrips ha hb hmode htxns hformed hswap k cause]
  refine ⟨(Chip.rg_done ..).trans hquar, (Chip.rg_done ..).trans hmode', (Chip.rg_done ..).trans hcause, ?_⟩
  rw [State.after_chip, Chip.done_up, Chip.quarantined_active]

/-- Settles O13: grants become windows, windows become bursts that begin and end, and the guard acts, as R129 to R149 say. -/
theorem grantAndBurstCommands : Obligations.GrantAndBurstCommands :=
  ⟨grantEntry_stores, announceUnanswered_skips, rangingReqExpire_closes, burstForm_moves, burstStart_emits, burstEnd_closes,
    upFragTimeout_aborts, guardTrip_records, guardTrip_quarantines⟩

end Sys2Proof.Safety
end

section
/-! PROOFS. The pass of a frame that finds no parse graph and no stage (05_packet_pipeline.md R153, R157, R164, R174, R177). -/

namespace Sys2Proof.Machine

open Sys2Proof Sys2Proof.Safety

/-! ## Registers alone -/

/-- The second chip is the first with other register values. -/
def Chip.Rewritten (c d : Chip) : Prop := ∃ regs, d = { c with regs := regs }

theorem Chip.Rewritten.refl (c : Chip) : c.Rewritten c := ⟨c.regs, rfl⟩

theorem Chip.Rewritten.trans {c d e : Chip} (h : c.Rewritten d) (g : d.Rewritten e) : c.Rewritten e := by
  obtain ⟨_, rfl⟩ := h
  obtain ⟨regs, rfl⟩ := g
  exact ⟨regs, rfl⟩

/-- A reading that looks at no register is the same of both. -/
theorem Chip.Rewritten.read {α : Type} {c d : Chip} (h : c.Rewritten d) (f : Chip → α)
    (hf : ∀ regs, f { c with regs := regs } = f c) : f d = f c := by
  obtain ⟨regs, rfl⟩ := h
  exact hf regs

theorem Chip.wg_rewritten (c : Chip) (f : Fld) (i v : Nat) : c.Rewritten (c.wg f i v) := ⟨_, rfl⟩

theorem Chip.forN_rewritten {f : Nat → Chip → Chip} (hf : ∀ i d, Chip.Rewritten d (f i d)) (n : Nat) (c : Chip) : c.Rewritten (forN n f c) :=
  forN_induct (p := fun _ d => c.Rewritten d) (.refl c) (fun i d h => h.trans (hf i d)) n

/-! ## References of a generation (R177, R184) -/

theorem Chip.stageUse_rewritten (c : Chip) : c.Rewritten c.stageUse := Chip.forN_rewritten (fun _ d => d.wg_rewritten _ _ _) 12 c

theorem Chip.refTake_rewritten (c : Chip) (g : Nat) : c.Rewritten (c.refTake g) := by
  unfold Chip.refTake
  split
  · exact c.wg_rewritten _ _ _
  · exact .refl c

theorem Chip.refDrop_rewritten (c : Chip) (g : Nat) : c.Rewritten (c.refDrop g) := by
  unfold Chip.refDrop
  split
  next n _ =>
    have hcount := c.wg_rewritten R.PKT_GEN_REFS_COUNT n (c.rg R.PKT_GEN_REFS_COUNT n - 1)
    dsimp only
    split
    · exact hcount.trans ((Chip.wg_rewritten ..).trans ((Chip.wg_rewritten ..).trans (Chip.stageUse_rewritten _)))
    · exact hcount
  · exact .refl c

/-! ## Fields of the bus below a place at which it holds nothing (R155) -/

theorem busGet_of_dvd {bus m i w : Nat} (h : 2 ^ m ∣ bus) (hiw : i + w ≤ m) : busGet bus i w = 0 := by
  obtain ⟨k, rfl⟩ := h
  have hplace : 2 ^ m * k = 2 ^ i * (2 ^ w * (2 ^ (m - (i + w)) * k)) := by
    rw [← mul_assoc, ← mul_assoc, ← pow_add, ← pow_add, Nat.add_sub_cancel' hiw]
  rw [busGet, bits, hplace, Nat.mul_div_cancel_left _ (Nat.two_pow_pos i), Nat.mul_mod_right]

theorem dvd_busSet {bus m w : Nat} (h : 2 ^ m ∣ bus) (v : Nat) : 2 ^ m ∣ busSet bus m w v :=
  ((Nat.dvd_sub h (Nat.dvd_mul_left ..)).add (Nat.dvd_mul_left ..))

theorem dvd_fields {m a b c d e g : Nat} (ha : m ≤ a) (hb : m ≤ b) (hc : m ≤ c) (hd : m ≤ d) (he : m ≤ e) (hg : m ≤ g)
    (u v w x y z : Nat) : 2 ^ m ∣ u * 2 ^ a + v * 2 ^ b + w * 2 ^ c + x * 2 ^ d + y * 2 ^ e + z * 2 ^ g := by
  have hfield {i : Nat} (v : Nat) (hi : m ≤ i) : 2 ^ m ∣ v * 2 ^ i := (Nat.pow_dvd_pow 2 hi).mul_left v
  exact (((((hfield _ ha).add (hfield _ hb)).add (hfield _ hc)).add (hfield _ hd)).add (hfield _ he)).add (hfield _ hg)

theorem Frame.startBus_entry {f : Frame} (hentry : f.entry = true) :
    f.startBus = f.gen * 2 ^ 504 + f.pass * 2 ^ 502 + f.origin * 2 ^ 500 + f.wl * 2 ^ 496 + f.src * 2 ^ 480 + f.len * 2 ^ 466 := by
  rw [Frame.startBus, if_pos hentry, Nat.add_zero]

/-- A first pass begins with nothing on the bus below LEN. -/
theorem Frame.dvd_startBus {f : Frame} (hentry : f.entry = true) {m : Nat} (hm : m ≤ 466) : 2 ^ m ∣ f.startBus := by
  rw [Frame.startBus_entry hentry]
  apply dvd_fields <;> omega

/-! ## The pass (R153) -/

/-- Where no node is loaded the parser ends at the first one: no header, no exception (R157). -/
theorem Chip.parse_empty {c : Chip} (h : c.pp.nodes = []) (pg : Nat) (l : List Byte) (lf : Nat) (known : Bool) (bus : Nat) :
    c.parse pg l lf known bus = { node := none, cur := 0, cnt := 0, bus := bus, hdrs := [], exc := none, claim := 0 } := by
  have hwalk : ∀ i w, w = { node := if i = 0 then some 0 else none, cur := 0, cnt := 0, bus := bus, hdrs := [], exc := none, claim := 0 } →
      c.walkNode pg l lf known w = { node := none, cur := 0, cnt := 0, bus := bus, hdrs := [], exc := none, claim := 0 } := by
    rintro i w rfl
    by_cases hi : i = 0 <;> simp [Chip.walkNode, hi, h, Tab.find]
  exact forN_induct (p := fun i w => w = { node := if i = 0 then some 0 else none, cur := 0, cnt := 0, bus := bus, hdrs := [], exc := none, claim := 0 })
    rfl (fun i w hw => hwalk i w hw) 25

/-- Where no layout is loaded every stage lets the pass through (R164). -/
theorem Chip.runStages_empty {c : Chip} (h : c.pp.layouts = []) (pg : Nat) (p : Pass) : ∀ n s, c.runStages pg p n s = c.resolve pg p
  | 0, _ => rfl
  | n + 1, s => by
    have hstage : c.stage pg s (c.genBank p.f.gen s) p = .on c p.f.bus false := by simp [Chip.stage, h, Tab.find]
    rw [Chip.runStages, hstage]
    exact Chip.runStages_empty h pg p n (s + 1)

/-- A pass whose bus names no action, sample cell, recirculation, slow path or queue has no destination (R174). -/
theorem Chip.resolve_noDest {p : Pass} {m : Nat} (hm : 361 ≤ m) (h : 2 ^ m ∣ p.f.bus) (c : Chip) (pg : Nat) :
    c.resolve pg p = c.passDrop p.f C.PKT_BLK_NO_DEST := by
  have hbit {i : Nat} (hi : i ≤ 360) : busGet p.f.bus i 1 = 0 := busGet_of_dvd h (by omega)
  simp [Chip.resolve, Chip.resolveRest, hbit]

/-- A first pass without parse graph and stages: it takes its generation, is counted, and goes to its resolution with an empty bus. -/
theorem Chip.pass_empty {c : Chip} {f : Frame} (hnodes : c.pp.nodes = []) (hlayouts : c.pp.layouts = []) (hpass : f.pass = 0)
    (hentry : f.entry = true) (horigin : f.origin = 0) : ∃ (pg : Nat) (p : Pass), p.f.blk = f.blk ∧ p.f.gen = c.rg R.ALM_RULE_GEN_CUR 0 ∧
      2 ^ 364 ∣ p.f.bus ∧ c.pass f = ((c.refTake (c.rg R.ALM_RULE_GEN_CUR 0)).inc C.PKT_BLK_PASS_FIRST f.blk).resolve pg p := by
  have hpp : ((c.refTake (c.rg R.ALM_RULE_GEN_CUR 0)).inc C.PKT_BLK_PASS_FIRST f.blk).pp = c.pp :=
    (c.refTake_rewritten _).read (·.pp) fun _ => rfl
  have hctr : passCtr f = C.PKT_BLK_PASS_FIRST := by simp [passCtr, hentry, horigin, hpass]
  have hstamp : c.stampGen f = (c.refTake (c.rg R.ALM_RULE_GEN_CUR 0), { f with gen := c.rg R.ALM_RULE_GEN_CUR 0 }) := if_pos hpass
  have hbus : 2 ^ 364 ∣ ({ f with gen := c.rg R.ALM_RULE_GEN_CUR 0 } : Frame).startBus :=
    Frame.dvd_startBus (f := { f with gen := c.rg R.ALM_RULE_GEN_CUR 0 }) hentry (by decide)
  unfold Chip.pass
  rw [hstamp, hctr]
  dsimp only
  rw [Chip.parse_empty (by rw [hpp, hnodes])]
  dsimp only
  rw [Chip.runStages_empty (by rw [hpp, hlayouts])]
  exact ⟨_, _, rfl, rfl, dvd_busSet hbus _, rfl⟩

/-- Such a pass finds no destination and lets its generation go. -/
theorem Chip.pass_noDest {c : Chip} {f : Frame} (hnodes : c.pp.nodes = []) (hlayouts : c.pp.layouts = []) (hpass : f.pass = 0)
    (hentry : f.entry = true) (horigin : f.origin = 0) :
    (((c.refTake (c.rg R.ALM_RULE_GEN_CUR 0)).inc C.PKT_BLK_PASS_FIRST f.blk).inc C.PKT_BLK_NO_DEST f.blk).Rewritten (c.pass f) := by
  obtain ⟨pg, p, hblk, -, hbus, hp⟩ := Chip.pass_empty hnodes hlayouts hpass hentry horigin
  rw [hp, Chip.resolve_noDest (by decide) hbus, Chip.passDrop, hblk]
  exact Chip.refDrop_rewritten ..

/-! ## PIPELINE_PASS (R152, R153) -/

/-- The chip with a frame of its block begun by the cell of role `r`: no longer waiting, the roles of its source alternated. -/
def Chip.begun (c : Chip) (f : Frame) (r : Nat) : Chip :=
  { c.unwait f with st.alt := c.st.alt.set f.sourceKey (if f.entry then 1 - r else Tab.get 0 c.st.alt f.sourceKey) }

/-- The oldest new arrival begins where nothing returns to the block and its cell serves. -/
theorem pipelinePass_first {c : Chip} {b role : Nat} {f : Frame} {r : List Frame} (hok : c.blockOk b = true) (hback : c.pp.back = [])
    (hwait : c.pp.waiting = f :: r) (hblk : f.blk = b) (hpass : f.pass = 0) (hrole : c.passRole f = some role)
    (hlive : c.pipeDead b role = false) : pipelinePass b c = (c.begun f role).pass { f with role := role } := by
  have hnext : c.nextFrame b = some f := by simp [Chip.nextFrame, hback, hwait, hblk]
  have hlive' : (c.begun f role).pipeDead b role = false := hlive
  have hgen : ¬ (f.pass ≠ 0 ∧ ((c.begun f role).genSlot f.gen).isNone = true) := fun h => h.1 hpass
  unfold pipelinePass
  simp only [hok, hnext, hrole, Bool.true_eq_false, if_false]
  exact (if_neg (Bool.eq_false_iff.mp hlive')).trans (if_neg hgen)

end Sys2Proof.Machine

namespace Sys2Proof.Safety

open Sys2Proof Sys2Proof.Machine

/-- PIPELINE_PASS of a frame that finds no destination (R153, R174). -/
theorem pipelinePass_noDest (t : Nat) (b : Fin 32) (f : Frame) (r : List Frame) (role : Nat) (s : State) (hs : ready s)
    (hok : (chipAt s t).blockOk b = true) (hback : s.chip.pp.back = []) (hwait : s.chip.pp.waiting = f :: r) (hblk : f.blk = b)
    (hpass : f.pass = 0) (hentry : f.entry = true) (_ : f.known = true) (horigin : f.origin = 0) (hrole : s.chip.passRole f = some role)
    (hlive : s.chip.pipeDead b role = false) (hnodes : s.chip.pp.nodes = []) (hlayouts : s.chip.pp.layouts = []) :
    ∃ u, exec (.pipelinePass t b) s = .next u ∧ u.chip.pp.waiting = r.filter (fun x => decide (x.id ≠ f.id)) ∧
      u.chip.counter C.PKT_BLK_PASS_FIRST b = (s.chip.counter C.PKT_BLK_PASS_FIRST b + 1) % 2 ^ 48 ∧
      u.chip.counter C.PKT_BLK_NO_DEST b = (s.chip.counter C.PKT_BLK_NO_DEST b + 1) % 2 ^ 48 ∧ u.chip.qs.frames = s.chip.qs.frames := by
  have hfirst := pipelinePass_first (c := chipAt s t) hok hback hwait hblk hpass hrole hlive
  have htaken := ((chipAt s t).begun f role).refTake_rewritten (((chipAt s t).begun f role).rg R.ALM_RULE_GEN_CUR 0)
  have hdone := Chip.pass_noDest (c := (chipAt s t).begun f role) (f := { f with role := role }) hnodes hlayouts hpass hentry horigin
  rw [← hfirst, show ({ f with role := role } : Frame).blk = b from hblk] at hdone
  refine ⟨_, State.on_running s t (fun _ => pipelinePass b) hs.1, ?_, ?_, ?_, ?_⟩
  · rw [State.after_chip, Chip.done_pp, hdone.read (·.pp.waiting) fun _ => rfl]
    refine (htaken.read (·.pp.waiting) fun _ => rfl).trans ?_
    simp [Chip.begun, Chip.unwait, hwait]
  · rw [State.after_chip, Chip.counter_done, hdone.read (·.counter C.PKT_BLK_PASS_FIRST b) fun _ => rfl, Chip.inc_eq, Chip.inc_eq,
      Chip.counter_incBy_other _ (Ctr.key_ne_of_base _ (by decide)), Chip.counter_incBy_same,
      htaken.read (·.counter C.PKT_BLK_PASS_FIRST b) fun _ => rfl]
    rfl
  · rw [State.after_chip, Chip.counter_done, hdone.read (·.counter C.PKT_BLK_NO_DEST b) fun _ => rfl, Chip.inc_eq, Chip.inc_eq,
      Chip.counter_incBy_same, Chip.counter_incBy_other _ (Ctr.key_ne_of_base _ (by decide)),
      htaken.read (·.counter C.PKT_BLK_NO_DEST b) fun _ => rfl]
    rfl
  · exact (hdone.read (·.qs.frames) fun _ => rfl).trans (htaken.read (·.qs.frames) fun _ => rfl)

end Sys2Proof.Safety
end

section
/-! PROOFS. Last bytes of frames, flow fetches and expired generations (05_packet_pipeline.md R154, R168, R178, R474), and the statement of the
pipelines. -/

namespace Sys2Proof.Machine

open Sys2Proof Sys2Proof.Safety

/-! ## FRAME_LAST_BYTE (R154, R474) -/

/-- A frame that waits alone drains as it arrives, and never fills its receive FIFO (R24). -/
theorem Chip.fifoOver_alone {c : Chip} {f : Frame} (h : c.pp.waiting = [f]) (origin src id n : Nat) :
    c.fifoOver origin src (some id) n = false := by
  have harr : c.arrivals origin src = [f] ∨ c.arrivals origin src = [] := by
    rw [Chip.arrivals, h, List.filter_cons, List.filter_nil]
    exact ite_eq_or_eq _ _ _
  rcases harr with harr | harr <;> simp [Chip.fifoOver, harr]

/-- The one frame in the terminal waits for its pass, and its number is `id`. -/
structure Chip.Lone (c : Chip) (f : Frame) (id : Nat) : Prop where
  frames : c.qs.frames = []
  held : c.pp.held = []
  miss : c.pp.miss = []
  back : c.pp.back = []
  waiting : c.pp.waiting = [f]
  number : f.id = id

/-- Its last bytes join it where it waits. -/
theorem Chip.Lone.lastByte {c : Chip} {f : Frame} {id : Nat} (h : c.Lone f id) (htx : c.qs.tx = []) (hknown : f.known = false)
    (rest : List Byte) : ∃ pp : PipeSt, pp.waiting = [f.ended rest] ∧ c.lastByte id rest = { c with pp := pp } := by
  refine ⟨(c.lastByte id rest).pp, ?_, ?_⟩ <;>
    simp [Chip.lastByte, h.frames, htx, h.held, h.miss, h.waiting, h.number, hknown]

/-- It is removed where it waits. -/
theorem Chip.Lone.removeFrame {c : Chip} {f : Frame} {id : Nat} (h : c.Lone f id) :
    ∃ pp : PipeSt, pp.waiting = [] ∧ c.removeFrame id = { c with pp := pp } := by
  refine ⟨(c.removeFrame id).pp, ?_, ?_⟩ <;>
    simp [Chip.removeFrame, h.frames, h.held, h.miss, h.back, h.waiting, h.number]

/-- The chip once no frame is being received on a local port. -/
def Chip.rxIdle (c : Chip) : Chip := { c with pt.rxOpen := [] }

theorem Chip.rxLast_bad {c : Chip} {r : RxOpen} (hopen : c.pt.rxOpen = [r]) (rest : List Byte) :
    c.rxLast r rest false = (c.rxIdle.inc C.PRT_RX_FCS_ERR r.port).removeFrame r.id := by
  simp [Chip.rxLast, hopen, Chip.rxIdle]

/-- A frame that fits MAX_FRAME and waits alone is counted, and gets its last bytes. -/
theorem Chip.rxLast_good {c : Chip} {r : RxOpen} {f : Frame} (hopen : c.pt.rxOpen = [r]) (hwait : c.pp.waiting = [f]) {rest : List Byte}
    (hfit : r.n + rest.length + 4 ≤ c.maxFrame) :
    c.rxLast r rest true =
      ((c.rxIdle.inc C.PRT_RX_FRAMES r.port).incBy C.PRT_RX_BYTES r.port (r.n + rest.length + 4)).lastByte r.id rest := by
  have hidle : { c with pt.rxOpen := c.pt.rxOpen.filter (fun x => decide (x.id ≠ r.id)) } = c.rxIdle := by simp [hopen, Chip.rxIdle]
  have hroom : ((c.rxIdle.inc C.PRT_RX_FRAMES r.port).incBy C.PRT_RX_BYTES r.port (r.n + rest.length + 4)).fifoOver 0 r.port (some r.id)
    rest.length = false := Chip.fifoOver_alone hwait ..
  have hmax : ¬ ((c.rxIdle.inc C.PRT_RX_FRAMES r.port).incBy C.PRT_RX_BYTES r.port (r.n + rest.length + 4)).maxFrame < r.n + rest.length + 4 :=
    Nat.not_lt.mpr hfit
  unfold Chip.rxLast
  rw [hidle]
  simp only [Bool.true_eq_false, hroom, Bool.false_eq_true, hmax, if_false]

/-! ## FLOW_FETCH_DONE (R168) -/

/-- A fetch that did not find its key, with ways left, goes on with the next way. -/
theorem flowFetchDone_next {m : Mem} {c : Chip} {table bank key a : Nat} {x : Miss} (hmiss : c.pp.miss = [x]) (htable : x.table = table)
    (hbank : x.bank = bank) (hkey : x.key = key) (hbucket : c.flowBucket table bank key = some a)
    (hother : flowKey (m.ddrRead (a + 64 * x.ways) 64) ≠ key) (hways : x.ways < 3) :
    flowFetchDone m table bank key c = { c.inc C.PKT_FLOW_FETCH 0 with pp.miss := [{ x with ways := x.ways + 1 }] } := by
  have hmore : ¬ 3 ≤ x.ways := Nat.not_le.mpr hways
  simp [flowFetchDone, hmiss, htable, hbank, hkey, hbucket, hother, hmore]

/-! ## GEN_EXPIRE (R178) -/

@[simp] theorem Chip.expireCount_pp (c : Chip) (fs : List Frame) : (c.expireCount fs).pp = c.pp :=
  foldl_keeps (fun (d : Chip) (f : Frame) => d.inc C.PKT_BLK_GEN_EXPIRED f.blk) (·.pp) (fun _ _ => rfl) fs c

@[simp] theorem Chip.expireCount_mout (c : Chip) (fs : List Frame) : (c.expireCount fs).mout = c.mout :=
  foldl_keeps (fun (d : Chip) (f : Frame) => d.inc C.PKT_BLK_GEN_EXPIRED f.blk) (·.mout) (fun _ _ => rfl) fs c

/-- Symbols of sample cells that are dropped change neither the frames of the pipelines nor a memory. -/
theorem Chip.expireSymbols_keeps (c : Chip) (g n : Nat) :
    (forN n (fun x d => d.expireSymbols x g) c).pp = c.pp ∧ (forN n (fun x d => d.expireSymbols x g) c).mout = c.mout := by
  refine Prod.mk.inj (forN_keeps n _ (fun d : Chip => (d.pp, d.mout)) (fun x d => ?_) c)
  unfold Chip.expireSymbols
  dsimp only
  split
  · rfl
  · rfl

/-- The chip once the slot `n` of PKT_GEN_SLOT holds no live generation (R177, R184). -/
def Chip.genEnded (c : Chip) (n : Nat) : Chip := ((c.wg R.PKT_GEN_REFS_COUNT n 0).wb R.PKT_GEN_SLOT_LIVE n false).liveCount.stageUse

theorem Chip.genEnded_rewritten (c : Chip) (n : Nat) : c.Rewritten (c.genEnded n) :=
  (c.wg_rewritten _ _ _).trans ((Chip.wg_rewritten ..).trans ((Chip.wg_rewritten ..).trans (Chip.stageUse_rewritten _)))

theorem Chip.stageUse_rg_other (c : Chip) {g : Fld} {j : Nat} (h : g.lsb < 32 ∧ g.lsb ≠ 4) : c.stageUse.rg g j = c.rg g j :=
  forN_keeps 12 _ (·.rg g j) (fun s d => Chip.rg_wg_other d _ _ _ _ _ (Fld.key_ne_of_lsb _ _ _ _ (by decide) h.1 (Ne.symm h.2))) c

theorem Chip.genEnded_reads (c : Chip) (n : Fin 4) :
    (c.genEnded n).rg R.PKT_GEN_SLOT_LIVE n = 0 ∧ (c.genEnded n).rg R.PKT_GEN_REFS_COUNT n = 0 := by
  have hcount {g : Fld} {j : Nat} (h : R.ALM_RULE_GEN_LIVE.key 0 ≠ g.key j) (d : Chip) : d.liveCount.rg g j = d.rg g j :=
    Chip.rg_wg_other _ _ _ _ _ _ h
  constructor
  · rw [Chip.genEnded, Chip.stageUse_rg_other _ (by decide), hcount (by revert n; decide), Chip.wb_eq, Chip.rg_wg_same]
    rfl
  · rw [Chip.genEnded, Chip.stageUse_rg_other _ (by decide), hcount (Fld.key_ne_of_apart (by decide)), Chip.wb_eq,
      Chip.rg_wg_other _ _ _ _ _ _ (Fld.key_ne_of_apart (by decide)), Chip.rg_wg_same]
    rfl

/-- 1 ms after its generation stopped being current, a slot ends, with no frame left that holds the generation after a first pass. -/
theorem genExpire_ends {c : Chip} {n a : Nat} (hat : c.pp.genAt.find n = some a) (hlive : c.rb R.PKT_GEN_SLOT_LIVE n = true)
    (hcur : c.rb R.PKT_GEN_SLOT_CUR n = false) (hdue : a + msPs ≤ c.now) :
    ∃ d : Chip, genExpire n c = d.genEnded n ∧ d.mout = c.mout ∧
      (∀ f ∈ d.pp.back, f.pass = 0 ∨ f.gen ≠ c.rg R.PKT_GEN_SLOT_GEN n) ∧ (∀ f ∈ d.pp.held, f.1.gen ≠ c.rg R.PKT_GEN_SLOT_GEN n) ∧
      (∀ f ∈ d.pp.miss, f.p.f.gen ≠ c.rg R.PKT_GEN_SLOT_GEN n) := by
  unfold genExpire
  simp only [hat, hlive, hcur, hdue, and_self, if_true]
  rw [← Chip.genEnded]
  refine ⟨_, rfl, ?_⟩
  rw [(Chip.expireSymbols_keeps ..).1, (Chip.expireSymbols_keeps ..).2]
  refine ⟨?_, ?_, ?_, ?_⟩
  · exact c.expireCount_mout _
  · intro f hf
    simpa [Decidable.imp_iff_not_or] using (List.mem_filter.mp hf).2
  · intro f hf
    simpa using (List.mem_filter.mp hf).2
  · intro f hf
    simpa using (List.mem_filter.mp hf).2

end Sys2Proof.Machine

namespace Sys2Proof.Safety

open Sys2Proof Sys2Proof.Machine

/-- FRAME_LAST_BYTE of a good frame that waits for its pass (R154, R474). -/
theorem frameLastByte_ends (t : Nat) (id : Nat) (rest : List Byte) (r : RxOpen) (f : Frame) (s : State) (hs : ready s)
    (hopen : s.chip.pt.rxOpen = [r]) (hid : r.id = id) (hframes : s.chip.qs.frames = []) (htx : s.chip.qs.tx = [])
    (hheld : s.chip.pp.held = []) (hmiss : s.chip.pp.miss = []) (hback : s.chip.pp.back = []) (hwait : s.chip.pp.waiting = [f])
    (hnum : f.id = id) (hknown : f.known = false) (hfit : r.n + rest.length + 4 ≤ s.chip.maxFrame) :
    ∃ u, exec (.frameLastByte t id rest true) s = .next u ∧ u.chip.pt.rxOpen = [] ∧ u.chip.pp.waiting = [f.ended rest] ∧
      u.chip.counter C.PRT_RX_FRAMES r.port = (s.chip.counter C.PRT_RX_FRAMES r.port + 1) % 2 ^ 48 ∧
      u.chip.counter C.PRT_RX_BYTES r.port = (s.chip.counter C.PRT_RX_BYTES r.port + (r.n + rest.length + 4)) % 2 ^ 48 ∧ regsKept s u [] := by
  subst hid
  have hrow : frameLastByte r.id rest true (chipAt s t) = (chipAt s t).rxLast r rest true := by simp [frameLastByte, hopen]
  have hlone : (((chipAt s t).rxIdle.inc C.PRT_RX_FRAMES r.port).incBy C.PRT_RX_BYTES r.port (r.n + rest.length + 4)).Lone f r.id :=
    ⟨hframes, hheld, hmiss, hback, hwait, hnum⟩
  obtain ⟨pp, hpp, hlast⟩ := hlone.lastByte htx hknown rest
  refine ⟨_, State.on_running s t (fun _ => frameLastByte r.id rest true) hs.1, ?_⟩
  rw [hrow, Chip.rxLast_good (c := chipAt s t) hopen hwait hfit, hlast]
  refine ⟨rfl, hpp, ?_, ?_, fun _ _ _ => rfl⟩
  · exact (Chip.counter_incBy_other _ (Ctr.key_ne_of_base _ (by decide)) _).trans (Chip.counter_incBy_same ..)
  · refine (Chip.counter_incBy_same ..).trans ?_
    rw [Chip.inc_eq, Chip.counter_incBy_other _ (Ctr.key_ne_of_base _ (by decide))]
    rfl

/-- FRAME_LAST_BYTE of a frame with a bad FCS (R154). -/
theorem frameLastByte_removes (t : Nat) (id : Nat) (rest : List Byte) (r : RxOpen) (f : Frame) (s : State) (hs : ready s)
    (hopen : s.chip.pt.rxOpen = [r]) (hid : r.id = id) (hframes : s.chip.qs.frames = []) (hheld : s.chip.pp.held = [])
    (hmiss : s.chip.pp.miss = []) (hback : s.chip.pp.back = []) (hwait : s.chip.pp.waiting = [f]) (hnum : f.id = id) :
    ∃ u, exec (.frameLastByte t id rest false) s = .next u ∧ u.chip.pt.rxOpen = [] ∧ u.chip.pp.waiting = [] ∧
      u.chip.counter C.PRT_RX_FCS_ERR r.port = (s.chip.counter C.PRT_RX_FCS_ERR r.port + 1) % 2 ^ 48 ∧ regsKept s u [] := by
  subst hid
  have hrow : frameLastByte r.id rest false (chipAt s t) = (chipAt s t).rxLast r rest false := by simp [frameLastByte, hopen]
  have hlone : ((chipAt s t).rxIdle.inc C.PRT_RX_FCS_ERR r.port).Lone f r.id := ⟨hframes, hheld, hmiss, hback, hwait, hnum⟩
  obtain ⟨pp, hpp, hgone⟩ := hlone.removeFrame
  refine ⟨_, State.on_running s t (fun _ => frameLastByte r.id rest false) hs.1, ?_⟩
  rw [hrow, Chip.rxLast_bad (c := chipAt s t) hopen, hgone]
  exact ⟨rfl, hpp, Chip.counter_incBy_same .., fun _ _ _ => rfl⟩

/-- FLOW_FETCH_DONE of a way with another key (R168). -/
theorem flowFetchDone_goesOn (t : Nat) (table : Fin 8) (bank : Fin 2) (key : Nat) (x : Miss) (a : Nat) (s : State) (hs : ready s)
    (hmiss : s.chip.pp.miss = [x]) (htable : x.table = table) (hbank : x.bank = bank) (hkey : x.key = key)
    (hbucket : s.chip.flowBucket table bank key = some a) (hother : flowKey (s.mem.ddrRead (a + 64 * x.ways) 64) ≠ key) (hways : x.ways < 3) :
    ∃ u, exec (.flowFetchDone t table bank key) s = .next u ∧ u.chip.pp.miss = [{ x with ways := x.ways + 1 }] ∧
      u.chip.counter C.PKT_FLOW_FETCH 0 = (s.chip.counter C.PKT_FLOW_FETCH 0 + 1) % 2 ^ 48 ∧ regsKept s u [] ∧ u.mem = s.mem := by
  refine ⟨_, State.on_running s t (fun m => flowFetchDone m table bank key) hs.1, ?_⟩
  rw [flowFetchDone_next (c := chipAt s t) hmiss htable hbank hkey hbucket hother hways]
  exact ⟨rfl, Chip.counter_incBy_same .., fun _ _ _ => rfl, congrArg s.mem.applyAll hs.2⟩

/-- GEN_EXPIRE (R178). -/
theorem genExpire_drops (t : Nat) (n : Fin 4) (a : Nat) (s : State) (hs : ready s) (hat : s.chip.pp.genAt.find n = some a)
    (hlive : s.chip.rb R.PKT_GEN_SLOT_LIVE n = true) (hcur : s.chip.rb R.PKT_GEN_SLOT_CUR n = false) (hdue : a + msPs ≤ max s.chip.now t) :
    ∃ u, exec (.genExpire t n) s = .next u ∧ u.chip.rg R.PKT_GEN_SLOT_LIVE n = 0 ∧ u.chip.rg R.PKT_GEN_REFS_COUNT n = 0 ∧
      (∀ f ∈ u.chip.pp.back, f.pass = 0 ∨ f.gen ≠ s.chip.rg R.PKT_GEN_SLOT_GEN n) ∧
      (∀ f ∈ u.chip.pp.held, f.1.gen ≠ s.chip.rg R.PKT_GEN_SLOT_GEN n) ∧
      (∀ f ∈ u.chip.pp.miss, f.p.f.gen ≠ s.chip.rg R.PKT_GEN_SLOT_GEN n) ∧ u.mem = s.mem := by
  obtain ⟨d, hrow, hmout, hback, hheld, hmiss⟩ := genExpire_ends (c := chipAt s t) hat hlive hcur hdue
  have hended := d.genEnded_rewritten n
  have hpp : (d.genEnded n).pp = d.pp := hended.read (·.pp) fun _ => rfl
  refine ⟨_, State.on_running s t (fun _ => genExpire n) hs.1, ?_⟩
  obtain ⟨hlast, hrefs⟩ := d.genEnded_reads n
  rw [hrow, State.after_chip, Chip.done_pp, Chip.rg_done, Chip.rg_done, hpp]
  refine ⟨hlast, hrefs, hback, hheld, hmiss, ?_⟩
  rw [State.after_mem, (hended.read (·.mout) fun _ => rfl).trans (hmout.trans hs.2)]
  rfl

/-- Settles O14: a frame is passed, completed or removed where it waits, a fetch goes on, and a generation that ended is let go of. -/
theorem pipelineCommands : Obligations.PipelineCommands :=
  ⟨pipelinePass_noDest, frameLastByte_ends, frameLastByte_removes, flowFetchDone_goesOn, genExpire_drops⟩

end Sys2Proof.Safety
end

section
/-! PROOFS. Commands on the flow tables and writes of the table window (05_packet_pipeline.md R168, R170, R172, R184). -/

namespace Sys2Proof.Machine

open Sys2Proof Sys2Proof.Safety

/-! ## A flow command begins (R170) -/

/-- A write of PKT_FLOW_CMD leaves what PKT_FLOW_DATA holds. -/
theorem Chip.flowData_wg (c : Chip) {f : Fld} (h : f.key 0 < R.PKT_FLOW_DATA_DATA.key 0) (v : Nat) : (c.wg f 0 v).flowData = c.flowData := by
  have hword (w : Nat) : (c.wg f 0 v).rg R.PKT_FLOW_DATA_DATA w = c.rg R.PKT_FLOW_DATA_DATA w := by
    refine Chip.rg_wg_other _ _ _ _ _ _ (Nat.ne_of_lt (h.trans_le ?_))
    simp only [Fld.key]
    omega
  simp only [Chip.flowData, hword]

/-- PKT_FLOW_CMD with OP, TABLE and BANK, and BUSY. -/
def Chip.flowCmdSet (c : Chip) (op table bank : Nat) : Chip :=
  (((c.wg R.PKT_FLOW_CMD_OP 0 op).wg R.PKT_FLOW_CMD_TABLE 0 table).wg R.PKT_FLOW_CMD_BANK 0 bank).wg R.PKT_FLOW_CMD_BUSY 0 1

/-- The chip with a flow command under way. -/
def Chip.flowBegun (c : Chip) (op table bank : Nat) : Chip :=
  { c.flowCmdSet op table bank with
    pp.flow := some { op := op, table := table, bank := bank, key := c.flowData.1, action := c.flowData.2 } }

theorem Chip.flowBegun_rg (c : Chip) (op table bank : Nat) (g : Fld) (j : Nat) :
    (c.flowBegun op table bank).rg g j = (c.flowCmdSet op table bank).rg g j := rfl

theorem flowGo_begins {c : Chip} (hidle : c.rg R.PKT_FLOW_CMD_BUSY 0 = 0) (op table bank : Nat) :
    flowGo op table bank c = (c.flowBegun op table bank, stOk) := by
  have hbusy : c.rb R.PKT_FLOW_CMD_BUSY 0 = false := by rw [Chip.rb, hidle]; rfl
  have hdata : (((c.wg R.PKT_FLOW_CMD_OP 0 op).wg R.PKT_FLOW_CMD_TABLE 0 table).wg R.PKT_FLOW_CMD_BANK 0 bank).flowData = c.flowData := by
    rw [Chip.flowData_wg _ (by decide), Chip.flowData_wg _ (by decide), Chip.flowData_wg _ (by decide)]
  simp only [flowGo, hbusy, hdata, Bool.false_eq_true, if_false]
  rfl

theorem Chip.flowBegun_reads (c : Chip) {op table bank : Nat} (hop : op < 8) (htable : table < 8) (hbank : bank < 2) :
    (c.flowBegun op table bank).rg R.PKT_FLOW_CMD_OP 0 = op ∧ (c.flowBegun op table bank).rg R.PKT_FLOW_CMD_TABLE 0 = table ∧
      (c.flowBegun op table bank).rg R.PKT_FLOW_CMD_BANK 0 = bank ∧ (c.flowBegun op table bank).rg R.PKT_FLOW_CMD_BUSY 0 = 1 := by
  simp only [Chip.flowBegun_rg, Chip.flowCmdSet]
  refine ⟨?_, ?_, ?_, Chip.rg_wg_same ..⟩
  · rw [Chip.rg_wg_other _ _ _ _ _ _ (by decide), Chip.rg_wg_other _ _ _ _ _ _ (by decide), Chip.rg_wg_other _ _ _ _ _ _ (by decide),
      Chip.rg_wg_same]
    exact Nat.mod_eq_of_lt hop
  · rw [Chip.rg_wg_other _ _ _ _ _ _ (by decide), Chip.rg_wg_other _ _ _ _ _ _ (by decide), Chip.rg_wg_same]
    exact Nat.mod_eq_of_lt htable
  · rw [Chip.rg_wg_other _ _ _ _ _ _ (by decide), Chip.rg_wg_same]
    exact Nat.mod_eq_of_lt hbank

theorem Chip.flowBegun_rg_other (c : Chip) (op table bank : Nat) {g : Fld} {j : Nat}
    (h : g.key j ∉ [R.PKT_FLOW_CMD_OP.key 0, R.PKT_FLOW_CMD_TABLE.key 0, R.PKT_FLOW_CMD_BANK.key 0, R.PKT_FLOW_CMD_BUSY.key 0]) :
    (c.flowBegun op table bank).rg g j = c.rg g j := by
  simp only [List.mem_cons, List.not_mem_nil, or_false, not_or] at h
  obtain ⟨hop, htable, hbank, hbusy⟩ := h
  rw [Chip.flowBegun_rg, Chip.flowCmdSet, Chip.rg_wg_other _ _ _ _ _ _ (Ne.symm hbusy), Chip.rg_wg_other _ _ _ _ _ _ (Ne.symm hbank),
    Chip.rg_wg_other _ _ _ _ _ _ (Ne.symm htable), Chip.rg_wg_other _ _ _ _ _ _ (Ne.symm hop)]

/-! ## A flow command ends (R170, R184) -/

theorem Chip.flowResult_reads (c : Chip) {r w : Nat} (hr : r < 8) (hw : w < 4) :
    (c.flowResult r w).rg R.PKT_FLOW_CMD_RESULT 0 = r ∧ (c.flowResult r w).rg R.PKT_FLOW_CMD_WAY 0 = w ∧
      (c.flowResult r w).rg R.PKT_FLOW_CMD_BUSY 0 = 0 := by
  refine ⟨?_, ?_, Chip.rg_wg_same ..⟩
  · rw [Chip.flowResult, Chip.rg_wg_other _ _ _ _ _ _ (by decide), Chip.rg_mk, Chip.rg_wg_other _ _ _ _ _ _ (by decide), Chip.rg_wg_same]
    exact Nat.mod_eq_of_lt hr
  · rw [Chip.flowResult, Chip.rg_wg_other _ _ _ _ _ _ (by decide), Chip.rg_mk, Chip.rg_wg_same]
    exact Nat.mod_eq_of_lt hw

theorem Chip.flowResult_rg_other (c : Chip) (r w : Nat) {g : Fld} {j : Nat}
    (h : g.key j ∉ [R.PKT_FLOW_CMD_RESULT.key 0, R.PKT_FLOW_CMD_WAY.key 0, R.PKT_FLOW_CMD_BUSY.key 0]) :
    (c.flowResult r w).rg g j = c.rg g j := by
  simp only [List.mem_cons, List.not_mem_nil, or_false, not_or] at h
  obtain ⟨hresult, hway, hbusy⟩ := h
  rw [Chip.flowResult, Chip.rg_wg_other _ _ _ _ _ _ (Ne.symm hbusy), Chip.rg_mk, Chip.rg_wg_other _ _ _ _ _ _ (Ne.symm hway),
    Chip.rg_wg_other _ _ _ _ _ _ (Ne.symm hresult)]

/-- A line that enters the cache changes no register and no memory. -/
theorem Chip.cachePut_keeps (c : Chip) (x : CacheLine) : (c.cachePut x).regs = c.regs ∧ (c.cachePut x).mout = c.mout := by
  unfold Chip.cachePut
  dsimp only
  split
  · exact ⟨rfl, rfl⟩
  · exact ⟨rfl, rfl⟩

theorem freeWay_lt {m : Mem} {a w : Nat} (h : freeWay m a = some w) : w < 4 := List.mem_range.mp (List.mem_of_find?_eq_some h)

theorem Chip.flowResult_keeps (c : Chip) (r w : Nat) :
    (c.flowResult r w).mout = c.mout ∧ (c.flowResult r w).cnt = c.cnt ∧ (c.flowResult r w).win = c.win ∧ (c.flowResult r w).pp.flow = none :=
  ⟨rfl, rfl, rfl, rfl⟩

theorem Chip.rg_of_regs_eq {c d : Chip} (h : d.regs = c.regs) (g : Fld) (j : Nat) : d.rg g j = c.rg g j := by rw [Chip.rg, h, Chip.rg]

section
variable {m : Mem} {c : Chip} {x : FlowCmd} {a : Nat} (hflow : c.pp.flow = some x) (hbucket : c.flowBucket x.table x.bank x.key = some a)
  (hfree : c.flowLocked x.table x.bank = false) (hnew : wayOf m a x.key = none)
include hflow hbucket hfree hnew

/-- The entry is written to DDR5 and enters the cache; no register changes before the result. -/
theorem flowCmdDone_inserts (hop : x.op = 1) {w : Nat} (hway : freeWay m a = some w) : ∃ d : Chip, flowCmdDone m c = d.flowResult 0 w ∧
    d.regs = c.regs ∧ d.mout = c.mout ++ [.ddr (a + 64 * w) (beBytes 40 x.key ++ beBytes 8 x.action ++ zeros 16)] := by
  obtain ⟨hregs, hmout⟩ := Chip.cachePut_keeps ((c.fetchAgain x).mem (.ddr (a + 64 * w) (beBytes 40 x.key ++ beBytes 8 x.action ++ zeros 16)))
    { table := x.table, bank := x.bank, key := x.key, action := if bit x.action 63 then some x.action else none }
  refine ⟨_, ?_, hregs, hmout⟩
  simp [flowCmdDone, hflow, hbucket, hfree, hnew, hop, hway]

theorem flowCmdDone_misses (hop : x.op = 3) : flowCmdDone m c = c.flowResult 3 0 := by
  simp [flowCmdDone, hflow, hbucket, hfree, hnew, hop]

end

/-! ## The table window (R172) -/

theorem Chip.winGet_emit (c : Chip) (k : OutKind) (x : Nat) (d : List Nat) (b : List Byte) (a : Nat) :
    (c.emit k x d b).winGet a = c.winGet a := rfl

end Sys2Proof.Machine

namespace Sys2Proof.Safety

open Sys2Proof Sys2Proof.Machine

/-- A write of PKT_FLOW_CMD with GO while no command runs (R170), whatever its OP. -/
theorem flowCmd_begins {s : State} {t op : Nat} {table : Fin 8} {bank : Fin 2} (hs : ready s) (hd : s.chip.domOn 6 = true)
    (hidle : s.chip.rg R.PKT_FLOW_CMD_BUSY 0 = 0) (hop : op < 8) :
    ∃ u, s.on t (fun _ c => c.answeredIn 6 (flowGo op table bank)) = .next u ∧ answered u stOk ∧ u.chip.rg R.PKT_FLOW_CMD_OP 0 = op ∧
      u.chip.rg R.PKT_FLOW_CMD_TABLE 0 = table ∧ u.chip.rg R.PKT_FLOW_CMD_BANK 0 = bank ∧ u.chip.rg R.PKT_FLOW_CMD_BUSY 0 = 1 ∧
      u.chip.pp.flow = some { op := op, table := table, bank := bank, key := s.chip.flowData.1, action := s.chip.flowData.2 } ∧
      kept s u [R.PKT_FLOW_CMD_OP.key 0, R.PKT_FLOW_CMD_TABLE.key 0, R.PKT_FLOW_CMD_BANK.key 0, R.PKT_FLOW_CMD_BUSY.key 0] := by
  obtain ⟨hop', htable, hbank, hbusy⟩ := (chipAt s t).flowBegun_reads hop table.isLt bank.isLt
  refine ⟨_, on_answeredIn hs hd (flowGo_begins (c := chipAt s t) hidle op table bank), rfl, (rg_answered ..).trans hop',
    (rg_answered ..).trans htable, (rg_answered ..).trans hbank, (rg_answered ..).trans hbusy, rfl, kept_after_but hs ?_ rfl rfl rfl⟩
  exact fun g j hg => (chipAt s t).flowBegun_rg_other op table bank hg

/-- FLOW_CMD_DONE of an INSERT of a new key with a way free (R170). -/
theorem flowCmdDone_insert (t : Nat) (x : FlowCmd) (a w : Nat) (s : State) (hs : ready s) (hflow : s.chip.pp.flow = some x) (hop : x.op = 1)
    (hbucket : s.chip.flowBucket x.table x.bank x.key = some a) (hfree : s.chip.flowLocked x.table x.bank = false)
    (hnew : wayOf s.mem a x.key = none) (hway : freeWay s.mem a = some w) :
    ∃ u, exec (.flowCmdDone t) s = .next u ∧ u.chip.rg R.PKT_FLOW_CMD_RESULT 0 = 0 ∧ u.chip.rg R.PKT_FLOW_CMD_WAY 0 = w ∧
      u.chip.rg R.PKT_FLOW_CMD_BUSY 0 = 0 ∧ u.chip.pp.flow = none ∧
      u.mem = s.mem.apply (.ddr (a + 64 * w) (beBytes 40 x.key ++ beBytes 8 x.action ++ zeros 16)) ∧
      regsKept s u [R.PKT_FLOW_CMD_RESULT.key 0, R.PKT_FLOW_CMD_WAY.key 0, R.PKT_FLOW_CMD_BUSY.key 0] := by
  obtain ⟨d, hrow, hregs, hmout⟩ := flowCmdDone_inserts (c := chipAt s t) hflow hbucket hfree hnew hop hway
  obtain ⟨hresult, hway', hbusy⟩ := d.flowResult_reads (r := 0) (by decide) (freeWay_lt hway)
  obtain ⟨hmem, -, -, hover⟩ := d.flowResult_keeps 0 w
  refine ⟨_, State.on_running s t (fun m => flowCmdDone m) hs.1, ?_⟩
  rw [hrow]
  refine ⟨hresult, hway', hbusy, hover, ?_, fun g j hg => ?_⟩
  · rw [State.after_mem, hmem, hmout, Chip.tick_mout, hs.2]
    rfl
  · exact (Chip.rg_done ..).trans ((d.flowResult_rg_other 0 w hg).trans (Chip.rg_of_regs_eq hregs g j))

/-- FLOW_CMD_DONE of a LOOKUP of a key that is not there (R170). -/
theorem flowCmdDone_lookup (t : Nat) (x : FlowCmd) (a : Nat) (s : State) (hs : ready s) (hflow : s.chip.pp.flow = some x) (hop : x.op = 3)
    (hbucket : s.chip.flowBucket x.table x.bank x.key = some a) (hfree : s.chip.flowLocked x.table x.bank = false)
    (hnew : wayOf s.mem a x.key = none) :
    ∃ u, exec (.flowCmdDone t) s = .next u ∧ u.chip.rg R.PKT_FLOW_CMD_RESULT 0 = 3 ∧ u.chip.rg R.PKT_FLOW_CMD_WAY 0 = 0 ∧
      u.chip.rg R.PKT_FLOW_CMD_BUSY 0 = 0 ∧ u.chip.pp.flow = none ∧
      kept s u [R.PKT_FLOW_CMD_RESULT.key 0, R.PKT_FLOW_CMD_WAY.key 0, R.PKT_FLOW_CMD_BUSY.key 0] := by
  have hrow : flowCmdDone s.mem (chipAt s t) = (chipAt s t).flowResult 3 0 := flowCmdDone_misses (c := chipAt s t) hflow hbucket hfree hnew hop
  obtain ⟨hresult, hway, hbusy⟩ := (chipAt s t).flowResult_reads (r := 3) (w := 0) (by decide) (by decide)
  refine ⟨_, State.on_running s t (fun m => flowCmdDone m) hs.1, ?_⟩
  rw [hrow]
  obtain ⟨hmem, hcnt, hwin, hover⟩ := (chipAt s t).flowResult_keeps 3 0
  exact ⟨hresult, hway, hbusy, hover, kept_after_but hs (fun g j hg => (chipAt s t).flowResult_rg_other 3 0 hg) hcnt hwin hmem⟩

/-- A write of the table window is a register write. -/
theorem exec_tableWindowWrite (t : Nat) (who : Fin 20) {a : Nat} (ha : 0x40000000 ≤ a ∧ a < 0x60000000) (v : Nat) (s : State) :
    exec (.tableWindowWrite t who a v) s = exec (.registerWrite t who a v) s := by
  have htable : exec (.tableWindowWrite t who a v) s =
    s.on t (fun m c => if 0x40000000 ≤ a ∧ a < 0x60000000 then hostWrite m who a v c else c) := rfl
  have hregister : exec (.registerWrite t who a v) s = s.on t (fun m => hostWrite m who a v) := rfl
  simp only [htable, hregister, ha, and_self, if_true]

/-- TABLE_WINDOW_WRITE of a word of the key part of an exact entry whose bank no stage uses (R172). -/
theorem tableWindowWrite_exact (t : Nat) (who : Fin 20) (a v : Nat) (s : State) (hs : ready s) (hwho : who.val < 4)
    (hmay : (chipAt s t).mayWrite who a = stOk) (hreach : (chipAt s t).reach a = stOk) (hlo : 0x48000000 ≤ a) (hhi : a < 0x58000000)
    (hkey : a % 32 < 20) (hfree : (chipAt s t).evtUpdate.tableLocked a = false) :
    ∃ u, exec (.tableWindowWrite t who a v) s = .next u ∧ answered u stOk ∧ u.chip.winGet a = v % 2 ^ 32 ∧ u.mem = s.mem := by
  have hwrite := Chip.writeWord_exact hlo hhi s.mem hmay hreach hkey hfree v
  have hrow := exec_tableWindowWrite t who (by omega : 0x40000000 ≤ a ∧ a < 0x60000000) v s
  have hleft := (((chipAt s t).evtUpdate_booked.winSet a (v % 2 ^ 32)).trans (Chip.evtUpdate_booked _))
  generalize ((chipAt s t).evtUpdate.winSet a (v % 2 ^ 32)).evtUpdate = d at hwrite hleft
  refine ⟨_, hrow.trans (registerWrite_answers hs hwho hwrite), rfl, ?_, ?_⟩
  · rw [State.after_chip, Chip.winGet_done, Chip.winGet_emit]
    refine (hleft.winGet a).trans ?_
    rw [Chip.winGet_winSet, Nat.mod_mod]
  · rw [State.after_mem, Chip.emit_mout, hleft.read (·.mout) fun _ _ _ _ _ => rfl]
    exact congrArg s.mem.applyAll hs.2

/-- Settles O15: a flow command begins and ends, and a word of a table is written, as R170, R172 and R184 say. -/
theorem flowAndTableCommands : Obligations.FlowAndTableCommands :=
  ⟨fun _ _ _ _ hs hd hidle => flowCmd_begins hs hd hidle (by decide), fun _ _ _ _ hs hd hidle => flowCmd_begins hs hd hidle (by decide),
    fun _ _ _ _ hs hd hidle => flowCmd_begins hs hd hidle (by decide), flowCmdDone_insert, flowCmdDone_lookup, tableWindowWrite_exact⟩

end Sys2Proof.Safety
end

section
/-! PROOFS. Pauses of the local ports and their watchdog (10_ports_and_lanes.md R308, R309, R310). -/

namespace Sys2Proof.Machine

open Sys2Proof Sys2Proof.Safety

/-! ## Words of one bit for each class -/

/-- A word whose bit `k` tells whether `q k`, for the first `n` bits. -/
def bitWord (q : Nat → Bool) (n : Nat) : Nat := forN n (fun t m => if q t then setBit m t else m) 0

theorem bitWord_spec (q : Nat → Bool) (n : Nat) : bitWord q n < 2 ^ n ∧ ∀ k < n, (bitWord q n).testBit k = q k := by
  refine forN_induct (p := fun i m => m < 2 ^ i ∧ ∀ k < i, m.testBit k = q k) ⟨Nat.one_pos, fun k hk => absurd hk k.not_lt_zero⟩ ?_ n
  rintro i m ⟨hlt, hbits⟩
  have hclear : m.testBit i = false := Nat.testBit_lt_two_pow hlt
  cases hq : q i with
  | false =>
    refine ⟨hlt.trans (Nat.pow_lt_pow_succ (by decide)), fun k hk => ?_⟩
    rcases Nat.lt_succ_iff_lt_or_eq.mp hk with hk | rfl
    · exact hbits k hk
    · exact hclear.trans hq.symm
  | true =>
    rw [if_pos rfl, setBit, if_neg (Bool.eq_false_iff.mp hclear)]
    refine ⟨by rw [Nat.pow_succ]; omega, fun k hk => ?_⟩
    rcases Nat.lt_succ_iff_lt_or_eq.mp hk with hk | rfl
    · rw [Nat.add_comm, Nat.testBit_two_pow_add_gt hk, hbits k hk]
    · rw [Nat.add_comm, Nat.testBit_two_pow_add_eq, hclear, hq]
      rfl

theorem bitWord_all {q : Nat → Bool} {n : Nat} (h : ∀ k < n, q k = true) : bitWord q n = 2 ^ n - 1 := by
  obtain ⟨hlt, hbits⟩ := bitWord_spec q n
  refine Nat.eq_of_testBit_eq fun k => ?_
  rw [Nat.testBit_two_pow_sub_one]
  by_cases hk : k < n
  · rw [hbits k hk, h k hk, decide_eq_true hk]
  · rw [decide_eq_false hk]
    exact Nat.testBit_lt_two_pow (hlt.trans_le (Nat.pow_le_pow_right (by decide) (Nat.not_lt.mp hk)))

/-! ## PAUSED and WD_REL (R309, R310) -/

/-- The classes of a port that a table of ends lists. -/
def pauseWord (p : Nat) (x : Tab Nat) : Nat := bitWord (fun k => (x.find (pauseKey p k)).isSome) 8

theorem bit_pauseWord (p : Nat) (x : Tab Nat) (k : Fin 8) : bit (pauseWord p x) k = (x.find (pauseKey p k)).isSome :=
  (bitWord_spec _ 8).2 k k.isLt

theorem pauseKey_ne {p k l : Nat} (h : k ≠ l) : pauseKey p k ≠ pauseKey p l := by
  simp only [pauseKey]
  omega

/-- The fields that follow the pauses of a port. -/
def pauseFields (p : Nat) : List Nat := [R.PRT_STAT_PAUSED.key p, R.PRT_STAT_WD_REL.key p]

theorem pauseFields_apart {p : Nat} {g : Fld} {j : Nat} (h : g.lsb < 32 ∧ g.lsb ≠ 8 ∧ g.lsb ≠ 16) : g.key j ∉ pauseFields p := by
  obtain ⟨hlt, hpaused, hrel⟩ := h
  simp only [pauseFields, List.mem_cons, List.not_mem_nil, or_false, not_or]
  exact ⟨Fld.key_ne_of_lsb _ _ _ _ hlt (by decide) hpaused, Fld.key_ne_of_lsb _ _ _ _ hlt (by decide) hrel⟩

theorem Chip.pauseBits_port (c : Chip) {p : Nat} (hp : p ≠ 128) :
    c.pauseBits p = (c.wg R.PRT_STAT_PAUSED p (pauseWord p c.pt.pauseEnd)).wg R.PRT_STAT_WD_REL p (pauseWord p c.pt.releaseEnd) := if_neg hp

theorem Chip.pauseBits_rewritten (c : Chip) (p : Nat) : c.Rewritten (c.pauseBits p) := by
  unfold Chip.pauseBits
  dsimp only
  split
  · exact c.wg_rewritten ..
  · exact (c.wg_rewritten ..).trans (Chip.wg_rewritten ..)

theorem Chip.pauseBits_paused (c : Chip) {p : Nat} (hp : p ≠ 128) : (c.pauseBits p).rg R.PRT_STAT_PAUSED p = pauseWord p c.pt.pauseEnd := by
  rw [Chip.pauseBits_port c hp, Chip.rg_wg_other _ _ _ _ _ _ (Fld.key_ne_of_apart (by decide)), Chip.rg_wg_same]
  exact Nat.mod_eq_of_lt (bitWord_spec _ 8).1

theorem Chip.pauseBits_wdRel (c : Chip) {p : Nat} (hp : p ≠ 128) : (c.pauseBits p).rg R.PRT_STAT_WD_REL p = pauseWord p c.pt.releaseEnd := by
  rw [Chip.pauseBits_port c hp, Chip.rg_wg_same]
  exact Nat.mod_eq_of_lt (bitWord_spec _ 8).1

theorem Chip.pauseBits_rg_port (c : Chip) {p : Nat} (hp : p ≠ 128) {g : Fld} {j : Nat} (h : g.key j ∉ pauseFields p) :
    (c.pauseBits p).rg g j = c.rg g j := by
  simp only [pauseFields, List.mem_cons, List.not_mem_nil, or_false, not_or] at h
  obtain ⟨hpaused, hrel⟩ := h
  rw [Chip.pauseBits_port c hp, Chip.rg_wg_other _ _ _ _ _ _ (Ne.symm hrel), Chip.rg_wg_other _ _ _ _ _ _ (Ne.symm hpaused)]

/-- Of a local port or of the host port. -/
theorem Chip.pauseBits_rg_other (c : Chip) {p : Nat} {g : Fld} {j : Nat}
    (h : g.key j ∉ [R.PRT_STAT_PAUSED.key p, R.PRT_STAT_WD_REL.key p, R.HST_STAT_PAUSED.key 0]) : (c.pauseBits p).rg g j = c.rg g j := by
  simp only [List.mem_cons, List.not_mem_nil, or_false, not_or] at h
  obtain ⟨hpaused, hrel, hhost⟩ := h
  by_cases hp : p = 128
  · rw [Chip.pauseBits, if_pos hp, Chip.wb_eq, Chip.rg_wg_other _ _ _ _ _ _ (Ne.symm hhost)]
  · exact c.pauseBits_rg_port hp (by simp [pauseFields, hpaused, hrel])

/-! ## A pause ends (R309) -/

/-- The chip once class `k` of a port waits for no end of a pause. -/
def Chip.unpaused (c : Chip) (p k : Nat) : Chip :=
  { c with pt.pauseEnd := c.pt.pauseEnd.erase (pauseKey p k), pt.pauseAt := c.pt.pauseAt.erase (pauseKey p k) }

theorem Chip.unpaused_rg (c : Chip) (p k : Nat) (g : Fld) (j : Nat) : (c.unpaused p k).rg g j = c.rg g j := rfl

theorem Chip.pauseClear_port (c : Chip) {p : Nat} (hp : p ≠ 128) (k : Nat) : c.pauseClear p k = (c.unpaused p k).pauseBits p := if_neg hp

/-- Where nothing waits on the host port, nothing leaves it. -/
theorem Chip.hostFlush_none {c : Chip} (h : c.hp.txWait = []) : ∃ hp, c.hostFlush = { c with hp := hp } := by
  unfold Chip.hostFlush
  split
  · dsimp only
    rw [h]
    exact ⟨_, rfl⟩
  · exact ⟨c.hp, rfl⟩

theorem Chip.pauseClear_quiet {c : Chip} (h : c.hp.txWait = []) (p k : Nat) :
    ∃ hp, c.pauseClear p k = { (c.unpaused p k).pauseBits p with hp := hp } := by
  have hwait : ((c.unpaused p k).pauseBits p).hp.txWait = [] := (((c.unpaused p k).pauseBits_rewritten p).read (·.hp.txWait) fun _ => rfl).trans h
  by_cases hp : p = 128
  · obtain ⟨hp', hflush⟩ := Chip.hostFlush_none hwait
    exact ⟨hp', (if_pos hp).trans hflush⟩
  · exact ⟨((c.unpaused p k).pauseBits p).hp, c.pauseClear_port hp k⟩

theorem pauseExpire_due {c : Chip} {p k e : Nat} (hend : c.pt.pauseEnd.find (pauseKey p k) = some e) (hdue : e ≤ c.now) :
    pauseExpire p k c = c.pauseClear p k := by
  simp only [pauseExpire, hend, hdue, if_true]

/-! ## The watchdog and its release period (R310) -/

/-- The chip once class `k` of a port is in no release period. -/
def Chip.unreleased (c : Chip) (p k : Nat) : Chip := { c with pt.releaseEnd := c.pt.releaseEnd.erase (pauseKey p k) }

theorem pauseReleaseEnd_due {c : Chip} {p k e : Nat} (hend : c.pt.releaseEnd.find (pauseKey p k) = some e) (hdue : e ≤ c.now) :
    pauseReleaseEnd p k c = (c.unreleased p k).pauseBits p := by
  simp only [pauseReleaseEnd, hend, hdue, if_true]
  rfl

/-- The chip with the pause of class `k` of a local port ended by its watchdog, before the release period is set. -/
def Chip.wdFired (c : Chip) (p k : Nat) : Chip := (((c.unpaused p k).pauseBits p).inc C.PRT_PAUSE_WD p).wg R.PRT_EVT_PAUSE_WD p 1

theorem Chip.wdFired_read {α : Type} (c : Chip) (p k : Nat) (f : Chip → α) (hf : ∀ d regs cnt, f { d with regs := regs, cnt := cnt } = f d) :
    f (c.wdFired p k) = f (c.unpaused p k) := by
  obtain ⟨regs, h⟩ := (c.unpaused p k).pauseBits_rewritten p
  rw [Chip.wdFired, h]
  exact hf (c.unpaused p k) _ _

/-- The chip with class `k` of a port in its release period until `e`. -/
def Chip.releasing (c : Chip) (p k e : Nat) : Chip := { c with pt.releaseEnd := c.pt.releaseEnd.set (pauseKey p k) e }

/-- The chip with the release period of class `k` of a local port begun. -/
def Chip.wdReleased (c : Chip) (p k : Nat) : Chip :=
  (c.wdFired p k).releasing p k (c.now + c.rg R.PRT_PAUSE_CFG_RELEASE p * 100 * msPs)

theorem Chip.wdFired_release (c : Chip) {p : Nat} (hp : p ≠ 128) (k : Nat) :
    (c.wdFired p k).pauseRel p = c.rg R.PRT_PAUSE_CFG_RELEASE p := by
  have hrel : R.PRT_PAUSE_CFG_RELEASE.key p ∉ pauseFields p := by
    simp only [pauseFields, List.mem_cons, List.not_mem_nil, or_false, not_or, Fld.key, R.PRT_PAUSE_CFG_RELEASE, R.PRT_STAT_PAUSED,
      R.PRT_STAT_WD_REL]
    omega
  rw [Chip.pauseRel, if_neg hp, Chip.wdFired, Chip.rg_wg_other _ _ _ _ _ _ (Fld.key_ne_of_apart (by decide)), Chip.inc_eq, Chip.rg_incBy,
    Chip.pauseBits_rg_port _ hp hrel, Chip.unpaused_rg]

theorem Chip.wdFired_counter (c : Chip) (p k : Nat) :
    (c.wdFired p k).counter C.PRT_PAUSE_WD p = (c.counter C.PRT_PAUSE_WD p + 1) % 2 ^ 48 := by
  rw [Chip.wdFired, Chip.counter_wg, Chip.inc_eq, Chip.counter_incBy_same,
    ((c.unpaused p k).pauseBits_rewritten p).read (·.counter C.PRT_PAUSE_WD p) fun _ => rfl]
  rfl

theorem Chip.wdFired_event (c : Chip) (p k : Nat) : (c.wdFired p k).rg R.PRT_EVT_PAUSE_WD p = 1 := Chip.rg_wg_same ..

theorem pauseWdExpire_due {c : Chip} {p k e a : Nat} (hp : p ≠ 128) (hend : c.pt.pauseEnd.find (pauseKey p k) = some e)
    (hat : c.pt.pauseAt.find (pauseKey p k) = some a) (hwd : a + c.rg R.PRT_PAUSE_CFG_WD p * msPs ≤ c.now) (hlate : c.now ≤ e) :
    pauseWdExpire p k c = (c.wdReleased p k).pauseBits p := by
  have hnow : (c.wdFired p k).now = c.now := c.wdFired_read p k (·.now) fun _ _ _ => rfl
  have hdue : a + c.pauseWd p * msPs ≤ c.now ∧ c.now ≤ e := ⟨by rw [Chip.pauseWd, if_neg hp]; exact hwd, hlate⟩
  unfold pauseWdExpire
  simp only [hend, hat, hdue, and_self, if_true, hp, if_false, Chip.pauseClear_port c hp]
  rw [Chip.wdReleased, ← Chip.wdFired_release c hp k, ← hnow]
  rfl

end Sys2Proof.Machine

namespace Sys2Proof.Safety

open Sys2Proof Sys2Proof.Machine

/-- PAUSE_EXPIRE at the end of the pause (R309). -/
theorem pauseExpire_ends (t : Nat) (p : Fin 129) (k : Fin 8) (e : Nat) (s : State) (hs : ready s) (hwait : s.chip.hp.txWait = [])
    (hend : s.chip.pt.pauseEnd.find (pauseKey p k) = some e) (hdue : e ≤ max s.chip.now t) :
    ∃ u, exec (.pauseExpire t p k) s = .next u ∧ u.chip.pt.pauseEnd.find (pauseKey p k) = none ∧
      u.chip.pt.pauseAt.find (pauseKey p k) = none ∧ (p.val < 128 → bit (u.chip.rg R.PRT_STAT_PAUSED p) k = false) ∧
      u.chip.cnt = s.chip.cnt ∧ u.mem = s.mem ∧
      regsKept s u [R.PRT_STAT_PAUSED.key p, R.PRT_STAT_WD_REL.key p, R.HST_STAT_PAUSED.key 0] := by
  obtain ⟨hp, hrow⟩ := Chip.pauseClear_quiet (c := chipAt s t) hwait p k
  rw [← pauseExpire_due (c := chipAt s t) hend hdue] at hrow
  have hbits := ((chipAt s t).unpaused p k).pauseBits_rewritten p
  have hnone : ((chipAt s t).unpaused p k).pt.pauseEnd.find (pauseKey p k) = none := Tab.find_erase_same _ _
  refine ⟨_, State.on_running s t (fun _ => pauseExpire p k) hs.1, ?_, ?_, fun hport => ?_, ?_, ?_, fun g j hg => ?_⟩ <;>
    rw [hrow]
  · exact (hbits.read (·.pt.pauseEnd.find (pauseKey p k)) fun _ => rfl).trans hnone
  · exact (hbits.read (·.pt.pauseAt.find (pauseKey p k)) fun _ => rfl).trans (Tab.find_erase_same _ _)
  · rw [State.after_chip, Chip.rg_done, Chip.rg_mk, Chip.pauseBits_paused _ (Nat.ne_of_lt hport), bit_pauseWord, hnone]
    rfl
  · exact hbits.read (·.cnt) fun _ => rfl
  · exact congrArg s.mem.applyAll ((hbits.read (·.mout) fun _ => rfl).trans hs.2)
  · rw [State.after_chip, Chip.rg_done, Chip.rg_mk, Chip.pauseBits_rg_other _ hg]
    rfl

/-- PAUSE_RELEASE_END at the end of the release period (R310). -/
theorem pauseReleaseEnd_ends (t : Nat) (p : Fin 129) (k : Fin 8) (e : Nat) (s : State) (hs : ready s)
    (hend : s.chip.pt.releaseEnd.find (pauseKey p k) = some e) (hdue : e ≤ max s.chip.now t) :
    ∃ u, exec (.pauseReleaseEnd t p k) s = .next u ∧ u.chip.pt.releaseEnd.find (pauseKey p k) = none ∧
      (p.val < 128 → bit (u.chip.rg R.PRT_STAT_WD_REL p) k = false) ∧ u.chip.cnt = s.chip.cnt ∧ u.mem = s.mem ∧
      regsKept s u [R.PRT_STAT_PAUSED.key p, R.PRT_STAT_WD_REL.key p, R.HST_STAT_PAUSED.key 0] := by
  have hrow := pauseReleaseEnd_due (c := chipAt s t) hend hdue
  have hbits := ((chipAt s t).unreleased p k).pauseBits_rewritten p
  have hnone : ((chipAt s t).unreleased p k).pt.releaseEnd.find (pauseKey p k) = none := Tab.find_erase_same _ _
  refine ⟨_, State.on_running s t (fun _ => pauseReleaseEnd p k) hs.1, ?_, fun hport => ?_, ?_, ?_, fun g j hg => ?_⟩ <;> rw [hrow]
  · exact (hbits.read (·.pt.releaseEnd.find (pauseKey p k)) fun _ => rfl).trans hnone
  · rw [State.after_chip, Chip.rg_done, Chip.pauseBits_wdRel _ (Nat.ne_of_lt hport), bit_pauseWord, hnone]
    rfl
  · exact hbits.read (·.cnt) fun _ => rfl
  · exact congrArg s.mem.applyAll ((hbits.read (·.mout) fun _ => rfl).trans hs.2)
  · rw [State.after_chip, Chip.rg_done, Chip.pauseBits_rg_other _ hg]
    rfl

/-- PAUSE_WD_EXPIRE on a local port at the end of WD (R310). -/
theorem pauseWdExpire_releases (t : Nat) (p : Fin 129) (k : Fin 8) (e a : Nat) (s : State) (hs : ready s) (hport : p.val < 128)
    (hend : s.chip.pt.pauseEnd.find (pauseKey p k) = some e) (hat : s.chip.pt.pauseAt.find (pauseKey p k) = some a)
    (hwd : a + s.chip.rg R.PRT_PAUSE_CFG_WD p * msPs ≤ max s.chip.now t) (hlate : max s.chip.now t ≤ e) :
    ∃ u, exec (.pauseWdExpire t p k) s = .next u ∧ u.chip.pt.pauseEnd.find (pauseKey p k) = none ∧
      u.chip.pt.releaseEnd.find (pauseKey p k) = some (max s.chip.now t + s.chip.rg R.PRT_PAUSE_CFG_RELEASE p * 100 * msPs) ∧
      bit (u.chip.rg R.PRT_STAT_PAUSED p) k = false ∧ bit (u.chip.rg R.PRT_STAT_WD_REL p) k = true ∧
      u.chip.rg R.PRT_EVT_PAUSE_WD p = 1 ∧
      u.chip.counter C.PRT_PAUSE_WD p = (s.chip.counter C.PRT_PAUSE_WD p + 1) % 2 ^ 48 ∧ u.mem = s.mem := by
  have hp : p.val ≠ 128 := Nat.ne_of_lt hport
  have hrow := pauseWdExpire_due (c := chipAt s t) hp hend hat hwd hlate
  have hbits := ((chipAt s t).wdReleased p k).pauseBits_rewritten p
  have hnone : ((chipAt s t).wdReleased p k).pt.pauseEnd.find (pauseKey p k) = none :=
    ((chipAt s t).wdFired_read p k (·.pt.pauseEnd.find (pauseKey p k)) fun _ _ _ => rfl).trans (Tab.find_erase_same _ _)
  have hbegun : ((chipAt s t).wdReleased p k).pt.releaseEnd.find (pauseKey p k) =
    some (max s.chip.now t + s.chip.rg R.PRT_PAUSE_CFG_RELEASE p * 100 * msPs) := Tab.find_set_same ..
  refine ⟨_, State.on_running s t (fun _ => pauseWdExpire p k) hs.1, ?_, ?_, ?_, ?_, ?_, ?_, ?_⟩ <;> rw [hrow]
  · exact (hbits.read (·.pt.pauseEnd.find (pauseKey p k)) fun _ => rfl).trans hnone
  · exact (hbits.read (·.pt.releaseEnd.find (pauseKey p k)) fun _ => rfl).trans hbegun
  · rw [State.after_chip, Chip.rg_done, Chip.pauseBits_paused _ hp, bit_pauseWord, hnone]
    rfl
  · rw [State.after_chip, Chip.rg_done, Chip.pauseBits_wdRel _ hp, bit_pauseWord]
    exact congrArg Option.isSome hbegun
  · rw [State.after_chip, Chip.rg_done, Chip.pauseBits_rg_port _ hp (pauseFields_apart (by decide))]
    exact (chipAt s t).wdFired_event p k
  · rw [State.after_chip, Chip.counter_done, hbits.read (·.counter C.PRT_PAUSE_WD p) fun _ => rfl]
    exact (chipAt s t).wdFired_counter p k
  · have hmout := (hbits.read (·.mout) fun _ => rfl).trans ((chipAt s t).wdFired_read p k (·.mout) fun _ _ _ => rfl)
    exact congrArg s.mem.applyAll (hmout.trans hs.2)

end Sys2Proof.Safety
end

section
/-! PROOFS. Frames received on a local port (10_ports_and_lanes.md R305, R308, R309; 05_packet_pipeline.md R154, R180), and the statement of the
received frames, pauses and their watchdog. -/

namespace Sys2Proof.Machine

open Sys2Proof Sys2Proof.Safety

/-! ## What the receiver of a port counts (R305) -/

/-- A near-end loop returns nothing to a port that is UP (R317). -/
theorem Chip.loopHead_up {c : Chip} {p : Nat} (h : c.rg R.PRT_STAT_LINK p = 2) : c.loopHead p = none := by
  have hloop : c.nearLoop p = false := by simp [Chip.nearLoop, h]
  rw [Chip.loopHead, hloop]
  rfl

/-- The chip with the receiver of a port no longer idle. -/
def Chip.rxWoken (c : Chip) (p : Nat) : Chip := c.wg R.PRT_STAT_RX_IDLE p 0

theorem Chip.rxWoken_rg_other (c : Chip) {p : Nat} {g : Fld} {j : Nat} (h : R.PRT_STAT_RX_IDLE.key p ≠ g.key j) :
    (c.rxWoken p).rg g j = c.rg g j := Chip.rg_wg_other _ _ _ _ _ _ h

/-- The chip with a frame of `n` bytes counted by the receiver of a port. -/
def Chip.rxCounted (c : Chip) (p n : Nat) : Chip := ((c.rxWoken p).inc C.PRT_RX_FRAMES p).incBy C.PRT_RX_BYTES p n

theorem Chip.rxCounted_rg (c : Chip) (p n : Nat) (g : Fld) (j : Nat) : (c.rxCounted p n).rg g j = (c.rxWoken p).rg g j := rfl

theorem Chip.rxCounted_frames (c : Chip) (p n : Nat) :
    (c.rxCounted p n).counter C.PRT_RX_FRAMES p = (c.counter C.PRT_RX_FRAMES p + 1) % 2 ^ 48 := by
  rw [Chip.rxCounted, Chip.counter_incBy_other _ (Ctr.key_ne_of_base _ (by decide)), Chip.inc_eq, Chip.counter_incBy_same]
  rfl

theorem Chip.rxCounted_bytes (c : Chip) (p n : Nat) :
    (c.rxCounted p n).counter C.PRT_RX_BYTES p = (c.counter C.PRT_RX_BYTES p + n) % 2 ^ 48 := by
  rw [Chip.rxCounted, Chip.counter_incBy_same, Chip.inc_eq, Chip.counter_incBy_other _ (Ctr.key_ne_of_base _ (by decide))]
  rfl

theorem Chip.rxCounted_counter_other (c : Chip) (p n : Nat) {k : Ctr} (hframes : k.key p ≠ C.PRT_RX_FRAMES.key p)
    (hbytes : k.key p ≠ C.PRT_RX_BYTES.key p) : (c.rxCounted p n).counter k p = c.counter k p := by
  rw [Chip.rxCounted, Chip.counter_incBy_other _ hbytes, Chip.inc_eq, Chip.counter_incBy_other _ hframes]
  rfl

/-! ## Pauses taken (R308, R309) -/

/-- The lane of a port is timed by its rate and by the lane reference. -/
theorem Chip.lanePs_eq {c d : Chip} {p : Nat} (hrate : d.rg R.PRT_CFG_RATE p = c.rg R.PRT_CFG_RATE p) (htm : d.tm = c.tm)
    (hsync : d.rg R.TMG_OUT_CFG_SYNCE_EN 0 = c.rg R.TMG_OUT_CFG_SYNCE_EN 0) (hstate : d.rg R.TMG_STAT_STATE 0 = c.rg R.TMG_STAT_STATE 0)
    (n : Nat) : d.lanePs p n = c.lanePs p n := by
  have hofs : d.laneOfs = c.laneOfs := by rw [Chip.laneOfs, Chip.laneOfs, Chip.rb, Chip.rb, htm, hsync, hstate]
  rw [Chip.lanePs, Chip.lanePs, Chip.portRate, Chip.portRate, hrate, hofs]

/-- The first `n` classes of a port are paused until `e`, and nothing else than pauses differs. -/
structure Chip.Paused (c : Chip) (p e n : Nat) (d : Chip) : Prop where
  only : ∃ regs pt, d = { c with regs := regs, pt := pt }
  regs : ∀ (g : Fld) (j : Nat), g.key j ∉ pauseFields p → d.rg g j = c.rg g j
  ends : ∀ k < n, d.pt.pauseEnd.find (pauseKey p k) = some e
  word : 0 < n → d.rg R.PRT_STAT_PAUSED p = pauseWord p d.pt.pauseEnd

theorem Chip.Paused.refl (c : Chip) (p e : Nat) : c.Paused p e 0 c :=
  ⟨⟨c.regs, c.pt, rfl⟩, fun _ _ _ => rfl, fun k hk => absurd hk k.not_lt_zero, fun h => absurd h (Nat.lt_irrefl 0)⟩

/-- A reading that looks at no register and at no port state. -/
theorem Chip.Paused.read {α : Type} {c d : Chip} {p e n : Nat} (h : c.Paused p e n d) (f : Chip → α)
    (hf : ∀ regs pt, f { c with regs := regs, pt := pt } = f c) : f d = f c := by
  obtain ⟨⟨regs, pt, rfl⟩, -, -, -⟩ := h
  exact hf regs pt

theorem Chip.Paused.lanePs {c d : Chip} {p e n : Nat} (h : c.Paused p e n d) (m : Nat) : d.lanePs p m = c.lanePs p m :=
  Chip.lanePs_eq (h.regs _ _ (pauseFields_apart (by decide))) (h.read (·.tm) fun _ _ => rfl) (h.regs _ _ (pauseFields_apart (by decide)))
    (h.regs _ _ (pauseFields_apart (by decide))) m

/-- The chip with class `k` of a port paused until `e`. -/
def Chip.pausedTo (c : Chip) (p k e : Nat) (pauseAt : Tab Nat) : Chip :=
  { c with pt.pauseEnd := c.pt.pauseEnd.set (pauseKey p k) e, pt.pauseAt := pauseAt }

/-- A class of a local port that is given a time: its end is set, and PAUSED follows. -/
theorem Chip.pauseTake_port (c : Chip) {p q : Nat} (hp : p ≠ 128) (hq : 0 < q) (k : Nat) : ∃ pauseAt,
    c.pauseTake p k q = (c.pausedTo p k (c.now + c.lanePs p (512 * q)) pauseAt).pauseBits p := by
  unfold Chip.pauseTake
  simp only [Nat.ne_of_gt hq, hp, if_false]
  exact ⟨_, rfl⟩

theorem Chip.Paused.take {c d : Chip} {p e n q : Nat} (h : c.Paused p e n d) (hp : p ≠ 128) (hq : 0 < q)
    (he : e = c.now + c.lanePs p (512 * q)) : c.Paused p e (n + 1) (d.pauseTake p n q) := by
  obtain ⟨pauseAt, htake⟩ := d.pauseTake_port hp hq n
  rw [h.lanePs, h.read (·.now) fun _ _ => rfl, ← he] at htake
  have hbits := (d.pausedTo p n e pauseAt).pauseBits_rewritten p
  have hends : (d.pauseTake p n q).pt.pauseEnd = d.pt.pauseEnd.set (pauseKey p n) e := by
    rw [htake]
    exact hbits.read (·.pt.pauseEnd) fun _ => rfl
  refine ⟨?_, fun g j hg => ?_, fun k hk => ?_, fun _ => ?_⟩
  · obtain ⟨regs, pt, hd⟩ := h.only
    obtain ⟨regs', hb⟩ := hbits
    rw [htake, hb, hd]
    exact ⟨_, _, rfl⟩
  · rw [htake, Chip.pauseBits_rg_port _ hp hg]
    exact h.regs g j hg
  · rw [hends]
    rcases Nat.lt_succ_iff_lt_or_eq.mp hk with hk | rfl
    · rw [Tab.find_set_other _ _ _ _ (pauseKey_ne (Nat.ne_of_gt hk)), h.ends k hk]
    · exact Tab.find_set_same ..
  · rw [hends, htake, Chip.pauseBits_paused _ hp]
    rfl

/-- All eight classes of a local port. -/
theorem Chip.pauseTake_all (c : Chip) {p q : Nat} (hp : p ≠ 128) (hq : 0 < q) :
    c.Paused p (c.now + c.lanePs p (512 * q)) 8 (forN 8 (fun k d => d.pauseTake p k q) c) :=
  forN_induct (p := fun n d => c.Paused p (c.now + c.lanePs p (512 * q)) n d) (.refl c p _) (fun _ _ h => h.take hp hq rfl) 8

theorem Chip.Paused.full {c d : Chip} {p e : Nat} (h : c.Paused p e 8 d) : d.rg R.PRT_STAT_PAUSED p = 0xFF := by
  rw [h.word (by decide)]
  exact bitWord_all fun k hk => congrArg Option.isSome (h.ends k hk)

/-! ## PAUSE_FRAME_RX (R308) -/

/-- A PAUSE frame names every class. -/
theorem Chip.pauseNames_pause {c : Chip} {p : Nat} {l : List Byte} (hp : p ≠ 128) (hmode : c.rg R.PRT_CFG_RX_PAUSE p = 1)
    (hda : beAt l 0 6 = 0x0180C2000001) (hop : beAt l 14 2 = 1) :
    c.pauseNames p l = some ((List.range 8).map (fun k => (k, beAt l 16 2))) := by
  simp [Chip.pauseNames, hp, hmode, hda, hop]

/-- The chip with a PAUSE frame counted by the receiver of a port. -/
def Chip.pauseCounted (c : Chip) (p n : Nat) : Chip := (c.rxCounted p n).inc C.PRT_RX_PAUSE p

theorem pauseFrameRx_pause {c : Chip} {p : Nat} {l : List Byte} (hp : p ≠ 128) (hup : c.rg R.PRT_STAT_LINK p = 2)
    (hmode : c.rg R.PRT_CFG_RX_PAUSE p = 1) (hda : beAt l 0 6 = 0x0180C2000001) (htype : beAt l 12 2 = 0x8808) (hop : beAt l 14 2 = 1)
    (hrel : c.pt.releaseEnd = []) :
    pauseFrameRx p l true c = forN 8 (fun k d => d.pauseTake p k (beAt l 16 2)) (c.pauseCounted p (l.length + 4)) := by
  have hmode' : (c.rxCounted p (l.length + 4)).rg R.PRT_CFG_RX_PAUSE p = 1 := by
    rw [Chip.rxCounted_rg, Chip.rxWoken_rg_other _ (Fld.key_ne_of_apart (by decide)), hmode]
  have hfree (k : Nat) : (c.rxCounted p (l.length + 4)).inRelease p k = false := by
    have hends : (c.rxCounted p (l.length + 4)).pt.releaseEnd = [] := hrel
    simp [Chip.inRelease, hends, Tab.find]
  have hact : ((List.range 8).map (fun k => (k, beAt l 16 2))).filter (fun x => !(c.rxCounted p (l.length + 4)).inRelease p x.1) =
    (List.range 8).map (fun k => (k, beAt l 16 2)) := by simp [hfree]
  have hsome : ((List.range 8).map (fun k => (k, beAt l 16 2))).isEmpty = false := rfl
  unfold pauseFrameRx
  rw [Chip.loopHead_up hup]
  dsimp only
  rw [if_neg hp, if_pos hup, ← Chip.rxWoken]
  unfold Chip.pauseRx
  simp only [hp, decide_false, Bool.true_eq_false, Bool.false_eq_true, false_and, if_false, htype, ne_eq, not_true_eq_false]
  rw [← Chip.rxCounted, Chip.pauseNames_pause hp hmode' hda hop]
  simp only [hact, hsome, Nat.lt_irrefl, false_and, if_false, Bool.false_and, Bool.false_eq_true]
  rw [List.foldl_map]
  rfl

/-! ## LOCAL_FRAME_RX (R154, R180, R305) -/

/-- A port that is UP receives from its fibre. -/
theorem localFrameRx_up {c : Chip} {p : Nat} {l : List Byte} (hup : c.rg R.PRT_STAT_LINK p = 2) (whole sfd fcsOk : Bool) :
    localFrameRx p l whole sfd fcsOk c = (c.rxWoken p).localRx p l whole sfd fcsOk := by
  unfold localFrameRx
  rw [Chip.loopHead_up hup]
  exact if_pos hup

theorem Chip.localRx_badFcs {c : Chip} {p : Nat} {l : List Byte} (htype : beAt l 12 2 ≠ 0x8808) :
    c.localRx p l true true false = c.inc C.PRT_RX_FCS_ERR p := by
  simp [Chip.localRx, htype]

/-- A whole frame with a good FCS on a port without MACsec is counted, and goes on to the pipelines. -/
theorem Chip.localRx_good {c : Chip} {p : Nat} {l : List Byte} (htype : beAt l 12 2 ≠ 0x8808) (hsec : c.rg R.PRT_SEC_CFG_SEC_EN p = 0)
    (hfifo : c.fifoOver 0 p none l.length = false) : c.localRx p l true true true =
      ((c.inc C.PRT_RX_FRAMES p).incBy C.PRT_RX_BYTES p (l.length + 4)).localFrame p l true (l.length + 4) := by
  have hplain (d : Chip) (hd : d.rg R.PRT_SEC_CFG_SEC_EN p = 0) : d.secReceive p l = (d, some l) := by
    simp [Chip.secReceive, Chip.rb, hd]
  have hopen := hplain ((c.inc C.PRT_RX_FRAMES p).incBy C.PRT_RX_BYTES p (l.length + 4)) hsec
  simp [Chip.localRx, htype, hfifo, hopen, -Chip.inc_eq]

/-- A frame that its port delivers to the pipelines whole and stamped. -/
structure Frame.Received (f : Frame) (p blk : Nat) (l : List Byte) : Prop where
  bytes : f.bytes = l
  len : f.len = l.length + 4
  known : f.known = true
  origin : f.origin = 0
  src : f.src = p
  blk : f.blk = blk
  entry : f.entry = true
  stamped : f.tsOk = true

theorem Chip.localFrame_arrives {c : Chip} {p : Nat} {l : List Byte} (hrunt : 60 ≤ l.length) (hover : l.length + 4 ≤ c.maxFrame)
    (hroom : c.stampRoom 0 p = true) (hcell : c.cellRole (c.portBlk p) (c.slotCell (c.portBlk p) (c.portSlot p)) ≠ 3) (wire : Nat) :
    ∃ f : Frame, f.Received p (c.portBlk p) l ∧ c.localFrame p l true wire = c.arrive f := by
  have hrunt' : ¬ l.length < 60 := Nat.not_lt.mpr hrunt
  have hover' : ¬ c.maxFrame < l.length + 4 := Nat.not_lt.mpr hover
  unfold Chip.localFrame
  simp only [hcell, hrunt', hover', hroom, and_false, if_false, if_true]
  exact ⟨_, ⟨rfl, rfl, rfl, rfl, rfl, rfl, rfl, rfl⟩, rfl⟩

end Sys2Proof.Machine

namespace Sys2Proof.Safety

open Sys2Proof Sys2Proof.Machine

/-- PAUSE_FRAME_RX of a PAUSE frame on a local port (R308, R309). -/
theorem pauseFrameRx_pauses (t : Nat) (p : Fin 129) (l : List Byte) (s : State) (hs : ready s) (hport : p.val < 128)
    (hup : s.chip.rg R.PRT_STAT_LINK p = 2) (hmode : s.chip.rg R.PRT_CFG_RX_PAUSE p = 1) (hda : beAt l 0 6 = 0x0180C2000001)
    (htype : beAt l 12 2 = 0x8808) (hop : beAt l 14 2 = 1) (hquanta : 0 < beAt l 16 2) (hrel : s.chip.pt.releaseEnd = []) :
    ∃ u, exec (.pauseFrameRx t p l true) s = .next u ∧
      (∀ k : Fin 8, u.chip.pt.pauseEnd.find (pauseKey p k) = some (max s.chip.now t + (chipAt s t).lanePs p (512 * beAt l 16 2))) ∧
      u.chip.rg R.PRT_STAT_PAUSED p = 0xFF ∧
      u.chip.counter C.PRT_RX_PAUSE p = (s.chip.counter C.PRT_RX_PAUSE p + 1) % 2 ^ 48 ∧
      u.chip.counter C.PRT_RX_FRAMES p = (s.chip.counter C.PRT_RX_FRAMES p + 1) % 2 ^ 48 ∧
      regsKept s u [R.PRT_STAT_PAUSED.key p, R.PRT_STAT_WD_REL.key p, R.PRT_STAT_RX_IDLE.key p] ∧ u.mem = s.mem := by
  have hp : p.val ≠ 128 := Nat.ne_of_lt hport
  have hrow := pauseFrameRx_pause (c := chipAt s t) hp hup hmode hda htype hop hrel
  have htaken := ((chipAt s t).pauseCounted p (l.length + 4)).pauseTake_all hp hquanta
  have hrg {g : Fld} {j : Nat} (h : R.PRT_STAT_RX_IDLE.key p ≠ g.key j) :
    ((chipAt s t).pauseCounted p (l.length + 4)).rg g j = (chipAt s t).rg g j := (chipAt s t).rxWoken_rg_other h
  have hlane : ((chipAt s t).pauseCounted p (l.length + 4)).lanePs p (512 * beAt l 16 2) = (chipAt s t).lanePs p (512 * beAt l 16 2) :=
    Chip.lanePs_eq (hrg (Fld.key_ne_of_apart (by decide))) rfl (hrg (Fld.key_ne_of_apart (by decide))) (hrg (Fld.key_ne_of_apart (by decide))) _
  rw [← hrow, hlane] at htaken
  refine ⟨_, State.on_running s t (fun _ => pauseFrameRx p l true) hs.1, fun k => htaken.ends k k.isLt, htaken.full, ?_, ?_, fun g j hg => ?_, ?_⟩
  · rw [State.after_chip, Chip.counter_done, htaken.read (·.counter C.PRT_RX_PAUSE p) fun _ _ => rfl, Chip.pauseCounted, Chip.inc_eq,
      Chip.counter_incBy_same, Chip.rxCounted_counter_other _ _ _ (Ctr.key_ne_of_base _ (by decide)) (Ctr.key_ne_of_base _ (by decide))]
    rfl
  · rw [State.after_chip, Chip.counter_done, htaken.read (·.counter C.PRT_RX_FRAMES p) fun _ _ => rfl, Chip.pauseCounted, Chip.inc_eq,
      Chip.counter_incBy_other _ (Ctr.key_ne_of_base _ (by decide)), Chip.rxCounted_frames]
    rfl
  · simp only [List.mem_cons, List.not_mem_nil, or_false, not_or] at hg
    obtain ⟨hpaused, hwd, hidle⟩ := hg
    rw [State.after_chip, Chip.rg_done, htaken.regs g j (by simp [pauseFields, hpaused, hwd]), hrg (Ne.symm hidle)]
    rfl
  · exact congrArg s.mem.applyAll ((htaken.read (·.mout) fun _ _ => rfl).trans hs.2)

/-- LOCAL_FRAME_RX of a whole good frame (R154, R305). -/
theorem localFrameRx_good (t : Nat) (p : Fin 128) (l : List Byte) (s : State) (hs : ready s) (hup : s.chip.rg R.PRT_STAT_LINK p = 2)
    (htype : beAt l 12 2 ≠ 0x8808) (hsec : s.chip.rg R.PRT_SEC_CFG_SEC_EN p = 0) (hrunt : 60 ≤ l.length)
    (hover : l.length + 4 ≤ s.chip.maxFrame) (hfifo : s.chip.fifoOver 0 p none l.length = false) (hroom : s.chip.stampRoom 0 p = true)
    (hcell : s.chip.cellRole (s.chip.portBlk p) (s.chip.slotCell (s.chip.portBlk p) (s.chip.portSlot p)) ≠ 3) :
    ∃ u, exec (.localFrameRx t p l true true true) s = .next u ∧
      u.chip.counter C.PRT_RX_FRAMES p = (s.chip.counter C.PRT_RX_FRAMES p + 1) % 2 ^ 48 ∧
      u.chip.counter C.PRT_RX_BYTES p = (s.chip.counter C.PRT_RX_BYTES p + (l.length + 4)) % 2 ^ 48 ∧
      u.chip.pp.waiting.map (fun f => (f.id, f.bytes, f.len)) =
        s.chip.pp.waiting.map (fun f => (f.id, f.bytes, f.len)) ++ [(s.chip.pp.nextId, l, l.length + 4)] ∧
      (∀ f ∈ u.chip.pp.waiting.getLast?, f.known = true ∧ f.origin = 0 ∧ f.src = p ∧ f.blk = s.chip.portBlk p ∧ f.entry = true ∧
        f.tsOk = true) ∧
      u.chip.rg R.PRT_STAT_RX_IDLE p = 0 ∧ regsKept s u [R.PRT_STAT_RX_IDLE.key p] ∧ u.mem = s.mem := by
  have hidle {g : Fld} {j : Nat} (h : R.PRT_STAT_RX_IDLE.key p ≠ g.key j) :
    ((chipAt s t).rxWoken p).rg g j = s.chip.rg g j := (chipAt s t).rxWoken_rg_other h
  have hcell' : ((chipAt s t).rxCounted p (l.length + 4)).cellRole (s.chip.portBlk p)
    (s.chip.slotCell (s.chip.portBlk p) (s.chip.portSlot p)) ≠ 3 := by
    rw [Chip.cellRole, Chip.rxCounted_rg, hidle (Fld.key_ne_of_apart (by decide))]
    exact hcell
  have hrow := localFrameRx_up (c := chipAt s t) (l := l) hup true true true
  obtain ⟨f, hf, harrive⟩ := Chip.localFrame_arrives (c := (chipAt s t).rxCounted p (l.length + 4)) (p := p) hrunt hover hroom hcell'
    (l.length + 4)
  rw [Chip.localRx_good htype ((hidle (Fld.key_ne_of_apart (by decide))).trans hsec) hfifo, ← Chip.rxCounted, harrive] at hrow
  refine ⟨_, State.on_running s t (fun _ => localFrameRx p l true true true) hs.1, ?_, ?_, ?_, ?_, ?_, fun g j hg => ?_, ?_⟩ <;> rw [hrow]
  · exact Chip.rxCounted_frames ..
  · exact Chip.rxCounted_bytes ..
  · exact (List.map_append ..).trans (by rw [List.map_singleton, hf.bytes, hf.len]; rfl)
  · intro g hg
    have hlast : g = { f with id := s.chip.pp.nextId } :=
      Option.some.inj (hg.symm.trans List.getLast?_concat)
    subst hlast
    exact ⟨hf.known, hf.origin, hf.src, hf.blk, hf.entry, hf.stamped⟩
  · exact Chip.rg_wg_same ..
  · exact hidle (Ne.symm (List.ne_of_not_mem_cons hg))
  · exact congrArg s.mem.applyAll hs.2

/-- LOCAL_FRAME_RX of a frame with a bad FCS (R305). -/
theorem localFrameRx_bad (t : Nat) (p : Fin 128) (l : List Byte) (s : State) (hs : ready s) (hup : s.chip.rg R.PRT_STAT_LINK p = 2)
    (htype : beAt l 12 2 ≠ 0x8808) : ∃ u, exec (.localFrameRx t p l true true false) s = .next u ∧
      u.chip.counter C.PRT_RX_FCS_ERR p = (s.chip.counter C.PRT_RX_FCS_ERR p + 1) % 2 ^ 48 ∧ u.chip.pp = s.chip.pp ∧
      regsKept s u [R.PRT_STAT_RX_IDLE.key p] ∧ u.mem = s.mem := by
  have hrow := localFrameRx_up (c := chipAt s t) (l := l) hup true true false
  rw [Chip.localRx_badFcs htype] at hrow
  refine ⟨_, State.on_running s t (fun _ => localFrameRx p l true true false) hs.1, ?_, ?_, fun g j hg => ?_, ?_⟩ <;> rw [hrow]
  · exact Chip.counter_incBy_same ..
  · rfl
  · exact (chipAt s t).rxWoken_rg_other (Ne.symm (List.ne_of_not_mem_cons hg))
  · exact congrArg s.mem.applyAll hs.2

/-- Settles O23: frames reach their receiver, and pauses begin, end and are released, as R305 and R308 to R310 say. -/
theorem portFrameCommands : Obligations.PortFrameCommands :=
  ⟨localFrameRx_good, localFrameRx_bad, pauseFrameRx_pauses, pauseExpire_ends, pauseWdExpire_releases, pauseReleaseEnd_ends⟩

end Sys2Proof.Safety
end

section
/-! PROOFS. A queue whose SPILLING field holds a value of more than one bit (06_queues_and_shaping.md R189, R213). -/

namespace Sys2Proof.Machine

open Sys2Proof Sys2Proof.Safety

/-- A write of a field whose lowest bit is not that of SPILLING. -/
theorem Chip.rg_spilling_wg (c : Chip) {f : Fld} (hlt : f.lsb < 32) (h31 : f.lsb ≠ 31) (i v q : Nat) :
    (c.wg f i v).rg R.SCH_Q_OCC_SPILLING q = c.rg R.SCH_Q_OCC_SPILLING q :=
  Chip.rg_wg_other _ _ _ _ _ _ (Fld.key_ne_of_lsb _ _ _ _ hlt (by decide) h31)

/-- Where SPILLING of a queue does not read 1, the observation registers follow the queue without a write of it. -/
theorem Chip.queueStat_spilling {c : Chip} {q : Nat} (h : c.rg R.SCH_Q_OCC_SPILLING q ≠ 1) (b : Nat) :
    (c.queueStat q b).rg R.SCH_Q_OCC_SPILLING q = c.rg R.SCH_Q_OCC_SPILLING q := by
  unfold Chip.queueStat
  dsimp only
  rw [if_neg]
  · simp (disch := decide) only [Chip.wb_eq, Chip.rg_spilling_wg]
  · simp (disch := decide) only [Chip.wb_eq, Chip.rb, Chip.rg_spilling_wg, decide_eq_false h, Bool.false_and, Bool.false_eq_true, not_false_eq_true]

/-- The same of a frame that moves back into its slice. -/
theorem Chip.refill_spilling {c : Chip} {q : Nat} (h : c.rg R.SCH_Q_OCC_SPILLING q ≠ 1) (x : QFrame) (k : Nat) :
    (c.refill q x k).rg R.SCH_Q_OCC_SPILLING q = c.rg R.SCH_Q_OCC_SPILLING q :=
  Chip.queueStat_spilling (c := { c with
    qs.frames := c.qs.frames.filter (fun (y : QFrame) => decide (y.f.id ≠ x.f.id)) ++ [x], qs.refilled := c.qs.refilled.set q k }) h x.f.blk

/-- SPILL_REFILL without an error of HBM. -/
theorem spillRefill_moves {c : Chip} {q k : Nat} {x : QFrame} (h : c.spillNext q = some (x, k)) : spillRefill q none c = c.refill q x k := by
  rw [spillRefill, h]

/-- A frame of one cell that waits in spill queue 0 of queue 0. -/
def spilledCell : QFrame := { spilledFrame 0 with cells := 1 }

/-- The terminal after reset with room for that frame in the reserve of its queue, and SPILLING of the queue, a field of one bit, at 2. -/
def spillingOutOfWidth : State :=
  have c := (Chip.reset.wg R.SCH_Q_LIMIT_MIN 0 1).wg R.SCH_Q_SPILL_SPILL_ON 0 1
  { State.reset with chip := { c with regs := c.regs.set (R.SCH_Q_OCC_SPILLING.key 0) 2, qs.frames := [spilledCell] } }

/-- SPILL_REFILL moves the last frame of that queue out of HBM and leaves the field as it is. -/
theorem spillRefill_spillingOutOfWidth : (spillRefill 0 none (chipAt spillingOutOfWidth 0)).rg R.SCH_Q_OCC_SPILLING 0 = 2 := by
  have htwo : (chipAt spillingOutOfWidth 0).rg R.SCH_Q_OCC_SPILLING 0 = 2 := by decide +kernel
  have hnext : (chipAt spillingOutOfWidth 0).spillNext 0 = some ({ spilledCell with spill := none, reserve := true }, 0) := by decide +kernel
  rw [spillRefill_moves hnext, Chip.refill_spilling (by rw [htwo]; decide), htwo]

end Sys2Proof.Machine

namespace Sys2Proof.Safety

open Sys2Proof Sys2Proof.Machine

/-- Refutes O16 by its clause of SPILL_REFILL: SPILLING of a queue with nothing left in HBM is cleared only where it reads 1 (`Chip.queueStat`), and
the field holds 2. No premise keeps a field of one bit below 2. -/
theorem not_queueAndGateCommands : ¬ Obligations.QueueAndGateCommands := by
  rintro ⟨-, -, hrefill, -⟩
  have hstep := hrefill 0 0 spilledCell 0 spillingOutOfWidth (by decide +kernel) (by decide +kernel) (by decide +kernel)
    (by decide +kernel) (by decide +kernel) (by decide) (by decide) (by decide +kernel) (by decide +kernel)
  have hon : exec (.spillRefill 0 0 none) spillingOutOfWidth = spillingOutOfWidth.on 0 (fun _ => spillRefill 0 none) := rfl
  rw [hon] at hstep
  obtain ⟨-, -, hspilling, -⟩ := State.after_of_on (by decide +kernel) hstep
  rw [State.after_chip, Chip.rg_done] at hspilling
  exact absurd (spillRefill_spillingOutOfWidth.symm.trans hspilling) (by decide)

end Sys2Proof.Safety
end

section
/-! PROOFS. A row of the operand memory that a READY delta has prepared is LOCKED against a host write, whatever coefficient bank it lies in
(02_almanac.md R68, 07_sample_engines.md R235). -/

namespace Sys2Proof.Machine

open Sys2Proof Sys2Proof.Safety

/-- The check of a write that a prepared region refuses. -/
theorem Chip.smpMemCheck_prepared {c : Chip} {a : Nat} {r : Nat × Nat} (hr : r ∈ c.alm.load.region) (hin : r.1 ≤ a ∧ a < r.1 + r.2) :
    c.smpMemCheck a = .bad stLocked :=
  if_pos (List.any_eq_true.mpr ⟨r, hr, decide_eq_true hin⟩)

/-- The event update leaves what a delta has prepared. -/
theorem Chip.evtUpdate_alm (c : Chip) : c.evtUpdate.alm = c.alm :=
  c.evtUpdate_booked.read (·.alm) fun _ _ _ _ _ => rfl

section
variable {a : Nat} (hlo : 0x60000000 ≤ a) (hhi : a < 0x63000000)
include hlo hhi

theorem inSample_operand : inSample a = true := decide_eq_true (.inl ⟨hlo, hhi⟩)

theorem placeAt_operand : placeAt a = .sample := by
  have hddr : ¬ 0x80000000 ≤ a := by omega
  have htab : inTables a = false := by simp only [inTables, decide_eq_false_iff_not]; omega
  simp only [placeAt, hddr, htab, inSample_operand hlo hhi, Bool.false_eq_true, if_false, if_true]

/-- A write of a prepared row by one who may is LOCKED: nothing holds it, and it is not made. -/
theorem Chip.writeWord_prepared {c : Chip} {who : Nat} {r : Nat × Nat} (m : Mem) (hw : c.mayWrite who a = stOk) (ha : c.reach a = stOk)
    (hr : r ∈ c.alm.load.region) (hin : r.1 ≤ a ∧ a < r.1 + r.2) (v : Nat) :
    c.writeWord m who a v = some (c.evtUpdate.evtUpdate, stLocked) := by
  have hddr : ¬ 0x80000000 ≤ a := by omega
  have hheld : c.writeHeld a v = false := by
    simp [Chip.writeHeld, inSample_operand hlo hhi, Chip.smpMemCheck_prepared hr hin]
  have hcheck : c.evtUpdate.smpMemCheck a = .bad stLocked := Chip.smpMemCheck_prepared (c.evtUpdate_alm ▸ hr) hin
  simp [Chip.writeWord, hw, ha, hddr, hheld, Chip.wordWrite, placeAt_operand hlo hhi, Via.staged, Chip.smpDirect, hcheck]

end

/-- The terminal with session 0 established with every right and the cells of blocks 0 to 7 ON, where a delta has prepared row 0 of cell 5. -/
def preparedRow : State :=
  { State.reset with
    chip := { (Chip.reset.wg R.HST_SESS_STAT_STATE 0 2).wg R.PWR_DOM_STAT_PSTATE 13 2 with
      hp.sess := [(0, { Sess.reset with rights := 0xFFFF })]
      alm.load.region := [(rowAddr 5 0, 1024)] } }

end Sys2Proof.Machine

namespace Sys2Proof.Safety

open Sys2Proof Sys2Proof.Machine

/-- A write of the operand memories is a register write. -/
theorem exec_smpMemWrite (t : Nat) (who : Fin 20) {a : Nat} (ha : inSample a = true) (v : Nat) (s : State) :
    exec (.smpMemWrite t who a v) s = exec (.registerWrite t who a v) s := by
  have hsample : exec (.smpMemWrite t who a v) s =
    s.on t (fun m c => if inSample a ∨ inFam R.SMP_LMASK_LANES a then hostWrite m who a v c else c) := rfl
  have hregister : exec (.registerWrite t who a v) s = s.on t (fun m => hostWrite m who a v) := rfl
  simp only [hsample, hregister, ha, true_or, if_true]

/-- SMP_MEM_WRITE of a row that a delta has prepared is answered LOCKED (R68). -/
theorem smpMemWrite_prepared {t a v : Nat} {who : Fin 20} {s u : State} {r : Nat × Nat} (hs : ready s) (hwho : who.val < 4)
    (hlo : 0x60000000 ≤ a) (hhi : a < 0x63000000) (hmay : (chipAt s t).mayWrite who a = stOk) (hreach : (chipAt s t).reach a = stOk)
    (hr : r ∈ s.chip.alm.load.region) (hin : r.1 ≤ a ∧ a < r.1 + r.2) (hu : exec (.smpMemWrite t who a v) s = .next u) :
    answered u stLocked := by
  have hwrite := Chip.writeWord_prepared hlo hhi (c := chipAt s t) s.mem hmay hreach hr hin v
  rw [exec_smpMemWrite t who (inSample_operand hlo hhi), registerWrite_answers hs hwho hwrite] at hu
  cases hu
  rfl

/-- Refutes O17 by its clause of SMP_MEM_WRITE: the row that the host writes lies in neither coefficient bank, and a delta has prepared it,
so that the write is answered LOCKED. No premise keeps the prepared rows apart from the row. -/
theorem not_sampleEngineCommands : ¬ Obligations.SampleEngineCommands := by
  rintro ⟨-, -, -, -, -, hwrite⟩
  have hready : ready preparedRow := by decide +kernel
  have hmay : (chipAt preparedRow 0).mayWrite 0 (rowAddr 5 0) = stOk := by decide +kernel
  have hreach : (chipAt preparedRow 0).reach (rowAddr 5 0) = stOk := by decide +kernel
  obtain ⟨u, hu, hok, -⟩ := hwrite 0 0 (rowAddr 5 0) 0 5 0 preparedRow hready (by decide) (by decide) (by decide) (by decide) hmay hreach
    (by decide) (by decide) (by decide +kernel) (by decide +kernel) (by decide +kernel)
  have hlocked := smpMemWrite_prepared hready (by decide) (by decide) (by decide) hmay hreach (List.mem_singleton_self _) (by decide) hu
  exact absurd (hok.symm.trans hlocked) (by decide)

end Sys2Proof.Safety
end

section
/-! PROOFS. The output of a sample cell for a symbol whose rule generation has expired (05_packet_pipeline.md R178,
08_fronthaul_combining.md R251 to R254). -/

namespace Sys2Proof.Machine

open Sys2Proof Sys2Proof.Safety

/-! ## The emitted symbol that an output block belongs to (R176, R251) -/

@[simp] theorem Chip.path_setPath (c : Chip) (x : Nat) (f : FhCell) : (c.setPath x f).path x = f := Tab.get_set_same ..

/-- What cell x keeps of an emitted symbol: its number, its generation and its highest PASS. -/
def Chip.symRef (c : Chip) (x sym : Nat) : Option (Nat × Nat × Nat) := (c.path x).refs.find? (fun r => decide (r.1 = sym))

/-- The generation of an emitted symbol has expired, so that it holds none any more (R178). -/
def Chip.symExpired (c : Chip) (x sym : Nat) : Prop := (c.symRef x sym).map (fun r => r.2.1) = some genGone

/-- Dropping what lies before the first hit does not change the hit. -/
theorem find?_drop_takeWhile_not {α : Type} (p q : α → Bool) (hq : ∀ a, q a = !p a) (l : List α) :
    (l.drop (l.takeWhile q).length).find? p = l.find? p := by
  induction l with
  | nil => rfl
  | cons a l ih => cases h : p a <;> simp [hq, h, ih]

/-- Ending the output of earlier symbols leaves what is kept of this one. -/
theorem Chip.refsBefore_symRef (c : Chip) (x sym : Nat) : (c.refsBefore x sym).symRef x sym = c.symRef x sym := by
  unfold Chip.refsBefore
  dsimp only
  split
  · rfl
  · simp only [Chip.symRef, Chip.path_setPath]
    exact find?_drop_takeWhile_not _ _ (fun r => by simp) _

theorem Chip.refDrop_pp (c : Chip) (g : Nat) : (c.refDrop g).pp = c.pp := (c.refDrop_rewritten g).read (·.pp) fun _ => rfl

theorem Chip.refsBefore_pp (c : Chip) (x sym : Nat) : (c.refsBefore x sym).pp = c.pp := by
  unfold Chip.refsBefore
  dsimp only
  split
  · rfl
  · exact foldl_keeps _ Chip.pp (fun d _ => d.refDrop_pp _) _ c

/-! ## Output frames of an expired symbol -/

/-- A frame produced for an expired symbol enters no pipeline. -/
theorem Chip.produce_expired {c : Chip} {x sym : Nat} (h : c.symExpired x sym) (flow : Nat) (l : List Byte) :
    c.produce x flow l sym = c := by
  obtain ⟨r, hr, hgone⟩ := Option.map_eq_some_iff.mp h
  unfold Chip.produce
  rw [show (c.path x).refs.find? (fun r => decide (r.1 = sym)) = some r from hr]
  simp only [hgone, if_true]

/-- No frame of a block that ends with a row of an expired symbol enters one either. -/
theorem Chip.sendBlock_expired {c : Chip} {x : Nat} {r : DRow} (h : c.symExpired x r.sym) (flow : Nat) (b : List Byte) (rows : List DRow) :
    (c.sendBlock x flow b (rows ++ [r])).pp = c.pp := by
  simp only [Chip.sendBlock, List.getLast?_concat]
  refine (forN_induct (p := fun _ (d : Chip) => d.pp = c.pp ∧ d.symExpired x r.sym) ⟨c.refsBefore_pp x r.sym, ?_⟩ ?_ _).1
  · rwa [Chip.symExpired, Chip.refsBefore_symRef]
  · rintro j d ⟨hpp, hgone⟩
    split <;> rw [Chip.produce_expired (by exact hgone)] <;> exact ⟨hpp, hgone⟩

/-- The recompressor takes a row of an expired symbol without a change of any pipeline. -/
theorem Chip.takeRow_expired {c : Chip} {x : Nat} {r : DRow} (h : c.symExpired x r.sym) : (c.takeRow x r).pp = c.pp := by
  unfold Chip.takeRow
  dsimp only
  split
  · rfl
  · split
    · split
      · rfl
      · rw [Chip.sendBlock_expired (by simpa [Chip.symExpired, Chip.symRef] using h)]; rfl
    · rfl

/-- IQ_OUTPUT_BLOCK of a cell whose one departure row is of an expired symbol. -/
theorem iqOutputBlock_expired {c : Chip} {x : Nat} {r : DRow} (hdep : (c.cell (c.smpServe x)).dep = [r]) (h : c.symExpired x r.sym) :
    (iqOutputBlock x c).pp = c.pp := by
  unfold iqOutputBlock
  dsimp only
  split
  · rfl
  · have htake : ∀ n, [r].take (n + 1) = [r] := fun n => by simp
    rw [hdep, htake, List.foldl_cons, List.foldl_nil]
    exact Chip.takeRow_expired h

/-- An output flow of cell 5 with a window of one PRB. -/
def outFlow : List Byte := [1, 0, 0, 26, 4, 3, 0, 0, 0, 1, 0xFF, 0xFF, 0, 0, 50, 0] ++ zeros 16

/-- The last row of an output block of symbol 9. -/
def blockEnd : DRow := { lanes := [(1, 2)], mask := 1, stream := 4, exp := 0, blk := true, bad := false, sym := 9, part := false }

/-- The terminal with cell 5 powered, where symbol 9 was emitted under generation 6, its row waits to leave, and generation 6 expires. -/
def expiredSymbol : State :=
  have c := (Chip.reset.wg R.PWR_DOM_STAT_PSTATE 13 2).wg R.PWR_ISL_HOLD_S_STATE 1 2
  { State.reset with
    chip := Chip.expireSymbols (x := 5) (g := 6) { c with
      alm.active := [(0x0502 * 65536 + 3, outFlow)]
      smp.cells := [(5, { SmpCell.reset with dep := [blockEnd] })]
      fh.cells := [(5, { FhCell.reset with refs := [(9, 6, 0)], emitted := true })] } }

end Sys2Proof.Machine

namespace Sys2Proof.Safety

open Sys2Proof Sys2Proof.Machine

/-- Refutes O18 by its clause of IQ_OUTPUT_BLOCK: the generation that the symbol of the block holds has expired, so that its output frame is
dropped and enters no pipeline (R178). No premise keeps the symbol's generation live. -/
theorem not_fronthaulCommands : ¬ Obligations.FronthaulCommands := by
  rintro ⟨-, -, hblock, -, -⟩
  have hstep := hblock 0 5 5 blockEnd (3, outFlow) expiredSymbol (by decide +kernel) (by decide +kernel) (by decide) (by decide +kernel)
    (by decide +kernel) rfl (by decide +kernel) (by decide +kernel) (by decide) (by decide)
  have hon : exec (.iqOutputBlock 0 5) expiredSymbol = expiredSymbol.on 0 (fun _ => iqOutputBlock 5) := rfl
  rw [hon] at hstep
  obtain ⟨-, hback, -⟩ := State.after_of_on (by decide +kernel) hstep
  have hgone : (chipAt expiredSymbol 0).symExpired 5 9 := by unfold Chip.symExpired; decide +kernel
  have hpp := iqOutputBlock_expired (r := blockEnd) (by decide +kernel) hgone
  rw [State.after_chip, Chip.done_pp, hpp, Chip.tick_pp, List.self_eq_append_right] at hback
  exact List.cons_ne_nil _ _ hback

end Sys2Proof.Safety
end

section
/-! PROOFS. What the evaluation of selection, state and class (09_time_and_sync.md R282, R283, R285 to R287) leaves of the chip. -/

namespace Sys2Proof.Machine

open Sys2Proof Sys2Proof.Safety

/-! ## The registers of the evaluation -/

/-- The fields of TMG_STAT, their two events, and the time and bound of a VIGIL that begins. -/
def evalFields : List Nat :=
  [R.TMG_STAT_STATE.key 0, R.TMG_STAT_OUT_VALID.key 0, R.TMG_STAT_SEL.key 0, R.TMG_STAT_EQX_ACTIVE.key 0, R.TMG_STAT_CLASS.key 0,
    R.TMG_STAT_QL.key 0, R.TMG_EVT_STATE_CHG.key 0, R.TMG_EVT_SEL_CHG.key 0, R.TMG_VIG_TIME_SEC.key 0, R.TMG_VIG_EST_EST.key 0]

/-- The keys that the evaluation writes: those, and the rate of the domain that SEL names, which in an arbitrary state is any number. -/
def evalKey (k : Nat) : Prop := k ∈ evalFields ∨ ∃ d, k = R.TMG_DOM_FREQ_S.key d

/-- The rates of domains stand 0x20 apart. -/
theorem not_evalKey {k : Nat} (h : k ∉ evalFields ∧ k % (32 * 0x20) ≠ R.TMG_DOM_FREQ_S.key 0 % (32 * 0x20)) : ¬ evalKey k := by
  rintro (hk | ⟨d, rfl⟩)
  · exact h.1 hk
  · refine h.2 ?_
    simp only [Fld.key, R.TMG_DOM_FREQ_S]
    omega

/-- What the evaluation leaves beside the registers and counters: the record of outputs, the waiting changes of the memories, and what T-B
has measured. -/
def Chip.measured (c : Chip) : List Output × List MemOp × Nat × Option Nat := (c.out, c.mout, c.tm.bRun, c.tm.domB.lastAt)

/-- `d` is `c` but for what the evaluation of selection, state and class writes. -/
structure Chip.Evaluated (c d : Chip) : Prop where
  rg : ∀ (g : Fld) (j : Nat), ¬ evalKey (g.key j) → d.rg g j = c.rg g j
  counter : ∀ (k : Ctr) (i : Nat), C.TMG_EQUINOX.key 0 ≠ k.key i → d.counter k i = c.counter k i
  measured : d.measured = c.measured

theorem Chip.Evaluated.refl (c : Chip) : c.Evaluated c := ⟨fun _ _ _ => rfl, fun _ _ _ => rfl, rfl⟩

theorem Chip.Evaluated.leaves {c d : Chip} (h : c.Evaluated d) :
    d.out = c.out ∧ d.mout = c.mout ∧ d.tm.bRun = c.tm.bRun ∧ d.tm.domB.lastAt = c.tm.domB.lastAt := by
  simpa only [Chip.measured, Prod.mk.injEq] using h.measured

theorem Chip.Evaluated.trans {c d e : Chip} (h : c.Evaluated d) (k : d.Evaluated e) : c.Evaluated e :=
  ⟨fun g j hg => (k.rg g j hg).trans (h.rg g j hg), fun l i hl => (k.counter l i hl).trans (h.counter l i hl), k.measured.trans h.measured⟩

theorem Chip.Evaluated.ite {p : Prop} [Decidable p] {c d e : Chip} (h : c.Evaluated d) (k : c.Evaluated e) :
    c.Evaluated (if p then d else e) := by
  split
  · exact h
  · exact k

theorem Chip.Evaluated.wg {c d : Chip} (h : c.Evaluated d) {f : Fld} {i : Nat} (hf : evalKey (f.key i)) (v : Nat) : c.Evaluated (d.wg f i v) :=
  ⟨fun g j hg => (Chip.rg_wg_other _ _ _ _ _ _ fun e => hg (e ▸ hf)).trans (h.rg g j hg), h.counter, h.measured⟩

/-- A change of the time unit's state, but for what T-B has measured. -/
theorem Chip.Evaluated.tm {c d : Chip} (h : c.Evaluated d) {x : TmSt} (hx : (x.bRun, x.domB.lastAt) = (d.tm.bRun, d.tm.domB.lastAt) := by rfl) :
    c.Evaluated { d with tm := x } :=
  ⟨h.rg, h.counter, (congrArg (fun y => (d.out, d.mout, y)) hx).trans h.measured⟩

theorem Chip.Evaluated.equinox {c d : Chip} (h : c.Evaluated d) : c.Evaluated (d.inc C.TMG_EQUINOX 0) :=
  ⟨h.rg, fun k i hk => (Chip.counter_incBy_other _ hk.symm 1).trans (h.counter k i hk), h.measured⟩

/-- A change of a domain that leaves the instant of its last measurement. -/
theorem Chip.Evaluated.setDom {c d : Chip} (h : c.Evaluated d) (n : Nat) {x : Dom} (hx : x.lastAt = (d.dom n).lastAt := by rfl) :
    c.Evaluated (d.setDom n x) := by
  unfold Chip.setDom
  unfold Chip.dom at hx
  split
  · exact h.tm
  · rename_i hn
    rw [if_neg hn] at hx
    exact h.tm (congrArg (d.tm.bRun, ·) hx)

theorem Chip.clk_evaluated (c : Chip) : c.Evaluated c.clk := (Chip.Evaluated.refl c).tm

theorem Chip.select_evaluated (c : Chip) (d : Nat) : c.Evaluated (c.select d) := by
  have hsel : c.Evaluated ((c.clk.wg R.TMG_STAT_SEL 0 d).wg R.TMG_EVT_SEL_CHG 0 1) :=
    (c.clk_evaluated.wg (.inl (by decide)) _).wg (.inl (by decide)) _
  have heqx := (hsel.wg (f := R.TMG_STAT_EQX_ACTIVE) (i := 0) (.inl (by decide)) 1).equinox
  exact .ite (.refl c) (.ite (heqx.tm) hsel)

/-- A move of the selection, with the mark of R282 set or cleared. -/
theorem Chip.selectAway_evaluated (c : Chip) (d : Nat) (b : Bool) : c.Evaluated { c.select d with tm.away := b } :=
  (c.select_evaluated d).tm

theorem Chip.reselect_evaluated (c : Chip) : c.Evaluated c.reselect := by
  have hself : c.Evaluated c := .refl c
  exact .ite (c.select_evaluated _) (.ite (c.select_evaluated _) (.ite (.ite (hself.tm) (.ite hself (c.selectAway_evaluated _ _)))
    (.ite (.ite hself (c.selectAway_evaluated _ _)) hself)))

theorem Chip.initialSet_evaluated (c : Chip) : c.Evaluated c.initialSet :=
  .ite (((((c.clk_evaluated.tm).setDom _).wg (f := R.TMG_DOM_FREQ_S) (.inr ⟨_, rfl⟩) _).wg (.inl (by decide)) _)) (.refl c)

theorem Chip.vigilEnter_evaluated (c : Chip) : c.Evaluated c.vigilEnter :=
  (((c.clk_evaluated.tm).wg (.inl (by decide)) _).wg (.inl (by decide)) _).wg (.inl (by decide)) _

theorem Chip.timeStat_evaluated (c : Chip) : c.Evaluated c.timeStat := by
  have hvigil : c.Evaluated (if c.timeState = 3 ∧ c.rg R.TMG_STAT_STATE 0 ≠ 3 then c.vigilEnter else c) := .ite c.vigilEnter_evaluated (.refl c)
  have hstate := Chip.Evaluated.ite (p := c.timeState ≠ c.rg R.TMG_STAT_STATE 0)
    ((hvigil.wg (f := R.TMG_STAT_STATE) (i := 0) (.inl (by decide)) c.timeState).wg (f := R.TMG_EVT_STATE_CHG) (i := 0) (.inl (by decide)) 1) hvigil
  exact ((Chip.Evaluated.ite (hstate.tm) hstate).wg (.inl (by decide)) _).wg (.inl (by decide)) _

/-- The whole evaluation. -/
theorem Chip.timeEval_evaluated (c : Chip) : c.Evaluated c.timeEval :=
  (c.reselect_evaluated.trans (Chip.initialSet_evaluated _)).trans (Chip.timeStat_evaluated _)

end Sys2Proof.Machine
end

section
/-! PROOFS. References of T-A and T-B (09_time_and_sync.md R269, R270, R275, R278 to R281, R442): a loss, the edges of PPS_IN, the messages of
TOD_RX, FREQ_IN and PTP, and the statement about them. -/

namespace Sys2Proof.Machine

open Sys2Proof Sys2Proof.Safety

/-! ## A reference is lost (R270) -/

/-- A write of a listed field leaves the fields that are not listed. -/
theorem Chip.rg_wg_listed {ks : List Nat} {g : Fld} {j : Nat} (hg : g.key j ∉ ks) (c : Chip) {f : Fld} {i : Nat} (hf : f.key i ∈ ks) (v : Nat) :
    (c.wg f i v).rg g j = c.rg g j := Chip.rg_wg_other _ _ _ _ _ _ fun e => hg (e ▸ hf)

/-- What follows an evaluated chip through a write follows the evaluation. -/
theorem Chip.Evaluated.wgBoth {c d : Chip} (h : c.Evaluated d) (f : Fld) (i v : Nat) : (c.wg f i v).Evaluated (d.wg f i v) :=
  ⟨fun g j hg => by rw [Chip.rg_wg, Chip.rg_wg, h.rg g j hg], h.counter, h.measured⟩

/-- The event of a domain's loss. -/
def lostFld (d : Nat) : Fld := if d = 0 then R.TMG_EVT_A_LOST else R.TMG_EVT_B_LOST

/-- The registers of a domain that enters LOST with a cause. -/
def Chip.refLost (c : Chip) (d cause : Nat) : Chip :=
  (((c.wg R.TMG_DOM_STAT_DSTATE d 3).wg R.TMG_DOM_STAT_REF_OK d 0).wg R.TMG_DOM_STAT_CAUSE d cause).lostEvt d

theorem Chip.lostEvt_eq (c : Chip) (d : Nat) : c.lostEvt d = c.wg (lostFld d) 0 1 := by
  unfold Chip.lostEvt lostFld
  split <;> rfl

theorem Chip.Evaluated.lostBoth {c d : Chip} (h : c.Evaluated d) (n : Nat) : (c.lostEvt n).Evaluated (d.lostEvt n) := by
  rw [Chip.lostEvt_eq, Chip.lostEvt_eq]
  exact h.wgBoth _ 0 1

/-- A domain with a reference loses it: beside those registers, what changes is what the evaluation writes. -/
theorem Chip.domLose_evaluated {c : Chip} {d : Nat} (h : c.dstate d = 1 ∨ c.dstate d = 2) (cause : Nat) :
    (c.refLost d cause).Evaluated (c.domLose d cause) := by
  have hdom : c.Evaluated (c.clk.setDom d { c.clk.dom d with rate := 0, overs := 0 }) := c.clk_evaluated.setDom d
  have hrate := (((hdom.wgBoth R.TMG_DOM_STAT_DSTATE d 3).wgBoth R.TMG_DOM_STAT_REF_OK d 0).wgBoth R.TMG_DOM_STAT_CAUSE d cause).wg
    (f := R.TMG_DOM_FREQ_S) (i := d) (.inr ⟨d, rfl⟩) (unsgn 32 (satInt 32 0))
  rw [Chip.domLose, if_pos h]
  exact (hrate.lostBoth d).trans (Chip.timeEval_evaluated _)

/-- The fields that tell of a loss. -/
def lostFields (d : Nat) : List Nat :=
  [R.TMG_DOM_STAT_DSTATE.key d, R.TMG_DOM_STAT_REF_OK.key d, R.TMG_DOM_STAT_CAUSE.key d, (lostFld d).key 0]

theorem Chip.refLost_rewritten (c : Chip) (d cause : Nat) : c.Rewritten (c.refLost d cause) := by
  rw [Chip.refLost, Chip.lostEvt_eq]
  exact ⟨_, rfl⟩

theorem Chip.refLost_rg_other (c : Chip) (d cause : Nat) {g : Fld} {j : Nat} (hg : g.key j ∉ lostFields d) :
    (c.refLost d cause).rg g j = c.rg g j := by
  rw [Chip.refLost, Chip.lostEvt_eq, Chip.rg_wg_listed hg _ (by simp [lostFields]), Chip.rg_wg_listed hg _ (by simp [lostFields]),
    Chip.rg_wg_listed hg _ (by simp [lostFields]), Chip.rg_wg_listed hg _ (by simp [lostFields])]

theorem Chip.refLost_reads (c : Chip) {d cause : Nat} (hd : d = 0 ∨ d = 1) (hcause : cause < 256) :
    (c.refLost d cause).rg R.TMG_DOM_STAT_DSTATE d = 3 ∧ (c.refLost d cause).rg R.TMG_DOM_STAT_REF_OK d = 0 ∧
      (c.refLost d cause).rg R.TMG_DOM_STAT_CAUSE d = cause ∧ (c.refLost d cause).rg (lostFld d) 0 = 1 := by
  have hwide : (lostFld d).width = 1 := by unfold lostFld; split <;> rfl
  rw [Chip.refLost, Chip.lostEvt_eq]
  refine ⟨?_, ?_, ?_, (Chip.rg_wg_same ..).trans (by rw [hwide]; rfl)⟩
  · rcases hd with rfl | rfl <;> simp (disch := decide) only [Chip.rg_wg_other, Chip.rg_wg_same] <;> rfl
  · rcases hd with rfl | rfl <;> simp (disch := decide) only [Chip.rg_wg_other, Chip.rg_wg_same] <;> rfl
  · rcases hd with rfl | rfl <;> simp (disch := decide) only [Chip.rg_wg_other, Chip.rg_wg_same] <;> exact Nat.mod_eq_of_lt hcause

/-- What a domain with a reference reads once it has lost it. -/
theorem Chip.domLose_reads {c : Chip} {d cause : Nat} (hd : d = 0 ∨ d = 1) (h : c.dstate d = 1 ∨ c.dstate d = 2) (hcause : cause < 256) :
    (c.domLose d cause).rg R.TMG_DOM_STAT_DSTATE d = 3 ∧ (c.domLose d cause).rg R.TMG_DOM_STAT_REF_OK d = 0 ∧
      (c.domLose d cause).rg R.TMG_DOM_STAT_CAUSE d = cause ∧ (c.domLose d cause).rg (lostFld d) 0 = 1 := by
  have heval := c.domLose_evaluated h cause
  obtain ⟨hstate, href, hcs, hevt⟩ := c.refLost_reads hd hcause
  rcases hd with rfl | rfl
  all_goals
    exact ⟨(heval.rg _ _ (not_evalKey (by decide))).trans hstate, (heval.rg _ _ (not_evalKey (by decide))).trans href,
      (heval.rg _ _ (not_evalKey (by decide))).trans hcs, (heval.rg _ _ (not_evalKey (by decide))).trans hevt⟩

/-- What a loss leaves: the other fields that the evaluation does not write, the counters but that of the Equinoxes, the outputs, the
waiting changes of the memories and the measurements. -/
theorem Chip.domLose_keeps {c : Chip} {d : Nat} (h : c.dstate d = 1 ∨ c.dstate d = 2) (cause : Nat) :
    (∀ (g : Fld) (j : Nat), g.key j ∉ lostFields d → ¬ evalKey (g.key j) → (c.domLose d cause).rg g j = c.rg g j) ∧
      (∀ (k : Ctr) (i : Nat), C.TMG_EQUINOX.key 0 ≠ k.key i → (c.domLose d cause).counter k i = c.counter k i) ∧
      (c.domLose d cause).measured = c.measured := by
  have heval := c.domLose_evaluated h cause
  have hlost := c.refLost_rewritten d cause
  exact ⟨fun g j hg hk => (heval.rg g j hk).trans (c.refLost_rg_other d cause hg),
    fun k i hk => (heval.counter k i hk).trans (hlost.read (·.counter k i) fun _ => rfl),
    heval.measured.trans (hlost.read Chip.measured fun _ => rfl)⟩

theorem domainLossTimeout_late {c : Chip} {a : Nat} (hmap : c.tm.mapAt = some a) (hlate : a + c.rg R.TMG_A_CFG_LOSS_TO 0 * secPs ≤ c.now) :
    domainLossTimeout 0 c = c.domLose 0 1 := by
  simp [domainLossTimeout, hmap, hlate]

/-! ## PPS_IN (R278) -/

theorem Chip.rb_true {c : Chip} {f : Fld} {i : Nat} (h : c.rg f i = 1) : c.rb f i = true := decide_eq_true h

theorem Chip.rb_false {c : Chip} {f : Fld} {i : Nat} (h : c.rg f i ≠ 1) : c.rb f i = false := decide_eq_false h

/-- An edge that is seen is judged by the time since the last accepted one. -/
theorem ppsInEdge_seen {c : Chip} {w a : Nat} (hvio : c.tm.timeVio = true) (hwidth : c.rg R.TMG_B_PPS_MINW 0 ≤ w)
    (hstuck : c.rg R.TMG_PPSIN_STAT_STUCK 0 = 0) (hat : c.tm.ppsAt = some a) (hfresh : c.tm.ppsFresh = false) (hbounce : a + msPs ≤ c.now) :
    ppsInEdge w c =
      if c.now < a + 900 * msPs then c.inc C.TMG_PPS_SPURIOUS 0
      else if c.now ≤ a + 1100 * msPs then c.ppsAccept
      else (c.wg R.TMG_PPSIN_STAT_QUAL_CNT 0 0).ppsAccept := by
  have hstuck' : c.rb R.TMG_PPSIN_STAT_STUCK 0 = false := Chip.rb_false (by omega)
  unfold ppsInEdge
  rw [if_neg (by simp [hvio, hstuck', hwidth]), hat]
  dsimp only
  rw [if_neg (by simp [hfresh]), if_neg (Nat.not_lt.mpr hbounce)]

/-- The chip with an edge accepted whose predecessor was named. -/
def Chip.edgeTaken (c : Chip) : Chip :=
  { (c.inc C.TMG_PPS_EDGES 0).wg R.TMG_PPSIN_STAT_PRESENT 0 1 with
    tm.ppsAt := some c.now, tm.ppsMissAt := some c.now, tm.ppsMiss := 0, tm.ppsFresh := false,
    tm.ppsEdge := some (c.dNow 1 - c.rs R.TMG_B_PPS_DELAY 0 * 65536) }

theorem Chip.ppsAccept_named {c : Chip} (h : c.tm.ppsEdge = none) : c.ppsAccept = c.edgeTaken := by
  have hdelay : (c.wg R.TMG_PPSIN_STAT_PRESENT 0 1).rs R.TMG_B_PPS_DELAY 0 = c.rs R.TMG_B_PPS_DELAY 0 :=
    congrArg (sgn _) (Chip.rg_wg_other _ _ _ _ _ _ (by decide))
  have hun : c.tm.ppsEdge.isSome = false := by rw [h]; rfl
  simp only [Chip.ppsAccept, hun, Bool.false_eq_true, if_false, Chip.edgeTaken, ← hdelay]
  rfl

/-- The chip with one more edge missing. -/
def Chip.edgeMissed (c : Chip) : Chip :=
  { ((c.inc C.TMG_PPS_MISSING 0).wg R.TMG_PPSIN_STAT_PRESENT 0 0).wg R.TMG_PPSIN_STAT_QUAL_CNT 0 0 with
    tm.ppsMissAt := some c.now, tm.ppsFresh := true, tm.ppsMiss := c.tm.ppsMiss + 1 }

theorem ppsMissing_late {c : Chip} {a : Nat} (hat : c.tm.ppsMissAt = some a) (hlate : a + 1100 * msPs ≤ c.now) :
    ppsMissing c = if c.tm.ppsMiss + 1 ≥ 3 then c.edgeMissed.ppsLose 5 else c.edgeMissed := by
  unfold ppsMissing
  rw [hat]
  exact if_pos hlate

/-- T-B on PPS_IN loses its reference. -/
theorem Chip.ppsLose_pps {c : Chip} (hsrc : c.rg R.TMG_B_CFG_SRC 0 = 1) (cause : Nat) :
    c.ppsLose cause = (c.wg R.TMG_PPSIN_STAT_QUAL_CNT 0 0).domLose 1 cause :=
  if_pos (decide_eq_true ((Chip.rg_wg_other _ _ _ _ _ _ (by decide)).trans hsrc))

/-- T-B on another source only restarts the qualification. -/
theorem Chip.ppsLose_other {c : Chip} (hsrc : c.rg R.TMG_B_CFG_SRC 0 ≠ 1) (cause : Nat) :
    c.ppsLose cause = c.wg R.TMG_PPSIN_STAT_QUAL_CNT 0 0 :=
  if_neg fun h => hsrc ((Chip.rg_wg_other _ _ _ _ _ _ (by decide)).symm.trans (of_decide_eq_true h))

/-- What a lost PPS_IN reference leaves of a chip on which T-B is LOCKED to it. -/
theorem Chip.ppsLose_locked {c : Chip} (hsrc : c.rg R.TMG_B_CFG_SRC 0 = 1) (hlocked : c.rg R.TMG_DOM_STAT_DSTATE 1 = 2) {cause : Nat}
    (hcause : cause < 256) :
    (c.ppsLose cause).rg R.TMG_DOM_STAT_DSTATE 1 = 3 ∧ (c.ppsLose cause).rg R.TMG_DOM_STAT_CAUSE 1 = cause ∧
      (c.ppsLose cause).rg R.TMG_EVT_B_LOST 0 = 1 ∧ (c.ppsLose cause).rg R.TMG_PPSIN_STAT_QUAL_CNT 0 = 0 ∧
      (∀ (g : Fld) (j : Nat), g.key j ∉ R.TMG_PPSIN_STAT_QUAL_CNT.key 0 :: lostFields 1 → ¬ evalKey (g.key j) →
        (c.ppsLose cause).rg g j = c.rg g j) ∧
      (∀ (k : Ctr) (i : Nat), C.TMG_EQUINOX.key 0 ≠ k.key i → (c.ppsLose cause).counter k i = c.counter k i) ∧
      (c.ppsLose cause).mout = c.mout := by
  have hvalid : (c.wg R.TMG_PPSIN_STAT_QUAL_CNT 0 0).dstate 1 = 1 ∨ (c.wg R.TMG_PPSIN_STAT_QUAL_CNT 0 0).dstate 1 = 2 :=
    .inr ((Chip.rg_wg_other _ _ _ _ _ _ (by decide)).trans hlocked)
  obtain ⟨hstate, -, hcs, hevt⟩ := Chip.domLose_reads (.inr rfl) hvalid hcause
  obtain ⟨hregs, hcounter, hmeasured⟩ := Chip.domLose_keeps hvalid cause
  rw [Chip.ppsLose_pps hsrc]
  refine ⟨hstate, hcs, hevt, (hregs _ _ (by decide) (not_evalKey (by decide))).trans (Chip.rg_wg_same ..), fun g j hg hk => ?_, hcounter,
    congrArg (fun x => x.2.1) hmeasured⟩
  exact (hregs g j (List.not_mem_of_not_mem_cons hg) hk).trans (Chip.rg_wg_other _ _ _ _ _ _ (List.ne_of_not_mem_cons hg).symm)

/-! ## TOD_RX (R277, R279, R294) -/

theorem beNat_lt (l : List Byte) : beNat l < 256 ^ l.length := by
  induction l with
  | nil => exact Nat.one_pos
  | cons b l ih =>
    have hb : b.toNat ≤ 255 := Nat.le_of_lt_succ b.isLt
    rw [beNat, List.foldl_cons, foldl_be, List.length_cons, Nat.pow_succ]
    calc (0 * 256 + b.toNat) * 256 ^ l.length + beNat l
        < b.toNat * 256 ^ l.length + 256 ^ l.length := by rw [Nat.zero_mul, Nat.zero_add]; exact Nat.add_lt_add_left ih _
      _ = (b.toNat + 1) * 256 ^ l.length := (Nat.succ_mul ..).symm
      _ ≤ 256 * 256 ^ l.length := Nat.mul_le_mul_right _ (Nat.succ_le_succ hb)
      _ = 256 ^ l.length * 256 := Nat.mul_comm ..

/-- A field of `n` bytes holds a number of `n` bytes. -/
theorem beAt_lt (l : List Byte) (o n : Nat) : beAt l o n < 256 ^ n :=
  (beNat_lt _).trans_le (Nat.pow_le_pow_right (by decide) (List.length_take_le ..))

/-- The chip with the leap fields of a message. -/
def Chip.leapTaken (c : Chip) (flags ofs at_ : Nat) : Chip :=
  ((((c.wg R.TMG_UTC_OFFSET 0 ofs).wb R.TMG_UTC_PENDING 0 (bit flags 1)).wb R.TMG_UTC_DIR 0 (bit flags 2)).wg R.TMG_LEAP_AT_LO_SEC 0 at_).wg
    R.TMG_LEAP_AT_HI_SEC 0 (at_ / 2 ^ 32)

/-- The chip with the edge named, and qualified. -/
def Chip.edgeNamed (c : Chip) : Chip :=
  ({ c with tm.ppsEdge := none, tm.ppsNoTod := 0 }.wg R.TMG_PPSIN_STAT_TOD_OK 0 1).wsat R.TMG_PPSIN_STAT_QUAL_CNT 0
    (c.rg R.TMG_PPSIN_STAT_QUAL_CNT 0 + 1)

theorem Chip.edgeNamed_rg_other (c : Chip) {g : Fld} {j : Nat} (h : g.key j ∉ [R.TMG_PPSIN_STAT_TOD_OK.key 0, R.TMG_PPSIN_STAT_QUAL_CNT.key 0]) :
    c.edgeNamed.rg g j = c.rg g j :=
  (Chip.rg_wg_listed h _ (by decide) _).trans (Chip.rg_wg_listed h _ (by decide) _)

theorem Chip.edgeNamed_reads {c : Chip} (hqual : c.rg R.TMG_PPSIN_STAT_QUAL_CNT 0 < 15) :
    c.edgeNamed.rg R.TMG_PPSIN_STAT_TOD_OK 0 = 1 ∧ c.edgeNamed.rg R.TMG_PPSIN_STAT_QUAL_CNT 0 = c.rg R.TMG_PPSIN_STAT_QUAL_CNT 0 + 1 := by
  refine ⟨(Chip.rg_wg_other _ _ _ _ _ _ (by decide)).trans (Chip.rg_wg_same ..), (Chip.rg_wg_same ..).trans ?_⟩
  show min (c.rg R.TMG_PPSIN_STAT_QUAL_CNT 0 + 1) 15 % 16 = _
  omega

/-- What the named edge of D_B time `e` does to T-B on PPS_IN. -/
def Chip.edgeMeasured (c : Chip) (e : Int) (secs : Nat) : Chip :=
  have d := if c.rg R.TMG_PPSIN_STAT_QUAL_CNT 0 ≥ c.rg R.TMG_B_CFG_QUAL 0 then c.domValid 1 else c
  if d.dstate 1 = 1 ∨ d.dstate 1 = 2 then d.measure 1 (e - (secs : Int) * 1000000000 * 65536) else d

/-- Without FREQ_IN an edge qualifies. -/
theorem Chip.ppsNamed_qualifies {c : Chip} (hfreq : c.rg R.TMG_B_CFG_FREQ_IN_EN 0 = 0) (e : Int) (secs : Nat) :
    c.ppsNamed e secs = if c.edgeNamed.bPps then c.edgeNamed.edgeMeasured e secs else c.edgeNamed := by
  have hfok : ({ c with tm.ppsEdge := none, tm.ppsNoTod := 0 }.wg R.TMG_PPSIN_STAT_TOD_OK 0 1).rb R.TMG_B_CFG_FREQ_IN_EN 0 = false :=
    Chip.rb_false (by rw [Chip.rg_wg_other _ _ _ _ _ _ (by decide), Chip.rg_mk, hfreq]; decide)
  have hqual : ({ c with tm.ppsEdge := none, tm.ppsNoTod := 0 }.wg R.TMG_PPSIN_STAT_TOD_OK 0 1).rg R.TMG_PPSIN_STAT_QUAL_CNT 0 =
    c.rg R.TMG_PPSIN_STAT_QUAL_CNT 0 := Chip.rg_wg_other _ _ _ _ _ _ (by decide)
  unfold Chip.ppsNamed
  simp only [hfok, hqual, decide_true, Bool.true_or, if_true]
  rfl

/-- T-B is not measured while it is LOST with edges to go. -/
theorem Chip.edgeMeasured_lost {c : Chip} (hfew : c.rg R.TMG_PPSIN_STAT_QUAL_CNT 0 < c.rg R.TMG_B_CFG_QUAL 0)
    (hlost : c.rg R.TMG_DOM_STAT_DSTATE 1 = 3) (e : Int) (secs : Nat) : c.edgeMeasured e secs = c := by
  unfold Chip.edgeMeasured
  rw [if_neg (Nat.not_le.mpr hfew)]
  exact if_neg (by rw [Chip.dstate, hlost]; decide)

theorem Chip.leapFrom_pps {c : Chip} {flags : Nat} (hutc : c.rg R.TMG_UTC_SRC 0 = 1) (hsrc : c.rg R.TMG_B_CFG_SRC 0 = 1)
    (hvalid : bit flags 0 = true) (ofs at_ : Nat) : c.leapFrom flags ofs at_ = c.leapTaken flags ofs at_ :=
  if_pos ⟨Chip.rb_true hutc, decide_eq_true hsrc, hvalid⟩

theorem Chip.leapFrom_other {c : Chip} (hsrc : c.rg R.TMG_B_CFG_SRC 0 ≠ 1) (flags ofs at_ : Nat) : c.leapFrom flags ofs at_ = c :=
  if_neg fun h => hsrc (of_decide_eq_true h.2.1)

theorem Chip.leapTaken_rg_other (c : Chip) (flags ofs at_ : Nat) {g : Fld} {j : Nat}
    (h : g.key j ∉ [R.TMG_UTC_OFFSET.key 0, R.TMG_UTC_PENDING.key 0, R.TMG_UTC_DIR.key 0, R.TMG_LEAP_AT_LO_SEC.key 0, R.TMG_LEAP_AT_HI_SEC.key 0]) :
    (c.leapTaken flags ofs at_).rg g j = c.rg g j := by
  unfold Chip.leapTaken
  rw [Chip.wb_eq, Chip.wb_eq, Chip.rg_wg_listed h _ (by decide), Chip.rg_wg_listed h _ (by decide), Chip.rg_wg_listed h _ (by decide),
    Chip.rg_wg_listed h _ (by decide), Chip.rg_wg_listed h _ (by decide)]

theorem b2n_mod_two (b : Bool) : b2n b % 2 = b2n b := by cases b <;> rfl

theorem Chip.leapTaken_reads (c : Chip) (flags : Nat) {ofs at_ : Nat} (hofs : ofs < 256 ^ 2) (hat : at_ < 256 ^ 6) :
    (c.leapTaken flags ofs at_).rg R.TMG_UTC_OFFSET 0 = ofs ∧ (c.leapTaken flags ofs at_).rg R.TMG_UTC_PENDING 0 = b2n (bit flags 1) ∧
      (c.leapTaken flags ofs at_).rg R.TMG_UTC_DIR 0 = b2n (bit flags 2) ∧
      (c.leapTaken flags ofs at_).rg R.TMG_LEAP_AT_LO_SEC 0 = at_ % 2 ^ 32 ∧ (c.leapTaken flags ofs at_).rg R.TMG_LEAP_AT_HI_SEC 0 = at_ / 2 ^ 32 := by
  unfold Chip.leapTaken
  simp (disch := decide) only [Chip.wb_eq, Chip.rg_wg_other, Chip.rg_wg_same]
  refine ⟨Nat.mod_eq_of_lt hofs, b2n_mod_two _, b2n_mod_two _, rfl, Nat.mod_eq_of_lt ?_⟩
  show at_ / 2 ^ 32 < 2 ^ 16
  omega

/-- A message that arrives in time for its edge, and names it. -/
theorem todRxMsg_names {c : Chip} {w : List (Nat × Byte)} {b : List Byte} {a : Nat} {e : Int} (hfind : b = todFind (todStretch w))
    (hlen : b.length = 24) (hver : byteAt b 2 = 1) (hcrc : crc16 (b.take 22) = beAt b 22 2) (hvalid : bit (byteAt b 3) 0 = true)
    (hat : c.tm.ppsAt = some a) (hedge : c.tm.ppsEdge = some e) (hearly : a + 10 * msPs ≤ c.now) (hlate : c.now ≤ a + 900 * msPs) :
    todRxMsg w c = ((c.inc C.TMG_TOD_RX_OK 0).leapFrom (byteAt b 3) (beAt b 10 2) (beAt b 12 6)).ppsNamed e (beAt b 4 6) := by
  unfold todRxMsg
  dsimp only
  rw [← hfind, if_neg (by omega), if_neg (by simp [hcrc, hver]), hat, hedge]
  dsimp only
  rw [if_pos ⟨hearly, hlate⟩, hvalid, if_pos rfl]

theorem todRxMsg_badCrc {c : Chip} {w : List (Nat × Byte)} {b : List Byte} (hfind : b = todFind (todStretch w)) (hlen : b.length = 24)
    (hcrc : crc16 (b.take 22) ≠ beAt b 22 2) : todRxMsg w c = c.inc C.TMG_TOD_RX_ERR 0 := by
  unfold todRxMsg
  dsimp only
  rw [← hfind, if_neg (by omega), if_pos (.inl hcrc)]

/-! ## FREQ_IN (R280) and PTP (R281) -/

/-- The chip with FREQ_IN lost. -/
def Chip.freqGone (c : Chip) : Chip := ({ c with tm.freqGood := none }.wg R.TMG_PPSIN_STAT_FREQ_OK 0 0).inc C.TMG_FREQIN_LOST 0

theorem Chip.freqLost_ok {c : Chip} (hok : c.rg R.TMG_PPSIN_STAT_FREQ_OK 0 = 1) :
    c.freqLost = if c.rb R.TMG_B_CFG_FREQ_IN_EN 0 then c.freqGone.ppsLose 8 else c.freqGone := by
  have hen : c.freqGone.rb R.TMG_B_CFG_FREQ_IN_EN 0 = c.rb R.TMG_B_CFG_FREQ_IN_EN 0 :=
    congrArg (fun x => decide (x = 1)) (Chip.rg_wg_other _ _ _ _ _ _ (by decide))
  rw [← hen]
  exact if_pos (Chip.rb_true hok)

/-- The chip with servo B's integral moved by a phase of FREQ_IN. -/
def Chip.integralMoved (c : Chip) (phase : Int) : Chip :=
  have p := (phase + 50 * 65536) % (100 * 65536) - 50 * 65536
  have x := c.clk.tm.domB
  have integ := clampI (x.integ + servoI (servoWn (c.servoBw 1 msPs).1) p msPs) servoMax
  { c.clk with tm.domB := { x with integ := integ, rate := clampI (x.rate - (integ - x.integ)) servoMax } }.domFreq 1

theorem freqinIntegralUpdate_locked {c : Chip} (hsrc : c.rg R.TMG_B_CFG_SRC 0 = 1) (hen : c.rg R.TMG_B_CFG_FREQ_IN_EN 0 = 1)
    (hok : c.rg R.TMG_PPSIN_STAT_FREQ_OK 0 = 1) (hlocked : c.rg R.TMG_DOM_STAT_DSTATE 1 = 2) (phase : Int) :
    freqinIntegralUpdate phase c = c.integralMoved phase :=
  if_pos ⟨decide_eq_true hsrc, Chip.rb_true hen, Chip.rb_true hok, .inr hlocked⟩

/-- A choice between two that read the same reads the same. -/
theorem read_ite {α β : Type} (f : α → β) {p : Prop} [Decidable p] {x y : α} {z : β} (h : f x = z) (k : f y = z) :
    f (if p then x else y) = z := by
  split
  · exact h
  · exact k

/-- A servo step of T-B that is not in ACQ (R269): the clocks are brought up to date, a bandwidth that is clamped is counted, and the domain
takes a rate and the instant of the measurement. -/
theorem Chip.servo_locked {c : Chip} (hlocked : c.dstate 1 = 2) (theta : Int) : ∃ (b : Bool) (x : Dom) (v : Nat), x.lastAt = some c.now ∧
    c.servo 1 theta = ((if b then c.clk.inc C.TMG_BW_CLAMP 0 else c.clk).setDom 1 x).wg R.TMG_DOM_FREQ_S 1 v := by
  have hstate (d : Chip) (hd : d.regs = c.regs) : ¬ (d.dstate 1 = 1 ∧ absI theta > d.rg R.TMG_SERVO_LIM_STEP_THR 1 * 1000 * 65536) := by
    rintro ⟨hone, -⟩
    rw [Chip.dstate, Chip.rg_of_regs_eq hd] at hone
    exact absurd (hlocked.symm.trans hone) (by decide)
  have hregs (b : Bool) : (if b then c.clk.inc C.TMG_BW_CLAMP 0 else c.clk).regs = c.regs := read_ite Chip.regs rfl rfl
  have hnow (b : Bool) : (if b then c.clk.inc C.TMG_BW_CLAMP 0 else c.clk).now = c.now := read_ite Chip.now rfl rfl
  unfold Chip.servo
  dsimp only
  rw [if_neg (hstate _ (hregs _))]
  exact ⟨_, _, _, congrArg some (hnow _), rfl⟩

/-- What such a step leaves. -/
theorem Chip.servo_leaves {c : Chip} (hlocked : c.dstate 1 = 2) (theta : Int) :
    (c.servo 1 theta).out = c.out ∧ (c.servo 1 theta).mout = c.mout ∧ (c.servo 1 theta).tm.domB.lastAt = some c.now ∧
      (c.servo 1 theta).counter C.TMG_B_MEAS 0 = c.counter C.TMG_B_MEAS 0 := by
  obtain ⟨b, x, v, hlast, hservo⟩ := Chip.servo_locked hlocked theta
  rw [hservo]
  cases b
  · exact ⟨rfl, rfl, hlast, rfl⟩
  · exact ⟨rfl, rfl, hlast, Chip.counter_incBy_other c.clk (by decide) 1⟩

/-- The count of a lock changes the registers and the domain's run of measurements only. -/
theorem Chip.lockCount_leaves (c : Chip) (theta : Int) : (c.lockCount 1 theta).out = c.out ∧ (c.lockCount 1 theta).mout = c.mout ∧
    (c.lockCount 1 theta).tm.domB.lastAt = c.tm.domB.lastAt ∧ (c.lockCount 1 theta).cnt = c.cnt :=
  ⟨read_ite Chip.out rfl (read_ite Chip.out rfl rfl), read_ite Chip.mout rfl (read_ite Chip.mout rfl rfl),
    read_ite (fun d : Chip => d.tm.domB.lastAt) rfl (read_ite (fun d : Chip => d.tm.domB.lastAt) rfl rfl), read_ite Chip.cnt rfl (read_ite Chip.cnt rfl rfl)⟩

/-- The chip with a measurement of T-B counted and shown. -/
def Chip.thetaShown (c : Chip) (theta : Int) : Chip := (c.inc C.TMG_B_MEAS 0).ws R.TMG_DOM_OFS_THETA 1 (theta / 4096)

/-- A measurement of T-B in LOCKED. -/
theorem Chip.measure_locked {c : Chip} (hlocked : c.dstate 1 = 2) (theta : Int) :
    (c.measure 1 theta).out = c.out ∧ (c.measure 1 theta).mout = c.mout ∧ (c.measure 1 theta).tm.domB.lastAt = some c.now ∧
      (c.measure 1 theta).counter C.TMG_B_MEAS 0 = (c.counter C.TMG_B_MEAS 0 + 1) % 2 ^ 48 := by
  have hshown : (c.thetaShown theta).dstate 1 = 2 := (Chip.rg_wg_other _ _ _ _ _ _ (by decide)).trans hlocked
  have hcount : (c.thetaShown theta).counter C.TMG_B_MEAS 0 = (c.counter C.TMG_B_MEAS 0 + 1) % 2 ^ 48 := Chip.counter_incBy_same ..
  obtain ⟨hout, hmout, hat, hcnt⟩ := Chip.servo_leaves hshown theta
  obtain ⟨hout', hmout', hat', hcnt'⟩ := ((c.thetaShown theta).servo 1 theta).lockCount_leaves theta
  have heval := Chip.timeEval_evaluated (((c.thetaShown theta).servo 1 theta).lockCount 1 theta)
  have hcounter := (heval.counter C.TMG_B_MEAS 0 (by decide)).trans (congrArg (Tab.get 0 · (C.TMG_B_MEAS.key 0)) hcnt')
  have hmeasure : c.measure 1 theta = (((c.thetaShown theta).servo 1 theta).lockCount 1 theta).timeEval := rfl
  obtain ⟨hout'', hmout'', -, hat''⟩ := heval.leaves
  rw [hmeasure]
  exact ⟨hout''.trans (hout'.trans hout), hmout''.trans (hmout'.trans hmout), hat''.trans (hat'.trans hat),
    hcounter.trans (hcnt.trans hcount)⟩

/-- The chip with the second of a write of TMG_B_MEAS and the run of writes noted. -/
def Chip.runNoted (c : Chip) (sec run : Nat) : Chip := { c with tm.bSec := sec, tm.bRun := run }

/-- A valid write of TMG_B_MEAS measures T-B in LOCKED, once the run of writes is noted. -/
theorem bMeasWrite_locked {c : Chip} (hsrc : c.rg R.TMG_B_CFG_SRC 0 = 2) (hlocked : c.rg R.TMG_DOM_STAT_DSTATE 1 = 2) (ofs : Int) :
    ∃ (sec run : Nat) (theta : Int),
      bMeasWrite true false ofs c = ((c.runNoted sec run).measure 1 theta, stOk) := by
  have hvalid (d : Chip) (hd : d.regs = c.regs) : d.domValid 1 = d :=
    if_neg (by rw [Chip.dstate, Chip.rg_of_regs_eq hd, hlocked]; decide)
  have hstate (d : Chip) (hd : d.regs = c.regs) : d.dstate 1 = 1 ∨ d.dstate 1 = 2 := .inr ((Chip.rg_of_regs_eq hd ..).trans hlocked)
  unfold bMeasWrite
  rw [if_neg (by decide), if_neg (by rw [hsrc]; decide), if_neg (by decide)]
  dsimp only
  rw [hvalid _ (by rfl), ite_self, if_pos (hstate _ (by rfl))]
  exact ⟨_, _, _, rfl⟩

/-- A write that tells of the loss of the master. -/
theorem bMeasWrite_lost {c : Chip} (hsrc : c.rg R.TMG_B_CFG_SRC 0 = 2) (ofs : Int) :
    bMeasWrite true true ofs c = ({ c with tm.bRun := 0 }.domLose 1 9, stOk) := by
  rw [bMeasWrite, if_neg (by decide), if_neg (by rw [hsrc]; decide), if_pos rfl]

end Sys2Proof.Machine
end

section
/-! PROOFS. The commands of the references of T-A and T-B (09_time_and_sync.md R269, R270, R275, R278 to R281, R442), and the statement about
them. -/

namespace Sys2Proof.Safety

open Sys2Proof Sys2Proof.Machine

/-- A command that asks for no change of the memories leaves them. -/
theorem mem_after {s : State} {c : Chip} (hs : ready s) (hmout : c.mout = s.chip.mout) : (s.after c).mem = s.mem := by
  rw [State.after_mem, hmout, hs.2]
  rfl

/-- The same of a host write that is answered. -/
theorem mem_answered {s : State} {e : Chip} (hs : ready s) (hmout : e.mout = s.chip.mout) (st : Nat) :
    (s.after (e.emit .answer 0 [st] [])).mem = s.mem := mem_after hs hmout

/-- DOMAIN_LOSS_TIMEOUT of T-A (R275). -/
theorem domainLossTimeout_loses (t : Nat) (a : Nat) (s : State) (hs : ready s) (hmap : s.chip.tm.mapAt = some a)
    (hlate : a + s.chip.rg R.TMG_A_CFG_LOSS_TO 0 * secPs ≤ max s.chip.now t) (hlocked : s.chip.rg R.TMG_DOM_STAT_DSTATE 0 = 2) :
    ∃ u, exec (.domainLossTimeout t 0) s = .next u ∧ u.chip.rg R.TMG_DOM_STAT_DSTATE 0 = 3 ∧ u.chip.rg R.TMG_DOM_STAT_REF_OK 0 = 0 ∧
      u.chip.rg R.TMG_DOM_STAT_CAUSE 0 = 1 ∧ u.chip.rg R.TMG_EVT_A_LOST 0 = 1 ∧ u.mem = s.mem := by
  have hrow := domainLossTimeout_late (c := chipAt s t) hmap hlate
  obtain ⟨hstate, href, hcause, hevt⟩ := Chip.domLose_reads (c := chipAt s t) (cause := 1) (.inl rfl) (.inr hlocked) (by decide)
  obtain ⟨-, hmout, -⟩ := (Chip.domLose_evaluated (c := chipAt s t) (.inr hlocked) 1).leaves
  refine ⟨_, State.on_running s t (fun _ => domainLossTimeout 0) hs.1, ?_⟩
  rw [hrow]
  exact ⟨hstate, href, hcause, hevt, mem_after hs hmout⟩

/-- PPS_IN_EDGE within the range of a second (R278). -/
theorem ppsInEdge_accepts (t : Nat) (w a : Nat) (s : State) (hs : ready s) (hvio : s.chip.tm.timeVio = true)
    (hwidth : s.chip.rg R.TMG_B_PPS_MINW 0 ≤ w) (hstuck : s.chip.rg R.TMG_PPSIN_STAT_STUCK 0 = 0) (hat : s.chip.tm.ppsAt = some a)
    (hfresh : s.chip.tm.ppsFresh = false) (hearly : a + 900 * msPs ≤ max s.chip.now t) (hlate : max s.chip.now t ≤ a + 1100 * msPs)
    (hnamed : s.chip.tm.ppsEdge = none) :
    ∃ u, exec (.ppsInEdge t w) s = .next u ∧ u.chip.tm.ppsAt = some (max s.chip.now t) ∧
      u.chip.tm.ppsEdge = some ((chipAt s t).dNow 1 - s.chip.rs R.TMG_B_PPS_DELAY 0 * 65536) ∧ u.chip.tm.ppsMiss = 0 ∧
      u.chip.rg R.TMG_PPSIN_STAT_PRESENT 0 = 1 ∧ u.chip.counter C.TMG_PPS_EDGES 0 = (s.chip.counter C.TMG_PPS_EDGES 0 + 1) % 2 ^ 48 ∧
      regsKept s u [R.TMG_PPSIN_STAT_PRESENT.key 0] ∧ u.mem = s.mem := by
  have hbounce : a + msPs ≤ max s.chip.now t := by unfold msPs at *; omega
  have hrow : ppsInEdge w (chipAt s t) = (chipAt s t).edgeTaken := by
    rw [ppsInEdge_seen (c := chipAt s t) hvio hwidth hstuck hat hfresh hbounce, Chip.tick_now, if_neg (Nat.not_lt.mpr hearly), if_pos hlate,
      Chip.ppsAccept_named (c := chipAt s t) hnamed]
  refine ⟨_, State.on_running s t (fun _ => ppsInEdge w) hs.1, ?_⟩
  rw [hrow]
  exact ⟨rfl, rfl, rfl, Chip.rg_wg_same .., Chip.counter_incBy_same .., fun g j hg => Chip.rg_wg_listed hg _ (by decide) 1, mem_after hs rfl⟩

/-- PPS_IN_EDGE that comes too early (R278). -/
theorem ppsInEdge_spurious (t : Nat) (w a : Nat) (s : State) (hs : ready s) (hvio : s.chip.tm.timeVio = true)
    (hwidth : s.chip.rg R.TMG_B_PPS_MINW 0 ≤ w) (hstuck : s.chip.rg R.TMG_PPSIN_STAT_STUCK 0 = 0) (hat : s.chip.tm.ppsAt = some a)
    (hfresh : s.chip.tm.ppsFresh = false) (hbounce : a + msPs ≤ max s.chip.now t) (hearly : max s.chip.now t < a + 900 * msPs) :
    ∃ u, exec (.ppsInEdge t w) s = .next u ∧
      u.chip.counter C.TMG_PPS_SPURIOUS 0 = (s.chip.counter C.TMG_PPS_SPURIOUS 0 + 1) % 2 ^ 48 ∧ u.chip.tm = s.chip.tm ∧ regsKept s u [] ∧
      u.mem = s.mem := by
  have hrow : ppsInEdge w (chipAt s t) = (chipAt s t).inc C.TMG_PPS_SPURIOUS 0 := by
    rw [ppsInEdge_seen (c := chipAt s t) hvio hwidth hstuck hat hfresh hbounce]
    exact if_pos hearly
  refine ⟨_, State.on_running s t (fun _ => ppsInEdge w) hs.1, ?_⟩
  rw [hrow]
  exact ⟨Chip.counter_incBy_same .., rfl, fun g j _ => rfl, mem_after hs rfl⟩

/-- PPS_MISSING, for the first or second time in a row (R278). -/
theorem ppsMissing_counts (t : Nat) (a : Nat) (s : State) (hs : ready s) (hat : s.chip.tm.ppsMissAt = some a)
    (hlate : a + 1100 * msPs ≤ max s.chip.now t) (hfew : s.chip.tm.ppsMiss < 2) :
    ∃ u, exec (.ppsMissing t) s = .next u ∧
      u.chip.counter C.TMG_PPS_MISSING 0 = (s.chip.counter C.TMG_PPS_MISSING 0 + 1) % 2 ^ 48 ∧ u.chip.rg R.TMG_PPSIN_STAT_PRESENT 0 = 0 ∧
      u.chip.rg R.TMG_PPSIN_STAT_QUAL_CNT 0 = 0 ∧ u.chip.tm.ppsMiss = s.chip.tm.ppsMiss + 1 ∧ u.chip.tm.ppsFresh = true ∧
      u.chip.tm.ppsMissAt = some (max s.chip.now t) ∧ u.chip.tm.ppsAt = s.chip.tm.ppsAt ∧
      regsKept s u [R.TMG_PPSIN_STAT_PRESENT.key 0, R.TMG_PPSIN_STAT_QUAL_CNT.key 0] ∧ u.mem = s.mem := by
  have hrow : ppsMissing (chipAt s t) = (chipAt s t).edgeMissed := by
    rw [ppsMissing_late (c := chipAt s t) hat hlate, if_neg (by rw [Chip.tick_tm]; omega)]
  refine ⟨_, State.on_running s t (fun _ => ppsMissing) hs.1, ?_⟩
  rw [hrow]
  exact ⟨Chip.counter_incBy_same .., (Chip.rg_wg_other _ _ _ _ _ _ (by decide)).trans (Chip.rg_wg_same ..), Chip.rg_wg_same .., rfl, rfl, rfl,
    rfl, fun g j hg => (Chip.rg_wg_listed hg _ (by decide) 0).trans (Chip.rg_wg_listed hg _ (by decide) 0), mem_after hs rfl⟩

/-- PPS_MISSING, for the third time in a row (R278): T-B on PPS_IN loses its reference. -/
theorem ppsMissing_loses (t : Nat) (a : Nat) (s : State) (hs : ready s) (hat : s.chip.tm.ppsMissAt = some a)
    (hlate : a + 1100 * msPs ≤ max s.chip.now t) (htwo : s.chip.tm.ppsMiss = 2) (hsrc : s.chip.rg R.TMG_B_CFG_SRC 0 = 1)
    (hlocked : s.chip.rg R.TMG_DOM_STAT_DSTATE 1 = 2) :
    ∃ u, exec (.ppsMissing t) s = .next u ∧ u.chip.rg R.TMG_DOM_STAT_DSTATE 1 = 3 ∧ u.chip.rg R.TMG_DOM_STAT_CAUSE 1 = 5 ∧
      u.chip.rg R.TMG_EVT_B_LOST 0 = 1 ∧ u.mem = s.mem := by
  have hrow : ppsMissing (chipAt s t) = (chipAt s t).edgeMissed.ppsLose 5 := by
    rw [ppsMissing_late (c := chipAt s t) hat hlate, if_pos (by rw [Chip.tick_tm]; omega)]
  have hother {g : Fld} {j : Nat} (hg : g.key j ∉ [R.TMG_PPSIN_STAT_PRESENT.key 0, R.TMG_PPSIN_STAT_QUAL_CNT.key 0]) :
      (chipAt s t).edgeMissed.rg g j = s.chip.rg g j :=
    (Chip.rg_wg_listed hg _ (by decide) 0).trans (Chip.rg_wg_listed hg _ (by decide) 0)
  obtain ⟨hstate, hcause, hevt, -, -, -, hmout⟩ := Chip.ppsLose_locked (c := (chipAt s t).edgeMissed) (cause := 5)
    ((hother (by decide)).trans hsrc) ((hother (by decide)).trans hlocked) (by decide)
  refine ⟨_, State.on_running s t (fun _ => ppsMissing) hs.1, ?_⟩
  rw [hrow]
  exact ⟨hstate, hcause, hevt, mem_after hs hmout⟩

/-- PPS_STUCK while T-B is LOCKED to PPS_IN (R278). -/
theorem ppsStuck_loses (t : Nat) (s : State) (hs : ready s) (hsrc : s.chip.rg R.TMG_B_CFG_SRC 0 = 1)
    (hlocked : s.chip.rg R.TMG_DOM_STAT_DSTATE 1 = 2) :
    ∃ u, exec (.ppsStuck t) s = .next u ∧ u.chip.rg R.TMG_PPSIN_STAT_STUCK 0 = 1 ∧ u.chip.rg R.TMG_EVT_PPS_STUCK 0 = 1 ∧
      u.chip.rg R.TMG_DOM_STAT_DSTATE 1 = 3 ∧ u.chip.rg R.TMG_DOM_STAT_CAUSE 1 = 6 ∧ u.chip.rg R.TMG_PPSIN_STAT_QUAL_CNT 0 = 0 ∧
      u.mem = s.mem := by
  have hother {g : Fld} {j : Nat} (hg : g.key j ∉ [R.TMG_PPSIN_STAT_STUCK.key 0, R.TMG_EVT_PPS_STUCK.key 0]) :
      (((chipAt s t).wg R.TMG_PPSIN_STAT_STUCK 0 1).wg R.TMG_EVT_PPS_STUCK 0 1).rg g j = s.chip.rg g j :=
    (Chip.rg_wg_listed hg _ (by decide) 1).trans (Chip.rg_wg_listed hg _ (by decide) 1)
  obtain ⟨hstate, hcause, -, hqual, hregs, -, hmout⟩ := Chip.ppsLose_locked
    (c := ((chipAt s t).wg R.TMG_PPSIN_STAT_STUCK 0 1).wg R.TMG_EVT_PPS_STUCK 0 1) (cause := 6)
    ((hother (by decide)).trans hsrc) ((hother (by decide)).trans hlocked) (by decide)
  refine ⟨_, State.on_running s t (fun _ => ppsStuck) hs.1, ?_, ?_, hstate, hcause, hqual, mem_after hs hmout⟩
  · exact (hregs _ _ (by decide) (not_evalKey (by decide))).trans ((Chip.rg_wg_other _ _ _ _ _ _ (by decide)).trans (Chip.rg_wg_same ..))
  · exact (hregs _ _ (by decide) (not_evalKey (by decide))).trans (Chip.rg_wg_same ..)

/-- PPS_STUCK_RELEASE (R278). -/
theorem ppsStuckRelease_releases (t : Nat) (s : State) (hs : ready s) (hstuck : s.chip.rg R.TMG_PPSIN_STAT_STUCK 0 = 1) :
    ∃ u, exec (.ppsStuckRelease t) s = .next u ∧ u.chip.rg R.TMG_PPSIN_STAT_STUCK 0 = 0 ∧ u.chip.tm.ppsFresh = true ∧
      kept s u [R.TMG_PPSIN_STAT_STUCK.key 0] := by
  have hrow : ppsStuckRelease (chipAt s t) = { (chipAt s t).wg R.TMG_PPSIN_STAT_STUCK 0 0 with tm.ppsFresh := true } :=
    if_pos (Chip.rb_true hstuck)
  refine ⟨_, State.on_running s t (fun _ => ppsStuckRelease) hs.1, ?_⟩
  rw [hrow]
  exact ⟨Chip.rg_wg_same .., rfl, kept_after_one hs (fun g j hg => Chip.rg_wg_other _ _ _ _ _ _ hg.symm) rfl rfl rfl⟩

/-- TOD_RX_MSG that names its edge, with T-B LOST on PPS_IN and edges to go (R277, R279, R294). -/
theorem todRxMsg_leap (t : Nat) (w : List (Nat × Byte)) (b : List Byte) (a : Nat) (e : Int) (s : State) (hs : ready s)
    (hfind : b = todFind (todStretch w)) (hlen : b.length = 24) (hver : byteAt b 2 = 1) (hcrc : crc16 (b.take 22) = beAt b 22 2)
    (hvalid : bit (byteAt b 3) 0 = true) (hat : s.chip.tm.ppsAt = some a) (hedge : s.chip.tm.ppsEdge = some e)
    (hearly : a + 10 * msPs ≤ max s.chip.now t) (hlate : max s.chip.now t ≤ a + 900 * msPs) (hfreq : s.chip.rg R.TMG_B_CFG_FREQ_IN_EN 0 = 0)
    (hqual : s.chip.rg R.TMG_PPSIN_STAT_QUAL_CNT 0 < 15) (hsrc : s.chip.rg R.TMG_B_CFG_SRC 0 = 1)
    (hfew : s.chip.rg R.TMG_PPSIN_STAT_QUAL_CNT 0 + 1 < s.chip.rg R.TMG_B_CFG_QUAL 0) (hlost : s.chip.rg R.TMG_DOM_STAT_DSTATE 1 = 3)
    (hutc : s.chip.rg R.TMG_UTC_SRC 0 = 1) :
    ∃ u, exec (.todRxMsg t w) s = .next u ∧ u.chip.counter C.TMG_TOD_RX_OK 0 = (s.chip.counter C.TMG_TOD_RX_OK 0 + 1) % 2 ^ 48 ∧
      u.chip.tm.ppsEdge = none ∧ u.chip.tm.ppsNoTod = 0 ∧ u.chip.rg R.TMG_PPSIN_STAT_TOD_OK 0 = 1 ∧
      u.chip.rg R.TMG_PPSIN_STAT_QUAL_CNT 0 = s.chip.rg R.TMG_PPSIN_STAT_QUAL_CNT 0 + 1 ∧ u.chip.rg R.TMG_UTC_OFFSET 0 = beAt b 10 2 ∧
      u.chip.rg R.TMG_UTC_PENDING 0 = b2n (bit (byteAt b 3) 1) ∧ u.chip.rg R.TMG_UTC_DIR 0 = b2n (bit (byteAt b 3) 2) ∧
      u.chip.rg R.TMG_LEAP_AT_LO_SEC 0 = beAt b 12 6 % 2 ^ 32 ∧ u.chip.rg R.TMG_LEAP_AT_HI_SEC 0 = beAt b 12 6 / 2 ^ 32 ∧ u.mem = s.mem := by
  have hleap := Chip.leapFrom_pps (c := (chipAt s t).inc C.TMG_TOD_RX_OK 0) hutc hsrc hvalid (beAt b 10 2) (beAt b 12 6)
  have hother {g : Fld} {j : Nat} := ((chipAt s t).inc C.TMG_TOD_RX_OK 0).leapTaken_rg_other (byteAt b 3) (beAt b 10 2) (beAt b 12 6) (g := g) (j := j)
  have hrow := todRxMsg_names (c := chipAt s t) hfind hlen hver hcrc hvalid hat hedge hearly hlate
  obtain ⟨hofs, hpend, hdir, hlo, hhi⟩ := ((chipAt s t).inc C.TMG_TOD_RX_OK 0).leapTaken_reads (byteAt b 3) (beAt_lt b 10 2) (beAt_lt b 12 6)
  have hcnt := hother (g := R.TMG_PPSIN_STAT_QUAL_CNT) (j := 0) (by decide)
  have hroom : (((chipAt s t).inc C.TMG_TOD_RX_OK 0).leapTaken (byteAt b 3) (beAt b 10 2) (beAt b 12 6)).rg R.TMG_PPSIN_STAT_QUAL_CNT 0 < 15 :=
    hcnt.trans_lt hqual
  rw [hleap, Chip.ppsNamed_qualifies ((hother (by decide)).trans hfreq), Chip.edgeMeasured_lost _
    ((Chip.edgeNamed_rg_other _ (by decide)).trans ((hother (by decide)).trans hlost)), ite_self] at hrow
  · obtain ⟨htod, hcount⟩ := Chip.edgeNamed_reads hroom
    refine ⟨_, State.on_running s t (fun _ => todRxMsg w) hs.1, ?_⟩
    rw [hrow]
    exact ⟨Chip.counter_incBy_same .., rfl, rfl, htod, hcount.trans (congrArg (· + 1) hcnt), (Chip.edgeNamed_rg_other _ (by decide)).trans hofs,
      (Chip.edgeNamed_rg_other _ (by decide)).trans hpend, (Chip.edgeNamed_rg_other _ (by decide)).trans hdir,
      (Chip.edgeNamed_rg_other _ (by decide)).trans hlo, (Chip.edgeNamed_rg_other _ (by decide)).trans hhi, mem_after hs rfl⟩
  · rw [(Chip.edgeNamed_reads hroom).2, Chip.edgeNamed_rg_other _ (by decide), hcnt, hother (by decide)]
    exact hfew

/-- TOD_RX_MSG that names its edge, with T-B on another source (R277, R279). -/
theorem todRxMsg_qualifies (t : Nat) (w : List (Nat × Byte)) (b : List Byte) (a : Nat) (e : Int) (s : State) (hs : ready s)
    (hfind : b = todFind (todStretch w)) (hlen : b.length = 24) (hver : byteAt b 2 = 1) (hcrc : crc16 (b.take 22) = beAt b 22 2)
    (hvalid : bit (byteAt b 3) 0 = true) (hat : s.chip.tm.ppsAt = some a) (hedge : s.chip.tm.ppsEdge = some e)
    (hearly : a + 10 * msPs ≤ max s.chip.now t) (hlate : max s.chip.now t ≤ a + 900 * msPs) (hfreq : s.chip.rg R.TMG_B_CFG_FREQ_IN_EN 0 = 0)
    (hqual : s.chip.rg R.TMG_PPSIN_STAT_QUAL_CNT 0 < 15) (hsrc : s.chip.rg R.TMG_B_CFG_SRC 0 ≠ 1) :
    ∃ u, exec (.todRxMsg t w) s = .next u ∧ u.chip.counter C.TMG_TOD_RX_OK 0 = (s.chip.counter C.TMG_TOD_RX_OK 0 + 1) % 2 ^ 48 ∧
      u.chip.tm.ppsEdge = none ∧ u.chip.tm.ppsNoTod = 0 ∧ u.chip.rg R.TMG_PPSIN_STAT_TOD_OK 0 = 1 ∧
      u.chip.rg R.TMG_PPSIN_STAT_QUAL_CNT 0 = s.chip.rg R.TMG_PPSIN_STAT_QUAL_CNT 0 + 1 ∧
      regsKept s u [R.TMG_PPSIN_STAT_TOD_OK.key 0, R.TMG_PPSIN_STAT_QUAL_CNT.key 0] ∧ u.mem = s.mem := by
  have hrow := todRxMsg_names (c := chipAt s t) hfind hlen hver hcrc hvalid hat hedge hearly hlate
  have hpps : ¬ ((chipAt s t).inc C.TMG_TOD_RX_OK 0).edgeNamed.bPps = true := fun h =>
    hsrc ((Chip.edgeNamed_rg_other _ (by decide)).symm.trans (of_decide_eq_true h))
  rw [Chip.leapFrom_other (c := (chipAt s t).inc C.TMG_TOD_RX_OK 0) hsrc, Chip.ppsNamed_qualifies (c := (chipAt s t).inc C.TMG_TOD_RX_OK 0) hfreq, if_neg hpps] at hrow
  obtain ⟨htod, hcount⟩ := Chip.edgeNamed_reads (c := (chipAt s t).inc C.TMG_TOD_RX_OK 0) hqual
  refine ⟨_, State.on_running s t (fun _ => todRxMsg w) hs.1, ?_⟩
  rw [hrow]
  exact ⟨Chip.counter_incBy_same .., rfl, rfl, htod, hcount, fun g j hg => Chip.edgeNamed_rg_other _ hg, mem_after hs rfl⟩

/-- TOD_RX_MSG with a wrong check (R279). -/
theorem todRxMsg_errs (t : Nat) (w : List (Nat × Byte)) (b : List Byte) (s : State) (hs : ready s) (hfind : b = todFind (todStretch w))
    (hlen : b.length = 24) (hcrc : crc16 (b.take 22) ≠ beAt b 22 2) :
    ∃ u, exec (.todRxMsg t w) s = .next u ∧ u.chip.counter C.TMG_TOD_RX_ERR 0 = (s.chip.counter C.TMG_TOD_RX_ERR 0 + 1) % 2 ^ 48 ∧
      u.chip.tm = s.chip.tm ∧ regsKept s u [] ∧ u.mem = s.mem := by
  refine ⟨_, State.on_running s t (fun _ => todRxMsg w) hs.1, ?_⟩
  rw [todRxMsg_badCrc hfind hlen hcrc]
  exact ⟨Chip.counter_incBy_same .., rfl, fun g j _ => rfl, mem_after hs rfl⟩

/-- TOD_RX_MSG whose search finds no whole message (R279). -/
theorem todRxMsg_none (t : Nat) (w : List (Nat × Byte)) (s : State) (hs : ready s) (hlen : (todFind (todStretch w)).length ≠ 24) :
    ∃ u, exec (.todRxMsg t w) s = .next u ∧ u.chip.tm = s.chip.tm ∧ kept s u [] := by
  have hrow : todRxMsg w (chipAt s t) = chipAt s t := if_pos hlen
  refine ⟨_, State.on_running s t (fun _ => todRxMsg w) hs.1, ?_⟩
  rw [hrow]
  exact ⟨rfl, kept_after hs rfl rfl rfl rfl⟩

/-- FREQ_IN_MEASURE within 2 ppm, good for a second (R280). -/
theorem freqInMeasure_good (t : Nat) (ppb : Int) (a : Nat) (s : State) (hs : ready s) (hppb : absI ppb ≤ 2000)
    (hgood : s.chip.tm.freqGood = some a) (hlong : a + secPs ≤ max s.chip.now t) :
    ∃ u, exec (.freqInMeasure t ppb) s = .next u ∧ u.chip.rg R.TMG_PPSIN_STAT_FREQ_OK 0 = 1 ∧ u.chip.tm = s.chip.tm ∧
      kept s u [R.TMG_PPSIN_STAT_FREQ_OK.key 0] := by
  have hrow : freqInMeasure ppb (chipAt s t) = (chipAt s t).wg R.TMG_PPSIN_STAT_FREQ_OK 0 1 := by
    rw [freqInMeasure, if_pos hppb, Chip.tick_tm, hgood]
    exact if_pos hlong
  refine ⟨_, State.on_running s t (fun _ => freqInMeasure ppb) hs.1, ?_⟩
  rw [hrow]
  exact ⟨Chip.rg_wg_same .., rfl, kept_after_one hs (fun g j hg => Chip.rg_wg_other _ _ _ _ _ _ hg.symm) rfl rfl rfl⟩

/-- FREQ_IN_MEASURE beyond 2 ppm, with T-B LOCKED to PPS_IN and FREQ_IN (R280). -/
theorem freqInMeasure_loses (t : Nat) (ppb : Int) (s : State) (hs : ready s) (hppb : 2000 < absI ppb)
    (hok : s.chip.rg R.TMG_PPSIN_STAT_FREQ_OK 0 = 1) (hen : s.chip.rg R.TMG_B_CFG_FREQ_IN_EN 0 = 1) (hsrc : s.chip.rg R.TMG_B_CFG_SRC 0 = 1)
    (hlocked : s.chip.rg R.TMG_DOM_STAT_DSTATE 1 = 2) :
    ∃ u, exec (.freqInMeasure t ppb) s = .next u ∧ u.chip.rg R.TMG_PPSIN_STAT_FREQ_OK 0 = 0 ∧
      u.chip.counter C.TMG_FREQIN_LOST 0 = (s.chip.counter C.TMG_FREQIN_LOST 0 + 1) % 2 ^ 48 ∧ u.chip.rg R.TMG_DOM_STAT_DSTATE 1 = 3 ∧
      u.chip.rg R.TMG_DOM_STAT_CAUSE 1 = 8 := by
  have hrow : freqInMeasure ppb (chipAt s t) = (chipAt s t).freqGone.ppsLose 8 := by
    rw [freqInMeasure, if_neg (Nat.not_le.mpr hppb), Chip.freqLost_ok (c := chipAt s t) hok, Chip.rb_true (c := chipAt s t) hen, if_pos rfl]
  obtain ⟨hstate, hcause, -, -, hregs, hcounter, -⟩ := Chip.ppsLose_locked (c := (chipAt s t).freqGone) (cause := 8)
    ((Chip.rg_wg_other _ _ _ _ _ _ (by decide)).trans hsrc) ((Chip.rg_wg_other _ _ _ _ _ _ (by decide)).trans hlocked) (by decide)
  refine ⟨_, State.on_running s t (fun _ => freqInMeasure ppb) hs.1, ?_⟩
  rw [hrow]
  exact ⟨(hregs _ _ (by decide) (not_evalKey (by decide))).trans (Chip.rg_wg_same ..),
    (hcounter _ _ (by decide)).trans (Chip.counter_incBy_same ..), hstate, hcause⟩

/-- FREQ_IN_EDGE_LOSS with FREQ_IN not in use (R280). -/
theorem freqInEdgeLoss_unused (t : Nat) (s : State) (hs : ready s) (hok : s.chip.rg R.TMG_PPSIN_STAT_FREQ_OK 0 = 1)
    (hen : s.chip.rg R.TMG_B_CFG_FREQ_IN_EN 0 = 0) :
    ∃ u, exec (.freqInEdgeLoss t) s = .next u ∧ u.chip.rg R.TMG_PPSIN_STAT_FREQ_OK 0 = 0 ∧
      u.chip.counter C.TMG_FREQIN_LOST 0 = (s.chip.counter C.TMG_FREQIN_LOST 0 + 1) % 2 ^ 48 ∧ u.chip.tm.freqGood = none ∧
      regsKept s u [R.TMG_PPSIN_STAT_FREQ_OK.key 0] ∧ u.mem = s.mem := by
  have hoff : (chipAt s t).rb R.TMG_B_CFG_FREQ_IN_EN 0 = false := Chip.rb_false (by rw [Chip.rg_tick, hen]; decide)
  have hrow : (chipAt s t).freqLost = (chipAt s t).freqGone := by
    rw [Chip.freqLost_ok (c := chipAt s t) hok, hoff]
    rfl
  refine ⟨_, State.on_running s t (fun _ c => c.freqLost) hs.1, ?_⟩
  rw [hrow]
  exact ⟨Chip.rg_wg_same .., Chip.counter_incBy_same .., rfl, fun g j hg => Chip.rg_wg_listed hg _ (by decide) 0, mem_after hs rfl⟩

/-- FREQIN_INTEGRAL_UPDATE in LOCKED (R280). -/
theorem freqinIntegralUpdate_moves (t : Nat) (phase : Int) (s : State) (hs : ready s) (hsrc : s.chip.rg R.TMG_B_CFG_SRC 0 = 1)
    (hen : s.chip.rg R.TMG_B_CFG_FREQ_IN_EN 0 = 1) (hok : s.chip.rg R.TMG_PPSIN_STAT_FREQ_OK 0 = 1)
    (hlocked : s.chip.rg R.TMG_DOM_STAT_DSTATE 1 = 2) :
    ∃ u, exec (.freqinIntegralUpdate t phase) s = .next u ∧
      u.chip.tm.domB.integ = clampI (s.chip.tm.domB.integ +
        servoI (servoWn (s.chip.servoBw 1 msPs).1) ((phase + 50 * 65536) % (100 * 65536) - 50 * 65536) msPs) servoMax ∧
      u.chip.tm.domB.lastAt = s.chip.tm.domB.lastAt ∧ u.chip.tm.y0 = s.chip.tm.y0 ∧ kept s u [R.TMG_DOM_FREQ_S.key 1] := by
  refine ⟨_, State.on_running s t (fun _ => freqinIntegralUpdate phase) hs.1, ?_⟩
  rw [freqinIntegralUpdate_locked (c := chipAt s t) hsrc hen hok hlocked]
  exact ⟨rfl, rfl, rfl, kept_after_one hs (fun g j hg => Chip.rg_wg_other _ _ _ _ _ _ hg.symm) rfl rfl rfl⟩

/-- B_MEAS_WRITE of a core, with T-B LOCKED to PTP (R281). -/
theorem bMeasWrite_measures (t : Nat) (ofs : Int) (s : State) (hs : ready s) (hd : s.chip.domOn 1 = true)
    (hsrc : s.chip.rg R.TMG_B_CFG_SRC 0 = 2) (hlocked : s.chip.rg R.TMG_DOM_STAT_DSTATE 1 = 2) :
    ∃ u, exec (.bMeasWrite t true false ofs) s = .next u ∧ answered u stOk ∧
      u.chip.counter C.TMG_B_MEAS 0 = (s.chip.counter C.TMG_B_MEAS 0 + 1) % 2 ^ 48 ∧ u.chip.tm.domB.lastAt = some (max s.chip.now t) ∧
      u.mem = s.mem := by
  obtain ⟨sec, run, theta, hrow⟩ := bMeasWrite_locked (c := chipAt s t) hsrc hlocked ofs
  obtain ⟨-, hmout, hlast, hcount⟩ := Chip.measure_locked (c := (chipAt s t).runNoted sec run) hlocked theta
  refine ⟨_, on_answeredIn (f := bMeasWrite true false ofs) hs hd hrow, rfl, ?_, ?_, mem_answered hs hmout stOk⟩
  · rw [State.after_chip, Chip.counter_done, Chip.counter_emit]
    exact hcount
  · rw [State.after_chip, Chip.done_tm, Chip.emit_tm]
    exact hlast

/-- B_MEAS_WRITE of a core that tells of the loss of the master (R281). -/
theorem bMeasWrite_invalid (t : Nat) (ofs : Int) (s : State) (hs : ready s) (hd : s.chip.domOn 1 = true)
    (hsrc : s.chip.rg R.TMG_B_CFG_SRC 0 = 2) (hlocked : s.chip.rg R.TMG_DOM_STAT_DSTATE 1 = 2) :
    ∃ u, exec (.bMeasWrite t true true ofs) s = .next u ∧ answered u stOk ∧ u.chip.rg R.TMG_DOM_STAT_DSTATE 1 = 3 ∧
      u.chip.rg R.TMG_DOM_STAT_CAUSE 1 = 9 ∧ u.chip.tm.bRun = 0 ∧ u.mem = s.mem := by
  have hvalid : ({ chipAt s t with tm.bRun := 0 } : Chip).dstate 1 = 1 ∨ ({ chipAt s t with tm.bRun := 0 } : Chip).dstate 1 = 2 := .inr hlocked
  obtain ⟨hstate, -, hcause, -⟩ := Chip.domLose_reads (cause := 9) (.inr rfl) hvalid (by decide)
  obtain ⟨-, hmout, hrun, -⟩ := (Chip.domLose_evaluated hvalid 9).leaves
  refine ⟨_, on_answeredIn (f := bMeasWrite true true ofs) hs hd (bMeasWrite_lost (c := chipAt s t) hsrc ofs), rfl, ?_, ?_, ?_, mem_answered hs hmout stOk⟩
  · exact (rg_answered ..).trans hstate
  · exact (rg_answered ..).trans hcause
  · rw [State.after_chip, Chip.done_tm, Chip.emit_tm]
    exact hrun

/-- B_MEAS_WRITE of the host (R281). -/
theorem bMeasWrite_refused (t : Nat) (inv : Bool) (ofs : Int) (s : State) (hs : ready s) (hd : s.chip.domOn 1 = true) :
    ∃ u, exec (.bMeasWrite t false inv ofs) s = .next u ∧ answered u stRefused ∧ u.chip.tm = s.chip.tm ∧ kept s u [] :=
  ⟨_, on_answeredIn (f := bMeasWrite false inv ofs) hs hd rfl, rfl, rfl, kept_after hs rfl rfl rfl rfl⟩

/-- TIME_VIO leaves its ranges, with T-B on another source than PPS_IN (R442). -/
theorem timeVioOutOfRange_leaves (t : Nat) (s : State) (hs : ready s) (hsrc : s.chip.rg R.TMG_B_CFG_SRC 0 ≠ 1) :
    ∃ u, exec (.timeVioOutOfRange t false) s = .next u ∧ u.chip.tm.timeVio = false ∧ u.chip.rg R.TMG_PPSIN_STAT_PRESENT 0 = 0 ∧
      u.chip.rg R.TMG_PPSIN_STAT_QUAL_CNT 0 = 0 ∧ kept s u [R.TMG_PPSIN_STAT_PRESENT.key 0, R.TMG_PPSIN_STAT_QUAL_CNT.key 0] := by
  have hother : ({ chipAt s t with tm.timeVio := false }.wg R.TMG_PPSIN_STAT_PRESENT 0 0).rg R.TMG_B_CFG_SRC 0 ≠ 1 :=
    (Chip.rg_wg_other _ _ _ _ _ _ (by decide)).trans_ne hsrc
  have hrow : timeVioChange false (chipAt s t) =
      ({ chipAt s t with tm.timeVio := false }.wg R.TMG_PPSIN_STAT_PRESENT 0 0).wg R.TMG_PPSIN_STAT_QUAL_CNT 0 0 :=
    Chip.ppsLose_other hother 5
  refine ⟨_, State.on_running s t (fun _ => timeVioChange false) hs.1, ?_⟩
  rw [hrow]
  exact ⟨rfl, (Chip.rg_wg_other _ _ _ _ _ _ (by decide)).trans (Chip.rg_wg_same ..), Chip.rg_wg_same ..,
    kept_after_but hs (fun g j hg => (Chip.rg_wg_listed hg _ (by decide) 0).trans (Chip.rg_wg_listed hg _ (by decide) 0)) rfl rfl rfl⟩

/-- TIME_VIO returns (R442). -/
theorem timeVioOutOfRange_returns (t : Nat) (s : State) (hs : ready s) :
    ∃ u, exec (.timeVioOutOfRange t true) s = .next u ∧ u.chip.tm.timeVio = true ∧ u.chip.tm.ppsFresh = true ∧ kept s u [] :=
  ⟨_, State.on_running s t (fun _ => timeVioChange true) hs.1, rfl, rfl, kept_after hs rfl rfl rfl rfl⟩

/-- Settles O19, command by command: a loss ends in the evaluation of selection, state and class, which leaves what the statement names. -/
theorem timeDomainCommands : Obligations.TimeDomainCommands :=
  ⟨domainLossTimeout_loses, ppsInEdge_accepts, ppsInEdge_spurious, ppsMissing_counts, ppsMissing_loses, ppsStuck_loses,
    ppsStuckRelease_releases, todRxMsg_leap, todRxMsg_qualifies, todRxMsg_errs, todRxMsg_none, freqInMeasure_good, freqInMeasure_loses,
    freqInEdgeLoss_unused, freqinIntegralUpdate_moves, bMeasWrite_measures, bMeasWrite_invalid, bMeasWrite_refused, timeVioOutOfRange_leaves,
    timeVioOutOfRange_returns⟩

end Sys2Proof.Safety
end

section
/-! PROOFS. Selection, steer, steps and the resonators (09_time_and_sync.md R265, R271, R282 to R285, R288, R291, R293, R294): what their
functions leave of the chip. -/

namespace Sys2Proof.Machine

open Sys2Proof Sys2Proof.Safety

/-! ## Selection (R282) -/

/-- The registers in front of those of the domains. -/
theorem not_evalKey_below {k : Nat} (h : k ∉ evalFields ∧ k < R.TMG_DOM_FREQ_S.key 0) : ¬ evalKey k := by
  rintro (hk | ⟨d, rfl⟩)
  · exact h.1 hk
  · have hlow := h.2
    simp only [Fld.key] at hlow
    omega

/-- The chip with the fields of a legal write of TMG_SEL_CFG. -/
def Chip.selConfigured (c : Chip) (v : Nat) : Chip :=
  (((c.wg R.TMG_SEL_CFG_MODE 0 (bits v 0 2)).wg R.TMG_SEL_CFG_PREF 0 (bits v 2 1)).wg R.TMG_SEL_CFG_WTR 0 (bits v 4 12)).wg
    R.TMG_SEL_CFG_EVT_EN 0 (bits v 16 1)

theorem Chip.selConfigured_reads (c : Chip) (v : Nat) :
    (c.selConfigured v).rg R.TMG_SEL_CFG_MODE 0 = bits v 0 2 ∧ (c.selConfigured v).rg R.TMG_SEL_CFG_PREF 0 = bits v 2 1 ∧
      (c.selConfigured v).rg R.TMG_SEL_CFG_WTR 0 = bits v 4 12 ∧ (c.selConfigured v).rg R.TMG_SEL_CFG_EVT_EN 0 = bits v 16 1 := by
  unfold Chip.selConfigured
  simp (disch := decide) only [Chip.rg_wg_other, Chip.rg_wg_same]
  exact ⟨bits_mod .., bits_mod .., bits_mod .., bits_mod ..⟩

/-- Such a write is acted on at once. -/
theorem selCfgWrite_evaluated (c : Chip) {v : Nat} (hmode : bits v 0 2 ≠ 3) (hwtr : bits v 4 12 ≤ 3600) :
    (c.selConfigured v).Evaluated (selCfgWrite v c) := by
  unfold selCfgWrite
  dsimp only
  rw [if_neg (by omega)]
  exact (Chip.Evaluated.ite (Chip.Evaluated.refl _).tm (.refl _)).trans (Chip.timeEval_evaluated _)

/-! ## The fields of TMG_STAT that follow the state (R286, R287) -/

/-- The fields that a new state, class or QL writes. -/
def statFields : List Nat :=
  [R.TMG_STAT_STATE.key 0, R.TMG_EVT_STATE_CHG.key 0, R.TMG_STAT_CLASS.key 0, R.TMG_STAT_QL.key 0]

/-- What is read of a chip without those fields and the owed ESMC PDUs: a new VIGIL alone may change it. -/
theorem Chip.timeStat_read {α : Type} {f : Chip → α} (hwrite : ∀ (d : Chip) (g : Fld) (v : Nat), g.key 0 ∈ statFields → f (d.wg g 0 v) = f d)
    (hdue : ∀ (d : Chip) (x : Nat), f { d with tm.esmcDue := x } = f d) (c : Chip) :
    f c.timeStat = f (if c.timeState = 3 ∧ c.rg R.TMG_STAT_STATE 0 ≠ 3 then c.vigilEnter else c) := by
  unfold Chip.timeStat
  dsimp only
  rw [hwrite _ _ _ (by decide), hwrite _ _ _ (by decide)]
  have hstate := read_ite f (p := c.timeState ≠ c.rg R.TMG_STAT_STATE 0)
    ((hwrite _ R.TMG_EVT_STATE_CHG 1 (by decide)).trans
      (hwrite (if c.timeState = 3 ∧ c.rg R.TMG_STAT_STATE 0 ≠ 3 then c.vigilEnter else c) R.TMG_STAT_STATE c.timeState (by decide))) rfl
  exact read_ite f ((hdue _ _).trans hstate) hstate

/-- The same where a VIGIL does not change it either. -/
theorem Chip.timeStat_read_blind {α : Type} {f : Chip → α}
    (hwrite : ∀ (d : Chip) (g : Fld) (v : Nat), g.key 0 ∈ statFields → f (d.wg g 0 v) = f d)
    (hdue : ∀ (d : Chip) (x : Nat), f { d with tm.esmcDue := x } = f d) {c : Chip} (hvigil : f c.vigilEnter = f c) : f c.timeStat = f c :=
  (Chip.timeStat_read hwrite hdue c).trans (read_ite f hvigil rfl)

/-- The fields that a VIGIL which begins writes. -/
def vigilFields : List Nat := [R.TMG_VIG_TIME_SEC.key 0, R.TMG_VIG_EST_EST.key 0, R.TMG_STAT_EQX_ACTIVE.key 0]

theorem Chip.vigilEnter_rg {g : Fld} {j : Nat} (h : g.key j ∉ vigilFields) (c : Chip) : c.vigilEnter.rg g j = c.rg g j := by
  unfold Chip.vigilEnter
  dsimp only
  rw [Chip.wb_eq, Chip.rg_wg_listed h _ (by decide), Chip.rg_wg_listed h _ (by decide), Chip.rg_wg_listed h _ (by decide)]
  rfl

/-- The rows of a field outside those of the state and of VIGIL. -/
theorem Chip.timeStat_rg {g : Fld} {j : Nat} (hstat : g.key j ∉ statFields) (hvigil : g.key j ∉ vigilFields) (c : Chip) :
    c.timeStat.rg g j = c.rg g j :=
  Chip.timeStat_read_blind (f := fun d => d.rg g j) (fun d _ v hk => Chip.rg_wg_listed hstat d hk v) (fun _ _ => rfl) (Chip.vigilEnter_rg hvigil c)

/-- The initial set writes OUT_VALID and a domain's rate. -/
theorem Chip.initialSet_rg {g : Fld} {j : Nat} (hvalid : R.TMG_STAT_OUT_VALID.key 0 ≠ g.key j)
    (hrate : g.key j % (32 * 0x20) ≠ R.TMG_DOM_FREQ_S.key 0 % (32 * 0x20)) (c : Chip) : c.initialSet.rg g j = c.rg g j := by
  have hfreq (d : Nat) : R.TMG_DOM_FREQ_S.key d ≠ g.key j := fun e => hrate (by
    rw [← e]
    simp only [Fld.key, R.TMG_DOM_FREQ_S]
    omega)
  refine read_ite (fun d : Chip => d.rg g j) ?_ rfl
  dsimp only
  rw [Chip.wb_eq, Chip.rg_wg_other _ _ _ _ _ _ hvalid, Chip.domFreq, Chip.ws_eq, Chip.rg_wg_other _ _ _ _ _ _ (hfreq _), Chip.setDom]
  exact read_ite (fun d : Chip => d.rg g j) rfl rfl

theorem Chip.setDom_away (c : Chip) (n : Nat) (x : Dom) : (c.setDom n x).tm.away = c.tm.away := read_ite (fun d : Chip => d.tm.away) rfl rfl

theorem Chip.initialSet_away (c : Chip) : c.initialSet.tm.away = c.tm.away :=
  read_ite (fun d : Chip => d.tm.away) (Chip.setDom_away _ _ _) rfl

theorem Chip.timeStat_away (c : Chip) : c.timeStat.tm.away = c.tm.away :=
  Chip.timeStat_read_blind (f := fun d => d.tm.away) (fun _ _ _ _ => rfl) (fun _ _ => rfl) rfl

theorem Chip.selectable_B {c : Chip} (h : c.rg R.TMG_DOM_STAT_DSTATE 1 = 2) : c.selectable 1 = true := by
  rw [Chip.selectable, Chip.dstate, h]
  rfl

/-- Selection stays where it is while the preferred domain is selected and may be. -/
theorem Chip.reselect_preferred {c : Chip} (hmode : c.rg R.TMG_SEL_CFG_MODE 0 = 0) (hpref : c.rg R.TMG_SEL_CFG_PREF 0 = 1)
    (hsel : c.rg R.TMG_STAT_SEL 0 = 1) (hb : c.rg R.TMG_DOM_STAT_DSTATE 1 = 2) : c.reselect = { c with tm.away := false } := by
  unfold Chip.reselect
  dsimp only
  rw [hmode, hpref, if_neg (by decide), if_neg (by decide), if_pos (Chip.selectable_B hb)]
  exact if_pos hsel

/-- A move of the selection, read where an Equinox that starts changes nothing. -/
theorem Chip.select_read {α : Type} {f : Chip → α}
    (heqx : ∀ d : Chip, f { (d.wb R.TMG_STAT_EQX_ACTIVE 0 true).inc C.TMG_EQUINOX 0 with tm.eqxLarge := false } = f d)
    {c : Chip} {d : Nat} (h : c.selDom ≠ d) : f (c.select d) = f ((c.clk.wg R.TMG_STAT_SEL 0 d).wg R.TMG_EVT_SEL_CHG 0 1) := by
  unfold Chip.select
  rw [if_neg h]
  exact read_ite f (heqx _) rfl

theorem Chip.select_B {c : Chip} (h : c.rg R.TMG_STAT_SEL 0 = 0) :
    (c.select 1).rg R.TMG_STAT_SEL 0 = 1 ∧ (c.select 1).rg R.TMG_EVT_SEL_CHG 0 = 1 := by
  have hne : c.selDom ≠ 1 := by rw [Chip.selDom, h]; decide
  have hread {g : Fld} (hg : R.TMG_STAT_EQX_ACTIVE.key 0 ≠ g.key 0) :=
    Chip.select_read (f := fun d => d.rg g 0) (fun d => Chip.rg_wg_other d _ _ _ _ _ hg) hne
  exact ⟨(hread (by decide)).trans ((Chip.rg_wg_other _ _ _ _ _ _ (by decide)).trans (Chip.rg_wg_same ..)),
    (hread (by decide)).trans (Chip.rg_wg_same ..)⟩

/-- The chip with the selection moved back to T-B. -/
def Chip.returnedB (c : Chip) : Chip := { c.select 1 with tm.away := false }

theorem selWtrExpire_returns {c : Chip} (hmode : c.rg R.TMG_SEL_CFG_MODE 0 = 0) (haway : c.tm.away = true) (hpref : c.rg R.TMG_SEL_CFG_PREF 0 = 1)
    (hb : c.rg R.TMG_DOM_STAT_DSTATE 1 = 2) (hwtr : c.rg R.TMG_SEL_CFG_WTR 0 ≠ 0)
    (hlate : (c.dom 1).lockedAt + c.rg R.TMG_SEL_CFG_WTR 0 * secPs ≤ c.now) : selWtrExpire c = c.returnedB.timeEval := by
  unfold selWtrExpire
  dsimp only
  rw [hpref, if_pos ⟨hmode, haway, Chip.selectable_B hb, hwtr, hlate⟩]
  rfl

/-- The evaluation after that move leaves the selection on T-B. -/
theorem Chip.returnedB_timeEval {c : Chip} (hmode : c.rg R.TMG_SEL_CFG_MODE 0 = 0) (hpref : c.rg R.TMG_SEL_CFG_PREF 0 = 1)
    (hsel : c.rg R.TMG_STAT_SEL 0 = 0) (hb : c.rg R.TMG_DOM_STAT_DSTATE 1 = 2) :
    c.returnedB.timeEval.rg R.TMG_STAT_SEL 0 = 1 ∧ c.returnedB.timeEval.rg R.TMG_EVT_SEL_CHG 0 = 1 ∧ c.returnedB.timeEval.tm.away = false := by
  have hmoved : c.Evaluated c.returnedB := c.selectAway_evaluated 1 false
  obtain ⟨hone, hevt⟩ := Chip.select_B hsel
  have hre : c.returnedB.reselect = { c.returnedB with tm.away := false } := Chip.reselect_preferred
    ((hmoved.rg _ _ (not_evalKey_below (by decide))).trans hmode) ((hmoved.rg _ _ (not_evalKey_below (by decide))).trans hpref) hone
    ((hmoved.rg _ _ (not_evalKey (by decide))).trans hb)
  rw [Chip.timeEval, hre]
  exact ⟨(Chip.timeStat_rg (by decide) (by decide) _).trans ((Chip.initialSet_rg (by decide) (by decide) _).trans hone),
    (Chip.timeStat_rg (by decide) (by decide) _).trans ((Chip.initialSet_rg (by decide) (by decide) _).trans hevt),
    (Chip.timeStat_away _).trans (Chip.initialSet_away _)⟩

/-! ## Learning and the Equinox (R271, R285) -/

theorem Chip.Evaluated.draw {c d : Chip} (h : c.Evaluated d) : c.Evaluated d.draw.2 := ⟨h.rg, h.counter, h.measured⟩

/-- The chip with a span of learning that has passed closed. -/
def Chip.learnSpan (c : Chip) : Chip :=
  if c.tm.learnAt + 1000 * secPs ≤ c.now then { c with tm.learnAt := c.now, tm.learned := 0 } else c

/-- The chip with what B and a domain have taken over. -/
def Chip.learnt (c : Chip) (y learned : Int) (d : Nat) (x : Dom) : Chip := ({ c with tm.y0 := y, tm.learned := learned }.setDom d x).domFreq d

/-- What a domain's integral gives to B, in a span that is open. -/
def Chip.learnStep (c : Chip) (d : Nat) : Chip :=
  have x := c.dom d
  have room := min (absI x.integ) (learnMax - absI c.tm.learned)
  have fr := c.draw
  have c := fr.2
  let mv : Int := ((fr.1 % (room + 1) : Nat) : Int)
  have mv := if x.integ < 0 then -mv else mv
  c.learnt (c.tm.y0 - mv) (c.tm.learned + ((absI mv : Nat) : Int)) d { x with integ := x.integ - mv, rate := x.rate + mv }

theorem Chip.learn_eq (c : Chip) : c.learn = if c.dstate c.selDom = 2 then c.learnSpan.learnStep c.selDom else c := rfl

theorem Chip.learnt_evaluated (c : Chip) (y learned : Int) {d : Nat} {x : Dom} (hx : x.lastAt = (c.dom d).lastAt) :
    c.Evaluated (c.learnt y learned d x) := by
  have htm : c.Evaluated { c with tm.y0 := y, tm.learned := learned } := (Chip.Evaluated.refl c).tm
  exact (htm.setDom d hx).wg (.inr ⟨d, rfl⟩) _

theorem Chip.learn_evaluated (c : Chip) : c.Evaluated c.learn := by
  have hspan : c.Evaluated c.learnSpan := .ite (Chip.Evaluated.refl c).tm (.refl c)
  have hstep (d : Chip) (n : Nat) : d.Evaluated (d.learnStep n) := (Chip.Evaluated.refl d).draw.trans (Chip.learnt_evaluated _ _ _ rfl)
  rw [Chip.learn_eq]
  exact .ite (hspan.trans (hstep _ _)) (.refl c)

/-- The chip as a steer update finds it: the clocks up to date, learnt and evaluated. -/
def Chip.steerReady (c : Chip) : Chip := (c.clk.learn).timeEval

theorem Chip.steerReady_evaluated (c : Chip) : c.Evaluated c.steerReady :=
  (c.clk_evaluated.trans (Chip.learn_evaluated _)).trans (Chip.timeEval_evaluated _)

/-- What the look at the Equinox leaves. -/
theorem Chip.equinoxCheck_slew (c : Chip) : c.equinoxCheck.rg R.TMG_SLEW_SLEW 0 = c.rg R.TMG_SLEW_SLEW 0 :=
  read_ite (fun d : Chip => d.rg R.TMG_SLEW_SLEW 0)
    (read_ite (fun d : Chip => d.rg R.TMG_SLEW_SLEW 0)
      ((Chip.rg_wg_other _ _ _ _ _ _ (by decide)).trans (Chip.rg_wg_other _ _ _ _ _ _ (by decide)))
      (read_ite (fun d : Chip => d.rg R.TMG_SLEW_SLEW 0) (Chip.rg_wg_other _ _ _ _ _ _ (by decide)) rfl)) rfl

theorem Chip.equinoxCheck_mout (c : Chip) : c.equinoxCheck.mout = c.mout :=
  read_ite Chip.mout (read_ite Chip.mout rfl (read_ite Chip.mout rfl rfl)) rfl

/-! ## The steer (R283) -/

/-- The chip with the rate of its steer in force. -/
def Chip.steered (c : Chip) : Chip := { c with tm.r := c.steerRate }

/-- What the rest of a steer update does, once the rate is in force. -/
def Chip.steerCounted (c : Chip) : Chip :=
  have d := if c.timeState = 3 then c.vigilTick else c.learnHours
  (d.ws R.TMG_EQX_REM 0 d.remNs).timeStat

theorem steerUpdate_eq (c : Chip) : steerUpdate c = c.steerReady.equinoxCheck.steered.steerCounted := by
  unfold steerUpdate Chip.steerReady Chip.steered Chip.steerCounted
  rfl

theorem clampI_bounds (x : Int) (m : Nat) : -(m : Int) ≤ clampI x m ∧ clampI x m ≤ m := by
  unfold clampI
  split
  · omega
  · split <;> omega

theorem Chip.steerRate_bounds (c : Chip) : -((c.rg R.TMG_SLEW_SLEW 0 * 65536 / 10 : Nat) : Int) ≤ c.steerRate ∧
    c.steerRate ≤ ((c.rg R.TMG_SLEW_SLEW 0 * 65536 / 10 : Nat) : Int) := by
  unfold Chip.steerRate
  split
  · omega
  · exact clampI_bounds ..

/-- A rate of the steer within a bound. -/
def Chip.steersWithin (c : Chip) (m : Nat) : Prop := -(m : Int) ≤ c.tm.r ∧ c.tm.r ≤ m

theorem Chip.steered_steersWithin (c : Chip) : c.steered.steersWithin (c.rg R.TMG_SLEW_SLEW 0 * 65536 / 10) := c.steerRate_bounds

theorem Chip.steered_mout (c : Chip) : c.steered.mout = c.mout := rfl

theorem Chip.steersWithin_of_rest {m : Nat} {c : Chip} (h : c.tm.r = 0) : c.steersWithin m := by
  unfold Chip.steersWithin
  omega

theorem Chip.vigilTick_rate (c : Chip) : c.vigilTick.tm.r = 0 := read_ite (fun d : Chip => d.tm.r) rfl rfl

theorem Chip.vigilTick_mout (c : Chip) : c.vigilTick.mout = c.mout := read_ite Chip.mout rfl rfl

/-- What the models of the resonators learn is none of the rate of the steer or of the memories. -/
theorem Chip.oscLearn_leaves (c : Chip) (n : Nat) : (c.oscLearn n).tm.r = c.tm.r ∧ (c.oscLearn n).mout = c.mout :=
  ⟨read_ite (fun d : Chip => d.tm.r) rfl rfl, read_ite Chip.mout rfl rfl⟩

theorem Chip.learnHours_leaves (c : Chip) : c.learnHours.tm.r = c.tm.r ∧ c.learnHours.mout = c.mout := by
  obtain ⟨hr, hmout⟩ := ({ c with tm.lockedMs := 0 } : Chip).oscLearn_leaves (c.rg R.TMG_OSC_STAT_PRIMARY 0)
  obtain ⟨hr', hmout'⟩ := (({ c with tm.lockedMs := 0 } : Chip).oscLearn (c.rg R.TMG_OSC_STAT_PRIMARY 0)).oscLearn_leaves
    (c.rg R.TMG_OSC_STAT_SECONDARY 0)
  exact ⟨read_ite (fun d : Chip => d.tm.r) (read_ite (fun d : Chip => d.tm.r) (read_ite (fun d : Chip => d.tm.r) (hr'.trans hr) (hr'.trans hr)) rfl) rfl,
    read_ite Chip.mout (read_ite Chip.mout (read_ite Chip.mout (hmout'.trans hmout) (hmout'.trans hmout)) rfl) rfl⟩

theorem Chip.timeStat_steersWithin {m : Nat} {c : Chip} (h : c.steersWithin m) : c.timeStat.steersWithin m := by
  have hr := Chip.timeStat_read (f := fun d => d.tm.r) (fun _ _ _ _ => rfl) (fun _ _ => rfl) c
  unfold Chip.steersWithin
  rw [hr]
  split
  · exact Chip.steersWithin_of_rest rfl
  · exact h

theorem Chip.steerCounted_steersWithin {m : Nat} {c : Chip} (h : c.steersWithin m) : c.steerCounted.steersWithin m := by
  refine Chip.timeStat_steersWithin ?_
  show (if c.timeState = 3 then c.vigilTick else c.learnHours).steersWithin m
  split
  · exact Chip.steersWithin_of_rest c.vigilTick_rate
  · rw [Chip.steersWithin, c.learnHours_leaves.1]
    exact h

theorem Chip.steerCounted_mout (c : Chip) : c.steerCounted.mout = c.mout :=
  (Chip.timeStat_evaluated _).leaves.2.1.trans (read_ite Chip.mout c.vigilTick_mout c.learnHours_leaves.2)

/-- A steer update leaves the rate within SLEW. -/
theorem steerUpdate_steersWithin (c : Chip) : (steerUpdate c).steersWithin (c.rg R.TMG_SLEW_SLEW 0 * 65536 / 10) := by
  have hslew : c.steerReady.equinoxCheck.rg R.TMG_SLEW_SLEW 0 = c.rg R.TMG_SLEW_SLEW 0 :=
    (Chip.equinoxCheck_slew _).trans (c.steerReady_evaluated.rg _ _ (not_evalKey (by decide)))
  have hrate := c.steerReady.equinoxCheck.steered_steersWithin
  rw [hslew] at hrate
  rw [steerUpdate_eq]
  exact Chip.steerCounted_steersWithin hrate

theorem steerUpdate_mout (c : Chip) : (steerUpdate c).mout = c.mout :=
  (Chip.steerCounted_mout _).trans ((Chip.steered_mout _).trans ((Chip.equinoxCheck_mout _).trans c.steerReady_evaluated.leaves.2.1))

/-! ## The steer in VIGIL (R286, R291) -/

/-- The fields that a VIGIL in force rests on. -/
def vigilRests : List Nat :=
  [R.TMG_STAT_OUT_VALID.key 0, R.TMG_STAT_SEL.key 0, R.TMG_DOM_STAT_DSTATE.key 0, R.TMG_DOM_STAT_DSTATE.key 1, R.TMG_STAT_STATE.key 0,
    R.TMG_OSC_STAT_PRIMARY.key 0]

/-- `d` is in VIGIL, with the time of it and the model of the primary resonator as `c` has them. -/
structure Chip.InVigil (c d : Chip) : Prop where
  valid : d.rg R.TMG_STAT_OUT_VALID 0 = 1
  sel : d.rg R.TMG_STAT_SEL 0 ≤ 1
  stateA : d.rg R.TMG_DOM_STAT_DSTATE 0 ≠ 2
  stateB : d.rg R.TMG_DOM_STAT_DSTATE 1 ≠ 2
  state : d.rg R.TMG_STAT_STATE 0 = 3
  primary : d.rg R.TMG_OSC_STAT_PRIMARY 0 = c.rg R.TMG_OSC_STAT_PRIMARY 0
  time : d.tm.vigMs = c.tm.vigMs
  model : d.tm.osc = c.tm.osc

theorem Chip.InVigil.wg {c d : Chip} (h : c.InVigil d) {f : Fld} {i : Nat} (hf : f.key i ∉ vigilRests) (v : Nat) : c.InVigil (d.wg f i v) := by
  have hkeep {g : Fld} {j : Nat} (hg : g.key j ∈ vigilRests) : (d.wg f i v).rg g j = d.rg g j :=
    Chip.rg_wg_other _ _ _ _ _ _ fun e => hf (e ▸ hg)
  exact ⟨(hkeep (by decide)).trans h.valid, (hkeep (by decide)).trans_le h.sel, (hkeep (by decide)).trans_ne h.stateA,
    (hkeep (by decide)).trans_ne h.stateB, (hkeep (by decide)).trans h.state, (hkeep (by decide)).trans h.primary, h.time, h.model⟩

/-- A change of the time unit's state, but for the time of VIGIL and the models of the resonators. -/
theorem Chip.InVigil.tm {c d : Chip} (h : c.InVigil d) {x : TmSt} (hx : x.vigMs = d.tm.vigMs ∧ x.osc = d.tm.osc := by exact ⟨rfl, rfl⟩) :
    c.InVigil { d with tm := x } :=
  ⟨h.valid, h.sel, h.stateA, h.stateB, h.state, h.primary, hx.1.trans h.time, hx.2.trans h.model⟩

theorem Chip.InVigil.inc {c d : Chip} (h : c.InVigil d) (k : Ctr) (i : Nat) : c.InVigil (d.inc k i) :=
  ⟨h.valid, h.sel, h.stateA, h.stateB, h.state, h.primary, h.time, h.model⟩

theorem Chip.InVigil.ite {p : Prop} [Decidable p] {c d e : Chip} (h : c.InVigil d) (k : c.InVigil e) : c.InVigil (if p then d else e) := by
  split
  · exact h
  · exact k

theorem Chip.InVigil.selDom_ne {c d : Chip} (h : c.InVigil d) : d.dstate d.selDom ≠ 2 := by
  have hsel : d.selDom = 0 ∨ d.selDom = 1 := Nat.le_one_iff_eq_zero_or_eq_one.mp h.sel
  obtain hs | hs := hsel
  · rw [hs]
    exact h.stateA
  · rw [hs]
    exact h.stateB

theorem Chip.InVigil.timeState {c d : Chip} (h : c.InVigil d) : d.timeState = 3 := by
  unfold Chip.timeState
  rw [Chip.rb_true h.valid, if_neg (by decide), if_neg h.selDom_ne]

theorem Chip.InVigil.clk {c d : Chip} (h : c.InVigil d) : c.InVigil d.clk := h.tm

/-- Nothing is learnt from a domain that is not LOCKED. -/
theorem Chip.InVigil.learn {c d : Chip} (h : c.InVigil d) : d.learn = d := if_neg h.selDom_ne

/-- Whatever number a selection is asked for, SEL holds one of the two. -/
theorem Chip.InVigil.select {c d : Chip} (h : c.InVigil d) (n : Nat) : c.InVigil (d.select n) := by
  have hk := h.clk
  have hkeep {g : Fld} {j : Nat} (hg : R.TMG_STAT_SEL.key 0 ≠ g.key j) : (d.clk.wg R.TMG_STAT_SEL 0 n).rg g j = d.clk.rg g j :=
    Chip.rg_wg_other _ _ _ _ _ _ hg
  have hsel : (d.clk.wg R.TMG_STAT_SEL 0 n).rg R.TMG_STAT_SEL 0 ≤ 1 :=
    (Chip.rg_wg_same ..).trans_le (Nat.le_of_lt_succ (Nat.mod_lt n (by decide)))
  have hmoved : c.InVigil (d.clk.wg R.TMG_STAT_SEL 0 n) :=
    ⟨(hkeep (by decide)).trans hk.valid, hsel, (hkeep (by decide)).trans_ne hk.stateA, (hkeep (by decide)).trans_ne hk.stateB,
      (hkeep (by decide)).trans hk.state, (hkeep (by decide)).trans hk.primary, hk.time, hk.model⟩
  have hevt := hmoved.wg (f := R.TMG_EVT_SEL_CHG) (i := 0) (by decide) 1
  exact .ite h (.ite ((hevt.wg (f := R.TMG_STAT_EQX_ACTIVE) (i := 0) (by decide) 1).inc C.TMG_EQUINOX 0).tm hevt)

/-- A move of the selection, with the mark of R282 set or cleared. -/
theorem Chip.InVigil.selectAway {c d : Chip} (h : c.InVigil d) (n : Nat) (b : Bool) : c.InVigil { d.select n with tm.away := b } := (h.select n).tm

theorem Chip.InVigil.reselect {c d : Chip} (h : c.InVigil d) : c.InVigil d.reselect :=
  .ite (h.select _) (.ite (h.select _) (.ite (.ite h.tm (.ite h (h.selectAway _ _))) (.ite (.ite h (h.selectAway _ _)) h)))

/-- There is no initial set while OUT_VALID is 1. -/
theorem Chip.InVigil.initialSet {c d : Chip} (h : c.InVigil d) : d.initialSet = d :=
  if_neg fun hset => absurd ((Chip.rb_true h.valid).symm.trans hset.1) (by decide)

/-- What is read of a chip in VIGIL without the fields of its state is unchanged by their evaluation. -/
theorem Chip.InVigil.timeStat_read {c d : Chip} (h : c.InVigil d) {α : Type} {f : Chip → α}
    (hwrite : ∀ (e : Chip) (g : Fld) (v : Nat), g.key 0 ∈ statFields → f (e.wg g 0 v) = f e)
    (hdue : ∀ (e : Chip) (x : Nat), f { e with tm.esmcDue := x } = f e) : f d.timeStat = f d := by
  rw [Chip.timeStat_read hwrite hdue, if_neg fun hn => hn.2 h.state]

theorem Chip.InVigil.timeStat {c d : Chip} (h : c.InVigil d) : c.InVigil d.timeStat := by
  have hold : ¬ (d.timeState = 3 ∧ d.rg R.TMG_STAT_STATE 0 ≠ 3) := fun hn => hn.2 h.state
  have hsame : ¬ d.timeState ≠ d.rg R.TMG_STAT_STATE 0 := fun hn => hn (h.timeState.trans h.state.symm)
  unfold Chip.timeStat
  dsimp only
  rw [if_neg hold, if_neg hsame]
  exact ((Chip.InVigil.ite h.tm h).wg (f := R.TMG_STAT_CLASS) (i := 0) (by decide) _).wg (f := R.TMG_STAT_QL) (i := 0) (by decide) _

theorem Chip.InVigil.timeEval {c d : Chip} (h : c.InVigil d) : c.InVigil d.timeEval := by
  unfold Chip.timeEval
  rw [h.reselect.initialSet]
  exact h.reselect.timeStat

theorem Chip.InVigil.equinoxCheck {c d : Chip} (h : c.InVigil d) : c.InVigil d.equinoxCheck :=
  .ite (.ite ((h.wg (f := R.TMG_STAT_EQX_ACTIVE) (i := 0) (by decide) 0).wg (by decide) 1) (.ite (h.wg (by decide) 1).tm h)) h

theorem Chip.InVigil.steerReady {c d : Chip} (h : c.InVigil d) : c.InVigil d.steerReady := by
  unfold Chip.steerReady
  rw [h.clk.learn]
  exact h.clk.timeEval

theorem Chip.InVigil.steered {c d : Chip} (h : c.InVigil d) : c.InVigil d.steered := h.tm

/-- What a steer update shows of a VIGIL: its time, the base frequency, the rate of the steer and TMG_VIG_TIME. -/
def Chip.vigilShown (c : Chip) : Nat × Int × Int × Nat := (c.tm.vigMs, c.tm.y0, c.tm.r, c.rg R.TMG_VIG_TIME_SEC 0)

/-- One more millisecond of VIGIL. -/
theorem Chip.InVigil.vigilTick {c d : Chip} (h : c.InVigil d) :
    d.vigilTick.vigilShown = (c.tm.vigMs + 1, c.vigilY0 ((c.tm.vigMs + 1) / 1000), 0,
      satNat R.TMG_VIG_TIME_SEC.width ((c.tm.vigMs + 1) / 1000) % 2 ^ R.TMG_VIG_TIME_SEC.width) := by
  have hmodel : d.vigilY0 ((d.tm.vigMs + 1) / 1000) = c.vigilY0 ((c.tm.vigMs + 1) / 1000) := by
    rw [Chip.vigilY0, Chip.vigilY0, h.primary, h.time, h.model]
  have hshown : d.vigilTick.vigilShown = (d.tm.vigMs + 1, d.vigilY0 ((d.tm.vigMs + 1) / 1000), 0,
      satNat R.TMG_VIG_TIME_SEC.width ((d.tm.vigMs + 1) / 1000) % 2 ^ R.TMG_VIG_TIME_SEC.width) := by
    refine read_ite Chip.vigilShown ?_ ?_
    · simp (disch := decide) only [Chip.vigilShown, Chip.wsat_eq, Chip.rg_mk, Chip.rg_wg_other, Chip.rg_wg_same]
      rfl
    · simp (disch := decide) only [Chip.vigilShown, Chip.wsat_eq, Chip.rg_mk, Chip.rg_wg_other, Chip.rg_wg_same]
      rfl
  rw [hshown, hmodel, h.time]

/-- A tick of VIGIL leaves the state that it rests on. -/
theorem Chip.vigilTick_rg {g : Fld} {j : Nat} (h : g.key j ∉ [R.TMG_VIG_TIME_SEC.key 0, R.TMG_VIG_EST_EST.key 0, R.TMG_EVT_VIG_LIMIT.key 0])
    (c : Chip) : c.vigilTick.rg g j = c.rg g j := by
  have hcounted (d : Chip) (secs est : Nat) (hd : d.regs = c.regs) :
      ((d.wsat R.TMG_VIG_TIME_SEC 0 secs).wsat R.TMG_VIG_EST_EST 0 est).rg g j = c.rg g j := by
    rw [Chip.wsat_eq, Chip.wsat_eq, Chip.rg_wg_listed h _ (by decide), Chip.rg_wg_listed h _ (by decide), Chip.rg_of_regs_eq hd]
  exact read_ite (fun d : Chip => d.rg g j) ((Chip.rg_wg_listed h _ (by decide) 1).trans (hcounted _ _ _ rfl)) (hcounted _ _ _ rfl)

/-- The chip in VIGIL with a millisecond more of it, and TMG_EQX_REM. -/
def Chip.vigilTicked (c : Chip) : Chip := c.vigilTick.ws R.TMG_EQX_REM 0 c.vigilTick.remNs

theorem Chip.vigilTicked_shown (c : Chip) : c.vigilTicked.vigilShown = c.vigilTick.vigilShown := by
  have htime : c.vigilTicked.rg R.TMG_VIG_TIME_SEC 0 = c.vigilTick.rg R.TMG_VIG_TIME_SEC 0 := Chip.rg_wg_other _ _ _ _ _ _ (by decide)
  rw [Chip.vigilShown, htime]
  rfl

theorem Chip.steerCounted_vigil {c : Chip} (h : c.timeState = 3) : c.steerCounted = c.vigilTicked.timeStat := by
  unfold Chip.steerCounted
  rw [if_pos h]
  rfl

theorem Chip.vigilTicked_inVigil {c d : Chip} (h : c.InVigil d) : d.vigilTicked.InVigil d.vigilTicked := by
  have hapart : ∀ k ∈ vigilRests, k ∉ [R.TMG_VIG_TIME_SEC.key 0, R.TMG_VIG_EST_EST.key 0, R.TMG_EVT_VIG_LIMIT.key 0] := by decide
  have hkeep {g : Fld} {j : Nat} (hg : g.key j ∈ vigilRests) : d.vigilTicked.rg g j = d.rg g j :=
    (Chip.rg_wg_other _ _ _ _ _ _ fun e => absurd (e ▸ hg) (by decide)).trans (Chip.vigilTick_rg (hapart _ hg) d)
  exact ⟨(hkeep (by decide)).trans h.valid, (hkeep (by decide)).trans_le h.sel, (hkeep (by decide)).trans_ne h.stateA,
    (hkeep (by decide)).trans_ne h.stateB, (hkeep (by decide)).trans h.state, rfl, rfl, rfl⟩

/-- A steer update in VIGIL. -/
theorem steerUpdate_vigil {c : Chip} (h : c.InVigil c) : (steerUpdate c).vigilShown = (c.tm.vigMs + 1, c.vigilY0 ((c.tm.vigMs + 1) / 1000), 0,
    satNat R.TMG_VIG_TIME_SEC.width ((c.tm.vigMs + 1) / 1000) % 2 ^ R.TMG_VIG_TIME_SEC.width) ∧ (steerUpdate c).rg R.TMG_STAT_STATE 0 = 3 := by
  have hsteered := h.steerReady.equinoxCheck.steered
  have hticked := Chip.vigilTicked_inVigil hsteered
  have htime : (R.TMG_VIG_TIME_SEC.key 0) ∉ statFields := by decide
  rw [steerUpdate_eq, Chip.steerCounted_vigil hsteered.timeState]
  refine ⟨?_, hticked.timeStat.state⟩
  rw [hticked.timeStat_read (f := Chip.vigilShown) (fun e g v hg => ?_) fun _ _ => rfl, Chip.vigilTicked_shown, hsteered.vigilTick]
  rw [Chip.vigilShown, Chip.rg_wg_listed htime e hg v]
  rfl

/-! ## A step of L (R288, R289) -/

/-- L right after the clocks were brought up to date. -/
theorem Chip.lNow_fresh {c : Chip} (h : c.tm.clkAt = c.now) : c.lNow = c.tm.base + c.tm.off := by
  have hage : c.clkAge = 0 := by rw [Chip.clkAge, h, Nat.sub_self]
  simp [Chip.lNow, Chip.bNow, Chip.gain, hage]

/-- To bring the clocks up to date moves L nowhere. -/
theorem Chip.lNow_clk (c : Chip) : c.clk.lNow = c.lNow := by
  rw [Chip.lNow_fresh (c := c.clk) rfl]
  exact add_sub_cancel ..

theorem Chip.lNow_vigilEnter (c : Chip) : c.vigilEnter.lNow = c.lNow := by
  rw [Chip.lNow_fresh (c := c.vigilEnter) rfl]
  exact add_sub_cancel ..

theorem Chip.lNow_timeStat (c : Chip) : c.timeStat.lNow = c.lNow :=
  Chip.timeStat_read_blind (fun _ _ _ _ => rfl) (fun _ _ => rfl) c.lNow_vigilEnter

/-- The chip with L moved, the step shown and counted. -/
def Chip.lMoved (c : Chip) (delta : Int) : Chip :=
  ({ c.clk with tm.off := c.clk.tm.off + delta * 65536, tm.stepped := c.clk.tm.stepped + delta * 65536 }.wg R.TMG_EVT_STEPPED 0 1).inc C.TMG_OUT_STEP 0

theorem Chip.lNow_lMoved (c : Chip) (delta : Int) : (c.lMoved delta).lNow = c.lNow + delta * 65536 := by
  rw [Chip.lNow_fresh (c := c.lMoved delta) rfl, ← Chip.lNow_clk, Chip.lNow_fresh (c := c.clk) rfl]
  exact (Int.add_assoc ..).symm

/-- What a step of L shows of itself: L, the counters, the waiting changes of the memories, and the event. -/
def Chip.stepShown (c : Chip) : Int × Tab Nat × List MemOp × Nat := (c.lNow, c.cnt, c.mout, c.rg R.TMG_EVT_STEPPED 0)

/-- A write of the status of a gate list is none of it. -/
theorem Chip.stepShown_wg {f : Fld} (hf : 0xC0000 ≤ f.reg) (c : Chip) (i v : Nat) : (c.wg f i v).stepShown = c.stepShown := by
  rw [Chip.stepShown, Chip.rg_wg_ports (by decide) hf]
  rfl

/-- A gate list that takes its phase from L changes none of that. -/
theorem Chip.gatePhase_stepShown (c : Chip) (p : Nat) (l : Int) : (c.gatePhase p l).stepShown = c.stepShown := by
  have hpair (a b : Nat) : ((c.wg R.SCH_GATE_STAT_BEFORE_BASE p a).wg R.SCH_GATE_STAT_CUR p b).stepShown = c.stepShown :=
    (Chip.stepShown_wg (by decide) _ _ _).trans (Chip.stepShown_wg (by decide) _ _ _)
  exact read_ite Chip.stepShown (hpair _ _) (hpair _ _)

/-- The chip with every gate list in force at its phase. -/
def Chip.gatesPhased (c : Chip) : Chip := forN 128 (fun p d => if d.rb R.SCH_GATE_STAT_ACT_EN p then d.gatePhase p d.lNow else d) c

theorem Chip.gatesPhased_stepShown (c : Chip) : c.gatesPhased.stepShown = c.stepShown :=
  forN_keeps 128 _ Chip.stepShown (fun p d => read_ite Chip.stepShown (d.gatePhase_stepShown p _) rfl) c

/-- The chip with TMG_EQX_REM brought up to date. -/
def Chip.remShown (c : Chip) : Chip := c.ws R.TMG_EQX_REM 0 c.remNs

theorem Chip.stepL_eq (c : Chip) (delta : Int) : c.stepL delta = (c.lMoved delta).gatesPhased.remShown.timeStat := rfl

theorem Chip.remShown_stepShown (c : Chip) : c.remShown.stepShown = c.stepShown := by
  rw [Chip.remShown, Chip.stepShown, Chip.ws_eq, Chip.rg_wg_other _ _ _ _ _ _ (by decide)]
  rfl

theorem Chip.timeStat_stepShown (c : Chip) : c.timeStat.lNow = c.lNow ∧ c.timeStat.counter C.TMG_OUT_STEP 0 = c.counter C.TMG_OUT_STEP 0 ∧
    c.timeStat.mout = c.mout ∧ c.timeStat.rg R.TMG_EVT_STEPPED 0 = c.rg R.TMG_EVT_STEPPED 0 :=
  ⟨c.lNow_timeStat, c.timeStat_evaluated.counter _ _ (by decide), c.timeStat_evaluated.leaves.2.1,
    c.timeStat_evaluated.rg _ _ (not_evalKey (by decide))⟩

/-- A step of L. -/
theorem Chip.stepL_moves (c : Chip) (delta : Int) : (c.stepL delta).lNow = c.lNow + delta * 65536 ∧
    (c.stepL delta).counter C.TMG_OUT_STEP 0 = (c.counter C.TMG_OUT_STEP 0 + 1) % 2 ^ 48 ∧ (c.stepL delta).mout = c.mout ∧
    (c.stepL delta).rg R.TMG_EVT_STEPPED 0 = 1 := by
  have hshown : (c.lMoved delta).gatesPhased.remShown.stepShown = (c.lMoved delta).stepShown :=
    (Chip.remShown_stepShown _).trans (Chip.gatesPhased_stepShown _)
  simp only [Chip.stepShown, Prod.mk.injEq] at hshown
  obtain ⟨hl, hcnt, hmout, hevt⟩ := hshown
  obtain ⟨hl', hcount, hmout', hevt'⟩ := (c.lMoved delta).gatesPhased.remShown.timeStat_stepShown
  rw [Chip.stepL_eq]
  exact ⟨hl'.trans (hl.trans (c.lNow_lMoved delta)),
    hcount.trans ((congrArg (Tab.get 0 · (C.TMG_OUT_STEP.key 0)) hcnt).trans (Chip.counter_incBy_same ..)), hmout'.trans hmout,
    hevt'.trans (hevt.trans (Chip.rg_wg_same ..))⟩

theorem timeStep_host {c : Chip} {lo hi : Nat} (hvalid : c.rg R.TMG_STAT_OUT_VALID 0 = 1) (hdelta : bit hi 30 = false)
    (hsmall : absI (sgn 48 (lo % 2 ^ 32 + hi % 65536 * 2 ^ 32)) ≤ 1000) :
    timeStep false lo hi c = (c.stepL (sgn 48 (lo % 2 ^ 32 + hi % 65536 * 2 ^ 32)), stOk) := by
  have hd : c.stepDelta lo hi = sgn 48 (lo % 2 ^ 32 + hi % 65536 * 2 ^ 32) := by rw [Chip.stepDelta, hdelta, if_neg (by decide)]
  rw [timeStep, if_neg (by decide), Chip.rb_true hvalid, if_neg (by decide), hd, if_neg (Nat.not_lt.mpr hsmall)]

/-! ## The capture of L and the resonators (R265, R293, R294) -/

/-- The fields that a read of TMG_NS captures. -/
def captureFields : List Nat :=
  [R.TMG_NS_NS.key 0, R.TMG_FRAC_FRAC.key 0, R.TMG_SEC_LO_SEC.key 0, R.TMG_SEC_HI_SEC.key 0, R.TMG_TS_NOW_TS_NS.key 0]

theorem secOf_high (x : Int) : secOf x / 2 ^ 32 < 2 ^ 16 := by
  have hsec : secOf x < 2 ^ 48 := Nat.mod_lt _ (by decide)
  omega

theorem Chip.captureL_reads (c : Chip) :
    c.captureL.rg R.TMG_NS_NS 0 = nsOf c.lNow % 2 ^ R.TMG_NS_NS.width ∧ c.captureL.rg R.TMG_FRAC_FRAC 0 = fracOf c.lNow % 2 ^ R.TMG_FRAC_FRAC.width ∧
      c.captureL.rg R.TMG_SEC_LO_SEC 0 = secOf c.lNow % 2 ^ 32 ∧ c.captureL.rg R.TMG_SEC_HI_SEC 0 = secOf c.lNow / 2 ^ 32 := by
  unfold Chip.captureL
  dsimp only
  simp (disch := decide) only [Chip.rg_wg_other, Chip.rg_wg_same, true_and]
  exact ⟨rfl, Nat.mod_eq_of_lt (secOf_high _)⟩

theorem Chip.captureL_rg_other (c : Chip) {g : Fld} {j : Nat} (h : g.key j ∉ captureFields) : c.captureL.rg g j = c.rg g j := by
  unfold Chip.captureL
  dsimp only
  rw [Chip.rg_wg_listed h _ (by decide), Chip.rg_wg_listed h _ (by decide), Chip.rg_wg_listed h _ (by decide), Chip.rg_wg_listed h _ (by decide),
    Chip.rg_wg_listed h _ (by decide)]

/-- An entry of the swap record changes no register and no counter. -/
theorem Chip.swapAppend_leaves (c : Chip) (m : Mem) (kind cause unit spare : Nat) :
    (c.swapAppend m kind cause unit spare).regs = c.regs ∧ (c.swapAppend m kind cause unit spare).cnt = c.cnt := by
  refine ⟨read_ite Chip.regs rfl ?_, read_ite Chip.cnt rfl ?_⟩
  · exact read_ite Chip.regs (x := c.mem _) rfl rfl
  · exact read_ite Chip.cnt (x := c.mem _) rfl rfl

/-- A resonator is marked faulted, and its fault shown and counted. -/
def Chip.oscMarked (c : Chip) (n : Nat) : Chip := ((c.wbit R.TMG_OSC_STAT_FAULT 0 n true).wg R.TMG_EVT_OSC_FAULT 0 1).inc C.TMG_OSC_FAULT 0

theorem Chip.oscMarked_rg_other (c : Chip) (n : Nat) {g : Fld} {j : Nat} (h : g.key j ∉ [R.TMG_OSC_STAT_FAULT.key 0, R.TMG_EVT_OSC_FAULT.key 0]) :
    (c.oscMarked n).rg g j = c.rg g j := (Chip.rg_wg_listed h _ (by decide) _).trans (Chip.rg_wg_listed h _ (by decide) _)

/-- The primary resonator leaves its place: the secondary and the spare move up, and learning starts again. -/
theorem Chip.oscMove_primary {c : Chip} {n : Nat} (hprimary : c.rg R.TMG_OSC_STAT_PRIMARY 0 = n) (hse : c.rg R.TMG_OSC_STAT_SECONDARY 0 < 4)
    (hsp : c.rg R.TMG_OSC_STAT_SPARE 0 < 4) :
    (c.oscMove n).rg R.TMG_OSC_STAT_PRIMARY 0 = c.rg R.TMG_OSC_STAT_SECONDARY 0 ∧
      (c.oscMove n).rg R.TMG_OSC_STAT_SECONDARY 0 = c.rg R.TMG_OSC_STAT_SPARE 0 ∧ (c.oscMove n).rg R.TMG_OSC_STAT_SPARE 0 = 3 ∧
      (c.oscMove n).rg R.TMG_EVT_OSC_FAULT 0 = c.rg R.TMG_EVT_OSC_FAULT 0 ∧ (c.oscMove n).rg R.HLT_SPARE_CHIP_OVEN 0 = 0 ∧
      (c.oscMove n).rg R.TMG_VIG_STAT_LEARN_H 0 = 0 ∧ (c.oscMove n).cnt = c.cnt := by
  have hclk (g : Fld) : c.clk.rg g 0 = c.rg g 0 := rfl
  unfold Chip.oscMove
  dsimp only
  rw [if_pos hprimary]
  simp (disch := decide) only [Chip.rg_wg_other, Chip.rg_wg_same, Chip.rg_mk, hclk, true_and]
  exact ⟨Nat.mod_eq_of_lt hse, Nat.mod_eq_of_lt hsp, rfl, rfl, rfl, rfl⟩

/-- The chip with the residual of a resonator against its model noted. -/
def Chip.runCounted (c : Chip) (n r : Nat) : Chip :=
  { c with tm.oscRun := c.tm.oscRun.set n (if r > 10 then Tab.get 0 c.tm.oscRun n + 1 else 0) }

/-- The disagreement ends. -/
def Chip.oscJudged (c : Chip) : Chip := { c.wg R.TMG_OSC_STAT_DISAGREE 0 0 with tm.oscRun := [] }

theorem Chip.oscJudged_rg_other (c : Chip) {g : Fld} {j : Nat} (h : R.TMG_OSC_STAT_DISAGREE.key 0 ≠ g.key j) : c.oscJudged.rg g j = c.rg g j :=
  Chip.rg_wg_other _ _ _ _ _ _ h

/-- The chip with the residuals of both serving resonators noted. -/
def Chip.runsCounted (c : Chip) (rp rs : Nat) : Chip :=
  (c.runCounted (c.rg R.TMG_OSC_STAT_PRIMARY 0) rp).runCounted (c.rg R.TMG_OSC_STAT_SECONDARY 0) rs

theorem Chip.runsCounted_primary {c : Chip} {rp : Nat} (hne : c.rg R.TMG_OSC_STAT_PRIMARY 0 ≠ c.rg R.TMG_OSC_STAT_SECONDARY 0) (hrp : 10 < rp)
    (rs : Nat) : Tab.get 0 (c.runsCounted rp rs).tm.oscRun (c.rg R.TMG_OSC_STAT_PRIMARY 0) =
      Tab.get 0 c.tm.oscRun (c.rg R.TMG_OSC_STAT_PRIMARY 0) + 1 := by
  simp only [Chip.runsCounted, Chip.runCounted]
  rw [Tab.get_set_other _ _ _ _ _ hne.symm, Tab.get_set_same, if_pos hrp]

/-- The primary disagrees for the third time, and lies no nearer to the domain in LOCKED. -/
theorem oscCheck_primary {c : Chip} {rp rs dp ds : Nat} (hse : c.rg R.TMG_OSC_STAT_SECONDARY 0 < 3)
    (hthird : 3 ≤ Tab.get 0 (c.runsCounted rp rs).tm.oscRun (c.rg R.TMG_OSC_STAT_PRIMARY 0)) (hlocked : c.rg R.TMG_DOM_STAT_DSTATE 0 = 2)
    (hd : ds ≤ dp) (m : Mem) :
    oscCheck m rp rs dp ds c = ((c.runsCounted rp rs).oscJudged.oscFault (c.rg R.TMG_OSC_STAT_PRIMARY 0)).swapAppend m 10 1
      (512 + c.rg R.TMG_OSC_STAT_PRIMARY 0) (512 + (c.runsCounted rp rs).oscJudged.rg R.TMG_OSC_STAT_SPARE 0) := by
  have hbad : (if dp ≥ ds then c.rg R.TMG_OSC_STAT_PRIMARY 0 else c.rg R.TMG_OSC_STAT_SECONDARY 0) = c.rg R.TMG_OSC_STAT_PRIMARY 0 := if_pos hd
  unfold oscCheck
  dsimp only
  rw [if_neg (Nat.ne_of_lt hse), if_neg (Nat.ne_of_lt hse), hbad]
  exact (if_pos (.inl hthird)).trans (if_pos (.inl hlocked))

/-- What the chip reads once the primary resonator has left its place. -/
theorem Chip.oscFault_primary {c : Chip} {n : Nat} (hprimary : c.rg R.TMG_OSC_STAT_PRIMARY 0 = n) (hse : c.rg R.TMG_OSC_STAT_SECONDARY 0 < 4)
    (hsp : c.rg R.TMG_OSC_STAT_SPARE 0 < 4) :
    (c.oscFault n).rg R.TMG_OSC_STAT_PRIMARY 0 = c.rg R.TMG_OSC_STAT_SECONDARY 0 ∧
      (c.oscFault n).rg R.TMG_OSC_STAT_SECONDARY 0 = c.rg R.TMG_OSC_STAT_SPARE 0 ∧ (c.oscFault n).rg R.TMG_OSC_STAT_SPARE 0 = 3 ∧
      (c.oscFault n).rg R.TMG_EVT_OSC_FAULT 0 = 1 ∧ (c.oscFault n).rg R.HLT_SPARE_CHIP_OVEN 0 = 0 ∧
      (c.oscFault n).rg R.TMG_VIG_STAT_LEARN_H 0 = 0 ∧ (c.oscFault n).counter C.TMG_OSC_FAULT 0 = (c.counter C.TMG_OSC_FAULT 0 + 1) % 2 ^ 48 := by
  have hp := (c.oscMarked_rg_other n (g := R.TMG_OSC_STAT_PRIMARY) (j := 0) (by decide)).trans hprimary
  have hs := c.oscMarked_rg_other n (g := R.TMG_OSC_STAT_SECONDARY) (j := 0) (by decide)
  have hq := c.oscMarked_rg_other n (g := R.TMG_OSC_STAT_SPARE) (j := 0) (by decide)
  obtain ⟨hprimary', hsecondary, hspare, hevt, hoven, hlearn, hcnt⟩ := Chip.oscMove_primary hp (hs.trans_lt hse) (hq.trans_lt hsp)
  exact ⟨hprimary'.trans hs, hsecondary.trans hq, hspare, hevt.trans (Chip.rg_wg_same ..), hoven, hlearn,
    (congrArg (Tab.get 0 · (C.TMG_OSC_FAULT.key 0)) hcnt).trans (Chip.counter_incBy_same ..)⟩

/-- A leap second that is inserted. -/
def Chip.leapInserted (c : Chip) : Chip :=
  ((c.ws R.TMG_UTC_OFFSET 0 (c.rs R.TMG_UTC_OFFSET 0 + 1)).wg R.TMG_UTC_PENDING 0 0).wg R.TMG_EVT_LEAP_DONE 0 1

theorem leapApply_inserts {c : Chip} (hpending : c.rg R.TMG_UTC_PENDING 0 = 1) (hdir : c.rg R.TMG_UTC_DIR 0 = 0)
    (hlate : c.rg R.TMG_LEAP_AT_LO_SEC 0 + c.rg R.TMG_LEAP_AT_HI_SEC 0 * 2 ^ 32 ≤ secOf c.lNow) : leapApply c = c.leapInserted := by
  have hd : c.rb R.TMG_UTC_DIR 0 = false := Chip.rb_false (by rw [hdir]; decide)
  unfold leapApply
  dsimp only
  rw [if_pos ⟨Chip.rb_true hpending, hlate⟩, hd, if_neg (by decide)]
  rfl

/-- A number of 16 bits, less than the greatest, has a next one. -/
theorem sgn_unsgn_succ {v : Nat} (h : sgn 16 v < 32767) : sgn 16 (unsgn 16 (satInt 16 (sgn 16 v + 1)) % 2 ^ 16) = sgn 16 v + 1 := by
  have hlow : -32768 ≤ sgn 16 v := by unfold sgn; split <;> omega
  generalize sgn 16 v = x at h hlow
  have hsat : satInt 16 (x + 1) = x + 1 := by unfold satInt; rw [if_neg (by omega), if_neg (by omega)]
  rw [hsat]
  unfold sgn unsgn
  split <;> omega

theorem Chip.leapInserted_reads {c : Chip} (h : c.rs R.TMG_UTC_OFFSET 0 < 32767) :
    c.leapInserted.rs R.TMG_UTC_OFFSET 0 = c.rs R.TMG_UTC_OFFSET 0 + 1 ∧ c.leapInserted.rg R.TMG_UTC_PENDING 0 = 0 ∧
      c.leapInserted.rg R.TMG_EVT_LEAP_DONE 0 = 1 := by
  unfold Chip.leapInserted
  simp (disch := decide) only [Chip.rs, Chip.ws_eq, Chip.rg_wg_other, Chip.rg_wg_same]
  exact ⟨sgn_unsgn_succ h, rfl, rfl⟩

end Sys2Proof.Machine
end

section
/-! PROOFS. The commands of selection, steer, steps, slew, resonators and leap second (09_time_and_sync.md R265, R282 to R284, R288, R291,
R293, R294), and the statement about them. -/

namespace Sys2Proof.Safety

open Sys2Proof Sys2Proof.Machine

/-! ## What is read of the state that a command leaves -/

theorem rg_after (s : State) (c : Chip) (g : Fld) (j : Nat) : (s.after c).chip.rg g j = c.rg g j := by rw [State.after_chip, Chip.rg_done]

theorem tm_after (s : State) (c : Chip) : (s.after c).chip.tm = c.tm := by rw [State.after_chip, Chip.done_tm]

theorem counter_after (s : State) (c : Chip) (k : Ctr) (i : Nat) : (s.after c).chip.counter k i = c.counter k i := by
  rw [State.after_chip, Chip.counter_done]

theorem lNow_answered (s : State) (c : Chip) (st : Nat) : (s.after (c.emit .answer 0 [st] [])).chip.lNow = c.lNow := rfl

theorem counter_answered (s : State) (c : Chip) (st : Nat) (k : Ctr) (i : Nat) :
    (s.after (c.emit .answer 0 [st] [])).chip.counter k i = c.counter k i := by rw [counter_after, Chip.counter_emit]

/-- SEL_CFG_WRITE with its fields in range (R282). -/
theorem selCfgWrite_configures (t : Nat) (v : Nat) (s : State) (hs : ready s) (hd : s.chip.domOn 1 = true) (hmode : bits v 0 2 ≠ 3)
    (hwtr : bits v 4 12 ≤ 3600) :
    ∃ u, exec (.selCfgWrite t v) s = .next u ∧ u.chip.rg R.TMG_SEL_CFG_MODE 0 = bits v 0 2 ∧ u.chip.rg R.TMG_SEL_CFG_PREF 0 = bits v 2 1 ∧
      u.chip.rg R.TMG_SEL_CFG_WTR 0 = bits v 4 12 ∧ u.chip.rg R.TMG_SEL_CFG_EVT_EN 0 = bits v 16 1 ∧ u.mem = s.mem := by
  have heval := selCfgWrite_evaluated (chipAt s t) hmode hwtr
  obtain ⟨hm, hp, hw, he⟩ := (chipAt s t).selConfigured_reads v
  obtain ⟨-, hmout, -⟩ := heval.leaves
  have hread {g : Fld} (hg : g.key 0 ∉ evalFields ∧ g.key 0 < R.TMG_DOM_FREQ_S.key 0) :=
    (rg_answered s (selCfgWrite v (chipAt s t)) stOk g 0).trans (heval.rg g 0 (not_evalKey_below hg))
  exact ⟨_, on_answeredIn (f := fun c => (selCfgWrite v c, stOk)) hs hd rfl, (hread (by decide)).trans hm, (hread (by decide)).trans hp,
    (hread (by decide)).trans hw, (hread (by decide)).trans he, mem_answered hs hmout stOk⟩

/-- SEL_WTR_EXPIRE with T-B preferred, LOCKED and left (R282). -/
theorem selWtrExpire_selects (t : Nat) (s : State) (hs : ready s) (hmode : s.chip.rg R.TMG_SEL_CFG_MODE 0 = 0) (haway : s.chip.tm.away = true)
    (hpref : s.chip.rg R.TMG_SEL_CFG_PREF 0 = 1) (hsel : s.chip.rg R.TMG_STAT_SEL 0 = 0) (hb : s.chip.rg R.TMG_DOM_STAT_DSTATE 1 = 2)
    (hwtr : s.chip.rg R.TMG_SEL_CFG_WTR 0 ≠ 0)
    (hlate : (s.chip.dom 1).lockedAt + s.chip.rg R.TMG_SEL_CFG_WTR 0 * secPs ≤ max s.chip.now t) :
    ∃ u, exec (.selWtrExpire t) s = .next u ∧ u.chip.rg R.TMG_STAT_SEL 0 = 1 ∧ u.chip.rg R.TMG_EVT_SEL_CHG 0 = 1 ∧ u.chip.tm.away = false ∧
      u.mem = s.mem := by
  have hrow := selWtrExpire_returns (c := chipAt s t) hmode haway hpref hb hwtr hlate
  obtain ⟨hone, hevt, hback⟩ := Chip.returnedB_timeEval (c := chipAt s t) hmode hpref hsel hb
  obtain ⟨-, hmout, -⟩ := (((chipAt s t).selectAway_evaluated 1 false).trans (Chip.timeEval_evaluated (chipAt s t).returnedB)).leaves
  refine ⟨_, State.on_running s t (fun _ => selWtrExpire) hs.1, ?_⟩
  rw [hrow]
  exact ⟨(rg_after ..).trans hone, (rg_after ..).trans hevt, (congrArg TmSt.away (tm_after ..)).trans hback, mem_after hs hmout⟩

theorem steerUpdate_runs {s : State} (hs : ready s) (t : Nat) : exec (.steerUpdate t) s = .next (s.after (steerUpdate (chipAt s t))) :=
  State.on_running s t (fun _ => steerUpdate) hs.1

/-- STEER_UPDATE keeps the rate of the steer within SLEW (R283). -/
theorem steerUpdate_bounds (t : Nat) (s : State) (hs : ready s) :
    ∃ u, exec (.steerUpdate t) s = .next u ∧ -((s.chip.rg R.TMG_SLEW_SLEW 0 * 65536 / 10 : Nat) : Int) ≤ u.chip.tm.r ∧
      u.chip.tm.r ≤ ((s.chip.rg R.TMG_SLEW_SLEW 0 * 65536 / 10 : Nat) : Int) ∧ u.mem = s.mem := by
  obtain ⟨hlow, hhigh⟩ := steerUpdate_steersWithin (chipAt s t)
  refine ⟨_, steerUpdate_runs hs t, ?_⟩
  rw [tm_after]
  exact ⟨hlow, hhigh, mem_after hs (steerUpdate_mout (chipAt s t))⟩

/-- STEER_UPDATE in VIGIL (R291). -/
theorem steerUpdate_ticks (t : Nat) (s : State) (hs : ready s) (hvalid : s.chip.rg R.TMG_STAT_OUT_VALID 0 = 1)
    (_hmode : s.chip.rg R.TMG_SEL_CFG_MODE 0 = 0) (ha : s.chip.rg R.TMG_DOM_STAT_DSTATE 0 ≠ 2) (hb : s.chip.rg R.TMG_DOM_STAT_DSTATE 1 ≠ 2)
    (hsel : s.chip.rg R.TMG_STAT_SEL 0 ≤ 1) (hstate : s.chip.rg R.TMG_STAT_STATE 0 = 3) (_heqx : s.chip.rg R.TMG_STAT_EQX_ACTIVE 0 = 0) :
    ∃ u, exec (.steerUpdate t) s = .next u ∧ u.chip.tm.vigMs = s.chip.tm.vigMs + 1 ∧ u.chip.tm.r = 0 ∧
      u.chip.tm.y0 = s.chip.vigilY0 ((s.chip.tm.vigMs + 1) / 1000) ∧ u.chip.rg R.TMG_STAT_STATE 0 = 3 ∧
      u.chip.rg R.TMG_VIG_TIME_SEC 0 = min ((s.chip.tm.vigMs + 1) / 1000) (2 ^ R.TMG_VIG_TIME_SEC.width - 1) := by
  have hvigil : (chipAt s t).InVigil (chipAt s t) := ⟨hvalid, hsel, ha, hb, hstate, rfl, rfl, rfl⟩
  obtain ⟨hshown, hthree⟩ := steerUpdate_vigil hvigil
  simp only [Chip.vigilShown, Prod.mk.injEq] at hshown
  obtain ⟨hms, hy, hr, htime⟩ := hshown
  have hfits : satNat R.TMG_VIG_TIME_SEC.width ((s.chip.tm.vigMs + 1) / 1000) < 2 ^ R.TMG_VIG_TIME_SEC.width :=
    (Nat.min_le_right ..).trans_lt (by decide)
  refine ⟨_, steerUpdate_runs hs t, ?_⟩
  rw [tm_after, rg_after, rg_after]
  exact ⟨hms, hr, hy, hthree, htime.trans (Nat.mod_eq_of_lt hfits)⟩

/-- TIME_STEP of the host by at most 1,000 ns (R288). -/
theorem timeStep_steps (t : Nat) (lo hi : Nat) (s : State) (hs : ready s) (hd : s.chip.domOn 1 = true)
    (hvalid : s.chip.rg R.TMG_STAT_OUT_VALID 0 = 1) (hdelta : bit hi 30 = false)
    (hsmall : absI (sgn 48 (lo % 2 ^ 32 + hi % 65536 * 2 ^ 32)) ≤ 1000) :
    ∃ u, exec (.timeStep t false lo hi) s = .next u ∧ answered u stOk ∧
      u.chip.lNow = (chipAt s t).lNow + sgn 48 (lo % 2 ^ 32 + hi % 65536 * 2 ^ 32) * 65536 ∧
      u.chip.counter C.TMG_OUT_STEP 0 = (s.chip.counter C.TMG_OUT_STEP 0 + 1) % 2 ^ 48 ∧ u.chip.rg R.TMG_EVT_STEPPED 0 = 1 ∧ u.mem = s.mem := by
  obtain ⟨hl, hcount, hmout, hevt⟩ := (chipAt s t).stepL_moves (sgn 48 (lo % 2 ^ 32 + hi % 65536 * 2 ^ 32))
  exact ⟨_, on_answeredIn (f := timeStep false lo hi) hs hd (timeStep_host (c := chipAt s t) hvalid hdelta hsmall), rfl,
    (lNow_answered ..).trans hl, (counter_answered ..).trans hcount, (rg_answered ..).trans hevt,
    mem_answered hs hmout stOk⟩

/-- TIME_STEP of a core (R288). -/
theorem timeStep_refused (t : Nat) (lo hi : Nat) (s : State) (hs : ready s) (hd : s.chip.domOn 1 = true) :
    ∃ u, exec (.timeStep t true lo hi) s = .next u ∧ answered u stRefused ∧ u.chip.tm = s.chip.tm ∧
      u.chip.counter C.TMG_STEP_REFUSED 0 = (s.chip.counter C.TMG_STEP_REFUSED 0 + 1) % 2 ^ 48 ∧ u.chip.rg R.TMG_EVT_STEP_REFUSED 0 = 1 ∧
      regsKept s u [R.TMG_EVT_STEP_REFUSED.key 0] ∧ u.mem = s.mem :=
  ⟨_, on_answeredIn (f := timeStep true lo hi) hs hd rfl, rfl, rfl, Chip.counter_incBy_same .., Chip.rg_wg_same ..,
    fun _ _ hg => Chip.rg_wg_listed hg _ (by decide) 1, mem_answered hs rfl stRefused⟩

/-- SLEW_WRITE of the host within its range (R284). -/
theorem slewWrite_writes (t : Nat) (v : Nat) (s : State) (hs : ready s) (hd : s.chip.domOn 1 = true) (hlow : 1 ≤ v % 65536)
    (hhigh : v % 65536 ≤ s.chip.slewMax) :
    ∃ u, exec (.slewWrite t false v) s = .next u ∧ answered u stOk ∧ u.chip.rg R.TMG_SLEW_SLEW 0 = v % 65536 ∧
      kept s u [R.TMG_SLEW_SLEW.key 0] := by
  have hrow : slewWrite false v (chipAt s t) = ((chipAt s t).wg R.TMG_SLEW_SLEW 0 v, stOk) := by
    rw [slewWrite, if_neg (by decide)]
    exact if_pos ⟨hlow, hhigh⟩
  exact ⟨_, on_answeredIn (f := slewWrite false v) hs hd hrow, rfl, Chip.rg_wg_same ..,
    kept_after_one hs (fun _ _ hg => Chip.rg_wg_other _ _ _ _ _ _ hg.symm) rfl rfl rfl⟩

/-- SLEW_WRITE of a core (R284). -/
theorem slewWrite_refused (t : Nat) (v : Nat) (s : State) (hs : ready s) (hd : s.chip.domOn 1 = true) :
    ∃ u, exec (.slewWrite t true v) s = .next u ∧ answered u stRefused ∧
      u.chip.counter C.TMG_SLEW_REFUSED 0 = (s.chip.counter C.TMG_SLEW_REFUSED 0 + 1) % 2 ^ 48 ∧ u.chip.rg R.TMG_EVT_SLEW_REFUSED 0 = 1 ∧
      regsKept s u [R.TMG_EVT_SLEW_REFUSED.key 0] ∧ u.mem = s.mem :=
  ⟨_, on_answeredIn (f := slewWrite true v) hs hd rfl, rfl, Chip.counter_incBy_same .., Chip.rg_wg_same ..,
    fun _ _ hg => Chip.rg_wg_listed hg _ (by decide) 1, mem_answered hs rfl stRefused⟩

/-- TMG_NS_READ (R265). -/
theorem tmgNsRead_captures (t : Nat) (s : State) (hs : ready s) :
    ∃ u, exec (.tmgNsRead t) s = .next u ∧ u.chip.rg R.TMG_NS_NS 0 = nsOf (chipAt s t).lNow % 2 ^ R.TMG_NS_NS.width ∧
      u.chip.rg R.TMG_FRAC_FRAC 0 = fracOf (chipAt s t).lNow % 2 ^ R.TMG_FRAC_FRAC.width ∧
      u.chip.rg R.TMG_SEC_LO_SEC 0 = secOf (chipAt s t).lNow % 2 ^ 32 ∧ u.chip.rg R.TMG_SEC_HI_SEC 0 = secOf (chipAt s t).lNow / 2 ^ 32 ∧
      newest u = some { kind := .readWord, unit := 0, data := [nsOf (chipAt s t).lNow % 2 ^ R.TMG_NS_NS.width], bytes := [] } ∧
      kept s u [R.TMG_NS_NS.key 0, R.TMG_FRAC_FRAC.key 0, R.TMG_SEC_LO_SEC.key 0, R.TMG_SEC_HI_SEC.key 0, R.TMG_TS_NOW_TS_NS.key 0] := by
  obtain ⟨hns, hfrac, hlo, hhi⟩ := (chipAt s t).captureL_reads
  have hrow : tmgNsRead (chipAt s t) =
      (chipAt s t).captureL.emit .readWord 0 [nsOf (chipAt s t).lNow % 2 ^ R.TMG_NS_NS.width] [] := by
    unfold tmgNsRead
    dsimp only
    rw [hns]
  refine ⟨_, State.on_running s t (fun _ => tmgNsRead) hs.1, ?_⟩
  rw [hrow]
  exact ⟨hns, hfrac, hlo, hhi, rfl, kept_after_but hs (fun _ _ hg => (chipAt s t).captureL_rg_other hg) rfl rfl rfl⟩

/-- OSC_CHECK that faults the primary resonator (R293). -/
theorem oscCheck_faults (t : Nat) (rp rs dp ds : Nat) (s : State) (hs : ready s) (hse : s.chip.rg R.TMG_OSC_STAT_SECONDARY 0 < 3)
    (hne : s.chip.rg R.TMG_OSC_STAT_PRIMARY 0 ≠ s.chip.rg R.TMG_OSC_STAT_SECONDARY 0) (hsp : s.chip.rg R.TMG_OSC_STAT_SPARE 0 ≤ 3)
    (hrp : 10 < rp) (hrun : 2 ≤ Tab.get 0 s.chip.tm.oscRun (s.chip.rg R.TMG_OSC_STAT_PRIMARY 0))
    (hlocked : s.chip.rg R.TMG_DOM_STAT_DSTATE 0 = 2) (hd : ds ≤ dp) :
    ∃ u, exec (.oscCheck t rp rs dp ds) s = .next u ∧ u.chip.rg R.TMG_OSC_STAT_PRIMARY 0 = s.chip.rg R.TMG_OSC_STAT_SECONDARY 0 ∧
      u.chip.rg R.TMG_OSC_STAT_SECONDARY 0 = s.chip.rg R.TMG_OSC_STAT_SPARE 0 ∧ u.chip.rg R.TMG_OSC_STAT_SPARE 0 = 3 ∧
      u.chip.rg R.TMG_EVT_OSC_FAULT 0 = 1 ∧ u.chip.rg R.HLT_SPARE_CHIP_OVEN 0 = 0 ∧ u.chip.rg R.TMG_VIG_STAT_LEARN_H 0 = 0 ∧
      u.chip.counter C.TMG_OSC_FAULT 0 = (s.chip.counter C.TMG_OSC_FAULT 0 + 1) % 2 ^ 48 := by
  have hthird : 3 ≤ Tab.get 0 ((chipAt s t).runsCounted rp rs).tm.oscRun ((chipAt s t).rg R.TMG_OSC_STAT_PRIMARY 0) :=
    (Nat.succ_le_succ hrun).trans_eq (Chip.runsCounted_primary (c := chipAt s t) hne hrp rs).symm
  have hrow := oscCheck_primary (c := chipAt s t) (rp := rp) (rs := rs) hse hthird hlocked hd s.mem
  have hjudged {g : Fld} (hg : R.TMG_OSC_STAT_DISAGREE.key 0 ≠ g.key 0) : ((chipAt s t).runsCounted rp rs).oscJudged.rg g 0 = s.chip.rg g 0 :=
    Chip.oscJudged_rg_other _ hg
  obtain ⟨hprimary, hsecondary, hspare, hevt, hoven, hlearn, hcount⟩ := Chip.oscFault_primary (hjudged (g := R.TMG_OSC_STAT_PRIMARY) (by decide))
    ((hjudged (by decide)).trans_lt (Nat.lt_succ_of_lt hse)) ((hjudged (by decide)).trans_lt (Nat.lt_succ_of_le hsp))
  obtain ⟨hregs, hcnt⟩ := Chip.swapAppend_leaves (((chipAt s t).runsCounted rp rs).oscJudged.oscFault (s.chip.rg R.TMG_OSC_STAT_PRIMARY 0)) s.mem 10 1
    (512 + s.chip.rg R.TMG_OSC_STAT_PRIMARY 0) (512 + ((chipAt s t).runsCounted rp rs).oscJudged.rg R.TMG_OSC_STAT_SPARE 0)
  refine ⟨_, State.on_running s t (fun m => oscCheck m rp rs dp ds) hs.1, ?_⟩
  rw [hrow]
  have hafter (g : Fld) := (rg_after s _ g 0).trans (Chip.rg_of_regs_eq hregs g 0)
  exact ⟨(hafter _).trans (hprimary.trans (hjudged (by decide))),
    (hafter _).trans (hsecondary.trans (hjudged (by decide))), (hafter _).trans hspare,
    (hafter _).trans hevt, (hafter _).trans hoven, (hafter _).trans hlearn,
    (counter_after ..).trans ((congrArg (Tab.get 0 · (C.TMG_OSC_FAULT.key 0)) hcnt).trans hcount)⟩

/-- LEAP_APPLY of a second inserted (R294). -/
theorem leapApply_applies (t : Nat) (s : State) (hs : ready s) (hpending : s.chip.rg R.TMG_UTC_PENDING 0 = 1)
    (hdir : s.chip.rg R.TMG_UTC_DIR 0 = 0)
    (hlate : s.chip.rg R.TMG_LEAP_AT_LO_SEC 0 + s.chip.rg R.TMG_LEAP_AT_HI_SEC 0 * 2 ^ 32 ≤ secOf (chipAt s t).lNow)
    (hroom : s.chip.rs R.TMG_UTC_OFFSET 0 < 32767) :
    ∃ u, exec (.leapApply t) s = .next u ∧ u.chip.rs R.TMG_UTC_OFFSET 0 = s.chip.rs R.TMG_UTC_OFFSET 0 + 1 ∧ u.chip.rg R.TMG_UTC_PENDING 0 = 0 ∧
      u.chip.rg R.TMG_EVT_LEAP_DONE 0 = 1 ∧ kept s u [R.TMG_UTC_OFFSET.key 0, R.TMG_UTC_PENDING.key 0, R.TMG_EVT_LEAP_DONE.key 0] := by
  obtain ⟨hofs, hnone, hevt⟩ := Chip.leapInserted_reads (c := chipAt s t) hroom
  refine ⟨_, State.on_running s t (fun _ => leapApply) hs.1, ?_⟩
  rw [leapApply_inserts (c := chipAt s t) hpending hdir hlate]
  exact ⟨hofs, hnone, hevt, kept_after_but hs (fun _ _ hg => (Chip.rg_wg_listed hg _ (by decide) 1).trans
    ((Chip.rg_wg_listed hg _ (by decide) 0).trans (Chip.rg_wg_listed hg _ (by decide) _))) rfl rfl rfl⟩

/-- Settles O20, command by command: what a steer update or a step does ends in the evaluation of state and class, which a VIGIL in force
goes through unchanged. -/
theorem timeSelectionCommands : Obligations.TimeSelectionCommands :=
  ⟨selCfgWrite_configures, selWtrExpire_selects, steerUpdate_bounds, steerUpdate_ticks, timeStep_steps, timeStep_refused, slewWrite_writes,
    slewWrite_refused, tmgNsRead_captures, oscCheck_faults, leapApply_applies⟩

end Sys2Proof.Safety
end

section
/-! PROOFS. What the timing unit sends (09_time_and_sync.md R295 to R301): a frame of a port's own hardware that leaves at once. -/

namespace Sys2Proof.Machine

open Sys2Proof Sys2Proof.Safety

/-- A cleared bit reads 0. -/
theorem bit_clrBit (v i : Nat) : bit (clrBit v i) i = false := by
  unfold bit clrBit
  split
  · rename_i h
    have hflip := Nat.testBit_two_pow_add_eq (v - 2 ^ i) i
    rw [Nat.add_sub_cancel' (Nat.ge_two_pow_of_testBit h), h] at hflip
    exact Bool.not_eq_true' _ |>.mp hflip.symm
  · rename_i h
    exact Bool.eq_false_iff.mpr h

/-! ## PPS_OUT (R295, R296) -/

/-- The chip with an edge of PPS_OUT driven, at its parameters. -/
def Chip.edgeDriven (c : Chip) (j sec : Nat) : Chip :=
  c.emit .ppsEdge j [sec, c.rg R.TMG_PPSOUT_CFG_POL j, c.rg R.TMG_PPSOUT_CFG_WIDTH j] []

theorem ppsOutEdge_driven {c : Chip} {j sec : Nat} (hen : c.rg R.TMG_PPSOUT_CFG_EN j = 1)
    (hsq : c.squelched (c.rg R.TMG_PPSOUT_CFG_SQ j) = false) (hvio : c.tm.timeVio = true) (hd : c.domOn 1 = true)
    (hsec : (nearSec (c.lNow + (c.rg R.TMG_PPSOUT_CFG_ADV j : Int) * 65536)).1 = sec)
    (hnear : (nearSec (c.lNow + (c.rg R.TMG_PPSOUT_CFG_ADV j : Int) * 65536)).2 ≤ 65536) :
    ppsOutEdge j c =
      if j = 0 then { c.edgeDriven j sec with tm.ppsOutSec := some (sec, c.now) }.linePulse 2 else c.edgeDriven j sec := by
  unfold ppsOutEdge
  dsimp only
  rw [if_neg (by simp [Chip.rb_true hen, hsq, hvio, hd, hnear]), hsec]
  rfl

/-- The chip with an edge of PPS_OUT named, or too late to be. -/
def Chip.edgeSpent (c : Chip) : Chip := { c with tm.ppsOutSec := none }

theorem todTxSend_late {c : Chip} {sec a : Nat} (hedge : c.tm.ppsOutSec = some (sec, a)) (hlate : a + 100 * msPs ≤ c.now)
    (hen : c.rg R.TMG_OUT_CFG_TOD_EN 0 = 1) (hvio : c.tm.timeVio = true) (hd : c.domOn 1 = true) :
    todTxSend c = c.edgeSpent.emit .todMsg 0 [sec] (c.edgeSpent.todMessage sec) := by
  have hsend : c.edgeSpent.rb R.TMG_OUT_CFG_TOD_EN 0 ∧ c.edgeSpent.tm.timeVio = true ∧ c.edgeSpent.domOn 1 = true := ⟨Chip.rb_true hen, hvio, hd⟩
  unfold todTxSend
  rw [hedge]
  exact (if_pos hlate).trans (if_pos hsend)

/-! ## A frame of the port's own hardware (R297) -/

/-- The chip with a frame of `w` bytes on the lane of a port that is free: it is counted as sent, and passes the transmit edge. -/
def Chip.hwSent (c : Chip) (p : Nat) (kind : OutKind) (w : List Byte) : Chip :=
  (c.lineTake p c.now (w.length + 4)).laneOut p kind [c.now] (w ++ fcsBytes w)

/-- The chip with a Sync counted, and its sequenceId taken (R298, R303). -/
def Chip.syncCounted (c : Chip) (p : Nat) : Chip := (c.inc C.TMG_SYNC_SENT 0).wg R.TMG_PTP_STAT_SEQ p (c.rg R.TMG_PTP_STAT_SEQ p + 1)

/-- A port that is UP without a fault, and whose lane is free, sends at once. -/
theorem Chip.hwSend_free {c : Chip} {p : Nat} (hlink : c.rg R.PRT_STAT_LINK p = 2) (hup : c.lineUp p = true) (hfree : c.lineBusy p = false)
    (kind : OutKind) (flag : Bool) : c.hwSend p kind flag = c.hwFrame p kind flag := by
  rw [Chip.hwSend, if_neg (by rw [hlink]; omega), if_pos ⟨hup, hfree⟩]

/-- A port without MACsec sends in clear. -/
theorem Chip.secStart_clear {c : Chip} {p : Nat} (hsec : c.rg R.PRT_SEC_CFG_SEC_EN p = 0) (et : Nat) : c.secStart p et = (c, .clear) :=
  if_pos (.inl (Chip.rb_false (by rw [hsec]; decide)))

theorem Chip.hwFrame_sync {c : Chip} {p : Nat} (hsec : c.rg R.PRT_SEC_CFG_SEC_EN p = 0) : c.hwFrame p .syncFrame false =
    (c.syncCounted p).hwSent p .syncFrame ((c.syncCounted p).syncFrame p (c.lAfter ((c.syncCounted p).lanePs p 64))) := by
  unfold Chip.hwFrame
  dsimp only
  rw [Chip.secStart_clear hsec]
  rfl

theorem Chip.hwFrame_esmc {c : Chip} {p : Nat} (hsec : c.rg R.PRT_SEC_CFG_SEC_EN p = 0) (flag : Bool) : c.hwFrame p .esmcPdu flag =
    (c.inc C.TMG_ESMC_SENT 0).hwSent p .esmcPdu (c.esmcPdu p flag) := by
  unfold Chip.hwFrame
  dsimp only
  rw [Chip.secStart_clear hsec]
  rfl

/-- On a port that is UP and sends no test pattern the frame leaves on the fibre. -/
theorem Chip.hwSent_leaves {c : Chip} {p : Nat} (hlink : c.rg R.PRT_STAT_LINK p = 2) (hprbs : c.rg R.PRT_LOOP_PRBS_GEN p = 0) (kind : OutKind)
    (w : List Byte) : c.hwSent p kind w = (c.lineTake p c.now (w.length + 4)).emit kind p [c.now] (w ++ fcsBytes w) := by
  have hloop : (c.lineTake p c.now (w.length + 4)).nearLoop p = false := by
    have hl : (c.lineTake p c.now (w.length + 4)).rg R.PRT_STAT_LINK p = 2 := hlink
    rw [Chip.nearLoop, hl]
    rfl
  have hgen : (c.lineTake p c.now (w.length + 4)).rb R.PRT_LOOP_PRBS_GEN p = false := Chip.rb_false (c := c) (by rw [hprbs]; decide)
  rw [Chip.hwSent, Chip.laneOut, hloop, hgen, if_neg (by simp), if_neg (by simp)]

/-- The lane counts the frame in the port's counters only. -/
theorem Chip.lineTake_counter (c : Chip) (p start n : Nat) {k : Ctr} {i : Nat} (hframes : C.PRT_TX_FRAMES.key p ≠ k.key i)
    (hbytes : C.PRT_TX_BYTES.key p ≠ k.key i) : (c.lineTake p start n).counter k i = c.counter k i :=
  (Chip.counter_incBy_other _ hbytes.symm n).trans (Chip.counter_incBy_other c hframes.symm 1)

/-- The timing unit's counters stand in front of those of the ports. -/
theorem Ctr.key_ne_of_ports {k l : Ctr} {p : Nat} (hk : 0xC0000 ≤ k.base) (hl : l.base < 0xC0000) : k.key p ≠ l.key 0 := by
  simp only [Ctr.key]
  omega

/-- SEQ of a port is none of the fields of another register of the ports, and none of TMG_OUT_CFG or TMG_STAT. -/
theorem seqKey_ne {p : Fin 128} {g : Fld} {j : Nat} (hg : g.key j < R.TMG_PTP_STAT_SEQ.key 0 ∨ 32 * 0xC0000 ≤ g.key j) :
    R.TMG_PTP_STAT_SEQ.key p ≠ g.key j := by
  have hp := p.isLt
  simp only [Fld.key, R.TMG_PTP_STAT_SEQ] at hg ⊢
  omega

theorem Fld.key_ports {f : Fld} (hf : 0xC0000 ≤ f.reg) (p : Nat) : 32 * 0xC0000 ≤ f.key p := by
  simp only [Fld.key]
  omega

/-- What a Sync counts and takes leaves of the port, of its rate and of the instants of its lane. -/
theorem Chip.syncCounted_port (c : Chip) (p : Fin 128) {f : Fld} (hf : 0xC0000 ≤ f.reg) : (c.syncCounted p).rg f p = c.rg f p :=
  Chip.rg_wg_other _ _ _ _ _ _ (seqKey_ne (.inr (Fld.key_ports hf p)))

theorem Chip.syncCounted_lanePs (c : Chip) (p : Fin 128) (n : Nat) : (c.syncCounted p).lanePs p n = c.lanePs p n :=
  Chip.lanePs_eq (c.syncCounted_port p (by decide)) rfl (Chip.rg_wg_other _ _ _ _ _ _ (seqKey_ne (.inl (by decide))))
    (Chip.rg_wg_other _ _ _ _ _ _ (seqKey_ne (.inl (by decide)))) n

/-- An ESMC PDU that a change of QL owes is taken. -/
def Chip.esmcTaken (c : Chip) (p : Nat) : Chip := { c with tm.esmcDue := clrBit c.tm.esmcDue p }

end Sys2Proof.Machine
end

section
/-! PROOFS. The commands of the timing unit's outputs (09_time_and_sync.md R295 to R301), and the statement about them. -/

namespace Sys2Proof.Safety

open Sys2Proof Sys2Proof.Machine

/-- What a frame of a port's own hardware leaves: it is the newest output, and beside it the lane alone has changed. -/
theorem hwSent_after {s : State} {d : Chip} {p : Nat} (hs : ready s) (hlink : d.rg R.PRT_STAT_LINK p = 2) (hprbs : d.rg R.PRT_LOOP_PRBS_GEN p = 0)
    (hmout : d.mout = s.chip.mout) (kind : OutKind) (w : List Byte) :
    newest (s.after (d.hwSent p kind w)) = some { kind := kind, unit := p, data := [d.now], bytes := w ++ fcsBytes w } ∧
      (s.after (d.hwSent p kind w)).chip.regs = d.regs ∧ (s.after (d.hwSent p kind w)).chip.tm = d.tm ∧
      (∀ k : Ctr, k.base < 0xC0000 → (s.after (d.hwSent p kind w)).chip.counter k 0 = d.counter k 0) ∧
      (s.after (d.hwSent p kind w)).mem = s.mem := by
  rw [Chip.hwSent_leaves hlink hprbs]
  exact ⟨rfl, rfl, rfl, fun k hk => d.lineTake_counter p d.now (w.length + 4) (Ctr.key_ne_of_ports (by decide) hk) (Ctr.key_ne_of_ports (by decide) hk),
    mem_after hs hmout⟩

/-- PPS_OUT_EDGE (R295, R296). -/
theorem ppsOutEdge_drives (t : Nat) (j : Fin 2) (sec : Nat) (s : State) (hs : ready s) (hen : s.chip.rg R.TMG_PPSOUT_CFG_EN j = 1)
    (hsq : (chipAt s t).squelched (s.chip.rg R.TMG_PPSOUT_CFG_SQ j) = false) (hvio : s.chip.tm.timeVio = true) (hd : (chipAt s t).domOn 1 = true)
    (hsec : (nearSec ((chipAt s t).lNow + (s.chip.rg R.TMG_PPSOUT_CFG_ADV j : Int) * 65536)).1 = sec)
    (hnear : (nearSec ((chipAt s t).lNow + (s.chip.rg R.TMG_PPSOUT_CFG_ADV j : Int) * 65536)).2 ≤ 65536) :
    ∃ u, exec (.ppsOutEdge t j) s = .next u ∧
      newest u = some { kind := .ppsEdge, unit := j, data := [sec, s.chip.rg R.TMG_PPSOUT_CFG_POL j, s.chip.rg R.TMG_PPSOUT_CFG_WIDTH j], bytes := [] } ∧
      (j = 0 → u.chip.tm.ppsOutSec = some (sec, max s.chip.now t)) ∧ kept s u [] := by
  have hrow := ppsOutEdge_driven (c := chipAt s t) hen hsq hvio hd hsec hnear
  refine ⟨_, State.on_running s t (fun _ => ppsOutEdge j.val) hs.1, ?_⟩
  rw [hrow]
  by_cases hj : j.val = 0
  · rw [if_pos hj]
    exact ⟨rfl, fun _ => rfl, kept_after hs rfl rfl rfl rfl⟩
  · rw [if_neg hj]
    exact ⟨rfl, fun h => absurd (congrArg Fin.val h) hj, kept_after hs rfl rfl rfl rfl⟩

/-- TOD_TX_SEND (R296). -/
theorem todTxSend_sends (t : Nat) (sec a : Nat) (s : State) (hs : ready s) (hedge : s.chip.tm.ppsOutSec = some (sec, a))
    (hlate : a + 100 * msPs ≤ max s.chip.now t) (hen : s.chip.rg R.TMG_OUT_CFG_TOD_EN 0 = 1) (hvio : s.chip.tm.timeVio = true)
    (hd : (chipAt s t).domOn 1 = true) :
    ∃ u, exec (.todTxSend t) s = .next u ∧
      newest u = some { kind := .todMsg, unit := 0, data := [sec], bytes := (chipAt s t).todMessage sec } ∧ u.chip.tm.ppsOutSec = none ∧
      kept s u [] := by
  refine ⟨_, State.on_running s t (fun _ => todTxSend) hs.1, ?_⟩
  rw [todTxSend_late (c := chipAt s t) hedge hlate hen hvio hd]
  exact ⟨rfl, rfl, kept_after hs rfl rfl rfl rfl⟩

/-- PTP_SYNC_SEND on a port whose lane is free (R297, R298). -/
theorem ptpSyncSend_sends (t : Nat) (p : Fin 128) (s : State) (hs : ready s) (hup : (chipAt s t).lineUp p = true)
    (hlink : s.chip.rg R.PRT_STAT_LINK p = 2) (hd : (chipAt s t).domOn 1 = true) (hfree : (chipAt s t).lineBusy p = false)
    (hprbs : s.chip.rg R.PRT_LOOP_PRBS_GEN p = 0) (hsec : s.chip.rg R.PRT_SEC_CFG_SEC_EN p = 0) (hrole : s.chip.rg R.TMG_PTP_CFG_ROLE p = 1)
    (hpast : (chipAt s t).syncPast p ≤ 65536) :
    ∃ u, exec (.ptpSyncSend t p) s = .next u ∧
      newest u = some {
        kind := .syncFrame, unit := p, data := [max s.chip.now t],
        bytes := ((chipAt s t).wg R.TMG_PTP_STAT_SEQ p (s.chip.rg R.TMG_PTP_STAT_SEQ p + 1)).syncFrame p ((chipAt s t).lAfter ((chipAt s t).lanePs p 64)) ++
          fcsBytes (((chipAt s t).wg R.TMG_PTP_STAT_SEQ p (s.chip.rg R.TMG_PTP_STAT_SEQ p + 1)).syncFrame p ((chipAt s t).lAfter ((chipAt s t).lanePs p 64))) } ∧
      u.chip.rg R.TMG_PTP_STAT_SEQ p = (s.chip.rg R.TMG_PTP_STAT_SEQ p + 1) % 2 ^ R.TMG_PTP_STAT_SEQ.width ∧
      u.chip.counter C.TMG_SYNC_SENT 0 = (s.chip.counter C.TMG_SYNC_SENT 0 + 1) % 2 ^ 48 ∧ regsKept s u [R.TMG_PTP_STAT_SEQ.key p] ∧ u.mem = s.mem := by
  have hable : (chipAt s t).portEnabled p = true := decide_eq_true (.inl hlink)
  have hrow : ptpSyncSend p (chipAt s t) = ((chipAt s t).syncCounted p).hwSent p .syncFrame
      (((chipAt s t).syncCounted p).syncFrame p ((chipAt s t).lAfter ((chipAt s t).lanePs p 64))) := by
    rw [← Chip.syncCounted_lanePs, ← Chip.hwFrame_sync (c := chipAt s t) hsec, ← Chip.hwSend_free (c := chipAt s t) hlink hup hfree]
    exact if_pos ⟨hrole, hd, hable, .inl hpast⟩
  obtain ⟨hnew, hregs, -, hcnt, hmem⟩ := hwSent_after (d := (chipAt s t).syncCounted p) hs
    (((chipAt s t).syncCounted_port p (by decide)).trans hlink) (((chipAt s t).syncCounted_port p (by decide)).trans hprbs) rfl .syncFrame
    (((chipAt s t).syncCounted p).syncFrame p ((chipAt s t).lAfter ((chipAt s t).lanePs p 64)))
  refine ⟨_, State.on_running s t (fun _ => ptpSyncSend p.val) hs.1, ?_⟩
  rw [hrow]
  exact ⟨hnew, (Chip.rg_of_regs_eq hregs ..).trans (Chip.rg_wg_same ..), (hcnt C.TMG_SYNC_SENT (by decide)).trans (Chip.counter_incBy_same ..),
    fun g j hg => (Chip.rg_of_regs_eq hregs ..).trans (Chip.rg_wg_other _ _ _ _ _ _ (List.ne_of_not_mem_cons hg).symm), hmem⟩

/-- What an ESMC PDU that leaves at once does to the chip. -/
theorem esmcSend_after {s : State} {d : Chip} {p : Fin 128} (hs : ready s) (hregs : d.regs = s.chip.regs) (hmout : d.mout = s.chip.mout)
    (hlink : s.chip.rg R.PRT_STAT_LINK p = 2) (hprbs : s.chip.rg R.PRT_LOOP_PRBS_GEN p = 0) (w : List Byte) :
    newest (s.after ((d.inc C.TMG_ESMC_SENT 0).hwSent p .esmcPdu w)) =
        some { kind := .esmcPdu, unit := p, data := [d.now], bytes := w ++ fcsBytes w } ∧
      (s.after ((d.inc C.TMG_ESMC_SENT 0).hwSent p .esmcPdu w)).chip.tm = d.tm ∧
      (s.after ((d.inc C.TMG_ESMC_SENT 0).hwSent p .esmcPdu w)).chip.counter C.TMG_ESMC_SENT 0 = (d.counter C.TMG_ESMC_SENT 0 + 1) % 2 ^ 48 ∧
      regsKept s (s.after ((d.inc C.TMG_ESMC_SENT 0).hwSent p .esmcPdu w)) [] ∧
      (s.after ((d.inc C.TMG_ESMC_SENT 0).hwSent p .esmcPdu w)).mem = s.mem := by
  obtain ⟨hnew, hkept, htm, hcnt, hmem⟩ := hwSent_after (d := d.inc C.TMG_ESMC_SENT 0) hs ((Chip.rg_of_regs_eq hregs ..).trans hlink)
    ((Chip.rg_of_regs_eq hregs ..).trans hprbs) hmout .esmcPdu w
  exact ⟨hnew, htm, (hcnt C.TMG_ESMC_SENT (by decide)).trans (Chip.counter_incBy_same ..), fun _ _ _ => Chip.rg_of_regs_eq (hkept.trans hregs) .., hmem⟩

/-- ESMC_INFO_SEND on a port whose lane is free (R301). -/
theorem esmcInfoSend_sends (t : Nat) (p : Fin 128) (s : State) (hs : ready s) (hup : (chipAt s t).lineUp p = true)
    (hlink : s.chip.rg R.PRT_STAT_LINK p = 2) (hd : (chipAt s t).domOn 1 = true) (hfree : (chipAt s t).lineBusy p = false)
    (hprbs : s.chip.rg R.PRT_LOOP_PRBS_GEN p = 0) (hsec : s.chip.rg R.PRT_SEC_CFG_SEC_EN p = 0) (hen : s.chip.rg R.TMG_PTP_CFG_ESMC_EN p = 1) :
    ∃ u, exec (.esmcInfoSend t p) s = .next u ∧
      newest u = some { kind := .esmcPdu, unit := p, data := [max s.chip.now t], bytes := s.chip.esmcPdu p false ++ fcsBytes (s.chip.esmcPdu p false) } ∧
      u.chip.counter C.TMG_ESMC_SENT 0 = (s.chip.counter C.TMG_ESMC_SENT 0 + 1) % 2 ^ 48 ∧ regsKept s u [] ∧ u.mem = s.mem := by
  have hrow : esmcInfoSend p (chipAt s t) = ((chipAt s t).inc C.TMG_ESMC_SENT 0).hwSent p .esmcPdu (s.chip.esmcPdu p false) := by
    rw [← Chip.esmcPdu_tick, ← Chip.hwFrame_esmc (c := chipAt s t) hsec, ← Chip.hwSend_free (c := chipAt s t) hlink hup hfree]
    exact if_pos ⟨Chip.rb_true hen, hd⟩
  obtain ⟨hnew, -, hcnt, hregs, hmem⟩ := esmcSend_after (d := chipAt s t) hs rfl rfl hlink hprbs (s.chip.esmcPdu p false)
  refine ⟨_, State.on_running s t (fun _ => esmcInfoSend p.val) hs.1, ?_⟩
  rw [hrow]
  exact ⟨hnew, hcnt, hregs, hmem⟩

/-- ESMC_EVENT_SEND on a port whose lane is free (R301). -/
theorem esmcEventSend_sends (t : Nat) (p : Fin 128) (s : State) (hs : ready s) (hup : (chipAt s t).lineUp p = true)
    (hlink : s.chip.rg R.PRT_STAT_LINK p = 2) (hd : (chipAt s t).domOn 1 = true) (hfree : (chipAt s t).lineBusy p = false)
    (hprbs : s.chip.rg R.PRT_LOOP_PRBS_GEN p = 0) (hsec : s.chip.rg R.PRT_SEC_CFG_SEC_EN p = 0) (hen : s.chip.rg R.TMG_PTP_CFG_ESMC_EN p = 1)
    (hdue : bit s.chip.tm.esmcDue p = true) :
    ∃ u, exec (.esmcEventSend t p) s = .next u ∧
      newest u = some { kind := .esmcPdu, unit := p, data := [max s.chip.now t], bytes := s.chip.esmcPdu p true ++ fcsBytes (s.chip.esmcPdu p true) } ∧
      bit u.chip.tm.esmcDue p = false ∧ u.chip.counter C.TMG_ESMC_SENT 0 = (s.chip.counter C.TMG_ESMC_SENT 0 + 1) % 2 ^ 48 ∧ regsKept s u [] ∧
      u.mem = s.mem := by
  have hpdu : ((chipAt s t).esmcTaken p).esmcPdu p true = s.chip.esmcPdu p true := rfl
  have hrow : esmcEventSend p (chipAt s t) = (((chipAt s t).esmcTaken p).inc C.TMG_ESMC_SENT 0).hwSent p .esmcPdu (s.chip.esmcPdu p true) := by
    rw [← hpdu, ← Chip.hwFrame_esmc (c := (chipAt s t).esmcTaken p) hsec, ← Chip.hwSend_free (c := (chipAt s t).esmcTaken p) hlink hup hfree]
    exact if_pos ⟨hdue, Chip.rb_true hen, hd⟩
  obtain ⟨hnew, htm, hcnt, hregs, hmem⟩ := esmcSend_after (d := (chipAt s t).esmcTaken p) hs rfl rfl hlink hprbs (s.chip.esmcPdu p true)
  refine ⟨_, State.on_running s t (fun _ => esmcEventSend p.val) hs.1, ?_⟩
  rw [hrow]
  exact ⟨hnew, (congrArg (fun x : TmSt => bit x.esmcDue p) htm).trans (bit_clrBit ..), hcnt, hregs, hmem⟩

/-- Settles O21, command by command: a frame of a port's own hardware takes the lane and leaves with its FCS. -/
theorem timeOutputCommands : Obligations.TimeOutputCommands :=
  ⟨ppsOutEdge_drives, todTxSend_sends, ptpSyncSend_sends, esmcInfoSend_sends, esmcEventSend_sends⟩

end Sys2Proof.Safety
end

section
/-! PROOFS. The lanes of the host port (10_ports_and_lanes.md R318 to R320), and the statement about them. -/

namespace Sys2Proof.Machine

open Sys2Proof

/-! ## The host link trains (R318) -/

theorem Chip.hostMode_of (c : Chip) : c.hostMode = if c.rg R.HST_LANE_CFG_MODE 0 = 1 then 1 else 2 := rfl

theorem Chip.hostTrain_link (c : Chip) : c.hostTrain.rg R.HST_STAT_LINK 0 = 1 :=
  (Chip.rg_wg_other _ R.HST_STAT_MODE_ACT R.HST_STAT_LINK 0 0 _ (by decide)).trans (Chip.rg_wg_same ..)

theorem Chip.hostTrain_mode (c : Chip) : c.hostTrain.rg R.HST_STAT_MODE_ACT 0 = c.hostMode := by
  refine (Chip.rg_wg_same _ R.HST_STAT_MODE_ACT 0 c.hostMode).trans (Nat.mod_eq_of_lt ?_)
  rw [Chip.hostMode_of]
  split <;> decide

theorem Chip.hostTrain_rg_other (c : Chip) {g : Fld} {j : Nat} (hlink : R.HST_STAT_LINK.key 0 ≠ g.key j)
    (hmode : R.HST_STAT_MODE_ACT.key 0 ≠ g.key j) : c.hostTrain.rg g j = c.rg g j :=
  (Chip.rg_wg_other _ _ _ _ _ _ hmode).trans (Chip.rg_wg_other _ _ _ _ _ _ hlink)

theorem hostModeAlternate_down {c : Chip} (hlink : c.rg R.HST_STAT_LINK 0 = 0) (hd : c.domOn 5 = true) : hostModeAlternate c = c.hostTrain :=
  if_pos ⟨hlink, hd⟩

/-- The chip with the other of the two modes tried from now on (R318). -/
def Chip.hostModeSwapped (c : Chip) : Chip := { c.wg R.HST_STAT_MODE_ACT 0 (3 - c.rg R.HST_STAT_MODE_ACT 0) with pt.hostAt := c.now }

theorem hostModeAlternate_late {c : Chip} (hauto : c.rg R.HST_LANE_CFG_MODE 0 = 0) (hlink : c.rg R.HST_STAT_LINK 0 = 1)
    (hlate : c.pt.hostAt + 50 * msPs ≤ c.now) : hostModeAlternate c = c.hostModeSwapped := by
  have hup : ¬(c.rg R.HST_STAT_LINK 0 = 0 ∧ c.domOn 5 = true) := fun h => by simp [hlink] at h
  exact (if_neg hup).trans (if_pos ⟨hauto, hlink, hlate⟩)

theorem hostBlockLock_held {c : Chip} (hlink : c.rg R.HST_STAT_LINK 0 = 1) (hheld : c.pt.hostAt + msPs ≤ c.now) (hd : c.domOn 5 = true) :
    hostBlockLock c = (c.wg R.HST_STAT_LINK 0 2).hostFlush := if_pos ⟨hlink, hheld, hd⟩

/-- The chip whose host link has lost its lock: it retrains from the mode it was in (log entry 40). -/
def Chip.hostLinkLost (c : Chip) : Chip := { (c.wg R.HST_STAT_LINK 0 1).inc C.HST_LINK_DOWN 0 with pt.hostAt := c.now }

theorem hostLinkDown_up {c : Chip} (hlink : c.rg R.HST_STAT_LINK 0 = 2) : hostLinkDown c = c.hostLinkLost := if_pos hlink

/-! ## A write of HST_LANE_CFG takes effect (R318) -/

/-- The chip with the six fields of HST_LANE_CFG written from a word whose MODE is none of the reserved value. -/
def Chip.laneWritten (c : Chip) (v : Nat) : Chip :=
  (((((({ c with pt.lane := none } : Chip).wg R.HST_LANE_CFG_MODE 0 (bits v 0 2)).wg R.HST_LANE_CFG_FEC_EN 0 (bits v 2 1)).wg
    R.HST_LANE_CFG_SSC 0 (bits v 3 1)).wg R.HST_LANE_CFG_TX_INV 0 (bits v 4 4)).wg R.HST_LANE_CFG_RX_INV 0 (bits v 8 4)).wg
    R.HST_LANE_CFG_RX_MAP 0 (bits v 12 8)

/-- The chip with those fields written and SSC_MISMATCH brought up to date; a link that was UP counts as lost. -/
def Chip.laneApplied (c : Chip) (v : Nat) : Chip :=
  (c.laneWritten v).sscCheck.incBy C.HST_LINK_DOWN 0 (b2n (decide ((c.laneWritten v).sscCheck.rg R.HST_STAT_LINK 0 = 2)))

theorem hostLaneApply_due {c : Chip} {v a : Nat} (hlane : c.pt.lane = some (v, a)) (hdue : a ≤ c.now) (hmode : bits v 0 2 ≠ 3) :
    hostLaneApply c = (c.laneApplied v).hostTrain := by
  unfold hostLaneApply
  rw [hlane]
  dsimp only
  rw [if_pos hdue, if_neg hmode]
  rfl

/-- A field of HST_LANE_CFG that holds the bits it was given. -/
theorem Chip.laneWritten_reads (c : Chip) (v : Nat) :
    (c.laneWritten v).rg R.HST_LANE_CFG_MODE 0 = bits v 0 2 ∧ (c.laneWritten v).rg R.HST_LANE_CFG_FEC_EN 0 = bits v 2 1 ∧
      (c.laneWritten v).rg R.HST_LANE_CFG_SSC 0 = bits v 3 1 ∧ (c.laneWritten v).rg R.HST_LANE_CFG_TX_INV 0 = bits v 4 4 ∧
      (c.laneWritten v).rg R.HST_LANE_CFG_RX_INV 0 = bits v 8 4 ∧ (c.laneWritten v).rg R.HST_LANE_CFG_RX_MAP 0 = bits v 12 8 := by
  unfold Chip.laneWritten
  refine ⟨?_, ?_, ?_, ?_, ?_, ?_⟩
  all_goals repeat rw [Chip.rg_wg_other _ _ _ _ _ _ (Fld.key_ne_of_apart (by decide))]
  all_goals exact (Chip.rg_wg_same ..).trans (bits_mod ..)

/-- What follows the write leaves the lane configuration. -/
theorem Chip.laneApplied_cfg (c : Chip) (v : Nat) {g : Fld} (h : R.HST_STAT_SSC_MISMATCH.key 0 ≠ g.key 0) :
    (c.laneApplied v).rg g 0 = (c.laneWritten v).rg g 0 := Chip.rg_wg_other _ _ _ _ _ _ h

/-- The lane configuration of a host link that trains after the write. -/
theorem Chip.laneApplied_trains (c : Chip) (v : Nat) {g : Fld} (hmis : R.HST_STAT_SSC_MISMATCH.key 0 ≠ g.key 0)
    (hlink : R.HST_STAT_LINK.key 0 ≠ g.key 0) (hmode : R.HST_STAT_MODE_ACT.key 0 ≠ g.key 0) :
    (c.laneApplied v).hostTrain.rg g 0 = (c.laneWritten v).rg g 0 :=
  (Chip.hostTrain_rg_other _ hlink hmode).trans (c.laneApplied_cfg v hmis)

/-! ## Spread on HOST_REFCLK (R320) -/

/-- A number of 8 bits is read as it was written. -/
theorem sgn_unsgn_byte {x : Int} (hlow : -128 ≤ x) (hhigh : x ≤ 127) : sgn 8 (unsgn 8 (satInt 8 x) % 2 ^ 8) = x := by
  have hsat : satInt 8 x = x := by unfold satInt; rw [if_neg (by omega), if_neg (by omega)]
  rw [hsat]
  unfold sgn unsgn
  split <;> omega

/-- The chip with the two readings of the reference noted. -/
def Chip.sscNoted (c : Chip) (det : Bool) (ofs : Int) : Chip := (c.wb R.HST_STAT_SSC_DET 0 det).ws R.HST_STAT_REFCLK_OFS 0 ofs

theorem Chip.sscNoted_det (c : Chip) (det : Bool) (ofs : Int) : (c.sscNoted det ofs).rg R.HST_STAT_SSC_DET 0 = b2n det := by
  rw [Chip.sscNoted, Chip.ws_eq, Chip.rg_wg_other _ _ _ _ _ _ (by decide), Chip.wb_eq, Chip.rg_wg_same]
  cases det <;> rfl

theorem Chip.sscNoted_ofs (c : Chip) (det : Bool) {ofs : Int} (hlow : -128 ≤ ofs) (hhigh : ofs ≤ 127) :
    (c.sscNoted det ofs).rs R.HST_STAT_REFCLK_OFS 0 = ofs := by
  rw [Chip.rs, Chip.sscNoted, Chip.ws_eq, Chip.rg_wg_same]
  exact sgn_unsgn_byte hlow hhigh

theorem Chip.sscNoted_rg_other (c : Chip) (det : Bool) (ofs : Int) {g : Fld} {j : Nat} (hdet : R.HST_STAT_SSC_DET.key 0 ≠ g.key j)
    (hofs : R.HST_STAT_REFCLK_OFS.key 0 ≠ g.key j) : (c.sscNoted det ofs).rg g j = c.rg g j :=
  (Chip.rg_wg_other _ _ _ _ _ _ hofs).trans (Chip.rg_wg_other _ _ _ _ _ _ hdet)

theorem Chip.sscCheck_mismatch (c : Chip) :
    c.sscCheck.rg R.HST_STAT_SSC_MISMATCH 0 = b2n (c.rb R.HST_STAT_SSC_DET 0 != c.rb R.HST_LANE_CFG_SSC 0) := by
  rw [Chip.sscCheck, Chip.wb_eq, Chip.rg_wg_same]
  cases c.rb R.HST_STAT_SSC_DET 0 <;> cases c.rb R.HST_LANE_CFG_SSC 0 <;> rfl

theorem Chip.sscCheck_rg_other (c : Chip) {g : Fld} {j : Nat} (h : R.HST_STAT_SSC_MISMATCH.key 0 ≠ g.key j) : c.sscCheck.rg g j = c.rg g j :=
  Chip.rg_wg_other _ _ _ _ _ _ h

end Sys2Proof.Machine

namespace Sys2Proof.Safety

open Sys2Proof Sys2Proof.Machine

/-- HOST_LANE_CFG (R318). -/
theorem hostLaneCfg_waits (t v : Nat) (s : State) (hs : ready s) (hd : s.chip.domOn 5 = true) :
    ∃ u, exec (.hostLaneCfg t v) s = .next u ∧ answered u stOk ∧ u.chip.pt.lane = some (v, max s.chip.now t + msPs) ∧ kept s u [] :=
  ⟨_, on_answeredIn (f := hostLaneCfg v) hs hd rfl, rfl, rfl, kept_after hs rfl rfl rfl rfl⟩

/-- HOST_LANE_APPLY: the fields are written and the link trains (R318). -/
theorem hostLaneApply_trains (t v a : Nat) (s : State) (hs : ready s) (hlane : s.chip.pt.lane = some (v, a)) (hdue : a ≤ max s.chip.now t)
    (hmode : bits v 0 2 ≠ 3) :
    ∃ u, exec (.hostLaneApply t) s = .next u ∧ u.chip.pt.lane = none ∧ u.chip.rg R.HST_LANE_CFG_MODE 0 = bits v 0 2 ∧
      u.chip.rg R.HST_LANE_CFG_FEC_EN 0 = bits v 2 1 ∧ u.chip.rg R.HST_LANE_CFG_SSC 0 = bits v 3 1 ∧
      u.chip.rg R.HST_LANE_CFG_TX_INV 0 = bits v 4 4 ∧ u.chip.rg R.HST_LANE_CFG_RX_INV 0 = bits v 8 4 ∧
      u.chip.rg R.HST_LANE_CFG_RX_MAP 0 = bits v 12 8 ∧ u.chip.rg R.HST_STAT_LINK 0 = 1 ∧
      u.chip.rg R.HST_STAT_MODE_ACT 0 = (if bits v 0 2 = 1 then 1 else 2) ∧ u.chip.pt.hostAt = max s.chip.now t ∧ u.mem = s.mem := by
  obtain ⟨hm, hfec, hssc, htx, hrx, hmap⟩ := (chipAt s t).laneWritten_reads v
  have hkeep {g : Fld} := (chipAt s t).laneApplied_trains v (g := g)
  have hfirst : ((chipAt s t).laneApplied v).hostMode = if bits v 0 2 = 1 then 1 else 2 := by
    rw [Chip.hostMode_of, Chip.laneApplied_cfg _ _ (by decide), hm]
  refine ⟨_, State.on_running s t (fun _ => hostLaneApply) hs.1, ?_⟩
  rw [hostLaneApply_due (c := chipAt s t) hlane hdue hmode]
  exact ⟨rfl, (hkeep (by decide) (by decide) (by decide)).trans hm, (hkeep (by decide) (by decide) (by decide)).trans hfec,
    (hkeep (by decide) (by decide) (by decide)).trans hssc, (hkeep (by decide) (by decide) (by decide)).trans htx,
    (hkeep (by decide) (by decide) (by decide)).trans hrx, (hkeep (by decide) (by decide) (by decide)).trans hmap,
    Chip.hostTrain_link _, (Chip.hostTrain_mode _).trans hfirst, rfl, mem_after hs rfl⟩

/-- HOST_MODE_ALTERNATE of a link that reads DOWN since reset (R318). -/
theorem hostModeAlternate_begins (t : Nat) (s : State) (hs : ready s) (hlink : s.chip.rg R.HST_STAT_LINK 0 = 0)
    (hd : (chipAt s t).domOn 5 = true) :
    ∃ u, exec (.hostModeAlternate t) s = .next u ∧ u.chip.rg R.HST_STAT_LINK 0 = 1 ∧
      u.chip.rg R.HST_STAT_MODE_ACT 0 = (if s.chip.rg R.HST_LANE_CFG_MODE 0 = 1 then 1 else 2) ∧ u.chip.pt.hostAt = max s.chip.now t ∧
      kept s u [R.HST_STAT_LINK.key 0, R.HST_STAT_MODE_ACT.key 0] := by
  refine ⟨_, State.on_running s t (fun _ => hostModeAlternate) hs.1, ?_⟩
  rw [hostModeAlternate_down (c := chipAt s t) hlink hd]
  refine ⟨Chip.hostTrain_link _, (chipAt s t).hostTrain_mode, rfl, kept_after_but hs (fun g j hg => ?_) rfl rfl rfl⟩
  simp only [List.mem_cons, List.not_mem_nil, or_false, not_or] at hg
  obtain ⟨hglink, hgmode⟩ := hg
  exact (chipAt s t).hostTrain_rg_other (Ne.symm hglink) (Ne.symm hgmode)

/-- HOST_MODE_ALTERNATE after 50 ms of AUTO in one mode (R318). -/
theorem hostModeAlternate_swaps (t : Nat) (s : State) (hs : ready s) (hauto : s.chip.rg R.HST_LANE_CFG_MODE 0 = 0)
    (hlink : s.chip.rg R.HST_STAT_LINK 0 = 1) (hlate : s.chip.pt.hostAt + 50 * msPs ≤ max s.chip.now t) :
    ∃ u, exec (.hostModeAlternate t) s = .next u ∧
      u.chip.rg R.HST_STAT_MODE_ACT 0 = (3 - s.chip.rg R.HST_STAT_MODE_ACT 0) % 2 ^ R.HST_STAT_MODE_ACT.width ∧
      u.chip.pt.hostAt = max s.chip.now t ∧ kept s u [R.HST_STAT_MODE_ACT.key 0] := by
  refine ⟨_, State.on_running s t (fun _ => hostModeAlternate) hs.1, ?_⟩
  rw [hostModeAlternate_late (c := chipAt s t) hauto hlink hlate]
  exact ⟨Chip.rg_wg_same .., rfl, kept_after_one hs (fun g j hg => Chip.rg_wg_other _ _ _ _ _ _ (Ne.symm hg)) rfl rfl rfl⟩

/-- HOST_BLOCK_LOCK with nothing that waits for the port (R318, R319). -/
theorem hostBlockLock_locks (t : Nat) (s : State) (hs : ready s) (hwait : s.chip.hp.txWait = []) (hlink : s.chip.rg R.HST_STAT_LINK 0 = 1)
    (hheld : s.chip.pt.hostAt + msPs ≤ max s.chip.now t) (hd : (chipAt s t).domOn 5 = true) :
    ∃ u, exec (.hostBlockLock t) s = .next u ∧ u.chip.rg R.HST_STAT_LINK 0 = 2 ∧ kept s u [R.HST_STAT_LINK.key 0] := by
  obtain ⟨hp, hflush⟩ := Chip.hostFlush_none (c := (chipAt s t).wg R.HST_STAT_LINK 0 2) hwait
  refine ⟨_, State.on_running s t (fun _ => hostBlockLock) hs.1, ?_⟩
  rw [hostBlockLock_held (c := chipAt s t) hlink hheld hd, hflush]
  exact ⟨Chip.rg_wg_same .., kept_after_one hs (fun g j hg => Chip.rg_wg_other _ _ _ _ _ _ (Ne.symm hg)) rfl rfl rfl⟩

/-- HOST_LINK_DOWN (R318; log entry 40). -/
theorem hostLinkDown_retrains (t : Nat) (s : State) (hs : ready s) (hlink : s.chip.rg R.HST_STAT_LINK 0 = 2) :
    ∃ u, exec (.hostLinkDown t) s = .next u ∧ u.chip.rg R.HST_STAT_LINK 0 = 1 ∧
      u.chip.counter C.HST_LINK_DOWN 0 = (s.chip.counter C.HST_LINK_DOWN 0 + 1) % 2 ^ 48 ∧ u.chip.pt.hostAt = max s.chip.now t ∧
      regsKept s u [R.HST_STAT_LINK.key 0] ∧ u.mem = s.mem := by
  refine ⟨_, State.on_running s t (fun _ => hostLinkDown) hs.1, ?_⟩
  rw [hostLinkDown_up (c := chipAt s t) hlink]
  exact ⟨Chip.rg_wg_same (chipAt s t) .., Chip.counter_incBy_same .., rfl,
    fun g j hg => Chip.rg_wg_other (chipAt s t) _ _ _ _ _ (Ne.symm (List.ne_of_not_mem_cons hg)), mem_after hs rfl⟩

/-- SSC_DETECT (R320). -/
theorem sscDetect_notes (t : Nat) (det : Bool) (ofs : Int) (s : State) (hs : ready s) (hlow : -128 ≤ ofs) (hhigh : ofs ≤ 127) :
    ∃ u, exec (.sscDetect t det ofs) s = .next u ∧ u.chip.rg R.HST_STAT_SSC_DET 0 = b2n det ∧ u.chip.rs R.HST_STAT_REFCLK_OFS 0 = ofs ∧
      u.chip.rg R.HST_STAT_SSC_MISMATCH 0 = b2n (det != s.chip.rb R.HST_LANE_CFG_SSC 0) ∧
      kept s u [R.HST_STAT_SSC_DET.key 0, R.HST_STAT_REFCLK_OFS.key 0, R.HST_STAT_SSC_MISMATCH.key 0] := by
  have hdet : ((chipAt s t).sscNoted det ofs).rb R.HST_STAT_SSC_DET 0 = det := by
    rw [Chip.rb, Chip.sscNoted_det]
    cases det <;> rfl
  have hssc : ((chipAt s t).sscNoted det ofs).rb R.HST_LANE_CFG_SSC 0 = s.chip.rb R.HST_LANE_CFG_SSC 0 := by
    rw [Chip.rb, Chip.sscNoted_rg_other _ _ _ (by decide) (by decide), Chip.rb]
    rfl
  refine ⟨_, State.on_running s t (fun _ => sscDetect det ofs) hs.1, ?_, ?_, ?_, kept_after_but hs (fun g j hg => ?_) rfl rfl rfl⟩
  · exact (Chip.sscCheck_rg_other _ (by decide)).trans ((chipAt s t).sscNoted_det det ofs)
  · exact (congrArg (sgn 8) (Chip.sscCheck_rg_other _ (by decide))).trans ((chipAt s t).sscNoted_ofs det hlow hhigh)
  · exact (Chip.sscCheck_mismatch _).trans (by rw [← Chip.sscNoted, hdet, hssc])
  · simp only [List.mem_cons, List.not_mem_nil, or_false, not_or] at hg
    obtain ⟨hgdet, hgofs, hgmis⟩ := hg
    exact (Chip.sscCheck_rg_other _ (Ne.symm hgmis)).trans ((chipAt s t).sscNoted_rg_other det ofs (Ne.symm hgdet) (Ne.symm hgofs))

/-- Settles O24, command by command: the link trains, locks and is lost, and what is read of the lanes and the reference is written. -/
theorem hostPortCommands : Obligations.HostPortCommands :=
  ⟨hostLaneCfg_waits, hostLaneApply_trains, hostModeAlternate_begins, hostModeAlternate_swaps, hostBlockLock_locks, hostLinkDown_retrains,
    sscDetect_notes⟩

end Sys2Proof.Safety
end

section
/-! PROOFS. Transmission on the sensor bus (10_ports_and_lanes.md R322 to R324, R326), and the statement about it. -/

namespace Sys2Proof.Machine

open Sys2Proof

/-! ## The frame at the head of those to send (R322, R326) -/

/-- The MAC runs and the wire is free, so that the head of the frames to send may start. -/
theorem Chip.sbusHead_free {c : Chip} {x : SbusTx} {r : List SbusTx} (hen : c.rg R.SBS_CFG_EN 0 = 1) (hd : c.domOn 2 = true)
    (htx : c.pt.sbTx = x :: r) (hstart : x.start = none) (hpast : ∀ y ∈ c.pt.sbHist, y.2 ≤ c.now) : c.sbusHead = some (x, r) := by
  have hall : c.pt.sbHist.all (fun y => decide (y.2 ≤ c.now)) = true := List.all_eq_true.mpr fun y hy => decide_eq_true (hpast y hy)
  unfold Chip.sbusHead
  rw [htx]
  exact if_pos ⟨Chip.rb_true hen, hd, by rw [hstart]; rfl, hall⟩

/-- With no transmission remembered a frame keeps the duty bound by its own length. -/
theorem Chip.sbusFits_first {c : Chip} {d : Nat} (hhist : c.pt.sbHist = []) (hd : d ≤ c.dutyMax * msPs) : c.sbusFits d = true := by
  have hused : c.sbusUsed (c.now + d) = 0 := by rw [Chip.sbusUsed, hhist]; rfl
  rw [Chip.sbusFits, hused, Nat.zero_add]
  exact decide_eq_true hd

/-- In the first 100 ms one transmission counts in full. -/
theorem Chip.sbusFits_over {c : Chip} {d a b : Nat} (hhist : c.pt.sbHist = [(a, b)]) (hearly : c.now + d ≤ 100 * msPs)
    (hover : c.dutyMax * msPs < b - a + d) : c.sbusFits d = false := by
  have hused : c.sbusUsed (c.now + d) = b - a := by
    rw [Chip.sbusUsed, hhist, Nat.sub_eq_zero_of_le hearly]
    simp [sbusSince]
  rw [Chip.sbusFits, hused]
  exact decide_eq_false (Nat.not_le.mpr hover)

/-- The chip with `rest` waiting, and the time from now until `e` on the wire remembered. -/
def Chip.sbusOnWire (c : Chip) (rest : List SbusTx) (e : Nat) : Chip := ({ c with pt.sbTx := rest } : Chip).sbusKeep e

theorem Chip.sbusOnWire_first {c : Chip} (hhist : c.pt.sbHist = []) (rest : List SbusTx) (e : Nat) :
    (c.sbusOnWire rest e).pt.sbHist = [(c.now, e)] := by
  rw [Chip.sbusOnWire, Chip.sbusKeep]
  dsimp only
  rw [hhist]
  rfl

/-- The chip with the frame `x` sent without a collision. -/
def Chip.sbusSent (c : Chip) (x : SbusTx) (rest : List SbusTx) : Chip :=
  ((c.sbusOnWire rest (c.now + sbusPs x.bytes.length)).inc C.SBS_TX_FRAMES 0).emit .sbusFrame 0 [] x.bytes

theorem Chip.sbusStart_done {c : Chip} {x : SbusTx} (hfits : c.sbusFits (sbusPs x.bytes.length) = true) (rest : List SbusTx) :
    c.sbusStart x rest .done = c.sbusSent x rest := by
  unfold Chip.sbusStart
  dsimp only
  rw [hfits, if_neg (by decide)]
  rfl

/-- The chip with the frame `x` held by the duty bound. -/
def Chip.sbusHeld (c : Chip) (x : SbusTx) (rest : List SbusTx) : Chip :=
  (({ c with pt.sbTx := { x with held := true } :: rest } : Chip).inc C.SBS_GUARD_HELD 0).wg R.SBS_EVT_GUARD_HELD 0 1

theorem Chip.sbusStart_over {c : Chip} {x : SbusTx} (hover : c.sbusFits (sbusPs x.bytes.length) = false) (hheld : x.held = false)
    (rest : List SbusTx) (way : SbusWay) : c.sbusStart x rest way = c.sbusHeld x rest := by
  unfold Chip.sbusStart
  dsimp only
  rw [if_pos hover, hheld, if_neg (by decide)]
  rfl

/-- The frame `x` after its first collision, with its backoff drawn: none or one slot time after the jam (R322). -/
def SbusTx.backedOff (x : SbusTx) (e draw : Nat) : SbusTx := { x with attempt := 1, held := false, backoff := e + draw % 2 ^ 1 * sbusSlot }

/-- The chip after a collision of the first attempt of the frame `x`, its jam over at `e`. -/
def Chip.sbusCollided (c : Chip) (x : SbusTx) (rest : List SbusTx) (e : Nat) : Chip :=
  { ((c.sbusKeep e).inc C.SBS_COLLISIONS 0).draw.2 with pt.sbTx := x.backedOff e (Config.freeVal c.fresh) :: rest }

theorem Chip.sbusStart_collides {c : Chip} {x : SbusTx} (hfits : c.sbusFits (sbusPs x.bytes.length) = true) (hfirst : x.attempt = 0)
    (rest : List SbusTx) (a : Nat) :
    c.sbusStart x rest (.collides a) = c.sbusCollided x rest (c.now + min a (sbusPs x.bytes.length) + 3200000) := by
  unfold Chip.sbusStart
  dsimp only
  rw [hfits, if_neg (by decide), hfirst, if_neg (by decide)]
  rfl

/-- A draw of one bit waits for no slot time or for one. -/
theorem SbusTx.backedOff_waits (x : SbusTx) (e draw : Nat) : (x.backedOff e draw).backoff = e ∨ (x.backedOff e draw).backoff = e + sbusSlot := by
  rcases Nat.mod_two_eq_zero_or_one draw with h | h
  · exact .inl (by rw [SbusTx.backedOff, Nat.pow_one, h, Nat.zero_mul, Nat.add_zero])
  · exact .inr (by rw [SbusTx.backedOff, Nat.pow_one, h, Nat.one_mul])

/-! ## The commands of the MAC -/

theorem sbusFrameTx_first {c : Chip} {x : SbusTx} {r : List SbusTx} (hhead : c.sbusHead = some (x, r)) (hfirst : x.attempt = 0)
    (hheld : x.held = false) (way : SbusWay) : sbusFrameTx way c = c.sbusStart x r way := by
  unfold sbusFrameTx
  rw [hhead]
  exact if_pos ⟨hfirst, hheld⟩

theorem sbusBackoffEnd_due {c : Chip} {x : SbusTx} {r : List SbusTx} (hhead : c.sbusHead = some (x, r)) (hlater : 0 < x.attempt)
    (hheld : x.held = false) (hdue : x.backoff ≤ c.now) (way : SbusWay) : sbusBackoffEnd way c = c.sbusStart x r way := by
  unfold sbusBackoffEnd
  rw [hhead]
  exact if_pos ⟨hlater, hheld, hdue⟩

theorem sbusGuardRelease_held {c : Chip} {x : SbusTx} {r : List SbusTx} (hhead : c.sbusHead = some (x, r)) (hheld : x.held = true)
    (way : SbusWay) : sbusGuardRelease way c = c.sbusStart x r way := by
  unfold sbusGuardRelease
  rw [hhead]
  exact if_pos hheld

/-- The chip with a transmission that began at `a` cut off. -/
def Chip.sbusCut (c : Chip) (rest : List SbusTx) (a : Nat) : Chip :=
  ({ c with pt.sbTx := rest, pt.sbHist := c.pt.sbHist ++ [(a, c.now)] } : Chip).inc C.SBS_JABBER 0

theorem sbusJabber_late {c : Chip} {x : SbusTx} {r : List SbusTx} {a : Nat} (htx : c.pt.sbTx = x :: r) (hstart : x.start = some a)
    (hlate : a + 2 * msPs ≤ c.now) : sbusJabber c = c.sbusCut r a := by
  unfold sbusJabber
  rw [htx]
  dsimp only
  rw [hstart]
  exact if_pos hlate

/-! ## Polls (R324) -/

/-- The chip with the instant of an entry's next poll set. -/
def Chip.pollPlanned (c : Chip) (e : Nat) : Chip :=
  { c with pt.pollDue := c.pt.pollDue.set e (c.now + c.rg R.SBS_POLL_CFG_INTERVAL e * 10 * msPs) }

theorem sbusPollSend_due {c : Chip} {e : Nat} (hen : c.rg R.SBS_CFG_EN 0 = 1) (hd : c.domOn 2 = true) (hentry : c.rg R.SBS_POLL_CFG_EN e = 1)
    (hdue : Tab.get 0 c.pt.pollDue e ≤ c.now) :
    sbusPollSend e c = (c.pollPlanned e).pollSend
      { entry := e, seq := 0, sent := 0, left := c.rg R.SBS_POLL_CFG_RETRY e, tmo := c.rg R.SBS_POLL_CFG_TIMEOUT e * msPs } :=
  if_pos ⟨Chip.rb_true hen, hd, Chip.rb_true hentry, hdue⟩

/-- A poll takes the next SEQ of its entry and writes no other register. -/
theorem Chip.pollSend_seq (c : Chip) (p : Poll) :
    (c.pollSend p).rg R.SBS_POLL_STAT_SEQ p.entry = (c.rg R.SBS_POLL_STAT_SEQ p.entry + 1) % 65536 :=
  (Chip.rg_wg_same ..).trans (Nat.mod_mod ..)

theorem Chip.pollSend_rg_other (c : Chip) (p : Poll) {g : Fld} {j : Nat} (h : R.SBS_POLL_STAT_SEQ.key p.entry ≠ g.key j) :
    (c.pollSend p).rg g j = c.rg g j := Chip.rg_wg_other _ _ _ _ _ _ h

/-- The chip with the one poll that waits given up, and its entry noted as lost. -/
def Chip.pollLost (c : Chip) (e : Nat) : Chip :=
  ((({ c with pt.polls := [] } : Chip).inc C.SBS_POLL_MISS 0).wg R.SBS_POLL_STAT_LOST e 1).wg R.SBS_EVT_POLL_LOST 0 1

theorem sbusPollTimeout_last {c : Chip} {e : Nat} {p : Poll} (hpolls : c.pt.polls = [p]) (hentry : p.entry = e) (hleft : p.left = 0)
    (hlate : p.sent + p.tmo ≤ c.now) : sbusPollTimeout e c = c.pollLost e := by
  have hfind : [p].find? (fun q => decide (q.entry = e ∧ q.sent + q.tmo ≤ c.now)) = some p :=
    List.find?_cons_of_pos (decide_eq_true ⟨hentry, hlate⟩)
  have hnone : [p].filter (fun q => decide (q.entry ≠ e ∨ q.seq ≠ p.seq)) = [] :=
    List.filter_cons_of_neg (by simp [hentry])
  unfold sbusPollTimeout
  rw [hpolls, hfind]
  dsimp only
  rw [hnone, hleft, if_neg (Nat.lt_irrefl 0)]
  rfl

end Sys2Proof.Machine

namespace Sys2Proof.Safety

open Sys2Proof Sys2Proof.Machine

/-- What a frame that is sent without a collision leaves, with no transmission remembered before it. -/
theorem sbusSent_after {s : State} {t : Nat} (hs : ready s) (hhist : s.chip.pt.sbHist = []) (x : SbusTx) (r : List SbusTx) :
    (s.after ((chipAt s t).sbusSent x r)).chip.pt.sbTx = r ∧
      newest (s.after ((chipAt s t).sbusSent x r)) = some { kind := .sbusFrame, unit := 0, data := [], bytes := x.bytes } ∧
      (s.after ((chipAt s t).sbusSent x r)).chip.counter C.SBS_TX_FRAMES 0 = (s.chip.counter C.SBS_TX_FRAMES 0 + 1) % 2 ^ 48 ∧
      (s.after ((chipAt s t).sbusSent x r)).chip.pt.sbHist = [(max s.chip.now t, max s.chip.now t + sbusPs x.bytes.length)] ∧
      regsKept s (s.after ((chipAt s t).sbusSent x r)) [] ∧ (s.after ((chipAt s t).sbusSent x r)).mem = s.mem :=
  ⟨rfl, rfl, Chip.counter_incBy_same .., Chip.sbusOnWire_first (c := chipAt s t) hhist r _, fun _ _ _ => rfl, mem_after hs rfl⟩

/-- SBUS_FRAME_TX of a frame that keeps the duty bound and meets no collision (R322). -/
theorem sbusFrameTx_sends (t : Nat) (x : SbusTx) (r : List SbusTx) (s : State) (hs : ready s) (hen : s.chip.rg R.SBS_CFG_EN 0 = 1)
    (hd : (chipAt s t).domOn 2 = true) (htx : s.chip.pt.sbTx = x :: r) (hstart : x.start = none) (hhist : s.chip.pt.sbHist = [])
    (hfirst : x.attempt = 0) (hheld : x.held = false) (hduty : sbusPs x.bytes.length ≤ s.chip.dutyMax * msPs) :
    ∃ u, exec (.sbusFrameTx t none false) s = .next u ∧ u.chip.pt.sbTx = r ∧
      newest u = some { kind := .sbusFrame, unit := 0, data := [], bytes := x.bytes } ∧
      u.chip.counter C.SBS_TX_FRAMES 0 = (s.chip.counter C.SBS_TX_FRAMES 0 + 1) % 2 ^ 48 ∧
      u.chip.pt.sbHist = [(max s.chip.now t, max s.chip.now t + sbusPs x.bytes.length)] ∧ regsKept s u [] ∧ u.mem = s.mem := by
  have hhead := Chip.sbusHead_free (c := chipAt s t) hen hd htx hstart (by simp [hhist])
  refine ⟨_, State.on_running s t (fun _ => sbusFrameTx .done) hs.1, ?_⟩
  rw [sbusFrameTx_first hhead hfirst hheld, Chip.sbusStart_done (Chip.sbusFits_first (c := chipAt s t) hhist hduty)]
  exact sbusSent_after hs hhist x r

/-- SBUS_FRAME_TX of a frame that meets a collision (R322). -/
theorem sbusFrameTx_collides (t a : Nat) (runs : Bool) (x : SbusTx) (r : List SbusTx) (s : State) (hs : ready s)
    (hen : s.chip.rg R.SBS_CFG_EN 0 = 1) (hd : (chipAt s t).domOn 2 = true) (htx : s.chip.pt.sbTx = x :: r) (hstart : x.start = none)
    (hhist : s.chip.pt.sbHist = []) (hfirst : x.attempt = 0) (hheld : x.held = false)
    (hduty : sbusPs x.bytes.length ≤ s.chip.dutyMax * msPs) :
    ∃ u, exec (.sbusFrameTx t (some a) runs) s = .next u ∧
      u.chip.counter C.SBS_COLLISIONS 0 = (s.chip.counter C.SBS_COLLISIONS 0 + 1) % 2 ^ 48 ∧
      u.chip.pt.sbTx.map (fun y => (y.bytes, y.attempt)) = (x.bytes, 1) :: r.map (fun y => (y.bytes, y.attempt)) ∧
      (∀ y ∈ u.chip.pt.sbTx.head?, y.backoff = max s.chip.now t + min a (sbusPs x.bytes.length) + 3200000 ∨
        y.backoff = max s.chip.now t + min a (sbusPs x.bytes.length) + 3200000 + sbusSlot) ∧ regsKept s u [] ∧ u.mem = s.mem := by
  have hhead := Chip.sbusHead_free (c := chipAt s t) hen hd htx hstart (by simp [hhist])
  refine ⟨_, State.on_running s t (fun _ => sbusFrameTx (.collides a)) hs.1, ?_⟩
  rw [sbusFrameTx_first hhead hfirst hheld, Chip.sbusStart_collides (Chip.sbusFits_first (c := chipAt s t) hhist hduty) hfirst]
  refine ⟨Chip.counter_incBy_same .., rfl, fun y hy => ?_, fun _ _ _ => rfl, mem_after hs rfl⟩
  rw [← Option.some.inj hy]
  exact SbusTx.backedOff_waits ..

/-- SBUS_FRAME_TX of a frame that would break the duty bound (R326). -/
theorem sbusFrameTx_holds (t : Nat) (x : SbusTx) (r : List SbusTx) (a b : Nat) (s : State) (hs : ready s)
    (hen : s.chip.rg R.SBS_CFG_EN 0 = 1) (hd : (chipAt s t).domOn 2 = true) (htx : s.chip.pt.sbTx = x :: r) (hstart : x.start = none)
    (hhist : s.chip.pt.sbHist = [(a, b)]) (hfirst : x.attempt = 0) (hheld : x.held = false) (hpast : b ≤ max s.chip.now t)
    (hearly : max s.chip.now t + sbusPs x.bytes.length ≤ 100 * msPs)
    (hover : s.chip.dutyMax * msPs < b - a + sbusPs x.bytes.length) :
    ∃ u, exec (.sbusFrameTx t none false) s = .next u ∧ u.chip.pt.sbTx = { x with held := true } :: r ∧
      u.chip.counter C.SBS_GUARD_HELD 0 = (s.chip.counter C.SBS_GUARD_HELD 0 + 1) % 2 ^ 48 ∧ u.chip.rg R.SBS_EVT_GUARD_HELD 0 = 1 ∧
      regsKept s u [R.SBS_EVT_GUARD_HELD.key 0] ∧ u.mem = s.mem := by
  have hhead := Chip.sbusHead_free (c := chipAt s t) hen hd htx hstart (by simpa [hhist] using hpast)
  refine ⟨_, State.on_running s t (fun _ => sbusFrameTx .done) hs.1, ?_⟩
  rw [sbusFrameTx_first hhead hfirst hheld, Chip.sbusStart_over (Chip.sbusFits_over (c := chipAt s t) hhist hearly hover) hheld]
  exact ⟨rfl, Chip.counter_incBy_same .., Chip.rg_wg_same ..,
    fun g j hg => Chip.rg_wg_other _ _ _ _ _ _ (Ne.symm (List.ne_of_not_mem_cons hg)), mem_after hs rfl⟩

/-- SBUS_BACKOFF_END (R322). -/
theorem sbusBackoffEnd_sends (t : Nat) (x : SbusTx) (r : List SbusTx) (s : State) (hs : ready s) (hen : s.chip.rg R.SBS_CFG_EN 0 = 1)
    (hd : (chipAt s t).domOn 2 = true) (htx : s.chip.pt.sbTx = x :: r) (hstart : x.start = none) (hhist : s.chip.pt.sbHist = [])
    (hlater : 0 < x.attempt) (hheld : x.held = false) (hdue : x.backoff ≤ max s.chip.now t)
    (hduty : sbusPs x.bytes.length ≤ s.chip.dutyMax * msPs) :
    ∃ u, exec (.sbusBackoffEnd t none false) s = .next u ∧ u.chip.pt.sbTx = r ∧
      newest u = some { kind := .sbusFrame, unit := 0, data := [], bytes := x.bytes } ∧
      u.chip.counter C.SBS_TX_FRAMES 0 = (s.chip.counter C.SBS_TX_FRAMES 0 + 1) % 2 ^ 48 ∧
      u.chip.pt.sbHist = [(max s.chip.now t, max s.chip.now t + sbusPs x.bytes.length)] ∧ regsKept s u [] ∧ u.mem = s.mem := by
  have hhead := Chip.sbusHead_free (c := chipAt s t) hen hd htx hstart (by simp [hhist])
  refine ⟨_, State.on_running s t (fun _ => sbusBackoffEnd .done) hs.1, ?_⟩
  rw [sbusBackoffEnd_due hhead hlater hheld hdue, Chip.sbusStart_done (Chip.sbusFits_first (c := chipAt s t) hhist hduty)]
  exact sbusSent_after hs hhist x r

/-- SBUS_GUARD_RELEASE (R326). -/
theorem sbusGuardRelease_sends (t : Nat) (x : SbusTx) (r : List SbusTx) (s : State) (hs : ready s) (hen : s.chip.rg R.SBS_CFG_EN 0 = 1)
    (hd : (chipAt s t).domOn 2 = true) (htx : s.chip.pt.sbTx = x :: r) (hstart : x.start = none) (hhist : s.chip.pt.sbHist = [])
    (hheld : x.held = true) (hduty : sbusPs x.bytes.length ≤ s.chip.dutyMax * msPs) :
    ∃ u, exec (.sbusGuardRelease t none false) s = .next u ∧ u.chip.pt.sbTx = r ∧
      newest u = some { kind := .sbusFrame, unit := 0, data := [], bytes := x.bytes } ∧
      u.chip.counter C.SBS_TX_FRAMES 0 = (s.chip.counter C.SBS_TX_FRAMES 0 + 1) % 2 ^ 48 ∧
      u.chip.pt.sbHist = [(max s.chip.now t, max s.chip.now t + sbusPs x.bytes.length)] ∧ regsKept s u [] ∧ u.mem = s.mem := by
  have hhead := Chip.sbusHead_free (c := chipAt s t) hen hd htx hstart (by simp [hhist])
  refine ⟨_, State.on_running s t (fun _ => sbusGuardRelease .done) hs.1, ?_⟩
  rw [sbusGuardRelease_held hhead hheld, Chip.sbusStart_done (Chip.sbusFits_first (c := chipAt s t) hhist hduty)]
  exact sbusSent_after hs hhist x r

/-- SBUS_JABBER (R322). -/
theorem sbusJabber_cuts (t : Nat) (x : SbusTx) (r : List SbusTx) (a : Nat) (s : State) (hs : ready s) (htx : s.chip.pt.sbTx = x :: r)
    (hstart : x.start = some a) (hlate : a + 2 * msPs ≤ max s.chip.now t) :
    ∃ u, exec (.sbusJabber t) s = .next u ∧ u.chip.pt.sbTx = r ∧
      u.chip.counter C.SBS_JABBER 0 = (s.chip.counter C.SBS_JABBER 0 + 1) % 2 ^ 48 ∧
      u.chip.pt.sbHist = s.chip.pt.sbHist ++ [(a, max s.chip.now t)] ∧ regsKept s u [] ∧ u.mem = s.mem := by
  refine ⟨_, State.on_running s t (fun _ => sbusJabber) hs.1, ?_⟩
  rw [sbusJabber_late (c := chipAt s t) htx hstart hlate]
  exact ⟨rfl, Chip.counter_incBy_same .., rfl, fun _ _ _ => rfl, mem_after hs rfl⟩

/-- SBUS_POLL_SEND (R323, R324). -/
theorem sbusPollSend_polls (t : Nat) (e : Fin 64) (s : State) (hs : ready s) (hen : s.chip.rg R.SBS_CFG_EN 0 = 1)
    (hd : (chipAt s t).domOn 2 = true) (hentry : s.chip.rg R.SBS_POLL_CFG_EN e = 1) (hdue : Tab.get 0 s.chip.pt.pollDue e ≤ max s.chip.now t) :
    ∃ u, exec (.sbusPollSend t e) s = .next u ∧ u.chip.rg R.SBS_POLL_STAT_SEQ e = (s.chip.rg R.SBS_POLL_STAT_SEQ e + 1) % 65536 ∧
      u.chip.counter C.SBS_POLL_SENT 0 = (s.chip.counter C.SBS_POLL_SENT 0 + 1) % 2 ^ 48 ∧
      u.chip.pt.sbTx.map (fun y => y.bytes) = s.chip.pt.sbTx.map (fun y => y.bytes) ++
        [framed (beBytes 6 (s.chip.pollDa e) ++ beBytes 6 s.chip.sbusMac ++ beBytes 2 0x88B6 ++ beBytes 1 0x41 ++ beBytes 1 0 ++
          beBytes 2 ((s.chip.rg R.SBS_POLL_STAT_SEQ e + 1) % 65536) ++ beBytes 2 16 ++
          (List.range 4).flatMap (fun w => beBytes 4 (s.chip.rg R.SBS_POLL_BODY_BYTES (8 * e + w))))] ∧
      u.chip.pt.polls = s.chip.pt.polls ++ [{
        entry := e, seq := (s.chip.rg R.SBS_POLL_STAT_SEQ e + 1) % 65536, sent := max s.chip.now t, left := s.chip.rg R.SBS_POLL_CFG_RETRY e,
        tmo := s.chip.rg R.SBS_POLL_CFG_TIMEOUT e * msPs }] ∧
      Tab.get 0 u.chip.pt.pollDue e = max s.chip.now t + s.chip.rg R.SBS_POLL_CFG_INTERVAL e * 10 * msPs ∧
      regsKept s u [R.SBS_POLL_STAT_SEQ.key e] ∧ u.mem = s.mem := by
  refine ⟨_, State.on_running s t (fun _ => sbusPollSend e.val) hs.1, ?_⟩
  rw [sbusPollSend_due (c := chipAt s t) hen hd hentry hdue]
  exact ⟨Chip.pollSend_seq .., Chip.counter_incBy_same .., List.map_append .., rfl, Tab.get_set_same ..,
    fun g j hg => Chip.pollSend_rg_other _ _ (Ne.symm (List.ne_of_not_mem_cons hg)), mem_after hs rfl⟩

/-- SBUS_POLL_TIMEOUT with no retry left (R324). -/
theorem sbusPollTimeout_loses (t : Nat) (e : Fin 64) (p : Poll) (s : State) (hs : ready s) (hpolls : s.chip.pt.polls = [p])
    (hentry : p.entry = e) (hleft : p.left = 0) (hlate : p.sent + p.tmo ≤ max s.chip.now t) :
    ∃ u, exec (.sbusPollTimeout t e) s = .next u ∧
      u.chip.counter C.SBS_POLL_MISS 0 = (s.chip.counter C.SBS_POLL_MISS 0 + 1) % 2 ^ 48 ∧ u.chip.rg R.SBS_POLL_STAT_LOST e = 1 ∧
      u.chip.rg R.SBS_EVT_POLL_LOST 0 = 1 ∧ u.chip.pt.polls = [] ∧
      regsKept s u [R.SBS_POLL_STAT_LOST.key e, R.SBS_EVT_POLL_LOST.key 0] ∧ u.mem = s.mem := by
  refine ⟨_, State.on_running s t (fun _ => sbusPollTimeout e.val) hs.1, ?_⟩
  rw [sbusPollTimeout_last (c := chipAt s t) hpolls hentry hleft hlate]
  refine ⟨Chip.counter_incBy_same .., ?_, Chip.rg_wg_same .., rfl, fun g j hg => ?_, mem_after hs rfl⟩
  · exact (Chip.rg_wg_other _ _ _ _ _ _ (Fld.key_ne_of_apart (by decide))).trans (Chip.rg_wg_same ..)
  · simp only [List.mem_cons, List.not_mem_nil, or_false, not_or] at hg
    obtain ⟨hglost, hgevt⟩ := hg
    exact (Chip.rg_wg_other _ _ _ _ _ _ (Ne.symm hgevt)).trans (Chip.rg_wg_other _ _ _ _ _ _ (Ne.symm hglost))

/-- Settles O25, command by command: a frame starts, collides, is held or cut off, and polls are sent and given up. -/
theorem sensorBusSendCommands : Obligations.SensorBusSendCommands :=
  ⟨sbusFrameTx_sends, sbusFrameTx_collides, sbusFrameTx_holds, sbusBackoffEnd_sends, sbusGuardRelease_sends, sbusJabber_cuts, sbusPollSend_polls,
    sbusPollTimeout_loses⟩

end Sys2Proof.Safety
end

section
/-! PROOFS. Frames received on the sensor bus (10_ports_and_lanes.md R324, R325; 12_management_cores.md R365), and the statement about them. -/

namespace Sys2Proof.Machine

open Sys2Proof

/-! ## A frame is received and queued (R324, R365) -/

/-- A frame for the terminal of a legal length with a good FCS is counted, has its effect and is queued. -/
theorem Chip.sbusRx_good {c : Chip} {l : List Byte} (hmine : c.sbusMine l = true) (hmin : 60 ≤ l.length) (hmax : l.length ≤ 1514)
    (f : Chip → Chip) : c.sbusRx l true true f = (f (c.inc C.SBS_RX_FRAMES 0)).sbusStore l := by
  have hlen : ¬(l.length < 60 ∨ 1514 < l.length) := by omega
  unfold Chip.sbusRx
  rw [hmine, if_neg (by simpa using hlen), if_neg (by decide)]

/-- With a bad FCS it is only counted. -/
theorem Chip.sbusRx_badFcs {c : Chip} {l : List Byte} (hmine : c.sbusMine l = true) (hmin : 60 ≤ l.length) (hmax : l.length ≤ 1514)
    (f : Chip → Chip) : c.sbusRx l false true f = c.inc C.SBS_RX_FCS_ERR 0 := by
  have hlen : ¬(l.length < 60 ∨ 1514 < l.length) := by omega
  unfold Chip.sbusRx
  rw [hmine, if_neg (by simpa using hlen), if_pos rfl]

/-- A frame from the DA of an entry that finds work queue 32 full is dropped and counted. -/
theorem Chip.sbusStore_full {c : Chip} {l : List Byte} {e : Nat} (hfrom : c.sbusFrom l = [e]) (hfull : c.wqFree 32 = false) :
    c.sbusStore l = c.inc C.SBS_SBS_QFULL 0 := by
  simp only [Chip.sbusStore, hfrom, List.isEmpty_cons, Bool.false_eq_true, if_false, hfull]

/-- A register field that tells neither the DA of an entry nor the fill of a work queue. -/
def sbusApart (k : Nat) : Prop :=
  (∀ e, k ≠ R.SBS_POLL_DA_LO_DA.key e ∧ k ≠ R.SBS_POLL_DA_HI_DA.key e) ∧ k < 32 * 0x110000

theorem sbusApart_lost (e : Fin 64) : sbusApart (R.SBS_POLL_STAT_LOST.key e) := by
  simp only [sbusApart, Fld.key, R.SBS_POLL_STAT_LOST, R.SBS_POLL_DA_LO_DA, R.SBS_POLL_DA_HI_DA]
  exact ⟨fun _ => ⟨by omega, by omega⟩, by omega⟩

/-- The words of the bus in front of those of its poll entries. -/
theorem sbusApart_of_lt {k : Nat} (h : k < 32 * 0xF0400) : sbusApart k := by
  simp only [sbusApart, Fld.key, R.SBS_POLL_DA_LO_DA, R.SBS_POLL_DA_HI_DA]
  exact ⟨fun _ => ⟨by omega, by omega⟩, by omega⟩

theorem Chip.sbusFrom_of_regs_eq {c d : Chip} (h : d.regs = c.regs) (l : List Byte) : d.sbusFrom l = c.sbusFrom l := by
  have hda (e : Nat) : d.pollDa e = c.pollDa e := by rw [Chip.pollDa, Chip.rg_of_regs_eq h, Chip.rg_of_regs_eq h, Chip.pollDa]
  simp only [Chip.sbusFrom, hda]

theorem Chip.wqFree_of_regs_eq {c d : Chip} (h : d.regs = c.regs) (w : Nat) : d.wqFree w = c.wqFree w := by
  have hocc : d.wqOcc w = c.wqOcc w := by rw [Chip.wqOcc, Chip.rg_of_regs_eq h, Chip.rg_of_regs_eq h, Chip.wqOcc]
  have hslots : d.wqSlots w = c.wqSlots w := by rw [Chip.wqSlots, Chip.rg_of_regs_eq h, Chip.wqSlots]
  rw [Chip.wqFree, hocc, hslots, Chip.rb, Chip.rg_of_regs_eq h, ← Chip.rb, ← Chip.wqFree]

theorem Chip.pollDa_wg (c : Chip) {f : Fld} {i : Nat} (h : sbusApart (f.key i)) (v e : Nat) : (c.wg f i v).pollDa e = c.pollDa e := by
  obtain ⟨hda, -⟩ := h
  obtain ⟨hlo, hhi⟩ := hda e
  rw [Chip.pollDa, Chip.rg_wg_other _ _ _ _ _ _ hlo, Chip.rg_wg_other _ _ _ _ _ _ hhi, Chip.pollDa]

theorem Chip.sbusFrom_wg (c : Chip) {f : Fld} {i : Nat} (h : sbusApart (f.key i)) (v : Nat) (l : List Byte) :
    (c.wg f i v).sbusFrom l = c.sbusFrom l := by
  simp only [Chip.sbusFrom, c.pollDa_wg h]

/-- Queue 32 has a fixed number of slots; its ENABLE, HEAD and TAIL stand behind the registers of the bus. -/
theorem Chip.wqFree_wg (c : Chip) {f : Fld} {i : Nat} (h : sbusApart (f.key i)) (v : Nat) : (c.wg f i v).wqFree 32 = c.wqFree 32 := by
  have hkeep {g : Fld} (hg : 32 * 0x110000 ≤ g.key 32) : (c.wg f i v).rg g 32 = c.rg g 32 :=
    Chip.rg_wg_other _ _ _ _ _ _ (Nat.ne_of_lt (h.2.trans_le hg))
  have hocc : (c.wg f i v).wqOcc 32 = c.wqOcc 32 := by
    rw [Chip.wqOcc, Chip.wqOcc, hkeep (by decide), hkeep (by decide)]
  rw [Chip.wqFree, Chip.wqFree, hocc, Chip.rb, Chip.rb, hkeep (by decide)]
  rfl

/-! ## A REPLY (R324) -/

/-- The chip with no poll that waits, and LOST of an entry cleared. -/
def Chip.pollAnswered (c : Chip) (e : Nat) : Chip := ({ c with pt.polls := [] } : Chip).wg R.SBS_POLL_STAT_LOST e 0

theorem Chip.pollAnswered_lost (c : Chip) (e : Nat) : (c.pollAnswered e).rg R.SBS_POLL_STAT_LOST e = 0 := Chip.rg_wg_same ..

theorem Chip.pollAnswered_rg_other (c : Chip) {e : Nat} {g : Fld} {j : Nat} (h : R.SBS_POLL_STAT_LOST.key e ≠ g.key j) :
    (c.pollAnswered e).rg g j = c.rg g j := Chip.rg_wg_other _ _ _ _ _ _ h

theorem Chip.pollAnswered_from (c : Chip) (e : Fin 64) (l : List Byte) : (c.pollAnswered e).sbusFrom l = c.sbusFrom l :=
  (Chip.sbusFrom_wg _ (sbusApart_lost e) 0 l).trans (Chip.sbusFrom_of_regs_eq rfl l)

theorem Chip.pollAnswered_full (c : Chip) (e : Fin 64) : (c.pollAnswered e).wqFree 32 = c.wqFree 32 :=
  (Chip.wqFree_wg _ (sbusApart_lost e) 0).trans (Chip.wqFree_of_regs_eq rfl 32)

/-- The REPLY to the one poll that waits. -/
theorem Chip.sbusAnswer_one {c : Chip} {l : List Byte} {e : Nat} {p : Poll} (hfrom : c.sbusFrom l = [e]) (hpolls : c.pt.polls = [p])
    (hentry : p.entry = e) (hseq : p.seq = beAt l 16 2) : c.sbusAnswer l = c.pollAnswered e := by
  have hany : [p].any (fun q => decide (q.entry = e ∧ q.seq = beAt l 16 2)) = true := by simp [hentry, hseq]
  have hnone : [p].filter (fun q => decide (q.entry ≠ e ∨ q.seq ≠ beAt l 16 2)) = [] := by simp [hentry, hseq]
  rw [Chip.sbusAnswer, hfrom, List.foldl_cons, List.foldl_nil, hpolls, if_pos hany, hnone]
  rfl

/-! ## An ALARM (R325) -/

theorem alarmFld_cases (e : Nat) : alarmFld e = R.SBS_ALARM_LO_BITS ∨ alarmFld e = R.SBS_ALARM_HI_BITS := by
  unfold alarmFld
  split
  · exact .inl rfl
  · exact .inr rfl

theorem maskFld_cases (e : Nat) : maskFld e = R.SBS_MASK_LO_BITS ∨ maskFld e = R.SBS_MASK_HI_BITS := by
  unfold maskFld
  split
  · exact .inl rfl
  · exact .inr rfl

theorem sbusApart_alarm (e : Nat) : sbusApart ((alarmFld e).key 0) := by
  rcases alarmFld_cases e with h | h <;> rw [h] <;> exact sbusApart_of_lt (by decide)

/-- An alarm word and a mask word are none of SBS_EVT. -/
theorem alarmFld_key_evt (e : Nat) : R.SBS_EVT_ALARM.key 0 ≠ (alarmFld e).key 0 := by
  rcases alarmFld_cases e with h | h <;> rw [h] <;> decide

theorem maskFld_key_evt (e : Nat) : R.SBS_EVT_ALARM_STUCK.key 0 ≠ (maskFld e).key 0 := by
  rcases maskFld_cases e with h | h <;> rw [h] <;> decide

theorem alarmFld_width (e : Nat) : (alarmFld e).width = 32 := by
  rcases alarmFld_cases e with h | h <;> rw [h] <;> rfl

theorem maskFld_width (e : Nat) : (maskFld e).width = 32 := by
  rcases maskFld_cases e with h | h <;> rw [h] <;> rfl

/-- A set bit reads 1. -/
theorem bit_setBit (v i : Nat) : bit (setBit v i) i = true := by
  unfold bit setBit
  split
  · assumption
  · rename_i h
    rw [Nat.add_comm, Nat.testBit_two_pow_add_eq, Bool.eq_false_iff.mpr h]
    rfl

/-- A bit of a word of 32 bits reads 1 once it is set. -/
theorem Chip.wbit_set (c : Chip) {f : Fld} (hw : f.width = 32) (i : Nat) {k : Nat} (hk : k < 32) : (c.wbit f i k true).rbit f i k = true := by
  rw [Chip.rbit, Chip.wbit, Chip.rg_wg_same, hw, bit, Nat.testBit_mod_two_pow, decide_eq_true hk, Bool.true_and]
  exact bit_setBit ..

/-- The chip with the instant of the last accepted change of entry `e` noted. -/
def Chip.almChanged (c : Chip) (e : Nat) : Chip := { c with pt.almAt := c.pt.almAt.set e c.now }

/-- The chip with the first alarm of entry `e` accepted: its bit, its instants, the count and the event. -/
def Chip.alarmRaised (c : Chip) (e : Nat) : Chip := (((c.almChanged e).alarmBit e true).inc C.SBS_ALARM_EVENTS 0).wg R.SBS_EVT_ALARM 0 1

/-- An active STATE for an entry whose bit and mask are clear and that had no change before. -/
theorem Chip.sbusAlarm_first {c : Chip} {e : Nat} (hclear : c.rbit (alarmFld e) 0 (e % 32) = false)
    (hmask : c.rbit (maskFld e) 0 (e % 32) = false) (hnone : c.pt.almAt.find e = none) : c.sbusAlarm e true = c.alarmRaised e := by
  unfold Chip.sbusAlarm
  dsimp only
  rw [if_pos rfl, hclear, if_neg (by decide), hnone, hmask]
  rfl

theorem Chip.alarmRaised_bit (c : Chip) (e : Nat) : (c.alarmRaised e).rbit (alarmFld e) 0 (e % 32) = true := by
  rw [Chip.rbit, Chip.alarmRaised, Chip.rg_wg_other _ _ _ _ _ _ (alarmFld_key_evt e)]
  exact (c.almChanged e).wbit_set (alarmFld_width e) 0 (Nat.mod_lt _ (by decide))

theorem Chip.alarmRaised_event (c : Chip) (e : Nat) : (c.alarmRaised e).rg R.SBS_EVT_ALARM 0 = 1 := Chip.rg_wg_same ..

theorem Chip.alarmRaised_rg_other (c : Chip) (e : Nat) {g : Fld} {j : Nat} (hbit : (alarmFld e).key 0 ≠ g.key j)
    (hevt : R.SBS_EVT_ALARM.key 0 ≠ g.key j) : (c.alarmRaised e).rg g j = c.rg g j :=
  (Chip.rg_wg_other _ _ _ _ _ _ hevt).trans (Chip.rg_wg_other _ _ _ _ _ _ hbit)

theorem Chip.alarmRaised_from (c : Chip) (e : Nat) (l : List Byte) : (c.alarmRaised e).sbusFrom l = c.sbusFrom l :=
  (Chip.sbusFrom_wg _ (sbusApart_of_lt (by decide)) 1 l).trans (Chip.sbusFrom_wg c (sbusApart_alarm e) _ l)

theorem Chip.alarmRaised_full (c : Chip) (e : Nat) : (c.alarmRaised e).wqFree 32 = c.wqFree 32 :=
  (Chip.wqFree_wg _ (sbusApart_of_lt (by decide)) 1).trans (Chip.wqFree_wg c (sbusApart_alarm e) _)

/-- The chip with the bit of entry `e` masked as stuck. -/
def Chip.alarmMasked (c : Chip) (e : Nat) : Chip := (c.wbit (maskFld e) 0 (e % 32) true).wg R.SBS_EVT_ALARM_STUCK 0 1

theorem sbusAlarmStuck_late {c : Chip} {e a : Nat} (hon : c.pt.almOn.find e = some a) (hlate : a + c.rg R.SBS_CFG_STUCK 0 * secPs ≤ c.now)
    (hmask : c.rbit (maskFld e) 0 (e % 32) = false) : sbusAlarmStuck e c = c.alarmMasked e := by
  unfold sbusAlarmStuck
  rw [hon]
  exact if_pos ⟨hlate, hmask⟩

theorem Chip.alarmMasked_bit (c : Chip) (e : Nat) : (c.alarmMasked e).rbit (maskFld e) 0 (e % 32) = true := by
  rw [Chip.rbit, Chip.alarmMasked, Chip.rg_wg_other _ _ _ _ _ _ (maskFld_key_evt e)]
  exact c.wbit_set (maskFld_width e) 0 (Nat.mod_lt _ (by decide))

theorem Chip.alarmRaised_events (c : Chip) (e : Nat) :
    (c.alarmRaised e).counter C.SBS_ALARM_EVENTS 0 = (c.counter C.SBS_ALARM_EVENTS 0 + 1) % 2 ^ 48 := Chip.counter_incBy_same ..

theorem Chip.alarmRaised_counter_other (c : Chip) (e : Nat) {k : Ctr} (h : k.key 0 ≠ C.SBS_ALARM_EVENTS.key 0) :
    (c.alarmRaised e).counter k 0 = c.counter k 0 := Chip.counter_incBy_other ((c.almChanged e).alarmBit e true) h 1

end Sys2Proof.Machine

namespace Sys2Proof.Safety

open Sys2Proof Sys2Proof.Machine

/-- The chip that has counted a frame as received, before the frame has an effect. -/
abbrev rxAt (s : State) (t : Nat) : Chip := (chipAt s t).inc C.SBS_RX_FRAMES 0

theorem rxAt_rg (s : State) (t : Nat) (g : Fld) (j : Nat) : (rxAt s t).rg g j = s.chip.rg g j :=
  (Chip.rg_incBy ..).trans (Chip.rg_tick ..)

theorem rxAt_counter_other (s : State) (t : Nat) {k : Ctr} (h : k.key 0 ≠ C.SBS_RX_FRAMES.key 0) :
    (rxAt s t).counter k 0 = s.chip.counter k 0 := (Chip.counter_incBy_other _ h 1).trans (Chip.counter_tick ..)

theorem rxAt_frames (s : State) (t : Nat) :
    (rxAt s t).counter C.SBS_RX_FRAMES 0 = (s.chip.counter C.SBS_RX_FRAMES 0 + 1) % 2 ^ 48 := Chip.counter_incBy_same ..

/-- A frame that finds its queue full after it left the two counts of frames alone. -/
theorem rxDropped_counts {s : State} {t : Nat} {d : Chip} (hrx : d.counter C.SBS_RX_FRAMES 0 = (rxAt s t).counter C.SBS_RX_FRAMES 0)
    (hfull : d.counter C.SBS_SBS_QFULL 0 = (rxAt s t).counter C.SBS_SBS_QFULL 0) :
    (s.after (d.inc C.SBS_SBS_QFULL 0)).chip.counter C.SBS_RX_FRAMES 0 = (s.chip.counter C.SBS_RX_FRAMES 0 + 1) % 2 ^ 48 ∧
      (s.after (d.inc C.SBS_SBS_QFULL 0)).chip.counter C.SBS_SBS_QFULL 0 = (s.chip.counter C.SBS_SBS_QFULL 0 + 1) % 2 ^ 48 := by
  rw [State.after_chip, Chip.counter_done, Chip.counter_done, Chip.inc_eq, Chip.counter_incBy_same, hfull, rxAt_counter_other s t (by decide),
    Chip.counter_incBy_other _ (by decide), hrx, rxAt_frames]
  exact ⟨rfl, rfl⟩

/-- The drop itself counts, and leaves every register. -/
theorem rxDropped_rg (s : State) (d : Chip) (g : Fld) (j : Nat) : (s.after (d.inc C.SBS_SBS_QFULL 0)).chip.rg g j = d.rg g j := by
  rw [State.after_chip, Chip.rg_done, Chip.inc_eq, Chip.rg_incBy]

/-- SBUS_REPLY to the one poll that waits, its queue full (R324, R365). -/
theorem sbusReply_answers (t : Nat) (l : List Byte) (e : Fin 64) (p : Poll) (s : State) (hs : ready s) (hmine : (chipAt s t).sbusMine l = true)
    (hmin : 60 ≤ l.length) (hmax : l.length ≤ 1514) (hfull : s.chip.wqFree 32 = false) (hfrom : s.chip.sbusFrom l = [e.val])
    (htype : sbusType l = 0x42) (hpolls : s.chip.pt.polls = [p]) (hentry : p.entry = e) (hseq : p.seq = beAt l 16 2) :
    ∃ u, exec (.sbusReply t l true) s = .next u ∧ u.chip.pt.polls = [] ∧ u.chip.rg R.SBS_POLL_STAT_LOST e = 0 ∧
      regsKept s u [R.SBS_POLL_STAT_LOST.key e] ∧
      u.chip.counter C.SBS_RX_FRAMES 0 = (s.chip.counter C.SBS_RX_FRAMES 0 + 1) % 2 ^ 48 ∧
      u.chip.counter C.SBS_SBS_QFULL 0 = (s.chip.counter C.SBS_SBS_QFULL 0 + 1) % 2 ^ 48 ∧ u.mem = s.mem := by
  have hrow : (chipAt s t).sbusRx l true (decide (sbusType l = 0x42)) (fun d => d.sbusAnswer l) =
      ((rxAt s t).pollAnswered e).inc C.SBS_SBS_QFULL 0 := by
    rw [htype, decide_eq_true rfl, Chip.sbusRx_good hmine hmin hmax, Chip.sbusAnswer_one (c := rxAt s t) hfrom hpolls hentry hseq]
    exact Chip.sbusStore_full ((Chip.pollAnswered_from ..).trans ((Chip.sbusFrom_of_regs_eq rfl l).trans hfrom))
      ((Chip.pollAnswered_full ..).trans ((Chip.wqFree_of_regs_eq rfl 32).trans hfull))
  obtain ⟨hrx, hqfull⟩ := rxDropped_counts (s := s) (t := t) (d := (rxAt s t).pollAnswered e) rfl rfl
  refine ⟨_, State.on_running s t (fun _ c => c.sbusRx l true (decide (sbusType l = 0x42)) (fun d => d.sbusAnswer l)) hs.1, ?_⟩
  rw [hrow]
  refine ⟨rfl, (rxDropped_rg ..).trans (Chip.pollAnswered_lost ..), fun g j hg => ?_, hrx, hqfull, mem_after hs rfl⟩
  rw [rxDropped_rg, Chip.pollAnswered_rg_other _ (Ne.symm (List.ne_of_not_mem_cons hg)), rxAt_rg]

/-- SBUS_ALARM of an entry with no change before, its queue full (R325, R365). -/
theorem sbusAlarm_raises (t : Nat) (l : List Byte) (e : Fin 64) (s : State) (hs : ready s) (hmine : (chipAt s t).sbusMine l = true)
    (hmin : 60 ≤ l.length) (hmax : l.length ≤ 1514) (hfull : s.chip.wqFree 32 = false) (hfrom : s.chip.sbusFrom l = [e.val])
    (htype : sbusType l = 0x43) (hstate : bit (byteAt l 15) 0 = true) (hclear : s.chip.rbit (alarmFld e) 0 (e % 32) = false)
    (hmask : s.chip.rbit (maskFld e) 0 (e % 32) = false) (hnone : s.chip.pt.almAt.find e = none) :
    ∃ u, exec (.sbusAlarm t l true) s = .next u ∧ u.chip.rbit (alarmFld e) 0 (e % 32) = true ∧ u.chip.rg R.SBS_EVT_ALARM 0 = 1 ∧
      u.chip.counter C.SBS_ALARM_EVENTS 0 = (s.chip.counter C.SBS_ALARM_EVENTS 0 + 1) % 2 ^ 48 ∧
      u.chip.pt.almAt.find e = some (max s.chip.now t) ∧ u.chip.pt.almOn.find e = some (max s.chip.now t) ∧
      regsKept s u [(alarmFld e).key 0, R.SBS_EVT_ALARM.key 0] ∧
      u.chip.counter C.SBS_RX_FRAMES 0 = (s.chip.counter C.SBS_RX_FRAMES 0 + 1) % 2 ^ 48 ∧
      u.chip.counter C.SBS_SBS_QFULL 0 = (s.chip.counter C.SBS_SBS_QFULL 0 + 1) % 2 ^ 48 ∧ u.mem = s.mem := by
  have hrow : (chipAt s t).sbusRx l true (decide (sbusType l = 0x43))
      (fun d => (d.sbusFrom l).foldl (fun x e => x.sbusAlarm e (bit (byteAt l 15) 0)) d) =
      ((rxAt s t).alarmRaised e).inc C.SBS_SBS_QFULL 0 := by
    have hone : (rxAt s t).sbusFrom l = [e.val] := (Chip.sbusFrom_of_regs_eq rfl l).trans hfrom
    rw [htype, decide_eq_true rfl, Chip.sbusRx_good hmine hmin hmax, hone, hstate, List.foldl_cons, List.foldl_nil,
      Chip.sbusAlarm_first (c := rxAt s t) hclear hmask hnone]
    exact Chip.sbusStore_full ((Chip.alarmRaised_from ..).trans hone) ((Chip.alarmRaised_full ..).trans ((Chip.wqFree_of_regs_eq rfl 32).trans hfull))
  obtain ⟨hrx, hqfull⟩ := rxDropped_counts (s := s) (t := t) (d := (rxAt s t).alarmRaised e)
    (Chip.alarmRaised_counter_other _ _ (by decide)) (Chip.alarmRaised_counter_other _ _ (by decide))
  refine ⟨_, State.on_running s t (fun _ c => c.sbusRx l true (decide (sbusType l = 0x43))
    (fun d => (d.sbusFrom l).foldl (fun x e => x.sbusAlarm e (bit (byteAt l 15) 0)) d)) hs.1, ?_⟩
  rw [hrow]
  refine ⟨?_, (rxDropped_rg ..).trans (Chip.alarmRaised_event ..), ?_, Tab.find_set_same .., Tab.find_set_same .., fun g j hg => ?_, hrx, hqfull,
    mem_after hs rfl⟩
  · rw [Chip.rbit, rxDropped_rg]
    exact (rxAt s t).alarmRaised_bit e
  · rw [State.after_chip, Chip.counter_done, Chip.inc_eq, Chip.counter_incBy_other _ (by decide), Chip.alarmRaised_events,
      rxAt_counter_other s t (by decide)]
  · simp only [List.mem_cons, List.not_mem_nil, or_false, not_or] at hg
    obtain ⟨hgbit, hgevt⟩ := hg
    rw [rxDropped_rg, Chip.alarmRaised_rg_other _ _ (Ne.symm hgbit) (Ne.symm hgevt), rxAt_rg]

/-- SBUS_FRAME_RX of a good frame that finds its queue full (R324, R365). -/
theorem sbusFrameRx_drops (t : Nat) (l : List Byte) (e : Fin 64) (s : State) (hs : ready s) (hmine : (chipAt s t).sbusMine l = true)
    (hmin : 60 ≤ l.length) (hmax : l.length ≤ 1514) (hfull : s.chip.wqFree 32 = false) (hfrom : s.chip.sbusFrom l = [e.val])
    (hreply : sbusType l ≠ 0x42) (halarm : sbusType l ≠ 0x43) :
    ∃ u, exec (.sbusFrameRx t l true) s = .next u ∧
      u.chip.counter C.SBS_RX_FRAMES 0 = (s.chip.counter C.SBS_RX_FRAMES 0 + 1) % 2 ^ 48 ∧
      u.chip.counter C.SBS_SBS_QFULL 0 = (s.chip.counter C.SBS_SBS_QFULL 0 + 1) % 2 ^ 48 ∧ u.mem = s.mem ∧ regsKept s u [] := by
  have hrow : (chipAt s t).sbusRx l true (decide (sbusType l ≠ 0x42 ∧ sbusType l ≠ 0x43)) id = (rxAt s t).inc C.SBS_SBS_QFULL 0 := by
    rw [decide_eq_true ⟨hreply, halarm⟩, Chip.sbusRx_good hmine hmin hmax]
    exact Chip.sbusStore_full ((Chip.sbusFrom_of_regs_eq rfl l).trans hfrom) ((Chip.wqFree_of_regs_eq rfl 32).trans hfull)
  obtain ⟨hrx, hqfull⟩ := rxDropped_counts (s := s) (t := t) (d := rxAt s t) rfl rfl
  refine ⟨_, State.on_running s t (fun _ c => c.sbusRx l true (decide (sbusType l ≠ 0x42 ∧ sbusType l ≠ 0x43)) id) hs.1, ?_⟩
  rw [hrow]
  exact ⟨hrx, hqfull, mem_after hs rfl, fun _ _ _ => (rxDropped_rg ..).trans (rxAt_rg ..)⟩

/-- SBUS_FRAME_RX of a frame with a bad FCS (R322). -/
theorem sbusFrameRx_bad (t : Nat) (l : List Byte) (s : State) (hs : ready s) (hmine : (chipAt s t).sbusMine l = true) (hmin : 60 ≤ l.length)
    (hmax : l.length ≤ 1514) (hreply : sbusType l ≠ 0x42) (halarm : sbusType l ≠ 0x43) :
    ∃ u, exec (.sbusFrameRx t l false) s = .next u ∧
      u.chip.counter C.SBS_RX_FCS_ERR 0 = (s.chip.counter C.SBS_RX_FCS_ERR 0 + 1) % 2 ^ 48 ∧ regsKept s u [] ∧ u.mem = s.mem := by
  have hrow : (chipAt s t).sbusRx l false (decide (sbusType l ≠ 0x42 ∧ sbusType l ≠ 0x43)) id = (chipAt s t).inc C.SBS_RX_FCS_ERR 0 := by
    rw [decide_eq_true ⟨hreply, halarm⟩, Chip.sbusRx_badFcs hmine hmin hmax]
  refine ⟨_, State.on_running s t (fun _ c => c.sbusRx l false (decide (sbusType l ≠ 0x42 ∧ sbusType l ≠ 0x43)) id) hs.1, ?_⟩
  rw [hrow]
  exact ⟨Chip.counter_incBy_same .., fun _ _ _ => rfl, mem_after hs rfl⟩

/-- SBUS_ALARM_STUCK (R325). -/
theorem sbusAlarmStuck_masks (t : Nat) (e : Fin 64) (a : Nat) (s : State) (hs : ready s) (hon : s.chip.pt.almOn.find e = some a)
    (hlate : a + s.chip.rg R.SBS_CFG_STUCK 0 * secPs ≤ max s.chip.now t) (hmask : s.chip.rbit (maskFld e) 0 (e % 32) = false) :
    ∃ u, exec (.sbusAlarmStuck t e) s = .next u ∧ u.chip.rbit (maskFld e) 0 (e % 32) = true ∧ u.chip.rg R.SBS_EVT_ALARM_STUCK 0 = 1 ∧
      kept s u [(maskFld e).key 0, R.SBS_EVT_ALARM_STUCK.key 0] := by
  refine ⟨_, State.on_running s t (fun _ => sbusAlarmStuck e.val) hs.1, ?_⟩
  rw [sbusAlarmStuck_late (c := chipAt s t) hon hlate hmask]
  refine ⟨(chipAt s t).alarmMasked_bit e, Chip.rg_wg_same .., kept_after_but hs (fun g j hg => ?_) rfl rfl rfl⟩
  simp only [List.mem_cons, List.not_mem_nil, or_false, not_or] at hg
  obtain ⟨hgmask, hgevt⟩ := hg
  exact (Chip.rg_wg_other _ _ _ _ _ _ (Ne.symm hgevt)).trans (Chip.rg_wg_other _ _ _ _ _ _ (Ne.symm hgmask))

/-- Settles O26, command by command: a received frame has its effect and is dropped at a full queue or for its FCS, and a stuck alarm is masked. -/
theorem sensorBusReceiveCommands : Obligations.SensorBusReceiveCommands :=
  ⟨sbusReply_answers, sbusAlarm_raises, sbusFrameRx_drops, sbusFrameRx_bad, sbusAlarmStuck_masks⟩

end Sys2Proof.Safety
end

section
/-! PROOFS. The link of a local port (10_ports_and_lanes.md R306, R307): its states, what its entry to DOWN and to TRAINING leaves, and what
brings it there. -/

namespace Sys2Proof.Machine

open Sys2Proof

/-- Two fields at different places of the same block. -/
theorem Fld.key_ne_of_place {f g : Fld} (i : Nat) (h : f.stride = g.stride ∧ f.reg * 32 + f.lsb ≠ g.reg * 32 + g.lsb) : f.key i ≠ g.key i := by
  obtain ⟨hstride, hplace⟩ := h
  simp only [Fld.key, hstride]
  omega

/-! ## LINK takes a state (R306) -/

/-- The chip with the link of a port in another state than before. -/
def Chip.linkMoved (c : Chip) (p st : Nat) : Chip := (c.wg R.PRT_STAT_LINK p st).wg R.PRT_EVT_LINK_CHG p 1

theorem Chip.setLink_moves {c : Chip} {p st : Nat} (h : c.rg R.PRT_STAT_LINK p ≠ st) : c.setLink p st = c.linkMoved p st := if_neg h

theorem Chip.linkMoved_link (c : Chip) (p : Nat) {st : Nat} (hst : st < 8) : (c.linkMoved p st).rg R.PRT_STAT_LINK p = st :=
  (Chip.rg_wg_other _ _ _ _ _ _ (Fld.key_ne_of_place p (by decide))).trans ((Chip.rg_wg_same ..).trans (Nat.mod_eq_of_lt hst))

theorem Chip.linkMoved_event (c : Chip) (p st : Nat) : (c.linkMoved p st).rg R.PRT_EVT_LINK_CHG p = 1 := Chip.rg_wg_same ..

theorem Chip.linkMoved_rg_other (c : Chip) (st : Nat) {p : Nat} {g : Fld} {j : Nat} (hlink : R.PRT_STAT_LINK.key p ≠ g.key j)
    (hevt : R.PRT_EVT_LINK_CHG.key p ≠ g.key j) : (c.linkMoved p st).rg g j = c.rg g j :=
  (Chip.rg_wg_other _ _ _ _ _ _ hevt).trans (Chip.rg_wg_other _ _ _ _ _ _ hlink)

/-! ## Frames of the port's own hardware that wait (R297) -/

theorem Chip.ctlFlush_none {c : Chip} (h : c.pt.ctlQ = []) (p : Nat) : c.ctlFlush p = c := by
  have hnext : c.ctlNext p = none := by simp [Chip.ctlNext, h]
  rw [Chip.ctlFlush, hnext]

/-! ## TRAINING begins (R306) -/

/-- The chip with TRAINING of a port begun, its link in another state before. -/
def Chip.trainBegun (c : Chip) (p : Nat) : Chip :=
  { c.linkMoved p 1 with pt.trainAt := c.pt.trainAt.set p c.now, pt.failAt := c.pt.failAt.erase p }

theorem Chip.trainStart_begins {c : Chip} {p : Nat} (h : c.rg R.PRT_STAT_LINK p ≠ 1) : c.trainStart p = c.trainBegun p := by
  rw [Chip.trainStart, Chip.setLink_moves h]
  rfl

theorem Chip.trainBegun_link (c : Chip) (p : Nat) : (c.trainBegun p).rg R.PRT_STAT_LINK p = 1 := c.linkMoved_link p (by decide)

theorem Chip.trainBegun_rg_other (c : Chip) {p : Nat} {g : Fld} {j : Nat} (hlink : R.PRT_STAT_LINK.key p ≠ g.key j)
    (hevt : R.PRT_EVT_LINK_CHG.key p ≠ g.key j) : (c.trainBegun p).rg g j = c.rg g j := c.linkMoved_rg_other 1 hlink hevt

/-- A port in DOWN with light, no loop and nothing against it. -/
theorem Chip.portEval_trains {c : Chip} {p : Nat} (hlink : c.rg R.PRT_STAT_LINK p = 0) (hloop : c.rg R.PRT_LOOP_LOOP p = 0)
    (hlit : bit c.pt.lit p = true) (hmay : c.portMay p = true) (hfail : c.pt.failAt.find p = none) : c.portEval p = c.trainBegun p := by
  have hnone : (c.pt.failAt.find p).isNone = true := by rw [hfail]; rfl
  rw [Chip.portEval, if_neg (fun h => h.2.1 hloop), if_pos ⟨hlink, hlit, hmay, hnone⟩, Chip.trainStart_begins (by rw [hlink]; decide)]

/-- A port without light and without a loop stays as it is. -/
theorem Chip.portEval_dark {c : Chip} {p : Nat} (hloop : c.rg R.PRT_LOOP_LOOP p = 0) (hdark : bit c.pt.lit p = false) : c.portEval p = c := by
  rw [Chip.portEval, if_neg (fun h => h.2.1 hloop), if_neg (by simp [hdark])]

/-! ## DOWN (R306, R307) -/

/-- The registers and counters of a port whose link has gone down. -/
def Chip.linkLost (c : Chip) (p : Nat) : Chip :=
  ((((c.loseTx p).linkMoved p 0).inc C.PRT_LINK_DOWN p).wg R.PRT_STAT_RX_IDLE p 0).wg R.PRT_STAT_RF p 0

/-- A link that is not DOWN goes down; beside it the state of the ports changes, but not which of them have light. -/
theorem Chip.portDown_lost {c : Chip} {p : Nat} (h : c.rg R.PRT_STAT_LINK p ≠ 0) :
    ∃ pt, pt.lit = c.pt.lit ∧ c.portDown p = { c.linkLost p with pt := pt } := by
  have hlit : (c.loseTx p).pt.lit = c.pt.lit := by
    unfold Chip.loseTx
    dsimp only
    split <;> rfl
  have hmoves : (c.loseTx p).setLink p 0 = (c.loseTx p).linkMoved p 0 := Chip.setLink_moves (by rwa [Chip.loseTx_rg])
  unfold Chip.portDown
  dsimp only
  rw [if_neg h, hmoves]
  split
  · refine ⟨_, ?_, rfl⟩
    exact hlit
  · refine ⟨_, ?_, rfl⟩
    exact hlit

theorem Chip.linkLost_mout (c : Chip) (p : Nat) : (c.linkLost p).mout = c.mout := by
  simp only [Chip.linkLost, Chip.linkMoved, Chip.loseTx]
  split <;> rfl

theorem Chip.linkLost_link (c : Chip) (p : Nat) : (c.linkLost p).rg R.PRT_STAT_LINK p = 0 := by
  rw [Chip.linkLost, Chip.rg_wg_other _ _ _ _ _ _ (Fld.key_ne_of_place p (by decide)),
    Chip.rg_wg_other _ _ _ _ _ _ (Fld.key_ne_of_place p (by decide)), Chip.inc_eq, Chip.rg_incBy, Chip.linkMoved_link _ _ (by decide)]

theorem Chip.linkLost_rg_other (c : Chip) {p : Nat} {g : Fld} {j : Nat} (hlink : R.PRT_STAT_LINK.key p ≠ g.key j)
    (hevt : R.PRT_EVT_LINK_CHG.key p ≠ g.key j) (hidle : R.PRT_STAT_RX_IDLE.key p ≠ g.key j) (hrf : R.PRT_STAT_RF.key p ≠ g.key j) :
    (c.linkLost p).rg g j = c.rg g j := by
  rw [Chip.linkLost, Chip.rg_wg_other _ _ _ _ _ _ hrf, Chip.rg_wg_other _ _ _ _ _ _ hidle, Chip.inc_eq, Chip.rg_incBy,
    Chip.linkMoved_rg_other _ _ hlink hevt, Chip.loseTx_rg]

/-- What an entry to DOWN leaves, whether or not the port was there before. -/
structure Chip.PortDowned (c : Chip) (p : Nat) (d : Chip) : Prop where
  link : d.rg R.PRT_STAT_LINK p = 0
  lit : d.pt.lit = c.pt.lit
  mout : d.mout = c.mout
  other : ∀ (g : Fld) (j : Nat), R.PRT_STAT_LINK.key p ≠ g.key j → R.PRT_EVT_LINK_CHG.key p ≠ g.key j →
    R.PRT_STAT_RX_IDLE.key p ≠ g.key j → R.PRT_STAT_RF.key p ≠ g.key j → d.rg g j = c.rg g j

theorem Chip.portDown_downed (c : Chip) (p : Nat) : c.PortDowned p (c.portDown p) := by
  by_cases h : c.rg R.PRT_STAT_LINK p = 0
  · rw [Chip.portDown, if_pos h]
    exact ⟨h, rfl, rfl, fun _ _ _ _ _ _ => rfl⟩
  · obtain ⟨pt, hlit, hdown⟩ := Chip.portDown_lost h
    rw [hdown]
    exact ⟨c.linkLost_link p, hlit, c.linkLost_mout p, fun _ _ => c.linkLost_rg_other⟩

/-! ## The commands of the link -/

/-- The chip with light noted on a port. -/
def Chip.portLit (c : Chip) (p : Nat) : Chip := { c with pt.lit := setBit c.pt.lit p }

theorem portLightOn_trains {c : Chip} {p : Nat} (hlink : c.rg R.PRT_STAT_LINK p = 0) (hloop : c.rg R.PRT_LOOP_LOOP p = 0)
    (hmay : c.portMay p = true) (hfail : c.pt.failAt.find p = none) : portLightOn p c = (c.portLit p).trainBegun p :=
  Chip.portEval_trains (c := c.portLit p) hlink hloop (bit_setBit ..) hmay hfail

/-- The chip with a port UP after TRAINING. -/
def Chip.portUp (c : Chip) (p : Nat) : Chip := (c.linkMoved p 2).wg R.PRT_STAT_LF p 0

theorem portTrainLocked_held {c : Chip} {p : Nat} (hlink : c.rg R.PRT_STAT_LINK p = 1) (hheld : Tab.get 0 c.pt.trainAt p + msPs ≤ c.now)
    (hmay : c.portMay p = true) (hwait : c.pt.ctlQ = []) : portTrainLocked p c = c.portUp p := by
  rw [portTrainLocked, if_pos ⟨hlink, hheld, hmay⟩, Chip.setLink_moves (by rw [hlink]; decide)]
  exact Chip.ctlFlush_none (c := c.portUp p) hwait p

/-- The instant of the failure is that of the command. -/
theorem portTrainTimeout_late {c : Chip} {p : Nat} (hlink : c.rg R.PRT_STAT_LINK p = 1)
    (hlate : Tab.get 0 c.pt.trainAt p + 100 * msPs ≤ c.now) : ∃ failAt, portTrainTimeout p c =
      { c.portDown p with pt.failAt := failAt } ∧ failAt.find p = some c.now :=
  ⟨_, if_pos ⟨hlink, hlate⟩, Tab.find_set_same ..⟩

/-- The chip once a port waits for no new TRAINING. -/
def Chip.failCleared (c : Chip) (p : Nat) : Chip := { c with pt.failAt := c.pt.failAt.erase p }

theorem portRetrainDelay_trains {c : Chip} {p a : Nat} (hfail : c.pt.failAt.find p = some a) (hdue : a + 10 * msPs ≤ c.now)
    (hlink : c.rg R.PRT_STAT_LINK p = 0) (hloop : c.rg R.PRT_LOOP_LOOP p = 0) (hlit : bit c.pt.lit p = true) (hmay : c.portMay p = true) :
    portRetrainDelay p c = (c.failCleared p).trainBegun p := by
  unfold portRetrainDelay
  rw [hfail]
  dsimp only
  rw [if_pos hdue]
  exact Chip.portEval_trains (c := c.failCleared p) hlink hloop hlit hmay (Tab.find_erase_same _ _)

/-- The chip with no light noted on a port. -/
def Chip.portDarkened (c : Chip) (p : Nat) : Chip := { c with pt.lit := clrBit c.pt.lit p }

/-- The chip with a local fault of a port noted, where that is what holds. -/
def Chip.faultNoted (c : Chip) (p : Nat) (lf : Bool) : Chip := if lf then (c.wg R.PRT_STAT_LF p 1).wg R.PRT_EVT_FAULT p 1 else c

theorem Chip.faultNoted_pt (c : Chip) (p : Nat) (lf : Bool) : (c.faultNoted p lf).pt = c.pt := by cases lf <;> rfl

theorem Chip.faultNoted_mout (c : Chip) (p : Nat) (lf : Bool) : (c.faultNoted p lf).mout = c.mout := by cases lf <;> rfl

theorem Chip.faultNoted_rg_other (c : Chip) {p : Nat} (lf : Bool) {g : Fld} {j : Nat} (hlf : R.PRT_STAT_LF.key p ≠ g.key j)
    (hevt : R.PRT_EVT_FAULT.key p ≠ g.key j) : (c.faultNoted p lf).rg g j = c.rg g j := by
  cases lf with
  | false => rfl
  | true => exact (Chip.rg_wg_other _ _ _ _ _ _ hevt).trans (Chip.rg_wg_other _ _ _ _ _ _ hlf)

theorem Chip.faultNoted_reads (c : Chip) (p : Nat) :
    (c.faultNoted p true).rg R.PRT_STAT_LF p = 1 ∧ (c.faultNoted p true).rg R.PRT_EVT_FAULT p = 1 :=
  ⟨(Chip.rg_wg_other _ _ _ _ _ _ (Fld.key_ne_of_place p (by decide))).trans (Chip.rg_wg_same ..), Chip.rg_wg_same ..⟩

/-- A port that is UP and loses its light, outside a loop, goes down and stays there. -/
theorem portLinkFault_dark {c : Chip} {p : Nat} (hlink : c.rg R.PRT_STAT_LINK p = 2) (hloop : c.rg R.PRT_LOOP_LOOP p = 0) (lf : Bool) :
    portLinkFault p false lf c = ((c.portDarkened p).portDown p).faultNoted p lf := by
  have hdown := (c.portDarkened p).portDown_downed p
  have hloop' : (((c.portDarkened p).portDown p).faultNoted p lf).rg R.PRT_LOOP_LOOP p = 0 := by
    rw [Chip.faultNoted_rg_other _ _ (Fld.key_ne_of_place p (by decide)) (Fld.key_ne_of_place p (by decide)),
      hdown.other _ _ (Fld.key_ne_of_place p (by decide)) (Fld.key_ne_of_place p (by decide)) (Fld.key_ne_of_place p (by decide))
        (Fld.key_ne_of_place p (by decide))]
    exact hloop
  have hdark : bit (((c.portDarkened p).portDown p).faultNoted p lf).pt.lit p = false := by
    rw [Chip.faultNoted_pt, hdown.lit]
    exact bit_clrBit ..
  have hup : (c.portDarkened p).rg R.PRT_STAT_LINK p = 2 ∨ (c.portDarkened p).rg R.PRT_STAT_LINK p = 3 ∧ false = false := .inl hlink
  exact (if_pos hup).trans (Chip.portEval_dark hloop' hdark)

/-- The chip with a remote fault of a port noted. -/
def Chip.remoteNoted (c : Chip) (p : Nat) : Chip := (c.wg R.PRT_STAT_RF p 1).wg R.PRT_EVT_FAULT p 1

theorem remoteFault_begins {c : Chip} {p : Nat} (hlink : c.rg R.PRT_STAT_LINK p = 2) (hrf : c.rg R.PRT_STAT_RF p = 0) :
    remoteFault p true c = c.remoteNoted p := by
  rw [remoteFault, if_neg (not_not.mpr hlink), if_pos rfl, Chip.rb_false (by rw [hrf]; decide), if_neg (by decide)]
  rfl

theorem remoteFault_clears {c : Chip} {p : Nat} (hlink : c.rg R.PRT_STAT_LINK p = 2) (hwait : c.pt.ctlQ = []) :
    remoteFault p false c = c.wg R.PRT_STAT_RF p 0 := by
  rw [remoteFault, if_neg (not_not.mpr hlink), if_neg (by decide)]
  exact Chip.ctlFlush_none (c := c.wg R.PRT_STAT_RF p 0) hwait p

end Sys2Proof.Machine

namespace Sys2Proof.Safety

open Sys2Proof Sys2Proof.Machine

/-- PORT_LIGHT_ON (R306). -/
theorem portLightOn_begins (t : Nat) (p : Fin 128) (s : State) (hs : ready s) (hlink : s.chip.rg R.PRT_STAT_LINK p = 0)
    (hloop : s.chip.rg R.PRT_LOOP_LOOP p = 0) (hmay : (chipAt s t).portMay p = true) (hfail : s.chip.pt.failAt.find p = none) :
    ∃ u, exec (.portLightOn t p) s = .next u ∧ u.chip.rg R.PRT_STAT_LINK p = 1 ∧ bit u.chip.pt.lit p = true ∧
      Tab.get 0 u.chip.pt.trainAt p = max s.chip.now t ∧ u.mem = s.mem := by
  refine ⟨_, State.on_running s t (fun _ => portLightOn p.val) hs.1, ?_⟩
  rw [portLightOn_trains (c := chipAt s t) hlink hloop hmay hfail]
  exact ⟨((chipAt s t).portLit p).trainBegun_link p, bit_setBit .., Tab.get_set_same .., mem_after hs rfl⟩

/-- PORT_TRAIN_LOCKED (R306; log entry 61 for the bounds it leaves out). -/
theorem portTrainLocked_rises (t : Nat) (p : Fin 128) (s : State) (hs : ready s) (hlink : s.chip.rg R.PRT_STAT_LINK p = 1)
    (hheld : Tab.get 0 s.chip.pt.trainAt p + msPs ≤ max s.chip.now t) (hmay : (chipAt s t).portMay p = true) (hwait : s.chip.pt.ctlQ = []) :
    ∃ u, exec (.portTrainLocked t p) s = .next u ∧ u.chip.rg R.PRT_STAT_LINK p = 2 ∧ u.chip.rg R.PRT_STAT_LF p = 0 ∧ u.mem = s.mem := by
  refine ⟨_, State.on_running s t (fun _ => portTrainLocked p.val) hs.1, ?_⟩
  rw [portTrainLocked_held (c := chipAt s t) hlink hheld hmay hwait]
  exact ⟨(Chip.rg_wg_other _ _ _ _ _ _ (Fld.key_ne_of_place p.val (by decide))).trans (Chip.linkMoved_link _ _ (by decide)), Chip.rg_wg_same ..,
    mem_after hs rfl⟩

/-- PORT_TRAIN_TIMEOUT (R306). -/
theorem portTrainTimeout_fails (t : Nat) (p : Fin 128) (s : State) (hs : ready s) (hlink : s.chip.rg R.PRT_STAT_LINK p = 1)
    (hlate : Tab.get 0 s.chip.pt.trainAt p + 100 * msPs ≤ max s.chip.now t) :
    ∃ u, exec (.portTrainTimeout t p) s = .next u ∧ u.chip.rg R.PRT_STAT_LINK p = 0 ∧ u.chip.pt.failAt.find p = some (max s.chip.now t) ∧
      u.mem = s.mem := by
  obtain ⟨failAt, hrow, hfail⟩ := portTrainTimeout_late (c := chipAt s t) hlink hlate
  have hdown := (chipAt s t).portDown_downed p
  refine ⟨_, State.on_running s t (fun _ => portTrainTimeout p.val) hs.1, ?_⟩
  rw [hrow]
  exact ⟨hdown.link, hfail, mem_after hs hdown.mout⟩

/-- PORT_RETRAIN_DELAY (R306). -/
theorem portRetrainDelay_begins (t : Nat) (p : Fin 128) (a : Nat) (s : State) (hs : ready s) (hfail : s.chip.pt.failAt.find p = some a)
    (hdue : a + 10 * msPs ≤ max s.chip.now t) (hlink : s.chip.rg R.PRT_STAT_LINK p = 0) (hloop : s.chip.rg R.PRT_LOOP_LOOP p = 0)
    (hlit : bit s.chip.pt.lit p = true) (hmay : (chipAt s t).portMay p = true) :
    ∃ u, exec (.portRetrainDelay t p) s = .next u ∧ u.chip.rg R.PRT_STAT_LINK p = 1 ∧ u.chip.pt.failAt.find p = none ∧
      Tab.get 0 u.chip.pt.trainAt p = max s.chip.now t ∧ u.mem = s.mem := by
  refine ⟨_, State.on_running s t (fun _ => portRetrainDelay p.val) hs.1, ?_⟩
  rw [portRetrainDelay_trains (c := chipAt s t) hfail hdue hlink hloop hlit hmay]
  exact ⟨((chipAt s t).failCleared p).trainBegun_link p, Tab.find_erase_same _ _, Tab.get_set_same .., mem_after hs rfl⟩

/-- PORT_LINK_FAULT by loss of light (R306). -/
theorem portLinkFault_falls (t : Nat) (p : Fin 128) (lf : Bool) (s : State) (hs : ready s) (hlink : s.chip.rg R.PRT_STAT_LINK p = 2)
    (hloop : s.chip.rg R.PRT_LOOP_LOOP p = 0) :
    ∃ u, exec (.portLinkFault t p false lf) s = .next u ∧ u.chip.rg R.PRT_STAT_LINK p = 0 ∧ bit u.chip.pt.lit p = false ∧
      (lf = true → u.chip.rg R.PRT_STAT_LF p = 1 ∧ u.chip.rg R.PRT_EVT_FAULT p = 1) ∧ u.mem = s.mem := by
  have hdown := ((chipAt s t).portDarkened p).portDown_downed p
  refine ⟨_, State.on_running s t (fun _ => portLinkFault p.val false lf) hs.1, ?_⟩
  rw [portLinkFault_dark (c := chipAt s t) hlink hloop]
  refine ⟨?_, ?_, fun hlf => ?_, mem_after hs ((Chip.faultNoted_mout ..).trans hdown.mout)⟩
  · exact (Chip.faultNoted_rg_other _ _ (Fld.key_ne_of_place p.val (by decide)) (Fld.key_ne_of_place p.val (by decide))).trans hdown.link
  · rw [State.after_chip, Chip.done_pt, Chip.faultNoted_pt, hdown.lit]
    exact bit_clrBit ..
  · rw [hlf, State.after_chip, Chip.rg_done, Chip.rg_done]
    exact Chip.faultNoted_reads ..

/-- REMOTE_FAULT that is received (R306). -/
theorem remoteFault_notes (t : Nat) (p : Fin 128) (s : State) (hs : ready s) (hlink : s.chip.rg R.PRT_STAT_LINK p = 2)
    (hrf : s.chip.rg R.PRT_STAT_RF p = 0) :
    ∃ u, exec (.remoteFault t p true) s = .next u ∧ u.chip.rg R.PRT_STAT_RF p = 1 ∧ u.chip.rg R.PRT_EVT_FAULT p = 1 ∧
      kept s u [R.PRT_STAT_RF.key p, R.PRT_EVT_FAULT.key p] := by
  refine ⟨_, State.on_running s t (fun _ => remoteFault p.val true) hs.1, ?_⟩
  rw [remoteFault_begins (c := chipAt s t) hlink hrf]
  refine ⟨(Chip.rg_wg_other _ _ _ _ _ _ (Fld.key_ne_of_place p.val (by decide))).trans (Chip.rg_wg_same ..), Chip.rg_wg_same ..,
    kept_after_but hs (fun g j hg => ?_) rfl rfl rfl⟩
  simp only [List.mem_cons, List.not_mem_nil, or_false, not_or] at hg
  obtain ⟨hgrf, hgevt⟩ := hg
  exact (Chip.rg_wg_other _ _ _ _ _ _ (Ne.symm hgevt)).trans (Chip.rg_wg_other _ _ _ _ _ _ (Ne.symm hgrf))

/-- REMOTE_FAULT that clears, with no frame of the port's hardware waiting (R306). -/
theorem remoteFault_ends (t : Nat) (p : Fin 128) (s : State) (hs : ready s) (hlink : s.chip.rg R.PRT_STAT_LINK p = 2)
    (hwait : s.chip.pt.ctlQ = []) :
    ∃ u, exec (.remoteFault t p false) s = .next u ∧ u.chip.rg R.PRT_STAT_RF p = 0 ∧ kept s u [R.PRT_STAT_RF.key p] := by
  refine ⟨_, State.on_running s t (fun _ => remoteFault p.val false) hs.1, ?_⟩
  rw [remoteFault_clears (c := chipAt s t) hlink hwait]
  exact ⟨Chip.rg_wg_same .., kept_after_one hs (fun g j hg => Chip.rg_wg_other _ _ _ _ _ _ (Ne.symm hg)) rfl rfl rfl⟩

end Sys2Proof.Safety
end

section
/-! PROOFS. Configuration, FLUSH_TO, radio sleep and loops of a local port (10_ports_and_lanes.md R307, R315 to R317), and the statement about
the link of a local port. -/

namespace Sys2Proof.Machine

open Sys2Proof

/-! ## A write of PRT_CFG (R306) -/

/-- A field of one bit. -/
theorem bits_one (v i : Nat) : bits v i 1 = b2n (bit v i) := by
  rw [bits, bit, Nat.testBit_eq_decide_div_mod_eq, Nat.pow_one]
  rcases Nat.mod_two_eq_zero_or_one (v / 2 ^ i) with h | h <;> rw [h] <;> rfl

/-- The chip with the fields of PRT_CFG written from a word whose RX_PAUSE and FLUSH_TO are legal. -/
def Chip.prtCfgWritten (c : Chip) (p v : Nat) : Chip :=
  ((((c.wg R.PRT_CFG_ADMIN_DOWN p (bits v 4 1)).wg R.PRT_CFG_IDLE_EN p (bits v 10 1)).wg R.PRT_CFG_EVT_EN p (bits v 11 1)).wg
    R.PRT_CFG_RX_PAUSE p (bits v 8 2)).wg R.PRT_CFG_FLUSH_TO p (bits v 16 10)

theorem Chip.prtCfgWritten_reads (c : Chip) (p v : Nat) :
    (c.prtCfgWritten p v).rg R.PRT_CFG_ADMIN_DOWN p = bits v 4 1 ∧ (c.prtCfgWritten p v).rg R.PRT_CFG_IDLE_EN p = bits v 10 1 ∧
      (c.prtCfgWritten p v).rg R.PRT_CFG_EVT_EN p = bits v 11 1 ∧ (c.prtCfgWritten p v).rg R.PRT_CFG_RX_PAUSE p = bits v 8 2 ∧
      (c.prtCfgWritten p v).rg R.PRT_CFG_FLUSH_TO p = bits v 16 10 := by
  unfold Chip.prtCfgWritten
  refine ⟨?_, ?_, ?_, ?_, ?_⟩
  all_goals repeat rw [Chip.rg_wg_other _ _ _ _ _ _ (Fld.key_ne_of_apart (by decide))]
  all_goals exact (Chip.rg_wg_same ..).trans (bits_mod ..)

/-- With ADMIN_DOWN the port goes down, and beside that only its wait for a new TRAINING may end. -/
theorem prtCfgWrite_adminDown {p v : Nat} (hdown : bit v 4 = true) (hpause : bits v 8 2 ≠ 3) (hmin : 1 ≤ bits v 16 10)
    (hmax : bits v 16 10 ≤ 1000) (c : Chip) :
    ∃ failAt, prtCfgWrite p v c = ({ (c.prtCfgWritten p v).portDown p with pt.failAt := failAt }, stOk) := by
  have hflush : 1 ≤ bits v 16 10 ∧ bits v 16 10 ≤ 1000 := ⟨hmin, hmax⟩
  unfold prtCfgWrite
  dsimp only
  rw [if_pos hdown, if_neg hpause, if_pos hflush]
  exact ⟨_, rfl⟩

/-- An entry to DOWN leaves the configuration of its port. -/
theorem Chip.PortDowned.cfg {c d : Chip} {p : Nat} (h : c.PortDowned p d) {g : Fld} (hg : g.reg = 0xC0000 ∧ g.stride = 0x400 ∧ g.lsb < 32) :
    d.rg g p = c.rg g p := by
  obtain ⟨hreg, hstride, hlsb⟩ := hg
  have hkey {f : Fld} (hf : f.stride = 0x400 ∧ 32 * 0xC0004 ≤ f.reg * 32 + f.lsb) : f.key p ≠ g.key p :=
    Fld.key_ne_of_place p (by omega)
  exact h.other g p (hkey (by decide)) (hkey (by decide)) (hkey (by decide)) (hkey (by decide))

/-! ## FLUSH_TO (R307) -/

theorem Chip.queueStat_rewritten (c : Chip) (q b : Nat) : c.Rewritten (c.queueStat q b) := by
  unfold Chip.queueStat
  dsimp only
  split <;> exact ⟨_, rfl⟩

/-- The chip with no frame queued. -/
def Chip.queuesEmpty (c : Chip) : Chip := { c with qs.frames := [] }

/-- The one queued frame, which did not come from a local port, leaves its queue. -/
theorem Chip.unqueue_last {c : Chip} {x : QFrame} (hframes : c.qs.frames = [x]) (horigin : x.f.origin ≠ 0) :
    c.queuesEmpty.Rewritten (c.unqueue x) := by
  have hnone : [x].filter (fun y => decide (y.f.id ≠ x.f.id)) = [] := List.filter_cons_of_neg (by simp)
  unfold Chip.unqueue
  dsimp only
  rw [if_neg horigin, hframes, hnone]
  exact Chip.queueStat_rewritten ..

/-- The one queued frame leads to the port and was there when FLUSH_TO began. -/
theorem Chip.flushPort_last {c : Chip} {p a : Nat} {x : QFrame} (hframes : c.qs.frames = [x]) (hdir : c.rg R.SCH_Q_CFG_DIR x.q = 0)
    (hport : c.rg R.SCH_Q_CFG_PORT x.q = p) (hold : x.at_ ≤ a) : c.flushPort p a = (c.unqueue x).inc C.PRT_TX_FLUSH p := by
  have hleads : (!c.rb R.SCH_Q_CFG_DIR x.q && decide (c.rg R.SCH_Q_CFG_PORT x.q = p ∧ x.at_ ≤ a)) = true := by
    rw [Chip.rb_false (by rw [hdir]; decide), decide_eq_true ⟨hport, hold⟩]
    rfl
  have hone : [x].filter (fun y => !c.rb R.SCH_Q_CFG_DIR y.q && decide (c.rg R.SCH_Q_CFG_PORT y.q = p ∧ y.at_ ≤ a)) = [x] :=
    List.filter_cons_of_pos hleads
  rw [Chip.flushPort, hframes, hone]
  rfl

/-- The one wait of FLUSH_TO ends. -/
theorem portFlushTimeout_last {c : Chip} {p a : Nat} {d : Chip} (hflush : c.pt.flushAt = [(p, a)])
    (hdue : a + c.rg R.PRT_CFG_FLUSH_TO p * msPs ≤ c.now) (hd : c.flushPort p a = d) (hwait : d.pt.flushAt = [(p, a)]) :
    portFlushTimeout p c = { d with pt.flushAt := [] } := by
  have hone : [(p, a)].filter (fun x => decide (x.1 = p ∧ x.2 + c.rg R.PRT_CFG_FLUSH_TO p * msPs ≤ c.now)) = [(p, a)] :=
    List.filter_cons_of_pos (decide_eq_true ⟨rfl, hdue⟩)
  have hnone : [(p, a)].filter (fun x => !([(p, a)] : List (Nat × Nat)).contains x) = [] := List.filter_cons_of_neg (by simp)
  unfold portFlushTimeout
  dsimp only
  rw [hflush, hone, List.foldl_cons, List.foldl_nil, hd, hwait, hnone]

/-! ## Radio sleep (R315, R316) -/

/-- The chip with RX_IDLE of a port noted. -/
def Chip.rxIdled (c : Chip) (p : Nat) : Chip := c.wg R.PRT_STAT_RX_IDLE p 1

theorem Chip.rxIdled_rg_other (c : Chip) {p : Nat} {g : Fld} {j : Nat} (h : R.PRT_STAT_RX_IDLE.key p ≠ g.key j) :
    (c.rxIdled p).rg g j = c.rg g j := Chip.rg_wg_other _ _ _ _ _ _ h

/-- The chip with a port in IDLE. -/
def Chip.portIdled (c : Chip) (p : Nat) : Chip := ((c.rxIdled p).linkMoved p 3).inc C.PRT_IDLE_ENTRY p

theorem idleEnter_idles {c : Chip} {p : Nat} (hlink : c.rg R.PRT_STAT_LINK p = 2) (hen : c.rg R.PRT_CFG_IDLE_EN p = 1)
    (hlit : bit c.pt.lit p = true) (hframes : c.qs.frames = []) (hwait : c.pt.ctlQ = [])
    (hquiet : Tab.get 0 c.pt.busyAt p + c.rg R.PRT_IDLE_CFG_HOLD p * usPs ≤ c.now) : idleEnter p c = c.portIdled p := by
  have hlink' : (c.rxIdled p).rg R.PRT_STAT_LINK p = 2 := (c.rxIdled_rg_other (Fld.key_ne_of_place p (by decide))).trans hlink
  have hen' : (c.rxIdled p).rg R.PRT_CFG_IDLE_EN p = 1 := (c.rxIdled_rg_other (Fld.key_ne_of_place p (by decide))).trans hen
  have hrx : (c.rxIdled p).rg R.PRT_STAT_RX_IDLE p = 1 := Chip.rg_wg_same ..
  have hquiet' : Tab.get 0 (c.rxIdled p).pt.busyAt p + (c.rxIdled p).rg R.PRT_IDLE_CFG_HOLD p * usPs ≤ (c.rxIdled p).now := by
    rw [Chip.rxIdled_rg_other _ (Fld.key_ne_of_place p (by decide))]
    exact hquiet
  have hnoFrame : (c.rxIdled p).qs.frames.any (fun x => (c.rxIdled p).leadsTo p x.q) = false := by
    have h : (c.rxIdled p).qs.frames = [] := hframes
    rw [h]
    rfl
  have hnoCtl : (c.rxIdled p).pt.ctlQ.any (fun x => decide (x.port = p)) = false := by
    have h : (c.rxIdled p).pt.ctlQ = [] := hwait
    rw [h]
    rfl
  have hlight : c.rg R.PRT_STAT_LINK p = 2 ∧ bit c.pt.lit p = true := ⟨hlink, hlit⟩
  unfold idleEnter
  dsimp only
  rw [if_pos hlight, ← Chip.rxIdled, if_pos ⟨hlink', Chip.rb_true hrx, Chip.rb_true hen', hnoFrame, hnoCtl, hquiet'⟩,
    Chip.setLink_moves (by rw [hlink']; decide)]
  rfl

/-- A received wake burst ends RX_IDLE, and the transmitter stays as idle as it was. -/
theorem Chip.rxWoken_txIdle (c : Chip) (p : Nat) : (c.rxWoken p).txIdle p = c.txIdle p := by
  have hlane : (c.rxWoken p).lanePs p 96 = c.lanePs p 96 :=
    Chip.lanePs_eq (c.rxWoken_rg_other (Fld.key_ne_of_apart (by decide))) rfl (c.rxWoken_rg_other (Fld.key_ne_of_apart (by decide)))
      (c.rxWoken_rg_other (Fld.key_ne_of_apart (by decide))) 96
  rw [Chip.txIdle, Chip.onLane, hlane, Chip.rxWoken_rg_other _ (Fld.key_ne_of_apart (by decide)), Chip.txIdle, Chip.onLane]
  rfl

/-- The chip with a received wake burst answered. -/
def Chip.wakeAnswered (c : Chip) (p : Nat) : Chip :=
  ({ c.rxWoken p with pt.wakeAt := c.pt.wakeAt.set p c.now } : Chip).emit .wakeBurst p [1024] []

theorem wakeBurstSend_answers {c : Chip} {p : Nat} (hidle : c.txIdle p = true) (hlink : c.rg R.PRT_STAT_LINK p = 3) :
    wakeBurstSend p true c = c.wakeAnswered p := by
  have hidle' : (c.rxWoken p).txIdle p = true := (c.rxWoken_txIdle p).trans hidle
  have hburst : true = true ∧ c.rg R.PRT_STAT_LINK p = 3 := ⟨rfl, hlink⟩
  unfold wakeBurstSend
  dsimp only
  rw [if_pos hburst, ← Chip.rxWoken, hidle', if_pos ⟨rfl, by simp⟩]
  rfl

/-- The chip with a wake completed. -/
def Chip.portWoken (c : Chip) (p : Nat) : Chip := { (c.linkMoved p 2).wg R.PRT_STAT_RX_IDLE p 0 with pt.wakeAt := c.pt.wakeAt.erase p }

theorem wakeLocked_wakes {c : Chip} {p a : Nat} (hwake : c.pt.wakeAt.find p = some a) (hlink : c.rg R.PRT_STAT_LINK p = 3)
    (hsoon : c.now ≤ a + usPs) (hwait : c.pt.ctlQ = []) : wakeLocked p c = c.portWoken p := by
  unfold wakeLocked
  rw [hwake]
  dsimp only
  rw [if_pos ⟨hlink, hsoon⟩, Chip.setLink_moves (by rw [hlink]; decide)]
  exact Chip.ctlFlush_none (c := c.portWoken p) hwait p

/-- The chip with a failed wake counted and its event raised, no longer waiting for a lock (R316). -/
def Chip.wakeCounted (c : Chip) (p : Nat) : Chip :=
  { ((c.inc C.PRT_WAKE_FAIL p).wg R.PRT_EVT_WAKE_FAIL p 1).wg R.PRT_STAT_RX_IDLE p 0 with
    pt.wakeAt := c.pt.wakeAt.erase p, pt.ctlQ := c.pt.ctlQ.filter (fun (x : CtlTx) => decide (x.port ≠ p)) }

theorem Chip.wakeCounted_link (c : Chip) (p : Nat) : (c.wakeCounted p).rg R.PRT_STAT_LINK p = c.rg R.PRT_STAT_LINK p := by
  refine (Chip.rg_wg_other _ R.PRT_STAT_RX_IDLE R.PRT_STAT_LINK p p 0 (Fld.key_ne_of_place p (by decide))).trans ?_
  rw [Chip.rg_wg_other _ _ _ _ _ _ (Fld.key_ne_of_place p (by decide)), Chip.inc_eq, Chip.rg_incBy]

theorem Chip.wakeCounted_event (c : Chip) (p : Nat) : (c.wakeCounted p).rg R.PRT_EVT_WAKE_FAIL p = 1 :=
  (Chip.rg_wg_other _ R.PRT_STAT_RX_IDLE R.PRT_EVT_WAKE_FAIL p p 0 (Fld.key_ne_of_place p (by decide))).trans (Chip.rg_wg_same ..)

/-- Leaving IDLE the port begins FLUSH_TO as it does leaving UP (log entry 38), and trains. -/
theorem wakeFail_trains {c : Chip} {p a : Nat} (hwake : c.pt.wakeAt.find p = some a) (hlink : c.rg R.PRT_STAT_LINK p = 3)
    (hlate : a + usPs ≤ c.now) : wakeFail p c = ((c.wakeCounted p).flushStart p).trainBegun p := by
  have hidle : ((c.wakeCounted p).flushStart p).rg R.PRT_STAT_LINK p ≠ 1 := by
    rw [Chip.flushStart, Chip.rg_mk, Chip.wakeCounted_link, hlink]
    decide
  unfold wakeFail
  rw [hwake]
  dsimp only
  rw [if_pos ⟨hlink, hlate⟩, ← Chip.trainStart_begins hidle]
  rfl

/-! ## Loops (R317) -/

/-- The chip with the loop of a port written, and nothing of an earlier loop on its way. -/
def Chip.loopWritten (c : Chip) (p loop : Nat) : Chip :=
  { c.wg R.PRT_LOOP_LOOP p loop with pt.loopQ := c.pt.loopQ.filter (fun (x : LoopTx) => decide (x.port ≠ p)) }

theorem Chip.loopWritten_rg_other (c : Chip) {p loop : Nat} {g : Fld} {j : Nat} (h : R.PRT_LOOP_LOOP.key p ≠ g.key j) :
    (c.loopWritten p loop).rg g j = c.rg g j := Chip.rg_wg_other _ _ _ _ _ _ h

/-- Whether a link may leave DOWN does not depend on the loop. -/
theorem Chip.loopWritten_portMay (c : Chip) (p : Fin 128) (loop : Nat) : (c.loopWritten p loop).portMay p = c.portMay p := by
  have hdom (d : Nat) : (c.loopWritten p loop).domOn d = c.domOn d := by
    have hkey : R.PRT_LOOP_LOOP.key p ≠ R.PWR_DOM_STAT_PSTATE.key d := by
      simp only [Fld.key, R.PRT_LOOP_LOOP, R.PWR_DOM_STAT_PSTATE]
      omega
    rw [Chip.domOn, Chip.loopWritten_rg_other _ hkey]
    rfl
  have hblk (b : Nat) : (c.loopWritten p loop).blockOk b = c.blockOk b := by
    rw [Chip.blockOk, hdom, Chip.loopWritten_rg_other _ (Fld.key_ne_of_apart (by decide))]
    rfl
  rw [Chip.portMay, hblk, Chip.loopWritten_rg_other _ (Fld.key_ne_of_place p.val (by decide)),
    Chip.loopWritten_rg_other _ (Fld.key_ne_of_place p.val (by decide))]
  rfl

/-- The chip with a port that was UP in a loop. -/
def Chip.loopEntered (c : Chip) (p loop : Nat) : Chip := ((c.loopWritten p loop).flushStart p).linkMoved p 4

theorem Chip.loopTo_enters {c : Chip} {p : Fin 128} {loop : Nat} (hloop : loop ≠ 0) (hlink : c.rg R.PRT_STAT_LINK p = 2)
    (hmay : c.portMay p = true) : c.loopTo p loop = c.loopEntered p loop := by
  have hmay' : (c.loopWritten p loop).portMay p = true := (c.loopWritten_portMay p loop).trans hmay
  have hlink' : ((c.loopWritten p loop).flushStart p).rg R.PRT_STAT_LINK p ≠ 4 := by
    rw [Chip.flushStart, Chip.rg_mk, Chip.loopWritten_rg_other _ (Fld.key_ne_of_place p.val (by decide)), hlink]
    decide
  unfold Chip.loopTo
  dsimp only
  rw [hlink, ← Chip.loopWritten, if_pos ⟨hloop, by decide, hmay'⟩, if_pos (.inl rfl), Chip.setLink_moves hlink']
  rfl

/-- The chip with a port that was UP in its near-end serial loop, with its generator and its checker as the word says. -/
def Chip.loopSerial (c : Chip) (p v : Nat) : Chip :=
  (((c.loopEntered p 2).wg R.PRT_LOOP_PRBS_GEN p (bits v 4 1)).wg R.PRT_LOOP_PRBS_CHK p (bits v 5 1)).wg R.PRT_LOOP_PRBS_LOCK p
    (b2n (bit v 4 && bit v 5))

/-- The checker locks to the pattern of its own generator (log entry 39). -/
theorem loopSet_serial {c : Chip} {p : Fin 128} {v : Nat} (hmode : c.mode = 9) (hserial : bits v 0 2 = 2) (hlink : c.rg R.PRT_STAT_LINK p = 2)
    (hmay : c.portMay p = true) : loopSet p v c = (c.loopSerial p v, stOk) := by
  have hlock : (bit v 4 && bit v 5 && decide (2 = 2)) = (bit v 4 && bit v 5) := Bool.and_true _
  rw [loopSet, if_neg (not_not.mpr hmode), hserial, Chip.loopTo_enters (by decide) hlink hmay, hlock]
  rfl

theorem loopSet_refused {c : Chip} (hmode : c.mode ≠ 9) (p v : Nat) : loopSet p v c = (c, stRefused) := if_pos hmode

/-- The four fields of PRT_LOOP, and LINK. -/
theorem Chip.loopSerial_reads (c : Chip) (p v : Nat) :
    (c.loopSerial p v).rg R.PRT_LOOP_LOOP p = 2 ∧ (c.loopSerial p v).rg R.PRT_LOOP_PRBS_GEN p = bits v 4 1 ∧
      (c.loopSerial p v).rg R.PRT_LOOP_PRBS_CHK p = bits v 5 1 ∧ (c.loopSerial p v).rg R.PRT_LOOP_PRBS_LOCK p = b2n (bit v 4 && bit v 5) ∧
      (c.loopSerial p v).rg R.PRT_STAT_LINK p = 4 := by
  have hkeep {g : Fld} (hgen : R.PRT_LOOP_PRBS_GEN.key p ≠ g.key p) (hchk : R.PRT_LOOP_PRBS_CHK.key p ≠ g.key p)
      (hlock : R.PRT_LOOP_PRBS_LOCK.key p ≠ g.key p) : (c.loopSerial p v).rg g p = (c.loopEntered p 2).rg g p := by
    rw [Chip.loopSerial, Chip.rg_wg_other _ _ _ _ _ _ hlock, Chip.rg_wg_other _ _ _ _ _ _ hchk, Chip.rg_wg_other _ _ _ _ _ _ hgen]
  refine ⟨?_, ?_, ?_, ?_, ?_⟩
  · rw [hkeep (Fld.key_ne_of_place p (by decide)) (Fld.key_ne_of_place p (by decide)) (Fld.key_ne_of_place p (by decide)), Chip.loopEntered,
      Chip.linkMoved_rg_other _ _ (Fld.key_ne_of_place p (by decide)) (Fld.key_ne_of_place p (by decide)), Chip.flushStart, Chip.rg_mk]
    exact Chip.rg_wg_same ..
  · rw [Chip.loopSerial, Chip.rg_wg_other _ _ _ _ _ _ (Fld.key_ne_of_place p (by decide)),
      Chip.rg_wg_other _ _ _ _ _ _ (Fld.key_ne_of_place p (by decide))]
    exact (Chip.rg_wg_same ..).trans (bits_mod ..)
  · rw [Chip.loopSerial, Chip.rg_wg_other _ _ _ _ _ _ (Fld.key_ne_of_place p (by decide))]
    exact (Chip.rg_wg_same ..).trans (bits_mod ..)
  · rw [Chip.loopSerial, Chip.rg_wg_same]
    cases bit v 4 && bit v 5 <;> rfl
  · rw [hkeep (Fld.key_ne_of_place p (by decide)) (Fld.key_ne_of_place p (by decide)) (Fld.key_ne_of_place p (by decide)), Chip.loopEntered,
      Chip.linkMoved_link _ _ (by decide)]

end Sys2Proof.Machine

namespace Sys2Proof.Safety

open Sys2Proof Sys2Proof.Machine

/-- PORT_ADMIN_DOWN (R306). -/
theorem portAdminDown_falls (t : Nat) (p : Fin 128) (v : Nat) (s : State) (hs : ready s) (hd : s.chip.domOn (9 + p.val / 32) = true)
    (hdown : bit v 4 = true) (hpause : bits v 8 2 ≠ 3) (hmin : 1 ≤ bits v 16 10) (hmax : bits v 16 10 ≤ 1000) :
    ∃ u, exec (.portAdminDown t p v) s = .next u ∧ answered u stOk ∧ u.chip.rg R.PRT_CFG_ADMIN_DOWN p = 1 ∧
      u.chip.rg R.PRT_CFG_IDLE_EN p = bits v 10 1 ∧ u.chip.rg R.PRT_CFG_EVT_EN p = bits v 11 1 ∧
      u.chip.rg R.PRT_CFG_RX_PAUSE p = bits v 8 2 ∧ u.chip.rg R.PRT_CFG_FLUSH_TO p = bits v 16 10 ∧ u.chip.rg R.PRT_STAT_LINK p = 0 ∧
      u.mem = s.mem := by
  obtain ⟨failAt, hrow⟩ := prtCfgWrite_adminDown (p := p) hdown hpause hmin hmax (chipAt s t)
  obtain ⟨hadmin, hidle, hevt, hrx, hflush⟩ := (chipAt s t).prtCfgWritten_reads p v
  have hfell := ((chipAt s t).prtCfgWritten p v).portDown_downed p
  refine ⟨_, on_answeredIn hs hd hrow, rfl, ?_, ?_, ?_, ?_, ?_, ?_, mem_answered hs hfell.mout stOk⟩ <;> rw [rg_answered, Chip.rg_mk]
  · rw [hfell.cfg (by decide), hadmin, bits_one, hdown]
    rfl
  · exact (hfell.cfg (by decide)).trans hidle
  · exact (hfell.cfg (by decide)).trans hevt
  · exact (hfell.cfg (by decide)).trans hrx
  · exact (hfell.cfg (by decide)).trans hflush
  · exact hfell.link

/-- PORT_FLUSH_TIMEOUT with one frame queued for the port (R307). -/
theorem portFlushTimeout_drops (t : Nat) (p : Fin 128) (a : Nat) (x : QFrame) (s : State) (hs : ready s)
    (hflush : s.chip.pt.flushAt = [(p.val, a)]) (hdue : a + s.chip.rg R.PRT_CFG_FLUSH_TO p * msPs ≤ max s.chip.now t)
    (hframes : s.chip.qs.frames = [x]) (hdir : s.chip.rg R.SCH_Q_CFG_DIR x.q = 0) (hport : s.chip.rg R.SCH_Q_CFG_PORT x.q = p)
    (hold : x.at_ ≤ a) (horigin : x.f.origin ≠ 0) :
    ∃ u, exec (.portFlushTimeout t p) s = .next u ∧ u.chip.qs.frames = [] ∧ u.chip.pt.flushAt = [] ∧
      u.chip.counter C.PRT_TX_FLUSH p = (s.chip.counter C.PRT_TX_FLUSH p + 1) % 2 ^ 48 ∧ u.mem = s.mem := by
  have hgone := Chip.unqueue_last (c := chipAt s t) hframes horigin
  have hrow := portFlushTimeout_last (c := chipAt s t) hflush hdue (Chip.flushPort_last (c := chipAt s t) hframes hdir hport hold)
    ((hgone.read (·.pt.flushAt) fun _ => rfl).trans hflush)
  refine ⟨_, State.on_running s t (fun _ => portFlushTimeout p.val) hs.1, ?_⟩
  rw [hrow]
  refine ⟨hgone.read (·.qs.frames) fun _ => rfl, rfl, ?_, mem_after hs (hgone.read (·.mout) fun _ => rfl)⟩
  rw [State.after_chip, Chip.counter_done, Chip.counter_mk, Chip.inc_eq, Chip.counter_incBy_same,
    hgone.read (·.counter C.PRT_TX_FLUSH p) fun _ => rfl]
  rfl

/-- IDLE_ENTER (R315). -/
theorem idleEnter_enters (t : Nat) (p : Fin 128) (s : State) (hs : ready s) (hlink : s.chip.rg R.PRT_STAT_LINK p = 2)
    (hen : s.chip.rg R.PRT_CFG_IDLE_EN p = 1) (hlit : bit s.chip.pt.lit p = true) (hframes : s.chip.qs.frames = [])
    (hwait : s.chip.pt.ctlQ = []) (hquiet : Tab.get 0 s.chip.pt.busyAt p + s.chip.rg R.PRT_IDLE_CFG_HOLD p * usPs ≤ max s.chip.now t) :
    ∃ u, exec (.idleEnter t p) s = .next u ∧ u.chip.rg R.PRT_STAT_LINK p = 3 ∧ u.chip.rg R.PRT_STAT_RX_IDLE p = 1 ∧
      u.chip.rg R.PRT_EVT_LINK_CHG p = 1 ∧ u.chip.counter C.PRT_IDLE_ENTRY p = (s.chip.counter C.PRT_IDLE_ENTRY p + 1) % 2 ^ 48 ∧
      u.mem = s.mem := by
  refine ⟨_, State.on_running s t (fun _ => idleEnter p.val) hs.1, ?_⟩
  rw [idleEnter_idles (c := chipAt s t) hlink hen hlit hframes hwait hquiet]
  exact ⟨((chipAt s t).rxIdled p).linkMoved_link p (by decide),
    (((chipAt s t).rxIdled p).linkMoved_rg_other 3 (Fld.key_ne_of_place p.val (by decide)) (Fld.key_ne_of_place p.val (by decide))).trans
      (Chip.rg_wg_same ..),
    ((chipAt s t).rxIdled p).linkMoved_event p 3, Chip.counter_incBy_same .., mem_after hs rfl⟩

/-- WAKE_BURST_SEND in answer to a received burst (R316). -/
theorem wakeBurstSend_wakes (t : Nat) (p : Fin 128) (s : State) (hs : ready s) (hidle : (chipAt s t).txIdle p = true)
    (hlink : s.chip.rg R.PRT_STAT_LINK p = 3) :
    ∃ u, exec (.wakeBurstSend t p true) s = .next u ∧ u.chip.rg R.PRT_STAT_RX_IDLE p = 0 ∧
      newest u = some { kind := .wakeBurst, unit := p, data := [1024], bytes := [] } ∧ Tab.get 0 u.chip.pt.wakeAt p = max s.chip.now t ∧
      kept s u [R.PRT_STAT_RX_IDLE.key p] := by
  refine ⟨_, State.on_running s t (fun _ => wakeBurstSend p.val true) hs.1, ?_⟩
  rw [wakeBurstSend_answers (c := chipAt s t) hidle hlink]
  exact ⟨Chip.rg_wg_same (chipAt s t) .., rfl, Tab.get_set_same ..,
    kept_after_one hs (fun g j hg => (chipAt s t).rxWoken_rg_other (Ne.symm hg)) rfl rfl rfl⟩

/-- WAKE_LOCKED (R316). -/
theorem wakeLocked_completes (t : Nat) (p : Fin 128) (a : Nat) (s : State) (hs : ready s) (hwake : s.chip.pt.wakeAt.find p = some a)
    (hlink : s.chip.rg R.PRT_STAT_LINK p = 3) (hsoon : max s.chip.now t ≤ a + usPs) (hwait : s.chip.pt.ctlQ = []) :
    ∃ u, exec (.wakeLocked t p) s = .next u ∧ u.chip.rg R.PRT_STAT_LINK p = 2 ∧ u.chip.rg R.PRT_STAT_RX_IDLE p = 0 ∧
      u.chip.pt.wakeAt.find p = none ∧ u.mem = s.mem := by
  refine ⟨_, State.on_running s t (fun _ => wakeLocked p.val) hs.1, ?_⟩
  rw [wakeLocked_wakes (c := chipAt s t) hwake hlink hsoon hwait]
  exact ⟨(Chip.rg_wg_other ((chipAt s t).linkMoved p 2) _ _ _ _ _ (Fld.key_ne_of_place p.val (by decide))).trans
    (Chip.linkMoved_link _ _ (by decide)), Chip.rg_wg_same .., Tab.find_erase_same _ _, mem_after hs rfl⟩

/-- WAKE_FAIL (R316; log entry 38). -/
theorem wakeFail_fails (t : Nat) (p : Fin 128) (a : Nat) (s : State) (hs : ready s) (hwake : s.chip.pt.wakeAt.find p = some a)
    (hlink : s.chip.rg R.PRT_STAT_LINK p = 3) (hlate : a + usPs ≤ max s.chip.now t) :
    ∃ u, exec (.wakeFail t p) s = .next u ∧ u.chip.rg R.PRT_STAT_LINK p = 1 ∧ u.chip.rg R.PRT_EVT_WAKE_FAIL p = 1 ∧
      u.chip.pt.wakeAt.find p = none ∧ u.chip.counter C.PRT_WAKE_FAIL p = (s.chip.counter C.PRT_WAKE_FAIL p + 1) % 2 ^ 48 ∧ u.mem = s.mem := by
  refine ⟨_, State.on_running s t (fun _ => wakeFail p.val) hs.1, ?_⟩
  rw [wakeFail_trains (c := chipAt s t) hwake hlink hlate]
  refine ⟨Chip.trainBegun_link (((chipAt s t).wakeCounted p).flushStart p) p, ?_, Tab.find_erase_same _ _, Chip.counter_incBy_same ..,
    mem_after hs rfl⟩
  exact (Chip.trainBegun_rg_other (((chipAt s t).wakeCounted p).flushStart p) (Fld.key_ne_of_place p.val (by decide))
    (Fld.key_ne_of_place p.val (by decide))).trans ((chipAt s t).wakeCounted_event p)

/-- LOOP_SET of the near-end serial loop on a port that is UP (R317; log entry 39). -/
theorem loopSet_enters (t : Nat) (p : Fin 128) (v : Nat) (s : State) (hs : ready s) (hd : s.chip.domOn (9 + p.val / 32) = true)
    (hmode : s.chip.mode = 9) (hserial : bits v 0 2 = 2) (hmay : (chipAt s t).portMay p = true) (hlink : s.chip.rg R.PRT_STAT_LINK p = 2) :
    ∃ u, exec (.loopSet t p v) s = .next u ∧ answered u stOk ∧ u.chip.rg R.PRT_LOOP_LOOP p = 2 ∧
      u.chip.rg R.PRT_LOOP_PRBS_GEN p = bits v 4 1 ∧ u.chip.rg R.PRT_LOOP_PRBS_CHK p = bits v 5 1 ∧
      u.chip.rg R.PRT_LOOP_PRBS_LOCK p = b2n (bit v 4 && bit v 5) ∧ u.chip.rg R.PRT_STAT_LINK p = 4 ∧ u.mem = s.mem := by
  obtain ⟨hloop, hgen, hchk, hlock, hmoved⟩ := (chipAt s t).loopSerial_reads p v
  exact ⟨_, on_answeredIn hs hd (loopSet_serial (c := chipAt s t) hmode hserial hlink hmay), rfl, (rg_answered ..).trans hloop,
    (rg_answered ..).trans hgen, (rg_answered ..).trans hchk, (rg_answered ..).trans hlock, (rg_answered ..).trans hmoved, mem_answered hs rfl stOk⟩

/-- LOOP_SET outside LOOPBACK (R317). -/
theorem loopSet_refuses (t : Nat) (p : Fin 128) (v : Nat) (s : State) (hs : ready s) (hd : s.chip.domOn (9 + p.val / 32) = true)
    (hmode : s.chip.mode ≠ 9) : ∃ u, exec (.loopSet t p v) s = .next u ∧ answered u stRefused ∧ kept s u [] :=
  ⟨_, on_answeredIn hs hd (loopSet_refused (c := chipAt s t) hmode p v), rfl, kept_after hs rfl rfl rfl rfl⟩

/-- Settles O22, command by command: the link trains, rises, falls, sleeps and wakes, and its configuration and loop are written. -/
theorem portLinkCommands : Obligations.PortLinkCommands :=
  ⟨portLightOn_begins, portTrainLocked_rises, portTrainTimeout_fails, portRetrainDelay_begins, portLinkFault_falls, remoteFault_notes,
    remoteFault_ends, portAdminDown_falls, portFlushTimeout_drops, idleEnter_enters, wakeBurstSend_wakes, wakeLocked_completes, wakeFail_fails,
    loopSet_enters, loopSet_refuses⟩

end Sys2Proof.Safety
end

section
/-! PROOFS. What holds of every command: it leaves some chip and then the memory changes that this chip asked for are made; outside the
board's commands a stopped terminal does not act, the cores do not act while CTRL is not ON, and a register of a domain that is not ON is
not written. -/

namespace Sys2Proof.Safety

open Sys2Proof Sys2Proof.Machine

/-- Every command leaves a chip, with the changes of the memories that it asked for made. -/
theorem exec_eq_after (c : Instr) (s : State) : ∃ e, exec c s = .next (s.after e) := by
  cases c <;> exact ⟨_, rfl⟩

/-- A command that is not one of the board's leaves the chip at its instant where the terminal does not run. -/
theorem exec_eq_after_if_running (c : Instr) (s : State) (hc : boardCommand c = false) :
    ∃ t e, exec c s = .next (s.after (if (chipAt s t).running = true then e else chipAt s t)) := by
  cases c <;> cases hc <;> exact ⟨_, _, rfl⟩

/-- A command of the cores acts while CTRL is ON. -/
theorem exec_eq_after_if_ctrl (c : Instr) (s : State) (hc : coreCommand c = true) :
    ∃ t e, exec c s = .next (s.after (if (chipAt s t).running = true then if (chipAt s t).domOn 2 = true then e else chipAt s t else chipAt s t)) := by
  cases c <;> cases hc <;> exact ⟨_, _, rfl⟩

/-- The host writes that the scheduler (R361) or a hand-over window (R81) may hold before they are answered. -/
def mayBeHeld : Instr → Bool
  | .mcuHostCmd _ _ | .jubCancel _ => true
  | _ => false

/-- A host write that is never held is answered by the domain of its register. -/
theorem exec_eq_after_answeredIn (c : Instr) (d : Nat) (s : State) (hc : writeDomain c = some d) (hh : mayBeHeld c = false) :
    ∃ t f, exec c s = .next (s.after (if (chipAt s t).running = true then (chipAt s t).answeredIn d f else chipAt s t)) := by
  cases c <;> cases hh <;> cases hc <;> exact ⟨_, _, rfl⟩

/-- Whatever chip a command leaves, the state is sound, where the memories were in canonical form. -/
theorem sound_after {s : State} (h : s.mem.wf = true) (c : Chip) : sound (s.after c) :=
  ⟨Mem.applyAll_wf _ _ h, rfl⟩

/-- Settles O46: both sides are the same by the definition of `step`. -/
theorem stepRunsFrontCommand : Obligations.StepRunsFrontCommand := fun _ _ _ => rfl

/-- Settles O47: `step` answers the state itself where no command waits. -/
theorem stepIdlesOnEmptyQueue : Obligations.StepIdlesOnEmptyQueue := by
  intro s hs
  rw [step, hs]

/-- Settles O48: a command changes the chip and the memories, never the queue. -/
theorem everyCommandAnswersAndKeepsTheQueue : Obligations.EveryCommandAnswersAndKeepsTheQueue := by
  intro c s
  obtain ⟨e, h⟩ := exec_eq_after c s
  exact ⟨_, h, rfl⟩

/-- Settles O49: what waits is applied to memories in canonical form, which keeps the form, and nothing is left waiting. -/
theorem everyStepKeepsTheMachineSound : Obligations.EveryStepKeepsTheMachineSound := by
  intro s u hs hu
  match hp : s.pending with
  | [] =>
    rw [stepIdlesOnEmptyQueue s hp] at hu
    cases hu
    exact ⟨hs, hp⟩
  | c :: cs =>
    rw [step, hp] at hu
    obtain ⟨e, h⟩ := exec_eq_after c { s with pending := cs }
    cases h.symm.trans hu
    exact ⟨sound_after hs.1 _, rfl⟩

/-- Settles O50: both memories of the reset state are empty, and so is its queue. -/
theorem resetIsSound : Obligations.ResetIsSound := ⟨⟨rfl, rfl⟩, rfl⟩

/-- Settles O51: a terminal that does not run only takes the instant of the command. -/
theorem stoppedTerminalOnlyLetsTimePass : Obligations.StoppedTerminalOnlyLetsTimePass := by
  intro c s hc hs
  obtain ⟨t, e, h⟩ := exec_eq_after_if_running c s hc
  have hstop : (chipAt s t).running = false := hs
  rw [hstop, if_neg Bool.false_ne_true] at h
  refine ⟨_, h, hs, rfl, fun _ _ _ => rfl, rfl, rfl, fun hm => ?_⟩
  rw [State.after_mem, Chip.tick_mout, hm]
  rfl

/-- Settles O52: with CTRL not ON the command leaves the chip at its instant. -/
theorem coresActOnlyWhileCtrlIsOn : Obligations.CoresActOnlyWhileCtrlIsOn := by
  intro c s hc hs hd
  obtain ⟨t, e, h⟩ := exec_eq_after_if_ctrl c s hc
  have hrun : (chipAt s t).running = true := hs.1
  have hoff : (chipAt s t).domOn 2 = false := hd
  rw [hrun, hoff, if_pos rfl, if_neg Bool.false_ne_true] at h
  exact ⟨_, h, rfl, kept_after hs rfl rfl rfl rfl⟩

/-- A command that writes a register of a domain that is not ON leaves the chip at its instant with the answer REFUSED. -/
theorem exec_of_domain_off (c : Instr) (d : Nat) (s : State) (hc : writeDomain c = some d) (hrun : s.chip.running = true)
    (hd : s.chip.domOn d = false) : ∃ t, exec c s = .next (s.after ((chipAt s t).emit .answer 0 [stRefused] [])) := by
  have hrun' : ∀ t, (chipAt s t).running = true := fun _ => hrun
  have hoff : ∀ t, (chipAt s t).domOn d = false := fun _ => hd
  match hh : mayBeHeld c with
  | false =>
    obtain ⟨t, f, h⟩ := exec_eq_after_answeredIn c d s hc hh
    rw [hrun', if_pos rfl, Chip.answeredIn, hoff, if_neg Bool.false_ne_true] at h
    exact ⟨t, h⟩
  | true =>
    cases c <;> cases hh <;> cases hc
    case mcuHostCmd.refl.refl t v =>
      refine ⟨t, (State.on_running s t (fun _ c => if c.domOn 2 then mcuHostCmd v c else c.answeredIn 2 (fun c => (c, stRefused))) hrun).trans ?_⟩
      rw [Chip.answeredIn, hoff, if_neg Bool.false_ne_true, if_neg Bool.false_ne_true]
    case jubCancel.refl.refl t =>
      refine ⟨t, (State.on_running s t (fun _ => jubCancelRow) hrun).trans ?_⟩
      rw [jubCancelRow, Chip.answeredIn, hoff, if_neg (fun h => Bool.false_ne_true h.1), if_neg Bool.false_ne_true]

/-- Settles O53: with its domain not ON the write is answered REFUSED, and an answer changes nothing else. -/
theorem domainOffRefused : Obligations.DomainOffRefused := by
  intro c d s hc hs hd
  obtain ⟨t, h⟩ := exec_of_domain_off c d s hc hs.1 hd
  exact ⟨_, h, rfl, kept_after hs rfl rfl rfl rfl⟩

end Sys2Proof.Safety
end

section
/-! PROOFS. Statements that read a register of one bit as set when it is not 0. The model tests such a register for 1 (`Chip.rb`), and a
`State` may hold any number in a register, wider than its field too; nothing in the statements keeps it below 2. -/

namespace Sys2Proof.Machine

open Sys2Proof Sys2Proof.Safety

/-- The terminal after reset with some register fields given any number, of any width. -/
def rawRegs (ws : List (Fld × Nat × Nat)) : State :=
  { State.reset with chip := { Chip.reset with regs := ws.foldl (fun r w => r.set (w.1.key w.2.1) w.2.2) Chip.reset.regs } }

/-- DMA channel 0 with the number 2 in its bit EN, in a running terminal with NET ON. -/
def dmaEnTwo : State := rawRegs [(R.PWR_DOM_STAT_PSTATE, 6, 2), (R.DMA_CH_CFG_EN, 0, 2), (R.DMA_CH_CFG_OWNER, 0, 1)]

/-- Task 0 runs on core 0, with the number 2 in the bit HALT of the cores. -/
def haltTwo : State :=
  { rawRegs [(R.MCU_CTRL_HALT, 0, 2), (R.MCU_TASK_STAT_STATE, 0, 3)] with chip.mc.run := [(0, 0)], chip.mc.runAt := [(0, 0)] }

end Sys2Proof.Machine

namespace Sys2Proof.Safety

open Sys2Proof Sys2Proof.Machine

/-- Refutes O30 by its clause of a DMA_CH_CFG_WRITE by one who is not the owner: with the number 2 in EN the channel is not enabled, and the write
is answered OK. No premise keeps the bit EN below 2. -/
theorem not_dmaChannelCommands : ¬ Obligations.DmaChannelCommands := by
  rintro ⟨-, -, howner, -⟩
  have hstep := howner 0 0 0 (2 * 65536) dmaEnTwo (by decide +kernel) (by decide +kernel) (by decide +kernel) (by decide) (by decide)
    (by decide) (by decide +kernel)
  have hon : exec (.dmaChCfgWrite 0 0 0 (2 * 65536)) dmaEnTwo =
      dmaEnTwo.on 0 (fun _ c => c.answeredIn 6 (dmaChCfgWrite 0 0 (2 * 65536))) := rfl
  rw [hon] at hstep
  obtain ⟨hanswer, -⟩ := State.after_of_on (by decide +kernel) hstep
  exact absurd hanswer (by decide +kernel)

/-- Refutes O31 by its clause of END: with the number 2 in HALT the cores are not halted, and the core that its task leaves is IDLE. No
premise keeps the bit HALT below 2. -/
theorem not_taskCommandsOfCores : ¬ Obligations.TaskCommandsOfCores := by
  rintro ⟨-, -, hend, -⟩
  have hstep := hend 0 0 0 haltTwo (by decide +kernel) (by decide +kernel) (by decide +kernel) (by decide +kernel) (by decide +kernel)
    (by decide +kernel) (by decide +kernel) (by decide +kernel) (by decide +kernel) (by decide +kernel)
  have hon : exec (.taskEnd 0 0) haltTwo = haltTwo.on 0 (fun _ c => if c.domOn 2 then taskEnd 0 c else c) := rfl
  rw [hon] at hstep
  obtain ⟨-, hcore, -⟩ := State.after_of_on (by decide +kernel) hstep
  exact absurd hcore (by decide +kernel)

/-- Refutes O32 by its clause of CORE_WATCHDOG_RESET: with the number 2 in HALT the core that its task leaves is IDLE, not HALTED. No premise
keeps the bit HALT below 2. -/
theorem not_dispatchAndTimerCommands : ¬ Obligations.DispatchAndTimerCommands := by
  rintro ⟨-, -, -, -, -, -, -, -, -, -, hwatchdog, -⟩
  have hstep := hwatchdog (10 ^ 18) 0 0 0 haltTwo (by decide +kernel) (by decide +kernel) (by decide +kernel) (by decide +kernel)
    (by decide +kernel) (by decide +kernel) (by decide +kernel) (by decide +kernel) (by decide +kernel)
  have hon : exec (.coreWatchdogReset (10 ^ 18) 0) haltTwo =
      haltTwo.on (10 ^ 18) (fun _ c => if c.domOn 2 then coreWatchdogReset 0 c else c) := rfl
  rw [hon] at hstep
  obtain ⟨-, -, -, hcore, -⟩ := State.after_of_on (by decide +kernel) hstep
  exact absurd hcore (by decide +kernel)

end Sys2Proof.Safety
end

section
/-! PROOFS. Statements whose premises leave out something that the command also does: the end of a DMA descriptor of a session that an alarm
closes (R354), the requests of a loader that prepares a full Almanac (R422). -/

namespace Sys2Proof.Machine

open Sys2Proof Sys2Proof.Safety

/-- The terminal after reset with session 0 OPEN and a descriptor of its DMA channel 0 in progress. -/
def descriptorOpen : State :=
  { State.reset with
    chip := { (Chip.reset.wg R.HST_SESS_STAT_STATE 0 2).wg R.DMA_CH_CFG_OWNER 0 1 with
      hp.dma := [(0, { desc := [], moved := 0, waits := false, stop := false })] } }

/-- A load that prepares a full Almanac with INIT RETENTION for domain 16 and INIT OFF for every other. -/
def lastInRetention : Prepared :=
  { full := true, gen := 0, base := 0, objs := (List.range 17).map (fun d => (0x0702 * 65536 + d, [if d = 16 then 1 else 0])), words := [],
    sects := [], named := [], chain := [], slot := 0 }

/-- The terminal after reset as the loader prepares that Almanac, with domain 16 in step 3 of an entry that began at instant 0. -/
def entryDuringLoad : State :=
  { State.reset with
    chip := { Chip.reset.wg R.ALM_LOAD_STAT_STATE 0 3 with
      alm.load.prep := some lastInRetention
      pw.dom := [(16, { step := 5, target := 0, src := 0, at_ := 0, latched := false })] } }

end Sys2Proof.Machine

namespace Sys2Proof.Safety

open Sys2Proof Sys2Proof.Machine

/-- Refutes O36 by its clause of a BOOT_START that finds a bad check code: the alarm closes session 0, whose descriptor in progress is written
back to DDR5 as ABORTED. No premise says that no descriptor is in progress. -/
theorem not_bootAndFirmwareCommands : ¬ Obligations.BootAndFirmwareCommands := by
  rintro ⟨-, hbad, -⟩
  have hstep := hbad 0 0 descriptorOpen (by decide +kernel) (by decide +kernel) (by decide +kernel)
  have hon : exec (.bootStart 0 0 false) descriptorOpen = descriptorOpen.on 0 (fun _ => bootStart 0 false) := rfl
  rw [hon] at hstep
  obtain ⟨-, -, -, -, hmem⟩ := State.after_of_on (by decide +kernel) hstep
  exact absurd (congrArg (fun m => m.ddr.length) hmem) (by decide +kernel)

/-- Refutes O40 by its clause of DOM_ENTRY_TIMEOUT: the entry ends and the domain is ON, as the loader needed it; the loader then requests
RETENTION for it, and it is BUSY again. No premise says that no load is being prepared. -/
theorem not_domainCommands : ¬ Obligations.DomainCommands := by
  rintro ⟨-, -, -, -, -, -, -, -, -, -, htimeout, -⟩
  have hstep := htimeout (2 * msPs) 16 _ entryDuringLoad (by decide +kernel) rfl (by decide +kernel) (by decide +kernel) (by decide +kernel)
    (by decide +kernel)
  have hon : exec (.domEntryTimeout (2 * msPs) 16) entryDuringLoad = entryDuringLoad.on (2 * msPs) (fun _ => domEntryTimeout 16) := rfl
  rw [hon] at hstep
  obtain ⟨-, hbusy, -⟩ := State.after_of_on (by decide +kernel) hstep
  exact absurd hbusy (by decide +kernel)

end Sys2Proof.Safety
end

section
/-! PROOFS. Statements about registers that a command writes before a load ends. A load that ends leaves free values in the registers that it
recorded as prepared (`Chip.loadRelease`), and a `State` may record any register there, with any width; with width 0 the value left is 0. -/

namespace Sys2Proof.Machine

open Sys2Proof Sys2Proof.Safety

/-- A register at key `k` that holds 0, once a free value has been drawn for it. -/
def Chip.regDrained (c : Chip) (k : Nat) : Chip := { c.draw.2 with regs := c.draw.2.regs.set k 0 }

/-- The one free value of width 0 is 0. -/
theorem Chip.regUndef_width_zero (c : Chip) (k : Nat) : c.regUndef (k, 0) = c.regDrained k := by
  rw [Chip.regUndef, Nat.pow_zero, Nat.mod_one]
  rfl

/-- A load that recorded one shadow register of width 0 fails: the register holds 0. -/
theorem Chip.loadFail_shadow {c : Chip} {k : Nat} (hregion : c.alm.load.region = []) (hshadow : c.alm.load.shadow = [(k, 0)]) (cause sect : Nat) :
    c.loadFail cause sect = (c.regDrained k).loadUnlocked.loadState 6 cause sect := by
  rw [Chip.loadFail, Chip.loadRelease_one hregion hshadow, Chip.regUndef_width_zero]

/-- What is claimed of the state that a command of the board answers is claimed of the chip that the command leaves. -/
theorem State.after_of_onAny {s : State} {t : Nat} {f : Mem → Chip → Chip} {P : State → Prop} (h : ∃ u, s.onAny t f = .next u ∧ P u) :
    P (s.after (f s.mem (s.chip.tick t))) := by
  obtain ⟨u, hu, hp⟩ := h
  cases hu
  exact hp

/-! ## An alarm that closes a session whose delta is pending -/

/-- What the close of an open session does once its transactions have aborted (R336). -/
def Chip.sessEnded (c : Chip) (s cause : Nat) : Chip :=
  have c := forN 64 (fun ch d => if d.rg R.DMA_CH_CFG_OWNER ch = s + 1 then d.dmaStop ch else d) c
  have c := { c with alm.held := c.alm.held.map (fun (h : HeldWrite) => if h.sess = s then { h with sess := 9 } else h) }
  (c.sessFree s).wg R.HST_SESS_STAT_CLOSE_CAUSE s cause

/-- The chip as the one transaction of session 0, a delta, has aborted with the load that stands on it. -/
def Chip.deltaLost (c : Chip) (x : Txn) (k : Nat) : Chip := ((c.txnRecord x 4 8 0 c.alm.octave).regDrained k).loadUnlocked.loadState 6 21 0

/-- What the erasure of the key stores does once the sessions are closed (R400). -/
def Chip.storesErased (c : Chip) : Chip :=
  have c := forN 4 (fun w d => d.wg R.SEC_VLT_OUT_BLOCK w 0) c
  have c := forN 255 (fun i d => if d.rg R.SEC_KIDX_STAT_DOWN i = 0 ∧ d.rg R.SEC_KIDX_STAT_UP i = 0 then d
    else (d.wg R.SEC_KIDX_STAT_DOWN i 0).wg R.SEC_KIDX_STAT_UP i 0) c
  have c := forN 128 (fun p d => if d.rg R.SEC_MS_STAT_TX_SA p = 0 ∧ d.rg R.SEC_MS_STAT_RX_SA p = 0 then d
    else (d.wg R.SEC_MS_STAT_TX_SA p 0).wg R.SEC_MS_STAT_RX_SA p 0) c
  have c := (c.wg R.TRK_TERM_ID_MMK 0 0).wg R.SEC_STAT_ID_READY 0 0
  have c := (c.stompSplits (fun k => decide (k ≠ 0))).wg R.SEC_ALARM_STAT_ERASED 0 1
  have scratch := c.mc.lmem.map (fun (x : Nat × Tab Byte) => (x.1, x.2.filter (fun (e : Nat × Byte) => decide (e.1 < 0x3C000 ∨ 0x40000 ≤ e.1))))
  { c with sec.vault := [], sec.trunkKeys := [], sec.msTx := [], sec.msRx := [], sec.offer := none, mc.lmem := scratch }

theorem Chip.eraseKeys_eq (c : Chip) : c.eraseKeys = (c.sessCloseAll 5).storesErased := by
  unfold Chip.eraseKeys Chip.storesErased
  rfl

theorem forN_four (f : Nat → Chip → Chip) (c : Chip) : forN 4 f c = f 3 (f 2 (f 1 (f 0 c))) := rfl

theorem Chip.sessCloseAll_eq (c : Chip) (cause : Nat) :
    c.sessCloseAll cause = (((c.sessClose 0 cause).sessClose 1 cause).sessClose 2 cause).sessClose 3 cause := forN_four ..

/-- An open session with one transaction, a delta whose load recorded one shadow register of width 0, closes. -/
theorem Chip.sessClose_delta {c : Chip} {s k : Nat} {x : Txn} (hopen : c.rg R.HST_SESS_STAT_STATE s = 2) (htxns : c.alm.txns = [x])
    (howner : x.owner = s) (horigin : x.origin = .delta) (hsilent : x.notify = false) (hcancel : c.alm.load.cancelled = false)
    (hregion : c.alm.load.region = []) (hshadow : c.alm.load.shadow = [(k, 0)]) (cause : Nat) :
    c.sessClose s cause = (c.deltaLost x k).sessEnded s cause := by
  have habort : c.txnAbortAll 8 false (fun x => decide (x.owner = s) && decide (x.origin ≠ .swap)) = c.deltaLost x k := by
    have hload : (c.txnRecord x 4 8 0 c.alm.octave).alm.load = c.alm.load := by rw [Chip.txnRecord_silent hsilent]; rfl
    have hmine : (decide (x.owner = s) && decide (x.origin ≠ .swap)) = true := by simp [howner, horigin]
    rw [Chip.txnAbortAll, htxns, List.filter_singleton, hmine, cond_true, List.foldl_cons, List.foldl_nil, Chip.txnAbort,
      Chip.txnOrigin, horigin]
    simp only [hload, hcancel, Bool.false_eq_true, if_false]
    exact Chip.loadFail_shadow (by rw [hload, hregion]) (by rw [hload, hshadow]) 21 0
  unfold Chip.sessClose
  rw [if_pos hopen, habort]
  rfl

/-- The sources of a mask that start an alarm. -/
def Chip.alarmSources (c : Chip) (mask : Nat) : List Nat :=
  (List.range 8).filter (fun n => bit mask n && c.alarmUsed n && !c.rbit R.SEC_ALARM_STAT_ACTIVE 0 n &&
    !(decide (n = 3 ∨ n = 4) && c.rbit R.SEC_ALARM_STAT_MASKED 0 (n - 3)))

/-- The chip as its alarm is raised, before the erasure. -/
def Chip.alarmTaken (c : Chip) (srcs : List Nat) (first : Nat) : Chip :=
  have c := srcs.foldl (fun d n => ((d.wbit R.SEC_ALARM_STAT_ACTIVE 0 n true).wbit R.SEC_ALARM_STAT_RELEASE 0 n true).inc C.SEC_ALARM_EVENTS 0) c
  have c := if c.sec.firstSet then c else { (c.wg R.SEC_ALARM_STAT_FIRST 0 first) with sec.firstSet := true }
  (c.wg R.SEC_EVT_ALARM 0 1).abortAnswer

/-- The chip once the erasure of an alarm is counted. -/
def Chip.alarmErased (c : Chip) : Chip :=
  have c := c.inc C.SEC_ERASURES 0
  { c with sec.idDue := true }

theorem Chip.alarmStart_eq {c : Chip} {mask first : Nat} {rest : List Nat} (h : c.alarmSources mask = first :: rest) :
    c.alarmStart mask = (c.alarmTaken (first :: rest) first).eraseKeys.alarmErased := by
  unfold Chip.alarmStart
  have hs : (List.range 8).filter (fun n => bit mask n && c.alarmUsed n && !c.rbit R.SEC_ALARM_STAT_ACTIVE 0 n &&
    !(decide (n = 3 ∨ n = 4) && c.rbit R.SEC_ALARM_STAT_MASKED 0 (n - 3))) = first :: rest := h
  rw [hs]
  dsimp only [Chip.alarmErased, Chip.alarmTaken]

/-- An alarm whose mask names no tamper input. -/
theorem alarmStart_no_tamper {mask : Nat} (c : Chip) (h3 : bit mask 3 = false) (h4 : bit mask 4 = false) :
    alarmStart mask c = c.alarmStart mask := by
  have hfast : (List.range 8).filter (fun n => bit mask n && decide (n = 3 ∨ n = 4) && c.tamperFast n &&
      !c.rbit R.SEC_ALARM_STAT_MASKED 0 (n - 3)) = [] := by
    refine List.filter_eq_nil_iff.mpr fun n _ => ?_
    by_cases hn : n = 3 ∨ n = 4
    · rcases hn with rfl | rfl
      · simp [h3]
      · simp [h4]
    · simp [hn]
  have htwo : ∀ (f : Nat → Chip → Chip) (d : Chip), forN 2 f d = f 1 (f 0 d) := fun _ _ => rfl
  unfold alarmStart
  rw [hfast]
  simp only [List.foldl_nil, htwo, Nat.add_zero, Nat.reduceAdd, h3, h4, Bool.false_and, Bool.false_eq_true, if_false]

/-- A delta of session 0 that is pending. -/
def pendingDelta : Txn :=
  { slot := 0, seq := 0, owner := 0, origin := .delta, pending := true, writes := [], kind := 0, value := 0, order := 0, notify := false }

/-- The terminal after reset with session 0 OPEN, a delta of it pending, and the register at key `k` recorded with width 0 by its load. The
fuses differ from their image of boot time, and the quarantine latch is set. -/
def deltaShadow (k : Nat) : State :=
  { State.reset with
    chip := { (Chip.reset.wg R.HST_SESS_STAT_STATE 0 2).wg R.TRK_GUARD_STAT_QUAR 0 1 with
      alm.txns := [pendingDelta]
      alm.load.shadow := [(k, 0)]
      sec.fuses := 1 } }

/-- What an alarm leaves of a chip that was raised like that terminal. -/
def Chip.deltaAlarmed (c : Chip) (k : Nat) : Chip :=
  (((((c.deltaLost pendingDelta k).sessEnded 0 5).sessClose 1 5).sessClose 2 5).sessClose 3 5).storesErased.alarmErased

/-- An alarm of a chip with session 0 OPEN, a delta of it pending, and a load that recorded one register of width 0. -/
theorem Chip.alarmStart_delta {c : Chip} {mask first k : Nat} {rest : List Nat} (h : c.alarmSources mask = first :: rest)
    (hopen : (c.alarmTaken (first :: rest) first).rg R.HST_SESS_STAT_STATE 0 = 2)
    (halm : (c.alarmTaken (first :: rest) first).alm = (deltaShadow k).chip.alm) :
    c.alarmStart mask = (c.alarmTaken (first :: rest) first).deltaAlarmed k := by
  have hclose := Chip.sessClose_delta (k := k) (x := pendingDelta) hopen (by rw [halm]; rfl) rfl rfl rfl (by rw [halm]; rfl) (by rw [halm]; rfl)
    (by rw [halm]; rfl) 5
  rw [Chip.alarmStart_eq h, Chip.eraseKeys_eq, Chip.sessCloseAll_eq, hclose]
  rfl

/-! ## EVENTIDE by temperature with a prepared candidate -/

/-- The terminal after reset in OPERATIONAL and too hot since instant 0, with a prepared candidate whose load recorded TRK_MODE.CODE with
width 0. -/
def hotModeInShadow : State :=
  { State.reset with
    chip := { ((Chip.reset.wg R.TRK_MODE_CODE 0 5).wg R.ALM_JUB_STAT_CAND_ALM 0 1).wg R.ALM_LOAD_STAT_STATE 0 4 with
      alm.load.shadow := [(R.TRK_MODE_CODE.key 0, 0)]
      pw.hotAt := some 0 } }

/-- That terminal in EVENTIDE as its candidate is about to be discarded. -/
def hotModeInShadowLeft : Chip := ((chipAt hotModeInShadow (100 * msPs)).setMode 11 17).txnAbortAll 9 false (fun _ => true)

/-- R424: at the temperature for 100 ms, modes 1 to 10 enter EVENTIDE. -/
theorem thermalEventide_due {c : Chip} {a : Nat} (hhot : c.pw.hotAt = some a) (hdue : a + 100 * msPs ≤ c.now ∧ 1 ≤ c.mode ∧ c.mode ≤ 10) :
    thermalEventide c = c.enterEventide 17 := by
  unfold thermalEventide
  rw [hhot]
  exact if_pos hdue

/-- The candidate that is discarded takes the mode with it. -/
theorem thermalEventide_hotModeInShadow : (thermalEventide (chipAt hotModeInShadow (100 * msPs))).mode = 0 := by
  have hdrop : hotModeInShadowLeft.dropCandidate =
      ((hotModeInShadowLeft.regDrained (R.TRK_MODE_CODE.key 0)).loadUnlocked.loadState 6 21 0).candFree := by
    rw [Chip.dropCandidate_prepared (by decide +kernel), Chip.loadFail_shadow (k := R.TRK_MODE_CODE.key 0) (by decide +kernel) (by decide +kernel)]
  have hmode : hotModeInShadowLeft.dropCandidate.swapMode.mode = 0 := by
    rw [hdrop]
    decide +kernel
  rw [thermalEventide_due (a := 0) (by decide +kernel) (by decide +kernel)]
  exact (Chip.rg_mk ..).trans hmode

end Sys2Proof.Machine

namespace Sys2Proof.Safety

open Sys2Proof Sys2Proof.Machine

/-- Refutes O55: session 0 is OPEN with a delta pending whose load recorded SEC_ALARM_STAT.ACTIVE among the registers that it prepared. The alarm
sets the bit of its source and then closes the session; the load ends, and the register holds the free value 0. No premise keeps
SEC_ALARM_STAT out of that record. -/
theorem not_alarmErasesEveryKeyStore : ¬ Obligations.AlarmErasesEveryKeyStore := by
  intro halarm
  have hstep := halarm 0 64 6 (deltaShadow (R.SEC_ALARM_STAT_ACTIVE.key 0)) (by decide +kernel) (by decide) (by decide) (by decide)
    (by decide +kernel) (by decide +kernel)
  have hon : exec (.alarmStart 0 64) (deltaShadow (R.SEC_ALARM_STAT_ACTIVE.key 0)) =
      (deltaShadow (R.SEC_ALARM_STAT_ACTIVE.key 0)).on 0 (fun _ => alarmStart 64) := rfl
  rw [hon] at hstep
  obtain ⟨hactive, -⟩ := State.after_of_on (by decide +kernel) hstep
  rw [alarmStart_no_tamper _ (by decide) (by decide),
    Chip.alarmStart_delta (first := 6) (rest := []) (k := R.SEC_ALARM_STAT_ACTIVE.key 0) (by decide +kernel) (by decide +kernel) (by decide +kernel)] at hactive
  exact absurd hactive (by decide +kernel)

/-- Refutes O35 by its clause of a FUSE_CHECK that finds a bit grown: the alarm sets SEC_ALARM_STAT.ACTIVE and then closes session 0, whose load
recorded that register among those that it prepared; it holds the free value 0. No premise keeps SEC_ALARM_STAT out of that record. -/
theorem not_fuseAndFlashCommands : ¬ Obligations.FuseAndFlashCommands := by
  rintro ⟨-, -, -, -, -, hgrown, -⟩
  have hstep := hgrown secPs 0 (deltaShadow (R.SEC_ALARM_STAT_ACTIVE.key 0)) (by decide +kernel) (by decide +kernel) (by decide +kernel)
    (by decide +kernel)
  have hon : exec (.fuseCheck secPs 0) (deltaShadow (R.SEC_ALARM_STAT_ACTIVE.key 0)) =
      (deltaShadow (R.SEC_ALARM_STAT_ACTIVE.key 0)).on secPs (fun _ => fuseCheck 0) := rfl
  rw [hon] at hstep
  obtain ⟨hactive, -⟩ := State.after_of_on (by decide +kernel) hstep
  unfold fuseCheck at hactive
  rw [if_neg (by decide +kernel), if_neg (by decide +kernel),
    Chip.alarmStart_delta (first := 6) (rest := []) (k := R.SEC_ALARM_STAT_ACTIVE.key 0) (by decide +kernel) (by decide +kernel) (by decide +kernel)] at hactive
  exact absurd hactive (by decide +kernel)

/-- Refutes O42 by its clause of THERMAL_EVENTIDE: the candidate is discarded after the mode is written, and its load recorded TRK_MODE.CODE among
the registers that it prepared. No premise keeps TRK_MODE out of that record. -/
theorem not_operatingPointCommands : ¬ Obligations.OperatingPointCommands := by
  rintro ⟨-, -, -, -, -, -, heventide, -⟩
  have hstep := heventide (100 * msPs) 0 hotModeInShadow (by decide +kernel) (by decide +kernel) (by decide +kernel) (by decide +kernel)
    (by decide +kernel)
  have hon : exec (.thermalEventide (100 * msPs)) hotModeInShadow = hotModeInShadow.on (100 * msPs) (fun _ => thermalEventide) := rfl
  rw [hon] at hstep
  have hmode := (State.after_of_on (by decide +kernel) hstep).1
  rw [State.after_chip, Chip.rg_done] at hmode
  exact absurd (hmode.symm.trans thermalEventide_hotModeInShadow) (by decide)

/-- Refutes O45 by its clause of VAUX3_LOSS: the VOLT alarm closes session 0, whose load recorded TRK_GUARD_STAT.QUAR among the registers that it
prepared, before the latch is kept over the loss; the latch was set and holds the free value 0. No premise keeps TRK_GUARD_STAT out of
that record. -/
theorem not_supplyAndResetCommands : ¬ Obligations.SupplyAndResetCommands := by
  rintro ⟨-, -, -, -, -, -, -, -, -, -, hloss⟩
  have hstep := hloss 0 (deltaShadow (R.TRK_GUARD_STAT_QUAR.key 0)) (by decide +kernel) (by decide +kernel)
    (by decide +kernel) (by decide +kernel)
  have hany : exec (.vaux3Loss 0) (deltaShadow (R.TRK_GUARD_STAT_QUAR.key 0)) =
      (deltaShadow (R.TRK_GUARD_STAT_QUAR.key 0)).onAny 0 (fun _ => vaux3Loss) := rfl
  rw [hany] at hstep
  obtain ⟨-, -, -, -, -, hquar, -⟩ := State.after_of_onAny hstep
  unfold vaux3Loss at hquar
  rw [if_neg (by decide +kernel), if_pos (by decide +kernel),
    Chip.alarmStart_delta (first := 0) (rest := []) (k := R.TRK_GUARD_STAT_QUAR.key 0) (by decide +kernel) (by decide +kernel) (by decide +kernel)] at hquar
  exact absurd hquar (by decide +kernel)

end Sys2Proof.Safety
end

section
/-! SUPPORT. A row that writes a list of register fields: what each of them reads afterwards, and what is left as it was. -/

namespace Sys2Proof.Machine

open Sys2Proof Sys2Proof.Safety

/-- A list of register fields is written in order. -/
def Chip.written (c : Chip) (ws : List (Fld × Nat × Nat)) : Chip := ws.foldl (fun d w => d.wg w.1 w.2.1 w.2.2) c

/-- The places that a list of writes names. -/
def writtenKeys (ws : List (Fld × Nat × Nat)) : List Nat := ws.map fun w => w.1.key w.2.1

theorem Chip.written_rewritten (c : Chip) (ws : List (Fld × Nat × Nat)) : c.Rewritten (c.written ws) := by
  induction ws generalizing c with
  | nil => exact .refl c
  | cons w ws ih => exact (c.wg_rewritten w.1 w.2.1 w.2.2).trans (ih _)

/-- A field that no write of the list names reads as before. -/
theorem Chip.written_rg_other {ws : List (Fld × Nat × Nat)} {g : Fld} {j : Nat} (hg : g.key j ∉ writtenKeys ws) (c : Chip) :
    (c.written ws).rg g j = c.rg g j := by
  induction ws generalizing c with
  | nil => rfl
  | cons w ws ih =>
    have hw : g.key j ≠ w.1.key w.2.1 := List.ne_of_not_mem_cons hg
    have hws : g.key j ∉ writtenKeys ws := List.not_mem_of_not_mem_cons hg
    exact (ih hws _).trans (Chip.rg_wg_other _ _ _ _ _ _ (Ne.symm hw))

/-- A field that one write of the list names, and no other, reads what that write gave it. -/
theorem Chip.written_rg {ws : List (Fld × Nat × Nat)} {f : Fld} {i v : Nat} (hone : (writtenKeys ws).Nodup) (hmem : (f, i, v) ∈ ws) (c : Chip) :
    (c.written ws).rg f i = v % 2 ^ f.width := by
  induction ws generalizing c with
  | nil => exact absurd hmem List.not_mem_nil
  | cons w ws ih =>
    obtain ⟨hw, hws⟩ := List.nodup_cons.mp hone
    obtain rfl | hmem := List.mem_cons.mp hmem
    · exact (Chip.written_rg_other hw _).trans (Chip.rg_wg_same ..)
    · exact ih hws hmem _

/-- A loop that writes one field of each of the first `n` instances: the others are left. -/
theorem Chip.forN_wg_rg_other (f : Fld) (v : Nat → Nat) (n : Nat) {g : Fld} {j : Nat} (hg : ∀ i < n, f.key i ≠ g.key j) (c : Chip) :
    (forN n (fun i d => d.wg f i (v i)) c).rg g j = c.rg g j :=
  foldl_keeps_of_mem (fun (d : Chip) i => d.wg f i (v i)) (fun d => d.rg g j) (List.range n)
    (fun i hi _ => Chip.rg_wg_other _ _ _ _ _ _ (hg i (List.mem_range.mp hi))) c

/-- Such a loop gives each of them its value. -/
theorem Chip.forN_wg_rg {f : Fld} (hstride : f.stride ≠ 0) (v : Nat → Nat) {i n : Nat} (hi : i < n) (c : Chip) :
    (forN n (fun i d => d.wg f i (v i)) c).rg f i = v i % 2 ^ f.width := by
  refine forN_induct (f := fun i (d : Chip) => d.wg f i (v i)) (p := fun m (d : Chip) => i < m → d.rg f i = v i % 2 ^ f.width) (fun h => absurd h (Nat.not_lt_zero i))
    (fun m d ih hm => ?_) n hi
  by_cases him : i = m
  · subst him
    exact Chip.rg_wg_same ..
  · have hkey : f.key m ≠ f.key i := by
      intro heq
      have hreg : f.stride * m = f.stride * i := by simp only [Fld.key] at heq; omega
      exact him (Nat.eq_of_mul_eq_mul_left (Nat.pos_of_ne_zero hstride) hreg).symm
    exact (Chip.rg_wg_other _ _ _ _ _ _ hkey).trans (ih (by omega))

theorem Chip.forN_wg_rewritten (f : Fld) (v : Nat → Nat) (n : Nat) (c : Chip) : c.Rewritten (forN n (fun i d => d.wg f i (v i)) c) :=
  Chip.forN_rewritten (fun i d => d.wg_rewritten f i (v i)) n c

end Sys2Proof.Machine

namespace Sys2Proof.Safety

open Sys2Proof Sys2Proof.Machine

/-- A host write that writes a list of register fields is answered, those fields read what they were given, and the rest is kept. -/
theorem on_answeredIn_written {s : State} {t d st : Nat} {f : Chip → Chip × Nat} {e : Chip} {ws : List (Fld × Nat × Nat)} (hs : ready s)
    (hd : s.chip.domOn d = true) (hf : f (chipAt s t) = (e, st)) (hregs : e.regs = ((chipAt s t).written ws).regs) (hcnt : e.cnt = s.chip.cnt)
    (hwin : e.win = s.chip.win) (hmout : e.mout = s.chip.mout) :
    s.on t (fun _ c => c.answeredIn d f) = .next (s.after (e.emit .answer 0 [st] [])) ∧
      (∀ g j, (s.after (e.emit .answer 0 [st] [])).chip.rg g j = ((chipAt s t).written ws).rg g j) ∧
      kept s (s.after (e.emit .answer 0 [st] [])) (writtenKeys ws) := by
  have hread : ∀ g j, e.rg g j = ((chipAt s t).written ws).rg g j := fun g j => Chip.rg_of_regs_eq hregs g j
  exact ⟨on_answeredIn hs hd hf, fun g j => (rg_answered ..).trans (hread g j),
    kept_after_but hs (fun g j hg => (Chip.rg_emit ..).trans ((hread g j).trans (Chip.written_rg_other hg _))) hcnt hwin hmout⟩

end Sys2Proof.Safety
end

section
/-! PROOFS. Pointers of a work queue and descriptors of a transmit ring (12_management_cores.md R365, R366, R375). -/

namespace Sys2Proof.Machine

open Sys2Proof Sys2Proof.Safety

/-! ## Pointers (R365, R375) -/

theorem wqPointerWrite_tail {c : Chip} {w v : Nat} (hv : v < 65536) (hroom : (c.rg R.MCU_WQ_HEAD_INDEX w + 65536 - v) % 65536 ≤ c.wqSlots w) :
    wqPointerWrite w true v c = (c.wg R.MCU_WQ_TAIL_INDEX w v, stOk) := by
  have hhead : (c.wg R.MCU_WQ_TAIL_INDEX w v).rg R.MCU_WQ_HEAD_INDEX w = c.rg R.MCU_WQ_HEAD_INDEX w :=
    Chip.rg_wg_other _ _ _ _ _ _ (Fld.key_ne_of_place _ (by decide))
  have htail : (c.wg R.MCU_WQ_TAIL_INDEX w v).rg R.MCU_WQ_TAIL_INDEX w = v := (Chip.rg_wg_same ..).trans (Nat.mod_eq_of_lt hv)
  have hocc : ¬ c.wqSlots w < (c.wg R.MCU_WQ_TAIL_INDEX w v).wqOcc w := by
    rw [Chip.wqOcc, hhead, htail]
    exact Nat.not_lt.mpr hroom
  simp [wqPointerWrite, hocc]

theorem wqPointerWrite_head {c : Chip} {w v : Nat} (hring : 32 < w) (hv : v < 65536)
    (hroom : (v + 65536 - c.rg R.MCU_WQ_TAIL_INDEX w) % 65536 ≤ c.wqSlots w) :
    wqPointerWrite w false v c = (c.wg R.MCU_WQ_HEAD_INDEX w v, stOk) := by
  have htail : (c.wg R.MCU_WQ_HEAD_INDEX w v).rg R.MCU_WQ_TAIL_INDEX w = c.rg R.MCU_WQ_TAIL_INDEX w :=
    Chip.rg_wg_other _ _ _ _ _ _ (Fld.key_ne_of_place _ (by decide))
  have hhead : (c.wg R.MCU_WQ_HEAD_INDEX w v).rg R.MCU_WQ_HEAD_INDEX w = v := (Chip.rg_wg_same ..).trans (Nat.mod_eq_of_lt hv)
  have hocc : ¬ c.wqSlots w < (c.wg R.MCU_WQ_HEAD_INDEX w v).wqOcc w := by
    rw [Chip.wqOcc, hhead, htail]
    exact Nat.not_lt.mpr hroom
  simp [wqPointerWrite, hocc, Nat.not_le.mpr hring]

/-! ## Descriptors (R366) -/

/-- A 16-bit field of value 0x0300 holds the bytes 3 and 0. -/
theorem bytes_of_half {l : List Byte} (h : half l 0 = 0x0300) : byteAt l 0 = 3 ∧ byteAt l 1 = 0 := by
  match l with
  | [] => exact absurd h (by decide)
  | [a] =>
    have hone : half [a] 0 = a.toNat := by simp [half, beAt, slice, beNat]
    have := a.isLt
    omega
  | a :: b :: r =>
    have htwo : half (a :: b :: r) 0 = a.toNat * 256 + b.toNat := by simp [half, beAt, slice, beNat]
    have hfst : byteAt (a :: b :: r) 0 = a.toNat := by simp [byteAt, beAt, slice, beNat]
    have hsnd : byteAt (a :: b :: r) 1 = b.toNat := by simp [byteAt, beAt, slice, beNat]
    have := b.isLt
    omega

/-- A descriptor for the host: its frame waits at the end of the frames for the host. -/
theorem Chip.txDesc_host {c : Chip} {m : Mem} {d : List Byte} (hhead : half d 0 = 0x0300) (hpq : half d 2 = 0) (hmin : 60 ≤ half d 4)
    (hmax : half d 4 ≤ c.maxFrame - 4) (haddr : beAt d 8 8 + half d 4 ≤ c.ddrCap) :
    c.txDesc m d = ({ c with pp.hostQ := c.pp.hostQ ++ [(4, m.ddrRead (beAt d 8 8) (half d 4))] }, stOk) := by
  obtain ⟨htarget, hflags⟩ := bytes_of_half hhead
  simp [Chip.txDesc, htarget, hflags, hpq, Nat.not_lt.mpr hmin, Nat.not_lt.mpr hmax, Nat.not_lt.mpr haddr]

theorem Chip.txDesc_refused {c : Chip} {m : Mem} {d : List Byte}
    (h : 4 < byteAt d 0 ∨ byteAt d 1 ≠ 0 ∨ half d 4 < 60 ∨ c.maxFrame - 4 < half d 4) : c.txDesc m d = (c, stRefused) :=
  if_pos (by tauto)

theorem Chip.srcEvent_same (c : Chip) (n : Nat) : ∃ due, c.srcEvent n = { c with mc.srcDue := due } := by
  unfold Chip.srcEvent
  split
  · exact ⟨c.mc.srcDue, rfl⟩
  · exact ⟨_, rfl⟩

/-- The chip after a descriptor whose work left `e` and whose status is `st`. -/
def Chip.txTaken (e : Chip) (w a st : Nat) : Chip :=
  ((e.mem (.ddr (a + 6) (beBytes 2 st))).wg R.MCU_WQ_TAIL_INDEX w (e.rg R.MCU_WQ_TAIL_INDEX w + 1)).srcEvent 52

theorem txDescProcess_taken {m : Mem} {j : Nat} {c e : Chip} {st : Nat} (hen : c.rg R.MCU_WQ_CFG_EN (33 + j) = 1) (hocc : c.wqOcc (33 + j) ≠ 0)
    (hddr : c.ddrOk = true) (hregs : e.regs = c.regs)
    (hdesc : c.txDesc m (m.ddrRead (c.wqAddr (33 + j) (c.rg R.MCU_WQ_TAIL_INDEX (33 + j))) 16) = (e, st)) :
    txDescProcess m j c = e.txTaken (33 + j) (c.wqAddr (33 + j) (c.rg R.MCU_WQ_TAIL_INDEX (33 + j))) st := by
  have hrb : c.rb R.MCU_WQ_CFG_EN (33 + j) = true := decide_eq_true hen
  have hidle : ¬(c.rb R.MCU_WQ_CFG_EN (33 + j) = false ∨ c.wqOcc (33 + j) = 0 ∨ c.ddrOk = false) := by simp [hrb, hocc, hddr]
  simp only [txDescProcess, if_neg hidle, hdesc, Chip.txTaken, Chip.rg_of_regs_eq hregs]

end Sys2Proof.Machine

namespace Sys2Proof.Safety

open Sys2Proof Sys2Proof.Machine

/-- A command of the cores while CTRL is ON. -/
theorem onCtrl_running {s : State} {t : Nat} {f : Mem → Chip → Chip} (hs : ready s) (hd : s.chip.domOn 2 = true) :
    s.onCtrl t f = .next (s.after (f s.mem (chipAt s t))) := by
  have hdom : (s.chip.tick t).domOn 2 = true := hd
  rw [State.onCtrl, State.on_running _ _ _ hs.1, hdom, if_pos rfl]

/-- A descriptor of a transmit ring is processed: what its work leaves, its status in DDR5, and TAIL one further. -/
theorem txDescProcess_next {s : State} {t : Nat} {j : Fin 16} {e : Chip} {st : Nat} (hs : ready s) (hd : s.chip.domOn 2 = true)
    (hen : s.chip.rg R.MCU_WQ_CFG_EN (33 + j) = 1) (hocc : s.chip.wqOcc (33 + j) ≠ 0) (hddr : (chipAt s t).ddrOk = true)
    (hdesc : (chipAt s t).txDesc s.mem (s.mem.ddrRead (s.chip.wqAddr (33 + j) (s.chip.rg R.MCU_WQ_TAIL_INDEX (33 + j))) 16) = (e, st))
    (hregs : e.regs = s.chip.regs) (hcnt : e.cnt = s.chip.cnt) (hmout : e.mout = s.chip.mout) :
    ∃ u, exec (.txDescProcess t j) s = .next u ∧ u.chip.pp = e.pp ∧
      u.chip.rg R.MCU_WQ_TAIL_INDEX (33 + j) = (s.chip.rg R.MCU_WQ_TAIL_INDEX (33 + j) + 1) % 65536 ∧
      u.mem = s.mem.apply (.ddr (s.chip.wqAddr (33 + j) (s.chip.rg R.MCU_WQ_TAIL_INDEX (33 + j)) + 6) (beBytes 2 st)) ∧
      regsKept s u [R.MCU_WQ_TAIL_INDEX.key (33 + j)] ∧ u.chip.cnt = s.chip.cnt := by
  have hrow := txDescProcess_taken (c := chipAt s t) hen hocc hddr hregs hdesc
  obtain ⟨due, hdue⟩ := Chip.srcEvent_same ((e.mem (.ddr (s.chip.wqAddr (33 + j) (s.chip.rg R.MCU_WQ_TAIL_INDEX (33 + j)) + 6)
    (beBytes 2 st))).wg R.MCU_WQ_TAIL_INDEX (33 + j) (e.rg R.MCU_WQ_TAIL_INDEX (33 + j) + 1)) 52
  have hnext : exec (.txDescProcess t j) s = .next (s.after (txDescProcess s.mem j (chipAt s t))) :=
    onCtrl_running (f := fun m => txDescProcess m j) hs hd
  rw [hrow.trans hdue] at hnext
  refine ⟨_, hnext, rfl, ?_, ?_, ?_, hcnt⟩
  · exact (rg_after ..).trans ((Chip.rg_wg_same ..).trans (by rw [Chip.rg_of_regs_eq hregs]; rfl))
  · have hone : s.mem.applyAll (e.mout ++ [MemOp.ddr (s.chip.wqAddr (33 + j) (s.chip.rg R.MCU_WQ_TAIL_INDEX (33 + j)) + 6) (beBytes 2 st)]) =
        s.mem.apply (.ddr (s.chip.wqAddr (33 + j) (s.chip.rg R.MCU_WQ_TAIL_INDEX (33 + j)) + 6) (beBytes 2 st)) := by
      rw [hmout, hs.2, List.nil_append]; rfl
    exact hone
  · exact fun g i hg => (rg_after ..).trans ((Chip.rg_wg_other _ _ _ _ _ _ (Ne.symm (List.ne_of_not_mem_cons hg))).trans (Chip.rg_of_regs_eq hregs g i))

/-- Settles O33: a pointer in its bounds is one register; a descriptor moves TAIL, its status and, for the host, its frame. -/
theorem workQueueCommands : Obligations.WorkQueueCommands := by
  refine ⟨?_, ?_, ?_, ?_, ?_⟩
  · intro t w v s hs hd _ hv hroom
    refine ⟨_, on_answeredIn hs hd (wqPointerWrite_tail (c := chipAt s t) hv hroom), rfl, ?_, kept_after_one hs (fun g i hg => ?_) rfl rfl rfl⟩
    · exact (rg_answered ..).trans ((Chip.rg_wg_same ..).trans (Nat.mod_eq_of_lt hv))
    · exact (Chip.rg_emit ..).trans (Chip.rg_wg_other _ _ _ _ _ _ hg.symm)
  · intro t w v s hs hd hring hv hroom
    refine ⟨_, on_answeredIn hs hd (wqPointerWrite_head (c := chipAt s t) hring hv hroom), rfl, ?_,
      kept_after_one hs (fun g i hg => ?_) rfl rfl rfl⟩
    · exact (rg_answered ..).trans ((Chip.rg_wg_same ..).trans (Nat.mod_eq_of_lt hv))
    · exact (Chip.rg_emit ..).trans (Chip.rg_wg_other _ _ _ _ _ _ hg.symm)
  · intro t w v s hs hd hhard
    exact ⟨_, on_answeredIn (e := chipAt s t) (st := stOk) hs hd (if_pos ⟨hhard, rfl⟩), rfl, kept_after hs rfl rfl rfl rfl⟩
  · rintro t j a d s hs hd hen hocc hddr rfl rfl hhead hpq hmin hmax haddr
    obtain ⟨u, hnext, hpp, hrest⟩ := txDescProcess_next hs hd hen hocc hddr
      (Chip.txDesc_host (c := chipAt s t) (m := s.mem) hhead hpq hmin hmax haddr) rfl rfl rfl
    exact ⟨u, hnext, congrArg PipeSt.hostQ hpp, hrest⟩
  · rintro t j a d s hs hd hen hocc hddr rfl rfl hbad
    obtain ⟨u, hnext, _, hrest⟩ := txDescProcess_next hs hd hen hocc hddr
      (Chip.txDesc_refused (c := chipAt s t) (m := s.mem) hbad) rfl rfl rfl
    exact ⟨u, hnext, hrest⟩

end Sys2Proof.Safety
end

section
/-! PROOFS. The swap of a management core (12_management_cores.md R370, R371). -/

namespace Sys2Proof.Machine

open Sys2Proof Sys2Proof.Safety

/-! ## The command (R370) -/

/-- What MCU_SPARE_GO writes when the swap of core `j` begins. -/
def spareGoWrites (j : Nat) : List (Fld × Nat × Nat) :=
  [(R.MCU_SPARE_CMD_CORE, 0, j), (R.MCU_SPARE_STAT_STATE, 0, 1), (R.MCU_STAT_SWAPPING, 0, 1)]

theorem spareGo_keys : [R.MCU_SPARE_CMD_CORE.key 0, R.MCU_SPARE_STAT_STATE.key 0, R.MCU_STAT_SWAPPING.key 0].Nodup := by decide

theorem spareGo_operand : ∀ j : Fin 16, bits (16 + j.val) 0 4 = j.val ∧ bit (16 + j.val) 4 = true := by decide

theorem Chip.coreSwap_begins {c : Chip} {j : Nat} (hidle : c.rg R.MCU_SPARE_STAT_STATE 0 = 0) (hspare : c.rg R.HLT_SPARE_CHIP_MCU 0 = 1)
    (hcore : c.rg R.MCU_CORE_STAT_STATE j ≠ 4) :
    ∃ resv, c.coreSwap j = ({ (c.wg R.MCU_SPARE_STAT_STATE 0 1).wg R.MCU_STAT_SWAPPING 0 1 with mc.spareCore := j, mc.resv := resv }, stOk) := by
  have hfree : ¬(c.rg R.MCU_SPARE_STAT_STATE 0 ≠ 0 ∨ c.rb R.HLT_SPARE_CHIP_MCU 0 = false ∨ c.rg R.MCU_CORE_STAT_STATE j = 4) := by
    simp [Chip.rb, hidle, hspare, hcore]
  rw [Chip.coreSwap, if_neg hfree]
  cases hresv : c.mc.resv.find j with
  | none => exact ⟨c.mc.resv, by simp [hresv]⟩
  | some r => exact ⟨c.mc.resv.erase j, by simp [hresv]⟩

theorem mcuSpareGo_begins {c : Chip} (j : Fin 16) (hidle : c.rg R.MCU_SPARE_STAT_STATE 0 = 0) (hspare : c.rg R.HLT_SPARE_CHIP_MCU 0 = 1)
    (hcore : c.rg R.MCU_CORE_STAT_STATE j ≠ 4) :
    ∃ resv, mcuSpareGo (16 + j.val) c = ({ c.written (spareGoWrites j) with mc.spareCore := j, mc.resv := resv }, stOk) := by
  obtain ⟨hnum, hgo⟩ := spareGo_operand j
  have hother {g : Fld} {i : Nat} (h : R.MCU_SPARE_CMD_CORE.key 0 ≠ g.key i) : (c.wg R.MCU_SPARE_CMD_CORE 0 j).rg g i = c.rg g i :=
    Chip.rg_wg_other _ _ _ _ _ _ h
  have hcmd : R.MCU_SPARE_CMD_CORE.key 0 ≠ R.MCU_CORE_STAT_STATE.key j := by simp only [Fld.key, R.MCU_SPARE_CMD_CORE, R.MCU_CORE_STAT_STATE]; omega
  obtain ⟨resv, hswap⟩ := Chip.coreSwap_begins (c := c.wg R.MCU_SPARE_CMD_CORE 0 j) (j := j) ((hother (by decide)).trans hidle)
    ((hother (by decide)).trans hspare) (by rw [hother hcmd]; exact hcore)
  exact ⟨resv, by simp only [mcuSpareGo, hnum, hgo, if_true, hswap]; rfl⟩

theorem mcuSpareGo_refused {c : Chip} (j : Fin 16)
    (h : c.rg R.MCU_SPARE_STAT_STATE 0 ≠ 0 ∨ c.rg R.HLT_SPARE_CHIP_MCU 0 = 0 ∨ c.rg R.MCU_CORE_STAT_STATE j = 4) :
    mcuSpareGo (16 + j.val) c = (c, stRefused) := by
  obtain ⟨hnum, hgo⟩ := spareGo_operand j
  have hother {g : Fld} {i : Nat} (h : R.MCU_SPARE_CMD_CORE.key 0 ≠ g.key i) : (c.wg R.MCU_SPARE_CMD_CORE 0 j).rg g i = c.rg g i :=
    Chip.rg_wg_other _ _ _ _ _ _ h
  have hcmd : R.MCU_SPARE_CMD_CORE.key 0 ≠ R.MCU_CORE_STAT_STATE.key j := by simp only [Fld.key, R.MCU_SPARE_CMD_CORE, R.MCU_CORE_STAT_STATE]; omega
  have hrefused : (c.wg R.MCU_SPARE_CMD_CORE 0 j).coreSwap j = (c.wg R.MCU_SPARE_CMD_CORE 0 j, stRefused) := by
    refine if_pos ?_
    rw [Chip.rb, hother (by decide), hother (by decide), hother hcmd]
    exact h.imp_right (Or.imp_left fun hnone => by simp [hnone])
  simp only [mcuSpareGo, hnum, hgo, if_true, hrefused]
  exact if_neg (by decide)

/-! ## The copy is done -/

theorem Chip.trace_off {c : Chip} (hoff : c.rg R.MCU_TRACE_CFG_EN 0 = 0) (kind core task other prio detail : Nat) :
    c.trace kind core task other prio detail = c := by
  refine if_pos ?_
  simp [Chip.traced, Chip.rb, hoff]

theorem Chip.swapAppend_mc (c : Chip) (m : Mem) (kind cause unit spare : Nat) : (c.swapAppend m kind cause unit spare).mc = c.mc :=
  read_ite Chip.mc rfl (read_ite Chip.mc (x := c.mem _) rfl rfl)

/-- The fields that a core's becoming free writes. -/
def coreFreeKeys (j : Nat) : List Nat := [R.MCU_CORE_STAT_STATE.key j, R.MCU_CORE_STAT_TASK.key j, R.MCU_SCHED_SELF_TASK.key j]

/-- With no task READY and no core reserved, a core that becomes free takes no task. -/
theorem Chip.coreFree_takes_none {c : Chip} (hready : c.mc.ready = []) (hresv : c.mc.resv = []) (j : Nat) :
    (∀ g i, g.key i ∉ coreFreeKeys j → (c.coreFree j).rg g i = c.rg g i) ∧ (c.coreFree j).cnt = c.cnt ∧ (c.coreFree j).mc.lmem = c.mc.lmem := by
  have hpick (d : Chip) (h : d.mc.ready = []) : d.pickFor j = none := by
    simp [Chip.pickFor, Chip.readyList, h, Tab.get, Tab.find]
  have hfind : c.mc.resv.find j = none := by rw [hresv]; rfl
  have hregs (g : Fld) (i : Nat) (hg : g.key i ∉ coreFreeKeys j) :
      (((c.wg R.MCU_CORE_STAT_STATE j 0).wg R.MCU_CORE_STAT_TASK j 0).wg R.MCU_SCHED_SELF_TASK j 0).rg g i = c.rg g i := by
    rw [Chip.rg_wg_listed hg _ (by simp [coreFreeKeys]), Chip.rg_wg_listed hg _ (by simp [coreFreeKeys]),
      Chip.rg_wg_listed hg _ (by simp [coreFreeKeys])]
  unfold Chip.coreFree
  dsimp only
  split
  · exact ⟨fun g i hg => (Chip.rg_wg_listed hg _ (List.mem_cons_self ..) _).trans (hregs g i hg), rfl, rfl⟩
  · split
    · exact ⟨hregs, rfl, rfl⟩
    · rw [hfind, hpick]
      · exact ⟨hregs, rfl, rfl⟩
      · exact hready

/-- What the end of the copy of core `j` from `old` to the spare `sp` writes. -/
def spareCopiedWrites (j old sp : Nat) : List (Fld × Nat × Nat) :=
  [(R.MCU_CORE_STAT_PHYS, j, sp), (R.MCU_SPARE_STAT_PHYS, 0, 31), (R.MCU_SPARE_STAT_STATE, 0, 0), (R.MCU_STAT_SWAPPING, 0, 0),
    (R.HLT_SPARE_CHIP_MCU, 0, 0), (R.HLT_WEAR_STAT_LEVEL, 423 + old, 3)]

/-- Core `j` has moved from `old` to `sp` with its local memory. -/
def Chip.coreMoved (c : Chip) (j old sp : Nat) : Chip :=
  ({ c with mc.lmem := c.mc.lmem.set sp (Tab.get [] c.mc.lmem old), mc.entry := c.mc.entry.set sp (Tab.get 0 c.mc.entry old) }.written
    (spareCopiedWrites j old sp)).inc C.MCU_SWAP 0

theorem spareCopiedWrites_apart (j : Fin 16) {old sp : Nat} (hold : old < 17) :
    (writtenKeys (spareCopiedWrites j old sp)).Nodup ∧ (∀ k ∈ coreFreeKeys j, k ∉ writtenKeys (spareCopiedWrites j old sp)) ∧
      R.MCU_TRACE_CFG_EN.key 0 ∉ writtenKeys (spareCopiedWrites j old sp) ∧ R.MCU_CORE_STAT_STATE.key j ∉ writtenKeys (spareCopiedWrites j old sp) := by
  have hj := j.isLt
  simp only [writtenKeys, spareCopiedWrites, coreFreeKeys, Fld.key, List.map_cons, List.map_nil, List.nodup_cons, List.mem_cons, List.not_mem_nil,
    R.MCU_CORE_STAT_PHYS, R.MCU_SPARE_STAT_PHYS, R.MCU_SPARE_STAT_STATE, R.MCU_STAT_SWAPPING, R.HLT_SPARE_CHIP_MCU, R.HLT_WEAR_STAT_LEVEL,
    R.MCU_CORE_STAT_STATE, R.MCU_CORE_STAT_TASK, R.MCU_SCHED_SELF_TASK, R.MCU_TRACE_CFG_EN, forall_eq_or_imp, or_false, forall_eq, List.nodup_nil,
    not_false_eq_true, and_true]
  omega

theorem mcuSpareCopied_moves {m : Mem} {c : Chip} {j : Fin 16} {sp : Nat} (hoff : c.rg R.MCU_TRACE_CFG_EN 0 = 0)
    (hstate : c.rg R.MCU_SPARE_STAT_STATE 0 = 2) (hcore : c.mc.spareCore = j) (hspare : c.rg R.MCU_SPARE_STAT_PHYS 0 = sp)
    (hold : c.rg R.MCU_CORE_STAT_PHYS j < 17) (hready : c.mc.ready = []) (hresv : c.mc.resv = []) (hidle : c.rg R.MCU_CORE_STAT_STATE j = 0) :
    (∀ g i, g.key i ∉ coreFreeKeys j → (mcuSpareCopied m c).rg g i = (c.coreMoved j (c.rg R.MCU_CORE_STAT_PHYS j) sp).rg g i) ∧
      (mcuSpareCopied m c).cnt = (c.coreMoved j (c.rg R.MCU_CORE_STAT_PHYS j) sp).cnt ∧
      (mcuSpareCopied m c).mc.lmem = (c.coreMoved j (c.rg R.MCU_CORE_STAT_PHYS j) sp).mc.lmem := by
  obtain ⟨_, _, htrace, hcoreState⟩ := spareCopiedWrites_apart j (sp := sp) hold
  obtain ⟨e, he⟩ : ∃ e, e = ((c.coreMoved j (c.rg R.MCU_CORE_STAT_PHYS j) sp).emit .copied (423 + sp) [423 + c.rg R.MCU_CORE_STAT_PHYS j] []).swapAppend
    m 6 0 (423 + c.rg R.MCU_CORE_STAT_PHYS j) (423 + sp) := ⟨_, rfl⟩
  obtain ⟨hregs, hcnt⟩ := Chip.swapAppend_leaves ((c.coreMoved j (c.rg R.MCU_CORE_STAT_PHYS j) sp).emit .copied (423 + sp)
    [423 + c.rg R.MCU_CORE_STAT_PHYS j] []) m 6 0 (423 + c.rg R.MCU_CORE_STAT_PHYS j) (423 + sp)
  have hmc := Chip.swapAppend_mc ((c.coreMoved j (c.rg R.MCU_CORE_STAT_PHYS j) sp).emit .copied (423 + sp)
    [423 + c.rg R.MCU_CORE_STAT_PHYS j] []) m 6 0 (423 + c.rg R.MCU_CORE_STAT_PHYS j) (423 + sp)
  rw [← he] at hregs hcnt hmc
  have hread (g : Fld) (i : Nat) : e.rg g i = (c.coreMoved j (c.rg R.MCU_CORE_STAT_PHYS j) sp).rg g i := Chip.rg_of_regs_eq hregs g i
  have hkept {g : Fld} {i : Nat} (hg : g.key i ∉ writtenKeys (spareCopiedWrites j (c.rg R.MCU_CORE_STAT_PHYS j) sp)) : e.rg g i = c.rg g i :=
    (hread g i).trans (Chip.written_rg_other hg _)
  have hrow : mcuSpareCopied m c = e.coreFree j := by
    have hfree : e.rg R.MCU_CORE_STAT_STATE j = 0 := (hkept hcoreState).trans hidle
    have hmoved : ((c.coreMoved j (c.rg R.MCU_CORE_STAT_PHYS j) sp).emit .copied (423 + sp) [423 + c.rg R.MCU_CORE_STAT_PHYS j] []).rg
      R.MCU_TRACE_CFG_EN 0 = 0 := (Chip.written_rg_other htrace _).trans hoff
    have hquiet := Chip.trace_off hmoved 8 j 0xFFFF sp 0 0
    unfold mcuSpareCopied
    rw [if_neg (not_not.mpr hstate), hcore, hspare]
    subst he
    rw [← hquiet] at hfree ⊢
    exact if_pos hfree
  obtain ⟨hfreeRegs, hfreeCnt, hfreeMem⟩ := Chip.coreFree_takes_none (c := e) (by rw [hmc]; exact hready) (by rw [hmc]; exact hresv) j
  rw [hrow]
  exact ⟨fun g i hg => (hfreeRegs g i hg).trans (hread g i), hfreeCnt.trans hcnt, hfreeMem.trans (congrArg McuSt.lmem hmc)⟩

end Sys2Proof.Machine

namespace Sys2Proof.Safety

open Sys2Proof Sys2Proof.Machine

/-- MCU_SPARE_COPIED with nothing to dispatch (R370). -/
theorem mcuSpareCopied_swaps (t : Nat) (j : Fin 16) (sp : Nat) (s : State) (hs : ready s) (hd : s.chip.domOn 2 = true)
    (hoff : s.chip.rg R.MCU_TRACE_CFG_EN 0 = 0) (hstate : s.chip.rg R.MCU_SPARE_STAT_STATE 0 = 2) (hcore : s.chip.mc.spareCore = j)
    (hspare : s.chip.rg R.MCU_SPARE_STAT_PHYS 0 = sp) (hsp : sp < 17) (hold : s.chip.rg R.MCU_CORE_STAT_PHYS j < 17)
    (hready : s.chip.mc.ready = []) (hresv : s.chip.mc.resv = []) (hidle : s.chip.rg R.MCU_CORE_STAT_STATE j = 0) :
    ∃ u, exec (.mcuSpareCopied t) s = .next u ∧ u.chip.rg R.MCU_CORE_STAT_PHYS j = sp ∧ u.chip.rg R.MCU_SPARE_STAT_PHYS 0 = 31 ∧
      u.chip.rg R.MCU_SPARE_STAT_STATE 0 = 0 ∧ u.chip.rg R.MCU_STAT_SWAPPING 0 = 0 ∧ u.chip.rg R.HLT_SPARE_CHIP_MCU 0 = 0 ∧
      u.chip.rg R.HLT_WEAR_STAT_LEVEL (423 + s.chip.rg R.MCU_CORE_STAT_PHYS j) = 3 ∧
      Tab.get [] u.chip.mc.lmem sp = Tab.get [] s.chip.mc.lmem (s.chip.rg R.MCU_CORE_STAT_PHYS j) ∧
      u.chip.counter C.MCU_SWAP 0 = (s.chip.counter C.MCU_SWAP 0 + 1) % 2 ^ 48 := by
  obtain ⟨hregs, hcnt, hmem⟩ := mcuSpareCopied_moves (m := s.mem) (c := chipAt s t) hoff hstate hcore hspare hold hready hresv hidle
  obtain ⟨hone, hapart, _, _⟩ := spareCopiedWrites_apart j (sp := sp) hold
  have hread {f : Fld} {i v : Nat} (hmem : (f, i, v) ∈ spareCopiedWrites j (s.chip.rg R.MCU_CORE_STAT_PHYS j) sp) :
      (s.after (mcuSpareCopied s.mem (chipAt s t))).chip.rg f i = v % 2 ^ f.width :=
    (rg_after ..).trans ((hregs f i fun hk => hapart _ hk (List.mem_map.mpr ⟨_, hmem, rfl⟩)).trans (Chip.written_rg hone hmem _))
  refine ⟨_, onCtrl_running (f := fun m => mcuSpareCopied m) hs hd, (hread (v := sp) (by simp [spareCopiedWrites])).trans (Nat.mod_eq_of_lt ?_),
    hread (v := 31) (by simp [spareCopiedWrites]), hread (v := 0) (by simp [spareCopiedWrites]), hread (v := 0) (by simp [spareCopiedWrites]),
    hread (v := 0) (by simp [spareCopiedWrites]), hread (v := 3) (by simp [spareCopiedWrites]), ?_, ?_⟩
  · exact hsp.trans (by decide)
  · exact (congrArg (fun l => Tab.get [] l sp) hmem).trans (Tab.get_set_same ..)
  · exact (counter_after ..).trans ((congrArg (fun l => Tab.get 0 l (C.MCU_SWAP.key 0)) hcnt).trans (Chip.counter_incBy_same ..))

/-- Settles O34: the three steps of a swap, each a list of register writes. -/
theorem spareCoreCommands : Obligations.SpareCoreCommands := by
  refine ⟨?_, ?_, ?_, mcuSpareCopied_swaps⟩
  · intro t j s hs hd hidle hspare hcore
    obtain ⟨resv, hgo⟩ := mcuSpareGo_begins (c := chipAt s t) j hidle hspare hcore
    obtain ⟨hnext, hread, hkept⟩ := on_answeredIn_written (ws := spareGoWrites j) hs hd hgo rfl rfl rfl rfl
    have hone : (writtenKeys (spareGoWrites j)).Nodup := spareGo_keys
    exact ⟨_, hnext, rfl, (hread ..).trans (Chip.written_rg (v := 1) hone (by simp [spareGoWrites]) _),
      (hread ..).trans (Chip.written_rg (v := 1) hone (by simp [spareGoWrites]) _), rfl, hkept⟩
  · intro t j s hs hd h
    exact ⟨_, on_answeredIn hs hd (mcuSpareGo_refused (c := chipAt s t) j h), rfl, kept_after hs rfl rfl rfl rfl⟩
  · intro t s hs hd hstate hrun
    have hrow : mcuSpareDrained (chipAt s t) = (chipAt s t).wg R.MCU_SPARE_STAT_STATE 0 2 := if_pos ⟨hstate, Option.isNone_iff_eq_none.mpr hrun⟩
    have hnext : exec (.mcuSpareDrained t) s = .next (s.after (mcuSpareDrained (chipAt s t))) := onCtrl_running (f := fun _ => mcuSpareDrained) hs hd
    rw [hrow] at hnext
    exact ⟨_, hnext, (rg_after ..).trans (Chip.rg_wg_same ..), kept_after_one hs (fun g i hg => Chip.rg_wg_other _ _ _ _ _ _ hg.symm) rfl rfl rfl⟩

end Sys2Proof.Safety
end

section
/-! PROOFS. Key loads and erasures (13_security.md R393, R394, R396, R397, R400, R406). -/

namespace Sys2Proof.Machine

open Sys2Proof Sys2Proof.Safety

/-! ## Lists of writes, one after another -/

theorem Chip.written_append (c : Chip) (ws vs : List (Fld × Nat × Nat)) : c.written (ws ++ vs) = (c.written ws).written vs := List.foldl_append ..

/-- The registers that a list of writes leaves depend on the registers alone. -/
theorem Chip.written_regs {c d : Chip} (h : c.regs = d.regs) (ws : List (Fld × Nat × Nat)) : (c.written ws).regs = (d.written ws).regs := by
  induction ws generalizing c d with
  | nil => exact h
  | cons w ws ih => exact ih (by simp only [Chip.wg, h])

/-- A loop over one field is a list of writes. -/
theorem Chip.forN_wg_written (c : Chip) (f : Fld) (v : Nat → Nat) (n : Nat) :
    forN n (fun i (d : Chip) => d.wg f i (v i)) c = c.written ((List.range n).map fun i => (f, i, v i)) :=
  (List.foldl_map (f := fun i => (f, i, v i)) (g := fun (d : Chip) (w : Fld × Nat × Nat) => d.wg w.1 w.2.1 w.2.2) (l := List.range n) (init := c)).symm

theorem writtenKeys_append (ws vs : List (Fld × Nat × Nat)) : writtenKeys (ws ++ vs) = writtenKeys ws ++ writtenKeys vs := List.map_append ..

/-! ## GO of SEC_KEY_CTRL -/

/-- The words that GO clears. -/
def keyClears : List (Fld × Nat × Nat) :=
  ((List.range 8).map fun w => (R.SEC_KEY_DATA_KEY, w, 0)) ++ (List.range 6).map fun w => (R.SEC_KEY_AUX_AUX, w, 0)

theorem Chip.keyClear_written (c : Chip) : c.keyClear = c.written keyClears := by
  rw [keyClears, Chip.written_append, ← Chip.forN_wg_written, ← Chip.forN_wg_written]
  rfl

/-- RESULT of a GO, and the words that it clears. -/
def keyEnd (result : Nat) : List (Fld × Nat × Nat) := (R.SEC_KEY_CTRL_RESULT, 0, result) :: keyClears

/-- All that a GO writes; `ws` are the writes of the load or erasure itself. -/
def keyWrites (target : Nat) (ws : List (Fld × Nat × Nat)) (result : Nat) : List (Fld × Nat × Nat) :=
  (R.SEC_KEY_CTRL_TARGET, 0, target) :: ws ++ keyEnd result

/-- The fields that tell of the keys of an index or a port lie above the registers of the GO. -/
def keyTold (ws : List (Fld × Nat × Nat)) : Prop := ∀ w ∈ ws, 0x120800 ≤ w.1.reg

theorem keyEnd_keys (result : Nat) : writtenKeys (keyEnd result) = R.SEC_KEY_CTRL_RESULT.key 0 :: writtenKeys keyClears := rfl

theorem keyEnd_nodup (result : Nat) : (writtenKeys (keyEnd result)).Nodup := by
  rw [keyEnd_keys]
  decide

/-- A field of the keys of an index or a port is none of those that the end of a GO writes. -/
theorem told_notin_keyEnd {f : Fld} (hf : 0x120800 ≤ f.reg) (i result : Nat) : f.key i ∉ writtenKeys (keyEnd result) := by
  have hbelow : ∀ k ∈ R.SEC_KEY_CTRL_RESULT.key 0 :: writtenKeys keyClears, k < 32 * 0x120800 := by decide
  intro h
  have := hbelow _ ((keyEnd_keys result).symm ▸ h)
  simp only [Fld.key] at this
  omega

theorem target_ne_told {f : Fld} (hf : 0x120800 ≤ f.reg) (i : Nat) : R.SEC_KEY_CTRL_TARGET.key 0 ≠ f.key i := by
  have hbelow : R.SEC_KEY_CTRL_TARGET.key 0 < 32 * 0x120800 := by decide
  intro h
  rw [h, Fld.key] at hbelow
  omega

theorem Chip.keyWrites_target (c : Chip) {ws : List (Fld × Nat × Nat)} (htold : keyTold ws) (target result : Nat) :
    (c.written (keyWrites target ws result)).rg R.SEC_KEY_CTRL_TARGET 0 = target % 8 := by
  have hend : R.SEC_KEY_CTRL_TARGET.key 0 ∉ writtenKeys (keyEnd result) := by rw [keyEnd_keys]; decide
  have hown : R.SEC_KEY_CTRL_TARGET.key 0 ∉ writtenKeys ws := by
    intro h
    obtain ⟨w, hw, hkey⟩ := List.mem_map.mp h
    exact target_ne_told (htold w hw) _ hkey.symm
  rw [keyWrites, Chip.written_append, Chip.written_rg_other hend]
  exact (Chip.written_rg_other hown _).trans (Chip.rg_wg_same ..)

theorem Chip.keyWrites_end (c : Chip) {f : Fld} {i v result : Nat} (hmem : (f, i, v) ∈ keyEnd result) (target : Nat) (ws : List (Fld × Nat × Nat)) :
    (c.written (keyWrites target ws result)).rg f i = v % 2 ^ f.width := by
  rw [keyWrites, Chip.written_append]
  exact Chip.written_rg (keyEnd_nodup result) hmem _

theorem Chip.keyWrites_told (c : Chip) {ws : List (Fld × Nat × Nat)} (htold : keyTold ws) (hone : (writtenKeys ws).Nodup) {f : Fld} {i v : Nat}
    (hmem : (f, i, v) ∈ ws) (target result : Nat) : (c.written (keyWrites target ws result)).rg f i = v % 2 ^ f.width := by
  rw [keyWrites, Chip.written_append, Chip.written_rg_other (told_notin_keyEnd (htold _ hmem) i result)]
  exact Chip.written_rg hone hmem (c.wg R.SEC_KEY_CTRL_TARGET 0 target)

/-- The fields that the statement of a GO names. -/
def keyGoKeys (ws : List (Fld × Nat × Nat)) : List Nat :=
  (List.range 8).map (fun w => R.SEC_KEY_DATA_KEY.key w) ++ (List.range 6).map (fun w => R.SEC_KEY_AUX_AUX.key w) ++
    ([R.SEC_KEY_CTRL_TARGET.key 0, R.SEC_KEY_CTRL_RESULT.key 0] ++ writtenKeys ws)

theorem Chip.keyWrites_rg_other (c : Chip) {ws : List (Fld × Nat × Nat)} {g : Fld} {j : Nat} (hg : g.key j ∉ keyGoKeys ws) (target result : Nat) :
    (c.written (keyWrites target ws result)).rg g j = c.rg g j := by
  refine Chip.written_rg_other (fun h => hg ?_) c
  have hkeys : writtenKeys (keyWrites target ws result) = R.SEC_KEY_CTRL_TARGET.key 0 :: writtenKeys ws ++ R.SEC_KEY_CTRL_RESULT.key 0 ::
    ((List.range 8).map (fun w => R.SEC_KEY_DATA_KEY.key w) ++ (List.range 6).map (fun w => R.SEC_KEY_AUX_AUX.key w)) := writtenKeys_append ..
  rw [hkeys] at h
  simp only [keyGoKeys, List.cons_append, List.mem_append, List.mem_cons, List.nil_append] at h ⊢
  tauto

/-! ## GO permitted, and GO refused -/

/-- The end of a GO with its RESULT and the counter that counts it. -/
def Chip.keyEnds (c : Chip) (result : Nat) (k : Ctr) : Chip := ((c.wg R.SEC_KEY_CTRL_RESULT 0 result).inc k 0).keyClear

theorem Chip.keyEnds_leaves (c : Chip) (result : Nat) (k : Ctr) : (c.keyEnds result k).regs = (c.written (keyEnd result)).regs ∧
    (c.keyEnds result k).cnt = (c.inc k 0).cnt ∧ (c.keyEnds result k).mout = c.mout ∧ (c.keyEnds result k).sec = c.sec := by
  obtain ⟨regs, hregs⟩ := ((c.wg R.SEC_KEY_CTRL_RESULT 0 result).inc k 0).written_rewritten keyClears
  rw [Chip.keyEnds, Chip.keyClear_written]
  refine ⟨Chip.written_regs (c := (c.wg R.SEC_KEY_CTRL_RESULT 0 result).inc k 0) (d := c.wg R.SEC_KEY_CTRL_RESULT 0 result) rfl keyClears, ?_⟩
  rw [hregs]
  exact ⟨rfl, rfl, rfl⟩

/-- A GO that is permitted: the load's own work, RESULT 0, one load more, the words cleared. -/
theorem Chip.keyGo_loads {c : Chip} {target : Nat} {f : Chip → Chip} {ws : List (Fld × Nat × Nat)} (hquiet : c.rg R.SEC_ALARM_STAT_RELEASE 0 = 0)
    (hregs : (f (c.wg R.SEC_KEY_CTRL_TARGET 0 target)).regs = ((c.wg R.SEC_KEY_CTRL_TARGET 0 target).written ws).regs)
    (hcnt : (f (c.wg R.SEC_KEY_CTRL_TARGET 0 target)).cnt = c.cnt) :
    ∃ e, c.keyGo target true f = (e, stOk) ∧ e.regs = (c.written (keyWrites target ws 0)).regs ∧ e.cnt = (c.inc C.SEC_KEY_LOADS 0).cnt ∧
      e.mout = (f (c.wg R.SEC_KEY_CTRL_TARGET 0 target)).mout ∧ e.sec = (f (c.wg R.SEC_KEY_CTRL_TARGET 0 target)).sec := by
  have hfree : (c.wg R.SEC_KEY_CTRL_TARGET 0 target).alarmHolds = false := by
    simp only [Chip.alarmHolds, Chip.rg_wg_other c R.SEC_KEY_CTRL_TARGET R.SEC_ALARM_STAT_RELEASE 0 0 target (by decide), hquiet]
    decide
  obtain ⟨hends, hecnt, hemout, hesec⟩ := (f (c.wg R.SEC_KEY_CTRL_TARGET 0 target)).keyEnds_leaves 0 C.SEC_KEY_LOADS
  refine ⟨(f (c.wg R.SEC_KEY_CTRL_TARGET 0 target)).keyEnds 0 C.SEC_KEY_LOADS, ?_, ?_, ?_, hemout, hesec⟩
  · simp only [Chip.keyGo, hfree, Bool.false_eq_true, if_false, Bool.true_eq_false]
    rfl
  · rw [hends, keyWrites, Chip.written_append]
    exact Chip.written_regs hregs (keyEnd 0)
  · rw [hecnt]
    simp only [Chip.inc, Chip.incBy, Chip.counter, hcnt]

/-- A GO that an alarm or the policy refuses. -/
theorem Chip.keyGo_refused {c : Chip} {target : Nat} {permitted : Bool} (f : Chip → Chip)
    (h : permitted = false ∨ c.rg R.SEC_ALARM_STAT_RELEASE 0 ≠ 0) :
    ∃ e, c.keyGo target permitted f = (e, stRefused) ∧
      e.regs = (c.written (keyWrites target [] (if c.rg R.SEC_ALARM_STAT_RELEASE 0 = 0 then 1 else 2))).regs ∧
      e.cnt = (c.inc C.SEC_KEY_REFUSED 0).cnt ∧ e.mout = c.mout ∧ e.sec = c.sec := by
  have hsame : (c.wg R.SEC_KEY_CTRL_TARGET 0 target).rg R.SEC_ALARM_STAT_RELEASE 0 = c.rg R.SEC_ALARM_STAT_RELEASE 0 :=
    Chip.rg_wg_other _ _ _ _ _ _ (by decide)
  have hnone (result : Nat) : c.written (keyWrites target [] result) = (c.wg R.SEC_KEY_CTRL_TARGET 0 target).written (keyEnd result) :=
    c.written_append [(R.SEC_KEY_CTRL_TARGET, 0, target)] (keyEnd result)
  have hend (result : Nat) := (c.wg R.SEC_KEY_CTRL_TARGET 0 target).keyEnds_leaves result C.SEC_KEY_REFUSED
  by_cases hquiet : c.rg R.SEC_ALARM_STAT_RELEASE 0 = 0
  · have hdenied : permitted = false := h.resolve_right (not_not.mpr hquiet)
    have hfree : (c.wg R.SEC_KEY_CTRL_TARGET 0 target).alarmHolds = false := by simp [Chip.alarmHolds, hsame, hquiet]
    rw [if_pos hquiet, hnone]
    refine ⟨(c.wg R.SEC_KEY_CTRL_TARGET 0 target).keyEnds 1 C.SEC_KEY_REFUSED, ?_, hend 1⟩
    simp only [Chip.keyGo, hfree, hdenied, if_true, Bool.false_eq_true, if_false]
    rfl
  · have hheld : (c.wg R.SEC_KEY_CTRL_TARGET 0 target).alarmHolds = true := by simp [Chip.alarmHolds, hsame, hquiet]
    rw [if_neg hquiet, hnone]
    refine ⟨(c.wg R.SEC_KEY_CTRL_TARGET 0 target).keyEnds 2 C.SEC_KEY_REFUSED, ?_, hend 2⟩
    simp only [Chip.keyGo, hheld, if_true]
    rfl

/-! ## The key data under the writes before it is read -/

theorem Chip.keyData_kept {c d : Chip} (h : ∀ w < 8, d.rg R.SEC_KEY_DATA_KEY w = c.rg R.SEC_KEY_DATA_KEY w) : d.keyData = c.keyData := by
  unfold Chip.keyData
  exact List.flatMap_congr fun w hw => by rw [h w (List.mem_range.mp hw)]

theorem Chip.keyData_target (c : Chip) (target : Nat) : (c.wg R.SEC_KEY_CTRL_TARGET 0 target).keyData = c.keyData :=
  Chip.keyData_kept fun w _ => Chip.rg_wg_other _ _ _ _ _ _ (by simp only [Fld.key, R.SEC_KEY_CTRL_TARGET, R.SEC_KEY_DATA_KEY]; omega)

theorem Chip.keyAux_target (c : Chip) (target w : Nat) : (c.wg R.SEC_KEY_CTRL_TARGET 0 target).keyAux w = c.keyAux w :=
  Chip.rg_wg_other _ _ _ _ _ _ (by simp only [Fld.key, R.SEC_KEY_CTRL_TARGET, R.SEC_KEY_AUX_AUX]; omega)

end Sys2Proof.Machine

namespace Sys2Proof.Safety

open Sys2Proof Sys2Proof.Machine

/-- What a statement says of a GO that was done, beside its own work: RESULT 0, the words cleared, the loads counted, the rest kept. -/
def keyDone (s u : State) (target : Nat) (ws : List (Fld × Nat × Nat)) : Prop :=
  u.chip.rg R.SEC_KEY_CTRL_TARGET 0 = target % 8 ∧ (∀ f i v, (f, i, v) ∈ ws → u.chip.rg f i = v % 2 ^ f.width) ∧
    u.chip.rg R.SEC_KEY_CTRL_RESULT 0 = 0 ∧ (∀ w : Fin 8, u.chip.rg R.SEC_KEY_DATA_KEY w = 0) ∧ (∀ w : Fin 6, u.chip.rg R.SEC_KEY_AUX_AUX w = 0) ∧
    u.chip.counter C.SEC_KEY_LOADS 0 = (s.chip.counter C.SEC_KEY_LOADS 0 + 1) % 2 ^ 48 ∧ regsKept s u (keyGoKeys ws) ∧ u.mem = s.mem

/-- A host's GO that is permitted. -/
theorem keyGo_done {s : State} {t target : Nat} {row : Chip → Chip × Nat} {f : Chip → Chip} {ws : List (Fld × Nat × Nat)} (hs : ready s)
    (hd : s.chip.domOn 3 = true) (hquiet : s.chip.rg R.SEC_ALARM_STAT_RELEASE 0 = 0) (hrow : row (chipAt s t) = (chipAt s t).keyGo target true f)
    (hregs : (f ((chipAt s t).wg R.SEC_KEY_CTRL_TARGET 0 target)).regs = (((chipAt s t).wg R.SEC_KEY_CTRL_TARGET 0 target).written ws).regs)
    (hcnt : (f ((chipAt s t).wg R.SEC_KEY_CTRL_TARGET 0 target)).cnt = s.chip.cnt)
    (hmout : (f ((chipAt s t).wg R.SEC_KEY_CTRL_TARGET 0 target)).mout = s.chip.mout) (htold : keyTold ws) (hone : (writtenKeys ws).Nodup) :
    ∃ u, s.on t (fun _ c => c.answeredIn 3 row) = .next u ∧ answered u stOk ∧ keyDone s u target ws ∧
      u.chip.sec = (f ((chipAt s t).wg R.SEC_KEY_CTRL_TARGET 0 target)).sec := by
  obtain ⟨e, hgo, heregs, hecnt, hemout, hesec⟩ := Chip.keyGo_loads (c := chipAt s t) hquiet hregs hcnt
  have hread (g : Fld) (j : Nat) : (s.after (e.emit .answer 0 [stOk] [])).chip.rg g j = ((chipAt s t).written (keyWrites target ws 0)).rg g j :=
    (rg_answered ..).trans (Chip.rg_of_regs_eq heregs g j)
  refine ⟨_, on_answeredIn hs hd (hrow.trans hgo), rfl, ⟨?_, fun g i v hmem => ?_, ?_, fun w => ?_, fun w => ?_, ?_, fun g j hg => ?_, ?_⟩, hesec⟩
  · exact (hread ..).trans (Chip.keyWrites_target _ htold _ _)
  · exact (hread ..).trans (Chip.keyWrites_told _ htold hone hmem _ _)
  · exact (hread ..).trans (Chip.keyWrites_end _ (v := 0) (List.mem_cons_self ..) _ _)
  · exact (hread ..).trans (Chip.keyWrites_end _ (v := 0) (by simp [keyEnd, keyClears]) _ _)
  · exact (hread ..).trans (Chip.keyWrites_end _ (v := 0) (by simp [keyEnd, keyClears]) _ _)
  · exact (counter_answered ..).trans ((congrArg (fun l => Tab.get 0 l (C.SEC_KEY_LOADS.key 0)) hecnt).trans (Chip.counter_incBy_same ..))
  · exact (hread ..).trans (Chip.keyWrites_rg_other _ hg _ _)
  · exact congrArg s.mem.applyAll (hemout.trans (hmout.trans hs.2))

/-- A host's GO that is refused. -/
theorem keyGo_denied {s : State} {t target : Nat} {permitted : Bool} {row : Chip → Chip × Nat} {f : Chip → Chip} (hs : ready s)
    (hd : s.chip.domOn 3 = true) (hrow : row (chipAt s t) = (chipAt s t).keyGo target permitted f)
    (h : permitted = false ∨ s.chip.rg R.SEC_ALARM_STAT_RELEASE 0 ≠ 0) :
    ∃ u, s.on t (fun _ c => c.answeredIn 3 row) = .next u ∧ answered u stRefused ∧
      u.chip.rg R.SEC_KEY_CTRL_RESULT 0 = (if s.chip.rg R.SEC_ALARM_STAT_RELEASE 0 = 0 then 1 else 2) ∧
      u.chip.sec.trunkKeys = s.chip.sec.trunkKeys ∧
      u.chip.counter C.SEC_KEY_REFUSED 0 = (s.chip.counter C.SEC_KEY_REFUSED 0 + 1) % 2 ^ 48 ∧ regsKept s u (keyGoKeys []) ∧ u.mem = s.mem := by
  obtain ⟨e, hgo, heregs, hecnt, hemout, hesec⟩ := Chip.keyGo_refused (c := chipAt s t) (target := target) f h
  have hread (g : Fld) (j : Nat) : (s.after (e.emit .answer 0 [stRefused] [])).chip.rg g j = _ := (rg_answered ..).trans (Chip.rg_of_regs_eq heregs g j)
  refine ⟨_, on_answeredIn hs hd (hrow.trans hgo), rfl, ?_, congrArg SecSt.trunkKeys hesec, ?_, fun g j hg => ?_, ?_⟩
  · refine (hread ..).trans ((Chip.keyWrites_end _ (List.mem_cons_self ..) _ _).trans ?_)
    rw [Chip.rg_tick]
    split <;> rfl
  · exact (counter_answered ..).trans ((congrArg (fun l => Tab.get 0 l (C.SEC_KEY_REFUSED.key 0)) hecnt).trans (Chip.counter_incBy_same ..))
  · exact (hread ..).trans (Chip.keyWrites_rg_other _ hg _ _)
  · exact congrArg s.mem.applyAll (hemout.trans hs.2)

end Sys2Proof.Safety
end

section
/-! PROOFS. The management key, the key loads, the erasures and the vault (13_security.md R391 to R397). -/

namespace Sys2Proof.Machine

open Sys2Proof Sys2Proof.Safety

/-! ## The management key (R391, R392) -/

/-- What GO of SEC_MK_CTRL with an OP writes when the operation begins. -/
def mkBegins (op : Nat) : List (Fld × Nat × Nat) := [(R.SEC_MK_CTRL_OP, 0, op), (R.SEC_MK_CTRL_BUSY, 0, 1), (R.SEC_MK_CTRL_RESULT, 0, 0)]

/-- What the end of an operation writes. -/
def mkEnds (result : Nat) : List (Fld × Nat × Nat) := [(R.SEC_MK_CTRL_BUSY, 0, 0), (R.SEC_MK_CTRL_RESULT, 0, result), (R.SEC_EVT_DONE, 0, 1)]

theorem mkEnds_nodup (result : Nat) : (writtenKeys (mkEnds result)).Nodup := by
  have hkeys : [R.SEC_MK_CTRL_BUSY.key 0, R.SEC_MK_CTRL_RESULT.key 0, R.SEC_EVT_DONE.key 0].Nodup := by decide
  exact hkeys

theorem mkBegins_nodup (op : Nat) : (writtenKeys (mkBegins op)).Nodup := by
  have hkeys : [R.SEC_MK_CTRL_OP.key 0, R.SEC_MK_CTRL_BUSY.key 0, R.SEC_MK_CTRL_RESULT.key 0].Nodup := by decide
  exact hkeys

theorem mkOffer_begins {c : Chip} (hfree : c.sec.mkOp = none)
    (hmode : c.rg R.TRK_MODE_CODE 0 = 4 ∨ c.rg R.TRK_MODE_CODE 0 = 5 ∨ c.rg R.TRK_MODE_CODE 0 = 10) (hent : c.sec.entBad = false)
    (hid : c.rg R.SEC_STAT_ID_READY 0 = 1) :
    mkOffer c = ({ c.written (mkBegins 1) with sec.offer := none, sec.mkOp := some (1, []) }, stOk) := by
  have hready : c.rb R.SEC_STAT_ID_READY 0 = true := decide_eq_true hid
  simp only [mkOffer, hfree, hmode, hent, hready, Option.isSome_none, Bool.false_eq_true, Bool.true_eq_false, not_true_eq_false, or_self, if_false]
  rfl

theorem mkOffer_refused {c : Chip} (h4 : c.rg R.TRK_MODE_CODE 0 ≠ 4) (h5 : c.rg R.TRK_MODE_CODE 0 ≠ 5) (h10 : c.rg R.TRK_MODE_CODE 0 ≠ 10) :
    mkOffer c = (c, stRefused) := by
  rw [mkOffer]
  split
  · rfl
  · exact if_pos (by tauto)

theorem mkAnswer_begins {m : Mem} {c : Chip} (hfree : c.sec.mkOp = none) (hquiet : c.rg R.SEC_ALARM_STAT_RELEASE 0 = 0) (hddr : c.ddrOk = true) :
    mkAnswer m c = ({ c.written (mkBegins 2) with sec.mkOp := some (2, m.ddrRead (c.rg R.SEC_MK_ADDR_ADDR4K 0 * 4096) mkAnswerLen) }, stOk) := by
  have hnone : c.alarmHolds = false := by simp [Chip.alarmHolds, hquiet]
  simp only [mkAnswer, hfree, hnone, hddr, Option.isSome_none, Bool.false_eq_true, if_false, if_true]
  rfl

theorem mkAnswer_refused {m : Mem} {c : Chip} (hfree : c.sec.mkOp = none) (halarm : c.rg R.SEC_ALARM_STAT_RELEASE 0 ≠ 0) :
    mkAnswer m c = ((c.written [(R.SEC_MK_CTRL_OP, 0, 2), (R.SEC_MK_CTRL_RESULT, 0, 5)]).inc C.SEC_MK_FAIL 0, stRefused) := by
  have hheld : c.alarmHolds = true := decide_eq_true halarm
  simp only [mkAnswer, hfree, hheld, Option.isSome_none, Bool.false_eq_true, if_false, if_true]
  rfl

theorem mkOpDone_offers {c : Chip} (hop : c.sec.mkOp = some (1, [])) (hid : c.rg R.SEC_STAT_ID_READY 0 = 1) :
    mkOpDone c = { c.written (mkEnds 0) with
      fresh := c.fresh + 2, sec.mkOp := none, sec.offer := some { rand := c.draw.2.draw.1, body := (c.offerBody c.draw.1 c.draw.2.draw.1).take 4192 },
      mout := c.mout ++ [.ddr (c.rg R.SEC_MK_ADDR_ADDR4K 0 * 4096) (c.offerBody c.draw.1 c.draw.2.draw.1)] } := by
  have hready : c.rb R.SEC_STAT_ID_READY 0 = true := decide_eq_true hid
  simp only [mkOpDone, hop, hready, Bool.true_eq_false, if_false]
  rfl

/-- RESULT of the check of an answer `b` to the offer `o` (R392). -/
def Chip.answerResult (c : Chip) (o : MkOffer) (b : List Byte) : Nat :=
  if ¬(b.length = 8820 ∧ byteAt b 8819 = 0) then 4
  else if b.take 32 ≠ o.body.take 32 then 3
  else if c.headEndKey (sha3_512 (slice b 1600 2592)) = false then 1
  else if Config.mldsaVerify (slice b 1600 2592) (ascii "KQ-MK-H") (sha3_512 (o.body ++ b.take 4192)) (slice b 4192 4627) = false then 2
  else 0

/-- The management key that an answer brings. -/
def answerKey (o : MkOffer) (b : List Byte) : List Byte :=
  (sha3_512 (beBytes 32 (Config.mlkemDec o.rand (slice b 32 1568)).toNat ++ sha3_512 (o.body ++ b.take 4192))).take 32

theorem Chip.answerResult_lt (c : Chip) (o : MkOffer) (b : List Byte) : c.answerResult o b < 8 := by
  unfold Chip.answerResult
  split_ifs <;> decide

/-- The answer is checked: a failure ends the operation with its RESULT, success puts the key in. -/
theorem mkOpDone_answered {c : Chip} {o : MkOffer} {b : List Byte} (hop : c.sec.mkOp = some (2, b)) (hoffer : c.sec.offer = some o) :
    (c.answerResult o b ≠ 0 ∧ mkOpDone c = c.mkEnd (c.answerResult o b)) ∨
    (c.answerResult o b = 0 ∧ mkOpDone c =
      { (c.mkEnd 0).wg R.TRK_TERM_ID_MMK 0 1 with sec.vault := c.sec.vault.set 0 (answerKey o b), sec.offer := none }) := by
  simp only [mkOpDone, hop, hoffer, Chip.answerResult, mkAnswerLen]
  split_ifs
  · exact .inl ⟨by decide, rfl⟩
  · exact .inl ⟨by decide, rfl⟩
  · exact .inl ⟨by decide, rfl⟩
  · exact .inr ⟨rfl, rfl⟩
  · exact .inl ⟨by decide, rfl⟩

theorem Chip.mkEnd_fails (c : Chip) {result : Nat} (h : result ≠ 0) :
    c.mkEnd result = { (c.inc C.SEC_MK_FAIL 0).written (mkEnds result) with sec.mkOp := none } := by
  rw [Chip.mkEnd, if_neg h]
  rfl

theorem Chip.mkEnd_succeeds (c : Chip) : c.mkEnd 0 = { c.written (mkEnds 0) with sec.mkOp := none } := rfl

/-! ## The vault (R397) -/

/-- The words of SEC_VLT_OUT are written. -/
def vaultOut (v : Nat → Nat) : List (Fld × Nat × Nat) := (List.range 4).map fun w => (R.SEC_VLT_OUT_BLOCK, w, v w)

/-- What GO writes before the slot is read. -/
def vaultBegins (op slot : Nat) : List (Fld × Nat × Nat) :=
  [(R.SEC_VLT_CTRL_OP, 0, op), (R.SEC_VLT_CTRL_SLOT, 0, slot)] ++ vaultOut fun _ => 0

/-- The block of SEC_VLT_IN under a key. -/
def Chip.vaultBlock (c : Chip) (op : Nat) (key : List Byte) : Nat :=
  (Config.aesBlock (decide (op = 1)) key ((List.range 4).flatMap fun w => beBytes 4 (c.rg R.SEC_VLT_IN_BLOCK w))).toNat

/-- Word `w` of a block of 16 bytes. -/
def blockWord (block w : Nat) : Nat := block / 2 ^ (32 * (3 - w))

/-- The fields that GO of the vault writes. -/
def vaultKeys : List Nat :=
  [R.SEC_VLT_CTRL_OP.key 0, R.SEC_VLT_CTRL_SLOT.key 0, R.SEC_VLT_CTRL_RESULT.key 0, R.SEC_VLT_OUT_BLOCK.key 0, R.SEC_VLT_OUT_BLOCK.key 1,
    R.SEC_VLT_OUT_BLOCK.key 2, R.SEC_VLT_OUT_BLOCK.key 3]

/-- OUT is cleared and the slot noted before the slot is read. -/
theorem Chip.vaultBegins_written (c : Chip) (op slot : Nat) :
    forN 4 (fun w (d : Chip) => d.wg R.SEC_VLT_OUT_BLOCK w 0) ((c.wg R.SEC_VLT_CTRL_OP 0 op).wg R.SEC_VLT_CTRL_SLOT 0 slot) =
      c.written (vaultBegins op slot) := by
  rw [Chip.forN_wg_written _ _ fun _ => 0, vaultBegins, Chip.written_append]
  rfl

theorem Chip.vaultBegins_sec (c : Chip) (op slot : Nat) : (c.written (vaultBegins op slot)).sec = c.sec :=
  (c.written_rewritten _).read Chip.sec fun _ => rfl

theorem vaultBegins_keys (op slot : Nat) : writtenKeys (vaultBegins op slot) = [R.SEC_VLT_CTRL_OP.key 0, R.SEC_VLT_CTRL_SLOT.key 0,
    R.SEC_VLT_OUT_BLOCK.key 0, R.SEC_VLT_OUT_BLOCK.key 1, R.SEC_VLT_OUT_BLOCK.key 2, R.SEC_VLT_OUT_BLOCK.key 3] := rfl

theorem Chip.vaultBlock_begun (c : Chip) (op' slot op : Nat) (key : List Byte) : (c.written (vaultBegins op' slot)).vaultBlock op key = c.vaultBlock op key := by
  have hin : ∀ w < 4, R.SEC_VLT_IN_BLOCK.key w ∉ writtenKeys (vaultBegins op' slot) := by rw [vaultBegins_keys]; decide
  have hblock : (List.range 4).flatMap (fun w => beBytes 4 ((c.written (vaultBegins op' slot)).rg R.SEC_VLT_IN_BLOCK w)) =
      (List.range 4).flatMap (fun w => beBytes 4 (c.rg R.SEC_VLT_IN_BLOCK w)) :=
    List.flatMap_congr fun w hw => congrArg (beBytes 4) (Chip.written_rg_other (hin w (List.mem_range.mp hw)) c)
  rw [Chip.vaultBlock, Chip.vaultBlock, hblock]

/-- The core that the vault works for. -/
def Chip.vaultFor (c : Chip) (core : Nat) : Chip := { c with sec.vltCore := core }

theorem Chip.vaultFor_written (c : Chip) (core : Nat) (ws : List (Fld × Nat × Nat)) : (c.vaultFor core).written ws = (c.written ws).vaultFor core := by
  induction ws generalizing c with
  | nil => rfl
  | cons w ws ih => exact ih (c.wg w.1 w.2.1 w.2.2)

theorem vaultGo_empty {op core slot : Nat} {c : Chip} (h : c.sec.vault.find slot = none) :
    vaultGo op core slot c = ((c.written (vaultBegins op slot ++ [(R.SEC_VLT_CTRL_RESULT, 0, 1)])).vaultFor core, stOk) := by
  rw [Chip.written_append, ← Chip.vaultFor_written]
  simp only [vaultGo, Chip.vaultBegins_written, Chip.vaultBegins_sec, h]
  rfl

theorem vaultGo_block {op core slot : Nat} {key : List Byte} {c : Chip} (h : c.sec.vault.find slot = some key) :
    vaultGo op core slot c =
      ((c.written (vaultBegins op slot ++ (R.SEC_VLT_CTRL_RESULT, 0, 0) :: vaultOut (blockWord (c.vaultBlock op key)))).vaultFor core, stOk) := by
  rw [Chip.written_append, ← Chip.vaultFor_written, ← c.vaultBlock_begun op slot op key]
  simp only [vaultGo, Chip.vaultBegins_written, Chip.vaultBegins_sec, h]
  exact congrArg (·, stOk) (Chip.forN_wg_written (((c.written (vaultBegins op slot)).vaultFor core).wg R.SEC_VLT_CTRL_RESULT 0 0) R.SEC_VLT_OUT_BLOCK
    (blockWord ((c.written (vaultBegins op slot)).vaultBlock op key)) 4)

end Sys2Proof.Machine
end

section
/-! PROOFS. The statement about keys and the vault (13_security.md R391 to R397, R400, R402). -/

namespace Sys2Proof.Safety

open Sys2Proof Sys2Proof.Machine

/-! ## The management key -/

theorem applyAll_one (m : Mem) (o : MemOp) : m.applyAll [o] = m.apply o := rfl

/-- A command that writes a list of register fields: what it leaves of the registers. -/
theorem on_written {s : State} {t : Nat} {row : Mem → Chip → Chip} {e d : Chip} {ws : List (Fld × Nat × Nat)} (hs : ready s)
    (hrow : row s.mem (chipAt s t) = e) (hd : d.regs = s.chip.regs) (hregs : e.regs = (d.written ws).regs) :
    s.on t row = .next (s.after e) ∧ (∀ g j, (s.after e).chip.rg g j = (d.written ws).rg g j) ∧ regsKept s (s.after e) (writtenKeys ws) := by
  have hread (g : Fld) (j : Nat) : (s.after e).chip.rg g j = (d.written ws).rg g j := (rg_after ..).trans (Chip.rg_of_regs_eq hregs g j)
  refine ⟨?_, hread, fun g j hg => (hread g j).trans ((Chip.written_rg_other hg d).trans (Chip.rg_of_regs_eq hd g j))⟩
  rw [State.on_running _ _ _ hs.1]
  exact congrArg (fun c => Host.Outcome.next (s.after c)) hrow

theorem mkOffer_next (t : Nat) (s : State) (hs : ready s) (hd : s.chip.domOn 3 = true) (hfree : s.chip.sec.mkOp = none)
    (hmode : s.chip.rg R.TRK_MODE_CODE 0 = 4 ∨ s.chip.rg R.TRK_MODE_CODE 0 = 5 ∨ s.chip.rg R.TRK_MODE_CODE 0 = 10)
    (hent : s.chip.sec.entBad = false) (hid : s.chip.rg R.SEC_STAT_ID_READY 0 = 1) :
    ∃ u, exec (.mkOffer t) s = .next u ∧ answered u stOk ∧ u.chip.rg R.SEC_MK_CTRL_OP 0 = 1 ∧ u.chip.rg R.SEC_MK_CTRL_BUSY 0 = 1 ∧
      u.chip.rg R.SEC_MK_CTRL_RESULT 0 = 0 ∧ u.chip.sec.mkOp = some (1, []) ∧ u.chip.sec.offer = none ∧
      kept s u [R.SEC_MK_CTRL_OP.key 0, R.SEC_MK_CTRL_BUSY.key 0, R.SEC_MK_CTRL_RESULT.key 0] := by
  obtain ⟨hnext, hread, hkept⟩ := on_answeredIn_written (ws := mkBegins 1) hs hd (mkOffer_begins (c := chipAt s t) hfree hmode hent hid) rfl rfl rfl rfl
  exact ⟨_, hnext, rfl, (hread ..).trans (Chip.written_rg (v := 1) (mkBegins_nodup 1) (by simp [mkBegins]) _),
    (hread ..).trans (Chip.written_rg (v := 1) (mkBegins_nodup 1) (by simp [mkBegins]) _),
    (hread ..).trans (Chip.written_rg (v := 0) (mkBegins_nodup 1) (by simp [mkBegins]) _), rfl, rfl, hkept⟩

theorem mkAnswer_next (t : Nat) (s : State) (hs : ready s) (hd : s.chip.domOn 3 = true) (hfree : s.chip.sec.mkOp = none)
    (hquiet : s.chip.rg R.SEC_ALARM_STAT_RELEASE 0 = 0) (hddr : (chipAt s t).ddrOk = true) :
    ∃ u, exec (.mkAnswer t) s = .next u ∧ answered u stOk ∧ u.chip.rg R.SEC_MK_CTRL_OP 0 = 2 ∧ u.chip.rg R.SEC_MK_CTRL_BUSY 0 = 1 ∧
      u.chip.rg R.SEC_MK_CTRL_RESULT 0 = 0 ∧ (u.chip.sec.mkOp.map (fun x => x.1)) = some 2 ∧
      kept s u [R.SEC_MK_CTRL_OP.key 0, R.SEC_MK_CTRL_BUSY.key 0, R.SEC_MK_CTRL_RESULT.key 0] := by
  have hrow : s.on t (fun m c => c.answeredIn 3 (mkAnswer m)) = s.on t (fun _ c => c.answeredIn 3 (mkAnswer s.mem)) := by
    rw [State.on_running _ _ _ hs.1, State.on_running _ _ _ hs.1]
  obtain ⟨hnext, hread, hkept⟩ :=
    on_answeredIn_written (ws := mkBegins 2) hs hd (mkAnswer_begins (m := s.mem) (c := chipAt s t) hfree hquiet hddr) rfl rfl rfl rfl
  exact ⟨_, hrow.trans hnext, rfl, (hread ..).trans (Chip.written_rg (v := 2) (mkBegins_nodup 2) (by simp [mkBegins]) _),
    (hread ..).trans (Chip.written_rg (v := 1) (mkBegins_nodup 2) (by simp [mkBegins]) _),
    (hread ..).trans (Chip.written_rg (v := 0) (mkBegins_nodup 2) (by simp [mkBegins]) _), rfl, hkept⟩

theorem mkAnswer_next_refused (t : Nat) (s : State) (hs : ready s) (hd : s.chip.domOn 3 = true) (hfree : s.chip.sec.mkOp = none)
    (halarm : s.chip.rg R.SEC_ALARM_STAT_RELEASE 0 ≠ 0) :
    ∃ u, exec (.mkAnswer t) s = .next u ∧ answered u stRefused ∧ u.chip.rg R.SEC_MK_CTRL_RESULT 0 = 5 ∧
      u.chip.counter C.SEC_MK_FAIL 0 = (s.chip.counter C.SEC_MK_FAIL 0 + 1) % 2 ^ 48 ∧
      regsKept s u [R.SEC_MK_CTRL_OP.key 0, R.SEC_MK_CTRL_RESULT.key 0] ∧ u.mem = s.mem := by
  have hrow : s.on t (fun m c => c.answeredIn 3 (mkAnswer m)) = s.on t (fun _ c => c.answeredIn 3 (mkAnswer s.mem)) := by
    rw [State.on_running _ _ _ hs.1, State.on_running _ _ _ hs.1]
  have hone : (writtenKeys [(R.SEC_MK_CTRL_OP, 0, 2), (R.SEC_MK_CTRL_RESULT, 0, 5)]).Nodup := by decide
  refine ⟨_, hrow.trans (on_answeredIn hs hd (mkAnswer_refused (m := s.mem) (c := chipAt s t) hfree halarm)), rfl, ?_, ?_, fun g j hg => ?_, ?_⟩
  · exact (rg_answered ..).trans (Chip.written_rg (v := 5) hone (List.mem_cons_of_mem _ (List.mem_cons_self ..)) _)
  · exact (counter_answered ..).trans (Chip.counter_incBy_same ..)
  · exact (rg_answered ..).trans (Chip.written_rg_other (ws := [(R.SEC_MK_CTRL_OP, 0, 2), (R.SEC_MK_CTRL_RESULT, 0, 5)]) hg (chipAt s t))
  · exact congrArg s.mem.applyAll hs.2

theorem mkOpDone_next_offer (t : Nat) (s : State) (hs : ready s) (hop : s.chip.sec.mkOp = some (1, []))
    (hid : s.chip.rg R.SEC_STAT_ID_READY 0 = 1) :
    ∃ u, exec (.mkOpDone t) s = .next u ∧ u.chip.rg R.SEC_MK_CTRL_BUSY 0 = 0 ∧ u.chip.rg R.SEC_MK_CTRL_RESULT 0 = 0 ∧
      u.chip.rg R.SEC_EVT_DONE 0 = 1 ∧ u.chip.sec.offer.isSome = true ∧
      u.mem = s.mem.apply (.ddr (s.chip.rg R.SEC_MK_ADDR_ADDR4K 0 * 4096)
        ((chipAt s t).offerBody (chipAt s t).draw.1 (chipAt s t).draw.2.draw.1)) ∧
      regsKept s u [R.SEC_MK_CTRL_BUSY.key 0, R.SEC_MK_CTRL_RESULT.key 0, R.SEC_EVT_DONE.key 0] ∧ u.chip.cnt = s.chip.cnt := by
  obtain ⟨hnext, hread, hkept⟩ := on_written (row := fun _ c => mkOpDone c) (d := chipAt s t) (ws := mkEnds 0) hs
    (mkOpDone_offers (c := chipAt s t) hop hid) rfl rfl
  refine ⟨_, hnext, (hread ..).trans (Chip.written_rg (v := 0) (mkEnds_nodup 0) (by simp [mkEnds]) _),
    (hread ..).trans (Chip.written_rg (v := 0) (mkEnds_nodup 0) (by simp [mkEnds]) _),
    (hread ..).trans (Chip.written_rg (v := 1) (mkEnds_nodup 0) (by simp [mkEnds]) _), rfl, ?_, hkept, rfl⟩
  rw [State.after_mem]
  show s.mem.applyAll (s.chip.mout ++ [_]) = _
  rw [hs.2, List.nil_append]
  exact applyAll_one ..

/-- The answer to an offer is checked (R392). -/
theorem mkOpDone_next_answer (t : Nat) (b : List Byte) (o : MkOffer) (r : Nat) (s : State) (hs : ready s) (hop : s.chip.sec.mkOp = some (2, b))
    (hoffer : s.chip.sec.offer = some o) (hr : r = (chipAt s t).answerResult o b) :
    ∃ u, exec (.mkOpDone t) s = .next u ∧ u.chip.rg R.SEC_MK_CTRL_BUSY 0 = 0 ∧ u.chip.rg R.SEC_MK_CTRL_RESULT 0 = r ∧
      u.chip.rg R.SEC_EVT_DONE 0 = 1 ∧ (r = 0 → u.chip.rg R.TRK_TERM_ID_MMK 0 = 1 ∧ (u.chip.sec.vault.find 0).isSome = true) ∧
      (r ≠ 0 → u.chip.rg R.TRK_TERM_ID_MMK 0 = s.chip.rg R.TRK_TERM_ID_MMK 0 ∧ u.chip.sec.vault = s.chip.sec.vault ∧
        u.chip.counter C.SEC_MK_FAIL 0 = (s.chip.counter C.SEC_MK_FAIL 0 + 1) % 2 ^ 48) ∧
      regsKept s u [R.SEC_MK_CTRL_BUSY.key 0, R.SEC_MK_CTRL_RESULT.key 0, R.SEC_EVT_DONE.key 0, R.TRK_TERM_ID_MMK.key 0] ∧ u.mem = s.mem := by
  have hlt : r % 8 = r := Nat.mod_eq_of_lt (hr ▸ Chip.answerResult_lt _ o b)
  rcases mkOpDone_answered (c := chipAt s t) hop hoffer with ⟨hne, hrow⟩ | ⟨hzero, hrow⟩
  · rw [← hr] at hne hrow
    rw [Chip.mkEnd_fails _ hne] at hrow
    obtain ⟨hnext, hread, hkept⟩ := on_written (row := fun _ c => mkOpDone c) (d := (chipAt s t).inc C.SEC_MK_FAIL 0) (ws := mkEnds r) hs hrow rfl rfl
    have hmmk : R.TRK_TERM_ID_MMK.key 0 ∉ writtenKeys (mkEnds r) := by
      have hkeys : R.TRK_TERM_ID_MMK.key 0 ∉ [R.SEC_MK_CTRL_BUSY.key 0, R.SEC_MK_CTRL_RESULT.key 0, R.SEC_EVT_DONE.key 0] := by decide
      exact hkeys
    refine ⟨_, hnext, (hread ..).trans (Chip.written_rg (v := 0) (mkEnds_nodup r) (by simp [mkEnds]) _),
      (hread ..).trans ((Chip.written_rg (v := r) (mkEnds_nodup r) (by simp [mkEnds]) _).trans hlt),
      (hread ..).trans (Chip.written_rg (v := 1) (mkEnds_nodup r) (by simp [mkEnds]) _), fun h => absurd h hne, fun _ => ⟨?_, rfl, ?_⟩, fun g j hg => ?_,
      congrArg s.mem.applyAll hs.2⟩
    · exact hkept _ _ hmmk
    · exact (counter_after ..).trans (Chip.counter_incBy_same (chipAt s t) ..)
    · exact hkept g j fun h => hg (List.mem_append_left [R.TRK_TERM_ID_MMK.key 0] h)
  · rw [hzero] at hr
    subst hr
    have hone : (writtenKeys (mkEnds 0 ++ [(R.TRK_TERM_ID_MMK, 0, 1)])).Nodup := by decide
    obtain ⟨hnext, hread, hkept⟩ := on_written (row := fun _ c => mkOpDone c) (d := chipAt s t) (ws := mkEnds 0 ++ [(R.TRK_TERM_ID_MMK, 0, 1)]) hs
      hrow rfl rfl
    refine ⟨_, hnext, (hread ..).trans (Chip.written_rg (v := 0) hone (by simp [mkEnds]) _),
      (hread ..).trans (Chip.written_rg (v := 0) hone (by simp [mkEnds]) _), (hread ..).trans (Chip.written_rg (v := 1) hone (by simp [mkEnds]) _),
      fun _ => ⟨(hread ..).trans (Chip.written_rg (v := 1) hone (by simp [mkEnds]) _), ?_⟩, fun h => absurd rfl h, hkept, congrArg s.mem.applyAll hs.2⟩
    exact congrArg Option.isSome (Tab.find_set_same s.chip.sec.vault 0 (answerKey o b))

end Sys2Proof.Safety
end

section
/-! PROOFS. Loads, erasures and the vault, and the statement about keys (13_security.md R393 to R397, R402). -/

namespace Sys2Proof.Machine

open Sys2Proof Sys2Proof.Safety

/-! ## Trunk keys (R393, R394) -/

/-- The field that tells of the trunk key of a direction. -/
def trunkFld (dir : Nat) : Fld := if dir = 0 then R.SEC_KIDX_STAT_DOWN else R.SEC_KIDX_STAT_UP

/-- What a load of a trunk key tells. -/
def trunkTold (i dir : Nat) : List (Fld × Nat × Nat) := [(trunkFld dir, i, 1), (R.SEC_KIDX_STAT_DISABLED, i, 0)]

theorem told_keyData {f : Fld} (hf : 0x120800 ≤ f.reg) (c : Chip) (i v : Nat) : (c.wg f i v).keyData = c.keyData :=
  Chip.keyData_kept fun w hw => Chip.rg_wg_other _ _ _ _ _ _ (by simp only [Fld.key, R.SEC_KEY_DATA_KEY]; omega)

theorem trunkFld_place (dir : Nat) : 0x120800 ≤ (trunkFld dir).reg ∧ (trunkFld dir).stride = R.SEC_KIDX_STAT_DISABLED.stride ∧
    (trunkFld dir).reg * 32 + (trunkFld dir).lsb ≠ R.SEC_KIDX_STAT_DISABLED.reg * 32 + R.SEC_KIDX_STAT_DISABLED.lsb := by
  unfold trunkFld
  split <;> decide

theorem trunkTold_told (i dir : Nat) : keyTold (trunkTold i dir) := by
  obtain ⟨hreg, _, _⟩ := trunkFld_place dir
  simp [keyTold, trunkTold, hreg, R.SEC_KIDX_STAT_DISABLED]

theorem trunkTold_nodup (i dir : Nat) : (writtenKeys (trunkTold i dir)).Nodup := by
  obtain ⟨_, hplace⟩ := trunkFld_place dir
  simp [writtenKeys, trunkTold, Fld.key_ne_of_place i hplace]

theorem Chip.trunkKeySet_eq (c : Chip) (i dir : Nat) : c.trunkKeySet i dir =
    { c.written (trunkTold i dir) with sec.trunkKeys := c.sec.trunkKeys.set (2 * i + dir) c.keyData } := by
  obtain ⟨hreg, _, _⟩ := trunkFld_place dir
  have hdata : ((c.wg (trunkFld dir) i 1).wg R.SEC_KIDX_STAT_DISABLED i 0).keyData = c.keyData := by
    rw [told_keyData (by decide), told_keyData hreg]
  rw [← hdata]
  unfold Chip.trunkKeySet trunkTold trunkFld
  split <;> rfl

/-! ## MACsec keys (R396) -/

/-- What a load of a transmit association tells. -/
def macsecTold (p an : Nat) : List (Fld × Nat × Nat) :=
  [(R.SEC_MS_STAT_TX_AN, p, an), (R.SEC_MS_STAT_TX_SA, p, 1), (R.SEC_MS_STAT_PN_EXH, p, 0)]

theorem macsecTold_told (p an : Nat) : keyTold (macsecTold p an) := by
  simp [keyTold, macsecTold, R.SEC_MS_STAT_TX_AN, R.SEC_MS_STAT_TX_SA, R.SEC_MS_STAT_PN_EXH]

theorem macsecTold_nodup (p an : Nat) : (writtenKeys (macsecTold p an)).Nodup := by
  simp [writtenKeys, macsecTold, Fld.key, R.SEC_MS_STAT_TX_AN, R.SEC_MS_STAT_TX_SA, R.SEC_MS_STAT_PN_EXH]

/-- The transmit association that KEY_DATA and KEY_AUX hold. -/
def Chip.txSa (c : Chip) : MsTx :=
  { sak := c.keyData, salt := (List.range 3).flatMap (fun w => beBytes 4 (c.keyAux w)), ssci := c.keyAux 3, pn := c.keyAux 4 * 4294967296 + c.keyAux 5 }

/-- The chip with that association of a port put in. -/
def Chip.txSaPut (c : Chip) (p an : Nat) : Chip := { c with sec.msTx := c.sec.msTx.set (4 * p + an) c.txSa }.written (macsecTold p an)

theorem keyLoadMacsecTx_eq (c : Chip) :
    keyLoadMacsecTx c = c.keyGo 2 true (fun d => d.txSaPut (c.rg R.SEC_KEY_SEL_PORT 0) (c.rg R.SEC_KEY_SEL_AN 0)) := rfl

/-- The receive association that KEY_DATA and KEY_AUX hold. -/
def Chip.rxSa (c : Chip) : MsRx :=
  { sak := c.keyData, salt := (List.range 3).flatMap (fun w => beBytes 4 (c.keyAux w)), ssci := c.keyAux 3,
    sci := c.keyAux 4 * 4294967296 + c.keyAux 5, next := 0 }

/-- The chip with that association of a channel of a port put in. -/
def Chip.rxSaPut (c : Chip) (p k : Nat) : Chip := { c with sec.msRx := c.sec.msRx.set (16 * p + k) c.rxSa }.wbit R.SEC_MS_STAT_RX_SA p k true

theorem keyLoadMacsecRx_eq (c : Chip) : keyLoadMacsecRx c =
    c.keyGo 3 true (fun d => d.rxSaPut (c.rg R.SEC_KEY_SEL_PORT 0) (4 * c.rg R.SEC_KEY_SEL_SC 0 + c.rg R.SEC_KEY_SEL_AN 0)) := rfl

/-- A bit of a field reads 1 in what the field keeps of a word in which the bit was set. -/
theorem bit_putBit_field {k w : Nat} (hk : k < w) (v : Nat) : bit (putBit v k true % 2 ^ w) k = true := by
  rw [bit, Nat.testBit_mod_two_pow, decide_eq_true hk, Bool.true_and]
  exact bit_setBit v k

/-! ## Vault slots, and erasures (R397, R400) -/

/-- The chip with a vault slot put in, and with one erased. -/
def Chip.vaultPut (c : Chip) (i : Nat) : Chip := { c with sec.vault := c.sec.vault.set i c.keyData }
def Chip.vaultErased (c : Chip) (i : Nat) : Chip := { c with sec.vault := c.sec.vault.erase i }

/-- The chip with the downstream trunk key of an index erased. -/
def Chip.trunkErased (c : Chip) (i : Nat) : Chip := { c.wg R.SEC_KIDX_STAT_DOWN i 0 with sec.trunkKeys := c.sec.trunkKeys.erase (2 * i) }

theorem keyLoadVault_eq {c : Chip} {i : Nat} (hsel : c.rg R.SEC_KEY_SEL_INDEX 0 = i) (hlow : 1 ≤ i) (hhigh : i ≤ 7) :
    keyLoadVault c = c.keyGo 4 true (fun d => d.vaultPut i) := by
  simp only [keyLoadVault, hsel, decide_eq_true (And.intro hlow hhigh)]
  rfl

theorem keyErase_vault {c : Chip} {i : Nat} (hsel : c.rg R.SEC_KEY_SEL_INDEX 0 = i) (hwhat : c.rg R.SEC_KEY_SEL_ETARGET 0 = 4) (hlow : 1 ≤ i)
    (hhigh : i ≤ 7) : keyErase c = c.keyGo 5 true (fun d => d.vaultErased i) := by
  simp only [keyErase, hsel, hwhat, decide_eq_true (And.intro hlow hhigh)]
  rfl

theorem keyErase_trunkDown {c : Chip} {i : Nat} (hsel : c.rg R.SEC_KEY_SEL_INDEX 0 = i) (hwhat : c.rg R.SEC_KEY_SEL_ETARGET 0 = 0) (hlow : 1 ≤ i)
    (hhigh : i ≤ 254) : keyErase c = c.keyGo 5 true (fun d => d.trunkErased i) := by
  simp only [keyErase, hsel, hwhat, decide_eq_true (And.intro hlow hhigh)]
  rfl

end Sys2Proof.Machine

namespace Sys2Proof.Safety

open Sys2Proof Sys2Proof.Machine

/-! ## The commands -/

theorem keyLoadTrunk_done {s : State} {t dir i : Nat} (hs : ready s) (hd : s.chip.domOn 3 = true) (hsel : s.chip.rg R.SEC_KEY_SEL_INDEX 0 = i)
    (hpermit : s.chip.keyPermits i dir = true) (hquiet : s.chip.rg R.SEC_ALARM_STAT_RELEASE 0 = 0) :
    ∃ u, s.on t (fun _ c => c.answeredIn 3 (keyLoadTrunk dir)) = .next u ∧ answered u stOk ∧ keyDone s u dir (trunkTold i dir) ∧
      u.chip.sec.trunkKeys.find (2 * i + dir) = some s.chip.keyData := by
  have heq := ((chipAt s t).wg R.SEC_KEY_CTRL_TARGET 0 dir).trunkKeySet_eq i dir
  have hrow : keyLoadTrunk dir (chipAt s t) = (chipAt s t).keyGo dir true (fun d => d.trunkKeySet i dir) := by
    have hpermit' : (chipAt s t).keyPermits i dir = true := hpermit
    simp only [keyLoadTrunk, Chip.rg_tick, hsel, hpermit']
  have hkeep := (((chipAt s t).wg R.SEC_KEY_CTRL_TARGET 0 dir).written_rewritten (trunkTold i dir))
  obtain ⟨u, hnext, hans, hdone, hsec⟩ := keyGo_done hs hd hquiet hrow ((congrArg Chip.regs heq).trans rfl)
    ((congrArg Chip.cnt heq).trans (hkeep.read Chip.cnt fun _ => rfl)) ((congrArg Chip.mout heq).trans (hkeep.read Chip.mout fun _ => rfl))
    (trunkTold_told i dir) (trunkTold_nodup i dir)
  refine ⟨u, hnext, hans, hdone, ?_⟩
  rw [hsec, congrArg Chip.sec heq]
  exact (Tab.find_set_same ..).trans (congrArg some (Chip.keyData_target (chipAt s t) dir))

theorem keyLoadTrunk_denied {s : State} {t dir : Nat} (hs : ready s) (hd : s.chip.domOn 3 = true)
    (h : s.chip.keyPermits (s.chip.rg R.SEC_KEY_SEL_INDEX 0) dir = false ∨ s.chip.rg R.SEC_ALARM_STAT_RELEASE 0 ≠ 0) :
    ∃ u, s.on t (fun _ c => c.answeredIn 3 (keyLoadTrunk dir)) = .next u ∧ answered u stRefused ∧
      u.chip.rg R.SEC_KEY_CTRL_RESULT 0 = (if s.chip.rg R.SEC_ALARM_STAT_RELEASE 0 = 0 then 1 else 2) ∧
      u.chip.sec.trunkKeys = s.chip.sec.trunkKeys ∧
      u.chip.counter C.SEC_KEY_REFUSED 0 = (s.chip.counter C.SEC_KEY_REFUSED 0 + 1) % 2 ^ 48 ∧ regsKept s u (keyGoKeys []) ∧ u.mem = s.mem :=
  keyGo_denied (row := keyLoadTrunk dir) (permitted := (chipAt s t).keyPermits (s.chip.rg R.SEC_KEY_SEL_INDEX 0) dir)
    (f := fun d => d.trunkKeySet (s.chip.rg R.SEC_KEY_SEL_INDEX 0) dir) hs hd rfl h

theorem keyLoadMacsecTx_done {s : State} {t p an : Nat} (hs : ready s) (hd : s.chip.domOn 3 = true) (hport : s.chip.rg R.SEC_KEY_SEL_PORT 0 = p)
    (han : s.chip.rg R.SEC_KEY_SEL_AN 0 = an) (hquiet : s.chip.rg R.SEC_ALARM_STAT_RELEASE 0 = 0) :
    ∃ u, exec (.keyLoadMacsecTx t) s = .next u ∧ answered u stOk ∧ keyDone s u 2 (macsecTold p an) ∧
      (u.chip.sec.msTx.find (4 * p + an)).map (fun x => (x.sak, x.pn)) =
        some (s.chip.keyData, s.chip.keyAux 4 * 4294967296 + s.chip.keyAux 5) := by
  subst hport han
  obtain ⟨u, hnext, hans, hdone, hsec⟩ := keyGo_done (row := keyLoadMacsecTx)
    (ws := macsecTold (s.chip.rg R.SEC_KEY_SEL_PORT 0) (s.chip.rg R.SEC_KEY_SEL_AN 0)) (t := t) hs hd hquiet (keyLoadMacsecTx_eq (chipAt s t))
    (Chip.written_regs rfl _) rfl rfl (macsecTold_told _ _) (macsecTold_nodup _ _)
  refine ⟨u, hnext, hans, hdone, ?_⟩
  rw [hsec, ← Chip.keyData_target s.chip 2, ← Chip.keyAux_target s.chip 2 4, ← Chip.keyAux_target s.chip 2 5]
  exact congrArg (Option.map fun x : MsTx => (x.sak, x.pn)) (Tab.find_set_same ..)

theorem keyLoadMacsecRx_done {s : State} {t p an sc : Nat} (hs : ready s) (hd : s.chip.domOn 3 = true) (hport : s.chip.rg R.SEC_KEY_SEL_PORT 0 = p)
    (han : s.chip.rg R.SEC_KEY_SEL_AN 0 = an) (hquiet : s.chip.rg R.SEC_ALARM_STAT_RELEASE 0 = 0) (hsc : s.chip.rg R.SEC_KEY_SEL_SC 0 = sc) :
    ∃ u v, exec (.keyLoadMacsecRx t) s = .next u ∧ answered u stOk ∧
      keyDone s u 3 [(R.SEC_MS_STAT_RX_SA, p, putBit v (4 * sc + an) true)] ∧
      (u.chip.sec.msRx.find (16 * p + (4 * sc + an))).map (fun x => (x.sak, x.sci, x.next)) =
        some (s.chip.keyData, s.chip.keyAux 4 * 4294967296 + s.chip.keyAux 5, 0) := by
  subst hport han hsc
  have htold (v : Nat) : keyTold [(R.SEC_MS_STAT_RX_SA, s.chip.rg R.SEC_KEY_SEL_PORT 0, v)] := by simp [keyTold, R.SEC_MS_STAT_RX_SA]
  obtain ⟨u, hnext, hans, hdone, hsec⟩ := keyGo_done (row := keyLoadMacsecRx)
    (ws := [(R.SEC_MS_STAT_RX_SA, s.chip.rg R.SEC_KEY_SEL_PORT 0, putBit (((chipAt s t).wg R.SEC_KEY_CTRL_TARGET 0 3).rg R.SEC_MS_STAT_RX_SA
      (s.chip.rg R.SEC_KEY_SEL_PORT 0)) (4 * s.chip.rg R.SEC_KEY_SEL_SC 0 + s.chip.rg R.SEC_KEY_SEL_AN 0) true)]) (t := t) hs hd hquiet
    (keyLoadMacsecRx_eq (chipAt s t)) rfl rfl rfl (htold _) (List.nodup_singleton _)
  refine ⟨u, _, hnext, hans, hdone, ?_⟩
  rw [hsec, ← Chip.keyData_target s.chip 3, ← Chip.keyAux_target s.chip 3 4, ← Chip.keyAux_target s.chip 3 5]
  exact congrArg (Option.map fun x : MsRx => (x.sak, x.sci, x.next)) (Tab.find_set_same ..)

theorem keyLoadVault_done {s : State} {t i : Nat} (hs : ready s) (hd : s.chip.domOn 3 = true) (hsel : s.chip.rg R.SEC_KEY_SEL_INDEX 0 = i)
    (hlow : 1 ≤ i) (hhigh : i ≤ 7) (hquiet : s.chip.rg R.SEC_ALARM_STAT_RELEASE 0 = 0) :
    ∃ u, exec (.keyLoadVault t) s = .next u ∧ answered u stOk ∧ keyDone s u 4 [] ∧ u.chip.sec.vault.find i = some s.chip.keyData := by
  obtain ⟨u, hnext, hans, hdone, hsec⟩ := keyGo_done (row := keyLoadVault) (ws := []) (t := t) hs hd hquiet
    (keyLoadVault_eq (c := chipAt s t) hsel hlow hhigh) rfl rfl rfl (by simp [keyTold]) List.nodup_nil
  refine ⟨u, hnext, hans, hdone, ?_⟩
  rw [hsec, ← Chip.keyData_target s.chip 4]
  exact Tab.find_set_same ..

theorem keyErase_vault_done {s : State} {t i : Nat} (hs : ready s) (hd : s.chip.domOn 3 = true) (hsel : s.chip.rg R.SEC_KEY_SEL_INDEX 0 = i)
    (hwhat : s.chip.rg R.SEC_KEY_SEL_ETARGET 0 = 4) (hlow : 1 ≤ i) (hhigh : i ≤ 7) (hquiet : s.chip.rg R.SEC_ALARM_STAT_RELEASE 0 = 0) :
    ∃ u, exec (.keyErase t) s = .next u ∧ answered u stOk ∧ keyDone s u 5 [] ∧ u.chip.sec.vault.find i = none := by
  obtain ⟨u, hnext, hans, hdone, hsec⟩ := keyGo_done (row := keyErase) (ws := []) (t := t) hs hd hquiet
    (keyErase_vault (c := chipAt s t) hsel hwhat hlow hhigh) rfl rfl rfl (by simp [keyTold]) List.nodup_nil
  exact ⟨u, hnext, hans, hdone, (congrArg (fun x : SecSt => x.vault.find i) hsec).trans (Tab.find_erase_same ..)⟩

theorem keyErase_trunk_done {s : State} {t i : Nat} (hs : ready s) (hd : s.chip.domOn 3 = true) (hsel : s.chip.rg R.SEC_KEY_SEL_INDEX 0 = i)
    (hwhat : s.chip.rg R.SEC_KEY_SEL_ETARGET 0 = 0) (hlow : 1 ≤ i) (hhigh : i ≤ 254) (hquiet : s.chip.rg R.SEC_ALARM_STAT_RELEASE 0 = 0) :
    ∃ u, exec (.keyErase t) s = .next u ∧ answered u stOk ∧ keyDone s u 5 [(R.SEC_KIDX_STAT_DOWN, i, 0)] ∧
      u.chip.sec.trunkKeys.find (2 * i) = none := by
  obtain ⟨u, hnext, hans, hdone, hsec⟩ := keyGo_done (row := keyErase) (ws := [(R.SEC_KIDX_STAT_DOWN, i, 0)]) (t := t) hs hd hquiet
    (keyErase_trunkDown (c := chipAt s t) hsel hwhat hlow hhigh) rfl rfl rfl (by simp [keyTold, R.SEC_KIDX_STAT_DOWN]) (List.nodup_singleton _)
  exact ⟨u, hnext, hans, hdone, (congrArg (fun x : SecSt => x.trunkKeys.find (2 * i)) hsec).trans (Tab.find_erase_same ..)⟩

/-! ## The vault -/

/-- RESULT and the words of a block, as GO writes them at its end. -/
def vaultEnds (v : Nat → Nat) : List (Fld × Nat × Nat) := (R.SEC_VLT_CTRL_RESULT, 0, 0) :: vaultOut v

theorem vaultEnds_keys (v : Nat → Nat) : writtenKeys (vaultEnds v) = [R.SEC_VLT_CTRL_RESULT.key 0, R.SEC_VLT_OUT_BLOCK.key 0,
    R.SEC_VLT_OUT_BLOCK.key 1, R.SEC_VLT_OUT_BLOCK.key 2, R.SEC_VLT_OUT_BLOCK.key 3] := rfl

theorem vaultBegins_nodup (op slot : Nat) : (writtenKeys (vaultBegins op slot)).Nodup := by
  rw [vaultBegins_keys]
  decide

theorem vaultEnds_nodup (v : Nat → Nat) : (writtenKeys (vaultEnds v)).Nodup := by
  rw [vaultEnds_keys]
  decide

/-- A GO of the vault that wrote its list: the answer and the frame. -/
theorem vaultGo_answered {s : State} {t op core slot : Nat} {ws : List (Fld × Nat × Nat)} (hs : ready s) (hd : s.chip.domOn 3 = true)
    (hrow : vaultGo op core slot (chipAt s t) = (((chipAt s t).written (vaultBegins op slot ++ ws)).vaultFor core, stOk))
    (hkeys : ∀ k ∈ writtenKeys (vaultBegins op slot) ++ writtenKeys ws, k ∈ vaultKeys) :
    ∃ u, s.on t (fun _ c => c.answeredIn 3 (vaultGo op core slot)) = .next u ∧ answered u stOk ∧
      (∀ g j, u.chip.rg g j = (((chipAt s t).written (vaultBegins op slot)).written ws).rg g j) ∧ u.chip.sec.vltCore = core ∧ kept s u vaultKeys := by
  obtain ⟨e, he⟩ : ∃ e, e = (chipAt s t).written (vaultBegins op slot ++ ws) := ⟨_, rfl⟩
  obtain ⟨regs, hregs⟩ : (chipAt s t).Rewritten e := he ▸ Chip.written_rewritten ..
  rw [← he] at hrow
  have hread (g : Fld) (j : Nat) : (s.after ((e.vaultFor core).emit .answer 0 [stOk] [])).chip.rg g j = e.rg g j := rg_answered ..
  refine ⟨_, on_answeredIn hs hd hrow, rfl, fun g j => (hread g j).trans (by rw [he, Chip.written_append]), rfl,
    kept_after_but hs (fun g j hg => (Chip.rg_emit ..).trans ?_) (by rw [hregs]; rfl) (by rw [hregs]; rfl) (by rw [hregs]; rfl)⟩
  refine (congrArg (fun c : Chip => c.rg g j) he).trans (Chip.written_rg_other (fun h => hg (hkeys _ ?_)) _)
  exact writtenKeys_append .. ▸ h

/-- A GO of the vault under a key. -/
theorem vaultGo_next {s : State} {t op core slot : Nat} {key : List Byte} (hs : ready s) (hd : s.chip.domOn 3 = true) (hop : op < 4) (hslot : slot < 8)
    (h : s.chip.sec.vault.find slot = some key) :
    ∃ u, s.on t (fun _ c => c.answeredIn 3 (vaultGo op core slot)) = .next u ∧ answered u stOk ∧ u.chip.rg R.SEC_VLT_CTRL_OP 0 = op ∧
      u.chip.rg R.SEC_VLT_CTRL_SLOT 0 = slot ∧ u.chip.rg R.SEC_VLT_CTRL_RESULT 0 = 0 ∧
      (∀ w : Fin 4, u.chip.rg R.SEC_VLT_OUT_BLOCK w = blockWord ((chipAt s t).vaultBlock op key) w % 2 ^ 32) ∧ u.chip.sec.vltCore = core ∧
      kept s u vaultKeys := by
  obtain ⟨u, hnext, hans, hread, hcore, hkept⟩ := vaultGo_answered (ws := vaultEnds (blockWord ((chipAt s t).vaultBlock op key))) hs hd
    (vaultGo_block (c := chipAt s t) h) (by rw [vaultBegins_keys, vaultEnds_keys]; decide)
  have hapart : R.SEC_VLT_CTRL_OP.key 0 ∉ writtenKeys (vaultEnds (blockWord ((chipAt s t).vaultBlock op key))) ∧
      R.SEC_VLT_CTRL_SLOT.key 0 ∉ writtenKeys (vaultEnds (blockWord ((chipAt s t).vaultBlock op key))) := by rw [vaultEnds_keys]; decide
  have hbegun {f : Fld} {v : Nat} (hmem : (f, 0, v) ∈ vaultBegins op slot) : ((chipAt s t).written (vaultBegins op slot)).rg f 0 = v % 2 ^ f.width :=
    Chip.written_rg (vaultBegins_nodup op slot) hmem _
  refine ⟨u, hnext, hans, ?_, ?_, ?_, fun w => ?_, hcore, hkept⟩
  · exact (hread ..).trans ((Chip.written_rg_other hapart.1 _).trans ((hbegun (v := op) (by simp [vaultBegins])).trans (Nat.mod_eq_of_lt hop)))
  · exact (hread ..).trans ((Chip.written_rg_other hapart.2 _).trans ((hbegun (v := slot) (by simp [vaultBegins])).trans (Nat.mod_eq_of_lt hslot)))
  · exact (hread ..).trans (Chip.written_rg (v := 0) (vaultEnds_nodup _) (List.mem_cons_self ..) _)
  · exact (hread ..).trans (Chip.written_rg (vaultEnds_nodup _)
      (List.mem_cons_of_mem _ (List.mem_map.mpr ⟨w, List.mem_range.mpr w.isLt, rfl⟩)) _)

theorem vaultGo_next_empty {s : State} {t op core slot : Nat} (hs : ready s) (hd : s.chip.domOn 3 = true) (hop : op < 4) (hslot : slot < 8)
    (h : s.chip.sec.vault.find slot = none) :
    ∃ u, s.on t (fun _ c => c.answeredIn 3 (vaultGo op core slot)) = .next u ∧ answered u stOk ∧ u.chip.rg R.SEC_VLT_CTRL_OP 0 = op ∧
      u.chip.rg R.SEC_VLT_CTRL_SLOT 0 = slot ∧ u.chip.rg R.SEC_VLT_CTRL_RESULT 0 = 1 ∧ (∀ w : Fin 4, u.chip.rg R.SEC_VLT_OUT_BLOCK w = 0) ∧
      kept s u vaultKeys := by
  obtain ⟨u, hnext, hans, hread, -, hkept⟩ := vaultGo_answered (op := op) (core := core) (ws := [(R.SEC_VLT_CTRL_RESULT, 0, 1)]) hs hd
    (vaultGo_empty (c := chipAt s t) h) (by rw [vaultBegins_keys]; decide)
  have hresult : ∀ w : Fin 4, R.SEC_VLT_CTRL_RESULT.key 0 ≠ R.SEC_VLT_OUT_BLOCK.key w := by decide
  have hbegun {f : Fld} {i v : Nat} (hkey : R.SEC_VLT_CTRL_RESULT.key 0 ≠ f.key i) (hmem : (f, i, v) ∈ vaultBegins op slot) :
      (((chipAt s t).written (vaultBegins op slot)).written [(R.SEC_VLT_CTRL_RESULT, 0, 1)]).rg f i = v % 2 ^ f.width :=
    (Chip.rg_wg_other _ _ _ _ _ _ hkey).trans (Chip.written_rg (vaultBegins_nodup op slot) hmem _)
  refine ⟨u, hnext, hans, ?_, ?_, (hread ..).trans (Chip.rg_wg_same ..), fun w => ?_, hkept⟩
  · exact (hread ..).trans ((hbegun (f := R.SEC_VLT_CTRL_OP) (i := 0) (by decide) (v := op) (by simp [vaultBegins])).trans (Nat.mod_eq_of_lt hop))
  · exact (hread ..).trans ((hbegun (f := R.SEC_VLT_CTRL_SLOT) (i := 0) (by decide) (v := slot) (by simp [vaultBegins])).trans (Nat.mod_eq_of_lt hslot))
  · exact (hread ..).trans (hbegun (hresult w) (v := 0) (by simp [vaultBegins, vaultOut]))

/-! ## The statement -/

/-- Settles O37: each command is one list of register writes and one change of the key stores. -/
theorem keyCommands : Obligations.KeyCommands := by
  refine ⟨mkOffer_next, ?_, mkAnswer_next, mkAnswer_next_refused, mkOpDone_next_offer, mkOpDone_next_answer, ?_, ?_, ?_, ?_, ?_, ?_, ?_, ?_, ?_, ?_,
    ?_, ?_, ?_⟩
  case refine_1 =>
    intro t s hs hd h4 h5 h10
    exact ⟨_, on_answeredIn hs hd (mkOffer_refused (c := chipAt s t) h4 h5 h10), rfl, kept_after hs rfl rfl rfl rfl⟩
  case refine_2 =>
    intro t i s hs hd hsel hpermit hquiet
    obtain ⟨u, hnext, hans, ⟨htarget, htold, hrest⟩, hkey⟩ := keyLoadTrunk_done (t := t) hs hd hsel hpermit hquiet
    exact ⟨u, hnext, hans, htarget, htold _ _ 1 (by simp [trunkTold, trunkFld]), htold _ _ 0 (by simp [trunkTold]), hkey, hrest⟩
  case refine_3 => exact fun t s hs hd h => keyLoadTrunk_denied hs hd h
  case refine_4 =>
    intro t i s hs hd hsel hpermit hquiet
    obtain ⟨u, hnext, hans, ⟨htarget, htold, hrest⟩, hkey⟩ := keyLoadTrunk_done (t := t) hs hd hsel hpermit hquiet
    exact ⟨u, hnext, hans, htarget, htold _ _ 1 (by simp [trunkTold, trunkFld]), htold _ _ 0 (by simp [trunkTold]), hkey, hrest⟩
  case refine_5 => exact fun t s hs hd h => keyLoadTrunk_denied hs hd h
  case refine_6 =>
    intro t p an s hs hd hport _ han hlt hquiet
    obtain ⟨u, hnext, hans, ⟨_, htold, hrest⟩, hkey⟩ := keyLoadMacsecTx_done (t := t) hs hd hport han hquiet
    exact ⟨u, hnext, hans, (htold _ _ an (by simp [macsecTold])).trans (Nat.mod_eq_of_lt hlt), htold _ _ 1 (by simp [macsecTold]),
      htold _ _ 0 (by simp [macsecTold]), hkey, hrest⟩
  case refine_7 =>
    intro t p an sc s hs hd hport _ han hlt hquiet hsc hsclt
    obtain ⟨u, v, hnext, hans, ⟨_, htold, hrest⟩, hkey⟩ := keyLoadMacsecRx_done (t := t) hs hd hport han hquiet hsc
    refine ⟨u, hnext, hans, ?_, hkey, hrest⟩
    rw [Chip.rbit, htold _ _ _ (List.mem_singleton_self _)]
    exact bit_putBit_field (by simp only [R.SEC_MS_STAT_RX_SA]; omega) v
  case refine_8 =>
    intro t i s hs hd hsel hlow hhigh hquiet
    obtain ⟨u, hnext, hans, ⟨htarget, _, hrest⟩, hkey⟩ := keyLoadVault_done (t := t) hs hd hsel hlow hhigh hquiet
    exact ⟨u, hnext, hans, htarget, hkey, hrest⟩
  case refine_9 =>
    intro t i s hs hd hsel hwhat hlow hhigh hquiet
    obtain ⟨u, hnext, hans, ⟨htarget, _, hrest⟩, hkey⟩ := keyErase_vault_done (t := t) hs hd hsel hwhat hlow hhigh hquiet
    exact ⟨u, hnext, hans, htarget, hkey, hrest⟩
  case refine_10 =>
    intro t i s hs hd hsel hwhat hlow hhigh hquiet
    obtain ⟨u, hnext, hans, ⟨_, htold, hrest⟩, hkey⟩ := keyErase_trunk_done (t := t) hs hd hsel hwhat hlow hhigh hquiet
    exact ⟨u, hnext, hans, htold _ _ 0 (List.mem_singleton_self _), hkey, hrest⟩
  case refine_11 => exact fun t core slot key s hs hd h => vaultGo_next hs hd (by decide) slot.isLt h
  case refine_12 => exact fun t core slot s hs hd h => vaultGo_next_empty hs hd (by decide) slot.isLt h
  case refine_13 => exact fun t core slot key s hs hd h => vaultGo_next hs hd (by decide) slot.isLt h
  case refine_14 => exact fun t core slot s hs hd h => vaultGo_next_empty hs hd (by decide) slot.isLt h

end Sys2Proof.Safety
end

section
/-! PROOFS. The noise source and the scan interlock (13_security.md R398, R404), and the erasure of the key stores with no DMA descriptor in
progress: no change of a memory is asked for (R354, R400). -/

namespace Sys2Proof.Machine

open Sys2Proof Sys2Proof.Safety

/-! ## What the erasure asks of the memories -/

/-- The changes of the memories that wait, the DMA descriptors in progress, and what has left the terminal. -/
def Chip.underWay (c : Chip) : List MemOp × Tab DmaRun × List Output := (c.mout, c.hp.dma, c.out)

theorem Chip.winClear_underWay (c : Chip) (a n : Nat) : (c.winClear a n).underWay = c.underWay := rfl

theorem Chip.loadRelease_underWay (c : Chip) : c.loadRelease.underWay = c.underWay := by
  unfold Chip.loadRelease
  dsimp only
  generalize hopened : forN 96 _ _ = d
  have hd : d.underWay = c.underWay := by
    rw [← hopened]
    refine Eq.trans (forN_keeps 96 _ Chip.underWay ?_ _) (Eq.trans (forN_keeps 12 _ Chip.underWay ?_ _)
      (Eq.trans (foldl_keeps _ Chip.underWay ?_ _ _) (foldl_keeps _ Chip.underWay ?_ _ _)))
    · exact fun _ _ => read_ite Chip.underWay rfl rfl
    · exact fun _ _ => read_ite Chip.underWay rfl rfl
    · exact fun _ _ => rfl
    · exact fun _ _ => rfl
  exact hd

theorem Chip.loadFail_underWay (c : Chip) (cause sect : Nat) : (c.loadFail cause sect).underWay = c.underWay := by
  rw [Chip.loadFail, ← c.loadRelease_underWay]
  generalize c.loadRelease = d
  rfl

theorem Chip.swapFail_underWay (c : Chip) (cause : Nat) : (c.swapFail cause).underWay = c.underWay := by
  unfold Chip.swapFail
  dsimp only
  split
  · split <;> rfl
  · split <;> rfl

theorem Chip.jubState_underWay (c : Chip) (st : Nat) : (c.jubState st).underWay = c.underWay := read_ite Chip.underWay rfl rfl

theorem Chip.txnRecord_underWay (c : Chip) (x : Txn) (st cause addr octave : Nat) : (c.txnRecord x st cause addr octave).underWay = c.underWay :=
  read_ite Chip.underWay rfl rfl

theorem Chip.txnOrigin_underWay (c : Chip) (x : Txn) (cause : Nat) (keep : Bool) : (c.txnOrigin x cause keep).underWay = c.underWay := by
  unfold Chip.txnOrigin
  cases x.origin with
  | host => rfl
  | delta => exact c.loadFail_underWay _ _
  | jubilee =>
    refine read_ite Chip.underWay rfl ?_
    have hfail := (c.wg R.ALM_JUB_STAT_TXN 0 0).loadFail_underWay (if (c.wg R.ALM_JUB_STAT_TXN 0 0).alm.load.cancelled then 20 else 21) 0
    generalize (c.wg R.ALM_JUB_STAT_TXN 0 0).loadFail _ 0 = d at hfail ⊢
    exact read_ite Chip.underWay hfail ((Chip.jubState_underWay _ 1).trans hfail)
  | swap => exact read_ite Chip.underWay rfl (c.swapFail_underWay _)

theorem Chip.txnAbortAll_underWay (c : Chip) (cause : Nat) (keep : Bool) (p : Txn → Bool) : (c.txnAbortAll cause keep p).underWay = c.underWay :=
  foldl_keeps _ Chip.underWay (fun _ _ => (Chip.txnOrigin_underWay ..).trans (Chip.txnRecord_underWay ..)) _ c

theorem Chip.dmaStop_underWay {c : Chip} (hidle : c.hp.dma = []) (ch : Nat) : (c.dmaStop ch).underWay = c.underWay := by
  have hnone : c.hp.dma.find ch = none := by rw [hidle]; rfl
  rw [Chip.dmaStop, hnone]
  exact read_ite Chip.underWay rfl rfl

theorem Chip.sessEnded_underWay {c : Chip} (hidle : c.hp.dma = []) (s cause : Nat) : (c.sessEnded s cause).underWay = c.underWay := by
  have hstops : (forN 64 (fun ch (d : Chip) => if d.rg R.DMA_CH_CFG_OWNER ch = s + 1 then d.dmaStop ch else d) c).underWay = c.underWay := by
    refine forN_induct (p := fun _ (d : Chip) => d.underWay = c.underWay) rfl (fun ch d hd => ?_) 64
    have hdma : d.hp.dma = [] := (congrArg (·.2.1) hd).trans hidle
    exact (read_ite Chip.underWay (Chip.dmaStop_underWay hdma ch) rfl).trans hd
  unfold Chip.sessEnded
  dsimp only
  generalize forN 64 _ c = d at hstops ⊢
  exact hstops

/-- The close of an OPEN session. -/
theorem Chip.sessClose_open {c : Chip} {s : Nat} (hopen : c.rg R.HST_SESS_STAT_STATE s = 2) (cause : Nat) : c.sessClose s cause =
    (c.txnAbortAll 8 false (fun x => decide (x.owner = s) && decide (x.origin ≠ .swap))).sessEnded s cause := by
  unfold Chip.sessClose
  rw [if_pos hopen]
  rfl

theorem Chip.sessClose_underWay {c : Chip} (hidle : c.hp.dma = []) (s cause : Nat) : (c.sessClose s cause).underWay = c.underWay := by
  by_cases hopen : c.rg R.HST_SESS_STAT_STATE s = 2
  · have habort := c.txnAbortAll_underWay 8 false (fun x => decide (x.owner = s) && decide (x.origin ≠ .swap))
    rw [Chip.sessClose_open hopen]
    exact (Chip.sessEnded_underWay ((congrArg (·.2.1) habort).trans hidle) s cause).trans habort
  · rw [Chip.sessClose, if_neg hopen]
    exact read_ite Chip.underWay rfl rfl

theorem Chip.sessCloseAll_underWay {c : Chip} (hidle : c.hp.dma = []) (cause : Nat) : (c.sessCloseAll cause).underWay = c.underWay :=
  forN_induct (p := fun _ (d : Chip) => d.underWay = c.underWay) rfl
    (fun s _ hd => (Chip.sessClose_underWay ((congrArg (·.2.1) hd).trans hidle) s cause).trans hd) 4

theorem Chip.stompSplits_underWay (c : Chip) (p : Nat → Bool) : (c.stompSplits p).underWay = c.underWay := by
  exact foldl_keeps (fun (d : Chip) (x : SplitFrame) => d.inc C.TRK_US_STOMPED x.ch) Chip.underWay (fun _ _ => rfl) _ c

theorem Chip.storesErased_underWay (c : Chip) : c.storesErased.underWay = c.underWay := by
  unfold Chip.storesErased
  dsimp only
  generalize hmacsec : forN 128 _ _ = d
  have hd : d.underWay = c.underWay := by
    rw [← hmacsec]
    refine Eq.trans (forN_keeps 128 _ Chip.underWay ?_ _) (Eq.trans (forN_keeps 255 _ Chip.underWay ?_ _) (forN_keeps 4 _ Chip.underWay ?_ _))
    · exact fun _ _ => read_ite Chip.underWay rfl rfl
    · exact fun _ _ => read_ite Chip.underWay rfl rfl
    · exact fun _ _ => rfl
  have hstomp := ((d.wg R.TRK_TERM_ID_MMK 0 0).wg R.SEC_STAT_ID_READY 0 0).stompSplits_underWay (fun k => decide (k ≠ 0))
  generalize Chip.stompSplits _ _ = e at hstomp ⊢
  exact hstomp.trans hd

/-- With no descriptor in progress the erasure asks for no change of a memory. -/
theorem Chip.eraseKeys_underWay {c : Chip} (hidle : c.hp.dma = []) : c.eraseKeys.underWay = c.underWay := by
  rw [Chip.eraseKeys_eq]
  exact (Chip.storesErased_underWay _).trans (Chip.sessCloseAll_underWay hidle 5)

theorem Chip.abortAnswer_underWay (c : Chip) : c.abortAnswer.underWay = c.underWay := by
  unfold Chip.abortAnswer
  split <;> rfl

/-! ## What the erasure leaves of the stores and of the registers that tell of them (R400) -/

theorem Chip.stompSplits_regs (c : Chip) (p : Nat → Bool) : (c.stompSplits p).regs = c.regs := by
  exact foldl_keeps (fun (d : Chip) (x : SplitFrame) => d.inc C.TRK_US_STOMPED x.ch) Chip.regs (fun _ _ => rfl) _ c

/-- Every key store is empty, and the registers say so. -/
def Chip.storesEmpty (c : Chip) : Prop :=
  (c.rg R.SEC_ALARM_STAT_ERASED 0 = 1 ∧ c.rg R.SEC_STAT_ID_READY 0 = 0 ∧ c.rg R.TRK_TERM_ID_MMK 0 = 0) ∧
    c.sec.vault = [] ∧ c.sec.trunkKeys = [] ∧ c.sec.msTx = [] ∧ c.sec.msRx = [] ∧ c.sec.offer = none

/-- The registers of an erasure: its last writes, over what the registers before it read. -/
theorem Chip.storesErased_told (c : Chip) : c.storesErased.rg R.SEC_ALARM_STAT_ERASED 0 = 1 ∧ c.storesErased.rg R.SEC_STAT_ID_READY 0 = 0 ∧
    c.storesErased.rg R.TRK_TERM_ID_MMK 0 = 0 := by
  obtain ⟨d, hregs'⟩ : ∃ d : Chip, c.storesErased.regs =
      (d.written [(R.TRK_TERM_ID_MMK, 0, 0), (R.SEC_STAT_ID_READY, 0, 0), (R.SEC_ALARM_STAT_ERASED, 0, 1)]).regs := by
    unfold Chip.storesErased
    dsimp only
    generalize forN 128 _ _ = d
    have hstomp := ((d.wg R.TRK_TERM_ID_MMK 0 0).wg R.SEC_STAT_ID_READY 0 0).stompSplits_regs (fun k => decide (k ≠ 0))
    generalize Chip.stompSplits _ _ = e at hstomp ⊢
    exact ⟨d, Chip.written_regs (ws := [(R.SEC_ALARM_STAT_ERASED, 0, 1)]) hstomp⟩
  have hone : (writtenKeys [(R.TRK_TERM_ID_MMK, 0, 0), (R.SEC_STAT_ID_READY, 0, 0), (R.SEC_ALARM_STAT_ERASED, 0, 1)]).Nodup := by decide
  exact ⟨(Chip.rg_of_regs_eq hregs' ..).trans (Chip.written_rg (v := 1) hone (by simp) d),
    (Chip.rg_of_regs_eq hregs' ..).trans (Chip.written_rg (v := 0) hone (by simp) d),
    (Chip.rg_of_regs_eq hregs' ..).trans (Chip.written_rg (v := 0) hone (by simp) d)⟩

theorem Chip.eraseKeys_storesEmpty (c : Chip) : c.eraseKeys.storesEmpty := by
  rw [Chip.eraseKeys_eq]
  exact ⟨Chip.storesErased_told _, rfl, rfl, rfl, rfl, rfl⟩

/-- The interlock with the key registers clear. -/
theorem Chip.scanInterlock_clear (c : Chip) :
    c.scanInterlock true = { c.abortAnswer.eraseKeys.inc C.SEC_SCAN_CLEAR 0 with sec.idDue := true }.wg R.SEC_STAT_SCAN_EN 0 1 := rfl

theorem Chip.scanInterlock_storesEmpty (c : Chip) : (c.scanInterlock true).storesEmpty := by
  obtain ⟨⟨herased, hid, hmmk⟩, hstores⟩ := c.abortAnswer.eraseKeys_storesEmpty
  rw [Chip.scanInterlock_clear]
  generalize c.abortAnswer.eraseKeys = d at herased hid hmmk hstores ⊢
  exact ⟨⟨(Chip.rg_wg_other _ _ _ _ _ _ (by decide)).trans herased, (Chip.rg_wg_other _ _ _ _ _ _ (by decide)).trans hid,
    (Chip.rg_wg_other _ _ _ _ _ _ (by decide)).trans hmmk⟩, hstores⟩

theorem Chip.scanInterlock_underWay {c : Chip} (hidle : c.hp.dma = []) : (c.scanInterlock true).underWay = c.underWay := by
  have habort : c.abortAnswer.hp.dma = [] := (congrArg (·.2.1) c.abortAnswer_underWay).trans hidle
  have herase := (Chip.eraseKeys_underWay habort).trans c.abortAnswer_underWay
  rw [Chip.scanInterlock_clear]
  generalize c.abortAnswer.eraseKeys = d at herase ⊢
  exact herase

end Sys2Proof.Machine

namespace Sys2Proof.Safety

open Sys2Proof Sys2Proof.Machine

/-- SCAN_INTERLOCK of EVENTIDE with the key registers clear (R404). -/
theorem scanInterlock_erases (t : Nat) (s : State) (hs : ready s) (hmode : s.chip.rg R.TRK_MODE_CODE 0 = 11) :
    ∃ u, exec (.scanInterlock t false true) s = .next u ∧ u.chip.rg R.SEC_STAT_SCAN_EN 0 = 1 ∧ u.chip.rg R.SEC_ALARM_STAT_ERASED 0 = 1 ∧
      u.chip.rg R.SEC_STAT_ID_READY 0 = 0 ∧ u.chip.rg R.TRK_TERM_ID_MMK 0 = 0 ∧ u.chip.sec.vault = [] ∧ u.chip.sec.trunkKeys = [] ∧
      u.chip.sec.msTx = [] ∧ u.chip.sec.msRx = [] ∧ u.chip.sec.offer = none ∧ (s.chip.hp.dma = [] → u.mem = s.mem) := by
  have hrow : scanInterlock false true (chipAt s t) = (chipAt s t).scanInterlock true := if_pos hmode
  have hempty := (chipAt s t).scanInterlock_storesEmpty
  have hscan : ((chipAt s t).scanInterlock true).rg R.SEC_STAT_SCAN_EN 0 = 1 := by
    rw [Chip.scanInterlock_clear]
    exact Chip.rg_wg_same ..
  have hmem (hidle : s.chip.hp.dma = []) := congrArg Prod.fst (Chip.scanInterlock_underWay (c := chipAt s t) hidle)
  have hnext : exec (.scanInterlock t false true) s = .next (s.after (scanInterlock false true (chipAt s t))) :=
    State.on_running s t (fun _ => scanInterlock false true) hs.1
  rw [hrow] at hnext
  generalize (chipAt s t).scanInterlock true = d at hempty hscan hmem hnext
  obtain ⟨⟨herased, hid, hmmk⟩, hvault, htrunk, htx, hrx, hoffer⟩ := hempty
  exact ⟨_, hnext, (rg_after ..).trans hscan, (rg_after ..).trans herased, (rg_after ..).trans hid, (rg_after ..).trans hmmk, hvault, htrunk, htx, hrx,
    hoffer, fun hidle => mem_after hs (hmem hidle)⟩

/-- Settles O39: the noise source is two registers; the interlock ends in the erasure, whose last writes tell of it, and with debug closed a
JTAG request changes nothing. -/
theorem entropyAndScanCommands : Obligations.EntropyAndScanCommands := by
  refine ⟨?_, ?_, scanInterlock_erases, ?_⟩
  · intro t s hs _
    have hone : (writtenKeys [(R.SEC_STAT_ENT_OK, 0, 0), (R.SEC_EVT_ENT_FAIL, 0, 1)]).Nodup := by decide
    obtain ⟨hnext, hread, hkept⟩ := on_written (row := fun _ c => entropyFail c) (t := t) (d := chipAt s t)
      (ws := [(R.SEC_STAT_ENT_OK, 0, 0), (R.SEC_EVT_ENT_FAIL, 0, 1)]) hs rfl rfl rfl
    exact ⟨_, hnext, (hread ..).trans (Chip.written_rg (v := 0) hone (by simp) _), (hread ..).trans (Chip.written_rg (v := 1) hone (by simp) _), rfl,
      (counter_after ..).trans (Chip.counter_incBy_same ..), hkept, mem_after hs rfl⟩
  · intro t s hs _
    exact ⟨_, State.on_running s t (fun _ => entropyRecover) hs.1, (rg_after ..).trans (Chip.rg_wg_same ..), rfl,
      kept_after_one hs (fun g j hg => Chip.rg_wg_other _ _ _ _ _ _ hg.symm) rfl rfl rfl⟩
  · intro t clear s hs hclosed
    have hdebug : (chipAt s t).rb R.SEC_DEBUG_EN 0 = false := decide_eq_false (by rw [Chip.rg_tick, hclosed]; decide)
    have hrow : scanInterlock true clear (chipAt s t) = chipAt s t := by rw [scanInterlock, hdebug]; rfl
    have hnext : exec (.scanInterlock t true clear) s = .next (s.after (scanInterlock true clear (chipAt s t))) :=
      State.on_running s t (fun _ => scanInterlock true clear) hs.1
    rw [hrow] at hnext
    exact ⟨_, hnext, rfl, kept_after hs rfl rfl rfl rfl⟩

end Sys2Proof.Safety
end

section
/-! PROOFS. What local ports, sample cells, records of errors and trunk engines leave of the power unit (14_power_and_health.md R407 to R418):
its registers, its state, and the changes of the memories that wait. -/

namespace Sys2Proof.Machine

open Sys2Proof Sys2Proof.Safety

/-! ## The power unit -/

/-- Is `k` the key of a register of the power unit, 0x130000 to 0x13FFFF? -/
def pwrKey (k : Nat) : Bool := decide (32 * 0x130000 ≤ k ∧ k < 32 * 0x140000)

/-- The registers of the power unit, its state, and the changes of the memories that wait. -/
def Chip.pwrView (c : Chip) : (Fld → Nat → Nat) × PowSt × List MemOp :=
  (fun g j => if pwrKey (g.key j) then c.rg g j else 0, c.pw, c.mout)

theorem Chip.rg_of_pwrView {c d : Chip} (h : c.pwrView = d.pwrView) {g : Fld} {j : Nat} (hg : pwrKey (g.key j) = true) :
    c.rg g j = d.rg g j := by
  have hregs := congrFun (congrFun (congrArg (·.1) h) g) j
  simpa only [Chip.pwrView, hg, if_true] using hregs

theorem Chip.pw_of_pwrView {c d : Chip} (h : c.pwrView = d.pwrView) : c.pw = d.pw := congrArg (·.2.1) h

theorem Chip.mout_of_pwrView {c d : Chip} (h : c.pwrView = d.pwrView) : c.mout = d.mout := congrArg (·.2.2) h

/-- A write of a register of another unit is not seen. -/
theorem Chip.pwrView_wg (c : Chip) {f : Fld} {i : Nat} (hf : pwrKey (f.key i) = false) (v : Nat) : (c.wg f i v).pwrView = c.pwrView := by
  have hregs : (fun g j => if pwrKey (g.key j) then (c.wg f i v).rg g j else 0) = fun g j => if pwrKey (g.key j) then c.rg g j else 0 := by
    funext g j
    refine if_congr Iff.rfl rfl rfl |>.trans (ite_congr rfl (fun hg => ?_) fun _ => rfl)
    exact Chip.rg_wg_other _ _ _ _ _ _ fun e => by rw [e, hg] at hf; exact Bool.noConfusion hf
  exact congrArg (fun r => (r, c.pw, c.mout)) hregs

/-- Of the units below, with `n` instances. -/
theorem Chip.pwrView_wg_below (c : Chip) {f : Fld} {i : Nat} (n : Nat) (hf : f.lsb < 32 ∧ f.reg + f.stride * n < 0x130000)
    (hi : i < n) (v : Nat) : (c.wg f i v).pwrView = c.pwrView := by
  have hstep : f.stride * i ≤ f.stride * n := Nat.mul_le_mul_left _ hi.le
  exact c.pwrView_wg (decide_eq_false fun h => by rw [Fld.key] at h; omega) v

/-- Of the health unit, above. -/
theorem Chip.pwrView_wg_above (c : Chip) {f : Fld} {i : Nat} (hf : 0x140000 ≤ f.reg) (v : Nat) : (c.wg f i v).pwrView = c.pwrView :=
  c.pwrView_wg (decide_eq_false fun h => by rw [Fld.key] at h; omega) v

/-- What watching an operation adds is CHIP_EVT's. -/
theorem Chip.watch_pwrView (c : Chip) (f : Chip → Chip) : (c.watch f).pwrView = (f c).pwrView := by
  have hregion (d : Chip) : (d.wg R.CHIP_EVT_REGION_CHG 0 1).pwrView = d.pwrView := d.pwrView_wg (by decide) 1
  have hblock (d : Chip) : (d.wg R.CHIP_EVT_BLOCK_CHG 0 1).pwrView = d.pwrView := d.pwrView_wg (by decide) 1
  obtain e | e | e | e := c.watch_eq f <;> simp only [e, hregion, hblock]

/-! ## Local ports -/

section
variable {p : Nat} (hp : p < 128)
include hp

theorem Chip.pwrView_wg_port (c : Chip) {f : Fld} (hf : f.lsb < 32 ∧ f.reg < 0xC0400 ∧ f.stride = 0x400) (v : Nat) :
    (c.wg f p v).pwrView = c.pwrView := by
  obtain ⟨hlsb, hreg, hstride⟩ := hf
  exact c.pwrView_wg_below 128 ⟨hlsb, by rw [hstride]; omega⟩ hp v

theorem Chip.setLink_pwrView (c : Chip) (st : Nat) : (c.setLink p st).pwrView = c.pwrView :=
  read_ite Chip.pwrView rfl ((Chip.pwrView_wg_port hp _ (by decide) 1).trans (c.pwrView_wg_port hp (by decide) st))

theorem Chip.portEval_pwrView (c : Chip) : (c.portEval p).pwrView = c.pwrView :=
  read_ite Chip.pwrView (c.setLink_pwrView hp 4) (read_ite Chip.pwrView (c.setLink_pwrView hp 1) rfl)

theorem Chip.portDown_pwrView (c : Chip) : (c.portDown p).pwrView = c.pwrView := by
  have hlose : (c.loseTx p).pwrView = c.pwrView := read_ite Chip.pwrView rfl rfl
  have hdown := (Chip.pwrView_wg_port hp (((c.loseTx p).setLink p 0).inc C.PRT_LINK_DOWN p |>.wg R.PRT_STAT_RX_IDLE p 0)
    (f := R.PRT_STAT_RF) (by decide) 0).trans ((Chip.pwrView_wg_port hp _ (f := R.PRT_STAT_RX_IDLE) (by decide) 0).trans
      ((Chip.setLink_pwrView hp (c.loseTx p) 0).trans hlose))
  unfold Chip.portDown
  dsimp only
  exact read_ite Chip.pwrView rfl (read_ite Chip.pwrView hdown hdown)

end

theorem Chip.portsEval_pwrView (c : Chip) : c.portsEval.pwrView = c.pwrView :=
  foldl_keeps_of_mem _ Chip.pwrView _ (fun _ hp d => d.portEval_pwrView (List.mem_range.mp hp)) c

theorem Chip.portsDown_pwrView (c : Chip) {ps : List Nat} (hps : ∀ p ∈ ps, p < 128) : (c.portsDown ps).pwrView = c.pwrView :=
  foldl_keeps_of_mem _ Chip.pwrView _ (fun p hp d => d.portDown_pwrView (hps p hp)) c

theorem Chip.excludeBlk_pwrView (c : Chip) (b : Nat) : (c.excludeBlk b).pwrView = c.pwrView := by
  unfold Chip.excludeBlk
  dsimp only
  exact Chip.portsDown_pwrView _ fun _ hp => List.mem_range.mp (List.mem_filter.mp hp).1

/-! ## Cells out of service -/

theorem Chip.dropRole_pwrView (c : Chip) (b old : Nat) : (c.dropRole b old).pwrView = c.pwrView := by
  unfold Chip.dropRole
  split
  · refine forN_keeps 4 _ Chip.pwrView ?_ c
    exact fun _ _ => read_ite Chip.pwrView rfl rfl
  · refine forN_keeps 2 _ Chip.pwrView ?_ c
    exact fun _ _ => read_ite Chip.pwrView rfl rfl
  · refine forN_keeps 3 _ Chip.pwrView ?_ c
    exact fun _ _ => read_ite Chip.pwrView rfl rfl

theorem Chip.slotPort_lt {c : Chip} {b sl p : Nat} (h : c.slotPort b sl = some p) : p < 128 := List.mem_range.mp (List.mem_of_find?_eq_some h)

theorem Chip.outOfService_pwrView (c : Chip) (b k : Nat) : (c.outOfService b k).pwrView = c.pwrView := by
  have hdrop := c.dropRole_pwrView b k
  unfold Chip.outOfService
  split
  · refine (foldl_keeps _ Chip.pwrView (fun d sl => ?_) _ _).trans hdrop
    cases hslot : d.slotPort b sl with
    | none => rfl
    | some p => exact d.portDown_pwrView (Chip.slotPort_lt hslot)
  · exact hdrop
  · exact hdrop

theorem Chip.retireCell_pwrView (c : Chip) (b k : Nat) : (c.retireCell b k).pwrView = c.pwrView :=
  read_ite Chip.pwrView ((Chip.excludeBlk_pwrView _ b).trans (c.outOfService_pwrView b k)) (c.outOfService_pwrView b k)

/-! ## Sample cells -/

section
variable {x : Nat} (hx : x < 96)
include hx

theorem Chip.pwrView_wg_smp (c : Chip) {f : Fld} (hf : f.lsb < 32 ∧ f.reg < 0x80400 ∧ f.stride = 0x400) (v : Nat) :
    (c.wg f x v).pwrView = c.pwrView := by
  obtain ⟨hlsb, hreg, hstride⟩ := hf
  exact c.pwrView_wg_below 96 ⟨hlsb, by rw [hstride]; omega⟩ hx v

theorem Chip.smpStart_pwrView (c : Chip) (took : Bool) : (c.smpStart x took).pwrView = c.pwrView := by
  have hcell (d : Chip) (k : SmpCell) : (d.setCell x k).pwrView = d.pwrView := rfl
  simp (disch := decide) only [Chip.smpStart, Chip.smpState, Chip.pwrView_wg_smp hx, hcell, apply_ite Chip.pwrView, ite_self]

theorem Chip.smpChange_pwrView (c : Chip) : (c.smpChange x).pwrView = c.pwrView :=
  read_ite Chip.pwrView (c.pwrView_wg_smp hx (by decide) 0)
    (read_ite Chip.pwrView (c.smpStart_pwrView hx false) (c.pwrView_wg_smp hx (by decide) _))

end

/-! ## Trunk engines -/

theorem Chip.monEval_pwrView (c : Chip) {m : Nat} (hm : m < 1024) : (c.monEval m).pwrView = c.pwrView := by
  have hwrite (d : Chip) {f : Fld} (hf : f.lsb < 32 ∧ f.reg + f.stride * 1024 < 0x130000) (v : Nat) := d.pwrView_wg_below 1024 hf hm v
  simp (disch := decide) only [Chip.monEval, Chip.monSet, hwrite, apply_ite Chip.pwrView, ite_self]

theorem Chip.apsTrack_pwrView (c : Chip) : c.apsTrack.pwrView = c.pwrView := by
  have hreq (v : Nat) : (c.wg R.TRK_SIDE_STAT_REQ 0 v).pwrView = c.pwrView := c.pwrView_wg (by decide) v
  refine read_ite Chip.pwrView (read_ite Chip.pwrView rfl rfl) ?_
  dsimp only
  split
  · exact hreq _
  · rfl

theorem Chip.mons_lt {c : Chip} {m : Nat} (hm : m ∈ c.mons) : m < 1024 := by
  obtain ⟨e, he, rfl⟩ := List.mem_map.mp hm
  have hbound := of_decide_eq_true (List.mem_filter.mp he).2
  obtain ⟨_, _, hlow, hhigh, _⟩ := hbound
  exact Nat.div_lt_of_lt_mul (by omega)

theorem Chip.setDefect_pwrView (c : Chip) {k : Nat} (hk : k < 16) (d : Nat) (on : Bool) : (c.setDefect k d on).pwrView = c.pwrView := by
  have hchg (e : Chip) (v : Nat) : (e.wg R.TRK_DS_EVT_CHG k v).pwrView = e.pwrView := e.pwrView_wg_below 16 (by decide) hk v
  have hdefect (v : Nat) : (c.wg (defectFld d) k v).pwrView = c.pwrView := by
    refine c.pwrView_wg_below 16 ?_ hk v
    unfold defectFld
    split <;> decide
  refine read_ite Chip.pwrView rfl ?_
  exact (Chip.apsTrack_pwrView _).trans ((foldl_keeps_of_mem _ Chip.pwrView _ (fun m hm e => e.monEval_pwrView (Chip.mons_lt hm)) _).trans
    ((hchg _ _).trans (hdefect _)))

theorem Chip.setFstate_pwrView (c : Chip) {k : Nat} (hk : k < 16) (st : Nat) : (c.setFstate k st).pwrView = c.pwrView :=
  (Chip.setDefect_pwrView _ hk 1 _).trans (c.pwrView_wg_below 16 (by decide) hk st)

theorem Chip.engineSwap_pwrView (c : Chip) {k : Nat} (hk : k < 16) : (c.engineSwap k).pwrView = c.pwrView := by
  have hspare (d : Chip) : (d.wg R.HLT_SPARE_CHIP_TRK_ENG 0 0).pwrView = d.pwrView := d.pwrView_wg_above (by decide) 0
  unfold Chip.engineSwap
  dsimp only
  refine (Chip.setFstate_pwrView _ hk 0).trans ?_
  split
  · exact hspare _
  · rfl

/-! ## Records of errors of the chip (R32 to R36) -/

theorem Chip.chipUnitAct_pwrView (c : Chip) (e : Err) : (c.chipUnitAct e).pwrView = c.pwrView := by
  unfold Chip.chipUnitAct
  refine read_ite Chip.pwrView ?_ (read_ite Chip.pwrView rfl (read_ite Chip.pwrView (c.excludeBlk_pwrView _)
    (read_ite Chip.pwrView (c.retireCell_pwrView _ _) (read_ite Chip.pwrView ?_ rfl))))
  · dsimp only
    exact Chip.portsDown_pwrView _ fun _ hp => List.mem_range.mp (List.mem_filter.mp hp).1
  · cases hwave : c.waveOf e.detail with
    | none => rfl
    | some k => exact read_ite Chip.pwrView (c.engineSwap_pwrView (List.mem_range.mp (List.mem_of_find?_eq_some hwave))) rfl

theorem Chip.putFirst_pwrView (c : Chip) (i : Nat) (e : Err) (st act : Nat) : (c.putFirst i e st act).pwrView = c.pwrView := by
  simp (disch := decide) only [Chip.putFirst, Chip.pwrView_wg_above]

theorem Chip.chipHandle_pwrView (c : Chip) (latest : Bool) (e : Err) : (c.chipHandle latest e).pwrView = c.pwrView := by
  simp (disch := decide) only [Chip.chipHandle, Chip.errNew, Chip.pwrView_wg_above, apply_ite Chip.pwrView, ite_self, Chip.chipUnitAct_pwrView]

theorem Chip.chipResolve_pwrView (c : Chip) : c.chipResolve.pwrView = c.pwrView := by
  simp (disch := decide) only [Chip.chipResolve, Chip.errNew, Chip.pwrView_wg_above, Chip.putFirst_pwrView, Chip.chipHandle_pwrView,
    apply_ite Chip.pwrView, ite_self]

theorem Chip.chipRecovered_pwrView (c : Chip) (code src : Nat) : (c.chipRecovered code src).pwrView = c.pwrView :=
  read_ite Chip.pwrView c.chipResolve_pwrView (read_ite Chip.pwrView (c.pwrView_wg_above (by decide) 3) rfl)

end Sys2Proof.Machine
end

section
/-! PROOFS. Wake sets and wake pins (14_power_and_health.md R416 to R418): what a set of one domain issues, what a pin's level and its filter
leave, and when an event asks for a reset. -/

namespace Sys2Proof.Machine

open Sys2Proof Sys2Proof.Safety

/-- A bit of a field, once it is put, reads as put. -/
theorem Chip.wbit_same (c : Chip) {f : Fld} (i : Nat) {k : Nat} (hk : k < f.width) (b : Bool) : (c.wbit f i k b).rbit f i k = b := by
  rw [Chip.rbit, Chip.wbit, Chip.rg_wg_same, bit, Nat.testBit_mod_two_pow, decide_eq_true hk, Bool.true_and]
  cases b with
  | true => exact bit_setBit ..
  | false => exact bit_clrBit ..

/-- Watching nothing adds nothing. -/
theorem Chip.watch_same {c : Chip} {f : Chip → Chip} (h : f c = c) : c.watch f = c := by
  have hregions : (List.range 4).any (fun n => decide (c.regionState n ≠ c.regionState n)) = false := by simp
  unfold Chip.watch
  rw [h]
  dsimp only
  rw [hregions]
  exact if_neg fun hne => hne rfl

/-! ## Wake pins (R417) -/

/-- The chip with the level of pin `i` seen, and the instant it rose. -/
def Chip.pinUp (c : Chip) (i : Nat) : Chip := { (c.wbit R.PWR_WAKE_STAT_LEVEL 0 i true) with pw.pinOn := c.pw.pinOn.set i c.now }

/-- The chip with the instant of pin `i`'s last event noted. -/
def Chip.pinSeen (c : Chip) (i : Nat) : Chip := { c with pw.pinAt := c.pw.pinAt.set i c.now }

/-- A level shorter than the filter passes does nothing. -/
theorem wakePin_short {c : Chip} {i width : Nat} (h : width < c.rg R.PWR_WAKE_CFG_MINW i) : wakePin i width c = c := if_pos (.inl h)

/-- The first event of a pin is accepted. -/
theorem wakePin_first {c : Chip} {i width : Nat} (hwidth : c.rg R.PWR_WAKE_CFG_MINW i ≤ width) (hlevel : c.rbit R.PWR_WAKE_STAT_LEVEL 0 i = false)
    (hmask : c.rbit R.PWR_WAKE_STAT_MASKED 0 i = false) (hfirst : c.pw.pinAt.find i = none) :
    wakePin i width c = (c.pinUp i).pinEvent i := by
  have hfirst' : (c.wbit R.PWR_WAKE_STAT_LEVEL 0 i true).pw.pinAt.find i = none := hfirst
  unfold wakePin
  simp only [Nat.not_lt.mpr hwidth, hlevel, hmask, Bool.false_eq_true, or_self, if_false]
  rw [← Chip.pinUp, hfirst']

theorem Chip.pinEvent_disabled {c : Chip} {i : Nat} (h : c.rg R.PWR_WAKE_CFG_EN i = 0) : c.pinEvent i = c.pinSeen i :=
  if_pos (decide_eq_false (by rw [Chip.rg_mk, h]; decide))

/-- An event with RESTART after EVENTIDE asks for a warm reset. -/
theorem Chip.pinEvent_restart {c : Chip} {i : Nat} (hen : c.rg R.PWR_WAKE_CFG_EN i = 1) (hrestart : c.rg R.PWR_WAKE_CFG_RESTART i = 1)
    (hcomplete : c.rg R.PWR_STAT_COMPLETE 0 = 1) : c.pinEvent i = { c.pinSeen i with hp.resetAt := some c.now, el.byWake := true } := by
  have hen' : (c.pinSeen i).rb R.PWR_WAKE_CFG_EN i = true := decide_eq_true hen
  have hasks : (c.pinSeen i).rb R.PWR_WAKE_CFG_RESTART i = true ∧ (c.pinSeen i).rb R.PWR_STAT_COMPLETE 0 = true :=
    ⟨decide_eq_true hrestart, decide_eq_true hcomplete⟩
  refine (if_neg ?_).trans (if_pos hasks)
  exact fun h => Bool.noConfusion (hen'.symm.trans h)

/-- A pin's level leaves every other field. -/
theorem Chip.pinUp_rg {c : Chip} {i : Nat} {g : Fld} {j : Nat} (hg : R.PWR_WAKE_STAT_LEVEL.key 0 ≠ g.key j) :
    (c.pinUp i).rg g j = c.rg g j := Chip.rg_wg_other c _ _ _ _ _ hg

theorem Chip.pinUp_en {c : Chip} {i : Nat} (hi : i < 4) : (c.pinUp i).rg R.PWR_WAKE_CFG_EN i = c.rg R.PWR_WAKE_CFG_EN i :=
  Chip.pinUp_rg (by simp only [Fld.key, R.PWR_WAKE_STAT_LEVEL, R.PWR_WAKE_CFG_EN]; omega)

/-! ## Wake sets (R416) -/

/-- A member of a wake set goes on, in a fold over the domains. -/
def wakeMember (a : Chip × WakeSet) (d : Nat) : Chip × WakeSet :=
  have c := a.1
  have w := a.2
  have ps := (domParents d).filter (fun e => bit w.mask e)
  if bit w.mask d = false then a
  else if c.wakeLost w d then (c, { w with lost := setBit w.lost d })
  else if bit w.issued d then a
  else
    match ps.find? (fun e => c.wakeLost w e) with
    | some e => (c.domRefused d 4 e, { w with lost := setBit w.lost d })
    | none =>
      if ps.all (fun e => c.domOn e) then
        have c := c.domReq d 2 true
        have w := { w with issued := setBit w.issued d }
        (c, if c.wakeLost w d then { w with lost := setBit w.lost d } else w)
      else a

theorem Chip.wakeOne_eq (c : Chip) (w : WakeSet) : c.wakeOne w = (List.range 17).foldl wakeMember (c, w) := rfl

theorem wakeMember_outside {a : Chip × WakeSet} {d : Nat} (h : bit a.2.mask d = false) : wakeMember a d = a := if_pos h

/-- The wake set that a write of bit 6 starts, and the same with its member issued. -/
def wake6 : WakeSet := { mask := 64, issued := 0, lost := 0 }
def wake6Issued : WakeSet := { mask := 64, issued := 64, lost := 0 }

/-- A fold over domains of which none is a member leaves the set. -/
theorem wakeMembers_outside {c : Chip} {w : WakeSet} :
    ∀ {l : List Nat}, (∀ d ∈ l, bit w.mask d = false) → l.foldl wakeMember (c, w) = (c, w)
  | [], _ => rfl
  | d :: l, h => by
    rw [List.foldl_cons, wakeMember_outside (a := (c, w)) (h d List.mem_cons_self)]
    exact wakeMembers_outside fun e he => h e (List.mem_cons_of_mem _ he)

/-- A request of domain 6 for ON, begun. -/
def Chip.domUp (c : Chip) (d : Nat) : Chip :=
  ((({ c with pw.dom := c.pw.dom.set d { step := 1, target := 2, src := c.pstate d, at_ := c.now, latched := false } } : Chip).wg
    R.PWR_DOM_STAT_BUSY d 1).wg R.PWR_DOM_STAT_IN_FLIGHT d 2).wg R.PWR_DOM_STAT_ATTEMPT d 0

/-- A request begun leaves the state of the domain, and sets BUSY and IN_FLIGHT. -/
theorem Chip.domUp_pstate (c : Chip) (d : Nat) : (c.domUp d).rg R.PWR_DOM_STAT_PSTATE d = c.rg R.PWR_DOM_STAT_PSTATE d := by
  refine (Chip.rg_wg_other _ _ _ _ _ _ (Fld.key_ne_of_apart (by decide))).trans ?_
  refine (Chip.rg_wg_other _ _ _ _ _ _ (Fld.key_ne_of_apart (by decide))).trans ?_
  exact Chip.rg_wg_other _ _ _ _ _ _ (Fld.key_ne_of_apart (by decide))

theorem Chip.domUp_busy (c : Chip) (d : Nat) : (c.domUp d).rg R.PWR_DOM_STAT_BUSY d = 1 := by
  refine (Chip.rg_wg_other _ _ _ _ _ _ (Fld.key_ne_of_apart (by decide))).trans ?_
  refine (Chip.rg_wg_other _ _ _ _ _ _ (Fld.key_ne_of_apart (by decide))).trans ?_
  exact Chip.rg_wg_same ..

theorem Chip.domUp_inFlight (c : Chip) (d : Nat) : (c.domUp d).rg R.PWR_DOM_STAT_IN_FLIGHT d = 2 := by
  refine (Chip.rg_wg_other _ _ _ _ _ _ (Fld.key_ne_of_apart (by decide))).trans ?_
  exact Chip.rg_wg_same ..

/-- A domain that is OFF with every parent ON begins its way to ON (R410). -/
theorem Chip.domReq_up {c : Chip} {d : Nat} (hoff : c.rg R.PWR_DOM_STAT_PSTATE d = 0) (hidle : c.pw.dom.find d = none)
    (hparents : (domParents d).all (fun e => c.domOn e) = true) (wake : Bool) : c.domReq d 2 wake = c.domUp d := by
  have hon : ∀ e ∈ domParents d, c.domOn e = true := List.all_eq_true.mp hparents
  have hfailed : (domParents d).find? (fun e => decide (c.pstate e = 3)) = none := List.find?_eq_none.mpr fun e he h => by
    have hstate := hon e he
    rw [Chip.domOn, Bool.and_eq_true] at hstate
    have h2 : c.pstate e = 2 := of_decide_eq_true hstate.1
    have h3 : c.pstate e = 3 := of_decide_eq_true h
    omega
  have hdown : (domParents d).find? (fun e => !c.domOn e) = none := List.find?_eq_none.mpr fun e he => by simp [hon e he]
  have hstate : c.pstate d = 0 := hoff
  have hrefuser : c.refuser d 2 = none := by
    unfold Chip.refuser
    dsimp only
    rw [hstate, hfailed, hdown]
    rfl
  rw [Chip.domReq, hidle]
  dsimp only
  rw [Chip.domStart, hstate, hrefuser, Chip.domUp, hstate]
  rfl

/-- The wake set of domain 6 issues its request and waits for it. -/
theorem Chip.wakeOne_six {c : Chip} (hoff : c.rg R.PWR_DOM_STAT_PSTATE 6 = 0) (hidle : c.pw.dom.find 6 = none)
    (hparents : (domParents 6).all (fun e => c.domOn e) = true) : c.wakeOne wake6 = (c.domUp 6, wake6Issued) := by
  have hin : (c.domUp 6).pw.dom.find 6 = some { step := 1, target := 2, src := c.pstate 6, at_ := c.now, latched := false } :=
    Tab.find_set_same ..
  have hmember : wakeMember (c, wake6) 6 = (c.domUp 6, wake6Issued) := by
    have hkept : (c.domUp 6).wakeLost wake6Issued 6 = false := by
      rw [Chip.wakeLost, hin]
      simp [wake6Issued, bit]
    have hnew : c.wakeLost wake6 6 = false := rfl
    have hset : ({ wake6 with issued := setBit wake6.issued 6 } : WakeSet) = wake6Issued := by decide
    have hnone : (domParents 6).filter (fun e => bit wake6.mask e) = [] := by decide
    have hbit : bit wake6.mask 6 = true := by decide
    have hissued : bit wake6.issued 6 = false := by decide
    simp only [wakeMember, hbit, hnew, hissued, hnone, List.find?_nil, List.all_nil, Chip.domReq_up hoff hidle hparents, hset, hkept,
      Bool.true_eq_false, Bool.false_eq_true, if_false, if_true]
  have hrange : List.range 17 = [0, 1, 2, 3, 4, 5] ++ 6 :: [7, 8, 9, 10, 11, 12, 13, 14, 15, 16] := by decide
  have hbefore : [0, 1, 2, 3, 4, 5].foldl wakeMember (c, wake6) = (c, wake6) := wakeMembers_outside (by decide)
  rw [Chip.wakeOne_eq, hrange, List.foldl_append, hbefore, List.foldl_cons, hmember]
  exact wakeMembers_outside (by decide)

/-- The chip with these wake sets. -/
def Chip.wakesNow (c : Chip) (l : List WakeSet) : Chip := { c with pw.wakes := l }

/-- A wake set of domain 6 alone, where no other waits and no load is prepared. -/
theorem Chip.wakeStart_six {c : Chip} (hwakes : c.pw.wakes = []) (hload : c.alm.load.prep = none) (hoff : c.rg R.PWR_DOM_STAT_PSTATE 6 = 0)
    (hidle : c.pw.dom.find 6 = none) (hparents : (domParents 6).all (fun e => c.domOn e) = true) :
    c.wakeStart 64 = (((c.wakesNow []).domUp 6).wakesNow [wake6Issued]).portsEval := by
  have hone : (c.wakesNow []).wakeOne wake6 = ((c.wakesNow []).domUp 6, wake6Issued) := Chip.wakeOne_six hoff hidle hparents
  have hwait : ((c.wakesNow []).domUp 6).wakeOver wake6Issued = false := by
    have hstate : ((c.wakesNow []).domUp 6).rg R.PWR_DOM_STAT_PSTATE 6 = 0 := ((c.wakesNow []).domUp_pstate 6).trans hoff
    have hoff' : ((c.wakesNow []).domUp 6).domOn 6 = false := by rw [Chip.domOn, hstate]; rfl
    exact List.all_eq_false.mpr ⟨6, by decide, by rw [hoff']; decide⟩
  have hrun : (c.wakesNow [wake6]).wakeRun = ((c.wakesNow []).domUp 6).wakesNow [wake6Issued] := by
    have hfold : (c.wakesNow [wake6]).wakeRun = (have r := (c.wakesNow []).wakeOne wake6
      if r.1.wakeOver r.2 then r.1 else { r.1 with pw.wakes := r.1.pw.wakes ++ [r.2] }) := rfl
    rw [hfold, hone]
    exact if_neg (by rw [hwait]; decide)
  have hprep : (((c.wakesNow []).domUp 6).wakesNow [wake6Issued]).alm.load.prep = none := hload
  have hstart : c.wakeStart 64 = (c.wakesNow [wake6]).domNext := by
    rw [Chip.wakeStart, if_neg (by decide), hwakes]
    rfl
  rw [hstart, Chip.domNext, hrun, Chip.loaderPower, hprep]

/-- The same as the host's write, as far as the power unit goes. -/
theorem wakeSet_six_view {c : Chip} (hwakes : c.pw.wakes = []) (hload : c.alm.load.prep = none) (hoff : c.rg R.PWR_DOM_STAT_PSTATE 6 = 0)
    (hidle : c.pw.dom.find 6 = none) (hparents : (domParents 6).all (fun e => c.domOn e) = true) :
    ∃ e, wakeSet 64 c = (e, stOk) ∧ e.pwrView = (((c.wakesNow []).domUp 6).wakesNow [wake6Issued]).pwrView := by
  have hbits : bits 64 0 17 = 64 := by decide
  refine ⟨c.watch (fun c => c.wakeStart 64), by rw [wakeSet, hbits], ?_⟩
  rw [Chip.watch_pwrView, Chip.wakeStart_six hwakes hload hoff hidle hparents, Chip.portsEval_pwrView]

end Sys2Proof.Machine

namespace Sys2Proof.Safety

open Sys2Proof Sys2Proof.Machine

/-- A host write that is answered with the status of its work, whatever the domains. -/
theorem on_answered {s : State} {t st : Nat} {f : Chip → Chip × Nat} {e : Chip} (hs : ready s) (hf : f (chipAt s t) = (e, st)) :
    s.on t (fun _ c => c.answered f) = .next (s.after (e.emit .answer 0 [st] [])) := by
  rw [State.on_running _ _ _ hs.1, Chip.answered, hf]

/-- WAKE_SET of no domain (R416). -/
theorem wakeSet_none (t : Nat) (s : State) (hs : ready s) :
    ∃ u, exec (.wakeSet t 0) s = .next u ∧ answered u stOk ∧ kept s u [] := by
  have hrow : wakeSet 0 (chipAt s t) = (chipAt s t, stOk) := congrArg (·, stOk) (Chip.watch_same rfl)
  exact ⟨_, on_answered hs hrow, rfl, kept_after hs rfl rfl rfl rfl⟩

/-- WAKE_SET of domain 6 (R416). -/
theorem wakeSet_six (t : Nat) (s : State) (hs : ready s) (hwakes : s.chip.pw.wakes = []) (hload : s.chip.alm.load.prep = none)
    (hoff : s.chip.rg R.PWR_DOM_STAT_PSTATE 6 = 0) (hidle : s.chip.pw.dom.find 6 = none)
    (hparents : (domParents 6).all (fun e => s.chip.domOn e) = true) :
    ∃ u, exec (.wakeSet t 64) s = .next u ∧ answered u stOk ∧ u.chip.rg R.PWR_DOM_STAT_BUSY 6 = 1 ∧
      u.chip.rg R.PWR_DOM_STAT_IN_FLIGHT 6 = 2 ∧ u.chip.pw.wakes.map (fun w => (w.mask, w.issued, w.lost)) = [(64, 64, 0)] ∧
      u.mem = s.mem := by
  obtain ⟨e, hrow, hview⟩ := wakeSet_six_view (c := chipAt s t) hwakes hload hoff hidle hparents
  have hnext : exec (.wakeSet t 64) s = .next (s.after (e.emit .answer 0 [stOk] [])) := on_answered hs hrow
  refine ⟨_, hnext, rfl, ?_, ?_, ?_, mem_answered hs ((Chip.mout_of_pwrView hview).trans rfl) stOk⟩
  · exact (rg_answered ..).trans ((Chip.rg_of_pwrView hview (by decide)).trans (Chip.domUp_busy _ 6))
  · exact (rg_answered ..).trans ((Chip.rg_of_pwrView hview (by decide)).trans (Chip.domUp_inFlight _ 6))
  · exact congrArg (fun p : PowSt => p.wakes.map (fun w => (w.mask, w.issued, w.lost))) (Chip.pw_of_pwrView hview)

/-- WAKE_PIN of a pin that is not enabled (R417). -/
theorem wakePin_disabled (t : Nat) (i : Fin 4) (width : Nat) (s : State) (hs : ready s) (hwidth : s.chip.rg R.PWR_WAKE_CFG_MINW i ≤ width)
    (hlevel : s.chip.rbit R.PWR_WAKE_STAT_LEVEL 0 i = false) (hmask : s.chip.rbit R.PWR_WAKE_STAT_MASKED 0 i = false)
    (hfirst : s.chip.pw.pinAt.find i = none) (hen : s.chip.rg R.PWR_WAKE_CFG_EN i = 0) :
    ∃ u, exec (.wakePin t i width) s = .next u ∧ u.chip.rbit R.PWR_WAKE_STAT_LEVEL 0 i = true ∧
      u.chip.pw.pinOn.find i = some (max s.chip.now t) ∧ u.chip.pw.pinAt.find i = some (max s.chip.now t) ∧
      kept s u [R.PWR_WAKE_STAT_LEVEL.key 0] := by
  have hrow := (wakePin_first (c := chipAt s t) hwidth hlevel hmask hfirst).trans
    (Chip.pinEvent_disabled ((Chip.pinUp_en (c := chipAt s t) i.isLt).trans hen))
  have hnext : exec (.wakePin t i width) s = .next (s.after (wakePin i width (chipAt s t))) :=
    State.on_running s t (fun _ => wakePin i width) hs.1
  rw [hrow] at hnext
  refine ⟨_, hnext, ?_, Tab.find_set_same .., Tab.find_set_same .., kept_after_one hs (fun g j hg => Chip.pinUp_rg hg.symm) rfl rfl rfl⟩
  exact Chip.wbit_same (chipAt s t) 0 (f := R.PWR_WAKE_STAT_LEVEL) i.isLt true

/-- WAKE_PIN with RESTART while EVENTIDE is complete (R418). -/
theorem wakePin_restarts (t : Nat) (i : Fin 4) (width : Nat) (s : State) (hs : ready s) (hwidth : s.chip.rg R.PWR_WAKE_CFG_MINW i ≤ width)
    (hlevel : s.chip.rbit R.PWR_WAKE_STAT_LEVEL 0 i = false) (hmask : s.chip.rbit R.PWR_WAKE_STAT_MASKED 0 i = false)
    (hfirst : s.chip.pw.pinAt.find i = none) (hen : s.chip.rg R.PWR_WAKE_CFG_EN i = 1) (hrestart : s.chip.rg R.PWR_WAKE_CFG_RESTART i = 1)
    (hcomplete : s.chip.rg R.PWR_STAT_COMPLETE 0 = 1) :
    ∃ u, exec (.wakePin t i width) s = .next u ∧ u.chip.rbit R.PWR_WAKE_STAT_LEVEL 0 i = true ∧
      u.chip.hp.resetAt = some (max s.chip.now t) ∧ u.chip.el.byWake = true ∧ kept s u [R.PWR_WAKE_STAT_LEVEL.key 0] := by
  have hrow := (wakePin_first (c := chipAt s t) hwidth hlevel hmask hfirst).trans
    (Chip.pinEvent_restart ((Chip.pinUp_en (c := chipAt s t) i.isLt).trans hen)
      ((Chip.pinUp_rg (Fld.key_ne_of_apart (by decide))).trans hrestart) ((Chip.pinUp_rg (Fld.key_ne_of_apart (by decide))).trans hcomplete))
  have hnext : exec (.wakePin t i width) s = .next (s.after (wakePin i width (chipAt s t))) :=
    State.on_running s t (fun _ => wakePin i width) hs.1
  rw [hrow] at hnext
  refine ⟨_, hnext, ?_, rfl, rfl, kept_after_one hs (fun g j hg => Chip.pinUp_rg hg.symm) rfl rfl rfl⟩
  exact Chip.wbit_same (chipAt s t) 0 (f := R.PWR_WAKE_STAT_LEVEL) i.isLt true

/-- WAKE_PIN shorter than MINW (R417). -/
theorem wakePin_filtered (t : Nat) (i : Fin 4) (width : Nat) (s : State) (hs : ready s) (hwidth : width < s.chip.rg R.PWR_WAKE_CFG_MINW i) :
    ∃ u, exec (.wakePin t i width) s = .next u ∧ u.chip.pw = s.chip.pw ∧ kept s u [] := by
  have hnext : exec (.wakePin t i width) s = .next (s.after (wakePin i width (chipAt s t))) :=
    State.on_running s t (fun _ => wakePin i width) hs.1
  rw [wakePin_short (c := chipAt s t) hwidth] at hnext
  exact ⟨_, hnext, rfl, kept_after hs rfl rfl rfl rfl⟩

/-- WAKE_PIN_STUCK (R417). -/
theorem wakePinStuck_masks (t : Nat) (i : Fin 4) (s : State) (hs : ready s) (hlevel : s.chip.rbit R.PWR_WAKE_STAT_LEVEL 0 i = true)
    (hlate : Tab.get 0 s.chip.pw.pinOn i + s.chip.rg R.PWR_WAKE_CFG_STUCK i * secPs ≤ max s.chip.now t) :
    ∃ u, exec (.wakePinStuck t i) s = .next u ∧ u.chip.rbit R.PWR_WAKE_STAT_MASKED 0 i = true ∧ u.chip.rg R.PWR_EVT_WAKE_STUCK 0 = 1 ∧
      kept s u [R.PWR_WAKE_STAT_MASKED.key 0, R.PWR_EVT_WAKE_STUCK.key 0] := by
  have hrow : wakePinStuck i (chipAt s t) = ((chipAt s t).wbit R.PWR_WAKE_STAT_MASKED 0 i true).wg R.PWR_EVT_WAKE_STUCK 0 1 :=
    if_pos ⟨hlevel, hlate⟩
  have hnext : exec (.wakePinStuck t i) s = .next (s.after (wakePinStuck i (chipAt s t))) :=
    State.on_running s t (fun _ => wakePinStuck i) hs.1
  rw [hrow] at hnext
  refine ⟨_, hnext, ?_, (rg_after ..).trans (Chip.rg_wg_same ..), kept_after_but hs (fun g j hg => ?_) rfl rfl rfl⟩
  · rw [Chip.rbit, rg_after, Chip.rg_wg_other _ _ _ _ _ _ (by decide)]
    exact Chip.wbit_same (chipAt s t) 0 (f := R.PWR_WAKE_STAT_MASKED) i.isLt true
  · exact (Chip.rg_wg_listed hg _ (by decide) 1).trans (Chip.rg_wg_listed hg _ (by decide) _)

/-- WAKE_PIN_INACTIVE (R417). -/
theorem wakePinInactive_clears (t : Nat) (i : Fin 4) (s : State) (hs : ready s) :
    ∃ u, exec (.wakePinInactive t i) s = .next u ∧ u.chip.rbit R.PWR_WAKE_STAT_LEVEL 0 i = false ∧
      u.chip.rbit R.PWR_WAKE_STAT_MASKED 0 i = false ∧ u.chip.pw.pinOn.find i = none ∧
      kept s u [R.PWR_WAKE_STAT_LEVEL.key 0, R.PWR_WAKE_STAT_MASKED.key 0] := by
  have hnext : exec (.wakePinInactive t i) s = .next (s.after (wakePinInactive i (chipAt s t))) :=
    State.on_running s t (fun _ => wakePinInactive i) hs.1
  refine ⟨_, hnext, ?_, ?_, Tab.find_erase_same .., kept_after_but hs (fun g j hg => ?_) rfl rfl rfl⟩
  · rw [Chip.rbit, rg_after, wakePinInactive, Chip.rg_mk, Chip.wbit, Chip.rg_wg_other _ _ _ _ _ _ (by decide)]
    exact Chip.wbit_same (chipAt s t) 0 (f := R.PWR_WAKE_STAT_LEVEL) i.isLt false
  · rw [Chip.rbit, rg_after, wakePinInactive, Chip.rg_mk]
    exact Chip.wbit_same _ 0 (f := R.PWR_WAKE_STAT_MASKED) i.isLt false
  · rw [wakePinInactive, Chip.rg_mk]
    exact (Chip.rg_wg_listed hg _ (by decide) _).trans (Chip.rg_wg_listed hg _ (by decide) _)

end Sys2Proof.Safety
end

section
/-! PROOFS. Islands (14_power_and_health.md R415): what ISLAND_HOLD and ISLAND_RETRY leave of the HOLD bits and of an island's state. -/

namespace Sys2Proof.Machine

open Sys2Proof Sys2Proof.Safety

/-- What counting a residency up to now leaves (R426). -/
theorem Chip.residency_keeps (c : Chip) :
    c.residency.regs = c.regs ∧ c.residency.mout = c.mout ∧ c.residency.pw.islTry = c.pw.islTry := by
  obtain ⟨fresh, cnt, at_, h⟩ := c.residency_recounted
  rw [h]
  exact ⟨rfl, rfl, rfl⟩

theorem Chip.rg_residency (c : Chip) (g : Fld) (j : Nat) : c.residency.rg g j = c.rg g j := Chip.rg_of_regs_eq c.residency_keeps.1 g j

theorem Chip.setIsland_mout (c : Chip) (i st : Nat) : (c.setIsland i st).mout = c.mout :=
  read_ite Chip.mout rfl (read_ite Chip.mout c.residency_keeps.2.1 c.residency_keeps.2.1)

/-- The state of a port island, and of a sample island. -/
theorem Chip.setIsland_port (c : Chip) {i st : Nat} (hi : i < 64) (hst : st < 4) (hport : i % 2 = 0) :
    (c.setIsland i st).rg R.PWR_ISL_HOLD_P_STATE (i / 2) = st := by
  rw [Chip.setIsland, if_neg (by omega), if_pos hport, Chip.rg_wg_same]
  exact Nat.mod_eq_of_lt hst

theorem Chip.setIsland_sample (c : Chip) {i st : Nat} (hi : i < 64) (hst : st < 4) (hport : i % 2 ≠ 0) :
    (c.setIsland i st).rg R.PWR_ISL_HOLD_S_STATE (i / 2) = st := by
  rw [Chip.setIsland, if_neg (by omega), if_neg hport, Chip.rg_wg_same]
  exact Nat.mod_eq_of_lt hst

/-- Every field that is not an island's state keeps its value. -/
theorem Chip.setIsland_rg (c : Chip) (i st : Nat) {g : Fld} {j : Nat} (hp : R.PWR_ISL_HOLD_P_STATE.key (i / 2) ≠ g.key j)
    (hs : R.PWR_ISL_HOLD_S_STATE.key (i / 2) ≠ g.key j) : (c.setIsland i st).rg g j = c.rg g j :=
  read_ite (fun d : Chip => d.rg g j) rfl (read_ite (fun d : Chip => d.rg g j)
    ((Chip.rg_wg_other _ _ _ _ _ _ hp).trans (c.rg_residency g j)) ((Chip.rg_wg_other _ _ _ _ _ _ hs).trans (c.rg_residency g j)))

/-! ## The HOLD bits -/

/-- The HOLD bits of block `b`, and the changes of the memories that wait. -/
def Chip.holdView (c : Chip) (b : Nat) : Nat × Nat × List MemOp :=
  (c.rg R.PWR_ISL_HOLD_HOLD_P b, c.rg R.PWR_ISL_HOLD_HOLD_S b, c.mout)

theorem Chip.holdView_of_pwrView {c d : Chip} (h : c.pwrView = d.pwrView) {b : Nat} (hb : b < 32) : c.holdView b = d.holdView b := by
  have hkey {f : Fld} (hf : f.reg = 0x130400 ∧ f.stride = 4 ∧ f.lsb < 32) : pwrKey (f.key b) = true := by
    obtain ⟨hreg, hstride, hlsb⟩ := hf
    exact decide_eq_true (by rw [Fld.key, hreg, hstride]; omega)
  rw [Chip.holdView, Chip.holdView, Chip.rg_of_pwrView h (hkey (by decide)), Chip.rg_of_pwrView h (hkey (by decide)),
    Chip.mout_of_pwrView h]

theorem Chip.setIsland_holdView (c : Chip) (i st b : Nat) : (c.setIsland i st).holdView b = c.holdView b := by
  rw [Chip.holdView, Chip.setIsland_rg _ _ _ (Fld.key_ne_of_apart (by decide)) (Fld.key_ne_of_apart (by decide)),
    Chip.setIsland_rg _ _ _ (Fld.key_ne_of_apart (by decide)) (Fld.key_ne_of_apart (by decide)), Chip.setIsland_mout, Chip.holdView]

/-! ## An island comes ON -/

/-- The chip with island `i` in a state, and no longer waiting to be tried again. -/
def Chip.islandSet (c : Chip) (i st : Nat) : Chip :=
  { (c.setIsland i st) with pw.islTry := c.pw.islTry.erase i, pw.islAt := c.pw.islAt.erase i }

theorem Chip.islandUp_pwrView (c : Chip) {i : Nat} (hi : i < 64) : (c.islandUp i).pwrView = (c.islandSet i 2).pwrView := by
  refine read_ite Chip.pwrView rfl ?_
  exact foldl_keeps_of_mem _ Chip.pwrView _ (fun j hj d => d.smpChange_pwrView (by have := List.mem_range.mp hj; omega)) (c.islandSet i 2)

/-- The chip with a HOLD bit written. -/
def Chip.holdPut (c : Chip) (i : Nat) (v : Bool) : Chip :=
  if i % 2 = 0 then c.wb R.PWR_ISL_HOLD_HOLD_P (i / 2) v else c.wb R.PWR_ISL_HOLD_HOLD_S (i / 2) v

/-- What follows a HOLD bit leaves both bits. -/
theorem Chip.holdSet_holdView (c : Chip) {i : Nat} (hi : i < 64) (v : Bool) {b : Nat} (hb : b < 32) :
    (c.holdSet i v).holdView b = (c.holdPut i v).holdView b := by
  have hset (d : Chip) (st : Nat) : (d.islandSet i st).holdView b = d.holdView b := d.setIsland_holdView i st b
  have hup (d : Chip) : (d.islandUp i).holdView b = d.holdView b := (Chip.holdView_of_pwrView (d.islandUp_pwrView hi) hb).trans (hset d 2)
  unfold Chip.holdSet
  dsimp only
  refine read_ite (fun d : Chip => d.holdView b) rfl (read_ite (fun d : Chip => d.holdView b) ?_
    (read_ite (fun d : Chip => d.holdView b) (hup _) rfl))
  refine read_ite (fun d : Chip => d.holdView b) (hset _ 0) ?_
  refine (forN_keeps 3 _ (fun d : Chip => d.holdView b) ?_ _).trans (hset _ 0)
  exact fun _ _ => rfl

/-- A bit, in a field of one bit or more. -/
theorem b2n_bit_mod_two_pow (v i w : Nat) : b2n (bit v i) % 2 ^ (w + 1) = bits v i 1 := by
  rw [bits_one, Nat.mod_eq_of_lt]
  have h1 : b2n (bit v i) < 2 := by cases bit v i <;> decide
  exact h1.trans_le (Nat.le_self_pow (Nat.succ_ne_zero w) 2)

/-- Both HOLD bits of a block, once both are set. -/
theorem Chip.holdSets_holdView (c : Chip) {b : Nat} (hb : b < 32) (v : Nat) :
    ((c.holdSet (2 * b) (bit v 0)).holdSet (2 * b + 1) (bit v 1)).holdView b = (bits v 0 1, bits v 1 1, c.mout) := by
  have hport := c.holdSet_holdView (i := 2 * b) (by omega) (bit v 0) hb
  have hsample := (c.holdSet (2 * b) (bit v 0)).holdSet_holdView (i := 2 * b + 1) (by omega) (bit v 1) hb
  have hputPort : c.holdPut (2 * b) (bit v 0) = c.wb R.PWR_ISL_HOLD_HOLD_P b (bit v 0) := by
    rw [Chip.holdPut, if_pos (by omega), Nat.mul_div_cancel_left b Nat.two_pos]
  have hputSample (d : Chip) : d.holdPut (2 * b + 1) (bit v 1) = d.wb R.PWR_ISL_HOLD_HOLD_S b (bit v 1) := by
    have hhalf : (2 * b + 1) / 2 = b := by omega
    rw [Chip.holdPut, if_neg (by omega), hhalf]
  rw [hputPort] at hport
  rw [hputSample] at hsample
  have hm : (c.holdSet (2 * b) (bit v 0)).mout = c.mout := congrArg (·.2.2) hport
  have hp : (c.holdSet (2 * b) (bit v 0)).rg R.PWR_ISL_HOLD_HOLD_P b = (c.wb R.PWR_ISL_HOLD_HOLD_P b (bit v 0)).rg R.PWR_ISL_HOLD_HOLD_P b :=
    congrArg (·.1) hport
  rw [hsample, Chip.holdView, Chip.wb, Chip.rg_wg_same, Chip.rg_wg_other _ _ _ _ _ _ (Fld.key_ne_of_apart (by decide)), hp, Chip.wb,
    Chip.rg_wg_same]
  exact Prod.ext (b2n_bit_mod_two_pow v 0 0) (Prod.ext (b2n_bit_mod_two_pow v 1 0) hm)

/-- ISLAND_HOLD where neither island has an enabled unit. -/
theorem islandHold_holdView {c : Chip} {b : Nat} (hb : b < 32) (hp : c.islandUnit b false = none) (hs : c.islandUnit b true = none) (v : Nat) :
    ∃ e, islandHold b v c = (e, stOk) ∧ e.holdView b = (bits v 0 1, bits v 1 1, c.mout) := by
  refine ⟨(c.watch (fun c => (c.holdSet (2 * b) (bit v 0)).holdSet (2 * b + 1) (bit v 1))).portsEval, ?_, ?_⟩
  · simp only [islandHold, hp, hs, ite_self]
  · exact (Chip.holdView_of_pwrView ((Chip.portsEval_pwrView _).trans (Chip.watch_pwrView _ _)) hb).trans (c.holdSets_holdView hb v)

/-- ISLAND_HOLD of a port island with an enabled unit is refused. -/
theorem islandHold_refused {c : Chip} {b v unit : Nat} (hv : bit v 0 = true) (hfree : c.rg R.PWR_ISL_HOLD_HOLD_P b = 0)
    (hunit : c.islandUnit b false = some unit) : islandHold b v c = (c.domRefused (9 + b / 8) 6 unit, stRefused) := by
  have hasks : (bit v 0 && !c.rb R.PWR_ISL_HOLD_HOLD_P b) = true := by rw [hv, Chip.rb, hfree]; rfl
  simp only [islandHold, hasks, hunit, if_true]

/-- What a refusal records (R413). -/
theorem Chip.domRefused_refuser (c : Chip) (d unit : Nat) {code : Nat} (hcode : code < 16) :
    (c.domRefused d code unit).rg R.PWR_DOM_REFUSE_REFUSER d = code := by
  rw [Chip.domRefused, Chip.rg_wg_other _ _ _ _ _ _ (Fld.key_ne_of_apart (by decide)), Chip.inc, Chip.rg_incBy,
    Chip.rg_wg_other _ _ _ _ _ _ (Fld.key_ne_of_apart (by decide)), Chip.rg_wg_same]
  exact Nat.mod_eq_of_lt hcode

theorem Chip.domRefused_unit (c : Chip) (d code : Nat) {unit : Nat} (hunit : unit < 65536) :
    (c.domRefused d code unit).rg R.PWR_DOM_REFUSE_REF_UNIT d = unit := by
  rw [Chip.domRefused, Chip.rg_wg_other _ _ _ _ _ _ (Fld.key_ne_of_apart (by decide)), Chip.inc, Chip.rg_incBy, Chip.rg_wg_same]
  exact Nat.mod_eq_of_lt hunit

theorem Chip.domRefused_hold (c : Chip) (d code unit : Nat) {b : Nat} (hd : d < 17) :
    (c.domRefused d code unit).rg R.PWR_ISL_HOLD_HOLD_P b = c.rg R.PWR_ISL_HOLD_HOLD_P b := by
  have hplace : R.PWR_DOM_REFUSE_REFUSER.key d ≠ R.PWR_ISL_HOLD_HOLD_P.key b := by
    simp only [Fld.key, R.PWR_DOM_REFUSE_REFUSER, R.PWR_ISL_HOLD_HOLD_P]
    omega
  rw [Chip.domRefused, Chip.rg_wg_other _ _ _ _ _ _ (Fld.key_ne_of_apart (by decide)), Chip.inc, Chip.rg_incBy,
    Chip.rg_wg_other _ _ _ _ _ _ (Fld.key_ne_of_apart (by decide)), Chip.rg_wg_other _ _ _ _ _ _ hplace]

/-! ## An island is tried again -/

/-- ISLAND_RETRY of an island that waits for nothing does nothing. -/
theorem islandRetry_idle {c : Chip} {i : Nat} (h : Tab.get 0 c.pw.islTry i = 0) (ok : Bool) : islandRetry i ok c = c := if_pos (.inl h)

/-- ISLAND_RETRY past its delay, while the domain is ON: the island comes ON. -/
theorem islandRetry_pwrView {c : Chip} {i : Nat} (hi : i < 64) (htry : 1 ≤ Tab.get 0 c.pw.islTry i) (hon : c.domOn (islandDom i) = true)
    (hlate : Tab.get 0 c.pw.islAt i + c.retryDly (islandDom i) * 2 ^ (Tab.get 0 c.pw.islTry i - 1) * msPs ≤ c.now) :
    (islandRetry i true c).pwrView = (c.islandSet i 2).pwrView := by
  have hgoes : ¬(Tab.get 0 c.pw.islTry i = 0 ∨ c.domOn (islandDom i) = false ∨
      c.now < Tab.get 0 c.pw.islAt i + c.retryDly (islandDom i) * 2 ^ (Tab.get 0 c.pw.islTry i - 1) * msPs) := by
    rw [hon]
    rintro (h | h | h)
    · omega
    · exact Bool.noConfusion h
    · omega
  have hrow : islandRetry i true c = ((c.watch (fun c => c.islandUp i)).chipRecovered 0x12 (16 * 512 + islandDom i)).portsEval :=
    (if_neg hgoes).trans (if_pos rfl)
  rw [hrow, Chip.portsEval_pwrView, Chip.chipRecovered_pwrView, Chip.watch_pwrView, c.islandUp_pwrView hi]

end Sys2Proof.Machine

namespace Sys2Proof.Safety

open Sys2Proof Sys2Proof.Machine

/-- ISLAND_HOLD with no enabled unit (R415). -/
theorem islandHold_holds (t : Nat) (b : Fin 32) (v : Nat) (s : State) (hs : ready s) (hp : s.chip.islandUnit b false = none)
    (hq : s.chip.islandUnit b true = none) :
    ∃ u, exec (.islandHold t b v) s = .next u ∧ answered u stOk ∧ u.chip.rg R.PWR_ISL_HOLD_HOLD_P b = bits v 0 1 ∧
      u.chip.rg R.PWR_ISL_HOLD_HOLD_S b = bits v 1 1 ∧ u.mem = s.mem := by
  obtain ⟨e, hrow, hview⟩ := islandHold_holdView (c := chipAt s t) b.isLt hp hq v
  have hnext : exec (.islandHold t b v) s = .next (s.after (e.emit .answer 0 [stOk] [])) := on_answered hs hrow
  exact ⟨_, hnext, rfl, (rg_answered ..).trans (congrArg (·.1) hview), (rg_answered ..).trans (congrArg (·.2.1) hview),
    mem_answered hs (congrArg (·.2.2) hview) stOk⟩

/-- ISLAND_HOLD of a port island with an enabled unit (R413, R415). -/
theorem islandHold_refuses (t : Nat) (b : Fin 32) (v unit : Nat) (s : State) (hs : ready s) (hv : bit v 0 = true)
    (hfree : s.chip.rg R.PWR_ISL_HOLD_HOLD_P b = 0) (hunit : s.chip.islandUnit b false = some unit) (hlow : unit < 65536) :
    ∃ u, exec (.islandHold t b v) s = .next u ∧ answered u stRefused ∧ u.chip.rg R.PWR_DOM_REFUSE_REFUSER (9 + b / 8) = 6 ∧
      u.chip.rg R.PWR_DOM_REFUSE_REF_UNIT (9 + b / 8) = unit ∧ u.chip.rg R.PWR_ISL_HOLD_HOLD_P b = 0 ∧
      u.chip.rg R.PWR_EVT_REFUSED 0 = 1 ∧ u.mem = s.mem := by
  have hnext : exec (.islandHold t b v) s = .next (s.after (((chipAt s t).domRefused (9 + b / 8) 6 unit).emit .answer 0 [stRefused] [])) :=
    on_answered hs (islandHold_refused (c := chipAt s t) hv hfree hunit)
  refine ⟨_, hnext, rfl, (rg_answered ..).trans (Chip.domRefused_refuser _ _ _ (by decide)),
    (rg_answered ..).trans (Chip.domRefused_unit _ _ _ hlow), ?_, (rg_answered ..).trans (Chip.rg_wg_same ..), mem_answered hs rfl stRefused⟩
  have hb := b.isLt
  exact (rg_answered ..).trans ((Chip.domRefused_hold _ _ _ _ (by omega)).trans hfree)

/-- ISLAND_RETRY of an island that waits for nothing (R415). -/
theorem islandRetry_keeps (t : Nat) (i : Fin 81) (ok : Bool) (s : State) (hs : ready s) (htry : Tab.get 0 s.chip.pw.islTry i = 0) :
    ∃ u, exec (.islandRetry t i ok) s = .next u ∧ u.chip.pw = s.chip.pw ∧ kept s u [] := by
  have hnext : exec (.islandRetry t i ok) s = .next (s.after (islandRetry i ok (chipAt s t))) :=
    State.on_running s t (fun _ => islandRetry i ok) hs.1
  rw [islandRetry_idle (c := chipAt s t) htry] at hnext
  exact ⟨_, hnext, rfl, kept_after hs rfl rfl rfl rfl⟩

/-- ISLAND_RETRY past its delay (R415). -/
theorem islandRetry_succeeds (t : Nat) (i : Fin 81) (s : State) (hs : ready s) (htry : 1 ≤ Tab.get 0 s.chip.pw.islTry i) (hi : i.val < 64)
    (hon : s.chip.domOn (islandDom i) = true)
    (hlate : Tab.get 0 s.chip.pw.islAt i + s.chip.retryDly (islandDom i) * 2 ^ (Tab.get 0 s.chip.pw.islTry i - 1) * msPs ≤ max s.chip.now t) :
    ∃ u, exec (.islandRetry t i true) s = .next u ∧
      (if i.val % 2 = 0 then u.chip.rg R.PWR_ISL_HOLD_P_STATE (i / 2) = 2 else u.chip.rg R.PWR_ISL_HOLD_S_STATE (i / 2) = 2) ∧
      u.chip.pw.islTry.find i = none ∧ u.mem = s.mem := by
  have hview := islandRetry_pwrView (c := chipAt s t) hi htry hon hlate
  have hnext : exec (.islandRetry t i true) s = .next (s.after (islandRetry i true (chipAt s t))) :=
    State.on_running s t (fun _ => islandRetry i true) hs.1
  generalize islandRetry i true (chipAt s t) = e at hview hnext
  have hkey {f : Fld} (hf : f.reg = 0x130400 ∧ f.stride = 4 ∧ f.lsb < 32) : pwrKey (f.key (i.val / 2)) = true := by
    obtain ⟨hreg, hstride, hlsb⟩ := hf
    exact decide_eq_true (by rw [Fld.key, hreg, hstride]; omega)
  refine ⟨_, hnext, ?_, ?_, mem_after hs ((Chip.mout_of_pwrView hview).trans (Chip.setIsland_mout ..))⟩
  · split
    next hport =>
      exact (rg_after ..).trans ((Chip.rg_of_pwrView hview (hkey (by decide))).trans (Chip.setIsland_port _ hi (by decide) hport))
    next hport =>
      exact (rg_after ..).trans ((Chip.rg_of_pwrView hview (hkey (by decide))).trans (Chip.setIsland_sample _ hi (by decide) hport))
  · exact (congrArg (fun p : PowSt => p.islTry.find i.val) (Chip.pw_of_pwrView hview)).trans (Tab.find_erase_same ..)

/-- Settles O41, command by command: beside the islands and requests that a command names, nothing that it moves (ports that may train, sample
cells that start, records that resolve) reaches a register of the power unit. -/
theorem wakeAndIslandCommands : Obligations.WakeAndIslandCommands :=
  ⟨fun t s hs _ => wakeSet_none t s hs, wakeSet_six, wakePin_disabled, wakePin_restarts, wakePin_filtered, wakePinStuck_masks,
    fun t i s hs _ => wakePinInactive_clears t i s hs, islandHold_holds, islandHold_refuses, islandRetry_keeps, islandRetry_succeeds⟩

end Sys2Proof.Safety
end

section
/-! PROOFS. Frames on the host port that are no requests (11_host_control_and_dma.md R328 to R336): a frame leaves at once where nothing holds
it, a set-up message goes to its row, and a session slot is freed. -/

namespace Sys2Proof.Machine

open Sys2Proof Sys2Proof.Safety

/-! ## A frame leaves (R319) -/

theorem Chip.hostSend_clear {c : Chip} (hclear : c.hostClear = true) (hempty : c.hp.txWait = []) (o : Output) : c.hostSend o = c.hostOut o :=
  if_pos ⟨hclear, hempty⟩

/-- A session whose last SEQ has gone up by one. -/
def Sess.sentOne (x : Sess) : Sess := { x with txSeq := x.txSeq + 1 }

/-- A protected frame leaves at once. -/
theorem Chip.zcpSend_clear {c : Chip} (hclear : c.hostClear = true) (hempty : c.hp.txWait = []) (s typ flags tag st index detail : Nat)
    (body : List Byte) : c.zcpSend s typ flags tag st index detail body =
      (c.setSess s (c.sess s).sentOne).hostOut (c.zcpOutput s typ flags tag st index detail body) :=
  Chip.hostSend_clear (c := c.setSess s (c.sess s).sentOne) hclear hempty _

/-- The REJECT that goes to an address. -/
def Chip.rejection (c : Chip) (da s : Nat) (body : List Byte) : Output :=
  { kind := .zcpClear, unit := s, data := [0x83], bytes := zcpPad (c.zcpHead da 0 s 0 16 ++ zcpMessage 0x83 0 0 0 0 0 body) }

theorem Chip.zcpReject_clear {c : Chip} (hclear : c.hostClear = true) (hempty : c.hp.txWait = []) (da s : Nat) {reason : Nat} {body : List Byte}
    (hbody : beBytes 1 reason ++ zeros 3 = body) : c.zcpReject da s reason = c.hostOut (c.rejection da s body) := by
  have hlen : (zcpMessage 0x83 0 0 0 0 0 body).length = 16 := by simp [zcpMessage, zeros, ← hbody]
  rw [Chip.zcpReject, Chip.zcpClear, Chip.hostSend_clear hclear hempty, hbody, hlen, Chip.rejection]

/-- What a frame that leaves changes: counters, and what has left. -/
theorem Chip.hostOut_rg (c : Chip) (o : Output) (g : Fld) (j : Nat) : (c.hostOut o).rg g j = c.rg g j := rfl

theorem Chip.hostOut_sess (c : Chip) (o : Output) (k : Nat) : (c.hostOut o).sess k = c.sess k := rfl

theorem Chip.hostOut_mout (c : Chip) (o : Output) : (c.hostOut o).mout = c.mout := rfl

theorem Chip.hostOut_out (c : Chip) (o : Output) : (c.hostOut o).out = o :: c.out := rfl

/-! ## A frame arrives (R319, R328) -/

/-- A frame for ZCP is counted. -/
def Chip.hostCounted (c : Chip) (l : List Byte) : Chip := (c.inc C.HST_RX_FRAMES 0).incBy C.HST_RX_BYTES 0 (l.length + 4)

section
variable {c : Chip} {l : List Byte} (hclear : c.hostClear = true) (hmin : 60 ≤ l.length) (hmax : l.length ≤ 16380) (htype : beAt l 12 2 = 0x88B5)
include hclear hmin hmax htype

/-- A frame of a good length with ZCP's type goes to ZCP. -/
theorem Chip.hostRx_clear : c.hostRx l = (c.hostCounted l, true) := by
  simp only [Chip.hostClear, Bool.and_eq_true, decide_eq_true_eq] at hclear
  obtain ⟨⟨hdom, hlink⟩, -⟩ := hclear
  have hshort : ¬ (l.length < 60 ∨ 16380 < l.length) := by omega
  simp [Chip.hostRx, Chip.zcpAlive, hdom, hlink, hshort, htype, Chip.hostCounted]

/-- A clear frame with a set-up message goes to the row of that message. -/
theorem setupRow_clear {typ : Nat} (hform : zcpForm 0 l = true) (htyp : (zcpClearMsg l).typ = typ) (f : ZcpMsg → Chip → Chip) :
    setupRow typ l f c = f (zcpClearMsg l) (c.hostCounted l) := by
  have hprot : ¬ zcpForm 1 l = true := fun h => Bool.noConfusion ((zcpForm_zero_of_one h).symm.trans hform)
  simp only [setupRow, hprot, hform, htyp, Chip.hostRx_clear hclear hmin hmax htype, ne_eq, not_true_eq_false, false_and, and_false, or_self,
    Bool.true_eq_false, Bool.false_eq_true, if_false]

/-- A protected frame that opens and whose SEQ is new is accepted (R330). -/
theorem Chip.zcpAccept_fresh {q : ZcpMsg} (hopens : c.zcpOpens l = some q) (hfresh : (c.sess (zcpSess l)).fresh (zcpSeq l) = true) :
    c.zcpAccept l = ((c.zcpCounted l).setSess (zcpSess l) ((c.sess (zcpSess l)).noted (zcpSeq l) c.now), some q) := by
  obtain ⟨hform, hopen⟩ := Chip.sessOpen_of_zcpOpens hopens
  have hopen' : (c.hostCounted l).sessOpen (zcpSess l) = true := hopen
  have hopens' : (c.hostCounted l).zcpOpens l = some q := hopens
  have hfresh' : ((c.hostCounted l).sess (zcpSess l)).fresh (zcpSeq l) = true := hfresh
  simp only [Chip.zcpAccept, Chip.hostRx_clear hclear hmin hmax htype, hform, hopen', hopens', hfresh', Bool.true_eq_false, or_self, if_false,
    if_true]
  rfl

end

/-! ## A slot is freed (R336) -/

theorem Chip.sessFree_state (c : Chip) (s : Nat) : (c.sessFree s).rg R.HST_SESS_STAT_STATE s = 0 := by
  rw [Chip.sessFree, Chip.rg_wg_other _ _ _ _ _ _ (Fld.key_ne_of_apart (by decide)),
    Chip.rg_wg_other _ _ _ _ _ _ (Fld.key_ne_of_apart (by decide)), Chip.rg_wg_same]
  rfl

theorem Chip.sessFree_rg (c : Chip) (s : Nat) {g : Fld} {j : Nat}
    (hg : g.key j ∉ [R.HST_SESS_STAT_STATE.key s, R.HST_SESS_STAT_ROLE.key s, R.HST_SESS_STAT_OUTSTANDING.key s]) :
    (c.sessFree s).rg g j = c.rg g j :=
  (Chip.rg_wg_listed hg _ (by simp) 0).trans ((Chip.rg_wg_listed hg _ (by simp) 0).trans (Chip.rg_wg_listed hg _ (by simp) 0))

theorem Chip.sessFree_sess (c : Chip) (s : Nat) : (c.sessFree s).sess s = Sess.reset := Chip.sess_setSess c s Sess.reset

/-! ## A session ends (R336) -/

theorem Chip.srcEvent_out (c : Chip) (n : Nat) : (c.srcEvent n).out = c.out := read_ite Chip.out rfl rfl

theorem Chip.dmaStop_out (c : Chip) (ch : Nat) : (c.dmaStop ch).out = c.out := by
  unfold Chip.dmaStop
  cases c.hp.dma.find ch with
  | none => exact read_ite Chip.out rfl rfl
  | some r =>
    refine read_ite Chip.out rfl ?_
    exact read_ite Chip.out (Chip.srcEvent_out ..) rfl

theorem Chip.sessEnded_out (c : Chip) (s cause : Nat) : (c.sessEnded s cause).out = c.out := by
  have hstops : (forN 64 (fun ch (d : Chip) => if d.rg R.DMA_CH_CFG_OWNER ch = s + 1 then d.dmaStop ch else d) c).out = c.out := by
    refine forN_keeps 64 _ Chip.out ?_ c
    exact fun ch d => read_ite Chip.out (d.dmaStop_out ch) rfl
  unfold Chip.sessEnded
  dsimp only
  generalize forN 64 _ c = d at hstops ⊢
  exact hstops

theorem Chip.sessEnded_slot (c : Chip) (s : Nat) {cause : Nat} (hcause : cause < 2 ^ R.HST_SESS_STAT_CLOSE_CAUSE.width) :
    (c.sessEnded s cause).rg R.HST_SESS_STAT_STATE s = 0 ∧ (c.sessEnded s cause).rg R.HST_SESS_STAT_CLOSE_CAUSE s = cause ∧
      (c.sessEnded s cause).sess s = Sess.reset := by
  unfold Chip.sessEnded
  dsimp only
  generalize forN 64 _ c = d
  refine ⟨?_, ?_, Chip.sessFree_sess _ s⟩
  · exact (Chip.rg_wg_other _ _ _ _ _ _ (Fld.key_ne_of_apart (by decide))).trans (Chip.sessFree_state _ s)
  · exact (Chip.rg_wg_same ..).trans (Nat.mod_eq_of_lt hcause)

/-- An OPEN session closes: its slot is free with the cause, and nothing is sent. -/
theorem Chip.sessClose_slot {c : Chip} {s : Nat} (hopen : c.rg R.HST_SESS_STAT_STATE s = 2) {cause : Nat}
    (hcause : cause < 2 ^ R.HST_SESS_STAT_CLOSE_CAUSE.width) :
    ((c.sessClose s cause).rg R.HST_SESS_STAT_STATE s = 0 ∧ (c.sessClose s cause).rg R.HST_SESS_STAT_CLOSE_CAUSE s = cause ∧
      (c.sessClose s cause).sess s = Sess.reset) ∧ (c.sessClose s cause).out = c.out := by
  have habort := c.txnAbortAll_underWay 8 false (fun x => decide (x.owner = s) && decide (x.origin ≠ .swap))
  rw [Chip.sessClose_open hopen]
  exact ⟨Chip.sessEnded_slot _ s hcause, (Chip.sessEnded_out _ s cause).trans (congrArg (·.2.2) habort)⟩

end Sys2Proof.Machine

namespace Sys2Proof.Safety

open Sys2Proof Sys2Proof.Machine

/-- What a state reads after a frame has left the host port. -/
theorem rg_sentAfter (s : State) (c : Chip) (o : Output) (g : Fld) (j : Nat) : (s.after (c.hostOut o)).chip.rg g j = c.rg g j := by
  rw [rg_after, Chip.hostOut_rg]

theorem sess_sentAfter (s : State) (c : Chip) (o : Output) (k : Nat) : (s.after (c.hostOut o)).chip.sess k = c.sess k := by
  rw [State.after_chip, Chip.sess_done, Chip.hostOut_sess]

theorem newest_sentAfter (s : State) (c : Chip) (o : Output) : newest (s.after (c.hostOut o)) = some o := by
  rw [newest, State.after_chip, Chip.done_out, Chip.hostOut_out, List.head?_cons]

end Sys2Proof.Safety
end

section
/-! PROOFS. ZCP sessions (11_host_control_and_dma.md R332 to R336, R344): set-up, the time-outs, and the requests that keep, close and reset. -/

namespace Sys2Proof.Machine

open Sys2Proof Sys2Proof.Safety

/-! ## The registers of a session slot are not those of the port (R319) -/

/-- Whether a frame may leave at once, and from which address. -/
def Chip.hostView (c : Chip) : Bool × List Output × Nat := (c.hostClear, c.hp.txWait, c.hostMac)

theorem Chip.macBase_wg (c : Chip) (f : Fld) (i v : Nat) : (c.wg f i v).macBase = c.macBase := rfl

/-- A field of a session slot. -/
def sessField (f : Fld) : Bool := decide (0xE0440 ≤ f.reg ∧ f.reg < 0xE0460 ∧ f.stride = 0x20 ∧ f.lsb < 32)

theorem Chip.hostView_wg_sess (c : Chip) {f : Fld} (hf : sessField f = true) {s : Nat} (hs : s < 4) (v : Nat) :
    (c.wg f s v).hostView = c.hostView := by
  obtain ⟨hlow, hhigh, hstride, hlsb⟩ := of_decide_eq_true hf
  have hplace : 32 * 0xE0440 ≤ f.key s ∧ f.key s < 32 * 0xE04E0 := by rw [Fld.key, hstride]; omega
  have hlo : f.key s ≠ R.HST_MAC_LO_MAC.key 0 := fun e => absurd hplace (by rw [e]; decide)
  have hhi : f.key s ≠ R.HST_MAC_HI_MAC.key 0 := fun e => absurd hplace (by rw [e]; decide)
  have hlink : f.key s ≠ R.HST_STAT_LINK.key 0 := fun e => absurd hplace (by rw [e]; decide)
  have hdom : f.key s ≠ R.PWR_DOM_STAT_PSTATE.key 5 := fun e => absurd hplace (by rw [e]; decide)
  have hclear : (c.wg f s v).hostClear = c.hostClear := by
    simp only [Chip.hostClear, Chip.domOn, Chip.rg_wg_other _ _ _ _ _ _ hlink, Chip.rg_wg_other _ _ _ _ _ _ hdom]
    rfl
  have hmac : (c.wg f s v).hostMac = c.hostMac := by
    rw [Chip.hostMac, Chip.hostMac, Chip.macOf, Chip.macOf, Chip.macBase_wg]
    exact congrArg₂ (fun a b => a + b * 2 ^ 32) (Tab.get_set_other _ _ _ _ _ hlo) (Tab.get_set_other _ _ _ _ _ hhi)
  rw [Chip.hostView, Chip.hostView, hclear, hmac]
  rfl

theorem Chip.hostView_eq_iff {c d : Chip} :
    c.hostView = d.hostView ↔ c.hostClear = d.hostClear ∧ c.hp.txWait = d.hp.txWait ∧ c.hostMac = d.hostMac := by
  simp only [Chip.hostView, Prod.mk.injEq]

theorem Chip.sessFree_hostView (c : Chip) {s : Nat} (hs : s < 4) : (c.sessFree s).hostView = c.hostView :=
  (Chip.hostView_wg_sess _ (by decide) hs 0).trans ((Chip.hostView_wg_sess _ (by decide) hs 0).trans
    (Chip.hostView_wg_sess (c.setSess s Sess.reset) (by decide) hs 0))

/-! ## OPEN (R334) -/

/-- An OPEN with a well-formed body, of a key with a role, while a slot is free. -/
theorem Chip.zcpOpenMsg_accepts {c : Chip} {body : List Byte} {k : Nat} {role : Nat × Nat} (hsess : c.noSessions = false)
    (hopens : c.hp.opens = []) (hlen : body.length = 4192)
    (hslot : (List.range 4).find? (fun s => decide (c.rg R.HST_SESS_STAT_STATE s = 0)) = some k)
    (hrole : c.roleFor (body.take 2592) = some role) (da : Nat) :
    c.zcpOpenMsg da body = ({ c.inc C.ZCP_RX_MSG 0 with hp.opens := [c.now] } : Chip).zcpAcceptOpen da k body role := by
  have hslot' : (List.range 4).find? (fun s => decide (({ c.inc C.ZCP_RX_MSG 0 with hp.opens := [c.now] } : Chip).rg R.HST_SESS_STAT_STATE s = 0))
      = some k := hslot
  have hrole' : ({ c.inc C.ZCP_RX_MSG 0 with hp.opens := [c.now] } : Chip).roleFor (body.take 2592) = some role := hrole
  have hfew : ¬ (c.noSessions = true ∨ 8 ≤ ([] : List Nat).length) := by rw [hsess]; decide
  unfold Chip.zcpOpenMsg
  simp only [hopens, List.filter_nil, hfew, hlen, ne_eq, not_true_eq_false, if_false, hslot', hrole']

/-- A slot becomes HALF_OPEN, with a role. -/
def Chip.halfOpened (c : Chip) (s : Nat) (x : Sess) (role : Nat) : Chip :=
  ((((c.setSess s x).wg R.HST_SESS_STAT_STATE s 1).wg R.HST_SESS_STAT_ROLE s role).wg R.HST_SESS_CFG_EVT_SUB s 1).wg R.HST_SESS_CFG_SP_SUB s 0

theorem Chip.halfOpened_reads (c : Chip) (s : Nat) (x : Sess) (role : Nat) :
    (c.halfOpened s x role).rg R.HST_SESS_STAT_STATE s = 1 ∧
      (c.halfOpened s x role).rg R.HST_SESS_STAT_ROLE s = role % 2 ^ R.HST_SESS_STAT_ROLE.width ∧
      (c.halfOpened s x role).rg R.HST_SESS_CFG_EVT_SUB s = 1 ∧ (c.halfOpened s x role).rg R.HST_SESS_CFG_SP_SUB s = 0 := by
  unfold Chip.halfOpened
  refine ⟨?_, ?_, ?_, Chip.rg_wg_same ..⟩
  · rw [Chip.rg_wg_other _ _ _ _ _ _ (Fld.key_ne_of_place s (by decide)), Chip.rg_wg_other _ _ _ _ _ _ (Fld.key_ne_of_place s (by decide)),
      Chip.rg_wg_other _ _ _ _ _ _ (Fld.key_ne_of_place s (by decide)), Chip.rg_wg_same]
    rfl
  · rw [Chip.rg_wg_other _ _ _ _ _ _ (Fld.key_ne_of_place s (by decide)), Chip.rg_wg_other _ _ _ _ _ _ (Fld.key_ne_of_place s (by decide)),
      Chip.rg_wg_same]
  · rw [Chip.rg_wg_other _ _ _ _ _ _ (Fld.key_ne_of_place s (by decide)), Chip.rg_wg_same]
    rfl

theorem Chip.halfOpened_rg (c : Chip) (s : Nat) (x : Sess) (role : Nat) {g : Fld} {j : Nat}
    (hg : g.key j ∉ [R.HST_SESS_STAT_STATE.key s, R.HST_SESS_STAT_ROLE.key s, R.HST_SESS_CFG_EVT_SUB.key s, R.HST_SESS_CFG_SP_SUB.key s]) :
    (c.halfOpened s x role).rg g j = c.rg g j :=
  (Chip.rg_wg_listed hg _ (by simp) 0).trans ((Chip.rg_wg_listed hg _ (by simp) 1).trans ((Chip.rg_wg_listed hg _ (by simp) _).trans
    (Chip.rg_wg_listed hg _ (by simp) 1)))

theorem Chip.halfOpened_hostView (c : Chip) {s : Nat} (hs : s < 4) (x : Sess) (role : Nat) :
    (c.halfOpened s x role).hostView = c.hostView :=
  (Chip.hostView_wg_sess _ (by decide) hs 0).trans ((Chip.hostView_wg_sess _ (by decide) hs 1).trans
    ((Chip.hostView_wg_sess _ (by decide) hs _).trans (Chip.hostView_wg_sess (c.setSess s x) (by decide) hs 1)))

/-- An ACCEPT makes the slot HALF_OPEN for the peer, with its key and its rights, and says so. -/
theorem Chip.zcpAcceptOpen_eq (c : Chip) (da s : Nat) (body : List Byte) (role : Nat × Nat) :
    ∃ x msg, c.zcpAcceptOpen da s body role = (c.draw.2.draw.2.halfOpened s x role.1).zcpClear da s 0x81 msg ∧
      x.rights = role.2 ∧ x.hostKey = body.take 2592 ∧ x.peer = da := ⟨_, _, rfl, rfl, rfl, rfl⟩

/-- A clear frame leaves at once. -/
theorem Chip.zcpClear_clear {c : Chip} (hclear : c.hostClear = true) (hempty : c.hp.txWait = []) (da s typ : Nat) (body : List Byte) :
    ∃ bytes, c.zcpClear da s typ body = c.hostOut { kind := .zcpClear, unit := s, data := [typ], bytes := bytes } :=
  ⟨_, Chip.hostSend_clear hclear hempty _⟩

/-- An ACCEPT leaves at once. -/
theorem Chip.zcpAcceptOpen_clear {c : Chip} {s : Nat} (hs : s < 4) (hclear : c.hostClear = true) (hempty : c.hp.txWait = []) (da : Nat)
    (body : List Byte) (role : Nat × Nat) :
    ∃ x bytes, c.zcpAcceptOpen da s body role =
      (c.draw.2.draw.2.halfOpened s x role.1).hostOut { kind := .zcpClear, unit := s, data := [0x81], bytes := bytes } ∧
        x.rights = role.2 ∧ x.hostKey = body.take 2592 ∧ x.peer = da := by
  obtain ⟨x, msg, heq, hx⟩ := c.zcpAcceptOpen_eq da s body role
  have hview : (c.draw.2.draw.2.halfOpened s x role.1).hostView = c.draw.2.draw.2.hostView := Chip.halfOpened_hostView _ hs x role.1
  obtain ⟨hc, he, -⟩ := Chip.hostView_eq_iff.mp hview
  obtain ⟨bytes, hsent⟩ := Chip.zcpClear_clear (hc.trans hclear) (he.trans hempty) da s 0x81 msg
  exact ⟨x, bytes, heq.trans hsent, hx⟩

/-- The same from the frame on: a slot HALF_OPEN on a chip with the registers and the waiting changes of before. -/
theorem zcpOpen_opened {c : Chip} {l : List Byte} {k : Nat} {role : Nat × Nat} (hclear : c.hostClear = true) (hempty : c.hp.txWait = [])
    (hmin : 60 ≤ l.length) (hmax : l.length ≤ 16380) (htype : beAt l 12 2 = 0x88B5) (hform : zcpForm 0 l = true)
    (htyp : (zcpClearMsg l).typ = 0x80) (hlen : (zcpClearMsg l).body.length = 4192) (hsess : c.noSessions = false) (hopens : c.hp.opens = [])
    (hslot : (List.range 4).find? (fun s => decide (c.rg R.HST_SESS_STAT_STATE s = 0)) = some k)
    (hrole : c.roleFor ((zcpClearMsg l).body.take 2592) = some role) :
    ∃ d x bytes, zcpOpen l c = (Chip.halfOpened d k x role.1).hostOut { kind := .zcpClear, unit := k, data := [0x81], bytes := bytes } ∧
      d.regs = c.regs ∧ d.mout = c.mout ∧ x.rights = role.2 ∧ x.hostKey = (zcpClearMsg l).body.take 2592 ∧ x.peer = beAt l 6 6 := by
  have hk : k < 4 := List.mem_range.mp (List.mem_of_find?_eq_some hslot)
  have hopened := Chip.zcpOpenMsg_accepts (c := c.hostCounted l) hsess hopens hlen hslot hrole (beAt l 6 6)
  obtain ⟨x, bytes, hsent, hx⟩ := Chip.zcpAcceptOpen_clear (c := { (c.hostCounted l).inc C.ZCP_RX_MSG 0 with hp.opens := [(c.hostCounted l).now] })
    hk hclear hempty (beAt l 6 6) (zcpClearMsg l).body role
  exact ⟨_, x, bytes, (setupRow_clear hclear hmin hmax htype hform htyp _).trans (hopened.trans hsent), rfl, rfl, hx⟩

/-! ## CONFIRM (R334) -/

/-- A session that is OPEN from a CONFIRM on. -/
def Chip.confirmed (c : Chip) (s : Nat) : Chip := (c.setSess s { c.sess s with lastRx := c.now }).wg R.HST_SESS_STAT_STATE s 2

theorem Chip.confirmed_hostView (c : Chip) {s : Nat} (hs : s < 4) : (c.confirmed s).hostView = c.hostView :=
  Chip.hostView_wg_sess (c.setSess s _) (by decide) hs 2

section
variable {c : Chip} {s : Nat} (hs : s < 4) (hhalf : c.rg R.HST_SESS_STAT_STATE s = 1) {body : List Byte} (hlen : body.length = 4628)
include hs hhalf hlen

theorem Chip.zcpConfirmMsg_good (hsig : (c.sess s).sigOk body = true) (da : Nat) :
    c.zcpConfirmMsg da s body = ((c.inc C.ZCP_RX_MSG 0).confirmed s).zcpSend s 0x84 1 0 stOk 0xFFFF 0 [] := by
  have hhalf' : (c.inc C.ZCP_RX_MSG 0).rg R.HST_SESS_STAT_STATE s = 1 := hhalf
  have hsig' : ((c.inc C.ZCP_RX_MSG 0).sess s).sigOk body = true := hsig
  simp only [Chip.zcpConfirmMsg, hs, hhalf', hlen, hsig', ne_eq, not_true_eq_false, and_self, decide_true, Bool.true_eq_false, if_false]
  rfl

theorem Chip.zcpConfirmMsg_bad (hsig : (c.sess s).sigOk body = false) (da : Nat) :
    c.zcpConfirmMsg da s body = ((c.inc C.ZCP_RX_MSG 0).sessFree s).zcpReject da s 3 := by
  have hhalf' : (c.inc C.ZCP_RX_MSG 0).rg R.HST_SESS_STAT_STATE s = 1 := hhalf
  have hsig' : ((c.inc C.ZCP_RX_MSG 0).sess s).sigOk body = false := hsig
  simp only [Chip.zcpConfirmMsg, hs, hhalf', hlen, hsig', ne_eq, not_true_eq_false, and_self, decide_true, Bool.true_eq_false, if_false, if_true]

end

/-- A slot is freed and its peer is told why. -/
theorem Chip.sessFree_zcpReject {c : Chip} {s : Nat} (hs : s < 4) (hclear : c.hostClear = true) (hempty : c.hp.txWait = []) (da : Nat)
    {reason : Nat} {body : List Byte} (hbody : beBytes 1 reason ++ zeros 3 = body) :
    (c.sessFree s).zcpReject da s reason = (c.sessFree s).hostOut (c.rejection da s body) := by
  obtain ⟨hc, he, hm⟩ := Chip.hostView_eq_iff.mp (c.sessFree_hostView hs)
  rw [Chip.zcpReject_clear (hc.trans hclear) (he.trans hempty) da s hbody, Chip.rejection, Chip.rejection, Chip.zcpHead, Chip.zcpHead, hm]

section
variable {c : Chip} {s : Nat} (hs : s < 4) (hhalf : c.rg R.HST_SESS_STAT_STATE s = 1) {body : List Byte} (hlen : body.length = 4628)
  (hclear : c.hostClear = true) (hempty : c.hp.txWait = [])
include hs hhalf hlen hclear hempty

/-- A CONFIRM whose signature verifies opens the session and answers under its keys. -/
theorem zcpConfirmMsg_opens (hsig : (c.sess s).sigOk body = true) (da : Nat) :
    ∃ d : Chip, c.zcpConfirmMsg da s body = d.hostOut (c.zcpOutput s 0x84 1 0 stOk 0xFFFF 0 []) ∧ d.rg R.HST_SESS_STAT_STATE s = 2 ∧
      (∀ (g : Fld) (j : Nat), g.key j ≠ R.HST_SESS_STAT_STATE.key s → d.rg g j = c.rg g j) ∧ d.mout = c.mout ∧ (d.sess s).lastRx = c.now := by
  obtain ⟨hc, he, hm⟩ := Chip.hostView_eq_iff.mp ((c.inc C.ZCP_RX_MSG 0).confirmed_hostView hs)
  have hslot : ((c.inc C.ZCP_RX_MSG 0).confirmed s).sess s = { c.sess s with lastRx := c.now } :=
    (c.inc C.ZCP_RX_MSG 0).sess_setSess s { c.sess s with lastRx := c.now }
  have halike : (c.sess s).Alike (((c.inc C.ZCP_RX_MSG 0).confirmed s).sess s) := by
    rw [hslot]
    exact ⟨rfl, rfl, rfl, rfl⟩
  have hsent := Chip.zcpSend_clear (hc.trans hclear) (he.trans hempty) s 0x84 1 0 stOk 0xFFFF 0 []
  rw [Chip.zcpOutput_alike (hm.trans rfl) halike] at hsent
  have hstate : ((c.inc C.ZCP_RX_MSG 0).confirmed s).rg R.HST_SESS_STAT_STATE s = 2 := Chip.rg_wg_same ..
  refine ⟨_, (Chip.zcpConfirmMsg_good hs hhalf hlen hsig da).trans hsent, hstate, fun g j hg => ?_, rfl, ?_⟩
  · exact Chip.rg_wg_other _ _ _ _ _ _ hg.symm
  · rw [Chip.sess_setSess, hslot]
    rfl

/-- A CONFIRM whose signature does not verify frees the slot and is rejected. -/
theorem zcpConfirmMsg_rejects (hsig : (c.sess s).sigOk body = false) (da : Nat) :
    c.zcpConfirmMsg da s body = ((c.inc C.ZCP_RX_MSG 0).sessFree s).hostOut (c.rejection da s [3, 0, 0, 0]) :=
  (Chip.zcpConfirmMsg_bad hs hhalf hlen hsig da).trans (Chip.sessFree_zcpReject (c := c.inc C.ZCP_RX_MSG 0) hs hclear hempty da (by decide))

end

/-! ## The instant of the last frame of a session (R336) -/

theorem Chip.zcpSend_lastRx (c : Chip) (s typ flags tag st index detail : Nat) (body : List Byte) :
    ((c.zcpSend s typ flags tag st index detail body).sess s).lastRx = (c.sess s).lastRx := by
  have hsent : ((c.setSess s (c.sess s).sentOne).sess s).lastRx = (c.sess s).lastRx := by rw [Chip.sess_setSess]; rfl
  exact read_ite (fun d : Chip => (d.sess s).lastRx) hsent hsent

theorem Chip.zcpRespond_lastRx (c : Chip) (s : Nat) (r : Req) (p : Reply) : ((c.zcpRespond s r p).sess s).lastRx = (c.sess s).lastRx := by
  unfold Chip.zcpRespond
  refine read_ite (fun d : Chip => (d.sess s).lastRx) rfl ?_
  dsimp only
  rw [Chip.zcpSend_lastRx]
  split <;> simp only [Chip.inc_eq, Chip.sess_incBy, Chip.sess_setSess]

theorem Chip.evtUpdate_lastRx (c : Chip) (s : Nat) : (c.evtUpdate.sess s).lastRx = (c.sess s).lastRx := by
  obtain ⟨b, hb⟩ := c.evtUpdate_sess s
  rw [hb]

theorem Chip.zcpTaken_lastRx (c : Chip) (l : List Byte) : ((c.zcpTaken l).sess (zcpSess l)).lastRx = c.now := by
  rw [Chip.zcpTaken, Chip.sess_setSess]
  exact c.evtUpdate_booked.read (·.now) fun _ _ _ _ _ => rfl

/-- A KEEPALIVE and a CLOSE ask for nothing but their response. -/
theorem Chip.zcpStart_empty (c : Chip) (m : Mem) (s : Nat) {r : Req} (htyp : r.typ = 0x84 ∨ r.typ = 0x85) (hbody : r.body = []) (e : Env) :
    c.zcpStart m s r e = (c, some (.ok [])) := by
  rcases htyp with htyp | htyp <;> simp [Chip.zcpStart, htyp, hbody, emptyBody]

/-- A KEEPALIVE leaves the instant at which it was taken. -/
theorem zcpServed_keepalive_lastRx (c : Chip) (m : Mem) {s : Nat} {r : Req} (htyp : r.typ = 0x84) (hbody : r.body = []) (e : Env) :
    ((c.zcpServed m s r e).sess s).lastRx = (c.sess s).lastRx := by
  have hstart := c.zcpStart_empty m s (.inl htyp) hbody e
  have hend : ¬ (r.typ = 0x85 ∧ (Reply.ok []).st = stOk) := by rw [htyp]; decide
  rw [Chip.zcpServed, hstart]
  simp only [Chip.zcpEnd, hend, if_false]
  refine Eq.trans ?_ (c.zcpRespond_lastRx s r (.ok []))
  exact read_ite (fun d : Chip => (d.sess s).lastRx) rfl rfl

/-! ## CLOSE and RESET (R336, R344) -/

/-- A CLOSE that is served is answered, and its session is closed. -/
theorem zcpServed_close {c d : Chip} {m : Mem} {s : Nat} (h : c.AnswersAs d s) {r : Req} (htyp : r.typ = 0x85) (hbody : r.body = []) (e : Env) :
    ∃ x : Chip, d.zcpServed m s r e = x ∧ x.out.head? = some (c.zcpOutput s r.typ 1 r.tag stOk 0xFFFF 0 []) ∧
      x.rg R.HST_SESS_STAT_STATE s = 0 ∧ x.rg R.HST_SESS_STAT_CLOSE_CAUSE s = 1 ∧ x.sess s = Sess.reset := by
  have hstart := d.zcpStart_empty m s (.inr htyp) hbody e
  have hb := h.respond r (.ok [])
  have hstate : (d.zcpRespond s r (.ok [])).sessOpen s = true := (hb.read (·.sessOpen s) fun _ _ _ _ _ => rfl).trans h.isOpen
  have hopen : (d.zcpRespond s r (.ok [])).rg R.HST_SESS_STAT_STATE s = 2 := (of_decide_eq_true hstate).2
  obtain ⟨⟨hzero, hcause, hslot⟩, hout⟩ := Chip.sessClose_slot hopen (cause := 1) (by decide)
  have hclosed : ((d.zcpRespond s r (.ok [])).sessClose s 1).sessOpen s = false := by rw [Chip.sessOpen, hzero]; simp
  have hserved : d.zcpServed m s r e = (d.zcpRespond s r (.ok [])).sessClose s 1 := by
    have hok : (Reply.ok []).st = stOk := rfl
    simp only [Chip.zcpServed, hstart, Chip.zcpEnd, htyp, hok, and_self, if_true, Chip.zcpCount, hclosed, Bool.false_eq_true, if_false]
  refine ⟨_, hserved, ?_, hzero, hcause, hslot⟩
  rw [hout]
  exact congrArg List.head? (hb.read (·.out) fun _ _ _ _ _ => rfl)

/-- The chip with a warm reset due at an instant. -/
def Chip.resetDue (c : Chip) (a : Nat) : Chip := { c with hp.resetAt := some a }

/-- A RESET with the right and its body is due after 1 ms. -/
theorem Chip.zcpStart_reset {c : Chip} (m : Mem) {s : Nat} {r : Req} (htyp : r.typ = 12) (hbody : r.body = [0, 0, 0, 1])
    (hright : c.hasRight s 12 = true) (e : Env) : c.zcpStart m s r e = (c.resetDue (c.now + msPs), some (.ok [])) := by
  have hword : word r.body 0 = 1 := by rw [hbody]; decide
  have hlen : r.body.length = 4 := by rw [hbody]; rfl
  simp only [Chip.zcpStart, htyp, Chip.zcpResetReq, hright, hlen, hword, Bool.true_eq_false, ne_eq, not_true_eq_false, if_false]
  rfl

theorem Chip.Booked.resetDue {c d : Chip} (h : c.Booked d) (a : Nat) : (c.resetDue a).Booked (d.resetDue a) :=
  h.map (·.resetDue a) fun _ _ _ _ _ => rfl

theorem Chip.AnswersAs.resetDue {c d : Chip} {s : Nat} (h : c.AnswersAs d s) (a : Nat) : c.AnswersAs (d.resetDue a) s :=
  ⟨h.clear, h.empty, h.isOpen, h.mac, h.alike⟩

/-! ## A session that is not OPEN hears of no event (R347) -/

theorem Chip.evtUpdate_sess_closed {c : Chip} {s : Nat} (h : c.sessOpen s = false) : c.evtUpdate.sess s = c.sess s := by
  refine (foldl_keeps _ (fun d : Chip => d.sess s) (fun d u => ?_) (List.range 16) _).trans ?_
  · exact read_ite (fun d : Chip => d.sess s) (Chip.sess_srcEvent ..) rfl
  · refine (forN_induct (p := fun _ (d : Chip) => d.regs = c.regs ∧ d.sess s = c.sess s) ⟨rfl, rfl⟩ (fun k d hd => ?_) 4).2
    obtain ⟨hregs, hsess⟩ := hd
    split
    next hopen =>
      obtain ⟨hopen, -⟩ := hopen
      have hne : k ≠ s := fun e => by
        subst e
        rw [Chip.sessOpen, Chip.rg_of_regs_eq hregs] at hopen
        exact Bool.noConfusion (hopen.symm.trans h)
      exact ⟨hregs, (Chip.sess_setSess_other _ _ _ _ hne).trans hsess⟩
    next => exact ⟨hregs, hsess⟩

end Sys2Proof.Machine

namespace Sys2Proof.Safety

open Sys2Proof Sys2Proof.Machine

/-- OPEN (R334). -/
theorem zcpOpen_accepts (t : Nat) (l : List Byte) (k : Nat) (role : Nat × Nat) (s : State) (hs : ready s) (hclear : (chipAt s t).hostClear = true)
    (hempty : s.chip.hp.txWait = []) (hmin : 60 ≤ l.length) (hmax : l.length ≤ 16380) (htype : beAt l 12 2 = 0x88B5)
    (hform : zcpForm 0 l = true) (htyp : (zcpClearMsg l).typ = 0x80) (hlen : (zcpClearMsg l).body.length = 4192)
    (hsess : (chipAt s t).noSessions = false) (hopens : s.chip.hp.opens = [])
    (hslot : (List.range 4).find? (fun s0 => decide (s.chip.rg R.HST_SESS_STAT_STATE s0 = 0)) = some k)
    (hrole : s.chip.roleFor ((zcpClearMsg l).body.take 2592) = some role) :
    ∃ u, exec (.zcpOpen t l) s = .next u ∧ u.chip.rg R.HST_SESS_STAT_STATE k = 1 ∧
      u.chip.rg R.HST_SESS_STAT_ROLE k = role.1 % 2 ^ R.HST_SESS_STAT_ROLE.width ∧ u.chip.rg R.HST_SESS_CFG_EVT_SUB k = 1 ∧
      u.chip.rg R.HST_SESS_CFG_SP_SUB k = 0 ∧ (u.chip.sess k).rights = role.2 ∧
      (u.chip.sess k).hostKey = (zcpClearMsg l).body.take 2592 ∧ (u.chip.sess k).peer = beAt l 6 6 ∧
      (newest u).map (fun o => (o.kind, o.unit, o.data)) = some (.zcpClear, k, [0x81]) ∧
      regsKept s u [R.HST_SESS_STAT_STATE.key k, R.HST_SESS_STAT_ROLE.key k, R.HST_SESS_CFG_EVT_SUB.key k, R.HST_SESS_CFG_SP_SUB.key k] ∧
      u.mem = s.mem := by
  obtain ⟨d, x, bytes, hrow, hregs, hmout, hrights, hkey, hpeer⟩ := zcpOpen_opened (c := chipAt s t) hclear hempty hmin hmax htype hform htyp
    hlen hsess hopens hslot hrole
  have hnext : exec (.zcpOpen t l) s = .next (s.after (zcpOpen l (chipAt s t))) := State.on_running s t (fun _ => zcpOpen l) hs.1
  rw [hrow] at hnext
  obtain ⟨hstate, hrole', hevt, hsp⟩ := d.halfOpened_reads k x role.1
  have hsess' : (d.halfOpened k x role.1).sess k = x := d.sess_setSess k x
  have hmout' : (d.halfOpened k x role.1).mout = s.chip.mout := hmout
  generalize hc : d.halfOpened k x role.1 = c at hnext hstate hrole' hevt hsp hsess' hmout'
  refine ⟨_, hnext, ?_⟩
  simp only [rg_sentAfter, sess_sentAfter, newest_sentAfter, hsess']
  refine ⟨hstate, hrole', hevt, hsp, hrights, hkey, hpeer, rfl, fun g j hg => ?_, mem_after hs hmout'⟩
  exact (rg_sentAfter ..).trans ((hc ▸ d.halfOpened_rg k x role.1 hg).trans (Chip.rg_of_regs_eq hregs g j))

/-- CONFIRM of a HALF_OPEN slot (R334). -/
theorem zcpConfirm_confirms (t : Nat) (l : List Byte) (k : Fin 4) (s : State) (hs : ready s) (hclear : (chipAt s t).hostClear = true)
    (hempty : s.chip.hp.txWait = []) (hmin : 60 ≤ l.length) (hmax : l.length ≤ 16380) (htype : beAt l 12 2 = 0x88B5)
    (hform : zcpForm 0 l = true) (htyp : (zcpClearMsg l).typ = 0x82) (hlen : (zcpClearMsg l).body.length = 4628) (hsess : zcpSess l = k)
    (hhalf : s.chip.rg R.HST_SESS_STAT_STATE k = 1) :
    ∃ u, exec (.zcpConfirm t l) s = .next u ∧
      u.chip.rg R.HST_SESS_STAT_STATE k = (if (s.chip.sess k).sigOk (zcpClearMsg l).body then 2 else 0) ∧
      ((s.chip.sess k).sigOk (zcpClearMsg l).body = true →
        (u.chip.sess k).lastRx = max s.chip.now t ∧ newest u = some (s.chip.zcpOutput k 0x84 1 0 stOk 0xFFFF 0 [])) ∧
      ((s.chip.sess k).sigOk (zcpClearMsg l).body = false → newest u = some (s.chip.rejection (beAt l 6 6) k [3, 0, 0, 0])) ∧
      regsKept s u [R.HST_SESS_STAT_STATE.key k, R.HST_SESS_STAT_ROLE.key k, R.HST_SESS_STAT_OUTSTANDING.key k] ∧ u.mem = s.mem := by
  have hnext : exec (.zcpConfirm t l) s = .next (s.after (zcpConfirm l (chipAt s t))) := State.on_running s t (fun _ => zcpConfirm l) hs.1
  have hrow : zcpConfirm l (chipAt s t) = _ :=
    setupRow_clear hclear hmin hmax htype hform htyp (fun m c => c.zcpConfirmMsg (beAt l 6 6) (zcpSess l) m.body)
  rw [hsess] at hrow
  cases hsig : (s.chip.sess k).sigOk (zcpClearMsg l).body with
  | true =>
    obtain ⟨d, hsent, hstate, hrest, hmout, hlast⟩ := zcpConfirmMsg_opens (c := (chipAt s t).hostCounted l) k.isLt hhalf hlen hclear hempty
      hsig (beAt l 6 6)
    rw [hrow, hsent] at hnext
    refine ⟨_, hnext, (rg_sentAfter ..).trans hstate, fun _ => ⟨?_, newest_sentAfter ..⟩, fun h => Bool.noConfusion h, fun g j hg => ?_,
      mem_after hs hmout⟩
    · exact (congrArg Sess.lastRx (sess_sentAfter ..)).trans hlast
    · exact (rg_sentAfter ..).trans (hrest g j (List.ne_of_not_mem_cons hg))
  | false =>
    have hsent := zcpConfirmMsg_rejects (c := (chipAt s t).hostCounted l) k.isLt hhalf hlen hclear hempty hsig (beAt l 6 6)
    rw [hrow, hsent] at hnext
    refine ⟨_, hnext, (rg_sentAfter ..).trans (Chip.sessFree_state ..), fun h => Bool.noConfusion h, fun _ => newest_sentAfter ..,
      fun g j hg => ?_, mem_after hs rfl⟩
    exact (rg_sentAfter ..).trans (Chip.sessFree_rg _ _ hg)

/-- CONFIRM_TIMEOUT (R334). -/
theorem confirmTimeout_frees (t : Nat) (k : Fin 4) (s : State) (hs : ready s) (hclear : (chipAt s t).hostClear = true)
    (hempty : s.chip.hp.txWait = []) (hhalf : s.chip.rg R.HST_SESS_STAT_STATE k = 1)
    (hlate : (s.chip.sess k).at_ + 2 * secPs ≤ max s.chip.now t) :
    ∃ u, exec (.confirmTimeout t k) s = .next u ∧ u.chip.rg R.HST_SESS_STAT_STATE k = 0 ∧
      newest u = some (s.chip.rejection (s.chip.sess k).peer k [4, 0, 0, 0]) ∧
      regsKept s u [R.HST_SESS_STAT_STATE.key k, R.HST_SESS_STAT_ROLE.key k, R.HST_SESS_STAT_OUTSTANDING.key k] ∧ u.mem = s.mem := by
  have hrow : confirmTimeout k (chipAt s t) = ((chipAt s t).sessFree k).hostOut ((chipAt s t).rejection (s.chip.sess k).peer k [4, 0, 0, 0]) :=
    (if_pos ⟨hhalf, hlate⟩).trans (Chip.sessFree_zcpReject k.isLt hclear hempty _ (by decide))
  have hnext : exec (.confirmTimeout t k) s = .next (s.after (confirmTimeout k (chipAt s t))) :=
    State.on_running s t (fun _ => confirmTimeout k) hs.1
  rw [hrow] at hnext
  refine ⟨_, hnext, (rg_sentAfter ..).trans (Chip.sessFree_state ..), newest_sentAfter .., fun g j hg => ?_, mem_after hs rfl⟩
  exact (rg_sentAfter ..).trans (Chip.sessFree_rg _ _ hg)

/-- KEEPALIVE (R336). -/
theorem zcpKeepalive_answers (t : Nat) (l : List Byte) (q : ZcpMsg) (s : State) (hs : ready s) (h : requestOk (chipAt s t) l q 0x84)
    (hbody : q.body = []) : ∃ u, exec (.zcpKeepalive t l) s = .next u ∧ responded s u l q [] ∧
      (u.chip.sess (zcpSess l)).lastRx = max s.chip.now t ∧ u.mem = s.mem := by
  have htyp : q.req.typ = 0x84 := typ_of_requestOk h
  have hstart := ((chipAt s t).zcpTaken l).zcpStart_empty s.mem (zcpSess l) (r := q.req) (.inl htyp) hbody ⟨none⟩
  obtain ⟨u, hu, hnew, -, hmem⟩ := zcpRow_answers hs h hstart (answersAs_zcpTaken h) ((chipAt s t).zcpTaken_booked l) (by decide)
  refine ⟨u, hu, hnew, ?_, hmem.trans (congrArg s.mem.applyAll hs.2)⟩
  have hnext := (State.on_running s t (fun m => zcpRow 0x84 l ⟨none⟩ m) hs.1).symm.trans hu
  injection hnext with hafter
  rw [← hafter, State.after_chip, Chip.sess_done, zcpRow_of_requestOk h, Chip.evtUpdate_lastRx,
    zcpServed_keepalive_lastRx _ _ htyp hbody, Chip.zcpTaken_lastRx]
  rfl

/-- CLOSE (R336). -/
theorem zcpClose_closes (t : Nat) (l : List Byte) (q : ZcpMsg) (s : State) (hs : ready s) (h : requestOk (chipAt s t) l q 0x85)
    (hbody : q.body = []) : ∃ u, exec (.zcpClose t l) s = .next u ∧ responded s u l q [] ∧
      u.chip.rg R.HST_SESS_STAT_STATE (zcpSess l) = 0 ∧ u.chip.rg R.HST_SESS_STAT_CLOSE_CAUSE (zcpSess l) = 1 ∧
      u.chip.sess (zcpSess l) = Sess.reset := by
  have htyp : q.req.typ = 0x85 := typ_of_requestOk h
  obtain ⟨e, hrow, hout, hstate, hcause, hslot⟩ := zcpServed_close (m := s.mem) (answersAs_zcpTaken h) htyp hbody ⟨none⟩
  have hnext : exec (.zcpClose t l) s = .next (s.after (zcpRow 0x85 l ⟨none⟩ s.mem (chipAt s t))) :=
    State.on_running s t (fun m => zcpRow 0x85 l ⟨none⟩ m) hs.1
  rw [zcpRow_of_requestOk h, hrow] at hnext
  have hclosed : e.sessOpen (zcpSess l) = false := by rw [Chip.sessOpen, hstate]; simp
  have hread {g : Fld} {j : Nat} : e.evtUpdate.rg g j = e.rg g j := e.evtUpdate_booked.read (·.rg g j) fun _ _ _ _ _ => rfl
  refine ⟨_, hnext, ?_, (rg_after ..).trans (hread.trans hstate), (rg_after ..).trans (hread.trans hcause), ?_⟩
  · exact (congrArg List.head? (e.evtUpdate_booked.read (·.out) fun _ _ _ _ _ => rfl)).trans (hout.trans rfl)
  · rw [State.after_chip, Chip.sess_done, Chip.evtUpdate_sess_closed hclosed, hslot]

/-- IDLE_TIMEOUT (R336). -/
theorem idleTimeout_closes (t : Nat) (k : Fin 4) (s : State) (hs : ready s) (hopen : s.chip.rg R.HST_SESS_STAT_STATE k = 2)
    (hlate : (s.chip.sess k).lastRx + s.chip.rg R.HST_ZCP_CFG_IDLE_TO 0 * secPs ≤ max s.chip.now t) :
    ∃ u, exec (.idleTimeout t k) s = .next u ∧ u.chip.rg R.HST_SESS_STAT_STATE k = 0 ∧ u.chip.rg R.HST_SESS_STAT_CLOSE_CAUSE k = 2 ∧
      u.chip.sess k = Sess.reset := by
  have hopen' : (chipAt s t).sessOpen k = true := decide_eq_true ⟨k.isLt, hopen⟩
  have hrow : idleTimeout k (chipAt s t) = (chipAt s t).sessClose k 2 := if_pos ⟨hopen', hlate⟩
  have hnext : exec (.idleTimeout t k) s = .next (s.after (idleTimeout k (chipAt s t))) :=
    State.on_running s t (fun _ => idleTimeout k) hs.1
  rw [hrow] at hnext
  obtain ⟨⟨hstate, hcause, hslot⟩, -⟩ := Chip.sessClose_slot (c := chipAt s t) hopen (cause := 2) (by decide)
  refine ⟨_, hnext, (rg_after ..).trans hstate, (rg_after ..).trans hcause, ?_⟩
  rw [State.after_chip, Chip.sess_done, hslot]

/-- RESET (R344, R388). -/
theorem zcpReset_schedules (t : Nat) (l : List Byte) (q : ZcpMsg) (s : State) (hs : ready s) (h : requestOk (chipAt s t) l q 12)
    (hbody : q.body = [0, 0, 0, 1]) (hright : s.chip.hasRight (zcpSess l) 12 = true) :
    ∃ u, exec (.zcpReset t l) s = .next u ∧ responded s u l q [] ∧ u.chip.hp.resetAt = some (max s.chip.now t + msPs) ∧ u.mem = s.mem := by
  have htyp : q.req.typ = 12 := typ_of_requestOk h
  have hans := answersAs_zcpTaken h
  have hbook := (chipAt s t).zcpTaken_booked l
  have hnow : ((chipAt s t).zcpTaken l).now = max s.chip.now t := hbook.read (·.now) fun _ _ _ _ _ => rfl
  have hright' : ((chipAt s t).zcpTaken l).hasRight (zcpSess l) 12 = true := (hans.hasRight 12).trans hright
  have hstart := Chip.zcpStart_reset s.mem (r := q.req) htyp hbody hright' ⟨none⟩
  rw [hnow] at hstart
  obtain ⟨u, hu, hnew, ⟨o, n, hub⟩, hmem⟩ := zcpRow_answers hs h hstart (hans.resetDue _) (hbook.resetDue _) (by decide)
  exact ⟨u, hu, hnew, hub.read (·.hp.resetAt) fun _ _ _ _ _ => rfl, hmem.trans (congrArg s.mem.applyAll hs.2)⟩

/-- Settles O27, command by command: a set-up message goes to its row, a response leaves at once on a port that nothing holds, and a session
that closes frees its slot without sending anything more. -/
theorem sessionCommands : Obligations.SessionCommands :=
  ⟨zcpOpen_accepts, zcpConfirm_confirms, confirmTimeout_frees, zcpKeepalive_answers, zcpClose_closes, idleTimeout_closes, zcpReset_schedules⟩

end Sys2Proof.Safety
end

section
/-! PROOFS. ATTEST, PACKET, slow-path packets and EVENT frames (11_host_control_and_dma.md R344 to R347, 13_security.md R386). -/

namespace Sys2Proof.Machine

open Sys2Proof Sys2Proof.Safety

/-! ## What the event update leaves (R347) -/

theorem Chip.srcEvent_cnt (c : Chip) (n : Nat) : (c.srcEvent n).cnt = c.cnt := read_ite Chip.cnt rfl rfl

theorem Chip.evtUpdate_cnt (c : Chip) : c.evtUpdate.cnt = c.cnt := by
  refine (foldl_keeps _ Chip.cnt (fun d u => ?_) (List.range 16) _).trans (forN_keeps 4 _ Chip.cnt ?_ c)
  · exact read_ite Chip.cnt (Chip.srcEvent_cnt ..) rfl
  · exact fun s d => read_ite Chip.cnt rfl rfl

theorem Chip.evtUpdate_rg (c : Chip) (g : Fld) (j : Nat) : c.evtUpdate.rg g j = c.rg g j :=
  c.evtUpdate_booked.read (·.rg g j) fun _ _ _ _ _ => rfl

/-! ## ATTEST (R344, R386) -/

/-- The chip with an ATTEST begun at an instant. -/
def Chip.attestBegun (c : Chip) (a : Nat) : Chip := { c with hp.attestAt := some a }

theorem Chip.Booked.attestBegun {c d : Chip} (h : c.Booked d) (a : Nat) : (c.attestBegun a).Booked (d.attestBegun a) :=
  h.map (·.attestBegun a) fun _ _ _ _ _ => rfl

theorem Chip.AnswersAs.attestBegun {c d : Chip} {s : Nat} (h : c.AnswersAs d s) (a : Nat) : c.AnswersAs (d.attestBegun a) s :=
  ⟨h.clear, h.empty, h.isOpen, h.mac, h.alike⟩

/-- An ATTEST with the right and a nonce, while none is in progress and the identity is ready. -/
theorem Chip.zcpStart_attest {c : Chip} (m : Mem) {s : Nat} {r : Req} (htyp : r.typ = 9) (hlen : r.body.length = 64)
    (hright : c.hasRight s 14 = true) (hidle : c.attesting = false) (hready : c.rg R.SEC_STAT_ID_READY 0 = 1) (e : Env) :
    c.zcpStart m s r e = (c.attestBegun c.now, some (.ok (c.attestReport r.body))) := by
  have hready' : c.rb R.SEC_STAT_ID_READY 0 = true := decide_eq_true hready
  simp only [Chip.zcpStart, htyp, Chip.zcpAttest, hright, hlen, hidle, hready', Bool.true_eq_false, Bool.false_eq_true, ne_eq,
    not_true_eq_false, if_false]
  rfl

/-- The report of a chip that differs in the books is the same, as long as the alarms counted are. -/
theorem Chip.Booked.attestReport {c d : Chip} (h : c.Booked d) (hcount : d.counter C.SEC_ALARM_EVENTS 0 = c.counter C.SEC_ALARM_EVENTS 0)
    (nonce : List Byte) : d.attestReport nonce = c.attestReport nonce := by
  obtain ⟨cnt, ss, pend, due, pulse, rfl⟩ := h
  unfold Chip.attestReport
  rw [hcount]
  rfl

/-- Taking a request counts no alarm. -/
theorem Chip.zcpTaken_alarms (c : Chip) (l : List Byte) : (c.zcpTaken l).counter C.SEC_ALARM_EVENTS 0 = c.counter C.SEC_ALARM_EVENTS 0 := by
  have hcounted : (c.evtUpdate.zcpCounted l).counter C.SEC_ALARM_EVENTS 0 = c.evtUpdate.counter C.SEC_ALARM_EVENTS 0 := by
    simp only [Chip.zcpCounted, Chip.inc_eq]
    rw [Chip.counter_incBy_other _ (by decide), Chip.counter_incBy_other _ (by decide), Chip.counter_incBy_other _ (by decide)]
  exact Eq.trans hcounted (congrArg (fun n => Tab.get 0 n (C.SEC_ALARM_EVENTS.key 0)) c.evtUpdate_cnt)

/-! ## PACKET (R346) -/

/-- A whole frame that a local port's place takes waits for a pass. -/
theorem Chip.localFrame_whole {c : Chip} {p : Nat} {f : List Byte} (hcell : c.cellRole (c.portBlk p) (c.slotCell (c.portBlk p) (c.portSlot p)) ≠ 3)
    (hmin : 60 ≤ f.length) (hmax : f.length + 4 ≤ c.maxFrame) (wire : Nat) :
    ∃ (d : Chip) (x : Frame), c.localFrame p f true wire = d.arrive x ∧ c.Booked d ∧ c.hp.sess = d.hp.sess ∧ x.bytes = f ∧ x.src = p := by
  have hrunt : ¬ f.length < 60 := by omega
  have hover : ¬ c.maxFrame < f.length + 4 := by omega
  unfold Chip.localFrame
  simp only [hcell, hrunt, hover, and_false, if_false, if_true]
  refine ⟨if c.stampRoom 0 p = true then c else c.inc C.TMG_STAMP_DROP 0, _, rfl, ?_, ?_, rfl, rfl⟩
  · split
    · exact .refl c
    · exact c.incBy_booked ..
  · split <;> rfl

theorem Chip.Booked.arrive {c d : Chip} (h : c.Booked d) (x : Frame) : (c.arrive x).Booked (d.arrive x) :=
  h.map (·.arrive x) fun _ _ _ _ _ => rfl

theorem Chip.AnswersAs.arrive {c d : Chip} {s : Nat} (h : c.AnswersAs d s) (x : Frame) : c.AnswersAs (d.arrive x) s :=
  ⟨h.clear, h.empty, h.isOpen, h.mac, h.alike⟩

/-- The body of a PACKET for a pass of the frames of port `p`. -/
theorem packet_fields {b f : List Byte} {p : Nat} (hb : b = [0, 0] ++ beBytes 2 p ++ zeros 4 ++ f) (hp : p < 128) :
    byteAt b 0 = 0 ∧ half b 2 = p ∧ half b 4 = 0 ∧ b.drop 8 = f ∧ 8 ≤ b.length := by
  refine ⟨?_, ?_, ?_, ?_, ?_⟩
  · simp [hb, byteAt, beAt, slice, beNat]
  · exact beAt_field [0, 0] (zeros 4 ++ f) (by simp [hb]) rfl (by omega)
  · have hzeros : zeros 4 = beBytes 2 0 ++ zeros 2 := by decide
    exact beAt_field ([0, 0] ++ beBytes 2 p) (zeros 2 ++ f) (by simp [hb, hzeros]) (by simp) (by decide)
  · rw [hb]; exact List.drop_left' (by simp [zeros])
  · simp [hb, zeros]
    omega

/-- A PACKET with the right and a frame of a good length is passed on. -/
theorem Chip.zcpStart_packet {c : Chip} (m : Mem) {s p : Nat} {r : Req} {f : List Byte} (htyp : r.typ = 11)
    (hb : r.body = [0, 0] ++ beBytes 2 p ++ zeros 4 ++ f) (hp : p < 128) (hright : c.hasRight s 13 = true) (hmin : 60 ≤ f.length)
    (hmax : f.length ≤ c.maxFrame - 4) (e : Env) : c.zcpStart m s r e = (c.injectPass p f, some (.ok [])) := by
  obtain ⟨htarget, hport, hq, hframe, hlen⟩ := packet_fields hb hp
  have hgood : ¬ (1 < 0 ∨ 128 ≤ p ∨ 32768 ≤ 0 ∨ f.length < 60 ∨ c.maxFrame - 4 < f.length) := by omega
  simp only [Chip.zcpStart, htyp, Chip.zcpPacket, htarget, hport, hq, hframe, hright, Nat.not_lt.mpr hlen, hgood, Bool.true_eq_false, if_false,
    if_true]

end Sys2Proof.Machine

namespace Sys2Proof.Safety

open Sys2Proof Sys2Proof.Machine

/-- ATTEST (R344, R386). -/
theorem zcpAttest_reports (t : Nat) (l : List Byte) (q : ZcpMsg) (s : State) (hs : ready s) (h : requestOk (chipAt s t) l q 9)
    (hright : s.chip.hasRight (zcpSess l) 14 = true) (hlen : q.body.length = 64) (hidle : (chipAt s t).attesting = false)
    (hready : s.chip.rg R.SEC_STAT_ID_READY 0 = 1) :
    ∃ u, exec (.zcpAttest t l) s = .next u ∧ responded s u l q ((chipAt s t).attestReport q.body) ∧
      u.chip.hp.attestAt = some (max s.chip.now t) ∧ u.mem = s.mem := by
  have hans := answersAs_zcpTaken h
  have hbook := (chipAt s t).zcpTaken_booked l
  have hnow : ((chipAt s t).zcpTaken l).now = max s.chip.now t := hbook.read (·.now) fun _ _ _ _ _ => rfl
  have hidle' : ((chipAt s t).zcpTaken l).attesting = false := (hbook.read (·.attesting) fun _ _ _ _ _ => rfl).trans hidle
  have hready' : ((chipAt s t).zcpTaken l).rg R.SEC_STAT_ID_READY 0 = 1 :=
    (hbook.read (·.rg R.SEC_STAT_ID_READY 0) fun _ _ _ _ _ => rfl).trans hready
  have hstart := Chip.zcpStart_attest s.mem (typ_of_requestOk h) hlen ((hans.hasRight 14).trans hright) hidle' hready' ⟨none⟩
  rw [hnow, hbook.attestReport ((chipAt s t).zcpTaken_alarms l)] at hstart
  obtain ⟨u, hu, hnew, ⟨o, n, hub⟩, hmem⟩ := zcpRow_answers hs h hstart (hans.attestBegun _) (hbook.attestBegun _) (by decide)
  exact ⟨u, hu, hnew, hub.read (·.hp.attestAt) fun _ _ _ _ _ => rfl, hmem.trans (congrArg s.mem.applyAll hs.2)⟩

/-- PACKET for a pass (R346). -/
theorem zcpPacket_passes (t : Nat) (l : List Byte) (q : ZcpMsg) (p : Fin 128) (f : List Byte) (s : State) (hs : ready s)
    (h : requestOk (chipAt s t) l q 11) (hb : q.body = [0, 0] ++ beBytes 2 p ++ zeros 4 ++ f) (hright : s.chip.hasRight (zcpSess l) 13 = true)
    (hmin : 60 ≤ f.length) (hmax : f.length ≤ s.chip.maxFrame - 4)
    (hcell : s.chip.cellRole (s.chip.portBlk p) (s.chip.slotCell (s.chip.portBlk p) (s.chip.portSlot p)) ≠ 3) :
    ∃ u, exec (.zcpPacket t l) s = .next u ∧ responded s u l q [] ∧
      u.chip.pp.waiting.map (fun x => (x.bytes, x.src)) = s.chip.pp.waiting.map (fun x => (x.bytes, x.src)) ++ [(f, p.val)] ∧
      u.mem = s.mem := by
  have hans := answersAs_zcpTaken h
  have hbook := (chipAt s t).zcpTaken_booked l
  have hmost : ((chipAt s t).zcpTaken l).maxFrame = s.chip.maxFrame := hbook.read (·.maxFrame) fun _ _ _ _ _ => rfl
  have hplace := (hbook.read (fun c : Chip => c.cellRole (c.portBlk p) (c.slotCell (c.portBlk p) (c.portSlot p))) fun _ _ _ _ _ => rfl).trans_ne
    hcell
  obtain ⟨d, x, hpass, hd, hslots, hbytes, hsrc⟩ := Chip.localFrame_whole hplace hmin (by rw [hmost]; omega) (f.length + 4)
  have hstart := Chip.zcpStart_packet s.mem (typ_of_requestOk h) hb p.isLt ((hans.hasRight 13).trans hright) hmin (by rw [hmost]; exact hmax) ⟨none⟩
  rw [Chip.injectPass, hpass] at hstart
  have halike : (((chipAt s t).zcpTaken l).sess (zcpSess l)).Alike (d.sess (zcpSess l)) := by
    have hsess : d.sess (zcpSess l) = ((chipAt s t).zcpTaken l).sess (zcpSess l) := congrArg (fun n => Tab.get Sess.reset n (zcpSess l)) hslots.symm
    rw [hsess]
    exact ⟨rfl, rfl, rfl, rfl⟩
  obtain ⟨u, hu, hnew, ⟨o, n, hub⟩, hmem⟩ := zcpRow_answers hs h hstart ((hans.booked hd halike).arrive x) ((hbook.trans hd).arrive x) (by decide)
  refine ⟨u, hu, hnew, ?_, hmem.trans (congrArg s.mem.applyAll hs.2)⟩
  have hwaiting : u.chip.pp.waiting = s.chip.pp.waiting ++ [{ x with id := s.chip.pp.nextId }] := hub.read (·.pp.waiting) fun _ _ _ _ _ => rfl
  rw [hwaiting, List.map_append, List.map_singleton, hbytes, hsrc]

end Sys2Proof.Safety
end

section
/-! PROOFS. EVENT frames and slow-path packets that leave a session (11_host_control_and_dma.md R345, R347), and the end of O29. -/

namespace Sys2Proof.Machine

open Sys2Proof Sys2Proof.Safety

/-! ## What a session is told (R345, R347) -/

/-- The chip once a session in a new state has sent a frame that is counted by `k`. -/
def Chip.told (c : Chip) (s : Nat) (x : Sess) (o : Output) (k : Ctr) : Chip := ((c.setSess s x).hostOut o).inc k 0

theorem Chip.told_rg (c : Chip) (s : Nat) (x : Sess) (o : Output) (k : Ctr) (g : Fld) (j : Nat) : (c.told s x o k).rg g j = c.rg g j := rfl

theorem Chip.told_sess (c : Chip) (s : Nat) (x : Sess) (o : Output) (k : Ctr) : (c.told s x o k).sess s = x := by
  rw [Chip.told, Chip.inc_eq, Chip.sess_incBy, Chip.hostOut_sess, Chip.sess_setSess]

theorem Chip.told_out (c : Chip) (s : Nat) (x : Sess) (o : Output) (k : Ctr) : (c.told s x o k).out = o :: c.out := rfl

theorem Chip.told_mout (c : Chip) (s : Nat) (x : Sess) (o : Output) (k : Ctr) : (c.told s x o k).mout = c.mout := rfl

theorem Chip.told_pp (c : Chip) (s : Nat) (x : Sess) (o : Output) (k : Ctr) : (c.told s x o k).pp = c.pp := rfl

/-- The body of an EVENT does not look at the counters, at the sessions or at what has left. -/
theorem Chip.eventBody_sent (c : Chip) (cnt : Tab Nat) (hp : HostSt) (out : List Output) (seq : Nat) (results : List (Nat × Nat × Nat)) :
    ({ c with cnt := cnt, hp := hp, out := out } : Chip).eventBody seq results = c.eventBody seq results := rfl

theorem Chip.told_eventBody (c : Chip) (s : Nat) (x : Sess) (o : Output) (k : Ctr) (seq : Nat) (results : List (Nat × Nat × Nat)) :
    (c.told s x o k).eventBody seq results = c.eventBody seq results := by
  have htold : c.told s x o k = { c with cnt := (c.told s x o k).cnt, hp := (c.setSess s x).hp, out := o :: c.out } := rfl
  rw [htold, Chip.eventBody_sent]

/-- The counter of what was told, which is none of those of the port. -/
theorem Chip.told_counter (c : Chip) (s : Nat) (x : Sess) (o : Output) {k : Ctr}
    (hk : k.key 0 ≠ C.HST_TX_FRAMES.key 0 ∧ k.key 0 ≠ C.HST_TX_BYTES.key 0 ∧ k.key 0 ≠ C.ZCP_TX_MSG.key 0) :
    (c.told s x o k).counter k 0 = (c.counter k 0 + 1) % 2 ^ 48 := by
  obtain ⟨hframes, hbytes, hmsg⟩ := hk
  have hport : ((c.setSess s x).hostOut o).counter k 0 = (c.setSess s x).counter k 0 := by
    rw [Chip.hostOut, Chip.counter_emit]
    simp only [Chip.inc_eq]
    rw [Chip.counter_incBy_other _ hmsg, Chip.counter_incBy_other _ hbytes, Chip.counter_incBy_other _ hframes]
  rw [Chip.told, Chip.inc_eq, Chip.counter_incBy_same, hport]
  rfl

/-- A session in a new state that is alike sends a frame at once. -/
theorem Chip.setSess_zcpSend_clear {c : Chip} {s : Nat} {x : Sess} (hclear : c.hostClear = true) (hempty : c.hp.txWait = [])
    (halike : (c.sess s).Alike x) (typ : Nat) (body : List Byte) (k : Ctr) :
    ((c.setSess s x).zcpSend s typ 0 0 0 0 0 body).inc k 0 = c.told s x.sentOne (c.zcpOutput s typ 0 0 0 0 0 body) k := by
  have halike' : (c.sess s).Alike ((c.setSess s x).sess s) := by rwa [Chip.sess_setSess]
  rw [Chip.zcpSend_clear (c := c.setSess s x) hclear hempty, Chip.zcpOutput_alike (c := c) (d := c.setSess s x) rfl halike',
    Chip.sess_setSess, Chip.setSess_setSess, Chip.told]

/-! ## EVENT_SEND, EVENT_RESEND and EVENT_ACK (R347) -/

/-- A session with its mark of a rise set or not. -/
def Sess.marked (x : Sess) (b : Bool) : Sess := { x with rose := b }

/-- A session that sent an EVENT at an instant. -/
def Sess.evented (x : Sess) (now : Nat) : Sess :=
  { x with
    evtSeq := (x.evtSeq + 1) % 2 ^ 32, evtAt := some now, rose := false, results := x.results.drop 64,
    unacked := x.unacked ++ [{ seq := (x.evtSeq + 1) % 2 ^ 32, at_ := now, results := x.results.take 64 }] }

/-- A session with results to tell, whose last EVENT is not too near, sends one. -/
theorem eventSend_sends {c : Chip} {s : Nat} (hclear : c.evtUpdate.hostClear = true) (hempty : c.evtUpdate.hp.txWait = [])
    (hopen : c.evtUpdate.sessOpen s = true) (hfirst : (c.evtUpdate.sess s).evtAt = none) (hresults : (c.evtUpdate.sess s).results ≠ []) :
    eventSend s c = c.evtUpdate.told s ((c.evtUpdate.sess s).evented c.evtUpdate.now).sentOne
      (c.evtUpdate.zcpOutput s 0x0A 0 0 0 0 0 (c.evtUpdate.eventBody (((c.evtUpdate.sess s).evtSeq + 1) % 2 ^ 32)
        ((c.evtUpdate.sess s).results.take 64))) C.ZCP_EVT_SENT := by
  unfold eventSend
  generalize c.evtUpdate = d at *
  simp only [hclear, hempty, hopen, hfirst, hresults, ne_eq, not_true_eq_false, Bool.true_eq_false, and_false, or_self, if_false]
  exact Chip.setSess_zcpSend_clear (x := (d.sess s).evented d.now) hclear hempty ⟨rfl, rfl, rfl, rfl⟩ 0x0A _ C.ZCP_EVT_SENT

/-- A session that sent its one unacknowledged EVENT again at an instant. -/
def Sess.reevented (x : Sess) (g : EvtFrame) (now : Nat) : Sess := { x with evtAt := some now, unacked := [{ g with at_ := now }] }

/-- The one unacknowledged EVENT of a session, which has results to tell, is sent again after EVT_RETRY. -/
theorem eventResend_sends {c : Chip} {s : Nat} {g : EvtFrame} (hclear : c.hostClear = true) (hempty : c.hp.txWait = [])
    (hopen : c.sessOpen s = true) (hone : (c.sess s).unacked = [g]) (hlate : g.at_ + c.rg R.HST_ZCP_CFG_EVT_RETRY 0 * msPs ≤ c.now)
    (hresults : g.results ≠ []) :
    eventResend s c = c.told s ((c.sess s).reevented g c.now).sentOne (c.zcpOutput s 0x0A 0 0 0 0 0 (c.eventBody g.seq g.results))
      C.ZCP_EVT_RESENT := by
  have hfind : [g].find? (fun f => decide (f.at_ + c.rg R.HST_ZCP_CFG_EVT_RETRY 0 * msPs ≤ c.now)) = some g :=
    List.find?_cons_of_pos (decide_eq_true hlate)
  unfold eventResend
  simp only [hone, hfind, hclear, hempty, hopen, hresults, ne_eq, not_true_eq_false, Bool.true_eq_false, and_false, or_self, if_false,
    List.map_cons, List.map_nil, if_true]
  exact Chip.setSess_zcpSend_clear (x := (c.sess s).reevented g c.now) hclear hempty ⟨rfl, rfl, rfl, rfl⟩ 0x0A _ C.ZCP_EVT_RESENT

/-- A session for which the EVENT of a number is acknowledged. -/
def Sess.acked (x : Sess) (n : Nat) : Sess := { x with unacked := x.unacked.filter (fun g => decide (g.seq ≠ n)) }

/-- An acknowledgement that its session accepts. -/
theorem eventAck_acks {c : Chip} {l : List Byte} {q : ZcpMsg} {n : Nat} (m : Mem) (hclear : c.hostClear = true) (hmin : 60 ≤ l.length)
    (hmax : l.length ≤ 16380) (htype : beAt l 12 2 = 0x88B5) (hopens : c.zcpOpens l = some q) (htyp : q.typ = 0x0A) (hresp : bit q.flags 0 = true)
    (hbody : q.body = beBytes 4 n) (hn : n < 2 ^ 32) (hfresh : (c.sess (zcpSess l)).fresh (zcpSeq l) = true) :
    eventAck l m c = (c.zcpCounted l).setSess (zcpSess l) (((c.sess (zcpSess l)).noted (zcpSeq l) c.now).acked n) := by
  have hword : word q.body 0 = n := beAt_field [] [] (by simp [hbody]) rfl (by omega)
  have hlen : q.body.length = 4 := by simp [hbody]
  unfold eventAck
  simp only [hopens, htyp, hresp, hlen, Chip.zcpAccept_fresh hclear hmin hmax htype hopens hfresh, hword, ne_eq, not_true_eq_false,
    Bool.true_eq_false, or_self, if_false, Chip.sess_setSess, Chip.setSess_setSess]
  rfl

theorem Chip.zcpCounted_msg (c : Chip) (l : List Byte) :
    (c.zcpCounted l).counter C.ZCP_RX_MSG 0 = (c.counter C.ZCP_RX_MSG 0 + 1) % 2 ^ 48 := by
  simp only [Chip.zcpCounted, Chip.inc_eq]
  rw [Chip.counter_incBy_same, Chip.counter_incBy_other _ (by decide), Chip.counter_incBy_other _ (by decide)]

/-! ## Slow-path packets (R345) -/

/-- The chip with the slow-path record of source `n` taken, and the others left. -/
def Chip.hostTaken (c : Chip) (rest : List (Nat × List Byte)) (n : Nat) : Chip := { c with pp.hostQ := rest, pp.hostLast := n }

/-- The record whose turn it is goes to the lowest session that subscribed. -/
theorem spPacketSend_sends {c : Chip} {f : Nat × List Byte} {r : List (Nat × List Byte)} {s : Nat} (hclear : c.hostClear = true)
    (hempty : c.hp.txWait = []) (hturn : c.hostTurn = some (f, r))
    (hsess : (List.range 4).find? (fun k => c.sessOpen k && c.rb R.HST_SESS_CFG_SP_SUB k) = some s) :
    spPacketSend c = (c.hostTaken r f.1).told s (c.sess s).sentOne (c.zcpOutput s 0x0B 0 0 0 0 0 f.2) C.ZCP_SP_SENT := by
  have hsess' : (List.range 4).find? (fun k => (c.hostTaken r f.1).sessOpen k && (c.hostTaken r f.1).rb R.HST_SESS_CFG_SP_SUB k) = some s := hsess
  have hheld : ¬ (c.hostClear = false ∨ c.hp.txWait ≠ []) := by rw [hclear, hempty]; simp
  unfold spPacketSend
  rw [hturn]
  refine (if_neg hheld).trans ?_
  dsimp only
  rw [← Chip.hostTaken, hsess']
  exact congrArg (fun d : Chip => d.inc C.ZCP_SP_SENT 0) (Chip.zcpSend_clear (c := c.hostTaken r f.1) hclear hempty s 0x0B 0 0 0 0 0 f.2)

end Sys2Proof.Machine

namespace Sys2Proof.Safety

open Sys2Proof Sys2Proof.Machine

section
variable (s : State) (c : Chip) (i : Nat) (x : Sess) (o : Output)

/-- What a state reads after a session has been told something. -/
theorem newest_toldAfter (k : Ctr) : newest (s.after (c.told i x o k)) = some o := by
  rw [newest, State.after_chip, Chip.done_out, Chip.told_out, List.head?_cons]

theorem sess_toldAfter (k : Ctr) : (s.after (c.told i x o k)).chip.sess i = x := by
  rw [State.after_chip, Chip.sess_done, Chip.told_sess]

theorem rg_toldAfter (k : Ctr) (g : Fld) (j : Nat) : (s.after (c.told i x o k)).chip.rg g j = c.rg g j := by
  rw [rg_after, Chip.told_rg]

theorem pp_toldAfter (k : Ctr) : (s.after (c.told i x o k)).chip.pp = c.pp := by
  rw [State.after_chip, Chip.done_pp, Chip.told_pp]

theorem counter_toldAfter {k : Ctr}
    (hk : k.key 0 ≠ C.HST_TX_FRAMES.key 0 ∧ k.key 0 ≠ C.HST_TX_BYTES.key 0 ∧ k.key 0 ≠ C.ZCP_TX_MSG.key 0) :
    (s.after (c.told i x o k)).chip.counter k 0 = (c.counter k 0 + 1) % 2 ^ 48 := by
  rw [counter_after, Chip.told_counter _ _ _ _ hk]

end

/-- EVENT_ACK (R347). -/
theorem eventAck_removes (t : Nat) (l : List Byte) (q : ZcpMsg) (n : Nat) (s : State) (hs : ready s) (hclear : (chipAt s t).hostClear = true)
    (_ : s.chip.hp.txWait = []) (hmin : 60 ≤ l.length) (hmax : l.length ≤ 16380) (htype : beAt l 12 2 = 0x88B5)
    (hopens : (chipAt s t).zcpOpens l = some q) (htyp : q.typ = 0x0A) (hresp : bit q.flags 0 = true) (hbody : q.body = beBytes 4 n)
    (hn : n < 2 ^ 32) (hfresh : (s.chip.sess (zcpSess l)).fresh (zcpSeq l) = true) :
    ∃ u, exec (.eventAck t l) s = .next u ∧
      (u.chip.sess (zcpSess l)).unacked = (s.chip.sess (zcpSess l)).unacked.filter (fun g => decide (g.seq ≠ n)) ∧
      u.chip.counter C.ZCP_RX_MSG 0 = (s.chip.counter C.ZCP_RX_MSG 0 + 1) % 2 ^ 48 ∧ regsKept s u [] ∧ u.mem = s.mem := by
  have hrow := eventAck_acks (c := chipAt s t) s.mem hclear hmin hmax htype hopens htyp hresp hbody hn hfresh
  have hnext : exec (.eventAck t l) s = .next (s.after (eventAck l s.mem (chipAt s t))) := State.on_running s t (fun m => eventAck l m) hs.1
  rw [hrow] at hnext
  refine ⟨_, hnext, ?_, (counter_after ..).trans ((chipAt s t).zcpCounted_msg l), fun g j _ => rg_after .., mem_after hs rfl⟩
  rw [State.after_chip, Chip.sess_done, Chip.sess_setSess]
  rfl

/-- EVENT_SEND of results (R347). -/
theorem eventSend_tells (t : Nat) (k : Fin 4) (s : State) (hs : ready s) (hclear : (chipAt s t).hostClear = true)
    (hempty : s.chip.hp.txWait = []) (hopen : s.chip.rg R.HST_SESS_STAT_STATE k = 2) (hfirst : (s.chip.sess k).evtAt = none)
    (hresults : (s.chip.sess k).results ≠ []) (_ : (s.chip.sess k).evtSeq < 2 ^ 32) :
    ∃ u, exec (.eventSend t k) s = .next u ∧ newest u = some (s.chip.zcpOutput k 0x0A 0 0 0 0 0
        (u.chip.eventBody (((s.chip.sess k).evtSeq + 1) % 2 ^ 32) ((s.chip.sess k).results.take 64))) ∧
      (u.chip.sess k).evtSeq = ((s.chip.sess k).evtSeq + 1) % 2 ^ 32 ∧ (u.chip.sess k).results = (s.chip.sess k).results.drop 64 ∧
      (u.chip.sess k).unacked.map (fun g => (g.seq, g.results)) = (s.chip.sess k).unacked.map (fun g => (g.seq, g.results)) ++
        [(((s.chip.sess k).evtSeq + 1) % 2 ^ 32, (s.chip.sess k).results.take 64)] ∧
      u.chip.counter C.ZCP_EVT_SENT 0 = (s.chip.counter C.ZCP_EVT_SENT 0 + 1) % 2 ^ 48 ∧ regsKept s u [] ∧ u.mem = s.mem := by
  have hans : s.chip.AnswersAs (chipAt s t).evtUpdate k :=
    Chip.AnswersAs.evtUpdate (d := chipAt s t) ⟨hclear, hempty, decide_eq_true ⟨k.isLt, hopen⟩, rfl, rfl, rfl, rfl, rfl⟩
  obtain ⟨b, hb⟩ : ∃ b, (chipAt s t).evtUpdate.sess k = (s.chip.sess k).marked b := (chipAt s t).evtUpdate_sess k
  have hrow := eventSend_sends (c := chipAt s t) hans.clear hans.empty hans.isOpen (by rw [hb]; exact hfirst) (by rw [hb]; exact hresults)
  rw [Chip.zcpOutput_alike hans.mac hans.alike, hb] at hrow
  have hnext : exec (.eventSend t k) s = .next (s.after (eventSend k (chipAt s t))) := State.on_running s t (fun _ => eventSend k) hs.1
  have hcount : (chipAt s t).evtUpdate.counter C.ZCP_EVT_SENT 0 = s.chip.counter C.ZCP_EVT_SENT 0 :=
    congrArg (fun n => Tab.get 0 n (C.ZCP_EVT_SENT.key 0)) (chipAt s t).evtUpdate_cnt
  have hmout : (chipAt s t).evtUpdate.mout = s.chip.mout := (chipAt s t).evtUpdate_booked.read (·.mout) fun _ _ _ _ _ => rfl
  have hregs (g : Fld) (j : Nat) : (chipAt s t).evtUpdate.rg g j = s.chip.rg g j := (chipAt s t).evtUpdate_rg g j
  rw [hrow] at hnext
  generalize (chipAt s t).evtUpdate = d at hnext hcount hmout hregs
  refine ⟨_, hnext, ?_, ?_, ?_, ?_, (counter_toldAfter _ _ _ _ _ (by decide)).trans (by rw [hcount]),
    fun g j _ => (rg_toldAfter ..).trans (hregs g j), mem_after hs ((Chip.told_mout ..).trans hmout)⟩
  · rw [newest_toldAfter, State.after_chip, Chip.eventBody_done, Chip.told_eventBody]
    rfl
  · rw [sess_toldAfter]
    rfl
  · rw [sess_toldAfter]
    rfl
  · rw [sess_toldAfter]
    exact List.map_append

/-- EVENT_RESEND (R347). -/
theorem eventResend_tells (t : Nat) (k : Fin 4) (g : EvtFrame) (s : State) (hs : ready s) (hclear : (chipAt s t).hostClear = true)
    (hempty : s.chip.hp.txWait = []) (hopen : s.chip.rg R.HST_SESS_STAT_STATE k = 2) (hone : (s.chip.sess k).unacked = [g])
    (hlate : g.at_ + s.chip.rg R.HST_ZCP_CFG_EVT_RETRY 0 * msPs ≤ max s.chip.now t) (hresults : g.results ≠ []) :
    ∃ u, exec (.eventResend t k) s = .next u ∧
      newest u = some (s.chip.zcpOutput k 0x0A 0 0 0 0 0 ((chipAt s t).eventBody g.seq g.results)) ∧
      (u.chip.sess k).unacked = [{ g with at_ := max s.chip.now t }] ∧
      u.chip.counter C.ZCP_EVT_RESENT 0 = (s.chip.counter C.ZCP_EVT_RESENT 0 + 1) % 2 ^ 48 ∧ regsKept s u [] ∧ u.mem = s.mem := by
  have hopen' : (chipAt s t).sessOpen k = true := decide_eq_true ⟨k.isLt, hopen⟩
  have hrow := eventResend_sends (c := chipAt s t) hclear hempty hopen' hone hlate hresults
  have hnext : exec (.eventResend t k) s = .next (s.after (eventResend k (chipAt s t))) := State.on_running s t (fun _ => eventResend k) hs.1
  rw [hrow] at hnext
  refine ⟨_, hnext, newest_toldAfter .., ?_, counter_toldAfter _ _ _ _ _ (by decide), fun g j _ => rg_toldAfter ..,
    mem_after hs (Chip.told_mout ..)⟩
  rw [sess_toldAfter]
  rfl

/-- SP_PACKET_SEND to a session (R345). -/
theorem spPacketSend_tells (t : Nat) (f : Nat × List Byte) (r : List (Nat × List Byte)) (k : Nat) (s : State) (hs : ready s)
    (hclear : (chipAt s t).hostClear = true) (hempty : s.chip.hp.txWait = []) (hturn : s.chip.hostTurn = some (f, r))
    (hsess : (List.range 4).find? (fun k => s.chip.sessOpen k && s.chip.rb R.HST_SESS_CFG_SP_SUB k) = some k) :
    ∃ u, exec (.spPacketSend t) s = .next u ∧ newest u = some (s.chip.zcpOutput k 0x0B 0 0 0 0 0 f.2) ∧ u.chip.pp.hostQ = r ∧
      u.chip.pp.hostLast = f.1 ∧ u.chip.counter C.ZCP_SP_SENT 0 = (s.chip.counter C.ZCP_SP_SENT 0 + 1) % 2 ^ 48 ∧ regsKept s u [] ∧
      u.mem = s.mem := by
  have hrow := spPacketSend_sends (c := chipAt s t) hclear hempty hturn hsess
  have hnext : exec (.spPacketSend t) s = .next (s.after (spPacketSend (chipAt s t))) := State.on_running s t (fun _ => spPacketSend) hs.1
  rw [hrow] at hnext
  exact ⟨_, hnext, newest_toldAfter .., congrArg PipeSt.hostQ (pp_toldAfter ..), congrArg PipeSt.hostLast (pp_toldAfter ..),
    counter_toldAfter _ _ _ _ _ (by decide), fun g j _ => rg_toldAfter .., mem_after hs (Chip.told_mout ..)⟩

/-- Settles O29, command by command: a request is answered on the chip that its work left, and a session that is told something changes its own
slot, the port's counters and that of what was told. -/
theorem packetAndEventCommands : Obligations.PacketAndEventCommands :=
  ⟨zcpAttest_reports, zcpPacket_passes, eventAck_removes, eventSend_tells, eventResend_tells, spPacketSend_tells⟩

end Sys2Proof.Safety
end
